-- ==== Sys2Proof/Word.lean ====
section
/-!
DEFINITION. Word.lean: the plain words of the block. A byte of memory is a `Byte`; a runnel register and a
configuration register hold 32 bits; a device address and a 64-bit quantity are computed modulo 2^64.
-/
namespace Sys2Proof

/-- One byte (R5: multi-byte values are little-endian byte strings). -/
abbrev Byte := BitVec 8
/-- A 32-bit register or lane value. -/
abbrev W32 := BitVec 32
/-- A 64-bit address or pair value. -/
abbrev W64 := BitVec 64

end Sys2Proof
end

