-- ==== Sys2Proof/Syntax.lean ====
section
/-!
DEFINITION. Syntax.lean: the commands of the block, one constructor per row of spec/opcode_table.json, with the
operand records they carry. Operands that name an outcome of the physical world (a sensor, a NAND status, a decode
result, the energy of the hold-up bank) are the environment's part of the command.
-/
namespace Sys2Proof

/-- What an operation meets in an island's control SRAM (R411, R414, R420). -/
inductive SramUpset where
  | none
  /-- a corrected word -/
  | fixed (island : Nat)
  /-- an uncorrectable word of one copy of a duplicated table -/
  | copy (island : Nat)
  /-- an uncorrectable word that has no second copy -/
  | lost (island : Nat)
  deriving DecidableEq, Repr

/-- A submitted DQP command, named by its queue and its TAG (R74), with what it meets in control SRAM. -/
structure CmdId where
  sqid : Nat
  tag : Nat
  sram : SramUpset
  deriving DecidableEq, Repr

/-- SEQ, ACK and CREDIT of a sequenced host flit (R64). -/
structure FlitHdr where
  seq : Nat
  ack : Nat
  credit : Nat
  deriving DecidableEq, Repr

/-- An entry of a DOORBELL flit (R65): QID, KIND, the reserved byte, VALUE. -/
structure DbEntry where
  qid : Nat
  kind : Nat
  rsv : Nat
  value : Nat
  deriving DecidableEq, Repr

/-- An entry of a REG_REQ flit (R65): ADDR, OP, the reserved bytes, VALUE. -/
structure RegEntry where
  addr : Nat
  op : Nat
  rsv : Nat
  value : Nat
  deriving DecidableEq, Repr

/-- A host flit whose work may wait in a receive buffer (R522). -/
inductive HostFlit where
  | doorbell (entries : List DbEntry)
  | regReq (entries : List RegEntry)
  | pullData (offset reqId : Nat) (data : List Byte)
  deriving DecidableEq, Repr

/-- What the environment does to an instruction or a read (R240, R411, R414, R417). -/
inductive Upset where
  | none
  /-- a corrected codeword: of the data read, or of the old data under a narrow write; where nothing is, of the register area -/
  | fixed
  /-- a correction in the unit's own array: an instruction cache line refetched, a flume staging word -/
  | inner
  /-- a residue mismatch of a checked operation (R240); an uncorrectable codeword of the data read or under a narrow write, else
  of the register area (R238, R417, R423) -/
  | hit
  /-- the same of the data that one thread accesses -/
  | fixedAt (thread : Nat)
  | hitAt (thread : Nat)
  /-- an uncorrectable word of the register area, of a thread's registers (R238) -/
  | register (thread : Nat)
  /-- the codeword that holds the instruction or the program is uncorrectable (R417) -/
  | fetch
  /-- an uncorrectable word of the unit's own staging buffer, which the data carry (R411) -/
  | staging
  /-- an error of this value in a thread's result on a checked path: detected unless it is a multiple of 7 (R421) -/
  | error (thread value : Nat)
  deriving DecidableEq, Repr

/-- A rill slot, and what the environment does to this instruction. -/
structure RillAt where
  reach : Nat
  runnel : Nat
  slot : Nat
  upset : Upset
  deriving DecidableEq, Repr

/-- A program slot of a flume engine (R242). -/
structure FlumeAt where
  reach : Nat
  engine : Nat
  slot : Nat
  deriving DecidableEq, Repr

/-- A program slot, and what the environment does to a read of its program or to a write it makes (R417, R423). -/
structure FlumeMem where
  at' : FlumeAt
  upset : Upset
  deriving DecidableEq, Repr

/-- A register access: address and width in bytes (R8). -/
structure RegAt where
  addr : Nat
  width : Nat
  deriving DecidableEq, Repr

/-- The pins sampled as the input qualifies: the mode of the management port, and 3.3 V rather than 1.8 V on VDD_MGMT (R503, R504). -/
structure MgmtPins where
  i3c : Bool
  vdd33 : Bool
  deriving DecidableEq, Repr

/-- What a command is about, with the codewords of device memory that its reads, and the old data under its narrow writes, meet as
uncorrectable and as corrected (R414, R417, R419, R423). -/
structure Finding (α : Type) where
  of : α
  bad : List Nat
  fixed : List Nat
  deriving DecidableEq, Repr

/-- The queries a sweep takes: their metric, with the pools whose bound record, and the nodes whose record, cannot be read after
rebuild (R318, R330). -/
structure SweepAt where
  metric : Nat
  unbound : List Nat
  lost : List Nat
  deriving DecidableEq, Repr

/-- How the codewords of a page read decoded (R356, R412). -/
inductive ReadOutcome where
  /-- decoded: the bits corrected in each of the page's four codewords, 0 where the list ends -/
  | decoded (bits : List Nat)
  /-- `bad` codewords, at least one, did not decode at this read level -/
  | failed (bad : Nat)
  /-- the same, and another member's page at the position does not decode either, should a rebuild need it (R388) -/
  | pair (bad : Nat)
  /-- decoded, but Balonte block `k` of those that touch the page is invalid (R343) -/
  | badBlock (k : Nat)
  deriving DecidableEq, Repr

/-- A page read of a unit that was not clean (R356, R388): the unit's place in what is read, the page's place in the unit's block,
the read-level set of its last read, and how that read decoded. -/
structure PageRead where
  unit : Nat
  page : Nat
  level : Nat
  outcome : ReadOutcome
  deriving DecidableEq, Repr

/-- A waiting decode, with the page reads of its content that were not clean (R338, R356). -/
structure DecodeAt where
  n : Nat
  outs : List PageRead
  deriving DecidableEq, Repr

/-- What the write buffer and the journal buffer show of a unit that is placed (R411, R414, R415). -/
inductive BufUpset where
  | none
  /-- a corrected word of the write buffer, or of the journal buffer -/
  | fixed (journal : Bool)
  /-- an uncorrectable word of the write buffer, which touches these blocks, a mask -/
  | blocks (mask : Nat)
  /-- an uncorrectable word of the journal buffer, in the unit's record -/
  | journal
  deriving DecidableEq, Repr

/-- A write-buffer slot, with what its placing meets in the buffers (R383, R415). -/
structure SlotAt where
  slot : Nat
  upset : BufUpset
  deriving DecidableEq, Repr

/-- What a bus start of a channel finds (R349, R350, R370): a cause, 0 none; for causes 5 and 9 the die concerned, where 5 takes the
four dies of its target. -/
structure LineFault where
  cause : Nat
  die : Nat
  deriving DecidableEq, Repr

/-- The erase-verify reads of a block at the scan (R365): plane and block number, and the 0 bits sensed in its first and in its last
wordline's lower page. -/
structure Sensed where
  die : Nat
  plane : Nat
  block : Nat
  first : Nat
  last : Nat
  deriving DecidableEq, Repr

/-- How a replacement's copy ended (R395): verified or not, and the pages of the member, as (row, plane * 4 + page), that neither a
read nor a rebuild recovered. -/
structure Copied where
  verified : Bool
  lost : List (Nat × Nat)
  deriving DecidableEq, Repr

/-- What the environment did to a pass (R168). -/
inductive TileUpset where
  /-- residue mismatch in a column -/
  | residue (col : Nat)
  /-- uncorrectable weight latch of a cell: its column -/
  | latch (col : Nat)
  /-- uncorrectable feeder entry of a row -/
  | feeder (row : Nat)
  /-- uncorrectable accumulator word: of the partner bank or the destination bank, of a row of the pass and its column; in
  millrace mode of activation row `row` and output `col` -/
  | word (partner : Bool) (row col : Nat)
  /-- a corrected accumulator word of that place (R414) -/
  | fixed (partner : Bool) (row col : Nat)
  /-- an uncorrectable word of that place under a narrow write of the pass, which it does not read (R423) -/
  | under (partner : Bool) (row col : Nat)
  /-- an error of this value in the result of that place on a checked path: a residue mismatch unless it is a multiple of 7 (R421) -/
  | error (row col value : Nat)
  deriving DecidableEq, Repr

/-- What the environment did to a pool read (R320, R330, R422). `unit`: the sieve unit, of those that read the pool, that met it. -/
inductive SieveUpset where
  | none
  /-- a residue mismatch in the unit -/
  | residue (unit : Nat)
  /-- an error of this value in the distance of a member: a mismatch unless it is a multiple of 7 (R421) -/
  | error (unit member value : Nat)
  /-- an uncorrectable word in a heap of the unit, which these queries' heaps held -/
  | heap (unit : Nat) (queries : List Nat)
  /-- a corrected word in a heap of the unit (R414) -/
  | fixed (unit : Nat)
  /-- the members of these indices could not be read from the media -/
  | unread (unit : Nat) (members : List Nat)
  deriving DecidableEq, Repr

/-- What the frame and bitstream buffers of a decode showed (R411, R414, R420): a corrected word, or an uncorrectable one met at an
output frame. -/
inductive FrameUpset where
  | none
  | fixed
  | hit (frame : Nat)
  deriving DecidableEq, Repr

/-- What the environment showed during a start-up step (R445): nothing here is the module's own state. -/
structure StepEnv where
  /-- the work of the step ended well: rails, clocks and sensors (steps 1 to 3) -/
  ok : Bool
  /-- the SRAM PUF response (R461) -/
  puf : List Byte
  /-- entropy drawn for an enrolment (R465) -/
  entropy : List Byte
  /-- stacks whose training failed, a mask (R446) -/
  badStacks : Nat
  /-- what the line tests at channel start found, by channel (R370) -/
  channels : List (Nat × LineFault)
  /-- the scan's erase-verify reads, by channel (R365, R366) -/
  sensed : List (Nat × Sensed)
  /-- factory markers of new dies: channel, die, plane and block number (R352) -/
  marked : List (Nat × Nat × Nat × Nat)
  /-- usable energy of the hold-up bank in J (R449) -/
  energy : Nat
  deriving DecidableEq, Repr

/-- The commands: one constructor per row of the table, in the table's order. -/
inductive Instr where
  /-- REG_WRITE (R9): A write to a configuration register that has no row of its own is checked for width, owner, reserved bits and legal values, then applied under its access type or rejected whole. -/
  | regWrite (port : Nat) (access : RegAt) (value : Nat)
  /-- LO_READ_LATCH (R474): A read of a register named _LO returns its low bits and latches the matching _HI register for the reading port. -/
  | loReadLatch (port addr : Nat)
  /-- GROUP_COMMIT (R52): A write of 1 to a commit group's GO validates the staged set and, if it is consistent, copies it to the pending set and increments COMMITTED. -/
  | groupCommit (port addr value : Nat)
  /-- GROUP_ADOPT (R53): At its next safe point a unit with PENDING = 1 copies the pending set to its active set, sets ADOPTED and clears PENDING. -/
  | groupAdopt (addr : Nat)
  /-- SIDEBAND_REG_ACCESS (R62): A UCIe sideband register-access packet reads or writes a configuration register with owner port Host. -/
  | sidebandRegAccess (write : Bool) (access : RegAt) (value : Nat)
  /-- SB_IMG_OPEN (R63): A write of DQP_SB_IMG_CTRL.CMD = 1 opens a sideband image transfer and sets COUNT to 0. -/
  | sbImgOpen
  /-- SB_IMG_DATA (R63): A write to DQP_SB_IMG_DATA appends up to four image bytes and advances COUNT. -/
  | sbImgData (value : Nat)
  /-- SB_IMG_SUBMIT (R63): A write of DQP_SB_IMG_CTRL.CMD = 2 once COUNT equals LENGTH submits the sideband image to check() and reports the result. -/
  | sbImgSubmit
  /-- INPUT_QUALIFIED (R450): The 48 V input is held between 42 V and 60 V for 10 ms and start-up step 1 begins. -/
  | inputQualified (slotId : Nat) (pins : MgmtPins)
  /-- START_UP_STEP_END (R445): A start-up step finishes its work and the next step begins, or the module becomes RUNNING after step 8. -/
  | startUpStepEnd (env : StepEnv)
  /-- LINK_TRAINED (R519): The main link trains, beginning a flit session or continuing it, and queued device flits are sent once it is in L0. -/
  | linkTrained (sideband : Bool)
  /-- FLIT_REJECTED (R66): A flit with a bad CRC, out of sequence, sent without credit or of a reserved or wrong-direction type is discarded, NAKed or counted as R66 orders. -/
  | flitRejected (raw : List Byte)
  /-- IDLE (R519): A received IDLE flit supplies the partner's ACK and its full freed-buffer count, restoring credit. -/
  | idle (ack freed : Nat)
  /-- INIT (R519): A received LINK INIT flit sets the receiver's credit count to the advertised receive buffers at session start. -/
  | init (ack credit buffers : Nat)
  /-- NAK (R519): A received LINK NAK flit starts a replay from the named held flit, or is ignored or counted as BAD_TYPE. -/
  | nak (ack credit number : Nat)
  /-- DOORBELL (R71): A DOORBELL flit sets SQ tails and CQ heads entry by entry, ignoring bad entries and recording them in DQP_DB_ERR. -/
  | doorbell (hdr : FlitHdr) (entries : List DbEntry)
  /-- REG_REQ (R65): A REG_REQ flit performs up to 15 register reads and writes in order and returns a REG_RSP entry for each. -/
  | regReq (hdr : FlitHdr) (entries : List RegEntry)
  /-- PULL_DATA (R67): A PULL_DATA flit delivers host bytes for an outstanding PULL_REQ entry at the given offset. -/
  | pullData (hdr : FlitHdr) (offset reqId : Nat) (data : List Byte)
  /-- REPLAY_TIMEOUT (R66): The device's oldest unacknowledged flit has waited 8,192 island-56 cycles without ACK advance and is replayed. -/
  | replayTimeout
  /-- IDLE_DUE (R519): An unreturned ACK or credit, or the 8,192-cycle keep-alive interval, makes the device send an IDLE flit. -/
  | idleDue
  /-- COMMAND_FETCH (R72): The device fetches the next command from an SQ chosen by admin-first weighted round-robin and dispatches it by opcode. -/
  | commandFetch
  /-- CQ_COALESCE_TIMEOUT (R73): COAL_TIME has elapsed since the oldest unsignalled completion of a CQ and INTERRUPT is sent with its vector. -/
  | cqCoalesceTimeout (cqid : Nat)
  /-- DQP_ENABLE (R69): A write of DQP_CTRL.EN = 1 starts DQP on the admin queue pair. -/
  | dqpEnable
  /-- DQP_DISABLE (R69): A write of DQP_CTRL.EN = 0 abandons outstanding commands, deletes I/O queues and clears RDY. -/
  | dqpDisable
  /-- IDENTIFY (R79): Returns the 4,096-byte record of features, UCIe modules and namespace capacities. -/
  | identify (c : CmdId)
  /-- CREATE_SQ (R70): Creates an I/O submission queue bound to a CQ and the namespace. -/
  | createSq (c : CmdId)
  /-- DELETE_SQ (R70): Deletes an SQ, aborting its unstarted commands with 0x2005 and completing after its started commands. -/
  | deleteSq (c : CmdId)
  /-- CREATE_CQ (R70): Creates an I/O completion queue with its interrupt vector and coalescing settings. -/
  | createCq (c : CmdId)
  /-- DELETE_CQ (R70): Deletes a CQ that has no SQ bound. -/
  | deleteCq (c : CmdId)
  /-- GET_LOG (R407): Returns the requested range of the health log. -/
  | getLog (c : CmdId)
  /-- GET_FEATURE_CQ_INTERRUPT (R80): Returns a CQ's vector and coalescing settings. -/
  | getFeatureCqInterrupt (c : CmdId)
  /-- GET_FEATURE_SQ_CLASS (R80): Returns an SQ's priority class, bound CQ and namespace. -/
  | getFeatureSqClass (c : CmdId)
  /-- SET_FEATURE_CQ_INTERRUPT (R80): Changes a CQ's vector, COAL_COUNT and COAL_TIME. -/
  | setFeatureCqInterrupt (c : CmdId)
  /-- SET_FEATURE_SQ_CLASS (R80): Changes an SQ's arbitration class from the next fetch decision. -/
  | setFeatureSqClass (c : CmdId)
  /-- SET_POWER (R86): Starts a transition to the named power state, or is refused for DP3 while contexts are allocated. -/
  | setPower (c : CmdId)
  /-- POWER_STATE_ENTERED (R86): A power-state entry finishes and its SET_POWER completes with the state reached. -/
  | powerStateEntered (pastPoint : Bool)
  /-- POWER_STATE_EXITED (R86): A power-state exit finishes and held commands resume. -/
  | powerStateExited
  /-- ABORT (R79): Abandons a named command if it has not started, which then completes with 0x2005. -/
  | abort (c : CmdId)
  /-- IMAGE_WRITE (R48): Validates a new Krahial image and writes and reads back both copies of its target slot. -/
  | imageWrite (c : CmdId) (readBackOk : Nat)
  /-- ATTEST_QUOTE (R466): Queues a host attestation quote over the supplied nonce. -/
  | attestQuote (c : CmdId)
  /-- QUOTE_SIGNED (R469): Island 58 finishes signing the quote at the head of its queue and delivers it to the requesting port. -/
  | quoteSigned
  /-- UNIT_DRAIN (R452): UNIT_STATE with ORDER 0 takes a unit from ONLINE to DRAINING. -/
  | unitDrain (c : CmdId)
  /-- UNIT_TEST (R452): UNIT_STATE with ORDER 1 takes a unit to TESTING and starts its self-test. -/
  | unitTest (c : CmdId)
  /-- UNIT_JOIN (R452): UNIT_STATE with ORDER 2 takes a tested unit to JOINING. -/
  | unitJoin (c : CmdId) (fault : LineFault) (sensed : List Sensed) (marked : List (Nat × Nat × Nat))
  /-- UNIT_OFFLINE (R452): UNIT_STATE with ORDER 3 takes a TESTING unit to OFFLINE. -/
  | unitOffline (c : CmdId)
  /-- SHUTDOWN_HALT (R442): SHUTDOWN with ACTION 0 stops fetching, ends commands and contexts, flushes buffers and halts the module. -/
  | shutdownHalt (c : CmdId)
  /-- SHUTDOWN_RESET (R442): SHUTDOWN with ACTION 1 does the same as a halt and then restarts the module at step 1. -/
  | shutdownReset (c : CmdId)
  /-- SHUTDOWN_WAIT_EXPIRE (R442): The WAIT of a non-forced halt or reset expires and started commands still running complete with 0x2008. -/
  | shutdownWaitExpire
  /-- HALT_FLUSH_COMPLETE (R441): Write and journal buffers are flushed during HALTING and the module becomes HALTED or restarts. -/
  | haltFlushComplete
  /-- READ (R78): Reads logical blocks, merging write-buffer and flash data block by block. -/
  | read (c : CmdId)
  /-- WRITE (R78): Writes logical blocks into the write buffer and completes from the buffer or, with FUA, once staged or programmed. -/
  | write (c : CmdId)
  /-- WRITE_RESUME (R383): A WRITE waiting at island 56 for a free write-buffer slot obtains one and continues. -/
  | writeResume (c : CmdId)
  /-- FLUSH (R78): Completes once every earlier completed write of the namespace is on media. -/
  | flush (c : CmdId)
  /-- TRIM (R389): Unmaps whole units of a range and rewrites partly covered units with the covered blocks zeroed. -/
  | trim (c : CmdId)
  /-- SECURE_DISCARD_RANGE (R402): SECURE_DISCARD with SCOPE 0 trims a block range and erases every physical copy of it. -/
  | secureDiscardRange (c : CmdId)
  /-- SECURE_DISCARD_RELEASED (R402): SECURE_DISCARD with SCOPE 1 erases all released, unerased device-managed storage of the domain. -/
  | secureDiscardReleased (c : CmdId)
  /-- VERIFY (R390): Reads and decodes every mapped block of a range without transferring data. -/
  | verify (c : CmdId)
  /-- RAW_READ_CORRECTED (R373): RAW_READ mode 0 returns one physical page's corrected data and out-of-band record. -/
  | rawReadCorrected (c : CmdId)
  /-- RAW_READ_STORED (R373): RAW_READ mode 1 returns one physical page's 18,432 stored bytes undecoded. -/
  | rawReadStored (c : CmdId)
  /-- RAW_READ_ERASE_COUNT (R373): RAW_READ mode 2 returns the erase-verify zero count of one page. -/
  | rawReadEraseCount (c : CmdId) (zeros : Nat)
  /-- OBJ_REGISTER (R300): Registers a host-stored object over written extents with its attributes. -/
  | objRegister (c : CmdId)
  /-- OBJ_SET_ATTR (R301): Changes the masked attribute fields of an object together. -/
  | objSetAttr (c : CmdId)
  /-- OBJ_DELETE (R302): Removes an object entry, creating a tombstone where needed and completing after earlier sweeps. -/
  | objDelete (c : CmdId)
  /-- OBJ_LOOKUP (R303): Returns an object's entry and extents. -/
  | objLookup (c : CmdId)
  /-- OBJ_MAP (R109): Gives an object a range in the object window or increments its map count. -/
  | objMap (c : CmdId)
  /-- OBJ_UNMAP (R109): Decrements an object's map count and releases its window range at zero. -/
  | objUnmap (c : CmdId)
  /-- TIER_MOVE_RESIDENT (R116): TIER_MOVE with DEST 1 fetches every non-resident page of a range into tier 1. -/
  | tierMoveResident (c : CmdId)
  /-- TIER_MOVE_RELEASE (R116): TIER_MOVE with DEST 2 releases the tier-1 frames of an unpinned range. -/
  | tierMoveRelease (c : CmdId)
  /-- TIER_PIN (R117): Makes a range resident and increments each page's pin count. -/
  | tierPin (c : CmdId)
  /-- TIER_UNPIN (R117): Decrements each page's pin count in a range. -/
  | tierUnpin (c : CmdId)
  /-- TIER_HINT (R115): Records placement hints and sets an object's grain. -/
  | tierHint (c : CmdId)
  /-- SHADOW_SET (R127): Gives an object its spillway path. -/
  | shadowSet (c : CmdId)
  /-- QUOTA_QUERY (R125): Returns the active limits and use of the namespace's quota domain. -/
  | quotaQuery (c : CmdId)
  /-- TM_MODE_WRITE (R114): A write of TM_CTRL.MODE changes placement policy from the next decision, placing hinted mapped objects when set to hint mode. -/
  | tmModeWrite (port value : Nat)
  /-- PAGE_FETCH_COMPLETE (R111): A tier-2 read for a window fault or tier fetch delivers a page into its frame and waiting accesses complete. -/
  | pageFetchComplete (nsid obj idx : Nat) (outs : List PageRead)
  /-- TIER_FETCH_COMPLETE (R129): A tier fetch's range becomes resident or fails and its completion or fetch record is written. -/
  | tierFetchComplete (id : Nat)
  /-- DEADLINE_EXPIRE (R126): A tier fetch's deadline count is reached with pages missing and the spillway path is taken or a miss counted. -/
  | deadlineExpire (id : Nat)
  /-- EXTENT_COPY_COMPLETE (R136): A drain copy of one stack extent finishes, STK_REMAP is updated and the source released. -/
  | extentCopyComplete (stack : Nat) (ext : Finding Nat)
  /-- STACK_DRAIN_COMPLETE (R134): The last extent of a DRAINING stack is moved and the stack becomes OFFLINE. -/
  | stackDrainComplete (stack : Nat)
  /-- STACK_VALID_CLEAR_DONE (R138): A joining stack finishes clearing its valid bits and releases its first capacity step. -/
  | stackValidClearDone (stack : Nat)
  /-- STACK_JOIN_STEP (R138): Another 150,000,000 island-57 cycles pass and a joining stack releases its next capacity step, becoming ONLINE after the eighth. -/
  | stackJoinStep (stack : Nat)
  /-- STACK_FAULT (R139): The protection logic declares a stack uncorrectably faulted; it goes OFFLINE and its uncopied arena extents become poisoned. -/
  | stackFault (stack : Nat)
  /-- STACK_SCRUB (R414): The scrub interval passes and the stack controller reads every valid granule, correcting and reporting errors. -/
  | stackScrub (stack : Nat) (corrected uncorrectable : List Nat)
  /-- CTX_CREATE (R267): Creates a context in a slot and allocates its arena. -/
  | ctxCreate (c : CmdId)
  /-- CTX_DESTROY (R273): Stops a context's work, completes its launches with 0x2006 and frees its slot, residency and arena. -/
  | ctxDestroy (c : CmdId)
  /-- CTX_LAUNCH (R212): Accepts a launch of rills of a context, copying its buffer to ARG_DEST. -/
  | ctxLaunch (c : Finding CmdId)
  /-- CTX_SET_PRIORITY (R272): Sets a context's PRIORITY and HOLD. -/
  | ctxSetPriority (c : CmdId)
  /-- CTX_IMAGE_SAVE (R290): Starts saving a state context's attention state as a context image. -/
  | ctxImageSave (c : Finding CmdId)
  /-- CTX_IMAGE_LOAD (R291): Starts loading a context image into a state context's arena. -/
  | ctxImageLoad (c : CmdId)
  /-- CTX_QUERY (R274): Returns a context's state record. -/
  | ctxQuery (c : CmdId)
  /-- IMAGE_SAVE_COMPLETE (R290): A context image save finishes on media, registers the new version and returns the context to STATE or IMAGED. -/
  | imageSaveComplete (ctx : Nat)
  /-- IMAGE_LOAD_COMPLETE (R292): A context image load ends, keeping usable segments and reporting missing ones. -/
  | imageLoadComplete (ctx : Nat) (failed : Nat)
  /-- CONTEXT_COLD (R293): An AUTO state context reaches its cold time and the scheduler starts an automatic image save. -/
  | contextCold (ctx : Finding Nat)
  /-- STEP_MEMBERS_PRESENT (R289): Every member of a batch step is present, the step list is filled and copied, and the step's rills may start. -/
  | stepMembersPresent (ctx : Nat) (launch : Finding Nat)
  /-- SCHED_DECISION (R281): The scheduler chooses contexts to enter and victims to leave after a scheduling event. -/
  | schedDecision
  /-- QUANTUM_END (R276): A scheduler quantum ends and a decision follows. -/
  | quantumEnd
  /-- CONTEXT_DRAIN_END (R277): A leaving context's queued unit operations complete, its rills stop and its save begins. -/
  | contextDrainEnd (ctx : Nat)
  /-- CONTEXT_SAVE_COMPLETE (R277): A leaving context's save finishes on every reach and its residency slots are released. -/
  | contextSaveComplete (ctx : Finding Nat)
  /-- CONTEXT_RESTORE_COMPLETE (R279): An entering context's restore finishes, its save area is released and its rills resume. -/
  | contextRestoreComplete (ctx : Finding Nat)
  /-- TURN_BOUNDARY (R283): The current turn's DURATION ends and the next turn begins. -/
  | turnBoundary
  /-- TURN_LEAD_POINT (R285): The lead point of a coming turn passes and its entry and eviction rules apply. -/
  | turnLeadPoint
  /-- TURN_SIGNAL_APPLY (R286): A reach applies a turn start or end handshake, holding or releasing rills. -/
  | turnSignalApply (reach : Nat)
  /-- RILL_START (R213): A rill of a launch starts in a freed rill slot at ENTRY with initial registers. -/
  | rillStart (reach runnel slot ctx : Nat)
  /-- LAUNCH_COMPLETE (R215): Every rill of a launch has exited or stopped and its work is visible, so CTX_LAUNCH completes. -/
  | launchComplete (ctx : Nat) (launch : Finding Nat)
  /-- RESERVED_OPCODE (R218): An instruction with a reserved opcode stops its rill with 0x1001. -/
  | rillReservedOpcode (r : RillAt)
  /-- IADD (R219): 32-bit integer add. -/
  | rillIadd (r : RillAt)
  /-- ISUB (R219): 32-bit integer subtract. -/
  | rillIsub (r : RillAt)
  /-- IMUL (R219): 32-bit integer multiply, low half. -/
  | rillImul (r : RillAt)
  /-- IMULHI (R219): Signed 32-bit multiply, high half. -/
  | rillImulhi (r : RillAt)
  /-- UMULHI (R219): Unsigned 32-bit multiply, high half. -/
  | rillUmulhi (r : RillAt)
  /-- IDIV (R219): Signed 32-bit divide. -/
  | rillIdiv (r : RillAt)
  /-- UDIV (R219): Unsigned 32-bit divide. -/
  | rillUdiv (r : RillAt)
  /-- IREM (R219): Signed 32-bit remainder. -/
  | rillIrem (r : RillAt)
  /-- UREM (R219): Unsigned 32-bit remainder. -/
  | rillUrem (r : RillAt)
  /-- IADD64 (R219): 64-bit integer add on register pairs. -/
  | rillIadd64 (r : RillAt)
  /-- ISUB64 (R219): 64-bit integer subtract on register pairs. -/
  | rillIsub64 (r : RillAt)
  /-- IMUL64 (R219): 64-bit integer multiply on register pairs. -/
  | rillImul64 (r : RillAt)
  /-- AND (R217): Bitwise AND. -/
  | rillAnd (r : RillAt)
  /-- OR (R217): Bitwise OR. -/
  | rillOr (r : RillAt)
  /-- XOR (R217): Bitwise XOR. -/
  | rillXor (r : RillAt)
  /-- NOT (R217): Bitwise NOT. -/
  | rillNot (r : RillAt)
  /-- SHL (R219): Shift left by B[4:0]. -/
  | rillShl (r : RillAt)
  /-- SHR (R219): Logical shift right by B[4:0]. -/
  | rillShr (r : RillAt)
  /-- SAR (R219): Arithmetic shift right by B[4:0]. -/
  | rillSar (r : RillAt)
  /-- ROTL (R219): Rotate left by B[4:0]. -/
  | rillRotl (r : RillAt)
  /-- POPC (R217): Population count. -/
  | rillPopc (r : RillAt)
  /-- CLZ (R217): Count leading zeros. -/
  | rillClz (r : RillAt)
  /-- IMIN (R217): Signed minimum. -/
  | rillImin (r : RillAt)
  /-- IMAX (R217): Signed maximum. -/
  | rillImax (r : RillAt)
  /-- UMIN (R217): Unsigned minimum. -/
  | rillUmin (r : RillAt)
  /-- UMAX (R217): Unsigned maximum. -/
  | rillUmax (r : RillAt)
  /-- SEL (R217): Writes A where predicate C is 1 and B otherwise. -/
  | rillSel (r : RillAt)
  /-- MOV (R217): Register move. -/
  | rillMov (r : RillAt)
  /-- MOVI (R217): Moves a 32-bit immediate into a register. -/
  | rillMovi (r : RillAt)
  /-- IADDI (R217): Adds a 32-bit immediate. -/
  | rillIaddi (r : RillAt)
  /-- SETP (R217): Writes a predicate from an integer comparison. -/
  | rillSetp (r : RillAt)
  /-- PLOP (R217): Combines two predicates into a third. -/
  | rillPlop (r : RillAt)
  /-- SHFL (R217): Reads a register of another thread of the rill. -/
  | rillShfl (r : RillAt)
  /-- VOTEANY (R217): Writes a predicate true if any active thread's predicate is true. -/
  | rillVoteany (r : RillAt)
  /-- VOTEALL (R217): Writes a predicate true if every active thread's predicate is true. -/
  | rillVoteall (r : RillAt)
  /-- BALLOT (R217): Writes the mask of active threads whose predicate is 1. -/
  | rillBallot (r : RillAt)
  /-- SREG (R214): Reads a special value such as TID, SLOT or the cycle counter. -/
  | rillSreg (r : RillAt)
  /-- FADD (R220): FP32 add. -/
  | rillFadd (r : RillAt)
  /-- FSUB (R220): FP32 subtract. -/
  | rillFsub (r : RillAt)
  /-- FMUL (R220): FP32 multiply. -/
  | rillFmul (r : RillAt)
  /-- FFMA (R220): FP32 fused multiply-add with one rounding. -/
  | rillFfma (r : RillAt)
  /-- FMIN (R220): FP32 minimum. -/
  | rillFmin (r : RillAt)
  /-- FMAX (R220): FP32 maximum. -/
  | rillFmax (r : RillAt)
  /-- FABS (R220): FP32 absolute value. -/
  | rillFabs (r : RillAt)
  /-- FNEG (R220): FP32 negation. -/
  | rillFneg (r : RillAt)
  /-- FSETP (R217): Writes a predicate from an FP32 comparison. -/
  | rillFsetp (r : RillAt)
  /-- FDIV (R220): FP32 divide, correctly rounded. -/
  | rillFdiv (r : RillAt)
  /-- FSQRT (R220): FP32 square root, correctly rounded. -/
  | rillFsqrt (r : RillAt)
  /-- RCP (R220): FP32 reciprocal within 1 ulp. -/
  | rillRcp (r : RillAt)
  /-- RSQ (R220): FP32 reciprocal square root within 1 ulp. -/
  | rillRsq (r : RillAt)
  /-- EXP2 (R220): FP32 base-2 exponential. -/
  | rillExp2 (r : RillAt)
  /-- LOG2 (R220): FP32 base-2 logarithm. -/
  | rillLog2 (r : RillAt)
  /-- SINP (R220): Computes sin(2πx). -/
  | rillSinp (r : RillAt)
  /-- COSP (R220): Computes cos(2πx). -/
  | rillCosp (r : RillAt)
  /-- CVTN (R221): Converts FP32 to a narrow element format with nearest-even or stochastic rounding. -/
  | rillCvtn (r : RillAt)
  /-- CVTW (R221): Converts a narrow element code to FP32 exactly. -/
  | rillCvtw (r : RillAt)
  /-- I2F (R221): Converts an integer to FP32. -/
  | rillI2f (r : RillAt)
  /-- F2I (R221): Converts FP32 to an integer toward zero, saturating. -/
  | rillF2i (r : RillAt)
  /-- PACK (R221): Writes an element into a packed register. -/
  | rillPack (r : RillAt)
  /-- UNPACK (R221): Extracts an element from a packed register. -/
  | rillUnpack (r : RillAt)
  /-- LD (R222): Loads from the device address space under the region and ordering rules. -/
  | rillLd (r : RillAt)
  /-- ST (R222): Stores to the device address space, read-modify-writing narrow stores. -/
  | rillSt (r : RillAt)
  /-- AADD (R230): Atomic integer add. -/
  | rillAadd (r : RillAt)
  /-- ASMIN (R230): Atomic signed minimum. -/
  | rillAsmin (r : RillAt)
  /-- ASMAX (R230): Atomic signed maximum. -/
  | rillAsmax (r : RillAt)
  /-- AUMIN (R230): Atomic unsigned minimum. -/
  | rillAumin (r : RillAt)
  /-- AUMAX (R230): Atomic unsigned maximum. -/
  | rillAumax (r : RillAt)
  /-- AAND (R230): Atomic AND. -/
  | rillAand (r : RillAt)
  /-- AOR (R230): Atomic OR. -/
  | rillAor (r : RillAt)
  /-- AXOR (R230): Atomic XOR. -/
  | rillAxor (r : RillAt)
  /-- AXCHG (R230): Atomic exchange. -/
  | rillAxchg (r : RillAt)
  /-- ACAS (R230): Atomic compare-and-swap. -/
  | rillAcas (r : RillAt)
  /-- AFADD (R230): Atomic FP32 add rounded at the memory. -/
  | rillAfadd (r : RillAt)
  /-- FENCE (R232): Orders the rill's accesses at a scope, sequentially consistent for ORDER 3. -/
  | rillFence (r : RillAt)
  /-- BRA (R224): Branches guarded threads, pushing divergence entries when paths split. -/
  | rillBra (r : RillAt)
  /-- EXIT (R225): Removes executing threads from the rill, ending it when none remain. -/
  | rillExit (r : RillAt)
  /-- BARSYNC (R235): Arrives at a barrier and waits for its phase to complete. -/
  | rillBarsync (r : RillAt)
  /-- BARARRIVE (R235): Arrives at a barrier without waiting, completing the phase and releasing waiters when the count is reached. -/
  | rillBararrive (r : RillAt)
  /-- SIGADD (R236): Adds to a signal counter, releasing satisfied waiters. -/
  | rillSigadd (r : RillAt)
  /-- SIGSET (R236): Writes a signal counter. -/
  | rillSigset (r : RillAt)
  /-- SIGWAIT (R236): Waits until a signal counter reaches a threshold. -/
  | rillSigwait (r : RillAt)
  /-- NAP (R236): Starts a wait of A cycles. -/
  | rillNap (r : RillAt)
  /-- NAP_EXPIRE (R236): A NAP's cycle count expires and the rill becomes ready. -/
  | rillNapExpire (r : RillAt)
  /-- PASS (R227): Issues a tile pass descriptor to a tile. -/
  | rillPass (r : RillAt)
  /-- TSCALE (R227): Queues a write of a TILE_SCALE register in the pass queue. -/
  | rillTscale (r : RillAt)
  /-- FLAUNCH (R243): Queues a flume program on an engine of the reach. -/
  | rillFlaunch (r : RillAt)
  /-- FETCH (R227): Issues a tier fetch from a descriptor with a fetch record destination. -/
  | rillFetch (r : RillAt)
  /-- UWAIT (R228): Waits for a ticket to complete, returns its status and frees it. -/
  | rillUwait (r : RillAt)
  /-- UPOLL (R228): Returns a ticket's status or 0xFFFF without waiting. -/
  | rillUpoll (r : RillAt)
  /-- UNIT_OP_ACCEPTANCE (R226): A unit operation held for a ticket or queue space is accepted or rejected and its acceptance word written. -/
  | unitOpAcceptance (r : RillAt)
  /-- PASS_START (R151): A queued pass, or escalation pass, begins LOAD when the in-flight rules permit, checked against the active format set. -/
  | passStart (reach tile quad : Nat)
  /-- SLOT_GATE (R152): In a row slot the slot gate starts the next row, inserts a bubble or freezes the tile according to dry feeders and the accumulator port. -/
  | slotGate (reach tile quad : Nat)
  /-- PASS_COMPLETE (R148): A pass's last accumulator write is done and its completion status is signalled to the issuer. -/
  | passComplete (reach tile quad : Nat) (faults : List TileUpset)
  /-- TILE_SELF_TEST_DONE (R169): A tile or quadrant self-test finishes and BIST_DONE and BIST_FAIL are set. -/
  | tileSelfTestDone (reach tile quads : Nat) (failed : Nat)
  /-- TILE_DRAIN_COMPLETE (R170): The last pass of a DRAINING tile or quadrant completes and it becomes OFFLINE. -/
  | tileDrainComplete (reach tile quad : Nat)
  /-- TILE_JOIN_COUNT_REACHED (R170): A JOINING tile or quadrant completes 64 clean passes and becomes ONLINE. -/
  | tileJoinCountReached (reach tile quad : Nat)
  /-- FLUME_PROGRAM_START (R244): A flume program reaches the head of its program slot, is read and validated, and begins. -/
  | flumeProgramStart (f : FlumeMem)
  /-- NOP (R247): Flume no-operation. -/
  | flumeNop (f : FlumeAt)
  /-- LOOP (R248): Opens a flume loop level. -/
  | flumeLoop (f : FlumeAt)
  /-- ENDL (R248): Closes or iterates the highest open loop level. -/
  | flumeEndl (f : FlumeAt)
  /-- SETA (R248): Sets a flume address register's base. -/
  | flumeSeta (f : FlumeAt)
  /-- STRIDE (R248): Sets a flume address register's stride for a loop level. -/
  | flumeStride (f : FlumeAt)
  /-- MOVE (R249): Reads contiguous bytes and delivers them to memory or a tile input. -/
  | flumeMove (f : FlumeAt)
  /-- GATHER (R249): Reads indexed elements and delivers them in order. -/
  | flumeGather (f : FlumeAt)
  /-- SIGNAL (R253): Adds to a signal counter once earlier writes and emits are visible. -/
  | flumeSignal (f : FlumeAt)
  /-- WAIT (R253): Holds the flume program until a counter reaches its threshold. -/
  | flumeWait (f : FlumeAt)
  /-- SHADOW (R257): Declares a weight or activation shadow stream for escalation. -/
  | flumeShadow (f : FlumeAt)
  /-- END (R246): Ends a flume program's instruction stream. -/
  | flumeEnd (f : FlumeAt)
  /-- FLUME_READ_ISSUE (R251): A flume read issues once staging space, sluices, waits and write ordering permit. -/
  | flumeReadIssue (f : FlumeAt) (upset : Upset)
  /-- FLUME_EMIT (R254): Staged data is accepted by its destination tile input or written to memory. -/
  | flumeEmit (f : FlumeMem) (dkind : Nat)
  /-- FLUME_PROGRAM_COMPLETE (R246): A flume program's reads, writes, emits and shadowed passes are done and its ticket completes. -/
  | flumeProgramComplete (f : FlumeAt)
  /-- FLUME_WAIT_TIMEOUT (R258): A WAIT or held emit exceeds the FLUME_CFG.TIMEOUT bound and the program stops with 0x1009. -/
  | flumeWaitTimeout (f : FlumeAt)
  /-- SLUICE_ADMIT (R260): A request waiting at a sluice passes once the token level covers its bytes. -/
  | sluiceAdmit (island sluice : Nat)
  /-- SWEEP_START (R318): A sweep of queued queries begins, taking its snapshot and traversing the braid for seeds. -/
  | sweepStart (coll : Nat) (sweep : SweepAt)
  /-- POOL_DISPATCH (R321): A pool is tested against each query's threshold and dispatched to the sieves or skipped. -/
  | poolDispatch (sweep : Nat) (island : Nat) (units : List Nat)
  /-- SIEVE_POOL_DONE (R320): Sieve units finish reading a pool and report per-query heaps. -/
  | sievePoolDone (sweep pool : Nat) (fault : SieveUpset)
  /-- SWEEP_COMPLETE (R326): A sweep's pools are done; heaps are merged, filters applied and queries completed, widened or sent to rerank. -/
  | sweepComplete (sweep : Nat)
  /-- SIEVE_SELF_TEST_DONE (R330): A sieve unit's self-test finishes. -/
  | sieveSelfTestDone (island unit : Nat) (failed : Bool)
  /-- SIEVE_DRAIN_COMPLETE (R330): A DRAINING sieve unit finishes its current pool and becomes OFFLINE. -/
  | sieveDrainComplete (island unit : Nat)
  /-- SIEVE_JOIN_COUNT_REACHED (R330): A JOINING sieve unit completes 64 pools without fault and becomes ONLINE. -/
  | sieveJoinCountReached (island unit : Nat)
  /-- COLL_CREATE (R304): Creates a collection with its parameter vector and registers its objects. -/
  | collCreate (c : CmdId)
  /-- COLL_DELETE (R307): Deletes a collection after its sweeps in progress complete. -/
  | collDelete (c : CmdId)
  /-- POOL_APPEND (R311): Appends members to a pool, creating it when NEW_POOL is set. -/
  | poolAppend (c : Finding CmdId)
  /-- SEARCH_VECTOR (R323): Submits a vector query for exact top-k search. -/
  | searchVector (c : CmdId)
  /-- SEARCH_CONTENT (R324): Decodes and embeds content on a context, then searches with the embedding. -/
  | searchContent (c : CmdId)
  /-- POOL_COMPACT (R313): Rewrites a pool without tombstoned or unreadable members. -/
  | poolCompact (c : CmdId)
  /-- BRAID_SET_NODE (R316): BRAID_REPAIR OP 0 writes a braid node from a member. -/
  | braidSetNode (c : CmdId)
  /-- BRAID_REMOVE_NODE (R316): BRAID_REPAIR OP 1 invalidates a braid node. -/
  | braidRemoveNode (c : CmdId)
  /-- BRAID_SET_ENTRIES (R316): BRAID_REPAIR OP 2 replaces the braid's entry nodes. -/
  | braidSetEntries (c : CmdId)
  /-- COLL_STATS (R329): Returns collection statistics and repair-queue entries, optionally clearing them. -/
  | collStats (c : CmdId)
  /-- MEDIA_DECODE (R336): Queues a decode of an object's frames into stack memory. -/
  | mediaDecode (c : CmdId)
  /-- DECODE_START (R338): A free decoder of the needed kind takes a queued decode and captures its extents and profile. -/
  | decodeStart (d : DecodeAt)
  /-- DECODE_COMPLETE (R339): A decode ends by frame count, output room, stream end or error and its command completes. -/
  | decodeComplete (n : Nat) (fault : FrameUpset)
  /-- MEDIA_SELF_TEST_DONE (R347): A media sub-unit's self-test finishes. -/
  | mediaSelfTestDone (island unit : Nat) (failed : Bool)
  /-- MEDIA_DRAIN_COMPLETE (R347): A DRAINING decoder finishes its command and becomes OFFLINE. -/
  | mediaDrainComplete (island unit : Nat)
  /-- MEDIA_JOIN_COUNT_REACHED (R347): A JOINING decoder completes 16 commands without fault and becomes ONLINE. -/
  | mediaJoinCountReached (island unit : Nat)
  /-- R_IDENTIFY (R93): Returns the Risal identify record. -/
  | rIdentify (c : CmdId)
  /-- R_READ (R93): Risal read, as READ. -/
  | rRead (c : CmdId)
  /-- R_WRITE (R95): Risal write, optionally registering and embedding the object before completing. -/
  | rWrite (c : CmdId)
  /-- R_FLUSH (R93): Risal flush, as FLUSH. -/
  | rFlush (c : CmdId)
  /-- R_TRIM (R93): Risal trim, as TRIM. -/
  | rTrim (c : CmdId)
  /-- R_EMBED (R93): Embeds a registered object into collection 0. -/
  | rEmbed (c : CmdId)
  /-- R_SEARCH (R94): Searches collection 0 under the Risal result matrix. -/
  | rSearch (c : CmdId)
  /-- DIE_OP_ISSUE (R357): A channel controller issues a queued read, program or erase to a die when its state and NAND grant permit. -/
  | dieOpIssue (chan die : Nat)
  /-- JOURNAL_PAGE_DUE (R362): 2,048 cycles pass after an erase ends with no journal page due, and a page carrying its DONE is written. -/
  | journalPageDue (chan die : Nat)
  /-- FLASH_READ_DONE (R356): A page read transfers; its codewords decode, retry read levels or go to parity rebuild. -/
  | flashReadDone (chan die : Nat) (outcome : ReadOutcome)
  /-- PROGRAM_DONE (R355): A program pass ends with pass or fail status. -/
  | programDone (chan die : Nat) (ok : Bool)
  /-- ERASE_DONE (R362): An erase ends with pass or fail status and its DONE awaits the next journal page. -/
  | eraseDone (chan die : Nat) (ok : Bool)
  /-- SUSPEND_HOLD_EXPIRE (R358): A read has waited the hold time for a die running a long operation and the controller issues a suspend. -/
  | suspendHoldExpire (chan die : Nat)
  /-- SUSPEND_DONE (R357): A suspended die becomes ready and the waiting reads or one program run under the suspension. -/
  | suspendDone (chan die : Nat)
  /-- DIE_TIMEOUT (R370): A die exceeds twice its maximum operation time and a line test runs. -/
  | dieTimeout (chan die : Nat) (cause : Nat)
  /-- LINE_TEST_PERIODIC (R370): The periodic line-test interval expires and the channel's bus lines are tested and classified. -/
  | lineTestPeriodic (chan : Nat) (cause die : Nat)
  /-- CHANNEL_TEST_COMPLETE (R372): A TESTING channel finishes bus start, training, line test and package check. -/
  | channelTestComplete (chan : Nat) (found : LineFault)
  /-- CHANNEL_DRAIN_COMPLETE (R372): The last stripe member of a DRAINING channel is relocated and it becomes OFFLINE. -/
  | channelDrainComplete (chan : Nat)
  /-- CHANNEL_JOIN_COMPLETE (R396): The last member replacement of a JOINING channel completes and it becomes ONLINE. -/
  | channelJoinComplete (chan : Nat)
  /-- SLOT_PLACE (R383): A write-buffer slot leaves for media, merging missing blocks, and its block is packed into an open stripe. -/
  | slotPlace (island : Nat) (slot : SlotAt)
  /-- ROW_PAD_TIMEOUT (R385): A host-stream row has waited 2^28 cycles and is padded with zeros and programmed. -/
  | rowPadTimeout (stripe : Nat)
  /-- ROW_COMPLETE (R385): Every member of a stripe row completes pass 2; MAP records are journaled and slots freed. -/
  | rowComplete (stripe row : Nat)
  /-- GC_START (R391): A channel of a group falls below 160 free plane sets and collection of the emptiest sealed stripe begins. -/
  | gcStart (group : Nat)
  /-- GC_SWITCH (R392): A collection target is sealed and verified, unchanged entries switch to it in one journal batch and the victim is erased. -/
  | gcSwitch (victim failed : Nat)
  /-- MEMBER_REPLACE_START (R395): A stripe member is chosen for replacement by refresh, failure or channel join. -/
  | memberReplaceStart (stripe idx : Nat)
  /-- MEMBER_REPLACE_COMPLETE (R395): A replacement plane set is copied and verified, journaled as the member and the old set erased. -/
  | memberReplaceComplete (stripe idx : Nat) (copied : Copied)
  /-- PATROL_READ (R400): The ditch rider reads the next live page within its bus share, triggering refresh where needed. -/
  | patrolRead (island : Nat)
  /-- PATROL_PERIOD_END (R400): A patrol period ends; a finished patrol is counted or PATROL_LATE is set. -/
  | patrolPeriodEnd (island : Nat)
  /-- JOURNAL_CHECKPOINT (R405): A further 1 GiB of mapping journal is written and a table-page directory checkpoint is taken. -/
  | journalCheckpoint (island : Nat)
  /-- NAND_TEMP_READ (R484): A channel island reads each NAND package temperature, updating telemetry and every sixteenth time the health histogram. -/
  | nandTempRead (island : Nat) (temps : List Nat)
  /-- BUCKET_LEAK (R426): A cycle count multiple of 2^LEAK arrives and every correctable-error bucket leaks by one. -/
  | bucketLeak (island : Nat)
  /-- FATAL_ERROR (R444): Both copies of a duplicated control-table entry fail and island 59 halts the module without completions. -/
  | fatalError
  /-- PROT_TEST_WRITE (R427): PROT_TCTRL OP 1 encodes and writes the test window into an array, applying an armed flip mask. -/
  | protTestWrite (port island value : Nat)
  /-- PROT_TEST_READ (R427): PROT_TCTRL OP 2 decodes 64 bytes of an array into the test window and reports the worst codeword. -/
  | protTestRead (port island value : Nat)
  /-- PROT_TEST_CODEC (R427): PROT_TCTRL OP 3 encodes, corrupts and decodes one flash codeword in the loopback buffer. -/
  | protTestCodec (port island value : Nat)
  /-- PROT_FLIP_ARM (R428): A write of PROT_FLIP_CTRL arms one corruption of the next test write or codec. -/
  | protFlipArm (port island value : Nat)
  /-- WEIR_RENEGOTIATE (R434): Each 30,000 cycles Weir collects island requests and computes new grants under the budget. -/
  | weirRenegotiate (requests draws : List Nat) (volt current host : Nat)
  /-- CURRENT_OVER_GRANT (R433): An island's measured draw exceeds its grant and its clock steps down. -/
  | currentOverGrant (island draw : Nat)
  /-- THERMAL_THROTTLE (R439): A sensor crosses its throttle point and its island's PEAK is reduced or restored. -/
  | thermalThrottle (sensor temp : Nat)
  /-- REACH_CRITICAL (R440): A reach sensor reaches its critical point and the reach goes OFFLINE by fault. -/
  | reachCritical (reach temp : Nat)
  /-- THERMAL_ABORT (R440): A non-reach sensor reaches its critical point and the module halts with FORCE = 1. -/
  | thermalAbort (sensor temp : Nat)
  /-- REACH_SELF_TEST_DONE (R453): A reach self-test finishes. -/
  | reachSelfTestDone (reach : Nat) (failed : Bool)
  /-- REACH_DRAIN_COMPLETE (R453): Both residency slots of a DRAINING reach are free and it becomes OFFLINE. -/
  | reachDrainComplete (reach : Nat)
  /-- REACH_JOIN_QUANTUM (R453): A JOINING reach runs one quantum without fault and becomes ONLINE. -/
  | reachJoinQuantum (reach : Nat)
  /-- WEIR_ORDER_HALT (R443): WEIR_ORDER = 1 halts the module as a forced SHUTDOWN. -/
  | weirOrderHalt (port : Nat)
  /-- WEIR_ORDER_RESET (R443): WEIR_ORDER = 2 resets the module as a forced SHUTDOWN. -/
  | weirOrderReset (port : Nat)
  /-- WEIR_ORDER_RESTART (R441): WEIR_ORDER = 3 restarts a HALTED module at step 4, or step 1 after a fatal error. -/
  | weirOrderRestart (port : Nat)
  /-- MOD_RESET_ASSERT (R503): MOD_RESET_N held low for 10 µs orders a forced reset, which holds while the pin stays low. -/
  | modResetAssert
  /-- MOD_RESET_RELEASE (R503): MOD_RESET_N rises and start-up step 1 begins if the input is qualified. -/
  | modResetRelease
  /-- POWER_FAIL_DETECT (R447): Input below 38 V is detected; clocks stop, DQP stops, programs abort and buffers flush to staging. -/
  | powerFailDetect
  /-- FLUSH_COMPLETE (R447): The power-fail flush finishes and every rail turns off. -/
  | flushComplete
  /-- OVER_VOLTAGE (R450): Input above 62 V disconnects the input and runs the power-fail sequence. -/
  | overVoltage
  /-- OVER_CURRENT (R450): Input above 90 A for 10 µs disconnects the input and runs the power-fail sequence. -/
  | overCurrent
  /-- CONVERTER_TRIP (R451): A downstream converter trips on a short with the effect its rail defines. -/
  | converterTrip (rail : Nat) (index : Nat)
  /-- HOLDUP_MEASURE (R449): Every 2^47 cycles the hold-up bank's energy is measured and DEGRADED updated. -/
  | holdupMeasure (energy : Nat)
  /-- FREQ_MARK (R475): Each 25,000 reference cycles a mark reaches every island, which stores its cycle count as CNT_FREQ. -/
  | freqMark
  /-- COUNTER_ENABLE (R477): A CNT_CTRL write setting EN bits validates the selections and starts or stops counters. -/
  | counterEnable (port island value : Nat)
  /-- COUNTER_CLEAR (R476): A CNT_CTRL write of CLEAR bits zeroes counters and their SAT. -/
  | counterClear (port island value : Nat)
  /-- SAMPLE_CAPTURE (R480): A pending sample is captured at its source's capture point and written to the sample buffer. -/
  | sampleCapture (island counter : Nat)
  /-- CNT_SMP_TAIL_WRITE (R479): Host software writes the count of sample records it has consumed. -/
  | cntSmpTailWrite (port island value : Nat)
  /-- BW_WINDOW_END (R482): A bandwidth window of 2^WIN cycles ends and each port's byte count is stored. -/
  | bwWindowEnd (island : Nat)
  /-- MGMT_QUOTE_REQUEST (R471): A write of ID_MQ_CTRL.GO = 1 queues a management-port quote over the nonce. -/
  | mgmtQuoteRequest (port value : Nat)
  /-- MGMT_READ (R506): A management-port READ request reads a configuration register through the bridge. -/
  | mgmtRead (frame : List Byte)
  /-- MGMT_WRITE (R506): A management-port WRITE request writes a configuration register through the bridge. -/
  | mgmtWrite (frame : List Byte)
  /-- MGMT_RESPONSE (R506): A management-port RESPONSE read returns SEQ, STATE, STATUS and VALUE of the last request. -/
  | mgmtResponse (n : Nat)
  /-- SETDASA (R505): The I3C controller assigns the port a dynamic address from its static address. -/
  | setdasa (static dyn : Nat)
  /-- ENTDAA (R505): The I3C controller assigns the port a dynamic address by ENTDAA. -/
  | entdaa (dyn : Nat)
  /-- RSTDAA (R505): A broadcast RSTDAA clears the port's dynamic address. -/
  | rstdaa
  /-- IDCODE (R511): The JTAG IDCODE instruction selects the die's identification register. -/
  | jtagIdcode (tap : Nat)
  /-- BYPASS (R511): The JTAG BYPASS instruction, or any other code, selects the bypass register. -/
  | jtagBypass (tap code : Nat)
  /-- SAMPLE_PRELOAD (R511): The JTAG SAMPLE/PRELOAD instruction reaches boundary cells while HALTED. -/
  | jtagSamplePreload (tap : Nat) (shifted : List Bool)
  /-- EXTEST (R511): The JTAG EXTEST instruction drives boundary cells while HALTED. -/
  | jtagExtest (tap : Nat) (shifted : List Bool)
  /-- LANE_REPAIR (R61): Lane faults on a UCIe module are repaired, or the module is taken out of training, and the link leaves L0 to retrain on the remaining modules while device flits are queued. -/
  | laneRepair (mdl : Nat) (repaired : Bool)
  /-- HOLDUP_CHARGED (R445): The hold-up bank finishes charging, WEIR_HOLDUP.CHARGED becomes 1 and the input charging current limit ends, allowing step 8 to begin. -/
  | holdupCharged (energy : Nat)
  /-- TRST_N_ASSERT (R510): TRST_N is driven or pulled low and every TAP in the chain is held in reset with its instruction register returned to its reset value. -/
  | trstNAssert
  deriving DecidableEq, Repr

end Sys2Proof
end

