-- ==== Sys2Proof/Decode.lean ====
section
/-!
DEFINITION. Decode.lean: words of spec/opcode_table.json. Every row's "fields" list is empty: the table gives no command
any bits, so no word spells a command.
-/
namespace Sys2Proof

/-- The command that a word spells by the table's bits; no row gives bits. -/
def decodeTableWord (_nbits _w : Nat) : Option Instr := none

end Sys2Proof
end

