-- ==== Sys2Proof/Config.lean ====
section
/-!
DEFINITION. Config.lean: what the spec leaves open. Every constant here has no body: no proof can see its value, so a
statement about one holds whatever the hardware does (notes/assumptions 3, 4).
-/
namespace Sys2Proof.Config

/-! ### What the media standards make of a stream (R334, R335) -/

/-- Chroma sampling of a picture. -/
inductive Chroma where
  | mono | c420 | c422 | c444 | c411 | c440
  deriving DecidableEq, Repr

/-- A decoded picture: samples row by row, chroma at its own resolution; `full`: full range is signalled; `matrix`: Kr and Kb of
the matrix signalled, in ten-thousandths. -/
structure Picture where
  w : Nat
  h : Nat
  depth : Nat
  full : Bool
  matrix : Option (Nat × Nat)
  chroma : Chroma
  y : List Nat
  cb : List Nat
  cr : List Nat

/-- JPEG coding processes. -/
inductive JpegProcess where
  | baseline | extended | progressive | lossless | hierarchical
  deriving DecidableEq, Repr

/-- HEVC profiles the table of R334 tells apart. -/
inductive HevcProfile where
  | main | main10 | other
  deriving DecidableEq, Repr

/-- What a header says of the limits of R334; a level is ten times its number. -/
inductive MediaHeader where
  | jpeg (process : JpegProcess) (arithmetic : Bool) (bits components : Nat) (chroma : Chroma) (w h : Nat)
  | hevc (profile : HevcProfile) (level : Nat) (field : Bool)
  | av1 (main : Bool) (level bits : Nat) (chroma : Chroma) (largeTile : Bool)
  | h264 (high : Bool) (level : Nat) (field mbaff : Bool)
  deriving DecidableEq, Repr

/-- Array-local byte address of the codeword at a die's plane, block, wordline and page (R429 gives the register, no rule the
layout). -/
opaque flashLocal : Nat → Nat → Nat → Nat → Nat → W64
/-- Body of a mapping-journal record of kinds 3 to 8, from its kind and fields, whose places in the body R405 does not give. -/
opaque journalBody : Nat → List Nat → W64

/-- A fresh free value: the step applies it to State.freeCount and advances that counter. -/
opaque freeValue : Nat → W64

/-- RCP and RSQ are within 1 ulp (R220): which neighbour of the exact result an operand gets, 0 to 2. -/
opaque rcpPick : W32 → Nat
opaque rsqPick : W32 → Nat
/-- EXP2, LOG2 over their operands, held to their bounds (R220): the spec does not state the bits. -/
opaque exp2 : W32 → W32
opaque log2 : W32 → W32
/-- sin(2πx) and cos(2πx) of the exact fraction of x (R220). -/
opaque sinp : W32 → W32
opaque cosp : W32 → W32
/-- Whether FMIN and FMAX of two zeros return the first (R220 does not say). -/
opaque zeroPick : W32 → W32 → Bool

/-- The code the WEIGHT operation gives a finite element whose channel scale is NaN (R189 states none), held to the codes
the quantisers produce: scale, element. -/
opaque badScaleCode : W32 → W32 → Nat

/-- ML-DSA-65 (FIPS 204): the check of a signature, from public key, context, message and signature (R457, R459); signing,
from private key, 32-byte random value, context and message (R457); generation of the key pair from a seed, public and
private (R461). -/
opaque mldsaVerify : List Byte → List Byte → List Byte → List Byte → Bool
opaque mldsaSign : List Byte → List Byte → List Byte → List Byte → List Byte
opaque mldsaKeyGen : List Byte → List Byte × List Byte
/-- Which (255, 139) BCH code with t = 15 the identity derivation uses, no rule gives its generator (R461): the field polynomial and
the place of the message (Machine/Bch.lean). -/
opaque bchForm : Nat
/-- Balonte's signer digest, which slot 0 holds from manufacture (R458): its byte `i`. -/
opaque makerDigest : Nat → Byte

/-- Frame `n` in display order of a media stream, as its standard decodes it; none where the stream ends before it (R335).
Arguments: media type, stream, frame. -/
opaque mediaPicture : Nat → List Byte → Nat → Option Picture
/-- The sequence, picture and frame headers of a stream, each with the display index of the first frame it governs (R334). -/
opaque mediaHeaders : Nat → List Byte → List (Nat × MediaHeader)
/-- The first frame at which a decode that starts for frame `n` of a stream meets a break of its standard's syntax (R334). -/
opaque mediaSyntax : Nat → List Byte → Nat → Option Nat
/-- The page compressor's choice of stored form for a unit (R342). -/
opaque compress : List Byte → List Byte
/-- The parity bytes of one flash codeword (R412). -/
opaque ldpcParity : List Byte → List Byte
/-- The bits of a page as a read without decoding senses them (R373): fresh number, stored bytes. -/
opaque sense : Nat → List Byte → List Byte
/-- Whether a codeword with these corruptions of data and check bits decodes, where the spec states no outcome. -/
opaque flashDecodes : List Byte → Nat → Nat → Bool

/-- The filter bit of a range of units, modulo 256, whose hash no rule gives (R403): SPACE, unit index div 8,192. -/
opaque filterHash : Nat → Nat → Nat

/-- Bytes of a collection object's header, whose layout no rule gives (R306): collection, byte. -/
opaque collHeader : Nat → Nat → Byte

end Sys2Proof.Config
end

