-- ==== Sys2Proof/Machine/Bits.lean ====
section
/-!
DEFINITION. Machine/Bits.lean: bit fields, byte order (R5), CRC-32C (R65) and the sparse map every sparse part
of the state is held in.
-/
namespace Sys2Proof.Machine

/-- Bits [lo+w-1:lo] of a number (R5: bit 0 is the least significant). -/
def bits (v lo w : Nat) : Nat := (v >>> lo) % 2 ^ w

/-- One bit of a number as a Boolean. -/
def bit (v i : Nat) : Bool := v.testBit i

/-- 1 for true, 0 for false. -/
def b2n (b : Bool) : Nat := if b then 1 else 0

/-- `v` with bit `i` set to `b`. -/
def setBit (v i : Nat) (b : Bool) : Nat :=
  if v.testBit i then (if b then v else v - 2 ^ i) else (if b then v + 2 ^ i else v)

/-- The number of 1 bits among bits [n-1:0]. -/
def popCount (v : Nat) : Nat → Nat
  | 0 => 0
  | n + 1 => popCount v n + b2n (v.testBit n)

/-- The positions below `n` whose bit is 1, ascending. -/
def bitList (v n : Nat) : List Nat := (List.range n).filter v.testBit

/-- The mask of a list of bit positions. -/
def maskOf (l : List Nat) : Nat := l.foldl (fun m i => setBit m i true) 0

/-- `n` little-endian bytes of a number (R5). -/
def toBytes : Nat → Nat → List Byte
  | 0, _ => []
  | n + 1, v => BitVec.ofNat 8 v :: toBytes n (v / 256)

/-- The number a little-endian byte string spells (R5). -/
def ofBytes : List Byte → Nat
  | [] => 0
  | b :: bs => b.toNat + 256 * ofBytes bs

/-- `n` bytes of a string from offset `o`; bytes past its end read 0. -/
def slice (l : List Byte) (o n : Nat) : List Byte :=
  let t := (l.drop o).take n
  t ++ List.replicate (n - t.length) 0

/-- The little-endian number of `n` bytes at offset `o`. -/
def le (l : List Byte) (o n : Nat) : Nat := ofBytes (slice l o n)

/-- `l` with the bytes from offset `o` replaced by `b` (within the length of `l`). -/
def patch (l : List Byte) (o : Nat) (b : List Byte) : List Byte :=
  l.take o ++ b ++ l.drop (o + b.length)

/-- True when every byte is 0. -/
def allZero (l : List Byte) : Bool := l.all (· == 0)

/-- Two's complement reading of the low `w` bits. -/
def sext (w v : Nat) : Int :=
  let m := v % 2 ^ w
  if 2 * m < 2 ^ w then (m : Int) else (m : Int) - (2 ^ w : Nat)

/-- The low `w` bits of an integer. -/
def wrap (w : Nat) (i : Int) : Nat := (i % ((2 ^ w : Nat) : Int)).toNat

/-- Ceiling division. -/
def ceilDiv (a b : Nat) : Nat := (a + b - 1) / b

/-- One bit step of the reflected CRC-32C division (R65: Castagnoli, 0x1EDC_6F41, bit-reflected 0x82F6_3B78). -/
def crcBit (c : Nat) : Nat := if c % 2 = 1 then (c / 2) ^^^ 0x82F63B78 else c / 2

/-- One byte of a CRC-32C. -/
def crcByte (c : Nat) (b : Byte) : Nat :=
  crcBit (crcBit (crcBit (crcBit (crcBit (crcBit (crcBit (crcBit (c ^^^ b.toNat))))))))

/-- CRC-32C of a byte string: initial value and final XOR all ones. -/
def crc32c (l : List Byte) : Nat := (l.foldl crcByte 0xFFFFFFFF) ^^^ 0xFFFFFFFF

/-! ### Sparse maps -/

/-- A sparse map from numbers: pairs with strictly rising keys. -/
abbrev NMap (α : Type) := List (Nat × α)

/-- The value listed at a key. -/
def mfind {α : Type} : NMap α → Nat → Option α
  | [], _ => none
  | (k, v) :: m, x => if x = k then some v else if x < k then none else mfind m x

/-- The map with `x` listed as `v`. -/
def mins {α : Type} : NMap α → Nat → α → NMap α
  | [], x, v => [(x, v)]
  | (k, w) :: m, x, v =>
    if x = k then (k, v) :: m else if x < k then (x, v) :: (k, w) :: m else (k, w) :: mins m x v

/-- The map with `x` not listed. -/
def mdel {α : Type} : NMap α → Nat → NMap α
  | [], _ => []
  | (k, w) :: m, x => if x = k then m else if x < k then (k, w) :: m else (k, w) :: mdel m x

/-- The value at a key, `d` where none is listed. -/
def mget {α : Type} (d : α) (m : NMap α) (k : Nat) : α := (mfind m k).getD d

/-- Writes a value; the value an unlisted key reads as removes the entry, so equal maps are equal lists. -/
def mset {α : Type} [DecidableEq α] (d : α) (m : NMap α) (k : Nat) (v : α) : NMap α :=
  if v = d then mdel m k else mins m k v

/-- The keys of a map rise strictly above `lo`. -/
def mSorted {α : Type} : Option Nat → NMap α → Bool
  | _, [] => true
  | lo, (k, _) :: m => (match lo with | none => true | some l => decide (l < k)) && mSorted (some k) m

/-- The canonical form of a map with default `d`: keys strictly rising, no entry equal to the default. -/
def mCanon {α : Type} [DecidableEq α] (d : α) (m : NMap α) : Bool :=
  mSorted none m && m.all (fun p => decide (p.2 ≠ d))

/-- Removes every key in [a, a+n). -/
def mclear {α : Type} (m : NMap α) (a n : Nat) : NMap α := m.filter (fun p => p.1 < a || a + n ≤ p.1)

/-! ### Sets of numbers as disjoint ranges, first ↦ end -/

/-- The ranges are not empty, disjoint and rising, none below `lo`. -/
def rSorted : Nat → NMap Nat → Bool
  | _, [] => true
  | lo, (x, y) :: m => decide (lo ≤ x) && decide (x < y) && rSorted y m

/-- Adds [a, b), joining it with the ranges it meets. -/
def rangeAdd : NMap Nat → Nat → Nat → NMap Nat
  | [], a, b => [(a, b)]
  | (x, y) :: m, a, b =>
    if b < x then (a, b) :: (x, y) :: m
    else if y < a then (x, y) :: rangeAdd m a b
    else rangeAdd m (min a x) (max b y)

/-- Takes [a, b) out. -/
def rangeDel : NMap Nat → Nat → Nat → NMap Nat
  | [], _, _ => []
  | (x, y) :: m, a, b =>
    (if x < min y a then [(x, min y a)] else []) ++ (if max x b < y then [(max x b, y)] else []) ++ rangeDel m a b

def inRanges (m : NMap Nat) (a : Nat) : Bool := m.any (fun p => decide (p.1 ≤ a) && decide (a < p.2))

/-! ### Small list operations -/

/-- Replaces element `i` by `f` of it. -/
def updAt {α : Type} (l : List α) (i : Nat) (f : α → α) : List α :=
  match l, i with
  | [], _ => []
  | x :: xs, 0 => f x :: xs
  | x :: xs, i + 1 => x :: updAt xs i f

/-- Inserts an element before the first that it precedes. -/
def insBy {α : Type} (lt : α → α → Bool) (x : α) : List α → List α
  | [] => [x]
  | y :: l => if lt x y then x :: y :: l else y :: insBy lt x l

/-- A stable sort by insertion. -/
def sortBy {α : Type} (lt : α → α → Bool) (l : List α) : List α := l.foldl (fun acc x => insBy lt x acc) []

end Sys2Proof.Machine
end

