-- ==== Sys2Proof/Machine/Bch.lean ====
section
/-!
DEFINITION. Machine/Bch.lean: the (255, 139) BCH code with t = 15 of the identity derivation (R461, R465): arithmetic in GF(2^8),
the generator, encoding, and decoding of every word with at most 15 wrong bits (notes/assumptions 59).
-/
namespace Sys2Proof.Machine

/-- The primitive polynomials of degree 8. -/
def bchFields : List Nat :=
  [0x11D, 0x12B, 0x12D, 0x14D, 0x15F, 0x163, 0x165, 0x169, 0x171, 0x187, 0x18D, 0x1A9, 0x1C3, 0x1CF, 0x1E7, 0x1F5]

/-- Product in GF(2^8) modulo the polynomial `p`. -/
def gfMul (p a b : Nat) : Nat :=
  ((List.range 8).foldl (fun (x : Nat × Nat) i =>
    (if bit b i then x.1 ^^^ x.2 else x.1, if 128 ≤ x.2 then (2 * x.2) ^^^ p else 2 * x.2)) (0, a)).1

/-- The powers 0 to 254 of the element 2, which generates the field. -/
def gfPowers (p : Nat) : List Nat := ((List.range 254).foldl (fun (l : List Nat) _ => gfMul p (l.headD 1) 2 :: l) [1]).reverse

/-- Inverse of an element other than 0: its power 254. -/
def gfInv (p a : Nat) : Nat :=
  ((List.range 7).foldl (fun (x : Nat × Nat) _ => let q := gfMul p x.2 x.2; (gfMul p x.1 q, q)) (1, a)).1

/-- Value of a polynomial, lowest coefficient first. -/
def gfEval (p x : Nat) (c : List Nat) : Nat := c.foldr (fun k acc => gfMul p acc x ^^^ k) 0

/-- Exponents of the generator's roots: the conjugates of the powers 1 to 30. -/
def bchRoots : List Nat := (((List.range 15).map (fun i => (List.range 8).map (fun k => (2 * i + 1) * 2 ^ k % 255))).flatten).eraseDups

/-- The generator polynomial of degree 116, as the number of its bits. -/
def bchGenerator (p : Nat) : Nat :=
  let pw := gfPowers p
  let g := bchRoots.foldl (fun (g : List Nat) r =>
    let a := pw.getD r 0
    List.zipWith (fun hi lo => gfMul p hi a ^^^ lo) (g ++ [0]) (0 :: g)) [1]
  maskOf ((List.range g.length).filter (fun i => g.getD i 0 != 0))

/-- Remainder of a polynomial of 255 bits by the generator. -/
def bchRest (g m : Nat) : Nat := (List.range 139).foldl (fun r i => if bit r (254 - i) then r ^^^ (g * 2 ^ (138 - i)) else r) m

def boolsOf (n v : Nat) : List Bool := (List.range n).map (bit v)
def numOf (l : List Bool) : Nat := maskOf ((List.range l.length).filter (fun i => l.getD i false))

/-- The codeword of 139 message bits: the bits themselves, before or after the 116 of the remainder. -/
def bchEncodeIn (p : Nat) (first : Bool) (m : List Bool) : List Bool :=
  let m := boolsOf 139 (numOf m)
  let parity := boolsOf 116 (bchRest (bchGenerator p) (numOf m * 2 ^ 116))
  if first then m ++ parity else parity ++ m

/-- State of the search for the error locator: locator, the one before, its discrepancy, length, shift. -/
structure Locator where
  c : List Nat
  b : List Nat
  d : Nat
  len : Nat
  shift : Nat

/-- One step of Berlekamp and Massey with the first syndromes, the latest first. -/
def Locator.next (p : Nat) (x : Locator) (n : Nat) (syn : List Nat) : Locator :=
  let e := (List.zipWith (gfMul p) x.c syn).foldl (· ^^^ ·) 0
  if e = 0 then { x with shift := x.shift + 1 }
  else
    let k := gfMul p e (gfInv p x.d)
    let add := List.replicate x.shift 0 ++ x.b.map (gfMul p k)
    let m := max x.c.length add.length
    let c := (List.range m).map (fun i => x.c.getD i 0 ^^^ add.getD i 0)
    if 2 * x.len ≤ n then { c := c, b := x.c, d := e, len := n + 1 - x.len, shift := 1 }
    else { x with c := c, shift := x.shift + 1 }

/-- The wrong bits of a word, from its 30 syndromes; none where more than 15 are wrong and it shows. -/
def bchErrors (p : Nat) (word : List Bool) : Option (List Nat) :=
  let pw := gfPowers p
  let bits := word.map b2n
  let syn := (List.range 30).map (fun j => gfEval p (pw.getD (j + 1) 0) bits)
  let x := (List.range 30).foldl (fun x n => x.next p n ((syn.take (n + 1)).reverse)) (⟨[1], [1], 1, 0, 1⟩ : Locator)
  let at' := (List.range 255).filter (fun i => gfEval p (pw.getD ((255 - i) % 255) 0) x.c == 0)
  if x.len ≤ 15 ∧ at'.length = x.len then some at' else none

/-- The message of a word with at most 15 wrong bits. -/
def bchDecodeIn (p : Nat) (first : Bool) (word : List Bool) : Option (List Bool) :=
  let w := boolsOf 255 (numOf word)
  (bchErrors p w).map (fun l =>
    let v := boolsOf 255 (l.foldl (fun v i => v ^^^ 2 ^ i) (numOf w))
    if first then v.take 139 else v.drop 116)

/-- The module's code: its field polynomial and the place of the message, which no rule gives (R461). -/
def bchPoly : Nat := bchFields.getD (Config.bchForm % 16) 0x11D
def bchFirst : Bool := Config.bchForm / 16 % 2 == 1

def bchEncode (m : List Bool) : List Bool := bchEncodeIn bchPoly bchFirst m
def bchDecode (word : List Bool) : Option (List Bool) := bchDecodeIn bchPoly bchFirst word

end Sys2Proof.Machine
end

