-- ==== Sys2Proof/Machine/RegMap.lean ====
section
/-!
DEFINITION. Machine/RegMap.lean: the register maps of the spec (R492 and the register map of each chapter), one name per
register, one constant per field, with its place, type (R9), owner port (R12) and numeric reset value. A field whose
reset is Img or Var has the number 0 here (R516).
-/
namespace Sys2Proof.Machine

/-- Island types, in the order of KIND (R49). -/
inductive Kind where
  | reach | stack | flash | sieve | media | intake | sched | security | weir
  deriving DecidableEq, Repr

/-- Access types of R9. -/
inductive Acc where
  | rw | ro | w1c | st | cm | lk
  deriving DecidableEq, Repr

/-- Owner port of a register (R12). -/
inductive Owner where
  | host | mgmt | both
  deriving DecidableEq, Repr

/-- A field: the number of its register, lowest bit, width, access type and reset value. -/
structure Field where
  reg : Nat
  lo : Nat
  w : Nat
  acc : Acc
  rst : Nat
  deriving DecidableEq, Repr

/-- Where one register stands in the islands of the kinds listed: instance `i` from `lo1`, `n1` of them, `s1` bytes
apart, and within each `n2` words `s2` bytes apart. -/
structure Place where
  kinds : List Kind
  base : Nat
  s1 : Nat
  lo1 : Nat
  n1 : Nat
  s2 : Nat
  n2 : Nat
  deriving DecidableEq, Repr

/-- A register: its number in the store, owner port (R12), whether it is Host read only, its fields (reserved ranges
left out: they read 0, R10) and its places (R492). -/
structure Reg where
  num : Nat
  owner : Owner
  hostReadOnly : Bool
  fields : List Field
  places : List Place
  deriving DecidableEq, Repr

namespace F

def ISL_UNIT_MASK_LO_MASK : Field := ⟨0, 0, 32, .ro, 0⟩
def ISL_UNIT_MASK_HI_MASK : Field := ⟨1, 0, 32, .ro, 0⟩
def CAP_PRESENT_LO_ISLANDS : Field := ⟨2, 0, 32, .ro, 0⟩
def CAP_PRESENT_HI_ISLANDS : Field := ⟨3, 0, 28, .ro, 0⟩
def CAP_ENABLED_LO_ISLANDS : Field := ⟨4, 0, 32, .ro, 0⟩
def CAP_ENABLED_HI_ISLANDS : Field := ⟨5, 0, 28, .ro, 0⟩
def CAP_FEATURE_VARIANT : Field := ⟨6, 0, 4, .ro, 0⟩
def CAP_FEATURE_MEDIA : Field := ⟨6, 4, 1, .ro, 0⟩
def CAP_FEATURE_KV4 : Field := ⟨6, 5, 1, .ro, 0⟩
def CAP_FEATURE_RISAL : Field := ⟨6, 6, 1, .ro, 0⟩
def IMG_STATUS_SOURCE : Field := ⟨7, 0, 2, .ro, 0⟩
def IMG_STATUS_CTR_LOST : Field := ⟨7, 2, 1, .ro, 0⟩
def IMG_STATUS_CTR_PEND : Field := ⟨7, 3, 1, .ro, 0⟩
def IMG_REJECT_SLOT_A : Field := ⟨8, 0, 16, .ro, 0⟩
def IMG_REJECT_SLOT_B : Field := ⟨8, 16, 16, .ro, 0⟩
def IMG_VERSION_VERSION : Field := ⟨9, 0, 32, .ro, 0⟩
def IMG_COUNTER_COUNTER : Field := ⟨10, 0, 32, .ro, 0⟩
def IMG_DIGEST_DIGEST : Field := ⟨11, 0, 32, .ro, 0⟩
def DQP_CTRL_EN : Field := ⟨12, 0, 1, .rw, 0⟩
def DQP_STATUS_RDY : Field := ⟨13, 0, 1, .ro, 0⟩
def DQP_STATUS_IDLE : Field := ⟨13, 1, 1, .ro, 1⟩
def DQP_STATUS_PSTATE : Field := ⟨13, 2, 2, .ro, 0⟩
def DQP_STATUS_PS_BUSY : Field := ⟨13, 4, 1, .ro, 0⟩
def DQP_STATUS_LINK_UP : Field := ⟨13, 5, 1, .ro, 0⟩
def DQP_STATUS_DB_ERR : Field := ⟨13, 6, 1, .w1c, 0⟩
def DQP_AQ_SIZE_ASQ_ENTRIES : Field := ⟨14, 0, 13, .lk, 64⟩
def DQP_AQ_SIZE_ACQ_ENTRIES : Field := ⟨14, 16, 13, .lk, 64⟩
def DQP_SQ_BASE_LO_ADDR : Field := ⟨15, 12, 20, .lk, 0⟩
def DQP_SQ_BASE_HI_ADDR : Field := ⟨16, 0, 32, .lk, 0⟩
def DQP_CQ_BASE_LO_ADDR : Field := ⟨17, 12, 20, .lk, 0⟩
def DQP_CQ_BASE_HI_ADDR : Field := ⟨18, 0, 32, .lk, 0⟩
def DQP_CAP_MAX_QUEUES : Field := ⟨19, 0, 11, .ro, 1024⟩
def DQP_CAP_MAX_ENTRIES : Field := ⟨19, 12, 13, .ro, 4096⟩
def DQP_CAP_RISAL : Field := ⟨19, 25, 1, .ro, 0⟩
def DQP_DEFER_PEND_COUNT : Field := ⟨20, 0, 16, .ro, 0⟩
def DQP_DB_ERR_QID : Field := ⟨21, 0, 10, .ro, 0⟩
def DQP_DB_ERR_KIND : Field := ⟨21, 10, 1, .ro, 0⟩
def DQP_DB_ERR_BAD_ENTRY : Field := ⟨21, 11, 1, .ro, 0⟩
def DQP_LINK_ERR_CRC_ERR : Field := ⟨22, 0, 16, .ro, 0⟩
def DQP_LINK_ERR_BAD_TYPE : Field := ⟨22, 16, 16, .ro, 0⟩
def DQP_ARB_LOG_SUPERSEDED : Field := ⟨23, 0, 16, .ro, 0⟩
def DQP_ARB_LOG_LAST_LOSER : Field := ⟨23, 16, 1, .ro, 0⟩
def DQP_SB_IMG_CTRL_CMD : Field := ⟨24, 0, 2, .rw, 0⟩
def DQP_SB_IMG_LEN_LENGTH : Field := ⟨25, 0, 22, .rw, 0⟩
def DQP_SB_IMG_DATA_DATA : Field := ⟨26, 0, 32, .rw, 0⟩
def DQP_SB_IMG_STAT_COUNT : Field := ⟨27, 0, 22, .ro, 0⟩
def DQP_SB_IMG_STAT_WAITING : Field := ⟨27, 22, 1, .ro, 0⟩
def DQP_SB_IMG_RESULT_RESULT : Field := ⟨28, 0, 16, .ro, 0⟩
def RISAL_ENTRY_LO_ADDR : Field := ⟨29, 3, 29, .rw, 0⟩
def RISAL_ENTRY_HI_ADDR : Field := ⟨30, 0, 32, .rw, 0⟩
def RISAL_SLOT_LO_ADDR : Field := ⟨31, 6, 26, .rw, 0⟩
def RISAL_SLOT_HI_ADDR : Field := ⟨32, 0, 32, .rw, 0⟩
def RISAL_DEST_LO_ADDR : Field := ⟨33, 6, 26, .rw, 0⟩
def RISAL_DEST_HI_ADDR : Field := ⟨34, 0, 32, .rw, 0⟩
def RISAL_DCFG_DEST_KIB : Field := ⟨35, 0, 25, .rw, 0⟩
def RISAL_DCFG_PROFILE : Field := ⟨35, 25, 2, .rw, 0⟩
def RISAL_CTYPE_CTYPE : Field := ⟨36, 0, 8, .rw, 1⟩
def RISAL_EMBEDS_COUNT : Field := ⟨37, 0, 32, .ro, 0⟩
def HG_STACK_LIM_GIB : Field := ⟨38, 0, 11, .st, 0⟩
def HG_SCRATCH_LIM_MIB : Field := ⟨39, 0, 10, .st, 0⟩
def HG_FLASH_LIM_GIB : Field := ⟨40, 0, 19, .st, 0⟩
def HG_SAVE_LIM_GIB : Field := ⟨41, 0, 11, .st, 0⟩
def HG_STACK_USED_MIB : Field := ⟨42, 0, 21, .ro, 0⟩
def HG_SCRATCH_USED_MIB : Field := ⟨43, 0, 10, .ro, 0⟩
def HG_FLASH_USED_MIB : Field := ⟨44, 0, 29, .ro, 0⟩
def HG_SAVE_USED_MIB : Field := ⟨45, 0, 21, .ro, 0⟩
def HG_GROUP_QUOTA_COMMIT_GO : Field := ⟨46, 0, 1, .cm, 0⟩
def HG_GROUP_QUOTA_EPOCH_COMMITTED : Field := ⟨47, 0, 8, .ro, 0⟩
def HG_GROUP_QUOTA_EPOCH_ADOPTED : Field := ⟨47, 8, 8, .ro, 0⟩
def HG_GROUP_QUOTA_EPOCH_PENDING : Field := ⟨47, 16, 1, .ro, 0⟩
def HG_DENY_COUNT : Field := ⟨48, 0, 16, .ro, 0⟩
def STK_STATE_STATE : Field := ⟨49, 0, 3, .ro, 0⟩
def STK_STATE_IDLE : Field := ⟨49, 3, 1, .ro, 1⟩
def STK_STATE_JOIN_STEP : Field := ⟨49, 4, 3, .ro, 0⟩
def STK_EXT_TOTAL_COUNT : Field := ⟨50, 0, 16, .ro, 0⟩
def STK_EXT_FREE_COUNT : Field := ⟨51, 0, 16, .ro, 0⟩
def STK_EXT_FOREIGN_COUNT : Field := ⟨52, 0, 16, .ro, 0⟩
def STK_DRAIN_LEFT_COUNT : Field := ⟨53, 0, 16, .ro, 0⟩
def STK_MOVE_RATE_RATE : Field := ⟨54, 0, 2, .lk, 1⟩
def STK_SPARE_USED_COUNT : Field := ⟨55, 0, 13, .ro, 0⟩
def STK_REMAP_SEL_EXTENT : Field := ⟨56, 0, 16, .rw, 0⟩
def STK_REMAP_DATA_EXTENT : Field := ⟨57, 0, 16, .ro, 0⟩
def STK_REMAP_DATA_STACK : Field := ⟨57, 16, 4, .ro, 0⟩
def STK_REMAP_DATA_UNBACKED : Field := ⟨57, 20, 1, .ro, 0⟩
def STK_REMAP_DATA_POISONED : Field := ⟨57, 21, 1, .ro, 0⟩
def TM_CTRL_MODE : Field := ⟨58, 0, 1, .rw, 1⟩
def TM_STATUS_IDLE : Field := ⟨59, 0, 1, .ro, 1⟩
def TM_STATUS_FETCHES : Field := ⟨59, 16, 16, .ro, 0⟩
def TM_FREE_D_MIB : Field := ⟨60, 0, 20, .ro, 0⟩
def TM_WIN_FAULT_COUNT : Field := ⟨61, 0, 32, .ro, 0⟩
def TM_SPILL_COUNT : Field := ⟨62, 0, 32, .ro, 0⟩
def TM_DEADLINE_MISS_COUNT : Field := ⟨63, 0, 32, .ro, 0⟩
def TM_QUAR_COUNT : Field := ⟨64, 0, 16, .ro, 0⟩
def TM_EVICT_COUNT : Field := ⟨65, 0, 32, .ro, 0⟩
def TILE_ONLINE_LO_MASK : Field := ⟨66, 0, 32, .ro, 0⟩
def TILE_ONLINE_HI_MASK : Field := ⟨67, 0, 16, .ro, 0⟩
def TILE_SLIP_LO_MASK : Field := ⟨68, 0, 32, .ro, 0⟩
def TILE_SLIP_HI_MASK : Field := ⟨69, 0, 16, .ro, 0⟩
def TILE_FMT_MODE : Field := ⟨70, 0, 2, .st, 0⟩
def TILE_FMT_GSIZE : Field := ⟨70, 2, 2, .st, 0⟩
def TILE_FMT_WFMT : Field := ⟨70, 4, 4, .st, 0⟩
def TILE_FMT_AFMT : Field := ⟨70, 8, 4, .st, 0⟩
def TILE_SENT_THRESH : Field := ⟨71, 0, 16, .st, 0⟩
def TILE_SENT_EN : Field := ⟨71, 16, 1, .st, 0⟩
def TILE_GROUP_FMT_COMMIT_GO : Field := ⟨72, 0, 1, .cm, 0⟩
def TILE_GROUP_FMT_EPOCH_COMMITTED : Field := ⟨73, 0, 8, .ro, 0⟩
def TILE_GROUP_FMT_EPOCH_ADOPTED : Field := ⟨73, 8, 8, .ro, 0⟩
def TILE_GROUP_FMT_EPOCH_PENDING : Field := ⟨73, 16, 1, .ro, 0⟩
def TILE_STATUS_STATE : Field := ⟨74, 0, 3, .ro, 0⟩
def TILE_STATUS_IDLE : Field := ⟨74, 3, 1, .ro, 1⟩
def TILE_STATUS_SLIP : Field := ⟨74, 4, 1, .ro, 0⟩
def TILE_STATUS_SPARE_COL : Field := ⟨74, 5, 1, .ro, 0⟩
def TILE_STATUS_INFLIGHT : Field := ⟨74, 6, 2, .ro, 0⟩
def TILE_QSTATE_Q0 : Field := ⟨75, 0, 3, .ro, 0⟩
def TILE_QSTATE_Q1 : Field := ⟨75, 4, 3, .ro, 0⟩
def TILE_QSTATE_Q2 : Field := ⟨75, 8, 3, .ro, 0⟩
def TILE_QSTATE_Q3 : Field := ⟨75, 12, 3, .ro, 0⟩
def TILE_QSTATE_BIST_DONE : Field := ⟨75, 16, 4, .ro, 0⟩
def TILE_QSTATE_BIST_FAIL : Field := ⟨75, 20, 4, .ro, 0⟩
def TILE_FAULT_CODE : Field := ⟨76, 0, 16, .ro, 0⟩
def TILE_FAULT_QUAD : Field := ⟨76, 16, 2, .ro, 0⟩
def TILE_FAULT_WHOLE : Field := ⟨76, 18, 1, .ro, 0⟩
def TILE_FAULT_COL : Field := ⟨76, 19, 5, .ro, 0⟩
def TILE_FAULT_SLOT : Field := ⟨76, 24, 1, .ro, 0⟩
def TILE_FAULT_VALID : Field := ⟨76, 25, 1, .w1c, 0⟩
def TILE_REPAIR_MAP : Field := ⟨77, 0, 12, .ro, 0⟩
def TILE_ACC_OWN_OWNER : Field := ⟨78, 0, 16, .ro, 0⟩
def TILE_PASSES_COUNT : Field := ⟨79, 0, 32, .ro, 0⟩
def TILE_BUBBLES_COUNT : Field := ⟨80, 0, 32, .ro, 0⟩
def TILE_FREEZES_COUNT : Field := ⟨81, 0, 32, .ro, 0⟩
def TILE_ESCALATIONS_COUNT : Field := ⟨82, 0, 32, .ro, 0⟩
def TILE_INJECT_COL : Field := ⟨83, 0, 5, .lk, 0⟩
def TILE_INJECT_ARM : Field := ⟨83, 5, 1, .lk, 0⟩
def TILE_SCALE_SCALE : Field := ⟨84, 0, 32, .lk, 1065353216⟩
def ROT_PCFG_OP : Field := ⟨85, 0, 3, .st, 0⟩
def ROT_PCFG_ROT_EN : Field := ⟨85, 3, 1, .st, 0⟩
def ROT_PCFG_ROT_SIZE : Field := ⟨85, 4, 2, .st, 0⟩
def ROT_PCFG_OUT_FMT : Field := ⟨85, 6, 4, .st, 0⟩
def ROT_PCFG_GSIZE : Field := ⟨85, 10, 2, .st, 0⟩
def ROT_PCFG_ROUND : Field := ⟨85, 12, 1, .st, 0⟩
def ROT_PCFG_IN_FMT : Field := ⟨85, 13, 4, .st, 0⟩
def ROT_PSEED_SEED : Field := ⟨86, 0, 32, .st, 0⟩
def ROT_PPARAM_LO_ADDR : Field := ⟨87, 6, 26, .st, 0⟩
def ROT_PPARAM_HI_ADDR : Field := ⟨88, 0, 32, .st, 0⟩
def ROT_PSIGN_0_SIGN : Field := ⟨89, 0, 32, .st, 0⟩
def ROT_PSIGN_1_SIGN : Field := ⟨90, 0, 32, .st, 0⟩
def ROT_PSIGN_2_SIGN : Field := ⟨91, 0, 32, .st, 0⟩
def ROT_PSIGN_3_SIGN : Field := ⟨92, 0, 32, .st, 0⟩
def ROT_PDIM_LEN : Field := ⟨93, 0, 16, .st, 0⟩
def ROT_PSIDE_LO_ADDR : Field := ⟨94, 2, 30, .st, 0⟩
def ROT_PSIDE_HI_ADDR : Field := ⟨95, 0, 32, .st, 0⟩
def ROT_GROUP_CFG_COMMIT_GO : Field := ⟨96, 0, 1, .cm, 0⟩
def ROT_GROUP_CFG_EPOCH_COMMITTED : Field := ⟨97, 0, 8, .ro, 0⟩
def ROT_GROUP_CFG_EPOCH_ADOPTED : Field := ⟨97, 8, 8, .ro, 0⟩
def ROT_GROUP_CFG_EPOCH_PENDING : Field := ⟨97, 16, 1, .ro, 0⟩
def ROT_STATUS_IDLE : Field := ⟨98, 0, 1, .ro, 1⟩
def ROT_STATUS_BUSY : Field := ⟨98, 1, 4, .ro, 0⟩
def ROT_SAT_COUNT : Field := ⟨99, 0, 32, .ro, 0⟩
def ROT_NAN_COUNT : Field := ⟨100, 0, 32, .ro, 0⟩
def QNT_TRIPS_COUNT : Field := ⟨101, 0, 32, .ro, 0⟩
def QNT_UNESC_COUNT : Field := ⟨102, 0, 32, .ro, 0⟩
def QNT_FLAG_S0_LO_TILE : Field := ⟨103, 0, 32, .w1c, 0⟩
def QNT_FLAG_S0_HI_TILE : Field := ⟨104, 0, 16, .w1c, 0⟩
def QNT_FLAG_S1_LO_TILE : Field := ⟨105, 0, 32, .w1c, 0⟩
def QNT_FLAG_S1_HI_TILE : Field := ⟨106, 0, 16, .w1c, 0⟩
def RUN_STATUS_IDLE : Field := ⟨107, 0, 1, .ro, 1⟩
def RUN_STATUS_BUSY : Field := ⟨107, 1, 4, .ro, 0⟩
def RUN_RILLS_SLOT0 : Field := ⟨108, 0, 8, .ro, 0⟩
def RUN_RILLS_SLOT1 : Field := ⟨108, 8, 8, .ro, 0⟩
def RUN_FAULT_CODE : Field := ⟨109, 0, 16, .ro, 0⟩
def RUN_FAULT_RUNNEL : Field := ⟨109, 16, 2, .ro, 0⟩
def RUN_FAULT_RILL : Field := ⟨109, 18, 5, .ro, 0⟩
def RUN_FAULT_SLOT : Field := ⟨109, 23, 1, .ro, 0⟩
def RUN_FAULT_VALID : Field := ⟨109, 24, 1, .w1c, 0⟩
def RUN_FAULT_PC_LO_PC : Field := ⟨110, 0, 32, .ro, 0⟩
def RUN_FAULT_PC_HI_PC : Field := ⟨111, 0, 32, .ro, 0⟩
def RUN_FAULTS_COUNT : Field := ⟨112, 0, 32, .ro, 0⟩
def RUN_RESIDUE_COUNT : Field := ⟨113, 0, 32, .ro, 0⟩
def RUN_INJECT_RUNNEL : Field := ⟨114, 0, 2, .lk, 0⟩
def RUN_INJECT_LANE : Field := ⟨114, 2, 6, .lk, 0⟩
def RUN_INJECT_ARM : Field := ⟨114, 8, 1, .lk, 0⟩
def FLUME_STATUS_S0 : Field := ⟨115, 0, 2, .ro, 0⟩
def FLUME_STATUS_S1 : Field := ⟨115, 2, 2, .ro, 0⟩
def FLUME_STATUS_Q0 : Field := ⟨115, 4, 3, .ro, 0⟩
def FLUME_STATUS_Q1 : Field := ⟨115, 7, 3, .ro, 0⟩
def FLUME_STATUS_IDLE : Field := ⟨115, 10, 1, .ro, 1⟩
def FLUME_PC_PC0 : Field := ⟨116, 0, 6, .ro, 0⟩
def FLUME_PC_PC1 : Field := ⟨116, 8, 6, .ro, 0⟩
def FLUME_FAULT_CODE : Field := ⟨117, 0, 16, .ro, 0⟩
def FLUME_FAULT_SLOT : Field := ⟨117, 16, 1, .ro, 0⟩
def FLUME_FAULT_PC : Field := ⟨117, 17, 6, .ro, 0⟩
def FLUME_FAULT_VALID : Field := ⟨117, 23, 1, .w1c, 0⟩
def FLUME_FAULT_ADDR_LO_ADDR : Field := ⟨118, 0, 32, .ro, 0⟩
def FLUME_FAULT_ADDR_HI_ADDR : Field := ⟨119, 0, 32, .ro, 0⟩
def FLUME_STALL_SLUICE_COUNT : Field := ⟨120, 0, 32, .ro, 0⟩
def FLUME_STALL_DEST_COUNT : Field := ⟨121, 0, 32, .ro, 0⟩
def FLUME_PROGRAMS_COUNT : Field := ⟨122, 0, 32, .ro, 0⟩
def FLUME_CFG_TIMEOUT : Field := ⟨123, 0, 4, .lk, 0⟩
def SLUICE_CFG_RATE : Field := ⟨124, 0, 21, .st, 0⟩
def SLUICE_CFG_EN : Field := ⟨124, 31, 1, .st, 0⟩
def SLUICE_BURST_UNITS : Field := ⟨125, 0, 13, .st, 1024⟩
def SLUICE_GROUP_RATE_COMMIT_GO : Field := ⟨126, 0, 1, .cm, 0⟩
def SLUICE_GROUP_RATE_EPOCH_COMMITTED : Field := ⟨127, 0, 8, .ro, 0⟩
def SLUICE_GROUP_RATE_EPOCH_ADOPTED : Field := ⟨127, 8, 8, .ro, 0⟩
def SLUICE_GROUP_RATE_EPOCH_PENDING : Field := ⟨127, 16, 1, .ro, 0⟩
def SLUICE_LEVEL_BYTES : Field := ⟨128, 0, 21, .ro, 131072⟩
def SLUICE_STALLS_COUNT : Field := ⟨129, 0, 32, .ro, 0⟩
def SCHED_CFG_QUANTUM : Field := ⟨130, 0, 16, .rw, 1465⟩
def SCHED_CFG_LEAD : Field := ⟨130, 16, 16, .rw, 147⟩
def SCHED_COLD_COLD : Field := ⟨131, 0, 16, .rw, 14305⟩
def SCHED_BATCH_CHUNK : Field := ⟨132, 0, 13, .rw, 512⟩
def SCHED_BATCH_MAX_DECODE : Field := ⟨132, 16, 9, .rw, 256⟩
def SCHED_STATUS_IDLE : Field := ⟨133, 0, 1, .ro, 1⟩
def SCHED_STATUS_RESIDENT : Field := ⟨133, 1, 7, .ro, 0⟩
def SCHED_STATUS_TURN : Field := ⟨133, 8, 8, .ro, 0⟩
def SCHED_STATUS_READY : Field := ⟨133, 16, 11, .ro, 0⟩
def SCHED_STARVE_COUNT : Field := ⟨134, 0, 32, .ro, 0⟩
def SCHED_EVICT_COUNT : Field := ⟨135, 0, 32, .ro, 0⟩
def SCHED_TURN_LATE_COUNT : Field := ⟨136, 0, 32, .ro, 0⟩
def SCHED_AUTO_IMAGE_DONE : Field := ⟨137, 0, 16, .ro, 0⟩
def SCHED_AUTO_IMAGE_FAILED : Field := ⟨137, 16, 16, .ro, 0⟩
def SCHED_TURN_CNT_COUNT : Field := ⟨138, 0, 9, .st, 0⟩
def SCHED_GROUP_TURNOUT_COMMIT_GO : Field := ⟨139, 0, 1, .cm, 0⟩
def SCHED_GROUP_TURNOUT_EPOCH_COMMITTED : Field := ⟨140, 0, 8, .ro, 0⟩
def SCHED_GROUP_TURNOUT_EPOCH_ADOPTED : Field := ⟨140, 8, 8, .ro, 0⟩
def SCHED_GROUP_TURNOUT_EPOCH_PENDING : Field := ⟨140, 16, 1, .ro, 0⟩
def SCHED_JITTER_MAX_CYCLES : Field := ⟨141, 0, 16, .ro, 0⟩
def SCHED_TURN_BASE_LO_CYCLE : Field := ⟨142, 0, 32, .ro, 0⟩
def SCHED_TURN_BASE_HI_CYCLE : Field := ⟨143, 0, 32, .ro, 0⟩
def SCHED_TURN_DUR_DURATION : Field := ⟨144, 0, 32, .st, 0⟩
def SCHED_TURN_MASK_REACH_MASK : Field := ⟨145, 0, 32, .st, 0⟩
def SCHED_TURN_GROUP_GROUP : Field := ⟨146, 0, 16, .st, 0⟩
def SRCH_CFG_SWEEP_MAX : Field := ⟨147, 0, 11, .rw, 1024⟩
def SRCH_CFG_SWEEPS_MAX : Field := ⟨147, 12, 3, .rw, 2⟩
def SRCH_STATUS_IDLE : Field := ⟨148, 0, 1, .ro, 1⟩
def SRCH_STATUS_SWEEPS : Field := ⟨148, 1, 3, .ro, 0⟩
def SRCH_STATUS_REPAIR_OVF : Field := ⟨148, 4, 1, .w1c, 0⟩
def SRCH_STATUS_QUEUED : Field := ⟨148, 16, 16, .ro, 0⟩
def SRCH_SWEEPS_COUNT : Field := ⟨149, 0, 32, .ro, 0⟩
def SRCH_QUERIES_COUNT : Field := ⟨150, 0, 32, .ro, 0⟩
def SRCH_POOLS_READ_COUNT : Field := ⟨151, 0, 32, .ro, 0⟩
def SRCH_POOLS_SKIPPED_COUNT : Field := ⟨152, 0, 32, .ro, 0⟩
def BRAID_STALE_COUNT : Field := ⟨153, 0, 32, .ro, 0⟩
def SRCH_WIDEN_COUNT : Field := ⟨154, 0, 32, .ro, 0⟩
def SRCH_SHORT_COUNT : Field := ⟨155, 0, 32, .ro, 0⟩
def SRCH_TOMB_USED : Field := ⟨156, 0, 19, .ro, 0⟩
def SRCH_REPAIR_Q_COUNT : Field := ⟨157, 0, 13, .ro, 0⟩
def SRCH_HEAP_USED_ENTRIES : Field := ⟨158, 0, 21, .ro, 0⟩
def SIEVE_CTRL_UNITS : Field := ⟨159, 0, 7, .st, 0⟩
def SIEVE_CTRL_LOOKAHEAD : Field := ⟨159, 8, 2, .st, 1⟩
def SIEVE_GROUP_CFG_COMMIT_GO : Field := ⟨160, 0, 1, .cm, 0⟩
def SIEVE_GROUP_CFG_EPOCH_COMMITTED : Field := ⟨161, 0, 8, .ro, 0⟩
def SIEVE_GROUP_CFG_EPOCH_ADOPTED : Field := ⟨161, 8, 8, .ro, 0⟩
def SIEVE_GROUP_CFG_EPOCH_PENDING : Field := ⟨161, 16, 1, .ro, 0⟩
def SIEVE_STATUS_IDLE : Field := ⟨162, 0, 1, .ro, 1⟩
def SIEVE_STATUS_ACTIVE : Field := ⟨162, 1, 7, .ro, 0⟩
def SIEVE_BYTES_LO_BYTES : Field := ⟨163, 0, 32, .ro, 0⟩
def SIEVE_BYTES_HI_BYTES : Field := ⟨164, 0, 32, .ro, 0⟩
def SIEVE_POOLS_COUNT : Field := ⟨165, 0, 32, .ro, 0⟩
def SIEVE_FAULT_CODE : Field := ⟨166, 0, 16, .ro, 0⟩
def SIEVE_FAULT_UNIT : Field := ⟨166, 16, 6, .ro, 0⟩
def SIEVE_FAULT_VALID : Field := ⟨166, 22, 1, .w1c, 0⟩
def SIEVE_USTATE_STATE : Field := ⟨167, 0, 3, .ro, 0⟩
def SIEVE_USTATE_BIST_FAIL : Field := ⟨167, 3, 1, .ro, 0⟩
def MEDIA_STATUS_IDLE : Field := ⟨168, 0, 1, .ro, 1⟩
def MEDIA_STATUS_VBUSY : Field := ⟨168, 1, 4, .ro, 0⟩
def MEDIA_STATUS_IBUSY : Field := ⟨168, 5, 8, .ro, 0⟩
def MEDIA_STATUS_RBUSY : Field := ⟨168, 13, 1, .ro, 0⟩
def MEDIA_FRAMES_COUNT : Field := ⟨169, 0, 32, .ro, 0⟩
def MEDIA_ERRORS_UNSUP : Field := ⟨170, 0, 16, .ro, 0⟩
def MEDIA_ERRORS_BITERR : Field := ⟨170, 16, 16, .ro, 0⟩
def MEDIA_LAST_ERR_CODE : Field := ⟨171, 0, 16, .ro, 0⟩
def MEDIA_LAST_ERR_UNIT : Field := ⟨171, 16, 4, .ro, 0⟩
def MEDIA_LAST_ERR_VALID : Field := ⟨171, 20, 1, .w1c, 0⟩
def MEDIA_GROUP_RESIZE_COMMIT_GO : Field := ⟨172, 0, 1, .cm, 0⟩
def MEDIA_GROUP_RESIZE_EPOCH_COMMITTED : Field := ⟨173, 0, 8, .ro, 0⟩
def MEDIA_GROUP_RESIZE_EPOCH_ADOPTED : Field := ⟨173, 8, 8, .ro, 0⟩
def MEDIA_GROUP_RESIZE_EPOCH_PENDING : Field := ⟨173, 16, 1, .ro, 0⟩
def MEDIA_USTATE_STATE : Field := ⟨174, 0, 3, .ro, 0⟩
def MEDIA_USTATE_BIST_FAIL : Field := ⟨174, 3, 1, .ro, 0⟩
def MR_CROP_POS_X : Field := ⟨175, 0, 16, .st, 0⟩
def MR_CROP_POS_Y : Field := ⟨175, 16, 16, .st, 0⟩
def MR_CROP_SIZE_W : Field := ⟨176, 0, 16, .st, 0⟩
def MR_CROP_SIZE_H : Field := ⟨176, 16, 16, .st, 0⟩
def MR_OUT_OUT_W : Field := ⟨177, 0, 12, .st, 256⟩
def MR_OUT_OUT_H : Field := ⟨177, 16, 12, .st, 256⟩
def MR_MODE_FILTER : Field := ⟨178, 0, 1, .st, 1⟩
def MR_MODE_OFMT : Field := ⟨178, 1, 2, .st, 1⟩
def MR_MODE_MATRIX : Field := ⟨178, 3, 2, .st, 0⟩
def CMP_UNITS_COUNT : Field := ⟨179, 0, 32, .ro, 0⟩
def CMP_RAW_COUNT : Field := ⟨180, 0, 32, .ro, 0⟩
def CMP_INVALID_COUNT : Field := ⟨181, 0, 32, .ro, 0⟩
def KV4_NAN_COUNT : Field := ⟨182, 0, 32, .ro, 0⟩
def FCH_CTRL_DIAG_EN : Field := ⟨183, 0, 1, .rw, 0⟩
def FCH_CTRL_LINE_TEST : Field := ⟨183, 4, 4, .rw, 10⟩
def FCH_SUSP_CFG_ERASE_HOLD : Field := ⟨184, 0, 8, .rw, 3⟩
def FCH_SUSP_CFG_PROG_HOLD : Field := ⟨184, 8, 8, .rw, 16⟩
def FCH_SUSP_CFG_ERASE_MAX : Field := ⟨184, 16, 4, .rw, 12⟩
def FCH_SUSP_CFG_PROG_MAX : Field := ⟨184, 20, 4, .rw, 4⟩
def FCH_SUSP_CFG_MIN_RUN : Field := ⟨184, 24, 8, .rw, 55⟩
def FCH_STATUS_IDLE : Field := ⟨185, 0, 1, .ro, 1⟩
def FCH_STATUS_ONLINE : Field := ⟨185, 1, 6, .ro, 0⟩
def FCH_FAULT_CAUSE : Field := ⟨186, 0, 4, .ro, 0⟩
def FCH_FAULT_CHANNEL : Field := ⟨186, 4, 5, .ro, 0⟩
def FCH_FAULT_DIE : Field := ⟨186, 9, 4, .ro, 0⟩
def FCH_FAULT_VALID : Field := ⟨186, 13, 1, .w1c, 0⟩
def FCH_SUSPENDS_COUNT : Field := ⟨187, 0, 32, .ro, 0⟩
def FCH_PROG_FAIL_COUNT : Field := ⟨188, 0, 32, .ro, 0⟩
def FCH_ERASE_FAIL_COUNT : Field := ⟨189, 0, 32, .ro, 0⟩
def FCH_HALF_ERASED_COUNT : Field := ⟨190, 0, 32, .ro, 0⟩
def FCH_RETRIES_COUNT : Field := ⟨191, 0, 32, .ro, 0⟩
def FCH_LINE_TESTS_COUNT : Field := ⟨192, 0, 32, .ro, 0⟩
def FCH_CSTATE_STATE : Field := ⟨193, 0, 3, .ro, 0⟩
def FCH_CSTATE_WFENCE : Field := ⟨193, 3, 1, .ro, 0⟩
def FCH_CSTATE_CAUSE : Field := ⟨193, 4, 4, .ro, 0⟩
def FCH_CSTATE_DIES_OUT : Field := ⟨193, 8, 16, .ro, 0⟩
def FCH_CSTATE_BIST_FAIL : Field := ⟨193, 24, 1, .ro, 0⟩
def FTL_STATUS_IDLE : Field := ⟨194, 0, 1, .ro, 1⟩
def FTL_STATUS_RO_STATE : Field := ⟨194, 1, 2, .ro, 0⟩
def FTL_STATUS_PATROL_LATE : Field := ⟨194, 3, 1, .ro, 0⟩
def FTL_HEALTH_SPARE_PCT : Field := ⟨195, 0, 8, .ro, 100⟩
def FTL_HEALTH_WEAR_MEAN_PCT : Field := ⟨195, 8, 8, .ro, 0⟩
def FTL_HEALTH_WEAR_MAX_PCT : Field := ⟨195, 16, 8, .ro, 0⟩
def FTL_FREE_SETS : Field := ⟨196, 0, 16, .ro, 0⟩
def FTL_BUF_SLOTS : Field := ⟨197, 0, 13, .ro, 0⟩
def FTL_CORR_COUNT : Field := ⟨198, 0, 32, .ro, 0⟩
def FTL_UNCORR_COUNT : Field := ⟨199, 0, 32, .ro, 0⟩
def FTL_REBUILT_COUNT : Field := ⟨200, 0, 32, .ro, 0⟩
def FTL_LOST_COUNT : Field := ⟨201, 0, 32, .ro, 0⟩
def FTL_GC_COUNT : Field := ⟨202, 0, 32, .ro, 0⟩
def FTL_REFRESH_COUNT : Field := ⟨203, 0, 32, .ro, 0⟩
def FTL_RETIRED_COUNT : Field := ⟨204, 0, 32, .ro, 0⟩
def FTL_RMW_COUNT : Field := ⟨205, 0, 32, .ro, 0⟩
def FTL_PATROLS_COUNT : Field := ⟨206, 0, 32, .ro, 0⟩
def FTL_TABLE_PAGES_COUNT : Field := ⟨207, 0, 22, .ro, 0⟩
def FTL_PATROL_CFG_PERIOD : Field := ⟨208, 0, 5, .st, 7⟩
def FTL_PATROL_CFG_PCT : Field := ⟨208, 8, 5, .st, 20⟩
def FTL_PATROL_CFG_REFRESH_BITS : Field := ⟨208, 16, 8, .st, 120⟩
def FTL_RD_CFG_RD_LIMIT : Field := ⟨209, 0, 16, .st, 64⟩
def FTL_GROUP_PATROL_COMMIT_GO : Field := ⟨210, 0, 1, .cm, 0⟩
def FTL_GROUP_PATROL_EPOCH_COMMITTED : Field := ⟨211, 0, 8, .ro, 0⟩
def FTL_GROUP_PATROL_EPOCH_ADOPTED : Field := ⟨211, 8, 8, .ro, 0⟩
def FTL_GROUP_PATROL_EPOCH_PENDING : Field := ⟨211, 16, 1, .ro, 0⟩
def PROT_CE_CFG_THRESH : Field := ⟨212, 0, 8, .rw, 16⟩
def PROT_CE_CFG_LEAK : Field := ⟨212, 8, 6, .rw, 31⟩
def PROT_STATUS_OVF : Field := ⟨213, 0, 8, .w1c, 0⟩
def PROT_STATUS_UE : Field := ⟨213, 8, 8, .w1c, 0⟩
def PROT_BUCKET_LEVEL : Field := ⟨214, 0, 8, .ro, 0⟩
def PROT_CE_COUNT_COUNT : Field := ⟨215, 0, 32, .ro, 0⟩
def PROT_UE_COUNT_COUNT : Field := ⟨216, 0, 32, .ro, 0⟩
def PROT_LAST_ARRAY : Field := ⟨217, 0, 3, .ro, 0⟩
def PROT_LAST_UE : Field := ⟨217, 3, 1, .ro, 0⟩
def PROT_LAST_VALID : Field := ⟨217, 4, 1, .w1c, 0⟩
def PROT_LAST_UNIT : Field := ⟨217, 5, 6, .ro, 0⟩
def PROT_LAST_ADDR_LO_ADDR : Field := ⟨218, 0, 32, .ro, 0⟩
def PROT_LAST_ADDR_HI_ADDR : Field := ⟨219, 0, 32, .ro, 0⟩
def PROT_FLIP_CTRL_ARRAY : Field := ⟨220, 0, 3, .lk, 0⟩
def PROT_FLIP_CTRL_TARGET : Field := ⟨220, 3, 1, .lk, 0⟩
def PROT_FLIP_CTRL_WORD : Field := ⟨220, 4, 10, .lk, 0⟩
def PROT_FLIP_CTRL_ARM : Field := ⟨220, 14, 1, .lk, 0⟩
def PROT_FLIP_DATA_LO_MASK : Field := ⟨221, 0, 32, .lk, 0⟩
def PROT_FLIP_DATA_HI_MASK : Field := ⟨222, 0, 32, .lk, 0⟩
def PROT_FLIP_CHECK_MASK : Field := ⟨223, 0, 32, .lk, 0⟩
def PROT_TCTRL_OP : Field := ⟨224, 0, 2, .lk, 0⟩
def PROT_TCTRL_ARRAY : Field := ⟨224, 2, 3, .lk, 0⟩
def PROT_TCTRL_UNIT : Field := ⟨224, 5, 6, .lk, 0⟩
def PROT_TADDR_LO_ADDR : Field := ⟨225, 6, 26, .lk, 0⟩
def PROT_TADDR_HI_ADDR : Field := ⟨226, 0, 32, .lk, 0⟩
def PROT_TDATA_DATA : Field := ⟨227, 0, 32, .rw, 0⟩
def PROT_TSTATUS_RESULT : Field := ⟨228, 0, 2, .ro, 0⟩
def PROT_TSTATUS_DONE : Field := ⟨228, 2, 1, .ro, 0⟩
def PROT_TSTATUS_POS : Field := ⟨228, 3, 10, .ro, 0⟩
def PROT_SUM_LO_ISLANDS : Field := ⟨229, 0, 32, .ro, 0⟩
def PROT_SUM_HI_ISLANDS : Field := ⟨230, 0, 28, .ro, 0⟩
def PROT_IRQ_VECTOR : Field := ⟨231, 0, 10, .rw, 0⟩
def PROT_IRQ_EN : Field := ⟨231, 10, 1, .rw, 0⟩
def WEIR_CAP_CAP_W : Field := ⟨232, 0, 13, .st, 0⟩
def WEIR_GROUP_CAP_COMMIT_GO : Field := ⟨233, 0, 1, .cm, 0⟩
def WEIR_GROUP_CAP_EPOCH_COMMITTED : Field := ⟨234, 0, 8, .ro, 0⟩
def WEIR_GROUP_CAP_EPOCH_ADOPTED : Field := ⟨234, 8, 8, .ro, 0⟩
def WEIR_GROUP_CAP_EPOCH_PENDING : Field := ⟨234, 16, 1, .ro, 0⟩
def WEIR_LIMITS_INPUT_LIMIT_DA : Field := ⟨235, 0, 10, .ro, 0⟩
def WEIR_LIMITS_HOST_DIE_QUANTA : Field := ⟨235, 10, 9, .ro, 0⟩
def WEIR_STATUS_MSTATE : Field := ⟨236, 0, 3, .ro, 0⟩
def WEIR_STATUS_STEP : Field := ⟨236, 3, 4, .ro, 1⟩
def WEIR_STATUS_HALT_CAUSE : Field := ⟨236, 7, 4, .ro, 0⟩
def WEIR_STATUS_FEED_FAULT : Field := ⟨236, 11, 1, .ro, 0⟩
def WEIR_STATUS_CAP_BOUND : Field := ⟨236, 12, 1, .ro, 0⟩
def WEIR_STATUS_INPUT_BOUND : Field := ⟨236, 13, 1, .ro, 0⟩
def WEIR_STATUS_THERM_BOUND : Field := ⟨236, 14, 1, .ro, 0⟩
def WEIR_BUDGET_QUANTA : Field := ⟨237, 0, 14, .ro, 0⟩
def WEIR_INPUT_VOLT : Field := ⟨238, 0, 10, .ro, 0⟩
def WEIR_INPUT_CURRENT : Field := ⟨238, 16, 12, .ro, 0⟩
def WEIR_THERM_THERM_W : Field := ⟨239, 0, 13, .ro, 0⟩
def WEIR_HOLDUP_ENERGY_J : Field := ⟨240, 0, 8, .ro, 0⟩
def WEIR_HOLDUP_DEGRADED : Field := ⟨240, 8, 1, .ro, 0⟩
def WEIR_HOLDUP_CHARGED : Field := ⟨240, 9, 1, .ro, 0⟩
def WEIR_ORDER_ORDER : Field := ⟨241, 0, 3, .rw, 0⟩
def WEIR_STEP_TIME_CYCLES : Field := ⟨242, 0, 32, .ro, 0⟩
def WEIR_GRANT_GRANT : Field := ⟨243, 0, 12, .ro, 0⟩
def WEIR_GRANT_REQUEST : Field := ⟨243, 12, 12, .ro, 0⟩
def WEIR_GRANT_LEVEL : Field := ⟨243, 24, 4, .ro, 0⟩
def WEIR_GRANT_THROTTLED : Field := ⟨243, 28, 1, .ro, 0⟩
def WEIR_GRANT_AT_FLOOR : Field := ⟨243, 29, 1, .ro, 0⟩
def REACH_STATE_STATE : Field := ⟨244, 0, 3, .ro, 0⟩
def REACH_STATE_BIST_DONE : Field := ⟨244, 3, 1, .ro, 0⟩
def REACH_STATE_BIST_FAIL : Field := ⟨244, 4, 1, .ro, 0⟩
def REACH_STATE_CAUSE : Field := ⟨244, 5, 2, .ro, 0⟩
def ID_STATUS_STATE : Field := ⟨245, 0, 2, .ro, 0⟩
def ID_STATUS_ENROLLED : Field := ⟨245, 2, 1, .ro, 0⟩
def ID_STATUS_SOURCE : Field := ⟨245, 3, 3, .ro, 0⟩
def ID_STATUS_COPIES_BAD : Field := ⟨245, 6, 4, .ro, 0⟩
def ID_STATUS_REPAIR_PEND : Field := ⟨245, 10, 1, .ro, 0⟩
def ID_ANCHORS_PROGRAMMED : Field := ⟨246, 0, 4, .ro, 0⟩
def ID_ANCHORS_REVOKED : Field := ⟨246, 4, 4, .ro, 0⟩
def ID_ANCHORS_USED : Field := ⟨246, 8, 2, .ro, 0⟩
def ID_QUOTES_COUNT : Field := ⟨247, 0, 32, .ro, 0⟩
def ID_SIGNER_DIGEST_DIGEST : Field := ⟨248, 0, 32, .ro, 0⟩
def ID_PUB_DIGEST_DIGEST : Field := ⟨249, 0, 32, .ro, 0⟩
def ID_MQ_NONCE_NONCE : Field := ⟨250, 0, 32, .lk, 0⟩
def ID_MQ_CTRL_GO : Field := ⟨251, 0, 1, .lk, 0⟩
def ID_MQ_STATUS_RESULT : Field := ⟨252, 0, 16, .ro, 0⟩
def ID_MQ_STATUS_READY : Field := ⟨252, 16, 1, .ro, 0⟩
def ID_MQ_STATUS_IDLE : Field := ⟨252, 17, 1, .ro, 1⟩
def ID_PUB_DATA : Field := ⟨253, 0, 32, .ro, 0⟩
def ID_MQ_DATA_DATA : Field := ⟨254, 0, 32, .ro, 0⟩
def CNT_CYCLE_LO_CYCLE : Field := ⟨255, 0, 32, .ro, 0⟩
def CNT_CYCLE_HI_CYCLE : Field := ⟨256, 0, 32, .ro, 0⟩
def CNT_FREQ_KHZ : Field := ⟨257, 0, 22, .ro, 0⟩
def CNT_CTRL_EN : Field := ⟨258, 0, 8, .rw, 0⟩
def CNT_CTRL_CLEAR : Field := ⟨258, 8, 8, .rw, 0⟩
def CNT_BW_CFG_WIN : Field := ⟨259, 0, 6, .rw, 20⟩
def CNT_BW_STATUS_SEQ : Field := ⟨260, 0, 31, .ro, 0⟩
def CNT_BW_STATUS_LEVEL_CHG : Field := ⟨260, 31, 1, .ro, 0⟩
def CNT_SMP_CFG_WATERMARK : Field := ⟨261, 0, 7, .rw, 32⟩
def CNT_SMP_CFG_IRQ_EN : Field := ⟨261, 7, 1, .rw, 0⟩
def CNT_SMP_CFG_VECTOR : Field := ⟨261, 16, 10, .rw, 0⟩
def CNT_SMP_HEAD_HEAD : Field := ⟨262, 0, 16, .ro, 0⟩
def CNT_SMP_TAIL_TAIL : Field := ⟨263, 0, 16, .rw, 0⟩
def CNT_SMP_LOST_COUNT : Field := ⟨264, 0, 32, .ro, 0⟩
def CNT_SEL_EVENT : Field := ⟨265, 0, 8, .lk, 0⟩
def CNT_SEL_SLOT : Field := ⟨265, 8, 2, .lk, 0⟩
def CNT_SEL_UNIT_EN : Field := ⟨265, 10, 1, .lk, 0⟩
def CNT_SEL_UNIT : Field := ⟨265, 11, 6, .lk, 0⟩
def CNT_SEL_SAMPLE : Field := ⟨265, 17, 1, .lk, 0⟩
def CNT_SEL_SHIFT : Field := ⟨265, 18, 6, .lk, 0⟩
def CNT_LO_VALUE : Field := ⟨266, 0, 32, .ro, 0⟩
def CNT_HI_VALUE : Field := ⟨267, 0, 16, .ro, 0⟩
def CNT_HI_SAT : Field := ⟨267, 16, 1, .ro, 0⟩
def CNT_BW_LO_BYTES : Field := ⟨268, 0, 32, .ro, 0⟩
def CNT_BW_HI_BYTES : Field := ⟨269, 0, 16, .ro, 0⟩
def CNT_SMP_DATA_DATA : Field := ⟨270, 0, 32, .ro, 0⟩
def TEL_TEMP_TEMP : Field := ⟨271, 0, 12, .ro, 0⟩
def TEL_TEMP_VALID : Field := ⟨271, 12, 1, .ro, 0⟩
def TEL_TEMP_THROT : Field := ⟨271, 13, 1, .ro, 0⟩
def TEL_TEMP_CRIT : Field := ⟨271, 14, 1, .ro, 0⟩
def TEL_TEMP_PEAK : Field := ⟨271, 24, 8, .ro, 0⟩
def TEL_POWER_DRAW : Field := ⟨272, 0, 12, .ro, 0⟩
def TEL_MODULE_INPUT_W : Field := ⟨273, 0, 13, .ro, 0⟩
def TEL_MODULE_HOST_DW : Field := ⟨273, 16, 12, .ro, 0⟩
def TEL_ENERGY_LO_MJ : Field := ⟨274, 0, 32, .ro, 0⟩
def TEL_ENERGY_HI_MJ : Field := ⟨275, 0, 32, .ro, 0⟩
def ISL_ID_ISLAND : Field := ⟨276, 0, 8, .ro, 0⟩
def ISL_ID_KIND : Field := ⟨276, 8, 4, .ro, 0⟩
def ISL_ID_PRESENT : Field := ⟨276, 12, 1, .ro, 0⟩
def ISL_ID_ENABLED : Field := ⟨276, 13, 1, .ro, 0⟩
def ISL_UNITS_COUNT : Field := ⟨277, 0, 8, .ro, 0⟩
def ISL_UNITS_DEFINED : Field := ⟨277, 8, 8, .ro, 0⟩

end F

namespace R

def ISL_UNIT_MASK_LO : Reg := ⟨0, .both, false, [F.ISL_UNIT_MASK_LO_MASK],
  [⟨[.reach, .stack, .flash, .sieve, .media, .intake, .sched, .security, .weir], 0x8, 0x0, 0, 1, 0, 1⟩]⟩
def ISL_UNIT_MASK_HI : Reg := ⟨1, .both, false, [F.ISL_UNIT_MASK_HI_MASK],
  [⟨[.reach, .stack, .flash, .sieve, .media, .intake, .sched, .security, .weir], 0xC, 0x0, 0, 1, 0, 1⟩]⟩
def CAP_PRESENT_LO : Reg := ⟨2, .both, false, [F.CAP_PRESENT_LO_ISLANDS],
  [⟨[.security], 0x100, 0x0, 0, 1, 0, 1⟩]⟩
def CAP_PRESENT_HI : Reg := ⟨3, .both, false, [F.CAP_PRESENT_HI_ISLANDS],
  [⟨[.security], 0x104, 0x0, 0, 1, 0, 1⟩]⟩
def CAP_ENABLED_LO : Reg := ⟨4, .both, false, [F.CAP_ENABLED_LO_ISLANDS],
  [⟨[.security], 0x108, 0x0, 0, 1, 0, 1⟩]⟩
def CAP_ENABLED_HI : Reg := ⟨5, .both, false, [F.CAP_ENABLED_HI_ISLANDS],
  [⟨[.security], 0x10C, 0x0, 0, 1, 0, 1⟩]⟩
def CAP_FEATURE : Reg := ⟨6, .both, false, [F.CAP_FEATURE_VARIANT, F.CAP_FEATURE_MEDIA, F.CAP_FEATURE_KV4, F.CAP_FEATURE_RISAL],
  [⟨[.security], 0x110, 0x0, 0, 1, 0, 1⟩]⟩
def IMG_STATUS : Reg := ⟨7, .both, false, [F.IMG_STATUS_SOURCE, F.IMG_STATUS_CTR_LOST, F.IMG_STATUS_CTR_PEND],
  [⟨[.security], 0x120, 0x0, 0, 1, 0, 1⟩]⟩
def IMG_REJECT : Reg := ⟨8, .both, false, [F.IMG_REJECT_SLOT_A, F.IMG_REJECT_SLOT_B],
  [⟨[.security], 0x124, 0x0, 0, 1, 0, 1⟩]⟩
def IMG_VERSION : Reg := ⟨9, .both, false, [F.IMG_VERSION_VERSION],
  [⟨[.security], 0x128, 0x0, 0, 1, 0, 1⟩]⟩
def IMG_COUNTER : Reg := ⟨10, .both, false, [F.IMG_COUNTER_COUNTER],
  [⟨[.security], 0x12C, 0x0, 0, 1, 0, 1⟩]⟩
def IMG_DIGEST : Reg := ⟨11, .both, false, [F.IMG_DIGEST_DIGEST],
  [⟨[.security], 0x140, 0x4, 0, 16, 0, 1⟩]⟩
def DQP_CTRL : Reg := ⟨12, .host, false, [F.DQP_CTRL_EN],
  [⟨[.intake], 0x100, 0x0, 0, 1, 0, 1⟩]⟩
def DQP_STATUS : Reg := ⟨13, .host, false, [F.DQP_STATUS_RDY, F.DQP_STATUS_IDLE, F.DQP_STATUS_PSTATE, F.DQP_STATUS_PS_BUSY, F.DQP_STATUS_LINK_UP, F.DQP_STATUS_DB_ERR],
  [⟨[.intake], 0x104, 0x0, 0, 1, 0, 1⟩]⟩
def DQP_AQ_SIZE : Reg := ⟨14, .host, false, [F.DQP_AQ_SIZE_ASQ_ENTRIES, F.DQP_AQ_SIZE_ACQ_ENTRIES],
  [⟨[.intake], 0x108, 0x0, 0, 1, 0, 1⟩]⟩
def DQP_SQ_BASE_LO : Reg := ⟨15, .host, false, [F.DQP_SQ_BASE_LO_ADDR],
  [⟨[.intake], 0x110, 0x0, 0, 1, 0, 1⟩]⟩
def DQP_SQ_BASE_HI : Reg := ⟨16, .host, false, [F.DQP_SQ_BASE_HI_ADDR],
  [⟨[.intake], 0x114, 0x0, 0, 1, 0, 1⟩]⟩
def DQP_CQ_BASE_LO : Reg := ⟨17, .host, false, [F.DQP_CQ_BASE_LO_ADDR],
  [⟨[.intake], 0x118, 0x0, 0, 1, 0, 1⟩]⟩
def DQP_CQ_BASE_HI : Reg := ⟨18, .host, false, [F.DQP_CQ_BASE_HI_ADDR],
  [⟨[.intake], 0x11C, 0x0, 0, 1, 0, 1⟩]⟩
def DQP_CAP : Reg := ⟨19, .both, false, [F.DQP_CAP_MAX_QUEUES, F.DQP_CAP_MAX_ENTRIES, F.DQP_CAP_RISAL],
  [⟨[.intake], 0x120, 0x0, 0, 1, 0, 1⟩]⟩
def DQP_DEFER_PEND : Reg := ⟨20, .host, false, [F.DQP_DEFER_PEND_COUNT],
  [⟨[.intake], 0x124, 0x0, 0, 1, 0, 1⟩]⟩
def DQP_DB_ERR : Reg := ⟨21, .host, false, [F.DQP_DB_ERR_QID, F.DQP_DB_ERR_KIND, F.DQP_DB_ERR_BAD_ENTRY],
  [⟨[.intake], 0x128, 0x0, 0, 1, 0, 1⟩]⟩
def DQP_LINK_ERR : Reg := ⟨22, .host, false, [F.DQP_LINK_ERR_CRC_ERR, F.DQP_LINK_ERR_BAD_TYPE],
  [⟨[.intake], 0x12C, 0x0, 0, 1, 0, 1⟩]⟩
def DQP_ARB_LOG : Reg := ⟨23, .both, false, [F.DQP_ARB_LOG_SUPERSEDED, F.DQP_ARB_LOG_LAST_LOSER],
  [⟨[.intake], 0x130, 0x0, 0, 1, 0, 1⟩]⟩
def DQP_SB_IMG_CTRL : Reg := ⟨24, .host, false, [F.DQP_SB_IMG_CTRL_CMD],
  [⟨[.intake], 0x140, 0x0, 0, 1, 0, 1⟩]⟩
def DQP_SB_IMG_LEN : Reg := ⟨25, .host, false, [F.DQP_SB_IMG_LEN_LENGTH],
  [⟨[.intake], 0x144, 0x0, 0, 1, 0, 1⟩]⟩
def DQP_SB_IMG_DATA : Reg := ⟨26, .host, false, [F.DQP_SB_IMG_DATA_DATA],
  [⟨[.intake], 0x148, 0x0, 0, 1, 0, 1⟩]⟩
def DQP_SB_IMG_STAT : Reg := ⟨27, .host, false, [F.DQP_SB_IMG_STAT_COUNT, F.DQP_SB_IMG_STAT_WAITING],
  [⟨[.intake], 0x14C, 0x0, 0, 1, 0, 1⟩]⟩
def DQP_SB_IMG_RESULT : Reg := ⟨28, .host, false, [F.DQP_SB_IMG_RESULT_RESULT],
  [⟨[.intake], 0x150, 0x0, 0, 1, 0, 1⟩]⟩
def RISAL_ENTRY_LO : Reg := ⟨29, .host, false, [F.RISAL_ENTRY_LO_ADDR],
  [⟨[.intake], 0x180, 0x0, 0, 1, 0, 1⟩]⟩
def RISAL_ENTRY_HI : Reg := ⟨30, .host, false, [F.RISAL_ENTRY_HI_ADDR],
  [⟨[.intake], 0x184, 0x0, 0, 1, 0, 1⟩]⟩
def RISAL_SLOT_LO : Reg := ⟨31, .host, false, [F.RISAL_SLOT_LO_ADDR],
  [⟨[.intake], 0x188, 0x0, 0, 1, 0, 1⟩]⟩
def RISAL_SLOT_HI : Reg := ⟨32, .host, false, [F.RISAL_SLOT_HI_ADDR],
  [⟨[.intake], 0x18C, 0x0, 0, 1, 0, 1⟩]⟩
def RISAL_DEST_LO : Reg := ⟨33, .host, false, [F.RISAL_DEST_LO_ADDR],
  [⟨[.intake], 0x190, 0x0, 0, 1, 0, 1⟩]⟩
def RISAL_DEST_HI : Reg := ⟨34, .host, false, [F.RISAL_DEST_HI_ADDR],
  [⟨[.intake], 0x194, 0x0, 0, 1, 0, 1⟩]⟩
def RISAL_DCFG : Reg := ⟨35, .host, false, [F.RISAL_DCFG_DEST_KIB, F.RISAL_DCFG_PROFILE],
  [⟨[.intake], 0x198, 0x0, 0, 1, 0, 1⟩]⟩
def RISAL_CTYPE : Reg := ⟨36, .host, false, [F.RISAL_CTYPE_CTYPE],
  [⟨[.intake], 0x19C, 0x0, 0, 1, 0, 1⟩]⟩
def RISAL_EMBEDS : Reg := ⟨37, .both, false, [F.RISAL_EMBEDS_COUNT],
  [⟨[.intake], 0x1A0, 0x0, 0, 1, 0, 1⟩]⟩
def HG_STACK_LIM : Reg := ⟨38, .host, false, [F.HG_STACK_LIM_GIB],
  [⟨[.sched], 0x1000, 0x40, 0, 64, 0, 1⟩]⟩
def HG_SCRATCH_LIM : Reg := ⟨39, .host, false, [F.HG_SCRATCH_LIM_MIB],
  [⟨[.sched], 0x1004, 0x40, 0, 64, 0, 1⟩]⟩
def HG_FLASH_LIM : Reg := ⟨40, .host, false, [F.HG_FLASH_LIM_GIB],
  [⟨[.sched], 0x1008, 0x40, 0, 64, 0, 1⟩]⟩
def HG_SAVE_LIM : Reg := ⟨41, .host, false, [F.HG_SAVE_LIM_GIB],
  [⟨[.sched], 0x100C, 0x40, 0, 64, 0, 1⟩]⟩
def HG_STACK_USED : Reg := ⟨42, .both, false, [F.HG_STACK_USED_MIB],
  [⟨[.sched], 0x1010, 0x40, 0, 64, 0, 1⟩]⟩
def HG_SCRATCH_USED : Reg := ⟨43, .both, false, [F.HG_SCRATCH_USED_MIB],
  [⟨[.sched], 0x1014, 0x40, 0, 64, 0, 1⟩]⟩
def HG_FLASH_USED : Reg := ⟨44, .both, false, [F.HG_FLASH_USED_MIB],
  [⟨[.sched], 0x1018, 0x40, 0, 64, 0, 1⟩]⟩
def HG_SAVE_USED : Reg := ⟨45, .both, false, [F.HG_SAVE_USED_MIB],
  [⟨[.sched], 0x101C, 0x40, 0, 64, 0, 1⟩]⟩
def HG_GROUP_QUOTA_COMMIT : Reg := ⟨46, .host, false, [F.HG_GROUP_QUOTA_COMMIT_GO],
  [⟨[.sched], 0x1020, 0x40, 0, 64, 0, 1⟩]⟩
def HG_GROUP_QUOTA_EPOCH : Reg := ⟨47, .host, false, [F.HG_GROUP_QUOTA_EPOCH_COMMITTED, F.HG_GROUP_QUOTA_EPOCH_ADOPTED, F.HG_GROUP_QUOTA_EPOCH_PENDING],
  [⟨[.sched], 0x1024, 0x40, 0, 64, 0, 1⟩]⟩
def HG_DENY : Reg := ⟨48, .both, false, [F.HG_DENY_COUNT],
  [⟨[.sched], 0x1028, 0x40, 0, 64, 0, 1⟩]⟩
def STK_STATE : Reg := ⟨49, .both, false, [F.STK_STATE_STATE, F.STK_STATE_IDLE, F.STK_STATE_JOIN_STEP],
  [⟨[.stack], 0x100, 0x0, 0, 1, 0, 1⟩]⟩
def STK_EXT_TOTAL : Reg := ⟨50, .both, false, [F.STK_EXT_TOTAL_COUNT],
  [⟨[.stack], 0x104, 0x0, 0, 1, 0, 1⟩]⟩
def STK_EXT_FREE : Reg := ⟨51, .both, false, [F.STK_EXT_FREE_COUNT],
  [⟨[.stack], 0x108, 0x0, 0, 1, 0, 1⟩]⟩
def STK_EXT_FOREIGN : Reg := ⟨52, .both, false, [F.STK_EXT_FOREIGN_COUNT],
  [⟨[.stack], 0x10C, 0x0, 0, 1, 0, 1⟩]⟩
def STK_DRAIN_LEFT : Reg := ⟨53, .both, false, [F.STK_DRAIN_LEFT_COUNT],
  [⟨[.stack], 0x110, 0x0, 0, 1, 0, 1⟩]⟩
def STK_MOVE_RATE : Reg := ⟨54, .host, false, [F.STK_MOVE_RATE_RATE],
  [⟨[.stack], 0x114, 0x0, 0, 1, 0, 1⟩]⟩
def STK_SPARE_USED : Reg := ⟨55, .both, false, [F.STK_SPARE_USED_COUNT],
  [⟨[.stack], 0x118, 0x0, 0, 1, 0, 1⟩]⟩
def STK_REMAP_SEL : Reg := ⟨56, .host, false, [F.STK_REMAP_SEL_EXTENT],
  [⟨[.stack], 0x11C, 0x0, 0, 1, 0, 1⟩]⟩
def STK_REMAP_DATA : Reg := ⟨57, .both, false, [F.STK_REMAP_DATA_EXTENT, F.STK_REMAP_DATA_STACK, F.STK_REMAP_DATA_UNBACKED, F.STK_REMAP_DATA_POISONED],
  [⟨[.stack], 0x120, 0x0, 0, 1, 0, 1⟩]⟩
def TM_CTRL : Reg := ⟨58, .host, false, [F.TM_CTRL_MODE],
  [⟨[.sched], 0x800, 0x0, 0, 1, 0, 1⟩]⟩
def TM_STATUS : Reg := ⟨59, .both, false, [F.TM_STATUS_IDLE, F.TM_STATUS_FETCHES],
  [⟨[.sched], 0x804, 0x0, 0, 1, 0, 1⟩]⟩
def TM_FREE_D : Reg := ⟨60, .both, false, [F.TM_FREE_D_MIB],
  [⟨[.sched], 0x810, 0x4, 0, 4, 0, 1⟩]⟩
def TM_WIN_FAULT : Reg := ⟨61, .both, false, [F.TM_WIN_FAULT_COUNT],
  [⟨[.sched], 0x820, 0x0, 0, 1, 0, 1⟩]⟩
def TM_SPILL : Reg := ⟨62, .both, false, [F.TM_SPILL_COUNT],
  [⟨[.sched], 0x824, 0x0, 0, 1, 0, 1⟩]⟩
def TM_DEADLINE_MISS : Reg := ⟨63, .both, false, [F.TM_DEADLINE_MISS_COUNT],
  [⟨[.sched], 0x828, 0x0, 0, 1, 0, 1⟩]⟩
def TM_QUAR : Reg := ⟨64, .both, false, [F.TM_QUAR_COUNT],
  [⟨[.sched], 0x82C, 0x0, 0, 1, 0, 1⟩]⟩
def TM_EVICT : Reg := ⟨65, .both, false, [F.TM_EVICT_COUNT],
  [⟨[.sched], 0x830, 0x0, 0, 1, 0, 1⟩]⟩
def TILE_ONLINE_LO : Reg := ⟨66, .both, false, [F.TILE_ONLINE_LO_MASK],
  [⟨[.reach], 0x100, 0x0, 0, 1, 0, 1⟩]⟩
def TILE_ONLINE_HI : Reg := ⟨67, .both, false, [F.TILE_ONLINE_HI_MASK],
  [⟨[.reach], 0x104, 0x0, 0, 1, 0, 1⟩]⟩
def TILE_SLIP_LO : Reg := ⟨68, .both, false, [F.TILE_SLIP_LO_MASK],
  [⟨[.reach], 0x108, 0x0, 0, 1, 0, 1⟩]⟩
def TILE_SLIP_HI : Reg := ⟨69, .both, false, [F.TILE_SLIP_HI_MASK],
  [⟨[.reach], 0x10C, 0x0, 0, 1, 0, 1⟩]⟩
def TILE_FMT : Reg := ⟨70, .host, false, [F.TILE_FMT_MODE, F.TILE_FMT_GSIZE, F.TILE_FMT_WFMT, F.TILE_FMT_AFMT],
  [⟨[.reach], 0x1000, 0x200, 0, 48, 0, 1⟩]⟩
def TILE_SENT : Reg := ⟨71, .host, false, [F.TILE_SENT_THRESH, F.TILE_SENT_EN],
  [⟨[.reach], 0x1004, 0x200, 0, 48, 0, 1⟩]⟩
def TILE_GROUP_FMT_COMMIT : Reg := ⟨72, .host, false, [F.TILE_GROUP_FMT_COMMIT_GO],
  [⟨[.reach], 0x1008, 0x200, 0, 48, 0, 1⟩]⟩
def TILE_GROUP_FMT_EPOCH : Reg := ⟨73, .host, false, [F.TILE_GROUP_FMT_EPOCH_COMMITTED, F.TILE_GROUP_FMT_EPOCH_ADOPTED, F.TILE_GROUP_FMT_EPOCH_PENDING],
  [⟨[.reach], 0x100C, 0x200, 0, 48, 0, 1⟩]⟩
def TILE_STATUS : Reg := ⟨74, .both, false, [F.TILE_STATUS_STATE, F.TILE_STATUS_IDLE, F.TILE_STATUS_SLIP, F.TILE_STATUS_SPARE_COL, F.TILE_STATUS_INFLIGHT],
  [⟨[.reach], 0x1010, 0x200, 0, 48, 0, 1⟩]⟩
def TILE_QSTATE : Reg := ⟨75, .both, false, [F.TILE_QSTATE_Q0, F.TILE_QSTATE_Q1, F.TILE_QSTATE_Q2, F.TILE_QSTATE_Q3, F.TILE_QSTATE_BIST_DONE, F.TILE_QSTATE_BIST_FAIL],
  [⟨[.reach], 0x1014, 0x200, 0, 48, 0, 1⟩]⟩
def TILE_FAULT : Reg := ⟨76, .host, false, [F.TILE_FAULT_CODE, F.TILE_FAULT_QUAD, F.TILE_FAULT_WHOLE, F.TILE_FAULT_COL, F.TILE_FAULT_SLOT, F.TILE_FAULT_VALID],
  [⟨[.reach], 0x1018, 0x200, 0, 48, 0, 1⟩]⟩
def TILE_REPAIR : Reg := ⟨77, .both, false, [F.TILE_REPAIR_MAP],
  [⟨[.reach], 0x101C, 0x200, 0, 48, 0, 1⟩]⟩
def TILE_ACC_OWN : Reg := ⟨78, .both, false, [F.TILE_ACC_OWN_OWNER],
  [⟨[.reach], 0x1020, 0x200, 0, 48, 0, 1⟩]⟩
def TILE_PASSES : Reg := ⟨79, .both, false, [F.TILE_PASSES_COUNT],
  [⟨[.reach], 0x1024, 0x200, 0, 48, 0, 1⟩]⟩
def TILE_BUBBLES : Reg := ⟨80, .both, false, [F.TILE_BUBBLES_COUNT],
  [⟨[.reach], 0x1028, 0x200, 0, 48, 0, 1⟩]⟩
def TILE_FREEZES : Reg := ⟨81, .both, false, [F.TILE_FREEZES_COUNT],
  [⟨[.reach], 0x102C, 0x200, 0, 48, 0, 1⟩]⟩
def TILE_ESCALATIONS : Reg := ⟨82, .both, false, [F.TILE_ESCALATIONS_COUNT],
  [⟨[.reach], 0x1030, 0x200, 0, 48, 0, 1⟩]⟩
def TILE_INJECT : Reg := ⟨83, .host, false, [F.TILE_INJECT_COL, F.TILE_INJECT_ARM],
  [⟨[.reach], 0x1034, 0x200, 0, 48, 0, 1⟩]⟩
def TILE_SCALE : Reg := ⟨84, .host, false, [F.TILE_SCALE_SCALE],
  [⟨[.reach], 0x1100, 0x200, 0, 48, 4, 64⟩]⟩
def ROT_PCFG : Reg := ⟨85, .host, false, [F.ROT_PCFG_OP, F.ROT_PCFG_ROT_EN, F.ROT_PCFG_ROT_SIZE, F.ROT_PCFG_OUT_FMT, F.ROT_PCFG_GSIZE, F.ROT_PCFG_ROUND, F.ROT_PCFG_IN_FMT],
  [⟨[.reach], 0x300, 0x40, 0, 4, 0, 1⟩]⟩
def ROT_PSEED : Reg := ⟨86, .host, false, [F.ROT_PSEED_SEED],
  [⟨[.reach], 0x304, 0x40, 0, 4, 0, 1⟩]⟩
def ROT_PPARAM_LO : Reg := ⟨87, .host, false, [F.ROT_PPARAM_LO_ADDR],
  [⟨[.reach], 0x308, 0x40, 0, 4, 0, 1⟩]⟩
def ROT_PPARAM_HI : Reg := ⟨88, .host, false, [F.ROT_PPARAM_HI_ADDR],
  [⟨[.reach], 0x30C, 0x40, 0, 4, 0, 1⟩]⟩
def ROT_PSIGN_0 : Reg := ⟨89, .host, false, [F.ROT_PSIGN_0_SIGN],
  [⟨[.reach], 0x310, 0x40, 0, 4, 0, 1⟩]⟩
def ROT_PSIGN_1 : Reg := ⟨90, .host, false, [F.ROT_PSIGN_1_SIGN],
  [⟨[.reach], 0x314, 0x40, 0, 4, 0, 1⟩]⟩
def ROT_PSIGN_2 : Reg := ⟨91, .host, false, [F.ROT_PSIGN_2_SIGN],
  [⟨[.reach], 0x318, 0x40, 0, 4, 0, 1⟩]⟩
def ROT_PSIGN_3 : Reg := ⟨92, .host, false, [F.ROT_PSIGN_3_SIGN],
  [⟨[.reach], 0x31C, 0x40, 0, 4, 0, 1⟩]⟩
def ROT_PDIM : Reg := ⟨93, .host, false, [F.ROT_PDIM_LEN],
  [⟨[.reach], 0x320, 0x40, 0, 4, 0, 1⟩]⟩
def ROT_PSIDE_LO : Reg := ⟨94, .host, false, [F.ROT_PSIDE_LO_ADDR],
  [⟨[.reach], 0x324, 0x40, 0, 4, 0, 1⟩]⟩
def ROT_PSIDE_HI : Reg := ⟨95, .host, false, [F.ROT_PSIDE_HI_ADDR],
  [⟨[.reach], 0x328, 0x40, 0, 4, 0, 1⟩]⟩
def ROT_GROUP_CFG_COMMIT : Reg := ⟨96, .host, false, [F.ROT_GROUP_CFG_COMMIT_GO],
  [⟨[.reach], 0x400, 0x0, 0, 1, 0, 1⟩]⟩
def ROT_GROUP_CFG_EPOCH : Reg := ⟨97, .host, false, [F.ROT_GROUP_CFG_EPOCH_COMMITTED, F.ROT_GROUP_CFG_EPOCH_ADOPTED, F.ROT_GROUP_CFG_EPOCH_PENDING],
  [⟨[.reach], 0x404, 0x0, 0, 1, 0, 1⟩]⟩
def ROT_STATUS : Reg := ⟨98, .both, false, [F.ROT_STATUS_IDLE, F.ROT_STATUS_BUSY],
  [⟨[.reach], 0x408, 0x0, 0, 1, 0, 1⟩]⟩
def ROT_SAT : Reg := ⟨99, .both, false, [F.ROT_SAT_COUNT],
  [⟨[.reach], 0x40C, 0x0, 0, 1, 0, 1⟩]⟩
def ROT_NAN : Reg := ⟨100, .both, false, [F.ROT_NAN_COUNT],
  [⟨[.reach], 0x410, 0x0, 0, 1, 0, 1⟩]⟩
def QNT_TRIPS : Reg := ⟨101, .both, false, [F.QNT_TRIPS_COUNT],
  [⟨[.reach], 0x414, 0x0, 0, 1, 0, 1⟩]⟩
def QNT_UNESC : Reg := ⟨102, .both, false, [F.QNT_UNESC_COUNT],
  [⟨[.reach], 0x418, 0x0, 0, 1, 0, 1⟩]⟩
def QNT_FLAG_S0_LO : Reg := ⟨103, .host, false, [F.QNT_FLAG_S0_LO_TILE],
  [⟨[.reach], 0x420, 0x0, 0, 1, 0, 1⟩]⟩
def QNT_FLAG_S0_HI : Reg := ⟨104, .host, false, [F.QNT_FLAG_S0_HI_TILE],
  [⟨[.reach], 0x424, 0x0, 0, 1, 0, 1⟩]⟩
def QNT_FLAG_S1_LO : Reg := ⟨105, .host, false, [F.QNT_FLAG_S1_LO_TILE],
  [⟨[.reach], 0x428, 0x0, 0, 1, 0, 1⟩]⟩
def QNT_FLAG_S1_HI : Reg := ⟨106, .host, false, [F.QNT_FLAG_S1_HI_TILE],
  [⟨[.reach], 0x42C, 0x0, 0, 1, 0, 1⟩]⟩
def RUN_STATUS : Reg := ⟨107, .both, false, [F.RUN_STATUS_IDLE, F.RUN_STATUS_BUSY],
  [⟨[.reach], 0x500, 0x0, 0, 1, 0, 1⟩]⟩
def RUN_RILLS : Reg := ⟨108, .both, false, [F.RUN_RILLS_SLOT0, F.RUN_RILLS_SLOT1],
  [⟨[.reach], 0x504, 0x0, 0, 1, 0, 1⟩]⟩
def RUN_FAULT : Reg := ⟨109, .host, false, [F.RUN_FAULT_CODE, F.RUN_FAULT_RUNNEL, F.RUN_FAULT_RILL, F.RUN_FAULT_SLOT, F.RUN_FAULT_VALID],
  [⟨[.reach], 0x508, 0x0, 0, 1, 0, 1⟩]⟩
def RUN_FAULT_PC_LO : Reg := ⟨110, .both, false, [F.RUN_FAULT_PC_LO_PC],
  [⟨[.reach], 0x50C, 0x0, 0, 1, 0, 1⟩]⟩
def RUN_FAULT_PC_HI : Reg := ⟨111, .both, false, [F.RUN_FAULT_PC_HI_PC],
  [⟨[.reach], 0x510, 0x0, 0, 1, 0, 1⟩]⟩
def RUN_FAULTS : Reg := ⟨112, .both, false, [F.RUN_FAULTS_COUNT],
  [⟨[.reach], 0x514, 0x0, 0, 1, 0, 1⟩]⟩
def RUN_RESIDUE : Reg := ⟨113, .both, false, [F.RUN_RESIDUE_COUNT],
  [⟨[.reach], 0x518, 0x0, 0, 1, 0, 1⟩]⟩
def RUN_INJECT : Reg := ⟨114, .host, false, [F.RUN_INJECT_RUNNEL, F.RUN_INJECT_LANE, F.RUN_INJECT_ARM],
  [⟨[.reach], 0x51C, 0x0, 0, 1, 0, 1⟩]⟩
def FLUME_STATUS : Reg := ⟨115, .both, false, [F.FLUME_STATUS_S0, F.FLUME_STATUS_S1, F.FLUME_STATUS_Q0, F.FLUME_STATUS_Q1, F.FLUME_STATUS_IDLE],
  [⟨[.reach], 0x700, 0x40, 0, 8, 0, 1⟩]⟩
def FLUME_PC : Reg := ⟨116, .both, false, [F.FLUME_PC_PC0, F.FLUME_PC_PC1],
  [⟨[.reach], 0x704, 0x40, 0, 8, 0, 1⟩]⟩
def FLUME_FAULT : Reg := ⟨117, .host, false, [F.FLUME_FAULT_CODE, F.FLUME_FAULT_SLOT, F.FLUME_FAULT_PC, F.FLUME_FAULT_VALID],
  [⟨[.reach], 0x708, 0x40, 0, 8, 0, 1⟩]⟩
def FLUME_FAULT_ADDR_LO : Reg := ⟨118, .both, false, [F.FLUME_FAULT_ADDR_LO_ADDR],
  [⟨[.reach], 0x70C, 0x40, 0, 8, 0, 1⟩]⟩
def FLUME_FAULT_ADDR_HI : Reg := ⟨119, .both, false, [F.FLUME_FAULT_ADDR_HI_ADDR],
  [⟨[.reach], 0x710, 0x40, 0, 8, 0, 1⟩]⟩
def FLUME_STALL_SLUICE : Reg := ⟨120, .both, false, [F.FLUME_STALL_SLUICE_COUNT],
  [⟨[.reach], 0x714, 0x40, 0, 8, 0, 1⟩]⟩
def FLUME_STALL_DEST : Reg := ⟨121, .both, false, [F.FLUME_STALL_DEST_COUNT],
  [⟨[.reach], 0x718, 0x40, 0, 8, 0, 1⟩]⟩
def FLUME_PROGRAMS : Reg := ⟨122, .both, false, [F.FLUME_PROGRAMS_COUNT],
  [⟨[.reach], 0x71C, 0x40, 0, 8, 0, 1⟩]⟩
def FLUME_CFG : Reg := ⟨123, .host, false, [F.FLUME_CFG_TIMEOUT],
  [⟨[.reach], 0x900, 0x0, 0, 1, 0, 1⟩]⟩
def SLUICE_CFG : Reg := ⟨124, .host, false, [F.SLUICE_CFG_RATE, F.SLUICE_CFG_EN],
  [⟨[.reach], 0x600, 0x20, 0, 8, 0, 1⟩, ⟨[.stack, .flash], 0x200, 0x20, 0, 7, 0, 1⟩, ⟨[.sieve], 0xC80, 0x20, 4, 1, 0, 1⟩, ⟨[.media], 0xC00, 0x20, 0, 5, 0, 1⟩]⟩
def SLUICE_BURST : Reg := ⟨125, .host, false, [F.SLUICE_BURST_UNITS],
  [⟨[.reach], 0x604, 0x20, 0, 8, 0, 1⟩, ⟨[.stack, .flash], 0x204, 0x20, 0, 7, 0, 1⟩, ⟨[.sieve], 0xC84, 0x20, 4, 1, 0, 1⟩, ⟨[.media], 0xC04, 0x20, 0, 5, 0, 1⟩]⟩
def SLUICE_GROUP_RATE_COMMIT : Reg := ⟨126, .host, false, [F.SLUICE_GROUP_RATE_COMMIT_GO],
  [⟨[.reach], 0x608, 0x20, 0, 8, 0, 1⟩, ⟨[.stack, .flash], 0x208, 0x20, 0, 7, 0, 1⟩, ⟨[.sieve], 0xC88, 0x20, 4, 1, 0, 1⟩, ⟨[.media], 0xC08, 0x20, 0, 5, 0, 1⟩]⟩
def SLUICE_GROUP_RATE_EPOCH : Reg := ⟨127, .host, false, [F.SLUICE_GROUP_RATE_EPOCH_COMMITTED, F.SLUICE_GROUP_RATE_EPOCH_ADOPTED, F.SLUICE_GROUP_RATE_EPOCH_PENDING],
  [⟨[.reach], 0x60C, 0x20, 0, 8, 0, 1⟩, ⟨[.stack, .flash], 0x20C, 0x20, 0, 7, 0, 1⟩, ⟨[.sieve], 0xC8C, 0x20, 4, 1, 0, 1⟩, ⟨[.media], 0xC0C, 0x20, 0, 5, 0, 1⟩]⟩
def SLUICE_LEVEL : Reg := ⟨128, .both, false, [F.SLUICE_LEVEL_BYTES],
  [⟨[.reach], 0x610, 0x20, 0, 8, 0, 1⟩, ⟨[.stack, .flash], 0x210, 0x20, 0, 7, 0, 1⟩, ⟨[.sieve], 0xC90, 0x20, 4, 1, 0, 1⟩, ⟨[.media], 0xC10, 0x20, 0, 5, 0, 1⟩]⟩
def SLUICE_STALLS : Reg := ⟨129, .both, false, [F.SLUICE_STALLS_COUNT],
  [⟨[.reach], 0x614, 0x20, 0, 8, 0, 1⟩, ⟨[.stack, .flash], 0x214, 0x20, 0, 7, 0, 1⟩, ⟨[.sieve], 0xC94, 0x20, 4, 1, 0, 1⟩, ⟨[.media], 0xC14, 0x20, 0, 5, 0, 1⟩]⟩
def SCHED_CFG : Reg := ⟨130, .host, false, [F.SCHED_CFG_QUANTUM, F.SCHED_CFG_LEAD],
  [⟨[.sched], 0x200, 0x0, 0, 1, 0, 1⟩]⟩
def SCHED_COLD : Reg := ⟨131, .host, false, [F.SCHED_COLD_COLD],
  [⟨[.sched], 0x204, 0x0, 0, 1, 0, 1⟩]⟩
def SCHED_BATCH : Reg := ⟨132, .host, false, [F.SCHED_BATCH_CHUNK, F.SCHED_BATCH_MAX_DECODE],
  [⟨[.sched], 0x208, 0x0, 0, 1, 0, 1⟩]⟩
def SCHED_STATUS : Reg := ⟨133, .both, false, [F.SCHED_STATUS_IDLE, F.SCHED_STATUS_RESIDENT, F.SCHED_STATUS_TURN, F.SCHED_STATUS_READY],
  [⟨[.sched], 0x20C, 0x0, 0, 1, 0, 1⟩]⟩
def SCHED_STARVE : Reg := ⟨134, .both, false, [F.SCHED_STARVE_COUNT],
  [⟨[.sched], 0x210, 0x0, 0, 1, 0, 1⟩]⟩
def SCHED_EVICT : Reg := ⟨135, .both, false, [F.SCHED_EVICT_COUNT],
  [⟨[.sched], 0x214, 0x0, 0, 1, 0, 1⟩]⟩
def SCHED_TURN_LATE : Reg := ⟨136, .both, false, [F.SCHED_TURN_LATE_COUNT],
  [⟨[.sched], 0x218, 0x0, 0, 1, 0, 1⟩]⟩
def SCHED_AUTO_IMAGE : Reg := ⟨137, .both, false, [F.SCHED_AUTO_IMAGE_DONE, F.SCHED_AUTO_IMAGE_FAILED],
  [⟨[.sched], 0x21C, 0x0, 0, 1, 0, 1⟩]⟩
def SCHED_TURN_CNT : Reg := ⟨138, .host, false, [F.SCHED_TURN_CNT_COUNT],
  [⟨[.sched], 0x220, 0x0, 0, 1, 0, 1⟩]⟩
def SCHED_GROUP_TURNOUT_COMMIT : Reg := ⟨139, .host, false, [F.SCHED_GROUP_TURNOUT_COMMIT_GO],
  [⟨[.sched], 0x224, 0x0, 0, 1, 0, 1⟩]⟩
def SCHED_GROUP_TURNOUT_EPOCH : Reg := ⟨140, .host, false, [F.SCHED_GROUP_TURNOUT_EPOCH_COMMITTED, F.SCHED_GROUP_TURNOUT_EPOCH_ADOPTED, F.SCHED_GROUP_TURNOUT_EPOCH_PENDING],
  [⟨[.sched], 0x228, 0x0, 0, 1, 0, 1⟩]⟩
def SCHED_JITTER_MAX : Reg := ⟨141, .both, false, [F.SCHED_JITTER_MAX_CYCLES],
  [⟨[.sched], 0x22C, 0x0, 0, 1, 0, 1⟩]⟩
def SCHED_TURN_BASE_LO : Reg := ⟨142, .both, false, [F.SCHED_TURN_BASE_LO_CYCLE],
  [⟨[.sched], 0x230, 0x0, 0, 1, 0, 1⟩]⟩
def SCHED_TURN_BASE_HI : Reg := ⟨143, .both, false, [F.SCHED_TURN_BASE_HI_CYCLE],
  [⟨[.sched], 0x234, 0x0, 0, 1, 0, 1⟩]⟩
def SCHED_TURN_DUR : Reg := ⟨144, .host, false, [F.SCHED_TURN_DUR_DURATION],
  [⟨[.sched], 0x3000, 0x10, 0, 256, 0, 1⟩]⟩
def SCHED_TURN_MASK : Reg := ⟨145, .host, false, [F.SCHED_TURN_MASK_REACH_MASK],
  [⟨[.sched], 0x3004, 0x10, 0, 256, 0, 1⟩]⟩
def SCHED_TURN_GROUP : Reg := ⟨146, .host, false, [F.SCHED_TURN_GROUP_GROUP],
  [⟨[.sched], 0x3008, 0x10, 0, 256, 0, 1⟩]⟩
def SRCH_CFG : Reg := ⟨147, .host, false, [F.SRCH_CFG_SWEEP_MAX, F.SRCH_CFG_SWEEPS_MAX],
  [⟨[.sched], 0xA00, 0x0, 0, 1, 0, 1⟩]⟩
def SRCH_STATUS : Reg := ⟨148, .host, false, [F.SRCH_STATUS_IDLE, F.SRCH_STATUS_SWEEPS, F.SRCH_STATUS_REPAIR_OVF, F.SRCH_STATUS_QUEUED],
  [⟨[.sched], 0xA04, 0x0, 0, 1, 0, 1⟩]⟩
def SRCH_SWEEPS : Reg := ⟨149, .both, false, [F.SRCH_SWEEPS_COUNT],
  [⟨[.sched], 0xA08, 0x0, 0, 1, 0, 1⟩]⟩
def SRCH_QUERIES : Reg := ⟨150, .both, false, [F.SRCH_QUERIES_COUNT],
  [⟨[.sched], 0xA0C, 0x0, 0, 1, 0, 1⟩]⟩
def SRCH_POOLS_READ : Reg := ⟨151, .both, false, [F.SRCH_POOLS_READ_COUNT],
  [⟨[.sched], 0xA10, 0x0, 0, 1, 0, 1⟩]⟩
def SRCH_POOLS_SKIPPED : Reg := ⟨152, .both, false, [F.SRCH_POOLS_SKIPPED_COUNT],
  [⟨[.sched], 0xA14, 0x0, 0, 1, 0, 1⟩]⟩
def BRAID_STALE : Reg := ⟨153, .both, false, [F.BRAID_STALE_COUNT],
  [⟨[.sched], 0xA18, 0x0, 0, 1, 0, 1⟩]⟩
def SRCH_WIDEN : Reg := ⟨154, .both, false, [F.SRCH_WIDEN_COUNT],
  [⟨[.sched], 0xA1C, 0x0, 0, 1, 0, 1⟩]⟩
def SRCH_SHORT : Reg := ⟨155, .both, false, [F.SRCH_SHORT_COUNT],
  [⟨[.sched], 0xA20, 0x0, 0, 1, 0, 1⟩]⟩
def SRCH_TOMB : Reg := ⟨156, .both, false, [F.SRCH_TOMB_USED],
  [⟨[.sched], 0xA24, 0x0, 0, 1, 0, 1⟩]⟩
def SRCH_REPAIR_Q : Reg := ⟨157, .both, false, [F.SRCH_REPAIR_Q_COUNT],
  [⟨[.sched], 0xA28, 0x0, 0, 1, 0, 1⟩]⟩
def SRCH_HEAP_USED : Reg := ⟨158, .both, false, [F.SRCH_HEAP_USED_ENTRIES],
  [⟨[.sched], 0xA2C, 0x0, 0, 1, 0, 1⟩]⟩
def SIEVE_CTRL : Reg := ⟨159, .host, false, [F.SIEVE_CTRL_UNITS, F.SIEVE_CTRL_LOOKAHEAD],
  [⟨[.sieve], 0x100, 0x0, 0, 1, 0, 1⟩]⟩
def SIEVE_GROUP_CFG_COMMIT : Reg := ⟨160, .host, false, [F.SIEVE_GROUP_CFG_COMMIT_GO],
  [⟨[.sieve], 0x108, 0x0, 0, 1, 0, 1⟩]⟩
def SIEVE_GROUP_CFG_EPOCH : Reg := ⟨161, .host, false, [F.SIEVE_GROUP_CFG_EPOCH_COMMITTED, F.SIEVE_GROUP_CFG_EPOCH_ADOPTED, F.SIEVE_GROUP_CFG_EPOCH_PENDING],
  [⟨[.sieve], 0x10C, 0x0, 0, 1, 0, 1⟩]⟩
def SIEVE_STATUS : Reg := ⟨162, .both, false, [F.SIEVE_STATUS_IDLE, F.SIEVE_STATUS_ACTIVE],
  [⟨[.sieve], 0x110, 0x0, 0, 1, 0, 1⟩]⟩
def SIEVE_BYTES_LO : Reg := ⟨163, .both, false, [F.SIEVE_BYTES_LO_BYTES],
  [⟨[.sieve], 0x114, 0x0, 0, 1, 0, 1⟩]⟩
def SIEVE_BYTES_HI : Reg := ⟨164, .both, false, [F.SIEVE_BYTES_HI_BYTES],
  [⟨[.sieve], 0x118, 0x0, 0, 1, 0, 1⟩]⟩
def SIEVE_POOLS : Reg := ⟨165, .both, false, [F.SIEVE_POOLS_COUNT],
  [⟨[.sieve], 0x11C, 0x0, 0, 1, 0, 1⟩]⟩
def SIEVE_FAULT : Reg := ⟨166, .host, false, [F.SIEVE_FAULT_CODE, F.SIEVE_FAULT_UNIT, F.SIEVE_FAULT_VALID],
  [⟨[.sieve], 0x120, 0x0, 0, 1, 0, 1⟩]⟩
def SIEVE_USTATE : Reg := ⟨167, .both, false, [F.SIEVE_USTATE_STATE, F.SIEVE_USTATE_BIST_FAIL],
  [⟨[.sieve], 0x200, 0x4, 0, 64, 0, 1⟩]⟩
def MEDIA_STATUS : Reg := ⟨168, .both, false, [F.MEDIA_STATUS_IDLE, F.MEDIA_STATUS_VBUSY, F.MEDIA_STATUS_IBUSY, F.MEDIA_STATUS_RBUSY],
  [⟨[.media], 0x100, 0x0, 0, 1, 0, 1⟩]⟩
def MEDIA_FRAMES : Reg := ⟨169, .both, false, [F.MEDIA_FRAMES_COUNT],
  [⟨[.media], 0x104, 0x0, 0, 1, 0, 1⟩]⟩
def MEDIA_ERRORS : Reg := ⟨170, .both, false, [F.MEDIA_ERRORS_UNSUP, F.MEDIA_ERRORS_BITERR],
  [⟨[.media], 0x108, 0x0, 0, 1, 0, 1⟩]⟩
def MEDIA_LAST_ERR : Reg := ⟨171, .host, false, [F.MEDIA_LAST_ERR_CODE, F.MEDIA_LAST_ERR_UNIT, F.MEDIA_LAST_ERR_VALID],
  [⟨[.media], 0x10C, 0x0, 0, 1, 0, 1⟩]⟩
def MEDIA_GROUP_RESIZE_COMMIT : Reg := ⟨172, .host, false, [F.MEDIA_GROUP_RESIZE_COMMIT_GO],
  [⟨[.media], 0x110, 0x0, 0, 1, 0, 1⟩]⟩
def MEDIA_GROUP_RESIZE_EPOCH : Reg := ⟨173, .host, false, [F.MEDIA_GROUP_RESIZE_EPOCH_COMMITTED, F.MEDIA_GROUP_RESIZE_EPOCH_ADOPTED, F.MEDIA_GROUP_RESIZE_EPOCH_PENDING],
  [⟨[.media], 0x114, 0x0, 0, 1, 0, 1⟩]⟩
def MEDIA_USTATE : Reg := ⟨174, .both, false, [F.MEDIA_USTATE_STATE, F.MEDIA_USTATE_BIST_FAIL],
  [⟨[.media], 0x140, 0x4, 0, 13, 0, 1⟩]⟩
def MR_CROP_POS : Reg := ⟨175, .host, false, [F.MR_CROP_POS_X, F.MR_CROP_POS_Y],
  [⟨[.media], 0x200, 0x10, 0, 4, 0, 1⟩]⟩
def MR_CROP_SIZE : Reg := ⟨176, .host, false, [F.MR_CROP_SIZE_W, F.MR_CROP_SIZE_H],
  [⟨[.media], 0x204, 0x10, 0, 4, 0, 1⟩]⟩
def MR_OUT : Reg := ⟨177, .host, false, [F.MR_OUT_OUT_W, F.MR_OUT_OUT_H],
  [⟨[.media], 0x208, 0x10, 0, 4, 0, 1⟩]⟩
def MR_MODE : Reg := ⟨178, .host, false, [F.MR_MODE_FILTER, F.MR_MODE_OFMT, F.MR_MODE_MATRIX],
  [⟨[.media], 0x20C, 0x10, 0, 4, 0, 1⟩]⟩
def CMP_UNITS : Reg := ⟨179, .both, false, [F.CMP_UNITS_COUNT],
  [⟨[.flash], 0xE00, 0x0, 0, 1, 0, 1⟩]⟩
def CMP_RAW : Reg := ⟨180, .both, false, [F.CMP_RAW_COUNT],
  [⟨[.flash], 0xE04, 0x0, 0, 1, 0, 1⟩]⟩
def CMP_INVALID : Reg := ⟨181, .both, false, [F.CMP_INVALID_COUNT],
  [⟨[.flash], 0xE08, 0x0, 0, 1, 0, 1⟩]⟩
def KV4_NAN : Reg := ⟨182, .both, false, [F.KV4_NAN_COUNT],
  [⟨[.flash], 0xE0C, 0x0, 0, 1, 0, 1⟩]⟩
def FCH_CTRL : Reg := ⟨183, .host, false, [F.FCH_CTRL_DIAG_EN, F.FCH_CTRL_LINE_TEST],
  [⟨[.flash], 0x300, 0x0, 0, 1, 0, 1⟩]⟩
def FCH_SUSP_CFG : Reg := ⟨184, .host, false, [F.FCH_SUSP_CFG_ERASE_HOLD, F.FCH_SUSP_CFG_PROG_HOLD, F.FCH_SUSP_CFG_ERASE_MAX, F.FCH_SUSP_CFG_PROG_MAX, F.FCH_SUSP_CFG_MIN_RUN],
  [⟨[.flash], 0x304, 0x0, 0, 1, 0, 1⟩]⟩
def FCH_STATUS : Reg := ⟨185, .both, false, [F.FCH_STATUS_IDLE, F.FCH_STATUS_ONLINE],
  [⟨[.flash], 0x308, 0x0, 0, 1, 0, 1⟩]⟩
def FCH_FAULT : Reg := ⟨186, .host, false, [F.FCH_FAULT_CAUSE, F.FCH_FAULT_CHANNEL, F.FCH_FAULT_DIE, F.FCH_FAULT_VALID],
  [⟨[.flash], 0x30C, 0x0, 0, 1, 0, 1⟩]⟩
def FCH_SUSPENDS : Reg := ⟨187, .both, false, [F.FCH_SUSPENDS_COUNT],
  [⟨[.flash], 0x310, 0x0, 0, 1, 0, 1⟩]⟩
def FCH_PROG_FAIL : Reg := ⟨188, .both, false, [F.FCH_PROG_FAIL_COUNT],
  [⟨[.flash], 0x314, 0x0, 0, 1, 0, 1⟩]⟩
def FCH_ERASE_FAIL : Reg := ⟨189, .both, false, [F.FCH_ERASE_FAIL_COUNT],
  [⟨[.flash], 0x318, 0x0, 0, 1, 0, 1⟩]⟩
def FCH_HALF_ERASED : Reg := ⟨190, .both, false, [F.FCH_HALF_ERASED_COUNT],
  [⟨[.flash], 0x31C, 0x0, 0, 1, 0, 1⟩]⟩
def FCH_RETRIES : Reg := ⟨191, .both, false, [F.FCH_RETRIES_COUNT],
  [⟨[.flash], 0x320, 0x0, 0, 1, 0, 1⟩]⟩
def FCH_LINE_TESTS : Reg := ⟨192, .both, false, [F.FCH_LINE_TESTS_COUNT],
  [⟨[.flash], 0x324, 0x0, 0, 1, 0, 1⟩]⟩
def FCH_CSTATE : Reg := ⟨193, .both, false, [F.FCH_CSTATE_STATE, F.FCH_CSTATE_WFENCE, F.FCH_CSTATE_CAUSE, F.FCH_CSTATE_DIES_OUT, F.FCH_CSTATE_BIST_FAIL],
  [⟨[.flash], 0x400, 0x4, 0, 32, 0, 1⟩]⟩
def FTL_STATUS : Reg := ⟨194, .both, false, [F.FTL_STATUS_IDLE, F.FTL_STATUS_RO_STATE, F.FTL_STATUS_PATROL_LATE],
  [⟨[.flash], 0x600, 0x0, 0, 1, 0, 1⟩]⟩
def FTL_HEALTH : Reg := ⟨195, .both, false, [F.FTL_HEALTH_SPARE_PCT, F.FTL_HEALTH_WEAR_MEAN_PCT, F.FTL_HEALTH_WEAR_MAX_PCT],
  [⟨[.flash], 0x604, 0x0, 0, 1, 0, 1⟩]⟩
def FTL_FREE : Reg := ⟨196, .both, false, [F.FTL_FREE_SETS],
  [⟨[.flash], 0x608, 0x0, 0, 1, 0, 1⟩]⟩
def FTL_BUF : Reg := ⟨197, .both, false, [F.FTL_BUF_SLOTS],
  [⟨[.flash], 0x60C, 0x0, 0, 1, 0, 1⟩]⟩
def FTL_CORR : Reg := ⟨198, .both, false, [F.FTL_CORR_COUNT],
  [⟨[.flash], 0x610, 0x0, 0, 1, 0, 1⟩]⟩
def FTL_UNCORR : Reg := ⟨199, .both, false, [F.FTL_UNCORR_COUNT],
  [⟨[.flash], 0x614, 0x0, 0, 1, 0, 1⟩]⟩
def FTL_REBUILT : Reg := ⟨200, .both, false, [F.FTL_REBUILT_COUNT],
  [⟨[.flash], 0x618, 0x0, 0, 1, 0, 1⟩]⟩
def FTL_LOST : Reg := ⟨201, .both, false, [F.FTL_LOST_COUNT],
  [⟨[.flash], 0x61C, 0x0, 0, 1, 0, 1⟩]⟩
def FTL_GC : Reg := ⟨202, .both, false, [F.FTL_GC_COUNT],
  [⟨[.flash], 0x620, 0x0, 0, 1, 0, 1⟩]⟩
def FTL_REFRESH : Reg := ⟨203, .both, false, [F.FTL_REFRESH_COUNT],
  [⟨[.flash], 0x624, 0x0, 0, 1, 0, 1⟩]⟩
def FTL_RETIRED : Reg := ⟨204, .both, false, [F.FTL_RETIRED_COUNT],
  [⟨[.flash], 0x628, 0x0, 0, 1, 0, 1⟩]⟩
def FTL_RMW : Reg := ⟨205, .both, false, [F.FTL_RMW_COUNT],
  [⟨[.flash], 0x62C, 0x0, 0, 1, 0, 1⟩]⟩
def FTL_PATROLS : Reg := ⟨206, .both, false, [F.FTL_PATROLS_COUNT],
  [⟨[.flash], 0x630, 0x0, 0, 1, 0, 1⟩]⟩
def FTL_TABLE_PAGES : Reg := ⟨207, .both, false, [F.FTL_TABLE_PAGES_COUNT],
  [⟨[.flash], 0x634, 0x0, 0, 1, 0, 1⟩]⟩
def FTL_PATROL_CFG : Reg := ⟨208, .host, false, [F.FTL_PATROL_CFG_PERIOD, F.FTL_PATROL_CFG_PCT, F.FTL_PATROL_CFG_REFRESH_BITS],
  [⟨[.flash], 0x700, 0x0, 0, 1, 0, 1⟩]⟩
def FTL_RD_CFG : Reg := ⟨209, .host, false, [F.FTL_RD_CFG_RD_LIMIT],
  [⟨[.flash], 0x704, 0x0, 0, 1, 0, 1⟩]⟩
def FTL_GROUP_PATROL_COMMIT : Reg := ⟨210, .host, false, [F.FTL_GROUP_PATROL_COMMIT_GO],
  [⟨[.flash], 0x708, 0x0, 0, 1, 0, 1⟩]⟩
def FTL_GROUP_PATROL_EPOCH : Reg := ⟨211, .both, false, [F.FTL_GROUP_PATROL_EPOCH_COMMITTED, F.FTL_GROUP_PATROL_EPOCH_ADOPTED, F.FTL_GROUP_PATROL_EPOCH_PENDING],
  [⟨[.flash], 0x70C, 0x0, 0, 1, 0, 1⟩]⟩
def PROT_CE_CFG : Reg := ⟨212, .host, false, [F.PROT_CE_CFG_THRESH, F.PROT_CE_CFG_LEAK],
  [⟨[.reach, .stack, .flash, .sieve, .media, .intake, .sched, .security, .weir], 0xF000, 0x0, 0, 1, 0, 1⟩]⟩
def PROT_STATUS : Reg := ⟨213, .host, false, [F.PROT_STATUS_OVF, F.PROT_STATUS_UE],
  [⟨[.reach, .stack, .flash, .sieve, .media, .intake, .sched, .security, .weir], 0xF004, 0x0, 0, 1, 0, 1⟩]⟩
def PROT_BUCKET : Reg := ⟨214, .both, false, [F.PROT_BUCKET_LEVEL],
  [⟨[.reach, .stack, .flash, .sieve, .media, .intake, .sched, .security, .weir], 0xF010, 0x4, 0, 8, 0, 1⟩]⟩
def PROT_CE_COUNT : Reg := ⟨215, .both, false, [F.PROT_CE_COUNT_COUNT],
  [⟨[.reach, .stack, .flash, .sieve, .media, .intake, .sched, .security, .weir], 0xF030, 0x4, 0, 8, 0, 1⟩]⟩
def PROT_UE_COUNT : Reg := ⟨216, .both, false, [F.PROT_UE_COUNT_COUNT],
  [⟨[.reach, .stack, .flash, .sieve, .media, .intake, .sched, .security, .weir], 0xF050, 0x4, 0, 8, 0, 1⟩]⟩
def PROT_LAST : Reg := ⟨217, .host, false, [F.PROT_LAST_ARRAY, F.PROT_LAST_UE, F.PROT_LAST_VALID, F.PROT_LAST_UNIT],
  [⟨[.reach, .stack, .flash, .sieve, .media, .intake, .sched, .security, .weir], 0xF070, 0x0, 0, 1, 0, 1⟩]⟩
def PROT_LAST_ADDR_LO : Reg := ⟨218, .both, false, [F.PROT_LAST_ADDR_LO_ADDR],
  [⟨[.reach, .stack, .flash, .sieve, .media, .intake, .sched, .security, .weir], 0xF074, 0x0, 0, 1, 0, 1⟩]⟩
def PROT_LAST_ADDR_HI : Reg := ⟨219, .both, false, [F.PROT_LAST_ADDR_HI_ADDR],
  [⟨[.reach, .stack, .flash, .sieve, .media, .intake, .sched, .security, .weir], 0xF078, 0x0, 0, 1, 0, 1⟩]⟩
def PROT_FLIP_CTRL : Reg := ⟨220, .host, false, [F.PROT_FLIP_CTRL_ARRAY, F.PROT_FLIP_CTRL_TARGET, F.PROT_FLIP_CTRL_WORD, F.PROT_FLIP_CTRL_ARM],
  [⟨[.reach, .stack, .flash, .sieve, .media, .intake, .sched, .security, .weir], 0xF080, 0x0, 0, 1, 0, 1⟩]⟩
def PROT_FLIP_DATA_LO : Reg := ⟨221, .host, false, [F.PROT_FLIP_DATA_LO_MASK],
  [⟨[.reach, .stack, .flash, .sieve, .media, .intake, .sched, .security, .weir], 0xF084, 0x0, 0, 1, 0, 1⟩]⟩
def PROT_FLIP_DATA_HI : Reg := ⟨222, .host, false, [F.PROT_FLIP_DATA_HI_MASK],
  [⟨[.reach, .stack, .flash, .sieve, .media, .intake, .sched, .security, .weir], 0xF088, 0x0, 0, 1, 0, 1⟩]⟩
def PROT_FLIP_CHECK : Reg := ⟨223, .host, false, [F.PROT_FLIP_CHECK_MASK],
  [⟨[.reach, .stack, .flash, .sieve, .media, .intake, .sched, .security, .weir], 0xF08C, 0x0, 0, 1, 0, 1⟩]⟩
def PROT_TCTRL : Reg := ⟨224, .host, false, [F.PROT_TCTRL_OP, F.PROT_TCTRL_ARRAY, F.PROT_TCTRL_UNIT],
  [⟨[.reach, .stack, .flash, .sieve, .media, .intake, .sched, .security, .weir], 0xF090, 0x0, 0, 1, 0, 1⟩]⟩
def PROT_TADDR_LO : Reg := ⟨225, .host, false, [F.PROT_TADDR_LO_ADDR],
  [⟨[.reach, .stack, .flash, .sieve, .media, .intake, .sched, .security, .weir], 0xF094, 0x0, 0, 1, 0, 1⟩]⟩
def PROT_TADDR_HI : Reg := ⟨226, .host, false, [F.PROT_TADDR_HI_ADDR],
  [⟨[.reach, .stack, .flash, .sieve, .media, .intake, .sched, .security, .weir], 0xF098, 0x0, 0, 1, 0, 1⟩]⟩
def PROT_TDATA : Reg := ⟨227, .host, false, [F.PROT_TDATA_DATA],
  [⟨[.reach, .stack, .flash, .sieve, .media, .intake, .sched, .security, .weir], 0xF0A0, 0x4, 0, 16, 0, 1⟩]⟩
def PROT_TSTATUS : Reg := ⟨228, .both, false, [F.PROT_TSTATUS_RESULT, F.PROT_TSTATUS_DONE, F.PROT_TSTATUS_POS],
  [⟨[.reach, .stack, .flash, .sieve, .media, .intake, .sched, .security, .weir], 0xF0E0, 0x0, 0, 1, 0, 1⟩]⟩
def PROT_SUM_LO : Reg := ⟨229, .both, false, [F.PROT_SUM_LO_ISLANDS],
  [⟨[.weir], 0xF100, 0x0, 0, 1, 0, 1⟩]⟩
def PROT_SUM_HI : Reg := ⟨230, .both, false, [F.PROT_SUM_HI_ISLANDS],
  [⟨[.weir], 0xF104, 0x0, 0, 1, 0, 1⟩]⟩
def PROT_IRQ : Reg := ⟨231, .host, false, [F.PROT_IRQ_VECTOR, F.PROT_IRQ_EN],
  [⟨[.weir], 0xF108, 0x0, 0, 1, 0, 1⟩]⟩
def WEIR_CAP : Reg := ⟨232, .both, false, [F.WEIR_CAP_CAP_W],
  [⟨[.weir], 0x100, 0x0, 0, 1, 0, 1⟩]⟩
def WEIR_GROUP_CAP_COMMIT : Reg := ⟨233, .both, false, [F.WEIR_GROUP_CAP_COMMIT_GO],
  [⟨[.weir], 0x104, 0x0, 0, 1, 0, 1⟩]⟩
def WEIR_GROUP_CAP_EPOCH : Reg := ⟨234, .both, false, [F.WEIR_GROUP_CAP_EPOCH_COMMITTED, F.WEIR_GROUP_CAP_EPOCH_ADOPTED, F.WEIR_GROUP_CAP_EPOCH_PENDING],
  [⟨[.weir], 0x108, 0x0, 0, 1, 0, 1⟩]⟩
def WEIR_LIMITS : Reg := ⟨235, .both, false, [F.WEIR_LIMITS_INPUT_LIMIT_DA, F.WEIR_LIMITS_HOST_DIE_QUANTA],
  [⟨[.weir], 0x10C, 0x0, 0, 1, 0, 1⟩]⟩
def WEIR_STATUS : Reg := ⟨236, .both, false, [F.WEIR_STATUS_MSTATE, F.WEIR_STATUS_STEP, F.WEIR_STATUS_HALT_CAUSE, F.WEIR_STATUS_FEED_FAULT, F.WEIR_STATUS_CAP_BOUND, F.WEIR_STATUS_INPUT_BOUND, F.WEIR_STATUS_THERM_BOUND],
  [⟨[.weir], 0x110, 0x0, 0, 1, 0, 1⟩]⟩
def WEIR_BUDGET : Reg := ⟨237, .both, false, [F.WEIR_BUDGET_QUANTA],
  [⟨[.weir], 0x114, 0x0, 0, 1, 0, 1⟩]⟩
def WEIR_INPUT : Reg := ⟨238, .both, false, [F.WEIR_INPUT_VOLT, F.WEIR_INPUT_CURRENT],
  [⟨[.weir], 0x118, 0x0, 0, 1, 0, 1⟩]⟩
def WEIR_THERM : Reg := ⟨239, .both, false, [F.WEIR_THERM_THERM_W],
  [⟨[.weir], 0x11C, 0x0, 0, 1, 0, 1⟩]⟩
def WEIR_HOLDUP : Reg := ⟨240, .both, false, [F.WEIR_HOLDUP_ENERGY_J, F.WEIR_HOLDUP_DEGRADED, F.WEIR_HOLDUP_CHARGED],
  [⟨[.weir], 0x120, 0x0, 0, 1, 0, 1⟩]⟩
def WEIR_ORDER : Reg := ⟨241, .both, false, [F.WEIR_ORDER_ORDER],
  [⟨[.weir], 0x124, 0x0, 0, 1, 0, 1⟩]⟩
def WEIR_STEP_TIME : Reg := ⟨242, .both, false, [F.WEIR_STEP_TIME_CYCLES],
  [⟨[.weir], 0x130, 0x4, 0, 8, 0, 1⟩]⟩
def WEIR_GRANT : Reg := ⟨243, .both, false, [F.WEIR_GRANT_GRANT, F.WEIR_GRANT_REQUEST, F.WEIR_GRANT_LEVEL, F.WEIR_GRANT_THROTTLED, F.WEIR_GRANT_AT_FLOOR],
  [⟨[.weir], 0x200, 0x4, 0, 60, 0, 1⟩]⟩
def REACH_STATE : Reg := ⟨244, .both, false, [F.REACH_STATE_STATE, F.REACH_STATE_BIST_DONE, F.REACH_STATE_BIST_FAIL, F.REACH_STATE_CAUSE],
  [⟨[.reach], 0xA00, 0x0, 0, 1, 0, 1⟩]⟩
def ID_STATUS : Reg := ⟨245, .both, false, [F.ID_STATUS_STATE, F.ID_STATUS_ENROLLED, F.ID_STATUS_SOURCE, F.ID_STATUS_COPIES_BAD, F.ID_STATUS_REPAIR_PEND],
  [⟨[.security], 0x200, 0x0, 0, 1, 0, 1⟩]⟩
def ID_ANCHORS : Reg := ⟨246, .both, false, [F.ID_ANCHORS_PROGRAMMED, F.ID_ANCHORS_REVOKED, F.ID_ANCHORS_USED],
  [⟨[.security], 0x204, 0x0, 0, 1, 0, 1⟩]⟩
def ID_QUOTES : Reg := ⟨247, .both, false, [F.ID_QUOTES_COUNT],
  [⟨[.security], 0x208, 0x0, 0, 1, 0, 1⟩]⟩
def ID_SIGNER_DIGEST : Reg := ⟨248, .both, false, [F.ID_SIGNER_DIGEST_DIGEST],
  [⟨[.security], 0x240, 0x4, 0, 16, 0, 1⟩]⟩
def ID_PUB_DIGEST : Reg := ⟨249, .both, false, [F.ID_PUB_DIGEST_DIGEST],
  [⟨[.security], 0x280, 0x4, 0, 16, 0, 1⟩]⟩
def ID_MQ_NONCE : Reg := ⟨250, .mgmt, false, [F.ID_MQ_NONCE_NONCE],
  [⟨[.security], 0x300, 0x4, 0, 8, 0, 1⟩]⟩
def ID_MQ_CTRL : Reg := ⟨251, .mgmt, false, [F.ID_MQ_CTRL_GO],
  [⟨[.security], 0x320, 0x0, 0, 1, 0, 1⟩]⟩
def ID_MQ_STATUS : Reg := ⟨252, .both, false, [F.ID_MQ_STATUS_RESULT, F.ID_MQ_STATUS_READY, F.ID_MQ_STATUS_IDLE],
  [⟨[.security], 0x324, 0x0, 0, 1, 0, 1⟩]⟩
def ID_PUB : Reg := ⟨253, .both, false, [F.ID_PUB_DATA],
  [⟨[.security], 0x1000, 0x4, 0, 488, 0, 1⟩]⟩
def ID_MQ_DATA : Reg := ⟨254, .both, false, [F.ID_MQ_DATA_DATA],
  [⟨[.security], 0x2000, 0x4, 0, 1412, 0, 1⟩]⟩
def CNT_CYCLE_LO : Reg := ⟨255, .both, false, [F.CNT_CYCLE_LO_CYCLE],
  [⟨[.reach, .stack, .flash, .sieve, .media, .intake, .sched, .security, .weir], 0xE000, 0x0, 0, 1, 0, 1⟩]⟩
def CNT_CYCLE_HI : Reg := ⟨256, .both, false, [F.CNT_CYCLE_HI_CYCLE],
  [⟨[.reach, .stack, .flash, .sieve, .media, .intake, .sched, .security, .weir], 0xE004, 0x0, 0, 1, 0, 1⟩]⟩
def CNT_FREQ : Reg := ⟨257, .both, false, [F.CNT_FREQ_KHZ],
  [⟨[.reach, .stack, .flash, .sieve, .media, .intake, .sched, .security, .weir], 0xE008, 0x0, 0, 1, 0, 1⟩]⟩
def CNT_CTRL : Reg := ⟨258, .host, false, [F.CNT_CTRL_EN, F.CNT_CTRL_CLEAR],
  [⟨[.reach, .stack, .flash, .sieve, .media, .intake, .sched, .security, .weir], 0xE00C, 0x0, 0, 1, 0, 1⟩]⟩
def CNT_BW_CFG : Reg := ⟨259, .host, false, [F.CNT_BW_CFG_WIN],
  [⟨[.reach, .stack, .flash, .sieve, .media, .intake, .sched, .security, .weir], 0xE010, 0x0, 0, 1, 0, 1⟩]⟩
def CNT_BW_STATUS : Reg := ⟨260, .both, false, [F.CNT_BW_STATUS_SEQ, F.CNT_BW_STATUS_LEVEL_CHG],
  [⟨[.reach, .stack, .flash, .sieve, .media, .intake, .sched, .security, .weir], 0xE014, 0x0, 0, 1, 0, 1⟩]⟩
def CNT_SMP_CFG : Reg := ⟨261, .host, false, [F.CNT_SMP_CFG_WATERMARK, F.CNT_SMP_CFG_IRQ_EN, F.CNT_SMP_CFG_VECTOR],
  [⟨[.reach, .stack, .flash, .sieve, .media, .intake, .sched, .security, .weir], 0xE018, 0x0, 0, 1, 0, 1⟩]⟩
def CNT_SMP_HEAD : Reg := ⟨262, .both, false, [F.CNT_SMP_HEAD_HEAD],
  [⟨[.reach, .stack, .flash, .sieve, .media, .intake, .sched, .security, .weir], 0xE01C, 0x0, 0, 1, 0, 1⟩]⟩
def CNT_SMP_TAIL : Reg := ⟨263, .host, false, [F.CNT_SMP_TAIL_TAIL],
  [⟨[.reach, .stack, .flash, .sieve, .media, .intake, .sched, .security, .weir], 0xE020, 0x0, 0, 1, 0, 1⟩]⟩
def CNT_SMP_LOST : Reg := ⟨264, .both, false, [F.CNT_SMP_LOST_COUNT],
  [⟨[.reach, .stack, .flash, .sieve, .media, .intake, .sched, .security, .weir], 0xE024, 0x0, 0, 1, 0, 1⟩]⟩
def CNT_SEL : Reg := ⟨265, .host, false, [F.CNT_SEL_EVENT, F.CNT_SEL_SLOT, F.CNT_SEL_UNIT_EN, F.CNT_SEL_UNIT, F.CNT_SEL_SAMPLE, F.CNT_SEL_SHIFT],
  [⟨[.reach, .stack, .flash, .sieve, .media, .intake, .sched, .security, .weir], 0xE040, 0x4, 0, 8, 0, 1⟩]⟩
def CNT_LO : Reg := ⟨266, .both, false, [F.CNT_LO_VALUE],
  [⟨[.reach, .stack, .flash, .sieve, .media, .intake, .sched, .security, .weir], 0xE060, 0x8, 0, 8, 0, 1⟩]⟩
def CNT_HI : Reg := ⟨267, .both, false, [F.CNT_HI_VALUE, F.CNT_HI_SAT],
  [⟨[.reach, .stack, .flash, .sieve, .media, .intake, .sched, .security, .weir], 0xE064, 0x8, 0, 8, 0, 1⟩]⟩
def CNT_BW_LO : Reg := ⟨268, .both, false, [F.CNT_BW_LO_BYTES],
  [⟨[.reach, .stack, .flash, .sieve, .media, .intake, .sched, .security, .weir], 0xE0A0, 0x8, 0, 8, 0, 1⟩]⟩
def CNT_BW_HI : Reg := ⟨269, .both, false, [F.CNT_BW_HI_BYTES],
  [⟨[.reach, .stack, .flash, .sieve, .media, .intake, .sched, .security, .weir], 0xE0A4, 0x8, 0, 8, 0, 1⟩]⟩
def CNT_SMP_DATA : Reg := ⟨270, .both, true, [F.CNT_SMP_DATA_DATA],
  [⟨[.reach, .stack, .flash, .sieve, .media, .intake, .sched, .security, .weir], 0xE800, 0x4, 0, 512, 0, 1⟩]⟩
def TEL_TEMP : Reg := ⟨271, .both, false, [F.TEL_TEMP_TEMP, F.TEL_TEMP_VALID, F.TEL_TEMP_THROT, F.TEL_TEMP_CRIT, F.TEL_TEMP_PEAK],
  [⟨[.weir], 0x400, 0x4, 0, 333, 0, 1⟩]⟩
def TEL_POWER : Reg := ⟨272, .both, false, [F.TEL_POWER_DRAW],
  [⟨[.weir], 0xA00, 0x4, 0, 60, 0, 1⟩]⟩
def TEL_MODULE : Reg := ⟨273, .both, false, [F.TEL_MODULE_INPUT_W, F.TEL_MODULE_HOST_DW],
  [⟨[.weir], 0xB00, 0x0, 0, 1, 0, 1⟩]⟩
def TEL_ENERGY_LO : Reg := ⟨274, .both, false, [F.TEL_ENERGY_LO_MJ],
  [⟨[.weir], 0xB04, 0x0, 0, 1, 0, 1⟩]⟩
def TEL_ENERGY_HI : Reg := ⟨275, .both, false, [F.TEL_ENERGY_HI_MJ],
  [⟨[.weir], 0xB08, 0x0, 0, 1, 0, 1⟩]⟩
def ISL_ID : Reg := ⟨276, .both, false, [F.ISL_ID_ISLAND, F.ISL_ID_KIND, F.ISL_ID_PRESENT, F.ISL_ID_ENABLED],
  [⟨[.reach, .stack, .flash, .sieve, .media, .intake, .sched, .security, .weir], 0x0, 0x0, 0, 1, 0, 1⟩]⟩
def ISL_UNITS : Reg := ⟨277, .both, false, [F.ISL_UNITS_COUNT, F.ISL_UNITS_DEFINED],
  [⟨[.reach, .stack, .flash, .sieve, .media, .intake, .sched, .security, .weir], 0x4, 0x0, 0, 1, 0, 1⟩]⟩

end R

/-- Every register, in index order. -/
def allRegs : List Reg :=
  [R.ISL_UNIT_MASK_LO, R.ISL_UNIT_MASK_HI, R.CAP_PRESENT_LO, R.CAP_PRESENT_HI, R.CAP_ENABLED_LO, R.CAP_ENABLED_HI, R.CAP_FEATURE, R.IMG_STATUS, R.IMG_REJECT, R.IMG_VERSION] ++
  [R.IMG_COUNTER, R.IMG_DIGEST, R.DQP_CTRL, R.DQP_STATUS, R.DQP_AQ_SIZE, R.DQP_SQ_BASE_LO, R.DQP_SQ_BASE_HI, R.DQP_CQ_BASE_LO, R.DQP_CQ_BASE_HI, R.DQP_CAP] ++
  [R.DQP_DEFER_PEND, R.DQP_DB_ERR, R.DQP_LINK_ERR, R.DQP_ARB_LOG, R.DQP_SB_IMG_CTRL, R.DQP_SB_IMG_LEN, R.DQP_SB_IMG_DATA, R.DQP_SB_IMG_STAT, R.DQP_SB_IMG_RESULT, R.RISAL_ENTRY_LO] ++
  [R.RISAL_ENTRY_HI, R.RISAL_SLOT_LO, R.RISAL_SLOT_HI, R.RISAL_DEST_LO, R.RISAL_DEST_HI, R.RISAL_DCFG, R.RISAL_CTYPE, R.RISAL_EMBEDS, R.HG_STACK_LIM, R.HG_SCRATCH_LIM] ++
  [R.HG_FLASH_LIM, R.HG_SAVE_LIM, R.HG_STACK_USED, R.HG_SCRATCH_USED, R.HG_FLASH_USED, R.HG_SAVE_USED, R.HG_GROUP_QUOTA_COMMIT, R.HG_GROUP_QUOTA_EPOCH, R.HG_DENY, R.STK_STATE] ++
  [R.STK_EXT_TOTAL, R.STK_EXT_FREE, R.STK_EXT_FOREIGN, R.STK_DRAIN_LEFT, R.STK_MOVE_RATE, R.STK_SPARE_USED, R.STK_REMAP_SEL, R.STK_REMAP_DATA, R.TM_CTRL, R.TM_STATUS] ++
  [R.TM_FREE_D, R.TM_WIN_FAULT, R.TM_SPILL, R.TM_DEADLINE_MISS, R.TM_QUAR, R.TM_EVICT, R.TILE_ONLINE_LO, R.TILE_ONLINE_HI, R.TILE_SLIP_LO, R.TILE_SLIP_HI] ++
  [R.TILE_FMT, R.TILE_SENT, R.TILE_GROUP_FMT_COMMIT, R.TILE_GROUP_FMT_EPOCH, R.TILE_STATUS, R.TILE_QSTATE, R.TILE_FAULT, R.TILE_REPAIR, R.TILE_ACC_OWN, R.TILE_PASSES] ++
  [R.TILE_BUBBLES, R.TILE_FREEZES, R.TILE_ESCALATIONS, R.TILE_INJECT, R.TILE_SCALE, R.ROT_PCFG, R.ROT_PSEED, R.ROT_PPARAM_LO, R.ROT_PPARAM_HI, R.ROT_PSIGN_0] ++
  [R.ROT_PSIGN_1, R.ROT_PSIGN_2, R.ROT_PSIGN_3, R.ROT_PDIM, R.ROT_PSIDE_LO, R.ROT_PSIDE_HI, R.ROT_GROUP_CFG_COMMIT, R.ROT_GROUP_CFG_EPOCH, R.ROT_STATUS, R.ROT_SAT] ++
  [R.ROT_NAN, R.QNT_TRIPS, R.QNT_UNESC, R.QNT_FLAG_S0_LO, R.QNT_FLAG_S0_HI, R.QNT_FLAG_S1_LO, R.QNT_FLAG_S1_HI, R.RUN_STATUS, R.RUN_RILLS, R.RUN_FAULT] ++
  [R.RUN_FAULT_PC_LO, R.RUN_FAULT_PC_HI, R.RUN_FAULTS, R.RUN_RESIDUE, R.RUN_INJECT, R.FLUME_STATUS, R.FLUME_PC, R.FLUME_FAULT, R.FLUME_FAULT_ADDR_LO, R.FLUME_FAULT_ADDR_HI] ++
  [R.FLUME_STALL_SLUICE, R.FLUME_STALL_DEST, R.FLUME_PROGRAMS, R.FLUME_CFG, R.SLUICE_CFG, R.SLUICE_BURST, R.SLUICE_GROUP_RATE_COMMIT, R.SLUICE_GROUP_RATE_EPOCH, R.SLUICE_LEVEL, R.SLUICE_STALLS] ++
  [R.SCHED_CFG, R.SCHED_COLD, R.SCHED_BATCH, R.SCHED_STATUS, R.SCHED_STARVE, R.SCHED_EVICT, R.SCHED_TURN_LATE, R.SCHED_AUTO_IMAGE, R.SCHED_TURN_CNT, R.SCHED_GROUP_TURNOUT_COMMIT] ++
  [R.SCHED_GROUP_TURNOUT_EPOCH, R.SCHED_JITTER_MAX, R.SCHED_TURN_BASE_LO, R.SCHED_TURN_BASE_HI, R.SCHED_TURN_DUR, R.SCHED_TURN_MASK, R.SCHED_TURN_GROUP, R.SRCH_CFG, R.SRCH_STATUS, R.SRCH_SWEEPS] ++
  [R.SRCH_QUERIES, R.SRCH_POOLS_READ, R.SRCH_POOLS_SKIPPED, R.BRAID_STALE, R.SRCH_WIDEN, R.SRCH_SHORT, R.SRCH_TOMB, R.SRCH_REPAIR_Q, R.SRCH_HEAP_USED, R.SIEVE_CTRL] ++
  [R.SIEVE_GROUP_CFG_COMMIT, R.SIEVE_GROUP_CFG_EPOCH, R.SIEVE_STATUS, R.SIEVE_BYTES_LO, R.SIEVE_BYTES_HI, R.SIEVE_POOLS, R.SIEVE_FAULT, R.SIEVE_USTATE, R.MEDIA_STATUS, R.MEDIA_FRAMES] ++
  [R.MEDIA_ERRORS, R.MEDIA_LAST_ERR, R.MEDIA_GROUP_RESIZE_COMMIT, R.MEDIA_GROUP_RESIZE_EPOCH, R.MEDIA_USTATE, R.MR_CROP_POS, R.MR_CROP_SIZE, R.MR_OUT, R.MR_MODE, R.CMP_UNITS] ++
  [R.CMP_RAW, R.CMP_INVALID, R.KV4_NAN, R.FCH_CTRL, R.FCH_SUSP_CFG, R.FCH_STATUS, R.FCH_FAULT, R.FCH_SUSPENDS, R.FCH_PROG_FAIL, R.FCH_ERASE_FAIL] ++
  [R.FCH_HALF_ERASED, R.FCH_RETRIES, R.FCH_LINE_TESTS, R.FCH_CSTATE, R.FTL_STATUS, R.FTL_HEALTH, R.FTL_FREE, R.FTL_BUF, R.FTL_CORR, R.FTL_UNCORR] ++
  [R.FTL_REBUILT, R.FTL_LOST, R.FTL_GC, R.FTL_REFRESH, R.FTL_RETIRED, R.FTL_RMW, R.FTL_PATROLS, R.FTL_TABLE_PAGES, R.FTL_PATROL_CFG, R.FTL_RD_CFG] ++
  [R.FTL_GROUP_PATROL_COMMIT, R.FTL_GROUP_PATROL_EPOCH, R.PROT_CE_CFG, R.PROT_STATUS, R.PROT_BUCKET, R.PROT_CE_COUNT, R.PROT_UE_COUNT, R.PROT_LAST, R.PROT_LAST_ADDR_LO, R.PROT_LAST_ADDR_HI] ++
  [R.PROT_FLIP_CTRL, R.PROT_FLIP_DATA_LO, R.PROT_FLIP_DATA_HI, R.PROT_FLIP_CHECK, R.PROT_TCTRL, R.PROT_TADDR_LO, R.PROT_TADDR_HI, R.PROT_TDATA, R.PROT_TSTATUS, R.PROT_SUM_LO] ++
  [R.PROT_SUM_HI, R.PROT_IRQ, R.WEIR_CAP, R.WEIR_GROUP_CAP_COMMIT, R.WEIR_GROUP_CAP_EPOCH, R.WEIR_LIMITS, R.WEIR_STATUS, R.WEIR_BUDGET, R.WEIR_INPUT, R.WEIR_THERM] ++
  [R.WEIR_HOLDUP, R.WEIR_ORDER, R.WEIR_STEP_TIME, R.WEIR_GRANT, R.REACH_STATE, R.ID_STATUS, R.ID_ANCHORS, R.ID_QUOTES, R.ID_SIGNER_DIGEST, R.ID_PUB_DIGEST] ++
  [R.ID_MQ_NONCE, R.ID_MQ_CTRL, R.ID_MQ_STATUS, R.ID_PUB, R.ID_MQ_DATA, R.CNT_CYCLE_LO, R.CNT_CYCLE_HI, R.CNT_FREQ, R.CNT_CTRL, R.CNT_BW_CFG] ++
  [R.CNT_BW_STATUS, R.CNT_SMP_CFG, R.CNT_SMP_HEAD, R.CNT_SMP_TAIL, R.CNT_SMP_LOST, R.CNT_SEL, R.CNT_LO, R.CNT_HI, R.CNT_BW_LO, R.CNT_BW_HI] ++
  [R.CNT_SMP_DATA, R.TEL_TEMP, R.TEL_POWER, R.TEL_MODULE, R.TEL_ENERGY_LO, R.TEL_ENERGY_HI, R.ISL_ID, R.ISL_UNITS]

end Sys2Proof.Machine
end

