-- ==== Sys2Proof/Machine/State.lean ====
section
/-!
DEFINITION. Machine/State.lean: everything the spec gives the machine, as plain data, and the state right after reset.
A docstring names the rule of spec/ a field follows and its value at reset. Fields that a register map holds live in
`regs` under their field's key; what several registers only show is computed by the reader of registers.
-/
namespace Sys2Proof.Machine

/-- The four variants (R1, R23). -/
inductive Variant where
  | dm9140 | dm9120 | dm9140N | dm9110
  deriving DecidableEq, Repr

/-- Why a run stops. No command of this block stops one: every arm of `exec` answers a next state. The one constructor
is raised by nobody (safe). -/
inductive Fault where
  /-- Not raised by any command. -/
  | none
  deriving DecidableEq, Repr

/-- A command without a meaning. Raised only by arms of `exec` not yet modelled (safe). -/
inductive Refusal where
  /-- The row has no meaning yet. -/
  | notModelled (mnemonic : String)
  deriving DecidableEq, Repr


/-! ### The main link and the queue protocol (03_dqp_host_attachment.md) -/

/-- A flit the device sends or holds for replay (R64): the type, LEN, HDR bytes 2-7 and the valid body bytes, with the
SEQ, ACK and freed-buffer count it carries. -/
structure Flit where
  ty : Nat
  len : Nat
  hdr : List Byte
  body : List Byte
  seq : Nat
  ack : Nat
  freed : Nat
  /-- the credit of its first transmission was taken -/
  paid : Bool
  deriving DecidableEq, Repr

/-- The flit session of the main link (R519). -/
structure Link where
  /-- a session has begun and not ended (R519). Reset: false -/
  session : Bool := false
  /-- the link is in L0 (R522). Reset: false -/
  l0 : Bool := false
  /-- the sideband is trained (R62, R445). Reset: false -/
  sbTrained : Bool := false
  /-- UCIe modules in use, 1-4 (R61). Reset: 4 -/
  modules : Nat := 4
  /-- modules taken out of training, a mask (R61). Reset: 0 -/
  lostModules : Nat := 0
  /-- the partner's INIT has arrived (R519). Reset: false -/
  hostInit : Bool := false
  /-- next sequence number to send (R519). Reset: 0 -/
  txSeq : Nat := 0
  /-- next sequence number expected (R66). Reset: 0 -/
  rxSeq : Nat := 0
  /-- credits held (R519). Reset: 0 -/
  credits : Nat := 0
  /-- K, the partner's freed-buffer count as last learned (R519). Reset: 0 -/
  k : Nat := 0
  /-- F, the receive buffers the device has freed (R519). Reset: 0 -/
  freed : Nat := 0
  /-- ACK last sent and F last sent, for the return of ACK and credit (R519). Reset: 4095, 0 -/
  ackSent : Nat := 4095
  freedSent : Nat := 0
  /-- sequenced flits sent and not acknowledged, oldest first (R66). Reset: empty -/
  held : List Flit := []
  /-- flits produced and not yet sent, at most 512 (R522). Reset: empty -/
  queue : List Flit := []
  /-- flits that started work still has to produce, in order: the work waits while 512 are queued (R522). Reset: empty -/
  outbox : List Flit := []
  /-- accepted flits whose work waits for the queue, each in a receive buffer (R522, R66). Reset: empty -/
  rxBuf : List HostFlit := []
  /-- last NAK sent: the number it named and the cycle of island 56 (R66). Reset: none -/
  lastNak : Option (Nat × Nat) := none
  deriving DecidableEq, Repr

/-- A submission queue (R70). -/
structure Sq where
  qid : Nat
  cqid : Nat
  nsid : Nat
  base : Nat
  entries : Nat
  prio : Nat
  /-- next slot the device fetches -/
  head : Nat
  tail : Nat
  deriving DecidableEq, Repr

/-- A completion without its PHASE (R76). -/
structure Comp where
  result0 : Nat
  result1 : Nat
  sqid : Nat
  sqhd : Nat
  tag : Nat
  status : Nat
  detail : Nat
  nsid : Nat
  deferred : Bool
  deriving DecidableEq, Repr

/-- A completion queue (R70, R72, R73). -/
structure Cq where
  qid : Nat
  base : Nat
  entries : Nat
  vector : Nat
  coalCount : Nat
  coalTime : Nat
  /-- slot of the next completion -/
  tail : Nat
  /-- head the host last released -/
  head : Nat
  phase : Bool
  /-- completions waiting for room, in order -/
  waiting : List Comp
  /-- completions posted and not yet signalled -/
  unsignalled : Nat
  deriving DecidableEq, Repr

/-- How far an outstanding command is (R78, R81, R70). -/
inductive Phase where
  /-- its list is being pulled -/
  | listing
  /-- its data is being pulled -/
  | data
  /-- all data is in hand, not started -/
  | ready
  /-- started, its completion follows -/
  | started
  deriving DecidableEq, Repr

/-- An outstanding command: fetched, not completed. -/
structure Cmd where
  sqid : Nat
  tag : Nat
  sqhd : Nat
  nsid : Nat
  /-- order of fetching, over all queues -/
  no : Nat
  /-- the 128 bytes (R74) -/
  raw : List Byte
  phase : Phase
  /-- buffer segments: host address and bytes (BUF_ADDR, or the list's entries) -/
  segs : List (Nat × Nat)
  /-- data pulled from the host, in buffer order -/
  data : List Byte
  /-- data bytes still to arrive -/
  due : Nat
  /-- blocks of a WRITE in the write buffer so far (R383) -/
  done : Nat
  deriving DecidableEq, Repr

/-- What a PULL_REQ entry fetches. -/
inductive PullFor where
  | entry (sqid no sqhd : Nat)
  | list (no : Nat)
  | data (no : Nat)
  deriving DecidableEq, Repr

/-- An outstanding PULL_REQ entry (R67). -/
structure Pull where
  reqId : Nat
  bytes : Nat
  got : List Byte
  what : PullFor
  deriving DecidableEq, Repr

/-- A pending deferred-error entry (R84). -/
structure Deferred where
  /-- number of the command -/
  no : Nat
  sqid : Nat
  tag : Nat
  nsid : Nat
  block : Nat
  count : Nat
  cause : Nat
  deriving DecidableEq, Repr

/-- A power-state entry or exit under way (R86, R87). -/
inductive PwrMove where
  | none
  /-- entry to `target` from `prior` for SET_POWER command `no`; `ponr`: the point of no return has passed; `exitTo`: an
  arrival after it asks for an immediate exit -/
  | entering (target prior no : Nat) (ponr : Bool) (exitTo : Option Nat)
  /-- exit to `target`; `no`: the SET_POWER that ordered it, if any -/
  | exiting (target : Nat) (no : Option Nat)
  deriving DecidableEq, Repr

/-- A recent order of a port, for the two-master rule (R90). -/
structure Order where
  /-- true: management port -/
  mgmt : Bool
  cycle : Nat
  /-- 0 register write, 1 module cap, 2 reset, 3 shutdown -/
  kind : Nat
  key : Nat
  value : Nat
  deriving DecidableEq, Repr

/-- Queue engine of island 56. -/
structure Dqp where
  /-- submission queues, rising QID; the admin SQ 0 exists while DQP runs (R69). Reset: empty -/
  sqs : List Sq := []
  /-- completion queues (R69, R70). Reset: empty -/
  cqs : List Cq := []
  /-- outstanding commands in fetch order. Reset: empty -/
  cmds : List Cmd := []
  /-- outstanding pulls. Reset: empty -/
  pulls : List Pull := []
  /-- next REQ_ID (R65). Reset: 0 -/
  nextReq : Nat := 0
  /-- next command number; 0 names no command. Reset: 1 -/
  nextNo : Nat := 1
  /-- round-robin credit left of classes 0-3 (R72). Reset: 8, 4, 2, 1 -/
  wrr : List Nat := [8, 4, 2, 1]
  /-- SQ last fetched in each class (R72). Reset: 0 -/
  rrLast : List Nat := [0, 0, 0, 0]
  /-- deferred-error entries awaiting delivery, oldest first (R84, R85); DQP_DEFER_PEND counts them. Reset: empty -/
  deferred : List Deferred := []
  /-- power-state movement (R86). Reset: none -/
  pwr : PwrMove := .none
  /-- orders of the last handshake window, for the two-master rule (R90). Reset: none -/
  orders : List Order := []
  /-- bytes of the sideband image received so far (R63); COUNT is their number. Reset: empty -/
  sbImage : List Byte := []
  deriving DecidableEq, Repr

/-- What the device has put out, newest last: the model's record of its outputs. -/
inductive Output where
  /-- a flit sent on the main link: its 256 bytes (R64) -/
  | flit (wire : List Byte)
  /-- the answer of a register access: port (0 host, 1 management, 2 sideband), address, status, value -/
  | access (port addr status value : Nat)
  /-- a response on the management port -/
  | mgmt (bytes : List Byte)
  /-- bits shifted out of the JTAG port -/
  | jtag (bits : List Bool)
  /-- the power-fail message on the sideband (R447) -/
  | powerFail
  deriving DecidableEq, Repr


/-! ### Device memory and tiers (04_memory_tiers.md, 14_data_protection.md) -/

/-- Owner tag of a 2 MiB extent (R102); an extent not listed is FREE. -/
inductive Tag where
  /-- context arena of a domain: context slot -/
  | arena (domain ctx : Nat)
  /-- save area of a domain: context slot -/
  | save (domain ctx : Nat)
  deriving DecidableEq, Repr

/-- The backing of a logical extent (R106, R140): a stack's share of a span of a die region. -/
structure LExt where
  /-- physical stack and extent; none: unbacked (R139) -/
  phys : Option (Nat × Nat)
  /-- poisoned under R139: an access returns 0x4001 -/
  poisoned : Bool
  /-- its data was copied there from another stack (R136, R140) -/
  copied : Bool
  deriving DecidableEq, Repr

/-- A FRAME extent (R518): a 2 MiB page, a part of a tensor, or up to 32 pages of 64 KiB. Its place is its key. -/
structure FrameExt where
  /-- domain it is charged to: the one whose page took it (R120) -/
  dom : Nat
  /-- 32 for a whole extent, else the number of 64 KiB pages in it -/
  used : Nat
  /-- its data was copied there from another stack (R136, R140) -/
  copied : Bool
  deriving DecidableEq, Repr

/-- A tier-1 page of an object (R109-R118). -/
structure Page where
  nsid : Nat
  obj : Nat
  /-- page index within the object (0 for a tensor) -/
  idx : Nat
  /-- extents of its frame, part by part: (stack, physical extent); (16 + k, 0) for a part lost with stack k (R135, R139) -/
  frame : List (Nat × Nat)
  /-- the page's data is there -/
  resident : Bool
  /-- its data is not there and nothing fetches it before the next reference (R139) -/
  asleep : Bool
  /-- fetched again before it becomes resident (R112) -/
  again : Bool
  /-- pin count (R117) -/
  pins : Nat
  /-- order of last reference (R118) -/
  stamp : Nat
  deriving DecidableEq, Repr

/-- A range of the object window (R109, R110). -/
structure WinMap where
  nsid : Nat
  obj : Nat
  /-- first 2 MiB range and their number -/
  first : Nat
  count : Nat
  /-- map count -/
  maps : Nat
  /-- the object was deleted while mapped (R110) -/
  dead : Bool
  deriving DecidableEq, Repr

/-- Who issued a unit operation: context, launch, the rill's serial number and its ticket (R226, R229). -/
structure OpRef where
  ctx : Nat
  launch : Nat
  uid : Nat
  ticket : Nat
  deriving DecidableEq, Repr

/-- Who a tier fetch answers (R126, R129). -/
inductive FetchFor where
  /-- DQP command `no`: TIER_MOVE or TIER_PIN -/
  | cmd (no : Nat)
  /-- a fetch operation: its record address and its issuer -/
  | record (addr : Nat) (op : OpRef)
  /-- the load of a context image into a state context (R291) -/
  | image (ctx : Nat)
  /-- accesses waiting on a window fault -/
  | window
  /-- placement under a hint, or a refetch of a pinned page -/
  | background
  /-- rerank of query `q` -/
  | rerank (q : Nat)
  deriving DecidableEq, Repr

/-- A tier fetch in progress (R126-R130). -/
structure Fetch where
  id : Nat
  nsid : Nat
  obj : Nat
  /-- the pages it covers -/
  pages : List Nat
  die : Nat
  /-- island-57 cycle of acceptance and deadline in cycles, 0 none (R126) -/
  accepted : Nat
  deadline : Nat
  issuer : FetchFor
  /-- its pages are pinned once resident (R115, R117) -/
  pin : Bool
  /-- the deadline has expired (counted once) -/
  expired : Bool
  /-- it took the spillway and continues in the background (R130) -/
  spilled : Bool
  /-- KiB newly made resident -/
  newKib : Nat
  /-- bytes asked for and their offset -/
  offset : Nat
  bytes : Nat
  deriving DecidableEq, Repr

/-- The memories the device address space names and the tier manager. -/
structure Mem where
  /-- every byte of stack memory, scratchpads and accumulator stores, by device address; an unlisted byte reads 0
  (R222, R424, R425). Reset: nothing listed -/
  bytes : List Host.Cell := []
  /-- poisoned granules by first address: 8 bytes in the scratchpad window, 64 in stack memory (R411, R416).
  Reset: none -/
  poison : NMap Unit := []
  /-- what has its valid flag set, as disjoint ranges, first byte to end: words of 8 bytes in scratchpads and accumulators,
  granules of 4 KiB in stack memory; a byte elsewhere reads 0 (R424, R425). The words that a restore has written are those of
  a context whose Ctx.filled is set. Reset: none -/
  valid : NMap Nat := []
  /-- owner tags of the 2 MiB extents of the device address space, key address / 2 MiB; not listed: FREE (R102).
  Reset: none -/
  tags : NMap Tag := []
  /-- logical extents in use, key stack * 65,536 + span: those of every span that holds a tagged extent (R106).
  Reset: none -/
  exts : NMap LExt := []
  /-- FRAME extents, key stack * 65,536 + physical extent. Reset: none -/
  frames : NMap FrameExt := []
  /-- extents of a stack not available: withdrawn while not joined; usable extents released so far per stack (R138).
  Reset: 0 -/
  released : NMap Nat := []
  /-- tier-1 pages. Reset: none -/
  pages : List Page := []
  /-- object-window ranges. Reset: none -/
  windows : List WinMap := []
  fetches : List Fetch := []
  nextFetch : Nat := 0
  /-- reference clock of R118. Reset: 0 -/
  clock : Nat := 0
  /-- scratch MiB charged per domain (R120). Reset: 0 -/
  scratchUsed : NMap Nat := []
  /-- device-managed storage: mapped blocks are told by the flash state -/
  drains : List Nat := []
  deriving DecidableEq, Repr


/-! ### Tiles (05_thiarn_tiles.md, 06_number_formats.md) -/

/-- A byte on its way to a tile or memory, with its poison (R416, R417). -/
structure PByte where
  b : Byte
  p : Bool
  deriving DecidableEq, Repr

/-- The activation shadow of a row: where its program read it, the profile, its first element's index on the stream, and
the program (R190, R257). -/
structure RowSrc where
  addr : Nat
  prof : Nat
  elem : Nat
  op : OpRef
  deriving DecidableEq, Repr

/-- The weight shadow of a block: its record's address and the program that declared it (R257). -/
structure ShadowRec where
  addr : Nat
  op : OpRef
  deriving DecidableEq, Repr

/-- An escalated row (R199, R200). -/
structure EscRow where
  m : Nat
  /-- X of its side entry -/
  x : Nat
  /-- where the row's shadow is read -/
  src : RowSrc
  /-- columns whose words are poisoned because an operand of the row as packed arrived poisoned, a mask (R168) -/
  bad : Nat := 0
  deriving DecidableEq, Repr

/-- A batch of escalated rows (R200). -/
structure EscBatch where
  rows : List EscRow
  /-- next escalation pass u of GSIZE / 32 -/
  u : Nat
  /-- that pass is in flight -/
  flying : Bool
  /-- its place in the order in which passes of the tile began LOAD (R151) -/
  started : Nat := 0
  /-- escalation buffer: FP32 sums, key row-in-batch * 64 + column; + 32 marks a poisoned one (R200) -/
  sums : NMap Nat
  /-- shadow bytes read for that pass so far: of block u and, at the last, the sidecar entry; of the rows (R257) -/
  wgot : List PByte := []
  agot : List PByte := []
  deriving DecidableEq, Repr

/-- An entry of a tile's pass queue or a pass in flight (R143-R149); a TSCALE takes its place in the same queue (R147). -/
structure TPass where
  /-- order of acceptance on the tile, and its reach cycle (R146) -/
  no : Nat
  accepted : Nat := 0
  /-- its place in the order in which passes of the tile began LOAD (R151) -/
  started : Nat := 0
  slot : Nat
  op : OpRef
  /-- accepted before a drain order on its unit: it still runs (R170) -/
  grand : Bool := false
  /-- a scale write: register and value; else none -/
  scaleWrite : Option (Nat × Nat) := none
  /-- the 128-bit descriptor (R143) -/
  desc : Nat := 0
  /-- TILE_FMT and TILE_SENT of the set active when the pass started (R145, R198) -/
  fmt : Nat := 0
  sent : Nat := 0
  /-- captured scale registers (R147) -/
  scales : List Nat := []
  /-- reach cycle in which its LOAD wants the next array row; none when no full-mode LOAD is under way (R150, R255) -/
  due : Option Nat := none
  /-- weight bytes loaded and activation bytes held (millrace) -/
  weights : List PByte := []
  /-- weight sidecar entries taken -/
  side : List PByte := []
  acts : List PByte := []
  /-- next row; in millrace mode the next beat -/
  row : Nat := 0
  /-- millrace column-bottom accumulators: key t * 64 + n -> FP32 sum of the finished groups (R156) -/
  accs : NMap Nat := []
  /-- outputs poisoned in the millrace pass: key t * 64 + n -/
  accPois : NMap Bool := []
  /-- a poisoned element or accumulator word was consumed: status 0x4003 unless a fault comes first (R168) -/
  pois : Bool := false
  /-- TILE_INJECT was armed at its start: the column (R171) -/
  inject : Option Nat := none
  /-- outputs o of a millrace beat whose weights or offsets arrived poisoned: columns 16t + o (R156, R168) -/
  badOuts : List Nat := []
  /-- weight shadow of its block (R257) -/
  wShadow : Option ShadowRec := none
  /-- escalation batches and escalated rows; it owns the escalation buffer (R200) -/
  esc : List EscBatch := []
  escRows : Nat := 0
  owns : Bool := false
  /-- what the environment did to its escalation passes (R168) -/
  upset : List TileUpset := []
  deriving DecidableEq, Repr

/-- Stationary activations of millrace mode (R145, R156). -/
structure Keep where
  slot : Nat
  t : Nat
  k : Nat
  data : List PByte
  deriving DecidableEq, Repr

/-- Bytes that wait in a tile input for the pass they were delivered for, with the weight shadow of their block or the activation
shadow of their row (R254, R257). -/
structure Chunk where
  /-- acceptance number of the pass -/
  no : Nat
  data : List PByte
  block : Option ShadowRec := none
  row : Option RowSrc := none
  deriving DecidableEq, Repr

/-- A tile (R142-R171); one not listed is as after reset. -/
structure Tile where
  /-- accepted passes and scale writes not started, in order of acceptance (R143, R146). Reset: empty -/
  queue : List TPass := []
  /-- passes in flight, oldest first (R151). Reset: empty -/
  flight : List TPass := []
  nextNo : Nat := 0
  /-- weight port, 2,048 bytes, and in quad mode a lane per quadrant (R254). Reset: empty -/
  wport : List (List Chunk) := [[], [], [], []]
  /-- sidecar lane, 256 bytes, per quadrant lane (R254). Reset: empty -/
  sidecar : List (List Chunk) := [[], [], [], []]
  /-- activation feeders, per quadrant lane (R254). Reset: empty -/
  feeders : List (List Chunk) := [[], [], [], []]
  /-- passes and escalation passes that have begun LOAD so far (R151). Reset: 0 -/
  starts : Nat := 0
  /-- stationary activations (R156). Reset: none -/
  keep : Option Keep := none
  /-- passes completed with 0x0000 since JOINING, per quadrant (R170). Reset: 0 -/
  joins : List Nat := [0, 0, 0, 0]
  deriving DecidableEq, Repr

/-! ### Runnels (07_runnels.md) -/

/-- What holds a rill (R211, R226, R228, R235, R236, R111). -/
inductive RWait where
  /-- ready -/
  | none
  /-- in BARSYNC at barriers of its residency slot -/
  | barrier (bs : List Nat)
  /-- in SIGWAIT: pairs of counter and threshold -/
  | signal (conds : List (Nat × Nat))
  /-- in NAP until a cycle of its reach -/
  | nap (cyc : Nat)
  /-- at a unit operation, the word of the instruction and the threads still to be accepted, a mask -/
  | unit (w todo : Nat)
  /-- in UWAIT: the destination register and pairs of thread and ticket -/
  | ticket (d : Nat) (threads : List (Nat × Nat))
  /-- at an access to pages being fetched, (namespace, object, page); the instruction issues again (R111) -/
  | page (ps : List (Nat × Nat × Nat))
  /-- at a sluice; the instruction issues again -/
  | sluice
  deriving DecidableEq, Repr

/-- A rill (R209, R210, R213). -/
structure Rill where
  /-- serial number, over all rills ever started -/
  uid : Nat
  ctx : Nat
  launch : Nat
  /-- residency slot its context holds -/
  rslot : Nat
  /-- RILL_RANK and ranks of reach and runnel (R214) -/
  rank : Nat
  reachRank : Nat
  runnelRank : Nat
  /-- NTHREADS and RILLS of its launch (R214) -/
  nthreads : Nat
  rills : Nat
  pc : Nat
  /-- active mask, RECONV of the current path, divergence stack, top first (R224) -/
  active : Nat
  rcv : Nat
  stack : List (Nat × Nat × Nat) := []
  /-- registers, key thread * 64 + register; not listed: 0 (R210) -/
  regs : NMap Nat := []
  /-- poison bits, the same key; not listed: clear (R210) -/
  poison : NMap Bool := []
  /-- predicates p0-p6 as thread masks (R210) -/
  preds : NMap Nat := []
  /-- latched CYCLE_HI per thread (R214) -/
  hi : NMap Nat := []
  /-- outstanding tickets: not listed: free; none: not complete; some status (R226, R228) -/
  tickets : NMap (Option Nat) := []
  wait : RWait := .none
  deriving DecidableEq, Repr

/-- A barrier phase (R235): the count it was opened with (0: none open), its arrivals, and the launch whose threads opened
it (R238). -/
structure Barrier where
  count : Nat := 0
  arrived : Nat := 0
  launch : Nat := 0
  deriving DecidableEq, Repr

/-- Rills and the synchronisation state of contexts on each reach. -/
structure Runnels where
  /-- rills in their slots, key reach * 128 + runnel * 32 + slot (R209). Reset: none -/
  rills : NMap Rill := []
  /-- rills of contexts that left residency, key context * 4,096 + reach * 128 + runnel * 32 + index (R210, R278).
  Reset: none -/
  saved : NMap Rill := []
  /-- signal counters, key (context * 32 + reach) * 64 + counter (R236). Reset: 0 -/
  signals : NMap Nat := []
  /-- barriers, key (context * 32 + reach) * 16 + barrier (R235). Reset: none open -/
  barriers : NMap Barrier := []
  /-- threads of stopped rills that count as arrived, key launch * 32 + reach (R238). Reset: 0 -/
  departed : NMap Nat := []
  /-- next serial number of a rill. Reset: 1 -/
  nextUid : Nat := 1
  deriving DecidableEq, Repr

/-! ### Flume engines and sluices (08_flume_and_sluice.md) -/

/-- A transfer of a MOVE or GATHER that has executed (R249, R251). -/
structure Xfer where
  gather : Bool
  src : Nat
  idx : Nat
  /-- bytes to deliver; for GATHER, COUNT * ELEM -/
  total : Nat
  elem : Nat
  estride : Nat
  /-- DKIND, destination address, tile, quadrant, profile (R247) -/
  dkind : Nat
  dst : Nat
  tile : Nat
  quad : Nat
  prof : Nat
  /-- instruction it came from -/
  pc : Nat
  /-- bytes read; bytes taken from staging by an emit; bytes written to memory -/
  rd : Nat := 0
  /-- read and not emitted (R245) -/
  staged : List PByte := []
  em : Nat := 0
  /-- bytes written to memory -/
  wr : Nat := 0
  /-- the GATHER index of the element being read, once it has been read (R249) -/
  ix : Option Nat := none
  /-- reach cycle since which its emit waits on its destination (R254, R258) -/
  held : Option Nat := none
  /-- bytes of its memory write that a sluice holds; 0 none (R260) -/
  asked : Nat := 0
  deriving DecidableEq, Repr

/-- A profile as a stream sees it (R193). -/
structure Prof where
  op : Nat
  rotEn : Bool
  rotSize : Nat
  outFmt : Nat
  gsize : Nat
  round : Bool
  inFmt : Nat
  seed : Nat
  param : Nat
  sign : Nat
  len : Nat
  side : Nat
  deriving DecidableEq, Repr

/-- A program's stream on one profile to one destination: DKIND, tile and lane, 0 for memory (R184, R185, R190, R254). -/
structure PStream where
  prof : Nat
  dkind : Nat
  tile : Nat
  quad : Nat
  /-- element index of R190; index of the next group or block; side-output bytes written -/
  elems : Nat := 0
  groups : Nat := 0
  side : Nat := 0
  /-- elements received and not yet a whole group -/
  carry : List PByte := []
  /-- output of the last whole group that its destination has not taken: main and side bytes -/
  out : List PByte := []
  outSide : List PByte := []
  /-- where the next of these side bytes goes in memory, under the set they were worked with (R184, R195) -/
  sideAt : Nat := 0
  /-- the sets under which the unit under way began: elements of it that a set covers, and the set (R195) -/
  olds : List (Nat × Prof) := []
  /-- activation shadow of the row under way (R257) -/
  row : Option RowSrc := none
  deriving DecidableEq, Repr

/-- A flume program queued or running (R242-R246). -/
structure Prog where
  op : OpRef
  /-- 64-bit program address and ARG (R243) -/
  addr : Nat
  arg : Nat
  started : Bool := false
  /-- instructions, 128 bits each, up to END (R244) -/
  code : List Nat := []
  pc : Nat := 0
  /-- the last instruction it executed (R480) -/
  last : Nat := 0
  /-- address-register bases; strides, key register * 8 + level, 32-bit two's complement (R248) -/
  base : List Nat := [0, 0, 0, 0, 0, 0, 0, 0]
  stride : NMap Nat := []
  /-- open loops, innermost first: level, COUNT, iteration, first instruction (R248) -/
  loops : List (Nat × Nat × Nat × Nat) := []
  ended : Bool := false
  /-- transfers not finished, oldest first -/
  xfers : List Xfer := []
  streams : List PStream := []
  /-- shadows declared: weight base and SSTRIDE, activation (R257) -/
  wShadow : Option (Nat × Nat) := none
  aShadow : Bool := false
  /-- full-mode blocks delivered to weight ports, for the block number k (R257) -/
  blocks : Nat := 0
  /-- reach cycle at which the WAIT at pc began to wait (R258) -/
  waitAt : Option Nat := none
  /-- its next read waits only for sluice tokens (R264) -/
  tokens : Bool := false
  /-- pages that its reads have met while they were being fetched: (namespace, object, page) (R111) -/
  pages : List (Nat × Nat × Nat) := []
  /-- it stops with this status, instruction and address once every element before has been delivered (R258) -/
  stopAt : Option (Nat × Nat × Nat) := none
  /-- signals of the program waiting for its earlier writes and emits: transfers issued before, counter, value -/
  sigs : List (Nat × Nat × Nat) := []
  /-- transfers executed and transfers finished so far -/
  xIssued : Nat := 0
  xDone : Nat := 0
  /-- tile inputs that took its emits: tile, acceptance number of the pass, input kind (R246, R259) -/
  fed : List (Nat × Nat × Nat) := []
  deriving DecidableEq, Repr

/-- A sluice's bucket (R260). -/
structure Sluice where
  /-- level in 1/1,024 byte at island cycle `at`. Reset: full, 1,024 * 128 bytes -/
  level : Nat := 134217728
  since : Nat := 0
  /-- waiting requests, oldest first: requester (0: traffic that the model does not hold back), bytes, bytes not yet
  passed -/
  waiting : List (Nat × Nat × Nat) := []
  /-- requests that have passed and not yet issued -/
  passed : List (Nat × Nat) := []
  deriving DecidableEq, Repr

/-- Flume engines and sluices. -/
structure Flume where
  /-- program slots, key (reach * 8 + engine) * 2 + slot: the head runs, up to 4 more wait (R242). Reset: empty -/
  progs : NMap (List Prog) := []
  /-- sluices, key island * 16 + engine or port (R265). Reset: full -/
  sluices : NMap Sluice := []
  deriving DecidableEq, Repr

/-- Test access to protected arrays (14_data_protection.md). -/
structure Prot where
  /-- corruptions of codewords written by test writes: key of the first byte, mask of inverted data bits, mask of inverted
  check bits (R428). Reset: none -/
  flips : NMap (Nat × Nat) := []
  /-- contents of arrays that only tests reach: stacks out of service and sieve heaps, key (island * 64 + unit) * 2^40 +
  byte (R427). Reset: 0 -/
  arrays : NMap Byte := []
  /-- what test writes have made valid in stacks out of service, ranges of those keys (R425, R427). Reset: none -/
  tested : NMap Nat := []
  /-- physical extents that have held data since their stack joined, key stack * 65,536 + extent (R425). Reset: none -/
  used : NMap Unit := []
  /-- an island's last test operation: the island cycle in which it was ordered, and its OP (R427). Reset: none -/
  ordered : NMap (Nat × Nat) := []
  /-- the 4,112-byte loopback buffer of each channel, key channel * 8,192 + byte (R427). Reset: 0 -/
  loopback : NMap Byte := []
  deriving DecidableEq, Repr

/-! ### Contexts and the scheduler (09_contexts_and_turns.md) -/

/-- Context states (R270). -/
inductive CtxSt where
  | free | idle | ready | resident | leaving | entering | state | imaging | imaged
  deriving DecidableEq, Repr

/-- An outstanding launch (R212, R215, R288). -/
structure Launch where
  id : Nat
  /-- command that ordered it; the ids of other orders: 0 with `why` telling which -/
  no : Nat
  /-- 0 CTX_LAUNCH, 1 search embedding, 2 search rerank, 3 Risal embedding -/
  why : Nat
  entry : Nat
  arg : Nat
  /-- reaches, runnels it uses, rills per runnel (R212) -/
  reaches : Nat
  runnels : Nat
  rills : Nat
  /-- fault ring: base and entries (R212, R239) -/
  ring : Nat
  ringSize : Nat
  /-- next fault-record SEQ and first fault's status and detail (R215, R239) -/
  seq : Nat
  status : Nat
  detail : Nat
  /-- fault records written to the ring (R239) -/
  written : Nat
  /-- rills not yet started: reach * 128 + runnel * 32 + index of the launch's rills -/
  toStart : List Nat
  /-- rills started and not ended -/
  running : Nat
  /-- unit operations its rills issued and not complete (R229) -/
  ops : Nat
  /-- rills ended, and rills stopped by fault -/
  ended : Nat
  faults : Nat
  /-- step list of a serving context: (member, kind, tokens, tokens before, load status, present) (R288) -/
  members : List (Nat × Nat × Nat × Nat × Nat × Bool)
  /-- members are all present and the buffer has been copied (R289) -/
  ready : Bool
  /-- where the buffer goes and the buffer (R212, R289) -/
  argDest : Nat
  buffer : List Byte
  /-- deadline of member loads -/
  deadline : Nat
  deriving DecidableEq, Repr

/-- A part of a context's save area: reach, device address and bytes (R278). -/
structure SavePart where
  reach : Nat
  addr : Nat
  bytes : Nat
  deriving DecidableEq, Repr

/-- A context table entry (R266-R274). -/
structure Ctx where
  slot : Nat
  st : CtxSt
  kind : Nat
  nsid : Nat
  rslot : Nat
  prio : Nat
  rills : Nat
  reaches : Nat
  group : Nat
  accMask : Nat
  scratch : Nat
  die : Nat
  auto : Bool
  kv4 : Bool
  leader : Nat
  /-- arena: device address (0 when none) and bytes, a multiple of 2 MiB -/
  arena : Nat
  arenaBytes : Nat
  kvOffset : Nat
  tokenBytes : Nat
  segTokens : Nat
  imageId : Nat
  sourceId : Nat
  /-- current image, 0 none; tokens held -/
  curImage : Nat
  tokens : Nat
  hold : Bool
  block : Nat
  blockedSince : Nat
  readySince : Nat
  residentSince : Nat
  lastStep : Nat
  faults : Nat
  launches : List Launch
  save : List SavePart
  /-- refused by the headgate at entry (R275) -/
  quotaRefused : Bool
  /-- entered residency at least once since creation (R275) -/
  entered : Bool
  /-- image operation: 0 none, 1 save, 2 load, 3 automatic save, 4 load for a step; command; format; release; source -/
  imgOp : Nat
  imgNo : Nat
  imgFormat : Nat
  imgRelease : Bool
  imgSource : Nat
  imgTokens : Nat
  imgId : Nat
  imgFetchAt : Nat
  imgDeadline : Nat
  imgExpired : Bool
  /-- storage of the version being written: first unit, units, bytes, segments (R290) -/
  imgUnit : Nat
  imgUnits : Nat
  imgBytes : Nat
  imgSegs : Nat
  /-- the drain of R277 has ended and the save runs -/
  saving : Bool
  /-- leaving because a unit leaves service or DP2 is entered -/
  forced : Bool
  /-- CTX_DESTROY that waits for the context's unit operations (R273); 0 none -/
  destroy : Nat
  /-- a restore has written every word of its region and slices since it entered: all are valid (R424) -/
  filled : Bool := false
  deriving DecidableEq, Repr

/-- Scheduler of island 57. -/
structure Sched where
  /-- contexts in use, rising slot (R266); a slot not listed is FREE. Reset: none -/
  ctxs : List Ctx := []
  nextLaunch : Nat := 1
  /-- decisions owed, one for each event of R276 in event order; true: the event was a quantum end. Reset: none -/
  owed : List Bool := []
  /-- island-57 cycle at which the quantum began. Reset: 0 -/
  quantumBase : Nat := 0
  /-- coming turns, in their order, whose lead point has passed (R285). Reset: 0 -/
  leads : Nat := 0
  /-- reaches that have not applied the last turn signal (R286), a mask. Reset: 0 -/
  turnSignals : Nat := 0
  /-- the reservation each reach last applied, mask * 65,536 + group (R286); not listed: none. Reset: none -/
  turnHeld : NMap Nat := []
  deriving DecidableEq, Repr

/-! ### Objects, collections and search (10_vector_search.md) -/

/-- Storage of an object: extents of host blocks (SLBA, NLB), or device-managed units: first unit index and units per
stripe-group rule. -/
inductive Storage where
  | host (extents : List (Nat × Nat))
  | device (firstUnit : Nat) (units : Nat)
  deriving DecidableEq, Repr

/-- An object-table entry (R297-R303, R521). -/
structure Obj where
  nsid : Nat
  id : Nat
  mtype : Nat
  size : Nat
  storage : Storage
  attrs : List Nat
  /-- quarantined, and the failed blocks still uncovered, by block key (R131-R133, R375) -/
  quarantined : Bool
  failed : List Nat
  /-- grain 0 tensor, 1 64 KiB, 2 2 MiB; tier, die and pin of the last hint; hinted (R115) -/
  grain : Nat
  hintTier : Nat
  hintDie : Nat
  hintPin : Bool
  hinted : Bool
  /-- SHADOW_SET path (R127) -/
  pathKind : Nat
  shadow : Nat
  /-- registered by an R_WRITE with EMBED = 1 (R93, R95) -/
  risal : Bool := false
  deriving DecidableEq, Repr

/-- A tombstone: namespace, ID and the pools (collection, pool) still to be compacted (R302). -/
structure Tomb where
  nsid : Nat
  id : Nat
  pools : List (Nat × Nat)
  deriving DecidableEq, Repr

/-- A member of a pool: key and codes, with its full-precision bytes when kept (R306). -/
structure PMember where
  obj : Nat
  item : Nat
  codes : List Byte
  full : List Byte
  deriving DecidableEq, Repr

/-- A pool and its bound record (R306, R312). -/
structure Pool where
  no : Nat
  createIdx : Nat
  damaged : Bool
  /-- member indices whose codes cannot be read, on a damaged pool (R313, R330) -/
  unread : List Nat
  r2 : Nat
  r1 : Nat
  compactSeq : Nat
  centroid : List Byte
  members : List PMember
  deriving DecidableEq, Repr

/-- A braid node (R315). -/
structure Node where
  no : Nat
  gen : Nat
  valid : Bool
  pool : Nat
  member : Nat
  obj : Nat
  item : Nat
  /-- edges: target and its generation -/
  edges : List (Nat × Nat)
  codes : List Byte
  deriving DecidableEq, Repr

/-- A collection (R304, R306). -/
structure Coll where
  no : Nat
  nsid : Nat
  dim : Nat
  w : Nat
  fullEn : Bool
  fullFmt : Nat
  budget : Nat
  obj : Nat
  fullId : Nat
  poolsMax : Nat
  /-- offsets and steps, FP32 patterns (R305) -/
  offs : List Nat
  steps : List Nat
  pools : List Pool
  nodes : List Node
  entries : List Nat
  /-- edges dropped (R329), next compaction sequence -/
  stale : Nat
  nextCompact : Nat
  /-- Risal: pool and member of the last member appended per object (R97) -/
  last : List (Nat × Nat × Nat)
  /-- waiting COLL_DELETE: command number, 0 none (R307) -/
  deleting : Nat
  deriving DecidableEq, Repr

/-- A candidate: DIST, OBJECT_ID, ITEM, pool, member (R310). -/
structure Cand where
  dist : Int
  obj : Nat
  item : Nat
  pool : Nat
  member : Nat
  deriving DecidableEq, Repr

/-- Where a query stands. -/
inductive QPhase where
  /-- waiting for the decode of its content, or for its embedding launch -/
  | content | embed
  /-- waiting for a sweep, or in one -/
  | queued | swept
  /-- waiting for the rerank fetch, or for the rerank launch -/
  | fetch | rerank
  /-- the rerank list is due and waits for a free launch of the context -/
  | rerankWait
  deriving DecidableEq, Repr

/-- A search query (R318-R328). -/
structure Query where
  id : Nat
  no : Nat
  coll : Nat
  metric : Nat
  k : Nat
  depth : Nat
  codes : List Byte
  filter : Bool
  rerank : Bool
  /-- predicate terms: field, op, opens a clause, value, value2 -/
  terms : List (Nat × Nat × Bool × Nat × Nat)
  attrMask : Nat
  ctx : Nat
  rrEntry : Nat
  rrAddr : Nat
  /-- DEADLINE of the rerank fetch (R327) -/
  deadline : Nat
  /-- query slot for the embedding launch and its entry -/
  embedEntry : Nat
  embedAddr : Nat
  phase : QPhase
  widened : Bool
  filtered : Nat
  read : Nat
  skipped : Nat
  sweep : Nat
  /-- seeds and heaps: candidates known (R321) -/
  known : List Cand
  /-- compactions since its sweep began: the pool, and the new index of each member (R327) -/
  moves : List (Nat × List (Option Nat))
  /-- survivors and their attribute snapshots after filtering -/
  result : List (Cand × List Nat)
  /-- first failure met: status, 0 none -/
  fail : Nat
  failDetail : Nat
  spilled : Nat
  /-- Risal: 0 native, 1 R_SEARCH (no rerank errors, short buffer) -/
  risal : Bool
  deriving DecidableEq, Repr

/-- A sweep in progress (R318-R322) over its snapshot (R319). -/
structure Sweep where
  seq : Nat
  coll : Nat
  metric : Nat
  queries : List Nat
  /-- snapshot: pools with their bounds, braid, tombstones -/
  pools : List Pool
  nodes : List Node
  entries : List Nat
  tombs : List Nat
  /-- pools still to dispatch, in order, with the residue mismatches met on each in this sweep (R422) -/
  order : List (Nat × Nat)
  /-- pools at the sieves, in dispatch order: (pool, island, units reading it, queries needing it, mismatches before) -/
  active : List (Nat × Nat × List Nat × List Nat × Nat)
  /-- pools whose bound record, and nodes whose record, could not be read (R330) -/
  unbound : List Nat
  lost : List Nat
  deriving DecidableEq, Repr

/-- Objects, collections and search of island 57. -/
structure Search where
  /-- object-table entries (R297). Reset: none -/
  objs : List Obj := []
  /-- tombstones (R302). Reset: none -/
  tombs : List Tomb := []
  colls : List Coll := []
  queries : List Query := []
  sweeps : List Sweep := []
  /-- OBJ_DELETE commands that wait for sweeps begun before them: command and those sweeps (R302). Reset: none -/
  deletes : List (Nat × List Nat) := []
  nextQuery : Nat := 1
  nextSweep : Nat := 1
  /-- repair queue: (collection, node), oldest first (R317). Reset: empty -/
  repairs : List (Nat × Nat) := []
  /-- next free device-managed unit per domain (R378). Reset: 0 -/
  nextUnit : NMap Nat := []
  deriving DecidableEq, Repr

/-! ### Media decode (11_media_and_compression.md) -/

/-- A decode waiting or running (R338). -/
structure Decode where
  /-- MEDIA_DECODE command, 0 for a search's content -/
  no : Nat
  query : Nat
  nsid : Nat
  mtype : Nat
  /-- captured content, at start: the object's bytes are read as READ reads them -/
  obj : Nat
  content : List Byte
  dest : Nat
  first : Nat
  frames : Nat
  step : Nat
  /-- captured profile: crop position and size, output, mode words -/
  profile : Nat
  captured : List Nat
  wrap : Nat
  destBytes : Nat
  /-- chosen island, and its decoder once started; none before -/
  island : Nat
  unit : Option Nat
  /-- Risal embedding of R_WRITE or R_EMBED, with the context, entry and query slot captured (R96) -/
  risal : Bool
  ctx : Nat
  entry : Nat
  slot : Nat
  deriving DecidableEq, Repr

structure Media where
  /-- decodes in arrival order (R338). Reset: none -/
  decodes : List Decode := []
  /-- commands without fault since JOINING, key island * 16 + unit (R347). Reset: 0 -/
  joinCount : NMap Nat := []
  /-- pools without fault since JOINING, key island * 64 + unit (R330). Reset: 0 -/
  sieveJoin : NMap Nat := []
  /-- sieve and media units whose last self-test has passed, key island * 64 + unit (R330, R347). Reset: none -/
  tested : NMap Unit := []
  deriving DecidableEq, Repr


/-! ### Flash dies and channels (12_flash_media.md) -/

/-- A physical page (R352). -/
structure PageAddr where
  chan : Nat
  die : Nat
  plane : Nat
  block : Nat
  wl : Nat
  page : Nat
  deriving DecidableEq, Repr

/-- What a page read serves. -/
inductive ReadFor where
  /-- READ, VERIFY or a Risal read: command number -/
  | cmd (no : Nat)
  /-- RAW_READ: command number -/
  | raw (no : Nat)
  /-- the merge of write-buffer slot `slot` of channel island `isl` (R383) -/
  | merge (isl slot : Nat)
  /-- the ditch rider (R400) -/
  | patrol
  deriving DecidableEq, Repr

/-- An entry of the erase-intent journal (R361): KIND, PLANE, BLOCK, ISEQ, ERASE_COUNT, FAIL. -/
structure JEntry where
  kind : Nat
  plane : Nat
  block : Nat
  iseq : Nat
  eraseCount : Nat
  fail : Bool
  deriving DecidableEq, Repr

/-- A journal page of a die (R361). -/
structure JPage where
  plane : Nat
  pageSeq : Nat
  generation : Nat
  entries : List JEntry
  deriving DecidableEq, Repr

/-- A die operation (R357). -/
inductive DieOp where
  /-- page read at a read-level set -/
  | read (p : PageAddr) (level : Nat) (why : ReadFor)
  /-- pass 1 or 2 of row `row` of member `mem` of a stripe (R355); pSLC rows have pass 2 only; `urgent`: FUA data or
  staging (R358) -/
  | prog (stripe row mem pass : Nat) (urgent : Bool)
  /-- an erase-intent journal page (R362) -/
  | journal (page : JPage)
  /-- erase of one block number per plane: (plane, block) (R357) -/
  | erase (blocks : List (Nat × Nat))
  deriving DecidableEq, Repr

/-- States of a die (R357), with the two suspensions being entered. -/
inductive DieSt where
  | idle | read | prog | psusp | psuspRead | erase | esusp | esuspRead | esuspProg
  /-- suspend issued to a program or an erase, not yet done -/
  | psuspending | esuspending
  deriving DecidableEq, Repr

/-- A die (R357-R366). A die not listed is idle with nothing queued and its defaults. -/
structure Die where
  st : DieSt := .idle
  /-- the operation running -/
  run : Option DieOp := none
  /-- the operation suspended -/
  susp : Option DieOp := none
  /-- waiting reads, in arrival order -/
  reads : List DieOp := []
  /-- waiting programs and erases, in arrival order -/
  others : List DieOp := []
  /-- times the program or erase has been suspended (R358) -/
  suspensions : Nat := 0
  /-- page reads issued in this suspension -/
  readsIn : Nat := 0
  /-- a program has been issued in this suspension -/
  progIn : Bool := false
  /-- plane sets whose erase is wanted, not yet journaled -/
  wantErase : List (Nat × Nat) := []
  /-- intents open on media (R362) -/
  intents : List JEntry := []
  /-- ended erases whose DONE is not on media -/
  dones : List JEntry := []
  /-- the journal's valid pages (R361) -/
  jpages : List JPage := []
  /-- next PAGE_SEQ, ISEQ, GENERATION (R361) -/
  pageSeq : Nat := 0
  iseq : Nat := 0
  generation : Nat := 0
  /-- active journal plane, free pages left in its block, journal pairs lost (R363) -/
  jplane : Nat := 0
  jfree : Nat := 256
  jlost : Nat := 0
  /-- erase counts of parameter block 0 of the four planes (R361) -/
  jcounts : List Nat := [0, 0, 0, 0]
  /-- blocks held half-erased until erased again: (plane, block) (R366) -/
  half : List (Nat × Nat) := []
  /-- the die-wide sequence of block headers (R364), and the header's of parameter blocks 1 to 3 of plane 0: (block, sequence) -/
  opens : Nat := 0
  heads : List (Nat × Nat) := []
  deriving DecidableEq, Repr

/-! ### Translation (13_translation_and_wear.md) -/

/-- Where a unit's data lies (R377); a unit not listed is unmapped. -/
inductive Loc where
  | stripe (id off : Nat)
  | lost
  | slot (isl n : Nat)
  deriving DecidableEq, Repr

/-- A plane set (R379): not listed, it is free with erase count 0 and never used. -/
structure PlaneSet where
  eraseCount : Nat := 0
  /-- stripe it belongs to, 0 none -/
  stripe : Nat := 0
  /-- in no use: free once it is clean (R380) -/
  free : Bool := true
  retired : Bool := false
  /-- page reads since its last program (R401) -/
  reads : Nat := 0
  /-- erased since its last use, with the DONE on media; a set of a new die is erased before its first program (R366) -/
  clean : Bool := false
  /-- filter of the stripe whose copies it still holds, out of use (R403) -/
  filter : Nat := 0
  deriving DecidableEq, Repr

/-- A block packed into a stripe's data space (R384): the unit, its first KiB, its stored bytes (R342). -/
structure Packed where
  lua : Nat
  off : Nat
  bytes : List Byte
  /-- blocks of the unit merged as lost (R383) -/
  lostMask : Nat
  deriving DecidableEq, Repr

/-- A member of a stripe (R380): channel, die, block number. -/
structure Member where
  chan : Nat
  die : Nat
  block : Nat
  deriving DecidableEq, Repr

/-- Use of a stripe. -/
inductive StripeKind where
  | host | target | staging | journal
  deriving DecidableEq, Repr

/-- A stripe (R380-R382). -/
structure Stripe where
  id : Nat
  group : Nat
  kind : StripeKind
  /-- data members ascending, the parity member last -/
  members : List Member
  /-- next free KiB of the data space -/
  next : Nat
  /-- rows whose programs have been queued -/
  rowsOut : Nat
  /-- rows complete: every member's pass 2 done -/
  rowsDone : Nat
  /-- (row, member) programs of queued rows completed -/
  progDone : List (Nat × Nat)
  /-- (row, member) whose pass 1 alone has completed (R355) -/
  lows : List (Nat × Nat)
  sealed : Bool
  packed : List Packed
  /-- journal sequence at opening -/
  openSeq : Nat
  /-- OPEN_SEQ of the members' block headers: (member, die-wide sequence) once its first program began (R364) -/
  headSeqs : List (Nat × Nat)
  /-- filter of R403 -/
  filter : Nat
  /-- journal sequence at which each row begun was opened (R404) -/
  rowSeqs : List Nat
  /-- pages known uncorrectable: (row, member, plane*4+page) (R388) -/
  badPages : List (Nat × Nat × Nat)
  deriving DecidableEq, Repr

/-- A command with blocks in a write-buffer slot: a WRITE whose failure is a deferred error (R84), one that waits as FUA
defines, or a FLUSH (R78). -/
structure Writer where
  sqid : Nat
  tag : Nat
  nsid : Nat
  /-- blocks of the unit that are still the command's own, none written again since: a mask; 0 for a FLUSH -/
  mask : Nat
  /-- command number -/
  no : Nat
  fua : Bool
  deriving DecidableEq, Repr

/-- A write-buffer slot in use (R383). -/
structure Slot where
  lua : Nat
  /-- blocks present -/
  mask : Nat
  /-- eight blocks of 4 KiB; absent ones empty -/
  data : List (List Byte)
  /-- blocks whose old copy is lost, once merged (R383) -/
  lostMask : Nat
  /-- stripe place of the unit's older copy, for the merge (R383) -/
  old : Option (Nat × Nat)
  /-- the merge's page reads have been queued -/
  merging : Bool
  /-- placed at (stripe, KiB, KiB count) and waiting for its rows -/
  placed : Option (Nat × Nat × Nat)
  /-- staged in pSLC at (stripe, KiB) (R386) -/
  staged : Option (Nat × Nat)
  /-- stripes that failed while holding it (R387) -/
  fails : Nat
  /-- commands with blocks here, oldest first -/
  writers : List Writer
  deriving DecidableEq, Repr

/-- Journal records (R405). -/
inductive JRec where
  | map (lua : Nat) (loc : Option Loc)
  | stripeOpen (id : Nat)
  | stripeSeal (id : Nat)
  | stripeFree (id : Nat)
  | member (id idx chan die block : Nat)
  | retire (chan die block : Nat)
  | tablePage (n : Nat) (loc : Option Loc)
  | checkpoint (start : Bool) (pageSeq : Nat)
  /-- read-only state, patrol position and health counters -/
  | state (ro patrol : Nat) (counters : List Nat)
  deriving DecidableEq, Repr

/-- A health-log event (R408). -/
structure HealthEvent where
  seq : Nat
  kind : Nat
  nsid : Nat
  a : Nat
  b : Nat
  c : Nat
  deriving DecidableEq, Repr

/-- A running collection (R392): victim and target stripes, units copied, why (secure discard command or 0). -/
structure Gc where
  victim : Nat
  targets : List Nat
  units : List Nat
  discard : Nat
  deriving DecidableEq, Repr

/-- A running member replacement (R395). -/
structure Repl where
  stripe : Nat
  idx : Nat
  dest : Member
  deriving DecidableEq, Repr

/-- A SECURE_DISCARD under way (R402, R403). -/
structure Discard where
  no : Nat
  nsid : Nat
  /-- stripes still to collect and erase -/
  stripes : List Nat
  /-- plane sets whose erase is awaited: (chan, die, block) -/
  erasing : List (Nat × Nat × Nat)
  erased : Nat
  failed : Nat
  kib : Nat
  deriving DecidableEq, Repr

/-- A block of a device's own data that found no free write-buffer slot: it waits outside the buffer, no part of it yet (R14, R383). -/
structure Wait where
  seq : Nat
  space : Nat
  block : Nat
  data : List Byte
  deriving DecidableEq, Repr

/-- A command whose blocks wait: it completes once no block up to number `upTo` waits. Power lost before leaves the collection as it
was (R14, R78). -/
structure Late where
  no : Nat
  status : Nat
  r0 : Nat
  r1 : Nat
  upTo : Nat
  coll : Nat
  was : Option Coll
  deriving DecidableEq, Repr

/-- Flash state of the module. -/
structure Flash where
  /-- dies, key 16 * channel + die. Reset: none listed -/
  dies : NMap Die := []
  /-- plane sets, key (16 * channel + die) * 1024 + block. Reset: none listed, free and never erased -/
  sets : NMap PlaneSet := []
  /-- factory-bad blocks: key ((16 * channel + die) * 4 + plane) * 1024 + block (R352). Reset: none -/
  factoryBad : NMap Unit := []
  /-- mapping entries by LUA (R377). Reset: every unit unmapped -/
  map : NMap Loc := []
  /-- contents of mapped 4 KiB blocks, key 8 * LUA + block (R83, R120); the headgate counts them. Reset: none -/
  blocks : NMap (List Byte) := []
  /-- blocks that read 0x3001 within a mapped unit (R383). Reset: none -/
  lostBlocks : NMap Unit := []
  /-- device-managed units released and not yet erased, by domain (R402). Reset: none -/
  released : List (Nat × Nat) := []
  /-- write-buffer slots, key 2^20 * (channel island 0-3) + slot (R383). Reset: none -/
  slots : NMap Slot := []
  /-- blocks that wait for a slot, their count so far, and the commands that wait for them. Reset: none, 0, none -/
  waits : List Wait := []
  waitSeq : Nat := 0
  late : List Late := []
  /-- units to be written again that have found no free slot (R388). Reset: none -/
  rewrites : List Nat := []
  /-- staging stripes that a flush wrote and no start-up has mapped yet (R406). Reset: none -/
  flushed : List Nat := []
  /-- collected victims whose members are not all erased: island, members left (R409). Reset: none -/
  victims : List (Nat × List (Nat × Nat × Nat)) := []
  /-- channel islands where a row has been sealed since the last command, a mask (R410). Reset: 0 -/
  rowSealed : Nat := 0
  /-- stripes in use. Reset: none -/
  stripes : List Stripe := []
  /-- stripes and members out of use whose blocks are not all erased, as they last stood (R373). Reset: none -/
  gone : List Stripe := []
  /-- next stripe identifier (R377). Reset: 1 -/
  nextStripe : Nat := 1
  /-- journal sequence per channel island (R405). Reset: 0 -/
  seqs : List Nat := [0, 0, 0, 0]
  /-- journal records since the last checkpoint, per island, newest last (R405). Reset: none -/
  journal : List (List (Nat × JRec)) := [[], [], [], []]
  /-- records still in the island's journal buffer, in no page yet (R405). Reset: none -/
  jbuf : List (List (Nat × JRec)) := [[], [], [], []]
  /-- journal pages written per island since the last checkpoint, and PAGE_SEQ. Reset: 0 -/
  jpages : List Nat := [0, 0, 0, 0]
  jpageSeq : List Nat := [0, 0, 0, 0]
  /-- table pages held: key SPACE * 2^56 + page -> mapped units (R378). Reset: none -/
  tables : NMap Nat := []
  gcs : List Gc := []
  repls : List Repl := []
  /-- members waiting for refresh: (stripe, member index) (R401). Reset: none -/
  refresh : List (Nat × Nat) := []
  /-- members of a JOINING channel not yet replaced: (stripe, member index) (R396). Reset: none -/
  joinLeft : List (Nat × Nat) := []
  discards : List Discard := []
  /-- patrol position: next OPEN_SEQ per island (R400). Reset: 0 -/
  patrol : List Nat := [0, 0, 0, 0]
  /-- the page of that stripe read last: (row, member, plane * 4 + page), none before its first; and whether the patrol's period has
  ended meanwhile. Reset: none, false -/
  patrolPage : List (Option (Nat × Nat × Nat)) := [none, none, none, none]
  patrolOver : List Bool := [false, false, false, false]
  /-- the period's patrol has finished. Reset: false -/
  patrolDone : List Bool := [false, false, false, false]
  /-- bytes behind is told by the event; module read-only state 0-2, journaled (R399). Reset: 0 -/
  ro : Nat := 0
  /-- health log: codewords corrected, uncorrectable, rebuilt, units lost, host KiB, media KiB, patrols, late, retired
  (R407), kept over power loss. Reset: 0 -/
  health : List Nat := [0, 0, 0, 0, 0, 0, 0, 0, 0]
  /-- event ring, oldest first, at most 1,024, and next sequence (R407, R408). Reset: empty, 0 -/
  events : List HealthEvent := []
  nextEvent : Nat := 0
  /-- temperature bins: key 16 * package + bin (R407). Reset: 0 -/
  temps : NMap Nat := []
  /-- dies of a channel with uncorrectable codewords, each with the island's cycle of its latest (R370). Reset: none -/
  recentUnc : NMap (List (Nat × Nat)) := []
  /-- channels waiting for a line test: key channel (R370). Reset: none -/
  testDue : NMap Unit := []
  /-- the last test of a channel passed: key channel (R372). Reset: none -/
  chTest : NMap Unit := []
  /-- groups whose collection runs on until every channel has 224 free plane sets, a mask (R391). Reset: 0 -/
  collecting : Nat := 0
  /-- NAND temperature readings of each island, modulo 16 (R484). Reset: 0 -/
  tempReads : List Nat := [0, 0, 0, 0]
  /-- usable plane sets of channels at first start, U0 (R398): key channel. Reset: none -/
  u0 : NMap Nat := []
  deriving DecidableEq, Repr


/-! ### Image store, start-up, power, identity, counters, connectors (02, 15, 16, 17, 19) -/

/-- What the active image said, kept after step 4 applied it (R31-R39, R58). -/
structure ImgInfo where
  /-- ISLAND_MASK (R31). Reset: 0 -/
  islands : Nat := 0
  /-- TILE_MASK of reaches 0-31 (R31). Reset: empty -/
  tiles : List Nat := []
  /-- CHANNEL_MASK (R31). Reset: 0 -/
  channels : Nat := 0
  /-- SIEVE_MASK (R31). Reset: 0 -/
  sieves : Nat := 0
  /-- DECODER_MASK (R31). Reset: 0 -/
  decoders : Nat := 0
  /-- retired rows: (stack, channel, bank, row) (R34). Reset: empty -/
  stackRows : List (Nat × Nat × Nat × Nat) := []
  /-- retired dies, bit 16c + d (R35). Reset: 0 -/
  retiredDies : Nat := 0
  /-- Risal mode (R38). Reset: false -/
  risal : Bool := false
  /-- RISAL_CAPACITY_GIB (R38). Reset: 0 -/
  risalGib : Nat := 0
  /-- slot that verified the image, its signer digest and image digest (R459, R29). Reset: 0, empty, empty -/
  anchor : Nat := 0
  signerDigest : List Byte := []
  digest : List Byte := []
  version : Nat := 0
  deriving DecidableEq, Repr

/-- Image slots, rollback-counter copies and start-up (02_krahial_image.md, 15_power_clocks_startup.md). -/
structure Boot where
  /-- the input is on and qualified (R450). Reset: true -/
  powered : Bool := true
  /-- the 48 V input has returned during a flush (R447). Reset: false -/
  inputBack : Bool := false
  /-- the module reset input is held low (R503). Reset: false -/
  resetPin : Bool := false
  /-- image copies A primary, A secondary, B primary, B secondary: what the parameter blocks hold; empty: nothing
  readable (R44). Reset: all empty -/
  copies : List (List Byte) := [[], [], [], []]
  /-- counter records on dies 0 and 8 of channels 0 and 64, 16 bytes each, empty when unreadable (R43). Reset: empty -/
  counters : List (List Byte) := [[], [], [], []]
  /-- the active image, in the retained memory of island 59 (R441). Reset: empty -/
  active : List Byte := []
  info : ImgInfo := {}
  /-- floor awaiting counter copies (R46). Reset: none -/
  floorPend : Option Nat := none
  /-- counter copies that still need it, a mask of 4 (R46). Reset: 0 -/
  floorLeft : Nat := 0
  /-- IMAGE_WRITEs run since start-up from a sideband image: the next one targets slot A when even (R47). Reset: 0 -/
  imgWrites : Nat := 0
  /-- the image reaches the islands: step 4 has been applied since start-up (R516). Reset: false -/
  applied : Bool := false
  /-- DQP ready reached: step 8 complete (R445). Reset: false -/
  ready : Bool := false
  /-- a halt in progress ends in a reset (R442). Reset: false -/
  haltReset : Bool := false
  /-- the halt in progress posts no completions (R444). Reset: false -/
  fatal : Bool := false
  /-- a SHUTDOWN with FORCE = 0 waits for started commands (R442). Reset: false -/
  haltWait : Bool := false
  /-- dies whose one feed tripped, a mask over Delta A, Delta B, Headwater (R451). Reset: 0 -/
  feedTrips : Nat := 0
  /-- converters that have tripped since start-up, as CONVERTER_TRIP names them: rail 0 to 2 and index (R451). Reset: none -/
  rails : List (Nat × Nat) := []
  /-- reaches that a fault took out of service, whose clocks are stopped while they stay OFFLINE, a mask (R440, R453).
  Reset: 0 -/
  faulted : Nat := 0
  /-- states and causes of the channels when the module last stopped, as journaled: channel -> 8 * cause + state, ONLINE
  with no cause not listed (R372). Reset: none -/
  chans : NMap Nat := []
  /-- what the line tests of channels 0 and 64 found at step 2: channel, cause, dies (R370, R446). Reset: none -/
  early : List (Nat × LineFault) := []
  /-- island-59 cycle at which the step in progress began (R445). Reset: 0 -/
  stepAt : Nat := 0
  /-- SLOT_ID and MGMT_MODE as sampled at
  step 1 (R503). Reset: 0, SMBus -/
  slotId : Nat := 0
  i3c : Bool := false
  /-- VDD_MGMT is 3.3 V, not 1.8 V (R504). Reset: 1.8 V -/
  vdd33 : Bool := false
  deriving DecidableEq, Repr

/-- Weir beyond its registers (R433-R439). -/
structure Weir where
  /-- PEAK of each island, quanta (R431, R439). Reset: the peak credits of R431 -/
  peaks : List Nat
  /-- input energy below the next millijoule, in units of 0.2 microjoules (R485). Reset: 0 -/
  energyRest : Nat := 0
  deriving DecidableEq, Repr

/-- A quote waiting or running (R469). -/
structure Quote where
  /-- true: management port -/
  mgmt : Bool
  /-- the ATTEST_QUOTE command, 0 for the management port -/
  no : Nat
  nonce : List Byte
  /-- island-59 cycle when capture began (R467) -/
  cycle : Nat
  deriving DecidableEq, Repr

/-- Island 58's identity (16_identity_attestation.md). -/
structure Ident where
  /-- trust anchors: digest (empty: not programmed) and revocation fuse of slots 0-3 (R458). Reset: slot 0 Balonte's signer digest, a
  value no rule gives; slots 1-3 not programmed -/
  anchors : List (List Byte × Bool) := [((List.range 64).map Config.makerDigest, false), ([], false), ([], false), ([], false)]
  /-- ENROLLED fuse (R465). Reset: false -/
  enrolled : Bool := false
  /-- the 604-byte helper record in fuses (R462). Reset: empty -/
  fuseCopy : List Byte := []
  /-- flash copies in R463 order. Reset: empty -/
  flashCopies : List (List Byte) := [[], [], [], []]
  /-- the source record flash copies are rewritten from in step 6 (R463). Reset: empty -/
  source : List Byte := []
  /-- key storage: the private key (R464). Reset: empty -/
  sk : List Byte := []
  /-- the identity public key, shown in ID_PUB (R473). Reset: empty -/
  pk : List Byte := []
  /-- PUB_DIGEST of the identity public key. Reset: empty -/
  pubDigest : List Byte := []
  /-- quotes in arrival order, the head running (R469). Reset: empty -/
  quotes : List Quote := []
  /-- the last management quote, shown in ID_MQ_DATA (R471). Reset: empty -/
  mqData : List Byte := []
  /-- quotes signed since the last start-up, QUOTE_SEQ (R467). Reset: 0 -/
  quoteSeq : Nat := 0
  deriving DecidableEq, Repr

/-- What a sample record says of its source (R480, R481). -/
structure Src where
  ctx : Nat := 0xFFFF
  unit : Nat := 0
  slot : Nat := 0xFF
  rill : Nat := 0xFF
  pc : Nat := 0
  info : Nat := 0
  deriving DecidableEq, Repr

/-- A sample waiting for its source's next capture point (R480). -/
structure Capture where
  island : Nat
  counter : Nat
  /-- 1 rill, 2 pass, 3 flume program -/
  source : Nat
  /-- which: the rill's serial number, 256 * quadrant + tile, or 2 * engine + slot -/
  unit : Nat
  /-- the program of a flume source -/
  op : Option OpRef := none
  /-- the last instruction or pass it had issued at the crossing -/
  src : Src
  /-- the event belongs to an instruction that had not yet issued -/
  early : Bool := false
  /-- what it captured: the instruction or pass, the cycle and SKID -/
  got : Option (Src × Nat × Bool) := none
  deriving DecidableEq, Repr

/-- Counters beyond their registers (17_counters_and_telemetry.md). -/
structure Counters where
  /-- CNT_CYCLE of each island (R474). Reset: 0 -/
  cycles : NMap Nat := []
  /-- value of counter n of island i, key 8i + n (R476). Reset: 0 -/
  values : NMap Nat := []
  /-- bytes of port p of island i in the current window, key 8i + p (R482). Reset: 0 -/
  bytes : NMap Nat := []
  /-- WIN in effect on an island; 20 where not listed (R482). Reset: 20 -/
  win : NMap Nat := []
  /-- bytes of the last window (CNT_BW_p), key 8i + p (R482). Reset: 0 -/
  lastBytes : NMap Nat := []
  /-- islands whose clock level changed in the current window (R482). Reset: 0 -/
  lvlChanged : Nat := 0
  /-- 1 + the cycles of island i at the last mark; not listed: no mark since its clock started (R475). Reset: none -/
  marks : NMap Nat := []
  /-- captures pending (R480). Reset: empty -/
  captures : List Capture := []
  /-- islands whose watermark interrupt has been sent and not re-armed (R479). Reset: 0 -/
  irqSent : Nat := 0
  /-- latched _HI values: key port * 2^32 + register key (R474). Reset: 0 -/
  latches : NMap Nat := []
  /-- input energy in mJ (R485). Reset: 0 -/
  energy : Nat := 0
  deriving DecidableEq, Repr

/-- The management port (R504-R508). -/
structure Mgmt where
  /-- SEQ of the response (R506). Reset: 0 -/
  seq : Nat := 0
  /-- STATE: 0 done, 1 pending, 2 no request since start-up, 3 rejected (R506). Reset: 2 -/
  state : Nat := 2
  status : Nat := 0
  value : Nat := 0
  /-- dynamic address in I3C mode (R505). Reset: none -/
  dyn : Option Nat := none
  /-- the alert condition as last shown (R508); MGMT_ALERT_N low or an in-band interrupt. Reset: true, because MSTATE is
  not RUNNING -/
  alert : Bool := true
  /-- in-band interrupts raised (R508). Reset: 0 -/
  ibis : Nat := 0
  /-- COOL_ALERT_N low (R509). Reset: false -/
  coolAlert : Bool := false
  deriving DecidableEq, Repr

/-- The JTAG chain (R510, R511). -/
structure Jtag where
  /-- instruction register of each TAP from TDI: Headwater, Delta A, Delta B, Thiarn dies. Reset: IDCODE, PRESUMED
  IEEE 1149.1 -/
  ir : List Nat := [1, 1, 1, 1, 1, 1, 1]
  /-- boundary cells preloaded, per TAP. Reset: empty -/
  cells : List (List Bool) := [[], [], [], [], [], [], []]
  /-- pins driven by EXTEST, per TAP. Reset: empty -/
  driven : List (List Bool) := [[], [], [], [], [], [], []]
  deriving DecidableEq, Repr


/-! ### The whole state -/

/-- Everything the spec gives the module. -/
structure State where
  /-- variant fused on island 58 (R1, R23). Reset: DM-9140 (DESIGN CHOICE) -/
  variant : Variant
  /-- every register field, key of R492's place and field; an unlisted field holds its reset value (R9, R516) -/
  regs : NMap Nat
  /-- active sets of ST fields (R51): same key; unlisted: reset value -/
  act : NMap Nat
  /-- pending sets of ST fields (R51): same key; unlisted: reset value -/
  pend : NMap Nat
  link : Link
  dqp : Dqp
  mem : Mem
  tiles : NMap Tile
  runnels : Runnels
  flume : Flume
  sched : Sched
  search : Search
  media : Media
  flash : Flash
  prot : Prot
  boot : Boot
  weir : Weir
  ident : Ident
  counters : Counters
  mgmt : Mgmt
  jtag : Jtag
  /-- outputs of the module, oldest first: the model's own record (not the spec's). Reset: empty -/
  out : List Output
  /-- next free value (not the spec's): see Config. Reset: 0 -/
  freeCount : Nat
  /-- commands waiting, first in first out (the model's queue). Reset: empty -/
  pending : List Instr
  deriving DecidableEq, Repr


/-- Peak credit of an island in quanta of 0.5 W, its stack or NAND included (R431). -/
def peakCredit (i : Nat) : Nat :=
  if i < 32 then 100 else if i < 48 then 54 else if i = 50 ∨ i = 54 then 18 else if i = 51 ∨ i = 55 then 12
  else if i = 56 ∨ i = 57 then 50 else if i = 58 ∨ i = 59 then 20 else 180

/-- The module right after reset: powered, its input qualified, start-up in step 1 (R445, R450), nothing in flash, no
image and no fuse programmed. -/
def State.reset : State where
  variant := .dm9140
  regs := []
  act := []
  pend := []
  link := {}
  dqp := {}
  mem := {}
  tiles := []
  runnels := {}
  flume := {}
  sched := {}
  search := {}
  media := {}
  flash := {}
  prot := {}
  boot := {}
  weir := { peaks := (List.range 60).map peakCredit }
  ident := {}
  counters := {}
  mgmt := {}
  jtag := {}
  out := []
  freeCount := 0
  pending := []

end Sys2Proof.Machine
end

