-- ==== Sys2Proof/Machine/Ops.lean ====
section
/-!
DEFINITION. Machine/Ops.lean: the named operations every command uses: registers of the store (R8-R12, R51), islands and
their numbering (R1, R16, R49), cycle counters (R6), device memory and its tags (R100-R108), free values.
-/
namespace Sys2Proof.Machine

/-! ### Registers -/

/-- The key of a field in the register store: island, register, instance, second index, lowest bit. -/
def fieldKey (isl : Nat) (f : Field) (i j : Nat) : Nat := (((isl * 512 + f.reg) * 2048 + i) * 64 + j) * 32 + f.lo

/-- The value of a field as its register shows it (for ST fields, the staged set, R51). -/
def getF (s : State) (isl : Nat) (f : Field) (i : Nat := 0) (j : Nat := 0) : Nat := mget f.rst s.regs (fieldKey isl f i j)

/-- Writes a field; a value beyond its width is cut to it. -/
def setF (s : State) (isl : Nat) (f : Field) (v : Nat) (i : Nat := 0) (j : Nat := 0) : State :=
  { s with regs := mset f.rst s.regs (fieldKey isl f i j) (v % 2 ^ f.w) }

/-- Adds to a saturating counter field (R9). -/
def addF (s : State) (isl : Nat) (f : Field) (n : Nat) (i : Nat := 0) (j : Nat := 0) : State :=
  setF s isl f (min (getF s isl f i j + n) (2 ^ f.w - 1)) i j

/-- Subtracts from a counter field, stopping at 0. -/
def subF (s : State) (isl : Nat) (f : Field) (n : Nat) (i : Nat := 0) (j : Nat := 0) : State :=
  setF s isl f (getF s isl f i j - n) i j

/-- Sets one bit of a field. -/
def setFBit (s : State) (isl : Nat) (f : Field) (b : Nat) (v : Bool) (i : Nat := 0) (j : Nat := 0) : State :=
  setF s isl f (setBit (getF s isl f i j) b v) i j

/-- The active value of an ST field (R51). -/
def getA (s : State) (isl : Nat) (f : Field) (i : Nat := 0) (j : Nat := 0) : Nat := mget f.rst s.act (fieldKey isl f i j)
def setA (s : State) (isl : Nat) (f : Field) (v : Nat) (i : Nat := 0) (j : Nat := 0) : State :=
  { s with act := mset f.rst s.act (fieldKey isl f i j) (v % 2 ^ f.w) }
/-- The pending value of an ST field (R51). -/
def getP (s : State) (isl : Nat) (f : Field) (i : Nat := 0) (j : Nat := 0) : Nat := mget f.rst s.pend (fieldKey isl f i j)
def setP (s : State) (isl : Nat) (f : Field) (v : Nat) (i : Nat := 0) (j : Nat := 0) : State :=
  { s with pend := mset f.rst s.pend (fieldKey isl f i j) (v % 2 ^ f.w) }
/-- Sets an ST field's staged, pending and active values together, as island configuration does (R516). -/
def setST (s : State) (isl : Nat) (f : Field) (v : Nat) (i : Nat := 0) (j : Nat := 0) : State :=
  setA (setP (setF s isl f v i j) isl f v i j) isl f v i j

/-! ### Islands -/

/-- Type of an island (R16). -/
def kindOf (i : Nat) : Kind :=
  if i < 32 then .reach else if i < 48 then .stack
  else if i = 48 ∨ i = 49 ∨ i = 52 ∨ i = 53 then .flash
  else if i = 50 ∨ i = 54 then .sieve else if i = 51 ∨ i = 55 then .media
  else if i = 56 then .intake else if i = 57 then .sched else if i = 58 then .security else .weir

/-- Islands absent in a variant, a mask (R23). -/
def absentMask : Variant → Nat
  | .dm9140 => 0
  | .dm9120 => 0xFF00FFFF0000
  | .dm9140N => 2 ^ 51 + 2 ^ 55
  | .dm9110 => 0xFF00FFFF0000 + 2 ^ 49 + 2 ^ 53

def present (s : State) (i : Nat) : Bool := i < 60 && !bit (absentMask s.variant) i

/-- Present and enabled: islands 56 to 59 always run; the others once the image has configured them (R31, R40, R49). -/
def enabled (s : State) (i : Nat) : Bool := present s i && (decide (56 ≤ i) || (s.boot.applied && bit s.boot.info.islands i))

/-- The module is RUNNING (R441). -/
def running (s : State) : Bool := getF s 59 F.WEIR_STATUS_MSTATE == 1

/-- Started commands run: the module is RUNNING, or HALTING while a halt waits for them (R442). -/
def working (s : State) : Bool := running s || (getF s 59 F.WEIR_STATUS_MSTATE == 2 && s.boot.haltWait)

/-- Reach clocks run: in DP0, and while contexts are saved for an entry to DP2 (R86). -/
def reachClocks (s : State) : Bool :=
  getF s 56 F.DQP_STATUS_PSTATE == 0 || (match s.dqp.pwr with | .entering 2 _ _ false _ => true | _ => false)

/-- Stacks are in self-refresh: from the point of no return of a DP2 entry until the exit from DP2 ends (R86, R88). -/
def selfRefresh (s : State) : Bool :=
  getF s 56 F.DQP_STATUS_PSTATE == 2 || (match s.dqp.pwr with | .entering 2 _ _ true _ => true | _ => false)

/-- A decision is owed for an event (R276). -/
def owe (s : State) (quantum : Bool) : State := { s with sched := { s.sched with owed := s.sched.owed ++ [quantum] } }

/-- A unit has changed state: while the device works, a decision is owed (R276). -/
def unitMoved (s : State) : State := if working s then owe s false else s

/-- Erases stay suspended: from the start of a DP2 entry until the exit from DP2 ends (R86). -/
def erasesHeld (s : State) : Bool :=
  getF s 56 F.DQP_STATUS_PSTATE == 2 || (match s.dqp.pwr with | .entering 2 _ _ _ _ => true | _ => false)

/-- A reach's clock runs and the reach is not OFFLINE: the module RUNNING, in DP0 (R86, R453). -/
def reachLive (s : State) (r : Nat) : Bool :=
  decide (r < 32) && enabled s r && working s && reachClocks s && getF s r F.REACH_STATE_STATE != 2

/-- Cycle counter of an island (R474). -/
def cyc (s : State) (i : Nat) : Nat := mget 0 s.counters.cycles i

/-- OP of the test operation that runs on an island, 0 for none: it takes the island cycle in which it was ordered (R427; DESIGN
CHOICE, notes/assumptions 50). -/
def testOp (s : State) (isl : Nat) : Nat :=
  match mfind s.prot.ordered isl with
  | some x => if x.1 = cyc s isl then x.2 else 0
  | none => 0

/-- Puts an island's counter at no less than `c`. -/
def advanceTo (s : State) (i c : Nat) : State :=
  { s with counters := { s.counters with cycles := mset 0 s.counters.cycles i (max (cyc s i) c % 2 ^ 64) } }

/-- An output of the module. -/
def emit (s : State) (o : Output) : State := { s with out := s.out ++ [o] }

/-- A fresh free value and the state that has used it up. -/
def takeFree (s : State) : W64 × State := (Config.freeValue s.freeCount, { s with freeCount := s.freeCount + 1 })

/-! ### Stack memory (R104-R106) -/

/-- Enabled stacks of die d, in stack order. -/
def stacksOf (s : State) (d : Nat) : List Nat := ((List.range 4).map (4 * d + ·)).filter (fun n => enabled s (32 + n))

def enabledStacks (s : State) : List Nat := (List.range 16).filter (fun n => enabled s (32 + n))

/-- 2 MiB. -/
def MiB2 : Nat := 0x200000

/-- Usable 2 MiB extents of each enabled stack: 72 GiB less its share of the 72 GiB reserve (R104). -/
def extPerStack (s : State) : Nat := let n := (enabledStacks s).length; if n = 0 then 0 else 36864 - ceilDiv 36864 n

/-- Size of die region d in extents (R105). -/
def dieExts (s : State) (d : Nat) : Nat := (stacksOf s d).length * extPerStack s

/-- First extent of die region d (R105). -/
def dieBase (s : State) (d : Nat) : Nat := ((List.range d).map (dieExts s)).foldl (· + ·) 0

/-- The die region of an extent of the address space. -/
def dieOfExt (s : State) (e : Nat) : Option Nat :=
  (List.range 4).find? (fun d => decide (dieBase s d ≤ e) && decide (e < dieBase s d + dieExts s d))

/-- Key of a logical extent. -/
def lextKey (stack span : Nat) : Nat := stack * 65536 + span

/-- The logical extent (stack, span) that holds a stack-memory address, and the byte within it (R106). -/
def logicalAt (s : State) (a : Nat) : Option (Nat × Nat × Nat) :=
  match dieOfExt s (a / MiB2) with
  | none => none
  | some d =>
    let st := stacksOf s d
    let n := st.length
    let o := a - dieBase s d * MiB2
    let span := o / (n * MiB2)
    let g := o % (n * MiB2) / 4096
    match st[g % n]? with
    | none => none
    | some k => some (k, span, g / n * 4096 + o % 4096)

/-! ### Device addresses (R100, R108) -/

/-- Where a device address lies. -/
inductive Region where
  | stack
  /-- scratchpad of a reach at a slot offset -/
  | scratch (reach off : Nat)
  /-- accumulator word: reach, tile, bank, row, column -/
  | acc (reach tile bank row col : Nat)
  /-- object window offset -/
  | window (off : Nat)
  | config
  | none
  deriving DecidableEq, Repr

/-- Tile t of a reach is enabled by the image (R31). -/
def tileEnabled (s : State) (reach t : Nat) : Bool := t < 48 && bit (s.boot.info.tiles[reach]?.getD 0) t

/-- Decodes an address (R100, R105, R108). -/
def regionOf (s : State) (a : Nat) : Region :=
  let o := a % 2 ^ 56
  if a < 2 ^ 56 then (if (dieOfExt s (a / MiB2)).isSome then .stack else .none)
  else if a < 2 * 2 ^ 56 then
    let r := o / 0x2000000
    let so := o % 0x2000000
    if o < 0x40000000 ∧ enabled s r then
      if so < 0x1800000 then .scratch r so
      else if so < 0x1E00000 then
        let t := (so - 0x1800000) / 0x20000
        if tileEnabled s r t then .acc r t (bits so 16 1) (bits so 7 9) (bits so 2 5) else .none
      else .none
    else .none
  else if a < 3 * 2 ^ 56 then (if o < 2 ^ 49 then .window o else .none)
  else if 0x03FF000000000000 ≤ a ∧ a < 0x03FF0000003C0000 then .config
  else .none

/-! ### Bytes, poison and codewords -/

/-- First address of the granule that holds an address: 8 bytes in the scratchpad window, 64 in stack memory (R411). -/
def granule (a : Nat) : Nat := if a < 2 ^ 56 then a / 64 * 64 else a / 8 * 8

/-- Size of that granule. -/
def granuleSize (a : Nat) : Nat := if a < 2 ^ 56 then 64 else 8

/-- A byte of device memory; one never written reads 0 (R222, R424, R425). -/
def rdByte (s : State) (a : Nat) : Byte := mget 0 s.mem.bytes a

/-- `n` bytes from an address. -/
def rdBytes (s : State) (a n : Nat) : List Byte := (List.range n).map (fun i => rdByte s (a + i))

def wrCells (m : List Host.Cell) : Nat → List Byte → List Host.Cell
  | _, [] => m
  | a, b :: bs => wrCells (mset 0 m a b) (a + 1) bs

def poisoned (s : State) (a : Nat) : Bool := (mfind s.mem.poison (granule a)).isSome

/-- Some byte of [a, a+n) lies in a poisoned granule. -/
def poisonedIn (s : State) (a n : Nat) : Bool := s.mem.poison.any (fun p => decide (p.1 < a + n) && decide (a < p.1 + granuleSize p.1))

/-- Bytes that share a valid flag: a word of 8 bytes, a granule of 4 KiB in stack memory (R424, R425). -/
def validUnit (a : Nat) : Nat := if a < 2 ^ 56 then 4096 else 8

/-- The valid flag of the byte's word or granule is set. -/
def validAt (s : State) (a : Nat) : Bool := inRanges s.mem.valid a

/-- The valid flags after a write of `n` bytes: set (R424, R425). -/
def validated (m : NMap Nat) (a n : Nat) : NMap Nat :=
  let u := validUnit a
  if n = 0 then m else rangeAdd m (a / u * u) ((a + n + u - 1) / u * u)

/-- Writes bytes. A granule covered whole loses its poison; a narrower write leaves it poisoned (R416, R423). -/
def wrBytes (s : State) (a : Nat) (l : List Byte) : State :=
  let whole (g : Nat) : Bool := decide (a ≤ g) && decide (g + granuleSize g ≤ a + l.length)
  { s with mem := { s.mem with bytes := wrCells s.mem.bytes a l, poison := s.mem.poison.filter (fun p => !whole p.1), valid := validated s.mem.valid a l.length } }

/-- Marks every granule of [a, a+n) poisoned. -/
def poisonRange (s : State) (a n : Nat) : State :=
  let gs := (List.range (n / granuleSize a + 2)).map (fun i => granule a + i * granuleSize a)
  { s with mem := { s.mem with
    poison := (gs.filter (fun g => decide (g < a + n))).foldl (fun m g => mins m g ()) s.mem.poison } }

/-- Writes bytes that carry poison: the granules they touch become poisoned where any byte of them is (R416). -/
def wrPBytes (s : State) (a : Nat) (l : List PByte) : State :=
  let s := wrBytes s a (l.map (·.b))
  if l.any (·.p) then
    (l.zipIdx.filter (fun x => x.1.p)).foldl (fun s x => { s with mem := { s.mem with poison := mins s.mem.poison (granule (a + x.2)) () } }) s
  else s

/-- Bytes with their poison. -/
def rdPBytes (s : State) (a n : Nat) : List PByte := (List.range n).map (fun i => ⟨rdByte s (a + i), poisoned s (a + i)⟩)

/-- Clears the valid flags of [a, a+n): bytes read 0, no poison (R416, R424, R425). -/
def clearMem (s : State) (a n : Nat) : State :=
  { s with mem := { s.mem with bytes := mclear s.mem.bytes a n, poison := mclear s.mem.poison a n, valid := rangeDel s.mem.valid a (a + n) } }

/-! ### Contexts (R266, R270, R275) -/

def findCtx (s : State) (slot : Nat) : Option Ctx := s.sched.ctxs.find? (fun c => c.slot == slot)

def updCtx (s : State) (slot : Nat) (f : Ctx → Ctx) : State :=
  { s with sched := { s.sched with ctxs := s.sched.ctxs.map (fun c => if c.slot = slot then f c else c) } }

/-- A context that holds its residency slots: RESIDENT, LEAVING or ENTERING (R270). -/
def Ctx.holds (c : Ctx) : Bool := c.st == .resident || c.st == .leaving || c.st == .entering

/-- The context in a residency slot of a reach. -/
def residentAt (s : State) (reach slot : Nat) : Option Ctx :=
  s.sched.ctxs.find? (fun c => c.holds && c.rslot == slot && bit c.reaches reach)

/-- A reach holds a context for the turn it last applied: (mask, group) as mask * 65,536 + group (R284, R286). -/
def turnHolds (s : State) (reach : Nat) (c : Ctx) : Bool :=
  match mfind s.sched.turnHeld reach with
  | none => false
  | some x => c.group != x % 65536 && (c.reaches &&& (x / 65536)) != 0

/-- The context in a residency slot is held by a turn, so its queued passes do not start (R284). -/
def slotHeld (s : State) (reach slot : Nat) : Bool :=
  match residentAt s reach slot with
  | some c => turnHolds s reach c
  | none => false

/-- First slot offset of a context's scratchpad region, and its end; the register area is its top (R210, R275). -/
def Ctx.scratchBase (c : Ctx) : Nat := if c.rslot = 0 then 0 else (24 - c.scratch) * 0x100000
def Ctx.scratchEnd (c : Ctx) : Nat := c.scratchBase + c.scratch * 0x100000
def Ctx.regArea (c : Ctx) : Nat := c.scratchEnd - (4096 + c.rills * 32768)

/-- Domain of a namespace (R69 text, R102). -/
def domOf (nsid : Nat) : Nat := nsid - 1

/-! ### Extents -/

/-- The tag's domain (R102). -/
def Tag.dom : Tag → Nat
  | .arena d _ => d
  | .save d _ => d

/-- The context that owns a tagged extent (R120). -/
def Tag.ctx : Tag → Nat
  | .arena _ c => c
  | .save _ c => c

/-- Physical extents of a stack in use: backing and frames. -/
def usedExts (s : State) (stack : Nat) : Nat :=
  (s.mem.exts.filter (fun p => (p.2.phys.map (·.1)) == some stack)).length
    + (s.mem.frames.filter (fun p => p.1 / 65536 == stack)).length

/-- Unit state of a stack (R140): 0 ONLINE, 1 DRAINING, 2 OFFLINE, 3 TESTING, 4 JOINING. -/
def stkState (s : State) (stack : Nat) : Nat := getF s (32 + stack) F.STK_STATE_STATE

/-- Extents of a stack open to allocation: all when ONLINE, the released steps when JOINING (R137, R138). -/
def openExts (s : State) (stack : Nat) : Nat :=
  if stkState s stack = 0 then extPerStack s
  else if stkState s stack = 4 then extPerStack s * getF s (32 + stack) F.STK_STATE_JOIN_STEP / 8
  else 0

/-- Free extents of a stack available to allocation. -/
def freeExts (s : State) (stack : Nat) : Nat := if enabled s (32 + stack) then openExts s stack - usedExts s stack else 0

/-- Whether a physical extent of a stack is in use. -/
def physUsed (s : State) (stack e : Nat) : Bool :=
  s.mem.exts.any (fun p => p.2.phys == some (stack, e)) || (mfind s.mem.frames (stack * 65536 + e)).isSome

/-- The lowest free physical extent of a stack. -/
def lowestPhys (s : State) (stack : Nat) : Nat :=
  ((List.range (usedExts s stack + 1)).find? (fun e => !physUsed s stack e)).getD 0

/-- A physical extent is allocated: it holds data from now on (R425). -/
def holdExt (s : State) (stack e : Nat) : State := { s with prot := { s.prot with used := mins s.prot.used (stack * 65536 + e) () } }

/-- Of a list of stacks, the one with the most free extents, the lowest number on a tie; none without one (R136, R518). -/
def roomiest (s : State) (l : List Nat) : Option Nat :=
  l.foldl (fun b n =>
    match b with
    | none => if 0 < freeExts s n then some n else none
    | some m => if freeExts s m < freeExts s n then some n else some m) none

/-- Free extents of a die region. -/
def dieFree (s : State) (d : Nat) : Nat := ((stacksOf s d).map (freeExts s)).foldl (· + ·) 0

/-- The die region a DIE value names: 0xFF takes the one with the most free extents, lowest die on a tie (R115). -/
def pickDie (s : State) (die : Nat) : Nat :=
  if die < 4 then die
  else (List.range 4).foldl (fun b d => if dieFree s b < dieFree s d then d else b) 0

end Sys2Proof.Machine
end

