-- ==== Sys2Proof/Machine/Count.lean ====
section
/-!
DEFINITION. Machine/Count.lean: the event counters of every island (R476, R478) and their samples (R479-R481), which the
commands that are such events advance.
-/
namespace Sys2Proof.Machine

/-- The work that produces flits waits while 512 flits are queued, behind work that waits already (R522). -/
def linkRoom (s : State) : Bool := decide (s.link.queue.length < 512) && s.link.outbox.isEmpty

/-- Records not consumed in an island's sample buffer. -/
def smpLevel (s : State) (isl : Nat) : Nat := (getF s isl F.CNT_SMP_HEAD_HEAD + 65536 - getF s isl F.CNT_SMP_TAIL_TAIL) % 65536

/-- Writes the eight words of a record into its slot. -/
def putWords (isl : Nat) : Nat → List Byte → State → State
  | _, [], s => s
  | i, b0 :: b1 :: b2 :: b3 :: l, s => putWords isl (i + 1) l (setF s isl F.CNT_SMP_DATA_DATA (ofBytes [b0, b1, b2, b3]) i)
  | _, _, s => s

/-- Writes a 32-byte sample record, or counts it lost; the watermark interrupt, which a count below the watermark arms, joins the
flits to send (R479, R481). -/
def writeSample (s : State) (isl : Nat) (rec' : List Byte) : State :=
  if 64 ≤ smpLevel s isl then addF s isl F.CNT_SMP_LOST_COUNT 1
  else
    let below := decide (smpLevel s isl < getF s isl F.CNT_SMP_CFG_WATERMARK)
    let s := if below then { s with counters := { s.counters with irqSent := setBit s.counters.irqSent isl false } } else s
    let h := getF s isl F.CNT_SMP_HEAD_HEAD
    let s := putWords isl (h % 64 * 8) rec' s
    let s := setF s isl F.CNT_SMP_HEAD_HEAD ((h + 1) % 65536)
    if smpLevel s isl = getF s isl F.CNT_SMP_CFG_WATERMARK ∧ getF s isl F.CNT_SMP_CFG_IRQ_EN = 1 ∧ bit s.counters.irqSent isl = false then
      let f : Flit := ⟨8, 0, toBytes 2 (getF s isl F.CNT_SMP_CFG_VECTOR) ++ [0, 0, 0, 0], [], 0, 0, 0, false⟩
      { s with
        counters := { s.counters with irqSent := setBit s.counters.irqSent isl true }
        link := if linkRoom s then { s.link with queue := s.link.queue ++ [f] } else { s.link with outbox := s.link.outbox ++ [f] } }
    else s

/-- The 32 bytes of a record (R481). -/
def sampleRecord (cycle counter : Nat) (skid attr : Bool) (x : Src) : List Byte :=
  toBytes 8 cycle ++ toBytes 1 counter ++ toBytes 1 (b2n skid + 2 * b2n attr) ++ toBytes 2 x.ctx ++ toBytes 1 x.unit ++ toBytes 1 x.slot
    ++ toBytes 1 x.rill ++ toBytes 1 0 ++ toBytes 8 x.pc ++ toBytes 8 x.info

/-- Counter k of an island counts an event of a code, sub-unit and residency slot (0xFF: none) (R476, R478). -/
def selects (s : State) (isl k code unit slot : Nat) : Bool :=
  bit (getF s isl F.CNT_CTRL_EN) k && getF s isl F.CNT_SEL_EVENT k == code
    && (getF s isl F.CNT_SEL_UNIT_EN k == 0 || getF s isl F.CNT_SEL_UNIT k == unit)
    && (getF s isl F.CNT_SEL_SLOT k == 0 || getF s isl F.CNT_SEL_SLOT k == slot + 1)

/-- Events of size 1 per cycle, which the model counts over many cycles at once (R478). -/
def perCycle (code : Nat) : Bool := [0x01, 0x02, 0x03, 0x11, 0x17, 0x1D, 0x1E, 0x33].contains code

/-- The sub-unit a record without a source names: the selected one (R481). -/
def selectedUnit (s : State) (isl k : Nat) : Nat := if getF s isl F.CNT_SEL_UNIT_EN k = 1 then getF s isl F.CNT_SEL_UNIT k else 0

/-- Samples of a counter that passes the multiples of 2^`sh` above `v`, `m` of them, in `n` cycles that have passed, or by one event
of this cycle (n = 0): what the buffer has no room for is lost (R479). -/
def cycleSamples (s : State) (isl k sh v m n : Nat) : State :=
  let room := min m (64 - smpLevel s isl)
  let s' := (List.range room).foldl (fun t j =>
    let c := if n = 0 then cyc s isl else min (cyc s isl) (cyc s isl + ((v / 2 ^ sh + 1 + j) * 2 ^ sh - v) - n)
    writeSample t isl (sampleRecord c k false false { unit := selectedUnit s isl k })) s
  if room < m then addF s' isl F.CNT_SMP_LOST_COUNT (m - room) else s'

/-- The source of an event, as a sample captures it (R480): 0 none, else the kind and the identity that `Capture` gives. -/
structure Source where
  kind : Nat := 0
  unit : Nat := 0
  op : Option OpRef := none
  src : Src := {}
  early : Bool := false

/-- Adds to one counter and takes its samples (R476-R480). -/
def countOne (isl code unit slot n : Nat) (x : Source) (s : State) (k : Nat) : State :=
  if selects s isl k code unit slot then
    let v := mget 0 s.counters.values (8 * isl + k)
    let w := min (v + n) (2 ^ 48 - 1)
    let s := { s with counters := { s.counters with values := mset 0 s.counters.values (8 * isl + k) w } }
    let s := if w = 2 ^ 48 - 1 then setF s isl F.CNT_HI_SAT 1 k else s
    let sh := getF s isl F.CNT_SEL_SHIFT k
    if getF s isl F.CNT_SEL_SAMPLE k = 1 ∧ v / 2 ^ sh < w / 2 ^ sh ∧ v < 2 ^ 48 - 1 then
      let m := w / 2 ^ sh - v / 2 ^ sh
      if x.kind = 0 then cycleSamples s isl k sh v m (if perCycle code then n else 0)
      else
        let s := if m = 1 then s else addF s isl F.CNT_SMP_LOST_COUNT (m - 1)
        if s.counters.captures.any (fun c => c.island == isl && c.counter == k) then addF s isl F.CNT_SMP_LOST_COUNT 1
        else { s with counters := { s.counters with captures := s.counters.captures ++ [⟨isl, k, x.kind, x.unit, x.op, x.src, x.early, none⟩] } }
    else s
  else s

/-- An event of size `n` on an island (R476-R480). -/
def countSrc (s : State) (isl code unit slot n : Nat) (x : Source) : State :=
  if getF s isl F.CNT_CTRL_EN = 0 then s else (List.range 8).foldl (countOne isl code unit slot n x) s

/-- An event without a source. -/
def countEv (s : State) (isl code unit n : Nat) (slot : Nat := 0xFF) : State := countSrc s isl code unit slot n {}

/-- A source issues an instruction or starts a pass: the samples that waited for it, those of `was`, capture it (R480). -/
def capturePoint (was : List Capture) (s : State) (isl : Nat) (x : Source) : State :=
  if was.isEmpty then s
  else
    let mine (c : Capture) : Bool :=
      was.contains c && c.island == isl && c.source == x.kind && c.unit == x.unit && c.op == x.op && c.got.isNone
    { s with counters := { s.counters with
      captures := s.counters.captures.map (fun c => if mine c then { c with got := some (x.src, cyc s isl, !c.early) } else c) } }

/-- Bytes that port `p` of an island moved (R482). -/
def portBytes (s : State) (isl p n : Nat) : State :=
  { s with counters := { s.counters with bytes := mset 0 s.counters.bytes (8 * isl + p) (mget 0 s.counters.bytes (8 * isl + p) + n) } }

/-! ### Clocks (R6, R86, R441, R474) -/

/-- An island's clock runs: island 59 while the module is powered; the others while it is neither HALTED nor in reset, those of
reaches, stacks and media not while power fails, and the reaches only while reach clocks run, and not while OFFLINE by fault
(R86, R440, R441, R447). -/
def clockRuns (s : State) (i : Nat) : Bool :=
  s.boot.powered && (i == 59 || (!(s.boot.resetPin && getF s 59 F.WEIR_STATUS_MSTATE == 0) && enabled s i && getF s 59 F.WEIR_STATUS_MSTATE != 3
    && (getF s 59 F.WEIR_STATUS_MSTATE != 4 || !([.reach, .stack, .media].contains (kindOf i)))
    && (decide (32 ≤ i) || (reachClocks s && !(getF s i F.REACH_STATE_STATE == 2 && bit s.boot.faulted i)))))

/-- The events that are cycles of an island: all, at the floor credit, with PEAK reduced (R478). -/
def countCycles (s : State) (i n : Nat) : State :=
  let s := countEv s i 0x01 0 n
  let s := if getF s 59 F.WEIR_GRANT_AT_FLOOR i = 1 then countEv s i 0x02 0 n else s
  if getF s 59 F.WEIR_GRANT_THROTTLED i = 1 then countEv s i 0x03 0 n else s

/-- Cycles of [c, c + n) in which a LOAD of a tile waits for an array row that the weight port does not hold (R255). -/
def TPass.lateIn (p : TPass) (c n : Nat) : Nat := match p.due with | some d => c + n - max c d | none => 0

/-- The LOADs of a reach wait n cycles from cycle c on: a row that has not come is wanted later (R255). -/
def lateLoads (s : State) (reach c n : Nat) : State :=
  { s with tiles := s.tiles.map (fun x =>
      if x.1 / 64 = reach then
        (x.1, { x.2 with flight := x.2.flight.map (fun p => { p with due := p.due.map (· + p.lateIn c n) }) })
      else x) }

/-- Cycles of n in which the LOADs that an engine feeds are delayed (R255). -/
def loadDelay (s : State) (reach e c n : Nat) : Nat :=
  (s.tiles.map (fun x => if x.1 / 64 = reach then
    (x.2.flight.map (fun p => if bits p.desc 38 3 = e then p.lateIn c n else 0)).foldl max 0 else 0)).foldl max 0

/-- The program at the head of a program slot. -/
def headOf (s : State) (reach e slot : Nat) : Option Prog := (mget [] s.flume.progs ((reach * 8 + e) * 2 + slot)).head?

/-- A program of an engine's slot as the source of an event, at one of its instructions (R480, R481). -/
def Prog.source (p : Prog) (e slot pc : Nat) : Source :=
  { kind := 3, unit := e * 2 + slot, op := some p.op, src := { ctx := p.op.ctx, unit := e, slot := slot, pc := p.addr + 16 * pc } }

/-- An event of an engine's program slot, with its program as source (R478, R480). -/
def engineEv (s : State) (reach e slot code n : Nat) : State :=
  match headOf s reach e slot with
  | some p => countSrc s reach code e slot n (p.source e slot p.last)
  | none => countEv s reach code e n

/-- Cycles in which a read waits only for tokens do not count toward the timeout of its program (R258). -/
def noTimeout (s : State) (reach e n : Nat) : State :=
  { s with flume := { s.flume with progs := s.flume.progs.map (fun x =>
      if x.1 / 2 = reach * 8 + e then
        (x.1, match x.2 with
          | p :: l =>
            (if p.tokens then
              { p with waitAt := p.waitAt.map (· + n), xfers := p.xfers.map (fun t => { t with held := t.held.map (· + n) }) } else p) :: l
          | [] => [])
      else x) } }

/-- The stall counts of an engine over n cycles from cycle c on: reads that wait only for tokens, and emits that wait on their
destination or LOADs that are delayed; a cycle counts once in each (R264). -/
def engineStalls (s : State) (reach e c n : Nat) : State :=
  let slots (p : Prog → Bool) : Option Nat := [0, 1].find? (fun k => ((headOf s reach e k).map p).getD false)
  let s := match slots (·.tokens) with
    | some k => engineEv (noTimeout (addF s reach F.FLUME_STALL_SLUICE_COUNT n e) reach e n) reach e k 0x1D n
    | none => s
  match slots (fun p => p.xfers.any (·.held.isSome)) with
  | some k => engineEv (addF s reach F.FLUME_STALL_DEST_COUNT n e) reach e k 0x1E n
  | none =>
    let m := loadDelay s reach e c n
    if m = 0 then s else engineEv (addF s reach F.FLUME_STALL_DEST_COUNT m e) reach e 0 0x1E m

/-- What waits on an island in n cycles from cycle c on: requests at its sluices, engines, LOADs (R255, R264, R265). -/
def countStalls (s : State) (i c n : Nat) : State :=
  let s := (s.flume.sluices.filter (fun x => x.1 / 16 == i && !x.2.waiting.isEmpty)).foldl (fun s x =>
    let s := addF s i F.SLUICE_STALLS_COUNT n (x.1 % 16)
    if 32 ≤ i ∧ i < 48 then countEv s i 0x33 (x.1 % 16) n else s) s
  if 32 ≤ i then s else lateLoads ((List.range 8).foldl (fun s e => engineStalls s i e c n) s) i c n

/-- A rill could issue in this cycle. -/
def rillReady (s : State) (reach runnel port : Nat) : Bool :=
  s.runnels.rills.any (fun p => p.1 / 32 == 4 * reach + runnel && p.1 % 2 == port && p.2.wait == .none)

/-- Issue ports of a reach with no ready rill, over n cycles (R211, R478). -/
def countIdle (s : State) (reach n : Nat) : State :=
  if 32 ≤ reach then s
  else (List.range 8).foldl (fun s k => if rillReady s reach (k / 2) (k % 2) then s else countEv s reach 0x11 (k / 2) n) s

/-- Time passes on an island up to a cycle an event names. -/
def passTo (s : State) (i c : Nat) : State :=
  let n := c - cyc s i
  if n = 0 then s else countIdle (countCycles (countStalls (advanceTo s i c) i (cyc s i) n) i n) i n

/-- One cycle of an island. -/
def tickIsland (s : State) (i : Nat) : State :=
  let t := { s with counters := { s.counters with cycles := mset 0 s.counters.cycles i ((cyc s i + 1) % 2 ^ 64) } }
  countIdle (countCycles (countStalls t i (cyc s i) 1) i 1) i 1

/-- One cycle of every island whose clock runs. -/
def tick (s : State) : State := ((List.range 60).filter (clockRuns s)).foldl tickIsland s

/-! ### The alert of the management port (R508) -/

/-- Some register of island 59, or of any island for PROT_STATUS, holds a non-zero value in a field whose reset is 0. -/
def anyListed (s : State) (f : Field) : Bool := s.regs.any (fun p => p.1 / 2 ^ 22 % 512 == f.reg && p.1 % 32 == f.lo)

/-- The alert condition (R508); PROT_SUM is non-zero when some PROT_STATUS is (R430). -/
def alertCond (s : State) : Bool :=
  anyListed s F.TEL_TEMP_THROT || anyListed s F.TEL_TEMP_CRIT || getF s 59 F.WEIR_STATUS_FEED_FAULT == 1
    || getF s 59 F.WEIR_HOLDUP_DEGRADED == 1 || !running s || anyListed s F.PROT_STATUS_OVF || anyListed s F.PROT_STATUS_UE

/-- MGMT_ALERT_N follows the condition; in I3C mode each rise raises an in-band interrupt (R508). -/
def noteAlert (s : State) : State :=
  let c := alertCond s
  { s with mgmt := { s.mgmt with alert := c, ibis := s.mgmt.ibis + b2n (s.boot.i3c && c && !s.mgmt.alert) } }

end Sys2Proof.Machine
end

