-- ==== Sys2Proof/Machine/LinkOps.lean ====
section
/-!
DEFINITION. Machine/LinkOps.lean: the sending side of the main link (R64-R67, R519, R522): queueing a flit, sending it
when the link, the partner's INIT, a credit and the replay buffer allow, and the outputs built on it.
-/
namespace Sys2Proof.Machine

def updLink (s : State) (f : Link → Link) : State := { s with link := f s.link }

/-- The ACK every flit carries: the last number received in order, 4,095 when none (R64). -/
def ackNow (l : Link) : Nat := (l.rxSeq + 4095) % 4096

/-- The credit byte and ACK as now, put into a flit. -/
def stamp (l : Link) (f : Flit) : Flit := { f with ack := ackNow l, freed := l.freed }

/-- The 256 bytes of a flit (R64): TYPE, LEN, HDR, the body with zeros beyond it, SEQ and ACK, CREDIT, CRC-32C. -/
def Flit.wire (f : Flit) : List Byte :=
  let head := toBytes 1 f.ty ++ toBytes 1 f.len ++ (f.hdr ++ List.replicate 6 0).take 6 ++ (f.body ++ List.replicate 240 0).take 240
    ++ toBytes 3 (f.seq % 4096 + 4096 * (f.ack % 4096)) ++ toBytes 1 f.freed
  head ++ toBytes 4 (crc32c head)

/-- Sequenced flits can be sent (R519, R522). -/
def canSend (l : Link) : Bool := l.session && l.l0 && l.hostInit

/-- Data bytes of a flit (R65, R482): those of PULL_DATA and PUSH. -/
def payload (ty len : Nat) : Nat := if ty = 6 ∨ ty = 7 then len else 0

/-- Sends queued flits, oldest first, while a credit and one of the 512 replay places is free (R66, R519). -/
def pumpLink : Nat → State → State
  | 0, s => s
  | n + 1, s =>
    let l := s.link
    match l.queue with
    | [] => s
    | f :: q =>
      if canSend l && decide (0 < l.credits) && decide (l.held.length < 512) then
        let g := { stamp l f with seq := l.txSeq, paid := true }
        let l := { l with queue := q ++ l.outbox.take 1, outbox := l.outbox.drop 1, held := l.held ++ [g], txSeq := (l.txSeq + 1) % 4096, credits := l.credits - 1
                          ackSent := g.ack, freedSent := l.freed }
        let s := emit { s with link := l } (.flit g.wire)
        pumpLink n (portBytes (countEv s 56 0x61 0 1) 56 1 (payload g.ty g.len))
      else s

def pump (s : State) : State := pumpLink (s.link.queue.length + s.link.outbox.length) s

/-- Produces a flit for the host: it joins the queue, or the work that waits for room there, and leaves when it can (R522). -/
def sendFlit (s : State) (ty len : Nat) (hdr body : List Byte) : State :=
  let f : Flit := ⟨ty, len, hdr, body, 0, 0, 0, false⟩
  pump (updLink s fun l => if linkRoom s then { l with queue := l.queue ++ [f] } else { l with outbox := l.outbox ++ [f] })

/-- Sends an IDLE or LINK flit: not sequenced, not held (R519). -/
def sendBare (s : State) (ty : Nat) (hdr : List Byte) : State :=
  let l := s.link
  let g := stamp l ⟨ty, 0, hdr, [], (l.txSeq + 4095) % 4096, 0, 0, true⟩
  let s := emit { s with link := { l with ackSent := g.ack, freedSent := l.freed } } (.flit g.wire)
  if ty = 0 then s else countEv s 56 0x61 0 1

/-- PUSH flits of at most 232 bytes that write `l` at a host address (R65, R67). -/
def pushChunks : Nat → State → Nat → List Byte → State
  | 0, s, _, _ => s
  | n + 1, s, a, l =>
    if l.isEmpty then s
    else
      let c := l.take 232
      pushChunks n (sendFlit s 7 c.length [0, 0, 0, 0, 0, 0] (toBytes 8 a ++ c)) (a + c.length) (l.drop 232)

def push (s : State) (a : Nat) (l : List Byte) : State := pushChunks (l.length / 232 + 1) s a l

/-- INTERRUPT with a vector (R65). -/
def interrupt (s : State) (vec : Nat) : State := sendFlit s 8 0 (toBytes 2 vec ++ [0, 0, 0, 0]) []

end Sys2Proof.Machine
end

