-- ==== Sys2Proof/Machine/Flags.lean ====
section
/-!
DEFINITION. Machine/Flags.lean: the error flags of the protection blocks (R415, R426, R429, R430) and the fault flags
of units.
-/
namespace Sys2Proof.Machine

/-- Records an event of an array in PROT_LAST (R429). -/
def protLast (s : State) (isl arr : Nat) (ue : Bool) (unit addr : Nat) : State :=
  let s := setF s isl F.PROT_LAST_ARRAY arr
  let s := setF s isl F.PROT_LAST_UE (b2n ue)
  let s := setF s isl F.PROT_LAST_VALID 1
  let s := setF s isl F.PROT_LAST_UNIT unit
  let s := setF s isl F.PROT_LAST_ADDR_LO_ADDR addr
  setF s isl F.PROT_LAST_ADDR_HI_ADDR (addr / 2 ^ 32)

/-- A corrected event of an array: its count, its bucket and, above THRESH, the overflow signal (R426). -/
def correctedEvent (s : State) (isl arr unit addr : Nat) : State :=
  let s := countEv (protLast (addF s isl F.PROT_CE_COUNT_COUNT 1 arr) isl arr false unit addr) isl 0x04 arr 1
  let s := setF s isl F.PROT_BUCKET_LEVEL (min (getF s isl F.PROT_BUCKET_LEVEL arr + 1) 255) arr
  if getF s isl F.PROT_CE_CFG_THRESH < getF s isl F.PROT_BUCKET_LEVEL arr ∧ bit (getF s isl F.PROT_STATUS_OVF) arr = false then
    let s := noteAlert (setFBit s isl F.PROT_STATUS_OVF arr true)
    if getF s 59 F.PROT_IRQ_EN = 1 then interrupt s (getF s 59 F.PROT_IRQ_VECTOR) else s
  else s

/-- An uncorrectable event of an array (R415, R426). -/
def uncorrectableEvent (s : State) (isl arr unit addr : Nat) : State :=
  noteAlert (setFBit (protLast (addF s isl F.PROT_UE_COUNT_COUNT 1 arr) isl arr true unit addr) isl F.PROT_STATUS_UE arr true)

/-- Island, array and array-local address of the codeword of a device-memory address (R411, R428, R429): a stack's memory, a reach's scratchpad or its
accumulator banks. -/
def arrayOf (s : State) (a : Nat) : Option (Nat × Nat × Nat) :=
  match regionOf s a with
  | .stack => match logicalAt s a with
    | some (k, span, w) =>
      let ph := ((mfind s.mem.exts (lextKey k span)).bind (·.phys)).getD (k, span)
      some (32 + ph.1, 0, (ph.2 * MiB2 + w) / 64 * 64)
    | none => none
  | .scratch r off => some (r, 0, off / 8 * 8)
  | .acc r _ _ _ _ => some (r, 1, (a % 0x2000000 - 0x1800000) / 8 * 8)
  | _ => none

/-- An event in an array of an island at a codeword whose place is not stated: a free address (R426). -/
def eventIn (s : State) (isl arr unit : Nat) (ue : Bool) : State :=
  let f := takeFree s
  let a := f.1.toNat / 8 * 8
  if ue then uncorrectableEvent f.2 isl arr unit a else correctedEvent f.2 isl arr unit a

/-- The control SRAM of an island as an array of R428; those of reaches and media islands have no per-array registers. -/
def sramArray (isl : Nat) : Option Nat :=
  match kindOf isl with
  | .reach | .media => none
  | .stack | .sieve => some 1
  | .flash => some 3
  | _ => some 0

/-- What an operation meets in control SRAM is counted; whether the operation fails with 0x4001. A table held in two copies serves
the read from the other one and rewrites the bad word (R414, R420). -/
def sramMeets (s : State) (u : SramUpset) : State × Bool :=
  let ev (isl : Nat) (ue : Bool) : State := match sramArray isl with | some arr => if enabled s isl then eventIn s isl arr 0 ue else s | none => s
  match u with
  | .none => (s, false)
  | .fixed isl => (ev isl false, false)
  | .copy isl => (ev isl true, false)
  | .lost isl => (ev isl true, true)

/-- An uncorrectable codeword found at an address: the granule is poisoned and the event counted, once (R415). -/
def markUncorrectable (s : State) (a : Nat) : State :=
  if poisoned s a then s
  else
    let s := { s with mem := { s.mem with poison := mins s.mem.poison (granule a) () } }
    match arrayOf s a with
    | some (isl, arr, off) => uncorrectableEvent s isl arr 0 off
    | none => s

end Sys2Proof.Machine
end

