-- ==== Sys2Proof/Machine/TierOps.lean ====
section
/-!
DEFINITION. Machine/TierOps.lean: what every user of the tiers shares: the data of an object (R297), the headgate
(R120), eviction (R118), frames (R518), arenas and save areas (R269, R278), and the object window (R109-R113).
-/
namespace Sys2Proof.Machine

/-! ### Object data in tier 2 -/

/-- Key of a 4 KiB block of a SPACE (R375). -/
def blockKey (space blk : Nat) : Nat := space * 2 ^ 59 + blk

def zeroBlock : List Byte := List.replicate 4096 0

/-- A 4 KiB block of tier 2: none when it is lost or uncorrectable (0x3001); unmapped blocks read as zeros (R377). -/
def rdBlock (s : State) (space blk : Nat) : Option (List Byte) :=
  if (mfind s.flash.lostBlocks (blockKey space blk)).isSome then none
  else some ((mfind s.flash.blocks (blockKey space blk)).getD zeroBlock)

def findObj (s : State) (nsid id : Nat) : Option Obj := s.search.objs.find? (fun o => o.nsid == nsid && o.id == id)

def updObj (s : State) (nsid id : Nat) (f : Obj → Obj) : State :=
  { s with search := { s.search with objs := s.search.objs.map (fun o => if o.nsid = nsid ∧ o.id = id then f o else o) } }

/-- SPACE and block number of an object's k-th 4 KiB block (R297, R375). -/
def walkExtents : List (Nat × Nat) → Nat → Option Nat
  | [], _ => none
  | (a, n) :: l, k => if k < n then some (a + k) else walkExtents l (k - n)

def Obj.block (o : Obj) (k : Nat) : Option (Nat × Nat) :=
  match o.storage with
  | .host l => (walkExtents l k).map (fun b => (o.nsid, b))
  | .device u n => if k < 8 * n then some (64 + o.nsid, 8 * u + k) else none

/-- `n` bytes of an object from an offset; none when a block of them is uncorrectable. -/
def objBytes (s : State) (o : Obj) (off n : Nat) : Option (List Byte) :=
  let k0 := off / 4096
  let bs := (List.range ((off + n + 4095) / 4096 - k0)).map (fun i =>
    match o.block (k0 + i) with
    | some (sp, b) => rdBlock s sp b
    | none => some zeroBlock)
  if bs.any (·.isNone) then none else some (slice (bs.filterMap id).flatten (off % 4096) n)

/-- The bytes a tier-1 copy holds: those of the object's blocks as last written, whatever became of the media since
(R131: a reference already satisfied is not revisited). -/
def objCopy (s : State) (o : Obj) (off n : Nat) : List Byte :=
  let k0 := off / 4096
  slice (((List.range ((off + n + 4095) / 4096 - k0)).map (fun i =>
    match o.block (k0 + i) with
    | some (sp, b) => (mfind s.flash.blocks (blockKey sp b)).getD zeroBlock
    | none => zeroBlock)).flatten) (off % 4096) n

/-! ### The headgate (R120) -/

/-- Stack memory the domain may still be charged, against its active limit. -/
def stackWithin (s : State) (d mib : Nat) : Bool :=
  decide (getF s 57 F.HG_STACK_USED_MIB d + mib ≤ 1024 * getA s 57 F.HG_STACK_LIM_GIB d)
def saveWithin (s : State) (d mib : Nat) : Bool :=
  decide (getF s 57 F.HG_SAVE_USED_MIB d + mib ≤ 1024 * getA s 57 F.HG_SAVE_LIM_GIB d)
def deny (s : State) (d : Nat) : State := addF s 57 F.HG_DENY_COUNT 1 d

def chargeStack (s : State) (d mib : Nat) : State := setF s 57 F.HG_STACK_USED_MIB (getF s 57 F.HG_STACK_USED_MIB d + mib) d
def unchargeStack (s : State) (d mib : Nat) : State := subF s 57 F.HG_STACK_USED_MIB mib d

/-! ### Tier-1 pages -/

/-- Page size of a grain; a tensor is one page of the object's size (R111, R115). -/
def pageBytes (o : Obj) : Nat := if o.grain = 1 then 65536 else if o.grain = 2 then MiB2 else max o.size 1

/-- Number of pages of an object. -/
def pageCount (o : Obj) : Nat := if o.grain = 0 then 1 else ceilDiv o.size (pageBytes o)

def findPage (s : State) (nsid obj idx : Nat) : Option Page :=
  s.mem.pages.find? (fun p => p.nsid == nsid && p.obj == obj && p.idx == idx)

def updPage (s : State) (nsid obj idx : Nat) (f : Page → Page) : State :=
  { s with mem := { s.mem with pages := s.mem.pages.map (fun p => if p.nsid = nsid ∧ p.obj = obj ∧ p.idx = idx then f p else p) } }

/-- Takes one 64 KiB place, or the whole extent, out of a FRAME extent; an empty one is FREE again and uncharged. -/
def freeFrame (small : Bool) (s : State) (fr : Nat × Nat) : State :=
  let k := fr.1 * 65536 + fr.2
  match mfind s.mem.frames k with
  | none => s
  | some x =>
    if small ∧ 1 < x.used then { s with mem := { s.mem with frames := mins s.mem.frames k { x with used := x.used - 1 } } }
    else unchargeStack { s with mem := { s.mem with frames := mdel s.mem.frames k } } x.dom 2

/-- Whether a page is a 64 KiB one. -/
def smallPage (s : State) (p : Page) : Bool :=
  match findObj s p.nsid p.obj with
  | some o => o.grain == 1
  | none => false

def onlineStacks (s : State) (die : Nat) : List Nat := (stacksOf s die).filter (fun n => stkState s n == 0)

/-- Lost extents that found no room are backed, as soon as an ONLINE stack of their die has some (R136, R139). -/
def reback (s : State) : State :=
  (s.mem.exts.filter (fun p => p.2.phys.isNone)).foldl (fun s p =>
    match roomiest s (onlineStacks s (p.1 / 65536 / 4)) with
    | none => s
    | some k => holdExt { s with mem := { s.mem with exts := mins s.mem.exts p.1 { p.2 with phys := some (k, lowestPhys s k) } } } k (lowestPhys s k)) s

/-- Releases a page and its frames. -/
def dropPage (s : State) (p : Page) : State :=
  let sm := smallPage s p
  let s := p.frame.foldl (freeFrame sm) s
  reback { s with mem := { s.mem with pages := s.mem.pages.filter (fun q => !(q.nsid == p.nsid && q.obj == p.obj && q.idx == p.idx)) } }

/-- Parts of a page lost with their stack. -/
def Page.lost (p : Page) : Nat := (p.frame.filter (fun f => decide (16 ≤ f.1))).length

/-- A page loses its frames on a stack, and only those (R518): while it is being fetched the fetch goes on; else it waits for
its next reference (R139), and an unpinned page with no frame left is gone. -/
def loseFrames (stack : Nat) (s : State) (p : Page) : State :=
  let s := (p.frame.filter (fun f => f.1 == stack)).foldl (freeFrame (smallPage s p)) s
  let fr := p.frame.map (fun f => if f.1 = stack then (16 + stack, 0) else f)
  let sleeps := p.resident || p.asleep
  if sleeps && p.pins == 0 && fr.all (fun f => decide (16 ≤ f.1)) then dropPage s { p with frame := fr }
  else updPage s p.nsid p.obj p.idx (fun p => { p with frame := fr, resident := false, asleep := sleeps })

/-- The page of a list referenced least recently. -/
def oldestPage (l : List Page) : Option Page :=
  l.foldl (fun b p => match b with | none => some p | some q => if p.stamp < q.stamp then some p else some q) none

/-- Evicts the least recently referenced unpinned page among those chosen, a tensor whole; TM_EVICT counts its frames (R118,
R141). -/
def evictOne (s : State) (ok : Page → Bool) : Option State :=
  (oldestPage (s.mem.pages.filter (fun p => (p.resident || p.asleep) && p.pins == 0 && ok p))).map (fun p =>
    addF (dropPage s p) 57 F.TM_EVICT_COUNT (p.frame.length - p.lost))

/-- Allocates `cost` MiB for a domain in a die region with `try`, evicting under R118; an error is the DETAIL of R120. -/
def allocLoop {α : Type} (d die : Nat) (within : State → Bool) (attempt : State → Option (State × α)) :
    Nat → State → State × Except Nat α
  | 0, s => (deny s d, .error 1)
  | n + 1, s =>
    if within s then
      match attempt s with
      | some (s', v) => (s', .ok v)
      | none =>
        match evictOne s (fun p => p.frame.any (fun f => f.1 / 4 == die)) with
        | some s' => allocLoop d die within attempt n s'
        | none => (deny s d, .error 1)
    else
      match evictOne s (fun p => domOf p.nsid == d) with
      | some s' => allocLoop d die within attempt n s'
      | none => (deny s d, .error 0)

/-! ### Frames (R518) -/

/-- A partly filled FRAME extent of 64 KiB pages on an ONLINE stack of a region, by the rule of R518, whichever domain it is
charged to (DESIGN CHOICE, notes/assumptions 18). -/
def partFrame (s : State) (die : Nat) : Option (Nat × Nat) :=
  let l := s.mem.frames.filter (fun p => decide (p.2.used < 32) && (onlineStacks s die).contains (p.1 / 65536))
  l.foldl (fun b p =>
    match b with
    | none => some (p.1 / 65536, p.1 % 65536)
    | some q => if freeExts s q.1 < freeExts s (p.1 / 65536) then some (p.1 / 65536, p.1 % 65536) else some q) none

/-- Takes `n` whole FRAME extents of a region. -/
def takeExtents (d die used : Nat) : Nat → State → Option (State × List (Nat × Nat))
  | 0, s => some (s, [])
  | n + 1, s =>
    match roomiest s (onlineStacks s die) with
    | none => none
    | some k =>
      let e := lowestPhys s k
      let s := chargeStack (holdExt { s with mem := { s.mem with frames := mins s.mem.frames (k * 65536 + e) ⟨d, used, false⟩ } } k e) d 2
      (takeExtents d die used n s).map (fun r => (r.1, (k, e) :: r.2))

/-- A further 64 KiB page in a FRAME extent. -/
def joinFrame (s : State) (f : Nat × Nat) : State :=
  let one (p : Nat × FrameExt) : Nat × FrameExt := if p.1 = f.1 * 65536 + f.2 then (p.1, { p.2 with used := p.2.used + 1 }) else p
  { s with mem := { s.mem with frames := s.mem.frames.map one } }

/-- Frames of a die region for `n` parts of a page of an object (R111, R120, R518). -/
def framesFor (s : State) (o : Obj) (die n : Nat) : State × Except Nat (List (Nat × Nat)) :=
  let d := domOf o.nsid
  let fuel := s.mem.pages.length + 1
  if o.grain = 1 then
    allocLoop d die (fun s => stackWithin s d (if (partFrame s die).isSome then 0 else 2)) (fun s =>
      match partFrame s die with
      | some f => some (joinFrame s f, [f])
      | none => takeExtents d die 1 1 s) fuel s
  else allocLoop d die (fun s => stackWithin s d (2 * n)) (takeExtents d die 32 n) fuel s

/-- Starts bringing a page into tier 1: it is listed with its frame and not yet resident (R111). -/
def startPage (s : State) (o : Obj) (idx die : Nat) : State × Except Nat Unit :=
  match framesFor s o die (ceilDiv (pageBytes o) MiB2) with
  | (s, .error e) => (s, .error e)
  | (s, .ok fr) =>
    let p : Page := ⟨o.nsid, o.id, idx, fr, false, false, false, 0, s.mem.clock⟩
    ({ s with mem := { s.mem with pages := s.mem.pages ++ [p], clock := s.mem.clock + 1 } }, .ok ())

/-- The parts of a frame that are lost get the places given, in order. -/
def fillFrames : List (Nat × Nat) → List (Nat × Nat) → List (Nat × Nat)
  | f :: l, g :: m => if 16 ≤ f.1 then g :: fillFrames l m else f :: fillFrames l (g :: m)
  | l, _ => l

/-- Fetches a page again whose frames were lost with a stack: the parts it lost get frames in that stack's die region (R139). -/
def restartPage (s : State) (o : Obj) (p : Page) : State × Except Nat Unit :=
  match framesFor s o (((p.frame.find? (fun f => decide (16 ≤ f.1))).map (fun f => (f.1 - 16) / 4)).getD 0) p.lost with
  | (s, .error e) => (s, .error e)
  | (s, .ok fr) => (updPage s p.nsid p.obj p.idx (fun p => { p with frame := fillFrames p.frame fr, asleep := false }), .ok ())

/-! ### Arenas and save areas -/

/-- Extents [e, e+n) of the address space carry no tag. -/
def extsFree (s : State) (e n : Nat) : Bool := (List.range n).all (fun i => (mfind s.mem.tags (e + i)).isNone)

/-- First fit of `n` untagged extents in a die region. -/
def firstFit (s : State) (die n : Nat) : Option Nat :=
  let b := dieBase s die
  ((List.range (dieExts s die + 1 - n)).find? (fun i => extsFree s (b + i) n)).map (b + ·)

/-- Where a logical extent of stack `k` is backed: on its own stack while that is ONLINE or has released room; for a stack
out of service on the roomiest other of the region (R106, R135, R138). -/
def backOn (s : State) (die k : Nat) : Option Nat :=
  if 0 < freeExts s k then some k else if stkState s k = 0 then none else roomiest s (stacksOf s die)

/-- Backs the logical extents of one span on the region's stacks; none without room (R106, R135). -/
def backSpan (die span : Nat) : List Nat → State → Option State
  | [], s => some s
  | k :: ks, s =>
    if (mfind s.mem.exts (lextKey k span)).isSome then backSpan die span ks s
    else
      match backOn s die k with
      | none => none
      | some m =>
        let e := if m = k ∧ physUsed s k span = false then span else lowestPhys s m
        backSpan die span ks (holdExt { s with mem := { s.mem with exts := mins s.mem.exts (lextKey k span) ⟨some (m, e), false, false⟩ } } m e)

def backSpans (die : Nat) : List Nat → State → Option State
  | [], s => some s
  | sp :: l, s => match backSpan die sp (stacksOf s die) s with | some s' => backSpans die l s' | none => none

/-- Tags `n` extents first-fit in a region, backed and cleared; the address (R269, R278). -/
def takeArea (s : State) (tag : Tag) (die n : Nat) : Option (State × Nat) :=
  match firstFit s die n with
  | none => none
  | some e =>
    let w := (stacksOf s die).length
    if w = 0 then none
    else
      let spans := ((List.range n).map (fun i => (e - dieBase s die + i) / w)).eraseDups
      match backSpans die spans s with
      | none => none
      | some s =>
        let s := { s with mem := { s.mem with tags := (List.range n).foldl (fun m i => mins m (e + i) tag) s.mem.tags } }
        some (clearMem s (e * MiB2) (n * MiB2), e * MiB2)

/-- Allocates an arena (`save` false) or a part of a save area for a domain, charged under R120. -/
def allocArea (s : State) (tag : Tag) (save : Bool) (die n : Nat) : State × Except Nat Nat :=
  let d := tag.dom
  if n = 0 then (s, .ok 0)
  else
    let r := allocLoop d die (fun s => stackWithin s d (2 * n) && (!save || saveWithin s d (2 * n)))
      (fun s => takeArea s tag die n) (s.mem.pages.length + 1) s
    match r with
    | (s, .error e) => (s, .error e)
    | (s, .ok a) =>
      let s := chargeStack s d (2 * n)
      (if save then setF s 57 F.HG_SAVE_USED_MIB (getF s 57 F.HG_SAVE_USED_MIB d + 2 * n) d else s, .ok a)

/-- Releases the tagged extents of an area of `n` extents at an address and uncharges them. -/
def freeArea (s : State) (a n : Nat) (save : Bool) : State :=
  if n = 0 then s else
  let e := a / MiB2
  match mfind s.mem.tags e with
  | none => s
  | some tag =>
    let die := (dieOfExt s e).getD 0
    let w := (stacksOf s die).length
    let base := dieBase s die
    let s := { s with mem := { s.mem with tags := mclear s.mem.tags e n } }
    let spans := ((List.range n).map (fun i => (e - base + i) / w)).eraseDups
    let dead := spans.filter (fun sp => extsFree s (base + sp * w) w)
    let s := { s with mem := { s.mem with exts := s.mem.exts.filter (fun p => !((stacksOf s die).contains (p.1 / 65536) && dead.contains (p.1 % 65536))) } }
    let s := clearMem s (e * MiB2) (n * MiB2)
    let s := reback (unchargeStack s tag.dom (2 * n))
    if save then subF s 57 F.HG_SAVE_USED_MIB (2 * n) tag.dom else s

/-! ### Checks of an access (R101-R103) -/

/-- Every extent of [a, a+n) carries a tag of the domain (R102). -/
def stackOwned (s : State) (dom a n : Nat) : Bool :=
  (List.range ((a + n + MiB2 - 1) / MiB2 - a / MiB2)).all (fun i =>
    match mfind s.mem.tags (a / MiB2 + i) with
    | some t => t.dom == dom
    | none => false)

/-- A byte of [a, a+n) lies in an extent poisoned under R139. -/
def extPoisoned (s : State) (a n : Nat) : Bool :=
  (List.range ((a + n + 4095) / 4096 - a / 4096)).any (fun i =>
    match logicalAt s (max a ((a / 4096 + i) * 4096)) with
    | some (k, sp, _) => ((mfind s.mem.exts (lextKey k sp)).map (·.poisoned)).getD false
    | none => false)

/-- A context may reach a scratchpad offset of a reach: its own region when it is resident there, else the region of a
resident context of its domain; register areas never (R102, R210, R275). -/
def scratchOk (s : State) (dom ctx reach off n : Nat) : Bool :=
  let inR (c : Ctx) : Bool := decide (c.scratchBase ≤ off) && decide (off + n ≤ c.regArea)
  let here := [residentAt s reach 0, residentAt s reach 1].filterMap id
  match here.find? (fun c => c.slot == ctx) with
  | some c => inR c
  | none => here.any (fun c => domOf c.nsid == dom && inR c)

/-- Slice of an accumulator word (R159). -/
def sliceOf (row col : Nat) : Nat := 2 * (row / 256) + col / 16

/-- Owner field of a slice: 0 none, 1 slot 0, 2 slot 1 (R160, R171). -/
def sliceOwner (s : State) (reach tile bank q : Nat) : Nat := bits (getF s reach F.TILE_ACC_OWN_OWNER tile) (2 * (4 * bank + q)) 2

/-- A context may reach an accumulator slice: the residency slot it holds on that reach owns it (R160). -/
def accOk (s : State) (ctx reach tile bank row col : Nat) : Bool :=
  let o := sliceOwner s reach tile bank (sliceOf row col)
  o != 0 && ((residentAt s reach (o - 1)).map (·.slot)) == some ctx

/-! ### The object window (R109-R113) -/

/-- The range that covers a window offset. -/
def windowAt (s : State) (off : Nat) : Option WinMap :=
  s.mem.windows.find? (fun w => decide (w.first * MiB2 ≤ off) && decide (off < (w.first + w.count) * MiB2))

/-- A page, (namespace, object, page), is being brought in (R111). -/
def flying (s : State) (k : Nat × Nat × Nat) : Bool :=
  match findPage s k.1 k.2.1 k.2.2 with
  | some p => !p.resident && !p.asleep
  | none => false

/-- The page being brought in behind a device address (R110, R111). -/
def flyingAt (s : State) (a : Nat) : Option (Nat × Nat × Nat) :=
  match regionOf s a with
  | .window off =>
    match windowAt s off with
    | none => none
    | some w =>
      match findObj s w.nsid w.obj with
      | none => none
      | some o =>
        let k := (o.nsid, o.id, (off - w.first * MiB2) / pageBytes o)
        if flying s k then some k else none
  | _ => none

/-- What a window access meets. -/
inductive WinRes where
  | data (l : List Byte)
  /-- the page is being brought in -/
  | wait
  | fault (status : Nat)
  deriving DecidableEq, Repr

/-- Die region for frames of an object with no order of its own: its last hint's DIE, else `dflt` (R111, R115). DESIGN CHOICE
(notes/assumptions 18): in directed mode too, where R114 says that a hint's fields but GRAIN have no effect on placement. -/
def hintedDie (s : State) (o : Obj) (dflt : Nat) : Nat := if o.hinted then pickDie s o.hintDie else dflt

/-- An uncorrectable codeword of a tier-1 frame behind a window offset: the page is fetched again (R113). -/
def refetchPage (s : State) (off : Nat) : State :=
  match windowAt s off with
  | none => s
  | some w =>
    match findObj s w.nsid w.obj with
    | none => s
    | some o => updPage s o.nsid o.id ((off - w.first * MiB2) / pageBytes o) (fun p => { p with resident := false })

/-- An access of `n` bytes at a window offset by a context of `dom` on a reach (R102, R110, R111, R131). An access that finds the
page on its way takes a window fault too, which shares the fetch (R111, R141). -/
def windowRead (s : State) (dom reach off n : Nat) : State × WinRes :=
  match windowAt s off with
  | none => (s, .fault 0x4004)
  | some w =>
    if w.dead ∨ domOf w.nsid ≠ dom then (s, .fault 0x4004)
    else
      match findObj s w.nsid w.obj with
      | none => (s, .fault 0x4004)
      | some o =>
        let at' := off - w.first * MiB2
        if o.size < at' + n then (s, .fault 0x4004)
        else if o.quarantined then (s, .fault 0x3001)
        else
          let idx := at' / pageBytes o
          match findPage s o.nsid o.id idx with
          | some p =>
            if p.resident then
              let l := objCopy s o at' n
              let s := updPage s o.nsid o.id idx (fun p => { p with stamp := s.mem.clock })
              ({ s with mem := { s.mem with clock := s.mem.clock + 1 } }, .data l)
            else if p.asleep then
              (match restartPage (addF s 57 F.TM_WIN_FAULT_COUNT 1) o p with
               | (s, .error _) => (s, .fault 0x2001)
               | (s, .ok _) => (s, .wait))
            else (addF s 57 F.TM_WIN_FAULT_COUNT 1, .wait)
          | none =>
            match startPage (addF s 57 F.TM_WIN_FAULT_COUNT 1) o idx (hintedDie s o (reach / 8)) with
            | (s, .error _) => (s, .fault 0x2001)
            | (s, .ok _) => (s, .wait)

end Sys2Proof.Machine
end

