-- ==== Sys2Proof/Machine/DqpOps.lean ====
section
/-!
DEFINITION. Machine/DqpOps.lean: what every DQP command shares (R69-R91): queues, pulls and buffers, the common checks of
R75 with the order of R497, ordering (R81), completions and deferred entries (R72, R73, R76, R85), and power states.
-/
namespace Sys2Proof.Machine

def updDqp (s : State) (f : Dqp → Dqp) : State := { s with dqp := f s.dqp }

/-! ### Commands -/

/-- `n` bytes of the command from byte `o` (R74). -/
def Cmd.b (c : Cmd) (o n : Nat) : Nat := le c.raw o n
def Cmd.opcode (c : Cmd) : Nat := c.b 0 1
def Cmd.fence (c : Cmd) : Bool := bit (c.b 1 1) 0
def Cmd.isList (c : Cmd) : Bool := bit (c.b 1 1) 1
/-- Buffer bytes: BUF_LEN, or the sum of a list's BYTES (R74, R78). -/
def Cmd.bufBytes (c : Cmd) : Nat := (c.segs.map (·.2)).foldl (· + ·) 0
/-- Domain of the command's namespace; 64 on the admin queue. -/
def Cmd.dom (c : Cmd) : Nat := if c.nsid = 0 then 64 else c.nsid - 1

def findCmd (s : State) (no : Nat) : Option Cmd := s.dqp.cmds.find? (fun c => c.no == no)
def cmdById (s : State) (id : CmdId) : Option Cmd := s.dqp.cmds.find? (fun c => c.sqid == id.sqid && c.tag == id.tag)
def updCmd (s : State) (no : Nat) (f : Cmd → Cmd) : State :=
  updDqp s fun d => { d with cmds := d.cmds.map (fun c => if c.no = no then f c else c) }
def markStarted (s : State) (no : Nat) : State := updCmd s no (fun c => { c with phase := .started })

def findSq (s : State) (q : Nat) : Option Sq := s.dqp.sqs.find? (fun x => x.qid == q)
def findCq (s : State) (q : Nat) : Option Cq := s.dqp.cqs.find? (fun x => x.qid == q)
def updSq (s : State) (q : Nat) (f : Sq → Sq) : State := updDqp s fun d => { d with sqs := d.sqs.map (fun x => if x.qid = q then f x else x) }
def updCq (s : State) (q : Nat) (f : Cq → Cq) : State := updDqp s fun d => { d with cqs := d.cqs.map (fun x => if x.qid = q then f x else x) }

/-- Inserts a queue in rising QID order. -/
def insSq (l : List Sq) (x : Sq) : List Sq := l.takeWhile (fun y => y.qid < x.qid) ++ x :: l.dropWhile (fun y => y.qid < x.qid)
def insCq (l : List Cq) (x : Cq) : List Cq := l.takeWhile (fun y => y.qid < x.qid) ++ x :: l.dropWhile (fun y => y.qid < x.qid)

/-- The namespace of domain d exists: the domain's active flash limit is not 0 (R70, R122). -/
def domExists (s : State) (d : Nat) : Bool := decide (d < 64) && getA s 57 F.HG_FLASH_LIM_GIB d != 0

/-- Capacity of a namespace in 4 KiB blocks: its domain's flash limit. -/
def nsBlocks (s : State) (nsid : Nat) : Nat := if nsid = 0 ∨ 64 < nsid then 0 else getA s 57 F.HG_FLASH_LIM_GIB (nsid - 1) * 2 ^ 18

/-! ### Completions (R72, R73, R76, R85) -/

def Cq.room (c : Cq) : Nat := (c.head + c.entries - c.tail - 1) % max c.entries 1

/-- The 32 bytes of a completion (R76). -/
def Comp.bytes (c : Comp) (phase : Bool) : List Byte :=
  toBytes 8 c.result0 ++ toBytes 4 c.result1 ++ toBytes 2 c.sqid ++ toBytes 2 c.sqhd ++ toBytes 2 c.tag ++ toBytes 2 c.status
    ++ toBytes 4 c.detail ++ toBytes 4 c.nsid ++ toBytes 3 0 ++ toBytes 1 (b2n phase + 2 * b2n c.deferred)

/-- Signals a CQ whose coalescing count is reached, or that does not coalesce (R73). -/
def signalCq (s : State) (q : Nat) : State :=
  match findCq s q with
  | none => s
  | some c =>
    if c.unsignalled = 0 then s
    else if c.coalCount = 0 ∨ c.coalTime = 0 ∨ c.coalCount ≤ c.unsignalled then interrupt (updCq s q (fun c => { c with unsignalled := 0 })) c.vector
    else s

/-- Writes one entry at the tail of a CQ (R72, R82). -/
def putEntry (s : State) (q : Nat) (e : Comp) : State :=
  match findCq s q with
  | none => s
  | some c =>
    let s := push (countEv s 56 0x63 0 1) (c.base + 32 * c.tail) (e.bytes c.phase)
    let t := (c.tail + 1) % max c.entries 1
    signalCq (updCq s q (fun c => { c with tail := t, phase := if t = 0 then !c.phase else c.phase, unsignalled := c.unsignalled + 1 })) q

/-- Posts a completion, the pending deferred entries of its namespace before it when the CQ has room for all (R85). -/
def postNow (s : State) (q : Nat) (e : Comp) : State :=
  match findCq s q with
  | none => s
  | some c =>
    let p := s.dqp.deferred.filter (fun d => d.nsid == e.nsid && e.nsid != 0)
    if p ≠ [] ∧ p.length + 1 ≤ c.room then
      let s := updDqp s fun d => { d with deferred := d.deferred.filter (fun x => !(x.nsid == e.nsid)) }
      let s := p.foldl (fun s d => putEntry s q ⟨d.block, d.count, d.sqid, 0xFFFF, d.tag, 0x5001, d.cause, d.nsid, true⟩) s
      putEntry s q e
    else putEntry s q e

/-- Posts the completions a CQ holds, in order, while it and the link have room (R72, R522). -/
def drainCq (q : Nat) : Nat → State → State
  | 0, s => s
  | n + 1, s =>
    match findCq s q with
    | none => s
    | some c =>
      match c.waiting with
      | [] => s
      | e :: l => if 0 < c.room ∧ linkRoom s = true then drainCq q n (postNow (updCq s q (fun c => { c with waiting := l })) q e) else s

def drainAll (s : State) : State := s.dqp.cqs.foldl (fun s c => drainCq c.qid c.waiting.length s) s

/-- Sends a completion to a CQ. -/
def postComp (s : State) (q : Nat) (e : Comp) : State :=
  drainAll (updCq s q (fun c => { c with waiting := c.waiting ++ [e] }))

/-- A DELETE_SQ whose queue has no command left completes and the queue is gone (R70). -/
def finishDeletes (s : State) : State :=
  match s.dqp.cmds.find? (fun c => c.phase == .started && c.opcode == 2 && !s.dqp.cmds.any (fun x => x.sqid == c.b 32 2)) with
  | none => s
  | some c =>
    let q := c.b 32 2
    let s := updDqp s fun d => { d with sqs := d.sqs.filter (fun x => x.qid != q), cmds := d.cmds.filter (fun x => x.no != c.no) }
    postComp s 0 ⟨0, 0, c.sqid, c.sqhd, c.tag, 0, 0, 0, false⟩

/-- Completes command `no` (R76); nothing for one abandoned meanwhile. -/
def complete (s : State) (no status : Nat) (r0 : Nat := 0) (r1 : Nat := 0) (detail : Nat := 0) : State :=
  match findCmd s no with
  | none => s
  | some c =>
    let q := ((findSq s c.sqid).map (·.cqid)).getD 0
    let s := updDqp s fun d => { d with cmds := d.cmds.filter (fun x => x.no != no), pulls := d.pulls.filter (fun p =>
      match p.what with | .entry _ _ _ => true | .list n => n != no | .data n => n != no) }
    finishDeletes (postComp s q ⟨r0, r1, c.sqid, c.sqhd, c.tag, status, detail, c.nsid, false⟩)

/-- Writes bytes into a command's host buffer from an offset, segment by segment (R74, R82). -/
def pushBuf : List (Nat × Nat) → Nat → List Byte → State → State
  | [], _, _, s => s
  | (a, n) :: l, off, d, s =>
    if d.isEmpty then s
    else if n ≤ off then pushBuf l (off - n) d s
    else
      let k := min (n - off) d.length
      pushBuf l 0 (d.drop k) (push s (a + off) (d.take k))

def toHost (s : State) (c : Cmd) (d : List Byte) : State := pushBuf c.segs 0 d s

/-! ### Checks (R75, R497) -/

/-- Place of a status in the order of R497. -/
def statusRank (st : Nat) : Nat :=
  match st with
  | 0x1001 => 0 | 0x1002 => 1 | 0x1004 => 2 | 0x1003 => 3 | 0x1007 => 4
  | _ => if st / 4096 = 1 then 5 + st % 4096 else 4096 * (st / 4096) + st % 4096

/-- The first in that order of the conditions met; 0 when none is. -/
def firstOf (l : List Nat) : Nat :=
  (l.filter (· != 0)).foldl (fun b st => if b = 0 ∨ statusRank st < statusRank b then st else b) 0

def cond (b : Bool) (st : Nat) : Nat := if b then st else 0

/-- Every command-specific byte outside the ranges (offset, bytes) is 0 (R75). -/
def onlyBytes (c : Cmd) (l : List (Nat × Nat)) : Bool :=
  (List.range 96).all (fun i => l.any (fun r => decide (r.1 ≤ 32 + i) && decide (32 + i < r.1 + r.2)) || c.raw.getD (32 + i) 0 == 0)

/-- The conditions of R75 that do not depend on the command. The one admin command that names a namespace, CREATE_SQ,
carries it in NSID (R70; DESIGN CHOICE, notes/assumptions 20). -/
def baseConds (c : Cmd) : List Nat :=
  [cond (decide (3 < c.b 1 1)) 0x1002, cond (c.b 28 4 != 0) 0x1002,
   cond (c.isList && (c.b 24 4 == 0 || decide (4096 < c.b 24 4))) 0x1002,
   cond (c.b 4 4 != 0 && c.b 4 4 != c.nsid && !(c.nsid == 0 && c.opcode == 1)) 0x1003]

/-! ### Which commands may start (R81, R86-R88) -/

/-- 0 admin, 1 storage and objects, 2 compute, search and tier (R88). -/
def cmdClass (c : Cmd) : Nat :=
  let o := c.opcode
  if o < 0x20 then 0 else if o < 0x60 then 1 else if o < 0xC0 then 2
  else if o = 0xC5 ∨ o = 0xC6 then 2 else if o = 0xC2 ∧ bit (c.b 44 4) 0 then 2 else 1

/-- The deepest power state a command runs in (R88). -/
def deepest (c : Cmd) : Nat := match cmdClass c with | 0 => 2 | 1 => 1 | _ => 0

/-- An earlier entry of the queue is still being pulled. -/
def entryPending (s : State) (c : Cmd) : Bool :=
  s.dqp.pulls.any (fun p => match p.what with | .entry q n _ => q == c.sqid && decide (n < c.no) | _ => false)

/-- A fetched command may start: its data is in hand, FENCE permits it (R81), the module runs, the power state lets it run
(R86-R88), and the queue of flits has room for what it produces (R522). -/
def canStart (s : State) (c : Cmd) : Bool :=
  c.phase == .ready && running s && linkRoom s && getF s 56 F.DQP_STATUS_RDY == 1
    && decide (getF s 56 F.DQP_STATUS_PSTATE ≤ deepest c)
    && !entryPending s c
    && !s.dqp.cmds.any (fun x => x.sqid == c.sqid && decide (x.no < c.no) && (x.fence || c.fence))

/-- Runs an outstanding command named by queue and tag when it may start and is the one this row describes: `conds` its own
conditions, `body` its effect. An uncorrectable word of control SRAM fails the command with 0x4001 in its place (R420). -/
def runCmd (s : State) (id : CmdId) (sel : Cmd → Bool) (fields : List (Nat × Nat)) (conds : Cmd → List Nat) (body : State → Cmd → State) : State :=
  match cmdById s id with
  | none => s
  | some c =>
    if canStart s c && sel c then
      let st := firstOf (baseConds c ++ [cond (!onlyBytes c fields) 0x1002] ++ conds c)
      if st ≠ 0 then complete s c.no st
      else
        let r := sramMeets s id.sram
        if r.2 then complete r.1 c.no 0x4001 else body (markStarted r.1 c.no) c
    else s

def isOp (o : Nat) (c : Cmd) : Bool := c.opcode == o

/-- An outstanding command that arrived before this one and that `rel` relates to it: where a rule runs such commands in
arrival order, this one waits for it. -/
def behind (s : State) (id : CmdId) (rel : Cmd → Cmd → Bool) : Bool :=
  match cmdById s id with
  | none => false
  | some c => s.dqp.cmds.any (fun x => decide (x.no < c.no) && rel x c)

/-- A command that takes no buffer: any BUF_LEN stands. A command to the host whose result has `n` bytes needs room for
them (R75). -/
def roomFor (c : Cmd) (n : Nat) : Nat := cond (decide (c.bufBytes < n)) 0x1003

/-! ### Pulls (R65, R67) -/

/-- PULL_REQ flits of at most 15 entries. -/
def sendPulls : Nat → State → List (Nat × Nat × Nat) → State
  | 0, s, _ => s
  | n + 1, s, l =>
    if l.isEmpty then s
    else
      let h := l.take 15
      sendPulls n (sendFlit s 5 h.length [0, 0, 0, 0, 0, 0] ((h.map (fun e => toBytes 8 e.1 ++ toBytes 4 e.2.1 ++ toBytes 4 e.2.2)).flatten)) (l.drop 15)

/-- Requests of at most 4,096 bytes covering `n` bytes at an address. -/
def pieces : Nat → Nat → Nat → List (Nat × Nat)
  | 0, _, _ => []
  | k + 1, a, n => if n = 0 then [] else (a, min n 4096) :: pieces k (a + min n 4096) (n - min n 4096)

/-- Orders pulls of the ranges (address, bytes). -/
def pullRanges (s : State) (l : List (Nat × Nat)) (what : PullFor) : State :=
  let ps := (l.map (fun r => pieces (r.2 / 4096 + 1) r.1 r.2)).flatten
  let id0 := s.dqp.nextReq
  let es := ps.zipIdx.map (fun p => (p.1.1, p.1.2, (id0 + p.2) % 2 ^ 32))
  let s := updDqp s fun d => { d with
    nextReq := (id0 + ps.length) % 2 ^ 32
    pulls := d.pulls ++ es.map (fun e => ⟨e.2.2, e.2.1, [], what⟩) }
  sendPulls (ps.length / 15 + 1) s es

/-- The first `n` bytes of a list of segments. -/
def takeSegs : List (Nat × Nat) → Nat → List (Nat × Nat)
  | [], _ => []
  | (a, m) :: l, n => if n = 0 then [] else if n ≤ m then [(a, n)] else (a, m) :: takeSegs l (n - m)

/-- Bytes a command pulls from its buffer before it starts: what its length rule asks for; 0 when the length fails it, the
command then being rejected (R75, R77). -/
def pullBytes (c : Cmd) : Nat :=
  let n := c.bufBytes
  match c.opcode with
  | 0x0A => if n ≤ 3145728 then n else 0
  | 0x21 | 0xC2 => if n = c.b 40 4 * 4096 ∧ c.b 40 4 ≤ 65536 then n else 0
  | 0x83 | 0x84 => min n (2 ^ 26)
  | 0x40 | 0x41 | 0x62 | 0x80 | 0x86 => if n ≤ 2 ^ 30 then n else 0
  | 0x82 => if n ≤ 2 ^ 32 then n else 0
  | 0xC6 => if bits (c.b 32 4) 4 2 = 1 then min n (if c.b 44 4 = 0 then n else c.b 44 4) else if bits (c.b 32 4) 4 2 = 2 then 0 else min n 2048
  | _ => 0

/-- Pulls a command's data, or finds that it has none to pull (R77). -/
def startData (s : State) (no : Nat) : State :=
  match findCmd s no with
  | none => s
  | some c =>
    let n := pullBytes c
    if n = 0 then updCmd s no (fun c => { c with phase := .ready })
    else pullRanges (updCmd s no (fun c => { c with phase := .data, due := n })) (takeSegs c.segs n) (.data no)

/-! ### Arrival of a command (R75, R77, R87, R88, R92) -/

/-- Opcodes accepted on the admin queue, and on I/O queues in the module's mode (R77, R92). -/
def opcodeOk (s : State) (admin : Bool) (o : Nat) : Bool :=
  if admin then decide (o ≤ 0x0D)
  else if s.boot.info.risal then decide (0xC0 ≤ o) && decide (o ≤ 0xC6)
  else (decide (0x20 ≤ o) && decide (o ≤ 0x26)) || (decide (0x40 ≤ o) && decide (o ≤ 0x45)) || (decide (0x60 ≤ o) && decide (o ≤ 0x67))
    || (decide (0x80 ≤ o) && decide (o ≤ 0x87)) || (decide (0xA0 ≤ o) && decide (o ≤ 0xA5))

/-- A selector within a command that no row describes (R80, R116, R402, R442, R452 and the owning rules): a reserved value. -/
def selectorOk (c : Cmd) : Bool :=
  match c.opcode with
  | 0x06 | 0x07 => c.b 32 1 == 1 || c.b 32 1 == 2
  | 0x0C => decide (c.b 33 1 ≤ 3)
  | 0x0D => decide (c.b 32 1 ≤ 1)
  | _ => true

/-- A power-state movement starts or is redirected when a command arrives (R87, R88). R87 does not say which state an exit after
the point of no return leads to: the deepest the command runs in, and for an admin command, which runs in all, the state the
entry came from (DESIGN CHOICE, notes/assumptions 13). -/
def powerArrival (s : State) (c : Cmd) : State :=
  match s.dqp.pwr with
  | .entering target prior no ponr ex =>
    if ponr then
      let want := if cmdClass c = 0 then prior else deepest c
      updDqp s fun d => { d with pwr := .entering target prior no true (some (match ex with | none => want | some w => min w want)) }
    else
      complete (setF (updDqp s fun d => { d with pwr := .none }) 56 F.DQP_STATUS_PS_BUSY 0) no 0 prior
  | .none =>
    if deepest c < getF s 56 F.DQP_STATUS_PSTATE then
      setF (updDqp s fun d => { d with pwr := .exiting (deepest c) none }) 56 F.DQP_STATUS_PS_BUSY 1
    else s
  | .exiting t no => if deepest c < t then updDqp s fun d => { d with pwr := .exiting (deepest c) no } else s

/-- The 128 bytes of a command have arrived (R74, R75). -/
def arriveCmd (s : State) (sqid no sqhd : Nat) (raw : List Byte) : State :=
  match findSq s sqid with
  | none => s
  | some q =>
    let dup := s.dqp.cmds.any (fun x => x.sqid == sqid && x.tag == le raw 2 2)
    let c : Cmd := ⟨sqid, le raw 2 2, sqhd, q.nsid, no, raw, .ready, [(le raw 16 8, le raw 24 4)], [], 0, 0⟩
    let st := firstOf (if opcodeOk s (sqid == 0) c.opcode then (if dup ∨ selectorOk c = false ∨ (c.isList ∧ (c.b 24 4 = 0 ∨ 4096 < c.b 24 4)) then
        baseConds c ++ [cond (!selectorOk c) 0x1002, cond dup 0x1003] else []) else [0x1001])
    -- while a halt waits for started commands, a fetched command completes with 0x2008, but a SHUTDOWN may still order a reset
    let st := if st = 0 ∧ s.boot.haltWait ∧ c.opcode ≠ 0x0D then 0x2008 else st
    if st ≠ 0 then
      -- completed at once, with the tag it carries, whether or not another command holds that tag
      postComp s q.cqid ⟨0, 0, sqid, sqhd, le raw 2 2, st, 0, q.nsid, false⟩
    else
      let s := powerArrival s c
      let s := updDqp s fun d => { d with cmds := d.cmds ++ [c] }
      if c.isList then pullRanges (updCmd s no (fun c => { c with phase := .listing, segs := [] })) [(le raw 16 8, 16 * le raw 24 4)] (.list no)
      else startData s no

/-- A command's list has arrived (R74). -/
def arriveList (s : State) (no : Nat) (d : List Byte) : State :=
  let es := (List.range (d.length / 16)).map (fun i => (d.drop (16 * i)).take 16)
  if es.any (fun e => le e 12 4 != 0) then complete s no 0x1002
  else startData (updCmd s no (fun c => { c with segs := es.map (fun e => (le e 0 8, le e 8 4)) })) no

/-- A pull request is fully answered. -/
def pullDone (s : State) (w : PullFor) : State :=
  let mine := s.dqp.pulls.filter (fun p => p.what == w)
  if mine.isEmpty ∨ mine.any (fun p => p.got.length < p.bytes) then s
  else
    let d := (mine.map (·.got)).flatten
    let s := updDqp s fun x => { x with pulls := x.pulls.filter (fun p => p.what != w) }
    match w with
    | .entry sqid no sqhd => arriveCmd s sqid no sqhd d
    | .list no => arriveList s no d
    | .data no => updCmd s no (fun c => { c with phase := .ready, data := d, due := 0 })

/-- Data of a pull request: the bytes of one request arrive in increasing OFFSET (R67); others are dropped. -/
def pullArrive (s : State) (off req : Nat) (d : List Byte) : State :=
  match s.dqp.pulls.find? (fun p => p.reqId == req) with
  | none => s
  | some p =>
    if off ≠ p.got.length ∨ p.bytes < off + d.length then s
    else pullDone (updDqp s fun x => { x with pulls := x.pulls.map (fun q => if q.reqId = req then { q with got := q.got ++ d } else q) }) p.what

end Sys2Proof.Machine
end

