-- ==== Sys2Proof/Machine/StoreOps.lean ====
section
/-!
DEFINITION. Machine/StoreOps.lean: units and their mapping (R375-R378), the write buffer (R383), the flash charge (R120),
and the storage of device-managed objects (R299, R306).
-/
namespace Sys2Proof.Machine

/-! ### Stripe groups (R15, R376) -/

/-- Stripe groups of the variant, ascending. -/
def groups (s : State) : List Nat := (List.range 8).filter (fun g => present s ([48, 49, 52, 53].getD (g / 2) 0))

/-- The channel islands, numbered 0 to 3 in the buffer and journal state. -/
def flashIsland (k : Nat) : Nat := [48, 49, 52, 53].getD k 48

/-- First multiple of `a` at or above `n`. -/
def alignUp (n a : Nat) : Nat := ceilDiv n a * a

/-- Regions of the collection object (R306). -/
def Coll.boundBase (c : Coll) : Nat := alignUp (4096 + 8 * c.dim) 4096
def Coll.nodeBase (c : Coll) : Nat := alignUp (c.boundBase + c.poolsMax * (64 + c.dim)) 4096
def Coll.poolBase (c : Coll) : Nat := alignUp (c.nodeBase + 16 * c.poolsMax * (192 + c.dim)) 4096
/-- Pool stride P. -/
def Coll.stride (c : Coll) : Nat := alignUp (65536 * (c.dim + 16)) MiB2
/-- Bytes of a full-precision element. -/
def Coll.fullElem (c : Coll) : Nat := if c.fullFmt = 1 then 2 else 4

/-- The pool (by creation order) a unit of a collection's objects belongs to: that of its last byte, since extents begin on 4 KiB
boundaries and end in more than a unit of padding (R306, R312). -/
def unitPool (s : State) (space unit : Nat) : Option Nat :=
  (s.search.objs.find? (fun o => o.nsid + 64 == space && match o.storage with | .device u n => decide (u ≤ unit) && decide (unit < u + n) | _ => false)).bind fun o =>
    match o.storage with
    | .device u _ =>
      let off := (unit - u) * 32768 + 32767
      (s.search.colls.find? (fun c => c.nsid == o.nsid && (c.obj == o.id || (c.fullEn && c.fullId == o.id)))).bind fun c =>
        if c.obj = o.id then (if c.poolBase ≤ off then some ((off - c.poolBase) / c.stride) else none)
        else some (off / (65536 * c.dim * c.fullElem))
    | _ => none

/-- LUA of a unit (R375). -/
def luaOf (space unit : Nat) : Nat := space * 2 ^ 56 + unit
def luaSpace (lua : Nat) : Nat := lua / 2 ^ 56
def luaUnit (lua : Nat) : Nat := lua % 2 ^ 56

/-- A unit's home stripe group (R376, R312). -/
def homeGroup (s : State) (lua : Nat) : Nat :=
  let k := ((unitPool s (luaSpace lua) (luaUnit lua)).getD (luaUnit lua))
  (groups s).getD (k % max (groups s).length 1) 0

/-! ### Mapping and charge -/

/-- Mapped blocks of a domain: its namespace's and its device-managed storage's (R120). -/
def flashBlocks (s : State) (d : Nat) : Nat :=
  (s.flash.blocks.filter (fun p => p.1 / 2 ^ 59 == d + 1 || p.1 / 2 ^ 59 == d + 65)).length

/-- The headgate grants `n` more 4 KiB blocks (R120). -/
def flashWithin (s : State) (d n : Nat) : Bool := decide (flashBlocks s d + n ≤ getA s 57 F.HG_FLASH_LIM_GIB d * 2 ^ 18)

/-- Table page of a unit (R378). -/
def tableKey (lua : Nat) : Nat := luaSpace lua * 2 ^ 56 + luaUnit lua / 6552

/-- The reserve has a table page for a unit (R378). -/
def tableRoom (s : State) (lua : Nat) : Bool :=
  (mfind s.flash.tables (tableKey lua)).isSome || decide (s.flash.tables.length < 2228224)

def updFlash (s : State) (f : Flash → Flash) : State := { s with flash := f s.flash }

/-- Sets a unit's entry; table pages come and go with their mapped units, table pages themselves apart (R377, R378). -/
def setMap (s : State) (lua : Nat) (l : Option Loc) : State :=
  let had := (mfind s.flash.map lua).isSome
  let k := tableKey lua
  let n := mget 0 s.flash.tables k
  updFlash s fun f => { f with
    map := match l with | some x => mins f.map lua x | none => mdel f.map lua
    tables := if luaSpace lua = 255 then f.tables else mset 0 f.tables k (n + b2n (!had && l.isSome) - b2n (had && l.isNone)) }

/-! ### The write buffer (R383) -/

def slotKey (k n : Nat) : Nat := k * 2 ^ 20 + n

/-- The slot that holds a unit and has not left for media. -/
def openSlot (s : State) (lua : Nat) : Option (Nat × Slot) :=
  s.flash.slots.find? (fun p => p.2.lua == lua && p.2.placed.isNone && p.2.staged.isNone)

/-- Lowest free slot of a channel island's buffer, 0 to 4,095 (R14, R383). -/
def freeSlot (s : State) (k : Nat) : Option Nat :=
  let used := s.flash.slots.filter (fun p => p.1 / 2 ^ 20 == k)
  (List.range (min (used.length + 1) 4096)).find? (fun n => (mfind s.flash.slots (slotKey k n)).isNone)

def emptySlot (lua : Nat) (old : Option (Nat × Nat)) : Slot :=
  { lua := lua, mask := 0, data := List.replicate 8 [], lostMask := 0, old := old, merging := false, placed := none, staged := none, fails := 0, writers := [] }

/-- A block written again is no other non-FUA command's any more, in whichever slot of its unit (R83, R84). -/
def disown (s : State) (lua i : Nat) : State :=
  let rest (w : Writer) : Writer := if w.fua then w else { w with mask := setBit w.mask i false }
  updFlash s fun f => { f with
    slots := f.slots.map (fun p => if p.2.lua = lua then (p.1, { p.2 with writers := (p.2.writers.map rest).filter (fun w => w.fua || w.mask != 0) }) else p) }

/-- Copies one 4 KiB block into the slot of its unit, taking a slot when the unit has none; none while no slot is free
(R383). -/
def bufferBlock (s : State) (space blk : Nat) (d : List Byte) : Option State :=
  let lua := luaOf space (blk / 8)
  let s := disown s lua (blk % 8)
  let put (s : State) (key : Nat) (x : Slot) : State :=
    let x := { x with mask := setBit x.mask (blk % 8) true, data := updAt x.data (blk % 8) (fun _ => d), lostMask := setBit x.lostMask (blk % 8) false }
    let s := updFlash s fun f => { f with
      slots := mins f.slots key x
      blocks := mins f.blocks (blockKey space blk) d
      lostBlocks := mdel f.lostBlocks (blockKey space blk) }
    setMap s lua (some (.slot (key / 2 ^ 20) (key % 2 ^ 20)))
  match openSlot s lua with
  | some (key, x) => some (put s key x)
  | none =>
    let k := homeGroup s lua / 2
    match freeSlot s k with
    | none => none
    | some n =>
      let old := match mfind s.flash.map lua with | some (.stripe id off) => some (id, off) | _ => none
      some (put (countEv s (flashIsland k) 0x46 0 1) (slotKey k n) (emptySlot lua old))

/-! ### Device-managed objects (R299) -/

/-- Takes `n` units of a domain, numbered densely from 0 (R378). -/
def takeUnits (s : State) (d n : Nat) : State × Nat :=
  let u := mget 0 s.search.nextUnit d
  ({ s with search := { s.search with nextUnit := mset 0 s.search.nextUnit d (u + n) } }, u)

/-- Blocks an object's bytes [off, off + n) touch. -/
def touched (off n : Nat) : List Nat := if n = 0 then [] else (List.range ((off + n - 1) / 4096 + 1 - off / 4096)).map (off / 4096 + ·)

/-- Blocks of a device-managed range not mapped yet. -/
def newBlocks (s : State) (o : Obj) (off n : Nat) : Nat :=
  ((touched off n).filter (fun k => match o.block k with | some (sp, b) => (mfind s.flash.blocks (blockKey sp b)).isNone | none => false)).length

/-- Units of an object's bytes [off, off + n). -/
def unitsIn (o : Obj) (off n : Nat) : List Nat := (((touched off n).filterMap o.block).map (fun b => luaOf b.1 (b.2 / 8))).eraseDups

/-- DETAIL with which the headgate or the mapping reserve refuses a domain parts of device-managed objects (object, offset, bytes),
none when it grants them (R120, R299, R378). -/
def objRefusal (s : State) (d : Nat) (parts : List (Obj × Nat × Nat)) : Option Nat :=
  let pages := (((parts.map (fun p => (unitsIn p.1 p.2.1 p.2.2).map tableKey)).flatten).eraseDups).filter (fun k => (mfind s.flash.tables k).isNone)
  if !flashWithin s d ((parts.map (fun p => newBlocks s p.1 p.2.1 p.2.2)).sum) then some 0
  else if 2228224 < s.flash.tables.length + pages.length then some 2 else none

/-- A block the device itself writes goes to the buffer; with no slot free, or behind a block of its unit, it waits outside
(R14, R383; DESIGN CHOICE, notes/assumptions 41). -/
def storeBlock (s : State) (space blk : Nat) (d : List Byte) : State :=
  let wait := updFlash s fun f => { f with waits := f.waits ++ [⟨f.waitSeq + 1, space, blk, d⟩], waitSeq := f.waitSeq + 1 }
  if s.flash.waits.any (fun w => w.space == space && w.block / 8 == blk / 8) then wait else (bufferBlock s space blk d).getD wait

/-- What a device-managed block is to hold: the latest of what waits for it and what it holds now. -/
def latestBlock (s : State) (space blk : Nat) : List Byte :=
  match (s.flash.waits.filter (fun w => w.space == space && w.block == blk)).getLast? with
  | some w => w.data
  | none => (mfind s.flash.blocks (blockKey space blk)).getD zeroBlock

/-- Writes bytes into a device-managed object. -/
def storeObj (s : State) (o : Obj) (off : Nat) (d : List Byte) : State :=
  (touched off d.length).foldl (fun s k =>
    match o.block k with
    | none => s
    | some (sp, b) =>
      let a := max off (4096 * k)
      let piece := slice d (a - off) (min (off + d.length) (4096 * (k + 1)) - a)
      storeBlock s sp b (patch (latestBlock s sp b) (a - 4096 * k) piece)) s

/-- Unmaps a unit: every block reads zeros; its slot, if it is in none of the rows, is dropped (R377, R389). -/
def unmapUnit (s : State) (lua : Nat) : State :=
  let s := setMap s lua none
  updFlash s fun f => { f with
    blocks := mclear f.blocks (8 * lua) 8
    lostBlocks := mclear f.lostBlocks (8 * lua) 8
    waits := f.waits.filter (fun w => luaOf w.space (w.block / 8) != lua)
    slots := f.slots.filter (fun p => !(p.2.lua == lua && p.2.placed.isNone)) }

/-! ### The mapping journal's records (R405) -/

/-- The record of a unit's new entry: of a table page, its number and its place (R405). -/
def mapRec (lua : Nat) (l : Option Loc) : JRec := if luaSpace lua = 255 then .tablePage (luaUnit lua) l else .map lua l

/-- Appends a record to an island's journal buffer. -/
def journalRec (s : State) (k : Nat) (r : JRec) : State :=
  updFlash s fun f =>
    let q := f.seqs.getD k 0 + 1
    { f with seqs := updAt f.seqs k (fun _ => q), journal := updAt f.journal k (· ++ [(q, r)]), jbuf := updAt f.jbuf k (· ++ [(q, r)]) }

/-- Unmaps a unit, with its MAP record (R389, R405). -/
def releaseUnit (s : State) (lua : Nat) : State := journalRec (unmapUnit s lua) (homeGroup s lua / 2) (.map lua none)

/-- Releases a device-managed object's storage: its units are unmapped and stand released and unerased (R302, R402). -/
def releaseStorage (s : State) (o : Obj) : State :=
  match o.storage with
  | .host _ => s
  | .device u n =>
    let lo := luaOf (64 + o.nsid) u
    let us := (s.flash.map.filter (fun p => decide (lo ≤ p.1) && decide (p.1 < lo + n))).map (·.1)
    let s := us.foldl releaseUnit s
    let s := updFlash s fun f => { f with waits := f.waits.filter (fun w => !(decide (lo ≤ luaOf w.space (w.block / 8)) && decide (luaOf w.space (w.block / 8) < lo + n))) }
    updFlash s fun f => { f with released := f.released ++ us.map (fun lua => (domOf o.nsid, lua)) }

/-- Every mapped unit of a device-managed object has left the buffer for media or staging, as FUA defines (R78). -/
def onMedia (s : State) (o : Obj) : Bool :=
  match o.storage with
  | .host _ => true
  | .device u n =>
    let lo := luaOf (64 + o.nsid) u
    s.flash.map.all (fun p => !(decide (lo ≤ p.1) && decide (p.1 < lo + n)) || match p.2 with | .stripe _ _ => true | _ => false)
      && s.flash.waits.all (fun w => !(decide (lo ≤ luaOf w.space (w.block / 8)) && decide (luaOf w.space (w.block / 8) < lo + n)))

/-- Status of a command that writes the media in a read-only module (R399); 0 while it is writable. -/
def roStatus (s : State) : Nat := match s.flash.ro with | 1 => 0x2004 | 2 => 0x3004 | _ => 0

end Sys2Proof.Machine
end

