-- ==== Sys2Proof/Machine/SluiceOps.lean ====
section
/-!
DEFINITION. Machine/SluiceOps.lean: the token buckets of sluices (R260-R262).
-/
namespace Sys2Proof.Machine

def getSluice (s : State) (isl p : Nat) : Sluice := mget {} s.flume.sluices (isl * 16 + p)
def putSluice (s : State) (isl p : Nat) (x : Sluice) : State :=
  { s with flume := { s.flume with sluices := mset {} s.flume.sluices (isl * 16 + p) x } }

def sluiceOn (s : State) (isl p : Nat) : Bool := getA s isl F.SLUICE_CFG_EN p == 1
/-- The fullest the bucket gets, in 1/1,024 byte (R260). -/
def sluiceCap (s : State) (isl p : Nat) : Nat := getA s isl F.SLUICE_BURST_UNITS p * 131072

/-- The level as of now: RATE for every cycle since the last look, capped; full while EN is 0 (R260). -/
def levelNow (s : State) (isl p : Nat) : Nat :=
  let x := getSluice s isl p
  if sluiceOn s isl p then min (x.level + getA s isl F.SLUICE_CFG_RATE p * (cyc s isl - x.since)) (sluiceCap s isl p)
  else sluiceCap s isl p

/-- Brings the bucket up to the current cycle (R260). -/
def settleSluice (s : State) (isl p : Nat) : State :=
  putSluice s isl p { getSluice s isl p with level := levelNow s isl p, since := cyc s isl }

/-- What a level covers of a request, which passes in pieces of up to 128 bytes: the level and the bytes left (R245, R260). -/
def pay (level left : Nat) : Nat × Nat :=
  let k := min (left / 128) (level / 131072)
  let level := level - k * 131072
  let left := left - 128 * k
  if left < 128 ∧ left * 1024 ≤ level then (level - left * 1024, 0) else (level, left)

/-- A request of `n` bytes by requester `q`: it passes when the sluice is off, when it has been admitted, or when none
waits and the level covers it; otherwise it waits in arrival order (R260, R261). -/
def sluiceTry (s : State) (isl p q n : Nat) : State × Bool :=
  if !sluiceOn s isl p then (s, true)
  else
    let s := settleSluice s isl p
    let x := getSluice s isl p
    if x.passed.contains (q, n) then (putSluice s isl p { x with passed := x.passed.erase (q, n) }, true)
    else if x.waiting.any (fun w => w.1 == q) then (s, false)
    else
      let y := if x.waiting.isEmpty then pay x.level n else (x.level, n)
      if y.2 = 0 then (putSluice s isl p { x with level := y.1 }, true)
      else (putSluice s isl p { x with level := y.1, waiting := x.waiting ++ [(q, n, y.2)] }, false)

/-- The stack that holds a byte of stack memory, or of a resident page behind the object window, and the byte's place in it
(R106, R108). -/
def placeOfAddr (s : State) (a : Nat) : Option (Nat × Nat) :=
  match regionOf s a with
  | .stack =>
    match logicalAt s a with
    | some (k, sp, w) =>
      let ph := ((mfind s.mem.exts (lextKey k sp)).bind (·.phys)).getD (k, sp)
      some (ph.1, ph.2 * MiB2 + w)
    | none => none
  | .window off =>
    match windowAt s off with
    | none => none
    | some w =>
      match findObj s w.nsid w.obj with
      | none => none
      | some o =>
        let at' := off - w.first * MiB2
        match findPage s o.nsid o.id (at' / pageBytes o) with
        | some p =>
          if p.resident then (p.frame[at' % pageBytes o / MiB2]?).map (fun f => (f.1, f.2 * MiB2 + at' % pageBytes o % MiB2)) else none
        | none => none
  | _ => none

/-- The stack of that place. -/
def stackOfAddr (s : State) (a : Nat) : Option Nat := (placeOfAddr s a).map (·.1)

/-- A corrected codeword read at a device address, where one is stored there (R414). -/
def correctedAt (s : State) (a : Nat) : State :=
  match placeOfAddr s a with
  | some (st, off) => correctedEvent s (32 + st) 0 0 off
  | none =>
    match arrayOf s a with
    | some (isl, arr, off) => correctedEvent s isl arr 0 off
    | none => s

/-- An uncorrectable codeword of a frame behind a window offset: counted, and the page is fetched again (R113, R415). -/
def upsetFrame (s : State) (a off : Nat) : State :=
  refetchPage (match placeOfAddr s a with | some (st, o) => uncorrectableEvent s (32 + st) 0 0 o | none => s) off

/-- Adds to the bytes of one stack. -/
def addShare (acc : List (Nat × Nat)) (st n : Nat) : List (Nat × Nat) :=
  match acc.find? (fun y => y.1 == st) with
  | some _ => acc.map (fun y => if y.1 = st then (st, y.2 + n) else y)
  | none => acc ++ [(st, n)]

/-- The stacks of the bytes of an access of (address, bytes) pairs, and how many bytes on each (R261). -/
def stackShares (s : State) (l : List (Nat × Nat)) : List (Nat × Nat) :=
  l.foldl (fun acc x => match stackOfAddr s x.1 with | some st => addShare acc st x.2 | none => acc) []

/-- A request would pass a sluice now. -/
def sluiceReady (s : State) (isl p q n : Nat) : Bool :=
  let x := getSluice s isl p
  !sluiceOn s isl p || x.passed.contains (q, n) || (x.waiting.isEmpty && decide (n * 1024 ≤ levelNow s isl p))

/-- Passes a request through several sluices, (island, sluice, bytes): through all of them, or it waits at those that do
not admit it (R251, R261). -/
def sluiceAll (s : State) (q : Nat) (l : List (Nat × Nat × Nat)) : State × Bool :=
  if l.all (fun x => sluiceReady s x.1 x.2.1 q x.2.2) then
    (l.foldl (fun s x => portBytes (sluiceTry s x.1 x.2.1 q x.2.2).1 x.1 x.2.1 x.2.2) s, true)
  else (l.foldl (fun s x => if sluiceReady s x.1 x.2.1 q x.2.2 then s else (sluiceTry s x.1 x.2.1 q x.2.2).1) s, false)

/-- The port sluices an access of (address, bytes) pairs meets at the stacks it touches (R261). -/
def portReqs (s : State) (port : Nat) (l : List (Nat × Nat)) : List (Nat × Nat × Nat) :=
  (stackShares s l).map (fun x => (32 + x.1, port, x.2))

/-- The granule of stack memory a byte lies in is invalid: a read of it does not reach the stack, a first write writes it
whole (R425). -/
def invalidStack (s : State) (a : Nat) : Bool := decide (a < 2 ^ 56) && !validAt s a

/-- First device address of a reach's window. -/
def reachWindow (reach : Nat) : Nat := 2 ^ 56 + reach * 0x2000000

/-- Where a byte of a reach's scratchpad or accumulators lies in the context's save part, as an offset: the region, then
the owned slices of each tile (R277, R278). -/
def Ctx.saveOffset (c : Ctx) (reach a : Nat) : Option Nat :=
  if a < reachWindow reach then none
  else
    let so := a - reachWindow reach
    if c.scratchBase ≤ so ∧ so < c.scratchEnd then some (so - c.scratchBase)
    else if so < 0x1800000 ∨ 0x1E00000 ≤ so then none
    else
      let t := (so - 0x1800000) / 0x20000
      let b := bits so 16 1; let row := bits so 7 9; let col := bits so 2 5
      let k := 4 * b + sliceOf row col
      if bit c.accMask k then
        some (c.scratch * 0x100000 + (popCount c.accMask k * 48 + t) * 16384 + row % 256 * 64 + col % 16 * 4 + so % 4)
      else none

/-- A byte comes from a stored word: one behind the object window, one with its valid flag, or one of a context whose words a
restore has written (R424, R425). -/
def storedAt (s : State) (a : Nat) : Bool :=
  match regionOf s a with
  | .window _ => true
  | .scratch r _ | .acc r _ _ _ _ =>
    validAt s a || s.sched.ctxs.any (fun c => c.filled && c.holds && bit c.reaches r && (c.saveOffset r a).isSome)
  | _ => validAt s a

/-- Bytes an access reads at the stacks it touches (event 0x30, R425, R478). -/
def countReads (s : State) (port : Nat) (l : List (Nat × Nat)) : State :=
  (portReqs s port (l.filter (fun x => !invalidStack s x.1))).foldl (fun s x => countEv s x.1 0x30 x.2.1 x.2.2) s

/-- What a write transfers: its bytes, and 4 KiB for each invalid granule it is the first to write (R425; DEDUCED,
notes/assumptions 35). -/
def writeCost (s : State) (l : List (Nat × Nat)) : List (Nat × Nat) :=
  l.filter (fun x => !invalidStack s x.1)
    ++ (((l.filter (fun x => invalidStack s x.1)).map (fun x => x.1 / 4096 * 4096)).eraseDups).map (fun g => (g, 4096))

/-- The aligned 64-byte blocks of valid granules that a write leaves in part unwritten: each is read first (R423). -/
def narrowBlocks (s : State) (l : List (Nat × Nat)) : List Nat :=
  let m := l.filter (fun x => decide (x.1 < 2 ^ 56) && validAt s x.1)
  let bs := ((m.map (fun x => [x.1 / 64 * 64, (x.1 + x.2 - 1) / 64 * 64])).flatten).eraseDups
  bs.filter (fun b => !(List.range 64).all (fun i => m.any (fun x => decide (x.1 ≤ b + i) && decide (b + i < x.1 + x.2))))

/-- Bytes an access writes at the stacks it touches, and the reads of blocks it writes in part (events 0x31 and 0x32, R423,
R425, R478). -/
def countWrites (s : State) (port : Nat) (l : List (Nat × Nat)) : State :=
  let narrow := narrowBlocks s l
  let s1 := (portReqs s port (writeCost s l)).foldl (fun s x => countEv s x.1 0x31 x.2.1 x.2.2) s
  narrow.foldl (fun s b => match stackOfAddr s b with | some st => countEv s (32 + st) 0x32 0 1 | none => s) s1

/-- The port sluices a write meets: a first write of a granule transfers all of it (R261, R425). -/
def writeReqs (s : State) (port : Nat) (l : List (Nat × Nat)) : List (Nat × Nat × Nat) := portReqs s port (writeCost s l)

/-- Passes an access through the port sluices of the stacks it touches (R261). -/
def stackPorts (s : State) (port q : Nat) (write : Bool) (l : List (Nat × Nat)) : State × Bool :=
  sluiceAll s q (if write then writeReqs s port l else portReqs s port l)

/-- A rill that waits at a sluice issues its instruction again. -/
def wakeAtSluice (s : State) (q : Nat) : State :=
  if 2 ^ 20 ≤ q ∧ q < 2 ^ 21 then
    { s with runnels := { s.runnels with rills := s.runnels.rills.map (fun p => if p.1 = q - 2 ^ 20 ∧ p.2.wait = .sluice then (p.1, { p.2 with wait := .none }) else p) } }
  else s

/-! ### Traffic whose effect the model does not hold back (R261, R482; notes/assumptions 35) -/

/-- Bytes of a request whose effect has been applied: it takes its tokens in its turn, waiting at the sluice like any other
request, and counts as it passes. -/
def meter (s : State) (isl p n : Nat) : State :=
  if n = 0 then s
  else if !sluiceOn s isl p then portBytes s isl p n
  else
    let s := settleSluice s isl p
    let x := getSluice s isl p
    match x.waiting.getLast? with
    | some (0, m, left) => putSluice s isl p { x with waiting := x.waiting.dropLast ++ [(0, m + n, left + n)] }
    | some _ => putSluice s isl p { x with waiting := x.waiting ++ [(0, n, n)] }
    | none =>
      let y := pay x.level n
      portBytes (putSluice s isl p { x with level := y.1, waiting := if y.2 = 0 then [] else [(0, n, y.2)] }) isl p (n - y.2)

/-- A range cut at granules of 4 KiB. -/
def granuleCuts (a n : Nat) : List (Nat × Nat) :=
  if n = 0 then []
  else (List.range ((a + n - 1) / 4096 - a / 4096 + 1)).map (fun i =>
    let x := max a ((a / 4096 + i) * 4096)
    (x, min (a + n) ((a / 4096 + i + 1) * 4096) - x))

/-- A read of stack memory for a requester class: its events and its bytes. -/
def stackRead (s : State) (port a n : Nat) : State :=
  let l := granuleCuts a n
  (portReqs s port l).foldl (fun s x => meter s x.1 x.2.1 x.2.2) (countReads s port l)

/-- A write of stack memory for a requester class, counted before the bytes are written. -/
def stackWrite (s : State) (port a n : Nat) : State :=
  let l := granuleCuts a n
  (writeReqs s port l).foldl (fun s x => meter s x.1 x.2.1 x.2.2) (countWrites s port l)

/-- Bytes of mapped 4 KiB blocks, (space, block, bytes), leave their channel islands through port `p island`. -/
def flashMoved (s : State) (p : Nat → Nat) (l : List (Nat × Nat × Nat)) : State :=
  (l.filter (fun b => (mfind s.flash.blocks (blockKey b.1 b.2.1)).isSome)).foldl (fun s b =>
    let isl := flashIsland (homeGroup s (luaOf b.1 (b.2.1 / 8)) / 2)
    meter s isl (p isl) b.2.2) s

/-- The blocks of `n` bytes of an object from an offset, with how many bytes of each. -/
def objParts (o : Obj) (off n : Nat) : List (Nat × Nat × Nat) :=
  (touched off n).filterMap (fun k => (o.block k).map (fun b => (b.1, b.2, min (off + n) (4096 * (k + 1)) - max off (4096 * k))))

/-- Port of a channel island toward a media or sieve island: its own when they share a Delta, else Headwater's (R19, R261). -/
def deltaPort (own dest isl : Nat) : Nat := if isl / 4 = dest / 4 then own else 4

end Sys2Proof.Machine
end

