-- ==== Sys2Proof/Machine/CtxOps.lean ====
section
/-!
DEFINITION. Machine/CtxOps.lean: block reasons (R271), the turnout schedule as it stands (R283-R285), scheduling events
(R276), launches as any requester orders them (R212), and the poison reports of R419.
-/
namespace Sys2Proof.Machine

/-! ### Turns (R283-R285) -/

/-- The current turn's mask and group; none without turns. -/
def currentTurn (s : State) : Option (Nat × Nat) :=
  if getA s 57 F.SCHED_TURN_CNT_COUNT = 0 then none
  else
    let n := getF s 57 F.SCHED_STATUS_TURN
    some (getA s 57 F.SCHED_TURN_MASK_REACH_MASK n, getA s 57 F.SCHED_TURN_GROUP_GROUP n)

/-- A committed turnout table waits for the next boundary (R287). -/
def turnPending (s : State) : Bool := getF s 57 F.SCHED_GROUP_TURNOUT_EPOCH_PENDING == 1

/-- The coming turns, one round of the table, each with its duration, mask and group: a pending table from its turn 0, else
the active one from the turn after the current (R283, R287). -/
def comingTurns (s : State) : List (Nat × Nat × Nat) :=
  let c := getA s 57 F.SCHED_TURN_CNT_COUNT
  if c = 0 then []
  else if turnPending s then
    (List.range (getP s 57 F.SCHED_TURN_CNT_COUNT)).map (fun n =>
      (getP s 57 F.SCHED_TURN_DUR_DURATION n, getP s 57 F.SCHED_TURN_MASK_REACH_MASK n, getP s 57 F.SCHED_TURN_GROUP_GROUP n))
  else (List.range c).map (fun i =>
    let n := (getF s 57 F.SCHED_STATUS_TURN + 1 + i) % c
    (getA s 57 F.SCHED_TURN_DUR_DURATION n, getA s 57 F.SCHED_TURN_MASK_REACH_MASK n, getA s 57 F.SCHED_TURN_GROUP_GROUP n))

/-- Mask and group of every coming turn whose lead point has passed (R285). -/
def ledTurns (s : State) : List (Nat × Nat) := ((comingTurns s).take s.sched.leads).map (·.2)

/-- A reservation (mask, group) reserves a reach of the context for another group. -/
def reservedFor (c : Ctx) (t : Nat × Nat) : Bool := (c.reaches &&& t.1) != 0 && c.group != t.2

/-- The reservations that bear on entry and eviction: the current turn, and each coming one from its lead point (R284,
R285). -/
def reservations (s : State) : List (Nat × Nat) := (currentTurn s).toList ++ ledTurns s

/-! ### Block reasons (R271) -/

/-- Unit state of a reach (R453). -/
def reachState (s : State) (r : Nat) : Nat := getF s r F.REACH_STATE_STATE

/-- A context's started rills, resident or saved. -/
def rillsOf (s : State) (ctx : Nat) : List Rill :=
  ((s.runnels.rills.filter (fun p => p.2.ctx == ctx)).map (·.2)) ++ ((s.runnels.saved.filter (fun p => p.2.ctx == ctx)).map (·.2))

/-- A ticket of a rill is that of an outstanding FETCH. -/
def fetchTicket (s : State) (r : Rill) (t : Nat) : Bool :=
  s.mem.fetches.any (fun f => match f.issuer with | .record _ op => op.uid == r.uid && op.ticket == t | _ => false)

/-- A rill waits at a UWAIT on a FETCH ticket or at an access that took a window fault. -/
def waitsFetch (s : State) (r : Rill) : Bool :=
  match r.wait with
  | .page _ => true
  | .ticket _ ts => ts.any (fun x => fetchTicket s r x.2)
  | _ => false

/-- The reason in force now, the highest-numbered one that holds. -/
def blockNow (s : State) (c : Ctx) : Nat :=
  let rs := rillsOf s c.slot
  let waitStart := c.launches.any (fun l => !l.toStart.isEmpty)
  if c.kind = 1 then 0
  else if c.quotaRefused then 7
  else if (bitList c.reaches 32).any (fun r => reachState s r != 0 && reachState s r != 4) then 6
  else if c.launches.any (fun l => !l.ready) then 5
  else if (match currentTurn s with | some t => reservedFor c t | none => false)
      || (c.st != .resident && (ledTurns s).any (reservedFor c)) then 4
  else if c.hold then 3
  else if !rs.isEmpty && !waitStart && rs.all (waitsFetch s) then 2
  else if c.launches.all (fun l => l.toStart.isEmpty && l.running == 0) then 1
  else 0

/-- Brings a context's block reason up to date: BLOCKED_SINCE and the event of R276. -/
def noteBlock (s : State) (ctx : Nat) : State :=
  match findCtx s ctx with
  | none => s
  | some c =>
    let b := blockNow s c
    if b = c.block then s
    else owe (updCtx s ctx (fun c => { c with block := b, blockedSince := if c.block = 0 then cyc s 57 else c.blockedSince })) false

def noteBlocks (s : State) : State := s.sched.ctxs.foldl (fun s c => noteBlock s c.slot) s

/-! ### Launches (R212, R288) -/

def updLaunch (s : State) (ctx lid : Nat) (f : Launch → Launch) : State :=
  updCtx s ctx (fun c => { c with launches := c.launches.map (fun l => if l.id = lid then f l else l) })

def findLaunch (s : State) (ctx lid : Nat) : Option Launch :=
  (findCtx s ctx).bind (fun c => c.launches.find? (fun l => l.id == lid))

/-- The rills of a launch, in the order of R213: reach * 128 + runnel * 32 + rank. -/
def launchRills (reaches runnels rills : Nat) : List Nat :=
  ((bitList reaches 32).map (fun r => (bitList runnels 4).map (fun n => (List.range rills).map (fun k => r * 128 + n * 32 + k)))).flatten.flatten

/-- Accepts a launch of a context: it waits as its fifth place allows, and a context out of residency becomes READY
(R212, R270). -/
def addLaunch (s : State) (ctx : Nat) (l : Launch) : State :=
  let id := s.sched.nextLaunch
  let s := { s with sched := { s.sched with nextLaunch := id + 1 } }
  let s := updCtx s ctx (fun c => { c with
    launches := c.launches ++ [{ l with id := id }]
    st := if c.st = .idle then .ready else c.st
    readySince := if c.st = .idle then cyc s 57 else c.readySince })
  noteBlock (owe s false) ctx

/-- An entry address may be fetched from: stack memory of the domain or a mapped window range (R100-R102, R110). -/
def entryOk (s : State) (dom a : Nat) : Bool :=
  match regionOf s a with
  | .stack => stackOwned s dom a 8
  | .window off =>
    match windowAt s off with
    | some w => !w.dead && domOf w.nsid == dom &&
        (match findObj s w.nsid w.obj with | some o => decide (off - w.first * MiB2 + 8 ≤ o.size) | none => false)
    | none => false
  | _ => false

/-- A range of stack memory is the domain's. -/
def stackRange (s : State) (dom a n : Nat) : Bool := regionOf s a == .stack && stackOwned s dom a n

/-! ### Fault records (R239) and poison reports (R419) -/

/-- The 32 bytes of a fault record (R239). -/
def faultRecord (status runnel rill threads pc addr reach slot seq : Nat) : List Byte :=
  toBytes 2 status ++ toBytes 1 runnel ++ toBytes 1 rill ++ toBytes 4 threads ++ toBytes 8 pc ++ toBytes 8 addr
    ++ toBytes 1 reach ++ toBytes 1 slot ++ toBytes 2 0 ++ toBytes 4 seq

/-- Writes a record to the launch's ring, when it has one and the write does not fault; SEQ and the context's fault
count advance in any case (R239). -/
def writeFault (s : State) (port ctx : Nat) (l : Launch) (rec' : Nat → List Byte) : State :=
  let a := l.ring + 32 * (l.seq % max l.ringSize 1)
  let ok := decide (l.ring ≠ 0) && stackRange s (((findCtx s ctx).map (fun c => domOf c.nsid)).getD 64) a 32
    && !extPoisoned s a 32
  let s := if ok then wrBytes (stackWrite s port a 32) a (rec' l.seq) else s
  let s := updCtx s ctx (fun c => { c with faults := c.faults + 1 })
  updLaunch s ctx l.id (fun l => { l with seq := l.seq + 1, written := l.written + b2n ok })

/-- Poison without a faulting rill is reported to the context that owns the extent at an address: its fault count, and a
record in the ring of its oldest launch that has one (R419). -/
def reportPoison (s : State) (a : Nat) : State :=
  match mfind s.mem.tags (a / MiB2) with
  | none => s
  | some t =>
    match findCtx s t.ctx with
    | none => s
    | some c =>
      match c.launches.find? (fun l => l.ring != 0) with
      | some l => writeFault s 6 c.slot l (faultRecord 0x4001 0xFF 0xFF 0 0 a 0xFF 0xFF)
      | none => updCtx s c.slot (fun c => { c with faults := c.faults + 1 })

/-- The environment makes an uncorrectable codeword of an access's data; makes a corrected one. -/
def isHit (u : Upset) : Bool := match u with | .hit | .hitAt _ => true | _ => false
def isFixed (u : Upset) : Bool := match u with | .fixed | .fixedAt _ => true | _ => false

/-- What the environment shows of the old data under a write of `n` bytes at `a` that leaves part of its codeword as it was: an
uncorrectable one is poisoned and reported, and the write goes on; a corrected one is counted (R414, R423). -/
def underWrite (s : State) (u : Upset) (a n : Nat) : State :=
  if a % granuleSize a = 0 ∧ granuleSize a ≤ n ∨ storedAt s a = false ∨ poisoned s a = true then s
  else
    if isHit u then reportPoison (markUncorrectable s a) a else if isFixed u then correctedAt s a else s

/-- Corrected codewords that a read meets, those of `fixed` that `here` admits and that are stored, are counted (R414). -/
def foundFixed (s : State) (fixed : List Nat) (here : Nat → Bool) : State :=
  (fixed.filter (fun a => here a && storedAt s a && !poisoned s a)).foldl correctedAt s

/-- What the environment shows of the old data that a write of `n` bytes at `a` leaves in its first and last codewords: uncorrectable
ones are poisoned and reported and the write goes on, corrected ones are counted (R414, R423). -/
def edgeFinds (s : State) (bad fixed : List Nat) (a n : Nat) : State :=
  let edge (x : Nat) : Bool := decide (granule a ≤ x) && decide (x < granule (a + n - 1) + granuleSize a)
    && (decide (granule x < a) || decide (a + n < granule x + granuleSize x)) && storedAt s x && !poisoned s x
  if n = 0 then s
  else ((bad.filter edge).foldl (fun s x => if poisoned s x then s else reportPoison (markUncorrectable s x) x) ((fixed.filter edge).foldl correctedAt s))

/-- A moving requester meets uncorrectable codewords of its source, those of `bad` that are stored there: the granules are
poisoned, so that the move carries the poison, and the extent of each destination `dest` is reported once (R417, R419); those of
`fixed` are counted (R414). -/
def moveFinds (s : State) (bad fixed : List Nat) (dest : Nat → Option Nat) : State :=
  let s := foundFixed s fixed (fun a => (dest a).isSome)
  let new := bad.filter (fun a => (dest a).isSome && storedAt s a && !poisoned s a)
  ((new.filterMap dest).foldl (fun acc a => if acc.2.contains (a / MiB2) then acc else (reportPoison acc.1 a, (a / MiB2) :: acc.2))
    (new.foldl markUncorrectable s, [])).1

end Sys2Proof.Machine
end

