-- ==== Sys2Proof/Machine/Fp.lean ====
section
/-!
DEFINITION. Machine/Fp.lean: binary32 arithmetic (R220), the element formats (R173, R174), rounding (R190, R221) and
the integer work of the tiles' exact sums (R176).
-/
namespace Sys2Proof.Machine

/-- A binary value: NaN, an infinity, or magnitude m * 2^e with a sign (a zero keeps its sign). -/
inductive Fp where
  | nan
  | inf (neg : Bool)
  | fin (neg : Bool) (m : Nat) (e : Int)
  deriving DecidableEq, Repr

/-- The canonical NaN (R176, R220). -/
def nan32 : Nat := 0x7FC00000

/-- Reads a float of `eb` exponent bits with bias `bias` and `f` fraction bits (R174). -/
def readFloat (eb f bias : Nat) (v : Nat) : Fp :=
  let s := bit v (eb + f)
  let ex := bits v f eb
  let fr := bits v 0 f
  if ex = 0 then .fin s fr (1 - (bias : Int) - f) else .fin s (fr + 2 ^ f) ((ex : Int) - bias - f)

/-- A binary32 pattern. -/
def dec32 (v : Nat) : Fp :=
  if bits v 23 8 = 255 then (if bits v 0 23 = 0 then .inf (bit v 31) else .nan) else readFloat 8 23 127 v

/-- floor(log2(m / d)) for m, d > 0. -/
def log2Ratio (m d : Nat) : Int :=
  let k : Int := (Nat.log2 m : Int) - Nat.log2 d
  if (if 0 ≤ k then m < d * 2 ^ k.toNat else m * 2 ^ (-k).toNat < d) then k - 1 else k

/-- A magnitude cut at a quantum 2^q: `n` whole quanta and the fraction rem / den. -/
structure Cut where
  q : Int
  n : Nat
  rem : Nat
  den : Nat

/-- Cuts the magnitude m * 2^e / d for a format of `f` fraction bits whose smallest quantum is 2^qmin. -/
def cut (f : Nat) (qmin : Int) (m : Nat) (e : Int) (d : Nat) : Cut :=
  if m = 0 then ⟨qmin, 0, 0, 1⟩ else
  let q := max (log2Ratio m d + e - f) qmin
  if q ≤ e then let x := m * 2 ^ (e - q).toNat; ⟨q, x / d, x % d, d⟩
  else let y := d * 2 ^ (q - e).toNat; ⟨q, m / y, m % y, y⟩

/-- Round to nearest, ties to even. -/
def Cut.rne (c : Cut) : Nat :=
  if c.den < 2 * c.rem ∨ (2 * c.rem = c.den ∧ c.n % 2 = 1) then c.n + 1 else c.n

/-- The stochastic rule of R190 on a magnitude of the given sign: hi if r < t and lo otherwise. -/
def Cut.stoch (c : Cut) (neg : Bool) (r : Nat) : Nat :=
  if c.rem = 0 then c.n
  else if neg then
    -- lo is the larger magnitude: u - lo = (den - rem) / den quanta
    (if r < 65536 * (c.den - c.rem) / c.den then c.n else c.n + 1)
  else (if r < 65536 * c.rem / c.den then c.n + 1 else c.n)

/-- The code of `n` quanta 2^q in a float of `f` fraction bits with smallest quantum 2^qmin. -/
def packFloat (f : Nat) (qmin : Int) (n : Nat) (q : Int) : Nat := n + (q - qmin).toNat * 2 ^ f

/-- binary32 of m * 2^e / d rounded to nearest even; overflow gives an infinity (R176, R220). -/
def rne32q (neg : Bool) (m : Nat) (e : Int) (d : Nat) : Nat :=
  let c := cut 23 (-149) m e d
  let b := packFloat 23 (-149) c.rne c.q
  (if 0x7F800000 ≤ b then 0x7F800000 else b) + b2n neg * 2 ^ 31

/-- binary32 nearest to an integer times 2^e; zero is positive. -/
def rne32 (i : Int) (e : Int) : Nat := rne32q (i < 0) i.natAbs e 1

def enc32 : Fp → Nat
  | .nan => nan32
  | .inf s => 0x7F800000 + b2n s * 2 ^ 31
  | .fin s m e => rne32q s m e 1

/-- Signed value of a finite float at quantum 2^q below or equal to its own. -/
def finInt (s : Bool) (m : Nat) (e q : Int) : Int :=
  let v : Int := m * 2 ^ (e - q).toNat
  if s then -v else v

/-- Exact sum of two values; an exact zero sum of unlike signs is +0. -/
def fpSum : Fp → Fp → Fp
  | .nan, _ => .nan
  | _, .nan => .nan
  | .inf a, .inf b => if a = b then .inf a else .nan
  | .inf a, _ => .inf a
  | _, .inf b => .inf b
  | .fin a m e, .fin b n g =>
    let q := min e g
    let t := finInt a m e q + finInt b n g q
    if t = 0 then .fin (a && b) 0 q else .fin (t < 0) t.natAbs q

/-- Exact product. -/
def fpMul : Fp → Fp → Fp
  | .nan, _ => .nan
  | _, .nan => .nan
  | .inf a, .inf b => .inf (a != b)
  | .inf a, .fin b n _ => if n = 0 then .nan else .inf (a != b)
  | .fin a m _, .inf b => if m = 0 then .nan else .inf (a != b)
  | .fin a m e, .fin b n g => .fin (a != b) (m * n) (e + g)

def fpNeg : Fp → Fp
  | .nan => .nan
  | .inf s => .inf (!s)
  | .fin s m e => .fin (!s) m e

def fadd (a b : Nat) : Nat := enc32 (fpSum (dec32 a) (dec32 b))
def fsub (a b : Nat) : Nat := enc32 (fpSum (dec32 a) (fpNeg (dec32 b)))
def fmul (a b : Nat) : Nat := enc32 (fpMul (dec32 a) (dec32 b))
/-- FFMA: a * b + c with one rounding (R220). -/
def ffma (a b c : Nat) : Nat := enc32 (fpSum (fpMul (dec32 a) (dec32 b)) (dec32 c))

/-- FDIV, correctly rounded (R220). -/
def fdiv (a b : Nat) : Nat :=
  match dec32 a, dec32 b with
  | .nan, _ => nan32
  | _, .nan => nan32
  | .inf _, .inf _ => nan32
  | .inf s, .fin t _ _ => enc32 (.inf (s != t))
  | .fin s _ _, .inf t => enc32 (.fin (s != t) 0 0)
  | .fin s m e, .fin t n g =>
    if n = 0 then (if m = 0 then nan32 else enc32 (.inf (s != t))) else rne32q (s != t) m (e - g) n

/-- Integer square root, bit by bit from bit k-1. -/
def isqrtBits (x : Nat) : Nat → Nat → Nat
  | 0, r => r
  | k + 1, r => isqrtBits x k (if (r + 2 ^ k) * (r + 2 ^ k) ≤ x then r + 2 ^ k else r)

def isqrt (x : Nat) : Nat := isqrtBits x (Nat.log2 x / 2 + 1) 0

/-- The square root of m * 2^e as a magnitude whose last bit stands for everything below it. -/
def sqrtMag (m : Nat) (e : Int) : Nat × Int :=
  let k : Int := if e % 2 = 0 then 64 else 65
  let x := m * 2 ^ k.toNat
  let r := isqrt x
  (2 * r + (if r * r = x then 0 else 1), (e - k) / 2 - 1)

/-- FSQRT, correctly rounded (R220). -/
def fsqrt (a : Nat) : Nat :=
  match dec32 a with
  | .nan => nan32
  | .inf s => if s then nan32 else 0x7F800000
  | .fin s m e =>
    if m = 0 then a else if s then nan32 else let p := sqrtMag m e; rne32q false p.1 p.2 1

/-- A result within 1 ulp of the exact magnitude m * 2^e / d: its truncation or the next, or, when the magnitude is
exact, either neighbour (R220). -/
def ulp1 (neg : Bool) (m : Nat) (e : Int) (d pick : Nat) : Nat :=
  let c := cut 23 (-149) m e d
  let t := packFloat 23 (-149) c.n c.q
  let b := if c.rem = 0 then t - 1 + pick % 3 else t + pick % 2
  (if 0x7F800000 ≤ b then 0x7F800000 else b) + b2n neg * 2 ^ 31

/-- RCP (R220). -/
def frcp (a : Nat) : Nat :=
  match dec32 a with
  | .nan => nan32
  | .inf s => b2n s * 2 ^ 31
  | .fin s m e =>
    if m = 0 then enc32 (.inf s) else ulp1 s 1 (-e) m (Config.rcpPick (BitVec.ofNat 32 a))

/-- RSQ (R220). -/
def frsq (a : Nat) : Nat :=
  match dec32 a with
  | .nan => nan32
  | .inf s => if s then nan32 else 0
  | .fin s m e =>
    if m = 0 then enc32 (.inf s) else if s then nan32
    else
      let p := sqrtMag m e
      ulp1 false 1 (-p.2) p.1 (Config.rsqPick (BitVec.ofNat 32 a))

/-- The exact fraction of a finite x, as binary32 (R220): every binary32 fraction is representable. -/
def fpFrac (s : Bool) (m : Nat) (e : Int) : Nat :=
  if 0 ≤ e then b2n s * 2 ^ 31 else rne32q s (m % 2 ^ (-e).toNat) e 1

/-! ### EXP2, LOG2, SINP, COSP: free results within the bounds of R220 -/

/-- A binary32 pattern with every NaN as the canonical one (R220). -/
def canon (v : W32) : Nat := if dec32 v.toNat = .nan then nan32 else v.toNat

/-- A pattern is finite and within b * 2^bq of t * 2^(-q). -/
def closeTo (c : Nat) (t : Int) (q b : Nat) (bq : Int) : Bool :=
  match fpSum (dec32 c) (.fin (0 < t) t.natAbs (-(q : Int))) with
  | .fin _ m e => if bq ≤ e then decide (m * 2 ^ (e - bq).toNat ≤ b) else decide (m ≤ b * 2 ^ (bq - e).toNat)
  | _ => false

/-- A free result held to its bound around the exact value t * 2^(-q); outside it the nearest binary32. -/
def boundedBy (free : W32) (t : Int) (q b : Nat) (bq : Int) : Nat :=
  if closeTo free.toNat t q b bq then free.toNat else rne32 t (-(q : Int))

/-- Exponent of the last place of binary32 at t * 2^(-q). -/
def ulpExp (t : Int) (q : Nat) : Int := if t = 0 then -149 else max ((Nat.log2 t.natAbs : Int) - q - 23) (-149)

/-- ln 2 and 2 pi, times 2^120 and 2^80. -/
def ln2Fixed : Nat := 921350637599661305226344307672478454
def tauFixed : Nat := 7595904947272677161575987

/-- The rest of an alternating or plain power series at 2^q: `n` terms from term `t` number `k`, where `next` gives the
following one. -/
def powerSeries (next : Nat → Int → Int) : Nat → Nat → Int → Int
  | 0, _, _ => 0
  | n + 1, k, t => t + powerSeries next n (k + 1) (next k t)

/-- 2^f at 2^120, for a fraction f given at 2^120. -/
def exp2Fixed (f : Nat) : Int :=
  let y : Int := (f * ln2Fixed / 2 ^ 120 : Nat)
  powerSeries (fun k t => t * y / 2 ^ 120 / (k + 1 : Nat)) 40 0 (2 ^ 120)

/-- log2 of m / d at 2^120, for 1 <= m / d < 2: the series of artanh. -/
def log2Fixed (m d : Nat) : Int :=
  let z : Int := ((m - d) * 2 ^ 120 / (m + d) : Nat)
  let z2 := z * z / 2 ^ 120
  2 * powerSeries (fun k t => t * z2 / 2 ^ 120 * (2 * k + 1 : Nat) / (2 * k + 3 : Nat)) 44 0 z * 2 ^ 120 / ln2Fixed

/-- sin and cos of 2 pi f at 2^80, for f in [-1/2, 1/2) given at 2^80. -/
def sinFixed (f : Int) : Int :=
  let y := f * tauFixed / 2 ^ 80
  let y2 := y * y / 2 ^ 80
  powerSeries (fun k t => -(t * y2 / 2 ^ 80) / ((2 * k + 2) * (2 * k + 3) : Nat)) 24 0 y
def cosFixed (f : Int) : Int :=
  let y := f * tauFixed / 2 ^ 80
  let y2 := y * y / 2 ^ 80
  powerSeries (fun k t => -(t * y2 / 2 ^ 80) / ((2 * k + 1) * (2 * k + 2) : Nat)) 24 0 (2 ^ 80)

/-- EXP2 (R220): within 2 ulp where the result is finite; elsewhere free. -/
def fexp2 (a : Nat) : Nat :=
  let free := Config.exp2 (BitVec.ofNat 32 a)
  match dec32 a with
  | .nan => nan32
  | .inf _ => canon free
  | .fin s m e =>
    -- the exponent at 2^120, which is exact to far below the bound
    let x : Int := finInt s m (max e (-300)) (-300) / 2 ^ 180
    let n := x / 2 ^ 120
    if 128 ≤ n then canon free
    else
      let t := exp2Fixed (x - n * 2 ^ 120).toNat
      let q : Nat := (120 - max n (-400)).toNat
      boundedBy free t q 2 (ulpExp t q)

/-- LOG2 (R220): within 2 ulp; NaN below zero, free at zero and infinity. -/
def flog2 (a : Nat) : Nat :=
  let free := Config.log2 (BitVec.ofNat 32 a)
  match dec32 a with
  | .nan => nan32
  | .inf s => if s then nan32 else canon free
  | .fin s m e =>
    if m = 0 then canon free
    else if s then nan32
    else
      let k := Nat.log2 m
      let t := log2Fixed m (2 ^ k) + ((k : Int) + e) * 2 ^ 120
      boundedBy free t 120 2 (ulpExp t 120)

/-- The fraction of a finite x at 2^80, brought into [-1/2, 1/2): the same point of the period. -/
def period (s : Bool) (m : Nat) (e : Int) : Int :=
  let f : Nat := if 0 ≤ e then 0 else (m % 2 ^ (-e).toNat) * 2 ^ 80 / 2 ^ (-e).toNat
  let f : Int := if 2 ^ 79 ≤ f then (f : Int) - 2 ^ 80 else f
  if s then -f else f

/-- SINP and COSP (R220): within 2^-22 for every finite x. -/
def fsinp (a : Nat) : Nat :=
  match dec32 a with
  | .fin s m e => boundedBy (Config.sinp (BitVec.ofNat 32 (fpFrac s m e))) (sinFixed (period s m e)) 80 1 (-22)
  | _ => nan32
def fcosp (a : Nat) : Nat :=
  match dec32 a with
  | .fin s m e => boundedBy (Config.cosp (BitVec.ofNat 32 (fpFrac s m e))) (cosFixed (period s m e)) 80 1 (-22)
  | _ => nan32

/-- Order of two values: none when either is NaN, else the sign of a - b; both zeros are equal (R174, R220). -/
def fpCmp : Fp → Fp → Option Int
  | .nan, _ => none
  | _, .nan => none
  | .inf a, .inf b => some (if a = b then 0 else if a then -1 else 1)
  | .inf a, _ => some (if a then -1 else 1)
  | _, .inf b => some (if b then 1 else -1)
  | .fin a m e, .fin b n g => let q := min e g; some (finInt a m e q - finInt b n g q)

/-- FMIN (`neg` false) and FMAX (`neg` true): the other operand when exactly one is NaN (R220). -/
def fminmax (mx : Bool) (a b : Nat) : Nat :=
  match fpCmp (dec32 a) (dec32 b) with
  | none => if dec32 a = .nan then (if dec32 b = .nan then nan32 else b) else a
  | some c =>
    if c = 0 then (if Config.zeroPick (BitVec.ofNat 32 a) (BitVec.ofNat 32 b) then a else b)
    else if (c < 0) != mx then a else b

def fabs (a : Nat) : Nat := if dec32 a = .nan then nan32 else a % 2 ^ 31
def fneg (a : Nat) : Nat := if dec32 a = .nan then nan32 else (if bit a 31 then a - 2 ^ 31 else a + 2 ^ 31)

/-- The comparison codes of SETP and FSETP on a difference's sign (R217). -/
def cmpCode (code : Nat) (c : Int) : Bool :=
  match code with
  | 0 => c = 0
  | 1 => c ≠ 0
  | 2 => c < 0
  | 3 => c ≤ 0
  | 4 => 0 < c
  | _ => 0 ≤ c

/-- FSETP: every comparison with a NaN is false, except NE (R217). -/
def fsetp (code a b : Nat) : Bool :=
  match fpCmp (dec32 a) (dec32 b) with
  | none => code == 1
  | some c => cmpCode code c

def i2f (a : Nat) : Nat := rne32 (sext 32 a) 0

/-- F2I: toward zero, saturating, NaN to 0 (R221). -/
def f2i (a : Nat) : Nat :=
  match dec32 a with
  | .nan => 0
  | .inf s => if s then 0x80000000 else 0x7FFFFFFF
  | .fin s m e =>
    let v := if 0 ≤ e then m * 2 ^ e.toNat else m / 2 ^ (-e).toNat
    if s then (if 0x80000000 ≤ v then 0x80000000 else wrap 32 (-(v : Int))) else (if 0x7FFFFFFF ≤ v then 0x7FFFFFFF else v)

/-! ### Element formats (R173) -/

/-- Bits of an element format (R173). -/
def elemBits (fmt : Nat) : Nat :=
  match fmt with
  | 0 => 8 | 1 => 8 | 2 => 8 | 3 => 4 | 4 => 4 | 5 => 3 | 6 => 2 | 7 => 2 | 8 => 16 | 9 => 32
  | 10 => 8 | 11 => 8 | 12 => 6 | 13 => 6 | 14 => 4 | _ => 8

/-- The value of an element code (R173, R174); MX elements are read without their scale (R196). -/
def elemFp (fmt v : Nat) : Fp :=
  let int (w : Nat) : Fp := let i := sext w v; .fin (i < 0) i.natAbs 0
  match fmt with
  | 0 | 10 => if v % 128 = 127 then .nan else readFloat 4 3 7 v
  | 1 | 11 => if bits v 2 5 = 31 then (if bits v 0 2 = 0 then .inf (bit v 7) else .nan) else readFloat 5 2 15 v
  | 2 => int 8
  | 3 | 14 => readFloat 2 1 1 v
  | 4 => int 4
  | 5 => readFloat 1 1 1 v
  | 6 => int 2
  | 7 => if v % 4 = 1 then .fin false 1 0 else if v % 4 = 3 then .fin true 1 0 else .fin false 0 0
  | 8 => dec32 (v % 65536 * 65536)
  | 12 => readFloat 2 3 1 v
  | 13 => readFloat 3 2 3 v
  | 15 => let i := sext 8 v; .fin (i < 0) i.natAbs (-6)
  | _ => dec32 v

/-- Fraction bits, smallest quantum and largest magnitude (in quanta of the smallest) of an output format: integers
have one quantum (R173, R190). -/
def fmtShape (fmt : Nat) : Nat × Int × Nat :=
  match fmt with
  | 0 => (3, -9, 448 * 512)
  | 1 => (2, -16, 57344 * 65536)
  | 2 => (1000, 0, 127)
  | 3 => (1, -1, 12)
  | 4 => (1000, 0, 7)
  | 5 => (1, -1, 3)
  | 6 => (1000, 0, 1)
  | 7 => (1000, 0, 1)
  | 8 => (7, -133, 255 * 2 ^ 253)
  | _ => (23, -149, (2 ^ 24 - 1) * 2 ^ 253)

/-- The largest code of a sign (R221, R191): INT2 reaches -2. -/
def maxCode (fmt : Nat) (neg : Bool) : Nat :=
  match fmt with
  | 0 => if neg then 0xFE else 0x7E
  | 1 => if neg then 0xFB else 0x7B
  | 2 => if neg then 0x81 else 0x7F
  | 3 => if neg then 0xF else 0x7
  | 4 => if neg then 0x9 else 0x7
  | 5 => if neg then 0x7 else 0x3
  | 6 => if neg then 0x2 else 0x1
  | 7 => if neg then 0x3 else 0x1
  | 8 => if neg then 0xFF7F else 0x7F7F
  | _ => if neg then 0xFF7FFFFF else 0x7F7FFFFF

/-- The code of a magnitude of `n` quanta 2^q. -/
def elemCode (fmt : Nat) (neg : Bool) (n : Nat) (q : Int) : Nat :=
  let sh := fmtShape fmt
  let w := elemBits fmt
  if sh.1 = 1000 then (if fmt = 7 then (if n = 0 then 0 else if neg then 3 else 1) else if neg then wrap w (-(n : Int)) else n)
  else packFloat sh.1 sh.2.1 n q + b2n neg * 2 ^ (w - 1)

/-- The random value of element `i` under a seed (R190). -/
def stochR (seed i : Nat) : Nat :=
  let m := 2 ^ 32
  let h := seed ^^^ (i % m * 0x9E3779B9 % m)
  let h := h ^^^ (h >>> 16)
  let h := h * 0x85EBCA6B % m
  let h := h ^^^ (h >>> 13)
  let h := h * 0xC2B2AE35 % m
  let h := h ^^^ (h >>> 16)
  h % 65536

/-- Converts the finite magnitude m * 2^e / d of a sign into a code: rounding as `rand` says (none: nearest even),
clamped to the format's largest value of the sign; the Boolean tells a clamp (R190, R221). -/
def quantFin (fmt : Nat) (rand : Option Nat) (neg : Bool) (m : Nat) (e : Int) (d : Nat) : Nat × Bool :=
  let sh := fmtShape fmt
  let top := if fmt = 6 ∧ neg then 2 else sh.2.2
  -- |x| beyond the largest value clamps
  if (if 0 ≤ e - sh.2.1 then d * top < m * 2 ^ (e - sh.2.1).toNat else d * top * 2 ^ (sh.2.1 - e).toNat < m) then (maxCode fmt neg, true)
  else
    let c := cut sh.1 sh.2.1 m e d
    let n := match rand with | none => c.rne | some r => c.stoch neg r
    (elemCode fmt neg n c.q, false)

/-- The NaN code of a format, where it has one; 0 otherwise (R191). -/
def nanCode (fmt : Nat) : Nat := match fmt with | 0 => 0x7F | 1 => 0x7E | 8 => 0x7FC0 | 9 => nan32 | _ => 0

/-- CVTN (R221): an FP32 pattern to a code. -/
def cvtn (fmt : Nat) (rand : Option Nat) (a : Nat) : Nat :=
  match dec32 a with
  | .nan => nanCode fmt
  | .inf s =>
    if fmt = 1 then (if s then 0xFC else 0x7C) else if fmt = 8 then (if s then 0xFF80 else 0x7F80) else maxCode fmt s
  | .fin s m e => (quantFin fmt rand s m e 1).1

/-- CVTW (R221): a code to FP32, exactly. -/
def cvtw (fmt v : Nat) : Nat := enc32 (elemFp fmt (v % 2 ^ elemBits fmt))

/-- Element `i` of a packed run (R175). -/
def elemAt (w : Nat) (l : List Byte) (i : Nat) : Nat :=
  let b := w * i
  bits (le l (b / 8) ((b % 8 + w + 7) / 8)) (b % 8) w

/-- Packs codes of `w` bits into bytes (R175). -/
def packCodes (w : Nat) (l : List Nat) : List Byte :=
  toBytes ((w * l.length + 7) / 8) (l.foldr (fun c a => c % 2 ^ w + a * 2 ^ w) 0)

end Sys2Proof.Machine
end

