-- ==== Sys2Proof/Machine/RillOps.lean ====
section
/-!
DEFINITION. Machine/RillOps.lean: what every runnel instruction shares: the rill's registers (R210), issue and fetch
(R211, R216-R218, R223), poison and stops (R237-R239), tickets (R226, R228), barriers and signals (R235, R236), and the
checks of data accesses (R222).
-/
namespace Sys2Proof.Machine

/-! ### Rills and their registers -/

def rillKey (reach runnel slot : Nat) : Nat := reach * 128 + runnel * 32 + slot
def getRill (s : State) (k : Nat) : Option Rill := mfind s.runnels.rills k
def putRill (s : State) (k : Nat) (r : Rill) : State := { s with runnels := { s.runnels with rills := mins s.runnels.rills k r } }
def dropRill (s : State) (k : Nat) : State := { s with runnels := { s.runnels with rills := mdel s.runnels.rills k } }

def Rill.get (r : Rill) (th n : Nat) : Nat := mget 0 r.regs (th * 64 + n)
/-- Writes a register and its poison bit (R210, R237). -/
def Rill.put (r : Rill) (th n v : Nat) (p : Bool) : Rill :=
  { r with regs := mset 0 r.regs (th * 64 + n) (v % 2 ^ 32), poison := mset false r.poison (th * 64 + n) p }
def Rill.bad (r : Rill) (th n : Nat) : Bool := mget false r.poison (th * 64 + n)
/-- A 64-bit value in an even-odd pair, low half in the even register (R210). -/
def Rill.get64 (r : Rill) (th n : Nat) : Nat := r.get th n + 2 ^ 32 * r.get th (n + 1)
def Rill.bad64 (r : Rill) (th n : Nat) : Bool := r.bad th n || r.bad th (n + 1)
def Rill.put64 (r : Rill) (th n v : Nat) (p : Bool) : Rill := (r.put th n v p).put th (n + 1) (v / 2 ^ 32) p
/-- Predicate p of a thread; p7 reads 1 (R210). -/
def Rill.pred (r : Rill) (th p : Nat) : Bool := p == 7 || bit (mget 0 r.preds p) th
/-- Writes a predicate; p7 ignores writes (R210). -/
def Rill.setPred (r : Rill) (th p : Nat) (v : Bool) : Rill :=
  if p = 7 then r else { r with preds := mset 0 r.preds p (setBit (mget 0 r.preds p) th v) }

/-- Divergent paths that have reached RECONV merge before an issue (R224). -/
def mergePaths : Nat → Rill → Rill
  | 0, r => r
  | n + 1, r =>
    match r.stack with
    | [] => r
    | (pc, m, rc) :: st => if r.pc = r.rcv then mergePaths n { r with pc := pc, active := m, rcv := rc, stack := st } else r

/-! ### Instruction fields (R216) -/

def fOp (w : Nat) : Nat := bits w 0 8
def fPG (w : Nat) : Nat := bits w 8 3
def fPN (w : Nat) : Bool := bit w 11
def fD (w : Nat) : Nat := bits w 12 6
def fA (w : Nat) : Nat := bits w 18 6
def fB (w : Nat) : Nat := bits w 24 6
def fC (w : Nat) : Nat := bits w 30 6
/-- MOD of the RRR format; of RI; of UNIT. -/
def fMod (w : Nat) : Nat := bits w 36 8
def fModI (w : Nat) : Nat := bits w 24 8
def fModU (w : Nat) : Nat := bits w 36 4
def fImm (w : Nat) : Nat := bits w 32 32
def fSize (w : Nat) : Nat := bits w 30 3
def fOrder (w : Nat) : Nat := bits w 33 2
def fOffset (w : Nat) : Int := sext 24 (bits w 40 24)
def fTarget (w : Nat) : Int := sext 20 (bits w 24 20)
def fReconv (w : Nat) : Int := sext 20 (bits w 44 20)

/-- Assigned opcodes (R217). -/
def knownOp (op : Nat) : Bool :=
  decide (op ≤ 0x1F) || (decide (0x30 ≤ op) && decide (op ≤ 0x34)) || (decide (0x40 ≤ op) && decide (op ≤ 0x50))
    || (decide (0x70 ≤ op) && decide (op ≤ 0x75)) || (decide (0x80 ≤ op) && decide (op ≤ 0x8D)) || op == 0xA0 || op == 0xA1
    || (decide (0xB0 ≤ op) && decide (op ≤ 0xB5)) || (decide (0xC0 ≤ op) && decide (op ≤ 0xC5))

/-! ### Barriers (R235, R238) -/

def barKey (ctx reach b : Nat) : Nat := (ctx * 32 + reach) * 16 + b

/-- Threads of a launch's stopped rills that stand as arrived on a reach (R238). -/
def departedOf (s : State) (launch reach : Nat) : Nat := mget 0 s.runnels.departed (launch * 32 + reach)

/-- The launch of a phase: the one that opened it, or that of the threads arriving next (R238). -/
def Barrier.owner (x : Barrier) (launch : Nat) : Nat := if x.count = 0 then launch else x.launch

/-- Lets the rills waiting at a barrier go on. -/
def releaseBarrier (s : State) (ctx reach b : Nat) : State :=
  { s with runnels := { s.runnels with rills := s.runnels.rills.map (fun p =>
      if p.2.ctx = ctx ∧ p.1 / 128 = reach then
        match p.2.wait with
        | .barrier bs =>
          if bs.contains b then
            (if bs.length = 1 then (p.1, { p.2 with wait := .none, pc := p.2.pc + 8 }) else (p.1, { p.2 with wait := .barrier (bs.erase b) }))
          else p
        | _ => p
      else p) } }

/-- `n` arrivals with count `b` at a barrier: completed phases release their waiters; the state after, and whether the
last of the arrivals stands in an open phase. -/
def arrive (ctx launch reach bar cnt : Nat) : Nat → Nat → State → State × Bool
  | 0, _, s => (s, false)
  | fuel + 1, n, s =>
    let k := barKey ctx reach bar
    let x := mget ({} : Barrier) s.runnels.barriers k
    let have' := x.arrived + departedOf s (x.owner launch) reach
    if n = 0 then (s, false)
    else if cnt ≤ have' + n then
      let used := cnt - have'
      let s := releaseBarrier { s with runnels := { s.runnels with barriers := mdel s.runnels.barriers k } } ctx reach bar
      arrive ctx launch reach bar cnt fuel (n - max used 1) s
    else ({ s with runnels := { s.runnels with barriers := mins s.runnels.barriers k ⟨cnt, x.arrived + n, x.owner launch⟩ } }, true)

/-- After threads have stopped, open phases whose count is now reached complete (R238). -/
def recheckBarriers (s : State) (ctx reach : Nat) : State :=
  (List.range 16).foldl (fun s b =>
    let x := mget ({} : Barrier) s.runnels.barriers (barKey ctx reach b)
    if 0 < x.count ∧ x.count ≤ x.arrived + departedOf s x.launch reach then
      releaseBarrier { s with runnels := { s.runnels with barriers := mdel s.runnels.barriers (barKey ctx reach b) } } ctx reach b
    else s) s

/-! ### Signals (R236) -/

def sigKey (ctx reach n : Nat) : Nat := (ctx * 32 + reach) * 64 + n
def getSig (s : State) (ctx reach n : Nat) : Nat := mget 0 s.runnels.signals (sigKey ctx reach n)

/-- (counter - threshold) as a signed 32-bit value is 0 or greater (R236, R253). -/
def reached (v thr : Nat) : Bool := decide (0 ≤ sext 32 (v + 2 ^ 32 - thr % 2 ^ 32))

/-- Writes a counter and lets go of the rills whose SIGWAIT is now satisfied (R236). -/
def putSig (s : State) (ctx reach n v : Nat) : State :=
  let s := { s with runnels := { s.runnels with signals := mset 0 s.runnels.signals (sigKey ctx reach n) (v % 2 ^ 32) } }
  { s with runnels := { s.runnels with rills := s.runnels.rills.map (fun p =>
      if p.2.ctx = ctx ∧ p.1 / 128 = reach then
        match p.2.wait with
        | .signal cs => if cs.all (fun c => reached (getSig s ctx reach c.1) c.2) then (p.1, { p.2 with wait := .none, pc := p.2.pc + 8 }) else p
        | _ => p
      else p) } }

/-! ### Tickets (R226, R228) -/

/-- What UWAIT writes for a thread: the status of a completed ticket, 0x1003 for one not outstanding, none while it is
outstanding (R228). -/
def ticketStatus (r : Rill) (t : Nat) : Option Nat := (mfind r.tickets t).getD (some 0x1003)

/-- Ends a UWAIT whose tickets have all completed: writes D and frees them (R228). -/
def finishWait (r : Rill) : Rill :=
  match r.wait with
  | .ticket d ts =>
    if ts.all (fun x => (ticketStatus r x.2).isSome) then
      let r' := ts.foldl (fun q x => q.put x.1 d ((ticketStatus r x.2).getD 0) false) r
      { r' with tickets := ts.foldl (fun m x => mdel m x.2) r.tickets, wait := .none, pc := r.pc + 8 }
    else r
  | _ => r

/-- A unit signals the completion of an operation (R148, R228, R229): the launch has one operation less outstanding, and
the rill that issued it, resident or saved (R277), has its ticket completed. -/
def completeOp (s : State) (op : OpRef) (status : Nat) : State :=
  let mark (r : Rill) : Rill :=
    if r.uid = op.uid then finishWait { r with tickets := mins r.tickets op.ticket (some status) } else r
  let s := updLaunch s op.ctx op.launch (fun l => { l with ops := l.ops - 1 })
  noteBlock { s with runnels := { s.runnels with
      rills := s.runnels.rills.map (fun p => (p.1, mark p.2))
      saved := s.runnels.saved.map (fun p => (p.1, mark p.2)) } } op.ctx

/-! ### Stops (R238, R239) -/

/-- What a sample says of a rill (R480, R481). -/
def rillSrc (k : Nat) (r : Rill) : Source :=
  { kind := 1, unit := r.uid, src := { ctx := r.ctx, unit := k % 128 / 32, slot := r.rslot, rill := k % 128, pc := r.pc } }

/-- An event of a rill (R478). -/
def rillEv (s : State) (k : Nat) (r : Rill) (code unit n : Nat) : State := countSrc s (k / 128) code unit r.rslot n (rillSrc k r)

/-- Stops a rill with a fault raised by the threads of a mask (R238, R239). -/
def stopRill (s : State) (k : Nat) (r : Rill) (status threads addr : Nat) : State :=
  let reach := k / 128; let runnel := k % 128 / 32; let slot := k % 32
  let s := rillEv (dropRill s k) k r 0x13 runnel 1
  let s := setF s reach F.RUN_FAULT_CODE status
  let s := setF s reach F.RUN_FAULT_RUNNEL runnel
  let s := setF s reach F.RUN_FAULT_RILL slot
  let s := setF s reach F.RUN_FAULT_SLOT r.rslot
  let s := setF s reach F.RUN_FAULT_VALID 1
  let s := setF s reach F.RUN_FAULT_PC_LO_PC r.pc
  let s := setF s reach F.RUN_FAULT_PC_HI_PC (r.pc / 2 ^ 32)
  let s := addF s reach F.RUN_FAULTS_COUNT 1
  let s := match findLaunch s r.ctx r.launch with
    | none => s
    | some l =>
      let s := writeFault s (reach / 8) r.ctx l (faultRecord status runnel slot threads r.pc addr reach r.rslot)
      updLaunch s r.ctx r.launch (fun l => { l with
        running := l.running - 1, faults := l.faults + 1
        status := if l.faults = 0 then status else l.status
        detail := if l.faults = 0 then reach + 256 * runnel + 1024 * slot else l.detail })
  let alive := popCount (r.stack.foldl (fun m e => m ||| e.2.1) r.active) 32
  let dk := r.launch * 32 + reach
  let s := { s with runnels := { s.runnels with departed := mset 0 s.runnels.departed dk (mget 0 s.runnels.departed dk + alive) } }
  noteBlock (recheckBarriers s r.ctx reach) r.ctx

/-! ### Data accesses (R222) -/

/-- Outcome of the check of one access. -/
inductive Chk where
  | ok
  | wait
  | fault (status : Nat)
  deriving DecidableEq, Repr

inductive AccKind where
  | load | store | atomic
  deriving DecidableEq, Repr

/-- Domain of a context. -/
def ctxDom (s : State) (ctx : Nat) : Nat := ((findCtx s ctx).map (fun c => domOf c.nsid)).getD 64

/-- Checks a data access of `n` bytes at an address by a thread of `ctx` on `reach` (R100-R102, R110, R111, R139, R222). -/
def checkAccess (s : State) (ctx reach a n : Nat) (k : AccKind) : State × Chk :=
  let dom := ctxDom s ctx
  if a % n ≠ 0 then (s, .fault 0x4004)
  else
    match regionOf s a with
    | .stack =>
      if stackOwned s dom a n then (if extPoisoned s a n then (s, .fault 0x4001) else (s, .ok)) else (s, .fault 0x4004)
    | .scratch r off => if scratchOk s dom ctx r off n then (s, .ok) else (s, .fault 0x4004)
    | .acc r t b row col => if k = .atomic then (s, .fault 0x4004) else if accOk s ctx r t b row col then (s, .ok) else (s, .fault 0x4004)
    | .window off =>
      if k = .load then
        match windowRead s dom reach off n with
        | (s, .data _) => (s, .ok)
        | (s, .wait) => (s, .wait)
        | (s, .fault f) => (s, .fault f)
      else (s, .fault 0x4004)
    | _ => (s, .fault 0x4004)

/-- The bytes a checked load reads. -/
def loadBytes (s : State) (ctx reach a n : Nat) : List PByte :=
  match regionOf s a with
  | .window off =>
    match windowRead s (ctxDom s ctx) reach off n with
    | (_, .data l) => l.map (fun b => ⟨b, false⟩)
    | _ => List.replicate n ⟨0, false⟩
  | _ => rdPBytes s a n

/-- A pass on a tile as the source of an event: its tile, or its quadrant in quad mode (R480, R481). -/
def TPass.source (p : TPass) (tile : Nat) : Source :=
  { kind := 2, unit := (if p.fmt % 4 = 1 then 256 * (1 + bits p.desc 6 2) else 0) + tile
    src := { ctx := p.op.ctx, unit := tile, slot := p.slot, info := p.desc % 2 ^ 64 } }

/-- An event of a pass on a tile; a sample remembers the last pass started there (R478, R480). -/
def tileEv (s : State) (reach tile : Nat) (p : TPass) (code n : Nat) : State :=
  if n = 0 then s
  else
    let x := p.source tile
    let last := ((mget ({} : Tile) s.tiles (reach * 64 + tile)).flight.filter (fun q => (q.source tile).unit == x.unit)).getLast?
    countSrc s reach code tile p.slot n { x with src := (((last.getD p).source tile).src) }

/-- The accesses of (address, bytes) pairs, one for each 128-byte line they touch: the line's address and the first and
last column of each pair on it (R164, R211). -/
def linesOf (l : List (Nat × Nat)) : List (Nat × List Nat) :=
  ((l.map (fun x => x.1 / 128)).eraseDups).map (fun ln =>
    (128 * ln, ((l.filter (fun x => x.1 / 128 == ln)).map (fun x => [x.1 % 128 / 4, min 31 ((x.1 % 128 + x.2 - 1) / 4)])).flatten))

/-- A reach-side access to a bank that a pass in flight writes freezes the tile for a cycle; in quad mode for the passes of
the quadrants whose slices it touches (R165). -/
def touchBank (s : State) (l : List (Nat × Nat)) : State :=
  (linesOf l).foldl (fun s x =>
    match regionOf s x.1 with
    | .acc r t b row _ =>
      let hit (p : TPass) : Bool := (bits p.desc 9 1 == b || bits p.desc 29 2 != 0)
        && (p.fmt % 4 != 1 || x.2.any (fun col => bits p.desc 6 2 == sliceOf row col))
      match (mget ({} : Tile) s.tiles (r * 64 + t)).flight.find? hit with
      | some p => tileEv (addF s r F.TILE_FREEZES_COUNT 1 t) r t p 0x17 1
      | none => s
    | _ => s) s

/-! ### Issue -/

/-- An instruction at its issue: the rill slot, the rill with its paths merged, the word and the executing threads. -/
structure Issue where
  key : Nat
  reach : Nat
  r : Rill
  w : Nat
  ts : List Nat

/-- What an instruction does to its rill. -/
inductive RStep where
  /-- completes; the pc moves on by 8 -/
  | done (s : State) (r : Rill)
  /-- the rill is left as given: held, or with a pc of its own -/
  | stay (s : State) (r : Rill)
  /-- stops with a status raised by threads of a mask, at a data address -/
  | stop (s : State) (status threads addr : Nat)

/-- A rill of this context may issue: resident, or draining before its stop (R277), and not held by a turn (R286). -/
def mayIssue (s : State) (reach : Nat) (r : Rill) : Bool :=
  match findCtx s r.ctx with
  | none => false
  | some c =>
    reachLive s reach && (c.st == .resident || (c.st == .leaving && !c.saving)) && !turnHolds s reach c

/-- Fetches the word at a pc (R223, R417): none with a status when the fetch faults. -/
def fetchWord (s : State) (ctx reach pc : Nat) : State × Except Chk Nat :=
  match regionOf s pc with
  | .stack =>
    if stackOwned s (ctxDom s ctx) pc 8 then
      if extPoisoned s pc 8 then (s, .error (.fault 0x4001))
      else if poisonedIn s pc 8 then (s, .error (.fault 0x4003))
      else (s, .ok (ofBytes (rdBytes s pc 8)))
    else (s, .error (.fault 0x4004))
  | .window off =>
    match windowRead s (ctxDom s ctx) reach off 8 with
    | (s, .data l) => (s, .ok (ofBytes l))
    | (s, .wait) => (s, .error .wait)
    | (s, .fault f) => (s, .error (.fault f))
  | _ => (s, .error (.fault 0x4004))

/-- Window faults the rill's accesses have raised since `s0`; `early`: its instruction has not issued (R111, R478, R480). -/
def countFaults (s0 s : State) (k : Nat) (r : Rill) (early : Bool) : State :=
  let n := getF s 57 F.TM_WIN_FAULT_COUNT - getF s0 57 F.TM_WIN_FAULT_COUNT
  if n = 0 then s else countSrc s (k / 128) 0x1F 0 r.rslot n { rillSrc k r with early := early }

/-- An uncorrectable codeword under an instruction at a fetch: its granule is poisoned and the rill stops; an object frame is fetched
again (R113, R415, R417). One already poisoned raises no further event. -/
def fetchUpset (s : State) (k : Nat) (r : Rill) : State :=
  match regionOf s r.pc with
  | .window off =>
    let s := upsetFrame s r.pc off
    noteBlock (putRill s k { r with wait := .page (flyingAt s r.pc).toList }) r.ctx
  | _ => stopRill (markUncorrectable s r.pc) k r 0x4001 r.active 0

/-- Issues the instruction at a ready rill's pc when its opcode is one of those named; otherwise nothing happens (the
command does not describe what this rill does). A fetch that faults stops the rill (R223). -/
def issue (s : State) (at' : RillAt) (ops : Nat → Bool) (body : State → Issue → RStep) : State :=
  let k := rillKey at'.reach at'.runnel at'.slot
  match getRill s k with
  | none => s
  | some r =>
    if r.wait = .none ∧ mayIssue s at'.reach r = true ∧ at'.runnel < 4 ∧ at'.slot < 32 then
      let r := mergePaths r.stack.length r
      match fetchWord s r.ctx at'.reach r.pc with
      | (s1, .error .wait) => noteBlock (putRill (countFaults s s1 k r true) k { r with wait := .page (flyingAt s1 r.pc).toList }) r.ctx
      | (s1, .error (.fault f)) => stopRill s1 k r f r.active 0
      | (_, .error .ok) => s
      | (s1, .ok w) =>
        if ops (fOp w) = false then s
        else if at'.upset = .fetch then fetchUpset s1 k r
        else
          let ts := (bitList r.active 32).filter (fun th => r.pred th (fPG w) != fPN w)
          let issued (s' : State) : State :=
            rillEv (countFaults s (capturePoint s.counters.captures s' at'.reach (rillSrc k r)) k r false) k r 0x10 at'.runnel 1
          match body s1 ⟨k, at'.reach, r, w, ts⟩ with
          | .done s' r' => noteBlock (putRill (issued s') k { r' with pc := r'.pc + 8 }) r.ctx
          | .stay s' r' =>
            -- an access that waits for its page or a sluice issues again
            let s' := match r'.wait with | .page _ | .sluice => countFaults s s' k r true | _ => issued s'
            noteBlock (putRill s' k r') r.ctx
          | .stop s' st ths a => stopRill (issued s') k r st ths a
    else s

/-- Mask of threads. -/
def thMask (l : List Nat) : Nat := maskOf l

/-- Stops with 0x1002 unless the format's reserved bits are 0, MOD is in range and the registers are aligned (R218). -/
def guardFmt (s : State) (i : Issue) (ok : Bool) (k : RStep) : RStep := if ok then k else .stop s 0x1002 (thMask i.ts) 0

/-- Stops with 0x4003 when a consumed register is poisoned for an executing thread (R237). -/
def guardPoison (s : State) (i : Issue) (bad : Nat → Bool) (k : RStep) : RStep :=
  let l := i.ts.filter bad
  if l.isEmpty then k else .stop s 0x4003 (thMask l) 0

/-- A checked operation meets a residue mismatch: the environment's, an error that is no multiple of 7, or RUN_INJECT armed on a
lane that executes; port p serves lanes 32p to 32p + 31 (R240, R241, R421). Any instruction may meet an uncorrectable word of
the register area (R238): the registers of a rill that stops hold nothing more. A corrected word is counted and changes
nothing else (R414). -/
def guardUpset (s : State) (i : Issue) (upset : Upset) (checked : Bool) (k : State → RStep) : RStep :=
  let lane := getF s i.reach F.RUN_INJECT_LANE
  let hit := getF s i.reach F.RUN_INJECT_ARM == 1 && getF s i.reach F.RUN_INJECT_RUNNEL == i.key % 128 / 32
    && lane / 32 == i.key % 2 && i.ts.contains (lane % 32)
  let mismatch (s : State) (th : Nat) : RStep := .stop (addF s i.reach F.RUN_RESIDUE_COUNT 1) 0x4002 (2 ^ th) 0
  let register (th : Nat) : RStep := if i.ts.contains th then .stop (eventIn s i.reach 0 0 true) 0x4001 (2 ^ th) 0 else k s
  if checked ∧ hit then mismatch (setF s i.reach F.RUN_INJECT_ARM 0) (lane % 32)
  else
    match upset with
    | .hit => if i.ts.isEmpty then k s else if checked then mismatch s (i.ts.headD 0) else register (i.ts.headD 0)
    | .hitAt th | .register th => register th
    | .error th e => if checked && i.ts.contains th && e % 7 != 0 then mismatch s th else k s
    | .fixed | .fixedAt _ => k (eventIn s i.reach 0 0 false)
    | .inner => k (eventIn s i.reach 4 0 false)
    | _ => k s

/-- The value of an error on a checked path that its check does not see (R421). -/
def unseen (u : Upset) (th : Nat) : Nat :=
  match u with | .error t e => if t = th ∧ e % 7 = 0 then e else 0 | _ => 0

/-- An instruction that computes a register from registers, thread by thread: `modOk` the legal MOD values, `nsrc` how
many of A, B, C it reads, `f` the value from MOD and the thread's registers. The result is poisoned when a source is
(R237). -/
def aluX (s : State) (at' : RillAt) (op : Nat) (modOk : Nat → Bool) (checked : Bool) (nsrc : Nat → Nat)
    (f : Nat → Nat → Nat → Nat → Nat) : State :=
  issue s at' (· == op) fun s i =>
    guardFmt s i (bits i.w 44 20 == 0 && modOk (fMod i.w)) <|
    guardUpset s i at'.upset checked fun s =>
    .done s (i.ts.foldl (fun r th =>
      let n := nsrc (fMod i.w)
      let p := (decide (0 < n) && i.r.bad th (fA i.w)) || (decide (1 < n) && i.r.bad th (fB i.w)) || (decide (2 < n) && i.r.bad th (fC i.w))
      let v := f (fMod i.w) (i.r.get th (fA i.w)) (i.r.get th (fB i.w)) (i.r.get th (fC i.w))
      r.put th (fD i.w) (if checked then (v + unseen at'.upset th) % 2 ^ 32 else v) p) i.r)

/-- A two-source instruction without MOD. -/
def alu (s : State) (at' : RillAt) (op : Nat) (checked : Bool) (f : Nat → Nat → Nat) : State :=
  aluX s at' op (· == 0) checked (fun _ => 2) (fun _ a b _ => f a b)

/-- A one-source instruction without MOD. -/
def alu1 (s : State) (at' : RillAt) (op : Nat) (f : Nat → Nat) : State :=
  aluX s at' op (· == 0) false (fun _ => 1) (fun _ a _ _ => f a)

/-- The same on 64-bit pairs (R210, R216). -/
def alu64 (s : State) (at' : RillAt) (op : Nat) (f : Nat → Nat → Nat) : State :=
  issue s at' (· == op) fun s i =>
    guardFmt s i (bits i.w 44 20 == 0 && fMod i.w == 0 && fD i.w % 2 == 0 && fA i.w % 2 == 0 && fB i.w % 2 == 0) <|
    guardUpset s i at'.upset true fun s =>
    .done s (i.ts.foldl (fun r th =>
      r.put64 th (fD i.w) ((f (i.r.get64 th (fA i.w)) (i.r.get64 th (fB i.w)) + unseen at'.upset th) % 2 ^ 64) (i.r.bad64 th (fA i.w) || i.r.bad64 th (fB i.w))) i.r)

end Sys2Proof.Machine
end

