-- ==== Sys2Proof/Machine/Rot.lean ====
section
/-!
DEFINITION. Machine/Rot.lean: the rotation and quantisation path (R183-R197, R201, R202, R206), one group, block or vector at a
time.
-/
namespace Sys2Proof.Machine

/-- The active set of profile p of a reach (R193, R195). -/
def profOf (s : State) (reach p : Nat) : Prof :=
  let g (f : Field) := getA s reach f p
  { op := g F.ROT_PCFG_OP, rotEn := g F.ROT_PCFG_ROT_EN == 1, rotSize := 32 * 2 ^ g F.ROT_PCFG_ROT_SIZE
    outFmt := g F.ROT_PCFG_OUT_FMT, gsize := 32 * 2 ^ g F.ROT_PCFG_GSIZE, round := g F.ROT_PCFG_ROUND == 1
    inFmt := g F.ROT_PCFG_IN_FMT, seed := g F.ROT_PSEED_SEED
    param := g F.ROT_PPARAM_LO_ADDR * 64 + g F.ROT_PPARAM_HI_ADDR * 2 ^ 32
    sign := g F.ROT_PSIGN_0_SIGN + g F.ROT_PSIGN_1_SIGN * 2 ^ 32 + g F.ROT_PSIGN_2_SIGN * 2 ^ 64 + g F.ROT_PSIGN_3_SIGN * 2 ^ 96
    len := g F.ROT_PDIM_LEN, side := g F.ROT_PSIDE_LO_ADDR * 4 + g F.ROT_PSIDE_HI_ADDR * 2 ^ 32 }

/-- Bytes of one MX segment of a channel (R196): a block of 32, or two for MXFP4. -/
def mxSegBytes (fmt : Nat) : Nat := match fmt with | 10 | 11 | 15 => 33 | 12 | 13 => 25 | _ => 34

/-- Input bytes of one unit of work: a group, a block of 32 channels, a vector or a moment block (R183, R185). -/
def Prof.unitBytes (p : Prof) : Nat :=
  let eb := elemBits p.inFmt / 8
  match p.op with
  | 1 | 5 => p.gsize * eb
  | 2 => 32 * p.gsize * eb
  | 3 => 32 * mxSegBytes p.inFmt
  | 4 => p.len * eb
  | 6 | 7 => 512
  | _ => 1

/-- Elements of one unit. -/
def Prof.unitElems (p : Prof) : Nat :=
  match p.op with
  | 1 | 5 => p.gsize
  | 2 => 32 * p.gsize
  | 3 => 32 * (if p.inFmt = 14 then 64 else 32)
  | 4 => p.len
  | 6 | 7 => 128
  | _ => 1

/-- What one unit gives. -/
structure RotOut where
  main : List Byte
  side : List Byte
  /-- clamped elements; non-finite inputs (R191) -/
  sat : Nat
  nan : Nat
  /-- status the stream stops with, 0 none (R197) -/
  fault : Nat
  deriving DecidableEq, Repr

/-- The elements of a unit as FP32 patterns. -/
def elems32 (fmt : Nat) (l : List Byte) : List Nat :=
  let w := elemBits fmt
  (List.range (8 * l.length / w)).map (fun i => cvtw fmt (elemAt w l i))

def isFinite (v : Nat) : Bool := bits v 23 8 != 255

/-! ### Rotation (R186) -/

/-- One butterfly stage of distance `h` on a block. -/
def butterfly (h : Nat) (l : List Nat) : List Nat :=
  (List.range l.length).map (fun i =>
    let a := l.getD i 0
    if i / h % 2 = 0 then fadd a (l.getD (i + h) 0) else fsub (l.getD (i - h) 0) a)

/-- Stages of distance 1, 2, 4, … below n. -/
def stages : Nat → Nat → List Nat → List Nat
  | 0, _, l => l
  | k + 1, h, l => stages k (2 * h) (butterfly h l)

/-- A rotation of one block of n = 32, 64 or 128 elements. -/
def rotateBlock (n sign : Nat) (l : List Nat) : List Nat :=
  let x := l.zipIdx.map (fun v => if bit sign v.2 then fneg v.1 else v.1)
  let k := if n = 32 then 5 else if n = 64 then 6 else 7
  let e := if n = 128 then 4 else 3
  (stages k 1 x).map (fun v => fmul v ((127 - e) * 2 ^ 23))

def chunksOf (n : Nat) (l : List Nat) : List (List Nat) := (List.range (l.length / max n 1)).map (fun i => (l.drop (n * i)).take n)

/-- The rotation of consecutive blocks, when the profile rotates. -/
def Prof.rotate (p : Prof) (l : List Nat) : List Nat :=
  if p.rotEn then ((chunksOf p.rotSize l).map (rotateBlock p.rotSize p.sign)).flatten else l

/-- The set that covers element `i` of a unit: one of those under which the unit began, else the active one (R195). -/
def setOf (olds : List (Nat × Prof)) (p : Prof) (i : Nat) : Prof := ((olds.find? (fun o => decide (i < o.1))).map (·.2)).getD p

/-- The rotation of the elements of a group from element `b` of its unit on, each block under the set it began with; elements that
fill no block stay as they are (R195; DESIGN CHOICE, notes/assumptions 33). -/
def rotateAcross (olds : List (Nat × Prof)) (p : Prof) : Nat → Nat → List Nat → List Nat
  | 0, _, l => l
  | _ + 1, _, [] => []
  | n + 1, b, l =>
    let q := setOf olds p b
    let k := if q.rotEn then q.rotSize else 32
    if l.length < k then l
    else (if q.rotEn then rotateBlock k q.sign (l.take k) else l.take k) ++ rotateAcross olds p n (b + k) (l.drop k)

/-- A group's elements from element `b` of its unit on, rotated. -/
def rotateGroup (olds : List (Nat × Prof)) (p : Prof) (b : Nat) (l : List Nat) : List Nat :=
  if olds.isEmpty then p.rotate l else rotateAcross olds p l.length b l

/-- Elements from one boundary of the path to the next: a rotation block; else a group, vector or moment block (R195). -/
def Prof.boundary (p : Prof) : Nat :=
  match p.op with
  | 1 | 2 | 5 => if p.rotEn then p.rotSize else p.gsize
  | 3 => if p.inFmt = 14 then 64 else 32
  | _ => p.unitElems

/-- Elements of a profile's input in some bytes of it. -/
def Prof.elemsIn (p : Prof) (n : Nat) : Nat := n * p.unitElems / max 1 p.unitBytes

/-! ### Scales (R188, R189) -/

/-- The largest finite magnitude of a group, as m * 2^e; 0 when there is none. -/
def amaxOf (l : List Nat) : Nat := (l.filter isFinite).foldl (fun m v => max m (v % 2 ^ 31)) 0

/-- fmax of R188 and R189. -/
def fmaxOf (fmt : Nat) : Nat × Int :=
  match fmt with
  | 0 => (448, 0) | 1 => (57344, 0) | 2 => (127, 0) | 3 => (6, 0) | 4 => (7, 0) | 5 => (3, -1) | _ => (1, 0)

/-- Magnitude and exponent of a finite FP32 pattern. -/
def mag32 (v : Nat) : Nat × Int := match dec32 v with | .fin _ m e => (m, e) | _ => (0, 0)

/-- The group exponent X (R188). -/
def groupX (fmt amax : Nat) : Nat :=
  if amax = 0 then 127
  else
    let (m, e) := mag32 amax
    let f := (fmaxOf fmt).1
    let k := log2Ratio m f
    -- ceil: m * 2^e / f is 2^k * 2^e exactly, or above it
    let c := if (if 0 ≤ k then m = f * 2 ^ k.toNat else m * 2 ^ (-k).toNat = f) then k else k + 1
    (max 1 (min 254 (127 + c + e))).toNat

/-- Quantises one FP32 pattern at scale 2^x * (sm * 2^se) of a sign: code and whether it clamped (R190, R191). -/
def quantElem (fmt : Nat) (rand : Option Nat) (v : Nat) (sneg : Bool) (sm : Nat) (se : Int) : Nat × Bool :=
  match dec32 v with
  | .nan => (nanCode fmt, false)
  | .inf s => (maxCode fmt (s != sneg), false)
  | .fin s m e => quantFin fmt rand (s != sneg) m (e - se) sm

def Prof.rand (p : Prof) (i : Nat) : Option Nat := if p.round then some (stochR p.seed (i % 2 ^ 32)) else none

/-- ACT and GRAD on one group, already rotated: codes, X, clamped. -/
def quantGroup (p : Prof) (base : Nat) (l : List Nat) : List Nat × Nat × Nat :=
  let x := groupX p.outFmt (amaxOf l)
  let q := l.zipIdx.map (fun v => quantElem p.outFmt (p.rand (base + v.2)) v.1 false 1 ((x : Int) - 127))
  (q.map (·.1), x, (q.filter (·.2)).length)

/-- RATIO of R192: rotated elements, their codes and the group's X. DESIGN CHOICE (notes/assumptions 33): 65,535 where a sum is
not finite. -/
def ratioOf (fmt x : Nat) (l codes : List Nat) : Nat :=
  let sc := (x : Int) - 127
  let pr := (l.zip codes).foldl (fun (acc : Nat × Nat) v =>
    let q := match elemFp fmt v.2 with | .fin s m e => enc32 (.fin s m (e + sc)) | _ => nan32
    (fadd acc.1 (fabs (fsub v.1 q)), fadd acc.2 (fabs v.1))) (0, 0)
  match dec32 pr.1, dec32 pr.2 with
  | .fin _ m e, .fin _ n g =>
    if n = 0 then 0
    else
      let d := e - g
      min 65535 (if 0 ≤ d then 65536 * m * 2 ^ d.toNat / n else 65536 * m / (n * 2 ^ (-d).toNat))
  | _, _ => 65535

/-- ACT (R183): a row's group, with its side entry for INT8, FP4 and INT4 (R182). -/
def rotAct (olds : List (Nat × Prof)) (p : Prof) (base : Nat) (l : List Nat) : RotOut :=
  let y := rotateGroup olds p 0 l
  let (codes, x, sat) := quantGroup p base y
  let side := if p.outFmt = 2 ∨ p.outFmt = 3 ∨ p.outFmt = 4 then toBytes 1 x ++ [0] ++ toBytes 2 (ratioOf p.outFmt x y codes) else []
  ⟨packCodes (elemBits p.outFmt) codes, side, sat, (l.filter (fun v => !isFinite v)).length, 0⟩

/-- GRAD (R183, R201): elements and a 1-byte X. -/
def rotGrad (olds : List (Nat × Prof)) (p : Prof) (base : Nat) (l : List Nat) : RotOut :=
  let y := rotateGroup olds p 0 l
  let (codes, x, sat) := quantGroup p base y
  ⟨packCodes (elemBits p.outFmt) codes, toBytes 1 x, sat, (l.filter (fun v => !isFinite v)).length, 0⟩

/-- The exponent offset of one channel's group (R189): the largest E of 0 to 15 that keeps it in range, else 0. -/
def weightE (fmt sc : Nat) (l : List Nat) : Nat :=
  let fin := l.filter isFinite
  let pmax := amaxOf (fin.filter (fun v => !bit v 31))
  let nmax := amaxOf (fin.filter (fun v => bit v 31))
  match dec32 sc with
  | .fin false m e =>
    let fits (a : Nat) (f : Nat × Int) (k : Nat) : Bool :=
      let (am, ae) := mag32 a
      let d := ae - (e - k + f.2)
      if 0 ≤ d then decide (am * 2 ^ d.toNat ≤ m * f.1) else decide (am ≤ m * f.1 * 2 ^ (-d).toNat)
    let ok (k : Nat) : Bool :=
      if fmt = 6 then fits pmax (1, 0) k && fits nmax (2, 0) k else fits (max pmax nmax) (fmaxOf fmt) k
    (((List.range 16).reverse).find? ok).getD 0
  | .inf false => 15
  | _ => if max pmax nmax = 0 then 15 else 0

/-- Depth D of a weight format: products along the reduction in a pass. -/
def depthOf (fmt : Nat) : Nat := match fmt with | 3 | 4 | 5 => 64 | 6 | 7 => 128 | _ => 32

/-- Lays the codes of 32 channels of one group out as KG blocks: GSIZE / D blocks of 32 array rows (R180). -/
def kgBlocks (fmt gsize : Nat) (chan : List (List Nat)) : List Byte :=
  let d := depthOf fmt
  let u := d / 32
  let w := elemBits fmt
  ((List.range (gsize / d)).map (fun b =>
    ((List.range 32).map (fun i =>
      packCodes w ((List.range (32 * u)).map (fun pos =>
        (chan.getD (pos / u) []).getD (b * d + i * u + pos % u) 0)))).flatten)).flatten

/-- A sidecar entry: nibble j is column j's offset (R181). -/
def sidecarEntry (es : List Nat) : List Byte := packCodes 4 es

/-- FP32 channel scale c of a parameter vector (R185). -/
def chanScale (s : State) (param c : Nat) : Nat := ofBytes (rdBytes s (param + 4 * c) 4)

/-- A code a quantiser may give in place of an open value: a finite one it produces, else the NaN code (R174, R191). -/
def producible (fmt c : Nat) : Nat :=
  let c := c % 2 ^ elemBits fmt
  if fmt = 2 ∧ c = 0x80 ∨ fmt = 4 ∧ c = 8 ∨ fmt = 7 ∧ c = 2 then 0
  else match elemFp fmt c with | .fin _ _ _ => c | _ => nanCode fmt

/-- One element of WEIGHT at a channel scale and offset E (R189-R191). A zero scale has no range: every element but zero
lies beyond it. At an infinite scale a finite element is zero. Under a NaN scale the code of a finite element is free
(notes/assumptions 3). -/
def weightElem (fmt : Nat) (rand : Option Nat) (sc e v : Nat) : Nat × Bool :=
  match dec32 v, dec32 sc with
  | .nan, _ => (nanCode fmt, false)
  | .inf s, .fin neg _ _ => (maxCode fmt (s != neg), false)
  | .inf s, .inf neg => (maxCode fmt (s != neg), false)
  | .inf s, .nan => (maxCode fmt s, false)
  | .fin s m g, .fin neg sm sg =>
    if sm = 0 then (if m = 0 then quantFin fmt none (s != neg) 0 0 1 else (maxCode fmt (s != neg), true))
    else quantFin fmt rand (s != neg) m (g - (sg - (e : Int))) sm
  | .fin s _ _, .inf neg => quantFin fmt none (s != neg) 0 0 1
  | .fin _ _ _, .nan => (producible fmt (Config.badScaleCode (BitVec.ofNat 32 sc) (BitVec.ofNat 32 v)), false)

/-- WEIGHT (R183, R185, R189): 32 segments of GSIZE elements of output block `ob`, each quantised under the set it ended with
(R195). -/
def rotWeight (s : State) (olds : List (Nat × Prof)) (p : Prof) (base ob : Nat) (l : List Nat) : RotOut :=
  let r := (List.range 32).map (fun j =>
    let w := setOf olds p (p.gsize * (j + 1) - 1)
    let seg := rotateGroup olds p (p.gsize * j) ((l.drop (p.gsize * j)).take p.gsize)
    let sc := chanScale s w.param (32 * ob + j)
    let e := weightE w.outFmt sc seg
    let q := seg.zipIdx.map (fun v => weightElem w.outFmt (w.rand (base + p.gsize * j + v.2)) sc e v.1)
    (q.map (·.1), e, (q.filter (·.2)).length))
  ⟨kgBlocks p.outFmt p.gsize (r.map (·.1)), sidecarEntry (r.map (·.2.1)), (r.map (·.2.2)).foldl (· + ·) 0,
   (l.filter (fun v => !isFinite v)).length, 0⟩

/-- KG element format of an MX input (R196). -/
def mxOut (fmt : Nat) : Nat := match fmt with | 11 => 1 | 14 => 3 | 15 => 2 | _ => 0

/-- log2 of a positive power of two, as FP32 (R197). -/
def pow2Log (v : Nat) : Option Int :=
  match dec32 v with
  | .fin false m e => if m ≠ 0 ∧ m = 2 ^ Nat.log2 m then some ((Nat.log2 m : Int) + e) else none
  | _ => none

/-- One channel's group of the MX operation (R196, R197): codes, E, clamped, non-finite. -/
def mxGroup (fmt : Nat) (ls : Int) (seg : List Byte) : List Nat × Nat × Nat × Nat :=
  let blocks := if fmt = 14 then [seg.take 17, (seg.drop 17).take 17] else [seg]
  let w := elemBits fmt
  let xb (b : List Byte) : Nat := (b.headD 0).toNat
  let xm := (blocks.map xb).foldl max 0
  let xe : Int := (xm : Int) - (if fmt = 15 then 6 else 0)
  let e0 := ls + 127 - xe
  let shift : Int := if e0 < 0 then -e0 else if 15 < e0 then 15 - e0 else 0
  let e := (max 0 (min 15 e0)).toNat
  let r := (blocks.map (fun b =>
    (List.range 32).map (fun i =>
      let c := elemAt w (b.drop 1) i
      if xb b = 255 then (0, false, true)
      else if fmt = 15 ∧ shift = 0 then (c, false, false)
      else
        let v := if fmt = 15 then elemFp 2 c else elemFp fmt c
        let down : Int := (xb b : Int) - xm
        match v with
        | .nan => (nanCode (mxOut fmt), false, true)
        | .inf s => (maxCode (mxOut fmt) s, false, true)
        | .fin s m g =>
          let q := quantFin (mxOut fmt) none s m (g + down + shift) 1
          (q.1, q.2, false)))).flatten
  (r.map (·.1), e, (r.filter (·.2.1)).length, (r.filter (·.2.2)).length)

/-- MX (R183, R196, R197): stops with 0x1003 where a channel scale is no positive power of two. -/
def rotMx (s : State) (olds : List (Nat × Prof)) (p : Prof) (ob : Nat) (l : List Byte) : RotOut :=
  let n := mxSegBytes p.inFmt
  let ls := (List.range 32).map (fun j => pow2Log (chanScale s (setOf olds p (p.boundary * (j + 1) - 1)).param (32 * ob + j)))
  if ls.any (·.isNone) then ⟨[], [], 0, 0, 0x1003⟩
  else
    let r := (List.range 32).map (fun j => mxGroup p.inFmt ((ls.getD j none).getD 0) ((l.drop (n * j)).take n))
    let g := if p.inFmt = 14 then 64 else 32
    ⟨kgBlocks (mxOut p.inFmt) g (r.map (·.1)), sidecarEntry (r.map (·.2.1)), (r.map (·.2.2.1)).foldl (· + ·) 0,
     (r.map (·.2.2.2)).foldl (· + ·) 0, 0⟩

/-- Rounds a magnitude m * 2^e / d to an integer under ROUND. -/
def roundInt (rand : Option Nat) (neg : Bool) (m : Nat) (e : Int) (d : Nat) : Nat :=
  let c := cut 1000000 0 m e d
  match rand with | none => c.rne | some r => c.stoch neg r

/-- The SQ8 code of x with offset o and step t, and whether a finite x was clamped to it (R193, R206). -/
def sq8Clamp (x o t : Nat) : Nat × Bool :=
  match dec32 (fdiv (fsub x o) t) with
  | .nan => (0, false)
  | .inf s => (if s then 0 else 255, isFinite x)
  | .fin s m e =>
    let n := if 64 ≤ log2Ratio (max m 1) 1 + e then 256 else roundInt none false m e 1
    if s then (0, n != 0) else (min 255 n, decide (255 < n))

def sq8Code (x o t : Nat) : Nat := (sq8Clamp x o t).1

/-- SQ8 (R183, R206): the parameter vector holds LEN offsets and then LEN steps (R305). -/
def rotSq8 (s : State) (p : Prof) (l : List Nat) : RotOut :=
  let q := l.zipIdx.map (fun v => sq8Clamp v.1 (chanScale s p.param v.2) (chanScale s p.param (p.len + v.2)))
  ⟨q.map (fun v => BitVec.ofNat 8 v.1), [], (q.filter (·.2)).length, (l.filter (fun v => !isFinite v)).length, 0⟩

/-- Codes of a moment block at FP32 scale `sc` with largest code `top` (R202). -/
def momCodes (p : Prof) (base top sc : Nat) (l : List Nat) : List (Int × Bool) :=
  let (sm, se) := mag32 sc
  l.zipIdx.map (fun v =>
    match dec32 v.1 with
    | .nan => (0, false)
    | .inf s => (if s then -(top : Int) else top, false)
    | .fin s m e =>
      let n := if m = 0 then 0 else if sm = 0 ∨ 40 ≤ log2Ratio m (max sm 1) + (e - se) then top + 1 else roundInt (p.rand (base + v.2)) s m (e - se) sm
      let c := min n top
      (if s then -(c : Int) else c, decide (top < n)))

/-- MOM1 (R202). -/
def rotMom1 (p : Prof) (base : Nat) (l : List Nat) : RotOut :=
  let am := amaxOf l
  let sc := fdiv am (rne32 127 0)
  let q := if am = 0 then l.map (fun _ => ((0 : Int), false)) else momCodes p base 127 sc l
  ⟨q.map (fun v => BitVec.ofNat 8 (wrap 8 v.1)), toBytes 4 (if am = 0 then 0 else sc), (q.filter (·.2)).length, (l.filter (fun v => !isFinite v)).length, 0⟩

/-- MOM2 (R202): the square roots; a negative element counts as 0 and in ROT_SAT. -/
def rotMom2 (p : Prof) (base : Nat) (l : List Nat) : RotOut :=
  let neg (v : Nat) : Bool := bit v 31 && v % 2 ^ 31 != 0 && decide (v % 2 ^ 31 ≤ 255 * 2 ^ 23)
  let t := l.map (fun v => if isFinite v && bit v 31 then 0 else fsqrt v)
  let am := amaxOf t
  let sc := fdiv am (rne32 255 0)
  let q := if am = 0 then t.map (fun _ => ((0 : Int), false)) else momCodes p base 255 sc t
  ⟨q.map (fun v => BitVec.ofNat 8 (max v.1 0).toNat), toBytes 4 (if am = 0 then 0 else sc), (q.filter (·.2)).length + (l.filter neg).length,
   (l.filter (fun v => !isFinite v)).length, 0⟩

/-- One unit of a stream: `base` its first element's index, `q` its group or block index, `olds` the sets under which it began
(R183, R185, R190, R195). -/
def rotUnit (s : State) (olds : List (Nat × Prof)) (p : Prof) (base q : Nat) (l : List Byte) : RotOut :=
  let ob := q / max 1 (p.len / (if p.op = 3 then (if p.inFmt = 14 then 64 else 32) else p.gsize))
  match p.op with
  | 1 => rotAct olds p base (elems32 p.inFmt l)
  | 2 => rotWeight s olds p base ob (elems32 p.inFmt l)
  | 3 => rotMx s olds p ob l
  | 4 => rotSq8 s p (elems32 p.inFmt l)
  | 5 => rotGrad olds p base (elems32 p.inFmt l)
  | 6 => rotMom1 p base (elems32 p.inFmt l)
  | 7 => rotMom2 p base (elems32 p.inFmt l)
  | _ => ⟨l, [], 0, 0, 0⟩

/-- The activation shadow of a group (R199): E4M3 of the rotated elements times 2^(127 - X), with the row's own X, rounded
as the profile rounds the elements of those indices (R190, R257). -/
def shadowRow (p : Prof) (base x : Nat) (l : List Byte) : List Nat :=
  (p.rotate (elems32 p.inFmt l)).zipIdx.map (fun v => (quantElem 0 (p.rand (base + v.2)) v.1 false 1 ((x : Int) - 127)).1)

end Sys2Proof.Machine
end

