-- ==== Sys2Proof/Machine/SearchOps.lean ====
section
/-!
DEFINITION. Machine/SearchOps.lean: codes and distances (R308-R310), the stored form of collections (R306, R312, R315), the
results of a query (R328), and what the end of an embedding or rerank launch does (R324, R327, R97).
-/
namespace Sys2Proof.Machine

def updSearch (s : State) (f : Search → Search) : State := { s with search := f s.search }
def findColl (s : State) (no : Nat) : Option Coll := s.search.colls.find? (fun c => c.no == no)
def updColl (s : State) (no : Nat) (f : Coll → Coll) : State :=
  updSearch s fun x => { x with colls := x.colls.map (fun c => if c.no = no then f c else c) }
def findPool (c : Coll) (p : Nat) : Option Pool := c.pools.find? (fun x => x.no == p)
def updPool (c : Coll) (p : Nat) (f : Pool → Pool) : Coll := { c with pools := c.pools.map (fun x => if x.no = p then f x else x) }
def findNode (l : List Node) (n : Nat) : Option Node := l.find? (fun x => x.no == n)
def findQuery (s : State) (id : Nat) : Option Query := s.search.queries.find? (fun q => q.id == id)
def updQuery (s : State) (id : Nat) (f : Query → Query) : State :=
  updSearch s fun x => { x with queries := x.queries.map (fun q => if q.id = id then f q else q) }

/-- An OBJECT_ID is held by a tombstone of the namespace (R302). -/
def tombed (s : State) (nsid obj : Nat) : Bool := s.search.tombs.any (fun t => t.nsid == nsid && t.id == obj)

/-! ### Codes and distances (R308, R309) -/

/-- Encodes FP32 values with a collection's parameter vector (R206, R308). -/
def Coll.encode (c : Coll) (l : List Byte) : List Byte :=
  (List.range c.dim).map (fun d => BitVec.ofNat 8 (sq8Code (le l (4 * d) 4) (c.offs.getD d 0) (c.steps.getD d 0)))

/-- Sum of a function of the code pairs. -/
def pairSum (f : Int → Int → Int) (a b : List Byte) : Int :=
  (List.zipWith (fun x y => f x.toNat y.toNat) a b).foldl (· + ·) 0

/-- DIST of a query and stored codes (R309). -/
def distOf (metric : Nat) (a b : List Byte) : Int :=
  if metric = 1 ∨ metric = 3 then pairSum (fun x y => (x - y) * (x - y)) a b else - pairSum (fun x y => (x - 128) * (y - 128)) a b

/-- The order of R310. -/
def candLt (a b : Cand) : Bool :=
  if a.dist ≠ b.dist then decide (a.dist < b.dist)
  else if a.obj ≠ b.obj then decide (a.obj < b.obj)
  else if a.item ≠ b.item then decide (a.item < b.item)
  else if a.pool ≠ b.pool then decide (a.pool < b.pool)
  else decide (a.member < b.member)

/-! ### Stored form (R306, R315) -/

/-- R2 and R1 of members around a centroid (R306). -/
def boundsOf (cen : List Byte) (ms : List PMember) : Nat × Nat :=
  ms.foldl (fun b m => (max b.1 (pairSum (fun x y => (x - y) * (x - y)) m.codes cen).toNat,
                        max b.2 (pairSum (fun x y => ((x - y).natAbs : Int)) m.codes cen).toNat)) (0, 0)

def PMember.key (m : PMember) : List Byte := toBytes 8 m.obj ++ toBytes 4 m.item ++ toBytes 4 0

def Pool.record (p : Pool) : List Byte :=
  toBytes 4 p.members.length ++ toBytes 4 (1 + 2 * b2n p.damaged) ++ toBytes 4 p.r2 ++ toBytes 4 p.r1 ++ toBytes 4 p.createIdx
    ++ toBytes 4 p.compactSeq ++ toBytes 40 0 ++ p.centroid

def Node.record (n : Node) : List Byte :=
  toBytes 4 (n.gen + 65536 * b2n n.valid) ++ toBytes 4 n.pool ++ toBytes 4 n.member ++ toBytes 1 n.edges.length ++ toBytes 3 0
    ++ toBytes 8 n.obj ++ toBytes 4 n.item ++ toBytes 4 0
    ++ slice ((n.edges.map (fun e => toBytes 4 e.1 ++ toBytes 2 e.2 ++ toBytes 2 0)).flatten) 0 128 ++ toBytes 32 0 ++ n.codes

/-- Writes a pool's bound record into the collection object. -/
def storeRecord (s : State) (c : Coll) (p : Pool) : State :=
  match findObj s c.nsid c.obj with
  | some o => storeObj s o (c.boundBase + p.no * (64 + c.dim)) p.record
  | none => s

def storeNode (s : State) (c : Coll) (n : Node) : State :=
  match findObj s c.nsid c.obj with
  | some o => storeObj s o (c.nodeBase + n.no * (192 + c.dim)) n.record
  | none => s

/-- Writes members from index `i` of a pool: codes, keys and full-precision vectors (R306). -/
def storeMembers (s : State) (c : Coll) (p : Pool) (i : Nat) (ms : List PMember) : State :=
  let ext := c.poolBase + p.createIdx * c.stride
  let s := match findObj s c.nsid c.obj with
    | some o => storeObj (storeObj s o (ext + i * c.dim) ((ms.map (·.codes)).flatten)) o (ext + 65536 * c.dim + 16 * i) ((ms.map (·.key)).flatten)
    | none => s
  if c.fullEn then
    match findObj s c.nsid c.fullId with
    | some o => (ms.zipIdx).foldl (fun s m =>
        if m.1.full.isEmpty then s else storeObj s o ((p.createIdx * 65536 + i + m.2) * c.dim * c.fullElem) m.1.full) s
    | none => s
  else s

/-- Sizes of a collection's objects with `n` pools created (R306). -/
def sizePools (s : State) (c : Coll) (n : Nat) : State :=
  let s := updObj s c.nsid c.obj (fun o => { o with size := c.poolBase + c.stride * n })
  if c.fullEn then updObj s c.nsid c.fullId (fun o => { o with size := n * 65536 * c.dim * c.fullElem }) else s

/-- Parts of the collection's objects an append writes: codes, keys, the bound record of pool `p` and full-precision vectors
(R120, R306). -/
def appendParts (s : State) (c : Coll) (p idx i n : Nat) (full : Bool) : List (Obj × Nat × Nat) :=
  let ext := c.poolBase + idx * c.stride
  (match findObj s c.nsid c.obj with
   | some o => [(o, ext + i * c.dim, n * c.dim), (o, ext + 65536 * c.dim + 16 * i, 16 * n), (o, c.boundBase + p * (64 + c.dim), 64 + c.dim)]
   | none => []) ++
  (if full then match findObj s c.nsid c.fullId with
    | some o => [(o, (idx * 65536 + i) * c.dim * c.fullElem, n * c.dim * c.fullElem)]
    | none => []
   else [])

/-- The part a node record takes (R306). -/
def nodeParts (s : State) (c : Coll) (no : Nat) : List (Obj × Nat × Nat) :=
  match findObj s c.nsid c.obj with
  | some o => [(o, c.nodeBase + no * (192 + c.dim), 192 + c.dim)]
  | none => []

/-- A command that wrote collection `coll`, before it `was`, completes: at once, or when none of its blocks waits outside the
write buffer (R14, R78; notes/assumptions 41). -/
def finishStored (s : State) (no status r0 r1 coll : Nat) (was : Option Coll) : State :=
  if s.flash.waits.isEmpty then complete s no status r0 r1
  else updFlash s fun f => { f with late := f.late ++ [⟨no, status, r0, r1, f.waitSeq, coll, was⟩] }

/-- Appends members to pool `p`, creating it around `cen` when it is new (R311, R312). -/
def appendMembers (s : State) (cno p : Nat) (cen : Option (List Byte)) (ms : List PMember) : State :=
  let s := match cen with
    | none => s
    | some v =>
      match findColl s cno with
      | none => s
      | some c =>
        let np : Pool := { no := p, createIdx := c.pools.length, damaged := false, unread := [], r2 := 0, r1 := 0, compactSeq := 0, centroid := v, members := [] }
        sizePools (updColl s cno (fun c => { c with pools := sortBy (fun a b => a.no < b.no) (c.pools ++ [np]) })) c (c.pools.length + 1)
  match findColl s cno with
  | none => s
  | some c =>
    match findPool c p with
    | none => s
    | some q =>
      let b := boundsOf q.centroid ms
      let q' := { q with members := q.members ++ ms, r2 := max q.r2 b.1, r1 := max q.r1 b.2 }
      let s := updColl s cno (fun c => updPool c p (fun _ => q'))
      storeRecord (storeMembers s c q q.members.length ms) c q'

/-! ### Ends of queries (R328) -/

/-- A query is over. -/
def endQuery (s : State) (q : Query) (status r0 r1 detail : Nat) : State :=
  let s := updSearch s fun x => { x with queries := x.queries.filter (fun y => y.id != q.id) }
  let s := addF s 57 F.SRCH_QUERIES_COUNT 1
  let s := if status = 1 then addF s 57 F.SRCH_SHORT_COUNT 1 else s
  complete s q.no status r0 r1 detail

/-- It ends with a failure and no results. -/
def failQuery (s : State) (q : Query) (status detail : Nat) : State := endQuery s q status 0 0 detail

/-- Bytes of one result entry. -/
def Query.entry (q : Query) (c : Cand) (attrs : List Nat) (rd : Nat) : List Byte :=
  toBytes 8 c.obj ++ toBytes 4 c.item ++ toBytes 4 (wrap 32 c.dist) ++ (if q.rerank then toBytes 4 rd else [])
    ++ ((bitList q.attrMask 16).map (fun f => toBytes 4 (attrs.getD f 0))).flatten

/-- Writes the results and completes: STATUS in the order of R328, or `over` where a rule gives one (R327). Under Risal
only the entries that fit are written and counted (R94). -/
def finishQuery (s : State) (q : Query) (rows : List (Cand × List Nat × Nat)) (reranked : Bool) (spill : Nat) (excess : Option (Nat × Nat)) : State :=
  match findCmd s q.no with
  | none => updSearch s fun x => { x with queries := x.queries.filter (fun y => y.id != q.id) }
  | some c =>
    let all := rows.take q.k
    let fit := if q.risal then (c.bufBytes - 32) / 16 else all.length
    let l := all.take fit
    let flags := b2n q.widened + 2 * b2n reranked + 4 * b2n (spill != 0)
    let hdr := toBytes 4 l.length ++ toBytes 4 q.filtered ++ toBytes 4 q.depth ++ toBytes 4 q.read ++ toBytes 4 q.skipped
      ++ toBytes 4 flags ++ toBytes 4 q.sweep ++ toBytes 4 0
    let s := toHost s c (hdr ++ (l.map (fun r => q.entry r.1 r.2.1 r.2.2)).flatten)
    let st : Nat × Nat := match excess with
      | some x => x
      | none => if spill ≠ 0 then (2, 2 + 65536 * spill) else if all.length < q.k then (1, q.filtered) else (0, 0)
    endQuery s q st.1 l.length q.filtered st.2

/-- FP32 NaN, the preset RDIST. -/
def presetRdist : Nat := 0x7FC00000

/-- The survivors in SQ8 order with the preset RDIST. -/
def Query.plain (q : Query) : List (Cand × List Nat × Nat) := q.result.map (fun r => (r.1, r.2, presetRdist))

/-! ### Launches a search orders (R324, R327) -/

def blankLaunch : Launch :=
  { id := 0, no := 0, why := 0, entry := 0, arg := 0, reaches := 0, runnels := 0, rills := 0, ring := 0, ringSize := 0, seq := 0
    status := 0, detail := 0, written := 0, toStart := [], running := 0, ops := 0, ended := 0, faults := 0, members := []
    ready := true, argDest := 0, buffer := [], deadline := 0 }

/-- Launches an entry on every reach and runnel of a context with its declared rills (R327). -/
def launchAll (s : State) (ctx : Nat) (why no entry arg : Nat) : State :=
  match findCtx s ctx with
  | none => s
  | some c => addLaunch s ctx { blankLaunch with
      no := no, why := why, entry := entry, arg := arg, reaches := c.reaches, runnels := 15, rills := c.rills
      toStart := launchRills c.reaches 15 c.rills }

/-- Launches the embedding program of a query (R324). -/
def startEmbed (s : State) (q : Query) : State :=
  match findCtx s q.ctx with
  | none => failQuery s q 0x1003 0
  | some c =>
    if 4 ≤ c.launches.length then failQuery s q 0x2002 0
    else launchAll (updQuery s q.id (fun q => { q with phase := .embed })) q.ctx 1 q.id q.embedEntry q.embedAddr

/-- Status of reading `n` bytes of device memory for a DQP command (R417). -/
def readStatus (s : State) (a n : Nat) : Nat := if extPoisoned s a n then 0x4001 else if poisonedIn s a n then 0x4003 else 0

/-- A DQP command reads `n` bytes of device memory: codewords of `bad` it finds uncorrectable there are poisoned and reported,
and its status is 0x4001; those of `fixed` are counted (R414, R417, R419). -/
def readFinds (s : State) (bad fixed : List Nat) (a n : Nat) : State × Nat :=
  let here (x : Nat) : Bool := decide (a ≤ x) && decide (x < a + n) && validAt s x && !poisoned s x
  let s' := moveFinds s bad fixed (fun x => if here x then some x else none)
  (s', if bad.any here then 0x4001 else readStatus s a n)

/-- The embedding launch of a query has ended (R324). -/
def embedEnd (s : State) (q : Query) (status detail : Nat) (bad fixed : List Nat) : State :=
  match findColl s q.coll with
  | none => failQuery s q 0x1003 0
  | some c =>
    if status ≠ 0 then failQuery s q status detail
    else
      let r := readFinds s bad fixed q.embedAddr (4 * c.dim)
      let s := r.1
      if r.2 ≠ 0 then failQuery s q r.2 0
      else updQuery (stackRead s 6 q.embedAddr (4 * c.dim)) q.id (fun q => { q with phase := .queued, codes := c.encode (rdBytes s q.embedAddr (4 * c.dim)) })

/-- Window address of an object's byte; 0 while it is not mapped (R109). -/
def windowAddr (s : State) (nsid obj off : Nat) : Nat :=
  match s.mem.windows.find? (fun w => w.nsid == nsid && w.obj == obj && !w.dead) with
  | some w => 2 * 2 ^ 56 + w.first * MiB2 + off
  | none => 0

/-- Where a candidate's vectors lie now: a compaction since the query's sweep began has moved or removed them (R313, R327). -/
def Query.memberNow (q : Query) (m : Cand) : Option Nat :=
  q.moves.foldl (fun i x => if x.1 = m.pool then i.bind (fun i => x.2.getD i none) else i) (some m.member)

/-- Writes the rerank list and launches the rerank, once the context has a launch free (R327). -/
def startRerank (s : State) (q : Query) : State :=
  match findColl s q.coll, findCtx s q.ctx with
  | some c, some x =>
    if 4 ≤ x.launches.length then updQuery s q.id (fun q => { q with phase := .rerankWait })
    else
      let addr (m : Cand) : Nat :=
        match findPool c m.pool, q.memberNow m with
        | some p, some i => windowAddr s c.nsid c.fullId ((p.createIdx * 65536 + i) * c.dim * c.fullElem)
        | _, _ => 0
      let hdr := toBytes 4 q.result.length ++ toBytes 2 c.dim ++ toBytes 1 c.fullFmt ++ toBytes 9 0
      let l := (q.result.map (fun r => toBytes 8 r.1.obj ++ toBytes 4 r.1.item ++ toBytes 4 (wrap 32 r.1.dist) ++ toBytes 8 (addr r.1)
        ++ toBytes 4 presetRdist ++ toBytes 4 0)).flatten
      if !stackRange s (domOf c.nsid) q.rrAddr (hdr.length + l.length) then failQuery s q 0x4004 0
      else if extPoisoned s q.rrAddr (hdr.length + l.length) then failQuery s q 0x4001 0
      else launchAll (updQuery (wrBytes (stackWrite s 6 q.rrAddr (hdr.length + l.length)) q.rrAddr (hdr ++ l)) q.id (fun q => { q with phase := .rerank })) q.ctx 2 q.id q.rrEntry q.rrAddr
  | _, _ => failQuery s q 0x1003 0

/-- RDIST order: ascending, NaN last, zeros equal, then R310 (R327). -/
def rdistLt (a b : Cand × List Nat × Nat) : Bool :=
  match fpCmp (dec32 a.2.2) (dec32 b.2.2) with
  | some i => if i = 0 then candLt a.1 b.1 else decide (i < 0)
  | none =>
    match dec32 a.2.2, dec32 b.2.2 with
    | .nan, .nan => candLt a.1 b.1
    | .nan, _ => false
    | _, _ => true

/-- The rerank launch of a query has ended (R327). -/
def rerankEnd (s : State) (q : Query) (status detail : Nat) (bad fixed : List Nat) : State :=
  let n := 16 + 32 * q.result.length
  if status ≠ 0 then finishQuery s q q.plain false 0 (some (status, detail))
  else
    let r := readFinds s bad fixed q.rrAddr n
    let s := r.1
    if r.2 ≠ 0 then failQuery s q r.2 0
    else
    let rows := q.result.zipIdx.map (fun r => (r.1.1, r.1.2, ofBytes (rdBytes s (q.rrAddr + 16 + 32 * r.2 + 24) 4)))
    finishQuery (stackRead s 6 q.rrAddr n) q (sortBy rdistLt rows) true 0 none

/-- A launch of a context has ended: the oldest query whose rerank waits for one starts (R327). -/
def wakeRerank (s : State) (ctx : Nat) : State :=
  match s.search.queries.find? (fun q => q.ctx == ctx && q.phase == .rerankWait) with
  | some q => startRerank s q
  | none => s

/-! ### Risal embeddings (R97) -/

/-- Where the next member of the Risal collection goes: pool, the centroid where the pool is new, member, creation index; none
once every pool is full (R97). DESIGN CHOICE (notes/assumptions 36): a new pool takes the number after the highest one created,
and none is created once that number is POOLS_MAX. -/
def risalPlace (c : Coll) (codes : List Byte) : Option (Nat × Option (List Byte) × Nat × Nat) :=
  match c.pools.getLast? with
  | none => if 0 < c.poolsMax then some (0, some codes, 0, 0) else none
  | some p =>
    if p.members.length < 65536 then some (p.no, none, p.members.length, p.createIdx)
    else if p.no + 1 < c.poolsMax then some (p.no + 1, some codes, 0, c.pools.length) else none

/-- An embedding of an R_WRITE or R_EMBED ends with a status: R_EMBED completes with it, R_WRITE with its write's status and
RESULT1 = 0 (R95, R97). -/
def embedFails (s : State) (c : Cmd) (status detail : Nat) : State :=
  if c.opcode = 0xC2 then complete s c.no 0 else complete s c.no status 0 0 detail

/-- Appends one member to the Risal collection and completes (R97). DESIGN CHOICE (notes/assumptions 38): flash that the
headgate refuses for it is refused as R120 has it for a command: HG_DENY counts, R_EMBED ends 0x2001, R_WRITE 0x0000; and a
module that is read only still appends, since R399 lists POOL_APPEND and not R_EMBED. -/
def risalAppend (s : State) (c : Cmd) (k : Coll) (obj : Nat) (codes : List Byte) : State :=
  match risalPlace k codes with
  | none => complete s c.no 0
  | some (p, cen, i, idx) =>
    match objRefusal s 0 (appendParts s k p idx i 1 false) with
    | some d => embedFails (deny s 0) c 0x2001 d
    | none =>
      let s := appendMembers s 0 p cen [⟨obj, 0, codes, []⟩]
      let s := updColl s 0 (fun c => { c with last := c.last.filter (fun x => x.1 != obj) ++ [(obj, p, i)] })
      finishStored (addF s 56 F.RISAL_EMBEDS_COUNT 1) c.no 0 0 1 0 (some k)

/-- The OBJECT_ID an R_WRITE or R_EMBED names: in an R_WRITE 0 means SLBA + 1 (R93, R95). -/
def risalObj (c : Cmd) : Nat := if c.opcode = 0xC2 ∧ c.b 48 8 = 0 then c.b 32 8 + 1 else c.b 48 8

/-- The embedding launch of an R_WRITE or R_EMBED at query slot `a` has ended (R95, R97). -/
def risalEmbedEnd (s : State) (no a status detail : Nat) (bad fixed : List Nat) : State :=
  match findCmd s no, findColl s 0 with
  | some c, some k =>
    let r := if status ≠ 0 then (s, status) else readFinds s bad fixed a (4 * k.dim)
    let s := r.1
    let st := r.2
    if st ≠ 0 then embedFails s c st detail
    else risalAppend (stackRead s 6 a (4 * k.dim)) c k (risalObj c) (k.encode (rdBytes s a (4 * k.dim)))
  | _, _ => complete s no 0

/-! ### The end of any launch (R215) -/

/-- What waited for a launch of a context goes on: a command, a query's embedding or rerank, a Risal embedding. `bad`, `fixed`:
codewords its result is found uncorrectable or corrected in (R414, R417). -/
def launchEnd (s : State) (l : Launch) (status detail : Nat) (bad fixed : List Nat) : State :=
  match l.why with
  | 0 => complete s l.no status (l.ended + l.faults * 2 ^ 32) l.written detail
  | 1 => match findQuery s l.no with | some q => embedEnd s q status detail bad fixed | none => s
  | 2 => match findQuery s l.no with | some q => rerankEnd s q status detail bad fixed | none => s
  | _ => risalEmbedEnd s l.no l.arg status detail bad fixed

end Sys2Proof.Machine
end

