-- ==== Sys2Proof/Machine/FetchOps.lean ====
section
/-!
DEFINITION. Machine/FetchOps.lean: tier fetches (R111, R116, R126-R131): their acceptance, the spillway, their end for each
kind of issuer, and the quarantine of an object (R131-R133).
-/
namespace Sys2Proof.Machine

def updMem (s : State) (f : Mem → Mem) : State := { s with mem := f s.mem }
def findFetch (s : State) (id : Nat) : Option Fetch := s.mem.fetches.find? (fun f => f.id == id)
def updFetch (s : State) (id : Nat) (f : Fetch → Fetch) : State :=
  updMem s fun m => { m with fetches := m.fetches.map (fun x => if x.id = id then f x else x) }
def dropFetch (s : State) (id : Nat) : State := updMem s fun m => { m with fetches := m.fetches.filter (fun x => x.id != id) }

/-- A DIE value: a die region of the device, or 0xFF (R115). -/
def dieConds (s : State) (d : Nat) : List Nat := [cond (d != 255 && decide (3 < d)) 0x1002, cond (decide (d < 4) && dieExts s d == 0) 0x1004]

/-- A page of an object is in tier 1 with its data. -/
def pageResident (s : State) (nsid obj idx : Nat) : Bool := ((findPage s nsid obj idx).map (·.resident)).getD false

/-- An object is mapped, wholly resident and every page pinned (R127, R521). -/
def heldWhole (s : State) (o : Obj) : Bool :=
  s.mem.windows.any (fun w => w.nsid == o.nsid && w.obj == o.id && !w.dead) &&
  (List.range (pageCount o)).all (fun i => match findPage s o.nsid o.id i with | some p => p.resident && decide (0 < p.pins) | none => false)

/-- The path a fetch of the object can take now: 0 none (R127, R521). -/
def pathOf (s : State) (o : Obj) : Nat :=
  if o.pathKind = 1 then
    (match findObj s o.nsid o.shadow with
     | some h => if heldWhole s h then 1 else 0
     | none => 0)
  else o.pathKind

/-- The path a fetch can take: a rerank takes that of its collection object (R127, R327). -/
def fetchPath (s : State) (f : Fetch) (o : Obj) : Nat :=
  match f.issuer with
  | .rerank q =>
    (match ((findQuery s q).bind (fun q => findColl s q.coll)).bind (fun c => findObj s c.nsid c.obj) with
     | some c => if c.pathKind = 2 then 2 else 0
     | none => 0)
  | _ => pathOf s o

/-- Bytes of a fetch's range that lie in resident pages. -/
def residentBytes (s : State) (o : Obj) (f : Fetch) : Nat :=
  (f.pages.map (fun i => if pageResident s o.nsid o.id i then
    (min (f.offset + f.bytes) ((i + 1) * pageBytes o)) - max f.offset (i * pageBytes o) else 0)).foldl (· + ·) 0

/-- The fetch record (R129). -/
def fetchRecord (status path cause obj addr bytes : Nat) : List Byte :=
  toBytes 2 status ++ toBytes 2 path ++ toBytes 2 cause ++ toBytes 2 0 ++ toBytes 8 obj ++ toBytes 8 addr ++ toBytes 8 bytes

/-- Writes a fetch record where its issuer named it; a write that faults, or meets a lost extent, is lost, and the ticket completes
in any case (R129, R139). -/
def writeRecord (s : State) (addr : Nat) (op : OpRef) (rec' : List Byte) (status : Nat) : State :=
  let s := match regionOf s addr with
    | .stack => if stackRange s (ctxDom s op.ctx) addr 32 && !extPoisoned s addr 32 then wrBytes (stackWrite s 6 addr 32) addr rec' else s
    | .scratch r off => if scratchOk s (ctxDom s op.ctx) op.ctx r off 32 then wrBytes s addr rec' else s
    | _ => s
  completeOp s op status

/-- Tells a fetch's issuer how it ended: status, path, cause (of R128, or R120's DETAIL), the object delivered, its window
address and bytes. RESULT1 of a command counts whole MiB, rounded down (DESIGN CHOICE, notes/assumptions 18: R116 gives no
rounding). -/
def answerFetch (s : State) (f : Fetch) (status path cause : Nat) : State :=
  let o := findObj s f.nsid f.obj
  let shadow := status == 2 && path == 1
  let del := if shadow then (o.bind (fun o => findObj s f.nsid o.shadow)) else o
  let delId := (del.map (·.id)).getD f.obj
  let off := if shadow then 0 else f.offset
  let n := if shadow then (del.map (·.size)).getD 0
    else if status = 0 then f.bytes
    else if status = 2 then (o.map (fun o => residentBytes s o f)).getD 0 else 0
  match f.issuer with
  | .cmd no => complete s no status (if status = 0 ∨ status = 2 then delId else 0) (if status = 0 ∨ status = 2 then f.newKib / 1024 else 0)
      (if status = 2 then path + 65536 * cause else if status = 0x2001 then cause else 0)
  | .record addr op => writeRecord s addr op (fetchRecord status path cause delId (windowAddr s f.nsid delId off) n) status
  | .rerank q =>
    (match findQuery s q with
     | none => s
     | some q => if status = 0 then startRerank s q
       else if status = 2 then finishQuery s q q.plain false cause none
       else failQuery s q status (if status = 0x2001 then cause else 0))
  | _ => s

/-- The fetch takes its object's spillway path: status 0x0002 (R128). -/
def spillFetch (s : State) (f : Fetch) (path cause : Nat) : State := addF (answerFetch s f 2 path cause) 57 F.TM_SPILL_COUNT 1

/-- A fetch whose data cannot be had: its path, else 0x3001 (R131). -/
def loseFetch (s : State) (f : Fetch) (cause : Nat) : State :=
  if f.spilled then s
  else
    match findObj s f.nsid f.obj with
    | none => answerFetch s f 0x4004 0 0
    | some o => if fetchPath s f o = 0 then answerFetch s f 0x3001 0 0 else spillFetch s f (fetchPath s f o) cause

/-- Starts bringing in the pages that are in no frame or lost one; the DETAIL of R120 when the headgate refuses one. -/
def startPages (o : Obj) (die : Nat) : List Nat → State → State × Except Nat Unit
  | [], s => (s, .ok ())
  | i :: l, s =>
    match (match findPage s o.nsid o.id i with
      | some p => if p.asleep then restartPage s o p else (s, .ok ())
      | none => startPage s o i die) with
    | (s, .ok _) => startPages o die l s
    | (s, .error e) => (s, .error e)

/-- Accepts a tier fetch of pages of an object (R126, R131). A quarantined object is answered at once; so is a refused
frame. -/
def acceptFetch (s : State) (o : Obj) (pages : List Nat) (off n die deadline : Nat) (who : FetchFor) (pin : Bool := false) : State :=
  let f : Fetch := { pin := pin, id := s.mem.nextFetch, nsid := o.nsid, obj := o.id, pages := pages, die := die, accepted := cyc s 57, deadline := deadline
                     issuer := who, expired := false, spilled := false, newKib := 0, offset := off, bytes := n }
  let s := updMem s fun m => { m with nextFetch := m.nextFetch + 1 }
  if o.quarantined then loseFetch s f 3
  else
    match startPages o die pages s with
    | (s, .error e) => answerFetch s f 0x2001 0 e
    | (s, .ok _) => updMem s fun m => { m with fetches := m.fetches ++ [f] }

/-- Pins every page of a fetch that asked for it; a count saturates at 255 (R117). -/
def pinPages (s : State) (nsid obj : Nat) (pages : List Nat) : State :=
  pages.foldl (fun s i => updPage s nsid obj i (fun p => { p with pins := min (p.pins + 1) 255 })) s

/-- Ends a fetch whose pages are all resident (R116, R117, R129). -/
def endFetch (s : State) (f : Fetch) : State :=
  let s := dropFetch s f.id
  let s := if f.pin then pinPages s f.nsid f.obj f.pages else s
  if f.spilled then s else answerFetch s f 0 0 0

/-! ### Health log (R407, R408) -/

/-- Adds an event to the ring of 1,024 (R407, R408). -/
def healthEvent (s : State) (kind nsid a b c : Nat) : State :=
  updFlash s fun f =>
    let l := f.events ++ [⟨f.nextEvent, kind, nsid, a, b, c⟩]
    { f with events := l.drop (l.length - 1024), nextEvent := f.nextEvent + 1 }

/-! ### Quarantine (R131-R133) -/

/-- Rills that wait for pages of which none is on its way any more issue again (R111). -/
def wakePages (s : State) : State :=
  let go (p : Nat × Rill) : Nat × Rill :=
    match p.2.wait with
    | .page ps => if ps.any (flying s) then p else (p.1, { p.2 with wait := .none })
    | _ => p
  noteBlocks { s with runnels := { s.runnels with rills := s.runnels.rills.map go, saved := s.runnels.saved.map go } }

/-- Contexts that have an object mapped: those of its namespace, while it is mapped (R132, R408; DEDUCED, notes/assumptions
18). -/
def mappers (s : State) (o : Obj) : Nat :=
  if s.mem.windows.any (fun w => w.nsid == o.nsid && w.obj == o.id && !w.dead) then (s.sched.ctxs.filter (fun c => c.nsid == o.nsid)).length else 0

/-- Quarantines an object for failed blocks: frames released, outstanding fetches answered, accesses that waited issue again
and meet it; one health-log entry (R131, R132). -/
def quarantine (s : State) (o : Obj) (failed : List Nat) : State :=
  if o.quarantined then s
  else
    let s := updObj s o.nsid o.id (fun o => { o with quarantined := true, failed := failed })
    let s := (s.mem.pages.filter (fun p => p.nsid == o.nsid && p.obj == o.id)).foldl dropPage s
    let s := healthEvent s 2 o.nsid (mappers s o) o.id (failed.headD 0 % 2 ^ 59 * 2 ^ 32 + failed.length)
    let mine := s.mem.fetches.filter (fun f => f.nsid == o.nsid && f.obj == o.id)
    let s := mine.foldl (fun s f => dropFetch s f.id) s
    wakePages (mine.foldl (fun s f => loseFetch s f 2) s)

/-- The quarantine ends (R133). -/
def endQuarantine (s : State) (o : Obj) : State :=
  if o.quarantined then updObj s o.nsid o.id (fun o => { o with quarantined := false, failed := [] }) else s

/-- Keys of the blocks of an object's bytes [off, off + n) that cannot be read (R131). -/
def lostIn (s : State) (o : Obj) (off n : Nat) : List Nat :=
  (((touched off n).filterMap o.block).filter (fun b => (rdBlock s b.1 b.2).isNone)).map (fun b => blockKey b.1 b.2)

end Sys2Proof.Machine
end

