-- ==== Sys2Proof/Machine/Search.lean ====
section
/-!
DEFINITION. Machine/Search.lean: collections, pools and the braid (R304-R317), sweeps (R318-R322, R330, R422) and vector
queries (R323-R329).
-/
namespace Sys2Proof.Machine

/-! ### Collections (R304-R307) -/

/-- The collection a command names in bytes 32-33, of its namespace. -/
def cmdColl (s : State) (c : Cmd) : Option Coll := (findColl s (c.b 32 2)).filter (fun x => x.nsid == c.nsid)

/-- An ID that no object, tombstone or deleted object with a window range holds (R300, R304). -/
def idFree (s : State) (nsid id : Nat) : Bool :=
  (findObj s nsid id).isNone && !tombed s nsid id && !s.mem.windows.any (fun w => w.nsid == nsid && w.obj == id)

def idOk (id : Nat) : Bool := id != 0 && id != 2 ^ 64 - 1

/-- A device-managed object as it is registered. -/
def deviceObj (nsid id mtype size unit units : Nat) : Obj :=
  { nsid := nsid, id := id, mtype := mtype, size := size, storage := .device unit units, attrs := List.replicate 16 0, quarantined := false
    failed := [], grain := 1, hintTier := 2, hintDie := 255, hintPin := false, hinted := false, pathKind := 0, shadow := 0 }

/-- The collection object a new collection gets, at the domain's next units. -/
def collObj (s : State) (x : Coll) : Obj :=
  deviceObj x.nsid x.obj 8 x.poolBase (mget 0 s.search.nextUnit (domOf x.nsid)) (ceilDiv (x.poolBase + x.stride * x.poolsMax) 32768)

/-- Registers a collection, its objects and its parameter vector (R304, R306). -/
def makeColl (s : State) (x : Coll) (param : List Byte) : State :=
  let d := domOf x.nsid
  let r := takeUnits s d (ceilDiv (x.poolBase + x.stride * x.poolsMax) 32768)
  let o := collObj s x
  let n := ceilDiv (x.poolsMax * 65536 * x.dim * x.fullElem) 32768
  let s := updSearch r.1 fun y => { y with colls := sortBy (fun a b => decide (a.no < b.no)) (y.colls ++ [x]), objs := y.objs ++ [o] }
  let s := if x.fullEn then
      let r := takeUnits s d n
      updSearch r.1 fun y => { y with objs := y.objs ++ [deviceObj x.nsid x.fullId 9 0 r.2 n] }
    else s
  storeObj (storeObj s o 0 ((List.range 4096).map (Config.collHeader x.no))) o 4096 param

def blankColl : Coll :=
  { no := 0, nsid := 0, dim := 0, w := 0, fullEn := false, fullFmt := 0, budget := 0, obj := 0, fullId := 0, poolsMax := 0, offs := [], steps := []
    pools := [], nodes := [], entries := [], stale := 0, nextCompact := 1, last := [], deleting := 0 }

/-- A command's new flash blocks and table pages are granted, or it completes 0x2001 and the refusal counts (R120, R123, R378). -/
def flashOr (s : State) (c : Cmd) (parts : List (Obj × Nat × Nat)) (body : State → State) : State :=
  match objRefusal s c.dom parts with
  | none => body s
  | some d => complete (deny s c.dom) c.no 0x2001 0 0 d

/-- COLL_CREATE (R304, R305). -/
def execCollCreate (c : CmdId) (s : State) : Host.Outcome State Fault Refusal :=
  .next (runCmd s c (isOp 0x80) [(32, 28)]
    (fun c =>
      let dim := c.b 34 2
      let full := bit (c.b 37 1) 0
      [cond (decide (4095 < c.b 32 2) || decide (dim < 64) || decide (4096 < dim) || dim % 64 != 0 || c.b 36 1 == 0 || decide (16 < c.b 36 1)
          || decide (3 < c.b 37 1) || decide (c.b 38 2 < 16) || decide (4096 < c.b 38 2) || !idOk (c.b 40 8) || (full && !idOk (c.b 48 8))
          || (!full && c.b 48 8 != 0) || c.b 56 4 == 0 || decide (16777216 < c.b 56 4)) 0x1002,
       cond (c.bufBytes != 8 * dim) 0x1003,
       cond ((findColl s (c.b 32 2)).isSome || !idFree s c.nsid (c.b 40 8) || (full && (!idFree s c.nsid (c.b 48 8) || c.b 48 8 == c.b 40 8))) 0x1003,
       cond ((List.range dim).any (fun d => !isFinite (le c.data (4 * d) 4) || !isFinite (le c.data (4 * dim + 4 * d) 4)
         || bit (le c.data (4 * dim + 4 * d) 4) 31 || le c.data (4 * dim + 4 * d) 4 == 0)) 0x1002,
       cond (decide (2 ^ 32 < s.search.objs.length + 1 + b2n full)) 0x2007, cond (roStatus s != 0) (roStatus s)]) fun s c =>
    let dim := c.b 34 2
    let x : Coll := { blankColl with
      no := c.b 32 2, nsid := c.nsid, dim := dim, w := c.b 36 1, fullEn := bit (c.b 37 1) 0, fullFmt := bits (c.b 37 1) 1 1, budget := c.b 38 2
      obj := c.b 40 8, fullId := c.b 48 8, poolsMax := c.b 56 4, offs := (List.range dim).map (fun d => le c.data (4 * d) 4)
      steps := (List.range dim).map (fun d => le c.data (4 * dim + 4 * d) 4) }
    flashOr s c [(collObj s x, 0, 4096 + 8 * dim)] fun s => finishStored (makeColl s x (c.data.take (8 * dim))) c.no 0 0 0 x.no none)

/-- Removes an object's entry: its pages go, its window range stays until unmapped, fetches of it fail (R110, R129, R302). -/
def removeObj (s : State) (o : Obj) : State :=
  let s := endQuarantine s o
  let s := (s.mem.pages.filter (fun p => p.nsid == o.nsid && p.obj == o.id)).foldl dropPage s
  let mine := s.mem.fetches.filter (fun f => f.nsid == o.nsid && f.obj == o.id && match f.issuer with | .image _ => false | _ => true)
  let s := mine.foldl (fun s f => dropFetch s f.id) s
  let s := mine.foldl (fun s f => if f.spilled then s else answerFetch s f 0x4004 0 0) s
  let s := releaseStorage s o
  let s := updMem s fun m => { m with windows := m.windows.map (fun w => if w.nsid = o.nsid ∧ w.obj = o.id then { w with dead := true } else w) }
  wakePages (updSearch s fun x => { x with objs := x.objs.filter (fun y => !(y.nsid == o.nsid && y.id == o.id)) })

/-- A tombstone goes once no pool of its list is left (R302). -/
def releaseTombs (s : State) : State := updSearch s fun x => { x with tombs := x.tombs.filter (fun t => !t.pools.isEmpty) }

/-- The deletion of a collection once no sweep of it is in progress (R307). -/
def finishCollDelete (s : State) (no : Nat) : State :=
  match findColl s no with
  | none => s
  | some c =>
    if c.deleting = 0 ∨ s.search.sweeps.any (fun w => w.coll == no) = true then s
    else
      let gone := s.search.queries.filter (fun q => q.coll == no && (q.phase == .content || q.phase == .embed || q.phase == .queued))
      let s := gone.foldl (fun s q => failQuery s q 0x1003 0) s
      let s := match findObj s c.nsid c.obj with | some o => removeObj s o | none => s
      let s := if c.fullEn then (match findObj s c.nsid c.fullId with | some o => removeObj s o | none => s) else s
      let s := updSearch s fun x => { x with
        colls := x.colls.filter (fun y => y.no != no), repairs := x.repairs.filter (fun r => r.1 != no)
        tombs := x.tombs.map (fun t => { t with pools := t.pools.filter (fun p => p.1 != no) }) }
      complete (releaseTombs s) c.deleting 0

/-- COLL_DELETE (R307): it waits for the sweeps of the collection in progress. -/
def execCollDelete (c : CmdId) (s : State) : Host.Outcome State Fault Refusal :=
  .next (runCmd s c (isOp 0x81) [(32, 2)] (fun c => [cond (match cmdColl s c with | some x => x.deleting != 0 | none => true) 0x1003]) fun s c =>
    finishCollDelete (updColl s (c.b 32 2) (fun x => { x with deleting := c.no })) (c.b 32 2))

/-! ### Pools (R311-R313) -/

/-- Bytes of one entry of an append. -/
def entryBytes (x : Coll) (c : Cmd) : Nat := 16 + (if bit (c.b 34 1) 2 then 4 * x.dim else x.dim) + (if bit (c.b 34 1) 3 then x.dim * x.fullElem else 0)

/-- Input bytes of an append. -/
def appendBytes (x : Coll) (c : Cmd) : Nat := (if bit (c.b 34 1) 0 then x.dim else 0) + c.b 40 4 * entryBytes x c

/-- The input of an append. -/
def appendInput (s : State) (x : Coll) (c : Cmd) : List Byte :=
  if bit (c.b 34 1) 1 then rdBytes s (c.b 48 8) (appendBytes x c) else c.data.take (appendBytes x c)

/-- The members an append's input spells. -/
def appendEntries (x : Coll) (c : Cmd) (inp : List Byte) : List PMember :=
  let e := entryBytes x c
  let base := if bit (c.b 34 1) 0 then x.dim else 0
  let v := if bit (c.b 34 1) 2 then 4 * x.dim else x.dim
  (List.range (c.b 40 4)).map (fun i =>
    let b := slice inp (base + i * e) e
    let vec := slice b 16 v
    ⟨le b 0 8, le b 8 4, if bit (c.b 34 1) 2 then x.encode vec else vec, if bit (c.b 34 1) 3 then b.drop (16 + v) else []⟩)

/-- Both append to or compact one pool: they run in arrival order (R311). -/
def samePool (x c : Cmd) : Bool := (x.opcode == 0x82 || x.opcode == 0x85) && x.nsid == c.nsid && x.b 32 2 == c.b 32 2 && x.b 36 4 == c.b 36 4

/-- POOL_APPEND (R311, R312, R418). `bad`: codewords of its device buffer found uncorrectable (R417). -/
def execPoolAppend (id : Finding CmdId) (s : State) : Host.Outcome State Fault Refusal :=
  .next (if behind s id.of samePool then s else runCmd s id.of (isOp 0x82) [(32, 3), (36, 8), (48, 8)]
    (fun c => match cmdColl s c with
      | none => [0x1003]
      | some x =>
        let f := c.b 34 1
        let dev := bit f 1
        let p := findPool x (c.b 36 4)
        let n := appendBytes x c
        let a := c.b 48 8
        let cnt := (p.map (·.members.length)).getD 0
        [cond (decide (15 < f) || c.b 40 4 == 0 || decide (65536 < c.b 40 4) || decide (x.poolsMax ≤ c.b 36 4) || (dev && a % 64 != 0) || (!dev && a != 0)) 0x1002,
         cond ((bit f 0 == p.isSome) || decide (65536 < cnt + c.b 40 4) || (bit f 3 && !x.fullEn) || (if dev then c.bufBytes != 0 else c.bufBytes != n)) 0x1003,
         cond (dev && !stackRange s c.dom a n) 0x4004]) fun s c =>
    match cmdColl s c with
    | none => s
    | some x =>
      let r := if bit (c.b 34 1) 1 then readFinds s id.bad id.fixed (c.b 48 8) (appendBytes x c) else (s, 0)
      let s := r.1
      let inp := appendInput s x c
      let keys := (List.range (c.b 40 4)).map (fun i => slice inp ((if bit (c.b 34 1) 0 then x.dim else 0) + i * entryBytes x c) 16)
      let st := firstOf [r.2, cond (keys.any (fun k => le k 12 4 != 0)) 0x1002,
        cond (keys.any (fun k => match findObj s c.nsid (le k 0 8) with | some o => (match o.storage with | .host _ => false | _ => true) | none => true)) 0x1003,
        roStatus s]
      if st ≠ 0 then complete s c.no st else
      let p := c.b 36 4
      let cnt := ((findPool x p).map (·.members.length)).getD 0
      flashOr s c (appendParts s x p (((findPool x p).map (·.createIdx)).getD x.pools.length) cnt (c.b 40 4) (bit (c.b 34 1) 3)) fun s =>
      let s := if bit (c.b 34 1) 1 then stackRead s 6 (c.b 48 8) (appendBytes x c) else s
      let s := appendMembers s x.no p (if bit (c.b 34 1) 0 then some (inp.take x.dim) else none) (appendEntries x c inp)
      finishStored s c.no 0 cnt (cnt + c.b 40 4) x.no (some x))

/-- POOL_COMPACT (R313). -/
def execPoolCompact (c : CmdId) (s : State) : Host.Outcome State Fault Refusal :=
  .next (if behind s c samePool then s else runCmd s c (isOp 0x85) [(32, 2), (36, 4)]
    (fun c => [cond (match cmdColl s c with | some x => (findPool x (c.b 36 4)).isNone | none => true) 0x1003]) fun s c =>
    match cmdColl s c with
    | none => s
    | some x =>
      match findPool x (c.b 36 4) with
      | none => s
      | some p =>
        let keep := p.members.zipIdx.filter (fun m => !tombed s x.nsid m.1.obj && !p.unread.contains m.2)
        let ms := keep.map (·.1)
        let at' (i : Nat) : Option Nat := (keep.map (·.2)).idxOf? i
        let b := boundsOf p.centroid ms
        let p' := { p with members := ms, damaged := false, unread := [], r2 := b.1, r1 := b.2, compactSeq := x.nextCompact }
        let node (n : Node) : Node :=
          if n.valid = false ∨ n.pool ≠ p.no then n
          else match at' n.member with
            | some j => { n with member := j }
            | none => { n with valid := false, gen := (n.gen + 1) % 65536 }
        let x' := { updPool x p.no (fun _ => p') with
          nodes := x.nodes.map node, nextCompact := x.nextCompact + 1
          last := x.last.filterMap (fun l => if l.2.1 = p.no then (at' l.2.2).map (fun j => (l.1, l.2.1, j)) else some l) }
        let s := updColl s x.no (fun _ => x')
        let s := storeRecord (storeMembers s x' p' 0 ms) x' p'
        let s := (x'.nodes.filter (fun n => n.pool == p.no)).foldl (fun s n => storeNode s x' n) s
        let s := updSearch s fun y => { y with tombs := y.tombs.map (fun t => { t with pools := t.pools.filter (fun q => q != (x.no, p.no)) }) }
        let s := updSearch s fun y => { y with queries := y.queries.map (fun q =>
          if q.coll = x.no then { q with moves := q.moves ++ [(p.no, (List.range p.members.length).map at')] } else q) }
        finishStored (releaseTombs s) c.no 0 (p.members.length - ms.length) ms.length x.no (some x))

/-! ### The braid (R315-R317) -/

/-- A node that nothing has written: not VALID, generation 0. -/
def blankNode (x : Coll) (no : Nat) : Node :=
  { no := no, gen := 0, valid := false, pool := 0, member := 0, obj := 0, item := 0, edges := [], codes := List.replicate x.dim 0 }

/-- Puts a node into a collection, in the order of node numbers. -/
def putNode (x : Coll) (n : Node) : Coll :=
  { x with nodes := sortBy (fun a b => decide (a.no < b.no)) (x.nodes.filter (fun y => y.no != n.no) ++ [n]) }

/-- BRAID_REPAIR OP 0 (R316). -/
def execBraidSetNode (c : CmdId) (s : State) : Host.Outcome State Fault Refusal :=
  .next (
    let deg (c : Cmd) : Nat := le c.data 12 1
    let targets (c : Cmd) : List Nat := (List.range (deg c)).map (fun i => le c.data (16 + 4 * i) 4)
    let member (x : Coll) (c : Cmd) : Option PMember := (findPool x (le c.data 4 4)).bind (fun p => p.members[le c.data 8 4]?)
    runCmd s c (fun c => c.opcode == 0x86 && c.b 34 1 != 1 && c.b 34 1 != 2) [(32, 3)]
      (fun c => match cmdColl s c with
        | none => [0x1003]
        | some x =>
          [cond (c.b 34 1 != 0) 0x1002, cond (decide (c.bufBytes < 16) || c.bufBytes != 16 + 4 * deg c) 0x1003,
           cond (decide (16 < deg c) || !allZero (slice c.data 13 3) || decide (16 * x.poolsMax ≤ le c.data 0 4)) 0x1002,
           cond (match member x c with | none => true | some m => tombed s x.nsid m.obj) 0x1003,
           cond ((targets c).any (fun t => t == le c.data 0 4 || match findNode x.nodes t with | some n => !n.valid | none => true)) 0x1003]) fun s c =>
      match cmdColl s c with
      | none => s
      | some x =>
        match member x c with
        | none => s
        | some m =>
          let no := le c.data 0 4
          let gen := ((findNode x.nodes no).map (·.gen)).getD 0
          let n : Node := { no := no, gen := (gen + 1) % 65536, valid := true, pool := le c.data 4 4, member := le c.data 8 4, obj := m.obj, item := m.item
                            edges := (targets c).map (fun t => (t, ((findNode x.nodes t).map (·.gen)).getD 0)), codes := m.codes }
          let x' := putNode x n
          flashOr s c (nodeParts s x no) fun s => finishStored (storeNode (updColl s x.no (fun _ => x')) x' n) c.no 0 0 0 x.no (some x))

/-- BRAID_REPAIR OP 1 (R316); a node not yet written has generation 0. -/
def execBraidRemoveNode (c : CmdId) (s : State) : Host.Outcome State Fault Refusal :=
  .next (runCmd s c (fun c => c.opcode == 0x86 && c.b 34 1 == 1) [(32, 3)]
    (fun c => match cmdColl s c with
      | none => [0x1003]
      | some x => [cond (c.bufBytes != 4) 0x1003, cond (decide (16 * x.poolsMax ≤ le c.data 0 4)) 0x1002]) fun s c =>
    match cmdColl s c with
    | none => s
    | some x =>
      let n := (findNode x.nodes (le c.data 0 4)).getD (blankNode x (le c.data 0 4))
      let n := { n with valid := false, gen := (n.gen + 1) % 65536 }
      let x' := putNode x n
      flashOr s c (nodeParts s x n.no) fun s => finishStored (storeNode (updColl s x.no (fun _ => x')) x' n) c.no 0 0 0 x.no (some x))

/-- BRAID_REPAIR OP 2 (R316). -/
def execBraidSetEntries (c : CmdId) (s : State) : Host.Outcome State Fault Refusal :=
  .next (
    let es (c : Cmd) : List Nat := (List.range (le c.data 0 4)).map (fun i => le c.data (4 + 4 * i) 4)
    runCmd s c (fun c => c.opcode == 0x86 && c.b 34 1 == 2) [(32, 3)]
      (fun c => match cmdColl s c with
        | none => [0x1003]
        | some x =>
          if c.bufBytes < 4 then [0x1003] else
          [cond (le c.data 0 4 == 0 || decide (16 < le c.data 0 4)) 0x1002, cond (c.bufBytes != 4 + 4 * le c.data 0 4) 0x1003,
           cond (decide (le c.data 0 4 ≤ 16) && (es c).any (fun n => match findNode x.nodes n with | some y => !y.valid | none => true)) 0x1003]) fun s c =>
      complete (updColl s (c.b 32 2) (fun x => { x with entries := es c })) c.no 0)

/-- An edge is dropped and its node queued for repair (R317). -/
def staleEdge (s : State) (coll node : Nat) : State :=
  let s := addF (updColl s coll (fun c => { c with stale := c.stale + 1 })) 57 F.BRAID_STALE_COUNT 1
  if s.search.repairs.contains (coll, node) then s
  else if 4096 ≤ s.search.repairs.length then setF s 57 F.SRCH_STATUS_REPAIR_OVF 1
  else updSearch s fun x => { x with repairs := x.repairs ++ [(coll, node)] }

/-- Where a traversal stands. -/
structure Walk where
  /-- the heap, least key first: (DIST, node) -/
  heap : List (Int × Nat)
  seen : List Nat
  seeds : List Cand
  /-- edges dropped for the sweep: node and place among its edges -/
  dropped : List (Nat × Nat)

def walkLt (a b : Int × Nat) : Bool := if a.1 ≠ b.1 then decide (a.1 < b.1) else decide (a.2 < b.2)

/-- One edge of an expanded node, with its place among the node's edges: a stale one is dropped for the sweep, and counts once
in it; a target whose record could not be read is left out (R317, R330). -/
def walkEdge (w : Sweep) (q : Query) (n : Node) (x : State × Walk) (e : (Nat × Nat) × Nat) : State × Walk :=
  if w.lost.contains e.1.1 ∨ x.2.dropped.contains (n.no, e.2) then x
  else
    match (findNode w.nodes e.1.1).filter (fun t => t.valid && t.gen == e.1.2) with
    | none => (staleEdge x.1 w.coll n.no, { x.2 with dropped := (n.no, e.2) :: x.2.dropped })
    | some t =>
      if x.2.seen.contains t.no then x
      else (x.1, { x.2 with seen := t.no :: x.2.seen, heap := insBy walkLt (distOf w.metric q.codes t.codes, t.no) x.2.heap })

/-- The traversal of R317 for one query; the fuel is BUDGET. -/
def walkBraid (w : Sweep) (q : Query) : Nat → State → Walk → State × Walk
  | 0, s, k => (s, k)
  | b + 1, s, k =>
    match k.heap with
    | [] => (s, k)
    | (d, i) :: h =>
      match findNode w.nodes i with
      | none => walkBraid w q b s { k with heap := h }
      | some n =>
        let live := !w.tombs.contains n.obj && (match w.pools.find? (fun p => p.no == n.pool) with | some p => decide (n.member < p.members.length) | none => false)
        let k := { k with heap := h, seeds := if live then k.seeds ++ [⟨d, n.obj, n.item, n.pool, n.member⟩] else k.seeds }
        let r := n.edges.zipIdx.foldl (walkEdge w q n) (countEv s 57 0x74 0 1, k)
        walkBraid w q b r.1 r.2

/-! ### Bounds (R314, R321) -/

/-- The smallest integer whose square is at least x. -/
def csqrt (x : Nat) : Nat := let r := isqrt x; if r * r = x then r else r + 1

/-- LB of a pool for a query's codes; none is +∞ (R314). -/
def lowerBound (metric : Nat) (a : List Byte) (p : Pool) : Option Int :=
  if p.members.isEmpty then none
  else if metric = 1 then
    let s := isqrt (pairSum (fun x y => (x - y) * (x - y)) a p.centroid).toNat
    let r := csqrt p.r2
    some (if r < s then (((s - r) * (s - r) : Nat) : Int) else 0)
  else
    let base := - pairSum (fun x y => (x - 128) * (y - 128)) a p.centroid
    let a2 := (pairSum (fun x _ => (x - 128) * (x - 128)) a a).toNat
    let amax := (a.map (fun x => ((x.toNat : Int) - 128).natAbs)).foldl max 0
    some (base - ((min (csqrt (a2 * p.r2)) (amax * p.r1) : Nat) : Int))

/-- T_q: the k'-th DIST known; none is +∞ (R321). -/
def threshold (q : Query) : Option Int := (q.known[q.depth - 1]?).map (·.dist)

/-- The query needs the pool unless LB > T (R321). -/
def needsPool (metric : Nat) (q : Query) (p : Pool) : Bool :=
  match lowerBound metric q.codes p, threshold q with
  | _, none => true
  | none, some _ => false
  | some l, some t => decide (l ≤ t)

/-- The queries of a sweep that need a pool: all of them where its bound record could not be read, LB being −∞ (R321, R330). -/
def needing (s : State) (w : Sweep) (p : Pool) : List Nat :=
  w.queries.filter (fun i => w.unbound.contains p.no || match findQuery s i with | some q => needsPool w.metric q p | none => false)

/-- Adds candidates to those known for a query: distinct, in order, the first k' kept. -/
def Query.learn (q : Query) (l : List Cand) : Query :=
  { q with known := (l.foldl (fun k c => if k.any (fun x => x.pool == c.pool && x.member == c.member) then k else insBy candLt c k) q.known).take q.depth }

/-! ### Sweeps (R318-R322) -/

def findSweep (s : State) (n : Nat) : Option Sweep := s.search.sweeps.find? (fun w => w.seq == n)
def updSweep (s : State) (n : Nat) (f : Sweep → Sweep) : State :=
  updSearch s fun x => { x with sweeps := x.sweeps.map (fun w => if w.seq = n then f w else w) }

/-- Heap entries reserved by the sweeps in progress (R318). -/
def heapUsed (s : State) : Nat :=
  (s.search.sweeps.map (fun w => (w.queries.map (fun i => ((findQuery s i).map (·.depth)).getD 0)).foldl (· + ·) 0)).foldl (· + ·) 0

/-- Queries a new sweep takes, in acceptance order. -/
def takeQueries : List Query → Nat → Nat → List Query
  | [], _, _ => []
  | q :: l, n, room => if n = 0 then [] else if q.depth ≤ room then q :: takeQueries l (n - 1) (room - q.depth) else takeQueries l n room

/-- SWEEP_START (R317-R319, R322, R330): the snapshot, the seeds of every query and the order of the pools. -/
def execSweepStart (coll : Nat) (sweep : SweepAt) (s : State) : Host.Outcome State Fault Refusal :=
  .next (
    let qs := takeQueries (s.search.queries.filter (fun q => q.coll == coll && q.metric == sweep.metric && q.phase == .queued))
      (getF s 57 F.SRCH_CFG_SWEEP_MAX) (1048576 - heapUsed s)
    match findColl s coll with
    | none => s
    | some c =>
      if qs.isEmpty ∨ getF s 57 F.SRCH_CFG_SWEEPS_MAX ≤ s.search.sweeps.length ∨ working s = false ∨ c.deleting ≠ 0 then s
      else
        let seq := s.search.nextSweep
        let w : Sweep := { seq := seq, coll := coll, metric := sweep.metric, queries := qs.map (·.id), pools := c.pools, nodes := c.nodes, entries := c.entries
                           tombs := (s.search.tombs.filter (fun t => t.nsid == c.nsid)).map (·.id), order := [], active := []
                           unbound := sweep.unbound, lost := sweep.lost }
        let start (q : Query) (dropped : List (Nat × Nat)) : Walk :=
          let es := (c.entries.eraseDups.filterMap (findNode c.nodes)).filter (fun n => n.valid && !sweep.lost.contains n.no)
          { heap := sortBy walkLt (es.map (fun n => (distOf sweep.metric q.codes n.codes, n.no))), seen := es.map (·.no), seeds := [], dropped := dropped }
        let r := qs.foldl (fun (x : State × List Cand × List (Nat × Nat)) q =>
          let y := walkBraid w q c.budget x.1 (start q x.2.2)
          (updQuery y.1 q.id (fun q => { (({ q with known := [], read := 0, skipped := 0, result := [], filtered := 0, moves := [] }).learn y.2.seeds) with
             phase := .swept, sweep := seq }), x.2.1 ++ y.2.seeds, y.2.dropped)) (s, ([] : List Cand), ([] : List (Nat × Nat)))
        let least (p : Nat) : Option Int := ((r.2.1.filter (fun x => x.pool == p)).map (·.dist)).foldl (fun m d => match m with | none => some d | some e => some (min d e)) none
        let before (a b : Pool) : Bool :=
          match least a.no, least b.no with
          | some x, some y => if x ≠ y then decide (x < y) else decide (a.no < b.no)
          | some _, none => true
          | none, some _ => false
          | none, none => decide (a.no < b.no)
        updSearch (countEv r.1 57 0x73 0 qs.length) fun x => { x with
          nextSweep := seq + 1, sweeps := x.sweeps ++ [{ w with order := (sortBy before c.pools).map (fun p => (p.no, 0)) }] })

/-- Sieve island of a pool (R312). -/
def poolIsland (s : State) (p : Pool) : Nat := if (groups s).getD (p.createIdx % max (groups s).length 1) 0 < 4 then 50 else 54

/-- Sieve unit j of an island is enabled by the image (R31). -/
def sieveEnabled (s : State) (isl j : Nat) : Bool := enabled s isl && decide (j < 64) && bit s.boot.info.sieves ((if isl = 50 then 0 else 64) + j)

/-- Whether the last self-test of a sieve or media unit has passed (R330, R347). -/
def noteTested (s : State) (isl u : Nat) (ok : Bool) : State :=
  let t := s.media.tested
  { s with media := { s.media with tested := if ok then mins t (isl * 64 + u) () else mdel t (isl * 64 + u) } }

/-- Units an island uses: the first UNITS enabled ones (R333). -/
def sieveUsed (s : State) (isl j : Nat) : Bool :=
  sieveEnabled s isl j && decide (((List.range j).filter (sieveEnabled s isl)).length < getA s isl F.SIEVE_CTRL_UNITS)

def sieveState (s : State) (isl j : Nat) : Nat := getF s isl F.SIEVE_USTATE_STATE j
def sieveIn (s : State) (isl j : Nat) : Bool := sieveUsed s isl j && (sieveState s isl j == 0 || sieveState s isl j == 4)
/-- Pools a unit reads or has queued. -/
def sieveLoad (s : State) (isl j : Nat) : Nat :=
  (s.search.sweeps.map (fun w => (w.active.filter (fun a => a.2.1 == isl && a.2.2.1.contains j)).length)).sum

def sieveBusy (s : State) (isl j : Nat) : Bool := decide (0 < sieveLoad s isl j)

/-- Units that may take a pool together: at most sixteen of the island's, one for each channel of a stripe group, in service, each
with a place for one more beside the pool it reads and the LOOKAHEAD + 1 queued ahead (R320, R333). -/
def unitsReady (s : State) (isl : Nat) (us : List Nat) : Bool :=
  !us.isEmpty && decide (us.length ≤ 16) && us.eraseDups.length == us.length
    && us.all (fun j => sieveIn s isl j && decide (sieveLoad s isl j < 2 + getA s isl F.SIEVE_CTRL_LOOKAHEAD))

/-- Marks queries failed, the first failure kept. -/
def failMarks (s : State) (qs : List Nat) (status : Nat) : State :=
  qs.foldl (fun s i => updQuery s i (fun q => if q.fail = 0 then { q with fail := status } else q)) s

/-- POOL_DISPATCH (R321, R322, R330): the next pool of the order, where the island serves it, is tested and goes to units of it,
or is skipped. -/
def execPoolDispatch (sweep island : Nat) (units : List Nat) (s : State) : Host.Outcome State Fault Refusal :=
  .next (
    match findSweep s sweep with
    | none => s
    | some w =>
      match w.order with
      | [] => s
      | o :: rest =>
        match w.pools.find? (fun p => p.no == o.1) with
        | none => s
        | some p =>
          let need := needing s w p
          let none' := !(List.range 64).any (sieveIn s island)
          let dead := ((findColl s w.coll).bind (fun c => findPool c p.no)).map (·.damaged) |>.getD false
          let s1 := updSweep s sweep (fun w => { w with order := rest })
          let s1 := w.queries.foldl (fun s i => updQuery s i (fun q =>
            if o.2 ≠ 0 then q else if need.contains i then { q with read := q.read + 1 } else { q with skipped := q.skipped + 1 })) s1
          if poolIsland s p ≠ island then s
          else if need.isEmpty then addF s1 57 F.SRCH_POOLS_SKIPPED_COUNT 1
          else if dead ∨ p.damaged then failMarks s1 need 0x3001
          else if none' then failMarks s1 need 0x1007
          else if unitsReady s island units = false then s
          else
            let s1 := if o.2 = 0 then addF s1 57 F.SRCH_POOLS_READ_COUNT 1 else s1
            updSweep s1 sweep (fun w => { w with active := w.active ++ [(p.no, island, units, need, o.2)] }))

/-- Takes a unit off the pools at the sieves, but for its first where `keep` says so: the island's other units take them, and where
none is in service the queries that need them fail (R330). -/
def moveOff (s : State) (isl unit : Nat) (keep : Bool) : State :=
  let other := (List.range 64).find? (fun j => j != unit && sieveIn s isl j)
  let entry (x : List (Nat × Nat × List Nat × List Nat × Nat) × List Nat × Bool) (a : Nat × Nat × List Nat × List Nat × Nat) :
      List (Nat × Nat × List Nat × List Nat × Nat) × List Nat × Bool :=
    let l := a.2.2.1.filter (· != unit)
    if a.2.1 ≠ isl ∨ a.2.2.1.contains unit = false then (x.1 ++ [a], x.2)
    else if x.2.2 then (x.1 ++ [a], x.2.1, false)
    else if !l.isEmpty then (x.1 ++ [(a.1, isl, l, a.2.2.2)], x.2)
    else match other with
      | some j => (x.1 ++ [(a.1, isl, [j], a.2.2.2)], x.2)
      | none => (x.1, x.2.1 ++ a.2.2.2.1, x.2.2)
  (s.search.sweeps.foldl (fun (x : State × Bool) w =>
    let y := w.active.foldl entry ([], [], x.2)
    (failMarks (updSweep x.1 w.seq (fun w => { w with active := y.1 })) y.2.1 0x1007, y.2.2)) (s, keep)).1

/-- A unit records a fault of R330 or R422; where it goes to TESTING, the pools queued on it go to others. -/
def sieveFault (s : State) (isl unit code : Nat) (test : Bool) : State :=
  let s := setF (setF (setF s isl F.SIEVE_FAULT_CODE code) isl F.SIEVE_FAULT_UNIT unit) isl F.SIEVE_FAULT_VALID 1
  if test then
    moveOff (noteTested (setF (unitMoved (setF s isl F.SIEVE_USTATE_STATE 3 unit)) isl F.SIEVE_USTATE_BIST_FAIL 0 unit) isl unit false) isl unit false
  else s

/-- The codes and keys of a pool leave their channel islands toward the sieve (R261, R320). -/
def poolMoved (s : State) (isl : Nat) (c : Coll) (p : Pool) : State :=
  match findObj s c.nsid c.obj with
  | none => s
  | some o =>
    let base := c.poolBase + p.createIdx * c.stride
    flashMoved s (deltaPort 6 isl) (objParts o base (p.members.length * c.dim) ++ objParts o (base + 65536 * c.dim) (p.members.length * 16))

/-- Bytes of `n` that unit `k` of `m` reads: 32 KiB units in turn (DESIGN CHOICE, notes/assumptions 37). -/
def shareOf (n m k : Nat) : Nat :=
  (((List.range (ceilDiv n 32768)).filter (fun q => q % m == k)).map (fun q => min 32768 (n - 32768 * q))).sum

/-- What the counters of an island and its units take for a pool read for `qs` queries (R333, R475). -/
def countPool (s : State) (isl : Nat) (units : List Nat) (members dim qs : Nat) : State :=
  let s := addF s isl F.SIEVE_POOLS_COUNT 1
  let b := min (getF s isl F.SIEVE_BYTES_LO_BYTES + 2 ^ 32 * getF s isl F.SIEVE_BYTES_HI_BYTES + members * (dim + 16)) (2 ^ 64 - 1)
  let s := setF (setF s isl F.SIEVE_BYTES_LO_BYTES b) isl F.SIEVE_BYTES_HI_BYTES (b / 2 ^ 32)
  units.zipIdx.foldl (fun s u =>
    let n := shareOf (members * dim) units.length u.2
    countEv (countEv (countEv s isl 0x50 u.1 n) isl 0x51 u.1 (n * qs)) isl 0x52 u.1 1) s

/-- JOINING units count a pool completed without fault (R330). -/
def countJoins (s : State) (isl : Nat) (units : List Nat) : State :=
  (units.filter (fun u => sieveState s isl u == 4)).foldl (fun s u =>
    { s with media := { s.media with sieveJoin := mset 0 s.media.sieveJoin (isl * 64 + u) (mget 0 s.media.sieveJoin (isl * 64 + u) + 1) } }) s

/-- SIEVE_POOL_DONE (R320, R330, R422): the units of the oldest pool they have in the sweep finish it. -/
def execSievePoolDone (sweep pool : Nat) (fault : SieveUpset) (s : State) : Host.Outcome State Fault Refusal :=
  .next (
    match findSweep s sweep with
    | none => s
    | some w =>
      match w.active.find? (fun a => a.1 == pool), w.pools.find? (fun p => p.no == pool) with
      | some a, some p =>
        let isl := a.2.1; let units := a.2.2.1; let need := a.2.2.2.1; let miss := a.2.2.2.2
        let first := !(w.active.takeWhile (fun x => x.1 != pool)).any (fun x => x.2.1 == isl && x.2.2.1.any units.contains)
        let named := match fault with | .none => true | .residue u => units.contains u | .error u _ _ => units.contains u | .heap u _ => units.contains u | .fixed u => units.contains u | .unread u _ => units.contains u
        if !first || !named then s
        else
          let s := updSweep s sweep (fun w => { w with active := w.active.erase a })
          let s := match findColl s w.coll with | some c => poolMoved s isl c p | none => s
          let dim := ((findColl s w.coll).map (·.dim)).getD 0
          let done (s : State) : State := countPool s isl units p.members.length dim need.length
          let live := (p.members.zipIdx).filter (fun m => !w.tombs.contains m.1.obj)
          -- `off`: the error of a member's distance that no residue shows
          let learnt (off : Nat → Int) (s : State) : State := need.foldl (fun s i => updQuery s i (fun q =>
            q.learn (((sortBy candLt (live.map (fun m => (⟨distOf w.metric q.codes m.1.codes + off m.2, m.1.obj, m.1.item, pool, m.2⟩ : Cand))))).take q.depth))) s
          let clean := learnt (fun _ => 0)
          let mismatch (unit : Nat) : State :=
            let s := sieveFault s isl unit 0x4002 true
            if miss = 0 then updSweep s sweep (fun w => { w with order := (pool, 1) :: w.order }) else failMarks s need 0x4002
          match fault with
          | .residue unit => mismatch unit
          | .error unit m v => if v % 7 ≠ 0 then mismatch unit else learnt (fun i => if i = m then v else 0) (countJoins (done s) isl units)
          | .heap unit qs =>
            clean (done (failMarks (sieveFault (eventIn s isl 0 unit true) isl unit 0x4001 true) (w.queries.filter qs.contains) 0x4001))
          | .unread unit ms =>
            let s := done (sieveFault s isl unit 0x3001 false)
            let s := updColl s w.coll (fun c => updPool c pool (fun p => { p with damaged := true, unread := (p.unread ++ ms).eraseDups }))
            let s := match findColl s w.coll with
              | some c => (match findPool c pool with | some p => storeRecord s c p | none => s)
              | none => s
            failMarks (healthEvent s 3 (((findColl s w.coll).map (·.nsid)).getD 0) w.coll pool 0) need 0x3001
          | .fixed unit => clean (countJoins (done (eventIn s isl 0 unit false)) isl units)
          | .none => clean (countJoins (done s) isl units)
      | _, _ => s)

/-! ### Filters and the end of a sweep (R325-R327) -/

/-- One predicate term on an attribute (R325). -/
def termHolds (op f v v2 : Nat) : Bool :=
  match op with
  | 0 => f == v
  | 1 => f != v
  | 2 => decide (f < v)
  | 3 => decide (v ≤ f)
  | 4 => decide (sext 32 f < sext 32 v)
  | 5 => decide (sext 32 v ≤ sext 32 f)
  | 6 => decide (v ≤ f) && decide (f ≤ v2)
  | 7 => (f &&& v) != 0
  | 8 => (f &&& v) == v
  | 9 => (f &&& v2) == v
  | _ => false

/-- A predicate: some clause whose every term holds (R325). `cur` is the clause under way. -/
def predHolds (attrs : List Nat) : List (Nat × Nat × Bool × Nat × Nat) → Option Bool → Bool
  | [], cur => cur.getD false
  | (f, op, newcl, v, v2) :: l, cur =>
    let t := termHolds op (attrs.getD f 0) v v2
    match cur with
    | none => predHolds attrs l (some t)
    | some c => if newcl then c || predHolds attrs l (some t) else predHolds attrs l (some (c && t))

/-- Attribute fields of an object (R297). -/
def attrsOf (s : State) (nsid obj : Nat) : List Nat := ((findObj s nsid obj).map (·.attrs)).getD []

/-- A query's answer is merged: filtered, then widened, reranked or returned (R326, R327). -/
def mergeQuery (s : State) (q : Query) : State :=
  match findColl s q.coll with
  | none => failQuery s q 0x1003 0
  | some c =>
    if q.fail ≠ 0 then failQuery s q q.fail q.failDetail
    else
      let all := q.known.map (fun k => (k, attrsOf s c.nsid k.obj))
      let kept := if q.filter then all.filter (fun r => predHolds r.2 q.terms none) else all
      let wide := min (q.depth * c.w) 10000
      let q := { q with result := kept, filtered := all.length - kept.length }
      if q.filter ∧ kept.length < q.k ∧ q.depth < wide ∧ q.widened = false then
        addF (updQuery s q.id (fun _ => { q with phase := .queued, widened := true, depth := wide, known := [] })) 57 F.SRCH_WIDEN_COUNT 1
      else if q.rerank ∧ c.fullEn then
        let s := updQuery s q.id (fun _ => { q with phase := .fetch })
        match findObj s c.nsid c.fullId with
        | none => failQuery s q 0x3001 0
        | some o =>
          let e := c.dim * c.fullElem
          let offs := kept.filterMap (fun r => (findPool c r.1.pool).bind (fun p => (q.memberNow r.1).map (fun i => (p.createIdx * 65536 + i) * e)))
          let pages := (offs.map (fun a => (List.range ((a + e - 1) / pageBytes o + 1 - a / pageBytes o)).map (a / pageBytes o + ·))).flatten.eraseDups
          acceptFetch s o pages 0 (pages.length * pageBytes o) (hintedDie s o (pickDie s 255)) q.deadline (.rerank q.id)
      else finishQuery s q q.plain false 0 none

/-- OBJ_DELETE commands complete once every sweep that began before them is over (R302). -/
def finishObjDeletes (s : State) (sweep : Nat) : State :=
  let ds := s.search.deletes.map (fun d => (d.1, d.2.filter (· != sweep)))
  let s := updSearch s fun x => { x with deletes := ds.filter (fun d => !d.2.isEmpty) }
  (ds.filter (fun d => d.2.isEmpty)).foldl (fun s d => complete s d.1 0) s

/-- SWEEP_COMPLETE (R326): every pool is done. -/
def execSweepComplete (sweep : Nat) (s : State) : Host.Outcome State Fault Refusal :=
  .next (
    match findSweep s sweep with
    | none => s
    | some w =>
      if w.order ≠ [] ∨ w.active ≠ [] then s
      else
        let s := updSearch s fun x => { x with sweeps := x.sweeps.filter (fun y => y.seq != sweep) }
        let s := addF s 57 F.SRCH_SWEEPS_COUNT 1
        let s := w.queries.foldl (fun s i => match findQuery s i with | some q => mergeQuery s q | none => s) s
        finishObjDeletes (finishCollDelete s w.coll) sweep)

/-! ### Queries (R323, R329) -/

/-- Predicate terms in the input (R325). -/
def termsOf (d : List Byte) (n : Nat) : List (List Byte) := (List.range n).map (fun i => slice d (16 * i) 16)
def termBad (t : List Byte) : Bool := decide (15 < le t 0 1) || decide (9 < le t 1 1) || decide (1 < le t 2 1) || le t 3 1 != 0 || le t 12 4 != 0
def readTerm (t : List Byte) : Nat × Nat × Bool × Nat × Nat := (le t 0 1, le t 1 1, bit (le t 2 1) 0, le t 4 4, le t 8 4)

/-- Size of a result entry (R328). -/
def resultSize (rr : Bool) (mask : Nat) : Nat := 16 + 4 * b2n rr + 4 * popCount mask 16

/-- Query depth k' (R326). -/
def queryDepth (k w : Nat) (filter rerank : Bool) : Nat := if filter || rerank then min (k * w) 10000 else k

def blankQuery : Query :=
  { id := 0, no := 0, coll := 0, metric := 0, k := 0, depth := 0, codes := [], filter := false, rerank := false, terms := [], attrMask := 0, ctx := 0
    rrEntry := 0, rrAddr := 0, deadline := 0, embedEntry := 0, embedAddr := 0, phase := .queued, widened := false, filtered := 0, read := 0, skipped := 0
    sweep := 0, known := [], moves := [], result := [], fail := 0, failDetail := 0, spilled := 0, risal := false }

/-- Adds a query in acceptance order. -/
def addQuery (s : State) (q : Query) : State :=
  updSearch s fun x => { x with queries := x.queries ++ [{ q with id := x.nextQuery }], nextQuery := x.nextQuery + 1 }

/-- The context of a search runs rills and is of the namespace (R323, R324). -/
def runCtx (s : State) (c : Cmd) : Bool := match findCtx s (c.b 8 4) with | some x => x.nsid == c.nsid && x.kind != 1 && x.destroy == 0 | none => false

/-- Conditions common to the two searches (R323, R324): `inp` input bytes; `content` whether a context is always named. -/
def searchConds (s : State) (c : Cmd) (content : Bool) : List Nat :=
  match cmdColl s c with
  | none => [0x1003]
  | some x =>
    let m := c.b 34 1
    let rr := bit m 2
    let fl := bit m 3
    [cond (m % 4 == 3 || decide (31 < m) || (content && bit m 4) || (fl && (c.b 35 1 == 0 || decide (16 < c.b 35 1))) || (!fl && c.b 35 1 != 0)
        || c.b 36 2 == 0 || decide (10000 < c.b 36 2)) 0x1002,
     cond (rr && (c.b 40 8 % 8 != 0 || c.b 48 8 % 64 != 0)) 0x1002, cond (!rr && (c.b 40 8 != 0 || c.b 48 8 != 0)) 0x1002,
     cond (!rr && !content && c.b 8 4 != 0xFFFFFFFF) 0x1002,
     cond (rr && !x.fullEn) 0x1003, cond ((rr || content) && !runCtx s c) 0x1003, cond (x.deleting != 0) 0x1003,
     cond (rr && !entryOk s c.dom (c.b 40 8)) 0x4004, cond (rr && !stackRange s c.dom (c.b 48 8) 16) 0x4004]

/-- The query a search command describes. -/
def queryOf (c : Cmd) (x : Coll) (terms : List (List Byte)) : Query :=
  let m := c.b 34 1
  { blankQuery with
    no := c.no, coll := x.no, metric := m % 4, k := c.b 36 2, depth := queryDepth (c.b 36 2) x.w (bit m 3) (bit m 2), filter := bit m 3, rerank := bit m 2
    terms := terms.map readTerm, attrMask := c.b 38 2, ctx := c.b 8 4, rrEntry := c.b 40 8, rrAddr := c.b 48 8, deadline := c.b 12 4 }

/-- SEARCH_VECTOR (R323). -/
def execSearchVector (c : CmdId) (s : State) : Host.Outcome State Fault Refusal :=
  .next (
    let vec (x : Coll) (c : Cmd) : Nat := if bit (c.b 34 1) 4 then x.dim else 4 * x.dim
    runCmd s c (isOp 0x83) [(32, 24)]
      (fun c => searchConds s c false ++ match cmdColl s c with
        | none => []
        | some x =>
          let n := vec x c + 16 * c.b 35 1
          [cond (decide (c.bufBytes < max n (32 + c.b 36 2 * resultSize (bit (c.b 34 1) 2) (c.b 38 2)))) 0x1003,
           cond (decide (n ≤ c.bufBytes) && (termsOf (c.data.drop (vec x c)) (c.b 35 1)).any termBad) 0x1002]) fun s c =>
      match cmdColl s c with
      | none => s
      | some x =>
        let d := c.data.take (vec x c)
        addQuery s { queryOf c x (termsOf (c.data.drop (vec x c)) (c.b 35 1)) with codes := if bit (c.b 34 1) 4 then d else x.encode d })

/-- COLL_STATS (R329). -/
def execCollStats (c : CmdId) (s : State) : Host.Outcome State Fault Refusal :=
  .next (runCmd s c (isOp 0x87) [(32, 3)] (fun c => [cond (cmdColl s c).isNone 0x1003, cond (decide (1 < c.b 34 1)) 0x1002, roomFor c 64]) fun s c =>
    match cmdColl s c with
    | none => s
    | some x =>
      let mine := s.search.repairs.filter (fun r => r.1 == x.no)
      let out := mine.take (min 256 ((c.bufBytes - 64) / 8))
      let tombs := (s.search.tombs.filter (fun t => t.pools.any (fun p => p.1 == x.no))).length
      let rec' := toBytes 8 ((x.pools.map (·.members.length)).foldl (· + ·) 0) ++ toBytes 4 x.pools.length
        ++ toBytes 4 (x.nodes.filter (·.valid)).length ++ toBytes 4 x.stale ++ toBytes 4 (x.pools.filter (·.damaged)).length ++ toBytes 4 tombs
        ++ toBytes 4 mine.length ++ toBytes 4 out.length ++ toBytes 28 0 ++ (out.map (fun r => toBytes 4 r.2 ++ toBytes 4 0)).flatten
      let s := toHost s c rec'
      let s := if c.b 34 1 = 1 then updSearch s fun y => { y with repairs := y.repairs.filter (fun r => !out.contains r) } else s
      complete s c.no 0)

/-! ### Sieve units in and out of service (R330) -/

/-- SIEVE_SELF_TEST_DONE (R330). -/
def execSieveSelfTestDone (island unit : Nat) (failed : Bool) (s : State) : Host.Outcome State Fault Refusal :=
  .next (if (island = 50 ∨ island = 54) ∧ sieveEnabled s island unit = true ∧ sieveState s island unit = 3 then
      noteTested (setF s island F.SIEVE_USTATE_BIST_FAIL (b2n failed) unit) island unit (!failed) else s)

/-- SIEVE_DRAIN_COMPLETE (R330). -/
def execSieveDrainComplete (island unit : Nat) (s : State) : Host.Outcome State Fault Refusal :=
  .next (if (island = 50 ∨ island = 54) ∧ sieveEnabled s island unit = true ∧ sieveState s island unit = 1 ∧ sieveBusy s island unit = false then
      unitMoved (setF s island F.SIEVE_USTATE_STATE 2 unit) else s)

/-- SIEVE_JOIN_COUNT_REACHED (R330): 64 pools without fault. -/
def execSieveJoinCountReached (island unit : Nat) (s : State) : Host.Outcome State Fault Refusal :=
  .next (if (island = 50 ∨ island = 54) ∧ sieveState s island unit = 4 ∧ 64 ≤ mget 0 s.media.sieveJoin (island * 64 + unit) then
      unitMoved (setF s island F.SIEVE_USTATE_STATE 0 unit) else s)

end Sys2Proof.Machine
end

