-- ==== Sys2Proof/Machine/FlashOps.lean ====
section
/-!
DEFINITION. Machine/FlashOps.lean: channels and dies (R370-R372), plane sets and stripes (R379-R382), the mapping journal
(R405), packed blocks (R342, R384), rows (R385) and page reads (R356, R388).
-/
namespace Sys2Proof.Machine

/-! ### Channels and dies -/

/-- Channel island of a channel, its number there, and its island's index 0-3. -/
def chIsl (c : Nat) : Nat := flashIsland (c / 32)

def chEnabled (s : State) (c : Nat) : Bool := decide (c < 128) && enabled s (chIsl c) && bit s.boot.info.channels c

def chState (s : State) (c : Nat) : Nat := getF s (chIsl c) F.FCH_CSTATE_STATE (c % 32)
def setChState (s : State) (c v : Nat) : State := setF s (chIsl c) F.FCH_CSTATE_STATE v (c % 32)
def chFence (s : State) (c : Nat) : Bool := getF s (chIsl c) F.FCH_CSTATE_WFENCE (c % 32) == 1

/-- A die is out of use, by CHANNEL_MAP or by fault (R374). -/
def dieOut (s : State) (c d : Nat) : Bool := bit (getF s (chIsl c) F.FCH_CSTATE_DIES_OUT (c % 32)) d

/-- ONLINE, DRAINING or JOINING: the channel runs operations (R372). -/
def chIn (s : State) (c : Nat) : Bool := chEnabled s c && (chState s c == 0 || chState s c == 1 || chState s c == 4)

def dieKey (c d : Nat) : Nat := 16 * c + d
def getDie (s : State) (c d : Nat) : Die := mget {} s.flash.dies (dieKey c d)
def updDie (s : State) (c d : Nat) (f : Die → Die) : State :=
  updFlash s fun x => { x with dies := mset {} x.dies (dieKey c d) (f (mget {} x.dies (dieKey c d))) }

/-! ### Plane sets (R379) -/

def setKey (c d b : Nat) : Nat := dieKey c d * 1024 + b
def getSet (s : State) (c d b : Nat) : PlaneSet := mget {} s.flash.sets (setKey c d b)
def updSet (s : State) (c d b : Nat) (f : PlaneSet → PlaneSet) : State :=
  updFlash s fun x => { x with sets := mset {} x.sets (setKey c d b) (f (mget {} x.sets (setKey c d b))) }

/-- Some block of the number is factory-bad (R352, R379). -/
def orphan (s : State) (c d b : Nat) : Bool :=
  (List.range 4).any (fun p => (mfind s.flash.factoryBad ((dieKey c d * 4 + p) * 1024 + b)).isSome)

/-- A plane set may be used. -/
def setGood (s : State) (c d b : Nat) : Bool :=
  let x := getSet s c d b
  x.free && !x.retired && !dieOut s c d && !orphan s c d b

/-- A plane set is free for a stripe: the DONE of its erase is on media (R362, R380). -/
def setFree (s : State) (c d b : Nat) : Bool := setGood s c d b && (getSet s c d b).clean

/-- A plane set of a new die, which is erased before its first use (R366). -/
def setNew (s : State) (c d b : Nat) : Bool := setGood s c d b && !(getSet s c d b).clean

/-- Dies of a channel in use. -/
def diesIn (s : State) (c : Nat) : List Nat := (List.range 16).filter (fun d => !dieOut s c d)

/-- Listed big-block plane sets of a channel's dies in use. -/
def setsOf (s : State) (c : Nat) : List (Nat × PlaneSet) :=
  s.flash.sets.filter (fun p => p.1 / 16384 == c && decide (8 ≤ p.1 % 1024) && !dieOut s c (p.1 / 1024 % 16))

/-- Orphaned numbers of a channel's dies in use. -/
def orphans (s : State) (c : Nat) : Nat :=
  ((s.flash.factoryBad.filter (fun p => p.1 / 65536 == c && decide (8 ≤ p.1 % 1024) && !dieOut s c (p.1 / 4096 % 16))).map
    (fun p => (p.1 / 4096, p.1 % 1024))).eraseDups.length

/-- U_c: plane sets neither retired nor on a die out of use (R398). -/
def usableSets (s : State) (c : Nat) : Nat :=
  700 * (diesIn s c).length - orphans s c - ((setsOf s c).filter (fun p => p.2.retired)).length

/-- Free plane sets of a channel (R391, R399). Those of a new die count, whose erase waits for their first use (R366; DEDUCED,
notes/assumptions 43). -/
def freeSets (s : State) (c : Nat) : Nat := usableSets s c - ((setsOf s c).filter (fun p => !p.2.free && !p.2.retired)).length

def findStripe (s : State) (id : Nat) : Option Stripe := s.flash.stripes.find? (fun x => x.id == id)
def updStripe (s : State) (id : Nat) (f : Stripe → Stripe) : State :=
  updFlash s fun x => { x with stripes := x.stripes.map (fun y => if y.id = id then f y else y) }

/-- Members of open stripes on a die (R380). -/
def openOn (s : State) (c d : Nat) : Nat :=
  ((s.flash.stripes.filter (fun x => !x.sealed)).map (fun x => (x.members.filter (fun m => m.chan == c && m.die == d)).length)).foldl (· + ·) 0

/-- The plane set taken on a channel: lowest erase count, fewest open members on its die, lowest die, lowest number
(R380), of those that meet `ok`; `pslc`: formed from parameter blocks 4-7 (R382). -/
def pickSet (s : State) (c : Nat) (pslc : Bool) (ok : State → Nat → Nat → Nat → Bool) : Option (Nat × Nat) :=
  let lo := if pslc then 4 else 8
  let n := if pslc then 4 else 700
  let fresh (d : Nat) : List (Nat × Nat) :=
    (((List.range n).find? (fun i => (mfind s.flash.sets (setKey c d (lo + i))).isNone && ok s c d (lo + i))).map (fun i => (d, lo + i))).toList
  let listed (d : Nat) : List (Nat × Nat) :=
    (s.flash.sets.filter (fun p => p.1 / 1024 == dieKey c d && decide (lo ≤ p.1 % 1024) && decide (p.1 % 1024 < lo + n) && ok s c d (p.1 % 1024))).map
      (fun p => (d, p.1 % 1024))
  let key (x : Nat × Nat) : Nat × Nat × Nat × Nat := ((getSet s c x.1 x.2).eraseCount, openOn s c x.1, x.1, x.2)
  let lt (a b : Nat × Nat) : Bool :=
    let ka := key a
    let kb := key b
    if ka.1 ≠ kb.1 then decide (ka.1 < kb.1)
    else if ka.2.1 ≠ kb.2.1 then decide (ka.2.1 < kb.2.1)
    else if ka.2.2.1 ≠ kb.2.2.1 then decide (ka.2.2.1 < kb.2.2.1) else decide (ka.2.2.2 < kb.2.2.2)
  (((diesIn s c).map (fun d => fresh d ++ listed d)).flatten).foldl (fun b x => match b with | none => some x | some y => if lt x y then some x else some y) none

/-- Wants the four blocks of a plane set erased (R362). -/
def wantErase (s : State) (c d b : Nat) : State :=
  updDie s c d (fun x => { x with wantErase := x.wantErase ++ [(0, b)] })

/-- Takes a free plane set for a stripe. -/
def takeSet (s : State) (m : Member) (id : Nat) : State :=
  updSet s m.chan m.die m.block (fun x => { x with free := false, stripe := id })

/-- An operation that erases, or announces the erase of, a block number. -/
def DieOp.erases (b : Nat) : DieOp → Bool
  | .erase bs => bs.any (fun x => x.2 == b)
  | .journal p => p.entries.any (fun e => e.kind == 1 && e.block == b)
  | _ => false

/-- The erase of a block number is on its way. -/
def Die.erasing (d : Die) (b : Nat) : Bool :=
  d.wantErase.any (fun x => x.2 == b) || d.dones.any (fun e => e.block == b) || (d.run.toList ++ d.susp.toList ++ d.others).any (DieOp.erases b)

/-- A channel takes plane sets for stripes (R371, R372, R380). -/
def chTakes (s : State) (c : Nat) : Bool := chEnabled s c && (chState s c == 0 || chState s c == 4) && !chFence s c

/-- No plane set of a channel is free, and one of a new die is to be. -/
def prepWaits (s : State) (c : Nat) (pslc : Bool) : Bool := (pickSet s c pslc setFree).isNone && (pickSet s c pslc setNew).isSome

/-- Has the plane set of a new die that a channel would take next erased (R366, R380). -/
def prepChan (s : State) (c : Nat) (pslc : Bool) : State :=
  match pickSet s c pslc setFree, pickSet s c pslc setNew with
  | none, some p => if (getDie s c p.1).erasing p.2 then s else wantErase s c p.1 p.2
  | _, _ => s

/-- The channels of a group that take plane sets. -/
def groupTakes (s : State) (g : Nat) : List Nat := ((List.range 16).map (fun i => 16 * g + i)).filter (chTakes s)

/-- The same on every channel of a group. -/
def prepGroup (s : State) (g : Nat) (pslc : Bool) : State := (groupTakes s g).foldl (fun s c => prepChan s c pslc) s

/-! ### Journal and health (R405, R407) -/

/-- Adds to a counter of the health log; counters saturate (R407). -/
def health (s : State) (i n : Nat) : State := updFlash s fun f => { f with health := updAt f.health i (fun v => min (v + n) (2 ^ 64 - 1)) }

/-- SPARE_PCT of one channel (R398). Where U0 leaves no spares, 100 while no set is lost, else 0 (DESIGN CHOICE,
notes/assumptions 43). -/
def sparePct (s : State) (c : Nat) : Nat :=
  let u : Int := usableSets s c
  let u0 : Int := (mget (usableSets s c) s.flash.u0 c : Nat)
  let d := u0 - 9920
  if d = 0 then (if u0 ≤ u then 100 else 0) else (max 0 (min 100 (100 * (u - 9920) / d))).toNat

/-- In-service channels of an island, or of the module. -/
def chansIn (s : State) : List Nat := (List.range 128).filter (chIn s)

/-- A collection of the group can free nothing more: every sealed stripe it may take is wholly live (R391, R399). -/
def liveKib (s : State) (x : Stripe) : Nat :=
  ((x.packed.filter (fun p => mfind s.flash.map p.lua == some (.stripe x.id p.off))).map (fun p => ceilDiv p.bytes.length 1024)).foldl (· + ·) 0
def groupStuck (s : State) (g : Nat) : Bool :=
  (s.flash.stripes.filter (fun x => x.group == g && x.sealed && (x.kind == .host || x.kind == .target))).all (fun x => decide (x.next ≤ liveKib s x))

/-- Brings the read-only state up to date (R399). -/
def noteRo (s : State) : State :=
  let cs := chansIn s
  let new := if s.flash.ro = 2 then 2
    else if cs.any (fun c => sparePct s c == 0) then 2
    else if s.flash.ro = 1 then (if cs.all (fun c => decide (64 ≤ freeSets s c)) then 0 else 1)
    else if cs.any (fun c => decide (freeSets s c < 64) && groupStuck s (c / 16)) then 1 else 0
  if new = s.flash.ro then s
  else
    let s := healthEvent (updFlash s fun f => { f with ro := new }) 5 0 new 0 0
    (List.range 4).foldl (fun s k => if enabled s (flashIsland k) then journalRec s k (.state new (s.flash.patrol.getD k 0) s.flash.health) else s) s

/-- Retires a plane set (R397). -/
def retireSet (s : State) (c d b : Nat) : State :=
  if (getSet s c d b).retired then s
  else
    let f := ((findStripe s (getSet s c d b).stripe).map (·.filter)).getD (getSet s c d b).filter
    let n := (getSet s c d b).eraseCount
    let s := updSet s c d b (fun x => { x with retired := true, free := false, filter := f })
    let s := health (addF s (chIsl c) F.FTL_RETIRED_COUNT 1) 8 1
    let s := journalRec (healthEvent s 1 0 (c * 16 + d) b n) (c / 32) (.retire c d b)
    noteRo s

/-! ### Packed blocks (R342, R384) -/

/-- Expands a token length: a field of 15 is followed by further bytes; the value and the rest. -/
def extLen : List Byte → Nat → Nat × List Byte
  | [], v => (v, [])
  | b :: l, v => if b = 255 then extLen l (v + 255) else (v + b.toNat, l)

/-- Copies a match byte by byte. -/
def copyMatch : Nat → Nat → List Byte → List Byte
  | 0, _, out => out
  | n + 1, off, out => copyMatch n off (out ++ [out.getD (out.length - off) 0])

/-- Decodes sequences to a unit of `ulen` bytes; none where the block is invalid (R343). -/
def unseq (ulen : Nat) : Nat → List Byte → List Byte → Option (List Byte)
  | 0, _, _ => none
  | fuel + 1, p, out =>
    match p with
    | [] => none
    | t :: l =>
      let (lit, l) := if t.toNat / 16 = 15 then extLen l 15 else (t.toNat / 16, l)
      let m0 := t.toNat % 16
      let (m, l) := if m0 = 15 then extLen l 15 else (m0, l)
      if l.length < lit then none
      else
        let out := out ++ l.take lit
        let l := l.drop lit
        if ulen < out.length then none
        else if out.length = ulen then some out
        else
          match l with
          | a :: b :: l =>
            let off := a.toNat + 256 * b.toNat
            if off = 0 ∨ out.length < off then none
            else
              let out := copyMatch (m + 4) off out
              if ulen < out.length then none else if out.length = ulen then some out else unseq ulen fuel l out
          | _ => none

/-- Decodes a Balonte block (R342, R343). -/
def unpackBlock (b : List Byte) : Option (List Byte) :=
  let ulen := le b 2 2 + 1
  let clen := le b 4 2
  let pay := slice b 8 clen
  if b.headD 0 ≠ 0xB5 ∨ ulen > 32768 then none
  else
    match (if bit (le b 1 1) 0 then (if clen = ulen % 65536 then some (pay.take ulen) else none) else unseq ulen (clen + 1) pay []) with
    | some u => if crc32c u % 65536 = le b 6 2 then some u else none
    | none => none

/-- The header of a block. -/
def blockHead (raw : Bool) (unit pay : List Byte) : List Byte :=
  [0xB5] ++ toBytes 1 (b2n raw) ++ toBytes 2 (unit.length - 1) ++ toBytes 2 pay.length ++ toBytes 2 (crc32c unit)

/-- Units stored without a compression attempt: table pages and context images, those under way among them (R384). -/
def neverPacked (s : State) (lua : Nat) : Bool :=
  let within (u n : Nat) : Bool := decide (u ≤ luaUnit lua) && decide (luaUnit lua < u + n)
  luaSpace lua == 255
    || (decide (64 < luaSpace lua) && s.search.objs.any (fun o => o.nsid + 64 == luaSpace lua && o.mtype == 7 && match o.storage with | .device u n => within u n | _ => false))
    || s.sched.ctxs.any (fun c => (c.imgOp == 1 || c.imgOp == 3) && c.nsid + 64 == luaSpace lua && within c.imgUnit c.imgUnits)

/-- The stored block of a unit: the compressor's sequences where they are at most 30,720 bytes and give the unit back, else
the unit verbatim (R342, R343). -/
def packUnit (s : State) (lua : Nat) (unit : List Byte) : List Byte × Bool :=
  let c := Config.compress unit
  let b := blockHead false unit c ++ c
  if !neverPacked s lua && decide (c.length ≤ 30720) && unpackBlock b == some unit then (b, false)
  else (blockHead true unit unit ++ unit, true)

/-! ### Stripes (R380-R382) -/

def Stripe.pslc (x : Stripe) : Bool := x.kind == .staging || x.kind == .journal
def Stripe.rows (x : Stripe) : Nat := if x.pslc then 256 else 1536
/-- KiB of one member's row. -/
def Stripe.cell (x : Stripe) : Nat := if x.pslc then 64 else 256
/-- R: data KiB of a row. -/
def Stripe.rowKib (x : Stripe) : Nat := (x.members.length - 1) * x.cell
def Stripe.space (x : Stripe) : Nat := x.rowKib * x.rows

/-- The next identifier not in use (DESIGN CHOICE, notes/assumptions 43). -/
def nextId (s : State) : Nat :=
  let n := s.flash.stripes.length + 1
  (((List.range n).map (fun i => (s.flash.nextStripe - 1 + i) % 0x1FFFD + 1)).find? (fun i => (findStripe s i).isNone)).getD s.flash.nextStripe

def StripeKind.pslc (k : StripeKind) : Bool := k == .staging || k == .journal

/-- A channel of the group still prepares a plane set of a new die, and no stripe is opened without it (R366, R380). -/
def openWaits (s : State) (g : Nat) (kind : StripeKind) : Bool := (groupTakes s g).any (fun c => prepWaits s c kind.pslc)

/-- Opens a stripe of a group on members that meet `ok`; none where fewer than three channels can give a member or 16 are open
(R380). -/
def openWith (s : State) (g : Nat) (kind : StripeKind) (ok : State → Nat → Nat → Nat → Bool) : Option (State × Nat) :=
  let cand := (groupTakes s g).filterMap (fun c => (pickSet s c kind.pslc ok).map (fun p => (⟨c, p.1, p.2⟩ : Member)))
  let w := cand.length
  if w < 3 ∨ 16 ≤ (s.flash.stripes.filter (fun x => x.group == g && !x.sealed)).length then none
  else
    let id := nextId s
    let par := id % w
    let ms := cand.eraseIdx par ++ (cand[par]?).toList
    let k := g / 2
    let x : Stripe :=
      { id := id, group := g, kind := kind, members := ms, next := 0, rowsOut := 0, rowsDone := 0, progDone := [], lows := [], sealed := false, packed := []
        openSeq := s.flash.seqs.getD k 0 + 1, headSeqs := [], filter := 0, rowSeqs := [], badPages := [] }
    let s := ms.foldl (fun s m => takeSet s m id) s
    let s := updFlash s fun f => { f with stripes := f.stripes ++ [x], nextStripe := id % 0x1FFFD + 1 }
    some (journalRec s k (.stripeOpen id), id)

/-- Opens a stripe on free plane sets (R380). -/
def openStripe (s : State) (g : Nat) (kind : StripeKind) : Option (State × Nat) :=
  if openWaits s g kind then none else openWith s g kind setFree

/-- Queues the programs of the next row, sealed now, on every member's die (R385, R410). -/
def issueRow (s : State) (id : Nat) (urgent : Bool) : State :=
  match findStripe s id with
  | none => s
  | some x =>
    let row := x.rowsOut
    let passes := if x.pslc then [2] else [1, 2]
    let s := (x.members.zipIdx).foldl (fun s m =>
      updDie s m.1.chan m.1.die (fun d => { d with others := d.others ++ passes.map (fun p => DieOp.prog id row m.2 p urgent) })) s
    updFlash (updStripe s id (fun x => { x with rowsOut := row + 1 })) fun f => { f with rowSealed := setBit f.rowSealed (x.group / 2) true }

/-- Queues every row whose data space is full. -/
def issueRows (id : Nat) (urgent : Bool) : Nat → State → State
  | 0, s => s
  | n + 1, s =>
    match findStripe s id with
    | none => s
    | some x => if (x.rowsOut + 1) * x.rowKib ≤ x.next ∧ x.rowsOut < x.rows then issueRows id urgent n (issueRow s id urgent) else s

/-- Pads the row under way with zeros and queues it (R385, R386). -/
def padRow (s : State) (id : Nat) (urgent : Bool) : State :=
  match findStripe s id with
  | none => s
  | some x =>
    if x.next ≤ x.rowsOut * x.rowKib then s
    else issueRow (updStripe s id (fun x => { x with next := (x.rowsOut + 1) * x.rowKib })) id urgent

/-- Seals a stripe: it takes nothing more (R380, R405). -/
def sealStripe (s : State) (id : Nat) : State :=
  match findStripe s id with
  | none => s
  | some x => if x.sealed then s else journalRec (updStripe (padRow s id false) id (fun x => { x with sealed := true })) (x.group / 2) (.stripeSeal id)

/-- Filter bit of a unit (R403). -/
def filterBit (lua : Nat) : Nat := 2 ^ (Config.filterHash (luaSpace lua) (luaUnit lua / 8192) % 256)

/-- Packs a block into a stripe's next free KiB; its offset. -/
def appendBlock (s : State) (id lua : Nat) (b : List Byte) (lost : Nat) (urgent : Bool) : State × Nat :=
  match findStripe s id with
  | none => (s, 0)
  | some x =>
    let off := x.next
    let s := updStripe s id (fun x => { x with
      packed := x.packed ++ [⟨lua, off, b, lost⟩], next := off + ceilDiv b.length 1024, filter := x.filter ||| filterBit lua
      rowSeqs := x.rowSeqs ++ List.replicate (ceilDiv (off + ceilDiv b.length 1024) (max x.rowKib 1) - x.rowSeqs.length) (s.flash.seqs.getD (x.group / 2) 0) })
    (issueRows id urgent (ceilDiv b.length 1024 + 1) s, off)

/-- The open stripe of a kind in a group that still has room for `kib`; full ones are sealed, and one is opened where none
is. -/
def stripeFor (s : State) (g : Nat) (kind : StripeKind) (kib : Nat) : Option (State × Nat) :=
  match s.flash.stripes.find? (fun x => x.group == g && x.kind == kind && !x.sealed) with
  | some x => if x.next + kib ≤ x.space then some (s, x.id) else openStripe (sealStripe s x.id) g kind
  | none => openStripe s g kind

/-! ### The mapping journal on media (R353, R382, R404, R405) -/

/-- A mapping entry as stored (R377). -/
def locEntry : Option Loc → Nat
  | none => 0
  | some (.stripe id off) => id * 2 ^ 23 + off
  | some .lost => 0x1FFFE * 2 ^ 23
  | some (.slot _ n) => 0x1FFFF * 2 ^ 23 + n

/-- KIND and body of the 16-byte records of a journal record (R405): a MAP is followed by its LUA_HI; the layout of the other bodies is
free. -/
def JRec.words : JRec → List (Nat × Nat)
  | .map lua l => [(1, locEntry l + 2 ^ 40 * (lua % 2 ^ 24)), (2, lua / 2 ^ 24)]
  | .stripeOpen id => [(3, (Config.journalBody 3 [0, id]).toNat)]
  | .stripeSeal id => [(3, (Config.journalBody 3 [1, id]).toNat)]
  | .stripeFree id => [(3, (Config.journalBody 3 [2, id]).toNat)]
  | .member id i c d b => [(4, (Config.journalBody 4 [id, i, c, d, b]).toNat)]
  | .retire c d b => [(5, (Config.journalBody 5 [c, d, b]).toNat)]
  | .tablePage n l => [(6, (Config.journalBody 6 [n, locEntry l]).toNat)]
  | .checkpoint st q => [(7, (Config.journalBody 7 [b2n st, q]).toNat)]
  | .state ro p l => [(8, (Config.journalBody 8 (ro :: p :: l)).toNat)]

/-- The records of a journal buffer that fill the next page, and the rest (R405). -/
def pageRecs : List (Nat × JRec) → Nat → List (Nat × JRec) × List (Nat × JRec)
  | [], _ => ([], [])
  | r :: l, room => if room < r.2.words.length then ([], r :: l) else let x := pageRecs l (room - r.2.words.length); (r :: x.1, x.2)

/-- A journal page: header and records (R405). -/
def mapPage (seq : Nat) (rs : List (Nat × JRec)) : List Byte :=
  let body := ((rs.map (fun r => r.2.words.map (fun w => toBytes 1 w.1 ++ toBytes 7 r.1 ++ toBytes 8 w.2))).flatten).flatten
  let h := toBytes 4 0x4A50544D ++ toBytes 2 (body.length / 16) ++ toBytes 2 0 ++ toBytes 8 seq ++ toBytes 44 0
  slice (h ++ toBytes 4 (crc32c (h ++ body)) ++ body) 0 16384

/-- PAGE_SEQ of a page in a journal stripe. -/
def Packed.pageSeq (p : Packed) : Nat := le p.bytes 8 8

/-- Writes the next page of an island's journal buffer into a journal stripe of its first group, when a page is full, or `all` of it
is flushed (R382, R405; DESIGN CHOICE, notes/assumptions 43); it waits while no stripe can be opened. -/
def journalPage (s : State) (k : Nat) (all : Bool) : Option State :=
  let buf := s.flash.jbuf.getD k []
  let x := pageRecs buf 1020
  if x.1.isEmpty ∨ (x.2.isEmpty ∧ all = false ∧ (x.1.map (fun r => r.2.words.length)).sum < 1020) then none
  else
    match stripeFor s (2 * k) .journal 16 with
    | none => none
    | some (s, id) =>
      let q := s.flash.jpageSeq.getD k 0 + 1
      let left := s.flash.jbuf.getD k []
      let s := (appendBlock s id (2 ^ 64 - 1) (mapPage q x.1) 0 false).1
      some (updFlash s fun f => { f with
        jbuf := updAt f.jbuf k (fun _ => left.drop x.1.length), jpageSeq := updAt f.jpageSeq k (fun _ => q), jpages := updAt f.jpages k (· + 1) })

/-- Writes every full page of an island's journal buffer. -/
def pumpJournalN (k : Nat) (all : Bool) : Nat → State → State
  | 0, s => s
  | n + 1, s => match journalPage s k all with
    | some s => pumpJournalN k all n s
    | none => s

def pumpJournal (s : State) (k : Nat) (all : Bool) : State :=
  let s := if ((s.flash.jbuf.getD k []).map (fun r => r.2.words.length)).sum < 1020 ∨ openWaits s (2 * k) .journal = false then s else prepGroup s (2 * k) true
  pumpJournalN k all ((s.flash.jbuf.getD k []).length) s

/-- A secure discard waits for the members of this stripe too, once the stripe goes (R403). -/
def discardErase (l : List Member) (id : Nat) (d : Discard) : Discard :=
  if d.stripes.contains id then
    { d with stripes := d.stripes.filter (fun x => x != id), erasing := d.erasing ++ l.map (fun m => (m.chan, m.die, m.block)) }
  else d

/-- Takes a stripe out of use: its members wait for their erase, marked with what they may still hold; a retired member is
erased only for a secure discard (R392, R397, R403). -/
def eraseStripe (s : State) (id : Nat) : State :=
  match findStripe s id with
  | none => s
  | some x =>
    let forced := s.flash.discards.any (fun d => d.stripes.contains id)
    let s := x.members.foldl (fun s m =>
      if (getSet s m.chan m.die m.block).retired then (if forced then wantErase s m.chan m.die m.block else s)
      else wantErase (updSet s m.chan m.die m.block (fun y => { y with free := false, stripe := 0, filter := x.filter, clean := false })) m.chan m.die m.block) s
    let s := updFlash s fun f => { f with
      discards := f.discards.map (discardErase x.members id)
      stripes := f.stripes.filter (fun y => y.id != id), gone := f.gone ++ [x]
      refresh := f.refresh.filter (fun r => r.1 != id), joinLeft := f.joinLeft.filter (fun r => r.1 != id), repls := f.repls.filter (fun r => r.stripe != id) }
    journalRec s (x.group / 2) (.stripeFree id)

/-- Some entry points into the stripe. -/
def pointedTo (s : State) (id : Nat) : Bool :=
  s.flash.map.any (fun p => match p.2 with | .stripe i _ => i == id | _ => false)

/-- Staging stripes that no entry points into are erased (R386). -/
def dropStaging (s : State) : State :=
  (s.flash.stripes.filter (fun x => x.kind == .staging && x.sealed && x.rowsDone == x.rowsOut && !pointedTo s x.id && !s.flash.flushed.contains x.id)).foldl (fun s x => eraseStripe s x.id) s

/-! ### Page positions (R381) -/

/-- A page of a stripe: row, data member, plane * 4 + page. -/
def pageOf (x : Stripe) (kib : Nat) : Nat × Nat × Nat :=
  let o := kib % max x.rowKib 1
  let r := o % x.cell
  (kib / max x.rowKib 1, o / x.cell, if x.pslc then r / 16 * 4 else r / 16)

/-- Pages that a packed block touches, in order. -/
def pagesOf (x : Stripe) (p : Packed) : List (Nat × Nat × Nat) :=
  ((List.range (ceilDiv p.bytes.length 1024)).map (fun i => pageOf x (p.off + i))).eraseDups

/-- Physical address of a page of a member. -/
def physPage (x : Stripe) (pg : Nat × Nat × Nat) : Option PageAddr :=
  (x.members[pg.2.1]?).map (fun m => ⟨m.chan, m.die, pg.2.2 / 4, m.block, pg.1, pg.2.2 % 4⟩)

/-- Member of a stripe at a physical address. -/
def Stripe.memberAt (x : Stripe) (p : PageAddr) : Option Nat := x.members.findIdx? (fun m => m.chan == p.chan && m.die == p.die && m.block == p.block)

/-- The stripe and member at a physical address. -/
def stripeAt (s : State) (p : PageAddr) : Option (Stripe × Nat) :=
  (findStripe s (getSet s p.chan p.die p.block).stripe).bind (fun x => (x.memberAt p).map (fun i => (x, i)))

/-- The stripe out of use whose data a block not erased since still holds (R373). -/
def goneAt (s : State) (p : PageAddr) : Option (Stripe × Nat) :=
  let y := getSet s p.chan p.die p.block
  if y.stripe ≠ 0 ∨ y.clean = true then none
  else ((s.flash.gone.filter (fun x => (x.memberAt p).isSome)).getLast?).bind (fun x => (x.memberAt p).map (fun i => (x, i)))

/-- A member can be read: its channel runs, its die is in use and, on a JOINING channel, it has been replaced (R371, R372). -/
def memberIn (s : State) (x : Stripe) (i : Nat) : Bool :=
  match x.members[i]? with
  | none => false
  | some m => chIn s m.chan && !dieOut s m.chan m.die && !s.flash.joinLeft.contains (x.id, i)

/-! ### Lost units and rebuilds (R388) -/

/-- A unit is lost: every block of it reads 0x3001 until written or trimmed (R377). -/
def loseUnit (s : State) (lua : Nat) : State :=
  let k := homeGroup s lua / 2
  let s := setMap s lua (some .lost)
  let s := updFlash s fun f => { f with lostBlocks := (List.range 8).foldl (fun m i => mins m (8 * lua + i) ()) f.lostBlocks }
  journalRec (health (addF s (flashIsland k) F.FTL_LOST_COUNT 1) 3 1) k (mapRec lua (some .lost))

/-- Puts a whole unit into the write buffer again (R388); with no slot free it waits for one. -/
def rewriteUnit (s : State) (lua : Nat) : State :=
  let k := homeGroup s lua / 2
  match freeSlot s k with
  | none => updFlash s fun f => { f with rewrites := if f.rewrites.contains lua then f.rewrites else f.rewrites ++ [lua] }
  | some n =>
    let blk (i : Nat) : List Byte := (mfind s.flash.blocks (8 * lua + i)).getD zeroBlock
    let lost := maskOf ((List.range 8).filter (fun i => (mfind s.flash.lostBlocks (8 * lua + i)).isSome))
    let x : Slot := { emptySlot lua none with mask := 255, data := (List.range 8).map blk, lostMask := lost }
    setMap (updFlash s fun f => { f with slots := mins f.slots (slotKey k n) x }) lua (some (.slot k n))

/-- Units whose entry points to a block of the stripe that touches a page. -/
def unitsOn (s : State) (x : Stripe) (pg : Nat × Nat × Nat) : List Nat :=
  (x.packed.filter (fun p => mfind s.flash.map p.lua == some (.stripe x.id p.off) && (pagesOf x p).contains pg)).map (·.lua)

/-- A member waits for refresh (R401). -/
def wantRefresh (s : State) (id i : Nat) : State :=
  updFlash s fun f => { f with refresh := if f.refresh.contains (id, i) then f.refresh else f.refresh ++ [(id, i)] }

/-- A member that a read found weak, or read often, waits for refresh (R401). -/
def checkRefresh (s : State) (p : PageAddr) (weak : Bool) : State :=
  match stripeAt s p with
  | none => s
  | some (x, i) =>
    if x.sealed && (weak || decide (getA s (chIsl p.chan) F.FTL_RD_CFG_RD_LIMIT * 1024 ≤ (getSet s p.chan p.die p.block).reads)) then wantRefresh s x.id i else s

/-- Pages of a block have been read `n` times: the set's reads count, which may ask for its refresh unless the read is RAW_READ's
(R373, R401), and the bytes that left the die. -/
def pageCounted (s : State) (p : PageAddr) (n : Nat) (raw : Bool) : State :=
  let s := countEv (updSet s p.chan p.die p.block (fun x => { x with reads := x.reads + n })) (chIsl p.chan) 0x40 (p.chan % 32) (18432 * n)
  if raw then s else checkRefresh s p false

/-- The pages of the members at a position of a stripe, but for member `i`, are read for a rebuild (R388, R401). -/
def rebuildReads (s : State) (x : Stripe) (pg : Nat × Nat × Nat) : State :=
  (List.range x.members.length).foldl (fun s j =>
    if j = pg.2.1 ∨ memberIn s x j = false then s else match physPage x (pg.1, j, pg.2.2) with | some a => pageCounted s a 1 false | none => s) s

/-- Every other member's page at the position can be read. -/
def rebuilds (s : State) (x : Stripe) (pg : Nat × Nat × Nat) (pair : Bool) : Bool :=
  !pair && (List.range x.members.length).all (fun j => j == pg.2.1 || (memberIn s x j && !x.badPages.contains (pg.1, j, pg.2.2)))

/-- Slots whose merge reads a block on the page take its missing blocks as lost (R383). -/
def loseMerges (s : State) (x : Stripe) (pg : Nat × Nat × Nat) : State :=
  let hit (y : Slot) : Bool := y.merging && x.packed.any (fun p => p.lua == y.lua && y.old == some (x.id, p.off) && (pagesOf x p).contains pg)
  (s.flash.slots.filter (fun p => hit p.2)).foldl (fun s p => updFlash s fun f => { f with
    lostBlocks := ((List.range 8).filter (fun i => !bit p.2.mask i)).foldl (fun m i => mins m (8 * p.2.lua + i) ()) f.lostBlocks }) s

/-- The blocks on an uncorrectable page of a member, its position (row, member, page), are rebuilt from the other members and written
again, or lost (R388): `bad` codewords; `pair`: another member's page does not decode either; `only`: the one block that is
invalid (R343). -/
def rebuildPage (s : State) (id : Nat) (pg : Nat × Nat × Nat) (bad : Nat) (pair : Bool) (only : Option Nat) : State :=
  match findStripe s id with
  | none => s
  | some x =>
    let ok := rebuilds s x pg pair
    let us := match only with
      | none => unitsOn s x pg
      | some k => (unitsOn s x pg).filter (fun lua => ((x.packed.filter (fun p => (pagesOf x p).contains pg))[k]?).any (fun (p : Packed) => p.lua == lua))
    let s := if only.isSome then s else updStripe s id (fun x => { x with badPages := if x.badPages.contains pg then x.badPages else x.badPages ++ [pg] })
    let s := rebuildReads (if memberIn s x pg.2.1 then wantRefresh s id pg.2.1 else s) x pg
    if ok then us.foldl rewriteUnit (health (addF s (flashIsland (x.group / 2)) F.FTL_REBUILT_COUNT bad) 2 bad)
    else loseMerges (us.foldl loseUnit s) x pg

/-! ### What a page read shows (R343, R356, R388, R401, R414) -/

/-- Notes an uncorrectable page on a die; the third die of a channel within 2^31 cycles orders a line test (R370). -/
def noteUnc (s : State) (c dn : Nat) : State :=
  let now := cyc s (chIsl c)
  let l := (dn, now) :: (mget [] s.flash.recentUnc c).filter (fun e => e.1 != dn && decide (now < e.2 + 2 ^ 31))
  updFlash s fun f => { f with recentUnc := mset [] f.recentUnc c l, testDue := if 3 ≤ l.length then mins f.testDue c () else f.testDue }

/-- Array-local address of a page's codeword (R429). -/
def codewordAddr (p : PageAddr) : Nat := (Config.flashLocal p.die p.plane p.block p.wl p.page).toNat

/-- Codewords uncorrectable after the retries, or an invalid block: rebuilt or lost (R343, R388). -/
def pageBad (s : State) (p : PageAddr) (bad : Nat) (pair : Bool) (only : Option Nat) : State :=
  let isl := chIsl p.chan
  let s := health (addF s isl F.FTL_UNCORR_COUNT bad) 1 bad
  let s := (List.range bad).foldl (fun s _ => uncorrectableEvent s isl 0 (p.chan % 32) (codewordAddr p)) s
  let s := noteUnc s p.chan p.die
  match stripeAt s p with
  | some (x, i) => rebuildPage s x.id (p.wl, i, 4 * p.plane + p.page) bad pair only
  | none => s

/-- A read that decoded at a level, with the bits corrected of its codewords: their counts (R407, R414). -/
def pageCorrected (s : State) (p : PageAddr) (level : Nat) (bits : List Nat) : State :=
  let n := (bits.filter (· != 0)).length
  let s := health (addF s (chIsl p.chan) F.FTL_CORR_COUNT n) 0 n
  let weak := if 0 < level then 4 else (bits.filter (fun b => decide (getA s (chIsl p.chan) F.FTL_PATROL_CFG_REFRESH_BITS < b))).length
  (List.range weak).foldl (fun s _ => correctedEvent s (chIsl p.chan) 0 (p.chan % 32) (codewordAddr p)) s

/-- A page read of a stripe has decoded at a level: refresh, and what an invalid block brings. -/
def pageGood (s : State) (p : PageAddr) (level : Nat) (o : ReadOutcome) : State :=
  let lim := getA s (chIsl p.chan) F.FTL_PATROL_CFG_REFRESH_BITS
  let s := checkRefresh s p (decide (3 ≤ level) || match o with | .decoded l => l.any (fun b => decide (lim < b)) | _ => false)
  match o with
  | .badBlock k => pageBad (addF s (chIsl p.chan) F.CMP_INVALID_COUNT 1) p 1 false (some k)
  | _ => s

/-- Corrected bits an outcome tells. -/
def corrBits : ReadOutcome → List Nat
  | .decoded l => l
  | _ => []

/-- One page read of a unit for a reader that queues no die operation of its own (a tier fetch, a decode, a sieve): the retries
up to the level that decodes, or all seven, and what the last read shows. -/
def pageRead (s : State) (a : PageAddr) (level : Nat) (o : ReadOutcome) : State :=
  let n := match o with | .failed _ | .pair _ => 7 | _ => min level 7
  let s := pageCounted s a (n + 1) false
  let s := if n = 0 then s else countEv (addF s (chIsl a.chan) F.FCH_RETRIES_COUNT n) (chIsl a.chan) 0x44 (a.chan % 32) n
  match o with
  | .failed b => pageBad s a b false none
  | .pair b => pageBad s a b true none
  | o => pageGood (pageCorrected s a n (corrBits o)) a n o

/-- The page reads of units in stripes for such a reader, in order: clean but where `outs` says otherwise, by the unit's place
in the list and the page's place in the unit; pages of a member that cannot be read are rebuilt (R356, R371, R388). -/
def unitReads (s : State) (luas : List Nat) (outs : List PageRead) : State :=
  luas.zipIdx.foldl (fun s u =>
    match mfind s.flash.map u.1 with
    | some (.stripe id off) =>
      (match findStripe s id with
       | none => s
       | some x =>
         match x.packed.find? (fun p => p.lua == u.1 && p.off == off) with
         | none => s
         | some p => (pagesOf x p).zipIdx.foldl (fun s pg =>
             match physPage x pg.1 with
             | none => s
             | some a =>
               if !memberIn s x pg.1.2.1 then rebuildPage s x.id pg.1 4 false none
               else
                 match outs.find? (fun o => o.unit == u.2 && o.page == pg.2) with
                 | none => pageRead s a 0 (.decoded [])
                 | some o => pageRead s a o.level o.outcome) s)
    | _ => s) s

/-! ### Page reads -/

/-- Some die still holds a read for this purpose. -/
def readsLeft (s : State) (why : ReadFor) : Bool :=
  let is (o : DieOp) : Bool := match o with | .read _ _ w => w == why | _ => false
  s.flash.dies.any (fun d => d.2.reads.any is || (d.2.run.map is).getD false || (d.2.susp.map is).getD false)

/-- Queues the reads of a unit's pages; pages of a member that cannot be read are rebuilt at once (R371, R388). -/
def readUnit (s : State) (lua : Nat) (loc : Nat × Nat) (why : ReadFor) : State :=
  match findStripe s loc.1 with
  | none => s
  | some x =>
    match x.packed.find? (fun p => p.lua == lua && p.off == loc.2) with
    | none => s
    | some p => (pagesOf x p).foldl (fun s pg =>
        match physPage x pg with
        | none => s
        | some a =>
          if memberIn s x pg.2.1 then updDie s a.chan a.die (fun d => { d with reads := d.reads ++ [.read a 0 why] })
          else rebuildPage s x.id pg 4 false none) s

end Sys2Proof.Machine
end

