-- ==== Sys2Proof/Machine/Inflate.lean ====
section
/-!
DEFINITION. Machine/Inflate.lean: raw DEFLATE (RFC 1951), a wrapping of ingest data (R344), as that document has it (PRESUMED,
notes/assumptions 4).
-/
namespace Sys2Proof.Machine

/-! ### DEFLATE -/

/-- The next `n` bits of a stream as a number, least significant first. -/
def takeBits : Nat → List Bool → Option (Nat × List Bool)
  | 0, b => some (0, b)
  | _ + 1, [] => none
  | n + 1, x :: b => (takeBits n b).map (fun r => (b2n x + 2 * r.1, r.2))

/-- A prefix code: how many codes each length 0 to 15 has, and the symbols by length and value. -/
structure Prefix where
  counts : List Nat
  symbols : List Nat

/-- The canonical code of a list of code lengths; none where it is over-subscribed. `whole`: no code is left over; a code of at
most one symbol of one bit is taken all the same. -/
def prefixCode (lens : List Nat) : Option (Prefix × Bool) :=
  let counts := (List.range 16).map (fun n => lens.count n)
  let left := ((List.range 15).map (· + 1)).foldl (fun r n => r.bind (fun (l : Nat) => if 2 * l < counts.getD n 0 then none else some (2 * l - counts.getD n 0))) (some 1)
  left.map (fun l => (⟨counts, ((List.range 15).map (fun n => (List.range lens.length).filter (fun s => lens.getD s 0 == n + 1))).flatten⟩,
    l == 0 || counts.getD 0 0 == lens.length || (counts.getD 0 0 + 1 == lens.length && counts.getD 1 0 == 1)))

/-- Reads one symbol: `code` the bits so far, `first` the first code of this length, `index` its symbol. -/
def readSymbol (h : Prefix) : Nat → Nat → Nat → Nat → Nat → List Bool → Option (Nat × List Bool)
  | 0, _, _, _, _, _ => none
  | _, _, _, _, _, [] => none
  | fuel + 1, len, code, first, index, x :: b =>
    let code := code + b2n x
    let n := h.counts.getD len 0
    if code < first + n then (h.symbols[index + (code - first)]?).map (fun s => (s, b))
    else readSymbol h fuel (len + 1) (2 * code) (2 * (first + n)) (index + n) b

def symbolOf (h : Prefix) (b : List Bool) : Option (Nat × List Bool) := readSymbol h 15 1 0 0 0 b

/-- Base and extra bits of the length codes 257 to 285 and of the distance codes 0 to 29. -/
def lengthCodes : List (Nat × Nat) :=
  [(3, 0), (4, 0), (5, 0), (6, 0), (7, 0), (8, 0), (9, 0), (10, 0), (11, 1), (13, 1), (15, 1), (17, 1), (19, 2), (23, 2), (27, 2), (31, 2),
   (35, 3), (43, 3), (51, 3), (59, 3), (67, 4), (83, 4), (99, 4), (115, 4), (131, 5), (163, 5), (195, 5), (227, 5), (258, 0)]
def distanceCodes : List (Nat × Nat) :=
  [(1, 0), (2, 0), (3, 0), (4, 0)] ++ (List.range 26).map (fun i => (1 + 2 ^ (i / 2 + 1) * (i % 2 + 2), i / 2 + 1))

/-- Copies `n` bytes from `d` back; the output stands newest byte first. -/
def copyBack (d : Nat) : Nat → List Byte → Option (List Byte)
  | 0, o => some o
  | n + 1, o => match o[d - 1]? with | some b => copyBack d n (b :: o) | none => none

/-- The data of a block with codes for literals and lengths and for distances. -/
def blockData (lit dist : Prefix) : Nat → List Bool → List Byte → Option (List Bool × List Byte)
  | 0, _, _ => none
  | fuel + 1, b, o =>
    match symbolOf lit b with
    | none => none
    | some (s, b) =>
      if s < 256 then blockData lit dist fuel b (BitVec.ofNat 8 s :: o)
      else if s = 256 then some (b, o)
      else
        match lengthCodes[s - 257]? with
        | none => none
        | some l =>
          match takeBits l.2 b with
          | none => none
          | some (e, b) =>
            match symbolOf dist b with
            | none => none
            | some (ds, b) =>
              match distanceCodes[ds]? with
              | none => none
              | some d =>
                match takeBits d.2 b with
                | none => none
                | some (x, b) => match copyBack (d.1 + x) (l.1 + e) o with | some o => blockData lit dist fuel b o | none => none

/-- Code lengths of a dynamic block, `n` in all, with repeats. -/
def codeLengths (h : Prefix) (n : Nat) : Nat → List Bool → List Nat → Option (List Nat × List Bool)
  | 0, _, _ => none
  | fuel + 1, b, l =>
    if n ≤ l.length then (if l.length = n then some (l, b) else none)
    else
      match symbolOf h b with
      | none => none
      | some (s, b) =>
        if s < 16 then codeLengths h n fuel b (l ++ [s])
        else if s = 16 then
          match l.getLast?, takeBits 2 b with
          | some p, some (r, b) => codeLengths h n fuel b (l ++ List.replicate (3 + r) p)
          | _, _ => none
        else match takeBits (if s = 17 then 3 else 7) b with
          | some (r, b) => codeLengths h n fuel b (l ++ List.replicate ((if s = 17 then 3 else 11) + r) 0)
          | none => none

/-- Order of the code-length code's lengths. -/
def clOrder : List Nat := [16, 17, 18, 0, 8, 7, 9, 6, 10, 5, 11, 4, 12, 3, 13, 2, 14, 1, 15]

/-- `n` numbers of three bits. -/
def threes : Nat → List Bool → Option (List Nat × List Bool)
  | 0, b => some ([], b)
  | n + 1, b => match takeBits 3 b with | some (v, b) => (threes n b).map (fun r => (v :: r.1, r.2)) | none => none

/-- The two codes of a dynamic block. -/
def dynamicCodes (b : List Bool) : Option (Prefix × Prefix × List Bool) :=
  match takeBits 5 b with
  | none => none
  | some (hlit, b) =>
    match takeBits 5 b with
    | none => none
    | some (hdist, b) =>
      match takeBits 4 b with
      | none => none
      | some (hclen, b) =>
        if 29 < hlit then none
        else
          match threes (hclen + 4) b with
          | none => none
          | some (cl, b) =>
            let lens := (List.range 19).map (fun s => (((clOrder.take (hclen + 4)).idxOf? s).map (fun i => cl.getD i 0)).getD 0)
            match prefixCode lens with
            | some (h, true) =>
              (match codeLengths h (258 + hlit + hdist) 320 b [] with
               | none => none
               | some (l, b) =>
                 match prefixCode (l.take (257 + hlit)), prefixCode (l.drop (257 + hlit)) with
                 | some (lit, true), some (dist, true) => if l.getD 256 0 = 0 then none else some (lit, dist, b)
                 | _, _ => none)
            | _ => none

/-- Codes of a block with fixed codes. -/
def fixedCodes : Option (Prefix × Prefix) :=
  match prefixCode (List.replicate 144 8 ++ List.replicate 112 9 ++ List.replicate 24 7 ++ List.replicate 8 8), prefixCode (List.replicate 30 5) with
  | some (l, _), some (d, _) => some (l, d)
  | _, _ => none

/-- `n` whole bytes. -/
def rawBytes : Nat → List Bool → List Byte → Option (List Bool × List Byte)
  | 0, b, o => some (b, o)
  | n + 1, b, o => match takeBits 8 b with | some (v, b) => rawBytes n b (BitVec.ofNat 8 v :: o) | none => none

/-- Blocks of a raw DEFLATE stream, from a bit position: what follows the final block is ignored. `total` bits in all. -/
def inflateBlocks (total : Nat) : Nat → List Bool → List Byte → Option (List Byte)
  | 0, _, _ => none
  | fuel + 1, b, o =>
    match takeBits 1 b with
    | none => none
    | some (final, b) =>
      match takeBits 2 b with
      | none => none
      | some (ty, b) =>
        let r : Option (List Bool × List Byte) :=
          match ty with
          | 0 =>
            let b := b.drop ((8 - (total - b.length) % 8) % 8)
            (match takeBits 16 b with
             | none => none
             | some (n, b) =>
               match takeBits 16 b with
               | none => none
               | some (m, b) => if n + m = 65535 then rawBytes n b o else none)
          | 1 => fixedCodes.bind (fun c => blockData c.1 c.2 (b.length + 1) b o)
          | 2 => (dynamicCodes b).bind (fun c => blockData c.1 c.2.1 (c.2.2.length + 1) c.2.2 o)
          | _ => none
        match r with
        | none => none
        | some (b, o) => if final = 1 then some o.reverse else inflateBlocks total fuel b o

/-- Bits of bytes, the least significant of each first. -/
def bitsOfBytes (l : List Byte) : List Bool := (l.map (fun b => (List.range 8).map (bit b.toNat))).flatten

/-- A raw DEFLATE stream decompressed; none where it is malformed. -/
def inflateRaw (d : List Byte) : Option (List Byte) :=
  let b := bitsOfBytes d
  inflateBlocks b.length (b.length + 1) b []

end Sys2Proof.Machine
end

