-- ==== Sys2Proof/Machine/Zstd.lean ====
section
/-!
DEFINITION. Machine/Zstd.lean: Zstandard frames (RFC 8878) and the wrappings of ingest data (R344), as that document has them
(PRESUMED, notes/assumptions 4).
-/
namespace Sys2Proof.Machine

/-! ### XXH64, the content checksum of Zstandard -/

def xxP : Nat → Nat
  | 1 => 0x9E3779B185EBCA87
  | 2 => 0xC2B2AE3D27D4EB4F
  | 3 => 0x165667B19E3779F9
  | 4 => 0x85EBCA77C2B2AE63
  | _ => 0x27D4EB2F165667C5

def xxRotl (v n : Nat) : Nat := (v * 2 ^ n + v / 2 ^ (64 - n)) % 2 ^ 64
def xxRound (acc v : Nat) : Nat := xxRotl ((acc + v * xxP 2) % 2 ^ 64) 31 * xxP 1 % 2 ^ 64
def xxMerge (h acc : Nat) : Nat := (Nat.xor h (xxRound 0 acc) * xxP 1 + xxP 4) % 2 ^ 64

/-- The four accumulators over whole stripes of 32 bytes, and what is left. -/
def xxStripes : Nat → List Byte → List Nat → List Byte × List Nat
  | 0, d, acc => (d, acc)
  | n + 1, d, acc => if d.length < 32 then (d, acc) else xxStripes n (d.drop 32) (acc.zipIdx.map (fun a => xxRound a.1 (le d (8 * a.2) 8)))

/-- The bytes left after the stripes. -/
def xxTail : Nat → List Byte → Nat → Nat
  | 0, _, h => h
  | n + 1, d, h =>
    if d.isEmpty then h
    else if 8 ≤ d.length then xxTail n (d.drop 8) ((xxRotl (Nat.xor h (xxRound 0 (le d 0 8))) 27 * xxP 1 + xxP 4) % 2 ^ 64)
    else if 4 ≤ d.length then xxTail n (d.drop 4) ((xxRotl (Nat.xor h (le d 0 4 * xxP 1 % 2 ^ 64)) 23 * xxP 2 + xxP 3) % 2 ^ 64)
    else xxTail n (d.drop 1) (xxRotl (Nat.xor h (le d 0 1 * xxP 5 % 2 ^ 64)) 11 * xxP 1 % 2 ^ 64)

def xxh64 (d : List Byte) : Nat :=
  let r := xxStripes (d.length / 32) d [(xxP 1 + xxP 2) % 2 ^ 64, xxP 2, 0, (2 ^ 64 - xxP 1) % 2 ^ 64]
  let a (i : Nat) : Nat := r.2.getD i 0
  let h0 := if d.length < 32 then xxP 5
    else xxMerge (xxMerge (xxMerge (xxMerge ((xxRotl (a 0) 1 + xxRotl (a 1) 7 + xxRotl (a 2) 12 + xxRotl (a 3) 18) % 2 ^ 64) (a 0)) (a 1)) (a 2)) (a 3)
  let h := xxTail (r.1.length + 1) r.1 ((h0 + d.length) % 2 ^ 64)
  let h := Nat.xor h (h / 2 ^ 33) * xxP 2 % 2 ^ 64
  let h := Nat.xor h (h / 2 ^ 29) * xxP 3 % 2 ^ 64
  Nat.xor h (h / 2 ^ 32)

/-! ### Backward bit streams and FSE tables -/

/-- The bits of a stream that is read from its end, in reading order, without the end mark; none where it has none. -/
def backBits (d : List Byte) : Option (List Bool) :=
  match (bitsOfBytes d).reverse with
  | l => if d.getLast? = none ∨ d.getLast? = some 0 then none else some ((l.dropWhile (!·)).drop 1)

/-- The next `n` bits, most significant first; bits past the end read 0. -/
def peekBits (n : Nat) (b : List Bool) : Nat := (List.range n).foldl (fun v i => 2 * v + b2n (b.getD i false)) 0

/-- The same, consumed; none past the end. -/
def backRead (n : Nat) (b : List Bool) : Option (Nat × List Bool) := if b.length < n then none else some (peekBits n b, b.drop n)

/-- An FSE table: its accuracy, and for each state the symbol, the bits to read and the base of the next state. -/
structure Fse where
  log : Nat
  rows : List (Nat × Nat × Nat)

def Fse.symbol (t : Fse) (st : Nat) : Nat := (t.rows.getD st (0, 0, 0)).1

/-- A table of one symbol. -/
def Fse.single (s : Nat) : Fse := ⟨0, [(s, 0, 0)]⟩

/-- Repeat flags after a probability of 0: how many symbols more have probability 0. -/
def zeroRun : Nat → List Bool → Nat → Option (Nat × List Bool)
  | 0, _, _ => none
  | fuel + 1, b, n =>
    match takeBits 2 b with
    | none => none
    | some (r, b) => if r = 3 then zeroRun fuel b (n + 3) else some (n + r, b)

/-- The probabilities of an FSE description, -1 for "less than 1": `left` cells of the table remain. -/
def fseProbs (most : Nat) : Nat → Nat → List Bool → List Int → Option (List Int × List Bool)
  | 0, _, _, _ => none
  | fuel + 1, left, b, l =>
    if left = 0 then (if l.length ≤ most then some (l, b) else none)
    else
      let n := Nat.log2 (left + 1) + 1
      match takeBits (n - 1) b with
      | none => none
      | some (low, _) =>
        let short := 2 ^ n - 1 - (left + 1)
        match (if low < short then takeBits (n - 1) b else takeBits n b) with
        | none => none
        | some (v, b) =>
          let v := if low < short then low else if 2 ^ (n - 1) ≤ v then v - short else v
          if left + 1 < v then none
          else if v = 1 then
            match zeroRun (b.length + 1) b 0 with
            | none => none
            | some (z, b) => fseProbs most fuel left b (l ++ List.replicate (z + 1) 0)
          else fseProbs most fuel (left - (if v = 0 then 1 else v - 1)) b (l ++ [(v : Int) - 1])

/-- The symbols of a table's cells, spread as RFC 8878 has it: those of probability -1 from the top down, the others by steps. -/
def fseSpread (log : Nat) (probs : List Int) : List Nat :=
  let size := 2 ^ log
  let rare := (List.range probs.length).filter (fun s => probs.getD s 0 == -1)
  let top := size - rare.length
  let step := size / 2 + size / 8 + 3
  let all := ((List.range probs.length).map (fun s => List.replicate (probs.getD s 0).toNat s)).flatten
  let cells := ((List.range size).map (fun i => i * step % size)).filter (fun p => decide (p < top))
  (List.range size).map (fun p => if top ≤ p then rare.getD (size - 1 - p) 0 else all.getD (cells.idxOf p) 0)

/-- The table of a list of probabilities. -/
def fseTable (log : Nat) (probs : List Int) : Fse :=
  let sym := fseSpread log probs
  ⟨log, ((List.range (2 ^ log)).map (fun i =>
    let s := sym.getD i 0
    let next := (if probs.getD s 0 = -1 then 1 else (probs.getD s 0).toNat) + (sym.take i).count s
    let n := log - Nat.log2 next
    (s, n, next * 2 ^ n - 2 ^ log)))⟩

/-- Reads an FSE description: the table and the bytes after it. -/
def readFse (mostLog most : Nat) (d : List Byte) : Option (Fse × List Byte) :=
  match takeBits 4 (bitsOfBytes d) with
  | none => none
  | some (a, b) =>
    if mostLog < a + 5 then none
    else
      match fseProbs most (2 ^ (a + 5) + most + 2) (2 ^ (a + 5)) b [] with
      | none => none
      | some (p, rest) => some (fseTable (a + 5) p, d.drop (d.length - rest.length / 8))

/-! ### Huffman codes of literals -/

/-- Weights written by two FSE states in turn; at the first update past the end the other state's symbol is the last. -/
def weightLoop (t : Fse) : Nat → Nat → Nat → List Bool → List Nat → List Nat
  | 0, _, _, _, l => l
  | fuel + 1, x, y, b, l =>
    let r := t.rows.getD x (0, 0, 0)
    if b.length < r.2.1 then l ++ [r.1, t.symbol y]
    else weightLoop t fuel y (r.2.2 + peekBits r.2.1 b) (b.drop r.2.1) (l ++ [r.1])

/-- The weights of a Huffman description, the last symbol's left out, and the bytes after it. -/
def readWeights (d : List Byte) : Option (List Nat × List Byte) :=
  match d with
  | [] => none
  | h :: d =>
    let h := h.toNat
    if 128 ≤ h then
      let n := h - 127
      if d.length < (n + 1) / 2 then none
      else some ((List.range n).map (fun i => if i % 2 = 0 then le d (i / 2) 1 / 16 else le d (i / 2) 1 % 16), d.drop ((n + 1) / 2))
    else if d.length < h then none
    else
      match readFse 6 12 (d.take h) with
      | none => none
      | some (t, rest) =>
        match backBits rest with
        | none => none
        | some b =>
          match backRead t.log b with
          | none => none
          | some (x, b) =>
            match backRead t.log b with
            | none => none
            | some (y, b) => let l := weightLoop t 256 x y b []; if 255 < l.length then none else some (l, d.drop h)

/-- A Huffman code: the longest length, and for each value of that many bits its symbol and length. -/
structure Huff where
  log : Nat
  rows : List (Nat × Nat)

/-- The code of a list of weights; the last symbol's weight is what completes the sum to a power of 2. -/
def huffOf (w : List Nat) : Option Huff :=
  let sum := (w.map (fun x => if x = 0 then 0 else 2 ^ (x - 1))).sum
  let log := Nat.log2 sum + 1
  let left := 2 ^ log - sum
  if sum = 0 ∨ 11 < log ∨ left ≠ 2 ^ Nat.log2 left then none
  else
    let w := w ++ [Nat.log2 left + 1]
    some ⟨log, ((List.range log).map (fun k => ((List.range w.length).filter (fun s => w.getD s 0 == k + 1)).map (fun s =>
      List.replicate (2 ^ k) (s, log - k)))).flatten.flatten⟩

/-- The literals of a stream; it must end with its last bit. -/
def huffLoop (h : Huff) : Nat → List Bool → List Byte → Option (List Byte)
  | 0, b, o => if b.isEmpty then some o.reverse else none
  | n + 1, b, o =>
    let r := h.rows.getD (peekBits h.log b) (0, 0)
    if b.length < r.2 ∨ r.2 = 0 then none else huffLoop h n (b.drop r.2) (BitVec.ofNat 8 r.1 :: o)

def huffStream (h : Huff) (n : Nat) (d : List Byte) : Option (List Byte) := (backBits d).bind (fun b => huffLoop h n b [])

/-- Four streams behind their table of sizes. -/
def huffFour (h : Huff) (n : Nat) (d : List Byte) : Option (List Byte) :=
  let a := le d 0 2
  let b := le d 2 2
  let c := le d 4 2
  let q := (n + 3) / 4
  if d.length < 6 + a + b + c ∨ n < 3 * q then none
  else
    let part (o k m : Nat) : Option (List Byte) := huffStream h m ((d.drop (6 + o)).take k)
    match part 0 a q, part a b q, part (a + b) c q, huffStream h (n - 3 * q) (d.drop (6 + a + b + c)) with
    | some w, some x, some y, some z => some (w ++ x ++ y ++ z)
    | _, _, _, _ => none

/-! ### Sequences -/

/-- What a compressed block hands to the next of its frame: the Huffman code, the tables of literal lengths, offsets and match
lengths, and the three repeated offsets. -/
structure ZState where
  huff : Option Huff := none
  ll : Option Fse := none
  off : Option Fse := none
  ml : Option Fse := none
  reps : Nat × Nat × Nat := (1, 4, 8)

/-- The literals section: literals, the code used, the bytes after it. -/
def readLiterals (z : ZState) (d : List Byte) : Option (List Byte × ZState × List Byte) :=
  match d.head? with
  | none => none
  | some b0 =>
    let ty := b0.toNat % 4
    let sf := b0.toNat / 4 % 4
    if ty ≤ 1 then
      let (head, n) := if sf % 2 = 0 then (1, b0.toNat / 8) else if sf = 1 then (2, le d 0 2 / 16) else (3, le d 0 3 / 16)
      let k := if ty = 0 then n else 1
      if d.length < head + k then none
      else some (if ty = 0 then (d.drop head).take n else List.replicate n ((d.drop head).headD 0), z, d.drop (head + k))
    else
      let w := [10, 10, 14, 18].getD sf 10
      let head := [3, 3, 4, 5].getD sf 3
      let n := le d 0 head / 16 % 2 ^ w
      let k := le d 0 head / 16 / 2 ^ w
      if d.length < head + k then none
      else
        let body := (d.drop head).take k
        let code : Option (Huff × List Byte) :=
          if ty = 3 then z.huff.map (fun h => (h, body)) else (readWeights body).bind (fun x => (huffOf x.1).map (fun h => (h, x.2)))
        match code with
        | none => none
        | some (h, body) => (if sf = 0 then huffStream h n body else huffFour h n body).map (fun l => (l, { z with huff := some h }, d.drop (head + k)))

/-- Base and extra bits of the literal length and match length codes. -/
def llCode (c : Nat) : Nat × Nat :=
  if c < 16 then (c, 0)
  else [(16, 1), (18, 1), (20, 1), (22, 1), (24, 2), (28, 2), (32, 3), (40, 3), (48, 4), (64, 6), (128, 7), (256, 8), (512, 9), (1024, 10),
    (2048, 11), (4096, 12), (8192, 13), (16384, 14), (32768, 15), (65536, 16)].getD (c - 16) (0, 0)
def mlCode (c : Nat) : Nat × Nat :=
  if c < 32 then (c + 3, 0)
  else [(35, 1), (37, 1), (39, 1), (41, 1), (43, 2), (47, 2), (51, 3), (59, 3), (67, 4), (83, 4), (99, 5), (131, 7), (259, 8), (515, 9),
    (1027, 10), (2051, 11), (4099, 12), (8195, 13), (16387, 14), (32771, 15), (65539, 16)].getD (c - 32) (0, 0)

/-- The default tables. -/
def llDefault : Fse := fseTable 6 ([4, 3] ++ List.replicate 11 2 ++ [1, 1, 1] ++ List.replicate 9 2 ++ [3, 2, 1, 1, 1, 1, 1] ++ List.replicate 4 (-1))
def mlDefault : Fse := fseTable 6 ([1, 4, 3] ++ List.replicate 6 2 ++ List.replicate 37 1 ++ List.replicate 7 (-1))
def offDefault : Fse := fseTable 5 (List.replicate 6 1 ++ [2, 2, 2] ++ List.replicate 15 1 ++ List.replicate 5 (-1))

/-- The table of a mode: default, one symbol, described, or the one before. -/
def seqTable (mode mostLog most : Nat) (dflt : Fse) (prior : Option Fse) (d : List Byte) : Option (Fse × List Byte) :=
  match mode with
  | 0 => some (dflt, d)
  | 1 => (match d with | b :: d => if b.toNat < most then some (.single b.toNat, d) else none | [] => none)
  | 2 => readFse mostLog most d
  | _ => prior.map (fun t => (t, d))

/-- The offset a value stands for behind `ll` literals, and the repeated offsets after it; none for offset 0. -/
def offsetOf (r : Nat × Nat × Nat) (v ll : Nat) : Option (Nat × Nat × Nat × Nat) :=
  if 3 < v then some (v - 3, v - 3, r.1, r.2.1)
  else
    match v + b2n (ll == 0) with
    | 1 => some (r.1, r)
    | 2 => some (r.2.1, r.2.1, r.1, r.2.2)
    | 3 => some (r.2.2, r.2.2, r.1, r.2.1)
    | _ => if r.1 ≤ 1 then none else some (r.1 - 1, r.1 - 1, r.1, r.2.1)

/-- The sequences of a block: `x` the states of literal lengths, offsets and match lengths, `lits` the literals left, `o` the frame's
content, newest byte first. -/
def seqLoop (ll off ml : Fse) (window : Nat) : Nat → Nat × Nat × Nat → List Bool → List Byte → Nat × Nat × Nat → List Byte → Option (Nat × Nat × Nat × List Byte)
  | 0, _, b, lits, reps, o => if b.isEmpty then some (reps.1, reps.2.1, reps.2.2, lits.reverse ++ o) else none
  | n + 1, x, b, lits, reps, o =>
    let oc := off.symbol x.2.1
    let mc := mlCode (ml.symbol x.2.2)
    let lc := llCode (ll.symbol x.1)
    match backRead oc b with
    | none => none
    | some (ov, b) =>
      match backRead mc.2 b with
      | none => none
      | some (mv, b) =>
        match backRead lc.2 b with
        | none => none
        | some (lv, b) =>
          let nl := lc.1 + lv
          match offsetOf reps (2 ^ oc + ov) nl with
          | none => none
          | some (dist, reps) =>
            let o := (lits.take nl).reverse ++ o
            if lits.length < nl ∨ window < dist then none
            else
              match copyBack dist (mc.1 + mv) o with
              | none => none
              | some o =>
                let step (t : Fse) (st : Nat) (b : List Bool) : Option (Nat × List Bool) :=
                  let r := t.rows.getD st (0, 0, 0)
                  (backRead r.2.1 b).map (fun q => (r.2.2 + q.1, q.2))
                if n = 0 then seqLoop ll off ml window n x b (lits.drop nl) reps o
                else
                  match step ll x.1 b with
                  | none => none
                  | some (xl, b) =>
                    match step ml x.2.2 b with
                    | none => none
                    | some (xm, b) =>
                      match step off x.2.1 b with
                      | none => none
                      | some (xo, b) => seqLoop ll off ml window n (xl, xo, xm) b (lits.drop nl) reps o

/-- Number of sequences and the bytes after it. -/
def seqCount (d : List Byte) : Option (Nat × List Byte) :=
  let b := le d 0 1
  let k := if b < 128 then 1 else if b < 255 then 2 else 3
  if d.length < k then none
  else some (if b < 128 then b else if b < 255 then (b - 128) * 256 + le d 1 1 else le d 1 2 + 0x7F00, d.drop k)

/-- A compressed block behind content `o`, newest byte first: the content with it, and what the next block is handed. -/
def zstdBlock (window : Nat) (z : ZState) (d o : List Byte) : Option (List Byte × ZState) :=
  match readLiterals z d with
  | none => none
  | some (lits, z, d) =>
    match seqCount d with
    | none => none
    | some (0, d) => if d.isEmpty then some (lits.reverse ++ o, z) else none
    | some (n, d) =>
      match d with
      | [] => none
      | m :: d =>
        let m := m.toNat
        if m % 4 ≠ 0 then none
        else
          match seqTable (m / 64) 9 36 llDefault z.ll d with
          | none => none
          | some (ll, d) =>
            match seqTable (m / 16 % 4) 8 32 offDefault z.off d with
            | none => none
            | some (off, d) =>
              match seqTable (m / 4 % 4) 9 53 mlDefault z.ml d with
              | none => none
              | some (ml, d) =>
                match backBits d with
                | none => none
                | some b =>
                  match backRead ll.log b with
                  | none => none
                  | some (xl, b) =>
                    match backRead off.log b with
                    | none => none
                    | some (xo, b) =>
                      match backRead ml.log b with
                      | none => none
                      | some (xm, b) =>
                        (seqLoop ll off ml window n (xl, xo, xm) b lits z.reps o).map (fun r =>
                          (r.2.2.2, { z with ll := some ll, off := some off, ml := some ml, reps := (r.1, r.2.1, r.2.2.1) }))

/-! ### Zstandard frames -/

/-- Blocks of a frame with its window: the frame's content and the bytes after it. `z`: what the compressed blocks so far hand on. -/
def zstdBlocks (window : Nat) : Nat → List Byte → ZState → List Byte → Option (List Byte × List Byte)
  | 0, _, _, _ => none
  | fuel + 1, d, z, o =>
    let most := min window 131072
    if d.length < 3 then none
    else
      let h := le d 0 3
      let n := h / 8
      let stored := if h / 2 % 4 = 1 then 1 else n
      let body := (d.drop 3).take stored
      let rest := d.drop (3 + stored)
      if body.length < stored ∨ most < n then none
      else
        let r : Option (List Byte × ZState) :=
          match h / 2 % 4 with
          | 0 => some (body.reverse ++ o, z)
          | 1 => some (List.replicate n (body.headD 0) ++ o, z)
          | 2 => (zstdBlock window z body o).bind (fun x => if most + o.length < x.1.length then none else some x)
          | _ => none
        match r with
        | none => none
        | some (x, z) => if h % 2 = 1 then some (x.reverse, rest) else zstdBlocks window fuel rest z x

/-- One data frame after its magic number: the content and the rest, or whether the stream is malformed (true) or the frame is one
the device does not take (false): a dictionary, a window above 8 MiB (R344). -/
def zstdFrame (d : List Byte) : Except Bool (List Byte × List Byte) :=
  let f := le d 0 1
  let single := bit f 5
  let dict := [0, 1, 2, 4].getD (f % 4) 0
  let fcs := if f / 64 = 0 then b2n single else 2 ^ (f / 64)
  let at' := if single then 1 else 2
  let head := at' + dict + fcs
  if d.length < head ∨ bit f 3 then .error true
  else
    let size := le d (at' + dict) fcs + (if fcs = 2 then 256 else 0)
    let w := le d 1 1
    let window := if single then size else 2 ^ (10 + w / 8) + 2 ^ (10 + w / 8) / 8 * (w % 8)
    if le d at' dict ≠ 0 ∨ 8388608 < window then .error false
    else
      match zstdBlocks window (d.length + 1) (d.drop head) {} [] with
      | none => .error true
      | some (x, rest) =>
        if fcs ≠ 0 ∧ x.length ≠ size then .error true
        else if bit f 2 then (if rest.length < 4 ∨ le rest 0 4 ≠ xxh64 x % 2 ^ 32 then .error true else .ok (x, rest.drop 4))
        else .ok (x, rest)

/-- The frames of a Zstandard stream; skippable ones are skipped (R344). -/
def zstdFrames : Nat → List Byte → List Byte → Except Bool (List Byte)
  | 0, _, _ => .error true
  | fuel + 1, d, o =>
    if d.isEmpty then .ok o
    else if d.length < 4 then .error true
    else if le d 0 4 / 16 = 0x184D2A5 then
      (if d.length < 8 ∨ d.length < 8 + le d 4 4 then .error true else zstdFrames fuel (d.drop (8 + le d 4 4)) o)
    else if le d 0 4 ≠ 0xFD2FB528 then .error true
    else
      match zstdFrame (d.drop 4) with
      | .error e => .error e
      | .ok (x, rest) => zstdFrames fuel rest (o ++ x)

/-- Content unwrapped as WRAP says (R344): the bytes, or whether the stream is malformed (0x100B) or refused (0x100A). -/
def unwrapData (wrap : Nat) (d : List Byte) : Except Bool (List Byte) :=
  match wrap with
  | 0 => .ok d
  | 1 => (match inflateRaw d with | some o => .ok o | none => .error true)
  | _ => zstdFrames (d.length + 1) d []

end Sys2Proof.Machine
end

