-- ==== Sys2Proof/Machine/MediaOps.lean ====
section
/-!
DEFINITION. Machine/MediaOps.lean: decodes (R336-R339), the resize unit on one frame (R340, R341), and what the end of a
decode does for a search or a Risal embedding (R324, R97).
-/
namespace Sys2Proof.Machine

def updMedia (s : State) (f : Media → Media) : State := { s with media := f s.media }

/-- Media islands are part of the variant (CAP_FEATURE.MEDIA, R50). -/
def hasMedia (s : State) : Bool := present s 51 || present s 55

/-- Sub-unit u of a media island is enabled by the image (R31). -/
def mediaEnabled (s : State) (isl u : Nat) : Bool :=
  (isl == 51 || isl == 55) && enabled s isl && decide (u < 13) && bit s.boot.info.decoders ((if isl = 51 then 0 else 16) + u)

def mediaState (s : State) (isl u : Nat) : Nat := getF s isl F.MEDIA_USTATE_STATE u

/-- A sub-unit takes work: ONLINE or JOINING (R347). -/
def mediaIn (s : State) (isl u : Nat) : Bool := mediaEnabled s isl u && (mediaState s isl u == 0 || mediaState s isl u == 4)

/-- A type that a media island decodes: 0x01-0x04 (R334); 0x00 and 0x05 are copied or decompressed without one (R337). -/
def coded (t : Nat) : Bool := decide (1 ≤ t) && decide (t ≤ 4)

/-- A decode runs on a sub-unit; on the resize unit when it runs on any decoder of the island. -/
def mediaBusy (s : State) (isl u : Nat) : Bool :=
  s.media.decodes.any (fun d => d.island == isl && coded d.mtype && (if u = 12 then d.unit.isSome else d.unit == some u))

/-! ### The resize unit (R340) -/

/-- One channel of a frame as rows of samples. -/
abbrev Plane := List (List Nat)

/-- Kr and Kb, in ten-thousandths, of the matrix MATRIX selects: 0 the signalled one, BT.709 if none; 1 BT.601; 2 BT.709;
3 BT.2020 (R347). -/
def matrixOf (m : Nat) (p : Config.Picture) : Nat × Nat :=
  match m with
  | 1 => (2990, 1140)
  | 2 => (2126, 722)
  | 3 => (2627, 593)
  | _ => p.matrix.getD (2126, 722)

/-- A coefficient n / d with 14 fraction bits, to the nearest (DEDUCED, notes/assumptions 42). -/
def coef14 (n d : Nat) : Int := ((2 * n * 16384 + d) / (2 * d) : Nat)

/-- Horizontal and vertical subsampling of the chroma. -/
def chromaStep : Config.Chroma → Nat × Nat
  | .c420 => (2, 2)
  | .c422 => (2, 1)
  | _ => (1, 1)

/-- Channel c (0 R, 1 G, 2 B) at a position: chroma replicated, converted in the signalled range with 14-bit coefficients, rounded
once half up and clamped (R340). -/
def rgbAt (m : Nat) (p : Config.Picture) (c x y : Nat) : Nat :=
  let k := matrixOf m p
  let kg := 10000 - k.1 - k.2
  let unit := 2 ^ (p.depth - 8)
  let yRange := if p.full then 2 ^ p.depth - 1 else 219 * unit
  let cRange := if p.full then 2 ^ p.depth - 1 else 224 * unit
  let mid := 2 ^ (p.depth - 1)
  let st := chromaStep p.chroma
  let at' := y / st.2 * ceilDiv p.w st.1 + x / st.1
  let chromaAt (l : List Nat) : Int := if p.chroma = .mono then 0 else ((l.getD at' mid : Nat) : Int) - (mid : Nat)
  let u := chromaAt p.cb
  let v := chromaAt p.cr
  let luma := coef14 255 yRange * (((p.y.getD (y * p.w + x) 0 : Nat) : Int) - ((if p.full then 0 else 16 * unit : Nat) : Int))
  let sum := match c with
    | 0 => luma + coef14 (510 * (10000 - k.1)) (10000 * cRange) * v
    | 1 => luma - coef14 (510 * k.2 * (10000 - k.2)) (10000 * kg * cRange) * u - coef14 (510 * k.1 * (10000 - k.1)) (10000 * kg * cRange) * v
    | _ => luma + coef14 (510 * (10000 - k.2)) (10000 * cRange) * u
  (max 0 (min 255 ((sum + 8192) / 16384))).toNat

/-- Channel c of a picture in 8-bit RGB (R340). -/
def planeOf (m : Nat) (p : Config.Picture) (c : Nat) : Plane :=
  (List.range p.h).map (fun y => (List.range p.w).map (fun x => rgbAt m p c x y))

/-- The crop rectangle within the frame: position and size; a size of 0 reaches the frame's edge. -/
def cropOf (cap : List Nat) (w h : Nat) : Nat × Nat × Nat × Nat :=
  let x := cap.getD 0 0
  let y := cap.getD 1 0
  let cw := cap.getD 2 0
  let ch := cap.getD 3 0
  (x, y, min (if cw = 0 then w - x else cw) (w - x), min (if ch = 0 then h - y else ch) (h - y))

/-- j of box reduction: the largest with size ≥ out * 2^j; 0 for a smaller crop. -/
def boxJ (size out : Nat) : Nat := Nat.log2 (size / max out 1)

def sumNat (l : List Nat) : Nat := l.foldl (· + ·) 0

/-- Averages blocks of 2^jx by 2^jy samples, each rounded half up once (DEDUCED from the bound of R341,
notes/assumptions 42). -/
def boxReduce (jx jy : Nat) (w h : Nat) (p : Plane) : Plane :=
  let n := 2 ^ (jx + jy)
  (List.range (h / 2 ^ jy)).map (fun y =>
    let rows := (p.drop (y * 2 ^ jy)).take (2 ^ jy)
    (List.range (w / 2 ^ jx)).map (fun x =>
      (2 * sumNat (rows.map (fun r => sumNat ((r.drop (x * 2 ^ jx)).take (2 ^ jx)))) + n) / (2 * n)))

/-- Rounds i / 2^k to the nearest integer, ties to even. -/
def rneShift (i : Int) (k : Nat) : Int :=
  let q := i / (2 ^ k : Nat)
  let r := i % (2 ^ k : Nat)
  if 2 * r < (2 ^ k : Nat) then q else if (2 ^ k : Nat) < 2 * r then q + 1 else if q % 2 = 0 then q else q + 1

/-- The cubic convolution kernel with a = -0.5 at D / 64, times 1,024, rounded. -/
def cubicTap (d : Int) : Int :=
  let a := if d < 0 then -d else d
  if a ≤ 64 then rneShift (3 * a * a * a - 320 * a * a + 524288) 9
  else if a < 128 then rneShift (-(a * a * a) + 320 * a * a - 32768 * a + 1048576) 9
  else 0

/-- Adds the rounding residue of 1,024 to the largest tap. -/
def settle (l : List Int) : List Int :=
  let r := 1024 - l.foldl (· + ·) 0
  let m := l.foldl max (l.headD 0)
  match l.idxOf? m with
  | some i => updAt l i (· + r)
  | none => l

/-- Source index and taps (offset from it, weight) of output sample x: reduced size w, output size out. -/
def tapsOf (cubic : Bool) (w out x : Nat) : List (Int × Int) :=
  let p : Int := (((64 * (2 * x + 1) * w + out) / (2 * out) : Nat) : Int) - 32
  let i := p / 64
  let f := p % 64
  if cubic then
    ([-1, 0, 1, 2].zip (settle [cubicTap (f + 64), cubicTap f, cubicTap (64 - f), cubicTap (128 - f)])).map (fun t => (i + t.1, t.2))
  else [(i, 1024 - 16 * f), (i + 1, 16 * f)]

/-- A sample with the edge replicated. -/
def clampAt (l : List Int) (i : Int) : Int := l.getD (min i.toNat (l.length - 1)) 0

/-- One separable pass over a row. -/
def passRow (cubic : Bool) (out : Nat) (row : List Int) : List Int :=
  (List.range out).map (fun x => ((tapsOf cubic row.length out x).map (fun t => t.2 * clampAt row t.1)).foldl (· + ·) 0)

def transposeI (n : Nat) (p : List (List Int)) : List (List Int) := (List.range n).map (fun x => p.map (fun r => r.getD x 0))

/-- Resampling of one channel: horizontal first, the two passes summed exactly, rounded once half up and clamped. -/
def resample (cubic : Bool) (ow oh : Nat) (p : Plane) : Plane :=
  let h := p.map (fun r => passRow cubic ow (r.map Int.ofNat))
  let v := (transposeI ow h).map (passRow cubic oh)
  (transposeI oh v).map (fun r => r.map (fun (x : Int) => (max 0 (min 255 ((x + 524288) / 1048576))).toNat))

/-- The output frame of a captured profile (crop x, y, w, h; out w, h; FILTER; OFMT; MATRIX), or none where the crop is
empty (R340, R341). -/
def resizeFrame (cap : List Nat) (p : Config.Picture) : Option (List Byte) :=
  let (x, y, cw, ch) := cropOf cap p.w p.h
  if cw = 0 ∨ ch = 0 then none
  else
    let ow := cap.getD 4 0
    let oh := cap.getD 5 0
    let one (c : Nat) : List Nat :=
      let p := (((planeOf (cap.getD 8 0) p c).drop y).take ch).map (fun r => (r.drop x).take cw)
      (resample (cap.getD 6 0 == 1) ow oh (boxReduce (boxJ cw ow) (boxJ ch oh) cw ch p)).flatten
    let r := one 0
    let g := one 1
    let b := one 2
    let byte (n : Nat) : Byte := BitVec.ofNat 8 n
    some (match cap.getD 7 0 with
      | 0 => ((List.range (ow * oh)).map (fun i => [byte (r.getD i 0), byte (g.getD i 0), byte (b.getD i 0)])).flatten
      | 2 => (List.range (ow * oh)).map (fun i => byte ((2126 * r.getD i 0 + 7152 * g.getD i 0 + 722 * b.getD i 0 + 5000) / 10000))
      | _ => (r ++ g ++ b).map byte)

/-- The active resize profile p of an island (R347). -/
def profileNow (s : State) (isl p : Nat) : List Nat :=
  [F.MR_CROP_POS_X, F.MR_CROP_POS_Y, F.MR_CROP_SIZE_W, F.MR_CROP_SIZE_H, F.MR_OUT_OUT_W, F.MR_OUT_OUT_H, F.MR_MODE_FILTER, F.MR_MODE_OFMT,
   F.MR_MODE_MATRIX].map (fun f => getA s isl f p)

/-! ### Decoding (R334, R339, R344) -/

/-- The limits of R334 on what a header says. -/
def supported (t : Nat) : Config.MediaHeader → Bool
  | .jpeg p arith b n c w h => t == 1 && (p == .baseline || p == .progressive) && !arith && b == 8 && (n == 1 || (n == 3 && [.c420, .c422, .c444].contains c))
      && decide (w ≤ 16384) && decide (h ≤ 16384)
  | .hevc p level field => t == 2 && p != .other && decide (level ≤ 62) && !field
  | .av1 main level b c large => t == 3 && main && decide (level ≤ 60) && (b == 8 || b == 10) && (c == .c420 || c == .mono) && !large
  | .h264 high level field mbaff => t == 4 && high && decide (level ≤ 52) && !field && !mbaff

/-- The first frame a decode that starts for frame `first` cannot give, and whether the stream breaks its syntax there (0x100B) or
a header lies outside the limits (0x100A) (R334). -/
def streamStop (t : Nat) (stream : List Byte) (first : Nat) : Option (Nat × Bool) :=
  let bad := ((Config.mediaHeaders t stream).filter (fun h => !supported t h.2)).map (·.1)
  let out := bad.foldl (fun m i => some (match m with | none => i | some k => min k i)) (none : Option Nat)
  match out, Config.mediaSyntax t stream first with
  | some i, some j => if i ≤ j then some (i, false) else some (j, true)
  | some i, none => some (i, false)
  | none, some j => some (j, true)
  | none, none => none

/-- What a decode comes to: status, frames or none, the bytes, DETAIL. -/
structure DecodeEnd where
  status : Nat
  frames : Nat
  data : List Byte
  detail : Nat

/-- One output frame k: the frame, or how the decode ends there; `up`: an uncorrectable error of the decoder's memory at
that output frame (R420). -/
def frameStep (t : Nat) (stream : List Byte) (cap : List Nat) (first step frames room : Nat) (up : Option Nat) (k used : Nat) : Except (Nat × Nat) (List Byte) :=
  let d := first + k * step
  let one : Except (Nat × Nat) (List Byte) :=
    match Config.mediaPicture t stream d with
    | none => .error (0, 2)
    | some f =>
      match resizeFrame cap f with
      | none => .error (0x1003, d)
      | some o => if room < used + o.length then .error (0, 1) else .ok o
  if frames ≤ k then .error (0, 0)
  else if up = some k then .error (0x4001, 0)
  else
    match streamStop t stream first with
    | some (i, bad) => if i ≤ d then .error (if bad then 0x100B else 0x100A, i) else one
    | none => one

/-- Frames are written one after another until one ends the decode (R339). -/
def frameLoop (f : Nat → Nat → Except (Nat × Nat) (List Byte)) : Nat → Nat → List Byte → DecodeEnd
  | 0, k, acc => ⟨0, k, acc, 0⟩
  | n + 1, k, acc =>
    match f k acc.length with
    | .error e => ⟨e.1, k, acc, e.2⟩
    | .ok o => frameLoop f n (k + 1) (acc ++ o)

/-- A whole decode of captured content. -/
def runDecode (d : Decode) (up : Option Nat) : DecodeEnd :=
  match unwrapData d.wrap d.content with
  | .error bad => ⟨if bad then 0x100B else 0x100A, 0, [], 0⟩
  | .ok stream =>
    if coded d.mtype then frameLoop (frameStep d.mtype stream d.captured d.first d.step d.frames d.destBytes up) (d.frames + 1) 0 []
    else if up.isSome then ⟨0x4001, 0, [], 0⟩
    else ⟨0, 0, stream.take d.destBytes, b2n (decide (d.destBytes < stream.length))⟩

/-- Bytes of [a, a+n) before the first that lies in an extent lost under R139. -/
def cleanPart (s : State) (a n : Nat) : Nat :=
  match (granuleCuts a n).find? (fun g => extPoisoned s g.1 g.2) with
  | some g => g.1 - a
  | none => n

/-- A decode as its destination takes it: the frame that meets a lost extent ends it with 0x4001 (R139, R339). -/
def decodeRun (s : State) (d : Decode) (up : Option Nat) : DecodeEnd :=
  let e := runDecode d up
  let n := cleanPart s d.dest e.data.length
  if n = e.data.length then e
  else
    let e := runDecode { d with destBytes := n } up
    { e with status := 0x4001, detail := 0 }

/-! ### Ordering a decode -/

/-- Conditions of the DECODE fields that stand at byte `b` of a command, for content of media type t (R336, R337). -/
def decodeConds (s : State) (c : Cmd) (b t : Nat) (search : Bool) : List Nat :=
  let fr := c.b (b + 20) 2
  let fl := c.b (b + 25) 1
  let kib := c.b (b + 28) 4
  let isl := bits fl 2 2
  [cond (c.b (b + 8) 8 % 64 != 0 || ((t == 0 || t == 1 || t == 5) && c.b (b + 16) 4 != 0) || (coded t && fr == 0) || (t == 1 && fr != 1)
      || c.b (b + 22) 2 == 0 || decide (3 < c.b (b + 24) 1) || decide (15 < fl) || fl % 4 == 3 || isl == 3 || kib == 0 || decide (16777216 < kib)) 0x1002,
   cond (decide (5 < t) || (!search && !coded t && fl % 4 == 0) || (!coded t && fr != 0)) 0x1003,
   cond ((coded t && !(hasMedia s && (enabled s 51 || enabled s 55))) || (isl == 1 && !enabled s 51) || (isl == 2 && !enabled s 55)) 0x1004,
   cond (!stackRange s c.dom (c.b (b + 8) 8) (1024 * kib)) 0x4004]

/-- The media island a decode takes: the one named; else that of the Delta with the first block, or the other one where that
is not enabled (R338, notes/assumptions 42). -/
def mediaIsland (s : State) (isl : Nat) (first : Option (Nat × Nat)) : Nat :=
  if isl = 1 then 51 else if isl = 2 then 55
  else
    let want := match first with | some (sp, blk) => if homeGroup s (luaOf sp (blk / 8)) < 4 then 51 else 55 | none => 51
    if enabled s want then want else if want = 51 then 55 else 51

/-- The decode a command's fields describe. -/
def decodeOf (s : State) (c : Cmd) (b t obj : Nat) : Decode :=
  let o := if obj = 0 then none else findObj s c.nsid obj
  let fl := c.b (b + 25) 1
  { no := 0, query := 0, nsid := c.nsid, mtype := t, obj := obj, content := [], dest := c.b (b + 8) 8, first := c.b (b + 16) 4, frames := c.b (b + 20) 2
    step := c.b (b + 22) 2, profile := c.b (b + 24) 1, captured := [], wrap := fl % 4, destBytes := 1024 * c.b (b + 28) 4
    island := if coded t then mediaIsland s (bits fl 2 2) (o.bind (fun o => o.block 0)) else 0, unit := none, risal := false, ctx := 0, entry := 0, slot := 0 }

/-- Waits in arrival order (R338). -/
def addDecode (s : State) (d : Decode) : State := updMedia s fun m => { m with decodes := m.decodes ++ [d] }

/-! ### The end of a decode -/

/-- A Risal query whose answer is empty: zero results, status 0x0001, DETAIL 0 (R94). -/
def emptyQuery (s : State) (q : Query) : State := finishQuery s { q with filtered := 0 } [] false 0 (some (1, 0))

/-- What waits for the decode goes on (R324, R339, R95, R97). Content of type 0x00 or 0x05 that does not fit ends 0x1003 under
Risal too, and an embedding whose context has four launches out 0x2002, as they end a SEARCH_CONTENT (R97; DEDUCED,
notes/assumptions 38). -/
def decodeDone (s : State) (d : Decode) (e : DecodeEnd) : State :=
  if d.query ≠ 0 then
    match findQuery s d.query with
    | none => s
    | some q =>
      if e.status ≠ 0 then (if q.risal then emptyQuery s q else failQuery s q e.status e.detail)
      else if !coded d.mtype && e.detail == 1 then failQuery s q 0x1003 0
      else startEmbed s q
  else if d.risal then
    match findCmd s d.no with
    | none => s
    | some c =>
      if e.status = 0x100A ∨ e.status = 0x100B then complete s d.no 0
      else if e.status ≠ 0 then embedFails s c e.status e.detail
      else if !coded d.mtype && e.detail == 1 then embedFails s c 0x1003 0
      else
        match findCtx s d.ctx with
        | none => embedFails s c 0x1003 0
        | some x => if 4 ≤ x.launches.length then embedFails s c 0x2002 0 else launchAll s d.ctx 3 d.no d.entry d.slot
  else complete s d.no e.status e.frames e.data.length e.detail

/-- A sub-unit has finished a command; `ok`: without fault (R347). -/
def mediaJoin (s : State) (isl u : Nat) (ok : Bool) : State :=
  let k := isl * 16 + u
  if ok && mediaState s isl u == 4 then updMedia s fun m => { m with joinCount := mset 0 m.joinCount k (mget 0 m.joinCount k + 1) } else s

/-- Luma samples of the frames a decode decoded: those up to the last it wrote, and where it did not end with its count those before
the one it next wanted (R339, R478). -/
def lumaSamples (d : Decode) (n : Nat) : Nat :=
  let upto := if n = d.frames ∧ 0 < n then d.first + (n - 1) * d.step + 1 else d.first + n * d.step
  match unwrapData d.wrap d.content with
  | .error _ => 0
  | .ok stream => ((List.range upto).map (fun i => match Config.mediaPicture d.mtype stream i with | some p => p.w * p.h | none => 0)).sum

/-- The frames of a decode pass the media island's port toward the die and the stack's port of that Delta (R261); content that no
media island decodes comes as a tier's data does (R337). -/
def framesMoved (s : State) (isl a n : Nat) : State :=
  if isl = 0 then stackWrite s 6 a n
  else
  let s := (stackShares s (granuleCuts a n)).foldl (fun s x => meter s isl (x.1 / 4) x.2) s
  stackWrite s (if isl = 51 then 4 else 5) a n

/-- Ends a running decode: its frames are in stack memory, the island's counters stand (R339, R347). -/
def endDecode (s : State) (i : Nat) (d : Decode) (e : DecodeEnd) : State :=
  let s := updMedia s fun m => { m with decodes := m.decodes.eraseIdx i }
  let s := if e.data.isEmpty then s else wrBytes (framesMoved s d.island d.dest e.data.length) d.dest e.data
  let s :=
    match d.unit with
    | none => s
    | some u =>
      if 13 ≤ u then s
      else
        let s := addF s d.island F.MEDIA_FRAMES_COUNT e.frames
        let s := countEv (countEv s d.island 0x58 u (lumaSamples d e.frames)) d.island 0x59 0 e.frames
        let s := if e.status = 0x100A then addF s d.island F.MEDIA_ERRORS_UNSUP 1
          else if e.status = 0x100B then addF s d.island F.MEDIA_ERRORS_BITERR 1 else s
        let s := if e.status = 0 then s
          else setF (setF (setF s d.island F.MEDIA_LAST_ERR_CODE e.status) d.island F.MEDIA_LAST_ERR_UNIT u) d.island F.MEDIA_LAST_ERR_VALID 1
        mediaJoin (mediaJoin s d.island u (e.status != 0x4001)) d.island 12 (e.status != 0x4001)
  decodeDone s d e

end Sys2Proof.Machine
end

