-- ==== Sys2Proof/Machine/StoreCmdOps.lean ====
section
/-!
DEFINITION. Machine/StoreCmdOps.lean: what the storage commands share (R78, R83-R85, R112, R133, R383, R386, R389, R402, R403)
and the Risal embedding of a write (R95-R97).
-/
namespace Sys2Proof.Machine

/-! ### Invalidation and quarantine (R112, R133) -/

/-- A block number of an object's page lies in [a, a+n) of its namespace. -/
def pageHits (s : State) (p : Page) (a n : Nat) : Bool :=
  match findObj s p.nsid p.obj with
  | none => false
  | some o =>
    match o.storage with
    | .device _ _ => false
    | .host _ => (touched (p.idx * pageBytes o) (min (pageBytes o) (o.size - p.idx * pageBytes o))).any (fun k =>
        match o.block k with | some (_, b) => decide (a ≤ b) && decide (b < a + n) | none => false)

/-- Tier-1 pages covering changed blocks lose their data: an unpinned one its frame too; one being fetched is fetched
again (R112). -/
def invalidate (s : State) (nsid a n : Nat) : State :=
  (s.mem.pages.filter (fun p => p.nsid == nsid && pageHits s p a n)).foldl (fun s p =>
    if (p.resident || p.asleep) && p.pins == 0 then dropPage s p
    else if p.asleep then s
    else if !p.resident then updPage s p.nsid p.obj p.idx (fun p => { p with again := true })
    else updPage s p.nsid p.obj p.idx (fun p => { p with resident := false })) s

/-- Failed blocks of quarantined objects that a WRITE or TRIM has covered; a quarantine with none left ends (R133). -/
def coverFailed (s : State) (nsid a n : Nat) : State :=
  (s.search.objs.filter (fun o => o.nsid == nsid && o.quarantined)).foldl (fun s o =>
    let l := o.failed.filter (fun b => !(decide (blockKey nsid a ≤ b) && decide (b < blockKey nsid a + n)))
    let s := updObj s o.nsid o.id (fun o => { o with failed := l })
    if l.isEmpty then endQuarantine s o else s) s

/-! ### Risal embeddings (R95-R97) -/

def risalEntry (s : State) : Nat := getF s 56 F.RISAL_ENTRY_LO_ADDR * 8 + getF s 56 F.RISAL_ENTRY_HI_ADDR * 2 ^ 32
def risalSlot (s : State) : Nat := getF s 56 F.RISAL_SLOT_LO_ADDR * 64 + getF s 56 F.RISAL_SLOT_HI_ADDR * 2 ^ 32
def risalDest (s : State) : Nat := getF s 56 F.RISAL_DEST_LO_ADDR * 64 + getF s 56 F.RISAL_DEST_HI_ADDR * 2 ^ 32

/-- The decode of a Risal embedding as the registers say now (R96, R97). -/
def risalDecode (s : State) (c : Cmd) (t obj : Nat) (content : List Byte) : Decode :=
  let o := if obj = 0 then none else findObj s c.nsid obj
  { no := c.no, query := 0, nsid := c.nsid, mtype := t, obj := obj, content := content, dest := risalDest s, first := 0, frames := b2n (coded t), step := 1
    profile := getF s 56 F.RISAL_DCFG_PROFILE, captured := [], wrap := 0, destBytes := 1024 * getF s 56 F.RISAL_DCFG_DEST_KIB
    island := if coded t then mediaIsland s 0 (o.bind (fun o => o.block 0)) else 0, unit := none, risal := true, ctx := c.b 8 4, entry := risalEntry s, slot := risalSlot s }

/-- The command's CONTEXT is a compute or serving context of domain 0 (R97). -/
def risalCtx (s : State) (c : Cmd) : Bool :=
  match findCtx s (c.b 8 4) with
  | some x => x.nsid == 1 && x.kind != 1 && x.destroy == 0
  | none => false

/-- An embedding of media type `t` can be made at all: else nothing is embedded, or the answer is empty (R94, R95). -/
def risalCan (s : State) (c : Cmd) (t : Nat) : Bool :=
  risalCtx s c && risalEntry s != 0 && decide (t ≤ 5) && (!coded t || (hasMedia s && (enabled s 51 || enabled s 55)))

/-- What the conditions of SEARCH_CONTENT give for the values of R97: no room (R336), or an address that is not the domain's
(R101, R212). DEDUCED, notes/assumptions 38. -/
def risalStatus (s : State) : Nat :=
  let kib := getF s 56 F.RISAL_DCFG_DEST_KIB
  firstOf [cond (kib == 0) 0x1002,
    cond (!(entryOk s 0 (risalEntry s) && stackRange s 0 (risalSlot s) 2048 && stackRange s 0 (risalDest s) (1024 * max 1 kib))) 0x4004]

/-- Embeds a registered object for an R_WRITE or R_EMBED (R97). -/
def risalEmbed (s : State) (c : Cmd) (obj : Nat) : State :=
  match findObj s c.nsid obj with
  | none => complete s c.no 0
  | some o =>
    if risalCan s c o.mtype = false then complete s c.no 0
    else if o.quarantined then embedFails s c 0x3001 0
    else if risalStatus s ≠ 0 then embedFails s c (risalStatus s) 0
    else addDecode s (risalDecode s c o.mtype obj [])

/-- Registers the object of an R_WRITE and embeds it; with the object table full no ID is registered, a registered one
neither (R95). -/
def risalWritten (s : State) (c : Cmd) : State :=
  let id := risalObj c
  if bit (c.b 44 4) 0 = false then complete s c.no 0
  else if 2 ^ 64 - 2 ≤ id ∨ 2 ^ 32 ≤ s.search.objs.length then complete s c.no 0
  else
    let o : Obj := { deviceObj c.nsid id (getF s 56 F.RISAL_CTYPE_CTYPE) (4096 * c.b 40 4) 0 0 with
      storage := .host [(c.b 32 8, c.b 40 4)], attrs := c.b 56 4 :: List.replicate 15 0, risal := true }
    let s := match findObj s c.nsid id with
      | some p => updSearch (endQuarantine s p) fun x => { x with objs := x.objs.map (fun y => if y.nsid = c.nsid ∧ y.id = id then o else y) }
      | none => updSearch s fun x => { x with objs := x.objs ++ [o] }
    risalEmbed s c id

/-! ### WRITE (R78, R83, R383) -/

def isWrite (o : Nat) : Bool := o == 0x21 || o == 0xC2

/-- FUA of a WRITE, or of every WRITE while the hold-up bank is degraded (R78, R95, R449). -/
def Cmd.fua (s : State) (c : Cmd) : Bool :=
  bit (c.b 44 4) (if c.opcode = 0xC2 then 1 else 0) || getF s 59 F.WEIR_HOLDUP_DEGRADED == 1

def updSlot (s : State) (k : Nat) (f : Slot → Slot) : State :=
  updFlash s fun x => { x with slots := x.slots.map (fun p => if p.1 = k then (p.1, f p.2) else p) }

/-- Notes a command in the slot that holds blocks of its: those blocks are no other non-FUA command's any more. -/
def addWriter (l : List Writer) (w : Writer) : List Writer :=
  let l := (l.map (fun x => if x.fua ∨ x.no = w.no then x else { x with mask := x.mask - Nat.land x.mask w.mask })).filter
    (fun x => x.fua || x.no == w.no || x.mask != 0)
  if l.any (fun x => x.no == w.no) then l.map (fun x => if x.no = w.no then { x with mask := Nat.lor x.mask w.mask } else x)
  else l ++ [w]

/-- Some slot still has data that a command waits to see on media. -/
def durableLeft (s : State) (no : Nat) : Bool := s.flash.slots.any (fun p => p.2.writers.any (fun w => w.no == no && w.fua))

/-- A WRITE is over: the pages of the range are invalid, and an R_WRITE goes on to its embedding (R95). -/
def writeDone (s : State) (c : Cmd) : State :=
  if c.opcode = 0xC2 then risalWritten (updCmd s c.no (fun c => { c with due := 1 })) c else complete s c.no 0

/-- Commands whose data is now on media as FUA defines complete (R78). -/
def finishDurable (s : State) : State :=
  let ready (c : Cmd) : Bool := c.phase == .started && c.due == 0 && !durableLeft s c.no &&
    ((isWrite c.opcode && c.done == c.b 40 4) || c.opcode == 0x22 || c.opcode == 0xC3)
  (s.dqp.cmds.filter ready).foldl (fun s c => if isWrite c.opcode then writeDone s c else complete s c.no 0) s

/-- Copies the blocks of a WRITE from block `i` on into the write buffer while slots are free; the blocks copied. -/
def writeBlocks (c : Cmd) (fua : Bool) : Nat → Nat → State → State × Nat
  | 0, i, s => (s, i)
  | n + 1, i, s =>
    let blk := c.b 32 8 + i
    match bufferBlock s c.nsid blk (slice c.data (4096 * i) 4096) with
    | none => (s, i)
    | some s =>
      let s := match openSlot s (luaOf c.nsid (blk / 8)) with
        | some (k, _) => updSlot s k (fun x => { x with writers := addWriter x.writers ⟨c.sqid, c.tag, c.nsid, 2 ^ (blk % 8), c.no, fua⟩ })
        | none => s
      writeBlocks c fua n (i + 1) s

/-- Blocks of [a, a+n) of a namespace not mapped yet (R120). -/
def unmappedBlocks (s : State) (nsid a n : Nat) : Nat :=
  n - ((s.flash.blocks.filter (fun p => decide (blockKey nsid a ≤ p.1) && decide (p.1 < blockKey nsid a + n))).length)

/-- Table pages that mapping the units of [a, a+n) newly needs (R378). -/
def newTables (s : State) (nsid a n : Nat) : Nat :=
  ((List.range ((a + n - 1) / 8 / 6552 + 1 - a / 8 / 6552)).filter (fun i => (mfind s.flash.tables (nsid * 2 ^ 56 + (a / 8 / 6552 + i))).isNone)).length

/-- DETAIL with which the headgate or the mapping reserve refuses the range, none when it grants it (R120, R378). -/
def flashRefusal (s : State) (nsid a n : Nat) : Option Nat :=
  if !flashWithin s (domOf nsid) (unmappedBlocks s nsid a n) then some 0
  else if 2228224 < s.flash.tables.length + newTables s nsid a n then some 2 else none

/-- Continues a WRITE that has started (R383). One refused part-way has changed the blocks it has copied: their pages are
invalid (R112), and those that were failed stay failed (R133; DESIGN CHOICE, notes/assumptions 18). -/
def pumpWrite (s : State) (no : Nat) : State :=
  match findCmd s no with
  | none => s
  | some c =>
    let nlb := c.b 40 4
    match flashRefusal s c.nsid (c.b 32 8 + c.done) (nlb - c.done) with
    | some d => complete (invalidate (deny s (domOf c.nsid)) c.nsid (c.b 32 8) c.done) no 0x2001 0 0 d
    | none =>
      let r := writeBlocks c (c.fua s) (nlb - c.done) c.done s
      let s := updCmd r.1 no (fun c => { c with done := r.2 })
      if r.2 < nlb then s
      else finishDurable (health (coverFailed (invalidate s c.nsid (c.b 32 8) nlb) c.nsid (c.b 32 8) nlb) 4 (4 * nlb))

/-! ### What waits for a slot, and the journal's pages (R14, R383, R388, R405) -/

/-- A waiting block takes a slot, unless one of its unit waits before it or none is free. -/
def pumpWait (x : State × List Wait) (w : Wait) : State × List Wait :=
  if x.2.any (fun y => y.space == w.space && y.block / 8 == w.block / 8) then (x.1, x.2 ++ [w])
  else match bufferBlock x.1 w.space w.block w.data with
    | some s => (s, x.2)
    | none => (x.1, x.2 ++ [w])

/-- Units to be written again and blocks that wait take the slots that are free; commands none of whose blocks waits any more
complete. -/
def pumpWaits (s : State) : State :=
  let s := s.flash.rewrites.foldl rewriteUnit (updFlash s fun f => { f with rewrites := [] })
  let r := s.flash.waits.foldl pumpWait (s, [])
  let s := updFlash r.1 fun f => { f with waits := r.2 }
  let done (l : Late) : Bool := !r.2.any (fun w => decide (w.seq ≤ l.upTo))
  let ds := s.flash.late.filter done
  ds.foldl (fun s l => complete s l.no l.status l.r0 l.r1) (updFlash s fun f => { f with late := f.late.filter (fun l => !done l) })

/-- The translation layer goes on after media or slots have become free. -/
def pumpMedia (s : State) : State := pumpWaits ((List.range 4).foldl (fun s k => pumpJournal s k false) s)

/-! ### READ and VERIFY (R78, R83, R390) -/

/-- Mapped units of [a, a+n) that lie in stripes. -/
def stripeUnits (s : State) (nsid a n : Nat) : List (Nat × Nat × Nat) :=
  (s.flash.map.filter (fun p => decide (luaOf nsid (a / 8) ≤ p.1) && decide (p.1 ≤ luaOf nsid ((a + n - 1) / 8)))).filterMap (fun p =>
    match p.2 with | .stripe id off => some (p.1, id, off) | _ => none)

/-- A block of the range lies in the failed range of a quarantined object (R133). -/
def inFailed (s : State) (nsid blk : Nat) : Bool := s.search.objs.any (fun o => o.nsid == nsid && o.quarantined && o.failed.contains (blockKey nsid blk))

/-- The first block of [a, a+n) that cannot be read. -/
def firstBad (s : State) (nsid a n : Nat) : Option Nat :=
  ((List.range n).find? (fun i => (mfind s.flash.lostBlocks (blockKey nsid (a + i))).isSome || inFailed s nsid (a + i))).map (a + ·)

/-- Completes a READ or VERIFY whose page reads are done. -/
def finishReads (s : State) (no : Nat) : State :=
  match findCmd s no with
  | none => s
  | some c =>
    if readsLeft s (.cmd no) then s
    else
      let a := c.b 32 8
      let n := c.b 40 4
      if c.opcode = 0x25 then
        (match firstBad s c.nsid a n with | some b => complete s no 0x3001 b | none => complete s no 0)
      else if (firstBad s c.nsid a n).isSome then complete s no 0x3001
      else complete (toHost (flashMoved s (fun _ => 4) ((List.range n).map (fun i => (c.nsid, a + i, 4096)))) c ((List.range n).map (fun i => (rdBlock s c.nsid (a + i)).getD zeroBlock)).flatten) no 0

/-- Starts the page reads of a range. -/
def startReads (s : State) (c : Cmd) : State :=
  finishReads ((stripeUnits s c.nsid (c.b 32 8) (c.b 40 4)).foldl (fun s u => readUnit s u.1 (u.2.1, u.2.2) (.cmd c.no)) s) c.no

/-- Range conditions of a command with SLBA and NLB up to `most` (R78, R389, R390, R402). -/
def rangeConds (s : State) (c : Cmd) (most : Nat) : List Nat :=
  [cond (c.b 40 4 == 0 || decide (most < c.b 40 4) || decide (nsBlocks s c.nsid < c.b 32 8 + c.b 40 4)) 0x1002]

/-! ### TRIM (R389) -/

/-- Units of [a, a+n) covered in part, with the mask of covered blocks. -/
def partUnits (a n : Nat) : List (Nat × Nat) :=
  let u0 := a / 8
  let u1 := (a + n - 1) / 8
  let mask (u : Nat) : Nat := maskOf ((List.range 8).filter (fun i => decide (a ≤ 8 * u + i) && decide (8 * u + i < a + n)))
  (if u0 = u1 then [u0] else [u0, u1]).filterMap (fun u => if n = 0 ∨ mask u = 255 then none else some (u, mask u))

/-- The covered blocks of a mapped unit are zeros, rewritten through the buffer; none while no slot is free (R389). -/
def zeroPart (s : State) (nsid : Nat) (u : Nat × Nat) : Option State :=
  let lua := luaOf nsid u.1
  if (mfind s.flash.map lua).isNone then some s
  else
    (bitList u.2 8).foldl (fun r i => r.bind (fun s =>
      (bufferBlock s nsid (8 * u.1 + i) zeroBlock).map (fun s => updFlash s fun f => { f with blocks := mdel f.blocks (8 * lua + i) }))) (some s)

/-- Units of [a, a+n) wholly covered and mapped. -/
def wholeUnits (s : State) (nsid a n : Nat) : List Nat :=
  let lo := ceilDiv a 8
  let hi := (a + n) / 8
  (s.flash.map.filter (fun p => decide (luaOf nsid lo ≤ p.1) && decide (p.1 < luaOf nsid lo + (hi - lo)))).map (·.1)

/-- Trims [a, a+n) of a namespace; none while no slot is free for a unit covered in part. -/
def trimRange (s : State) (nsid a n : Nat) : Option State :=
  ((partUnits a n).foldl (fun r u => r.bind (fun s => zeroPart s nsid u)) (some s)).map (fun s =>
    let s := (wholeUnits s nsid a n).foldl releaseUnit s
    coverFailed (invalidate s nsid a n) nsid a n)

/-- A TRIM of part of a unit is refused in a read-only module (R399). -/
def trimRo (s : State) (c : Cmd) : Nat := if (partUnits (c.b 32 8) (c.b 40 4)).isEmpty then 0 else roStatus s

/-- A TRIM must wait for a slot. -/
def trimWaits (s : State) (id : CmdId) : Bool :=
  match cmdById s id with
  | some c => decide (c.b 40 4 ≠ 0) && decide (c.b 32 8 + c.b 40 4 ≤ nsBlocks s c.nsid) && (trimRange s c.nsid (c.b 32 8) (c.b 40 4)).isNone
  | none => false

/-- What TRIM does (R389, R393). -/
def runTrim (s : State) (c : Cmd) : State :=
  match trimRange s c.nsid (c.b 32 8) (c.b 40 4) with
  | none => s
  | some s => noteRo (finishDurable (pumpMedia (dropStaging (complete s c.no 0))))

/-! ### SECURE_DISCARD (R402, R403) -/

/-- A discard with nothing left to erase completes (R403). -/
def noteDiscards (s : State) : State :=
  (s.flash.discards.filter (fun d => d.stripes.isEmpty && d.erasing.isEmpty)).foldl (fun s d =>
    let s := updFlash s fun f => { f with discards := f.discards.filter (fun x => x.no != d.no) }
    if d.failed = 0 then complete s d.no 0 d.erased d.kib
    else complete (healthEvent s 8 d.nsid d.failed 0 0) d.no 0x3005 d.erased d.kib d.failed) s

/-- Starts the search for copies under a filter mask: sealed stripes to collect, sets out of use to erase (R402, R403). -/
def startDiscard (s : State) (no nsid mask : Nat) : State :=
  let hit (f : Nat) : Bool := (f &&& mask) != 0
  let ids := (s.flash.stripes.filter (fun x => hit x.filter)).map (·.id)
  let s := ids.foldl sealStripe s
  let olds := (s.flash.sets.filter (fun p => hit p.2.filter && !p.2.free && !ids.contains p.2.stripe)).map (fun p => (p.1 / 16384, p.1 / 1024 % 16, p.1 % 1024, p.2.retired))
  let s := (olds.filter (fun o => o.2.2.2)).foldl (fun s o => wantErase s o.1 o.2.1 o.2.2.1) s
  noteDiscards (updFlash s fun f => { f with discards := f.discards ++ [⟨no, nsid, ids, olds.map (fun o => (o.1, o.2.1, o.2.2.1)), 0, 0, 0⟩] })

/-- Filter mask of a range of units of a SPACE. -/
def rangeMask (space u0 u1 : Nat) : Nat :=
  (List.range (u1 / 8192 + 1 - u0 / 8192)).foldl (fun m i => m ||| filterBit (luaOf space ((u0 / 8192 + i) * 8192))) 0

/-! ### Pages as stored (R364, R373, R381, R404, R412) -/

/-- XOR of byte strings. -/
def xorBytes (a b : List Byte) : List Byte := List.zipWith (· ^^^ ·) a b

/-- The 16 KiB of a data member's page at (row, plane * 4 + page). -/
def dataPage (x : Stripe) (row i pg : Nat) : List Byte :=
  let kib := row * x.rowKib + i * x.cell + (if x.pslc then pg / 4 else pg) * 16
  let one (n : Nat) : List Byte :=
    match x.packed.find? (fun p => decide (p.off ≤ n) && decide (n < p.off + ceilDiv p.bytes.length 1024)) with
    | some p => slice p.bytes (1024 * (n - p.off)) 1024
    | none => List.replicate 1024 0
  ((List.range 16).map (fun j => one (kib + j))).flatten

/-- The data of a member's page; the last member is the XOR of the others (R381). -/
def memberPage (x : Stripe) (row i pg : Nat) : List Byte :=
  let w := x.members.length
  if i + 1 = w then (List.range (w - 1)).foldl (fun a j => xorBytes a (dataPage x row j pg)) (List.replicate 16384 0) else dataPage x row i pg

/-- The block header of R364. -/
def headerRecord (btype plane block erases seq stripe : Nat) : List Byte :=
  let h := toBytes 2 0xB10C ++ toBytes 1 btype ++ toBytes 1 plane ++ toBytes 2 block ++ toBytes 2 0 ++ toBytes 4 erases
    ++ toBytes 4 0 ++ toBytes 8 seq ++ toBytes 8 stripe ++ toBytes 28 0
  h ++ toBytes 4 (crc32c h)

/-- The out-of-band record of every other page (R404). -/
def pageRecord (kind member stripe row page units seq lua : Nat) : List Byte :=
  let h := toBytes 2 0xB1DA ++ toBytes 1 kind ++ toBytes 1 member ++ toBytes 4 stripe ++ toBytes 2 row ++ toBytes 1 page ++ toBytes 1 0
    ++ toBytes 4 units ++ toBytes 8 seq ++ toBytes 8 lua ++ toBytes 28 0
  h ++ toBytes 4 (crc32c h)

/-- The out-of-band record of a page of a stripe (R364, R404). -/
def oobOf (s : State) (x : Stripe) (row i pg : Nat) (m : Member) : List Byte :=
  let par := decide (i + 1 = x.members.length)
  let plane := pg / 4
  if row = 0 ∧ pg % 4 = 0 then
    let bt := match x.kind with | .staging => 3 | .journal => 4 | _ => if par then 2 else 1
    headerRecord bt plane m.block (getSet s m.chan m.die m.block).eraseCount (((x.headSeqs.find? (fun h => h.1 == i)).map (·.2)).getD 0) x.id
  else
    let kind := match x.kind with | .staging => 3 | .journal => 4 | _ => if par then 2 else 1
    let begin := if par then [] else x.packed.filter (fun p => pageOf x p.off == (row, i, pg))
    pageRecord kind i x.id row pg begin.length (x.rowSeqs.getD row 0) (match begin with | p :: _ => p.lua | [] => 2 ^ 64 - 1)

/-- An erase-intent journal entry and page (R361). -/
def JEntry.bytes (e : JEntry) : List Byte :=
  toBytes 1 e.kind ++ toBytes 1 e.plane ++ toBytes 2 e.block ++ toBytes 8 e.iseq ++ toBytes 4 e.eraseCount ++ toBytes 1 (b2n e.fail) ++ toBytes 15 0
def JPage.bytes (p : JPage) : List Byte :=
  let h := toBytes 4 0x314A4945 ++ toBytes 1 p.plane ++ toBytes 1 0 ++ toBytes 2 p.entries.length ++ toBytes 8 p.pageSeq ++ toBytes 4 p.generation ++ toBytes 40 0
  let es := (p.entries.map JEntry.bytes).flatten
  slice (h ++ toBytes 4 (crc32c (h ++ es)) ++ es) 0 16384

/-- What a page of a stripe holds: a row programmed shows all its pages, one whose first pass alone is over the lower and middle ones
(R355). -/
def stripePage (s : State) (p : PageAddr) (x : Stripe) (i : Nat) : Option (List Byte × List Byte) :=
  let pg := 4 * p.plane + p.page
  match x.members[i]? with
  | none => none
  | some m =>
    if p.wl < x.rowsDone ∨ x.progDone.contains (p.wl, i) ∨ (p.page < 2 ∧ x.lows.contains (p.wl, i)) then some (memberPage x p.wl i pg, oobOf s x p.wl i pg m)
    else none

/-- What a page holds, data and out-of-band record; none for a page not programmed since its erase. DESIGN CHOICE (notes/assumptions
43): the pages of an image slot, a counter or a helper copy carry KIND 1 and no stripe in their records, of which R404 lists none for
them. -/
def pageStored (s : State) (p : PageAddr) : Option (List Byte × List Byte) :=
  if p.block = 0 then
    (((getDie s p.chan p.die).jpages.filter (fun j => j.plane == p.plane))[p.wl]?).map (fun j => (j.bytes, List.replicate 64 0))
  else if p.plane = 0 ∧ (p.die = 0 ∨ p.die = 8) ∧ (p.chan = 0 ∨ p.chan = 64) ∧ p.block ≤ 3 then
    let i := (if p.chan = 0 then 0 else 2) + (if p.die = 0 then 0 else 1)
    let l := if p.block = 1 then s.boot.copies.getD i [] else if p.block = 2 then s.boot.counters.getD i [] else s.ident.flashCopies.getD i []
    let seq := (((getDie s p.chan p.die).heads.find? (fun h => h.1 == p.block)).map (·.2)).getD 0
    if l.length ≤ 16384 * p.wl then none
    else some (slice l (16384 * p.wl) 16384,
      if p.wl = 0 then headerRecord (p.block + 4) 0 p.block (getSet s p.chan p.die p.block).eraseCount seq 0
      else pageRecord 1 0 0 p.wl 0 0 0 (2 ^ 64 - 1))
  else
    match stripeAt s p, goneAt s p with
    | some (x, i), _ => stripePage s p x i
    | none, some (x, i) => stripePage s p x i
    | none, none => none

/-- The 18,432 stored bytes of a page: four codewords (R412); an erased page reads all ones. -/
def storedBytes (s : State) (p : PageAddr) : List Byte :=
  match pageStored s p with
  | none => List.replicate 18432 255
  | some (d, o) => ((List.range 4).map (fun k =>
      let c := slice d (4096 * k) 4096 ++ slice o (16 * k) 16
      let c := c ++ toBytes 4 (crc32c c)
      c ++ slice (Config.ldpcParity c) 0 492)).flatten

end Sys2Proof.Machine
end

