-- ==== Sys2Proof/Machine/Storage.lean ====
section
/-!
DEFINITION. Machine/Storage.lean: the native storage commands (R78, R83-R85, R373, R383, R389, R390, R402).
-/
namespace Sys2Proof.Machine

/-- READ (R78, R83). -/
def execRead (c : CmdId) (s : State) : Host.Outcome State Fault Refusal :=
  .next (runCmd s c (isOp 0x20) [(32, 12)] (fun c => rangeConds s c 65536 ++ [cond (c.bufBytes != 4096 * c.b 40 4) 0x1003]) startReads)

/-- Conditions of a WRITE (R78, R120, R378, R399). -/
def writeConds (s : State) (c : Cmd) : List Nat :=
  rangeConds s c 65536 ++ [cond (c.bufBytes != 4096 * c.b 40 4) 0x1003, roStatus s]

/-- WRITE (R78, R83, R383): a refusal of the headgate or the mapping reserve writes nothing. -/
def execWrite (c : CmdId) (s : State) : Host.Outcome State Fault Refusal :=
  .next (runCmd s c (isOp 0x21) [(32, 16)] (fun c => cond (decide (1 < c.b 44 4)) 0x1002 :: writeConds s c) (fun s c => pumpWrite s c.no))

/-- WRITE_RESUME (R383): a started WRITE goes on once slots are free. -/
def execWriteResume (c : CmdId) (s : State) : Host.Outcome State Fault Refusal :=
  .next (match cmdById s c with
    | some c => if isWrite c.opcode && c.phase == .started && c.due == 0 && decide (c.done < c.b 40 4) then pumpWrite s c.no else s
    | none => s)

/-- What FLUSH does (R78): it waits for every block of the namespace that is neither on media nor staged. -/
def runFlush (s : State) (c : Cmd) : State :=
  finishDurable (updFlash s fun f => { f with
    slots := f.slots.map (fun p => if luaSpace p.2.lua = c.nsid ∧ p.2.staged.isNone then (p.1, { p.2 with writers := p.2.writers ++ [⟨c.sqid, c.tag, c.nsid, 0, c.no, true⟩] }) else p) })

/-- FLUSH (R78). -/
def execFlush (c : CmdId) (s : State) : Host.Outcome State Fault Refusal :=
  .next (runCmd s c (isOp 0x22) [] (fun _ => []) runFlush)

/-- TRIM (R389); it waits where a partly covered unit finds no free slot (R383). -/
def execTrim (c : CmdId) (s : State) : Host.Outcome State Fault Refusal :=
  if trimWaits s c then .next s
  else .next (runCmd s c (isOp 0x23) [(32, 12)] (fun c => rangeConds s c (2 ^ 32 - 1) ++ [trimRo s c]) runTrim)

/-- Write-buffer copies of blocks, by unit and block of the unit, are zeroed (R402). -/
def zeroSlots (s : State) (hit : Nat → Nat → Bool) : State :=
  updFlash s fun f => { f with
    slots := f.slots.map (fun p =>
      (p.1, { p.2 with data := p.2.data.zipIdx.map (fun d => if hit p.2.lua d.2 then zeroBlock else d.1) })) }

/-- SECURE_DISCARD with SCOPE 0 (R402, R403): trim, then the erase of every copy; any SCOPE above 1 is refused here. -/
def execSecureDiscardRange (c : CmdId) (s : State) : Host.Outcome State Fault Refusal :=
  if trimWaits s c then .next s
  else .next (runCmd s c (fun c => isOp 0x24 c && c.b 44 1 != 1) [(32, 13)]
    (fun c => cond (decide (1 < c.b 44 1)) 0x1002 :: rangeConds s c (2 ^ 32 - 1) ++ [roStatus s]) fun s c =>
    let a := c.b 32 8
    let n := c.b 40 4
    match trimRange s c.nsid a n with
    | none => s
    | some s => startDiscard (zeroSlots s (fun lua i => luaSpace lua == c.nsid && decide (a ≤ 8 * luaUnit lua + i) && decide (8 * luaUnit lua + i < a + n))) c.no c.nsid (rangeMask c.nsid (a / 8) ((a + n - 1) / 8)))

/-- SECURE_DISCARD with SCOPE 1 (R402): the domain's released device-managed storage. -/
def execSecureDiscardReleased (c : CmdId) (s : State) : Host.Outcome State Fault Refusal :=
  .next (runCmd s c (fun c => isOp 0x24 c && c.b 44 1 == 1) [(32, 13)]
    (fun c => [cond (c.b 32 8 != 0 || c.b 40 4 != 0) 0x1002, roStatus s]) fun s c =>
    let us := (s.flash.released.filter (fun u => u.1 == domOf c.nsid)).map (·.2)
    let s := updFlash s fun f => { f with released := f.released.filter (fun u => u.1 != domOf c.nsid) }
    startDiscard (zeroSlots s (fun lua _ => us.contains lua)) c.no c.nsid (us.foldl (fun m lua => m ||| filterBit lua) 0))

/-- VERIFY (R390). -/
def execVerify (c : CmdId) (s : State) : Host.Outcome State Fault Refusal :=
  .next (runCmd s c (isOp 0x25) [(32, 12)] (fun c => rangeConds s c 65536) startReads)

/-! ### RAW_READ (R373) -/

def rawPage (c : Cmd) : PageAddr := ⟨c.b 32 1, c.b 33 1, c.b 34 1, c.b 36 2, c.b 38 2, c.b 35 1⟩

/-- An erase of the block has started and not completed: it runs, is suspended, or was cut short and not yet run again (R360,
R366). -/
def eraseUnderWay (s : State) (p : PageAddr) : Bool :=
  let d := getDie s p.chan p.die
  let hit (o : Option DieOp) : Bool := match o with | some (.erase bs) => bs.contains (p.plane, p.block) | _ => false
  hit d.run || hit d.susp || d.half.contains (p.plane, p.block)

/-- The first condition of R373 that holds. -/
def rawCond (s : State) (c : Cmd) (len : Nat) : Nat :=
  let p := rawPage c
  if 127 < p.chan ∨ 15 < p.die ∨ 3 < p.plane ∨ 3 < p.page ∨ (p.block < 8 ∧ p.page ≠ 0) ∨ 707 < p.block
      ∨ (if p.block < 8 then 255 else 1535) < p.wl ∨ 2 < c.b 40 1 ∨ 7 < c.b 41 1 then 0x1002
  else if c.nsid ≠ 1 ∨ getF s (chIsl p.chan) F.FCH_CTRL_DIAG_EN = 0 ∨ c.bufBytes ≠ len then 0x1003
  else if !chEnabled s p.chan then 0x1004
  else if chState s p.chan = 2 ∨ dieOut s p.chan p.die then 0x1007
  else if eraseUnderWay s p then 0x3003 else 0

/-- Bytes of a RAW_READ and its condition, one row's mode. -/
def rawRead (s : State) (id : CmdId) (sel : Nat → Bool) (body : State → Cmd → State) : State :=
  runCmd s id (fun c => isOp 0x26 c && sel (c.b 40 1)) [(32, 10)]
    (fun c => [rawCond s c (match c.b 40 1 with | 0 => 16448 | 1 => 18432 | _ => 8)]) body

/-- Queues the page read of a RAW_READ. -/
def queueRaw (s : State) (c : Cmd) : State :=
  let p := rawPage c
  updDie s p.chan p.die (fun d => { d with reads := d.reads ++ [.read p (c.b 41 1) (.raw c.no)] })

/-- RAW_READ of the corrected data (mode 0) (R373). -/
def execRawReadCorrected (c : CmdId) (s : State) : Host.Outcome State Fault Refusal := .next (rawRead s c (· == 0) queueRaw)

/-- RAW_READ of the stored bytes (mode 1) (R373). -/
def execRawReadStored (c : CmdId) (s : State) : Host.Outcome State Fault Refusal := .next (rawRead s c (· == 1) queueRaw)

/-- RAW_READ of the erase-verify count (mode 2), which the media tells (R365, R373); a mode above 2 is refused here. -/
def execRawReadEraseCount (c : CmdId) (zeros : Nat) (s : State) : Host.Outcome State Fault Refusal :=
  .next (rawRead s c (fun m => decide (1 < m)) fun s c =>
    let p := rawPage c
    let s := updSet s p.chan p.die p.block (fun x => { x with reads := x.reads + 1 })
    complete (toHost s c (toBytes 4 (min zeros 147456) ++ [0, 0, 0, 0])) c.no 0)

end Sys2Proof.Machine
end

