-- ==== Sys2Proof/Machine/Risal.lean ====
section
/-!
DEFINITION. Machine/Risal.lean: the Risal command set and its collection (R92-R97).
-/
namespace Sys2Proof.Machine

/-- Command-specific bytes a Risal command does not list are ignored (R92). -/
def anyBytes : List (Nat × Nat) := [(32, 96)]

/-- OBJECT_ID of the collection object (R92). -/
def risalCollObj : Nat := 0xFFFFFFFFFFFFFFFE

/-- Makes collection 0 where it is absent (R92). -/
def makeRisal (s : State) : State :=
  if (findColl s 0).isSome then s
  else
    let offs := List.replicate 512 0xBF800000
    let steps := List.replicate 512 0x3C000000
    makeColl s { blankColl with no := 0, nsid := 1, dim := 512, w := 4, budget := 256, obj := risalCollObj, poolsMax := 65536, offs := offs, steps := steps }
      ((offs ++ steps).map (toBytes 4)).flatten

/-- R_IDENTIFY (R93). -/
def execRIdentify (c : CmdId) (s : State) : Host.Outcome State Fault Refusal :=
  .next (runCmd s c (isOp 0xC0) anyBytes (fun c => [roomFor c 4096]) fun s c =>
    complete (toHost s c (toBytes 4 s.boot.info.risalGib ++ toBytes 2 512 ++ toBytes 2 1024 ++ List.replicate 4088 0)) c.no 0)

/-- R_READ (R93): READ, its flags ignored. -/
def execRRead (c : CmdId) (s : State) : Host.Outcome State Fault Refusal :=
  .next (runCmd s c (isOp 0xC1) anyBytes (fun c => rangeConds s c 65536 ++ [cond (c.bufBytes != 4096 * c.b 40 4) 0x1003]) startReads)

/-- R_WRITE (R93, R95). -/
def execRWrite (c : CmdId) (s : State) : Host.Outcome State Fault Refusal :=
  .next (runCmd s c (isOp 0xC2) anyBytes (writeConds s) (fun s c => pumpWrite s c.no))

/-- R_FLUSH (R93). -/
def execRFlush (c : CmdId) (s : State) : Host.Outcome State Fault Refusal :=
  .next (runCmd s c (isOp 0xC3) anyBytes (fun _ => []) runFlush)

/-- R_TRIM (R93). -/
def execRTrim (c : CmdId) (s : State) : Host.Outcome State Fault Refusal :=
  if trimWaits s c then .next s
  else .next (runCmd s c (isOp 0xC4) anyBytes (fun c => rangeConds s c (2 ^ 32 - 1) ++ [trimRo s c]) runTrim)

/-- R_EMBED (R93, R97). -/
def execREmbed (c : CmdId) (s : State) : Host.Outcome State Fault Refusal :=
  .next (runCmd s c (isOp 0xC5) anyBytes
    (fun c =>
      let known := match findObj s c.nsid (c.b 48 8) with
        | some o => o.risal
        | none => false
      [cond (!known || !risalCtx s c || risalEntry s == 0) 0x1002]) fun s c => risalEmbed s c (c.b 48 8))

/-- Codes of the embedding an object appended last (R97). -/
def lastCodes (s : State) (obj : Nat) : Option (List Byte) :=
  (findColl s 0).bind fun x => (x.last.find? (fun l => l.1 == obj)).bind fun l => (findPool x l.2.1).bind fun p => (p.members[l.2.2]?).map (·.codes)

/-- R_SEARCH (R93, R94). -/
def execRSearch (c : CmdId) (s : State) : Host.Outcome State Fault Refusal :=
  .next (
    let src (c : Cmd) : Nat := bits (c.b 32 4) 4 2
    let content (c : Cmd) : Nat := if c.b 44 4 = 0 then c.bufBytes else c.b 44 4
    runCmd s c (isOp 0xC6) anyBytes
      (fun c => [cond (src c % 3 == 0 && decide (c.bufBytes < 2048)) 0x1002, cond (src c == 1 && (content c == 0 || decide (2 ^ 24 < content c))) 0x1002, roomFor c (max 32 (if src c = 1 then content c else 0))]) fun s c =>
      let mode := c.b 32 4
      let k := if c.b 36 2 % 1024 = 0 then 1024 else c.b 36 2 % 1024
      let fl := bit mode 3
      let q : Query := { blankQuery with
        no := c.no, coll := 0, metric := if mode % 4 = 3 then 1 else mode % 4, k := k, depth := queryDepth k 4 fl false, filter := fl
        terms := if fl then [(0, 0, true, c.b 40 4, 0)] else [], ctx := c.b 8 4, risal := true }
      let empty (s : State) : State := emptyQuery s { q with id := s.search.nextQuery }
      match findColl s 0 with
      | none => empty s
      | some x =>
        match src c with
        | 1 =>
          let t := getF s 56 F.RISAL_CTYPE_CTYPE
          if risalCan s c t = false then empty s
          else if risalStatus s ≠ 0 then complete s c.no (risalStatus s)
          else
            let id := s.search.nextQuery
            let s := addQuery s { q with phase := .content, embedEntry := risalEntry s, embedAddr := risalSlot s }
            addDecode s { risalDecode s c t 0 (c.data.take (content c)) with query := id, risal := false }
        | 2 => (match lastCodes s (c.b 48 8) with | some l => addQuery s { q with codes := l } | none => empty s)
        | _ => addQuery s { q with codes := x.encode (c.data.take 2048) })

end Sys2Proof.Machine
end

