-- ==== Sys2Proof/Machine/Keccak.lean ====
section
/-!
DEFINITION. Machine/Keccak.lean: SHAKE256 of FIPS 202, the hash the spec names (R29, R345, R468).
-/
namespace Sys2Proof.Machine

/-- 64-bit rotation left. -/
def rotl64 (v n : Nat) : Nat := (v * 2 ^ n) % 2 ^ 64 + v / 2 ^ (64 - n)

/-- Rotation offsets of rho, lane x + 5y. -/
def keccakRho : List Nat :=
  [0, 1, 62, 28, 27, 36, 44, 6, 55, 20, 3, 10, 43, 25, 39, 41, 45, 15, 21, 8, 18, 2, 61, 56, 14]

/-- Round constants of iota. -/
def keccakRC : List Nat :=
  [0x0000000000000001, 0x0000000000008082, 0x800000000000808A, 0x8000000080008000, 0x000000000000808B, 0x0000000080000001,
   0x8000000080008081, 0x8000000000008009, 0x000000000000008A, 0x0000000000000088, 0x0000000080008009, 0x000000008000000A] ++
  [0x000000008000808B, 0x800000000000008B, 0x8000000000008089, 0x8000000000008003, 0x8000000000008002, 0x8000000000000080,
   0x000000000000800A, 0x800000008000000A, 0x8000000080008081, 0x8000000000008080, 0x0000000080000001, 0x8000000080008008]

/-- One round on 25 lanes, lane (x, y) at x + 5y. -/
def keccakRound (a : List Nat) (rc : Nat) : List Nat :=
  let at' (l : List Nat) (x y : Nat) : Nat := l.getD (x % 5 + 5 * (y % 5)) 0
  let c := (List.range 5).map (fun x => at' a x 0 ^^^ at' a x 1 ^^^ at' a x 2 ^^^ at' a x 3 ^^^ at' a x 4)
  let d := (List.range 5).map (fun x => c.getD ((x + 4) % 5) 0 ^^^ rotl64 (c.getD ((x + 1) % 5) 0) 1)
  let t := (List.range 25).map (fun i => a.getD i 0 ^^^ d.getD (i % 5) 0)
  -- rho and pi: lane (x, y) goes to (y, 2x + 3y); here each place takes its source
  let b := (List.range 25).map (fun i =>
    let x' := i % 5; let y' := i / 5
    -- x' = y, y' = 2x + 3y
    let y := x'
    let x := (3 * (y' + 10 - 3 * y % 5)) % 5
    rotl64 (t.getD (x + 5 * y) 0) (keccakRho.getD (x + 5 * y) 0))
  (List.range 25).map (fun i =>
    let x := i % 5; let y := i / 5
    let v := at' b x y ^^^ ((2 ^ 64 - 1 - at' b (x + 1) y) &&& at' b (x + 2) y)
    if i = 0 then v ^^^ rc else v)

def keccakF (a : List Nat) : List Nat := keccakRC.foldl keccakRound a

/-- XORs a 136-byte block into the state. -/
def keccakAbsorb (a : List Nat) (blk : List Byte) : List Nat :=
  a.zipIdx.map (fun p => if p.2 < 17 then p.1 ^^^ le blk (8 * p.2) 8 else p.1)

/-- SHAKE padding to a multiple of 136 bytes: 1F, zeros, 80 in the last byte. -/
def shakePad (m : List Byte) : List Byte :=
  let k := 136 - m.length % 136
  if k = 1 then m ++ [0x9F] else m ++ [0x1F] ++ List.replicate (k - 2) 0 ++ [0x80]

def absorbAll : Nat → List Nat → List Byte → List Nat
  | 0, a, _ => a
  | n + 1, a, m => absorbAll n (keccakF (keccakAbsorb a (m.take 136))) (m.drop 136)

def squeeze : Nat → List Nat → List Byte
  | 0, _ => []
  | n + 1, a => ((a.take 17).map (toBytes 8)).flatten ++ squeeze n (keccakF a)

/-- SHAKE256 with an output of `n` bytes. -/
def shake256 (m : List Byte) (n : Nat) : List Byte :=
  let p := shakePad m
  (squeeze (n / 136 + 1) (absorbAll (p.length / 136) (List.replicate 25 0) p)).take n

end Sys2Proof.Machine
end

