-- ==== Sys2Proof/Machine/Image.lean ====
section
/-!
DEFINITION. Machine/Image.lean: context images (R207, R290, R292, R345, R346): their bytes, and which tokens of a stored image a
load can use.
-/
namespace Sys2Proof.Machine

/-! ### KV4 groups (R207) -/

/-- Magnitude of an E4M3 code in units of 2^-9. -/
def e4m3Mag (v : Nat) : Nat := let e := v % 128 / 8; let m := v % 8; if e = 0 then m else (8 + m) * 2 ^ (e - 1)

/-- Nearest-even quotient of naturals. -/
def rneDiv (a b : Nat) : Nat :=
  let q := a / b; let r := a % b
  if 2 * r < b then q else if b < 2 * r then q + 1 else q + q % 2

/-- The E4M3 code nearest a magnitude in units of 2^-9, ties to even. -/
def e4m3Near (q : Nat) : Nat :=
  if q < 16 then q
  else
    let k := Nat.log2 q - 3
    let n := rneDiv q (2 ^ k)
    min ((if n = 16 then (k + 2) * 8 else (k + 1) * 8 + (n - 8))) 0x7E

def e4m3NaN (v : Nat) : Bool := v % 128 == 127

/-- The scale of a group: the least positive E4M3 value at or above amax / 7. -/
def kv4Scale (amax : Nat) : Nat := ((List.range 126).map (· + 1)).find? (fun v => decide (amax ≤ 7 * e4m3Mag v)) |>.getD 0x7E

/-- The 33 bytes of a group of 64 E4M3 elements. -/
def kv4Enc (g : List Byte) : List Byte :=
  let l := g.map (·.toNat)
  if l.any e4m3NaN then BitVec.ofNat 8 0x7F :: List.replicate 32 0
  else
    let sc := kv4Scale ((l.map e4m3Mag).foldl max 0)
    let code (v : Nat) : Nat :=
      let c := min (rneDiv (e4m3Mag v) (e4m3Mag sc)) 7
      if bit v 7 then (16 - c) % 16 else c
    BitVec.ofNat 8 sc :: packCodes 4 (l.map code)

/-- The 64 elements a group decodes to. -/
def kv4Dec (g : List Byte) : List Byte :=
  let sc := (g.headD 0).toNat
  if e4m3NaN sc then List.replicate 64 (BitVec.ofNat 8 0x7F)
  else (List.range 64).map (fun i =>
    let c := sext 4 (elemAt 4 (g.drop 1) i)
    let v := e4m3Near (c.natAbs * e4m3Mag sc)
    BitVec.ofNat 8 (if c < 0 ∧ v ≠ 0 then v + 128 else v))

/-! ### Images (R345, R346) -/

/-- Groups of a run of tokens that hold a NaN: the index of each. -/
def nanGroups (toks : List Byte) : List Nat :=
  (List.range (toks.length / 64)).filter (fun i => ((toks.drop (64 * i)).take 64).any (fun b => e4m3NaN b.toNat))

def encTokens (fmt : Nat) (toks : List Byte) : List Byte :=
  if fmt = 0 then toks else ((List.range (toks.length / 64)).map (fun i => kv4Enc ((toks.drop (64 * i)).take 64))).flatten

def decTokens (fmt : Nat) (d : List Byte) : List Byte :=
  if fmt = 0 then d else ((List.range (d.length / 33)).map (fun i => kv4Dec ((d.drop (33 * i)).take 33))).flatten

/-- Offset, length and bytes of each segment, from an offset on. -/
def layoutSegs : Nat → List (List Byte) → List (Nat × List Byte)
  | _, [] => []
  | o, x :: l => let a := alignUp o 64; (a, x) :: layoutSegs (a + x.length) l

/-- Segments of an image: tokens cut into runs of SEG_TOKENS. -/
def cutSegs (tokenBytes segTokens : Nat) (toks : List Byte) : List (List Byte) :=
  let n := ceilDiv (toks.length / max tokenBytes 1) (max segTokens 1)
  (List.range n).map (fun i => (toks.drop (i * segTokens * tokenBytes)).take (segTokens * tokenBytes))

/-- The bytes of an image (R345). -/
def imageBytes (fmt tokenBytes tokens segTokens source : Nat) (toks : List Byte) : List Byte :=
  let segs := (cutSegs tokenBytes segTokens toks).map (encTokens fmt)
  let lay := layoutSegs (64 + 16 * segs.length) segs
  let hdr := toBytes 4 0x34564B43 ++ toBytes 1 fmt ++ toBytes 3 0 ++ toBytes 4 tokenBytes ++ toBytes 4 tokens ++ toBytes 4 segTokens
    ++ toBytes 4 segs.length ++ toBytes 8 source
  let dir := (lay.map (fun x => toBytes 8 x.1 ++ toBytes 4 x.2.length ++ toBytes 4 (crc32c x.2))).flatten
  lay.foldl (fun b x => b ++ List.replicate (x.1 - b.length) 0 ++ x.2) (hdr ++ shake256 (hdr ++ dir) 32 ++ dir)

/-- What a load reads of an image's header: none when MAGIC, FORMAT or DIGEST is wrong or unreadable (R346):
(format, token bytes, tokens, segment tokens, segments). -/
def imageHeader (s : State) (o : Obj) : Option (Nat × Nat × Nat × Nat × Nat) :=
  match objBytes s o 0 64 with
  | none => none
  | some h =>
    let n := le h 20 4
    match objBytes s o 64 (16 * n) with
    | none => none
    | some d =>
      if le h 0 4 = 0x34564B43 ∧ le h 4 1 ≤ 1 ∧ (h.drop 32).take 32 = shake256 (h.take 32 ++ d) 32 then
        some (le h 4 1, le h 8 4, le h 12 4, le h 16 4, n)
      else none

/-- A segment's FP8 tokens; none when it is unreadable or fails its check (R346). -/
def imageSeg (s : State) (o : Obj) (fmt i : Nat) : Option (List Byte) :=
  match objBytes s o (64 + 16 * i) 16 with
  | none => none
  | some e =>
    match objBytes s o (le e 0 8) (le e 8 4) with
    | none => none
    | some d => if crc32c d = le e 12 4 then some (decTokens fmt d) else none

/-- The usable segments before the first missing one, in order, at most `n`. -/
def usableSegs (s : State) (o : Obj) (fmt : Nat) : Nat → Nat → List (List Byte)
  | 0, _ => []
  | n + 1, i => match imageSeg s o fmt i with | none => [] | some d => d :: usableSegs s o fmt n (i + 1)

/-! ### Saving (R290, R293) -/

/-- Token capacity of a state context (R267). -/
def Ctx.capacity (c : Ctx) : Nat := (c.arenaBytes - c.kvOffset) / max c.tokenBytes 1

/-- The attention state of a context. -/
def Ctx.kvAddr (c : Ctx) : Nat := c.arena + c.kvOffset

/-- A context has its arena: every one with a size but an IMAGED one (R269, R290). -/
def Ctx.hasArena (c : Ctx) : Bool := c.arenaBytes != 0 && c.st != .imaged

/-- A batch step lists the context (R288). -/
def listed (s : State) (slot : Nat) : Bool :=
  s.sched.ctxs.any (fun c => c.launches.any (fun l => l.members.any (fun m => m.1 == slot)))

/-- A state context stops holding its arena (R269, R290). -/
def releaseArena (s : State) (slot : Nat) : State :=
  match findCtx s slot with
  | none => s
  | some c => updCtx (freeArea s c.arena (c.arenaBytes / MiB2) false) slot (fun c => { c with arena := 0, st := .imaged })

/-- KV4 NaN groups are counted at the island that encodes their unit (R348). -/
def countNans (s : State) (o : Obj) (offs : List Nat) : State :=
  offs.foldl (fun s off =>
    match o.block (off / 4096) with
    | some (sp, b) => addF s (flashIsland (homeGroup s (luaOf sp (b / 8)) / 2)) F.KV4_NAN_COUNT 1
    | none => s) s

/-- Starts a save: encodes the tokens and writes the new version (R290, R418). The status that ends it at once, 0 when it
is under way, with DETAIL. -/
def startSave (s : State) (slot op no id fmt source : Nat) (release : Bool) (bad fixed : List Nat) : State × Nat × Nat :=
  match findCtx s slot with
  | none => (s, 0x1003, 0)
  | some c =>
    let n := c.tokens * c.tokenBytes
    let r := readFinds s bad fixed c.kvAddr n
    let s := r.1
    if 0 < n ∧ r.2 ≠ 0 then (s, r.2, 0)
    else
      let toks := rdBytes s c.kvAddr n
      let s := stackRead s 6 c.kvAddr n
      let img := imageBytes fmt c.tokenBytes c.tokens c.segTokens source toks
      let units := ceilDiv img.length 32768
      let d := domOf c.nsid
      let r := takeUnits s d units
      let o : Obj := { nsid := c.nsid, id := id, mtype := 7, size := img.length, storage := .device r.2 units, attrs := List.replicate 16 0
                       quarantined := false, failed := [], grain := 1, hintTier := 2, hintDie := 255, hintPin := false, hinted := false
                       pathKind := 0, shadow := 0 }
      match objRefusal s d [(o, 0, img.length)] with
      | some e => (deny s d, 0x2001, e)
      | none =>
        let s := storeObj r.1 o 0 img
        let segs := cutSegs c.tokenBytes c.segTokens toks
        let nans := if fmt = 1 then
            ((layoutSegs (64 + 16 * segs.length) (segs.map (encTokens fmt))).zipWith (fun x t => (nanGroups t).map (fun g => x.1 + 33 * g)) segs).flatten
          else []
        let s := countNans s o nans
        (updCtx s slot (fun c => { c with
          st := .imaging, imgOp := op, imgNo := no, imgFormat := fmt, imgRelease := release, imgSource := source, imgTokens := c.tokens
          imgId := id, imgUnit := r.2, imgUnits := units, imgBytes := img.length, imgSegs := segs.length }), 0, 0)

/-- The object of the version a context is writing. -/
def Ctx.newImage (c : Ctx) : Obj :=
  { nsid := c.nsid, id := c.imgId, mtype := 7, size := c.imgBytes, storage := .device c.imgUnit c.imgUnits, attrs := List.replicate 16 0
    quarantined := false, failed := [], grain := 1, hintTier := 2, hintDie := 255, hintPin := false, hinted := false, pathKind := 0, shadow := 0 }

/-- Registers the new version in place of any prior one, whose storage is released; hints, grain, path and attributes of
the ID stay (R290, R521). -/
def registerImage (s : State) (c : Ctx) : State :=
  let n := c.newImage
  match findObj s c.nsid c.imgId with
  | none => updSearch s fun x => { x with objs := x.objs ++ [n] }
  | some o =>
    let s := (s.mem.pages.filter (fun p => p.nsid == o.nsid && p.obj == o.id)).foldl dropPage s
    let s := endQuarantine (releaseStorage s o) o
    updObj s o.nsid o.id (fun o => { o with size := n.size, storage := n.storage })

/-! ### Loading (R291, R292) -/

/-- Starts the load of a context: an IMAGED one has its arena allocated again (R291). DETAIL of R120 when it is refused. -/
def startLoad (s : State) (slot op no id tokens deadline : Nat) : State × Except Nat Unit :=
  match findCtx s slot with
  | none => (s, .error 0)
  | some c =>
    let r : State × Except Nat Nat :=
      if c.st = .imaged then allocArea s (.arena (domOf c.nsid) slot) false (pickDie s c.die) (c.arenaBytes / MiB2) else (s, .ok c.arena)
    match r with
    | (s, .error e) => (s, .error e)
    | (s, .ok a) =>
      let f : Fetch := { id := s.mem.nextFetch, nsid := c.nsid, obj := id, pages := [], die := pickDie s c.die, accepted := cyc s 57
                         deadline := deadline, issuer := .image slot, pin := false, expired := false, spilled := false, newKib := 0, offset := 0, bytes := 0 }
      let s := updMem s fun m => { m with nextFetch := m.nextFetch + 1, fetches := m.fetches ++ [f] }
      (updCtx s slot (fun c => { c with
        arena := a, tokens := if c.st = .imaged then 0 else c.tokens, st := .imaging, imgOp := op, imgNo := no, imgId := id
        imgTokens := tokens, imgFetchAt := f.id, imgDeadline := deadline, imgExpired := false }), .ok ())

/-- What CTX_IMAGE_LOAD checks of an image before it starts: it is registered as a context image, its token size is the
context's, its tokens suffice and fit the arena, its format is supported (R291). -/
def loadConds (s : State) (x : Ctx) (img toks : Nat) : List Nat :=
  if img = 0 then [cond (toks != 0) 0x1003]
  else
    match findObj s x.nsid img with
    | none => [0x1003]
    | some o => cond (o.mtype != 7) 0x1003 :: (match imageHeader s o with
      | none => []
      | some (fmt, tb, have', _, _) =>
        [cond (tb != x.tokenBytes || decide (have' < toks) || decide (x.capacity < (if toks = 0 then have' else toks))) 0x1003,
         cond (fmt == 1 && s.variant == .dm9140N) 0x1004])

/-- How a load ends: status, tokens present, tokens to recompute, and cause; `upto` segments arrived (R292). -/
def loadResult (s : State) (c : Ctx) (upto : Nat) : Nat × Nat × Nat × List Byte :=
  match findObj s c.nsid c.imgId with
  | none => if c.imgId = 0 then (0, 0, 0, []) else (0x4004, 0, 0, [])
  | some o =>
    match imageHeader s o with
    | none => (if pathOf s o = 3 then 2 else 0x3001, 0, c.imgTokens, [])
    | some (fmt, tb, toks, seg, n) =>
      let want := if c.imgTokens = 0 then toks else min c.imgTokens toks
      let need := ceilDiv want (max seg 1)
      let got := usableSegs s o fmt (min need (min upto n)) 0
      if need ≤ got.length then (0, want, 0, (got.flatten).take (want * tb))
      else if pathOf s o = 3 then (2, got.length * seg, want - got.length * seg, (got.flatten).take (got.length * seg * tb))
      else (0x3001, 0, 0, [])

end Sys2Proof.Machine
end

