-- ==== Sys2Proof/Machine/CtxMem.lean ====
section
/-!
DEFINITION. Machine/CtxMem.lean: the memory of a context in and out of residency (R275, R277-R279): slices and owners, save
areas, and the movement of scratchpad region and slices.
-/
namespace Sys2Proof.Machine

/-- Enabled tiles of a reach. -/
def tilesOf (s : State) (reach : Nat) : List Nat := (List.range 48).filter (tileEnabled s reach)

/-- Sets the owners of the slices of a mask on every enabled tile of a reach: 0 none, 1 slot 0, 2 slot 1 (R160, R275). -/
def setOwners (s : State) (reach mask owner : Nat) : State :=
  (tilesOf s reach).foldl (fun s t =>
    let v := (bitList mask 8).foldl (fun v i => v - bits v (2 * i) 2 * 2 ^ (2 * i) + owner * 2 ^ (2 * i)) (getF s reach F.TILE_ACC_OWN_OWNER t)
    setF s reach F.TILE_ACC_OWN_OWNER v t) s

/-- The byte of a reach an offset of the save part holds: the inverse of `saveOffset`. -/
def Ctx.restoreAddr (c : Ctx) (reach o : Nat) : Option Nat :=
  let sc := c.scratch * 0x100000
  if o < sc then some (reachWindow reach + c.scratchBase + o)
  else
    let j := (o - sc) / 16384
    let i := (o - sc) % 16384
    match (bitList c.accMask 8)[j / 48]? with
    | none => none
    | some k =>
      let q := k % 4
      some (reachWindow reach + 0x1800000 + j % 48 * 0x20000 + k / 4 * 65536 + (q / 2 * 256 + i / 64) * 128 + (q % 2 * 16 + i % 64 / 4) * 4 + i % 4)

/-- Bytes of one part of a save area (R278). -/
def Ctx.partBytes (c : Ctx) : Nat := alignUp (c.scratch * 0x100000 + 0xC0000 * popCount c.accMask 8) MiB2

/-- Copies every byte and every poisoned granule that `f` gives a destination. -/
def moveMem (s : State) (f : Nat → Option Nat) : State :=
  let bs := s.mem.bytes.filterMap (fun p => (f p.1).map (fun b => (b, p.2)))
  let ps := (s.mem.poison.map (fun p => (List.range (granuleSize p.1 / 8)).filterMap (fun i => f (p.1 + 8 * i)))).flatten
  { s with mem := { s.mem with
    bytes := bs.foldl (fun m p => mset 0 m p.1 p.2) s.mem.bytes
    poison := ps.foldl (fun m a => mins m (granule a) ()) s.mem.poison } }

/-- The 64-byte pieces of the valid accumulator words of a reach: a row of a slice is one piece. -/
def accPieces (m : NMap Nat) (reach : Nat) : List (Nat × Nat) :=
  let lo := reachWindow reach + 0x1800000
  let hi := reachWindow reach + 0x2000000
  (m.map (fun p =>
    let a := max p.1 lo
    let b := min p.2 hi
    (List.range ((b + 63) / 64 - a / 64)).map (fun i => (max a ((a / 64 + i) * 64), min b ((a / 64 + i + 1) * 64))))).flatten

/-- Clears the valid flags of a context's region and owned slices on a reach: they read zero (R222, R273, R424). -/
def clearResidency (s : State) (c : Ctx) (reach : Nat) : State :=
  let out (a : Nat) : Bool := (c.saveOffset reach a).isNone
  let gone := (reachWindow reach + c.scratchBase, reachWindow reach + c.scratchEnd) :: (accPieces s.mem.valid reach).filter (fun p => !out p.1)
  { s with mem := { s.mem with
    bytes := s.mem.bytes.filter (fun p => out p.1), poison := s.mem.poison.filter (fun p => out p.1)
    valid := gone.foldl (fun m p => rangeDel m p.1 p.2) s.mem.valid } }

/-- Save: each part takes its reach's region and slices (R277). -/
def saveParts (s : State) (c : Ctx) : State :=
  c.save.foldl (fun s p =>
    let s := moveMem s (fun a => (c.saveOffset p.reach a).map (p.addr + ·))
    { s with mem := { s.mem with valid := validated s.mem.valid p.addr p.bytes } }) s

/-- Restore: each reach's region and slices take their part, poison included; an extent lost under R139 comes back wholly
poisoned (R279, R419). -/
def restoreParts (s : State) (c : Ctx) : State :=
  c.save.foldl (fun s p =>
    let s := moveMem s (fun a => if p.addr ≤ a ∧ a < p.addr + p.bytes then c.restoreAddr p.reach (a - p.addr) else none)
    if s.mem.exts.any (fun x => x.2.poisoned) then
      (List.range (p.bytes / 4096)).foldl (fun s g =>
        if extPoisoned s (p.addr + 4096 * g) 4096 then
          (List.range 512).foldl (fun s i =>
            match c.restoreAddr p.reach (4096 * g + 8 * i) with
            | some a => { s with mem := { s.mem with poison := mins s.mem.poison (granule a) () } }
            | none => s) s
        else s) s
    else s) s

/-- Takes the parts of a save area, one per reach. -/
def takeParts (c : Ctx) (die : Nat) : List Nat → State → Option (State × List SavePart)
  | [], s => some (s, [])
  | r :: l, s =>
    match takeArea s (.save (domOf c.nsid) c.slot) die (c.partBytes / MiB2) with
    | none => none
    | some (s, a) => (takeParts c die l s).map (fun x => (x.1, ⟨r, a, c.partBytes⟩ :: x.2))

/-- Allocates a context's save area, charged to the stack and save limits (R120, R278). -/
def allocSave (s : State) (c : Ctx) : State × Except Nat (List SavePart) :=
  let d := domOf c.nsid
  let mib := c.partBytes / 0x100000 * popCount c.reaches 32
  let die := if c.hasArena then (dieOfExt s (c.arena / MiB2)).getD 0 else pickDie s c.die
  match allocLoop d die (fun s => stackWithin s d mib && saveWithin s d mib) (takeParts c die (bitList c.reaches 32)) (s.mem.pages.length + 1) s with
  | (s, .error e) => (s, .error e)
  | (s, .ok l) => (setF (chargeStack s d mib) 57 F.HG_SAVE_USED_MIB (getF s 57 F.HG_SAVE_USED_MIB d + mib) d, .ok l)

/-- Releases a context's save area. -/
def freeSave (s : State) (c : Ctx) : State :=
  updCtx (c.save.foldl (fun s p => freeArea s p.addr (p.bytes / MiB2) true) s) c.slot (fun c => { c with save := [] })

/-- Scratchpad a context is charged while it holds its slots (R275). -/
def Ctx.scratchCharge (c : Ctx) : Nat := c.scratch * popCount c.reaches 32

/-- Gives up the residency slots: owners none, region and slices cleared, charge returned (R273, R275, R277). -/
def releaseSlots (s : State) (c : Ctx) : State :=
  let s := (bitList c.reaches 32).foldl (fun s r => setOwners (clearResidency s c r) r c.accMask 0) s
  subF s 57 F.HG_SCRATCH_USED_MIB c.scratchCharge (domOf c.nsid)

/-- A unit operation of a context is queued or in flight on a tile or a flume engine (R277). -/
def unitsBusy (s : State) (ctx : Nat) : Bool :=
  s.tiles.any (fun t => t.2.queue.any (fun p => p.op.ctx == ctx) || t.2.flight.any (fun p => p.op.ctx == ctx))
    || s.flume.progs.any (fun p => p.2.any (fun x => x.op.ctx == ctx))

/-- Rills of a context leave their slots, stopped (R277): an access that waits at a sluice issues again after the restore; one
that waits for a page goes on waiting for it (R271). -/
def stashRills (s : State) (ctx : Nat) : State :=
  let mine := s.runnels.rills.filter (fun p => p.2.ctx == ctx)
  let still (r : Rill) : Rill := match r.wait with | .sluice => { r with wait := .none } | _ => r
  { s with runnels := { s.runnels with
    rills := s.runnels.rills.filter (fun p => p.2.ctx != ctx)
    saved := mine.foldl (fun m p => mins m (ctx * 4096 + p.1) (still p.2)) s.runnels.saved } }

/-- They return to their slots (R279). -/
def unstashRills (s : State) (ctx : Nat) : State :=
  let mine := s.runnels.saved.filter (fun p => p.1 / 4096 == ctx)
  { s with runnels := { s.runnels with
    saved := s.runnels.saved.filter (fun p => p.1 / 4096 != ctx)
    rills := mine.foldl (fun m p => mins m (p.1 % 4096) p.2) s.runnels.rills } }

end Sys2Proof.Machine
end

