-- ==== Sys2Proof/Machine/Ctx.lean ====
section
/-!
DEFINITION. Machine/Ctx.lean: the context commands (R266-R274, R288-R293), batch steps, and the start and end of rills and
launches (R213, R215).
-/
namespace Sys2Proof.Machine

/-- The context a command names, of its own domain (R266). -/
def cmdCtx (s : State) (c : Cmd) : Option Ctx := (findCtx s (c.b 8 4)).filter (fun x => x.nsid == c.nsid)

/-- KV4 images are supported (R25). -/
def hasKv4 (s : State) : Bool := s.variant != .dm9140N

/-! ### CTX_CREATE (R267-R269) -/

/-- The arena's bytes, a multiple of 2 MiB. -/
def arenaOf (c : Cmd) : Nat := alignUp (c.b 48 8) MiB2

def createConds (s : State) (c : Cmd) : List Nat :=
  let k := c.b 32 1
  let run := k == 0 || k == 2
  let slot := c.b 8 4
  let reg := ceilDiv (4096 + c.b 35 1 * 32768) 0x100000
  [cond (decide (2 < k) || decide (1 < c.b 33 1) || decide (15 < c.b 34 1) || (c.b 40 2 != 0xFFFF && decide (1023 < c.b 40 2))
      || decide (3 < c.b 45 1) || decide (2 ^ 40 < c.b 48 8) || (slot != 0xFFFFFFFF && decide (1023 < slot))) 0x1002,
   cond (run && (c.b 35 1 == 0 || decide (32 < c.b 35 1) || c.b 36 4 == 0 || c.b 43 1 == 0 || decide (24 < c.b 43 1) || decide (c.b 43 1 < reg))) 0x1002,
   cond (k == 1 && (c.b 64 4 % 64 != 0 || c.b 64 4 == 0 || decide (1048576 < c.b 64 4) || c.b 68 4 == 0 || decide (65536 < c.b 68 4) || c.b 56 8 % 64 != 0)) 0x1002,
   cond (run && (bitList (c.b 36 4) 32).any (fun r => !enabled s r)) 0x1004,
   cond (bit (c.b 45 1) 1 && !hasKv4 s) 0x1004,
   cond (slot != 0xFFFFFFFF && (findCtx s slot).isSome) 0x1003,
   cond (slot == 0xFFFFFFFF && decide (1024 ≤ s.sched.ctxs.length)) 0x2003,
   cond (k == 1 && (c.b 33 1 != 0 || c.b 35 1 != 0 || c.b 36 4 != 0 || c.b 42 1 != 0 || c.b 43 1 != 0)) 0x1003,
   cond (run && (bit (c.b 45 1) 0 || c.b 46 2 != 0xFFFF || c.b 56 8 != 0 || c.b 64 4 != 0 || c.b 68 4 != 0 || c.b 72 8 != 0 || c.b 80 8 != 0)) 0x1003,
   cond (k == 1 && (match findCtx s (c.b 46 2) with | some l => l.kind != 2 || l.nsid != c.nsid | none => true)) 0x1003,
   cond (k == 1 && decide ((arenaOf c - c.b 56 8) / max (c.b 64 4) 1 < 1)) 0x1003,
   cond (k == 1 && (bit (c.b 45 1) 0 == (c.b 72 8 == 0))) 0x1003] ++ dieConds s (c.b 44 1)

/-- CTX_CREATE (R267-R270). -/
def execCtxCreate (c : CmdId) (s : State) : Host.Outcome State Fault Refusal :=
  .next (runCmd s c (isOp 0x60) [(32, 56)] (createConds s) fun s c =>
    let slot := if c.b 8 4 = 0xFFFFFFFF then ((List.range 1024).find? (fun i => (findCtx s i).isNone)).getD 0 else c.b 8 4
    let d := domOf c.nsid
    match allocArea s (.arena d slot) false (pickDie s (c.b 44 1)) (arenaOf c / MiB2) with
    | (s, .error e) => complete s c.no 0x2001 0 0 e
    | (s, .ok a) =>
      let k := c.b 32 1
      let x : Ctx := {
        slot := slot, st := if k = 1 then .state else .idle, kind := k, nsid := c.nsid, rslot := c.b 33 1, prio := c.b 34 1, rills := c.b 35 1
        reaches := c.b 36 4, group := c.b 40 2, accMask := c.b 42 1, scratch := c.b 43 1, die := c.b 44 1, auto := bit (c.b 45 1) 0
        kv4 := bit (c.b 45 1) 1, leader := c.b 46 2, arena := a, arenaBytes := arenaOf c, kvOffset := c.b 56 8, tokenBytes := c.b 64 4
        segTokens := c.b 68 4, imageId := c.b 72 8, sourceId := c.b 80 8, curImage := 0, tokens := 0, hold := false
        block := if k = 1 then 0 else 1, blockedSince := cyc s 57, readySince := 0, residentSince := 0, lastStep := cyc s 57, faults := 0
        launches := [], save := [], quotaRefused := false, entered := false, imgOp := 0, imgNo := 0, imgFormat := 0, imgRelease := false
        imgSource := 0, imgTokens := 0, imgId := 0, imgFetchAt := 0, imgDeadline := 0, imgExpired := false, imgUnit := 0, imgUnits := 0
        imgBytes := 0, imgSegs := 0, saving := false, forced := false, destroy := 0 }
      let l := s.sched.ctxs
      let s := { s with sched := { s.sched with ctxs := l.takeWhile (fun y => y.slot < slot) ++ x :: l.dropWhile (fun y => y.slot < slot) } }
      complete (noteBlock s slot) c.no 0 a slot)

/-! ### Batch steps (R288, R289) -/

/-- Members of a step list: entries of 32 bytes after the header (R288). -/
def stepEntries (buf : List Byte) : List (List Byte) := (List.range (le buf 0 2)).map (fun i => slice buf (16 + 32 * i) 32)

/-- A member that may be taken by a step: no earlier step of any launch lists it. -/
def takenEarlier (s : State) (ctx lid m : Nat) : Bool :=
  s.sched.ctxs.any (fun c => c.launches.any (fun l => (c.slot != ctx || l.id != lid) && decide (l.id < lid) && l.members.any (fun x => x.1 == m)))

/-- Moves a step's members on: those in STATE are present, imaged ones are loaded, others are waited for; a load that its checks or
the headgate refuse has failed (R289). -/
def stepMembers (s : State) (ctx lid : Nat) : State :=
  match findLaunch s ctx lid with
  | none => s
  | some l =>
    l.members.foldl (fun s m =>
      match m with
      | (slot, _, toks, _, _, false) =>
        let upd (s : State) (before st : Nat) : State := updLaunch s ctx lid (fun l => { l with
          members := l.members.map (fun x => if x.1 = slot then (x.1, x.2.1, x.2.2.1, before, st, true) else x) })
        match findCtx s slot with
        | none => upd s 0 0x1003
        | some x =>
          if takenEarlier s ctx lid slot then s
          else if x.st = .state then upd s x.tokens (if x.capacity < x.tokens + toks then 0x1003 else 0)
          else if x.st = .imaged then
            if firstOf (loadConds s x x.curImage 0) ≠ 0 then upd s 0 0x3001
            else
              (match startLoad s slot 4 0 x.curImage 0 l.deadline with
               | (s, .ok _) => s
               | (s, .error _) => upd s 0 0x3001)
          else s
      | _ => s) s

/-- The outcome of a load made for a step is told to the steps that wait for it: 0, 0x0002 by the spillway, else 0x3001, with the
tokens loaded; tokens that then exceed the member's capacity give 0x1003 (R289). -/
def stepLoaded (s : State) (slot st toks : Nat) : State :=
  let cap := ((findCtx s slot).map Ctx.capacity).getD 0
  let status (more : Nat) : Nat := if st = 0 ∧ cap < toks + more then 0x1003 else if st = 0 ∨ st = 2 then st else 0x3001
  { s with sched := { s.sched with ctxs := s.sched.ctxs.map (fun c => { c with launches := c.launches.map (fun l => { l with
      members := l.members.map (fun x =>
        if x.1 = slot ∧ x.2.2.2.2.2 = false ∧ takenEarlier s c.slot l.id slot = false then (x.1, x.2.1, x.2.2.1, toks, status x.2.2.1, true) else x) }) }) } }

/-- The step buffer with the device's fields filled (R288). -/
def fillStep (s : State) (l : Launch) : List Byte :=
  l.members.zipIdx.foldl (fun b m =>
    let a := ((findCtx s m.1.1).map (·.arena)).getD 0
    patch b (16 + 32 * m.2 + 8) (toBytes 8 a ++ toBytes 4 m.1.2.2.2.1 ++ toBytes 2 m.1.2.2.2.2.1)) l.buffer

/-- STEP_MEMBERS_PRESENT (R289): once every member is present the list is filled, the buffer copied and rills may start. -/
def execStepMembersPresent (ctx : Nat) (launch : Finding Nat) (s : State) : Host.Outcome State Fault Refusal :=
  .next (
    match findLaunch s ctx launch.of with
    | none => s
    | some l =>
      if l.ready then s
      else
        let s := stepMembers s ctx launch.of
        match findLaunch s ctx launch.of with
        | none => s
        | some l =>
          if l.members.all (·.2.2.2.2.2) then
            let s := if extPoisoned s l.argDest l.buffer.length then s else wrBytes (stackWrite (edgeFinds s launch.bad launch.fixed l.argDest l.buffer.length) 6 l.argDest l.buffer.length) l.argDest (fillStep s l)
            noteBlock (updLaunch s ctx launch.of (fun l => { l with ready := true })) ctx
          else s)

/-! ### CTX_LAUNCH (R212, R288) -/

def launchConds (s : State) (c : Cmd) : List Nat :=
  let n := c.bufBytes
  match cmdCtx s c with
  | none => [0x1003]
  | some x =>
    let d := domOf c.nsid
    -- entries that lie within the buffer
    let es := (stepEntries c.data).take ((n - 16) / 32)
    let k (e : List Byte) : Nat := le e 2 1
    let batch : List Nat := if x.kind ≠ 2 then [] else
      if n < 16 then [0x1003] else
      [cond (le c.data 0 2 == 0 || decide (256 < le c.data 0 2) || !allZero (slice c.data 2 14)) 0x1002,
       cond (decide (n < 16 + 32 * le c.data 0 2)) 0x1003,
       cond (es.any (fun e => decide (1 < k e) || le e 3 1 != 0 || !allZero (slice e 22 10)
         || (k e == 0 && le e 4 4 != 1) || (k e == 1 && (le e 4 4 == 0 || decide (getF s 57 F.SCHED_BATCH_CHUNK < le e 4 4))))) 0x1002,
       cond (!(es.map (fun e => le e 0 2)).Nodup) 0x1003,
       cond (es.any (fun e => match findCtx s (le e 0 2) with | some m => m.kind != 1 || m.leader != x.slot | none => true)) 0x1003,
       cond (decide (getF s 57 F.SCHED_BATCH_MAX_DECODE < (es.filter (fun e => k e == 0)).length)) 0x1003,
       cond (decide (getF s 57 F.SCHED_BATCH_CHUNK < ((es.filter (fun e => k e == 1)).map (fun e => le e 4 4)).foldl (· + ·) 0)) 0x1003]
    [cond (c.b 32 8 % 8 != 0 || c.b 44 1 / 16 != 0 || c.b 45 1 == 0 || (n != 0 && c.b 56 8 % 64 != 0) || c.b 64 8 % 64 != 0) 0x1002,
     cond (c.b 64 8 == 0 && c.b 72 2 != 0) 0x1002,
     cond (c.b 64 8 != 0 && !(List.range 9).any (fun i => c.b 72 2 == 16 * 2 ^ i)) 0x1002,
     cond (decide (65536 < n)) 0x1003,
     cond (x.kind == 1 || c.b 40 4 == 0 || c.b 44 1 == 0 || decide (x.rills < c.b 45 1) || (c.b 40 4 &&& x.reaches) != c.b 40 4 || x.destroy != 0) 0x1003,
     cond (decide (4 ≤ x.launches.length)) 0x2002,
     cond (!entryOk s d (c.b 32 8)) 0x4004,
     cond (n != 0 && !stackRange s d (c.b 56 8) n) 0x4004,
     cond (x.kind != 2 && n != 0 && extPoisoned s (c.b 56 8) n) 0x4001,
     cond (c.b 64 8 != 0 && !stackRange s d (c.b 64 8) (32 * c.b 72 2)) 0x4004] ++ batch

/-- CTX_LAUNCH (R212, R288): the buffer is copied at once, or once a step's members are present. -/
def execCtxLaunch (id : Finding CmdId) (s : State) : Host.Outcome State Fault Refusal :=
  .next (runCmd s id.of (isOp 0x62) [(32, 14), (48, 26)] (launchConds s) fun s c =>
    match cmdCtx s c with
    | none => s
    | some x =>
      let step := x.kind == 2
      let buf := c.data.take c.bufBytes
      let no := s.sched.nextLaunch
      let l : Launch := { blankLaunch with
        no := c.no, entry := c.b 32 8, arg := c.b 48 8, reaches := c.b 40 4, runnels := c.b 44 1, rills := c.b 45 1, ring := c.b 64 8
        ringSize := c.b 72 2, toStart := launchRills (c.b 40 4) (c.b 44 1) (c.b 45 1), ready := !step, argDest := c.b 56 8, buffer := buf
        deadline := c.b 12 4
        members := if step then (stepEntries buf).map (fun e => (le e 0 2, le e 2 1, le e 4 4, 0, 0, false)) else [] }
      let s := if step ∨ buf.isEmpty then s else wrBytes (stackWrite (edgeFinds s id.bad id.fixed (c.b 56 8) buf.length) 6 (c.b 56 8) buf.length) (c.b 56 8) buf
      let s := addLaunch s x.slot l
      noteBlock (stepMembers s x.slot no) x.slot)

/-! ### CTX_SET_PRIORITY, CTX_QUERY (R272, R274) -/

/-- CTX_SET_PRIORITY (R272). -/
def execCtxSetPriority (c : CmdId) (s : State) : Host.Outcome State Fault Refusal :=
  .next (runCmd s c (isOp 0x63) [(32, 2)]
    (fun c => [cond (cmdCtx s c).isNone 0x1003, cond (decide (15 < c.b 32 1) || decide (1 < c.b 33 1)) 0x1002]) fun s c =>
    let s := updCtx s (c.b 8 4) (fun x => { x with prio := c.b 32 1, hold := c.b 33 1 == 1 })
    complete (noteBlock s (c.b 8 4)) c.no 0)

/-- STATE codes (R270). -/
def CtxSt.code : CtxSt → Nat
  | .free => 0 | .idle => 1 | .ready => 2 | .resident => 3 | .leaving => 4 | .entering => 5 | .state => 6 | .imaging => 7 | .imaged => 8

/-- The 64-byte record of R274. -/
def ctxRecord (s : State) (c : Ctx) : List Byte :=
  toBytes 1 c.st.code ++ toBytes 1 (blockNow s c) ++ toBytes 1 c.prio ++ toBytes 1 c.kind ++ toBytes 1 c.rslot ++ toBytes 1 (domOf c.nsid)
    ++ toBytes 2 c.group ++ toBytes 4 c.reaches ++ toBytes 4 (b2n c.hold) ++ toBytes 8 c.arena
    ++ toBytes 8 ((c.save.head?.map (·.addr)).getD 0) ++ toBytes 8 c.blockedSince ++ toBytes 4 c.tokens ++ toBytes 4 c.launches.length
    ++ toBytes 8 c.curImage ++ toBytes 4 c.faults ++ toBytes 4 0

/-- CTX_QUERY (R274). -/
def execCtxQuery (c : CmdId) (s : State) : Host.Outcome State Fault Refusal :=
  .next (runCmd s c (isOp 0x66) [] (fun c => [cond (cmdCtx s c).isNone 0x1003, cond (c.isList || c.bufBytes != 64) 0x1003]) fun s c =>
    match cmdCtx s c with
    | none => s
    | some x => complete (toHost s c (ctxRecord s x)) c.no 0)

/-! ### CTX_DESTROY (R273) -/

/-- The context's launches end with 0x2006; a context it leads loses nothing. -/
def endLaunches (s : State) (slot : Nat) : State :=
  match findCtx s slot with
  | none => s
  | some c =>
    let s := updCtx s slot (fun c => { c with launches := [] })
    c.launches.foldl (fun s l => launchEnd s l 0x2006 0 [] []) s

/-- An image operation is abandoned (R273): a version being written is released, a fetch ended. -/
def dropImageOp (s : State) (c : Ctx) : State :=
  if c.imgOp = 0 then s
  else
    let s := if c.imgOp = 1 ∨ c.imgOp = 3 then releaseStorage s c.newImage else dropFetch s c.imgFetchAt
    let s := if c.imgNo ≠ 0 then complete s c.imgNo 0x2006 else s
    updCtx s c.slot (fun c => { c with imgOp := 0, imgNo := 0 })

/-- Steps 3 to 7 of R273: rills and launches of a context end, its memory and its slot are freed. -/
def tearDown (s : State) (c : Ctx) : State :=
  let slot := c.slot
  let s := { s with runnels := { s.runnels with
    rills := s.runnels.rills.filter (fun p => p.2.ctx != slot), saved := s.runnels.saved.filter (fun p => p.2.ctx != slot)
    signals := s.runnels.signals.filter (fun p => p.1 / 2048 != slot), barriers := s.runnels.barriers.filter (fun p => p.1 / 512 != slot) } }
  let s := dropImageOp (endLaunches s slot) c
  let s := if c.holds then releaseSlots s c else s
  let s := freeSave (if c.hasArena then freeArea s c.arena (c.arenaBytes / MiB2) false else s) c
  owe { s with sched := { s.sched with ctxs := s.sched.ctxs.filter (fun x => x.slot != slot) } } false

/-- R273, once no unit operation is left; the slot is FREE and CTX_DESTROY completes last. -/
def finishDestroy (s : State) (slot : Nat) : State :=
  match findCtx s slot with
  | none => s
  | some c =>
    if c.destroy = 0 ∨ unitsBusy s slot = true ∨ c.launches.any (fun l => decide (0 < l.ops)) = true then s
    else
      complete (tearDown s c) c.destroy 0

/-- CTX_DESTROY (R273): the context's rills issue no more unit operations; the command waits for those under way, which a
later CONTEXT_DRAIN_END reports. -/
def execCtxDestroy (c : CmdId) (s : State) : Host.Outcome State Fault Refusal :=
  .next (runCmd s c (isOp 0x61) []
    (fun c => match cmdCtx s c with
      | none => [0x1003]
      | some x => [cond (x.kind == 2 && s.sched.ctxs.any (fun y => y.kind == 1 && y.leader == x.slot)) 0x1003,
                   cond (x.kind == 1 && listed s x.slot) 0x1003, cond (x.destroy != 0) 0x1003]) fun s c =>
    finishDestroy (updCtx s (c.b 8 4) (fun x => { x with destroy := c.no })) (c.b 8 4))

/-! ### Images (R290-R294) -/

/-- Both are image commands on one context: they run in arrival order (R294). -/
def sameImageCtx (x c : Cmd) : Bool := (x.opcode == 0x64 || x.opcode == 0x65) && x.nsid == c.nsid && x.b 8 4 == c.b 8 4

/-- Ends a save or load: the context's operation fields clear. -/
def clearImg (s : State) (slot : Nat) : State := updCtx s slot (fun c => { c with imgOp := 0, imgNo := 0 })

/-- CTX_IMAGE_SAVE (R290, R418): it waits for steps that list the context and for an image operation under way (R294). `bad`:
codewords the save found uncorrectable (R417). -/
def execCtxImageSave (id : Finding CmdId) (s : State) : Host.Outcome State Fault Refusal :=
  .next (
    let idle (c : Cmd) : Bool := match cmdCtx s c with | some x => x.st != .imaging && !listed s x.slot | none => true
    if behind s id.of sameImageCtx then s else runCmd s id.of (fun c => c.opcode == 0x64 && idle c) [(32, 10), (48, 8)]
      (fun c => match cmdCtx s c with
        | none => [0x1003]
        | some x =>
          [cond (x.st != .state) 0x1003, cond (c.b 32 8 == 0 || c.b 32 8 == 2 ^ 64 - 1 || decide (1 < c.b 40 1) || decide (1 < c.b 41 1)) 0x1002,
           cond (c.b 40 1 == 1 && !hasKv4 s) 0x1004, cond (roStatus s != 0) (roStatus s),
           cond (match findObj s c.nsid (c.b 32 8) with
             | some o => o.mtype != 7
             | none => tombed s c.nsid (c.b 32 8) || s.mem.windows.any (fun w => w.nsid == c.nsid && w.obj == c.b 32 8)) 0x1003,
           cond ((findObj s c.nsid (c.b 32 8)).isNone && decide (2 ^ 32 ≤ s.search.objs.length)) 0x2007]) fun s c =>
      let slot := c.b 8 4
      match findCtx s slot with
      | none => s
      | some x =>
        if x.tokens = 0 then
          let s := if c.b 41 1 = 1 then updCtx (releaseArena s slot) slot (fun x => { x with curImage := 0 }) else s
          complete s c.no 0
        else
          match startSave s slot 1 c.no (c.b 32 8) (c.b 40 1) (if c.b 48 8 = 0 then x.sourceId else c.b 48 8) (c.b 41 1 == 1) id.bad id.fixed with
          | (s, 0, _) => s
          | (s, st, d) => complete s c.no st 0 0 d)

/-- IMAGE_SAVE_COMPLETE (R290, R293): every unit of the new version is on media, or one could not be placed. -/
def execImageSaveComplete (ctx : Nat) (s : State) : Host.Outcome State Fault Refusal :=
  .next (
    match findCtx s ctx with
    | none => s
    | some c =>
      if c.imgOp ≠ 1 ∧ c.imgOp ≠ 3 then s
      else
        let o := c.newImage
        let lo := luaOf (64 + c.nsid) c.imgUnit
        let bad := s.flash.map.any (fun p => decide (lo ≤ p.1) && decide (p.1 < lo + c.imgUnits) && p.2 == .lost)
        if bad then
          let s := updCtx (clearImg (releaseStorage s o) ctx) ctx (fun c => { c with st := .state, lastStep := if c.imgOp = 3 then cyc s 57 else c.lastStep })
          let s := if c.imgOp = 3 then addF (updCtx s ctx (fun c => { c with lastStep := cyc s 57 })) 57 F.SCHED_AUTO_IMAGE_FAILED 1 else s
          if c.imgOp = 1 then complete s c.imgNo 0x3002 else s
        else if !onMedia s o then s
        else
          let s := clearImg (updCtx (registerImage s c) ctx (fun c => { c with curImage := c.imgId, st := .state })) ctx
          let s := if c.imgRelease then releaseArena s ctx else s
          if c.imgOp = 1 then complete s c.imgNo 0 c.imgBytes c.imgSegs else addF s 57 F.SCHED_AUTO_IMAGE_DONE 1)

/-- CTX_IMAGE_LOAD (R291). -/
def execCtxImageLoad (c : CmdId) (s : State) : Host.Outcome State Fault Refusal :=
  .next (
    let idle (c : Cmd) : Bool := match cmdCtx s c with | some x => x.st != .imaging && !listed s x.slot | none => true
    let img (c : Cmd) (x : Ctx) : Nat := if c.b 32 8 = 0 then x.curImage else c.b 32 8
    if behind s c sameImageCtx then s else runCmd s c (fun c => c.opcode == 0x65 && idle c) [(32, 12)]
      (fun c => match cmdCtx s c with
        | none => [0x1003]
        | some x =>
          [cond (x.st != .state && x.st != .imaged) 0x1003, cond (c.b 32 8 == 0 && x.curImage == 0 && x.st != .imaged) 0x1003] ++
          loadConds s x (img c x) (c.b 40 4)) fun s c =>
      match cmdCtx s c with
      | none => s
      | some x =>
        match startLoad s x.slot 2 c.no (img c x) (c.b 40 4) (c.b 12 4) with
        | (s, .ok _) => s
        | (s, .error e) => complete s c.no 0x2001 0 0 e)

/-- IMAGE_LOAD_COMPLETE (R291, R292): `upto` segments arrived before the first the media or the deadline kept away. -/
def execImageLoadComplete (ctx : Nat) (upto : Nat) (s : State) : Host.Outcome State Fault Refusal :=
  .next (
    match findCtx s ctx with
    | none => s
    | some c =>
      if c.imgOp ≠ 2 ∧ c.imgOp ≠ 4 then s
      else
        let r := loadResult s c upto
        -- the arena's extent is lost: a bus error, and nothing is written (R139)
        let r := if 0 < r.2.2.2.length ∧ extPoisoned s c.kvAddr r.2.2.2.length then (0x4001, 0, 0, []) else r
        let s := dropFetch s c.imgFetchAt
        let o := findObj s c.nsid c.imgId
        let was := (o.map (·.quarantined)).getD false
        -- data lost on media quarantines the image (R131)
        let lost := match o with
          | some o => lostIn s o 0 o.size
          | none => []
        let s := match o with | some o => if lost.isEmpty then s else quarantine s o lost | none => s
        let cause := if was then 3 else if c.imgExpired then 1 else 2
        let s := match o with | some o => flashMoved s (fun _ => (dieOfExt s (c.kvAddr / MiB2)).getD 0) (objParts o 0 o.size) | none => s
        let s := wrBytes (stackWrite s 6 c.kvAddr r.2.2.2.length) c.kvAddr r.2.2.2
        let s := clearImg (updCtx s ctx (fun x => { x with
          st := .state, tokens := if r.1 = 0 ∨ r.1 = 2 then r.2.1 else x.tokens
          curImage := if (r.1 = 0 ∨ r.1 = 2) ∧ c.imgId ≠ 0 then c.imgId else x.curImage })) ctx
        let s := if r.1 = 2 then addF s 57 F.TM_SPILL_COUNT 1 else s
        let s := if c.imgOp = 2 then
            complete s c.imgNo r.1 r.2.1 (if r.1 = 2 then r.2.2.1 else 0) (if r.1 = 2 then 3 + 65536 * cause else 0)
          else s
        if c.imgOp = 4 then stepLoaded s ctx r.1 (if r.1 = 0 ∨ r.1 = 2 then r.2.1 else 0) else s)

/-- CONTEXT_COLD (R293): at most four automatic saves at a time, coldest first. `bad`: codewords the save found uncorrectable (R417). -/
def execContextCold (ctx : Finding Nat) (s : State) : Host.Outcome State Fault Refusal :=
  .next (
    match findCtx s ctx.of with
    | none => s
    | some c =>
      let cold := getF s 57 F.SCHED_COLD_COLD
      let busy := (s.sched.ctxs.filter (fun x => x.imgOp == 3)).length
      let isCold (x : Ctx) : Bool := x.kind == 1 && x.auto && x.st == .state && !listed s x.slot && x.destroy == 0
        && decide (x.lastStep + cold * 1048576 ≤ cyc s 57)
      if cold = 0 ∨ 4 ≤ busy ∨ isCold c = false ∨ s.sched.ctxs.any (fun x => isCold x && decide (x.lastStep < c.lastStep)) = true then s
      else
        let fail (s : State) : State := addF (updCtx s ctx.of (fun c => { c with lastStep := cyc s 57 })) 57 F.SCHED_AUTO_IMAGE_FAILED 1
        if c.tokens = 0 then addF (updCtx (releaseArena s ctx.of) ctx.of (fun x => { x with curImage := 0 })) 57 F.SCHED_AUTO_IMAGE_DONE 1
        else if roStatus s ≠ 0 ∨ (match findObj s c.nsid c.imageId with | some o => o.mtype != 7 | none => tombed s c.nsid c.imageId) = true then fail s
        else
          match startSave s ctx.of 3 0 c.imageId (b2n c.kv4) c.sourceId true ctx.bad ctx.fixed with
          | (s, 0, _) => s
          | (s, _, _) => fail s)

/-! ### Rills and launches (R213, R215) -/

/-- Rill slots a residency slot owns (R209; DESIGN CHOICE notes/assumptions 17): slot 0 the lowest, slot 1 the highest. -/
def Ctx.ownsSlot (c : Ctx) (slot : Nat) : Bool := if c.rslot = 0 then decide (slot < c.rills) else decide (32 - c.rills ≤ slot) && decide (slot < 32)

/-- RILL_START (R213): the next rill of the oldest launch with one to start on the runnel, in a free slot of the context. -/
def execRillStart (reach runnel slot ctx : Nat) (s : State) : Host.Outcome State Fault Refusal :=
  .next (
    match findCtx s ctx with
    | none => s
    | some c =>
      let k := rillKey reach runnel slot
      let here (i : Nat) : Bool := i / 32 == reach * 4 + runnel
      if c.st ≠ .resident ∨ reachLive s reach = false ∨ 4 ≤ runnel ∨ c.ownsSlot slot = false ∨ bit c.reaches reach = false
          ∨ (getRill s k).isSome = true ∨ turnHolds s reach c = true ∨ c.destroy ≠ 0 then s
      else
        match c.launches.find? (fun l => l.toStart.any here) with
        | none => s
        | some l =>
          if l.ready = false then s
          else
            match l.toStart.find? here with
            | none => s
            | some i =>
              let regs := (List.range 32).foldl (fun m th =>
                mset 0 (mset 0 m (th * 64) (l.arg % 2 ^ 32)) (th * 64 + 1) (l.arg / 2 ^ 32)) ([] : NMap Nat)
              let r : Rill := {
                uid := s.runnels.nextUid, ctx := ctx, launch := l.id, rslot := c.rslot, rank := i % 32, reachRank := popCount l.reaches reach
                runnelRank := popCount l.runnels runnel, nthreads := popCount l.reaches 32 * popCount l.runnels 4 * l.rills * 32
                rills := l.rills, pc := l.entry, active := 2 ^ 32 - 1, rcv := 0, regs := regs }
              let s := putRill { s with runnels := { s.runnels with nextUid := s.runnels.nextUid + 1 } } k r
              noteBlock (updLaunch s ctx l.id (fun l => { l with toStart := l.toStart.erase i, running := l.running + 1 })) ctx)

/-- The members of a completed step whose load succeeded move on (R289). -/
def stepDone (s : State) (l : Launch) : State :=
  l.members.foldl (fun s m =>
    if m.2.2.2.2.1 = 0 then updCtx s m.1 (fun c => { c with tokens := m.2.2.2.1 + m.2.2.1, lastStep := cyc s 57 }) else s) s

/-- LAUNCH_COMPLETE (R215, R289): every rill has exited or stopped and every unit operation has completed. `bad`: uncorrectable
codewords of the result a search or a Risal command then reads (R417). -/
def execLaunchComplete (ctx : Nat) (launch : Finding Nat) (s : State) : Host.Outcome State Fault Refusal :=
  .next (
    match findLaunch s ctx launch.of with
    | none => s
    | some l =>
      if l.ready = false ∨ l.toStart ≠ [] ∨ l.running ≠ 0 ∨ l.ops ≠ 0 then s
      else
        let s := updCtx s ctx (fun c => { c with launches := c.launches.filter (fun x => x.id != launch.of) })
        let s := { s with runnels := { s.runnels with departed := s.runnels.departed.filter (fun p => p.1 / 32 != launch.of) } }
        let s := launchEnd (stepDone s l) l (if l.faults = 0 then 0 else l.status) l.detail launch.bad launch.fixed
        wakeRerank (noteBlock (owe s false) ctx) ctx)

end Sys2Proof.Machine
end

