-- ==== Sys2Proof/Machine/DqpCmd.lean ====
section
/-!
DEFINITION. Machine/DqpCmd.lean: starting and stopping DQP (R69, R522), the fetch of commands (R72), and the queue commands
of the admin pair (R70, R79, R80).
-/
namespace Sys2Proof.Machine

/-! ### DQP on and off -/

def joinLoHi (s : State) (lo hi : Field) : Nat := getF s 56 lo * 2 ^ lo.lo + getF s 56 hi * 2 ^ 32

/-- EN = 1 starts DQP: the admin pair exists; RDY once start-up has reached DQP ready (R69, R73). -/
def dqpStart (s : State) : State :=
  if getF s 56 F.DQP_CTRL_EN = 1 then s
  else
    let s := setF s 56 F.DQP_CTRL_EN 1
    let sq : Sq := ⟨0, 0, 0, joinLoHi s F.DQP_SQ_BASE_LO_ADDR F.DQP_SQ_BASE_HI_ADDR, getF s 56 F.DQP_AQ_SIZE_ASQ_ENTRIES, 0, 0, 0⟩
    let cq : Cq := ⟨0, joinLoHi s F.DQP_CQ_BASE_LO_ADDR F.DQP_CQ_BASE_HI_ADDR, getF s 56 F.DQP_AQ_SIZE_ACQ_ENTRIES, 0, 0, 0, 0, 0, true, [], 0⟩
    let s := updDqp s fun d => { d with sqs := [sq], cqs := [cq] }
    setF s 56 F.DQP_STATUS_RDY (b2n s.boot.ready)

/-- A session ends: queued and held flits and what waits in receive buffers are gone (R522). -/
def endSession (s : State) : State :=
  updLink s fun l => { l with
    session := false, hostInit := false, txSeq := 0, rxSeq := 0, credits := 0, k := 0, freed := 0, ackSent := 4095, freedSent := 0
    held := [], queue := [], outbox := [], rxBuf := [], lastNak := none }

/-- EN = 0 abandons every command and deletes the queues (R69); queued flits go with their commands (R522). -/
def dqpStop (s : State) : State :=
  if getF s 56 F.DQP_CTRL_EN = 0 then s
  else
    let s := setF (setF s 56 F.DQP_CTRL_EN 0) 56 F.DQP_STATUS_RDY 0
    let s := updDqp s fun d => { d with sqs := [], cqs := [], cmds := [], pulls := [] }
    if s.link.l0 then
      updLink s fun l => { l with queue := ((l.queue ++ l.outbox).filter (fun f => f.ty == 4)).take 512
                                  outbox := ((l.queue ++ l.outbox).filter (fun f => f.ty == 4)).drop 512 }
    else endSession s

/-! ### COMMAND_FETCH (R72) -/

/-- The SQ holds an entry, its CQ takes completions, and it is not being deleted. -/
def fetchable (s : State) (q : Sq) : Bool :=
  q.head != q.tail
    && (match findCq s q.cqid with | some c => c.waiting.isEmpty && decide (0 < c.room) | none => false)
    && !s.dqp.cmds.any (fun c => c.phase == .started && c.opcode == 2 && c.b 32 2 == q.qid && c.sqid == 0)

/-- The SQ of a class whose turn it is after `last`. -/
def nextInClass (s : State) (cls last : Nat) : Option Sq :=
  let l := s.dqp.sqs.filter (fun q => q.qid != 0 && q.prio == cls && fetchable s q)
  match l.find? (fun q => last < q.qid) with
  | some q => some q
  | none => l.head?

/-- The class served next: the first with credit left and work; credits are renewed when none is. -/
def pickClass (s : State) (cr : List Nat) : Option (Nat × Sq) :=
  ([0, 1, 2, 3].filterMap (fun c => if 0 < cr.getD c 0 then (nextInClass s c (s.dqp.rrLast.getD c 0)).map (fun q => (c, q)) else none)).head?

/-- An entry to DP3 is under way (R86, R87). -/
def enteringDp3 (s : State) : Bool := match s.dqp.pwr with | .entering 3 _ _ _ _ => true | _ => false

/-- Pulls the next entry of an SQ. -/
def fetchFrom (s : State) (q : Sq) : State :=
  let h := (q.head + 1) % max q.entries 1
  let no := s.dqp.nextNo
  let s := updDqp (updSq s q.qid (fun x => { x with head := h })) fun d => { d with nextNo := no + 1 }
  pullRanges (countEv s 56 0x62 0 1) [(q.base + 128 * q.head, 128)] (.entry q.qid no h)

/-- COMMAND_FETCH (R72, R442): the admin SQ first, then the classes in weighted round-robin. -/
def execCommandFetch (s : State) : Host.Outcome State Fault Refusal :=
  .next (
    if getF s 56 F.DQP_STATUS_RDY = 1 ∧ (running s || enteringDp3 s) = true ∧ linkRoom s = true ∧ s.boot.haltWait = false then
      match (findSq s 0).filter (fetchable s) with
      | some q => fetchFrom s q
      | none =>
        match pickClass s s.dqp.wrr with
        | some (c, q) =>
          fetchFrom (updDqp s fun d => { d with wrr := updAt d.wrr c (· - 1), rrLast := d.rrLast.set c q.qid }) q
        | none =>
          match pickClass s [8, 4, 2, 1] with
          | some (c, q) =>
            fetchFrom (updDqp s fun d => { d with wrr := updAt [8, 4, 2, 1] c (· - 1), rrLast := d.rrLast.set c q.qid }) q
          | none => s
    else s)

/-- CQ_COALESCE_TIMEOUT (R73): COAL_TIME has elapsed since the oldest unsignalled completion. -/
def execCqCoalesceTimeout (cqid : Nat) (s : State) : Host.Outcome State Fault Refusal :=
  .next (
    match findCq s cqid with
    | none => s
    | some c => if 0 < c.unsignalled then interrupt (updCq s cqid (fun c => { c with unsignalled := 0 })) c.vector else s)

/-! ### Queue commands (R70, R79, R80) -/

/-- CAP_FEATURE (R50): variant, media, KV4, Risal. -/
def capFeature (s : State) : Nat :=
  (match s.variant with | .dm9140 => 0 | .dm9120 => 1 | .dm9140N => 2 | .dm9110 => 3)
    + 16 * b2n (s.variant != .dm9140N) + 32 * b2n (s.variant != .dm9140N) + 64 * b2n (s.boot.applied && s.boot.info.risal)

/-- IDENTIFY (R79). -/
def execIdentify (id : CmdId) (s : State) : Host.Outcome State Fault Refusal :=
  .next (runCmd s id (isOp 0x00) [] (fun c => [roomFor c 4096]) fun s c =>
    let rec' := toBytes 4 (capFeature s) ++ toBytes 1 s.link.modules ++ toBytes 3 0
      ++ ((List.range 64).map (fun n => toBytes 8 (nsBlocks s (n + 1)))).flatten ++ List.replicate 3576 0
    complete (toHost s c rec') c.no 0)

/-- CREATE_SQ (R70, R79): the namespace it binds is the NSID it carries, 1 when that is 0. -/
def execCreateSq (id : CmdId) (s : State) : Host.Outcome State Fault Refusal :=
  .next (runCmd s id (isOp 0x01) [(32, 2), (34, 2), (36, 4), (40, 1)]
    (fun c =>
      let n := c.b 36 4
      let ns := if c.b 4 4 = 0 then 1 else c.b 4 4
      [cond (c.b 32 2 == 0 || decide (1023 < c.b 32 2)) 0x1002, cond (decide (n < 2) || decide (4096 < n)) 0x1002,
       cond (decide (3 < c.b 40 1)) 0x1002, cond (c.b 16 8 % 4096 != 0) 0x1002,
       cond (c.isList || c.b 24 4 != n * 128) 0x1003, cond (c.b 34 2 == 0 || (findCq s (c.b 34 2)).isNone) 0x1003,
       cond (findSq s (c.b 32 2)).isSome 0x1003, cond (!domExists s (ns - 1)) 0x1003])
    fun s c =>
      let ns := if c.b 4 4 = 0 then 1 else c.b 4 4
      let q : Sq := ⟨c.b 32 2, c.b 34 2, ns, c.b 16 8, c.b 36 4, c.b 40 1, 0, 0⟩
      complete (updDqp s fun d => { d with sqs := insSq d.sqs q }) c.no 0)

/-- DELETE_SQ (R70): unstarted commands of the queue end with 0x2005; it completes after the started ones. An entry whose pull is
under way is not fetched yet: it is dropped without a completion (DESIGN CHOICE, notes/assumptions 13). -/
def execDeleteSq (id : CmdId) (s : State) : Host.Outcome State Fault Refusal :=
  .next (runCmd s id (isOp 0x02) [(32, 2)] (fun c => [cond (c.b 32 2 == 0 || (findSq s (c.b 32 2)).isNone) 0x1003]) fun s c =>
    let q := c.b 32 2
    let s := updDqp s fun d => { d with pulls := d.pulls.filter (fun p => match p.what with | .entry n _ _ => n != q | _ => true) }
    finishDeletes ((s.dqp.cmds.filter (fun x => x.sqid == q && x.phase != .started)).foldl (fun s x => complete s x.no 0x2005) s))

/-- CREATE_CQ (R70, R79). -/
def execCreateCq (id : CmdId) (s : State) : Host.Outcome State Fault Refusal :=
  .next (runCmd s id (isOp 0x03) [(32, 2), (36, 4), (40, 2), (42, 1), (44, 4)]
    (fun c =>
      let n := c.b 36 4
      [cond (c.b 32 2 == 0 || decide (1023 < c.b 32 2)) 0x1002, cond (decide (n < 2) || decide (4096 < n)) 0x1002,
       cond (decide (1023 < c.b 40 2)) 0x1002, cond (decide (1500000 < c.b 44 4)) 0x1002, cond (c.b 16 8 % 4096 != 0) 0x1002,
       cond (c.isList || c.b 24 4 != n * 32) 0x1003, cond (findCq s (c.b 32 2)).isSome 0x1003])
    fun s c =>
      let q : Cq := ⟨c.b 32 2, c.b 16 8, c.b 36 4, c.b 40 2, c.b 42 1, c.b 44 4, 0, 0, true, [], 0⟩
      complete (updDqp s fun d => { d with cqs := insCq d.cqs q }) c.no 0)

/-- DELETE_CQ (R70). -/
def execDeleteCq (id : CmdId) (s : State) : Host.Outcome State Fault Refusal :=
  .next (runCmd s id (isOp 0x04) [(32, 2)]
    (fun c => [cond (c.b 32 2 == 0 || (findCq s (c.b 32 2)).isNone) 0x1003, cond (s.dqp.sqs.any (fun q => q.cqid == c.b 32 2)) 0x1003])
    fun s c => complete (updDqp s fun d => { d with cqs := d.cqs.filter (fun q => q.qid != c.b 32 2) }) c.no 0)

/-- The conditions a feature command shares: queue 0, or no such queue (R80). -/
def featureQ (absent : Bool) (c : Cmd) : List Nat := [cond (c.b 36 2 == 0 || absent) 0x1003]

/-- GET_FEATURE, CQ interrupt (R80). -/
def execGetFeatureCqInterrupt (id : CmdId) (s : State) : Host.Outcome State Fault Refusal :=
  .next (runCmd s id (fun c => isOp 0x06 c && c.b 32 1 == 1) [(32, 1), (36, 2)] (fun c => featureQ (findCq s (c.b 36 2)).isNone c) fun s c =>
    match findCq s (c.b 36 2) with
    | none => s
    | some q => complete s c.no 0 (q.vector + q.coalCount * 2 ^ 16 + q.coalTime * 2 ^ 32))

/-- GET_FEATURE, SQ arbitration class (R80). -/
def execGetFeatureSqClass (id : CmdId) (s : State) : Host.Outcome State Fault Refusal :=
  .next (runCmd s id (fun c => isOp 0x06 c && c.b 32 1 == 2) [(32, 1), (36, 2)] (fun c => featureQ (findSq s (c.b 36 2)).isNone c) fun s c =>
    match findSq s (c.b 36 2) with
    | none => s
    | some q => complete s c.no 0 (q.prio + q.cqid * 2 ^ 16 + q.nsid * 2 ^ 32))

/-- SET_FEATURE, CQ interrupt (R80). -/
def execSetFeatureCqInterrupt (id : CmdId) (s : State) : Host.Outcome State Fault Refusal :=
  .next (runCmd s id (fun c => isOp 0x07 c && c.b 32 1 == 1) [(32, 1), (36, 2), (40, 2), (42, 1), (44, 4)]
    (fun c => featureQ (findCq s (c.b 36 2)).isNone c ++ [cond (decide (1023 < c.b 40 2)) 0x1002, cond (decide (1500000 < c.b 44 4)) 0x1002])
    fun s c =>
      let q := c.b 36 2
      signalCq (complete (updCq s q (fun x => { x with vector := c.b 40 2, coalCount := c.b 42 1, coalTime := c.b 44 4 })) c.no 0) q)

/-- SET_FEATURE, SQ arbitration class (R80). -/
def execSetFeatureSqClass (id : CmdId) (s : State) : Host.Outcome State Fault Refusal :=
  .next (runCmd s id (fun c => isOp 0x07 c && c.b 32 1 == 2) [(32, 1), (36, 2), (40, 1)]
    (fun c => featureQ (findSq s (c.b 36 2)).isNone c ++ [cond (decide (3 < c.b 40 1)) 0x1002])
    fun s c => complete (updSq s (c.b 36 2) (fun x => { x with prio := c.b 40 1 })) c.no 0)

/-- ABORT (R79): abandons a command that has not started. -/
def execAbort (id : CmdId) (s : State) : Host.Outcome State Fault Refusal :=
  .next (runCmd s id (isOp 0x09) [(32, 2), (34, 2)] (fun c => [cond (findSq s (c.b 32 2)).isNone 0x1003]) fun s c =>
    match s.dqp.cmds.find? (fun x => x.sqid == c.b 32 2 && x.tag == c.b 34 2 && x.phase != .started) with
    | some x => complete (complete s x.no 0x2005) c.no 0 1
    | none => complete s c.no 0 0)

end Sys2Proof.Machine
end

