-- ==== Sys2Proof/Machine/TileOps.lean ====
section
/-!
DEFINITION. Machine/TileOps.lean: passes and tile inputs (R142-R145, R180-R182, R254), and the stop of a flume program
(R258, R259), which fills the tile inputs it was feeding.
-/
namespace Sys2Proof.Machine

/-! ### Descriptor and format fields (R143, R171) -/

def TPass.tile (p : TPass) : Nat := bits p.desc 0 6
def TPass.quad (p : TPass) : Nat := bits p.desc 6 2
def TPass.acc (p : TPass) : Bool := bit p.desc 8
def TPass.bank (p : TPass) : Nat := bits p.desc 9 1
def TPass.row0 (p : TPass) : Nat := bits p.desc 10 9
def TPass.count (p : TPass) : Nat := bits p.desc 19 10
def TPass.gpart (p : TPass) : Nat := bits p.desc 29 2
def TPass.reuse (p : TPass) : Bool := bit p.desc 31
def TPass.scaleBase (p : TPass) : Nat := bits p.desc 32 6
def TPass.wEng (p : TPass) : Nat := bits p.desc 38 3
def TPass.aEng (p : TPass) : Nat := bits p.desc 41 3
def TPass.k (p : TPass) : Nat := bits p.desc 48 13
def TPass.n (p : TPass) : Nat := bits p.desc 64 7

def fmtMode (f : Nat) : Nat := bits f 0 2
def fmtGsize (f : Nat) : Nat := 32 * 2 ^ bits f 2 2
def fmtW (f : Nat) : Nat := bits f 4 4
def fmtA (f : Nat) : Nat := bits f 8 4

/-- The active TILE_FMT of a tile, as its register packs it (R145, R171). -/
def activeFmt (s : State) (reach tile : Nat) : Nat :=
  getA s reach F.TILE_FMT_MODE tile + 4 * getA s reach F.TILE_FMT_GSIZE tile + 16 * getA s reach F.TILE_FMT_WFMT tile
    + 256 * getA s reach F.TILE_FMT_AFMT tile

def activeSent (s : State) (reach tile : Nat) : Nat := getA s reach F.TILE_SENT_THRESH tile + 65536 * getA s reach F.TILE_SENT_EN tile

def getTile (s : State) (reach tile : Nat) : Tile := mget {} s.tiles (reach * 64 + tile)
def putTile (s : State) (reach tile : Nat) (t : Tile) : State := { s with tiles := mset {} s.tiles (reach * 64 + tile) t }
def updTile (s : State) (reach tile : Nat) (f : Tile → Tile) : State := putTile s reach tile (f (getTile s reach tile))

/-- State of a quadrant (R170): 0 ONLINE, 1 DRAINING, 2 OFFLINE, 3 TESTING, 4 JOINING. -/
def quadField (q : Nat) : Field :=
  match q with | 0 => F.TILE_QSTATE_Q0 | 1 => F.TILE_QSTATE_Q1 | 2 => F.TILE_QSTATE_Q2 | _ => F.TILE_QSTATE_Q3
def quadState (s : State) (reach tile q : Nat) : Nat := getF s reach (quadField q) tile
def setQuad (s : State) (reach tile q v : Nat) : State := setF s reach (quadField q) v tile

/-! ### Sizes of operands (R142, R180-R182) -/

def afmtHasSide (a : Nat) : Bool := a == 2 || a == 3 || a == 4

/-- Bytes of one array row of weights (R180). -/
def weightRow (f : Nat) : Nat := depthOf (fmtW f) * elemBits (fmtW f) / (if fmtMode f = 1 then 16 else 8)

/-- Beats of a millrace pass (R156). -/
def TPass.beats (p : TPass) (f : Nat) : Nat := p.k * p.n / (4 * depthOf (fmtW f))

/-- Weight bytes a pass takes. -/
def TPass.weightNeed (p : TPass) (f : Nat) : Nat := if fmtMode f = 2 then p.beats f * 128 else 32 * weightRow f

/-- Sidecar bytes a pass takes (R178, R179, R181). -/
def TPass.sideNeed (p : TPass) (f : Nat) : Nat :=
  if fmtW f = 8 then 0
  else if fmtMode f = 2 then 8 * (p.k / fmtGsize f) * (p.n / 16)
  else if fmtMode f = 1 then 8
  else if p.gpart = 0 ∨ p.gpart = 3 then 16 else 0

/-- Bytes of an activation row of a full or quad pass, with its side entry (R182). -/
def actRow (f : Nat) : Nat := depthOf (fmtW f) * elemBits (fmtA f) / 8 + (if afmtHasSide (fmtA f) then 4 else 0)

/-- Bytes of one row and group of a millrace pass's activations (R182). -/
def actGroup (f : Nat) : Nat := fmtGsize f * elemBits (fmtA f) / 8 + (if afmtHasSide (fmtA f) then 4 else 0)

/-- Activation bytes a pass takes. -/
def TPass.actNeed (p : TPass) (f : Nat) : Nat :=
  if fmtMode f = 2 then (if p.reuse then 0 else p.count * (p.k / fmtGsize f) * actGroup f) else p.count * actRow f

/-- Bytes of input `kind` (1 weight port, 2 sidecar lane, 3 activations) a pass has taken. -/
def TPass.taken (p : TPass) (kind f : Nat) : Nat :=
  match kind with
  | 1 => if fmtMode f = 2 then p.row * 128 else p.weights.length
  | 2 => p.side.length
  | _ => if fmtMode f = 2 then p.acts.length else p.row * actRow f

def TPass.need (p : TPass) (kind f : Nat) : Nat :=
  match kind with | 1 => p.weightNeed f | 2 => p.sideNeed f | _ => p.actNeed f

/-! ### Which pass an input fills (R146, R254) -/

/-- Lane of a pass: its quadrant in quad mode, else 0. -/
def TPass.lane (p : TPass) (f : Nat) : Nat := if fmtMode f = 1 then p.quad else 0

/-- A pass starts before another, as far as their acceptance says: in the earlier cycle, slot 0's on a tie, and in order within a
slot (R146). -/
def TPass.before (a b : TPass) : Bool :=
  decide (a.accepted < b.accepted) || (a.accepted == b.accepted && (decide (a.slot < b.slot) || (a.slot == b.slot && decide (a.no < b.no))))

/-- Passes of a lane in the order they start, each with its format; a millrace pass takes activations once it has
started (R158). A pass of a slot that a turn holds does not start. -/
def laneOrder (s : State) (reach tile kind q : Nat) : List (TPass × Nat) :=
  let t := getTile s reach tile
  let f := activeFmt s reach tile
  let fl := t.flight.map (fun p => (p, p.fmt))
  let qu := (sortBy TPass.before (t.queue.filter (fun p => p.scaleWrite.isNone && !slotHeld s reach p.slot))).map (fun p => (p, f))
  (fl ++ (if kind = 3 ∧ fmtMode f = 2 then [] else qu)).filter (fun x => x.1.lane x.2 == q)

def laneChunks (t : Tile) (kind q : Nat) : List Chunk :=
  match kind with
  | 1 => t.wport.getD q []
  | 2 => t.sidecar.getD q []
  | _ => t.feeders.getD q []

/-- The bytes of chunks. -/
def chunkBytes (l : List Chunk) : List PByte := (l.map (·.data)).flatten

/-- Everything an input buffers. -/
def laneBuf (t : Tile) (kind q : Nat) : List PByte := chunkBytes (laneChunks t kind q)

/-- The bytes that wait in an input for one pass, and its first chunk there. -/
def ownBytes (l : List Chunk) (no : Nat) : List PByte := chunkBytes (l.filter (fun c => c.no == no))
def ownChunk (l : List Chunk) (no : Nat) : Option Chunk := l.find? (fun c => c.no == no)

/-- Takes `n` bytes of a pass out of an input. -/
def takeOwn (no : Nat) : List Chunk → Nat → List Chunk
  | [], _ => []
  | c :: l, n =>
    if n = 0 then c :: l
    else if c.no ≠ no then c :: takeOwn no l n
    else if c.data.length ≤ n then takeOwn no l (n - c.data.length)
    else { c with data := c.data.drop n } :: l

/-- What a pass still lacks of an input, beyond what it has taken and what waits there for it. -/
def TPass.lack (p : TPass) (t : Tile) (kind q f : Nat) : Nat := p.need kind f - p.taken kind f - (ownBytes (laneChunks t kind q) p.no).length

/-- The first pass in the order that still lacks bytes of an input, and how many. -/
def firstNeed (t : Tile) (kind q : Nat) (l : List (TPass × Nat)) : Option (TPass × Nat × Nat) :=
  (l.find? (fun x => decide (0 < x.1.lack t kind q x.2))).map (fun x => (x.1, x.2, x.1.lack t kind q x.2))

/-- Bytes an input buffers: the weight port 2,048 and the sidecar lane 256, a quarter each for a quadrant lane; 64 entries
in each feeder, 32 rows of a quadrant lane; 32 KiB and the side entries in millrace mode (R142, R154, R254). -/
def laneRoom (f kind : Nat) : Nat :=
  match kind with
  | 1 => if fmtMode f = 1 then 512 else 2048
  | 2 => if fmtMode f = 1 then 64 else 256
  | _ => if fmtMode f = 2 then 65536 else if fmtMode f = 1 then 32 * actRow f else 64 * actRow f

/-- What input `kind` of a tile takes from a program slot of an engine: the pass, whether these are its first bytes, and
the number of bytes (R254). -/
def tileAccept (s : State) (reach tile kind q eng slot : Nat) : Option (TPass × Bool × Nat) :=
  let t := getTile s reach tile
  let buf := (laneBuf t kind q).length
  match firstNeed t kind q (laneOrder s reach tile kind q) with
  | none => none
  | some (p, f, lack) =>
    let e := if kind = 3 then p.aEng else p.wEng
    let n := min lack (laneRoom f kind - buf)
    if e = eng ∧ p.slot = slot ∧ 0 < n then some (p, lack == p.need kind f, n) else none

/-! ### Bytes entering a tile -/

/-- A LOAD in progress takes weights from the port (R151, R255); a millrace pass takes its activations (R156). -/
def absorb (t : Tile) (q : Nat) : Tile :=
  let wl := t.flight.find? (fun p => fmtMode p.fmt != 2 && p.lane p.fmt == q && decide (p.weights.length < p.weightNeed p.fmt))
  let t : Tile := match wl with
    | none => t
    | some p =>
      let port := ownBytes (t.wport.getD q []) p.no
      let n := min (p.weightNeed p.fmt - p.weights.length) port.length
      let got := p.weights.length + n
      let p' := { p with
        due := if p.weightNeed p.fmt ≤ got then none
          else p.due.map (· + (if fmtW p.fmt = 8 then 2 else 1) * (got / weightRow p.fmt - p.weights.length / weightRow p.fmt))
        weights := p.weights ++ port.take n
        wShadow := if p.weights.isEmpty then (ownChunk (t.wport.getD q []) p.no).bind (·.block) else p.wShadow }
      if n = 0 then t
      else { t with
        wport := updAt t.wport q (takeOwn p.no · n)
        flight := t.flight.map (fun x => if x.no = p.no then p' else x) }
  match t.flight.find? (fun p => fmtMode p.fmt == 2 && q == 0 && !p.reuse && decide (p.acts.length < p.actNeed p.fmt)) with
  | none => t
  | some p =>
    let fd := ownBytes (t.feeders.getD 0 []) p.no
    let n := min (p.actNeed p.fmt - p.acts.length) fd.length
    let p' := { p with acts := p.acts ++ fd.take n }
    let done := decide (p.actNeed p.fmt ≤ p'.acts.length)
    { t with
      feeders := updAt t.feeders 0 (takeOwn p.no · n)
      keep := if done then some ⟨p.slot, p.count, p.k, p'.acts⟩ else t.keep
      flight := t.flight.map (fun x => if x.no = p.no then p' else x) }

/-- Puts bytes for pass `no` into an input lane, with the shadow of their block or row (R254, R257). -/
def enterLane (s : State) (reach tile kind q no : Nat) (l : List PByte) (sh : Option ShadowRec) (row : Option RowSrc) : State :=
  updTile s reach tile fun t =>
    let t : Tile := match kind with
      | 1 => { t with wport := updAt t.wport q (· ++ [{ no := no, data := l, block := sh }]) }
      | 2 => { t with sidecar := updAt t.sidecar q (· ++ [{ no := no, data := l }]) }
      | _ => { t with feeders := updAt t.feeders q (· ++ [{ no := no, data := l, row := row }]) }
    absorb t q

/-- Passes that end without running leave the queue, and with them what waits for them in the tile's inputs (DESIGN CHOICE,
notes/assumptions 32). -/
def Tile.forget (t : Tile) (nos : List Nat) : Tile :=
  let keep (l : List (List Chunk)) : List (List Chunk) := l.map (fun l => l.filter (fun c => !nos.contains c.no))
  { t with queue := t.queue.filter (fun x => !nos.contains x.no), wport := keep t.wport, sidecar := keep t.sidecar, feeders := keep t.feeders }

/-! ### Programs (R242, R258, R259) -/

def progKey (reach eng slot : Nat) : Nat := (reach * 8 + eng) * 2 + slot
def getProgs (s : State) (k : Nat) : List Prog := mget [] s.flume.progs k
def putProgs (s : State) (k : Nat) (l : List Prog) : State := { s with flume := { s.flume with progs := mset [] s.flume.progs k l } }
def headProg (s : State) (k : Nat) : Option Prog := (getProgs s k).head?
def setHead (s : State) (k : Nat) (p : Prog) : State := putProgs s k (p :: (getProgs s k).drop 1)

/-- Fills what a pass still lacks of one input with poisoned zeros, held by a turn or not (R259). -/
def fillInput (s : State) (reach tile no eng slot kind : Nat) : State :=
  let t := getTile s reach tile
  let f := activeFmt s reach tile
  let all := t.flight.map (fun p => (p, p.fmt)) ++ (t.queue.filter (·.scaleWrite.isNone)).map (fun p => (p, f))
  match all.find? (fun x => x.1.no == no) with
  | none => s
  | some (p, f) =>
    let q := p.lane f
    if p.slot = slot ∧ (if kind = 3 then p.aEng else p.wEng) = eng then
      enterLane s reach tile kind q no (List.replicate (p.lack t kind q f) ⟨0, true⟩) none none
    else s

/-- The passes that received part of an operand from a stopped program get the rest of that operand as poisoned zeros
(R259). -/
def fillFed (s : State) (reach eng slot : Nat) (fed : List (Nat × Nat × Nat)) : State :=
  fed.foldl (fun s x => fillInput s reach x.1 x.2.1 eng slot x.2.2) s

/-- Ends the program at the head of a slot: its ticket completes and the next program moves up (R246, R264). -/
def endProg (s : State) (k status : Nat) : State :=
  match headProg s k with
  | none => s
  | some p =>
    let s := putProgs s k ((getProgs s k).drop 1)
    completeOp (addF s (k / 16) F.FLUME_PROGRAMS_COUNT 1 (k / 2 % 8)) p.op status

/-- Ends a stopping program at the head of a slot with its status, instruction and address (R258, R259). -/
def endStopped (s : State) (k status pc addr : Nat) : State :=
  match headProg s k with
  | none => s
  | some p =>
    let reach := k / 16; let e := k / 2 % 8; let sl := k % 2
    let s := setF s reach F.FLUME_FAULT_CODE status e
    let s := setF s reach F.FLUME_FAULT_SLOT sl e
    let s := setF s reach F.FLUME_FAULT_PC pc e
    let s := setF s reach F.FLUME_FAULT_VALID 1 e
    let s := setF s reach F.FLUME_FAULT_ADDR_LO_ADDR addr e
    let s := setF s reach F.FLUME_FAULT_ADDR_HI_ADDR (addr / 2 ^ 32) e
    endProg (fillFed s reach e sl p.fed) k status

end Sys2Proof.Machine
end

