-- ==== Sys2Proof/Machine/Tile.lean ====
section
/-!
DEFINITION. Machine/Tile.lean: a tile's passes (R145-R200): start, row slots, completion, self-test, drain and join.
-/
namespace Sys2Proof.Machine

/-! ### Arithmetic of a column (R176-R179) -/

/-- Exact sum of products of a group; NaN when an element is NaN or infinite (R176). -/
def dotExact (wf af : Nat) (l : List (Nat × Nat)) : Fp :=
  let r := l.foldl (fun (acc : Option Int) x =>
    match acc, elemFp af x.1, elemFp wf x.2 with
    | some t, .fin a m e, .fin b n g => some (t + finInt a m e (-16) * finInt b n g (-16))
    | _, _, _ => none) (some 0)
  match r with
  | some t => .fin (t < 0) t.natAbs (-32)
  | none => .nan

/-- BF16: products aligned to a window of 48 bits below the largest, truncated toward zero (R179). -/
def dotBf16 (l : List (Nat × Nat)) : Fp :=
  let ps := l.map (fun x => (elemFp 8 x.1, elemFp 8 x.2))
  if ps.any (fun x => match x with | (.fin _ _ _, .fin _ _ _) => false | _ => true) then .nan
  else
    let pr := ps.filterMap (fun x => match fpMul x.1 x.2 with | .fin s m e => if m = 0 then none else some (s, m, e) | _ => none)
    match pr.map (fun x => (Nat.log2 x.2.1 : Int) + x.2.2) with
    | [] => .fin false 0 0
    | v :: vs =>
      let q := vs.foldl max v - 47
      let t := pr.foldl (fun (acc : Int) x =>
        let m : Nat := if q ≤ x.2.2 then x.2.1 * 2 ^ (x.2.2 - q).toNat else x.2.1 / 2 ^ (q - x.2.2).toNat
        if x.1 then acc - m else acc + m) 0
      .fin (t < 0) t.natAbs q

def dotGroup (wf af : Nat) (l : List (Nat × Nat)) : Fp := if wf = 8 then dotBf16 l else dotExact wf af l

/-- rne32(P * 2^sh * c) (R177): NaN when P is, or the scale is NaN or infinite. -/
def rescale (p : Fp) (sh : Int) (c : Nat) : Nat :=
  match dec32 c with
  | .fin b n g =>
    match fpMul p (.fin b n (g + sh)) with
    | .fin s m e => if m = 0 then 0 else enc32 (.fin s m e)
    | v => enc32 v
  | _ => nan32

/-! ### Operands as bytes -/

def pbytes (l : List PByte) : List Byte := l.map (·.b)
/-- A bit range of a byte run holds poison. -/
def bitsBad (l : List PByte) (lo n : Nat) : Bool := ((l.drop (lo / 8)).take ((lo % 8 + n + 7) / 8)).any (·.p)

/-- Weight code of reduction element `k`, column `j`, with its poison (R180). -/
def TPass.weightAt (p : TPass) (k j : Nat) : Nat × Bool :=
  let w := elemBits (fmtW p.fmt)
  let u := depthOf (fmtW p.fmt) / 32
  let row := (p.weights.drop (k / u * weightRow p.fmt)).take (weightRow p.fmt)
  let at' := j * u + k % u
  (elemAt w (pbytes row) at', bitsBad row (w * at') w)

/-- Offset of a column in a sidecar entry, with its poison; 0 where a pass has none (R178, R179, R181). -/
def sideNibble (l : List PByte) (j : Nat) : Nat × Bool :=
  match l[j / 2]? with
  | some x => (bits x.b.toNat (4 * (j % 2)) 4, x.p)
  | none => (0, false)

/-- Exponent of a side entry: X = 0 and X = 255 count as 127 (R182). -/
def sideX (l : List PByte) : Nat := let x := ((l.head?).map (fun b => b.b.toNat)).getD 127; if x = 0 ∨ x = 255 then 127 else x
def sideOdd (l : List PByte) : Bool := match l.head? with | some b => b.b == 0 || b.b == 255 | none => false

/-! ### Accumulator words (R159) -/

def wordAddr (reach tile bank row col : Nat) : Nat :=
  2 ^ 56 + reach * 0x2000000 + 0x1800000 + tile * 0x20000 + bank * 0x10000 + row * 128 + col * 4

/-- Array row and first column a pass writes for its row m (R159). -/
def TPass.place (p : TPass) (m : Nat) : Nat × Nat :=
  if fmtMode p.fmt = 1 then (256 * (p.quad / 2) + p.row0 + m, 16 * (p.quad % 2)) else (p.row0 + m, 0)

def word32 (s : State) (a : Nat) : Nat := ofBytes (rdBytes s a 4)

/-- Writes consecutive FP32 words with their poison, each inside its 64-bit codeword: a clean one leaves the codeword's
poison (R161, R416, R423). -/
def wrWords (s : State) (a : Nat) (l : List (Nat × Bool)) : State :=
  l.zipIdx.foldl (fun s x => wrPBytes s (a + 4 * x.2) ((toBytes 4 x.1.1).map (fun b => PByte.mk b x.1.2))) s

/-- Deposits or accumulates results at an address (R161, R177); whether a poisoned word was read. -/
def depositAt (s : State) (acc : Bool) (a : Nat) (l : List (Nat × Bool)) : State × Bool :=
  if acc then
    let r := l.zipIdx.map (fun x => (fadd (word32 s (a + 4 * x.2)) x.1.1, x.1.2 || poisoned s (a + 4 * x.2)))
    (wrWords s a r, r.any (·.2))
  else (wrWords s a l, l.any (·.2))

/-- The rescale stage and the accumulator port for one row's column sums (R161, R162, R177, R178); whether poison was
consumed. -/
def rescaleRow (s : State) (reach tile : Nat) (p : TPass) (m : Nat) (xa : Int) (cells : List (Fp × Bool)) : State × Bool :=
  let (r, c0) := p.place m
  let main := wordAddr reach tile p.bank r c0
  let part := wordAddr reach tile (1 - p.bank) r c0
  let out (vals : List (Fp × Bool)) : List (Nat × Bool) := vals.zipIdx.map (fun x =>
    let e := sideNibble p.side x.2
    (rescale x.1.1 (xa - e.1) (p.scales.getD x.2 0), x.1.2 || e.2))
  match p.gpart with
  | 0 => depositAt s p.acc main (out cells)
  | 1 => let l := cells.map (fun x => (enc32 x.1, x.2)); (wrWords s part l, l.any (·.2))
  | g =>
    let l := cells.zipIdx.map (fun x =>
      (enc32 (fpSum (dec32 (word32 s (part + 4 * x.2))) x.1.1), x.1.2 || poisoned s (part + 4 * x.2)))
    let s' := wrWords s part l
    if g = 2 then (s', l.any (·.2))
    else
      let d := depositAt s' p.acc main (out (l.map (fun x => (dec32 x.1, x.2))))
      (d.1, d.2 || l.any (·.2))

/-! ### Passes of a tile -/

def updPass (s : State) (reach tile no : Nat) (f : TPass → TPass) : State :=
  updTile s reach tile fun t => { t with flight := t.flight.map (fun p => if p.no = no then f p else p) }

def TPass.total (p : TPass) : Nat := if fmtMode p.fmt = 2 then p.beats p.fmt else p.count

/-- Passes in flight of a lane: with rows left, or their last write not signalled, and escalation passes flying (R151,
R200). -/
def inflight (t : Tile) (q : Nat) : Nat :=
  ((t.flight.filter (fun p => p.lane p.fmt == q)).map (fun p =>
    b2n (p.esc.isEmpty || decide (p.row < p.total)) + (p.esc.filter (·.flying)).length)).foldl (· + ·) 0

/-- A LOAD is in progress in a lane, of a pass or of an escalation pass, whose block of weights comes by shadow reads (R151,
R257). -/
def loading (t : Tile) (q : Nat) : Bool :=
  t.flight.any (fun p => fmtMode p.fmt != 2 && p.lane p.fmt == q
    && (decide (p.weights.length < p.weightNeed p.fmt) || p.esc.any (fun b => b.flying && decide (b.wgot.length < 1024))))

/-- Escalation passes of a tile that have not started: they start ahead of every queued pass (R146). -/
def escQueued (t : Tile) : Bool :=
  t.flight.any (fun p => p.esc.zipIdx.any (fun b => decide (0 < b.2) || !b.1.flying || decide (32 * (b.1.u + 1) < fmtGsize p.fmt)))

/-- An escalation pass is in flight that began LOAD before number `n` in the order (R151). -/
def escAhead (t : Tile) (n : Nat) : Bool := t.flight.any (fun p => p.esc.any (fun b => b.flying && decide (b.started < n)))

/-- Rows are still to stream of a pass that began LOAD before number `n` in the order (R151). -/
def passAhead (t : Tile) (n : Nat) : Bool := t.flight.any (fun p => decide (p.started < n) && decide (p.row < p.total))

/-- The unit of a pass serves it: ONLINE, JOINING, or DRAINING for a pass accepted before the drain order (R145, R170). -/
def unitServes (s : State) (reach tile : Nat) (p : TPass) (f : Nat) : Bool :=
  (if fmtMode f = 1 then [p.quad] else [0, 1, 2, 3]).all (fun q =>
    let v := quadState s reach tile q
    v == 0 || v == 4 || (v == 1 && p.grand))

/-- Slices a pass writes: (bank, slice) (R145, R159, R162). -/
def TPass.slices (p : TPass) (f : Nat) : List (Nat × Nat) :=
  let banks := if p.gpart = 0 then [p.bank] else [p.bank, 1 - p.bank]
  let qs :=
    if fmtMode f = 1 then [p.quad]
    else if fmtMode f = 2 then
      ((List.range (p.n / 16)).map (fun b => (List.range p.count).map (fun t => sliceOf (p.row0 + t + p.count * (b / 2)) (16 * (b % 2))))).flatten.eraseDups
    else ([p.row0, p.row0 + p.count - 1].map (fun r => [sliceOf r 0, sliceOf r 16])).flatten.eraseDups
  (banks.map (fun b => qs.map (fun q => (b, q)))).flatten

/-- The checks of R145 in the table's order; 0 when a pass may run. -/
def startCheck (s : State) (reach tile : Nat) (p : TPass) (f : Nat) : Nat :=
  let mode := fmtMode f
  let m := p.count
  if !unitServes s reach tile p f then 0x1007
  else if mode = 0 ∧ (p.quad ≠ 0 ∨ p.k ≠ 0 ∨ p.n ≠ 0 ∨ 512 < p.row0 + m) then 0x1003
  else if mode = 1 ∧ (256 < m ∨ p.k ≠ 0 ∨ p.n ≠ 0 ∨ 256 < p.row0 + m) then 0x1003
  else if mode = 2 ∧ (8 < m ∨ p.quad ≠ 0 ∨ p.k % fmtGsize f ≠ 0 ∨ p.k = 0 ∨ p.n % 16 ≠ 0 ∨ p.n = 0 ∨ 32768 < m * p.k * elemBits (fmtA f) / 8
      ∨ 512 < p.row0 + m * ceilDiv p.n 32) then 0x1003
  else if p.reuse ∧ ((getTile s reach tile).keep.map (fun k => (k.slot, k.t, k.k))) ≠ some (p.slot, m, p.k) then 0x1003
  else if p.gpart ≠ 0 ∧ ¬ (mode = 0 ∧ fmtW f < 3 ∧ 32 < fmtGsize f) then 0x1003
  else if 64 < p.scaleBase + (if mode = 0 then 32 else if mode = 1 then 16 else p.n) then 0x1003
  else if (p.slices f).any (fun x => sliceOwner s reach tile x.1 x.2 != p.slot + 1) then 0x4004
  else 0

/-- A millrace pass of a slot has started and not captured its scales: the slot's next scale write waits (R147). -/
def uncaptured (t : Tile) (slot : Nat) : Bool := t.flight.any (fun p => p.slot == slot && fmtMode p.fmt == 2 && p.scales.isEmpty)

/-- Scale writes at the head of a slot's queue take effect (R147). -/
def drainScales (reach tile : Nat) : Nat → State → State
  | 0, s => s
  | n + 1, s =>
    let t := getTile s reach tile
    let heads := [t.queue.find? (fun p => p.slot == 0), t.queue.find? (fun p => p.slot == 1)].filterMap id
    match heads.find? (fun p => p.scaleWrite.isSome && !uncaptured t p.slot) with
    | none => s
    | some p =>
      let w := p.scaleWrite.getD (0, 0)
      let s := putTile s reach tile { t with queue := t.queue.filter (fun x => x.no != p.no) }
      drainScales reach tile n (completeOp (setF s reach F.TILE_SCALE_SCALE w.2 tile w.1) p.op 0)

/-- A pass ends: its count, its unit's join count, and its status to the issuer (R148, R170). -/
def finishPass (s : State) (reach tile : Nat) (p : TPass) (status : Nat) : State :=
  completeOp (addF s reach F.TILE_PASSES_COUNT 1 tile) p.op status

/-- The pass whose next escalation pass may start: the escalation buffer belongs to one pass until that pass ends (R200). -/
def waitingEsc (t : Tile) : Option TPass :=
  let waits (p : TPass) : Bool := match p.esc.head? with | some b => !b.flying | none => false
  match t.flight.find? (·.owns) with
  | some p => if waits p then some p else none
  | none => t.flight.find? waits

/-- The pass before a new millrace pass leaves it room to start: its beats are over; or it is in its beats, and the new
pass loads nothing or both passes' activations fit in half of the buffer (R158). -/
def millraceRoom (t : Tile) (p : TPass) (f : Nat) : Bool :=
  match t.flight.getLast? with
  | none => true
  | some x =>
    decide (x.total ≤ x.row) ||
    (decide (x.reuse ∨ x.actNeed x.fmt ≤ x.acts.length)
      && (p.reuse || (decide (p.count * p.k * elemBits (fmtA f) / 8 ≤ 16384) && decide (x.count * x.k * elemBits (fmtA x.fmt) / 8 ≤ 16384))))

/-- A queued pass can start now: the millrace passes before it leave it room, or the port holds its first array row; one that the
checks of R145 reject needs no weights (R146, R158, R255). -/
def passReady (s : State) (reach tile q : Nat) (p : TPass) : Bool :=
  let t := getTile s reach tile
  let f := activeFmt s reach tile
  if fmtMode f = 2 then millraceRoom t p f
  else startCheck s reach tile p f != 0 || decide (weightRow f ≤ (ownBytes (t.wport.getD q []) p.no).length)

/-- The first pass of a residency slot for a lane: none while the slot's scale write ahead of it waits or a turn holds the slot
(R146, R147, R286). -/
def slotHead (s : State) (reach tile q sl : Nat) : Option TPass :=
  if slotHeld s reach sl then none else
  let own := ((getTile s reach tile).queue.filter (fun p => p.slot == sl)).takeWhile (fun p => p.scaleWrite.isNone)
  if fmtMode (activeFmt s reach tile) = 1 then own.find? (fun p => p.quad == q) else own.head?

/-- The queued pass a lane starts next: of the slots' first ones that are ready, the one accepted in the earlier cycle, slot 0's on a
tie (R146). -/
def nextPass (s : State) (reach tile q : Nat) : Option TPass :=
  match (slotHead s reach tile q 0).filter (passReady s reach tile q), (slotHead s reach tile q 1).filter (passReady s reach tile q) with
  | some a, some b => if b.before a then some b else some a
  | some a, none => some a
  | none, x => x

/-- The scale registers a pass uses (R145, R147). -/
def scalesNow (s : State) (reach tile : Nat) (p : TPass) (f : Nat) : List Nat :=
  (List.range (if fmtMode f = 0 then 32 else if fmtMode f = 1 then 16 else p.n)).map (fun i => getF s reach F.TILE_SCALE_SCALE tile (p.scaleBase + i))

/-- PASS_START (R145-R149, R151, R155, R158, R200, R255): an escalation pass, else the next queued pass of the lane. -/
def execPassStart (reach tile quad : Nat) (s : State) : Host.Outcome State Fault Refusal :=
  .next (
    if !tileEnabled s reach tile || !reachLive s reach then s
    else
      let s := drainScales reach tile (getTile s reach tile).queue.length s
      let t := getTile s reach tile
      let f := activeFmt s reach tile
      let q := if fmtMode f = 1 then quad % 4 else 0
      if 2 ≤ inflight t q ∨ loading t q = true then s
      else
        match (if fmtMode f = 0 then waitingEsc t else none) with
        | some p =>
          let s := updTile s reach tile (fun t => { t with starts := t.starts + 1 })
          updPass s reach tile p.no (fun p => { p with owns := true, esc := updAt p.esc 0 (fun b => { b with flying := true, started := t.starts }) })
        | none =>
          if escQueued t = true ∨ getF s reach F.TILE_GROUP_FMT_EPOCH_PENDING tile = 1 then s
          else
            match nextPass s reach tile q with
            | none => s
            | some p =>
              let drop (t : Tile) : Tile := { t with queue := t.queue.filter (fun x => x.no != p.no) }
              let st := startCheck s reach tile p f
              if st ≠ 0 then finishPass (updTile s reach tile (·.forget [p.no])) reach tile p st
              else
                let armed := getF s reach F.TILE_INJECT_ARM tile == 1
                let p' := { p with
                  started := t.starts, fmt := f, sent := activeSent s reach tile
                  scales := if fmtMode f = 2 then [] else scalesNow s reach tile p f
                  acts := if p.reuse then ((t.keep).map (·.data)).getD [] else []
                  inject := if armed then some (getF s reach F.TILE_INJECT_COL tile) else none
                  due := if fmtMode f = 0 then some (cyc s reach) else none }
                let s := if armed then setF s reach F.TILE_INJECT_ARM 0 tile else s
                let s := capturePoint s.counters.captures s reach (p'.source tile)
                updTile (tileEv s reach tile p' 0x14 1) reach tile (fun t => absorb { drop t with flight := t.flight ++ [p'], starts := t.starts + 1 } q))

/-! ### Row slots (R152-R157) -/

/-- Takes a pass's sidecar entry from the lane; none while it has not arrived (R255). -/
def takeSide (t : Tile) (no q n : Nat) : Option (List PByte × Tile) :=
  let l := ownBytes (t.sidecar.getD q []) no
  if l.length < n then none else some (l.take n, { t with sidecar := updAt t.sidecar q (takeOwn no · n) })

/-- Feeders without their element of the next row; a quadrant lane needs both halves of the row (R152, R153). -/
def dryFeeders (f avail : Nat) : Nat :=
  let u := depthOf (fmtW f) / 32
  let side := if afmtHasSide (fmtA f) then 4 else 0
  let lanes := if fmtMode f = 1 then 16 else 32
  let last (i : Nat) : Nat := if fmtMode f = 1 then i + 17 else i + 1
  ((List.range lanes).filter (fun i => decide (avail < side + ceilDiv (last i * u * elemBits (fmtA f)) 8))).length

/-- A tripped sentinel that is not escalated (R199). -/
def unescalated (s : State) (reach tile slot : Nat) : State :=
  let s := addF s reach F.QNT_UNESC_COUNT 1
  let fl := if slot = 0 then (if tile < 32 then F.QNT_FLAG_S0_LO_TILE else F.QNT_FLAG_S0_HI_TILE)
    else (if tile < 32 then F.QNT_FLAG_S1_LO_TILE else F.QNT_FLAG_S1_HI_TILE)
  setFBit s reach fl (tile % 32) true

/-- A side entry trips the sentinel of a pass (R198). -/
def trips (p : TPass) (side : List PByte) : Bool := bit p.sent 16 && decide (p.sent % 65536 < le (pbytes side) 2 2)

/-- Adds a row to a pass's escalations: to the last batch while it has not started and has room, else to a new one (R200). -/
def addEsc (l : List EscBatch) (x : EscRow) : List EscBatch :=
  let fresh : EscBatch := { rows := [x], u := 0, flying := false, sums := [] }
  match l.getLast? with
  | some b => if b.u = 0 ∧ b.flying = false ∧ b.rows.length < 32 then l.dropLast ++ [{ b with rows := b.rows ++ [x] }] else l ++ [fresh]
  | none => [fresh]

/-- Starts the next row of a full or quad pass whose row is at hand. -/
def runRow (s : State) (reach tile q : Nat) (p : TPass) : State :=
  let t := getTile s reach tile
  let f := p.fmt
  let sideLen := if afmtHasSide (fmtA f) then 4 else 0
  let fd := t.feeders.getD q []
  let raw := (ownBytes fd p.no).take (actRow f)
  let side := raw.take sideLen
  let row := raw.drop sideLen
  let src := (ownChunk fd p.no).bind (·.row)
  let s := putTile s reach tile { t with feeders := updAt t.feeders q (takeOwn p.no · (actRow f)) }
  let s := if sideOdd side then addF s reach F.ROT_SAT_COUNT 1 else s
  let trip := decide (sideLen ≠ 0) && trips p side
  let s := if trip then tileEv (addF s reach F.QNT_TRIPS_COUNT 1) reach tile p 0x19 1 else s
  let s := tileEv s reach tile p 0x15 1
  let d := depthOf (fmtW f)
  let rowBad := raw.any (·.p)
  match (if trip && fmtMode f == 0 && p.gpart == 0 && p.wShadow.isSome then src else none) with
  | some x =>
    -- an operand of the packed row that arrived poisoned poisons its words whatever the escalation writes (R168)
    let bad := (List.range 32).foldl (fun m j => setBit m j (rowBad || (sideNibble p.side j).2 || (List.range d).any (fun k => (p.weightAt k j).2))) 0
    updPass s reach tile p.no (fun p => { p with
      row := p.row + 1, esc := addEsc p.esc ⟨p.row, sideX side, x, bad⟩, escRows := p.escRows + 1, pois := p.pois || bad != 0 })
  | none =>
    let s := if trip then unescalated s reach tile p.slot else s
    let wa := elemBits (fmtA f)
    let acts := (List.range d).map (fun k => elemAt wa (pbytes row) k)
    let cells := (List.range (if fmtMode f = 1 then 16 else 32)).map (fun j =>
      let ws := (List.range d).map (fun k => p.weightAt k j)
      (dotGroup (fmtW f) (fmtA f) (acts.zip (ws.map (·.1))), rowBad || ws.any (·.2)))
    let xa : Int := if sideLen = 0 then 0 else (sideX side : Int) - 127
    let r := rescaleRow s reach tile p p.row xa cells
    updPass r.1 reach tile p.no (fun p => { p with row := p.row + 1, pois := p.pois || r.2 })

/-- Activation group of a millrace pass: its side entry, and its elements with whether any is poisoned. -/
def TPass.actGroupAt (p : TPass) (t g : Nat) : List PByte × List Nat × Bool :=
  let raw := (p.acts.drop ((t * (p.k / fmtGsize p.fmt) + g) * actGroup p.fmt)).take (actGroup p.fmt)
  let sl := if afmtHasSide (fmtA p.fmt) then 4 else 0
  let w := elemBits (fmtA p.fmt)
  (raw.take sl, (List.range (fmtGsize p.fmt)).map (fun k => elemAt w (pbytes (raw.drop sl)) k), raw.any (·.p))

/-- Side entries of a millrace pass, taken up at its first beat (R182, R198, R199). -/
def millraceSides (s : State) (reach tile : Nat) (p : TPass) : State :=
  if !afmtHasSide (fmtA p.fmt) then s
  else
    (List.range (p.count * (p.k / fmtGsize p.fmt))).foldl (fun s i =>
      let side := (p.actGroupAt (i / (p.k / fmtGsize p.fmt)) (i % (p.k / fmtGsize p.fmt))).1
      let s := if sideOdd side then addF s reach F.ROT_SAT_COUNT 1 else s
      if trips p side then unescalated (tileEv (addF s reach F.QNT_TRIPS_COUNT 1) reach tile p 0x19 1) reach tile p.slot else s) s

/-- The group of a millrace pass that ends with the beats held: the FP32 results of its rows and outputs join the
column-bottom accumulators (R156, R177). -/
def millraceGroup (p : TPass) (ob g : Nat) (beats : List PByte) (side : List PByte) : TPass :=
  let e4 := depthOf (fmtW p.fmt) / 4
  let w := elemBits (fmtW p.fmt)
  (List.range p.count).foldl (fun p t =>
    let (ase, acts, aBad) := p.actGroupAt t g
    let xa : Int := if ase.isEmpty then 0 else (sideX ase : Int) - 127
    (List.range 16).foldl (fun p o =>
      let cell (k : Nat) : List PByte := (beats.drop (128 * (k / e4) + 8 * o)).take 8
      let ws := (List.range (fmtGsize p.fmt)).map (fun k => elemAt w (pbytes (cell k)) (k % e4))
      let wBad := (List.range (fmtGsize p.fmt)).any (fun k => bitsBad (cell k) (w * (k % e4)) w)
      let e := sideNibble side o
      let n := 16 * ob + o
      let r := rescale (dotGroup (fmtW p.fmt) (fmtA p.fmt) (acts.zip ws)) (xa - e.1) (p.scales.getD n 0)
      let key := t * 64 + n
      { p with
        accs := mset 0 p.accs key (if g = 0 then r else fadd (mget 0 p.accs key) r)
        accPois := mset false p.accPois key (mget false p.accPois key || aBad || wBad || e.2)
        badOuts := if (wBad || e.2) && !p.badOuts.contains o then o :: p.badOuts else p.badOuts }) p) p

/-- Writes a finished block of 16 outputs (R156, R161). -/
def millraceBlock (s : State) (reach tile : Nat) (p : TPass) (ob : Nat) : State :=
  (List.range p.count).foldl (fun s t =>
    let a := wordAddr reach tile p.bank (p.row0 + t + p.count * (ob / 2)) (16 * (ob % 2))
    let l := (List.range 16).map (fun o => (mget 0 p.accs (t * 64 + 16 * ob + o), mget false p.accPois (t * 64 + 16 * ob + o)))
    let r := depositAt s p.acc a l
    if r.2 then updPass r.1 reach tile p.no (fun p => { p with pois := true }) else r.1) s

/-- One beat of a millrace pass (R156, R157). -/
def runBeat (s : State) (reach tile : Nat) (p : TPass) : State :=
  let t := getTile s reach tile
  if p.acts.length < p.count * (p.k / fmtGsize p.fmt) * actGroup p.fmt then s
  else
    let port := ownBytes (t.wport.getD 0 []) p.no
    if port.length < 128 then tileEv (addF s reach F.TILE_BUBBLES_COUNT 1 tile) reach tile p 0x16 1
    else
      let per := 4 * p.k / depthOf (fmtW p.fmt)
      let perG := 4 * fmtGsize p.fmt / depthOf (fmtW p.fmt)
      let bi := p.row % per
      let ob := p.row / per
      let ends := decide ((bi + 1) % perG = 0)
      match (if ends then takeSide t p.no 0 8 else some ([], t)) with
      | none => tileEv (addF s reach F.TILE_FREEZES_COUNT 1 tile) reach tile p 0x17 1
      | some (side, t) =>
        let s := putTile s reach tile { t with wport := updAt t.wport 0 (takeOwn p.no · 128) }
        let p := if p.row = 0 then { p with scales := scalesNow s reach tile p p.fmt } else p
        let s := if p.row = 0 then millraceSides s reach tile p else s
        let beats := p.weights ++ port.take 128
        let p' := if ends then { millraceGroup p ob (bi / perG) beats side with weights := [], side := p.side ++ side } else { p with weights := beats }
        let s := tileEv (updPass s reach tile p.no (fun _ => { p' with row := p.row + 1 })) reach tile p 0x15 1
        if bi + 1 = per then millraceBlock s reach tile p' ob else s

/-- SLOT_GATE (R152, R153, R157, R255): one row slot of the streaming pass of a lane; it streams after every pass and escalation pass
that began LOAD before it (R151). -/
def execSlotGate (reach tile quad : Nat) (s : State) : Host.Outcome State Fault Refusal :=
  .next (
    let t := getTile s reach tile
    if !reachLive s reach then s
    else
    match t.flight.find? (fun p => p.lane p.fmt == (if fmtMode p.fmt = 1 then quad % 4 else 0) && decide (p.row < p.total)) with
    | none => s
    | some p =>
      if fmtMode p.fmt = 2 then runBeat s reach tile p
      else if p.weights.length < p.weightNeed p.fmt ∨ escAhead t p.started = true then s
      else
        let q := p.lane p.fmt
        let dry := dryFeeders p.fmt (ownBytes (t.feeders.getD q []) p.no).length
        if 4 < dry then tileEv (addF s reach F.TILE_FREEZES_COUNT 1 tile) reach tile p 0x17 1
        else if 0 < dry then tileEv (addF s reach F.TILE_BUBBLES_COUNT 1 tile) reach tile p 0x16 1
        else if p.side.length < p.sideNeed p.fmt then
          match takeSide t p.no q (p.sideNeed p.fmt) with
          | none => tileEv (addF s reach F.TILE_FREEZES_COUNT 1 tile) reach tile p 0x17 1
          | some (side, t) => runRow (putTile s reach tile { t with flight := t.flight.map (fun x => if x.no = p.no then { x with side := side } else x) })
              reach tile q { p with side := side }
        else runRow s reach tile q p)

/-! ### Escalation passes (R200, R257) -/

/-- The program at the head of a slot is the one that declared a shadow. -/
def supplies (s : State) (k : Nat) (op : OpRef) : Bool := ((headProg s k).map (·.op)) == some op

/-- Shadow bytes an escalation pass needs of the weight shadow: a block of 1,024 bytes and, at the last, the sidecar entry,
which follows it (R257). -/
def escWeightNeed (gs : Nat) (b : EscBatch) : Nat := if gs ≤ 32 * (b.u + 1) then 1040 else 1024

/-- The next row of a batch of which shadow bytes are missing, and how many of its bytes have come. -/
def escRowAt (s : State) (reach : Nat) : List EscRow → Nat → Option (RowSrc × Nat)
  | [], _ => none
  | x :: l, n =>
    let m := (profOf s reach x.src.prof).unitBytes
    if m ≤ n then escRowAt s reach l (n - m) else some (x.src, n)

/-- A shadow read still due: of the pass, whether of weights, where, and how many bytes. -/
structure ShadowDue where
  tile : Nat
  no : Nat
  weight : Bool
  addr : Nat
  n : Nat

/-- The next read the escalation pass in flight of a pass waits for from a program slot (R257). -/
def passShadowDue (s : State) (reach k tile : Nat) (p : TPass) : Option ShadowDue :=
  match p.esc.head? with
  | none => none
  | some b =>
    let need := escWeightNeed (fmtGsize p.fmt) b
    let w : Option ShadowDue := match p.wShadow with
      | some r =>
        let a := r.addr + 1024 * b.u + b.wgot.length
        if progKey reach p.wEng p.slot = k ∧ supplies s k r.op = true ∧ b.wgot.length < need then
          some ⟨tile, p.no, true, a % 2 ^ 64, min (need - b.wgot.length) (128 - a % 128)⟩ else none
      | none => none
    let r : Option ShadowDue := match escRowAt s reach b.rows b.agot.length with
      | some (x, n) =>
        let a := x.addr + n
        if progKey reach p.aEng p.slot = k ∧ supplies s k x.op = true then
          some ⟨tile, p.no, false, a % 2 ^ 64, min ((profOf s reach x.prof).unitBytes - n) (128 - a % 128)⟩ else none
      | none => none
    if b.flying then (match w with | some x => some x | none => r) else none

/-- The shadow read a program slot issues next, ahead of its other reads (R257). -/
def shadowDue (s : State) (reach k : Nat) : Option ShadowDue :=
  ((List.range 48).filterMap (fun t => ((getTile s reach t).flight.filterMap (passShadowDue s reach k t)).head?)).head?

/-- Every shadow byte of an escalation pass has come, or will not because its program has stopped (R257, R259). -/
def escReady (s : State) (reach : Nat) (p : TPass) (b : EscBatch) : Bool :=
  (decide (escWeightNeed (fmtGsize p.fmt) b ≤ b.wgot.length)
      || (match p.wShadow with | some r => !supplies s (progKey reach p.wEng p.slot) r.op | none => true))
    && (match escRowAt s reach b.rows b.agot.length with
      | some (x, _) => !supplies s (progKey reach p.aEng p.slot) x.op
      | none => true)

/-- Bytes that have come, the rest as poisoned zeros (R259). -/
def padPoison (n : Nat) (l : List PByte) : List PByte := l.take n ++ List.replicate (n - l.length) ⟨0, true⟩

/-- One escalation pass of the head batch (R178, R200): block u of the shadow record against the rows' shadows; the last
one rescales and writes. -/
def runEscalation (s : State) (reach tile : Nat) (p : TPass) (b : EscBatch) : State :=
  let gs := fmtGsize p.fmt
  let final := decide (gs ≤ 32 * (b.u + 1))
  let wb := padPoison (escWeightNeed gs b) b.wgot
  let side := wb.drop 1024
  let size (x : EscRow) : Nat := (profOf s reach x.src.prof).unitBytes
  let ab := padPoison ((b.rows.map size).foldl (· + ·) 0) b.agot
  let step (acc : (State × NMap Nat × Bool) × List PByte) (x : EscRow × Nat) : (State × NMap Nat × Bool) × List PByte :=
    let raw := acc.2.take (size x.1)
    let codes := shadowRow (profOf s reach x.1.src.prof) x.1.src.elem x.1.x (pbytes raw)
    let rowBad := raw.any (·.p)
    let cells := (List.range 32).map (fun j =>
      let pr := (List.range 32).map (fun i => (codes.getD (32 * b.u + i) 0, ((wb[32 * i + j]?).map (fun y => y.b.toNat)).getD 0))
      let bad := rowBad || bit x.1.bad j || (List.range 32).any (fun i => ((wb[32 * i + j]?).map (·.p)).getD true)
      let d := dotExact 0 0 pr
      (if b.u = 0 then enc32 d else enc32 (fpSum (dec32 (mget 0 acc.1.2.1 (64 * x.2 + j))) d),
       bad || mget 0 acc.1.2.1 (64 * x.2 + 32 + j) != 0))
    let sums := cells.zipIdx.foldl (fun m c => mset 0 (mset 0 m (64 * x.2 + c.2) c.1.1) (64 * x.2 + 32 + c.2) (b2n c.1.2)) acc.1.2.1
    let rest := acc.2.drop (size x.1)
    if final then
      let r := rescaleRow acc.1.1 reach tile { p with side := side } x.1.m ((x.1.x : Int) - 127) (cells.map (fun c => (dec32 c.1, c.2)))
      ((r.1, sums, acc.1.2.2 || r.2), rest)
    else ((acc.1.1, sums, acc.1.2.2), rest)
  let r := (b.rows.zipIdx.foldl step ((s, b.sums, false), ab)).1
  updPass r.1 reach tile p.no (fun p => { p with
    pois := p.pois || r.2.2
    esc := if final then p.esc.drop 1 else updAt p.esc 0 (fun _ => { b with u := b.u + 1, flying := false, sums := r.2.1, wgot := [], agot := [] }) })

/-! ### Completion (R148, R168, R169) -/

/-- Poisons the words of one array column a pass wrote (R168). In quad mode a column of another quadrant stands for the one at its
place in the pass's own (DESIGN CHOICE, notes/assumptions 32). -/
def poisonColumn (s : State) (reach tile : Nat) (p : TPass) (col : Nat) : State :=
  let mark (s : State) (a : Nat) : State := { s with mem := { s.mem with poison := mins s.mem.poison (granule a) () } }
  if fmtMode p.fmt = 2 then
    (List.range (p.n / 16)).foldl (fun s ob =>
      if col / 16 < p.count then mark s (wordAddr reach tile p.bank (p.row0 + col / 16 + p.count * (ob / 2)) (16 * (ob % 2) + col % 16)) else s) s
  else
    (List.range p.count).foldl (fun s m =>
      let (r, c0) := p.place m
      let c := c0 + (col - c0) % (if fmtMode p.fmt = 1 then 16 else 32)
      let s := if p.gpart = 0 ∨ p.gpart = 3 then mark s (wordAddr reach tile p.bank r c) else s
      if p.gpart = 0 then s else mark s (wordAddr reach tile (1 - p.bank) r c)) s

/-- Poisons the words of one row of a pass. -/
def poisonRow (s : State) (reach tile : Nat) (p : TPass) (m : Nat) : State :=
  let mark (s : State) (a n : Nat) : State := poisonRange s a n
  if fmtMode p.fmt = 2 then
    (List.range (p.n / 16)).foldl (fun s ob => mark s (wordAddr reach tile p.bank (p.row0 + m + p.count * (ob / 2)) (16 * (ob % 2))) 64) s
  else
    let (r, c0) := p.place m
    let n := if fmtMode p.fmt = 1 then 64 else 128
    let s := if p.gpart = 0 ∨ p.gpart = 3 then mark s (wordAddr reach tile p.bank r c0) n else s
    if p.gpart = 0 then s else mark s (wordAddr reach tile (1 - p.bank) r c0) n

/-- A fault of R168 sends the unit of a pass to TESTING (R169, R170). -/
def tileFault (s : State) (reach tile : Nat) (p : TPass) (code col : Nat) : State :=
  let quadMode := fmtMode p.fmt = 1
  let s := setF s reach F.TILE_FAULT_CODE code tile
  let s := setF s reach F.TILE_FAULT_QUAD (if quadMode then p.quad else 0) tile
  let s := setF s reach F.TILE_FAULT_WHOLE (b2n (!quadMode)) tile
  let s := setF s reach F.TILE_FAULT_COL (col % 32) tile
  let s := setF s reach F.TILE_FAULT_SLOT p.slot tile
  let s := setF s reach F.TILE_FAULT_VALID 1 tile
  let qs := if quadMode then [p.quad] else [0, 1, 2, 3]
  let s := qs.foldl (fun s q =>
    let v := quadState s reach tile q
    if v = 0 ∨ v = 1 ∨ v = 4 then
      let s := unitMoved (setQuad s reach tile q 3)
      let s := setFBit s reach F.TILE_QSTATE_BIST_DONE q false tile
      let s := setFBit s reach F.TILE_QSTATE_BIST_FAIL q false tile
      updTile s reach tile (fun t => { t with joins := t.joins.set q 0 })
    else s) s
  let t := getTile s reach tile
  let dead := t.queue.filter (fun x => x.scaleWrite.isNone && (!quadMode || x.quad == p.quad))
  let s := putTile s reach tile (t.forget (dead.map (·.no)))
  dead.foldl (fun s x => finishPass s reach tile x 0x1007) s

/-- Counts a clean pass of a JOINING unit (R170). -/
def countJoin (s : State) (reach tile : Nat) (p : TPass) : State :=
  (if fmtMode p.fmt = 1 then [p.quad] else [0, 1, 2, 3]).foldl (fun s q =>
    if quadState s reach tile q = 4 then updTile s reach tile (fun t => { t with joins := updAt t.joins q (· + 1) }) else s) s

/-- The address of an accumulator word a pass uses, of its row and column, and its array column (R156, R159, R162). -/
def TPass.wordOf (p : TPass) (reach tile : Nat) (partner : Bool) (m c : Nat) : Nat × Nat :=
  let m := m % max 1 p.count
  let bank := if p.gpart = 1 ∨ p.gpart = 2 ∨ (p.gpart = 3 ∧ partner) then 1 - p.bank else p.bank
  if fmtMode p.fmt = 2 then
    let n := c % max 1 p.n
    (wordAddr reach tile bank (p.row0 + m + p.count * (n / 32)) (n % 32), n % 32)
  else
    let (r, c0) := p.place m
    let col := c0 + c % (if fmtMode p.fmt = 1 then 16 else 32)
    (wordAddr reach tile bank r col, col)

/-- Poisons the words of one condition of R168 and gives its status and array column; a corrected word, one under a narrow write
(R423) and an error that no residue shows, whose word is wrong from then on (R421), give status 0. -/
def upsetWords (s : State) (reach tile : Nat) (p : TPass) (up : TileUpset) : State × Nat × Nat :=
  match up with
  | .residue c => (poisonColumn s reach tile p c, 0x4002, c)
  | .latch c => (poisonColumn (eventIn s reach 2 0 true) reach tile p c, 0x4001, c)
  | .feeder m => (poisonRow (eventIn s reach 2 0 true) reach tile p (m % max 1 p.count), 0x4001, 0)
  | .word partner m c =>
    let w := p.wordOf reach tile partner m c
    (markUncorrectable s w.1, 0x4001, w.2)
  | .fixed partner m c =>
    let w := p.wordOf reach tile partner m c
    (correctedAt s w.1, 0, w.2)
  | .under partner m c =>
    let w := p.wordOf reach tile partner m c
    (markUncorrectable s w.1, 0, w.2)
  | .error m c v =>
    let w := p.wordOf reach tile false m c
    -- the array column that worked it (R162)
    let col := if fmtMode p.fmt = 2 then 16 * (m % max 1 p.count) + c % 16 else w.2
    if v % 7 ≠ 0 then (poisonColumn s reach tile p col, 0x4002, col)
    else if v = 0 then (s, 0, w.2)
    else (wrBytes (takeFree s).2 w.1 (toBytes 4 (takeFree s).1.toNat), 0, w.2)

/-- Every condition of a pass poisons its words; the statuses and columns, in order (R168). -/
def upsetAll (s : State) (reach tile : Nat) (p : TPass) : List TileUpset → State × List (Nat × Nat)
  | [] => (s, [])
  | u :: l =>
    let r := upsetWords s reach tile p u
    let q := upsetAll r.1 reach tile p l
    (q.1, if r.2.1 = 0 then q.2 else r.2 :: q.2)

/-- Ends a pass whose last write is done: its status is the first that applies in the order of R168; an armed injection is
a residue mismatch (R171). -/
def endPass (s : State) (reach tile : Nat) (p : TPass) (ups : List TileUpset) : State :=
  let s := updTile s reach tile (fun t => { t with flight := t.flight.filter (fun x => x.no != p.no) })
  let s := tileEv (addF s reach F.TILE_ESCALATIONS_COUNT p.escRows tile) reach tile p 0x18 p.escRows
  -- a poisoned weight or offset of a beat poisons its columns in every block (R156)
  let s := p.badOuts.foldl (fun s o => (List.range p.count).foldl (fun s t => poisonColumn s reach tile p (16 * t + o)) s) s
  let r := upsetAll s reach tile p ((match p.inject with | some c => [TileUpset.residue c] | none => []) ++ p.upset ++ ups)
  match (match r.2.find? (fun x => x.1 == 0x4002) with | some x => some x | none => r.2.head?) with
  | some (st, col) => finishPass (tileFault r.1 reach tile p st col) reach tile p st
  | none => if p.pois then finishPass r.1 reach tile p 0x4003 else finishPass (countJoin r.1 reach tile p) reach tile p 0

/-- PASS_COMPLETE (R148, R151, R168, R169, R200): the escalation pass in flight, once its shadows have come and the passes ahead of it
have streamed, else the oldest pass of the lane whose rows are all written and whose escalations have ended. -/
def execPassComplete (reach tile quad : Nat) (faults : List TileUpset) (s : State) : Host.Outcome State Fault Refusal :=
  .next (
    let t := getTile s reach tile
    if !reachLive s reach then s
    else
    let mine (p : TPass) : Bool := p.lane p.fmt == (if fmtMode p.fmt = 1 then quad % 4 else 0)
    match (t.flight.find? (fun p => mine p && (p.esc.head?.map (·.flying)) == some true)).bind (fun p => p.esc.head?.map (fun b => (p, b))) with
    | some (p, b) =>
      if escReady s reach p b && !passAhead t b.started then runEscalation (updPass s reach tile p.no (fun p => { p with upset := p.upset ++ faults })) reach tile p b else s
    | none =>
      match t.flight.find? (fun p => mine p && p.esc.isEmpty && decide (p.total ≤ p.row)) with
      | some p => endPass s reach tile p faults
      | none => s)

/-! ### Unit states (R169, R170) -/

/-- TILE_SELF_TEST_DONE (R169): the self-tests of the quadrants of a mask end, those of `failed` with a failure. -/
def execTileSelfTestDone (reach tile quads failed : Nat) (s : State) : Host.Outcome State Fault Refusal :=
  .next ([0, 1, 2, 3].foldl (fun s q =>
    if bit quads q && quadState s reach tile q == 3 && !bit (getF s reach F.TILE_QSTATE_BIST_DONE tile) q then
      setFBit (setFBit s reach F.TILE_QSTATE_BIST_DONE q true tile) reach F.TILE_QSTATE_BIST_FAIL q (bit failed q) tile
    else s) s)

/-- Work of a quadrant: a pass queued before its drain order, or one in flight. -/
def quadBusy (s : State) (reach tile q : Nat) : Bool :=
  let t := getTile s reach tile
  let f := activeFmt s reach tile
  t.flight.any (fun p => fmtMode p.fmt != 1 || p.quad == q)
    || t.queue.any (fun p => p.scaleWrite.isNone && p.grand && (fmtMode f != 1 || p.quad == q))

/-- TILE_DRAIN_COMPLETE (R170). -/
def execTileDrainComplete (reach tile quad : Nat) (s : State) : Host.Outcome State Fault Refusal :=
  .next (if quadState s reach tile (quad % 4) = 1 ∧ quadBusy s reach tile (quad % 4) = false then unitMoved (setQuad s reach tile (quad % 4) 2) else s)

/-- TILE_JOIN_COUNT_REACHED (R170): 64 clean passes make a JOINING quadrant ONLINE. -/
def execTileJoinCountReached (reach tile quad : Nat) (s : State) : Host.Outcome State Fault Refusal :=
  .next (
    let q := quad % 4
    if quadState s reach tile q = 4 ∧ 64 ≤ (getTile s reach tile).joins.getD q 0 then
      updTile (unitMoved (setQuad s reach tile q 0)) reach tile (fun t => { t with joins := t.joins.set q 0 })
    else s)

end Sys2Proof.Machine
end

