-- ==== Sys2Proof/Machine/FlumeX.lean ====
section
/-!
DEFINITION. Machine/FlumeX.lean: flume programs (R242-R259) and the admission of sluices (R260, R261).
-/
namespace Sys2Proof

def FlumeAt.key (f : FlumeAt) : Nat := Machine.progKey f.reach f.engine f.slot

/-- A place names an engine and program slot of a reach whose clock runs. -/
def FlumeAt.ok (f : FlumeAt) (s : Machine.State) : Bool := Machine.reachLive s f.reach && decide (f.engine < 8) && decide (f.slot < 2)

/-- Requester numbers of a program slot at sluices: of its reads, and of its memory writes. -/
def FlumeAt.req (f : FlumeAt) : Nat := 2 ^ 21 + f.key
def FlumeAt.wreq (f : FlumeAt) : Nat := 2 ^ 22 + f.key

end Sys2Proof

namespace Sys2Proof.Machine

/-! ### Programs and their words (R247) -/

/-- Bits of a flume word outside the fields its opcode has. -/
def flumeReserved (w : Nat) : Nat :=
  let keep : Nat := match w % 256 with
    | 1 => 7 * 2 ^ 8 + (2 ^ 24 - 1) * 2 ^ 32
    | 3 => 7 * 2 ^ 8 + 2 ^ 11 + 31 * 2 ^ 12 + (2 ^ 64 - 1) * 2 ^ 64
    | 4 => 7 * 2 ^ 8 + 7 * 2 ^ 11 + (2 ^ 32 - 1) * 2 ^ 32
    | 5 => (2 ^ 23 - 1) * 2 ^ 8 + (2 ^ 24 - 1) * 2 ^ 32
    | 6 => (2 ^ 23 - 1) * 2 ^ 8 + (2 ^ 24 - 1) * 2 ^ 32 + (2 ^ 48 - 1) * 2 ^ 64
    | 7 => 63 * 2 ^ 8 + 2 ^ 14 + (2 ^ 32 - 1) * 2 ^ 32
    | 8 => 63 * 2 ^ 8 + 2 ^ 14 + 7 * 2 ^ 15 + (2 ^ 32 - 1) * 2 ^ 32
    | 9 => 7 * 2 ^ 8 + 2 ^ 11 + (2 ^ 32 - 1) * 2 ^ 32
    | _ => 0
  w - w % 256 - (w &&& keep)

def flumeOpcodeOk (w : Nat) : Bool := decide (w % 256 ≤ 9) || w % 256 == 15

/-- Transfer fields of MOVE and GATHER in range. -/
def transferOk (w : Nat) (gather : Bool) : Bool :=
  let dk := bits w 14 3
  decide (dk ≤ 3) && decide (bits w 28 3 ≤ 4) && decide (0 < bits w 32 24)
    && (gather || bits w 11 3 == 0)
    && (if dk = 0 then bits w 20 8 == 0 else bits w 17 3 == 0 && decide (bits w 20 6 < 48))
    && (!gather || (decide (1 ≤ bits w 64 16) && decide (bits w 64 16 ≤ 4096)))

/-- Reserved fields 0 and every field in its range (R247, R257). -/
def flumeFieldsOk (w : Nat) : Bool :=
  flumeReserved w == 0 &&
  match w % 256 with
  | 1 => decide (bits w 8 3 ≤ 5) && decide (0 < bits w 32 24)
  | 4 => decide (bits w 11 3 ≤ 5)
  | 5 => transferOk w false
  | 6 => transferOk w true
  | 8 => decide (bits w 15 3 ≤ 5)
  | 9 => if bit w 11 then bits w 32 32 == 0 else bits w 32 32 % 16 == 0 && decide (1040 ≤ bits w 32 32)
  | _ => true

/-- Loops and shadows in order (R244): open levels, whether a transfer has come, shadow kinds seen. -/
def flumeOrderOk : List Nat → Nat → Bool → List Bool → Bool
  | [], _, _, _ => true
  | w :: l, d, tr, sh =>
    match w % 256 with
    | 1 => bits w 8 3 == d && flumeOrderOk l (d + 1) tr sh
    | 2 => decide (0 < d) && flumeOrderOk l (d - 1) tr sh
    | 5 | 6 => flumeOrderOk l d true sh
    | 9 => !tr && !sh.contains (bit w 11) && flumeOrderOk l d tr (bit w 11 :: sh)
    | 15 => d == 0
    | _ => flumeOrderOk l d tr sh

/-- The words up to and including the first END, none when the first 64 hold none. -/
def cutAtEnd : List Nat → Option (List Nat)
  | [] => none
  | w :: l => if w % 256 = 15 then some [w] else (cutAtEnd l).map (w :: ·)

/-- Status of the validation of R244, first row of the table that applies. -/
def flumeCheck (l : List Nat) : Nat × List Nat :=
  match cutAtEnd l with
  | none => (0x1001, [])
  | some c =>
    if !c.all flumeOpcodeOk then (0x1001, [])
    else if !c.all flumeFieldsOk then (0x1002, [])
    else if !flumeOrderOk c 0 false [] then (0x1003, []) else (0, c)

/-- Access check of a program's context at an address: 0, or the status of R258; none: it waits for a page. -/
def flumeCheckRead (s : State) (ctx reach a n : Nat) : State × Option Nat :=
  match regionOf s a with
  | .stack => if stackOwned s (ctxDom s ctx) a n then (s, some (if extPoisoned s a n then 0x4001 else 0)) else (s, some 0x4004)
  | .scratch r off => (s, some (if scratchOk s (ctxDom s ctx) ctx r off n then 0 else 0x4004))
  | .acc r t b row col =>
    (s, some (if accOk s ctx r t b row col && accOk s ctx r t b row (col + (n - 1) / 4) then 0 else 0x4004))
  | .window off =>
    match windowRead s (ctxDom s ctx) reach off n with
    | (s, .data _) => (s, some 0)
    | (s, .wait) => (s, none)
    | (s, .fault f) => (s, some f)
  | _ => (s, some 0x4004)

/-- Access check of a flume write: stack memory and scratchpads only (R250). -/
def flumeCheckWrite (s : State) (ctx a n : Nat) : Nat :=
  match regionOf s a with
  | .stack => if stackOwned s (ctxDom s ctx) a n then (if extPoisoned s a n then 0x4001 else 0) else 0x4004
  | .scratch r off => if scratchOk s (ctxDom s ctx) ctx r off n then 0 else 0x4004
  | _ => 0x4004

/-- The next read of the program at the head of a slot waits only for sluice tokens, or does not (R258, R264). -/
def setTokens (s : State) (k : Nat) (v : Bool) : State :=
  match headProg s k with
  | none => s
  | some p => setHead s k { p with tokens := v }

/-- Passes a read of `n` bytes through the engine's sluice and the port sluices of the stacks it touches (R251, R260, R261). -/
def readPasses (s : State) (f : FlumeAt) (a n : Nat) : State × Bool :=
  let r := sluiceAll s f.req ((f.reach, f.engine, n) :: portReqs s (f.reach / 8) [(a, n)])
  (setTokens r.1 f.key (!r.2), r.2)

/-- The read of a program at an address waits for a page on its way that it has met before (R111). -/
def metPage (s : State) (p : Prog) (a : Nat) : Bool := ((flyingAt s a).map (p.pages.contains ·)).getD false

/-- The read of the program at the head of a slot waits for the page behind an address (R111, R258). -/
def waitPage (s : State) (k a : Nat) : State :=
  match headProg s k with
  | none => s
  | some p => setHead s k { p with tokens := false, pages := p.pages.filter (flying s) ++ (flyingAt s a).toList }

/-- FLUME_PROGRAM_START (R244): the program at the head of a slot is read and validated. A read of it that faults ends it as any
other read does (R258); `upset`: its first codeword is uncorrectable, and one that was corrected (R414, R417). -/
def execFlumeProgramStart (g : FlumeMem) (s : State) : Host.Outcome State Fault Refusal :=
  .next (
    let f := g.at'
    match headProg s f.key with
    | none => s
    | some p =>
      let stop (s : State) (st : Nat) : State := endStopped s f.key st 0 p.addr
      if p.started ∨ f.ok s = false then s
      else
        let words := (List.range 64).map (fun i => ofBytes (rdBytes s (p.addr + 16 * i) 16))
        let n := match cutAtEnd words with | some c => 16 * c.length | none => 1024
        match flumeCheckRead s p.op.ctx f.reach p.addr n with
        | (_, none) => s
        | (s, some 0) =>
          match readPasses s f p.addr n with
          | (s, false) => s
          | (s, true) =>
            let s := countReads s (f.reach / 8) [(p.addr, n)]
            if isHit g.upset && storedAt s p.addr && !poisoned s p.addr then
              match regionOf s p.addr with
              | .window off => waitPage (upsetFrame s p.addr off) f.key p.addr
              | _ => stop (markUncorrectable s p.addr) 0x4001
            else if poisonedIn s p.addr n then stop s 0x4003
            else
              let s := if isFixed g.upset && storedAt s p.addr then correctedAt s p.addr else s
              let c := flumeCheck words
              if c.1 ≠ 0 then endProg s f.key c.1 else setHead s f.key { p with started := true, tokens := false, code := c.2 }
        | (s, some st) => stop s st)

/-! ### Execution -/

/-- The base, strides and open loops give the address a register presents (R248). -/
def Prog.regAddr (p : Prog) (n : Nat) : Nat :=
  wrap 64 (p.loops.foldl (fun (a : Int) l => a + (l.2.2.1 : Int) * sext 32 (mget 0 p.stride (8 * n + l.1))) ((p.base.getD n 0 : Nat) : Int))

/-- Iteration of a loop level, 0 when it is not open. -/
def Prog.iter (p : Prog) (lv : Nat) : Nat := ((p.loops.find? (fun l => l.1 == lv)).map (fun l => l.2.2.1)).getD 0

/-- An event of a flume program (R478, R480). -/
def flumeEv (s : State) (f : FlumeAt) (p : Prog) (code n : Nat) : State :=
  countSrc s f.reach code f.engine (f.key % 2) n (p.source f.engine (f.key % 2) p.last)

/-- Executes the word at the pc of a running program when its opcode is `op`. -/
def flumeStep (s : State) (f : FlumeAt) (op : Nat) (body : Prog → Nat → Prog) : State :=
  match headProg s f.key with
  | none => s
  | some p =>
    match p.code[p.pc]? with
    | none => s
    | some w =>
      if f.ok s ∧ p.started ∧ p.ended = false ∧ p.stopAt = none ∧ w % 256 = op then
        let q := body p w
        if q.waitAt.isSome then setHead s f.key q
        else
          let p' := { p with last := p.pc }
          setHead (flumeEv (capturePoint s.counters.captures s f.reach (p'.source f.engine (f.key % 2) p.pc)) f p' 0x1A 1) f.key { q with last := p.pc }
      else s

def Prog.advance (p : Prog) : Prog := { p with pc := p.pc + 1 }

/-- NOP (R247). -/
def execFlumeNop (f : FlumeAt) (s : State) : Host.Outcome State Fault Refusal := .next (flumeStep s f 0 fun p _ => p.advance)

/-- LOOP (R248): opens a level with iteration 0. -/
def execFlumeLoop (f : FlumeAt) (s : State) : Host.Outcome State Fault Refusal :=
  .next (flumeStep s f 1 fun p w => { p.advance with loops := (bits w 8 3, bits w 32 24, 0, p.pc + 1) :: p.loops })

/-- ENDL (R248): the next iteration of the highest open level, or its close. -/
def execFlumeEndl (f : FlumeAt) (s : State) : Host.Outcome State Fault Refusal :=
  .next (flumeStep s f 2 fun p _ =>
    match p.loops with
    | [] => p.advance
    | (lv, n, i, first) :: rest => if i + 1 < n then { p with pc := first, loops := (lv, n, i + 1, first) :: rest } else { p.advance with loops := rest })

/-- SETA (R248). -/
def execFlumeSeta (f : FlumeAt) (s : State) : Host.Outcome State Fault Refusal :=
  .next (flumeStep s f 3 fun p w =>
    { p.advance with base := p.base.set (bits w 8 3) ((bits w 64 64 + (if bit w 11 then p.arg * 2 ^ bits w 12 5 else 0)) % 2 ^ 64) })

/-- STRIDE (R248). -/
def execFlumeStride (f : FlumeAt) (s : State) : Host.Outcome State Fault Refusal :=
  .next (flumeStep s f 4 fun p w => { p.advance with stride := mset 0 p.stride (8 * bits w 8 3 + bits w 11 3) (bits w 32 32) })

/-- The transfer a MOVE or GATHER word orders (R247, R249). -/
def Prog.xfer (p : Prog) (w : Nat) (gather : Bool) : Xfer :=
  let dk := bits w 14 3
  { gather := gather, src := p.regAddr (bits w 8 3), idx := if gather then p.regAddr (bits w 11 3) else 0
    total := if gather then bits w 32 24 * bits w 64 16 else bits w 32 24
    elem := if gather then bits w 64 16 else 0, estride := if gather then bits w 80 32 else 0
    dkind := dk, dst := if dk = 0 then p.regAddr (bits w 17 3) else 0
    tile := bits w 20 6, quad := bits w 26 2, prof := bits w 28 3, pc := p.pc }

/-- MOVE (R249): its transfer joins those under way; reads and emits follow as the rules allow (R251). -/
def execFlumeMove (f : FlumeAt) (s : State) : Host.Outcome State Fault Refusal :=
  .next (flumeStep s f 5 fun p w => { p.advance with xfers := p.xfers ++ [p.xfer w false], xIssued := p.xIssued + 1 })

/-- GATHER (R249). -/
def execFlumeGather (f : FlumeAt) (s : State) : Host.Outcome State Fault Refusal :=
  .next (flumeStep s f 6 fun p w => { p.advance with xfers := p.xfers ++ [p.xfer w true], xIssued := p.xIssued + 1 })

/-- Signals whose earlier transfers have all finished take effect, in order (R253). -/
def fireSigs (reach k : Nat) : Nat → State → State
  | 0, s => s
  | n + 1, s =>
    match headProg s k with
    | none => s
    | some p =>
      match p.sigs with
      | (x, c, v) :: rest =>
        if x ≤ p.xDone then
          let s := setHead s k { p with sigs := rest }
          fireSigs reach k n (putSig s p.op.ctx reach c (getSig s p.op.ctx reach c + v))
        else s
      | [] => s

/-- Signals of the program at the head of a slot that have not taken effect. -/
def sigCount (s : State) (k : Nat) : Nat := ((headProg s k).map (·.sigs.length)).getD 0

/-- SIGNAL (R253). -/
def execFlumeSignal (f : FlumeAt) (s : State) : Host.Outcome State Fault Refusal :=
  .next (
    let s := flumeStep s f 7 fun p w => { p.advance with sigs := p.sigs ++ [(p.xIssued, bits w 8 6, bits w 32 32)] }
    fireSigs f.reach f.key (sigCount s f.key) s)

/-- WAIT (R253): goes on once the counter has reached the threshold; until then the program holds at it. -/
def execFlumeWait (f : FlumeAt) (s : State) : Host.Outcome State Fault Refusal :=
  .next (flumeStep s f 8 fun p w =>
    let thr := (bits w 32 32 + (if bit w 14 then p.iter (bits w 15 3) else 0)) % 2 ^ 32
    if reached (getSig s p.op.ctx f.reach (bits w 8 6)) thr then { p.advance with waitAt := none }
    else { p with waitAt := some (p.waitAt.getD (cyc s f.reach)) })

/-- SHADOW (R257). -/
def execFlumeShadow (f : FlumeAt) (s : State) : Host.Outcome State Fault Refusal :=
  .next (flumeStep s f 9 fun p w =>
    if bit w 11 then { p.advance with aShadow := true } else { p.advance with wShadow := some (p.regAddr (bits w 8 3), bits w 32 32) })

/-- END (R244, R246). -/
def execFlumeEnd (f : FlumeAt) (s : State) : Host.Outcome State Fault Refusal :=
  .next (flumeStep s f 15 fun p _ => { p with ended := true })

/-! ### Streams and finished transfers (R184, R246, R253, R254) -/

/-- A stream serves a transfer: its profile and its destination (R254). -/
def PStream.serves (q : PStream) (x : Xfer) : Bool :=
  q.prof == x.prof && q.dkind == x.dkind && q.tile == x.tile && q.quad == x.quad

/-- The stream of a transfer (R184, R254). -/
def streamOf (p : Prog) (x : Xfer) : PStream :=
  (p.streams.find? (·.serves x)).getD { prof := x.prof, dkind := x.dkind, tile := x.tile, quad := x.quad }

def sameStream (q r : PStream) : Bool := q.prof == r.prof && q.dkind == r.dkind && q.tile == r.tile && q.quad == r.quad

def setStream (p : Prog) (q : PStream) : Prog :=
  { p with streams := if p.streams.any (sameStream q) then p.streams.map (fun r => if sameStream q r then q else r) else p.streams ++ [q] }
def updStream (s : State) (f : FlumeAt) (q : PStream) : State :=
  match headProg s f.key with | none => s | some p => setHead s f.key (setStream p q)

/-- Changes transfer `i` of the head program. -/
def updXfer (s : State) (f : FlumeAt) (i : Nat) (g : Xfer → Xfer) : State :=
  match headProg s f.key with
  | none => s
  | some p => setHead s f.key { p with xfers := updAt p.xfers i g }

/-- A transfer has delivered everything: its bytes are taken, and its stream holds no output (R246, R253). -/
def Xfer.done (p : Prog) (x : Xfer) : Bool :=
  decide (x.total ≤ x.em) && (x.prof == 0 || (let q := streamOf p x; q.out.isEmpty && q.outSide.isEmpty))

/-- Finished transfers at the front leave the program (R246). -/
def dropDone : Nat → Prog → Prog
  | 0, p => p
  | n + 1, p =>
    match p.xfers with
    | x :: l => if x.done p then dropDone n { p with xfers := l, xDone := p.xDone + 1 } else p
    | [] => p

/-- Finished transfers leave, their signals take effect, and a stopping program that has delivered everything ends (R246,
R253, R258). -/
def retire (s : State) (f : FlumeAt) : State :=
  match headProg s f.key with
  | none => s
  | some p =>
    let p := dropDone p.xfers.length p
    let s := fireSigs f.reach f.key p.sigs.length (setHead s f.key p)
    match p.stopAt with
    | some (status, pc, addr) => if p.xfers.isEmpty then endStopped s f.key status pc addr else s
    | none => s

/-- The program stops at an element: transfers `keep` of it lie before and are delivered, transfer number `keep` as far as it
has been read when `part`, and nothing after (R258). -/
def stopAfter (s : State) (f : FlumeAt) (keep : Nat) (part : Bool) (status pc addr : Nat) : State :=
  match headProg s f.key with
  | none => s
  | some p =>
    let cut (x : Xfer) : Xfer := { x with total := x.rd, ix := none }
    retire (setHead s f.key { p with
      xfers := p.xfers.take keep ++ (if part then ((p.xfers.drop keep).take 1).map cut else [])
      sigs := p.sigs.filter (fun g => decide (g.1 ≤ p.xDone + keep))
      tokens := false, waitAt := none, stopAt := some (status, pc, addr) }) f

/-- The program stops at a shadow read: what has been read is delivered (R257, R258). -/
def stopShadow (s : State) (f : FlumeAt) (status pc addr : Nat) : State :=
  match headProg s f.key with
  | none => s
  | some p =>
    let n := (p.xfers.takeWhile (fun x => decide (x.total ≤ x.rd))).length
    stopAfter s f n true status pc addr

/-! ### Reads (R249-R251, R258) -/

def setXfer (p : Prog) (i : Nat) (x : Xfer) : Prog := { p with xfers := updAt p.xfers i (fun _ => x) }

/-- Bytes of main and side output of one unit of work of a profile (R183, R184). -/
def Prof.outBytes (p : Prof) : Nat × Nat :=
  match p.op with
  | 1 => (p.gsize * elemBits p.outFmt / 8, if afmtHasSide p.outFmt then 4 else 0)
  | 2 => (32 * p.gsize * elemBits p.outFmt / 8, 16)
  | 3 => (1024, 16)
  | 4 => (p.len, 0)
  | 5 => (p.gsize, 1)
  | 6 | 7 => (128, 4)
  | _ => (1, 0)

/-- Bytes that the stream of transfer `i` has still to take up to its end. -/
def streamLeft (p : Prog) (i : Nat) (x : Xfer) : Nat :=
  (((p.xfers.take (i + 1)).filter (streamOf p x).serves).map (fun y => y.total - y.em)).sum

/-- The ranges of memory that a transfer has still to write: at its destination and, on a profile, the side output of its stream up
to its own (R184, R249). -/
def Xfer.writes (s : State) (reach : Nat) (p : Prog) (i : Nat) (x : Xfer) : List (Nat × Nat) :=
  let pr := profOf s reach (x.prof - 1)
  let q := streamOf p x
  let held := if x.dkind = 1 ∨ x.dkind = 3 then [] else [(q.sideAt, q.outSide.length)]
  if x.prof = 0 ∨ pr.op = 0 then (if x.dkind = 0 then [(x.dst + x.wr, x.total - x.wr)] else []) ++ (if x.prof = 0 then [] else held)
  else
    let units := ceilDiv (q.carry.length + streamLeft p i x) (max 1 pr.unitBytes)
    (if x.dkind = 0 then [(x.dst + x.wr, q.out.length + units * pr.outBytes.1)] else [])
      ++ (if x.dkind = 1 ∨ x.dkind = 3 then [] else held ++ [(pr.side + q.side + q.outSide.length, units * pr.outBytes.2)])

/-- The write of an earlier transfer to a 128-byte line of [a, a+n) is outstanding (R251). -/
def writesLine (s : State) (reach : Nat) (p : Prog) (l : List Xfer) (a n : Nat) : Bool :=
  l.zipIdx.any (fun y => !y.1.done p && (y.1.writes s reach p y.2).any (fun w =>
    decide (0 < w.2) && decide (w.1 / 128 * 128 < a + n) && decide (a / 128 * 128 < w.1 + w.2)))

/-- Bytes staged for a program (R245). -/
def Prog.staging (p : Prog) : Nat := (p.xfers.map (fun x => x.staged.length)).foldl (· + ·) 0

/-- The longest part of [a, a+n), in words of 4 bytes, that a context may read, now or when its page has come: the rest begins with
the faulting element (R101, R258). -/
def goodPart (s : State) (ctx reach a n : Nat) : Nat :=
  4 * (((List.range (n / 4)).reverse.find? (fun k => k != 0 && (flumeCheckRead s ctx reach a (4 * k)).2.getD 0 == 0)).getD 0)

/-- The checks of a read of up to `n` bytes of a program: how many of them it may read; or the status of the first element; none:
its page is on its way (R101, R111, R250, R258). -/
def fetchPart (s : State) (f : FlumeAt) (p : Prog) (a n : Nat) : State × Option (Except Nat Nat) :=
  if metPage s p a then (s, none)
  else
    match flumeCheckRead s p.op.ctx f.reach a n with
    | (s, none) => (waitPage s f.key a, none)
    | (s, some 0) => (s, some (.ok n))
    | (t, some st) =>
      match goodPart s p.op.ctx f.reach a n with
      | 0 => (t, some (.error st))
      | m =>
        match flumeCheckRead s p.op.ctx f.reach a m with
        | (s, none) => (waitPage s f.key a, none)
        | (s, some _) => (s, some (.ok m))

/-- What a read of a program gives. -/
inductive Fetched where
  /-- it waits -/
  | wait
  /-- the program stops at its first element with a status -/
  | stop (status : Nat)
  | bytes (l : List PByte)

/-- Reads up to `n` bytes at an address for a program, after its checks: as far as the first element that faults (R250,
R251, R258); `upset`: an uncorrectable codeword at the address, or one corrected there (R414); a word of the staging buffer that is
corrected, or that is uncorrectable and goes on poisoned (R411, R415). -/
def flumeFetch (s : State) (f : FlumeAt) (p : Prog) (earlier : List Xfer) (a n : Nat) (upset : Upset) : State × Fetched :=
  match fetchPart s f p a n with
  | (s, none) => (setTokens s f.key false, .wait)
  | (s, some (.error st)) => (s, .stop st)
  | (s, some (.ok n)) =>
    if writesLine s f.reach p earlier a n then (setTokens s f.key false, .wait)
    else
      match readPasses s f a n with
      | (s, false) => (s, .wait)
      | (s, true) =>
        let s := countReads (flumeEv s f p 0x1B n) (f.reach / 8) [(a, n)]
        let s := if upset = .inner then eventIn s f.reach 3 0 false else if upset = .staging then eventIn s f.reach 3 0 true
          else if isFixed upset ∧ storedAt s a then correctedAt s a else s
        let staged (l : List PByte) : List PByte := if upset = .staging then l.zipIdx.map (fun x => if x.2 < 8 then { x.1 with p := true } else x.1) else l
        match regionOf s a with
        | .window off =>
          if isHit upset then (waitPage (upsetFrame s a off) f.key a, .wait)
          else
            match windowRead s (ctxDom s p.op.ctx) f.reach off n with
            | (s, .data l) => (s, .bytes (staged (l.map (fun b => ⟨b, false⟩))))
            | (s, _) => (s, .wait)
        | _ =>
          if isHit upset && storedAt s a && !poisoned s a then (markUncorrectable s a, .stop 0x4001)
          else (touchBank s [(a, n)], .bytes (staged (rdPBytes s a n)))

/-- Instruction of the SHADOW of a kind in a program (R257). -/
def Prog.shadowPc (p : Prog) (act : Bool) : Nat := (p.code.findIdx? (fun w => w % 256 == 9 && bit w 11 == act)).getD p.pc

/-- A shadow read of the program, ahead of its other reads (R257): its bytes join the escalation pass's. -/
def issueShadow (s : State) (f : FlumeAt) (p : Prog) (upset : Upset) (d : ShadowDue) : State :=
  let pc := p.shadowPc (!d.weight)
  match flumeFetch s f p [] d.addr d.n upset with
  | (s, .wait) => s
  | (s, .stop st) => stopShadow s f st pc d.addr
  | (s, .bytes l) =>
    let put (b : EscBatch) : EscBatch := if d.weight then { b with wgot := b.wgot ++ l } else { b with agot := b.agot ++ l }
    let got := (((getTile s f.reach d.tile).flight.find? (fun x => x.no == d.no)).bind (fun x => x.esc.head?.map (·.wgot.length))).getD 0
    let late := d.weight && (l.drop (1024 - got)).any (·.p)
    if late then stopShadow s f 0x4003 pc d.addr
    else updPass s f.reach d.tile d.no (fun x => { x with esc := updAt x.esc 0 put })

/-- Reads the next bytes of transfer `i` of a program, the GATHER index of an element first (R249, R258). -/
def readXfer (s : State) (f : FlumeAt) (p : Prog) (i : Nat) (x : Xfer) (upset : Upset) : State :=
  let before := p.xfers.take i
  let stop (s : State) (st addr : Nat) : State := stopAfter s f i true st x.pc addr
  let put (s : State) (l : List PByte) : State := updXfer s f i (fun x =>
    let rd := x.rd + l.length
    { x with rd := rd, staged := x.staged ++ l, ix := if x.gather ∧ rd % x.elem = 0 then none else x.ix })
  let data (a n : Nat) : State :=
    if 131072 < p.staging + n then setTokens s f.key false
    else
      match flumeFetch s f p before a n upset with
      | (s, .wait) => s
      | (s, .stop st) => stop s st a
      | (s, .bytes l) => put s l
  if x.src % 4 ≠ 0 ∧ x.gather = false then stop s 0x4004 x.src
  else if x.dkind = 0 ∧ x.dst % 4 ≠ 0 then stop s 0x4004 x.dst
  else if (if x.gather then x.elem else x.total) % 4 ≠ 0 then stop s 0x4004 x.src
  else if x.gather ∧ x.idx % 4 ≠ 0 then stop s 0x4004 x.idx
  else if x.gather = false then
    let a := (x.src + x.rd) % 2 ^ 64
    data a (min (x.total - x.rd) (128 - a % 128))
  else
    let ia := (x.idx + 4 * (x.rd / x.elem)) % 2 ^ 64
    match x.ix with
    | none =>
      match flumeFetch s f p before ia 4 upset with
      | (s, .wait) => s
      | (s, .stop st) => stop s st ia
      | (s, .bytes l) => if l.any (·.p) then stop s 0x4003 ia else updXfer s f i (fun x => { x with ix := some (ofBytes (pbytes l)) })
    | some ix =>
      let left := x.elem - x.rd % x.elem
      let a := (x.src + ix * x.estride + x.rd % x.elem) % 2 ^ 64
      let n := min left (128 - a % 128)
      if ix = 0xFFFFFFFF then (if 131072 < p.staging + min left 128 then setTokens s f.key false else put s (List.replicate (min left 128) ⟨0, false⟩))
      else if a % 4 ≠ 0 then stop s 0x4004 a
      else data a n

/-- FLUME_READ_ISSUE (R249-R251, R257, R258): a shadow read that is due, else the next read of the program, in program
order. -/
def execFlumeReadIssue (f : FlumeAt) (upset : Upset) (s : State) : Host.Outcome State Fault Refusal :=
  .next (
    match headProg s f.key with
    | none => s
    | some p =>
      if f.ok s = false then s
      else
        match shadowDue s f.reach f.key with
        | some d => issueShadow s f p upset d
        | none =>
          match (p.xfers.findIdx? (fun x => decide (x.rd < x.total))).bind (fun i => (p.xfers[i]?).map (fun x => (i, x))) with
          | none => s
          | some (i, x) => readXfer s f p i x upset)

/-! ### Emits (R184, R245, R254, R256) -/

/-- Lane of a transfer's tile input: its quadrant in quad mode. -/
def Xfer.lane (s : State) (reach : Nat) (x : Xfer) : Nat := if fmtMode (activeFmt s reach x.tile) = 1 then x.quad else 0

/-- Sends bytes of a transfer into a tile input, as many as it takes; how many it took (R254, R257). -/
def feedTile (s : State) (f : FlumeAt) (kind : Nat) (x : Xfer) (l : List PByte) (row : Option RowSrc) : State × Nat :=
  let q := x.lane s f.reach
  if x.quad ≠ 0 ∧ q = 0 then (s, 0)
  else
    match tileAccept s f.reach x.tile kind q f.engine f.slot with
    | none => (s, 0)
    | some (ps, first, n) =>
      let l := l.take n
      match headProg s f.key with
      | none => (s, 0)
      | some p =>
        let full := fmtMode (activeFmt s f.reach x.tile) = 0
        -- bytes that follow a block's first ones belong to that block
        let blk := if first then p.blocks else p.blocks - 1
        let fed := (x.tile, ps.no, kind)
        let p := { p with
          blocks := if kind = 1 ∧ first ∧ full then p.blocks + 1 else p.blocks
          fed := if p.fed.contains fed then p.fed else p.fed ++ [fed] }
        let sh := if full then p.wShadow.map (fun w => ⟨w.1 + blk * w.2, p.op⟩) else none
        (enterLane (flumeEv (setHead s f.key p) f p 0x1C l.length) f.reach x.tile kind q ps.no l sh row, l.length)

/-- The SSTRIDE of a program is too short for the records of a tile's GSIZE when it delivers a full-mode block there (R257;
DEDUCED, notes/assumptions 34). -/
def shortStride (s : State) (f : FlumeAt) (p : Prog) (x : Xfer) : Bool :=
  let fm := activeFmt s f.reach x.tile
  x.dkind == 1 && fmtMode fm == 0 && (match p.wShadow with | some w => decide (w.2 < 32 * fmtGsize fm + 16) | none => false)
    && (match tileAccept s f.reach x.tile 1 0 f.engine f.slot with | some (_, first, _) => first | none => false)

/-- Writes a chunk of a transfer to memory: none when a sluice holds it; else the state or a stop status. `upset`: of the old data
that a narrow write leaves (R423). -/
def flumeWrite (s : State) (f : FlumeAt) (ctx a : Nat) (l : List PByte) (upset : Upset) : State × Option (Except Nat Unit) :=
  match flumeCheckWrite s ctx a l.length with
  | 0 =>
    match sluiceAll s f.wreq ((f.reach, f.engine, l.length) :: writeReqs s (f.reach / 8) [(a, l.length)]) with
    | (s, false) => (s, none)
    | (s, true) => (wrPBytes (underWrite (countWrites s (f.reach / 8) [(a, l.length)]) upset a l.length) a l, some (.ok ()))
  | st => (s, some (.error st))

/-- The part of a write that its context may make: the rest begins with the faulting element (R258). -/
def writablePart (s : State) (ctx a : Nat) (l : List PByte) : List PByte :=
  if flumeCheckWrite s ctx a l.length = 0 then l
  else
    match ((List.range (l.length / 4)).reverse.find? (fun k => k != 0 && flumeCheckWrite s ctx a (4 * k) == 0)) with
    | some k => l.take (4 * k)
    | none => l

/-- An emit of transfer `i` waits on its destination, or waits no more (R254, R258, R264). -/
def setHeld (s : State) (f : FlumeAt) (i : Nat) (waits : Bool) : State :=
  updXfer s f i (fun x => { x with held := if waits then some (x.held.getD (cyc s f.reach)) else none })

/-- Writes bytes of transfer `i` to memory; `ok` goes on when they are written (R250, R258). A request that a sluice holds keeps its
size until it passes (R260). -/
def emitToMemory (s : State) (f : FlumeAt) (ctx i : Nat) (x : Xfer) (a : Nat) (l : List PByte) (upset : Upset) (ok : State → Nat → State) : State :=
  let l := if x.asked = 0 then l else l.take x.asked
  let l := writablePart s ctx a l
  match flumeWrite s f ctx a l upset with
  | (s, none) => updXfer s f i (fun y => { y with asked := l.length })
  | (s, some (.error st)) => stopAfter s f i false st x.pc a
  | (s, some (.ok _)) => retire (ok (updXfer s f i (fun y => { y with asked := 0 })) l.length) f

/-- Sends up to 128 bytes of transfer `i` without a profile (R256). -/
def emitRaw (s : State) (f : FlumeAt) (p : Prog) (i : Nat) (x : Xfer) (upset : Upset) : State :=
  if x.dkind = 0 then
    let a := (x.dst + x.wr) % 2 ^ 64
    emitToMemory s f p.op.ctx i x a (x.staged.take (128 - a % 128)) upset fun s n =>
      updXfer s f i (fun y => { y with staged := y.staged.drop n, em := y.em + n, wr := y.wr + n })
  else if shortStride s f p x then stopAfter s f i false 0x1002 (p.shadowPc false) 0
  else
    let r := feedTile s f x.dkind x (x.staged.take 128) none
    if r.2 = 0 then setHeld r.1 f i true
    else retire (setHeld (updXfer r.1 f i (fun y => { y with staged := y.staged.drop r.2, em := y.em + r.2 })) f i false) f

/-- A sidecar MOVE of an earlier transfer to the lane of a weight transfer is unfinished: emits to one lane leave in order (R251). -/
def sideBehind (p : Prog) (i : Nat) (x : Xfer) : Bool :=
  (p.xfers.take i).any (fun y => !y.done p && y.dkind == 2 && y.tile == x.tile && y.quad == x.quad)

/-- Delivers output of a group that its destination has not taken yet: up to 128 bytes and the side output, where the set that it was
worked with sends it (R184, R195, R256, R260). -/
def emitOut (s : State) (f : FlumeAt) (p : Prog) (i : Nat) (x : Xfer) (q : PStream) (upset : Upset) : State :=
  if x.dkind = 1 ∨ x.dkind = 3 then
    if shortStride s f p x then stopAfter s f i false 0x1002 (p.shadowPc false) 0
    else
      let r1 := if q.out.isEmpty then (s, 0) else feedTile s f x.dkind x (q.out.take 128) (if x.dkind = 3 then q.row else none)
      let r2 := if q.outSide.isEmpty || sideBehind p i x then (r1.1, 0) else feedTile r1.1 f 2 x q.outSide none
      if r1.2 + r2.2 = 0 then setHeld r2.1 f i true
      else
        let out := q.out.drop r1.2
        retire (setHeld (updStream r2.1 f { q with
          out := out, outSide := q.outSide.drop r2.2, row := if out.isEmpty then none else q.row }) f i false) f
  else if q.outSide.isEmpty = false then
    let a := q.sideAt
    emitToMemory s f p.op.ctx i x a (q.outSide.take (128 - a % 128)) upset fun s n =>
      updStream s f { q with outSide := q.outSide.drop n, side := q.side + n, sideAt := q.sideAt + n }
  else if x.dkind = 0 then
    let a := (x.dst + x.wr) % 2 ^ 64
    emitToMemory s f p.op.ctx i x a (q.out.take (128 - a % 128)) upset fun s n =>
      updStream (updXfer s f i (fun y => { y with wr := y.wr + n })) f { q with out := q.out.drop n }
  else
    let r := feedTile s f x.dkind x (q.out.take 128) none
    if r.2 = 0 then setHeld r.1 f i true
    else retire (setHeld (updStream r.1 f { q with out := q.out.drop r.2 }) f i false) f

/-- The activation shadow of the row that begins with the next byte of a transfer (R257). -/
def rowShadow (p : Prog) (pr : Prof) (x : Xfer) (q : PStream) : Option RowSrc :=
  if p.aShadow && pr.op == 1 && !x.gather && x.dkind == 3 then some ⟨(x.src + x.em) % 2 ^ 64, x.prof - 1, q.elems, p.op⟩ else none

/-- Takes up to 128 bytes of transfer `i` into its profile; a whole group is worked at once (R183-R185, R195, R197, R201). A
row whose bytes do not lie together has no activation shadow. -/
def emitProfile (s : State) (f : FlumeAt) (p : Prog) (pr : Prof) (i : Nat) (x : Xfer) (q : PStream) : State :=
  let toTile := x.dkind = 1 ∨ x.dkind = 3
  if pr.outBytes.2 ≠ 0 ∧ ¬ toTile ∧ pr.side = 0 then stopAfter s f i false 0x1003 x.pc x.src
  else
    let n := min 128 (min x.staged.length (pr.unitBytes - q.carry.length))
    let row := if q.carry.isEmpty then rowShadow p pr x q
      else match q.row, rowShadow p pr x q with
        | some r, some r' => if r'.addr = r.addr + q.carry.length then some r else none
        | _, _ => none
    let q := { q with carry := q.carry ++ x.staged.take n, row := row }
    let s := updXfer s f i (fun y => { y with staged := y.staged.drop n, em := y.em + n })
    if q.carry.length < pr.unitBytes then retire (updStream s f q) f
    else
      let unit := q.carry.take pr.unitBytes
      let out := rotUnit s q.olds pr q.elems q.groups (pbytes unit)
      if out.fault ≠ 0 then stopAfter s f i false out.fault x.pc (x.src + x.em)
      else
        let bad := unit.any (·.p)
        let pb (l : List Byte) : List PByte := l.map (fun b => ⟨b, bad⟩)
        let s := addF (addF s f.reach F.ROT_SAT_COUNT out.sat) f.reach F.ROT_NAN_COUNT out.nan
        let s := countEv s f.reach 0x20 (x.prof - 1) pr.unitElems
        -- a gradient group enters a tile without its exponent (R201); other side entries precede their rows, and a weight
        -- sidecar goes to the sidecar lane (R184, R256)
        let side := if toTile ∧ pr.op = 5 then [] else out.side
        let lane := x.dkind = 1 ∧ (pr.op = 2 ∨ pr.op = 3)
        let q := { q with carry := q.carry.drop pr.unitBytes, elems := q.elems + pr.unitElems, groups := q.groups + 1, sideAt := pr.side + q.side
                          olds := (q.olds.filter (fun (o : Nat × Prof) => decide (pr.unitElems < o.1))).map (fun (o : Nat × Prof) => (o.1 - pr.unitElems, o.2)) }
        retire (updStream s f (if toTile ∧ ¬ lane then { q with out := pb (side ++ out.main) }
          else { q with out := pb out.main, outSide := pb side })) f

/-- A transfer sends to an input of the kind: a weight profile feeds the sidecar lane too (R256). -/
def Xfer.feeds (s : State) (reach : Nat) (x : Xfer) (dkind : Nat) : Bool :=
  x.dkind == dkind || (dkind == 2 && x.dkind == 1 && x.prof != 0 && [2, 3].contains (profOf s reach (x.prof - 1)).op)

/-- The transfers of a kind of destination that may emit: none earlier to the same destination is unfinished (R251, R254). -/
def emitCands (s : State) (reach : Nat) (p : Prog) (dkind : Nat) : List (Nat × Xfer) :=
  let l := p.xfers.zipIdx
  (l.filter (fun x => x.1.dkind == dkind && !x.1.done p &&
    !l.any (fun y => decide (y.2 < x.2) && !y.1.done p && y.1.feeds s reach dkind && y.1.tile == x.1.tile && y.1.quad == x.1.quad))).map (fun x => (x.2, x.1))

/-- A candidate has something to send, and its tile input takes something. -/
def canEmit (s : State) (f : FlumeAt) (p : Prog) (i : Nat) (x : Xfer) : Bool :=
  let q := streamOf p x
  let pr := profOf s f.reach (x.prof - 1)
  let accepts (k : Nat) : Bool := (tileAccept s f.reach x.tile k (x.lane s f.reach) f.engine f.slot).isSome
  if x.prof = 0 then !x.staged.isEmpty && (x.dkind == 0 || accepts x.dkind)
  else if q.out.isEmpty && q.outSide.isEmpty then
    (if pr.op = 0 then !q.carry.isEmpty || (!x.staged.isEmpty && (x.dkind == 0 || accepts x.dkind))
     else !x.staged.isEmpty || decide (pr.unitBytes ≤ q.carry.length))
  else if x.dkind = 1 ∨ x.dkind = 3 then (!q.out.isEmpty && accepts x.dkind) || (!q.outSide.isEmpty && accepts 2 && !sideBehind p i x)
  else x.dkind == 0 || !q.outSide.isEmpty || accepts x.dkind

/-- One emit of transfer `i`: what its stream holds; else, on a profile, what it takes next; else its bytes as they are. What a stream
holds of a unit when its profile becomes OP = 0 leaves as it came (R195; DESIGN CHOICE, notes/assumptions 33). -/
def emitXfer (s : State) (f : FlumeAt) (p : Prog) (i : Nat) (x : Xfer) (upset : Upset) : State :=
  let pr := profOf s f.reach (x.prof - 1)
  let q := streamOf p x
  if x.prof = 0 then (if x.staged.isEmpty then s else emitRaw s f p i x upset)
  else if q.out.isEmpty = false ∨ q.outSide.isEmpty = false then emitOut s f p i x q upset
  else if pr.op = 0 then
    if q.carry.isEmpty = false then updStream s f { q with carry := [], olds := [], out := q.carry }
    else if x.staged.isEmpty then s else emitRaw s f p i x upset
  else if x.staged.isEmpty ∧ q.carry.length < pr.unitBytes then s
  else emitProfile s f p pr i x q

/-- FLUME_EMIT (R245, R254): one emit of up to 128 bytes to a kind of destination. `upset`: of the old data that a narrow write to
memory leaves (R423). -/
def execFlumeEmit (g : FlumeMem) (dkind : Nat) (s : State) : Host.Outcome State Fault Refusal :=
  .next (
    let f := g.at'
    match headProg s f.key with
    | none => s
    | some p =>
      let cs := if f.ok s then emitCands s f.reach p dkind else []
      match (match cs.find? (fun c => canEmit s f p c.1 c.2) with | some c => some c | none => cs.find? (fun c => !c.2.staged.isEmpty || c.2.prof != 0)) with
      | none => s
      | some (i, x) => emitXfer s f p i x g.upset)

/-! ### Ends (R246, R258) -/

/-- The pass a program fed still waits or runs. -/
def fedBusy (s : State) (reach : Nat) (x : Nat × Nat × Nat) : Bool :=
  let t := getTile s reach x.1
  t.flight.any (fun p => p.no == x.2.1) || t.queue.any (fun p => p.no == x.2.1)

/-- FLUME_PROGRAM_COMPLETE (R246). -/
def execFlumeProgramComplete (f : FlumeAt) (s : State) : Host.Outcome State Fault Refusal :=
  .next (
    match headProg s f.key with
    | none => s
    | some p =>
      if f.ok s && p.ended && p.stopAt.isNone && p.xfers.isEmpty && p.sigs.isEmpty
          && (!(p.aShadow || p.wShadow.isSome) || !p.fed.any (fedBusy s f.reach)) then endProg s f.key 0
      else s)

/-- FLUME_WAIT_TIMEOUT (R258): a WAIT or a held emit has waited longer than the bound of FLUME_CFG. -/
def execFlumeWaitTimeout (f : FlumeAt) (s : State) : Host.Outcome State Fault Refusal :=
  .next (
    let t := getF s f.reach F.FLUME_CFG_TIMEOUT
    let late (c : Nat) : Bool := decide (2 ^ (t + 12) < cyc s f.reach - c)
    match headProg s f.key with
    | none => s
    | some p =>
      if t = 0 ∨ t = 15 ∨ f.ok s = false then s
      else
        match (p.xfers.findIdx? (fun x => (x.held.map late).getD false)).bind (fun i => (p.xfers[i]?).map (fun x => (i, x))) with
        | some (i, x) => stopAfter s f i false 0x1009 x.pc 0
        | none => if (p.waitAt.map late).getD false then stopAfter s f p.xfers.length false 0x1009 p.pc 0 else s)

/-! ### Sluices (R260, R261) -/

/-- SLUICE_ADMIT (R260, R261): the oldest waiting request passes when the level covers it; a rill it held issues again. -/
def execSluiceAdmit (island sluice : Nat) (s : State) : Host.Outcome State Fault Refusal :=
  .next (
    if 60 ≤ island ∨ 16 ≤ sluice then s
    else
      let s := settleSluice s island sluice
      let x := getSluice s island sluice
      match x.waiting with
      | [] => s
      | (q, n, left) :: rest =>
        let y := pay x.level left
        let s := if q = 0 then portBytes s island sluice (left - y.2) else s
        if y.2 ≠ 0 then putSluice s island sluice { x with level := y.1, waiting := (q, n, y.2) :: rest }
        else
          -- a requester that is gone leaves nothing to pass
          let live := if 2 ^ 21 ≤ q then (getProgs s ((q - 2 ^ 21) % 2 ^ 20)).isEmpty == false
            else ((getRill s (q - 2 ^ 20)).map (·.wait)) == some .sluice
          let s := putSluice s island sluice { x with
            level := y.1, waiting := rest, passed := if q ≠ 0 ∧ live = true then x.passed ++ [(q, n)] else x.passed }
          wakeAtSluice s q)

end Sys2Proof.Machine
end

