-- ==== Sys2Proof/Machine/DieOps.lean ====
section
/-!
DEFINITION. Machine/DieOps.lean: dies at work (R354-R363), the placing of write-buffer data and what happens when it fails
(R383-R387), collection and replacement (R391-R396), and channel faults (R370, R371).
-/
namespace Sys2Proof.Machine

/-- Index 0-3 of a channel island. -/
def flashIndex (isl : Nat) : Option Nat := [48, 49, 52, 53].findIdx? (· == isl)

/-- Channel controllers run die operations: not while the module is FLUSHING or HALTED, nor past the point of no return of a
DP2 entry, nor in DP3 (R86, R447). -/
def flashRuns (s : State) : Bool :=
  getF s 59 F.WEIR_STATUS_MSTATE != 3 && getF s 59 F.WEIR_STATUS_MSTATE != 4 && decide (getF s 56 F.DQP_STATUS_PSTATE < 2) && !selfRefresh s

/-! ### The NAND grant (R436) -/

/-- Charge of a running operation, in 0.05 W. -/
def opCharge : DieOp → Nat
  | .read _ _ _ => 2
  | _ => 3

def DieOp.isRead : DieOp → Bool
  | .read _ _ _ => true
  | _ => false

/-- Charges of an island's running operations. -/
def nandLoad (s : State) (k : Nat) : Nat :=
  ((s.flash.dies.filter (fun d => d.1 / 512 == k)).map (fun d => ((d.2.run.map opCharge).getD 0))).foldl (· + ·) 0

/-- A channel's bus transfers: a page read of one of its dies runs, which ends with its transfer (R356; DESIGN CHOICE,
notes/assumptions 44). -/
def busMoves (s : State) (c : Nat) : Bool := s.flash.dies.any (fun d => d.1 / 16 == c && (d.2.run.map DieOp.isRead).getD false)

/-- Channels of an island whose bus transfers, `more` among them. -/
def busesMoving (s : State) (k : Nat) (more : Option Nat) : Nat :=
  ((List.range 32).filter (fun i => busMoves s (32 * k + i) || more == some (32 * k + i))).length

/-- The NAND's part of an island's grant, in 0.05 W: what the controller itself takes at its level, 4 W to 15 W (R431), is
left out (DESIGN CHOICE, notes/assumptions 44). -/
def nandGrant (s : State) (k : Nat) : Nat :=
  getF s 59 F.WEIR_GRANT_GRANT (flashIsland k) * 10 - (80 + 220 * getF s 59 F.WEIR_GRANT_LEVEL (flashIsland k) / 15)

/-- An operation's charge fits beside those that run, 1 W at the nominal rate for each bus that would transfer, less at lower clock
levels (R431, R436). -/
def opFits (s : State) (c : Nat) (o : DieOp) : Bool :=
  let k := c / 32
  let buses := busesMoving s k (if o.isRead then some c else none)
  decide (3 * (nandLoad s k + opCharge o) + 2 * (15 + getF s 59 F.WEIR_GRANT_LEVEL (flashIsland k)) * buses ≤ 3 * nandGrant s k)

/-! ### Which operation may start -/

/-- A program may start: its plane set is erased (R362, R366) and the channel takes programs (R371). -/
def progReady (s : State) (c d : Nat) : DieOp → Bool
  | .prog id _ mem _ _ => !chFence s c && (match findStripe s id with
      | some x => (match x.members[mem]? with | some m => m.chan == c && m.die == d && (getSet s c d m.block).clean | none => false)
      | none => false)
  | .journal _ => !chFence s c
  | _ => false

def opReady (s : State) (c d : Nat) (o : DieOp) : Bool :=
  match o with
  | .erase _ => !chFence s c && !erasesHeld s
  | o => progReady s c d o

/-- A RAW_READ's page read. -/
def DieOp.isRaw : DieOp → Bool
  | .read _ _ (.raw _) => true
  | _ => false

def DieOp.isErase : DieOp → Bool
  | .erase _ => true
  | _ => false

def DieOp.isUrgent : DieOp → Bool
  | .prog _ _ _ _ u => u
  | _ => false

/-! ### The erase-intent journal (R361-R363) -/

/-- An erase that an intent announced waits or runs. -/
def Die.eraseActive (d : Die) (i : JEntry) : Bool :=
  (d.run.toList ++ d.susp.toList ++ d.others).any (fun o => match o with | .erase bs => bs.contains (i.plane, i.block) | _ => false)

/-- No intent's erase waits or runs, so that a further one may be journaled; an intent that a stop left open waits for nothing. -/
def Die.erasesOver (d : Die) : Bool := d.intents.all (fun i => d.dones.any (fun e => e.iseq == i.iseq) || !d.eraseActive i)

/-- A journal page is queued or running. -/
def Die.pageQueued (d : Die) : Bool :=
  let is (o : DieOp) : Bool := match o with | .journal _ => true | _ => false
  d.others.any is || (d.run.map is).getD false

/-- INTENTs for the four blocks of a plane set, or for parameter block 1, 2 or 3 of plane 0 (R353, R361). -/
def intentsFor (s : State) (c dn : Nat) (d : Die) (b : Nat) : List JEntry :=
  (List.range (if b < 4 then 1 else 4)).map (fun p => ⟨1, p, b, d.iseq + p + 1, (getSet s c dn b).eraseCount + 1, false⟩)

/-- Queues a journal page ahead of the other operations: the given intents and every DONE not yet on media. -/
def Die.queuePage (d : Die) (ints : List JEntry) : Die :=
  { d with
    iseq := d.iseq + ints.length
    others := .journal ⟨d.jplane, d.pageSeq + 1, d.generation, ints ++ d.dones⟩ :: d.others }

/-- The journal block a switch goes to: the other one of the pair in use, or the first of the replacement pair once that of planes 0
and 1 has failed (R353, R363). -/
def Die.jother (d : Die) : Nat := if d.jlost = 1 ∧ d.jplane < 2 then 2 else if d.jplane % 2 = 0 then d.jplane + 1 else d.jplane - 1

/-- The intent to erase that block (R361, R363). -/
def Die.intentJ (d : Die) : JEntry := ⟨3, d.jother, 0, d.iseq + 1, d.jcounts.getD d.jother 0 + 1, false⟩

/-- The journal switches: fewer than two pages of the active block are free, or its pair has failed (R363). -/
def Die.switches (d : Die) : Bool := decide (d.jfree < 2) || (d.jlost == 1 && decide (d.jplane < 2))

/-- Queues the journal page that is due: the switch's INTENT_J, else the next wanted erase (R362, R363). -/
def duePage (s : State) (c dn : Nat) : State :=
  let d := getDie s c dn
  if d.pageQueued || !d.erasesOver then s
  else if d.switches then updDie s c dn (fun d => d.queuePage [d.intentJ])
  else
    match d.wantErase with
    | [] => s
    | (_, b) :: l => updDie (updDie s c dn (fun d => d.queuePage (intentsFor s c dn d b))) c dn (fun d => { d with wantErase := l })

/-! ### The end of suspensions (R358) -/

/-- Resumes a suspended operation once no read waits, the program of the suspension being over, or 16 reads have run (R358; DEDUCED,
notes/assumptions 45); an erase only once no power state holds it (R86). -/
def maybeResume (s : State) (c dn : Nat) : State :=
  let d := getDie s c dn
  if (d.st == .psusp || (d.st == .esusp && !erasesHeld s)) && (d.reads.isEmpty || decide (16 ≤ d.readsIn)) then
    updDie s c dn (fun d => { d with st := if d.st == .psusp then .prog else .erase, run := d.susp, susp := none })
  else s

/-- Suspends an operation (R357, R358). -/
def suspendDie (s : State) (c dn : Nat) (st : DieSt) : State :=
  let isl := chIsl c
  countEv (addF (updDie s c dn (fun d => { d with st := st, suspensions := d.suspensions + 1 })) isl F.FCH_SUSPENDS_COUNT 1) isl 0x43 (c % 32) 1

/-- Every running erase is suspended: a DP2 entry begins (R86). DESIGN CHOICE (notes/assumptions 13): whatever FCH_SUSP_CFG
says of suspensions. -/
def suspendErases (s : State) : State :=
  (s.flash.dies.filter (fun d => d.2.st == .erase)).foldl (fun s d => suspendDie s (d.1 / 16) (d.1 % 16) .esuspending) s

/-- The dies go on as R358 has them (R86). -/
def resumeDies (s : State) : State := s.flash.dies.foldl (fun s d => maybeResume s (d.1 / 16) (d.1 % 16)) s

/-! ### Data that cannot be placed (R84, R387) -/

/-- Two failed ranges of one command meet. -/
def Deferred.meets (x y : Deferred) : Bool :=
  x.no == y.no && x.cause == y.cause && (x.block + x.count == y.block || y.block + y.count == x.block)

/-- Adds a failed range of a command to the pending entries, one for each maximal range (R84): it joins those it meets, in the
place of the first. -/
def deferError (s : State) (x : Deferred) : State :=
  updDqp s fun d =>
    match d.deferred.filter x.meets with
    | [] => { d with deferred := d.deferred ++ [x] }
    | y :: l =>
      let all := x :: y :: l
      let z := { y with block := all.foldl (fun b e => min b e.block) x.block, count := (all.map (·.count)).foldl (· + ·) 0 }
      { d with deferred := d.deferred.filterMap (fun e => if e = y then some z else if x.meets e then none else some e) }

/-- Runs of set bits of an 8-bit mask: first bit and length. -/
def maskRuns (m : Nat) : List (Nat × Nat) :=
  ((List.range 8).filter (fun i => bit m i && (i == 0 || !bit m (i - 1)))).map (fun i =>
    (i, (((List.range 8).find? (fun k => decide (i < k) && !bit m k)).getD 8) - i))

/-- What a unit that cannot be placed does to a command with blocks in it (R78, R84, R387): a FUA write completes with the
cause, once; any other gets a deferred error and a health event for each range of blocks it still owns. -/
def failWriter (lua cause : Nat) (s : State) (w : Writer) : State :=
  if w.fua then (if w.mask = 0 then s else complete s w.no cause)
  else (maskRuns w.mask).foldl (fun s r =>
    let blk := 8 * (lua % 2 ^ 56) + r.1
    deferError (healthEvent s 4 w.nsid cause blk r.2) ⟨w.no, w.sqid, w.tag, w.nsid, blk, r.2, cause⟩) s

/-- A slot's unit still lives there, in the buffer or in its staging copy. -/
def slotCurrent (s : State) (k n : Nat) (x : Slot) : Bool :=
  match mfind s.flash.map x.lua, x.staged with
  | some (.slot k' n'), _ => k' == k && n' == n
  | some (.stripe id off), some st => st == (id, off)
  | _, _ => false

def dropSlot (s : State) (key : Nat) : State := updFlash s fun f => { f with slots := mdel f.slots key }

/-- A newer slot of a unit takes what the older one holds that nothing has written since, and its commands. -/
def Slot.takes (y x : Slot) : Slot :=
  let add := Nat.land x.mask (255 - y.mask)
  { y with
    mask := Nat.lor y.mask add, lostMask := Nat.lor y.lostMask (Nat.land x.lostMask add)
    data := (List.range 8).map (fun i => if bit add i then x.data.getD i [] else y.data.getD i [])
    writers := y.writers.foldl addWriter x.writers }

/-- A slot whose unit no longer lives there is freed; a newer slot of the unit takes its blocks and commands (R78, R83, R84; DEDUCED,
notes/assumptions 41). -/
def yieldSlot (s : State) (key : Nat) (x : Slot) : State :=
  let s := dropSlot s key
  finishDurable (match mfind s.flash.map x.lua with
    | some (.slot k n) => updSlot s (slotKey k n) (fun y => if y.lua = x.lua then y.takes x else y)
    | _ => s)

/-- A slot's unit cannot be placed: its commands hear of it and the unit is lost (R387); data written again since is none of it. -/
def failSlot (s : State) (key : Nat) (cause : Nat) : State :=
  match mfind s.flash.slots key with
  | none => s
  | some x =>
    if slotCurrent s (key / 2 ^ 20) (key % 2 ^ 20) x = false then yieldSlot s key x else
    let s := x.writers.foldl (failWriter x.lua cause) s
    let s := updFlash s fun f => { f with slots := mdel f.slots key }
    finishDurable (loseUnit s x.lua)

/-! ### Stripes that fail (R387, R394) -/

/-- Drops a stripe's queued programs on every die. -/
def dropProgs (s : State) (id : Nat) : State :=
  let other (o : DieOp) : Bool := match o with | .prog i _ _ _ _ => i != id | _ => true
  updFlash s fun f => { f with dies := f.dies.map (fun d => (d.1, { d.2 with others := d.2.others.filter other })) }

/-- Slots whose blocks lie in rows of the stripe that are not complete. -/
def slotsIn (s : State) (id : Nat) : List Nat :=
  (s.flash.slots.filter (fun p => match p.2.placed with | some (i, _, _) => i == id | none => false)).map (·.1)

/-- A slot of a closed stripe waits for a new one; a failure of the stripe counts, the third one for all (R387), but a channel out of
service does not (R371). -/
def reopenSlot (s : State) (failed : Bool) (key : Nat) : State :=
  let s := updSlot s key (fun y => { y with placed := none, fails := y.fails + b2n failed })
  match mfind s.flash.slots key with
  | none => s
  | some x =>
    if slotCurrent s (key / 2 ^ 20) (key % 2 ^ 20) x = false then yieldSlot s key x
    else if failed ∧ 3 ≤ x.fails then failSlot s key 0x3002 else s

/-- Closes a stripe at its last complete row (R371, R387). -/
def closeStripe (s : State) (id : Nat) (failed : Bool) : State :=
  match findStripe s id with
  | none => s
  | some x =>
    let s := dropProgs s id
    let held := slotsIn s id
    let s := updStripe s id (fun x => { x with
      sealed := true, rowsOut := x.rowsDone, next := min x.next (x.rowsDone * x.rowKib), progDone := [], lows := []
      packed := x.packed.filter (fun p => decide (p.off + ceilDiv p.bytes.length 1024 ≤ x.rowsDone * x.rowKib)) })
    let s := updFlash s fun f => { f with repls := f.repls.filter (fun r => r.stripe != id) }
    let s := if x.sealed then s else journalRec s (x.group / 2) (.stripeSeal id)
    held.foldl (fun s k => reopenSlot s failed k) s

/-- Live units of a stripe, with their packed blocks; every page of a journal stripe is live (R405). -/
def liveOf (s : State) (x : Stripe) : List Packed :=
  x.packed.filter (fun p => x.kind == .journal || mfind s.flash.map p.lua == some (.stripe x.id p.off))

/-- The pages a packed block touches are read once more (R401). -/
def readPacked (s : State) (x : Stripe) (p : Packed) : State :=
  (pagesOf x p).foldl (fun s pg =>
    match physPage x pg with
    | some a => if memberIn s x pg.2.1 then pageCounted s a 1 false else rebuildReads s x pg
    | none => s) s

/-- Packs the live blocks of a victim into target stripes; the targets used, none where no stripe can be opened. -/
def copyOut (g : Nat) (kind : StripeKind) : List Packed → State → List Nat → Option (State × List Nat)
  | [], s, ts => some (s, ts)
  | p :: l, s, ts =>
    match stripeFor s g kind (ceilDiv p.bytes.length 1024) with
    | none => none
    | some (s, t) => copyOut g kind l (appendBlock s t p.lua p.bytes p.lostMask false).1 (if ts.contains t then ts else ts ++ [t])

/-- Starts the collection of a victim (R392). -/
def startCollect (s : State) (victim discard : Nat) : Option State :=
  (findStripe s victim).bind fun x =>
    (copyOut x.group (if x.kind = .journal then .journal else .target) (liveOf s x) ((liveOf s x).foldl (fun s p => readPacked s x p) s) []).map fun r =>
      let s := r.2.foldl (fun s t => padRow s t false) r.1
      updFlash s fun f => { f with gcs := f.gcs ++ [⟨victim, r.2, (liveOf s x).map (·.lua), discard⟩] }

/-- Restarts the collections that had a failed target, where a stripe can be opened now (R394). -/
def restartCollect (l : List Gc) (s : State) : State := l.foldl (fun s g => (startCollect s g.victim g.discard).getD s) s

/-- A target stripe fails: no entry points into it, so its members are erased and its collections start again; a target
that already took a switch is closed instead (R394). -/
def failTarget (s : State) (id : Nat) : State :=
  let l := s.flash.gcs.filter (fun g => g.targets.contains id)
  let s := updFlash s fun f => { f with gcs := f.gcs.filter (fun g => !g.targets.contains id) }
  let s := if pointedTo s id then closeStripe s id true else eraseStripe (dropProgs s id) id
  restartCollect l s

/-- Starts the replacement of a member on its channel; none where no plane set is free (R395). -/
def startReplace (s : State) (x : Stripe) (i : Nat) : Option State :=
  (x.members[i]?).bind fun m =>
    (pickSet s m.chan x.pslc setFree).map fun p =>
      let dest : Member := ⟨m.chan, p.1, p.2⟩
      updFlash (takeSet s dest x.id) fun f => { f with repls := f.repls ++ [⟨x.id, i, dest⟩] }

/-- A member's program failed: its plane set is retired; it is replaced on its channel, or the stripe is closed (R387);
a collection target is given up (R394). -/
def progFailed (s : State) (id i : Nat) : State :=
  match findStripe s id with
  | none => s
  | some x =>
    match x.members[i]? with
    | none => s
    | some m =>
      let s := retireSet s m.chan m.die m.block
      if x.kind == .target then failTarget s id
      else
        let mine (o : DieOp) : Bool := match o with | .prog j _ k _ _ => j == id && k == i | _ => false
        let s := updDie s m.chan m.die (fun d => { d with others := d.others.filter (fun o => !mine o) })
        match startReplace s x i with
        | some s => s
        | none => closeStripe s id true

/-! ### Channels and dies out of use (R370, R371) -/

/-- What a read that will not happen leaves: rebuilt from the other members (R371), a RAW_READ completes 0x1007
(DEDUCED from R373, notes/assumptions 46). -/
def endRead (s : State) : DieOp → State
  | .read _ _ (.raw no) => complete s no 0x1007
  | .read p _ _ => (match stripeAt s p with | some (x, i) => rebuildPage s x.id (p.wl, i, 4 * p.plane + p.page) 4 false none | none => s)
  | _ => s

/-- Ends every operation of a die without touching media again (R371). -/
def endDie (s : State) (c dn : Nat) : State :=
  let d := getDie s c dn
  let lost := (d.run.toList ++ d.susp.toList ++ d.reads)
  let s := updDie s c dn (fun d => { d with
    st := .idle, run := none, susp := none, reads := [], others := [], suspensions := 0, readsIn := 0, progIn := false, wantErase := [], intents := [], dones := [] })
  lost.foldl endRead s

/-- Commands whose page reads are all over go on. -/
def finishAllReads (s : State) : State :=
  (s.dqp.cmds.filter (fun c => c.phase == .started && (c.opcode == 0x20 || c.opcode == 0x25 || c.opcode == 0xC1))).foldl (fun s c => finishReads s c.no) s

/-- Open stripes with a member that meets the test are closed or given up (R371). -/
def closeOn (s : State) (hit : Member → Bool) : State :=
  (s.flash.stripes.filter (fun x => (!x.sealed || decide (x.rowsDone < x.rowsOut)) && x.members.any hit)).foldl (fun s x =>
    if x.kind == .target then failTarget s x.id else closeStripe s x.id false) s

/-- Programs and erases, which a channel with WP_n stuck no longer takes, end; reads go on (R371). -/
def Die.fenced (d : Die) : Die :=
  let reads (o : Option DieOp) : Option DieOp := o.filter (fun o => match o with | .read _ _ _ => true | _ => false)
  { d with st := if (reads d.run).isSome then .read else .idle, run := reads d.run, susp := none, others := [], suspensions := 0, readsIn := 0, progIn := false }

/-- Collected victims' members that will not be erased are no longer waited for (R409). -/
def endVictims (s : State) (hit : Nat → Nat → Nat → Bool) : State :=
  let l := s.flash.victims.map (fun v => (v.1, v.2.filter (fun m => !hit m.1 m.2.1 m.2.2)))
  let s := (l.filter (fun v => v.2.isEmpty)).foldl (fun s v => addF s v.1 F.FTL_GC_COUNT 1) s
  updFlash s fun f => { f with victims := l.filter (fun v => !v.2.isEmpty) }

/-- Discards waiting for an erase on these plane sets count it failed (R403). -/
def failErases (s : State) (hit : Nat → Nat → Bool) : State :=
  let s := endVictims s (fun c d _ => hit c d)
  noteDiscards (updFlash s fun f => { f with
    discards := f.discards.map (fun d => { d with
      failed := d.failed + (d.erasing.filter (fun e => hit e.1 e.2.1)).length
      erasing := d.erasing.filter (fun e => !hit e.1 e.2.1) }) })

/-- A line test or a timeout finds a cause: its effect on channel `c` (R370, R371); `dies` a mask for causes 5 and 9. -/
def channelFault (s : State) (c cause dies : Nat) : State :=
  let isl := chIsl c
  let j := c % 32
  let some' := bitList dies 16
  let s := setF (setF (setF s isl F.FCH_FAULT_CAUSE cause) isl F.FCH_FAULT_CHANNEL j) isl F.FCH_FAULT_VALID 1
  let s := setF s isl F.FCH_FAULT_DIE (if cause = 5 ∨ cause = 9 then some'.headD 0 else 0)
  let s := setF s isl F.FCH_CSTATE_CAUSE cause j
  let s := healthEvent s 7 0 c (if cause = 5 ∨ cause = 9 then dies else if cause = 6 then 0 else 0xFFFF) cause
  let s := if cause = 6 then
      let s := setF s isl F.FCH_CSTATE_WFENCE 1 j
      let s := (List.range 16).foldl (fun s d => updDie s c d Die.fenced) s
      failErases (closeOn s (fun m => m.chan == c)) (fun x _ => x == c)
    else if cause = 5 ∨ cause = 9 then
      let s := setF s isl F.FCH_CSTATE_DIES_OUT (getF s isl F.FCH_CSTATE_DIES_OUT j ||| dies) j
      let s := some'.foldl (fun s d => endDie s c d) s
      failErases (closeOn s (fun m => m.chan == c && bit dies m.die)) (fun x d => x == c && bit dies d)
    else
      let s := unitMoved (setChState s c 2)
      let s := (List.range 16).foldl (fun s d => endDie s c d) s
      let s := updFlash s fun f => { f with testDue := mdel f.testDue c }
      failErases (closeOn s (fun m => m.chan == c)) (fun x _ => x == c)
  noteRo (finishAllReads s)

/-! ### Journal pages on media (R361-R363) -/

/-- A plane set whose erase is journaled done: free for stripes, or clean for the stripe that took it (R362). -/
def setErased (s : State) (c dn : Nat) (e : JEntry) : State :=
  if e.block = 0 ∨ e.kind ≠ 2 then s
  else if e.block < 4 then updSet s c dn e.block (fun x => { x with eraseCount := e.eraseCount })
  else updSet s c dn e.block (fun x =>
    if e.fail || x.retired then { x with eraseCount := e.eraseCount }
    else { x with eraseCount := e.eraseCount, clean := true, reads := 0, filter := 0, free := x.stripe == 0 })

/-- The die's journal pair is lost: the journal switches to planes 2 and 3, or the die itself is out (R363). -/
def losePair (s : State) (c dn : Nat) : State :=
  let d := getDie s c dn
  if d.jlost = 0 then updDie s c dn (fun d => { d with jlost := 1, intents := d.intents.filter (fun i => i.kind != 3) })
  else channelFault (updDie s c dn (fun d => { d with jlost := 2 })) c 9 (2 ^ dn)

/-- A journal page is on media: DONEs close their intents, INTENTs let their erases start (R362). -/
def pageDone (s : State) (c dn : Nat) (p : JPage) : State :=
  let closed (i : JEntry) : Bool := p.entries.any (fun e => e.kind == 2 && e.iseq == i.iseq)
  let ints := p.entries.filter (fun e => e.kind != 2)
  let fresh := ints.filter (fun e => !(getDie s c dn).intents.any (fun i => i.iseq == e.iseq))
  let still (s : State) (x : Stripe) : Bool := x.members.any (fun m => let y := getSet s m.chan m.die m.block; y.stripe == 0 && !y.clean)
  let s := updDie s c dn (fun d => { d with
    jpages := d.jpages ++ [p], pageSeq := p.pageSeq, jfree := d.jfree - 1
    intents := (d.intents ++ fresh).filter (fun i => !closed i), dones := d.dones.filter (fun e => !closed e)
    others := if fresh.isEmpty then d.others else .erase (fresh.map (fun e => (e.plane, e.block))) :: d.others })
  let s := p.entries.foldl (fun s e => setErased s c dn e) s
  noteRo (updFlash s fun f => { f with gone := f.gone.filter (still s) })

/-- A journal block has been erased in a switch: it becomes the active one and its first page is due (R363). -/
def switchJournal (s : State) (c dn : Nat) (ok : Bool) : State :=
  if ok then
    updDie s c dn (fun (d : Die) =>
      let swi : List JEntry := d.intents.filter (fun (i : JEntry) => i.kind == 3)
      let pl := ((swi.getLast?).map (fun (i : JEntry) => i.plane)).getD d.jother
      let d : Die := { d with
        half := d.half.filter (fun h => h != (pl, 0))
        jcounts := updAt d.jcounts pl (· + 1)
        jplane := pl, jfree := 256, generation := d.generation + 1, jpages := d.jpages.filter (fun p => p.plane != pl)
        dones := d.dones ++ swi.map (fun (i : JEntry) => { i with kind := 2 }) }
      let left : List JEntry := d.intents.filter (fun (i : JEntry) => i.kind == 1)
      match (d.queuePage []).others with
      | .journal p :: l => { d with others := .journal { p with entries := p.entries ++ left } :: l }
      | _ => d)
  else losePair s c dn

end Sys2Proof.Machine
end

