-- ==== Sys2Proof/Machine/Flash.lean ====
section
/-!
DEFINITION. Machine/Flash.lean: the events of the flash dies and channels (R354-R373).
-/
namespace Sys2Proof.Machine

/-! ### Starting operations (R357, R362, R436) -/

/-- Starts an operation on a die. -/
def startOp (s : State) (c dn : Nat) (o : DieOp) (st : DieSt) : State :=
  let s := updDie s c dn (fun d => { d with st := st, run := some o })
  match o with
  | .erase _ => countEv s (chIsl c) 0x42 (c % 32) 1
  | .prog id row mem _ _ =>
    let s := updFlash s fun f => { f with rowSealed := setBit f.rowSealed (c / 32) false }
    if row ≠ 0 ∨ ((findStripe s id).map (fun x => x.headSeqs.any (fun h => h.1 == mem))).getD true = true then s
    else updStripe (updDie s c dn (fun d => { d with opens := d.opens + 1 })) id (fun x => { x with headSeqs := x.headSeqs ++ [(mem, (getDie s c dn).opens + 1)] })
  | _ => s

/-- Issues the next read. -/
def startRead (s : State) (c dn : Nat) (st : DieSt) : State :=
  match (getDie s c dn).reads with
  | [] => s
  | o :: l => if opFits s c o then startOp (updDie s c dn (fun d => { d with reads := l, readsIn := d.readsIn + 1 })) c dn o st else s

/-- Issues the first other operation that may start and meets `ok`. -/
def startOther (s : State) (c dn : Nat) (ok : DieOp → Bool) (st : DieOp → DieSt) : State :=
  let l := (getDie s c dn).others
  match l.findIdx? (fun o => ok o && opReady s c dn o) with
  | none => s
  | some i =>
    match l[i]? with
    | none => s
    | some o => if opFits s c o then startOp (updDie s c dn (fun d => { d with others := l.eraseIdx i, suspensions := if st o == .esuspProg then d.suspensions else 0, progIn := st o == .esuspProg })) c dn o (st o) else s

/-- DIE_OP_ISSUE (R357, R358, R362, R363, R436): the die's state decides what may start; reads come first. -/
def execDieOpIssue (chan die : Nat) (s : State) : Host.Outcome State Fault Refusal :=
  .next (
    let raw := chEnabled s chan && chState s chan == 3 && ((getDie s chan die).reads.head?.map DieOp.isRaw).getD false
    let s := if flashRuns s then maybeResume s chan die else s
    if !(chIn s chan || raw) || decide (15 < die) || dieOut s chan die || !flashRuns s then s
    else
      match (getDie s chan die).st with
      | .idle =>
        if !(getDie s chan die).reads.isEmpty then startRead s chan die .read
        else startOther (duePage s chan die) chan die (fun _ => true) (fun o => if o.isErase then .erase else .prog)
      | .psusp => if (getDie s chan die).readsIn < 16 then startRead s chan die .psuspRead else s
      | .esusp =>
        if !(getDie s chan die).reads.isEmpty && decide ((getDie s chan die).readsIn < 16) then startRead s chan die .esuspRead
        else if (getDie s chan die).progIn then s
        else startOther s chan die (fun o => !o.isErase) (fun _ => .esuspProg)
      | _ => s)

/-- JOURNAL_PAGE_DUE (R362): a DONE waits and no journal page is due: one carrying it is queued. -/
def execJournalPageDue (chan die : Nat) (s : State) : Host.Outcome State Fault Refusal :=
  .next (
    let d := getDie s chan die
    if d.dones.isEmpty || d.pageQueued || !chIn s chan then s
    else if !d.wantErase.isEmpty || d.switches then duePage s chan die
    else updDie s chan die (fun d => d.queuePage []))

/-! ### Page reads (R356, R388, R401, R414) -/

/-- After an operation the die is free, or back in its suspension (R357). -/
def backTo : DieSt → DieSt
  | .psuspRead => .psusp
  | .esuspRead | .esuspProg => .esusp
  | _ => .idle

/-- A write-buffer slot whose merge reads are over holds its whole unit (R383). -/
def fillSlot (s : State) (key : Nat) : State :=
  match mfind s.flash.slots key with
  | none => s
  | some x =>
    let blk (i : Nat) : List Byte := if bit x.mask i then x.data.getD i [] else (mfind s.flash.blocks (8 * x.lua + i)).getD zeroBlock
    let lost := maskOf ((List.range 8).filter (fun i => !bit x.mask i && (mfind s.flash.lostBlocks (8 * x.lua + i)).isSome))
    updSlot s key (fun x => { x with mask := 255, data := (List.range 8).map blk, lostMask := Nat.lor x.lostMask lost, merging := false })

/-- What a page read was for goes on once no read of it is left. -/
def readOver (s : State) (why : ReadFor) : State :=
  match why with
  | .cmd no => finishReads s no
  | .merge k n => if readsLeft s why then s else fillSlot s (slotKey k n)
  | _ => s

/-- What a RAW_READ returns (R373). -/
def rawDone (s : State) (no : Nat) (p : PageAddr) : State :=
  match findCmd s no with
  | none => s
  | some c =>
    if c.b 40 1 = 1 then
      let d := storedBytes s p
      complete (toHost { s with freeCount := s.freeCount + 1 } c (slice (Config.sense s.freeCount d) 0 18432)) no 0
    else
      let x := (pageStored s p).getD (List.replicate 16384 255, List.replicate 64 255)
      complete (toHost s c (slice x.1 0 16384 ++ slice x.2 0 64)) no 0

/-- The read-level set tried after `level` where a page is first read with set `first`: the others in turn, until all eight have been
tried (R356; DEDUCED for a RAW_READ that names a set, notes/assumptions 46). -/
def nextLevel (first level : Nat) : Option Nat :=
  let l := first :: (List.range 8).filter (· != first)
  (l.idxOf? level).bind (fun i => l[i + 1]?)

/-- FLASH_READ_DONE (R356, R373, R388, R401, R412, R414). -/
def execFlashReadDone (chan die : Nat) (outcome : ReadOutcome) (s : State) : Host.Outcome State Fault Refusal :=
  .next (
    match (getDie s chan die).run with
    | some (.read p level why) =>
      let isl := chIsl chan
      let isRaw := match why with | .raw _ => true | _ => false
      let undecoded : Bool := match why with | .raw no => ((findCmd s no).map (fun (c : Cmd) => c.b 40 1 == 1)).getD false | _ => false
      let s := updDie s chan die (fun d => { d with st := backTo d.st, run := none })
      let s := pageCounted s p 1 isRaw
      let s := if why = .patrol ∧ level = 0 then countEv s isl 0x45 (chan % 32) 1 else s
      let failed := match outcome with | .failed _ | .pair _ => true | _ => false
      let first := match why with | .raw no => ((findCmd s no).map (fun (c : Cmd) => c.b 41 1)).getD 0 | _ => 0
      let s :=
        if undecoded then (match why with | .raw no => rawDone s no p | _ => s)
        else if failed then
          (match nextLevel first level, why, outcome with
           | some l, _, _ => countEv (addF (updDie s chan die (fun d => { d with reads := .read p l why :: d.reads })) isl F.FCH_RETRIES_COUNT 1) isl 0x44 (chan % 32) 1
           | none, .raw no, _ => complete s no 0x3001
           | none, w, .pair n => readOver (pageBad s p n true none) w
           | none, w, .failed n => readOver (pageBad s p n false none) w
           | none, w, _ => readOver s w)
        else
          let s := pageCorrected s p level (corrBits outcome)
          match why with
          | .raw no => rawDone s no p
          | w => readOver (pageGood s p level outcome) w
      maybeResume (if isRaw then s else noteRo s) chan die
    | _ => s)

/-! ### Programs and erases (R355, R361-R363, R387, R397) -/

/-- PROGRAM_DONE (R355, R362, R363, R387). -/
def execProgramDone (chan die : Nat) (ok : Bool) (s : State) : Host.Outcome State Fault Refusal :=
  .next (
    let isl := chIsl chan
    let free (s : State) : State := updDie s chan die (fun d => { d with st := backTo d.st, run := none, suspensions := if d.st == .esuspProg then d.suspensions else 0 })
    let done := (getDie s chan die).st == .prog || (getDie s chan die).st == .esuspProg
    if !done then s
    else
      match (getDie s chan die).run with
      | some (.journal p) =>
        let s := health (countEv (free s) isl 0x41 (chan % 32) 18432) 5 16
        let s := if ok then pageDone s chan die p
          else
            let s := updDie (addF s isl F.FCH_PROG_FAIL_COUNT 1) chan die (fun d => { d with jfree := d.jfree - 1 })
            let d := getDie s chan die
            let s := if d.jlost = 1 ∧ d.jplane < 2 ∧ 0 < d.jfree then s else losePair s chan die
            if (getDie s chan die).jlost = 1 then updDie s chan die (fun d => { d with others := .journal p :: d.others }) else s
        maybeResume s chan die
      | some (.prog id row mem pass _) =>
        let s := free s
        let pages := match findStripe s id with | some x => if x.pslc then 4 else 8 | none => 8
        let s := countEv s isl 0x41 (chan % 32) (pages * 18432)
        let s := if !ok then progFailed (addF s isl F.FCH_PROG_FAIL_COUNT 1) id mem
          else if pass = 2 then updStripe s id (fun x => { x with progDone := x.progDone ++ [(row, mem)], lows := x.lows.filter (· != (row, mem)) })
          else updStripe s id (fun x => { x with lows := x.lows ++ [(row, mem)] })
        let s := if pass = 2 then health s 5 (16 * 4 * (if pages = 4 then 1 else 4)) else s
        maybeResume s chan die
      | _ => s)

/-- ERASE_DONE (R362, R363, R397, R403): its DONE waits for the next journal page. -/
def execEraseDone (chan die : Nat) (ok : Bool) (s : State) : Host.Outcome State Fault Refusal :=
  .next (
    match (getDie s chan die).st, (getDie s chan die).run with
    | .erase, some (.erase bs) =>
      let isl := chIsl chan
      let s := updDie s chan die (fun d => { d with st := .idle, run := none, suspensions := 0 })
      let s := if ok then s else addF s isl F.FCH_ERASE_FAIL_COUNT 1
      if bs.any (fun b => b.2 == 0) then switchJournal s chan die ok
      else
        let ended (d : Die) : List JEntry := (d.intents.filter (fun i => bs.contains (i.plane, i.block))).map (fun i => { i with kind := 2, fail := !ok })
        let s := updDie s chan die (fun d => { d with dones := d.dones ++ ended d, half := if ok then d.half.filter (fun h => !bs.contains h) else d.half })
        let b : Nat := (bs.headD (0, 0)).2
        let s := if ok || decide (b < 4) then s else retireSet s chan die b
        let s := endVictims s (fun c d m => c == chan && d == die && m == b)
        let s := updFlash s fun f => { f with
          discards := f.discards.map (fun x =>
            if x.erasing.contains (chan, die, b) then
              { x with erasing := x.erasing.filter (fun e => e != (chan, die, b)), erased := x.erased + b2n ok, failed := x.failed + b2n (!ok) }
            else x) }
        noteRo (noteDiscards s)
    | _, _ => s)

/-! ### Suspension (R358) -/

/-- SUSPEND_HOLD_EXPIRE (R358): a read, not RAW_READ's, has waited its hold, or for an erase an urgent program has. -/
def execSuspendHoldExpire (chan die : Nat) (s : State) : Host.Outcome State Fault Refusal :=
  .next (
    let isl := chIsl chan
    let d := getDie s chan die
    let waits := d.reads.any (fun o => !o.isRaw)
    match d.st with
    | .prog => if waits ∧ d.suspensions < getF s isl F.FCH_SUSP_CFG_PROG_MAX then suspendDie s chan die .psuspending else s
    | .erase => if (waits || d.others.any (fun o => o.isUrgent && progReady s chan die o)) ∧ d.suspensions < getF s isl F.FCH_SUSP_CFG_ERASE_MAX then suspendDie s chan die .esuspending else s
    | _ => s)

/-- SUSPEND_DONE (R357, R358): where no read waits, the program that asked for the suspension of an erase starts. -/
def execSuspendDone (chan die : Nat) (s : State) : Host.Outcome State Fault Refusal :=
  .next (
    let go (st : DieSt) : State := updDie s chan die (fun d => { d with st := st, susp := d.run, run := none, readsIn := 0, progIn := false })
    match (getDie s chan die).st with
    | .psuspending => maybeResume (go .psusp) chan die
    | .esuspending =>
      let s := go .esusp
      let s := if (getDie s chan die).reads.isEmpty && flashRuns s then startOther s chan die DieOp.isUrgent (fun _ => .esuspProg) else s
      maybeResume s chan die
    | _ => s)

/-! ### Line tests and unit states (R370-R372) -/

/-- Dies that a cause puts out of use (R349, R370): the four dies of a target, or one die. -/
def faultDies (cause die : Nat) : Nat := if cause = 5 then 15 * 16 ^ (die / 4) else if cause = 9 then 2 ^ die else 0

/-- Runs a line test with the cause it finds (R370). -/
def lineTest (s : State) (c cause die : Nat) : State :=
  let s := addF s (chIsl c) F.FCH_LINE_TESTS_COUNT 1
  let s := updFlash s fun f => { f with recentUnc := mdel f.recentUnc c, testDue := mdel f.testDue c }
  let new := faultDies cause die &&& (0xFFFF - getF s (chIsl c) F.FCH_CSTATE_DIES_OUT (c % 32))
  if cause = 0 ∨ 9 < cause ∨ cause = 8 ∨ (cause = 6 ∧ chFence s c) ∨ ((cause = 5 ∨ cause = 9) ∧ new = 0) then s
  else channelFault s c cause new

/-- DIE_TIMEOUT (R370): the line test runs at once; a CE_n fault takes the four dies of the die's target out (R349), and where the
test finds nothing the die itself is out, cause 9. -/
def execDieTimeout (chan die : Nat) (cause : Nat) (s : State) : Host.Outcome State Fault Refusal :=
  .next (
    if (getDie s chan die).run.isNone || !chIn s chan then s
    else if cause = 5 then lineTest s chan 5 die
    else if cause = 0 ∨ 7 < cause then lineTest s chan 9 die
    else lineTest s chan cause 0)

/-- LINE_TEST_PERIODIC (R370): due by its interval, or after uncorrectable codewords on three dies. -/
def execLineTestPeriodic (chan : Nat) (cause die : Nat) (s : State) : Host.Outcome State Fault Refusal :=
  .next (
    if !chIn s chan || (getF s (chIsl chan) F.FCH_CTRL_LINE_TEST == 0 && (mfind s.flash.testDue chan).isNone) then s
    else lineTest s chan cause die)

/-- FCH_FAULT and the channel's CAUSE show a cause (R370, R374). -/
def recordCause (s : State) (c cause die : Nat) : State :=
  let isl := chIsl c
  let s := setF (setF (setF s isl F.FCH_FAULT_CAUSE cause) isl F.FCH_FAULT_CHANNEL (c % 32)) isl F.FCH_FAULT_VALID 1
  setF (setF s isl F.FCH_FAULT_DIE (if cause = 5 ∨ cause = 9 then (bitList (faultDies cause die) 16).headD 0 else 0)) isl F.FCH_CSTATE_CAUSE cause (c % 32)

/-- CHANNEL_TEST_COMPLETE (R350, R370, R372): what the bus start, line test and package check find. A target's, a die's or the write
protection's fault leaves the channel fit to join with that effect; any other fails the test (DEDUCED, notes/assumptions 46). -/
def execChannelTestComplete (chan : Nat) (found : LineFault) (s : State) : Host.Outcome State Fault Refusal :=
  .next (
    if !chEnabled s chan || chState s chan != 3 then s
    else
      let isl := chIsl chan
      let part := [5, 6, 9].contains found.cause
      let failed := found.cause != 0 && !part
      let s := if part then lineTest s chan found.cause found.die
        else addF (if failed then recordCause s chan found.cause found.die else s) isl F.FCH_LINE_TESTS_COUNT 1
      let s := setF s isl F.FCH_CSTATE_BIST_FAIL (b2n failed) (chan % 32)
      updFlash s fun f => { f with chTest := if failed then mdel f.chTest chan else mins f.chTest chan () })

/-- Stripes still with a member on the channel (R372, R396). -/
def membersOn (s : State) (c : Nat) : Bool := s.flash.stripes.any (fun x => x.members.any (fun m => m.chan == c))

/-- CHANNEL_DRAIN_COMPLETE (R372, R396). -/
def execChannelDrainComplete (chan : Nat) (s : State) : Host.Outcome State Fault Refusal :=
  .next (
    if !chEnabled s chan || chState s chan != 1 || membersOn s chan then s
    else
      let s := unitMoved (setChState s chan 2)
      let s := (List.range 16).foldl (fun s d => endDie s chan d) s
      noteRo (failErases s (fun x _ => x == chan)))

/-! ### Parameter-block copies of counters and helper records (R43, R46, R463) -/

/-- Channel and die of copy 0-3: channel 0 dies 0 and 8, channel 64 dies 0 and 8. -/
def copyChan (i : Nat) : Nat := if i < 2 then 0 else 64
def copyDie (i : Nat) : Nat := if i % 2 = 0 then 0 else 8

/-- The channel and die of a copy are in service and take programs. -/
def copyWritable (s : State) (i : Nat) : Bool :=
  chIn s (copyChan i) && !dieOut s (copyChan i) (copyDie i) && !chFence s (copyChan i)

/-- A rollback-counter record (R43). -/
def counterRecord (v : Nat) : List Byte := toBytes 4 v ++ toBytes 4 (2 ^ 32 - 1 - v) ++ List.replicate 8 0

/-- Block 1, 2 or 3 of a copy is erased under R362 and programmed with `bytes` bytes (R353, R361): its INTENT page is on media, its DONE
waits for the next journal page. -/
def writeParam (s : State) (i b bytes : Nat) : State :=
  let c := copyChan i
  let dn := copyDie i
  let d := getDie s c dn
  let e : JEntry := ⟨1, 0, b, d.iseq + 1, (getSet s c dn b).eraseCount + 1, false⟩
  let p : JPage := ⟨d.jplane, d.pageSeq + 1, d.generation, e :: d.dones⟩
  let s := pageDone (updDie s c dn (fun d => { d with iseq := d.iseq + 1 })) c dn p
  let s := updDie s c dn (fun d => { d with others := d.others.erase (.erase [(0, b)]), dones := d.dones ++ [{ e with kind := 2 }], opens := d.opens + 1,
                                                heads := d.heads.filter (fun h => h.1 != b) ++ [(b, d.opens + 1)] })
  countEv (countEv s (chIsl c) 0x42 (c % 32) 1) (chIsl c) 0x41 (c % 32) (18432 * (1 + ceilDiv bytes 16384))

/-- Counter copies owed a new floor and helper copies that differ from their source are written where `ok` (R46, R362, R463). -/
def writeCopies (s : State) (ok : Nat → Bool) : State :=
  let can := [0, 1, 2, 3].filter ok
  let s := if s.boot.floorPend.isSome then (can.filter (bit s.boot.floorLeft)).foldl (fun s i => writeParam s i 2 16) s else s
  let s := match s.boot.floorPend with
    | none => s
    | some v =>
      let left := maskOf ((bitList s.boot.floorLeft 4).filter (fun i => !ok i))
      let s := { s with boot := { s.boot with
        counters := can.foldl (fun l i => if bit s.boot.floorLeft i then updAt l i (fun _ => counterRecord v) else l) s.boot.counters
        floorLeft := left, floorPend := if left = 0 then none else some v } }
      setF s 58 F.IMG_STATUS_CTR_PEND (b2n (left != 0))
  if s.ident.source.isEmpty then s
  else
    let s := (can.filter (fun i => s.ident.flashCopies.getD i [] != s.ident.source)).foldl (fun s i => writeParam s i 3 604) s
    let s := { s with ident := { s.ident with flashCopies := can.foldl (fun l i => updAt l i (fun _ => s.ident.source)) s.ident.flashCopies } }
    setF s 58 F.ID_STATUS_REPAIR_PEND (b2n (s.ident.flashCopies.any (· != s.ident.source)))

/-- CHANNEL_JOIN_COMPLETE (R372, R396). -/
def execChannelJoinComplete (chan : Nat) (s : State) : Host.Outcome State Fault Refusal :=
  .next (
    let on (r : Nat × Nat) : Bool := match findStripe s r.1 with | some x => ((x.members[r.2]?).map (fun m => m.chan == chan)).getD false | none => false
    if !chEnabled s chan || chState s chan != 4 || s.flash.joinLeft.any on then s
    else noteRo (unitMoved (setChState (writeCopies s (copyWritable s)) chan 0)))

end Sys2Proof.Machine
end

