-- ==== Sys2Proof/Machine/Ftl.lean ====
section
/-!
DEFINITION. Machine/Ftl.lean: the events of the flash translation layer (R383-R401, R405) and the health log (R407, R408).
-/
namespace Sys2Proof.Machine

/-! ### Placing slots (R383-R387) -/

/-- Another slot of the group still waits to be staged: the staging row takes it too before it is padded (R386). -/
def moreStaging (s : State) (g key : Nat) : Bool :=
  s.flash.slots.any (fun p => p.1 != key && homeGroup s p.2.lua == g && p.2.placed.isNone && p.2.staged.isNone && p.2.writers.any (·.fua)
    && slotCurrent s (p.1 / 2 ^ 20) (p.1 % 2 ^ 20) p.2)

/-- Packs a filled slot into the open stripe of a kind; it waits while 16 stripes are open or a plane set is being prepared. -/
def placeIn (s : State) (key : Nat) (x : Slot) (kind : StripeKind) : State :=
  let g := homeGroup s x.lua
  let p := packUnit s x.lua x.data.flatten
  let kib := ceilDiv p.1.length 1024
  let opens := (s.flash.stripes.filter (fun y => y.group == g && !y.sealed)).length
  match stripeFor s g kind kib with
  | none => if openWaits s g kind then prepGroup s g kind.pslc else if 16 ≤ opens then s else failSlot s key 0x3002
  | some (s, id) =>
    let urgent := kind == .staging
    let r := appendBlock s id x.lua p.1 x.lostMask urgent
    let s := updSlot r.1 key (fun y => { y with placed := some (id, r.2, kib) })
    let isl := flashIsland (key / 2 ^ 20)
    let s := if p.2 then addF s isl F.CMP_RAW_COUNT 1 else addF s isl F.CMP_UNITS_COUNT 1
    if urgent && !moreStaging s g key then padRow s id true else s

/-- Places a filled slot: staged first where a FUA WRITE or a FLUSH waits for it (R386), else in a host stripe. -/
def placeSlot (s : State) (key : Nat) : State :=
  match mfind s.flash.slots key with
  | none => s
  | some x => placeIn s key x (if x.writers.any (·.fua) && x.staged.isNone then .staging else .host)

/-- An uncorrectable word of the write buffer, or of the journal buffer (array 2), spoils blocks of a slot (R415): their commands hear
of them with cause 0x3001 as R387 has it, and the blocks read 0x3001 until they are written or trimmed. -/
def spoilBlocks (s : State) (island arr key hit : Nat) : State :=
  match mfind s.flash.slots key with
  | none => s
  | some x =>
    let bad := Nat.land x.mask hit
    if bad = 0 then s
    else
      let s := eventIn s island arr 0 true
      let s := updSlot s key (fun y => { y with
        lostMask := Nat.lor y.lostMask bad
        writers := (y.writers.filter (fun w => w.mask == 0 || w.mask != Nat.land w.mask bad)).map (fun w => { w with mask := w.mask - Nat.land w.mask bad }) })
      let s := updFlash s fun f => { f with lostBlocks := (bitList bad 8).foldl (fun m i => mins m (8 * x.lua + i) ()) f.lostBlocks }
      x.writers.foldl (fun s w => failWriter x.lua 0x3001 s { w with mask := Nat.land w.mask bad }) s

/-- What the buffers show of a slot that is placed (R411, R414, R415). -/
def meetBuffers (s : State) (island key : Nat) (u : BufUpset) : State :=
  match u with
  | .none => s
  | .fixed journal => eventIn s island (if journal then 2 else 1) 0 false
  | .blocks m => spoilBlocks s island 1 key m
  | .journal => spoilBlocks s island 2 key 255

/-- SLOT_PLACE (R383-R387): a stale slot is freed; missing blocks are read from media and merged first. -/
def execSlotPlace (island : Nat) (slot : SlotAt) (s : State) : Host.Outcome State Fault Refusal :=
  .next (
    match flashIndex island with
    | none => s
    | some k => pumpMedia (
      let key := slotKey k slot.slot
      match mfind s.flash.slots key with
      | none => s
      | some x =>
        if x.placed.isSome || !flashRuns s then s
        else if !slotCurrent s k slot.slot x then yieldSlot s key x
        else
        let s := meetBuffers s island key slot.upset
        if x.mask = 255 then placeSlot s key
        else if x.merging then (if readsLeft s (.merge k slot.slot) then s else placeSlot (fillSlot s key) key)
        else
          match x.old with
          | none => placeSlot (fillSlot s key) key
          | some loc =>
            let s := updSlot (addF s island F.FTL_RMW_COUNT 1) key (fun x => { x with merging := true })
            let s := readUnit s x.lua loc (.merge k slot.slot)
            if readsLeft s (.merge k slot.slot) then s else placeSlot (fillSlot s key) key))

/-- ROW_PAD_TIMEOUT (R385). -/
def execRowPadTimeout (stripe : Nat) (s : State) : Host.Outcome State Fault Refusal :=
  .next (
    match findStripe s stripe with
    | some x => if x.kind == .host && !x.sealed then padRow s stripe false else s
    | none => s)

/-- A slot's rows are complete: the entry moves to the stripe; a staged slot stays for its QLC row, any other is freed
(R385, R386). -/
def settleSlot (s : State) (x : Stripe) (p : Nat × Slot) : State :=
  match p.2.placed with
  | none => s
  | some (id, off, kib) =>
    if id ≠ x.id ∨ x.rowsDone * x.rowKib < off + kib then s
    else
      let k := p.1 / 2 ^ 20
      let n := p.1 % 2 ^ 20
      let cur := slotCurrent s k n p.2
      let s := if cur then journalRec (setMap s p.2.lua (some (.stripe id off))) k (mapRec p.2.lua (some (.stripe id off))) else s
      if x.kind == .staging && cur then
        updSlot s p.1 (fun y => { y with placed := none, staged := some (id, off), writers := y.writers.filter (fun w => !w.fua) })
      else if cur then dropSlot s p.1
      else yieldSlot s p.1 { p.2 with writers := p.2.writers.filter (fun w => !w.fua) }

/-- ROW_COMPLETE (R385): rows complete in ascending order. -/
def execRowComplete (stripe row : Nat) (s : State) : Host.Outcome State Fault Refusal :=
  .next (
    match findStripe s stripe with
    | none => s
    | some x =>
      if row ≠ x.rowsDone ∨ x.rowsOut ≤ row ∨ !(List.range x.members.length).all (fun i => x.progDone.contains (row, i)) then s
      else
        let s := updStripe s stripe (fun x => { x with rowsDone := row + 1, progDone := x.progDone.filter (fun p => p.1 != row), lows := x.lows.filter (fun p => p.1 != row) })
        let x := { x with rowsDone := row + 1 }
        let s := s.flash.slots.foldl (fun s p => settleSlot s x p) s
        let s := if x.rowsDone = x.rows then sealStripe s stripe else s
        noteRo (finishDurable (pumpMedia (dropStaging s))))

/-! ### Garbage collection (R391-R394) -/

/-- The group's collection goes on: a discard or a drain asks for it, or a channel is short of free plane sets (R391). -/
def gcShort (s : State) (g lim : Nat) : Bool :=
  (List.range 16).any (fun i => let c := 16 * g + i; chEnabled s c && chState s c == 0 && decide (freeSets s c < lim))

/-- A stripe may be collected now; of staging and journal stripes only a discard or a drain asks it (R391, R396, R403). -/
def canCollect (s : State) (g : Nat) (x : Stripe) : Bool :=
  x.group == g && x.sealed && x.rowsDone == x.rowsOut && !s.flash.flushed.contains x.id
    && !s.flash.gcs.any (fun y => y.victim == x.id || y.targets.contains x.id) && !s.flash.repls.any (fun r => r.stripe == x.id)

/-- The victim with the fewest live KiB, lowest identifier on a tie (R391). -/
def emptiest (s : State) (l : List Stripe) : Option Stripe :=
  l.foldl (fun b x => match b with
    | none => some x
    | some y => if liveKib s x < liveKib s y ∨ (liveKib s x = liveKib s y ∧ x.id < y.id) then some x else some y) none

/-- GC_START (R391, R396, R403): stripes of a secure discard first, then those with a member on a DRAINING channel, then the
emptiest while a channel is short of free plane sets. -/
def execGcStart (group : Nat) (s : State) : Host.Outcome State Fault Refusal :=
  .next (
    let l := s.flash.stripes.filter (canCollect s group)
    let disc := l.filter (fun x => s.flash.discards.any (fun (d : Discard) => d.stripes.contains x.id))
    let drain := l.filter (fun x => x.members.any (fun m => chState s m.chan == 1))
    let on := gcShort s group 160 || (bit s.flash.collecting group && gcShort s group 224)
    let s := updFlash s fun f => { f with collecting := setBit f.collecting group on }
    let pick : Option (Stripe × Nat) := match disc with
      | x :: _ => some (x, ((s.flash.discards.find? (fun (d : Discard) => d.stripes.contains x.id)).map (fun (d : Discard) => d.no)).getD 0)
      | [] => match drain with
        | x :: _ => some (x, 0)
        | [] => if on then (emptiest s (l.filter (fun x => x.kind == .host || x.kind == .target))).map (fun x => (x, 0)) else none
    if !flashRuns s || decide (7 < group) then s
    else
      match pick with
      | none => s
      | some (x, no) => (startCollect s x.id no).getD (prepGroup s group (x.kind == .journal)))

/-- Rows of a target that hold copies are complete. -/
def targetReady (s : State) (id : Nat) : Bool :=
  match findStripe s id with
  | none => false
  | some x => decide (x.next ≤ x.rowsDone * x.rowKib)

/-- Moves the entry of a copied unit that still names the victim (R392, R393). -/
def switchUnit (victim : Nat) (targets : List Nat) (r : State × Nat) (p : Packed) : State × Nat :=
  let s := r.1
  if mfind s.flash.map p.lua ≠ some (.stripe victim p.off) then r
  else
    match ((s.flash.stripes.filter (fun x => targets.contains x.id)).map (fun x => (x.packed.filter (fun q => q.lua == p.lua)).map (fun q => (x.id, q)))).flatten.getLast? with
    | none => r
    | some (id, q) =>
      let k := homeGroup s p.lua / 2
      (journalRec (setMap s p.lua (some (.stripe id q.off))) k (mapRec p.lua (some (.stripe id q.off))), r.2 + ceilDiv q.bytes.length 1024)

/-- Each page of the rows that hold copies is read once (R392, R401). -/
def verifyReads (s : State) (id : Nat) : State :=
  match findStripe s id with
  | none => s
  | some x => x.packed.foldl (fun s p => readPacked s x p) s

/-- GC_SWITCH (R392-R394): `failed` 0 the targets verified; n+1 member n, counted over the targets in order, did not. -/
def execGcSwitch (victim failed : Nat) (s : State) : Host.Outcome State Fault Refusal :=
  .next (
    match s.flash.gcs.find? (fun g => g.victim == victim), findStripe s victim with
    | some g, some x =>
      if !g.targets.all (targetReady s) then s
      else
      let s := g.targets.foldl verifyReads s
      if failed ≠ 0 then
        let ms := ((s.flash.stripes.filter (fun t => g.targets.contains t.id)).map (fun t => t.members.map (fun m => (t.id, m)))).flatten
        match ms[failed - 1]? with
        | some (id, m) => failTarget (retireSet s m.chan m.die m.block) id
        | none => s
      else
        let r := x.packed.foldl (switchUnit victim g.targets) (s, 0)
        let s := updFlash r.1 fun f => { f with
          gcs := f.gcs.filter (fun y => y.victim != victim)
          discards := f.discards.map (fun d => if d.no = g.discard ∧ g.discard ≠ 0 then { d with kib := d.kib + r.2 } else d)
          victims := f.victims ++ [(flashIsland (x.group / 2), (x.members.filter (fun m => !(getSet s m.chan m.die m.block).retired)).map (fun m => (m.chan, m.die, m.block)))] }
        noteRo (eraseStripe s victim)
    | _, _ => s)

/-! ### Member replacement (R395, R396, R401) -/

/-- Refresh has stopped on a channel of a read-only module (R399). -/
def refreshStopped (s : State) (c : Nat) : Bool := s.flash.ro == 2 && decide (freeSets s c ≤ 16)

/-- MEMBER_REPLACE_START (R395, R396, R399, R401). -/
def execMemberReplaceStart (stripe idx : Nat) (s : State) : Host.Outcome State Fault Refusal :=
  .next (
    match findStripe s stripe with
    | none => s
    | some x =>
      match x.members[idx]? with
      | none => s
      | some m =>
        let join := s.flash.joinLeft.contains (stripe, idx)
        let wanted := join || s.flash.refresh.contains (stripe, idx)
        let onChan (r : Repl) : Bool := match findStripe s r.stripe with
          | some y => ((y.members[r.idx]?).map (fun z => z.chan == m.chan)).getD false && !s.flash.joinLeft.contains (r.stripe, r.idx)
          | none => false
        if !wanted || !x.sealed || decide (x.rowsDone < x.rowsOut) || !chIn s m.chan || !flashRuns s
            || s.flash.repls.any (fun r => r.stripe == stripe) || s.flash.gcs.any (fun g => g.victim == stripe || g.targets.contains stripe) then s
        else if !join && (s.flash.repls.any onChan || s.flash.gcs.any (fun g => (findStripe s g.victim).any (fun y => y.group == x.group))) then s
        else if !join && refreshStopped s m.chan then
          healthEvent (updFlash s fun f => { f with refresh := f.refresh.filter (fun r => r != (stripe, idx)) }) 6 0 (chIsl m.chan) 0 0
        else (startReplace s x idx).getD (prepChan s m.chan x.pslc))

/-- MEMBER_REPLACE_COMPLETE (R387, R395, R396): the new member is journaled and the old plane set erased; a member that
replaces a failed program of an open stripe has its outstanding rows programmed again; what neither a read nor a rebuild recovered is
lost. -/
def execMemberReplaceComplete (stripe idx : Nat) (copied : Copied) (s : State) : Host.Outcome State Fault Refusal :=
  .next (
    match s.flash.repls.find? (fun r => r.stripe == stripe && r.idx == idx), findStripe s stripe with
    | some r, some x =>
      if !(getSet s r.dest.chan r.dest.die r.dest.block).clean then s
      else
        let s := updFlash s fun f => { f with repls := f.repls.filter (fun y => y != r) }
        if !copied.verified then
          let s := retireSet s r.dest.chan r.dest.die r.dest.block
          match startReplace s x idx with
          | some s => s
          | none => if x.sealed then s else closeStripe s stripe true
        else
          match x.members[idx]? with
          | none => s
          | some old =>
            let s := (copied.lost.filter (fun p => decide (p.1 < x.rowsDone))).foldl (fun s p => (unitsOn s x (p.1, idx, p.2)).foldl loseUnit s) s
            let pages := x.rowsDone * (x.cell / 16)
            let s := pageCounted s ⟨old.chan, old.die, 0, old.block, 0, 0⟩ pages false
            let s := pageCounted s ⟨r.dest.chan, r.dest.die, 0, r.dest.block, 0, 0⟩ pages false
            let s := countEv s (chIsl r.dest.chan) 0x41 (r.dest.chan % 32) (18432 * pages)
            let s := updStripe s stripe (fun y => { y with
              members := updAt y.members idx (fun _ => r.dest)
              badPages := y.badPages.filter (fun p => p.2.1 != idx || copied.lost.contains (p.1, p.2.2)) })
            let s := updFlash s fun f => { f with gone := f.gone ++ [x] }
            let s := updFlash s fun f => { f with refresh := f.refresh.filter (fun y => y != (stripe, idx)), joinLeft := f.joinLeft.filter (fun y => y != (stripe, idx)) }
            let s := journalRec (addF s (chIsl r.dest.chan) F.FTL_REFRESH_COUNT 1) (x.group / 2) (.member stripe idx r.dest.chan r.dest.die r.dest.block)
            let s := if (getSet s old.chan old.die old.block).retired then s
              else wantErase (updSet s old.chan old.die old.block (fun y => { y with free := false, stripe := 0, filter := x.filter, clean := false })) old.chan old.die old.block
            let s := health s 5 (x.rowsDone * x.cell)
            let rows := ((List.range x.rowsOut).drop x.rowsDone).filter (fun w => !x.progDone.contains (w, idx))
            let passes := if x.pslc then [2] else [1, 2]
            updDie s r.dest.chan r.dest.die (fun d => { d with
              others := d.others ++ (rows.map (fun w => passes.map (fun p => DieOp.prog stripe w idx p (x.kind == .staging)))).flatten })
    | _, _ => s)

/-! ### The ditch rider (R400) -/

/-- Order of the pages of a stripe: row, member, page. -/
def pageKey (pg : Nat × Nat × Nat) : Nat := (pg.1 * 16 + pg.2.1) * 16 + pg.2.2

/-- Pages of a stripe that the patrol reads: those that hold a live block in sealed and staging stripes, and in open ones those of
table pages whose rows are complete (R400). -/
def livePages (s : State) (x : Stripe) : List (Nat × Nat × Nat) :=
  let l := if x.sealed ∨ x.kind = .staging then liveOf s x
    else (liveOf s x).filter (fun p => luaSpace p.lua == 255 && decide (p.off + ceilDiv p.bytes.length 1024 ≤ x.rowsDone * x.rowKib))
  sortBy (fun a b => decide (pageKey a < pageKey b)) ((l.map (pagesOf x)).flatten.eraseDups)

/-- Stripes of an island's groups by opening sequence, from a position on (DESIGN CHOICE, notes/assumptions 40: of the members'
OPEN_SEQ the stripe's journal sequence at opening stands for all). -/
def patrolList (s : State) (k from' : Nat) : List Stripe :=
  sortBy (fun a b => decide (a.openSeq < b.openSeq)) (s.flash.stripes.filter (fun x => x.group / 2 == k && x.kind != .journal && decide (from' ≤ x.openSeq)))

/-- The next page of the patrol after page `last` of the stripe at position `seq`: its stripe and the page. -/
def patrolNext (s : State) (seq : Nat) (last : Option (Nat × Nat × Nat)) : List Stripe → Option (Stripe × (Nat × Nat × Nat))
  | [] => none
  | x :: l =>
    let after (pg : Nat × Nat × Nat) : Bool := match last with | some y => x.openSeq != seq || decide (pageKey y < pageKey pg) | none => true
    match (livePages s x).find? after with
    | some pg => some (x, pg)
    | none => patrolNext s seq last l

/-- A patrol finishes; in time unless its period has ended (R400). -/
def patrolEnds (s : State) (k : Nat) : State :=
  let isl := flashIsland k
  let late := s.flash.patrolOver.getD k false
  let s := health (addF s isl F.FTL_PATROLS_COUNT 1) 6 1
  let s := if late then s else setF s isl F.FTL_STATUS_PATROL_LATE 0
  updFlash s fun f => { f with
    patrol := updAt f.patrol k (fun _ => 0), patrolPage := updAt f.patrolPage k (fun _ => none)
    patrolOver := updAt f.patrolOver k (fun _ => false), patrolDone := updAt f.patrolDone k (fun _ => !late) }

/-- PATROL_READ (R400): reads the next live page; past the last one the patrol is finished. -/
def execPatrolRead (island : Nat) (s : State) : Host.Outcome State Fault Refusal :=
  .next (
    match flashIndex island with
    | none => s
    | some k =>
      if !enabled s island || !flashRuns s || s.flash.patrolDone.getD k false || getF s 59 F.WEIR_STATUS_MSTATE != 1 then s
      else
        match patrolNext s (s.flash.patrol.getD k 0) (s.flash.patrolPage.getD k none) (patrolList s k (s.flash.patrol.getD k 0)) with
        | none => patrolEnds s k
        | some (x, pg) =>
          let s := updFlash s fun f => { f with patrol := updAt f.patrol k (fun _ => x.openSeq), patrolPage := updAt f.patrolPage k (fun _ => some pg) }
          match physPage x pg with
          | some a => if memberIn s x pg.2.1 then updDie s a.chan a.die (fun d => { d with reads := d.reads ++ [.read a 0 .patrol] }) else s
          | none => s)

/-- PATROL_PERIOD_END (R400): a patrol still under way is late. -/
def execPatrolPeriodEnd (island : Nat) (s : State) : Host.Outcome State Fault Refusal :=
  .next (
    match flashIndex island with
    | none => s
    | some k =>
      if !enabled s island then s
      else if s.flash.patrolDone.getD k false then updFlash s fun f => { f with patrolDone := updAt f.patrolDone k (fun _ => false) }
      else if s.flash.patrolOver.getD k false then s
      else
        let behind := ((patrolList s k (s.flash.patrol.getD k 0)).map (liveKib s)).foldl (· + ·) 0
        let s := updFlash s fun f => { f with patrolOver := updAt f.patrolOver k (fun _ => true) }
        healthEvent (health (setF s island F.FTL_STATUS_PATROL_LATE 1) 7 1) 6 0 island (1024 * behind) 0)

/-! ### Journal and temperatures (R405, R407, R484) -/

/-- A unit's mapping entry as stored (R377). -/
def entryOf (s : State) (lua : Nat) : Nat := locEntry (mfind s.flash.map lua)

/-- The 32 KiB of a table page with the journal sequence of its last change (R378). -/
def tablePage (s : State) (key seq : Nat) : List Byte :=
  ((List.range 6552).map (fun i => toBytes 5 (entryOf s (luaOf (luaSpace key) (luaUnit key * 6552 + i))))).flatten ++ toBytes 8 seq

/-- Unit of SPACE 255 that holds a table page (R405; DESIGN CHOICE, notes/assumptions 47). -/
def tableUnit (key : Nat) : Nat := luaSpace key * 2 ^ 48 + luaUnit key

/-- Table pages an island's journal changed since its last checkpoint, each with the sequence of its last change. -/
def dirtyTables (s : State) (k : Nat) : NMap Nat :=
  (s.flash.journal.getD k []).foldl (fun m r => match r.2 with | .map lua _ => mins m (tableKey lua) r.1 | _ => m) []

/-- Writes a dirty table page as a unit of SPACE 255 (R405). -/
def writeTable (s : State) (p : Nat × Nat) : State :=
  let d := tablePage s p.1 p.2
  (List.range 8).foldl (fun s i => storeBlock s 255 (8 * tableUnit p.1 + i) (slice d (4096 * i) 4096)) s

/-- Table pages whose units of SPACE 255 are homed in an island's groups, with their entries: the island's directory (R405). -/
def directory (s : State) (k : Nat) : List (Nat × Option Loc) :=
  ((s.flash.tables.map (fun p => tableUnit p.1)).filter (fun u => homeGroup s (luaOf 255 u) / 2 == k)).map (fun u => (u, mfind s.flash.map (luaOf 255 u)))

/-- Journal stripes of an island all of whose pages come before a PAGE_SEQ are freed (R405). -/
def freeJournal (s : State) (k seq : Nat) : State :=
  ((s.flash.stripes.filter (fun x => x.group / 2 == k && x.kind == .journal && x.sealed && x.rowsDone == x.rowsOut && x.packed.all (fun p => decide (p.pageSeq < seq)))).map (·.id)).foldl
    eraseStripe s

/-- JOURNAL_CHECKPOINT (R405): after a further 1 GiB of journal pages; dirty table pages are written, the directory is copied between
two CHECKPOINT records, and the pages before it are freed. -/
def execJournalCheckpoint (island : Nat) (s : State) : Host.Outcome State Fault Refusal :=
  .next (
    match flashIndex island with
    | none => s
    | some k =>
      if s.flash.jpages.getD k 0 < 65536 then s
      else
        let seq := s.flash.jpageSeq.getD k 0 + 1
        let s := (dirtyTables s k).foldl writeTable s
        let s := updFlash s fun f => { f with journal := updAt f.journal k (fun _ => []), jpages := updAt f.jpages k (fun _ => 0) }
        let s := (directory s k).foldl (fun s e => journalRec s k (.tablePage e.1 e.2)) (journalRec s k (.checkpoint true seq))
        pumpMedia (freeJournal (journalRec s k (.checkpoint false seq)) k seq))

/-- Signed value of a 12-bit temperature, 0.125 degree units. -/
def tempInt (t : Nat) : Int := sext 12 (t % 4096)

/-- Records a temperature (R484, R487): `thr` and `crit` in degrees. -/
def setTemp (s : State) (i t thr crit : Nat) : State :=
  let v := tempInt t
  let peak : Nat := (v / 8).toNat
  let s := setF (setF s 59 F.TEL_TEMP_TEMP (t % 4096) i) 59 F.TEL_TEMP_VALID 1 i
  let s := setF (setF s 59 F.TEL_TEMP_THROT (b2n (decide ((8 * thr : Nat) < v))) i) 59 F.TEL_TEMP_CRIT (b2n (decide ((8 * crit : Nat) ≤ v))) i
  noteAlert (setF s 59 F.TEL_TEMP_PEAK (max (getF s 59 F.TEL_TEMP_PEAK i) (min peak 255)) i)

/-- Bin of the health log's histogram (R407). -/
def tempBin (t : Nat) : Nat :=
  let v := tempInt t / 8
  if v < 25 then 0 else min 15 ((v - 25).toNat / 5 + 1)

/-- NAND_TEMP_READ (R407, R484): one reading of each of the island's 64 packages; every sixteenth reaches the histogram. -/
def execNandTempRead (island : Nat) (temps : List Nat) (s : State) : Host.Outcome State Fault Refusal :=
  .next (
    match flashIndex island with
    | none => s
    | some k =>
      if !enabled s island then s
      else
        let n := (s.flash.tempReads.getD k 0 + 1) % 16
        let s := updFlash s fun f => { f with tempReads := updAt f.tempReads k (fun _ => n) }
        let l := ((temps.take 64).zipIdx).filter (fun x => chEnabled s (32 * k + x.2 / 2))
        let s := l.foldl (fun s x => setTemp s (76 + 64 * k + x.2) x.1 80 90) s
        if n ≠ 0 then s
        else l.foldl (fun s x => updFlash s fun f =>
          let key := 16 * (64 * k + x.2) + tempBin x.1
          { f with temps := mset 0 f.temps key (min (mget 0 f.temps key + 1) (2 ^ 32 - 1)) }) s)

/-- BUCKET_LEAK (R426): the island's clock reaches its next cycle whose number is a multiple of 2^LEAK. -/
def execBucketLeak (island : Nat) (s : State) : Host.Outcome State Fault Refusal :=
  .next (
    if clockRuns s island then
      let n := 2 ^ getF s island F.PROT_CE_CFG_LEAK
      (List.range 8).foldl (fun s a => subF s island F.PROT_BUCKET_LEVEL 1 a) (passTo s island ((cyc s island / n + 1) * n))
    else s)

/-! ### The health log (R398, R407, R408) -/

/-- Erase counts of a channel's usable plane sets: their sum and the largest. -/
def wearOf (s : State) (c : Nat) : Nat × Nat :=
  ((setsOf s c).filter (fun p => !p.2.retired)).foldl (fun r p => (r.1 + p.2.eraseCount, max r.2 p.2.eraseCount)) (0, 0)

/-- WEAR_MEAN_PCT and WEAR_MAX_PCT over some channels (R398). -/
def wearPct (s : State) (cs : List Nat) : Nat × Nat :=
  let n := (cs.map (usableSets s)).foldl (· + ·) 0
  let t := (cs.map (fun c => (wearOf s c).1)).foldl (· + ·) 0
  (t * 100 / (1500 * max n 1), min 255 ((cs.map (fun c => (wearOf s c).2)).foldl max 0 * 100 / 1500))

/-- Least value of a function over some channels; `d` over none. -/
def leastOver (d : Nat) (f : Nat → Nat) (cs : List Nat) : Nat := match cs with | [] => d | c :: l => l.foldl (fun m x => min m (f x)) (f c)

/-- Retired plane sets of a channel. -/
def retiredOn (s : State) (c : Nat) : Nat := ((setsOf s c).filter (fun p => p.2.retired)).length

/-- The 16 bytes of a stripe group. -/
def groupBytes (s : State) (g : Nat) : List Byte :=
  let cs := (chansIn s).filter (fun c => c / 16 == g)
  toBytes 2 (leastOver 0 (sparePct s) cs) ++ toBytes 2 0 ++ toBytes 4 ((cs.map (usableSets s)).foldl (· + ·) 0)
    ++ toBytes 4 (leastOver 0 (freeSets s) cs) ++ toBytes 4 ((cs.map (retiredOn s)).foldl (· + ·) 0)

def HealthEvent.bytes (e : HealthEvent) : List Byte :=
  toBytes 8 e.seq ++ toBytes 2 e.kind ++ toBytes 2 e.nsid ++ toBytes 4 e.a ++ toBytes 8 e.b ++ toBytes 8 e.c

/-- The first 256 bytes of the log. -/
def logHead (s : State) : List Byte :=
  let h (i : Nat) : Nat := s.flash.health.getD i 0
  let w := wearPct s (chansIn s)
  toBytes 2 1 ++ toBytes 1 s.flash.ro ++ toBytes 1 0 ++ toBytes 4 (leastOver 0 (sparePct s) (chansIn s)) ++ toBytes 4 w.1 ++ toBytes 4 w.2
    ++ ([0, 1, 2, 3, 4, 5, 6].map (fun i => toBytes 8 (h i))).flatten ++ toBytes 4 (min (h 7) (2 ^ 32 - 1)) ++ toBytes 4 (min (h 8) (2 ^ 32 - 1))
    ++ toBytes 8 s.flash.nextEvent ++ toBytes 40 0 ++ ((List.range 8).map (groupBytes s)).flatten

/-- The 49,408 bytes of the log (R407). -/
def healthLog (s : State) : List Byte :=
  let ring (i : Nat) : List Byte := match s.flash.events.find? (fun e => e.seq % 1024 == i) with | some e => e.bytes | none => List.replicate 32 0
  logHead s ++ ((List.range 4096).map (fun i => toBytes 4 (mget 0 s.flash.temps i))).flatten ++ ((List.range 1024).map ring).flatten

/-- GET_LOG (R407). -/
def execGetLog (c : CmdId) (s : State) : Host.Outcome State Fault Refusal :=
  .next (runCmd s c (isOp 0x05) [(32, 1), (40, 8)]
    (fun c => [cond (c.b 32 1 != 1 || c.b 40 8 % 4 != 0 || c.bufBytes % 4 != 0 || decide (49408 < c.b 40 8 + c.bufBytes)) 0x1002]) fun s c =>
    complete (toHost s c (slice (healthLog s) (c.b 40 8) c.bufBytes)) c.no 0)

end Sys2Proof.Machine
end

