-- ==== Sys2Proof/Machine/Sched.lean ====
section
/-!
DEFINITION. Machine/Sched.lean: scheduling decisions (R275, R276, R281, R282), leaving and entering (R277-R279), and the
turnout schedule (R283-R287).
-/
namespace Sys2Proof.Machine

/-! ### Entering and leaving -/

/-- A slot-0 and a slot-1 context may share a reach (R275). -/
def compatible (a b : Ctx) : Bool := decide (a.rills + b.rills ≤ 32) && decide (a.scratch + b.scratch ≤ 24) && (a.accMask &&& b.accMask) == 0

/-- Contexts a candidate needs out: those in its slot, and incompatible ones in the other, on its reaches (R281). -/
def needOf (s : State) (c : Ctx) : List Ctx :=
  s.sched.ctxs.filter (fun x => x.slot != c.slot && x.holds && (x.reaches &&& c.reaches) != 0 && (x.rslot == c.rslot || !compatible c x))

/-- No context enters outside DP0 or while an entry into another state is under way (R281). -/
def entriesAllowed (s : State) : Bool :=
  working s && getF s 56 F.DQP_STATUS_PSTATE == 0 && (match s.dqp.pwr with | .entering _ _ _ _ _ => false | _ => true)

/-- Begins ENTERING: the headgate charges the scratchpad, the slices take their owner; a first entry finds zeros (R275). -/
def beginEnter (s : State) (c : Ctx) : State :=
  let d := domOf c.nsid
  if getA s 57 F.HG_SCRATCH_LIM_MIB d < getF s 57 F.HG_SCRATCH_USED_MIB d + c.scratchCharge then
    noteBlock (updCtx (deny s d) c.slot (fun c => { c with quotaRefused := true })) c.slot
  else
    let s := setF s 57 F.HG_SCRATCH_USED_MIB (getF s 57 F.HG_SCRATCH_USED_MIB d + c.scratchCharge) d
    let s := (bitList c.reaches 32).foldl (fun s r => setOwners (if c.save.isEmpty then clearResidency s c r else s) r c.accMask (c.rslot + 1)) s
    noteBlock (updCtx s c.slot (fun c => { c with st := .entering, quotaRefused := false, filled := false })) c.slot

/-- Begins LEAVING: the save area is allocated; the DETAIL of R120 when it is refused (R277, R278). -/
def beginLeave (s : State) (c : Ctx) (forced : Bool) : State × Except Nat Unit :=
  match allocSave s c with
  | (s, .error e) => (s, .error e)
  | (s, .ok parts) =>
    let s := updCtx s c.slot (fun c => { c with st := .leaving, save := parts, saving := false, forced := forced })
    (noteBlock (countEv (addF s 57 F.SCHED_EVICT_COUNT 1) 57 0x71 0 1) c.slot, .ok ())

/-! ### Decisions (R281) -/

/-- Tiles with SLIP = 1 summed over a context's reaches (R167). -/
def slipTiles (s : State) (c : Ctx) : Nat :=
  ((bitList c.reaches 32).map (fun r => ((tilesOf s r).filter (fun t => getF s r F.TILE_STATUS_SLIP t == 1)).length)).foldl (· + ·) 0

/-- Candidate order: priority, slip, READY time, slot (R281). -/
def candBefore (s : State) (a b : Ctx) : Bool :=
  if a.prio ≠ b.prio then decide (b.prio < a.prio)
  else if slipTiles s a ≠ slipTiles s b then decide (slipTiles s a < slipTiles s b)
  else if a.readySince ≠ b.readySince then decide (a.readySince < b.readySince)
  else decide (a.slot < b.slot)

/-- READY contexts that may be tried: BLOCK 0, or refused before by the headgate and otherwise unblocked (R275, R281). -/
def candidates (s : State) : List Ctx :=
  sortBy (candBefore s) (s.sched.ctxs.filter (fun c => c.st == .ready && c.destroy == 0 && blockNow s { c with quotaRefused := false } == 0))

/-- An occupant of a reserved reach counts as blocked, below every group member, for a candidate of the group that reserves it
(R284, R285). -/
def nonGroup (s : State) (c v : Ctx) : Bool :=
  (reservations s).any (fun t => c.group == t.2 && (c.reaches &&& t.1) != 0 && v.group != t.2 && (v.reaches &&& t.1) != 0)

/-- An occupant counts as blocked. -/
def countsBlocked (s : State) (c v : Ctx) : Bool := v.block != 0 || nonGroup s c v

/-- Quantum in cycles (R295). -/
def quantum (s : State) : Nat := getF s 57 F.SCHED_CFG_QUANTUM * 1024

/-- The victim order of R281. -/
def victimBefore (s : State) (c a b : Ctx) : Bool :=
  let pr (v : Ctx) : Nat := if nonGroup s c v then 0 else v.prio + 1
  let ba := countsBlocked s c a; let bb := countsBlocked s c b
  if ba ≠ bb then ba
  else if pr a ≠ pr b then decide (pr a < pr b)
  else if ba ∧ a.blockedSince ≠ b.blockedSince then decide (a.blockedSince < b.blockedSince)
  else if ba = false ∧ a.residentSince ≠ b.residentSince then decide (a.residentSince < b.residentSince)
  else decide (a.slot < b.slot)

/-- One candidate of a decision. -/
def tryCand (s : State) (quant : Bool) (c : Ctx) : State :=
  let need := needOf s c
  if need.isEmpty then (if entriesAllowed s then beginEnter s c else s)
  else
    let may (v : Ctx) : Bool := countsBlocked s c v
      || (quant && (decide (v.prio < c.prio) || (v.prio == c.prio && v.st == .resident && decide (v.residentSince + quantum s ≤ cyc s 57))))
    let vs := sortBy (victimBefore s c) (need.filter (fun v => v.st == .resident))
    if need.all may then
      match vs with
      | [] => s
      | v :: _ => (match beginLeave s v false with
        | (s, .ok _) => s
        | (s, .error _) => addF s 57 F.SCHED_STARVE_COUNT 1)
    else s

/-- A pass over the candidates, in order, each claiming its reaches. -/
def decideAll (quant : Bool) : List Ctx → Nat → State → State
  | [], _, s => s
  | c :: l, claimed, s =>
    if (c.reaches &&& claimed) ≠ 0 then decideAll quant l claimed s
    else decideAll quant l (claimed ||| c.reaches) (tryCand s quant c)

/-- Residents of a reach that leaves service leave, as soon as their save area is granted (R281, R282). -/
def evictDraining (s : State) : State :=
  s.sched.ctxs.foldl (fun s c =>
    if c.st = .resident ∧ (bitList c.reaches 32).any (fun r => reachState s r == 1) = true then (beginLeave s c true).1 else s) s

/-- SCHED_DECISION (R276, R281): the oldest event that is owed one. -/
def execSchedDecision (s : State) : Host.Outcome State Fault Refusal :=
  .next (
    match s.sched.owed with
    | [] => s
    | q :: l =>
      let s := evictDraining (countEv { s with sched := { s.sched with owed := l } } 57 0x70 0 1)
      decideAll q (candidates s) 0 s)

/-- QUANTUM_END (R276). -/
def execQuantumEnd (s : State) : Host.Outcome State Fault Refusal :=
  .next (
    if working s = false then s
    else
      let t := s.sched.quantumBase + quantum s
      let s := passTo s 57 t
      owe { s with sched := { s.sched with quantumBase := cyc s 57 } } true)

/-- CONTEXT_DRAIN_END (R273, R277): every queued unit operation of the slot has completed; the rills stop and the save
begins. For a context being destroyed the destruction goes on. -/
def execContextDrainEnd (ctx : Nat) (s : State) : Host.Outcome State Fault Refusal :=
  .next (
    match findCtx s ctx with
    | none => s
    | some c =>
      if c.destroy ≠ 0 then finishDestroy s ctx
      else if c.st ≠ .leaving ∨ c.saving = true ∨ unitsBusy s ctx = true then s
      else updCtx (stashRills s ctx) ctx (fun c => { c with saving := true }))

/-- Where the save of a context puts a byte of its reaches (R277). -/
def saveDest (c : Ctx) (a : Nat) : Option Nat := c.save.findSome? (fun p => (c.saveOffset p.reach a).map (p.addr + ·))

/-- CONTEXT_SAVE_COMPLETE (R270, R277): the save holds region and slices; the residency slots are free. `bad`: codewords the
save found uncorrectable (R417). -/
def execContextSaveComplete (ctx : Finding Nat) (s : State) : Host.Outcome State Fault Refusal :=
  .next (
    match findCtx s ctx.of with
    | none => s
    | some c =>
      if c.st ≠ .leaving ∨ c.saving = false then s
      else
        let s := countEv (releaseSlots (saveParts (moveFinds s ctx.bad ctx.fixed (saveDest c)) c) c) 57 0x72 0 (c.save.map (·.bytes)).sum
        let s := updCtx s ctx.of (fun c => { c with
          st := if c.launches.isEmpty then .idle else .ready, readySince := cyc s 57, saving := false, forced := false, filled := false })
        noteBlock (owe s false) ctx.of)

/-- A restore ends: the save area is released, the rills resume (R279). `bad`: codewords of the save area it found
uncorrectable (R417). -/
def restored (s : State) (c : Ctx) (bad fixed : List Nat) : State :=
  let s := moveFinds s bad fixed (fun a => if c.save.any (fun p => decide (p.addr ≤ a) && decide (a < p.addr + p.bytes)) then some a else none)
  let s := countEv s 57 0x72 0 (c.save.map (·.bytes)).sum
  let s := unstashRills (freeSave (restoreParts s c) c) c.slot
  let s := updCtx s c.slot (fun x => { x with st := .resident, residentSince := cyc s 57, entered := true, filled := !c.save.isEmpty })
  noteBlock (owe s false) c.slot

/-! ### Turns (R283-R287) -/

/-- Start of the current turn. -/
def turnBase (s : State) : Nat := getF s 57 F.SCHED_TURN_BASE_LO_CYCLE + 2 ^ 32 * getF s 57 F.SCHED_TURN_BASE_HI_CYCLE

/-- Begins a turn at a cycle: signals go to its reaches, those of the turn before, and wherever a context is held (R286);
late group members are counted (R285). -/
def beginTurn (s : State) (n at' : Nat) (before : Nat) : State :=
  let s := setF s 57 F.SCHED_STATUS_TURN n
  let s := setF (setF s 57 F.SCHED_TURN_BASE_LO_CYCLE at') 57 F.SCHED_TURN_BASE_HI_CYCLE (at' / 2 ^ 32)
  let cur := currentTurn s
  let mask := (cur.map (·.1)).getD 0
  let held := (s.sched.ctxs.filter (fun c => c.holds && match cur with | some t => reservedFor c t | none => false)).foldl (fun m c => m ||| c.reaches) 0
  let was := (s.sched.turnHeld.map (·.1)).foldl (fun m r => setBit m r true) 0
  let late := (s.sched.ctxs.filter (fun c => (c.st == .ready || c.st == .entering) && mask != 0
    && (match cur with | some t => c.group == t.2 | none => false) && (c.reaches &&& mask) == c.reaches)).length
  let s := addF s 57 F.SCHED_TURN_LATE_COUNT late
  noteBlocks (owe { s with sched := { s.sched with leads := s.sched.leads - 1, turnSignals := s.sched.turnSignals ||| before ||| mask ||| held ||| was } } false)

/-- Adopts the pending turnout table; execution goes on from its turn 0 (R53, R287). -/
def adoptTurnout (s : State) (at' : Nat) : State :=
  let before := ((currentTurn s).map (·.1)).getD 0
  let s := setA s 57 F.SCHED_TURN_CNT_COUNT (getP s 57 F.SCHED_TURN_CNT_COUNT)
  let s := (List.range 256).foldl (fun s n =>
    let s := setA s 57 F.SCHED_TURN_DUR_DURATION (getP s 57 F.SCHED_TURN_DUR_DURATION n) n
    let s := setA s 57 F.SCHED_TURN_MASK_REACH_MASK (getP s 57 F.SCHED_TURN_MASK_REACH_MASK n) n
    setA s 57 F.SCHED_TURN_GROUP_GROUP (getP s 57 F.SCHED_TURN_GROUP_GROUP n) n) s
  let s := setF s 57 F.SCHED_GROUP_TURNOUT_EPOCH_ADOPTED (getF s 57 F.SCHED_GROUP_TURNOUT_EPOCH_COMMITTED)
  beginTurn (setF s 57 F.SCHED_GROUP_TURNOUT_EPOCH_PENDING 0) 0 at' before

/-- TURN_BOUNDARY (R283): exactly DURATION cycles after the turn began. -/
def execTurnBoundary (s : State) : Host.Outcome State Fault Refusal :=
  .next (
    let n := getA s 57 F.SCHED_TURN_CNT_COUNT
    if working s = false ∨ n = 0 then s
    else
      let t := getF s 57 F.SCHED_STATUS_TURN
      let at' := turnBase s + getA s 57 F.SCHED_TURN_DUR_DURATION t
      let s := passTo s 57 at'
      if turnPending s then adoptTurnout s at'
      else beginTurn s ((t + 1) % n) at' (getA s 57 F.SCHED_TURN_MASK_REACH_MASK t))

/-- Cycle at which the k-th coming turn begins. -/
def turnStart (s : State) (k : Nat) : Nat :=
  turnBase s + getA s 57 F.SCHED_TURN_DUR_DURATION (getF s 57 F.SCHED_STATUS_TURN) + (((comingTurns s).take k).map (·.1)).sum

/-- The coming turns whose lead points have passed are counted anew: a commit has given others, or LEAD has changed (R271, R285). -/
def renewLeads (s : State) : State :=
  let n := ((List.range (comingTurns s).length).takeWhile (fun k => decide (turnStart s k ≤ cyc s 57 + getF s 57 F.SCHED_CFG_LEAD * 1024))).length
  let t := noteBlocks { s with sched := { s.sched with leads := n } }
  if s.sched.leads < n then owe t false else t

/-- TURN_LEAD_POINT (R285): LEAD x 1,024 cycles before the next coming turn whose lead point has not passed. -/
def execTurnLeadPoint (s : State) : Host.Outcome State Fault Refusal :=
  .next (
    if working s = false ∨ (comingTurns s).length ≤ s.sched.leads then s
    else
      let s := passTo s 57 (turnStart s s.sched.leads - getF s 57 F.SCHED_CFG_LEAD * 1024)
      noteBlocks (owe { s with sched := { s.sched with leads := s.sched.leads + 1 } } false))

/-- TURN_SIGNAL_APPLY (R286): a reach applies the current turn's reservation; the handshake's delay is recorded. -/
def execTurnSignalApply (reach : Nat) (s : State) : Host.Outcome State Fault Refusal :=
  .next (
    if 32 ≤ reach ∨ bit s.sched.turnSignals reach = false then s
    else
      let v := match currentTurn s with | some t => t.1 * 65536 + t.2 | none => 0
      let d := min (cyc s 57 - turnBase s) 65535
      let s := setF s 57 F.SCHED_JITTER_MAX_CYCLES (max d (getF s 57 F.SCHED_JITTER_MAX_CYCLES))
      { s with sched := { s.sched with
        turnSignals := setBit s.sched.turnSignals reach false
        turnHeld := if v / 65536 = 0 then mdel s.sched.turnHeld reach else mins s.sched.turnHeld reach v } })

end Sys2Proof.Machine
end

