-- ==== Sys2Proof/Machine/Tier.lean ====
section
/-!
DEFINITION. Machine/Tier.lean: the object window and tier commands (R109-R119, R125-R131), and stacks leaving and entering
service (R134-R139, R414).
-/
namespace Sys2Proof.Machine

/-! ### OBJ_MAP and OBJ_UNMAP (R109, R110) -/

/-- First fit of `n` ranges of 2 MiB in the window (R109). -/
def windowFit (s : State) (n : Nat) : Option Nat :=
  let starts := 0 :: s.mem.windows.map (fun w => w.first + w.count)
  (sortBy (fun a b => decide (a < b)) starts).find? (fun a =>
    decide (a + n ≤ 268435456) && s.mem.windows.all (fun w => decide (w.first + w.count ≤ a) || decide (a + n ≤ w.first)))

def updWindow (s : State) (nsid obj : Nat) (f : WinMap → WinMap) : State :=
  updMem s fun m => { m with windows := m.windows.map (fun w => if w.nsid = nsid ∧ w.obj = obj then f w else w) }

/-- The object a command names in bytes 32-39. -/
def cmdObj (s : State) (c : Cmd) : Option Obj := findObj s c.nsid (c.b 32 8)

/-- In hint mode, places an object whose hint names tier 1 (R114). -/
def placeHinted (s : State) (o : Obj) : State :=
  if getF s 57 F.TM_CTRL_MODE = 1 ∧ o.hinted ∧ o.hintTier = 1 ∧ o.quarantined = false then
    acceptFetch s o (List.range (pageCount o)) 0 o.size (pickDie s o.hintDie) 0 .background o.hintPin
  else s

/-- OBJ_MAP (R109). -/
def execObjMap (c : CmdId) (s : State) : Host.Outcome State Fault Refusal :=
  .next (runCmd s c (isOp 0x44) [(32, 8)] (fun c => [cond (cmdObj s c).isNone 0x1003]) fun s c =>
    match cmdObj s c with
    | none => s
    | some o =>
      match s.mem.windows.find? (fun w => w.nsid == o.nsid && w.obj == o.id) with
      | some w =>
        complete (updWindow s o.nsid o.id (fun w => { w with maps := min (w.maps + 1) 65535 })) c.no 0 (2 * 2 ^ 56 + w.first * MiB2)
      | none =>
        let n := ceilDiv o.size MiB2
        match windowFit s n with
        | none => complete s c.no 0x2001 0 0 3
        | some a =>
          let s := updMem s fun m => { m with windows := m.windows ++ [⟨o.nsid, o.id, a, n, 1, false⟩] }
          placeHinted (complete s c.no 0 (2 * 2 ^ 56 + a * MiB2)) o)

/-- OBJ_UNMAP (R109, R110): a deleted object's range too. -/
def execObjUnmap (c : CmdId) (s : State) : Host.Outcome State Fault Refusal :=
  .next (
    let win (c : Cmd) : Option WinMap := s.mem.windows.find? (fun w => w.nsid == c.nsid && w.obj == c.b 32 8)
    runCmd s c (isOp 0x45) [(32, 8)] (fun c => [cond (win c).isNone 0x1003]) fun s c =>
      match win c with
      | none => s
      | some w =>
        let s := if w.maps ≤ 1 then updMem s fun m => { m with windows := m.windows.filter (fun x => !(x.nsid == w.nsid && x.obj == w.obj)) }
          else updWindow s w.nsid w.obj (fun w => { w with maps := w.maps - 1 })
        complete s c.no 0)

/-! ### TIER_MOVE, TIER_PIN, TIER_UNPIN, TIER_HINT (R115-R119) -/

/-- Tier commands on one object run one after the other in arrival order (R119): none that arrived before is outstanding on it, and
none of it fetches. -/
def tierFree (s : State) (c : Cmd) : Bool :=
  !s.mem.fetches.any (fun f => f.nsid == c.nsid && f.obj == c.b 32 8 && !f.spilled && match f.issuer with | .cmd _ => true | _ => false)
    && !s.dqp.cmds.any (fun x => decide (x.no < c.no) && decide (0xA0 ≤ x.opcode) && decide (x.opcode ≤ 0xA3) && x.nsid == c.nsid && x.b 32 8 == c.b 32 8)

/-- The range of OFFSET and LENGTH: its pages, first byte and bytes (R115). -/
def tierRange (o : Obj) (off len : Nat) : List Nat × Nat × Nat :=
  let p := pageBytes o
  if o.grain = 0 then ([0], 0, o.size)
  else
    let n := if len = 0 then pageCount o - off / p else len / p
    ((List.range n).map (off / p + ·), off, min (if len = 0 then o.size else off + len) o.size - off)

/-- Conditions of an object and a range of it (R115). An OFFSET at the rounded-up end with a LENGTH of 0, a range of no byte, is
beyond the object (DESIGN CHOICE, notes/assumptions 18). -/
def tierRangeConds (o : Option Obj) (off len : Nat) : List Nat :=
  match o with
  | none => [0x1003]
  | some o =>
    let p := pageBytes o
    if o.grain = 0 then [cond (off != 0 || len != 0) 0x1002]
    else [cond (off % p != 0 || len % p != 0 || decide (pageCount o * p < off + len) || decide (pageCount o * p ≤ off)) 0x1002]

/-- Conditions of the object and range fields of a tier command (R115). -/
def tierConds (s : State) (c : Cmd) : List Nat := tierRangeConds (cmdObj s c) (c.b 40 8) (c.b 48 8)

/-- TIER_MOVE with DEST = 1 (R116). -/
def execTierMoveResident (c : CmdId) (s : State) : Host.Outcome State Fault Refusal :=
  .next (runCmd s c (fun c => c.opcode == 0xA0 && c.b 56 1 != 2 && tierFree s c) [(32, 27)]
    (fun c => tierConds s c ++ dieConds s (c.b 57 1) ++ [cond (c.b 56 1 != 1 || decide (1 < c.b 58 1)) 0x1002]) fun s c =>
    match cmdObj s c with
    | none => s
    | some o =>
      let r := tierRange o (c.b 40 8) (c.b 48 8)
      acceptFetch s o r.1 r.2.1 r.2.2 (pickDie s (c.b 57 1)) (c.b 12 4) (.cmd c.no) (c.b 58 1 == 1))

/-- TIER_MOVE with DEST = 2 (R116, R119): pages being fetched stay. RESULT0, of which R116 says nothing here, is the object ID
(DESIGN CHOICE, notes/assumptions 18). -/
def execTierMoveRelease (c : CmdId) (s : State) : Host.Outcome State Fault Refusal :=
  .next (
    let pages (c : Cmd) (o : Obj) : List Page := ((tierRange o (c.b 40 8) (c.b 48 8)).1).filterMap (findPage s o.nsid o.id)
    runCmd s c (fun c => c.opcode == 0xA0 && c.b 56 1 == 2 && tierFree s c) [(32, 27)]
      (fun c => tierConds s c ++ dieConds s (c.b 57 1) ++ [cond (c.b 58 1 != 0) 0x1002] ++
        match cmdObj s c with
        | some o => [cond ((pages c o).any (fun p => decide (0 < p.pins))) 0x1003]
        | none => []) fun s c =>
      match cmdObj s c with
      | none => s
      | some o => complete (((pages c o).filter (fun p => p.resident || p.asleep)).foldl dropPage s) c.no 0 o.id)

/-- TIER_PIN (R117). -/
def execTierPin (c : CmdId) (s : State) : Host.Outcome State Fault Refusal :=
  .next (runCmd s c (fun c => c.opcode == 0xA1 && tierFree s c) [(32, 24)] (tierConds s) fun s c =>
    match cmdObj s c with
    | none => s
    | some o =>
      let r := tierRange o (c.b 40 8) (c.b 48 8)
      acceptFetch s o r.1 r.2.1 r.2.2 (hintedDie s o (pickDie s 255)) (c.b 12 4) (.cmd c.no) true)

/-- An object is named as a shadow (R117). -/
def isShadow (s : State) (o : Obj) : Bool := s.search.objs.any (fun x => x.nsid == o.nsid && x.pathKind == 1 && x.shadow == o.id)

/-- An unpinned page that has lost every frame is gone (R139). -/
def dropBare (s : State) : State :=
  updMem s fun m => { m with pages := m.pages.filter (fun p => !(p.asleep && p.pins == 0 && p.lost == p.frame.length)) }

/-- TIER_UNPIN (R117). -/
def execTierUnpin (c : CmdId) (s : State) : Host.Outcome State Fault Refusal :=
  .next (runCmd s c (fun c => c.opcode == 0xA2 && tierFree s c) [(32, 24)]
    (fun c => tierConds s c ++
      match cmdObj s c with
      | none => []
      | some o =>
        let pins := ((tierRange o (c.b 40 8) (c.b 48 8)).1).map (fun i => ((findPage s o.nsid o.id i).map (·.pins)).getD 0)
        [cond (pins.any (· == 0) || (isShadow s o && pins.any (· == 1))) 0x1003]) fun s c =>
    match cmdObj s c with
    | none => s
    | some o =>
      let s := ((tierRange o (c.b 40 8) (c.b 48 8)).1).foldl (fun s i => updPage s o.nsid o.id i (fun p => { p with pins := p.pins - 1 })) s
      complete (dropBare s) c.no 0)

/-- A grain change under way of the object: what was being fetched starts again in pages of the new grain (R111, R115; DEDUCED,
notes/assumptions 18). -/
def regrain (s : State) (o : Obj) (grain : Nat) : State :=
  let p := pageBytes { o with grain := grain }
  let s := (s.mem.pages.filter (fun p => p.nsid == o.nsid && p.obj == o.id)).foldl dropPage s
  let s := updMem s fun m => { m with fetches := m.fetches.map (fun f =>
    if f.nsid = o.nsid ∧ f.obj = o.id then
      { f with pages := if grain = 0 then [0] else (List.range (ceilDiv (f.offset + f.bytes) p - f.offset / p)).map (f.offset / p + ·) }
    else f) }
  wakePages (updObj s o.nsid o.id (fun o => { o with grain := grain }))

/-- TIER_HINT (R115): the grain changes only while no page is resident or pinned. -/
def execTierHint (c : CmdId) (s : State) : Host.Outcome State Fault Refusal :=
  .next (runCmd s c (fun c => c.opcode == 0xA3 && tierFree s c) [(32, 12)]
    (fun c => dieConds s (c.b 42 1) ++
      [cond (c.b 40 1 != 1 && c.b 40 1 != 2) 0x1002, cond (decide (2 < c.b 41 1) || decide (1 < c.b 43 1)) 0x1002] ++
      match cmdObj s c with
      | none => [0x1003]
      | some o => [cond (o.grain != c.b 41 1 && s.mem.pages.any (fun p => p.nsid == o.nsid && p.obj == o.id && (p.resident || decide (0 < p.pins)))) 0x1003]) fun s c =>
    let s := match cmdObj s c with | some o => if o.grain = c.b 41 1 then s else regrain s o (c.b 41 1) | none => s
    complete (updObj s c.nsid (c.b 32 8) (fun o => { o with
      grain := c.b 41 1, hintTier := c.b 40 1, hintDie := c.b 42 1, hintPin := c.b 43 1 == 1, hinted := true })) c.no 0)

/-! ### SHADOW_SET, QUOTA_QUERY (R125, R127) -/

/-- SHADOW_SET (R127). -/
def execShadowSet (c : CmdId) (s : State) : Host.Outcome State Fault Refusal :=
  .next (runCmd s c (isOp 0xA4) [(32, 9), (48, 8)]
    (fun c => [cond (decide (3 < c.b 40 1)) 0x1002] ++
      match cmdObj s c with
      | none => [0x1003]
      | some o =>
        let k := c.b 40 1
        [cond ((k == 1 && o.mtype != 6) || (k == 2 && o.mtype != 8) || (k == 3 && o.mtype != 7)) 0x1003,
         cond (k == 1 && match findObj s c.nsid (c.b 48 8) with
           | none => true
           | some h => !heldWhole s h || h.pathKind != 0) 0x1003]) fun s c =>
    complete (updObj s c.nsid (c.b 32 8) (fun o => { o with pathKind := c.b 40 1, shadow := c.b 48 8 })) c.no 0)

/-- Flash charged to a domain in MiB, rounded up (R120). -/
def flashMib (s : State) (d : Nat) : Nat := ceilDiv (flashBlocks s d) 256

/-- The 32-byte record of a domain (R125). -/
def quotaRecord (s : State) (d : Nat) : List Byte :=
  toBytes 4 (getA s 57 F.HG_STACK_LIM_GIB d) ++ toBytes 4 (getF s 57 F.HG_STACK_USED_MIB d)
    ++ toBytes 4 (getA s 57 F.HG_SCRATCH_LIM_MIB d) ++ toBytes 4 (getF s 57 F.HG_SCRATCH_USED_MIB d)
    ++ toBytes 4 (getA s 57 F.HG_FLASH_LIM_GIB d) ++ toBytes 4 (flashMib s d)
    ++ toBytes 4 (getA s 57 F.HG_SAVE_LIM_GIB d) ++ toBytes 4 (getF s 57 F.HG_SAVE_USED_MIB d)

/-- QUOTA_QUERY (R125). -/
def execQuotaQuery (c : CmdId) (s : State) : Host.Outcome State Fault Refusal :=
  .next (runCmd s c (isOp 0xA5) [] (fun c => [cond (c.isList || c.bufBytes != 32) 0x1003]) fun s c =>
    complete (toHost s c (quotaRecord s c.dom)) c.no 0)

/-! ### Pages and fetches (R111-R113, R126-R131) -/

/-- A page's bytes leave their channel islands toward the die of its frame and enter its stacks through Headwater's port
(R261, R478, R482). -/
def pageMoved (s : State) (p : Page) (o : Obj) (n : Nat) : State :=
  let s := flashMoved s (fun _ => ((p.frame.head?).map (fun f => f.1 / 4)).getD 0) (objParts o (p.idx * pageBytes o) n)
  p.frame.zipIdx.foldl (fun s f =>
    let m := min MiB2 (n - f.2 * MiB2)
    meter (if m = 0 then s else countEv s (32 + f.1.1) 0x31 6 m) (32 + f.1.1) 6 m) s

/-- A page has arrived with its data (R111, R116). -/
def pageArrives (s : State) (o : Obj) (p : Page) (n : Nat) : State :=
  let s := updPage s o.nsid o.id p.idx (fun p => { p with resident := true, stamp := s.mem.clock })
  let s := updMem s fun m => { m with
    clock := m.clock + 1
    fetches := m.fetches.map (fun f => if f.nsid = o.nsid ∧ f.obj = o.id ∧ f.pages.contains p.idx then { f with newKib := f.newKib + ceilDiv n 1024 } else f) }
  wakePages (countEv (pageMoved s p o n) 57 0x75 0 n)

/-- A page being fetched has lost frames with a stack: it takes others, or the headgate refuses them and what waits hears of
it (R111, R139). -/
def pageBare (s : State) (o : Obj) (p : Page) : State :=
  match restartPage s o p with
  | (s, .ok _) => s
  | (s, .error _) => wakePages (if p.pins = 0 then dropPage s p else updPage s p.nsid p.obj p.idx (fun p => { p with asleep := true }))

/-- PAGE_FETCH_COMPLETE (R111, R112, R131, R388): the reads of the page's units end, `outs` naming those that were not clean; the
page arrives, is fetched again after an invalidation, or proves uncorrectable. -/
def execPageFetchComplete (nsid obj idx : Nat) (outs : List PageRead) (s : State) : Host.Outcome State Fault Refusal :=
  .next (
    match findPage s nsid obj idx, findObj s nsid obj with
    | some p, some o =>
      if p.resident || p.asleep || selfRefresh s then s
      else if 0 < p.lost then pageBare s o p
      else if p.again then updPage s nsid obj idx (fun p => { p with again := false })
      else
        let n := min (pageBytes o) (o.size - idx * pageBytes o)
        let s := noteRo (unitReads s (unitsIn o (idx * pageBytes o) n) outs)
        let bad := lostIn s o (idx * pageBytes o) n
        if bad.isEmpty then pageArrives s o p n else quarantine s o bad
    | _, _ => s)

/-- TIER_FETCH_COMPLETE (R116, R129): every page of the range is resident; pages lost meanwhile are fetched again. -/
def execTierFetchComplete (id : Nat) (s : State) : Host.Outcome State Fault Refusal :=
  .next (
    match findFetch s id with
    | none => s
    | some f =>
      if f.pages.all (pageResident s f.nsid f.obj) then (match f.issuer with | .image _ => s | _ => endFetch s f)
      else
        match findObj s f.nsid f.obj with
        | none => answerFetch (dropFetch s id) f 0x4004 0 0
        | some o =>
          match startPages o f.die f.pages s with
          | (s, .ok _) => s
          | (s, .error e) => if f.spilled then dropFetch s id else answerFetch (dropFetch s id) f 0x2001 0 e)

/-- DEADLINE_EXPIRE (R126, R128, R130, R292): the count is reached with data missing. -/
def execDeadlineExpire (id : Nat) (s : State) : Host.Outcome State Fault Refusal :=
  .next (
    match findFetch s id with
    | none => s
    | some f =>
      let missing := match f.issuer with | .image _ => true | _ => !f.pages.all (pageResident s f.nsid f.obj)
      if f.deadline = 0 ∨ f.expired = true ∨ missing = false then s
      else
        let s := passTo s 57 (f.accepted + f.deadline)
        let s := addF (updFetch s id (fun f => { f with expired := true })) 57 F.TM_DEADLINE_MISS_COUNT 1
        match f.issuer with
        | .image ctx => updCtx s ctx (fun c => { c with imgExpired := true })
        | _ =>
          match findObj s f.nsid f.obj with
          | none => s
          | some o =>
            if fetchPath s f o = 0 then s
            else spillFetch (updFetch s id (fun f => { f with spilled := true })) f (fetchPath s f o) 1)

/-! ### Stacks out of and into service (R134-R139) -/

/-- Physical extents of a stack that arenas, save areas and pinned frames hold: (logical key, or none for a frame). -/
def heldExts (s : State) (stack : Nat) : List (Nat × Nat) :=
  (s.mem.exts.filter (fun p => (p.2.phys.map (·.1)) == some stack)).map (fun p => (p.1, (p.2.phys.map (·.2)).getD 0))

/-- FRAME extents on a stack. -/
def heldFrames (s : State) (stack : Nat) : List Nat := (s.mem.frames.filter (fun p => p.1 / 65536 == stack)).map (·.1)

/-- Other ONLINE stacks of a stack's die (R135, R136). -/
def otherStacks (s : State) (stack : Nat) : List Nat := (onlineStacks s (stack / 4)).filter (· != stack)

/-- Releases the frames of unpinned pages on a stack (R135, R518). -/
def releaseUnpinned (s : State) (stack : Nat) : State :=
  (s.mem.pages.filter (fun p => p.pins == 0 && p.frame.any (fun f => f.1 == stack))).foldl (loseFrames stack) s

/-- A DRAINING stack with nothing left is OFFLINE (R134). -/
def drainedStack (s : State) (stack : Nat) : State :=
  if stkState s stack = 1 ∧ (heldExts s stack).isEmpty ∧ (heldFrames s stack).isEmpty then
    noteBlocks (unitMoved (setF s (32 + stack) F.STK_STATE_STATE 2))
  else s

/-- EXTENT_COPY_COMPLETE (R136): the copy of physical extent `ext` of a DRAINING stack ends: the logical extent, or the
frame's pages, move to the roomiest ONLINE stack of the die; poison moves with the data. `bad`: codewords the copy found
uncorrectable (R417); a page of an object frame is fetched again (R113). -/
def execExtentCopyComplete (stack : Nat) (ext : Finding Nat) (s : State) : Host.Outcome State Fault Refusal :=
  .next (
    if 16 ≤ stack ∨ stkState s stack ≠ 1 then s
    else
      match roomiest s (otherStacks s stack) with
      | none => s
      | some k =>
        let e := lowestPhys s k
        let mine (a : Nat) : Bool := match placeOfAddr s a with | some (st, o) => st == stack && o / MiB2 == ext.of | none => false
        let here := ext.bad.filter mine
        let s := moveFinds (foundFixed s ext.fixed mine) here [] (fun a => match regionOf s a with | .stack => some a | _ => none)
        let s := here.foldl (fun s a => match regionOf s a with | .window off => upsetFrame s a off | _ => s) s
        let s := holdExt s k e
        match (heldExts s stack).find? (fun p => p.2 == ext.of) with
        | some (key, _) => updMem s fun m => { m with exts := (m.exts.map (fun p => if p.1 = key then (key, { p.2 with phys := some (k, e), copied := true }) else p)) }
        | none =>
          match mfind s.mem.frames (stack * 65536 + ext.of) with
          | none => s
          | some fr => updMem s fun m => { m with
              frames := mins (mdel m.frames (stack * 65536 + ext.of)) (k * 65536 + e) { fr with copied := true }
              pages := m.pages.map (fun p => { p with frame := p.frame.map (fun f => if f = (stack, ext.of) then (k, e) else f) }) })

/-- STACK_DRAIN_COMPLETE (R134). -/
def execStackDrainComplete (stack : Nat) (s : State) : Host.Outcome State Fault Refusal :=
  .next (if 16 ≤ stack then s else drainedStack s stack)

/-- STACK_VALID_CLEAR_DONE (R138): the first of the eight capacity steps. -/
def execStackValidClearDone (stack : Nat) (s : State) : Host.Outcome State Fault Refusal :=
  .next (if 16 ≤ stack ∨ stkState s stack ≠ 4 ∨ getF s (32 + stack) F.STK_STATE_JOIN_STEP ≠ 0 then s
    else setF s (32 + stack) F.STK_STATE_JOIN_STEP 1)

/-- STACK_JOIN_STEP (R134, R138): the next step; the eighth makes the stack ONLINE. -/
def execStackJoinStep (stack : Nat) (s : State) : Host.Outcome State Fault Refusal :=
  .next (
    let n := getF s (32 + stack) F.STK_STATE_JOIN_STEP
    if 16 ≤ stack ∨ stkState s stack ≠ 4 ∨ n = 0 then s
    else if 7 ≤ n then noteBlocks (reback (unitMoved (setF (setF s (32 + stack) F.STK_STATE_JOIN_STEP 0) (32 + stack) F.STK_STATE_STATE 0)))
    else setF s (32 + stack) F.STK_STATE_JOIN_STEP (n + 1))

/-- First device address of a logical extent (R106). -/
def extAddr (s : State) (key : Nat) : Nat :=
  let k := key / 65536
  let st := stacksOf s (k / 4)
  (dieBase s (k / 4) + key % 65536 * st.length) * MiB2 + st.idxOf k * 4096

/-- The owners of the tagged extents a logical extent serves, one address each (R106, R419). -/
def extOwners (s : State) (key : Nat) : List Nat :=
  let st := stacksOf s (key / 65536 / 4)
  let e0 := dieBase s (key / 65536 / 4) + key % 65536 * st.length
  (List.range st.length).map (fun i => max ((e0 + i) * MiB2) (extAddr s key))

/-- Loses one logical extent through a stack fault: poisoned, without backing, its owners told (R139, R419). -/
def poisonExt (s : State) (key : Nat) : State :=
  let s := updMem s fun m => { m with exts := m.exts.map (fun p => if p.1 = key then (key, ⟨none, true, false⟩) else p) }
  ((extOwners s key).filterMap (fun a => (mfind s.mem.tags (a / MiB2)).map (fun t => (t, a)))).foldl
    (fun acc x => if acc.2.contains x.1 then acc else (reportPoison acc.1 x.2, x.1 :: acc.2)) (s, []) |>.1

/-- Takes a stack out of service through a fault (R134, R139): the frames on it are lost, extents not yet copied are poisoned
and backed on the die's other stacks. -/
def stackFault (s : State) (stack : Nat) : State :=
  let st := stkState s stack
  if 16 ≤ stack ∨ enabled s (32 + stack) = false ∨ st = 2 ∨ st = 3 then s
  else
    let s := unitMoved (setF (setF s (32 + stack) F.STK_STATE_STATE 2) (32 + stack) F.STK_STATE_JOIN_STEP 0)
    let s := (s.mem.pages.filter (fun p => p.frame.any (fun f => f.1 == stack))).foldl (loseFrames stack) s
    noteBlocks (reback (((heldExts s stack).map (·.1)).foldl poisonExt s))

/-- STACK_FAULT (R139). -/
def execStackFault (stack : Nat) (s : State) : Host.Outcome State Fault Refusal := .next (stackFault s stack)

/-- Blocks of the valid granules of a stack (R414, R425): of its extents those that are valid, of its frames all that pages fill. -/
def scrubBlocks (s : State) (stack : Nat) : Nat :=
  let inExt (key : Nat) : Nat :=
    let base := extAddr s key
    let n := (stacksOf s (key / 65536 / 4)).length
    (s.mem.valid.map (fun r => ((List.range 512).filter (fun g =>
      let a := base + g * n * 4096
      decide (r.1 ≤ a) && decide (a < r.2))).length)).sum
  let exts := ((s.mem.exts.filter (fun x => (x.2.phys.map (·.1)) == some stack)).map (fun x => inExt x.1)).sum
  let frames := ((s.mem.frames.filter (fun x => x.1 / 65536 == stack)).map (fun x => x.2.used * 16)).sum
  64 * (exts + frames)

/-- STACK_SCRUB (R414, R415, R419): the granules found correctable and uncorrectable, by device address; only those of
this stack count. -/
def execStackScrub (stack : Nat) (corrected uncorrectable : List Nat) (s : State) : Host.Outcome State Fault Refusal :=
  .next (
    let mine (a : Nat) : Bool := stackOfAddr s a == some stack && storedAt s a
    if 16 ≤ stack ∨ enabled s (32 + stack) = false then s
    else
      let blocks := scrubBlocks s stack
      let s := countEv s (32 + stack) 0x34 0 blocks
      let s := (corrected.filter mine).foldl correctedAt s
      (uncorrectable.filter mine).foldl (fun s a =>
        match regionOf s a with
        | .window off => upsetFrame s a off
        | _ => if poisoned s a then s else reportPoison (markUncorrectable s a) a) s)

end Sys2Proof.Machine
end

