-- ==== Sys2Proof/Machine/RegView.lean ====
section
/-!
DEFINITION. Machine/RegView.lean: finding the register an address names (R489, R492, R493) and reading it: a field either
lives in the register store or shows other state of the module, each as its register map says.
-/
namespace Sys2Proof.Machine

/-! ### Finding a register (R489, R492) -/

/-- Instance and second index of the word at an offset in a place of registers. -/
def Place.find (p : Place) (k : Kind) (off : Nat) : Option (Nat × Nat) :=
  if !p.kinds.contains k ∨ off < p.base then none
  else
    let d := off - p.base
    let i := if p.s1 = 0 then 0 else d / p.s1
    let r := d - i * p.s1
    let j := if p.s2 = 0 then 0 else r / p.s2
    if i < p.n1 ∧ j < p.n2 ∧ r = j * p.s2 then some (p.lo1 + i, j) else none

/-- The register at an offset of an island, with its indices. -/
def findReg (isl off : Nat) : Option (Reg × Nat × Nat) :=
  let k := kindOf isl
  (allRegs.filterMap (fun r => (r.places.filterMap (fun p => p.find k off)).head?.map (fun x => (r, x.1, x.2)))).head?

/-- First address of configuration space (R489). -/
def configBase : Nat := 0x03FF000000000000

/-- Island and offset of an address in an island space (R489, R491). -/
def islandAt (a : Nat) : Option (Nat × Nat) :=
  if configBase ≤ a ∧ a < configBase + 60 * 0x10000 then some ((a - configBase) / 0x10000, a % 0x10000) else none

/-! ### Views -/

/-- Rated maximum input in W (R22, R23). -/
def ratedW : Variant → Nat
  | .dm9140 => 3000 | .dm9120 => 2000 | .dm9140N => 3000 | .dm9110 => 1800

/-- KIND code of an island (R49). -/
def kindCode (i : Nat) : Nat :=
  match kindOf i with
  | .reach => 0 | .stack => 1 | .flash => 2 | .sieve => 3 | .media => 4 | .intake => 5 | .sched => 6 | .security => 7 | .weir => 8

/-- Sub-unit positions an island type defines (R49). -/
def unitsDefined (i : Nat) : Nat :=
  match kindOf i with | .reach => 48 | .flash => 32 | .sieve => 64 | .media => 13 | _ => 0

/-- Sub-units the image enables on an island, a mask (R31, R49, R516). DESIGN CHOICE (notes/assumptions 48): none of an island
that ISLAND_MASK disables. -/
def unitMask (s : State) (i : Nat) : Nat :=
  if !enabled s i ∨ s.boot.applied = false then 0
  else
    match kindOf i with
    | .reach => s.boot.info.tiles.getD i 0 % 2 ^ 48
    | .flash => bits s.boot.info.channels (32 * ((flashIndex i).getD 0)) 32
    | .sieve => bits s.boot.info.sieves (if i = 50 then 0 else 64) 64
    | .media => bits s.boot.info.decoders (if i = 51 then 0 else 16) 13
    | _ => 0

/-- Islands present; islands enabled since step 4 (R50, R516). -/
def presentMask (s : State) : Nat := maskOf ((List.range 60).filter (present s))
def enabledMask (s : State) : Nat := if s.boot.applied then maskOf ((List.range 60).filter (enabled s)) else 0

/-- Passes of a tile queued or in flight (R171). -/
def tilePasses (s : State) (r t : Nat) : List TPass := ((getTile s r t).queue ++ (getTile s r t).flight).filter (·.scaleWrite.isNone)

/-- STATE of TILE_STATUS: the quadrants' common state, or 7 (R171). -/
def tileState (s : State) (r t : Nat) : Nat :=
  let q := quadState s r t 0
  if [1, 2, 3].all (fun k => quadState s r t k == q) then q else 7

/-- Passes in flight on a tile, escalation passes among them; in quad mode the largest number over the quadrants (R171). -/
def tileInflight (s : State) (r t : Nat) : Nat := ([0, 1, 2, 3].map (inflight (getTile s r t))).foldl max 0

/-- Tiles of a reach with a property, a mask. -/
def tileMask (p : Nat → Bool) : Nat := maskOf ((List.range 48).filter p)

def tileOnlineMask (s : State) (r : Nat) : Nat := tileMask (fun t => tileEnabled s r t && tileState s r t == 0)
def tileSlipMask (s : State) (r : Nat) : Nat := tileMask (fun t => getF s r F.TILE_STATUS_SLIP t == 1)

/-- Rills on a reach (R241). -/
def rillsOn (s : State) (r : Nat) : List (Nat × Rill) := s.runnels.rills.filter (fun p => p.1 / 128 == r)

/-- Programs of a slot of an engine (R242). -/
def slotProgs (s : State) (r e k : Nat) : List Prog := getProgs s (progKey r e k)

/-- State of a program slot in FLUME_STATUS (R264). -/
def slotState (s : State) (r e k : Nat) : Nat :=
  match (slotProgs s r e k).head? with
  | some p => if p.waitAt.isSome ∨ p.xfers.any (·.held.isSome) then 2 else 1
  | none => 0

/-- Programs queued for a slot behind the one at its head (R242, R264). -/
def slotQueued (s : State) (r e k : Nat) : Nat := (slotProgs s r e k).length - 1

def engineIdle (s : State) (r e : Nat) : Bool := (slotProgs s r e 0).isEmpty && (slotProgs s r e 1).isEmpty

/-- Profiles a stream uses on a reach (R193). -/
def rotBusy (s : State) (r : Nat) : Nat :=
  maskOf ((List.range 4).filter (fun p => s.flume.progs.any (fun x => x.1 / 16 == r && x.2.any (fun g => g.streams.any (fun y => y.prof == p)))))

/-- Logical extents of a stack's own range (R140). -/
def remapOf (s : State) (stack : Nat) : Option LExt := mfind s.mem.exts (lextKey stack (getF s (32 + stack) F.STK_REMAP_SEL_EXTENT))

/-- The stack a drain copy of the die goes to next (R136). -/
def copyTarget (s : State) (stack : Nat) : Bool :=
  (stacksOf s (stack / 4)).any (fun k => k != stack && stkState s k == 1 && roomiest s ((onlineStacks s (stack / 4)).filter (· != k)) == some stack
    && decide (0 < usedExts s k))

def stackIdle (s : State) (stack : Nat) : Bool := stkState s stack == 0 && !copyTarget s stack

/-- Channels of a flash island in service. -/
def islandChans (s : State) (i : Nat) : List Nat := ((List.range 32).map (32 * ((flashIndex i).getD 0) + ·)).filter (chIn s)

/-- Dies of a flash island that are listed. -/
def islandDies (s : State) (i : Nat) : List (Nat × Die) := s.flash.dies.filter (fun p => p.1 / 512 == (flashIndex i).getD 4)

def Die.quiet (d : Die) : Bool :=
  d.run.isNone && d.susp.isNone && d.reads.isEmpty && d.others.isEmpty && d.wantErase.isEmpty && d.dones.isEmpty

def DieOp.isProg : DieOp → Bool
  | .prog _ _ _ _ _ => true
  | _ => false

/-- Channel island number (0-3) of a stripe. -/
def stripeIsland (s : State) (id : Nat) : Nat := match findStripe s id with | some x => x.group / 2 | none => 4

/-- IDLE of FTL_STATUS (R409). -/
def ftlIdle (s : State) (i : Nat) : Bool :=
  let k := (flashIndex i).getD 4
  (islandDies s i).all (fun p => !((p.2.run.toList ++ p.2.susp.toList ++ p.2.others).any DieOp.isProg))
    && s.flash.gcs.all (fun g => stripeIsland s g.victim != k) && s.flash.repls.all (fun r => stripeIsland s r.stripe != k)
    && s.flash.discards.all (fun d => d.stripes.all (fun x => stripeIsland s x != k) && d.erasing.all (fun e => e.1 / 32 != k))

/-- Table pages of an island: those whose number falls on its stripe groups (DESIGN CHOICE, notes/assumptions 47). -/
def islandTables (s : State) (i : Nat) : Nat :=
  (s.flash.tables.filter (fun p => (groups s).getD (p.1 % 2 ^ 56 % max (groups s).length 1) 0 / 2 == (flashIndex i).getD 4)).length

/-- IDLE of SCHED_STATUS (R295). -/
def schedIdle (s : State) : Bool :=
  s.sched.owed.isEmpty && s.sched.ctxs.all (fun c => c.st != .leaving && c.st != .entering && c.st != .imaging && c.imgOp == 0)

def ctxsIn (s : State) (st : CtxSt) : Nat := (s.sched.ctxs.filter (fun c => c.st == st)).length

/-- Units of a sieve island reading a pool. -/
def sieveActive (s : State) (i : Nat) : Nat := ((List.range 64).filter (sieveBusy s i)).length

/-- Byte string of a run of 4-byte words (R5, R473). -/
def wordAt (l : List Byte) (i : Nat) : Nat := le l (4 * i) 4

/-- DQP_STATUS.IDLE (R68). -/
def dqpIdle (s : State) : Bool := getF s 56 F.DQP_CTRL_EN == 0 && s.dqp.sqs.isEmpty && s.dqp.cqs.isEmpty

/-- ID_MQ_STATUS.IDLE: no management quote queued or running (R473). -/
def mqIdle (s : State) : Bool := !s.ident.quotes.any (·.mgmt)

/-- A temperature sensor has power: its island is enabled, and the module not HALTED but for island 59 and the inlet (R484). -/
def sensorLive (s : State) (i : Nat) : Bool :=
  if i = 332 ∨ i = 59 then true
  else
    let n := if i < 60 then i else if i < 76 then i - 28 else ([48, 49, 52, 53][(i - 76) / 64]?).getD 60
    enabled s n && getF s 59 F.WEIR_STATUS_MSTATE != 3

/-- What a field of an island shows. -/
def viewF (s : State) (isl : Nat) (f : Field) (i j : Nat) : Nat :=
  let stored := getF s isl f i j
  if f.acc = .cm then 0
  else if f = F.ISL_ID_ISLAND then isl
  else if f = F.ISL_ID_KIND then kindCode isl
  else if f = F.ISL_ID_PRESENT then 1
  else if f = F.ISL_ID_ENABLED then b2n (s.boot.applied && enabled s isl)
  else if f = F.PROT_TCTRL_OP then testOp s isl
  else if f = F.PROT_TSTATUS_DONE ∧ testOp s isl ≠ 0 then 0
  else if f = F.ISL_UNITS_COUNT then popCount (unitMask s isl) 64
  else if f = F.ISL_UNITS_DEFINED then unitsDefined isl
  else if f = F.ISL_UNIT_MASK_LO_MASK then bits (unitMask s isl) 0 32
  else if f = F.ISL_UNIT_MASK_HI_MASK then bits (unitMask s isl) 32 32
  else
  match kindOf isl with
  | .reach =>
    if f.reg = F.TILE_ONLINE_LO_MASK.reg then bits (tileOnlineMask s isl) 0 32
    else if f.reg = F.TILE_ONLINE_HI_MASK.reg then bits (tileOnlineMask s isl) 32 16
    else if f.reg = F.TILE_SLIP_LO_MASK.reg then bits (tileSlipMask s isl) 0 32
    else if f.reg = F.TILE_SLIP_HI_MASK.reg then bits (tileSlipMask s isl) 32 16
    else if f = F.TILE_STATUS_STATE then tileState s isl i
    else if f = F.TILE_STATUS_IDLE then b2n (tileState s isl i == 0 && (tilePasses s isl i).isEmpty)
    else if f = F.TILE_STATUS_INFLIGHT then tileInflight s isl i
    else if f = F.ROT_STATUS_IDLE then b2n (rotBusy s isl == 0)
    else if f = F.ROT_STATUS_BUSY then rotBusy s isl
    else if f = F.RUN_STATUS_IDLE then b2n (rillsOn s isl).isEmpty
    else if f = F.RUN_STATUS_BUSY then maskOf ((List.range 4).filter (fun n => (rillsOn s isl).any (fun p => p.1 % 128 / 32 == n)))
    else if f = F.RUN_RILLS_SLOT0 then ((rillsOn s isl).filter (fun p => p.2.rslot == 0)).length
    else if f = F.RUN_RILLS_SLOT1 then ((rillsOn s isl).filter (fun p => p.2.rslot == 1)).length
    else if f = F.FLUME_STATUS_S0 then slotState s isl i 0
    else if f = F.FLUME_STATUS_S1 then slotState s isl i 1
    else if f = F.FLUME_STATUS_Q0 then slotQueued s isl i 0
    else if f = F.FLUME_STATUS_Q1 then slotQueued s isl i 1
    else if f = F.FLUME_STATUS_IDLE then b2n (engineIdle s isl i)
    else if f = F.FLUME_PC_PC0 then (((slotProgs s isl i 0).head?.map (·.pc)).getD 0) % 64
    else if f = F.FLUME_PC_PC1 then (((slotProgs s isl i 1).head?.map (·.pc)).getD 0) % 64
    else if f = F.SLUICE_LEVEL_BYTES then levelNow s isl i / 1024
    else stored
  | .stack =>
    let n := isl - 32
    if f = F.STK_STATE_IDLE then b2n (stackIdle s n)
    else if f = F.STK_EXT_TOTAL_COUNT then extPerStack s
    else if f = F.STK_EXT_FREE_COUNT then freeExts s n
    else if f = F.STK_EXT_FOREIGN_COUNT then
      (s.mem.exts.filter (fun p => (p.2.phys.map (·.1)) == some n && p.2.copied)).length
        + (s.mem.frames.filter (fun p => p.1 / 65536 == n && p.2.copied)).length
    else if f = F.STK_DRAIN_LEFT_COUNT then (if stkState s n = 1 then usedExts s n else 0)
    else if f = F.STK_SPARE_USED_COUNT then (if s.boot.applied then (s.boot.info.stackRows.filter (fun r => r.1 == n)).length else 0)
    else if f = F.STK_REMAP_DATA_EXTENT then
      (match remapOf s n with | some x => (x.phys.map (·.2)).getD 0 | none => getF s isl F.STK_REMAP_SEL_EXTENT)
    else if f = F.STK_REMAP_DATA_STACK then ((remapOf s n).bind (·.phys)).elim n (·.1)
    else if f = F.STK_REMAP_DATA_UNBACKED then (match remapOf s n with | some x => b2n x.phys.isNone | none => 0)
    else if f = F.STK_REMAP_DATA_POISONED then (match remapOf s n with | some x => b2n x.poisoned | none => 0)
    else if f = F.SLUICE_LEVEL_BYTES then levelNow s isl i / 1024
    else stored
  | .flash =>
    if f = F.FCH_STATUS_IDLE then b2n ((islandDies s isl).all (fun p => p.2.quiet))
    else if f = F.FCH_STATUS_ONLINE then ((islandChans s isl).filter (fun c => chState s c == 0)).length
    else if f = F.FTL_STATUS_IDLE then b2n (ftlIdle s isl)
    else if f = F.FTL_STATUS_RO_STATE then s.flash.ro
    else if f = F.FTL_HEALTH_SPARE_PCT then leastOver 100 (sparePct s) (islandChans s isl)
    else if f = F.FTL_HEALTH_WEAR_MEAN_PCT then min 255 (wearPct s (islandChans s isl)).1
    else if f = F.FTL_HEALTH_WEAR_MAX_PCT then (wearPct s (islandChans s isl)).2
    else if f = F.FTL_FREE_SETS then leastOver 0 (freeSets s) (islandChans s isl)
    else if f = F.FTL_BUF_SLOTS then (s.flash.slots.filter (fun p => p.1 / 2 ^ 20 == (flashIndex isl).getD 4 )).length
    else if f = F.FTL_TABLE_PAGES_COUNT then islandTables s isl
    else if f = F.SLUICE_LEVEL_BYTES then levelNow s isl i / 1024
    else stored
  | .sieve =>
    if f = F.SIEVE_STATUS_IDLE then b2n (sieveActive s isl == 0)
    else if f = F.SIEVE_STATUS_ACTIVE then sieveActive s isl
    else if f = F.SLUICE_LEVEL_BYTES then levelNow s isl i / 1024
    else stored
  | .media =>
    if f = F.MEDIA_STATUS_IDLE then b2n (!s.media.decodes.any (fun d => d.island == isl))
    else if f = F.MEDIA_STATUS_VBUSY then maskOf ((List.range 4).filter (mediaBusy s isl))
    else if f = F.MEDIA_STATUS_IBUSY then maskOf ((List.range 8).filter (fun u => mediaBusy s isl (4 + u)))
    else if f = F.MEDIA_STATUS_RBUSY then b2n (mediaBusy s isl 12)
    else if f = F.SLUICE_LEVEL_BYTES then levelNow s isl i / 1024
    else stored
  | .intake =>
    if f = F.DQP_STATUS_IDLE then b2n (dqpIdle s)
    else if f = F.DQP_STATUS_LINK_UP then b2n (s.link.session && s.link.l0)
    else if f = F.DQP_CAP_RISAL then b2n (s.boot.applied && s.boot.info.risal)
    else if f = F.DQP_DEFER_PEND_COUNT then min s.dqp.deferred.length 65535
    else if f = F.DQP_SB_IMG_STAT_COUNT then s.dqp.sbImage.length
    else stored
  | .sched =>
    if f = F.HG_FLASH_USED_MIB then flashMib s i
    else if f = F.TM_STATUS_IDLE then b2n (s.mem.fetches.isEmpty && s.mem.pages.all (fun p => p.resident || p.asleep))
    else if f = F.TM_STATUS_FETCHES then min s.mem.fetches.length 65535
    else if f = F.TM_QUAR_COUNT then min (s.search.objs.filter (·.quarantined)).length 65535
    else if f = F.TM_FREE_D_MIB then 2 * dieFree s i
    else if f = F.SCHED_STATUS_IDLE then b2n (schedIdle s)
    else if f = F.SCHED_STATUS_RESIDENT then ctxsIn s .resident
    else if f = F.SCHED_STATUS_READY then ctxsIn s .ready
    else if f = F.SRCH_STATUS_IDLE then b2n s.search.queries.isEmpty
    else if f = F.SRCH_STATUS_SWEEPS then s.search.sweeps.length
    else if f = F.SRCH_STATUS_QUEUED then min 65535 (s.search.queries.filter (fun q => q.phase == .queued)).length
    else if f = F.SRCH_TOMB_USED then s.search.tombs.length
    else if f = F.SRCH_REPAIR_Q_COUNT then s.search.repairs.length
    else if f = F.SRCH_HEAP_USED_ENTRIES then heapUsed s
    else stored
  | .security =>
    if f = F.CAP_PRESENT_LO_ISLANDS then bits (presentMask s) 0 32
    else if f = F.CAP_PRESENT_HI_ISLANDS then bits (presentMask s) 32 28
    else if f = F.CAP_ENABLED_LO_ISLANDS then bits (enabledMask s) 0 32
    else if f = F.CAP_ENABLED_HI_ISLANDS then bits (enabledMask s) 32 28
    else if f.reg = F.CAP_FEATURE_VARIANT.reg then bits (capFeature s) f.lo f.w
    else if f = F.ID_MQ_STATUS_IDLE then b2n (mqIdle s)
    else if f = F.ID_PUB_DATA then wordAt s.ident.pk i
    else if f = F.ID_MQ_DATA_DATA then wordAt s.ident.mqData i
    else stored
  | .weir =>
    if f = F.PROT_SUM_LO_ISLANDS then maskOf ((List.range 32).filter (fun n => getF s n F.PROT_STATUS_OVF != 0 || getF s n F.PROT_STATUS_UE != 0))
    else if f = F.PROT_SUM_HI_ISLANDS then
      maskOf ((List.range 28).filter (fun n => getF s (32 + n) F.PROT_STATUS_OVF != 0 || getF s (32 + n) F.PROT_STATUS_UE != 0))
    else if f = F.TEL_TEMP_VALID then b2n (stored == 1 && sensorLive s i)
    else if f = F.WEIR_THERM_THERM_W then (if stored = 0 then ratedW s.variant else stored)
    else if f = F.TEL_ENERGY_LO_MJ then s.counters.energy % 2 ^ 32
    else if f = F.TEL_ENERGY_HI_MJ then s.counters.energy / 2 ^ 32
    else stored

/-- Counter fields, the same on every island: the live 64-bit pair behind a `_LO` register, by register (R474, R476, R482). -/
def pairOf (s : State) (isl : Nat) (r i : Nat) : Option Nat :=
  if r = F.CNT_CYCLE_LO_CYCLE.reg then some (cyc s isl)
  else if r = F.CNT_LO_VALUE.reg then some (mget 0 s.counters.values (8 * isl + i) + 2 ^ 48 * getF s isl F.CNT_HI_SAT i)
  else if r = F.CNT_BW_LO_BYTES.reg then some (mget 0 s.counters.lastBytes (8 * isl + i))
  else if r = F.TEL_ENERGY_LO_MJ.reg then some s.counters.energy
  else none

/-- The `_LO` register whose latch a `_HI` register shows (R474). -/
def loOf (r : Nat) : Option Nat :=
  if r = F.CNT_CYCLE_HI_CYCLE.reg then some F.CNT_CYCLE_LO_CYCLE.reg
  else if r = F.CNT_HI_VALUE.reg then some F.CNT_LO_VALUE.reg
  else if r = F.CNT_BW_HI_BYTES.reg then some F.CNT_BW_LO_BYTES.reg
  else if r = F.TEL_ENERGY_HI_MJ.reg then some F.TEL_ENERGY_LO_MJ.reg
  else none

/-- Key of a port's latch of a `_LO` register; port 0 host, 1 management. -/
def latchKey (port isl r i : Nat) : Nat := port * 2 ^ 32 + (isl * 512 + r) * 16 + i

/-- The word a register shows to a port (R9, R10). -/
def viewReg (s : State) (port isl : Nat) (r : Reg) (i j : Nat) : Nat :=
  match pairOf s isl r.num i with
  | some v => v % 2 ^ 32
  | none =>
    match loOf r.num with
    | some lo => mget 0 s.counters.latches (latchKey port isl lo i) % 2 ^ 32
    | none => r.fields.foldl (fun v f => v + viewF s isl f i j % 2 ^ f.w * 2 ^ f.lo) 0

/-- A read of a `_LO` register latches the matching `_HI` for the port (R474). -/
def latchHi (s : State) (port isl : Nat) (r : Reg) (i : Nat) : State :=
  match pairOf s isl r.num i with
  | some v => { s with counters := { s.counters with latches := mset 0 s.counters.latches (latchKey port isl r.num i) (v / 2 ^ 32) } }
  | none => s

end Sys2Proof.Machine
end

