-- ==== Sys2Proof/Machine/Groups.lean ====
section
/-!
DEFINITION. Machine/Groups.lean: the legal values of register fields (R11 and the register maps), what keeps an LK field
busy (R57), and the commit groups: their consistency rules, commits and safe points (R51-R57).
-/
namespace Sys2Proof.Machine

/-! ### Legal values (R11) -/

/-- Fields whose legal values form one range. -/
def legalRanges : List (Field × Nat × Nat) :=
  [(F.DQP_AQ_SIZE_ASQ_ENTRIES, 2, 4096), (F.DQP_AQ_SIZE_ACQ_ENTRIES, 2, 4096), (F.DQP_SB_IMG_CTRL_CMD, 0, 2),
   (F.DQP_SB_IMG_LEN_LENGTH, 6253, 3145728), (F.RISAL_DCFG_DEST_KIB, 0, 16777216), (F.TILE_FMT_MODE, 0, 2),
   (F.TILE_FMT_GSIZE, 0, 2), (F.ROT_PCFG_ROT_SIZE, 0, 2), (F.ROT_PCFG_GSIZE, 0, 2), (F.FLUME_CFG_TIMEOUT, 0, 14)] ++
  [(F.SLUICE_BURST_UNITS, 1, 8191), (F.SCHED_CFG_QUANTUM, 1, 65535), (F.SCHED_BATCH_CHUNK, 64, 4096),
   (F.SCHED_BATCH_MAX_DECODE, 1, 256), (F.SCHED_TURN_CNT_COUNT, 0, 256), (F.SRCH_CFG_SWEEP_MAX, 1, 1024),
   (F.SRCH_CFG_SWEEPS_MAX, 1, 4), (F.SIEVE_CTRL_UNITS, 1, 64), (F.FTL_PATROL_CFG_PERIOD, 2, 30), (F.FTL_PATROL_CFG_PCT, 1, 20)] ++
  [(F.FTL_PATROL_CFG_REFRESH_BITS, 1, 255), (F.FTL_RD_CFG_RD_LIMIT, 1, 65535), (F.PROT_CE_CFG_LEAK, 10, 40),
   (F.WEIR_ORDER_ORDER, 0, 3), (F.CNT_BW_CFG_WIN, 10, 40), (F.CNT_SMP_CFG_WATERMARK, 1, 64), (F.CNT_SEL_SLOT, 0, 2)]

/-- A value of a field is legal (R11): the ranges above, and the fields whose range depends on the unit or has gaps. -/
def legalField (s : State) (isl : Nat) (f : Field) (v : Nat) : Bool :=
  if f = F.SLUICE_CFG_RATE then decide (32 ≤ isl) || decide (v ≤ 262144)
  else if f = F.SCHED_TURN_DUR_DURATION then v == 0 || (decide (1500 ≤ v) && decide (v ≤ 150000000))
  else if f = F.SCHED_TURN_GROUP_GROUP then decide (v ≤ 1023) || v == 0xFFFF
  else if f = F.STK_REMAP_SEL_EXTENT then decide (v < extPerStack s)
  else if f = F.WEIR_CAP_CAP_W then decide (500 ≤ v) && decide (v ≤ ratedW s.variant)
  else if f = F.PROT_FLIP_CHECK_MASK then kindOf isl == .stack || kindOf isl == .flash || decide (v < 256)
  else match legalRanges.find? (fun r => r.1 == f) with
    | some (_, lo, hi) => decide (lo ≤ v) && decide (v ≤ hi)
    | none => true

/-- A written word sets no reserved bit (R10) and only legal values in writable fields (R11). -/
def legalWord (s : State) (isl : Nat) (r : Reg) (v : Nat) : Bool :=
  (v - r.fields.foldl (fun m f => m + bits v f.lo f.w * 2 ^ f.lo) 0 == 0)
    && r.fields.all (fun f => f.acc == .ro || f.acc == .w1c || f.acc == .cm || legalField s isl f (bits v f.lo f.w))

/-! ### Busy units (R57) -/

/-- A unit state in which LK fields accept writes whatever runs: OFFLINE or TESTING. -/
def outState (st : Nat) : Bool := st == 2 || st == 3

/-- State of the unit a test names by PROT_TCTRL.UNIT (R427): the reach, the stack, the local channel or the sieve unit; an
island without Test arrays counts as ONLINE. -/
def testState (s : State) (isl unit : Nat) : Nat :=
  match kindOf isl with
  | .reach => reachState s isl
  | .stack => stkState s (isl - 32)
  | .flash => getF s isl F.FCH_CSTATE_STATE unit
  | .sieve => getF s isl F.SIEVE_USTATE_STATE unit
  | _ => 0

/-- The unit that owns an island's PROT test registers is idle (R57): out of service, or ONLINE with nothing under way; a
reach has no IDLE bit of its own, so its runnels, engines and tiles are idle (DEDUCED, notes/assumptions 8). -/
def testIdle (s : State) (isl : Nat) : Bool :=
  let st := testState s isl (getF s isl F.PROT_TCTRL_UNIT)
  outState st || (st == 0 && (match kindOf isl with
    | .reach => (rillsOn s isl).isEmpty && (List.range 8).all (engineIdle s isl) && (List.range 48).all (fun t => (tilePasses s isl t).isEmpty)
    | .stack => stackIdle s (isl - 32)
    | .flash => (islandDies s isl).all (fun p => p.2.quiet)
    | .sieve => sieveActive s isl == 0
    | _ => true))

/-- Test registers whose fields are LK of that unit (R429). PROT_TCTRL and PROT_FLIP_CTRL carry orders with statuses of their
own, which writeTctrl and writeFlipCtrl give (R427, R428). -/
def testRegs : List Nat := [R.PROT_FLIP_DATA_LO.num, R.PROT_FLIP_DATA_HI.num, R.PROT_FLIP_CHECK.num, R.PROT_TADDR_LO.num, R.PROT_TADDR_HI.num]

/-- The LK fields of a register accept a write (R57 and the owning register maps). -/
def lkFree (s : State) (isl : Nat) (r : Reg) (i : Nat) : Bool :=
  if r.num = R.STK_MOVE_RATE.num then outState (stkState s (isl - 32)) || stackIdle s (isl - 32)
  else if r.num = R.TILE_INJECT.num ∨ r.num = R.TILE_SCALE.num then (tilePasses s isl i).isEmpty
  else if r.num = R.RUN_INJECT.num then outState (reachState s isl) || (reachState s isl == 0 && (rillsOn s isl).isEmpty)
  else if r.num = R.FLUME_CFG.num then (List.range 8).all (engineIdle s isl)
  else if r.num = R.ID_MQ_NONCE.num ∨ r.num = R.ID_MQ_CTRL.num then mqIdle s
  else if r.num = R.CNT_SEL.num then !bit (getF s isl F.CNT_CTRL_EN) i
  else if [R.DQP_AQ_SIZE.num, R.DQP_SQ_BASE_LO.num, R.DQP_SQ_BASE_HI.num, R.DQP_CQ_BASE_LO.num, R.DQP_CQ_BASE_HI.num].contains r.num then
    getF s 56 F.DQP_CTRL_EN == 0
  else if testRegs.contains r.num then testIdle s isl
  else true

/-! ### Commit groups (R51, R56) -/

/-- A commit group: the registers that hold its ST fields, whether each instance of them is a group of its own, and its
epoch fields. -/
structure Group where
  commit : Nat
  regs : List Nat
  each : Bool
  committed : Field
  adopted : Field
  pending : Field
  deriving DecidableEq, Repr

def groupTable : List Group :=
  [⟨R.TILE_GROUP_FMT_COMMIT.num, [R.TILE_FMT.num, R.TILE_SENT.num], true,
    F.TILE_GROUP_FMT_EPOCH_COMMITTED, F.TILE_GROUP_FMT_EPOCH_ADOPTED, F.TILE_GROUP_FMT_EPOCH_PENDING⟩,
   ⟨R.ROT_GROUP_CFG_COMMIT.num,
    [R.ROT_PCFG.num, R.ROT_PSEED.num, R.ROT_PPARAM_LO.num, R.ROT_PPARAM_HI.num, R.ROT_PSIGN_0.num, R.ROT_PSIGN_1.num, R.ROT_PSIGN_2.num,
     R.ROT_PSIGN_3.num, R.ROT_PDIM.num, R.ROT_PSIDE_LO.num, R.ROT_PSIDE_HI.num], false,
    F.ROT_GROUP_CFG_EPOCH_COMMITTED, F.ROT_GROUP_CFG_EPOCH_ADOPTED, F.ROT_GROUP_CFG_EPOCH_PENDING⟩,
   ⟨R.SLUICE_GROUP_RATE_COMMIT.num, [R.SLUICE_CFG.num, R.SLUICE_BURST.num], true,
    F.SLUICE_GROUP_RATE_EPOCH_COMMITTED, F.SLUICE_GROUP_RATE_EPOCH_ADOPTED, F.SLUICE_GROUP_RATE_EPOCH_PENDING⟩,
   ⟨R.HG_GROUP_QUOTA_COMMIT.num, [R.HG_STACK_LIM.num, R.HG_SCRATCH_LIM.num, R.HG_FLASH_LIM.num, R.HG_SAVE_LIM.num], true,
    F.HG_GROUP_QUOTA_EPOCH_COMMITTED, F.HG_GROUP_QUOTA_EPOCH_ADOPTED, F.HG_GROUP_QUOTA_EPOCH_PENDING⟩,
   ⟨R.SCHED_GROUP_TURNOUT_COMMIT.num, [R.SCHED_TURN_CNT.num, R.SCHED_TURN_DUR.num, R.SCHED_TURN_MASK.num, R.SCHED_TURN_GROUP.num], false,
    F.SCHED_GROUP_TURNOUT_EPOCH_COMMITTED, F.SCHED_GROUP_TURNOUT_EPOCH_ADOPTED, F.SCHED_GROUP_TURNOUT_EPOCH_PENDING⟩] ++
  [⟨R.FTL_GROUP_PATROL_COMMIT.num, [R.FTL_PATROL_CFG.num, R.FTL_RD_CFG.num], false,
    F.FTL_GROUP_PATROL_EPOCH_COMMITTED, F.FTL_GROUP_PATROL_EPOCH_ADOPTED, F.FTL_GROUP_PATROL_EPOCH_PENDING⟩,
   ⟨R.SIEVE_GROUP_CFG_COMMIT.num, [R.SIEVE_CTRL.num], false,
    F.SIEVE_GROUP_CFG_EPOCH_COMMITTED, F.SIEVE_GROUP_CFG_EPOCH_ADOPTED, F.SIEVE_GROUP_CFG_EPOCH_PENDING⟩,
   ⟨R.MEDIA_GROUP_RESIZE_COMMIT.num, [R.MR_CROP_POS.num, R.MR_CROP_SIZE.num, R.MR_OUT.num, R.MR_MODE.num], false,
    F.MEDIA_GROUP_RESIZE_EPOCH_COMMITTED, F.MEDIA_GROUP_RESIZE_EPOCH_ADOPTED, F.MEDIA_GROUP_RESIZE_EPOCH_PENDING⟩,
   ⟨R.WEIR_GROUP_CAP_COMMIT.num, [R.WEIR_CAP.num], false,
    F.WEIR_GROUP_CAP_EPOCH_COMMITTED, F.WEIR_GROUP_CAP_EPOCH_ADOPTED, F.WEIR_GROUP_CAP_EPOCH_PENDING⟩]

/-- A key of the register store belongs to a group's instance. -/
def Group.holds (g : Group) (isl i key : Nat) : Bool :=
  key / 2 ^ 31 == isl && g.regs.contains (key / 2 ^ 22 % 512) && (!g.each || key / 2 ^ 11 % 2048 == i)

/-- Replaces a group's entries in one set by those of another. -/
def copyGroup (g : Group) (isl i : Nat) (src dst : NMap Nat) : NMap Nat :=
  (src.filter (fun p => g.holds isl i p.1)).foldl (fun m p => mins m p.1 p.2) (dst.filter (fun p => !g.holds isl i p.1))

/-! ### Consistency (R172, R194, R124, R287, R333, R347, R435) -/

/-- TILE_GROUP_FMT (R172): every mode is permitted on an enabled tile, and none on a tile the image disables. -/
def fmtConsistent (s : State) (r t : Nat) : Bool :=
  let m := getF s r F.TILE_FMT_MODE t
  let g := 32 * 2 ^ getF s r F.TILE_FMT_GSIZE t
  let w := getF s r F.TILE_FMT_WFMT t
  let a := getF s r F.TILE_FMT_AFMT t
  tileEnabled s r t && decide (w ≤ 8) && decide (a ≤ 8) && (decide (w < 3) || g == depthOf w) && ((w == 8) == (a == 8)) && (w != 8 || (g == 32 && m == 0))
    && (decide (a < 3) || (a == w && (w == 3 || w == 4)) || a == 8)

/-- One profile of ROT_GROUP_CFG (R183, R194, R196). -/
def profileConsistent (s : State) (r p : Nat) : Bool :=
  let op := getF s r F.ROT_PCFG_OP p
  let inF := getF s r F.ROT_PCFG_IN_FMT p
  let out := getF s r F.ROT_PCFG_OUT_FMT p
  let gs := getF s r F.ROT_PCFG_GSIZE p
  let rot := getF s r F.ROT_PCFG_ROT_EN p
  let rnd := getF s r F.ROT_PCFG_ROUND p
  let param := getF s r F.ROT_PPARAM_LO_ADDR p + getF s r F.ROT_PPARAM_HI_ADDR p
  let len := getF s r F.ROT_PDIM_LEN p
  let g := 32 * 2 ^ gs
  let whole := len % g == 0 && decide (len ≤ 32768)
  let sized := decide (out < 3) || g == depthOf out
  (rot == 0 || decide (getF s r F.ROT_PCFG_ROT_SIZE p ≤ gs)) &&
  match op with
  | 0 => (g == 32 && inF == 0 && out == 0 && rot == 0 && rnd == 0 && getF s r F.ROT_PCFG_ROT_SIZE p == 0 && param == 0 && len == 0)
      && [F.ROT_PSEED_SEED, F.ROT_PSIGN_0_SIGN, F.ROT_PSIGN_1_SIGN, F.ROT_PSIGN_2_SIGN, F.ROT_PSIGN_3_SIGN, F.ROT_PSIDE_LO_ADDR,
          F.ROT_PSIDE_HI_ADDR].all (fun f => getF s r f p == 0)
  | 1 => [0, 1, 8, 9].contains inF && decide (out ≤ 4) && sized && param == 0 && whole
  | 2 => [8, 9].contains inF && decide (out ≤ 7) && sized && param != 0 && whole
  | 3 => decide (10 ≤ inF) && out == 0 && gs == b2n (inF == 14) && rot == 0 && rnd == 0 && param != 0 && whole
  | 4 => [8, 9].contains inF && out == 0 && gs == 0 && rot == 0 && rnd == 0 && param != 0 && len % 64 == 0 && decide (64 ≤ len) && decide (len ≤ 4096)
  | 5 => [8, 9].contains inF && decide (out ≤ 1) && param == 0 && whole
  | _ => inF == 9 && out == 0 && gs == 2 && rot == 0 && param == 0 && whole

/-- User capacity in GiB: 210 for each die in use (R517). A channel is enabled by its bit of CHANNEL_MASK; where ISLAND_MASK
withholds its channel island the spec does not say, and the bit counts (DESIGN CHOICE, notes/assumptions 48). -/
def userGib (s : State) : Nat :=
  210 * ((List.range 128).map (fun c => if present s (chIsl c) && bit s.boot.info.channels c then 16 - popCount (bits s.boot.info.retiredDies (16 * c) 16) 16 else 0)).foldl (· + ·) 0

/-- A limit of a domain as a commit of another counts it: pending if a set is pending, else active (R124). -/
def limitNow (s : State) (f : Field) (d : Nat) : Nat := if getF s 57 F.HG_GROUP_QUOTA_EPOCH_PENDING d = 1 then getP s 57 f d else getA s 57 f d

/-- Sum of a limit over the domains, domain d at its staged value. -/
def limitSum (s : State) (f : Field) (d : Nat) : Nat :=
  ((List.range 64).map (fun k => if k = d then getF s 57 f d else limitNow s f k)).foldl (· + ·) 0

/-- HG_GROUP_QUOTA of domain d (R124). DESIGN CHOICE (notes/assumptions 18): a commit lowers HG_FLASH_LIM when it is below the
limit of the pending set, where the domain has one. -/
def quotaConsistent (s : State) (d : Nat) : Bool :=
  let lim := getF s 57 F.HG_FLASH_LIM_GIB d
  decide (limitSum s F.HG_STACK_LIM_GIB d * 512 ≤ (enabledStacks s).length * extPerStack s)
    && decide (limitSum s F.HG_SCRATCH_LIM_MIB d ≤ 24 * ((List.range 32).filter (enabled s)).length)
    && decide (limitSum s F.HG_FLASH_LIM_GIB d ≤ userGib s)
    && decide (getF s 57 F.HG_SAVE_LIM_GIB d ≤ getF s 57 F.HG_STACK_LIM_GIB d)
    && (decide (limitNow s F.HG_FLASH_LIM_GIB d ≤ lim) || !s.flash.blocks.any (fun p => p.1 / 2 ^ 59 == d + 1 && decide (lim * 2 ^ 18 ≤ p.1 % 2 ^ 59)))
    && (lim != 0 || !s.dqp.sqs.any (fun q => q.nsid == d + 1))
    && (!s.boot.info.risal || lim == (if d = 0 then s.boot.info.risalGib else 0))

/-- SCHED_GROUP_TURNOUT (R287). -/
def turnoutConsistent (s : State) : Bool :=
  (List.range (getF s 57 F.SCHED_TURN_CNT_COUNT)).all (fun n =>
    let m := getF s 57 F.SCHED_TURN_MASK_REACH_MASK n
    getF s 57 F.SCHED_TURN_DUR_DURATION n != 0 && ((getF s 57 F.SCHED_TURN_GROUP_GROUP n == 0xFFFF) == (m == 0))
      && (bitList m 32).all (enabled s))

/-- Floor credit of an island in quanta of 0.5 W (R431). -/
def floorCredit (i : Nat) : Nat :=
  match kindOf i with
  | .reach => 5 | .stack => 7 | .flash => 40 | .sieve => 4 | .media => 3 | .intake => 12 | .sched => 12 | .security => 6 | .weir => 4

/-- Floor credits of the enabled islands (R431). -/
def floorSum (s : State) : Nat := (((List.range 60).filter (enabled s)).map floorCredit).foldl (· + ·) 0

/-- A cap leaves room for the floors and the host die: CAP_W * 0.914 against quanta of 0.5 W (R435). -/
def capRoom (s : State) (cap host : Nat) : Bool := decide (1000 * (floorSum s + host) ≤ 1828 * cap)

/-- The staged set of a group is consistent. -/
def consistent (s : State) (g : Group) (isl i : Nat) : Bool :=
  if g.commit = R.TILE_GROUP_FMT_COMMIT.num then fmtConsistent s isl i
  else if g.commit = R.ROT_GROUP_CFG_COMMIT.num then [0, 1, 2, 3].all (profileConsistent s isl)
  else if g.commit = R.HG_GROUP_QUOTA_COMMIT.num then quotaConsistent s i
  else if g.commit = R.SCHED_GROUP_TURNOUT_COMMIT.num then turnoutConsistent s
  else if g.commit = R.SIEVE_GROUP_CFG_COMMIT.num then decide (getF s isl F.SIEVE_CTRL_UNITS ≤ popCount (unitMask s isl) 64)
  else if g.commit = R.MEDIA_GROUP_RESIZE_COMMIT.num then
    [0, 1, 2, 3].all (fun p =>
      let w := getF s isl F.MR_OUT_OUT_W p
      let h := getF s isl F.MR_OUT_OUT_H p
      decide (64 ≤ w) && decide (w ≤ 2048) && decide (64 ≤ h) && decide (h ≤ 2048) && getF s isl F.MR_MODE_OFMT p != 3)
  else if g.commit = R.WEIR_GROUP_CAP_COMMIT.num then capRoom s (getF s 59 F.WEIR_CAP_CAP_W) (getF s 59 F.WEIR_LIMITS_HOST_DIE_QUANTA)
  else true

/-! ### Commit and adoption (R52-R54) -/

/-- GO = 1 on a group (R52): the new state and the status. -/
def commitGroup (s : State) (g : Group) (isl i : Nat) : State × Nat :=
  if consistent s g isl i then
    let s := { s with pend := copyGroup g isl i s.regs s.pend }
    let s := setF (setF s isl g.committed ((getF s isl g.committed i + 1) % 256) i) isl g.pending 1 i
    (if g.commit = R.SCHED_GROUP_TURNOUT_COMMIT.num then renewLeads s else s, 0)
  else (s, 0x1003)

/-- The pending set becomes the active set (R53). -/
def adoptSet (s : State) (g : Group) (isl i : Nat) : State :=
  let s := { s with act := copyGroup g isl i s.pend s.act }
  setF (setF s isl g.adopted (getF s isl g.committed i) i) isl g.pending 0 i

/-- A sluice that no longer regulates passes every request that waits at it (R260). -/
def openSluice (s : State) (isl p : Nat) : State :=
  let x := getSluice s isl p
  x.waiting.foldl (fun s w => if w.1 = 0 then portBytes s isl p w.2.2 else wakeAtSluice s w.1)
    (putSluice s isl p { x with waiting := [], passed := [] })

/-- Adoption of a sluice's set at the end of its island's window: the level is kept within the new burst, and starts full
when EN rises (R262). -/
def adoptSluice (s : State) (g : Group) (isl p : Nat) : State :=
  let s := settleSluice (passTo s isl ((cyc s isl / 1024 + 1) * 1024)) isl p
  let was := sluiceOn s isl p
  let s := adoptSet s g isl p
  let x := getSluice s isl p
  let cap := sluiceCap s isl p
  let s := putSluice s isl p { x with level := if sluiceOn s isl p && !was then cap else min x.level cap }
  if sluiceOn s isl p then s else openSluice s isl p

/-- A pass boundary of a tile: no started pass is in flight, its escalation passes included (R149). -/
def passBoundary (s : State) (r t : Nat) : Bool := (getTile s r t).flight.isEmpty

/-- The rotation path of a reach is between blocks: no stream on a profile holds part of a rotation block, or of a group, vector
or moment block where no rotation applies (R195). -/
def rotBoundary (s : State) (r : Nat) : Bool :=
  s.flume.progs.all (fun x => x.1 / 16 != r || x.2.all (fun g => g.streams.all (fun y =>
    let p := profOf s r (y.prof - 1)
    y.carry.isEmpty || (p.elemsIn y.carry.length % max 1 p.boundary == 0 && y.carry.length * p.unitElems % max 1 p.unitBytes == 0))))

/-- Adoption on the rotation path of a reach: what a stream has taken of the unit under way stays under the old sets, and so do the
outputs it holds (R195). -/
def adoptRot (s : State) (g : Group) (r i : Nat) : State :=
  let keep (y : PStream) : PStream :=
    if y.carry.isEmpty then y else let p := profOf s r (y.prof - 1); { y with olds := y.olds ++ [(p.elemsIn y.carry.length, p)] }
  adoptSet { s with flume := { s.flume with progs := s.flume.progs.map (fun x =>
    if x.1 / 16 = r then (x.1, x.2.map (fun p => { p with streams := p.streams.map keep })) else x) } } g r i

/-- A stripe boundary of a channel island: a row has been sealed and no program begun since, or no row program is in progress
(R410). -/
def stripeBoundary (s : State) (isl : Nat) : Bool :=
  bit s.flash.rowSealed ((flashIndex isl).getD 4) || (islandDies s isl).all (fun p => !((p.2.run.toList ++ p.2.susp.toList).any DieOp.isProg))

/-- A renegotiation of island 59 is due in this cycle (R433, R434). -/
def weirBoundary (s : State) : Bool := cyc s 59 % 30000 == 0

/-- Adoption at a tile; a change of MODE discards the stationary activations (R149). -/
def adoptFmt (s : State) (g : Group) (r t : Nat) : State :=
  let was := getA s r F.TILE_FMT_MODE t
  let s := adoptSet s g r t
  if getA s r F.TILE_FMT_MODE t = was then s else updTile s r t fun x => { x with keep := none }

/-- A sweep boundary of a sieve island: no sweep reads its pools (R333). -/
def sweepBoundary (s : State) (isl : Nat) : Bool :=
  s.search.sweeps.all (fun w => w.order.isEmpty && !w.active.any (fun a => a.2.1 == isl))

/-- The unit of a group is at the safe point R56 names for it. The headgate takes each allocation decision, and a decoder each
frame, within one command, so between commands neither is under way. -/
def atSafePoint (s : State) (g : Group) (isl i : Nat) : Bool :=
  if g.commit = R.TILE_GROUP_FMT_COMMIT.num then passBoundary s isl i
  else if g.commit = R.ROT_GROUP_CFG_COMMIT.num then rotBoundary s isl
  else if g.commit = R.FTL_GROUP_PATROL_COMMIT.num then stripeBoundary s isl
  else if g.commit = R.SIEVE_GROUP_CFG_COMMIT.num then sweepBoundary s isl
  else if g.commit = R.WEIR_GROUP_CAP_COMMIT.num then weirBoundary s
  else if g.commit = R.SCHED_GROUP_TURNOUT_COMMIT.num then getA s 57 F.SCHED_TURN_CNT_COUNT == 0
  else true

/-- A unit with a pending set reaches its safe point (R53, R56). The turnout table changes at a turn boundary, at once while
the active table is empty (R287). -/
def adoptGroup (s : State) (g : Group) (isl i : Nat) : State :=
  if getF s isl g.pending i = 0 ∨ clockRuns s isl = false ∨ atSafePoint s g isl i = false then s
  else if g.commit = R.TILE_GROUP_FMT_COMMIT.num then adoptFmt s g isl i
  else if g.commit = R.ROT_GROUP_CFG_COMMIT.num then adoptRot s g isl i
  else if g.commit = R.SLUICE_GROUP_RATE_COMMIT.num then adoptSluice s g isl i
  else if g.commit = R.SCHED_GROUP_TURNOUT_COMMIT.num then adoptTurnout s (cyc s 57)
  else adoptSet s g isl i

end Sys2Proof.Machine
end

