-- ==== Sys2Proof/Machine/KImage.lean ====
section
/-!
DEFINITION. Machine/KImage.lean: the Krahial image (R27-R42): its layout, what applying it to the islands leaves
(R40, R58, R516), and check() (R44, R459).
-/
namespace Sys2Proof.Machine

/-- The 64-byte digest of every use in the spec (R29, R457). -/
def digest64 (m : List Byte) : List Byte := shake256 m 64

/-! ### Layout (R27-R30) -/

def imgVersion (d : List Byte) : Nat := le d 0x08 4
def imgFloor (d : List Byte) : Nat := le d 0x0C 4
def imgTarget (d : List Byte) : Nat := le d 0x10 4
def imgLength (d : List Byte) : Nat := le d 0x14 4
def imgBinding (d : List Byte) : List Byte := slice d 0x20 64

/-- MAGIC and LENGTH are right (R27, R44). -/
def imgHeadOk (d : List Byte) : Bool :=
  le d 0 4 == 0x4C48524B && decide (6253 ≤ imgLength d) && decide (imgLength d ≤ 3145728) && d.length == imgLength d

/-- What the signature covers: bytes 0 to LENGTH - 5,262; the signer's public key; the signature (R29). -/
def imgBody (d : List Byte) : List Byte := d.take (d.length - 5261)
def imgKey (d : List Byte) : List Byte := slice d (d.length - 5261) 1952
def imgSignature (d : List Byte) : List Byte := slice d (d.length - 3309) 3309

/-- The directory: type, offset and size of each section (R28). -/
def imgDir (d : List Byte) : List (Nat × Nat × Nat) :=
  (List.range (le d 0x18 2)).map (fun k => (le d (128 + 16 * k) 2, le d (132 + 16 * k) 4, le d (136 + 16 * k) 4))

/-- A section's bytes. -/
def imgSec (d : List Byte) (t : Nat) : Option (List Byte) := ((imgDir d).find? (fun e => e.1 == t)).map (fun e => slice d e.2.1 e.2.2)

/-- The header's rules (R27). -/
def imgHeaderOk (d : List Byte) : Bool :=
  le d 0x04 2 == 1 && le d 0x06 2 == 128 && imgVersion d != 0 && decide (imgFloor d ≤ imgVersion d)
    && imgTarget d != 0 && decide (imgTarget d < 16) && decide (3 ≤ le d 0x18 2) && decide (le d 0x18 2 ≤ 10) && le d 0x1A 2 == 0
    && le d 0x1C 4 == 128 && allZero (slice d 0x60 32)

/-- The directory's rules (R28, R30). -/
def imgDirOk (d : List Byte) : Bool :=
  let es := imgDir d
  let first := 128 + 16 * es.length
  (List.range es.length).all (fun k => le d (130 + 16 * k) 2 == 0 && le d (140 + 16 * k) 4 == 0)
    && es.all (fun e => decide (1 ≤ e.1) && decide (e.1 ≤ 9) && e.2.1 % 8 == 0 && decide (first ≤ e.2.1) && decide (e.2.1 + e.2.2 ≤ d.length - 5261))
    && (es.map (·.1)).eraseDups.length == es.length
    && (List.range es.length).all (fun i => (List.range es.length).all (fun j =>
        i == j || (match es[i]?, es[j]? with
          | some a, some b => decide (a.2.1 + a.2.2 ≤ b.2.1) || decide (b.2.1 + b.2.2 ≤ a.2.1)
          | _, _ => true)))
    && [1, 7, 8].all (fun t => es.any (fun e => e.1 == t))

/-- A section of COUNT records of `size` bytes after a 4-byte COUNT of `lo` to `hi` (R34, R36, R37, R40). -/
def countOk (b : List Byte) (size lo hi : Nat) : Bool :=
  decide (4 ≤ b.length) && decide (lo ≤ le b 0 4) && decide (le b 0 4 ≤ hi) && b.length == 4 + size * le b 0 4

/-- Its records. -/
def secRecords (b : List Byte) (size : Nat) : List (List Byte) := (List.range (le b 0 4)).map (fun k => slice b (4 + size * k) size)

/-! ### What the image says (R31-R39, R58) -/

/-- UNIT_ENABLE, STACK_REPAIR, CHANNEL_MAP and MODE as the machine keeps them. -/
def imgInfoOf (d : List Byte) (anchor : Nat) : ImgInfo :=
  let u := (imgSec d 1).getD []
  let m := (imgSec d 7).getD []
  let rows := match imgSec d 3 with | some b => secRecords b 8 | none => []
  { islands := le u 0 8
    tiles := (List.range 32).map (fun r => le u (8 + 8 * r) 8)
    channels := le u 264 16
    sieves := le u 280 16
    decoders := le u 296 4
    stackRows := rows.map (fun r => (le r 0 1, le r 1 1, le r 2 1, le r 4 4))
    retiredDies := match imgSec d 4 with | some b => le b 0 256 | none => 0
    risal := le m 0 4 == 1
    risalGib := le m 4 4
    anchor := anchor
    signerDigest := digest64 (imgKey d)
    digest := digest64 (imgBody d)
    version := imgVersion d }

/-- UNIT_ENABLE (R31, R32). -/
def enableOk (s : State) (d : List Byte) : Bool :=
  let u := (imgSec d 1).getD []
  let i := imgInfoOf d 0
  let absent (n : Nat) : Bool := !present s n
  u.length == 800 && allZero (u.drop 300) && decide (i.islands < 2 ^ 60) && i.tiles.all (fun t => decide (t < 2 ^ 48))
    && i.decoders == bits i.decoders 0 13 + bits i.decoders 16 13 * 2 ^ 16
    && (List.range 60).all (fun n => !(absent n && bit i.islands n))
    && (List.range 32).all (fun r => !(absent r && i.tiles.getD r 0 != 0))
    && (List.range 128).all (fun c => !(absent (chIsl c) && bit i.channels c))
    && !(absent 51 && bits i.decoders 0 13 != 0) && !(absent 55 && bits i.decoders 16 13 != 0)
    && [48, 52, 56, 57, 58, 59].all (bit i.islands) && bit i.channels 0 && bit i.channels 64
    && bits i.islands 0 32 != 0
    && (List.range 32).all (fun r => !bit i.islands r || bits i.islands (32 + 4 * (r / 8)) 4 != 0)

/-- TILE_REPAIR, STACK_REPAIR and CHANNEL_MAP (R33-R35, R107). -/
def repairOk (s : State) (d : List Byte) : Bool :=
  (match imgSec d 2 with
    | some b => b.length == 3072 && (List.range 1536).all (fun k =>
        decide (le b (2 * k) 2 < 4096) && (le b (2 * k) 2 == 0 || present s (k / 48)))
    | none => true)
  && (match imgSec d 3 with
    | some b => countOk b 8 0 4096 && (secRecords b 8).all (fun r =>
        decide (le r 0 1 ≤ 15) && decide (le r 1 1 ≤ 31) && decide (le r 2 1 ≤ 63) && le r 3 1 == 0 && decide (le r 4 4 ≤ 65535)
          && present s (32 + le r 0 1)
          && decide (((secRecords b 8).filter (fun x => slice x 0 3 == slice r 0 3)).length ≤ 16))
    | none => true)
  && (match imgSec d 4 with
    | some b => b.length == 256 && [0, 8, 1024, 1032].all (fun k => !bit (le b 0 256) k)
        && (List.range 128).all (fun c => present s (chIsl c) || bits (le b 0 256) (16 * c) 16 == 0)
    | none => true)

/-- Quota domains an image sets: domain, stack GiB, scratch MiB, flash GiB, save GiB (R36). -/
def imgQuotas (h : State) (d : List Byte) : List (Nat × Nat × Nat × Nat × Nat) :=
  match imgSec d 5 with
  | some b => (secRecords b 32).map (fun r => (le r 0 1, le r 4 4, le r 8 4, le r 12 4, le r 16 4))
  | none =>
    let st := (enabledStacks h).length * extPerStack h / 512
    [(0, st, 24 * ((List.range 32).filter (enabled h)).length, if h.boot.info.risal then h.boot.info.risalGib else userGib h, st)]

/-- PARTITION (R36), against a state that holds the image's units. -/
def partitionOk (h : State) (d : List Byte) : Bool :=
  match imgSec d 5 with
  | none => true
  | some b =>
    let q := imgQuotas h d
    let sum (f : Nat × Nat × Nat × Nat × Nat → Nat) : Nat := (q.map f).foldl (· + ·) 0
    countOk b 32 1 64
      && (secRecords b 32).all (fun r => decide (le r 0 1 < 64) && allZero (slice r 1 3) && allZero (slice r 20 12))
      && (q.map (·.1)).eraseDups.length == q.length
      && decide (sum (·.2.1) ≤ 72 * ((enabledStacks h).length - 1))
      && decide (sum (·.2.2.1) ≤ 24 * ((List.range 32).filter (enabled h)).length)
      && decide (sum (·.2.2.2.1) ≤ userGib h)
      && q.all (fun x => decide (x.2.2.2.2 ≤ x.2.1))
      && (!h.boot.info.risal || (q.all (fun x => x.2.2.2.1 == (if x.1 = 0 then h.boot.info.risalGib else 0))
            && q.any (fun x => x.1 == 0)))

/-- TURNOUT (R37). -/
def imgTurnsOk (h : State) (d : List Byte) : Bool :=
  match imgSec d 6 with
  | none => true
  | some b => countOk b 16 0 256 && (secRecords b 16).all (fun r =>
      decide (1500 ≤ le r 0 4) && decide (le r 0 4 ≤ 150000000) && (bitList (le r 4 4) 32).all (enabled h)
        && ((decide (le r 8 2 ≤ 1023) && le r 4 4 != 0) || (le r 8 2 == 0xFFFF && le r 4 4 == 0)) && allZero (slice r 10 6))

/-- MODE and POWER (R38, R39, R435). -/
def modeOk (h : State) (d : List Byte) : Bool :=
  let m := (imgSec d 7).getD []
  let p := (imgSec d 8).getD []
  let gib := le m 4 4
  m.length == 8 && decide (le m 0 4 ≤ 1)
    && (if le m 0 4 = 0 then gib == 0 else decide (1 ≤ gib) && decide (gib ≤ 32768) && decide (gib ≤ userGib h))
    && p.length == 8 && decide (le p 0 2 ≤ 500) && decide (500 ≤ le p 2 2) && decide (le p 2 2 ≤ ratedW h.variant)
    && decide (100 ≤ le p 4 2) && decide (le p 4 2 ≤ 750) && le p 6 2 == 0
    && capRoom h (le p 2 2) (le p 0 2)

/-! ### REG_INIT (R40) -/

/-- Its entries: island, offset, value. -/
def imgEntries (d : List Byte) : List (Nat × Nat × Nat) :=
  match imgSec d 9 with
  | some b => (secRecords b 8).map (fun r => (le r 0 2, le r 2 2, le r 4 4))
  | none => []

/-- Fields an entry does not store: CNT_CTRL.CLEAR always reads 0 (R486), and DQP_CTRL.EN is set by starting DQP. -/
def orderFields : List Field := [F.CNT_CTRL_CLEAR, F.DQP_CTRL_EN]

/-- One entry applied: staged and active values of ST fields, the value of RW fields. -/
def initReg (s : State) (e : Nat × Nat × Nat) : State :=
  match findReg e.1 e.2.1 with
  | none => s
  | some (r, i, j) =>
    r.fields.foldl (fun s f =>
      let v := bits e.2.2 f.lo f.w
      if f.acc = .st then setST s e.1 f v i j
      else if f.acc = .rw ∧ !orderFields.contains f then setF s e.1 f v i j
      else s) s

/-- An entry names a register of type ST or RW of an enabled island, with a value a write would take (R40): CNT_SMP_TAIL, with
HEAD at its reset value, takes only values that R479 does. -/
def entryOkFor (h : State) (e : Nat × Nat × Nat) : Bool :=
  enabled h e.1 && (match findReg e.1 e.2.1 with
    | none => false
    | some (r, _, _) =>
      r.fields.any (fun f => f.acc == .st || f.acc == .rw) && r.fields.all (fun f => f.acc == .st || f.acc == .rw || f.acc == .ro)
        && legalWord h e.1 r e.2.2
        && (r.num != R.CNT_SMP_TAIL.num || decide ((65536 - e.2.2 % 65536) % 65536 ≤ 64)))

/-- The commit group an entry's register belongs to, as a whole, is consistent (R40). -/
def entryGroupOk (h : State) (e : Nat × Nat × Nat) : Bool :=
  match findReg e.1 e.2.1 with
  | none => false
  | some (r, i, _) => groupTable.all (fun g => !g.regs.contains r.num || consistent h g e.1 (if g.each then i else 0))

/-! ### Applying an image to the islands (R445 step 4, R516) -/

/-- The unit registers of a reach, a channel island, a sieve or a media island. -/
def imgUnits (d : List Byte) (s : State) (n : Nat) : State :=
  if !enabled s n then s
  else
    match kindOf n with
    | .reach =>
      let rep := (imgSec d 2).getD []
      (List.range 48).foldl (fun s t =>
        let q := if tileEnabled s n t then 0 else 2
        let e := le rep (96 * n + 2 * t) 2
        let s := [F.TILE_QSTATE_Q0, F.TILE_QSTATE_Q1, F.TILE_QSTATE_Q2, F.TILE_QSTATE_Q3].foldl (fun s f => setF s n f q t) s
        setF (setF (setF s n F.TILE_REPAIR_MAP e t) n F.TILE_STATUS_SLIP (bits e 5 1) t) n F.TILE_STATUS_SPARE_COL (bits e 11 1) t) s
    | .flash =>
      let k := (flashIndex n).getD 0
      (List.range 32).foldl (fun s j =>
        let c := 32 * k + j
        let was := mget 0 s.boot.chans c
        let s := setF s n F.FCH_CSTATE_STATE (if !bit s.boot.info.channels c ∨ was % 8 = 3 then 2 else was % 8) j
        let s := setF s n F.FCH_CSTATE_CAUSE (was / 8) j
        setF s n F.FCH_CSTATE_DIES_OUT (bits s.boot.info.retiredDies (16 * c) 16) j) s
    | .sieve =>
      let m := unitMask s n
      setST ((List.range 64).foldl (fun s u => setF s n F.SIEVE_USTATE_STATE (if bit m u then 0 else 2) u) s) n F.SIEVE_CTRL_UNITS (popCount m 64)
    | .media =>
      let m := unitMask s n
      (List.range 13).foldl (fun s u => setF s n F.MEDIA_USTATE_STATE (if bit m u then 0 else 2) u) s
    | _ => s

/-- Floor credit granted to an enabled island (R445). -/
def grantFloor (s : State) (n : Nat) : State :=
  if enabled s n then setF (setF s 59 F.WEIR_GRANT_GRANT (floorCredit n) n) 59 F.WEIR_GRANT_AT_FLOOR 1 n else s

/-- Quotas, turns and power of an image. -/
def imgShares (d : List Byte) (s : State) : State :=
  let s := (imgQuotas s d).foldl (fun s q =>
    setST (setST (setST (setST s 57 F.HG_STACK_LIM_GIB q.2.1 q.1) 57 F.HG_SCRATCH_LIM_MIB q.2.2.1 q.1) 57 F.HG_FLASH_LIM_GIB q.2.2.2.1 q.1)
      57 F.HG_SAVE_LIM_GIB q.2.2.2.2 q.1) s
  let turns := match imgSec d 6 with | some b => secRecords b 16 | none => []
  let s := setST s 57 F.SCHED_TURN_CNT_COUNT turns.length
  let s := (List.range turns.length).foldl (fun s n =>
    let r := turns.getD n []
    setST (setST (setST s 57 F.SCHED_TURN_DUR_DURATION (le r 0 4) n) 57 F.SCHED_TURN_MASK_REACH_MASK (le r 4 4) n)
      57 F.SCHED_TURN_GROUP_GROUP (le r 8 2) n) s
  let p := (imgSec d 8).getD []
  setST (setF (setF s 59 F.WEIR_LIMITS_INPUT_LIMIT_DA (le p 4 2)) 59 F.WEIR_LIMITS_HOST_DIE_QUANTA (le p 0 2)) 59 F.WEIR_CAP_CAP_W (le p 2 2)

/-- The image's words in registers of island 58 (R50). -/
def putDigest (s : State) (f : Field) (b : List Byte) : State := (List.range 16).foldl (fun s k => setF s 58 f (wordAt b k) k) s

/-- Structure, limits and registers of an image, on islands whose registers are at reset. -/
def applyImage (s : State) (d : List Byte) (anchor : Nat) : State :=
  let s := { s with boot := { s.boot with info := imgInfoOf d anchor, applied := true } }
  let s := (List.range 60).foldl (imgUnits d) s
  let s := (List.range 60).foldl grantFloor s
  let s := imgShares d s
  let s := putDigest (setF s 58 F.IMG_VERSION_VERSION (imgVersion d)) F.IMG_DIGEST_DIGEST s.boot.info.digest
  let s := (imgEntries d).foldl initReg s
  -- turn 0 begins in the cycle its table is adopted (R283)
  let s := if getA s 57 F.SCHED_TURN_CNT_COUNT = 0 then s else beginTurn s 0 (cyc s 57) 0
  if (imgEntries d).foldl (fun b e => if e.1 = 56 ∧ ((findReg e.1 e.2.1).map (fun r => r.1.num)) = some R.DQP_CTRL.num then bit e.2.2 0 else b) false
  then dqpStart s else s

/-! ### check() (R41, R42, R44, R459) -/

/-- The commit groups that sections other than REG_INIT load are consistent (R41): quotas, turns, sieve units, module cap. A
group that nothing loads holds reset values, which are consistent. -/
def loadedGroupsOk (h : State) (d : List Byte) : Bool :=
  (imgQuotas h d).all (fun q => quotaConsistent h q.1) && turnoutConsistent h
    && [50, 54].all (fun n => !enabled h n || decide (getF h n F.SIEVE_CTRL_UNITS ≤ popCount (unitMask h n) 64))
    && capRoom h (getF h 59 F.WEIR_CAP_CAP_W) (getF h 59 F.WEIR_LIMITS_HOST_DIE_QUANTA)

/-- The full check (R41): on a machine of the same variant that holds nothing, the image would leave every unit and every
commit group consistent. -/
def imgFullOk (s : State) (d : List Byte) : Bool :=
  imgHeaderOk d && imgDirOk d && enableOk s d && repairOk s d &&
  (let h := applyImage { State.reset with variant := s.variant } d 0
   modeOk h d && partitionOk h d && imgTurnsOk h d
    && (match imgSec d 9 with | some b => countOk b 8 0 16384 | none => true)
    && (imgEntries d).all (entryOkFor h) && (imgEntries d).all (entryGroupOk h) && loadedGroupsOk h d)

/-- The first anchor slot, programmed and not revoked, that holds the digest of the signer's key (R458, R459). -/
def imgAnchor (s : State) (d : List Byte) : Option Nat :=
  (List.range 4).find? (fun k => match s.ident.anchors[k]? with
    | some (a, revoked) => !a.isEmpty && !revoked && a == digest64 (imgKey d)
    | none => false)

/-- Code of the module's variant in TARGET (R27, R42). -/
def variantBit : Variant → Nat
  | .dm9140 => 0 | .dm9120 => 1 | .dm9140N => 2 | .dm9110 => 3

/-- TARGET and DEVICE_BINDING admit this module (R42, R460). -/
def imgForMe (s : State) (d : List Byte) : Bool :=
  bit (imgTarget d) (variantBit s.variant)
    && (allZero (imgBinding d) || (getF s 58 F.ID_STATUS_STATE == 1 && imgBinding d == s.ident.pubDigest))

/-- check() of R44, once the bytes are in hand: against a counter. -/
def checkImage (s : State) (counter : Nat) (d : List Byte) : Nat :=
  if !imgHeadOk d then 0x7004
  else if (imgAnchor s d).isNone || !Config.mldsaVerify (imgKey d) [] (imgBody d) (imgSignature d) then 0x7001
  else if imgVersion d < counter then 0x7002
  else if !imgFullOk s d then 0x7004
  else if !imgForMe s d then 0x7005
  else 0

end Sys2Proof.Machine
end

