-- ==== Sys2Proof/Machine/Stop.lean ====
section
/-!
DEFINITION. Machine/Stop.lean: how the module stops and what is left of it (R441-R447, R464): the start of a halt, the flush
of the buffers, HALTED, power off, and the state in which start-up step 1 or step 4 begins.
-/
namespace Sys2Proof.Machine

def mstate (s : State) : Nat := getF s 59 F.WEIR_STATUS_MSTATE
def setMstate (s : State) (v : Nat) : State := setF s 59 F.WEIR_STATUS_MSTATE v

/-! ### The buffers on media (R368, R385, R386, R442 step 4, R447) -/

/-- A die whose operations have ended without touching media again; its journal stays. -/
def Die.stopped (d : Die) : Die :=
  { d with st := .idle, run := none, susp := none, reads := [], others := [], suspensions := 0, readsIn := 0, progIn := false
           wantErase := [], intents := [], dones := [] }

/-- A stripe that takes nothing more: it ends at its last complete row. -/
def Stripe.ended (x : Stripe) : Stripe :=
  if x.sealed then x
  else { x with
    sealed := true, rowsOut := x.rowsDone, next := min x.next (x.rowsDone * x.rowKib), progDone := [], lows := []
    packed := x.packed.filter (fun p => decide (p.off + ceilDiv p.bytes.length 1024 ≤ x.rowsDone * x.rowKib)) }

/-- The journaled state and cause of every channel (R372). -/
def chansNow (s : State) : NMap Nat :=
  (List.range 128).foldl (fun m c =>
    if chEnabled s c then mset 0 m c (8 * getF s (chIsl c) F.FCH_CSTATE_CAUSE (c % 32) + chState s c) else m) s.boot.chans

/-- Every die operation is aborted with RESET (R368, R447). -/
def stopDies (s : State) : State := updFlash s fun f => { f with dies := f.dies.map (fun d => (d.1, d.2.stopped)) }

/-- The staging stripe a flush writes in a group, opened where none of its own has room for `kib` (R386; DESIGN CHOICE,
notes/assumptions 43: erased pSLC plane sets stand ready for it). -/
def flushStripe (s : State) (g kib : Nat) : Option (State × Nat) :=
  match s.flash.stripes.find? (fun x => x.group == g && x.kind == .staging && !x.sealed && decide (x.next + kib ≤ x.space)) with
  | some x => some (s, x.id)
  | none => (openWith s g .staging setGood).map (fun r => (updFlash r.1 fun f => { f with flushed := f.flushed ++ [r.2] }, r.2))

/-- The unit of an occupied slot goes into a staging row, merged where blocks are missing (R383, R386, R447); a unit that no stripe
takes is lost. -/
def flushSlot (s : State) (key : Nat) : State :=
  let s := fillSlot s key
  match mfind s.flash.slots key with
  | none => s
  | some x =>
    if slotCurrent s (key / 2 ^ 20) (key % 2 ^ 20) x = false then s
    else
      let b := (packUnit s x.lua x.data.flatten).1
      match flushStripe s (homeGroup s x.lua) (ceilDiv b.length 1024) with
      | some (s, id) => (appendBlock s id x.lua b x.lostMask false).1
      | none => loseUnit s x.lua

/-- The rows a flush wrote are on media, the last padded with zeros. -/
def Stripe.written (x : Stripe) : Stripe :=
  let n := ceilDiv x.next (max x.rowKib 1)
  { x with sealed := true, next := n * x.rowKib, rowsOut := n, rowsDone := n, progDone := [], lows := [] }

/-- A command whose blocks still waited outside the buffer has not happened: its collection is as it was, or not there (R14, R78). -/
def undoLate (s : State) (l : Late) : State :=
  match l.was, findColl s l.coll with
  | some c, _ => sizePools (updColl s l.coll (fun _ => c)) c c.pools.length
  | none, some c => updSearch s fun x => { x with
      colls := x.colls.filter (fun y => y.no != l.coll)
      objs := x.objs.filter (fun o => !(o.nsid == c.nsid && (o.id == c.obj || (c.fullEn && o.id == c.fullId)))) }
  | none, none => s

/-- Write buffers and journal buffers flushed into staging rows; die operations, collections and replacements ended. The journal
buffer's records come back with the start-up (R405). -/
def flushBuffers (s : State) : State :=
  let s := if s.boot.applied then { s with boot := { s.boot with chans := chansNow s } } else s
  let s := s.flash.late.reverse.foldl undoLate s
  let s := (s.flash.stripes.filter (fun x => !x.sealed)).foldl (fun s x => journalRec s (x.group / 2) (.stripeSeal x.id)) s
  let was := s.flash.flushed
  let s := (s.flash.slots.map (·.1)).foldl flushSlot (updFlash s fun f => { f with stripes := f.stripes.map Stripe.ended })
  let wrote (f : Flash) (x : Stripe) : Bool := f.flushed.contains x.id && !was.contains x.id
  stopDies (updFlash s fun f => { f with
    stripes := f.stripes.map (fun x => if wrote f x then x.written else x)
    health := updAt f.health 5 (fun v => min (v + ((f.stripes.filter (wrote f)).map (fun x => x.written.rowsDone * x.cell * x.members.length)).sum) (2 ^ 64 - 1))
    slots := [], waits := [], late := [], rewrites := []
    gcs := [], repls := [], victims := [], discards := [], collecting := 0, recentUnc := [], testDue := [], chTest := []
    tempReads := [0, 0, 0, 0] })

/-- Step 7 of start-up maps the units of the last flush's staging pages to them and loads them into slots, to be placed as R385 has it
(R369, R406). -/
def loadFlushed (s : State) : State :=
  let unit (id : Nat) (s : State) (p : Packed) : State :=
    let k := homeGroup s p.lua / 2
    let s := setMap s p.lua (some (.stripe id p.off))
    match freeSlot s k with
    | none => s
    | some n =>
      let blk (i : Nat) : List Byte := (mfind s.flash.blocks (8 * p.lua + i)).getD zeroBlock
      updFlash s fun f => { f with
        slots := mins f.slots (slotKey k n) { emptySlot p.lua none with mask := 255, data := (List.range 8).map blk, lostMask := p.lostMask, staged := some (id, p.off) } }
  let s := s.flash.flushed.foldl (fun s id => match findStripe s id with | some x => x.packed.foldl (unit id) s | none => s) s
  updFlash s fun f => { f with flushed := [] }

/-! ### What start-up begins with (R441, R474, R516, R521) -/

/-- Objects and collections, which lie on flash; queries, sweeps and repairs are gone (R521). -/
def Search.kept (x : Search) : Search := { x with queries := [], sweeps := [], deletes := [], repairs := [] }

/-- EXTEST ends when the module leaves HALTED (R511). -/
def Jtag.released (j : Jtag) : Jtag := { j with driven := j.driven.map (fun _ => []) }

/-- Start-up step 1: every island is reset; flash, fuses and parameter blocks keep what they hold. A floor that still awaits a
counter copy is not carried over a reset: step 3 reads the copies anew and raises them to the floor of the image it chooses
(R46; the spec does not say whether the retained floor outlives a reset: DESIGN CHOICE, notes/assumptions 48). -/
def coldStart (s : State) : State :=
  let r := State.reset
  { r with
    variant := s.variant, flash := s.flash, search := s.search.kept
    boot := { copies := s.boot.copies, counters := s.boot.counters, chans := s.boot.chans, slotId := s.boot.slotId, i3c := s.boot.i3c
              resetPin := s.boot.resetPin, vdd33 := s.boot.vdd33 }
    ident := { anchors := s.ident.anchors, enrolled := s.ident.enrolled, fuseCopy := s.ident.fuseCopy, flashCopies := s.ident.flashCopies }
    jtag := s.jtag.released, out := s.out, freeCount := s.freeCount, pending := s.pending
    mgmt := { ibis := s.mgmt.ibis } }

/-- Registers of island 58 that keep their values until the next start-up: image and identity (R50, R473). -/
def keptSecurity (r : Nat) : Bool :=
  [R.IMG_STATUS.num, R.IMG_REJECT.num, R.IMG_COUNTER.num, R.ID_STATUS.num, R.ID_ANCHORS.num, R.ID_SIGNER_DIGEST.num, R.ID_PUB_DIGEST.num].contains r

/-- A key of the register store that outlives HALTED: island 59's, and those of island 58 above (R441). -/
def keptKey (k : Nat) : Bool :=
  (k / 2 ^ 31 == 59 && k / 2 ^ 22 % 512 != R.WEIR_GRANT.num) || (k / 2 ^ 31 == 58 && keptSecurity (k / 2 ^ 22 % 512))

/-- HALTED (R441, R464): island 59 and the bridge alone are powered, the link is in L2, key storage is clear. -/
def haltedState (s : State) : State :=
  let keep (m : NMap Nat) : NMap Nat := m.filter (fun p => keptKey p.1)
  let s := { s with
    regs := keep s.regs, act := keep s.act, pend := keep s.pend
    link := {}, dqp := {}, mem := {}, tiles := [], runnels := {}, flume := {}, sched := {}, media := {}, prot := {}, search := s.search.kept
    weir := { s.weir with peaks := (List.range 60).map peakCredit }
    boot := { s.boot with applied := false, ready := false, haltWait := false, haltReset := false }
    ident := { s.ident with sk := [], quotes := [], mqData := [], source := [] }
    counters := { s.counters with
      cycles := s.counters.cycles.filter (fun p => p.1 == 59), values := s.counters.values.filter (fun p => p.1 / 8 == 59)
      bytes := [], lastBytes := [], lvlChanged := 0, win := s.counters.win.filter (fun p => p.1 == 59), marks := s.counters.marks.filter (fun p => p.1 == 59), captures := [], latches := s.counters.latches.filter (fun p => p.1 / 2 ^ 13 % 64 == 59) } }
  noteAlert (setF (setMstate s 3) 58 F.ID_STATUS_STATE 0)

/-- A field that only the device writes. -/
def isRoKey (k : Nat) : Bool :=
  allRegs.any (fun r => r.num == k / 2 ^ 22 % 512 && r.fields.any (fun f => f.lo == k % 32 && f.acc == .ro))

/-- Registers of island 59 that show what an image or a renegotiation under it set: they start over with step 4 (R516). -/
def ofImage (r : Nat) : Bool := [R.WEIR_GROUP_CAP_EPOCH.num, R.WEIR_LIMITS.num, R.WEIR_BUDGET.num, R.WEIR_THERM.num].contains r

/-- Registers of the counters and samples, which a start-up sets to 0 (R476, R479). -/
def ofCounters (r : Nat) : Bool := [R.CNT_HI.num, R.CNT_SMP_HEAD.num, R.CNT_SMP_LOST.num, R.CNT_SMP_DATA.num].contains r

/-- Restart from HALTED at step 4 (R441): island 59's fields that a write or the image sets are at reset, counters and
epochs are 0 (R55, R476, R516). -/
def warmStart (s : State) : State :=
  let s := { s with
    regs := s.regs.filter (fun p => isRoKey p.1 && !ofImage (p.1 / 2 ^ 22 % 512) && !ofCounters (p.1 / 2 ^ 22 % 512)), act := [], pend := [], jtag := s.jtag.released
    boot := { s.boot with feedTrips := 0, rails := [], stepAt := cyc s 59, imgWrites := 0 }
    ident := { s.ident with quoteSeq := 0 }
    counters := { s.counters with values := [], captures := [], irqSent := 0, win := [], latches := [] } }
  let s := (List.range 8).foldl (fun s k => setF s 59 F.WEIR_STEP_TIME_CYCLES 0 k) s
  let s := [F.WEIR_STATUS_CAP_BOUND, F.WEIR_STATUS_INPUT_BOUND, F.WEIR_STATUS_THERM_BOUND].foldl (fun s f => setF s 59 f 0) s
  noteAlert (setF (setF (setF (setMstate s 0) 59 F.WEIR_STATUS_STEP 4) 59 F.WEIR_STATUS_FEED_FAULT 0) 59 F.WEIR_STATUS_HALT_CAUSE 0)

/-! ### Halt and reset (R442-R444) -/

/-- Completes the outstanding commands a test selects, in the order they were fetched. -/
def completeAll (s : State) (sel : Cmd → Bool) (status : Nat) : State :=
  (s.dqp.cmds.filter sel).foldl (fun s c => complete s c.no status) s

/-- Every context destroyed, with the work of the units (R442 step 3, R273). -/
def destroyAll (s : State) : State :=
  let s := { s with tiles := [], flume := { s.flume with progs := [] }, media := {}, search := s.search.kept }
  let s := s.sched.ctxs.foldl tearDown s
  { s with runnels := { nextUid := s.runnels.nextUid }, sched := { s.sched with owed := [] }, mem := { s.mem with fetches := [] } }

/-- A SHUTDOWN that has started: it completes after every other command (R442 step 5). -/
def Cmd.isShutdown (c : Cmd) : Bool := c.opcode == 0x0D && c.phase == .started

/-- Steps 2 and 3 of R442: every other command completes with `status`. -/
def haltEnds (s : State) (status : Nat) : State :=
  let s := completeAll s (fun c => !c.isShutdown) status
  let s := { s with boot := { s.boot with haltWait := false }, ident := { s.ident with quotes := s.ident.quotes.filter (·.mgmt) } }
  let s := destroyAll s
  setF (updDqp s fun d => { d with pulls := [], pwr := .none }) 56 F.DQP_STATUS_PS_BUSY 0

/-- A halt or reset begins (R442): `force` abandons started commands at once. -/
def haltBegins (s : State) (cause : Nat) (reset : Bool) (status : Nat) (force : Bool) : State :=
  let s := setF (setMstate s 2) 59 F.WEIR_STATUS_STEP 0
  let s := if reset then s else setF s 59 F.WEIR_STATUS_HALT_CAUSE cause
  let s := { s with boot := { s.boot with haltReset := reset, fatal := false, haltWait := !force } }
  let s := setF s 56 F.DQP_SB_IMG_STAT_WAITING 0
  noteAlert (
    if force then haltEnds s status
    else completeAll s (fun c => c.phase != .started) 0x2008)

/-- An order to halt or reset with FORCE = 1 that no command carries (R440, R441, R443, R503). A reset turns a halt in
progress into a reset; a halted module restarts at once. -/
def forcedHalt (s : State) (cause : Nat) (reset : Bool) (status : Nat) : State :=
  match mstate s with
  | 2 =>
    let s := if s.dqp.pwr = .none then s else setF s 59 F.WEIR_STATUS_HALT_CAUSE cause
    let s := if s.boot.haltWait ∨ s.dqp.pwr ≠ .none then haltEnds s status else s
    if reset then { s with boot := { s.boot with haltReset := true } } else s
  | 3 => if reset then coldStart s else s
  | 4 => s
  | _ => if s.boot.powered then haltBegins s cause reset status true else s

/-- Fatal error (R444): the link goes down at once and no command completes. -/
def fatalHalt (s : State) : State :=
  if !s.boot.powered ∨ mstate s = 3 ∨ mstate s = 4 then s
  else
    let s := setF (setF (setMstate s 2) 59 F.WEIR_STATUS_STEP 0) 59 F.WEIR_STATUS_HALT_CAUSE 5
    let s := updLink (endSession s) fun l => { l with l0 := false }
    let s := updDqp s fun d => { d with cmds := [], pulls := [], pwr := .none }
    let s := { s with boot := { s.boot with haltReset := false, fatal := true, haltWait := false }
                      ident := { s.ident with quotes := s.ident.quotes.filter (·.mgmt) } }
    noteAlert (destroyAll (setF s 56 F.DQP_SB_IMG_STAT_WAITING 0))

/-- The flush of a halt is over (R442 step 5): the ordering command completes, the link goes to L2, and the module is HALTED
or starts again; while the reset pin is low it holds (R503). -/
def haltOver (s : State) : State :=
  let s := if s.boot.haltWait then haltEnds s 0x2008 else s
  let s := flushBuffers s
  let s := completeAll s Cmd.isShutdown 0
  if s.boot.haltReset then coldStart s else haltedState s

/-- The end of a management quote (R471). -/
def mgmtQuoteEnds (s : State) (status : Nat) (data : List Byte) : State :=
  let s := { s with ident := { s.ident with mqData := data } }
  setF (setF (setF s 58 F.ID_MQ_CTRL_GO 0) 58 F.ID_MQ_STATUS_RESULT status) 58 F.ID_MQ_STATUS_READY 1

/-- Power failure (R447): compute and DQP stop, nothing completes, a message goes to the host die over the sideband,
buffers go to staging from the hold-up bank. A management quote under way ends with 0x7003 (R470). -/
def powerFail (s : State) : State :=
  if !s.boot.powered ∨ mstate s = 4 then s
  else
    let s := if s.link.sbTrained then emit s .powerFail else s
    let s := updLink (endSession s) fun l => { l with l0 := false, sbTrained := false }
    let s := if s.ident.quotes.any (·.mgmt) then mgmtQuoteEnds s 0x7003 [] else s
    let s := { s with
      dqp := {}, tiles := [], runnels := {}, flume := {}, sched := {}, media := {}, mem := {}, search := s.search.kept
      boot := { s.boot with haltReset := false, fatal := false, haltWait := false, ready := false, inputBack := false }
      ident := { s.ident with sk := [], quotes := [] } }
    let s := stopDies s
    let s := setF (setF s 58 F.ID_STATUS_STATE 0) 56 F.DQP_STATUS_RDY 0
    noteAlert (setF (setMstate s 4) 59 F.WEIR_STATUS_STEP 0)

/-- Every rail is off. -/
def powerOff (s : State) : State := { coldStart s with boot := { (coldStart s).boot with powered := false }, jtag := {} }

end Sys2Proof.Machine
end

