-- ==== Sys2Proof/Machine/Boot.lean ====
section
/-!
DEFINITION. Machine/Boot.lean: start-up (R43-R47, R445, R446): the choice of an image, identity derivation and enrolment
(R461-R465), the eight steps, and the sideband image.
-/
namespace Sys2Proof.Machine

/-! ### Identity (R461-R465) -/

def ascii (t : String) : List Byte := t.toList.map (fun c => BitVec.ofNat 8 c.toNat)

/-- Exactly n bytes. -/
def fit (n : Nat) (l : List Byte) : List Byte := (l ++ List.replicate n 0).take n

/-- MAGIC, FORMAT and CRC of a helper record are right (R462, R463). -/
def helperOk (r : List Byte) : Bool :=
  r.length == 604 && le r 0 4 == 0x44504C48 && le r 4 2 == 1 && le r 600 4 == crc32c (r.take 600)

/-- Bytes of bits, the least significant of each first (R461, R462). -/
def bytesOfBits (n : Nat) (l : List Bool) : List Byte :=
  (List.range n).map (fun i => BitVec.ofNat 8 (maskOf ((List.range 8).filter (fun j => l.getD (8 * i + j) false))))

/-- Block b of n bits. -/
def blockOf (n b : Nat) (l : List Bool) : List Bool := (List.range n).map (fun i => l.getD (n * b + i) false)

/-- The secret that a response and helper data give, 2,224 bits in 278 bytes (R461). -/
def pufSecret (response helper : List Byte) : Option (List Byte) :=
  let x := List.zipWith (fun a b => a != b) (bitsOfBytes (fit 510 response)) (bitsOfBytes (fit 510 helper))
  ((List.range 16).mapM (fun b => (bchDecode (blockOf 255 b x)).map (blockOf 139 0))).map (fun m => bytesOfBits 278 m.flatten)

/-- The helper data of a response for a secret: the codewords of its blocks XOR the response (R465). -/
def pufHelper (response secret : List Byte) : List Byte :=
  let c := ((List.range 16).map (fun b => blockOf 255 0 (bchEncode (blockOf 139 b (bitsOfBytes (fit 278 secret)))))).flatten
  bytesOfBits 510 (List.zipWith (fun a b => a != b) c (bitsOfBytes (fit 510 response)))

/-- The seed of a root secret (R461). -/
def idSeed (root : List Byte) : List Byte := shake256 (ascii "DM-IDSEED" ++ root) 32

/-- SEED_CHECK of a seed (R461, R462). -/
def seedCheck (xi : List Byte) : List Byte := shake256 (ascii "DM-IDCHK" ++ xi) 16

/-- The key pair of a seed. -/
def idKeys (xi : List Byte) : List Byte × List Byte := let k := Config.mldsaKeyGen xi; (fit 1952 k.1, k.2)

/-- Derivation from a helper record: the public and the private key (R461). -/
def deriveFrom (puf rec' : List Byte) : Option (List Byte × List Byte) :=
  match pufSecret puf (slice rec' 8 510) with
  | none => none
  | some root =>
    let xi := idSeed root
    let k := idKeys xi
    if seedCheck xi == slice rec' 584 16 && digest64 k.1 == slice rec' 520 64 then some k else none

/-- A valid identity is loaded (R463, R473). -/
def loadIdentity (s : State) (k : List Byte × List Byte) (source : Nat) : State :=
  let s := { s with ident := { s.ident with pk := k.1, sk := k.2, pubDigest := digest64 k.1 } }
  let s := putDigest s F.ID_PUB_DIGEST_DIGEST s.ident.pubDigest
  setF (setF s 58 F.ID_STATUS_STATE 1) 58 F.ID_STATUS_SOURCE source

/-- Derivation over copies in order: number and record; a copy equal to one already tried is skipped (R463). -/
def deriveOver (s : State) (puf : List Byte) : List (Nat × List Byte) → List (List Byte) → State
  | [], _ => setF s 58 F.ID_STATUS_STATE 2
  | (n, r) :: l, tried =>
    if !helperOk r || tried.contains r then deriveOver s puf l tried
    else match deriveFrom puf r with
      | some k => let s := loadIdentity s k n; { s with ident := { s.ident with source := r } }
      | none => deriveOver s puf l (r :: tried)

/-- A module whose ENROLLED fuse is 0 enrols itself (R465). -/
def enrol (s : State) (puf entropy : List Byte) : State :=
  let h := pufHelper puf entropy
  let xi := idSeed (fit 278 entropy)
  let k := idKeys xi
  let r := toBytes 4 0x44504C48 ++ toBytes 2 1 ++ toBytes 2 16 ++ h ++ [0, 0] ++ digest64 k.1 ++ seedCheck xi
  let r := r ++ toBytes 4 (crc32c r)
  let s := loadIdentity s k 5
  { s with ident := { s.ident with enrolled := true, fuseCopy := r, source := r } }

/-- A copy on channel 0 or 64 can be read at steps 2 and 3 (R44, R372): its channel, and its die, started. -/
def copyReads (s : State) (i : Nat) : Bool :=
  s.boot.early.all (fun e => e.1 != copyChan i || e.2.cause == 6 || ([5, 9].contains e.2.cause && !bit (faultDies e.2.cause e.2.die) (copyDie i)))

/-- What a start-up reads of a copy: nothing when it cannot be read. -/
def readCopy (s : State) (l : List (List Byte)) (i : Nat) : List Byte := if copyReads s i then l.getD i [] else []

/-- Identity derivation at step 3 (R463, R465). -/
def deriveIdentity (s : State) (env : StepEnv) : State :=
  if getF s 58 F.ID_STATUS_STATE ≠ 0 then s
  else
    let recs := [0, 1, 2, 3].map (readCopy s s.ident.flashCopies)
    let s := if s.ident.enrolled then deriveOver s env.puf ([(1, recs.getD 0 []), (2, recs.getD 1 []), (3, recs.getD 2 []), (4, recs.getD 3 [])] ++ [(5, s.ident.fuseCopy)]) []
      else enrol s env.puf env.entropy
    let dup (i : Nat) : Bool := (recs.take i).contains (recs.getD i [])
    let bad := maskOf ([0, 1, 2, 3].filter (fun i => !helperOk (recs.getD i []) ||
      (if s.ident.source.isEmpty then dup i else recs.getD i [] != s.ident.source)))
    setF (setF s 58 F.ID_STATUS_COPIES_BAD bad) 58 F.ID_STATUS_REPAIR_PEND (b2n (!s.ident.source.isEmpty && bad != 0))

/-! ### The choice of an image (R43, R44, R46) -/

/-- A counter record whose complement check passes (R43). -/
def counterOk (r : List Byte) : Bool := r.length == 16 && le r 0 4 + le r 4 4 == 2 ^ 32 - 1

/-- check() of slot k's copies: the code and, with 0, the image (R44). -/
def checkSlot (s : State) (counter k : Nat) : Nat × List Byte :=
  let try' (i : Nat) : Nat × List Byte :=
    let d := readCopy s s.boot.copies i
    (if d.isEmpty then 0x3001 else checkImage s counter d, d)
  let p := try' (2 * k)
  if p.1 = 0 then p else try' (2 * k + 1)

/-- The image chosen runs from here on (R45, R50, R459). -/
def chooseImage (s : State) (d : List Byte) (source : Nat) : State :=
  let a := (imgAnchor s d).getD 0
  let s := { s with boot := { s.boot with active := d, info := { s.boot.info with anchor := a } } }
  let s := putDigest (setF s 58 F.ID_ANCHORS_USED a) F.ID_SIGNER_DIGEST_DIGEST (digest64 (imgKey d))
  setF s 58 F.IMG_STATUS_SOURCE source

/-- One step is over, or a part of it, and another goes on; step 9 is RUNNING. A step's time is the sum of its parts: the wait for a
sideband image belongs to step 2, though step 3 has begun before it (R445). -/
def nextStep (s : State) (n k : Nat) : State :=
  let now := cyc s 59
  let s := addF s 59 F.WEIR_STEP_TIME_CYCLES (now - s.boot.stepAt) (n - 1)
  setF { s with boot := { s.boot with stepAt := now } } 59 F.WEIR_STATUS_STEP (if k = 9 then 0 else k)

/-- The check of an image verifies a signature: its head is right and its signer's key is an anchor's (R459). -/
def imgVerifies (s : State) (d : List Byte) : Bool := imgHeadOk d && (imgAnchor s d).isSome

/-- Signatures that the checks of a slot's copies verify: the second copy is tried where the first fails (R44, R478). -/
def slotVerifies (s : State) (counter k : Nat) : Nat :=
  let one (i : Nat) : Nat := b2n (imgVerifies s (readCopy s s.boot.copies i))
  let d := readCopy s s.boot.copies (2 * k)
  one (2 * k) + (if !d.isEmpty && checkImage s counter d == 0 then 0 else one (2 * k + 1))

/-- The end of step 3's checks: counter, slots A and B, or the wait for the sideband (R43, R44). -/
def chooseSlot (s : State) : State :=
  let vals := (([0, 1, 2, 3].map (readCopy s s.boot.counters)).filter counterOk).map (fun r => le r 0 4)
  let counter := vals.foldl max 0
  let s := setF (setF s 58 F.IMG_STATUS_CTR_LOST (b2n vals.isEmpty)) 58 F.IMG_COUNTER_COUNTER counter
  let a := checkSlot s counter 0
  let b := checkSlot s counter 1
  let s := countEv s 58 0x78 0 (slotVerifies s counter 0 + slotVerifies s counter 1)
  let s := setF (setF s 58 F.IMG_REJECT_SLOT_A a.1) 58 F.IMG_REJECT_SLOT_B b.1
  if a.1 = 0 ∧ (b.1 ≠ 0 ∨ imgVersion b.2 ≤ imgVersion a.2) then chooseImage s a.2 1
  else if b.1 = 0 then chooseImage s b.2 2
  else nextStep (setF s 56 F.DQP_SB_IMG_STAT_WAITING 1) 3 2

/-- The counter copies are rewritten with a higher floor; those on channels that may not serve wait (R46). -/
def raiseFloor (s : State) : State :=
  let v := imgFloor s.boot.active
  if v ≤ getF s 58 F.IMG_COUNTER_COUNTER then s
  else
    let s := setF (setF s 58 F.IMG_COUNTER_COUNTER v) 58 F.IMG_STATUS_CTR_PEND 1
    let s := { s with boot := { s.boot with floorPend := some v, floorLeft := 15 } }
    let src := s.ident.source
    let s := writeCopies { s with ident := { s.ident with source := [] } } (fun i =>
      let st := mget 0 s.boot.chans (copyChan i) % 8
      copyReads s i && !s.boot.early.any (fun e => e.1 == copyChan i && e.2.cause == 6) && st != 2 && st != 3)
    { s with ident := { s.ident with source := src } }

/-! ### Steps 4 to 8 -/

/-- Classes of a block at the scan (R365). -/
inductive BlockClass where
  | erased | programmed | mixed
  deriving DecidableEq, Repr

/-- The lower page of a block's wordline 0 decodes with a valid block header (R364, R365). -/
def headerGood (s : State) (c : Nat) (x : Sensed) : Bool :=
  match pageStored s ⟨c, x.die, x.plane, x.block, 0, 0⟩ with
  | some (_, o) => le o 0 2 == 0xB10C && le o 60 4 == crc32c (o.take 60)
  | none => false

/-- The class of a block from its two erase-verify reads and its header (R365). -/
def blockClass (s : State) (c : Nat) (x : Sensed) : BlockClass :=
  if x.first ≤ 64 ∧ x.last ≤ 64 then .erased else if headerGood s c x then .programmed else .mixed

/-- The factory markers of a new die are read before it is used (R352). -/
def readMarkers (s : State) (c dn : Nat) (marked : List (Nat × Nat × Nat)) : State :=
  updFlash s fun f => { f with
    factoryBad := (marked.filter (fun m => m.1 == dn)).foldl (fun l m => mins l ((dieKey c dn * 4 + m.2.1) * 1024 + m.2.2) ()) f.factoryBad }

/-- The first journal page of a new die (R366). DESIGN CHOICE (notes/assumptions 43): its one entry, since a page holds at least one
(R361), is a DONE with ISEQ 0 and count 0 of the journal block itself. -/
def firstPage : JPage := ⟨0, 0, 0, [⟨2, 0, 0, 0, 0, false⟩]⟩

/-- The scan of R366 on one die: the active journal block is the one with the latest page; blocks with open intents, and recent ones
that read Mixed, are erased before any other use, as are plane sets released whose erase had not begun; a new die has its markers
read and gets its first journal page. A journal block whose erase was cut short is erased by the switch it belongs to, which begins
again. -/
def scanDie (c : Nat) (sensed : List Sensed) (marked : List (Nat × Nat × Nat)) (s : State) (dn : Nat) : State :=
  let d := getDie s c dn
  if d.jpages.isEmpty then
    updDie (readMarkers s c dn marked) c dn (fun d => { d with jpages := [firstPage], pageSeq := 0, generation := 0, jplane := 0, jfree := 255 })
  else
    let entries := (d.jpages.map (·.entries)).flatten
    let opened := entries.filter (fun e => e.kind != 2 && !entries.any (fun x => x.kind == 2 && x.iseq == e.iseq))
    let at' (l : List JEntry) : List (Nat × Nat) := (l.map (fun e => (e.plane, e.block))).eraseDups
    let open' := at' opened
    let recent := at' (((d.jpages.drop (d.jpages.length - 64)).map (·.entries)).flatten.filter (fun e => e.kind == 1))
    let mixed (b : Nat × Nat) : Bool := sensed.any (fun x => x.die == dn && x.plane == b.1 && x.block == b.2 && blockClass s c x == .mixed)
    let hit := recent.filter (fun b => !open'.contains b && mixed b)
    let s := addF s (chIsl c) F.FCH_HALF_ERASED_COUNT hit.length
    let last := d.jpages.foldl (fun m p => if m.pageSeq < p.pageSeq then p else m) (d.jpages.headD firstPage)
    let s := updDie s c dn (fun d => { d with
      half := (d.half ++ open' ++ hit).eraseDups, intents := opened.filter (fun e => e.kind == 1)
      jplane := last.plane, pageSeq := last.pageSeq, generation := last.generation
      jfree := 256 - (d.jpages.filter (fun p => p.plane == last.plane)).length })
    let owed := (s.flash.sets.filter (fun p => p.1 / 1024 == dieKey c dn && p.2.stripe == 0 && !p.2.clean && !p.2.retired && !p.2.free)).map (fun p => p.1 % 1024)
    let again := (((open' ++ hit).map (·.2)).filter (fun b => decide (1 ≤ b)) ++ owed).eraseDups
    again.foldl (fun s b => wantErase (updSet s c dn b (fun x => { x with clean := false, free := false })) c dn b) s

/-- The scan of every die in use of a channel. -/
def scanChannel (sensed : List Sensed) (marked : List (Nat × Nat × Nat)) (s : State) (c : Nat) : State := (diesIn s c).foldl (scanDie c sensed marked) s

/-- Channel start: bus training and line test, then the scan (R349, R350, R366, R370, R446). -/
def startChannel (env : StepEnv) (s : State) (c : Nat) : State :=
  if !chIn s c then s
  else
    let f := (((s.boot.early ++ env.channels).find? (fun e => e.1 == c)).map (·.2)).getD ⟨0, 0⟩
    let s := if f.cause = 8 then recordCause (setChState (lineTest s c 0 0) c 2) c 8 0 else lineTest s c f.cause f.die
    let mine (l : List (Nat × Sensed)) : List Sensed := (l.filter (fun e => e.1 == c)).map (·.2)
    if chIn s c then scanChannel (mine env.sensed) ((env.marked.filter (fun e => e.1 == c)).map (·.2)) s c else s

/-- U0 of channels at their first start (R398). -/
def firstU0 (s : State) : State :=
  updFlash s fun f => { f with u0 := ((List.range 128).filter (fun c => chEnabled s c && (mfind f.u0 c).isNone)).foldl (fun m c => mins m c (usableSets s c)) f.u0 }

/-- The module is RUNNING and DQP ready (R69, R92, R445, R449). -/
def goRunning (s : State) (energy : Nat) : State :=
  let s := setF (setF s 59 F.WEIR_HOLDUP_ENERGY_J (min energy 255)) 59 F.WEIR_HOLDUP_DEGRADED (b2n (decide (energy < 12)))
  let s := setMstate { s with boot := { s.boot with ready := true } } 1
  let s := setF s 56 F.DQP_STATUS_RDY (getF s 56 F.DQP_CTRL_EN)
  let s := if s.boot.info.risal then makeRisal s else s
  noteAlert (noteRo s)

/-- START_UP_STEP_END (R445). -/
def execStartUpStepEnd (env : StepEnv) (s : State) : Host.Outcome State Fault Refusal :=
  .next (
    if !s.boot.powered ∨ s.boot.resetPin ∨ mstate s ≠ 0 ∨ env.ok = false then s
    else match getF s 59 F.WEIR_STATUS_STEP with
    | 1 =>
      let s := updLink s fun l => { l with sbTrained := true }
      let prog := maskOf ((List.range 4).filter (fun k => !((s.ident.anchors.getD k ([], false)).1.isEmpty)))
      let revoked := maskOf ((List.range 4).filter (fun k => (s.ident.anchors.getD k ([], false)).2))
      let s := setF (setF s 58 F.ID_ANCHORS_PROGRAMMED prog) 58 F.ID_ANCHORS_REVOKED revoked
      nextStep (setF s 58 F.ID_STATUS_ENROLLED (b2n s.ident.enrolled)) 1 2
    | 2 =>
      if getF s 56 F.DQP_SB_IMG_STAT_WAITING = 1 then s
      else nextStep { s with boot := { s.boot with early := env.channels.filter (fun e => e.1 == 0 || e.1 == 64) } } 2 3
    | 3 =>
      let s := deriveIdentity s env
      let s := if s.boot.active.isEmpty then chooseSlot s else s
      if s.boot.active.isEmpty then s else nextStep (raiseFloor s) 3 4
    | 4 =>
      let s := if getF s 58 F.ID_STATUS_STATE = 0 then deriveOver s env.puf [(5, s.ident.fuseCopy)] [] else s
      let s := updLink (applyImage s s.boot.active s.boot.info.anchor) fun l => { l with sbTrained := true }
      nextStep s 4 5
    | 5 =>
      let s := ((List.range 16).filter (fun n => bit env.badStacks n && enabled s (32 + n))).foldl (fun s n => setF s (32 + n) F.STK_STATE_STATE 2) s
      nextStep s 5 6
    | 6 =>
      let s := (List.range 128).foldl (startChannel env) s
      nextStep (writeCopies s (copyWritable s)) 6 7
    | 7 =>
      if getF s 59 F.WEIR_HOLDUP_CHARGED = 0 then s else nextStep (firstU0 (loadFlushed s)) 7 8
    | 8 => goRunning (nextStep s 8 9) env.energy
    | _ => s)

/-- INPUT_QUALIFIED (R441, R445, R450, R503, R504): step 1 begins, with the mode and slot pins sampled and VDD_MGMT as supplied;
during a flush the start waits for its end (R447). -/
def execInputQualified (slotId : Nat) (pins : MgmtPins) (s : State) : Host.Outcome State Fault Refusal :=
  .next (
    let sampled (s : State) : State := { s with boot := { s.boot with slotId := slotId % 32, i3c := pins.i3c, vdd33 := pins.vdd33 } }
    if !s.boot.powered then sampled { s with boot := { s.boot with powered := true } }
    else if mstate s = 4 then sampled { s with boot := { s.boot with inputBack := true } }
    else s)

/-- HOLDUP_CHARGED (R445, R501): the bank is full and the limit on its charging current ends. ENERGY_J shows what R449 measures, which
this is not. -/
def execHoldupCharged (_energy : Nat) (s : State) : Host.Outcome State Fault Refusal :=
  .next (if !s.boot.powered then s else setF s 59 F.WEIR_HOLDUP_CHARGED 1)

/-- Power of the input is back after a flush: start-up begins (R447). -/
def execFlushComplete (s : State) : Host.Outcome State Fault Refusal :=
  .next (
    if !s.boot.powered ∨ mstate s ≠ 4 then s
    else
      let back := s.boot.inputBack
      let s := powerOff (flushBuffers s)
      { s with boot := { s.boot with powered := back } })

/-! ### The sideband image (R44, R45, R63) -/

/-- A submitted sideband image (R44, R63): its code; accepted, it is the active image and step 3 ends with it; rejected, its
bytes are discarded. -/
def submitSideband (s : State) : State :=
  let d := s.dqp.sbImage
  let code := if d.length ≠ imgLength d then 0x7004 else checkImage s (getF s 58 F.IMG_COUNTER_COUNTER) d
  let s := setF s 56 F.DQP_SB_IMG_RESULT_RESULT code
  let s := if d.length = imgLength d ∧ imgVerifies s d then countEv s 58 0x78 0 1 else s
  if code = 0 then nextStep (setF (chooseImage s d 3) 56 F.DQP_SB_IMG_STAT_WAITING 0) 2 3
  else updDqp s fun d => { d with sbImage := [] }

/-! ### IMAGE_WRITE (R47, R48) -/

/-- The slot an image write targets: 0 A, 1 B. -/
def imageTarget (s : State) : Nat :=
  match getF s 58 F.IMG_STATUS_SOURCE with | 1 => 1 | 2 => 0 | _ => s.boot.imgWrites % 2

/-- Its conditions in table order (R48). -/
def imageConds (s : State) (c : Cmd) : List Nat :=
  let d := c.data
  let len := c.bufBytes
  let ch := 64 * imageTarget s
  [cond (len != imgLength d || decide (len < 6253) || decide (3145728 < len)) 0x1003, cond (!imgHeadOk d) 0x7004,
   (let st := checkImage s (getF s 58 F.IMG_COUNTER_COUNTER) d
    if st ≠ 0 then st
    else cond (!(chEnabled s ch && (chState s ch == 0 || chState s ch == 4)) || dieOut s ch 0 || dieOut s ch 8) 0x1007)]

/-- The first of a list of conditions that holds, in the list's order. -/
def firstHeld (l : List Nat) : Nat := (l.find? (· != 0)).getD 0

/-- Both copies of the target slot (R44). -/
def putImage (s : State) (d : List Byte) : State :=
  let k := imageTarget s
  { s with boot := { s.boot with copies := updAt (updAt s.boot.copies (2 * k) (fun _ => d)) (2 * k + 1) (fun _ => d) } }

/-- The end of an image write, each copy erased and programmed under R362: both copies read back as written, or the slot fails its check from now on (R47, R48). The spec
does not say whether a write that ends 0x3002 counts in the alternation after a sideband image: it does here, and a rejected
one does not (DESIGN CHOICE, notes/assumptions 48). -/
def endImageWrite (s : State) (c : Cmd) (good : Bool) : State :=
  let k := imageTarget s
  let s := putImage (writeParam (writeParam s (2 * k) 1 c.data.length) (2 * k + 1) 1 c.data.length) (if good then c.data else [])
  let s := { s with boot := { s.boot with imgWrites := s.boot.imgWrites + 1 } }
  if good then complete s c.no 0 (k + 1) (imgVersion c.data) else complete s c.no 0x3002

/-- IMAGE_WRITE (R47, R48), one at a time in arrival order. `readBackOk`: 1 both copies read back as written; 0 a program
failed or a read-back differed; 2 the write has begun and goes on: from here until it ends the target slot holds no readable
copy, so that power lost meanwhile leaves the slot failing its check. -/
def execImageWrite (c : CmdId) (readBackOk : Nat) (s : State) : Host.Outcome State Fault Refusal :=
  .next (
    match (cmdById s c).filter (fun x => x.phase == .started && isOp 0x0A x) with
    | some x => if readBackOk = 2 then s else endImageWrite s x (readBackOk == 1)
    | none =>
      if behind s c (fun x _ => isOp 0x0A x) then s
      else runCmd s c (isOp 0x0A) [] (fun _ => []) fun s c =>
        let st := firstHeld (imageConds s c)
        let s := if (imageConds s c).take 2 == [0, 0] ∧ (imgAnchor s c.data).isSome then countEv s 58 0x78 0 1 else s
        if st ≠ 0 then complete s c.no st
        else if readBackOk = 2 then putImage s []
        else endImageWrite s c (readBackOk == 1))

end Sys2Proof.Machine
end

