-- ==== Sys2Proof/Machine/Ident.lean ====
section
/-!
DEFINITION. Machine/Ident.lean: attestation quotes of island 58 for the host and the management port (R457, R466-R473).
-/
namespace Sys2Proof.Machine

/-! ### CONFIG_DIGEST (R468) -/

/-- Places of a register on an island: offset, instance, second index. -/
def regPlaces (n num : Nat) : List (Nat × Nat × Nat) :=
  match allRegs.find? (fun r => r.num == num) with
  | none => []
  | some r => ((r.places.filter (fun p => p.kinds.contains (kindOf n))).map (fun p =>
      ((List.range p.n1).map (fun i => (List.range p.n2).map (fun j => (p.base + i * p.s1 + j * p.s2, p.lo1 + i, j)))).flatten)).flatten

/-- Active value of a register's ST fields, other bits 0. -/
def activeWord (s : State) (n num i j : Nat) : Nat :=
  match allRegs.find? (fun r => r.num == num) with
  | none => 0
  | some r => (r.fields.filter (fun f => f.acc == .st)).foldl (fun v f => v + getA s n f i j % 2 ^ f.w * 2 ^ f.lo) 0

/-- A group instance as it is absorbed: island, COMMIT offset, ADOPTED, then its ST registers in ascending offset. -/
def groupBytes58 (s : State) (n off : Nat) (g : Group) (i : Nat) : List Byte :=
  let regs := (g.regs.map (fun r => ((regPlaces n r).filter (fun p => !g.each || p.2.1 == i)).map (fun p => (p.1, r, p.2)))).flatten
  toBytes 2 n ++ toBytes 2 off ++ toBytes 1 (getF s n g.adopted i) ++ [0, 0, 0]
    ++ ((sortBy (fun a b => decide (a.1 < b.1)) regs).map (fun r => toBytes 2 r.1 ++ [0, 0] ++ toBytes 4 (activeWord s n r.2.1 r.2.2.1 r.2.2.2))).flatten

/-- The committed configuration of every enabled island (R468). -/
def configDigest (s : State) : List Byte :=
  digest64 (ascii "DM-CFG01" ++
    (((List.range 60).filter (fun n => s.boot.applied && enabled s n)).map (fun n =>
      let gs := (groupTable.map (fun g => (regPlaces n g.commit).map (fun p => (p.1, g, p.2.1)))).flatten
      ((sortBy (fun a b => decide (a.1 < b.1)) gs).map (fun x => groupBytes58 s n x.1 x.2.1 x.2.2)).flatten)).flatten)

/-! ### Quotes (R466-R471) -/

/-- Bytes 0 to 2,335 of a quote (R467). -/
def quoteBody (s : State) (q : Quote) (seq : Nat) : List Byte :=
  toBytes 4 0x544F5551 ++ toBytes 2 1 ++ toBytes 1 (b2n q.mgmt) ++ [0] ++ toBytes 4 (capFeature s)
    ++ toBytes 4 (getF s 58 F.IMG_VERSION_VERSION) ++ toBytes 4 (getF s 58 F.IMG_COUNTER_COUNTER)
    ++ toBytes 1 (getF s 58 F.IMG_STATUS_SOURCE) ++ toBytes 1 (getF s 58 F.ID_ANCHORS_USED) ++ toBytes 1 (getF s 58 F.ID_STATUS_SOURCE) ++ [0]
    ++ toBytes 8 seq ++ toBytes 8 q.cycle ++ fit 32 q.nonce ++ fit 64 s.boot.info.digest ++ fit 64 s.boot.info.signerDigest
    ++ configDigest s ++ fit 64 s.ident.pubDigest ++ List.replicate 56 0 ++ fit 1952 s.ident.pk

/-- The cases in which a quote completes with 0x7003 (R470). -/
def quoteRefused (s : State) : Bool :=
  getF s 58 F.ID_STATUS_STATE != 1 || [2, 3, 4].contains (mstate s) || (mstate s == 0 && decide (getF s 59 F.WEIR_STATUS_STEP ≤ 3))

/-- Capture begins when a quote reaches the head of the queue (R467, R469). -/
def headQuote (s : State) : State :=
  match s.ident.quotes with
  | [] => s
  | q :: l => { s with ident := { s.ident with quotes := { q with cycle := cyc s 59 } :: l } }

/-- A quote joins the queue (R469). -/
def queueQuote (s : State) (q : Quote) : State :=
  let first := s.ident.quotes.isEmpty
  let s := { s with ident := { s.ident with quotes := s.ident.quotes ++ [q] } }
  if first then headQuote s else s

/-- ATTEST_QUOTE (R466, R469, R470). -/
def execAttestQuote (c : CmdId) (s : State) : Host.Outcome State Fault Refusal :=
  .next (runCmd s c (isOp 0x0B) [(32, 32)]
    (fun c => [roomFor c 5645, cond (decide (4 ≤ ((s.ident.quotes.drop 1).filter (!·.mgmt)).length)) 0x2002, cond (quoteRefused s) 0x7003])
    fun s c => queueQuote s ⟨false, c.no, slice c.raw 32 32, 0⟩)

/-- GO = 1 on the management port (R471): a new GO clears READY. -/
def mgmtQuoteGo (s : State) : State :=
  let s := setF (setF (setF s 58 F.ID_MQ_CTRL_GO 1) 58 F.ID_MQ_STATUS_READY 0) 58 F.ID_MQ_STATUS_RESULT 0
  if quoteRefused s then mgmtQuoteEnds s 0x7003 []
  else queueQuote s ⟨true, 0, ((List.range 8).map (fun k => toBytes 4 (getF s 58 F.ID_MQ_NONCE_NONCE k))).flatten, 0⟩

/-- A quote that has begun ends without a signature: with no valid identity, and a management quote of a module that has stopped
running meanwhile; a host quote that a halt overtakes runs on under R442 (R470). -/
def quoteFails (s : State) (q : Quote) : Bool := if q.mgmt then quoteRefused s else getF s 58 F.ID_STATUS_STATE != 1

/-- The 32-byte random value of hedged signing, from four free values (R457). -/
def drawRandom (s : State) : List Byte × State :=
  (List.range 4).foldl (fun r _ => let f := takeFree r.2; (r.1 ++ toBytes 8 f.1.toNat, f.2)) ([], s)

/-- QUOTE_SIGNED (R457, R467-R471): the head of the queue is delivered and the next begins. -/
def execQuoteSigned (s : State) : Host.Outcome State Fault Refusal :=
  .next (
    match s.ident.quotes with
    | [] => s
    | q :: l =>
      let bad := quoteFails s q
      let seq := (s.ident.quoteSeq + 1) % 2 ^ 64
      let body := quoteBody s q seq
      let f := drawRandom s
      let quote := body ++ fit 3309 (Config.mldsaSign s.ident.sk f.1 (ascii "DM-QUOTE") body)
      let s := if bad then s else countEv (addF f.2 58 F.ID_QUOTES_COUNT 1) 58 0x79 0 1
      let s := { s with ident := { s.ident with quotes := l, quoteSeq := if bad then s.ident.quoteSeq else seq } }
      let s := if q.mgmt then (if bad then mgmtQuoteEnds s 0x7003 [] else mgmtQuoteEnds s 0 quote)
        else match findCmd s q.no with
          | none => s
          | some c => if bad then complete s q.no 0x7003 else complete (toHost s c quote) q.no 0 5645 seq
      headQuote s)

end Sys2Proof.Machine
end

