-- ==== Sys2Proof/Machine/Counters.lean ====
section
/-!
DEFINITION. Machine/Counters.lean: enabling and clearing the event counters, samples, bandwidth windows and frequency marks
(R475-R483).
-/
namespace Sys2Proof.Machine

/-- Events of R478: code, island types (none: all) and sub-units of the Unit column (0: none). -/
def eventTable : List (Nat × List Kind × Nat) :=
  [(0x00, [], 0), (0x01, [], 0), (0x02, [], 0), (0x03, [], 0), (0x04, [], 8), (0x05, [], 0), (0x10, [.reach], 4), (0x11, [.reach], 4),
   (0x12, [.reach], 4), (0x13, [.reach], 4), (0x14, [.reach], 48), (0x15, [.reach], 48), (0x16, [.reach], 48), (0x17, [.reach], 48),
   (0x18, [.reach], 48), (0x19, [.reach], 48), (0x1A, [.reach], 8), (0x1B, [.reach], 8), (0x1C, [.reach], 8), (0x1D, [.reach], 8),
   (0x1E, [.reach], 8), (0x1F, [.reach], 0), (0x20, [.reach], 4)] ++
  [(0x30, [.stack], 8), (0x31, [.stack], 8), (0x32, [.stack], 0), (0x33, [.stack], 8), (0x34, [.stack], 0), (0x40, [.flash], 32),
   (0x41, [.flash], 32), (0x42, [.flash], 32), (0x43, [.flash], 32), (0x44, [.flash], 32), (0x45, [.flash], 32), (0x46, [.flash], 0),
   (0x50, [.sieve], 64), (0x51, [.sieve], 64), (0x52, [.sieve], 64), (0x58, [.media], 12), (0x59, [.media], 0)] ++
  [(0x60, [.intake], 0), (0x61, [.intake], 0), (0x62, [.intake], 0), (0x63, [.intake], 0), (0x64, [.intake], 0), (0x70, [.sched], 0),
   (0x71, [.sched], 0), (0x72, [.sched], 0), (0x73, [.sched], 0), (0x74, [.sched], 0), (0x75, [.sched], 0), (0x78, [.security], 0),
   (0x79, [.security], 0), (0x7C, [.weir], 0), (0x7D, [.weir], 0)]

/-- The selection of a counter is valid (R477). -/
def selOk (s : State) (isl n : Nat) : Bool :=
  match eventTable.find? (fun e => e.1 == getF s isl F.CNT_SEL_EVENT n) with
  | none => false
  | some (_, ks, units) =>
    (ks.isEmpty || ks.contains (kindOf isl))
      && (getF s isl F.CNT_SEL_UNIT_EN n == 0 || decide (getF s isl F.CNT_SEL_UNIT n < units))
      && (getF s isl F.CNT_SEL_SLOT n == 0 || kindOf isl == .reach)
      && (getF s isl F.CNT_SEL_SAMPLE n == 0
          || (decide (4 ≤ getF s isl F.CNT_SEL_SHIFT n) && decide (getF s isl F.CNT_SEL_SHIFT n ≤ 40)))

/-- A write of CNT_CTRL (R476, R477): status and state. -/
def writeCntCtrl (s : State) (isl v : Nat) : State × Nat :=
  let en := bits v 0 8
  let was := getF s isl F.CNT_CTRL_EN
  if (bitList en 8).any (fun n => !bit was n && !selOk s isl n) then (s, 0x1003)
  else
    let s := (bitList (bits v 8 8) 8).foldl (fun s n =>
      setF { s with counters := { s.counters with values := mset 0 s.counters.values (8 * isl + n) 0 } } isl F.CNT_HI_SAT 0 n) s
    (setF s isl F.CNT_CTRL_EN en, 0)

/-- A write of CNT_SMP_TAIL (R479); falling below the watermark re-arms its interrupt. -/
def writeSmpTail (s : State) (isl v : Nat) : State × Nat :=
  if 64 < (getF s isl F.CNT_SMP_HEAD_HEAD + 65536 - v) % 65536 then (s, 0x1003)
  else
    let s := setF s isl F.CNT_SMP_TAIL_TAIL v
    (if smpLevel s isl < getF s isl F.CNT_SMP_CFG_WATERMARK then
      { s with counters := { s.counters with irqSent := setBit s.counters.irqSent isl false } } else s, 0)

/-- The source of a pending capture has ended: its rill has exited or stopped, its program has completed or stopped, its tile or
quadrant has left service (R480). -/
def sourceEnded (s : State) (c : Capture) : Bool :=
  match c.source with
  | 1 => !(s.runnels.rills.any (fun r => r.2.uid == c.unit) || s.runnels.saved.any (fun r => r.2.uid == c.unit))
  | 2 =>
    let out (q : Nat) : Bool := [2, 3].contains (quadState s c.island (c.unit % 256) q)
    [2, 3].contains (reachState s c.island) || (if c.unit / 256 = 0 then (List.range 4).all out else out (c.unit / 256 - 1))
  | _ => !(slotProgs s c.island (c.unit / 2) (c.unit % 2)).any (fun p => some p.op == c.op)

/-- SAMPLE_CAPTURE (R479, R480): the sample that its source's next instruction or pass has captured is written; when the source has
ended before, the last it issued, with SKID 1. -/
def execSampleCapture (island counter : Nat) (s : State) : Host.Outcome State Fault Refusal :=
  .next (
    let mine (c : Capture) : Bool := c.island == island && c.counter == counter
    match s.counters.captures.find? mine with
    | none => s
    | some c =>
      match (match c.got with | some g => some g | none => if sourceEnded s c then some (c.src, cyc s island, true) else none) with
      | none => s
      | some (x, cycle, skid) =>
        writeSample { s with counters := { s.counters with captures := s.counters.captures.filter (fun c => !mine c) } } island
          (sampleRecord cycle counter skid true x))

/-- BW_WINDOW_END (R482): the window that holds the island's cycle is over; a WIN written since takes effect at the first
multiple of its length, where a longer window ends too (notes/assumptions 53). -/
def execBwWindowEnd (island : Nat) (s : State) : Host.Outcome State Fault Refusal :=
  .next (
    if clockRuns s island = false then s
    else
      let old := mget 20 s.counters.win island
      let new := getF s island F.CNT_BW_CFG_WIN
      let w := 2 ^ min old new
      let s := passTo s island ((cyc s island / w + 1) * w)
      let s := if cyc s island % 2 ^ new = 0 then { s with counters := { s.counters with win := mset 20 s.counters.win island new } } else s
      let own (p : Nat × Nat) : Bool := p.1 / 8 == island
      let last := (List.range 8).foldl (fun m p => mset 0 m (8 * island + p) (min (mget 0 s.counters.bytes (8 * island + p)) (2 ^ 48 - 1))) s.counters.lastBytes
      let chg := bit s.counters.lvlChanged island
      let s := { s with counters := { s.counters with
        lastBytes := last, bytes := s.counters.bytes.filter (fun p => !own p), lvlChanged := setBit s.counters.lvlChanged island false } }
      setF (addF s island F.CNT_BW_STATUS_SEQ 1) island F.CNT_BW_STATUS_LEVEL_CHG (b2n chg))

/-- FREQ_MARK (R475): every enabled island whose clock has run since the last mark stores the cycles between the two; island 59's
figure is its nominal clock's. A stopped island misses the mark. -/
def execFreqMark (s : State) : Host.Outcome State Fault Refusal :=
  .next ((List.range 60).foldl (fun s i =>
    if clockRuns s i = false then { s with counters := { s.counters with marks := mdel s.counters.marks i } }
    else
      let s := match mfind s.counters.marks i with
        | some m => setF s i F.CNT_FREQ_KHZ (if i = 59 then 1500000 else min (cyc s i + 1 - m) (2 ^ 22 - 1))
        | none => if i = 59 then setF s i F.CNT_FREQ_KHZ 1500000 else s
      { s with counters := { s.counters with marks := mins s.counters.marks i (cyc s i + 1) } }) s)

end Sys2Proof.Machine
end

