-- ==== Sys2Proof/Machine/Arb.lean ====
section
/-!
DEFINITION. Machine/Arb.lean: the two-master rule of island 56 (R90, R91): orders of the host and of the management port
that reach the arbiter within the handshake window, those among the commands still waiting included.
-/
namespace Sys2Proof.Machine

/-! ### The form of a management request (R506, R507) -/

/-- SMBus packet error code: CRC-8, polynomial x^8 + x^2 + x + 1 (PRESUMED, SMBus 3.1). -/
def pecByte (c : Nat) (b : Byte) : Nat :=
  (List.range 8).foldl (fun c _ => if 128 ≤ c then ((c * 2) % 256) ^^^ 7 else c * 2) (c ^^^ b.toNat)

def pec (l : List Byte) : Nat := l.foldl pecByte 0

/-- Static address of the port (R505). -/
def portAddr (s : State) : Nat := 0x40 + s.boot.slotId

/-- The data bytes of a request whose form is right: code, count and, in SMBus mode, an optional PEC (R506, R507). -/
def requestData (s : State) (frame : List Byte) : Option (List Byte) :=
  let code := le frame 0 1
  let n := if code = 1 then 3 else if code = 2 then 7 else 0
  if n = 0 then none
  else if s.boot.i3c then (if frame.length = 1 + n then some (frame.drop 1) else none)
  else if le frame 1 1 ≠ n then none
  else if frame.length = 2 + n then some (frame.drop 2)
  else if frame.length = 3 + n ∧ pec (toBytes 1 (2 * portAddr s) ++ frame.take (2 + n)) = le frame (2 + n) 1 then some ((frame.drop 2).take n)
  else none

/-! ### Orders -/

/-- Two orders conflict (R90). -/
def Order.conflicts (a b : Order) : Bool :=
  a.mgmt != b.mgmt && decide (a.cycle ≤ b.cycle + 64) && decide (b.cycle ≤ a.cycle + 64)
    && (if 2 ≤ a.kind ∨ 2 ≤ b.kind then a.kind != b.kind else a.key == b.key && a.value != b.value)

/-- Which of two conflicting orders wins: shutdown, then reset, then the lower of two caps, then the host (R90). -/
def Order.beats (a b : Order) : Bool :=
  if 2 ≤ a.kind ∨ 2 ≤ b.kind then decide (b.kind < a.kind)
  else if a.kind = 1 ∧ b.kind = 1 then decide (a.value < b.value)
  else !a.mgmt

/-- A SHUTDOWN may start: as any command, or while a halt waits for started commands (R442). -/
def shutdownReady (s : State) (c : Cmd) : Bool :=
  c.opcode == 0x0D && (canStart s c || (c.phase == .ready && getF s 59 F.WEIR_STATUS_MSTATE == 2 && s.boot.haltWait))

/-- What the fields of a SHUTDOWN say against it (R442, R497). -/
def shutdownStatus (c : Cmd) : Nat :=
  let force := c.b 33 1
  firstOf (baseConds c ++ [cond (!onlyBytes c [(32, 1), (33, 1), (36, 4)]) 0x1002,
    cond (decide (1 < force) || (force == 1 && c.b 36 4 != 0) || decide (1500000000 < c.b 36 4)) 0x1002])

/-- The order a write of a register both ports own is (R90): a halt or reset, a module cap, its commit; a write that would be
rejected is none. -/
def writtenOrder (s : State) (mgmt : Bool) (a v : Nat) : List Order :=
  match islandAt a with
  | some (59, off) =>
    match findReg 59 off with
    | none => []
    | some (r, _, _) =>
      let o (kind value : Nat) : List Order := [⟨mgmt, cyc s 56, kind, r.num, value⟩]
      if a % 4 ≠ 0 ∨ legalWord s 59 r v = false then []
      else if r.num = R.WEIR_ORDER.num then (if v = 1 ∨ v = 2 then o (4 - v) v else [])
      else if r.num = R.WEIR_CAP.num then o 1 v
      else if r.num = R.WEIR_GROUP_CAP_COMMIT.num ∧ v = 1 then o 0 1
      else []
  | _ => []

/-- The orders a waiting command carries. -/
def ordersOf (s : State) (i : Instr) : List Order :=
  let halt (mgmt : Bool) (kind : Nat) : List Order := [⟨mgmt, cyc s 56, kind, R.WEIR_ORDER.num, 4 - kind⟩]
  let down (id : CmdId) (action : Nat) : List Order :=
    match cmdById s id with
    | some c => if shutdownReady s c && c.b 32 1 == action && shutdownStatus c == 0 then halt false (3 - action) else []
    | none => []
  match i with
  | .shutdownHalt id => down id 0
  | .shutdownReset id => down id 1
  | .weirOrderHalt port => halt (port == 1) 3
  | .weirOrderReset port => halt (port == 1) 2
  | .modResetAssert => if s.boot.powered && !s.boot.resetPin then halt true 2 else []
  | .regWrite port a v => if a.width = 4 then writtenOrder s (port == 1) a.addr v else []
  | .groupCommit port a v => writtenOrder s (port == 1) a v
  | .sidebandRegAccess true a v => if a.width = 4 then writtenOrder s false (configBase + a.addr % 2 ^ 22) v else []
  | .mgmtWrite frame =>
    (match requestData s frame with
      | some d => if le frame 0 1 = 2 ∧ le d 0 3 < 2 ^ 22 then writtenOrder s true (configBase + le d 0 3) (le d 3 4) else []
      | none => [])
  | .regReq _ entries => ((entries.filter (fun e => e.op == 1 && e.rsv == 0)).map (fun e => writtenOrder s false e.addr e.value)).flatten
  | _ => []

/-- Island 56's cycle after a command, when it was c before: a window end and a bucket leak let its clock pass on (R426, R482). -/
def cycleAfter (s : State) (c : Nat) (i : Instr) : Nat :=
  let upTo (w : Nat) : Nat := if clockRuns s 56 then (c / w + 1) * w else c
  match i with
  | .bwWindowEnd 56 => upTo (2 ^ min (mget 20 s.counters.win 56) (getF s 56 F.CNT_BW_CFG_WIN))
  | .bucketLeak 56 => upTo (2 ^ getF s 56 F.PROT_CE_CFG_LEAK)
  | _ => c

/-- Orders among commands that wait, each at the cycle of island 56 in which it reaches the arbiter. -/
def ordersAhead (s : State) : Nat → List Instr → List Order
  | _, [] => []
  | c, i :: l => (ordersOf s i).map (fun o => { o with cycle := c }) ++ ordersAhead s (cycleAfter s c i) l

/-- Orders among the commands that wait (DESIGN CHOICE, notes/assumptions 10). -/
def waitingOrders (s : State) : List Order := ordersAhead s (cyc s 56) s.pending

/-- DQP_ARB_LOG records a loss (R68, R90). -/
def logLoss (s : State) (mgmt : Bool) : State := setF (addF s 56 F.DQP_ARB_LOG_SUPERSEDED 1) 56 F.DQP_ARB_LOG_LAST_LOSER (b2n mgmt)

/-- An order reaches the arbiter (R90): it loses to a conflicting order of the window that beats it, one carried out already or
one that waits; and whether it takes effect. One carried out already that it beats has lost, and the loss is recorded. -/
def arbitrate (s : State) (mgmt : Bool) (kind key value : Nat) : State × Bool :=
  let o : Order := ⟨mgmt, cyc s 56, kind, key, value⟩
  let live := s.dqp.orders.filter (fun p => decide (o.cycle ≤ p.cycle + 64) && decide (p.cycle ≤ o.cycle))
  if (live ++ waitingOrders s).any (fun p => o.conflicts p && p.beats o) then (logLoss s mgmt, false)
  else
    let lost (p : Order) : Bool := o.conflicts p && o.beats p
    ((live.filter lost).foldl (fun s p => logLoss s p.mgmt) (updDqp s fun d => { d with orders := live.filter (fun p => !lost p) ++ [o] }), true)

end Sys2Proof.Machine
end

