-- ==== Sys2Proof/Machine/Prot.lean ====
section
/-!
DEFINITION. Machine/Prot.lean: test access to protected arrays: writes, reads and the flash codec through PROT_TCTRL, and the
corruptions that PROT_FLIP_CTRL arms (R411, R412, R427-R429).
-/
namespace Sys2Proof.Machine

/-- Arrays marked Test (R428). -/
def testArray (isl arr : Nat) : Bool :=
  match kindOf isl with
  | .reach => decide (arr ≤ 1)
  | .stack | .flash | .sieve => arr == 0
  | _ => false

/-- Sub-units UNIT may name on an island (R429). -/
def testUnits (isl : Nat) : Nat := match kindOf isl with | .flash => 32 | .sieve => 64 | _ => 1

/-- Bytes of a test array; the spec gives the heaps of a sieve unit no size (DESIGN CHOICE, notes/assumptions 50). -/
def testBytes (isl arr : Nat) : Nat :=
  match kindOf isl with
  | .reach => if arr = 0 then 0x1800000 else 0x600000
  | .stack => 72 * 2 ^ 30
  | .flash => 4112
  | _ => 2 ^ 32

/-- Key of a byte of a test array: the device address in a reach, else the model's own numbering. -/
def testKey (isl arr unit a : Nat) : Nat :=
  if kindOf isl = .reach then reachWindow isl + (if arr = 1 then 0x1800000 else 0) + a else (isl * 64 + unit) * 2 ^ 40 + a

def updProt (s : State) (f : Prot → Prot) : State := { s with prot := f s.prot }

/-- Loopback buffer byte of a channel. -/
def loopKey (isl unit a : Nat) : Nat := (32 * ((flashIndex isl).getD 0) + unit) * 8192 + a

/-- The physical extent that holds a byte of a stack has held data since the stack joined. -/
def extUsed (s : State) (isl a : Nat) : Bool := (mfind s.prot.used ((isl - 32) * 65536 + a / MiB2)).isSome

/-- A test reads a block of a stack that holds what the stack's extents left there when it went out of service: the model keeps
no copy of that (notes/assumptions 50). An invalid granule reads as zeros (R425). -/
def leftOver (s : State) (isl a : Nat) : Bool :=
  kindOf isl == .stack && extUsed s isl a && !inRanges s.prot.tested (testKey isl 0 0 a)

/-- The 64 bytes a test reads. -/
def testRead (s : State) (isl arr unit a : Nat) : List Byte :=
  match kindOf isl with
  | .reach => rdBytes s (testKey isl arr unit a) 64
  | .flash => (List.range 64).map (fun i => mget 0 s.prot.loopback (loopKey isl unit (a + i)))
  | _ => (List.range 64).map (fun i => mget 0 s.prot.arrays (testKey isl arr unit a + i))

/-- The 64 bytes a test writes. In a stack the first write to an invalid granule makes the whole granule valid (R425). -/
def testPut (s : State) (isl arr unit a : Nat) (l : List Byte) : State :=
  let put (m : NMap Byte) (k : Nat) : NMap Byte := (List.range 64).foldl (fun m i => mset 0 m (k + i) (l.getD i 0)) m
  match kindOf isl with
  | .reach => wrBytes s (testKey isl arr unit a) l
  | .flash => updProt s fun p => { p with loopback := put p.loopback (loopKey isl unit a) }
  | .stack =>
    let k := testKey isl arr unit a
    updProt s fun p => { p with
      arrays := put p.arrays k
      tested := if extUsed s isl a then rangeAdd p.tested k (k + 64) else rangeAdd p.tested (k / 4096 * 4096) (k / 4096 * 4096 + 4096) }
  | _ => updProt s fun p => { p with arrays := put p.arrays (testKey isl arr unit a) }

/-- Bytes of a codeword's data: 8 in SEC-DED arrays, 64 in a stack (R411). -/
def wordBytes (isl : Nat) : Nat := if kindOf isl = .stack then 64 else 8

/-- The armed masks: 64 data bits and 32 check bits (R428). -/
def flipMasks (s : State) (isl : Nat) : Nat × Nat :=
  if getF s isl F.PROT_FLIP_CTRL_TARGET = 0 then
    (getF s isl F.PROT_FLIP_DATA_LO_MASK + 2 ^ 32 * getF s isl F.PROT_FLIP_DATA_HI_MASK, 0)
  else (0, getF s isl F.PROT_FLIP_CHECK_MASK)

/-- An armed corruption of the data goes into the loopback buffer with a test write that holds its word; any other stays armed for
the next codec (R428; DESIGN CHOICE, notes/assumptions 50). -/
def armLoop (s : State) (isl unit a : Nat) : State :=
  let w := getF s isl F.PROT_FLIP_CTRL_WORD
  if getF s isl F.PROT_FLIP_CTRL_ARM = 1 ∧ getF s isl F.PROT_FLIP_CTRL_ARRAY = 0 ∧ getF s isl F.PROT_FLIP_CTRL_TARGET = 0 ∧ w < 8 then
    let k := loopKey isl unit (a + 8 * w)
    let m := toBytes 8 (flipMasks s isl).1
    let s := setF s isl F.PROT_FLIP_CTRL_ARM 0
    updProt s fun p => { p with loopback := (List.range 8).foldl (fun l i => mset 0 l (k + i) (mget 0 p.loopback (k + i) ^^^ m.getD i 0)) p.loopback }
  else s

/-- An armed corruption goes into the codewords of a test write: per codeword the inverted data and check bits (R428). -/
def armFlips (s : State) (isl arr unit a : Nat) : State :=
  let n := wordBytes isl
  let keys := (List.range (64 / n)).map (fun i => testKey isl arr unit (a + n * i))
  let s := updProt s fun p => { p with flips := keys.foldl mdel p.flips }
  if getF s isl F.PROT_FLIP_CTRL_ARM = 1 ∧ getF s isl F.PROT_FLIP_CTRL_ARRAY = arr then
    let w := getF s isl F.PROT_FLIP_CTRL_WORD
    let m := flipMasks s isl
    let k := if n = 64 then testKey isl arr unit a else testKey isl arr unit (a + 8 * w)
    let d := if n = 64 then m.1 * 2 ^ (64 * w) else m.1
    let s := setF s isl F.PROT_FLIP_CTRL_ARM 0
    updProt s fun p => { p with flips := if d = 0 ∧ m.2 = 0 then p.flips else mins p.flips k (d, m.2) }
  else s

/-- The window PROT_TDATA. -/
def testWindow (s : State) (isl : Nat) : List Byte := ((List.range 16).map (fun i => toBytes 4 (getF s isl F.PROT_TDATA_DATA i))).flatten
def putWindow (s : State) (isl : Nat) (l : List Byte) : State := (List.range 16).foldl (fun s i => setF s isl F.PROT_TDATA_DATA (le l (4 * i) 4) i) s

/-- Outcome of an operation (R429). -/
def testStatus (s : State) (isl result pos : Nat) : State :=
  setF (setF (setF s isl F.PROT_TSTATUS_RESULT result) isl F.PROT_TSTATUS_DONE 1) isl F.PROT_TSTATUS_POS (min pos 1023)

/-- How a codeword with inverted bits decodes: result and place; none where the code's table (R411) tells nothing. Places: data
bits or bytes first, then check bits or bytes (DEDUCED, notes/assumptions 50). -/
def decodeFlips (isl : Nat) (m : Nat × Nat) : Option (Nat × Nat) :=
  if kindOf isl = .stack then
    let syms := (List.range 64).filter (fun i => bits m.1 (8 * i) 8 != 0) ++ ((List.range 4).filter (fun i => bits m.2 (8 * i) 8 != 0)).map (64 + ·)
    match syms with
    | [] => some (0, 0)
    | [p] => some (1, p)
    | _ => if syms.length ≤ 3 then some (2, 0) else none
  else
    let ps := bitList m.1 64 ++ (bitList m.2 8).map (64 + ·)
    match ps with
    | [] => some (0, 0)
    | [p] => some (1, p)
    | [_, _] => some (2, 0)
    | _ => none

/-- One codeword of a test read: state (free values taken), result, place, data. A word that does not decode reads as free
values. -/
def readWord (s : State) (isl k : Nat) (d : List Byte) : State × Nat × Nat × List Byte :=
  let free (s : State) : State × List Byte :=
    let f := takeFree s
    (f.2, ((List.range (d.length / 8)).map (fun i => toBytes 8 ((f.1.toNat + i * 0x9E3779B97F4A7C15) % 2 ^ 64))).flatten)
  if kindOf isl = .reach ∧ poisoned s k then (s, 3, 0, d)
  else if leftOver s isl (k % 2 ^ 40) then
    let c := takeFree s
    let f := free c.2
    (f.1, c.1.toNat % 4, c.1.toNat / 4 % 68, f.2)
  else
    match decodeFlips isl (mget (0, 0) s.prot.flips k) with
    | some (2, _) => let f := free s; (f.1, 2, 0, f.2)
    | some (r, p) => (s, r, p, d)
    | none =>
      let c := takeFree s
      let f := free c.2
      (f.1, c.1.toNat % 3, c.1.toNat / 4 % (if kindOf isl = .stack then 68 else 72), f.2)

/-- OP 2 (R427): the worst codeword, and the 64 bytes as decoded. -/
def testDecode (s : State) (isl arr unit a : Nat) : State :=
  let n := wordBytes isl
  let raw := testRead s isl arr unit a
  let go := (List.range (64 / n)).foldl (fun (x : State × Nat × Nat × List Byte) i =>
    let r := readWord x.1 isl (testKey isl arr unit (a + n * i)) (slice raw (n * i) n)
    if x.2.1 < r.2.1 then (r.1, r.2.1, r.2.2.1, x.2.2.2 ++ r.2.2.2) else (r.1, x.2.1, x.2.2.1, x.2.2.2 ++ r.2.2.2)) (s, 0, 0, [])
  testStatus (putWindow go.1 isl go.2.2.2) isl go.2.1 go.2.2.1

/-- OP 3 (R412, R427): encode, corrupt and decode the loopback buffer. Where the codeword does not decode, the word that was
corrupted reads as a free value. -/
def testCodec (s : State) (isl unit : Nat) : State :=
  let buf := (List.range 4112).map (fun i => mget 0 s.prot.loopback (loopKey isl unit i))
  let armed := getF s isl F.PROT_FLIP_CTRL_ARM == 1 && getF s isl F.PROT_FLIP_CTRL_ARRAY == 0
  let m := if armed then flipMasks s isl else (0, 0)
  let w := getF s isl F.PROT_FLIP_CTRL_WORD
  let s := if armed then setF s isl F.PROT_FLIP_CTRL_ARM 0 else s
  let n := popCount m.1 64 + popCount m.2 32
  if n = 0 then testStatus s isl 0 0
  else if Config.flashDecodes buf (m.1 * 2 ^ (64 * w)) (m.2 * 2 ^ (32 * w)) then testStatus s isl 1 n
  else
    let f := takeFree s
    let s := if m.1 = 0 then f.2 else updProt f.2 fun p => { p with
      loopback := (List.range 8).foldl (fun l i => mset 0 l (loopKey isl unit (8 * w + i)) ((toBytes 8 f.1.toNat).getD i 0)) p.loopback }
    testStatus s isl 2 0

/-- A write of PROT_TCTRL (R427). A write that orders nothing is one of LK fields: 0x1005 while the unit is busy (R57), and any
write while an operation runs. -/
def writeTctrl (s : State) (isl v : Nat) : State × Nat :=
  let op := bits v 0 2
  let arr := bits v 2 3
  let unit := bits v 5 6
  let a := getF s isl F.PROT_TADDR_LO_ADDR * 64 + 2 ^ 32 * getF s isl F.PROT_TADDR_HI_ADDR
  let set (s : State) : State := setF (setF s isl F.PROT_TCTRL_ARRAY arr) isl F.PROT_TCTRL_UNIT unit
  if testUnits isl ≤ unit then (s, 0x1002)
  else if testOp s isl ≠ 0 then (s, 0x1005)
  else if op = 0 then (if testIdle s isl then (set s, 0) else (s, 0x1005))
  else if testArray isl arr && ((op == 3 && kindOf isl != .flash) || (op != 3 && decide (testBytes isl arr < a + 64))) then (s, 0x1002)
  else if !testArray isl arr then (s, 0x1003)
  else if !outState (testState s isl unit) then (s, 0x1007)
  else
    let s := updProt (set s) fun p => { p with ordered := mins p.ordered isl (cyc s isl, op) }
    (match op with
      | 1 =>
        let s := testPut s isl arr unit a (testWindow s isl)
        testStatus (if kindOf isl = .flash then armLoop s isl unit a else armFlips s isl arr unit a) isl 0 0
      | 2 => if kindOf isl = .flash then testStatus (putWindow s isl (testRead s isl arr unit a)) isl 0 0 else testDecode s isl arr unit a
      | _ => testCodec s isl unit, 0)

/-- A write of PROT_FLIP_CTRL (R428): WORD lies within the codeword; arming asks for a Test array of a unit out of service; a write
that does not arm is one of LK fields: 0x1005 while the unit is busy (R57). -/
def writeFlipCtrl (s : State) (isl v : Nat) : State × Nat :=
  let arr := bits v 0 3
  let target := bits v 3 1
  let word := bits v 4 10
  let set (s : State) : State :=
    setF (setF (setF (setF s isl F.PROT_FLIP_CTRL_ARRAY arr) isl F.PROT_FLIP_CTRL_TARGET target) isl F.PROT_FLIP_CTRL_WORD word)
      isl F.PROT_FLIP_CTRL_ARM (bits v 14 1)
  let words := if kindOf isl = .flash then (if target = 0 then 514 else 124) else 8
  if words ≤ word then (s, 0x1002)
  else if bits v 14 1 = 0 then (if testIdle s isl then (set s, 0) else (s, 0x1005))
  else if !testArray isl arr then (s, 0x1003)
  else if !outState (testState s isl (getF s isl F.PROT_TCTRL_UNIT)) then (s, 0x1007)
  else (set s, 0)

end Sys2Proof.Machine
end

