-- ==== Sys2Proof/Machine/Regs.lean ====
section
/-!
DEFINITION. Machine/Regs.lean: reads and writes of configuration registers from the host, its sideband and the management
port (R2, R8-R12, R49, R62, R63, R489-R493, R497, R507, R516), with the effects the owning chapters give a write.
-/
namespace Sys2Proof.Machine

/-! ### Sensors (R438, R484) -/

/-- Throttle and critical point of a sensor in degrees (R438). -/
def sensorLimits (i : Nat) : Nat × Nat :=
  if i < 60 then (100, 115) else if i < 76 then (95, 105) else if i < 332 then (80, 90) else (45, 60)

/-- Every sensor that has been read is below its throttle point (R440). -/
def allCool (s : State) : Bool :=
  (List.range 333).all (fun i => getF s 59 F.TEL_TEMP_VALID i == 0
    || decide (tempInt (getF s 59 F.TEL_TEMP_TEMP i) < (8 * (sensorLimits i).1 : Nat)))

/-! ### Orders written to WEIR_ORDER (R440-R443, R90) -/

def restart (s : State) : State := if s.boot.fatal ∨ getF s 58 F.IMG_STATUS_SOURCE = 0 then coldStart s else warmStart s

/-- WEIR_ORDER acts at once and reads 0 (R455). -/
def writeOrder (s : State) (mgmt : Bool) (v : Nat) : State × Nat :=
  let s := setF s 59 F.WEIR_ORDER_ORDER 0
  match v with
  | 1 =>
    let r := arbitrate s mgmt 3 R.WEIR_ORDER.num 1
    if !r.2 then (r.1, 0x8001)
    else if [2, 3, 4].contains (mstate s) then (s, 0x1003)
    else (forcedHalt r.1 1 false 0x2008, 0)
  | 2 =>
    let r := arbitrate s mgmt 2 R.WEIR_ORDER.num 2
    if !r.2 then (r.1, 0x8001)
    else if mstate s = 4 then (s, 0x1003)
    else (forcedHalt r.1 1 true 0x2008, 0)
  | 3 => if mstate s ≠ 3 then (s, 0x1003) else if !allCool s then (s, 0x6002) else (restart s, 0)
  | _ => (s, 0)

/-! ### The sideband image (R63) -/

def writeSbCtrl (s : State) (v : Nat) : State × Nat :=
  if getF s 56 F.DQP_SB_IMG_STAT_WAITING = 0 then (s, 0x1003)
  else
    let s := setF s 56 F.DQP_SB_IMG_CTRL_CMD 0
    match v with
    | 1 => (updDqp s fun d => { d with sbImage := [] }, 0)
    | 2 => if s.dqp.sbImage.length ≠ getF s 56 F.DQP_SB_IMG_LEN_LENGTH then (s, 0x1003) else (submitSideband s, 0)
    | _ => (s, 0)

def writeSbData (s : State) (v : Nat) : State × Nat :=
  let n := s.dqp.sbImage.length
  let left := getF s 56 F.DQP_SB_IMG_LEN_LENGTH - n
  if getF s 56 F.DQP_SB_IMG_STAT_WAITING = 0 ∨ left = 0 ∨ (left < 4 ∧ 256 ^ left ≤ v) then (s, 0x1003)
  else (setF (updDqp s fun d => { d with sbImage := d.sbImage ++ (toBytes 4 v).take left }) 56 F.DQP_SB_IMG_DATA_DATA v, 0)

/-! ### Other registers whose write acts -/

/-- TM_CTRL.MODE (R114): a change to hint mode places the mapped objects whose hints name tier 1. -/
def writeTmMode (s : State) (v : Nat) : State :=
  let was := getF s 57 F.TM_CTRL_MODE
  let s := setF s 57 F.TM_CTRL_MODE v
  if was = 0 ∧ bit v 0 then
    s.mem.windows.foldl (fun s w => match findObj s w.nsid w.obj with | some o => if w.dead then s else placeHinted s o | none => s) s
  else s

/-- GO of a commit group (R52); orders for the module cap pass the arbiter (R90). -/
def writeCommit (s : State) (mgmt : Bool) (g : Group) (isl i : Nat) : State × Nat :=
  if !consistent s g isl i then (s, 0x1003)
  else if g.commit = R.WEIR_GROUP_CAP_COMMIT.num then
    let r := arbitrate s mgmt 0 g.commit 1
    if r.2 then commitGroup r.1 g isl i else (r.1, 0x8001)
  else commitGroup s g isl i

/-- Each field written under its own type (R9). -/
def plainWrite (s : State) (isl : Nat) (r : Reg) (i j v : Nat) : State :=
  r.fields.foldl (fun s f =>
    match f.acc with
    | .rw | .st | .lk => setF s isl f (bits v f.lo f.w) i j
    | .w1c => setF s isl f (getF s isl f i j - Nat.land (getF s isl f i j) (bits v f.lo f.w)) i j
    | .ro | .cm => s) s

/-- The effect of an accepted write. -/
def writeEffect (s : State) (mgmt : Bool) (isl : Nat) (r : Reg) (i j v : Nat) : State × Nat :=
  if r.num = R.DQP_CTRL.num then (if bit v 0 then dqpStart s else dqpStop s, 0)
  else if r.num = R.DQP_SB_IMG_CTRL.num then writeSbCtrl s v
  else if r.num = R.DQP_SB_IMG_DATA.num then writeSbData s v
  else if r.num = R.DQP_SB_IMG_LEN.num then
    (if getF s 56 F.DQP_SB_IMG_STAT_WAITING = 0 then (s, 0x1003) else (plainWrite s isl r i j v, 0))
  else if r.num = R.TM_CTRL.num then (writeTmMode s v, 0)
  else if r.num = R.SCHED_CFG.num then (renewLeads (plainWrite s isl r i j v), 0)
  else if r.num = R.PROT_TCTRL.num then writeTctrl s isl v
  else if r.num = R.PROT_FLIP_CTRL.num then writeFlipCtrl s isl v
  else if r.num = R.PROT_STATUS.num then (noteAlert (plainWrite s isl r i j v), 0)
  else if r.num = R.CNT_CTRL.num then writeCntCtrl s isl v
  else if r.num = R.CNT_SMP_TAIL.num then writeSmpTail s isl v
  else if r.num = R.ID_MQ_CTRL.num then (if bit v 0 then mgmtQuoteGo s else s, 0)
  else if r.num = R.WEIR_ORDER.num then writeOrder s mgmt v
  else if r.num = R.WEIR_CAP.num then
    (let a := arbitrate s mgmt 1 r.num v
     if a.2 then (plainWrite a.1 isl r i j v, 0) else (a.1, 0x8001))
  else match groupTable.find? (fun g => g.commit == r.num) with
    | some g => if bit v 0 then writeCommit s mgmt g isl i else (s, 0)
    | none => (plainWrite s isl r i j v, 0)

/-! ### Register access -/

/-- Registers at offsets 0x00 to 0x0F answer in a disabled island too (R49). -/
def answers (s : State) (isl off : Nat) : Bool := present s isl && (enabled s isl || decide (off < 16))

def writeReg (s : State) (mgmt : Bool) (isl off v : Nat) : State × Nat :=
  if !answers s isl off then (s, 0x1004)
  else match findReg isl off with
    | none => (s, 0x1002)
    | some (r, i, j) =>
      if r.owner ≠ .both ∧ r.owner ≠ (if mgmt then .mgmt else .host) then (s, 0x1006)
      else if r.fields.all (fun f => f.acc == .ro) ∨ !legalWord s isl r v then (s, 0x1002)
      else if !lkFree s isl r i then (s, 0x1005)
      else writeEffect s mgmt isl r i j v

def readReg (s : State) (mgmt : Bool) (isl off : Nat) : State × Nat × Nat :=
  if !answers s isl off then (s, 0, 0)
  else match findReg isl off with
    | none => (s, 0, 0)
    | some (r, i, j) =>
      if mgmt && r.hostReadOnly then (s, 0x1006, 0)
      else (latchHi s (b2n mgmt) isl r i, 0, viewReg s (b2n mgmt) isl r i j)

/-- One access of `width` bytes: state, status and value; only aligned 32-bit words are accessed (R8). Before step 4 has applied the image only islands 58 and 59 and the DQP registers
answer the host, and island 59 the management port (R507, R516). -/
def regAccess (s : State) (mgmt write : Bool) (a v : Nat) (width : Nat := 4) : State × Nat × Nat :=
  match islandAt a with
  | none => (s, 0x1002, 0)
  | some (isl, off) =>
    if a % 4 ≠ 0 ∨ width ≠ 4 then (s, 0x1002, 0)
    else if !s.boot.applied && !(isl == 59 || (!mgmt && (isl == 56 || isl == 58))) then (s, 0x1007, 0)
    else if write then
      let r := writeReg s mgmt isl off (v % 2 ^ 32)
      (r.1, r.2, 0)
    else readReg s mgmt isl off

/-- A port can reach configuration space: the sideband once trained, the main link in L0, the bridge while the module is
powered; none while the reset input is held (R62, R503). Ports: 0 host on the main link, 1 management, 2 sideband. -/
def portUp (s : State) (port : Nat) : Bool :=
  s.boot.powered && !(s.boot.resetPin && mstate s == 0)
    && (match port with | 0 => s.link.sbTrained || (s.link.session && s.link.l0) | 1 => true | _ => s.link.sbTrained)

/-- An access as a command of its own: it is answered on its port. -/
def portAccess (s : State) (port : Nat) (write : Bool) (a v : Nat) (width : Nat := 4) : State :=
  if portUp s port then
    let r := regAccess s (port == 1) write a v width
    emit r.1 (.access port a r.2.1 r.2.2)
  else s

/-- Address of a register of an island. -/
def regAddr (isl num i : Nat) : Nat :=
  configBase + isl * 0x10000 + (((regPlaces isl num).find? (fun p => p.2.1 == i)).map (·.1)).getD 0xFFF0

/-- REG_WRITE (R8-R12): a write of the access's width. -/
def execRegWrite (port : Nat) (access : RegAt) (value : Nat) (s : State) : Host.Outcome State Fault Refusal :=
  .next (portAccess s port true access.addr value access.width)

/-- LO_READ_LATCH (R474): a read; the register's other half is latched for the port. -/
def execLoReadLatch (port addr : Nat) (s : State) : Host.Outcome State Fault Refusal := .next (portAccess s port false addr 0)

/-- GROUP_COMMIT (R52): the write of a commit register. -/
def execGroupCommit (port addr value : Nat) (s : State) : Host.Outcome State Fault Refusal := .next (portAccess s port true addr value)

/-- GROUP_ADOPT (R53): the unit whose group has its commit register at `addr` reaches its safe point. -/
def execGroupAdopt (addr : Nat) (s : State) : Host.Outcome State Fault Refusal :=
  .next (
    match islandAt addr with
    | none => s
    | some (isl, off) =>
      match findReg isl off with
      | none => s
      | some (r, i, _) =>
        match groupTable.find? (fun g => g.commit == r.num) with
        | some g => if present s isl then adoptGroup s g isl i else s
        | none => s)

/-- SIDEBAND_REG_ACCESS (R62): bits 21 to 16 of a sideband address name the island. -/
def execSidebandRegAccess (write : Bool) (access : RegAt) (value : Nat) (s : State) : Host.Outcome State Fault Refusal :=
  .next (portAccess s 2 write (configBase + access.addr % 2 ^ 22) value access.width)

def execSbImgOpen (s : State) : Host.Outcome State Fault Refusal := .next (portAccess s 2 true (regAddr 56 R.DQP_SB_IMG_CTRL.num 0) 1)
def execSbImgData (value : Nat) (s : State) : Host.Outcome State Fault Refusal :=
  .next (portAccess s 2 true (regAddr 56 R.DQP_SB_IMG_DATA.num 0) value)
def execSbImgSubmit (s : State) : Host.Outcome State Fault Refusal := .next (portAccess s 2 true (regAddr 56 R.DQP_SB_IMG_CTRL.num 0) 2)

def execDqpEnable (s : State) : Host.Outcome State Fault Refusal := .next (portAccess s 0 true (regAddr 56 R.DQP_CTRL.num 0) 1)
def execDqpDisable (s : State) : Host.Outcome State Fault Refusal := .next (portAccess s 0 true (regAddr 56 R.DQP_CTRL.num 0) 0)

def execTmModeWrite (port value : Nat) (s : State) : Host.Outcome State Fault Refusal :=
  .next (portAccess s port true (regAddr 57 R.TM_CTRL.num 0) value)

/-- PROT_TEST_WRITE: the PROT_TCTRL word with OP 1 (R427). -/
def execProtTestWrite (port island value : Nat) (s : State) : Host.Outcome State Fault Refusal :=
  .next (if bits value 0 2 = 1 then portAccess s port true (regAddr island R.PROT_TCTRL.num 0) value else s)
def execProtTestRead (port island value : Nat) (s : State) : Host.Outcome State Fault Refusal :=
  .next (if bits value 0 2 = 2 then portAccess s port true (regAddr island R.PROT_TCTRL.num 0) value else s)
def execProtTestCodec (port island value : Nat) (s : State) : Host.Outcome State Fault Refusal :=
  .next (if bits value 0 2 = 3 then portAccess s port true (regAddr island R.PROT_TCTRL.num 0) value else s)
def execProtFlipArm (port island value : Nat) (s : State) : Host.Outcome State Fault Refusal :=
  .next (portAccess s port true (regAddr island R.PROT_FLIP_CTRL.num 0) value)

def execWeirOrderHalt (port : Nat) (s : State) : Host.Outcome State Fault Refusal := .next (portAccess s port true (regAddr 59 R.WEIR_ORDER.num 0) 1)
def execWeirOrderReset (port : Nat) (s : State) : Host.Outcome State Fault Refusal := .next (portAccess s port true (regAddr 59 R.WEIR_ORDER.num 0) 2)
def execWeirOrderRestart (port : Nat) (s : State) : Host.Outcome State Fault Refusal := .next (portAccess s port true (regAddr 59 R.WEIR_ORDER.num 0) 3)

/-- COUNTER_ENABLE and COUNTER_CLEAR (R476, R477): the two halves of a CNT_CTRL word, EN and CLEAR. -/
def execCounterEnable (port island value : Nat) (s : State) : Host.Outcome State Fault Refusal :=
  .next (portAccess s port true (regAddr island R.CNT_CTRL.num 0) value)
def execCounterClear (port island value : Nat) (s : State) : Host.Outcome State Fault Refusal :=
  .next (portAccess s port true (regAddr island R.CNT_CTRL.num 0) value)
def execCntSmpTailWrite (port island value : Nat) (s : State) : Host.Outcome State Fault Refusal :=
  .next (portAccess s port true (regAddr island R.CNT_SMP_TAIL.num 0) value)

def execMgmtQuoteRequest (port value : Nat) (s : State) : Host.Outcome State Fault Refusal :=
  .next (portAccess s port true (regAddr 58 R.ID_MQ_CTRL.num 0) value)

end Sys2Proof.Machine
end

