-- ==== Sys2Proof/Machine/Media.lean ====
section
/-!
DEFINITION. Machine/Media.lean: the media commands (11_media_and_compression.md) and SEARCH_CONTENT (R324).
-/
namespace Sys2Proof.Machine

/-- SEARCH_CONTENT (R324). -/
def execSearchContent (c : CmdId) (s : State) : Host.Outcome State Fault Refusal :=
  .next (
    runCmd s c (isOp 0x84) [(32, 36), (68, 1), (72, 16), (96, 26), (124, 4)]
      (fun c => searchConds s c true ++ (match cmdColl s c with
        | none => []
        | some x =>
          let nt := c.b 35 1
          let id := c.b 56 8
          let n := 16 * nt + c.b 64 4
          let o := findObj s c.nsid id
          [cond (decide (5 < c.b 68 1) || (if id = 0 then (c.b 64 4 == 0 || decide (2 ^ 24 < c.b 64 4)) else c.b 64 4 != 0)
             || c.b 72 8 % 8 != 0 || c.b 80 8 % 64 != 0) 0x1002,
           cond (id != 0 && (match o with | some o => (match o.storage with | .host _ => false | .device _ _ => true) | none => true)) 0x1003,
           cond (decide (c.bufBytes < max n (32 + c.b 36 2 * resultSize (bit (c.b 34 1) 2) (c.b 38 2)))) 0x1003,
           cond (decide (n ≤ c.bufBytes) && (termsOf c.data nt).any termBad) 0x1002,
           cond (match o with | some o => id != 0 && o.quarantined | none => false) 0x3001,
           cond (!entryOk s c.dom (c.b 72 8) || !stackRange s c.dom (c.b 80 8) (4 * x.dim)) 0x4004]) ++ decodeConds s c 96 (c.b 68 1) true) fun s c =>
      match cmdColl s c with
      | none => s
      | some x =>
        let nt := c.b 35 1
        let id := s.search.nextQuery
        let s := addQuery s { queryOf c x (termsOf c.data nt) with phase := .content, embedEntry := c.b 72 8, embedAddr := c.b 80 8 }
        let d := decodeOf s c 96 (c.b 68 1) (c.b 56 8)
        addDecode s { d with query := id, content := if c.b 56 8 = 0 then slice c.data (16 * nt) (c.b 64 4) else [] })

/-- MEDIA_DECODE (R336, R337). -/
def execMediaDecode (c : CmdId) (s : State) : Host.Outcome State Fault Refusal :=
  .next (
    let obj (c : Cmd) : Option Obj := (findObj s c.nsid (c.b 32 8)).filter (fun o => match o.storage with | .host _ => true | .device _ _ => false)
    runCmd s c (isOp 0x67) [(32, 26), (60, 4)]
      (fun c => (match obj c with
        | none => [0x1003]
        | some o => [cond o.quarantined 0x3001]) ++ decodeConds s c 32 (((obj c).map (·.mtype)).getD 6) false) fun s c =>
      match findObj s c.nsid (c.b 32 8) with
      | none => s
      | some o => addDecode s { decodeOf s c 32 o.mtype o.id with no := c.no })

/-- Decoders of the kind a media type needs: video 0-3, image 4-11 (R338). -/
def decodersFor (t : Nat) : List Nat := if t = 1 then [4, 5, 6, 7, 8, 9, 10, 11] else [0, 1, 2, 3]

/-- Port of a channel island that a decode's content leaves through: toward its media island, or toward the die of DEST. -/
def contentPort (s : State) (d : Decode) (isl : Nat) : Nat :=
  if d.island = 0 then (dieOfExt s (d.dest / MiB2)).getD 0 else deltaPort 5 d.island isl

/-- DECODE_START (R338): the n-th decode waiting or running takes a free decoder and captures its content and profile; its blocks
are read as READ reads them, clean but where `outs` says otherwise. -/
def execDecodeStart (k : DecodeAt) (s : State) : Host.Outcome State Fault Refusal :=
  .next (
    match s.media.decodes[k.n]? with
    | none => s
    | some d =>
      let img (t : Nat) : Bool := t == 1
      let before := (s.media.decodes.take k.n).any (fun x => x.unit.isNone && coded x.mtype && x.island == d.island && img x.mtype == img d.mtype)
      let unit := if coded d.mtype then
          (if before || !mediaIn s d.island 12 then none else (decodersFor d.mtype).find? (fun u => mediaIn s d.island u && !mediaBusy s d.island u))
        else some 13
      if d.unit.isSome ∨ working s = false ∨ getF s 56 F.DQP_STATUS_PSTATE ≠ 0 then s
      else
        match unit with
        | none => s
        | some u =>
          let cap := profileNow s d.island d.profile
          let go (s : State) (x : List Byte) : State := updMedia s fun m => { m with decodes := updAt m.decodes k.n (fun d => { d with unit := some u, captured := cap, content := x }) }
          if d.obj = 0 then go s d.content
          else
            match findObj s d.nsid d.obj with
            | none => endDecode s k.n { d with unit := some u } ⟨0x1003, 0, [], 0⟩
            | some o =>
              let r := noteRo (unitReads s (unitsIn o 0 o.size) k.outs)
              match objBytes r o 0 o.size with
              | none => endDecode r k.n { d with unit := some u } ⟨0x3001, 0, [], 0⟩
              | some x => flashMoved (go r x) (contentPort s d) (objParts o 0 o.size))

/-- DECODE_COMPLETE (R339, R344): a word of the frame and bitstream buffers may be corrected, or uncorrectable at an output frame, which
ends the decode with 0x4001 (R411, R414, R420). -/
def execDecodeComplete (n : Nat) (fault : FrameUpset) (s : State) : Host.Outcome State Fault Refusal :=
  .next (
    match s.media.decodes[n]? with
    | none => s
    | some d =>
      match d.unit with
      | none => s
      | some u =>
        let ev (ue : Bool) : State := if u < 13 then eventIn s d.island 0 u ue else s
        match fault with
        | .none => endDecode s n d (decodeRun s d none)
        | .fixed => endDecode (ev false) n d (decodeRun s d none)
        | .hit k => endDecode (ev true) n d (decodeRun s d (some k)))

/-- MEDIA_SELF_TEST_DONE (R347, R452). -/
def execMediaSelfTestDone (island unit : Nat) (failed : Bool) (s : State) : Host.Outcome State Fault Refusal :=
  .next (if mediaEnabled s island unit = true ∧ mediaState s island unit = 3 then noteTested (setF s island F.MEDIA_USTATE_BIST_FAIL (b2n failed) unit) island unit (!failed) else s)

/-- MEDIA_DRAIN_COMPLETE (R347): the command that ran on it has finished. -/
def execMediaDrainComplete (island unit : Nat) (s : State) : Host.Outcome State Fault Refusal :=
  .next (if mediaEnabled s island unit = true ∧ mediaState s island unit = 1 ∧ mediaBusy s island unit = false then
      unitMoved (setF s island F.MEDIA_USTATE_STATE 2 unit) else s)

/-- MEDIA_JOIN_COUNT_REACHED (R347): 16 commands without fault. -/
def execMediaJoinCountReached (island unit : Nat) (s : State) : Host.Outcome State Fault Refusal :=
  .next (if mediaEnabled s island unit = true ∧ mediaState s island unit = 4 ∧ 16 ≤ mget 0 s.media.joinCount (island * 16 + unit) then
      unitMoved (setF s island F.MEDIA_USTATE_STATE 0 unit) else s)

end Sys2Proof.Machine
end

