-- ==== Sys2Proof/Machine/Units.lean ====
section
/-!
DEFINITION. Machine/Units.lean: unit states under UNIT_STATE (R134, R135, R170, R330, R347, R372, R437, R452), the reach's
own transitions and faults (R453, R454).
-/
namespace Sys2Proof.Machine

/-! ### Faults of a reach (R454) -/

/-- Unit operations of a context end on every reach with a status. -/
def endUnitOps (s : State) (ctx status : Nat) : State :=
  let s := s.tiles.foldl (fun s t =>
    let mine := (t.2.queue ++ t.2.flight).filter (fun p => p.op.ctx == ctx && p.scaleWrite.isNone)
    let s := updTile s (t.1 / 64) (t.1 % 64) (fun x => { x with
      queue := x.queue.filter (fun p => p.op.ctx != ctx), flight := x.flight.filter (fun p => p.op.ctx != ctx) })
    mine.foldl (fun s p => finishPass s (t.1 / 64) (t.1 % 64) p status) s) s
  s.flume.progs.foldl (fun s e =>
    let mine := e.2.filter (fun p => p.op.ctx == ctx)
    let s := putProgs s e.1 ((getProgs s e.1).filter (fun p => p.op.ctx != ctx))
    mine.foldl (fun s p => completeOp (addF s (e.1 / 16) F.FLUME_PROGRAMS_COUNT 1 (e.1 / 2 % 8)) p.op status) s) s

/-- A context resident on a reach that went OFFLINE by fault becomes IDLE with no save area (R454). -/
def loseContext (s : State) (c : Ctx) (reach status : Nat) : State :=
  let slot := c.slot
  let s := endUnitOps s slot status
  let s := { s with runnels := { s.runnels with
    rills := s.runnels.rills.filter (fun p => p.2.ctx != slot), saved := s.runnels.saved.filter (fun p => p.2.ctx != slot)
    barriers := s.runnels.barriers.filter (fun p => p.1 / 512 != slot) } }
  let s := if c.imgOp = 4 then dropImageOp s c else s
  let launches := ((findCtx s slot).map (·.launches)).getD []
  let s := updCtx s slot (fun c => { c with launches := [] })
  let s := launches.foldl (fun s l => launchEnd s l status reach [] []) s
  let s := freeSave (releaseSlots s c) c
  let s := updCtx s slot (fun c => { c with st := .idle, saving := false, forced := false })
  if c.destroy ≠ 0 then finishDestroy s slot else noteBlock (owe s false) slot

/-- A reach goes OFFLINE by fault: cause 1 thermal, 2 rail (R453, R454). -/
def reachFault (s : State) (r cause : Nat) : State :=
  if 32 ≤ r ∨ enabled s r = false ∨ [0, 1, 4].contains (reachState s r) = false then s
  else
    let s := { s with boot := { s.boot with faulted := setBit s.boot.faulted r true } }
    let s := unitMoved (setF (setF s r F.REACH_STATE_STATE 2) r F.REACH_STATE_CAUSE cause)
    let status := if cause = 1 then 0x6002 else 0x4001
    let s := (s.sched.ctxs.filter (fun c => c.holds && bit c.reaches r)).foldl (fun s c => loseContext s c r status) s
    noteBlocks (clearMem s (reachWindow r) 0x2000000)

/-! ### UNIT_STATE (R452) -/

/-- A unit: kind 0-6, island, number. -/
def unitOf (c : Cmd) : Nat × Nat × Nat := (c.b 32 1, c.b 34 1, c.b 36 2)

/-- The fields name a unit position of an island of the type the kind requires. -/
def unitNamed (u : Nat × Nat × Nat) : Bool :=
  let isl := u.2.1
  decide (isl < 60) &&
  match u.1 with
  | 0 => kindOf isl == .reach && u.2.2 == 0
  | 1 => kindOf isl == .reach && decide (u.2.2 < 48)
  | 2 => kindOf isl == .reach && decide (u.2.2 < 192)
  | 3 => kindOf isl == .stack && u.2.2 == 0
  | 4 => kindOf isl == .flash && decide (u.2.2 < 32)
  | 5 => kindOf isl == .sieve && decide (u.2.2 < 64)
  | 6 => kindOf isl == .media && decide (u.2.2 < 13)
  | _ => false

/-- Channel number of a local channel. -/
def chanNo (isl j : Nat) : Nat := 32 * ((flashIndex isl).getD 0) + j

/-- The unit is present and enabled by the image (R58). -/
def unitEnabled (s : State) (u : Nat × Nat × Nat) : Bool :=
  match u.1 with
  | 0 | 3 => enabled s u.2.1
  | 1 => enabled s u.2.1 && tileEnabled s u.2.1 u.2.2
  | 2 => enabled s u.2.1 && tileEnabled s u.2.1 (u.2.2 / 4)
  | 4 => chEnabled s (chanNo u.2.1 u.2.2)
  | 5 => sieveEnabled s u.2.1 u.2.2
  | _ => mediaEnabled s u.2.1 u.2.2

/-- Tile of a tile or quadrant unit, and the quadrants an order moves. -/
def unitTile (u : Nat × Nat × Nat) : Nat := if u.1 = 1 then u.2.2 else u.2.2 / 4
def unitQuads (u : Nat × Nat × Nat) : List Nat := if u.1 = 1 then [0, 1, 2, 3] else [u.2.2 % 4]

/-- Unit states of what an order moves. -/
def unitStates (s : State) (u : Nat × Nat × Nat) : List Nat :=
  match u.1 with
  | 0 => [reachState s u.2.1]
  | 1 | 2 => (unitQuads u).map (quadState s u.2.1 (unitTile u))
  | 3 => [stkState s (u.2.1 - 32)]
  | 4 => [chState s (chanNo u.2.1 u.2.2)]
  | 5 => [sieveState s u.2.1 u.2.2]
  | _ => [mediaState s u.2.1 u.2.2]

/-- No converter that feeds the unit has tripped since start-up (R451). -/
def unitPowered (s : State) (u : Nat × Nat × Nat) : Bool :=
  match u.1 with
  | 0 | 1 | 2 => !s.boot.rails.contains (0, u.2.1 / 8)
  | 3 => !s.boot.rails.contains (0, (u.2.1 - 32) / 4) && !s.boot.rails.contains (1, u.2.1 - 32)
  | 4 => !s.boot.rails.contains (2, chanNo u.2.1 u.2.2)
  | _ => true

/-- The last self-test of the unit has finished and passed; a stack needs none (R134, R170, R372, R453). DESIGN CHOICE
(notes/assumptions 44): none passes without power (R451). -/
def unitPassed (s : State) (u : Nat × Nat × Nat) : Bool :=
  unitPowered s u &&
  match u.1 with
  | 0 => getF s u.2.1 F.REACH_STATE_BIST_DONE == 1 && getF s u.2.1 F.REACH_STATE_BIST_FAIL == 0
  | 1 | 2 => (unitQuads u).all (fun q =>
      bit (getF s u.2.1 F.TILE_QSTATE_BIST_DONE (unitTile u)) q && !bit (getF s u.2.1 F.TILE_QSTATE_BIST_FAIL (unitTile u)) q)
  | 3 => true
  | 4 => (mfind s.flash.chTest (chanNo u.2.1 u.2.2)).isSome
  | _ => (mfind s.media.tested (u.2.1 * 64 + u.2.2)).isSome

/-- Unit states each order leaves, by kind; tiles, sieve and media units join from TESTING, and a test may be run again
where the table says so (R134, R170, R372, R453). -/
def orderFrom (kind order : Nat) : List Nat :=
  match order with
  | 0 => [0]
  | 1 => if kind = 1 ∨ kind = 2 ∨ kind = 5 ∨ kind = 6 then [2, 3] else [2]
  | 2 => if kind = 1 ∨ kind = 2 ∨ kind = 5 ∨ kind = 6 then [3] else [2, 3]
  | _ => [3]

/-- Floor credits fit in the budget before compute is served: what floors and storage leave of the last B (R434, R437). -/
def joinFits (s : State) (isl : Nat) : Bool :=
  clockRuns s isl ||
    (let storage := (((List.range 12).map (48 + ·)).filter (enabled s)).map (fun i => getF s 59 F.WEIR_GRANT_GRANT i - floorCredit i)
     decide (floorSum s + storage.foldl (· + ·) 0 + floorCredit isl ≤ getF s 59 F.WEIR_BUDGET_QUANTA))

/-- Conditions every order shares (R452). DESIGN CHOICE (notes/assumptions 32): an order for a whole tile wants all four
quadrants in its From state. -/
def unitConds (s : State) (c : Cmd) (order : Nat) : List Nat :=
  let u := unitOf c
  if !unitNamed u then [0x1002]
  else if !unitEnabled s u then [0x1004]
  else [cond (!(unitStates s u).all (orderFrom u.1 order).contains || (order == 2 && !unitPassed s u)) 0x1003]

def setUnit (s : State) (u : Nat × Nat × Nat) (v : Nat) : State :=
  match u.1 with
  | 0 => setF { s with boot := { s.boot with faulted := setBit s.boot.faulted u.2.1 false } } u.2.1 F.REACH_STATE_STATE v
  | 1 | 2 => (unitQuads u).foldl (fun s q => setQuad s u.2.1 (unitTile u) q v) s
  | 3 => setF s u.2.1 F.STK_STATE_STATE v
  | 4 => setChState s (chanNo u.2.1 u.2.2) v
  | 5 => setF s u.2.1 F.SIEVE_USTATE_STATE v u.2.2
  | _ => setF s u.2.1 F.MEDIA_USTATE_STATE v u.2.2

/-- An order moves a unit to a state (R276, R452). -/
def orderUnit (s : State) (u : Nat × Nat × Nat) (v : Nat) : State := unitMoved (setUnit s u v)

/-- Extents that a stack's drain would have to move (R135). -/
def drainFits (s : State) (stack : Nat) : Bool :=
  decide (usedExts s stack ≤ ((otherStacks s stack).map (freeExts s)).foldl (· + ·) 0)

def unitFields : List (Nat × Nat) := [(32, 1), (33, 1), (34, 1), (36, 2)]

/-- Orders to one unit run in arrival order (R452). -/
def sameUnit (x c : Cmd) : Bool := x.opcode == 0x0C && c.opcode == 0x0C && unitOf x == unitOf c

/-- A UNIT_STATE order of one kind; a reserved ORDER is refused with the last. -/
def runOrder (s : State) (c : CmdId) (order : Nat) (conds : Cmd → List Nat) (body : State → Cmd → State) : State :=
  if behind s c sameUnit then s else runCmd s c (fun c => isOp 0x0C c && min (c.b 33 1) 3 == order) unitFields
    (fun c => cond (decide (3 < c.b 33 1)) 0x1002 :: unitConds s c order ++ conds c) body

/-- UNIT_DRAIN (R452). A stack first releases its unpinned frames, and stays ONLINE where the rest finds no room (R135);
passes queued for a tile still run (R170); a reach's residents leave (R453); open stripes with a member on a channel take
nothing more (R372, R396); pools queued on a sieve unit go to others (R330). -/
def execUnitDrain (c : CmdId) (s : State) : Host.Outcome State Fault Refusal :=
  .next (runOrder s c 0 (fun _ => []) fun s c =>
    let u := unitOf c
    match u.1 with
    | 3 =>
      let s := releaseUnpinned s (u.2.1 - 32)
      if drainFits s (u.2.1 - 32) then complete (orderUnit s u 1) c.no 0 1 else complete s c.no 0x2001 0 0 1
    | 1 | 2 =>
      let s := updTile s u.2.1 (unitTile u) (fun t => { t with queue := t.queue.map (fun p => { p with grand := true }) })
      complete (orderUnit s u 1) c.no 0 1
    | 0 => complete (noteBlocks (evictDraining (orderUnit s u 1))) c.no 0 1
    | 4 =>
      let open' := s.flash.stripes.filter (fun x => !x.sealed && x.members.any (fun m => m.chan == chanNo u.2.1 u.2.2))
      complete (orderUnit ((open'.map (·.id)).foldl sealStripe s) u 1) c.no 0 1
    | 5 => complete (moveOff (orderUnit s u 1) u.2.1 u.2.2 true) c.no 0 1
    | _ => complete (orderUnit s u 1) c.no 0 1)

/-- The result of the last self-test is gone: a new one runs. -/
def clearTest (s : State) (u : Nat × Nat × Nat) : State :=
  match u.1 with
  | 0 => setF (setF s u.2.1 F.REACH_STATE_BIST_DONE 0) u.2.1 F.REACH_STATE_BIST_FAIL 0
  | 1 | 2 => (unitQuads u).foldl (fun s q =>
      setFBit (setFBit s u.2.1 F.TILE_QSTATE_BIST_DONE q false (unitTile u)) u.2.1 F.TILE_QSTATE_BIST_FAIL q false (unitTile u)) s
  | 3 => s
  | 4 =>
    let c := chanNo u.2.1 u.2.2
    setF (updFlash s fun f => { f with chTest := mdel f.chTest c }) u.2.1 F.FCH_CSTATE_BIST_FAIL 0 u.2.2
  | 5 => noteTested (setF s u.2.1 F.SIEVE_USTATE_BIST_FAIL 0 u.2.2) u.2.1 u.2.2 false
  | _ => noteTested (setF s u.2.1 F.MEDIA_USTATE_BIST_FAIL 0 u.2.2) u.2.1 u.2.2 false

/-- UNIT_TEST (R452): the self-test starts, or starts again. -/
def execUnitTest (c : CmdId) (s : State) : Host.Outcome State Fault Refusal :=
  .next (runOrder s c 1 (fun _ => []) fun s c =>
    complete (clearTest (orderUnit s (unitOf c) 3) (unitOf c)) c.no 0 3)

/-- What entering JOINING does: valid bits of a reach or stack cleared, counts of clean work from 0, the scan of a channel
with a line test of the cause it finds (R138, R170, R366, R372, R424). -/
def joinUnit (s : State) (u : Nat × Nat × Nat) (fault : LineFault) (sensed : List Sensed) (marked : List (Nat × Nat × Nat)) : State :=
  match u.1 with
  | 0 => updProt (clearMem s (reachWindow u.2.1) 0x2000000) fun p => { p with
      flips := p.flips.filter (fun x => decide (x.1 < reachWindow u.2.1) || decide (reachWindow u.2.1 + 0x2000000 ≤ x.1)) }
  | 1 | 2 => updTile s u.2.1 (unitTile u) (fun t => { t with joins := (unitQuads u).foldl (fun l q => l.set q 0) t.joins })
  | 3 => updProt (setF s u.2.1 F.STK_STATE_JOIN_STEP 0) fun p => { p with
      arrays := p.arrays.filter (fun x => x.1 / 2 ^ 40 / 64 != u.2.1), flips := p.flips.filter (fun x => x.1 / 2 ^ 40 / 64 != u.2.1)
      tested := rangeDel p.tested (testKey u.2.1 0 0 0) (testKey u.2.1 0 1 0), used := p.used.filter (fun x => x.1 / 65536 != u.2.1 - 32) }
  | 4 =>
    let c := chanNo u.2.1 u.2.2
    let s := lineTest s c fault.cause fault.die
    if chState s c ≠ 4 then s
    else
      let s := scanChannel sensed marked s c
      let left := ((s.flash.stripes.filter (·.sealed)).map (fun x =>
        (x.members.zipIdx.filter (fun m => m.1.chan == c)).map (fun m => (x.id, m.2)))).flatten
      noteRo (updFlash s fun f => { f with joinLeft := (f.joinLeft ++ left).eraseDups })
  | 5 => { s with media := { s.media with sieveJoin := mdel s.media.sieveJoin (u.2.1 * 64 + u.2.2) } }
  | _ => { s with media := { s.media with joinCount := mdel s.media.joinCount (u.2.1 * 16 + u.2.2) } }

/-- UNIT_JOIN (R437, R452). `fault`, `sensed`, `marked`: what a channel's line test and scan find (R352, R366, R370). -/
def execUnitJoin (c : CmdId) (fault : LineFault) (sensed : List Sensed) (marked : List (Nat × Nat × Nat)) (s : State) : Host.Outcome State Fault Refusal :=
  .next (runOrder s c 2 (fun c => [cond (decide ((unitOf c).2.1 < 60) && !joinFits s (unitOf c).2.1) 0x6001]) fun s c =>
    let u := unitOf c
    complete (noteBlocks (joinUnit (orderUnit s u 4) u fault sensed marked)) c.no 0 4)

/-- UNIT_OFFLINE (R452); raw reads queued on a channel end (R373). -/
def execUnitOffline (c : CmdId) (s : State) : Host.Outcome State Fault Refusal :=
  .next (runOrder s c 3 (fun _ => []) fun s c =>
    let u := unitOf c
    let s := orderUnit s u 2
    let s := if u.1 = 4 then (List.range 16).foldl (fun s d => endDie s (chanNo u.2.1 u.2.2) d) s else s
    complete s c.no 0 2)

/-! ### The reach's own events (R453) -/

/-- REACH_SELF_TEST_DONE (R453). -/
def execReachSelfTestDone (reach : Nat) (failed : Bool) (s : State) : Host.Outcome State Fault Refusal :=
  .next (if 32 ≤ reach ∨ enabled s reach = false ∨ reachState s reach ≠ 3 then s
    else setF (setF s reach F.REACH_STATE_BIST_DONE 1) reach F.REACH_STATE_BIST_FAIL (b2n failed))

/-- REACH_DRAIN_COMPLETE (R453): both residency slots are free. -/
def execReachDrainComplete (reach : Nat) (s : State) : Host.Outcome State Fault Refusal :=
  .next (if 32 ≤ reach ∨ enabled s reach = false ∨ reachState s reach ≠ 1 ∨ s.sched.ctxs.any (fun c => c.holds && bit c.reaches reach) = true then s
    else noteBlocks (unitMoved (setF s reach F.REACH_STATE_STATE 2)))

/-- REACH_JOIN_QUANTUM (R453). -/
def execReachJoinQuantum (reach : Nat) (s : State) : Host.Outcome State Fault Refusal :=
  .next (if 32 ≤ reach ∨ enabled s reach = false ∨ reachState s reach ≠ 4 then s else noteBlocks (unitMoved (setF s reach F.REACH_STATE_STATE 0)))

end Sys2Proof.Machine
end

