-- ==== Sys2Proof/Machine/Weir.lean ====
section
/-!
DEFINITION. Machine/Weir.lean: the power arbiter of island 59: renegotiation (R433-R435), current and thermal limits
(R438-R440), rails, input and hold-up bank (R447-R451), the module reset pin (R503).
-/
namespace Sys2Proof.Machine

/-! ### Temperatures (R438-R440) -/

/-- Island a sensor belongs to (R484); none for the coolant inlet. -/
def sensorIsland (i : Nat) : Option Nat :=
  if i < 60 then some i else if i < 76 then some (i - 28)
  else if i < 332 then [48, 49, 52, 53][(i - 76) / 64]? else none

/-- A sensor of an island at or above a bound in eighths of a degree below its throttle point. -/
def sensorAbove (s : State) (isl margin : Nat) (strict : Bool) : Bool :=
  (List.range 332).any (fun i => sensorIsland i == some isl && getF s 59 F.TEL_TEMP_VALID i == 1 &&
    (let t := tempInt (getF s 59 F.TEL_TEMP_TEMP i) + (margin : Int)
     let p : Int := ((8 * (sensorLimits i).1 : Nat) : Int)
     if strict then decide (p < t) else decide (p ≤ t)))

def setPeak (s : State) (isl v : Nat) : State :=
  let s := { s with weir := { s.weir with peaks := s.weir.peaks.set isl v } }
  setF s 59 F.WEIR_GRANT_THROTTLED (b2n (decide (v < peakCredit isl))) isl

def peakOf (s : State) (isl : Nat) : Nat := s.weir.peaks.getD isl 0

/-- PEAK while a sensor is above its throttle point: 7/8 of the last grant (R439). -/
def throttlePeak (s : State) (isl : Nat) : State :=
  if sensorAbove s isl 0 true then setPeak s isl (getF s 59 F.WEIR_GRANT_GRANT isl * 7 / 8) else s

/-- PEAK at a renegotiation: reduced, held, or restored by 1/8 once every sensor is 3 degrees below its point (R439). -/
def renewPeak (s : State) (isl : Nat) : State :=
  if sensorAbove s isl 0 true then throttlePeak s isl
  else if peakOf s isl < peakCredit isl ∧ sensorAbove s isl 24 true = false then
    setPeak s isl (min (peakCredit isl) (peakOf s isl + peakCredit isl / 8))
  else s

/-- A sensor is read (R484); COOL_ALERT_N follows the inlet's throttle point (R509). -/
def readSensor (s : State) (i t : Nat) : State :=
  let s := setTemp s i t (sensorLimits i).1 (sensorLimits i).2
  if i = 332 then { s with mgmt := { s.mgmt with coolAlert := getF s 59 F.TEL_TEMP_THROT 332 == 1 } } else s

def atCritical (i t : Nat) : Bool := decide (((8 * (sensorLimits i).2 : Nat) : Int) ≤ tempInt t)

/-- The sensor exists on an enabled island. -/
def sensorThere (s : State) (i : Nat) : Bool :=
  s.boot.powered && decide (i < 333) && (match sensorIsland i with | some n => enabled s n || mstate s == 3 | none => true)

/-- THERMAL_THROTTLE (R438, R439): a reading below the critical point. A HALTED module holds no grants to reduce. -/
def execThermalThrottle (sensor temp : Nat) (s : State) : Host.Outcome State Fault Refusal :=
  .next (
    if !sensorThere s sensor || (atCritical sensor temp && sensor != 332) then s
    else
      let s := readSensor s sensor temp
      match sensorIsland sensor with
      | some n => if mstate s = 3 then s else throttlePeak s n
      | none => s)

/-- COOL_TEMP in millivolts: 0.5 V and 10 mV for a degree from 0 to 100; 0 while the module is unpowered (R509). -/
def coolTemp (s : State) : Nat :=
  if !s.boot.powered then 0 else 500 + 10 * min 800 (tempInt (getF s 59 F.TEL_TEMP_TEMP 332)).toNat / 8

/-- REACH_CRITICAL (R440, R454). -/
def execReachCritical (reach temp : Nat) (s : State) : Host.Outcome State Fault Refusal :=
  .next (if 32 ≤ reach ∨ sensorThere s reach = false ∨ atCritical reach temp = false then s
    else reachFault (readSensor s reach temp) reach 1)

/-- THERMAL_ABORT (R440); the coolant's reading has stood for one second. -/
def execThermalAbort (sensor temp : Nat) (s : State) : Host.Outcome State Fault Refusal :=
  .next (if sensor < 32 ∨ sensorThere s sensor = false ∨ atCritical sensor temp = false then s
    else forcedHalt (readSensor s sensor temp) 3 false 0x6002)

/-! ### Renegotiation (R433-R435, R439, R484, R485) -/

/-- The least cap a commit accepts (R435): room for floors and host die. -/
def minCap (s : State) : Nat := ceilDiv (1000 * (floorSum s + getF s 59 F.WEIR_LIMITS_HOST_DIE_QUANTA)) 1828

/-- THERM_W by the coolant inlet's reading (R439). -/
def thermW (s : State) : Nat :=
  let rated := ratedW s.variant
  if getF s 59 F.TEL_TEMP_VALID 332 = 0 then rated
  else
    let excess := (tempInt (getF s 59 F.TEL_TEMP_TEMP 332) - 360).toNat
    max (minCap s) (if 120 ≤ excess then rated / 4 else rated - rated * 3 * excess / 480)

/-- One round of a class: each island short of its request gets a quantum, lowest number first, while any is left.
Entries: island, grant, what it may have. -/
def shareRound : List (Nat × Nat × Nat) → Nat → List (Nat × Nat × Nat) × Nat
  | [], b => ([], b)
  | (i, g, w) :: l, b =>
    if g < w ∧ 0 < b then
      let r := shareRound l (b - 1)
      ((i, g + 1, w) :: r.1, r.2)
    else
      let r := shareRound l b
      ((i, g, w) :: r.1, r.2)

def shareClass : Nat → List (Nat × Nat × Nat) → Nat → List (Nat × Nat × Nat) × Nat
  | 0, l, b => (l, b)
  | n + 1, l, b =>
    if 0 < b ∧ l.any (fun e => decide (e.2.1 < e.2.2)) = true then
      let r := shareRound l b
      shareClass n r.1 r.2
    else (l, b)

/-- The grants of R434 from a budget: islands 48-59 before 0-47. -/
def grants (s : State) (requests : List Nat) (budget : Nat) : List (Nat × Nat) :=
  let entry (i : Nat) : Nat × Nat × Nat :=
    let r := min (max (requests.getD i 0) (floorCredit i)) (peakCredit i)
    (i, floorCredit i, min r (peakOf s i))
  let cls (lo n : Nat) : List (Nat × Nat × Nat) := (((List.range n).map (lo + ·)).filter (enabled s)).map entry
  let a := shareClass 200 (cls 48 12) (budget - floorSum s)
  let b := shareClass 200 (cls 0 48) a.2
  (b.1 ++ a.1).map (fun e => (e.1, e.2.1))

/-- Sets an island's clock level; a change shows in the bandwidth window (R482). -/
def setLevel (s : State) (isl v : Nat) : State :=
  let s := if getF s 59 F.WEIR_GRANT_LEVEL isl = v % 16 then s
    else countEv { s with counters := { s.counters with lvlChanged := setBit s.counters.lvlChanged isl true } } isl 0x05 0 1
  setF s 59 F.WEIR_GRANT_LEVEL v isl

/-- An island takes its grant. At its floor credit it runs at level 0 (R433), with its full peak credit at its nominal clock,
level 15 (R17); between them at the highest level whose estimated draw fits, a value the spec does not state (free). -/
def takeGrant (requests : List Nat) (s : State) (g : Nat × Nat) : State :=
  let i := g.1
  let s := setF s 59 F.WEIR_GRANT_GRANT g.2 i
  let s := setF s 59 F.WEIR_GRANT_REQUEST (min (max (requests.getD i 0) (floorCredit i)) (peakCredit i)) i
  let s := setF s 59 F.WEIR_GRANT_AT_FLOOR (b2n (g.2 == floorCredit i)) i
  if g.2 = floorCredit i then setLevel s i 0
  else if g.2 = peakCredit i then setLevel s i 15
  else
    let f := takeFree s
    setLevel f.2 i f.1.toNat

/-- Input energy of one period of 20 microseconds (R485). -/
def addEnergy (s : State) (volt current : Nat) : State :=
  let u := s.weir.energyRest + volt * current
  { s with weir := { s.weir with energyRest := u % 5000 }
           counters := { s.counters with energy := min (s.counters.energy + u / 5000) (2 ^ 64 - 1) } }

/-- What island 59 measures in every period of 20 microseconds while the module is powered (R485). -/
def measureInput (s : State) (volt current host : Nat) : State :=
  let s := setF (setF s 59 F.WEIR_INPUT_VOLT volt) 59 F.WEIR_INPUT_CURRENT current
  addEnergy (setF (setF s 59 F.TEL_MODULE_INPUT_W (volt * current / 100)) 59 F.TEL_MODULE_HOST_DW host) volt current

/-- WEIR_RENEGOTIATE (R433-R435, R439, R485): `requests` and `draws` of the islands in quanta, input voltage and current in
tenths, the host die's draw in tenths of a watt. A pending cap is adopted first; before
the image is applied the period is measured only. -/
def execWeirRenegotiate (requests draws : List Nat) (volt current host : Nat) (s : State) : Host.Outcome State Fault Refusal :=
  .next (
    let s := if s.boot.powered then measureInput (passTo s 59 ((cyc s 59 / 30000 + 1) * 30000)) volt current host else s
    if !s.boot.powered || !s.boot.applied then s
    else
      let s := match groupTable.find? (fun g => g.commit == R.WEIR_GROUP_CAP_COMMIT.num) with
        | some g => if getF s 59 g.pending = 1 then adoptSet s g 59 0 else s
        | none => s
      let s := (List.range 60).foldl (fun s i => if enabled s i then renewPeak (setF s 59 F.TEL_POWER_DRAW (draws.getD i 0) i) i else s) s
      let s := setF s 59 F.WEIR_THERM_THERM_W (thermW s)
      let cap := 100 * getA s 59 F.WEIR_CAP_CAP_W
      let lim := volt * getF s 59 F.WEIR_LIMITS_INPUT_LIMIT_DA
      let thr := 100 * thermW s
      let p := min cap (min lim thr)
      let s := setF (setF (setF s 59 F.WEIR_STATUS_CAP_BOUND (b2n (p == cap))) 59 F.WEIR_STATUS_INPUT_BOUND (b2n (p == lim)))
        59 F.WEIR_STATUS_THERM_BOUND (b2n (p == thr))
      let budget := p * 1828 / 100000 - getF s 59 F.WEIR_LIMITS_HOST_DIE_QUANTA
      let s := setF s 59 F.WEIR_BUDGET_QUANTA budget
      let low := ((List.range 60).filter (fun i => enabled s i && decide (peakOf s i < peakCredit i))).length
      let s := countEv (countEv s 59 0x7C 0 1) 59 0x7D 0 low
      (grants s requests budget).foldl (takeGrant requests) s)

/-- CURRENT_OVER_GRANT (R433): the island steps down a level. -/
def execCurrentOverGrant (island draw : Nat) (s : State) : Host.Outcome State Fault Refusal :=
  .next (
    if !s.boot.applied || !enabled s island || decide (draw ≤ getF s 59 F.WEIR_GRANT_GRANT island) then s
    else setLevel s island (getF s 59 F.WEIR_GRANT_LEVEL island - 1))

/-! ### Rails, input and hold-up bank (R447-R451) -/

/-- A converter stays off until the next start-up (R451). -/
def tripRail (s : State) (rail index : Nat) : State := { s with boot := { s.boot with rails := (s.boot.rails ++ [(rail, index)]).eraseDups } }

/-- CONVERTER_TRIP (R451). Rails: 0 Thiarn core of a die, 1 memory stack, 2 NAND supply of a channel, 3 Delta die, 4 Headwater
die, 5 host-die site. -/
def execConverterTrip (rail index : Nat) (s : State) : Host.Outcome State Fault Refusal :=
  .next (
    if !s.boot.powered then s
    else match rail with
      | 0 =>
        if 4 ≤ index then s
        else
          let s := (List.range 8).foldl (fun s k => reachFault s (8 * index + k) 2) (tripRail s 0 index)
          (List.range 4).foldl (fun s k => stackFault s (4 * index + k)) s
      | 1 => stackFault (tripRail s 1 index) index
      | 2 =>
        let s := tripRail s 2 index
        if chEnabled s index ∧ [0, 1, 4].contains (chState s index) then channelFault s index 7 0 else s
      | 3 | 4 =>
        let k := if rail = 4 then 2 else index % 2
        if bit s.boot.feedTrips k then fatalHalt s
        else
          let s := { s with boot := { s.boot with feedTrips := setBit s.boot.feedTrips k true } }
          forcedHalt (noteAlert (setF s 59 F.WEIR_STATUS_FEED_FAULT 1)) 4 false 0x2008
      | 5 =>
        let s := updLink s fun l => { l with l0 := false, sbTrained := false }
        forcedHalt (endSession (dqpStop s)) 6 false 0x2008
      | _ => s)

/-- POWER_FAIL_DETECT (R447). -/
def execPowerFailDetect (s : State) : Host.Outcome State Fault Refusal := .next (powerFail s)
/-- OVER_VOLTAGE and OVER_CURRENT (R450): the input is disconnected and the power-fail sequence runs. -/
def execOverVoltage (s : State) : Host.Outcome State Fault Refusal := .next (powerFail s)
def execOverCurrent (s : State) : Host.Outcome State Fault Refusal := .next (powerFail s)

/-- HOLDUP_MEASURE (R449). -/
def execHoldupMeasure (energy : Nat) (s : State) : Host.Outcome State Fault Refusal :=
  .next (if !s.boot.powered then s
    else noteAlert (setF (setF s 59 F.WEIR_HOLDUP_ENERGY_J (min energy 255)) 59 F.WEIR_HOLDUP_DEGRADED (b2n (decide (energy < 12)))))

/-- FATAL_ERROR (R420, R444). -/
def execFatalError (s : State) : Host.Outcome State Fault Refusal := .next (fatalHalt s)

/-! ### MOD_RESET_N (R503) -/

/-- MOD_RESET_ASSERT: a reset order of the management side for the two-master rule. -/
def execModResetAssert (s : State) : Host.Outcome State Fault Refusal :=
  .next (
    if !s.boot.powered ∨ s.boot.resetPin then s
    else
      let r := arbitrate s true 2 R.WEIR_ORDER.num 2
      if r.2 then forcedHalt { r.1 with boot := { r.1.boot with resetPin := true } } 1 true 0x2008 else r.1)

def execModResetRelease (s : State) : Host.Outcome State Fault Refusal :=
  .next { s with boot := { s.boot with resetPin := false } }

end Sys2Proof.Machine
end

