-- ==== Sys2Proof/Machine/Power.lean ====
section
/-!
DEFINITION. Machine/Power.lean: the power states of SET_POWER (R86-R89) and SHUTDOWN (R442).
-/
namespace Sys2Proof.Machine

/-! ### SET_POWER (R86-R89) -/

def setPwr (s : State) (m : PwrMove) : State :=
  setF (updDqp s fun d => { d with pwr := m }) 56 F.DQP_STATUS_PS_BUSY (b2n (m != .none))

/-- Residents leave for a DP2 entry, in slot order, until the headgate refuses one: the DETAIL of R120 (R89, R278). -/
def saveResidents : List Ctx → State → State × Option Nat
  | [], s => (s, none)
  | c :: l, s =>
    if c.st = .resident then
      match beginLeave s c true with
      | (s, .error e) => (s, some e)
      | (s, .ok _) => saveResidents l s
    else saveResidents l s

/-- CONTEXT_RESTORE_COMPLETE (R279). A context that becomes resident during a DP2 entry leaves again at once; a save area that
is refused ends the entry (R89, R270, R281). -/
def execContextRestoreComplete (ctx : Finding Nat) (s : State) : Host.Outcome State Fault Refusal :=
  .next (
    match findCtx s ctx.of with
    | none => s
    | some c =>
      if c.st ≠ .entering then s
      else
        let s := restored s c ctx.bad ctx.fixed
        match s.dqp.pwr with
        | .entering 2 prior no _ _ =>
          (match saveResidents ((findCtx s ctx.of).toList) s with
           | (s, some e) => complete (setPwr s .none) no 0x2001 prior 0 e
           | (s, none) => s)
        | _ => s)

/-- SET_POWER (R86, R89); it starts once no other movement is under way. -/
def execSetPower (c : CmdId) (s : State) : Host.Outcome State Fault Refusal :=
  .next (
    if s.dqp.pwr ≠ .none then s
    else runCmd s c (isOp 0x08) [(32, 1)]
      (fun c => [cond (decide (3 < c.b 32 1)) 0x1002, cond (c.b 32 1 == 3 && !s.sched.ctxs.isEmpty) 0x1003]) fun s c =>
      let t := c.b 32 1
      let now := getF s 56 F.DQP_STATUS_PSTATE
      if t = now then complete s c.no 0 now
      else if t < now then setPwr s (.exiting t (some c.no))
      else if t = 2 then
        match saveResidents s.sched.ctxs s with
        | (s, some e) => complete s c.no 0x2001 now 0 e
        | (s, none) => suspendErases (setPwr s (.entering t now c.no false none))
      else setPwr s (.entering t now c.no false none))

/-- An entry may pass its point of no return: for DP2 every context is saved, no die runs an operation, and none but erases
is suspended (R86). -/
def mayPass (s : State) (target : Nat) : Bool :=
  target != 2 || (s.sched.ctxs.all (fun c => !c.holds) && s.flash.dies.all (fun d => d.2.run.isNone && d.2.st != .psusp))

/-- Registers of island 56 that an exit from DP3 without lowering the link keeps: those of DQP. -/
def dqpKey (k : Nat) : Bool := k / 2 ^ 31 == 56 && decide (R.DQP_CTRL.num ≤ k / 2 ^ 22 % 512) && decide (k / 2 ^ 22 % 512 ≤ R.DQP_SB_IMG_RESULT.num)

/-- DP3 is reached (R86, R441): buffers flushed; HALTED, or, when a command arrived after the point of no return, a restart
at step 4 that keeps link and queues (R87). -/
def enterDp3 (s : State) (no : Nat) (late : Bool) : State :=
  let s := complete (flushBuffers s) no 0 3
  let h := haltedState s
  if late then
    let w := warmStart h
    setF (setPwr { w with link := s.link, dqp := s.dqp, regs := (s.regs.filter (fun p => dqpKey p.1)).foldl (fun m p => mins m p.1 p.2) w.regs } .none)
      56 F.DQP_STATUS_RDY 0
  else h

/-- POWER_STATE_ENTERED (R86, R87): first the point of no return, then the end of the entry. -/
def execPowerStateEntered (pastPoint : Bool) (s : State) : Host.Outcome State Fault Refusal :=
  .next (
    match s.dqp.pwr with
    | .entering t prior no ponr ex =>
      if !pastPoint then
        if ponr || !mayPass s t then s
        else
          let s := setPwr s (.entering t prior no true ex)
          if t = 3 then noteAlert (setF (setMstate s 2) 59 F.WEIR_STATUS_HALT_CAUSE 2) else s
      else if !ponr then s
      else if t = 3 then enterDp3 s no ex.isSome
      else
        let s := complete (setF s 56 F.DQP_STATUS_PSTATE t) no 0 t
        match ex with
        | some w => setPwr s (.exiting w none)
        | none => setPwr (if t = 2 then updLink s fun l => { l with l0 := false } else s) .none
    | _ => s)

/-- POWER_STATE_EXITED (R86-R88): the state left for; what was held runs on. -/
def execPowerStateExited (s : State) : Host.Outcome State Fault Refusal :=
  .next (
    match s.dqp.pwr with
    | .exiting t no =>
      let s := setF (setPwr s .none) 56 F.DQP_STATUS_PSTATE t
      let s := match no with | some n => complete s n 0 t | none => s
      let s := if t < 2 then resumeDies s else s
      noteBlocks (if s.sched.ctxs.isEmpty then s else owe s false)
    | _ => s)

/-! ### SHUTDOWN (R442, R90, R91) -/

/-- SHUTDOWN with an ACTION: 0 halt, 1 reset. -/
def shutdown (s : State) (id : CmdId) (action : Nat) : State :=
  match cmdById s id with
  | none => s
  | some c =>
    if shutdownReady s c && c.b 32 1 == action then
      let force := c.b 33 1
      let st := shutdownStatus c
      if st ≠ 0 then complete s c.no st
      else
        let r := arbitrate s false (if action = 0 then 3 else 2) R.WEIR_ORDER.num (action + 1)
        let won := markStarted r.1 c.no
        if !r.2 then complete r.1 c.no 0x8001
        else if mstate s ≠ 2 then haltBegins won 1 (action == 1) 0x2008 (force == 1)
        else if action = 1 then
          let s := { won with boot := { won.boot with haltReset := true } }
          if force = 1 then haltEnds s 0x2008 else s
        else complete s c.no 0x1003
    else s

def execShutdownHalt (c : CmdId) (s : State) : Host.Outcome State Fault Refusal := .next (shutdown s c 0)
def execShutdownReset (c : CmdId) (s : State) : Host.Outcome State Fault Refusal := .next (shutdown s c 1)

/-- SHUTDOWN_WAIT_EXPIRE (R442 step 2). -/
def execShutdownWaitExpire (s : State) : Host.Outcome State Fault Refusal :=
  .next (if mstate s = 2 ∧ s.boot.haltWait then haltEnds s 0x2008 else s)

/-- HALT_FLUSH_COMPLETE (R441, R442 steps 4 and 5): once the started commands have ended. -/
def execHaltFlushComplete (s : State) : Host.Outcome State Fault Refusal :=
  .next (
    if mstate s ≠ 2 ∨ enteringDp3 s = true ∨ (s.boot.haltWait = true ∧ s.dqp.cmds.any (fun c => c.phase == .started && !c.isShutdown) = true) then s
    else haltOver s)

end Sys2Proof.Machine
end

