-- ==== Sys2Proof/Machine/LinkX.lean ====
section
/-!
DEFINITION. Machine/LinkX.lean: the receiving side of the main link (R61, R64-R67, R71, R519, R522): sessions, the tests of a
received flit, doorbells, register batches and pulled data, NAKs and replay.
-/
namespace Sys2Proof.Machine

/-! ### ACK, credit, NAK, replay (R66, R519) -/

/-- Sends a replay: held flits with the current ACK and credit. -/
def replay (s : State) (l : List Flit) : State :=
  let s := l.foldl (fun s f => countEv (emit s (.flit (stamp s.link f).wire)) 56 0x61 0 1) s
  if l.isEmpty then s else updLink s fun k => { k with ackSent := ackNow k, freedSent := k.freed }

/-- Held flits after an acknowledgement: those up to and including the number named are released. -/
def releaseTo (l : List Flit) (ack : Nat) : List Flit :=
  if l.any (fun f => f.seq == ack) then (l.dropWhile (fun f => f.seq != ack)).drop 1 else l

/-- Takes ACK and CREDIT from a flit with a good CRC (R519). -/
def takeBack (s : State) (ack credit : Nat) : State :=
  updLink s fun l =>
    let d := (credit % 256 + 256 - l.k % 256) % 256
    { l with held := releaseTo l.held ack, credits := l.credits + d, k := (l.k + d) % 2 ^ 32 }

def badType (s : State) : State := addF s 56 F.DQP_LINK_ERR_BAD_TYPE 1

/-- A NAK naming the next expected number, at most one for a number within 1,024 cycles (R66). -/
def sendNak (s : State) : State :=
  let n := s.link.rxSeq
  let again := match s.link.lastNak with | some (m, c) => m == n && decide (cyc s 56 < c + 1024) | none => false
  if again then s
  else sendBare (updLink s fun l => { l with lastNak := some (n, cyc s 56) }) 1 ([1, 0] ++ toBytes 2 n ++ [0, 0])

/-- The link can bring a flit: a session in L0. -/
def linkOpen (s : State) : Bool := s.boot.powered && s.link.session && s.link.l0

/-! ### What accepted flits do (R65, R67, R71) -/

/-- Records a doorbell entry that is ignored (R71). -/
def badDoorbell (s : State) (qid kind : Nat) (bad : Bool) : State :=
  setF (setF (setF (setF s 56 F.DQP_STATUS_DB_ERR 1) 56 F.DQP_DB_ERR_QID (qid % 1024)) 56 F.DQP_DB_ERR_KIND kind) 56 F.DQP_DB_ERR_BAD_ENTRY (b2n bad)

/-- One entry of a DOORBELL (R71): an SQ tail, or a CQ head no further than the device's tail. -/
def ringEntry (s : State) (e : DbEntry) : State :=
  if 2 ≤ e.kind ∨ e.rsv ≠ 0 then badDoorbell s e.qid 0 true
  else if e.kind = 0 then
    match findSq s e.qid with
    | some q => if q.entries ≤ e.value then badDoorbell s e.qid 0 false else updSq s e.qid (fun q => { q with tail := e.value })
    | none => badDoorbell s e.qid 0 false
  else
    match findCq s e.qid with
    | some q =>
      if q.entries ≤ e.value ∨ (q.tail + q.entries - q.head) % max q.entries 1 < (e.value + q.entries - q.head) % max q.entries 1 then
        badDoorbell s e.qid 1 false
      else drainAll (updCq s e.qid (fun q => { q with head := e.value }))
    | none => badDoorbell s e.qid 1 false

/-- One entry of a REG_REQ and its 16 bytes of answer (R65, R519). -/
def regEntry (s : State) (e : RegEntry) : State × List Byte :=
  let r := if 2 ≤ e.op ∨ e.rsv ≠ 0 then (s, 0x1002, 0) else regAccess s false (e.op == 1) e.addr e.value
  (r.1, toBytes 8 e.addr ++ toBytes 2 r.2.1 ++ [0, 0] ++ toBytes 4 r.2.2)

def regBatch : List RegEntry → State → List Byte → State × List Byte
  | [], s, d => (s, d)
  | e :: l, s, d =>
    let r := regEntry s e
    regBatch l r.1 (d ++ r.2)

/-- The work of an accepted flit. -/
def doHostFlit (s : State) (f : HostFlit) : State :=
  match f with
  | .doorbell es => es.foldl ringEntry s
  | .regReq es =>
    let r := regBatch es s []
    sendFlit r.1 4 es.length [0, 0, 0, 0, 0, 0] r.2
  | .pullData off req d => pullArrive (portBytes s 56 0 d.length) off req d

/-- Does the waiting work, oldest first, while the device may queue flits; each frees its receive buffer (R522). -/
def drainRx : Nat → State → State
  | 0, s => s
  | n + 1, s =>
    match s.link.rxBuf with
    | [] => s
    | f :: l =>
      if linkRoom s then drainRx n (doHostFlit (updLink s fun k => { k with rxBuf := l, freed := (k.freed + 1) % 2 ^ 32 }) f) else s

/-- After any change of the link: queued flits leave, completions that waited are posted, waiting work is done. -/
def settleLink (s : State) : State :=
  let s := drainAll (pump s)
  drainRx (s.link.rxBuf.length + 1) s

/-- Where the tests of R66 put a sequenced flit: 1 duplicate, 2 ahead, 3 without credit, 4 malformed, 5 accepted. -/
def flitTest (l : Link) (seq : Nat) (formOk : Bool) : Nat :=
  let behind := (l.rxSeq + 4096 - seq % 4096) % 4096
  if 1 ≤ behind ∧ behind ≤ 2048 then 1
  else if behind ≠ 0 then 2
  else if 256 ≤ l.rxBuf.length then 3
  else if formOk then 5 else 4

/-- A sequenced flit with a good CRC (R66). -/
def receive (s : State) (h : FlitHdr) (formOk : Bool) (f : HostFlit) : State :=
  if linkOpen s = false then s
  else
    let s := countEv (takeBack s h.ack h.credit) 56 0x60 0 1
    settleLink (
      match flitTest s.link h.seq formOk with
      | 1 => s
      | 2 => sendNak s
      | 3 => badType s
      | 4 => badType (updLink s fun l => { l with rxSeq := (l.rxSeq + 1) % 4096, freed := (l.freed + 1) % 2 ^ 32 })
      | _ => updLink s fun l => { l with rxSeq := (l.rxSeq + 1) % 4096, rxBuf := l.rxBuf ++ [f] })

/-! ### The commands -/

/-- LINK_TRAINED (R61, R62, R445, R519, R522): the sideband in step 1, or the main link from step 4 on, which begins a session
with INIT or continues the one there is. -/
def execLinkTrained (sideband : Bool) (s : State) : Host.Outcome State Fault Refusal :=
  .next (
    let st := getF s 59 F.WEIR_STATUS_STEP
    if !s.boot.powered ∨ mstate s = 3 ∨ mstate s = 4 ∨ (s.boot.resetPin ∧ mstate s = 0) then s
    else if sideband then updLink s fun l => { l with sbTrained := true }
    else if s.link.modules = 0 ∨ (mstate s = 0 ∧ st < 4) then s
    else if s.link.session then settleLink (updLink s fun l => { l with l0 := true })
    else
      let s := updLink s fun l => { l with
        session := true, l0 := true, hostInit := false, txSeq := 0, rxSeq := 0, credits := 0, k := 0, freed := 0, ackSent := 4095
        freedSent := 0, held := [], rxBuf := [], lastNak := none }
      sendBare s 1 ([0, 0] ++ toBytes 2 256 ++ [0, 0]))

/-- Bytes of a LEN within the ranges of R66 test 4, for host types. -/
def rawFormOk (ty len : Nat) : Bool :=
  match ty with
  | 2 => decide (1 ≤ len) && decide (len ≤ 30)
  | 3 => decide (1 ≤ len) && decide (len ≤ 15)
  | 6 => decide (1 ≤ len) && decide (len ≤ 240)
  | _ => false

/-- FLIT_REJECTED (R66, R519): the 256 bytes of a flit that is not accepted; one that would be is left to its own command. -/
def execFlitRejected (raw : List Byte) (s : State) : Host.Outcome State Fault Refusal :=
  .next (
    if linkOpen s = false ∨ raw.length ≠ 256 then s
    else if crc32c (raw.take 252) ≠ le raw 252 4 then sendNak (addF s 56 F.DQP_LINK_ERR_CRC_ERR 1)
    else
      let ty := le raw 0 1
      let seq := le raw 248 2 % 4096
      let ack := le raw 249 2 / 16
      let h : FlitHdr := ⟨seq, ack, le raw 251 1⟩
      if ty = 0 ∨ (ty = 1 ∧ le raw 2 1 < 2) then s
      else if ty = 1 then settleLink (badType (countEv (takeBack s ack h.credit) 56 0x60 0 1))
      else if flitTest s.link seq (rawFormOk ty (le raw 1 1)) = 5 then s
      else receive s h false (.doorbell []))

/-- IDLE (R519): ACK, and F whole. -/
def execIdle (ack freed : Nat) (s : State) : Host.Outcome State Fault Refusal :=
  .next (
    if linkOpen s = false then s
    else
      settleLink (updLink s fun l =>
        let d := (freed % 2 ^ 32 + 2 ^ 32 - l.k) % 2 ^ 32
        { l with held := releaseTo l.held ack, credits := l.credits + d, k := freed % 2 ^ 32 }))

/-- INIT (R519): the first of a session sets the credit count; a later one is counted. -/
def execInit (ack credit buffers : Nat) (s : State) : Host.Outcome State Fault Refusal :=
  .next (
    if linkOpen s = false then s
    else
    let s := countEv s 56 0x60 0 1
    if s.link.hostInit then settleLink (badType (takeBack s ack credit))
    else settleLink (takeBack (updLink s fun l => { l with hostInit := true, credits := buffers % 65536, k := 0 }) ack credit))

/-- NAK (R66, R519). -/
def execNak (ack credit number : Nat) (s : State) : Host.Outcome State Fault Refusal :=
  .next (
    if linkOpen s = false then s
    else
      let s := countEv (takeBack s ack credit) 56 0x60 0 1
      let l := s.link
      settleLink (
        if l.held.any (fun f => f.seq == number) then
          (let again := l.held.dropWhile (fun f => f.seq != number)
           replay (countEv s 56 0x64 0 again.length) again)
        else if number = l.txSeq then s
        else badType s))

/-- DOORBELL (R65, R66, R71). -/
def execDoorbell (hdr : FlitHdr) (entries : List DbEntry) (s : State) : Host.Outcome State Fault Refusal :=
  .next (receive s hdr (rawFormOk 2 entries.length) (.doorbell entries))

/-- REG_REQ (R62, R65, R66). -/
def execRegReq (hdr : FlitHdr) (entries : List RegEntry) (s : State) : Host.Outcome State Fault Refusal :=
  .next (receive s hdr (rawFormOk 3 entries.length) (.regReq entries))

/-- PULL_DATA (R65-R67). -/
def execPullData (hdr : FlitHdr) (offset reqId : Nat) (data : List Byte) (s : State) : Host.Outcome State Fault Refusal :=
  .next (receive s hdr (rawFormOk 6 data.length) (.pullData offset reqId data))

/-- REPLAY_TIMEOUT (R66). -/
def execReplayTimeout (s : State) : Host.Outcome State Fault Refusal :=
  .next (if linkOpen s = false then s else replay s s.link.held)

/-- IDLE_DUE (R519). -/
def execIdleDue (s : State) : Host.Outcome State Fault Refusal :=
  .next (if linkOpen s = false then s else sendBare s 0 ([0, 0] ++ toBytes 4 s.link.freed))

/-- LANE_REPAIR (R61, R522): a module is repaired, or leaves the link; the link leaves L0 to retrain. -/
def execLaneRepair (mdl : Nat) (repaired : Bool) (s : State) : Host.Outcome State Fault Refusal :=
  .next (
    if 4 ≤ mdl ∨ bit s.link.lostModules mdl then s
    else
      let lost := if repaired then s.link.lostModules else setBit s.link.lostModules mdl true
      updLink s fun l => { l with l0 := false, lostModules := lost, modules := 4 - popCount lost 4 })

end Sys2Proof.Machine
end

