-- ==== Sys2Proof/Machine/Mgmt.lean ====
section
/-!
DEFINITION. Machine/Mgmt.lean: the management port on SMBus or I3C (R504-R507) and the JTAG chain (R510, R511).
-/
namespace Sys2Proof.Machine

/-! ### Requests (R506, R507) -/

/-- The bridge answers: powered, and VDD_MGMT is 1.8 V where the mode is I3C (R504). -/
def bridgeUp (s : State) : Bool := portUp s 1 && !(s.boot.i3c && s.boot.vdd33)

/-- The port answers transactions: in I3C mode once it has a dynamic address (R505). -/
def mgmtUp (s : State) : Bool := bridgeUp s && (!s.boot.i3c || s.mgmt.dyn.isSome)

/-- A request: executed through the bridge, or discarded (R506, R507). ADDR bits 23 and 22 are outside the island spaces. -/
def mgmtRequest (s : State) (frame : List Byte) : State :=
  match requestData s frame with
  | none => { s with mgmt := { s.mgmt with state := 3, status := 0x1002, value := 0 } }
  | some d =>
    let a := le d 0 3
    let seq := (s.mgmt.seq + 1) % 256
    let r := if 2 ^ 22 ≤ a then (s, 0x1002, 0) else regAccess s true (le frame 0 1 == 2) (configBase + a) (le d 3 4)
    { r.1 with mgmt := { r.1.mgmt with seq := seq, state := 0, status := r.2.1, value := if r.2.1 = 0 then r.2.2 else 0 } }

/-- MGMT_READ (R506, R507); a reserved code is discarded here too. -/
def execMgmtRead (frame : List Byte) (s : State) : Host.Outcome State Fault Refusal :=
  .next (if mgmtUp s ∧ le frame 0 1 ≠ 2 then mgmtRequest s frame else s)

/-- MGMT_WRITE (R506, R507). -/
def execMgmtWrite (frame : List Byte) (s : State) : Host.Outcome State Fault Refusal :=
  .next (if mgmtUp s ∧ le frame 0 1 = 2 then mgmtRequest s frame else s)

/-- The bytes of a response as the mode frames them (R506, R507). -/
def responseBytes (s : State) : List Byte :=
  let m := s.mgmt
  let d := toBytes 1 m.seq ++ toBytes 1 m.state ++ toBytes 2 m.status ++ toBytes 4 m.value
  if s.boot.i3c then d
  else
    let b := toBytes 1 8 ++ d
    b ++ toBytes 1 (pec (toBytes 1 (2 * portAddr s) ++ [0x80] ++ toBytes 1 (2 * portAddr s + 1) ++ b))

/-- MGMT_RESPONSE (R506): the controller reads `n` bytes. -/
def execMgmtResponse (n : Nat) (s : State) : Host.Outcome State Fault Refusal :=
  .next (if mgmtUp s then emit s (.mgmt ((responseBytes s).take n)) else s)

/-! ### I3C addresses (R505) -/

def setDyn (s : State) (d : Option Nat) : State := { s with mgmt := { s.mgmt with dyn := d } }

/-- SETDASA (R505): names the static address; for a port without a dynamic address (PRESUMED, I3C Basic). -/
def execSetdasa (static dyn : Nat) (s : State) : Host.Outcome State Fault Refusal :=
  .next (if bridgeUp s ∧ s.boot.i3c ∧ static = portAddr s ∧ s.mgmt.dyn = none then setDyn s (some (dyn % 128)) else s)

/-- ENTDAA (R505). -/
def execEntdaa (dyn : Nat) (s : State) : Host.Outcome State Fault Refusal :=
  .next (if bridgeUp s ∧ s.boot.i3c ∧ s.mgmt.dyn = none then setDyn s (some (dyn % 128)) else s)

/-- RSTDAA (R505). -/
def execRstdaa (s : State) : Host.Outcome State Fault Refusal :=
  .next (if bridgeUp s ∧ s.boot.i3c then setDyn s none else s)

/-! ### JTAG (R510, R511) -/

/-- TAPs in the chain: Headwater, both Deltas, the present Thiarn dies. -/
def tapCount (s : State) : Nat := 3 + ((List.range 4).filter (fun d => present s (8 * d))).length

def tapOk (s : State) (tap : Nat) : Bool := s.boot.powered && decide (tap < tapCount s)

def updJtag (s : State) (f : Jtag → Jtag) : State := { s with jtag := f s.jtag }

def tapId (tap : Nat) : Nat := if tap = 0 then 0x1914014B else if tap ≤ 2 then 0x1914114B else 0x1914214B

def natBits (n v : Nat) : List Bool := (List.range n).map (bit v)

/-- Loads an instruction, while the register shifts out what it captured; boundary pins the TAP drove are released (R511). -/
def loadIr (s : State) (tap code : Nat) : State :=
  emit (updJtag s fun j => { j with ir := j.ir.set tap code, driven := j.driven.set tap [] }) (.jtag (natBits 8 1))

/-- IDCODE (R511): the identification register is shifted out. -/
def execJtagIdcode (tap : Nat) (s : State) : Host.Outcome State Fault Refusal :=
  .next (if tapOk s tap then emit (loadIr s tap 1) (.jtag (natBits 32 (tapId tap))) else s)

/-- BYPASS (R511): code 0xFF and every code without another meaning. -/
def execJtagBypass (tap code : Nat) (s : State) : Host.Outcome State Fault Refusal :=
  .next (if tapOk s tap ∧ ¬ (1 ≤ code ∧ code ≤ 3) then loadIr s tap (code % 256) else s)

/-- SAMPLE/PRELOAD (R511): cells are preloaded while HALTED; otherwise it acts as BYPASS. -/
def execJtagSamplePreload (tap : Nat) (shifted : List Bool) (s : State) : Host.Outcome State Fault Refusal :=
  .next (
    if !tapOk s tap then s
    else if mstate s = 3 then updJtag (loadIr s tap 2) fun j => { j with cells := j.cells.set tap shifted }
    else loadIr s tap 2)

/-- EXTEST (R511): drives the cells while HALTED, those shifted in or, with none shifted, those preloaded. -/
def execJtagExtest (tap : Nat) (shifted : List Bool) (s : State) : Host.Outcome State Fault Refusal :=
  .next (
    if !tapOk s tap then s
    else if mstate s = 3 then
      let cells := if shifted.isEmpty then s.jtag.cells.getD tap [] else shifted
      updJtag (loadIr s tap 3) fun j => { j with cells := j.cells.set tap cells, driven := j.driven.set tap cells }
    else loadIr s tap 3)

/-- TRST_N_ASSERT (R510): every TAP is in reset; its instruction is IDCODE (PRESUMED, IEEE 1149.1). -/
def execTrstNAssert (s : State) : Host.Outcome State Fault Refusal := .next { s with jtag := {} }

end Sys2Proof.Machine
end

