-- ==== Sys2Proof/Machine/Object.lean ====
section
/-!
DEFINITION. Machine/Object.lean: the object-table commands (R297-R303).
-/
namespace Sys2Proof.Machine

/-- A host-stored media type (R298). -/
def hostType (t : Nat) : Bool := decide (t ≤ 6) || t == 10

/-- Extents of an OBJ_REGISTER's buffer: SLBA, NLB, reserved. -/
def regExtents (c : Cmd) : List (Nat × Nat × Nat) :=
  (List.range (c.b 44 4)).map (fun i => (le c.data (64 + 16 * i) 8, le c.data (72 + 16 * i) 4, le c.data (76 + 16 * i) 4))

/-- The 16 attribute fields of a 64-byte array. -/
def attrFields (d : List Byte) : List Nat := (List.range 16).map (fun f => le d (4 * f) 4)

/-- OBJ_REGISTER (R300). -/
def execObjRegister (c : CmdId) (s : State) : Host.Outcome State Fault Refusal :=
  .next (runCmd s c (isOp 0x40) [(32, 9), (44, 12)]
    (fun c =>
      let ok := decide (c.b 44 4 ≤ 4096) && c.bufBytes == 64 + 16 * c.b 44 4
      let es := if ok then regExtents c else []
      [cond (!idOk (c.b 32 8) || c.b 44 4 == 0 || decide (4096 < c.b 44 4) || c.b 48 8 == 0) 0x1002,
       cond (c.bufBytes != 64 + 16 * c.b 44 4) 0x1003, cond (!hostType (c.b 40 1)) 0x1003, cond (!idFree s c.nsid (c.b 32 8)) 0x1003,
       cond (es.any (fun e => e.2.2 != 0 || decide (nsBlocks s c.nsid < e.1 + e.2.1))) 0x1002,
       cond (ok && decide (4096 * (es.map (·.2.1)).foldl (· + ·) 0 < c.b 48 8)) 0x1002,
       cond (decide (2 ^ 32 ≤ s.search.objs.length)) 0x2007]) fun s c =>
    let o : Obj :=
      { deviceObj c.nsid (c.b 32 8) (c.b 40 1) (c.b 48 8) 0 0 with
        storage := .host ((regExtents c).map (fun e => (e.1, e.2.1))), attrs := attrFields c.data }
    complete (updSearch s fun x => { x with objs := x.objs ++ [o] }) c.no 0)

/-- OBJ_SET_ATTR (R301). -/
def execObjSetAttr (c : CmdId) (s : State) : Host.Outcome State Fault Refusal :=
  .next (runCmd s c (isOp 0x41) [(32, 10)]
    (fun c => [cond (findObj s c.nsid (c.b 32 8)).isNone 0x1003, cond (c.bufBytes != 64) 0x1003]) fun s c =>
    let new := attrFields c.data
    complete (updObj s c.nsid (c.b 32 8) (fun o => { o with
      attrs := (List.range 16).map (fun f => if bit (c.b 40 2) f then new.getD f 0 else o.attrs.getD f 0) })) c.no 0)

/-- Pools of the namespace's collections that hold members (R302). -/
def livePools (s : State) (nsid : Nat) : List (Nat × Nat) :=
  ((s.search.colls.filter (fun x => x.nsid == nsid)).map (fun x => (x.pools.filter (fun p => !p.members.isEmpty)).map (fun p => (x.no, p.no)))).flatten

/-- Deleting this object needs a tombstone (R302). -/
def needsTomb (s : State) (o : Obj) : Bool :=
  (match o.storage with | .host _ => true | .device _ _ => false) && !(livePools s o.nsid).isEmpty

/-- OBJ_DELETE (R302): the entry goes at once, the completion after the sweeps in progress. -/
def execObjDelete (c : CmdId) (s : State) : Host.Outcome State Fault Refusal :=
  .next (runCmd s c (isOp 0x42) [(32, 8)]
    (fun c => match findObj s c.nsid (c.b 32 8) with
      | none => [0x1003]
      | some o => [cond (o.mtype == 8 || o.mtype == 9) 0x1003, cond (s.sched.ctxs.any (fun x => x.nsid == o.nsid && x.curImage == o.id)) 0x1003,
          cond (needsTomb s o && decide (262144 ≤ s.search.tombs.length)) 0x2007]) fun s c =>
    match findObj s c.nsid (c.b 32 8) with
    | none => s
    | some o =>
      let s := if needsTomb s o then updSearch s fun x => { x with tombs := x.tombs ++ [⟨o.nsid, o.id, livePools s o.nsid⟩] } else s
      let s := removeObj s o
      let ws := s.search.sweeps.map (·.seq)
      if ws.isEmpty then complete s c.no 0 else updSearch s fun x => { x with deletes := x.deletes ++ [(c.no, ws)] })

/-- OBJ_LOOKUP (R303). -/
def execObjLookup (c : CmdId) (s : State) : Host.Outcome State Fault Refusal :=
  .next (runCmd s c (isOp 0x43) [(32, 8)]
    (fun c => [cond (findObj s c.nsid (c.b 32 8)).isNone 0x1003, roomFor c 128]) fun s c =>
    match findObj s c.nsid (c.b 32 8) with
    | none => s
    | some o =>
      let ext := match o.storage with | .host l => l | .device _ _ => []
      let rec' := toBytes 8 o.id ++ toBytes 1 o.mtype ++ toBytes 1 (b2n o.quarantined) ++ toBytes 2 0 ++ toBytes 4 ext.length ++ toBytes 8 o.size
        ++ toBytes 8 (windowAddr s o.nsid o.id 0) ++ ((List.range 16).map (fun f => toBytes 4 (o.attrs.getD f 0))).flatten ++ toBytes 32 0
      let more := (ext.take ((c.bufBytes - 128) / 16)).map (fun e => toBytes 8 e.1 ++ toBytes 4 e.2 ++ toBytes 4 0)
      complete (toHost s c (rec' ++ more.flatten)) c.no 0)

end Sys2Proof.Machine
end

