-- ==== Sys2Proof/Machine/RillCtl.lean ====
section
/-!
DEFINITION. Machine/RillCtl.lean: branches, exits and synchronisation (R224, R225, R235, R236).
-/
namespace Sys2Proof.Machine

/-- The pc `n` instructions away. -/
def pcPlus (a : Nat) (n : Int) : Nat := wrap 64 ((a : Int) + 8 * n)

/-- BRA (R224). -/
def execRillBra (r : RillAt) (s : State) : Host.Outcome State Fault Refusal :=
  .next (issue s r (· == 0xA0) fun s i =>
    guardFmt s i (fD i.w == 0 && fA i.w == 0) <|
    guardUpset s i r.upset false fun s =>
    let q := i.r
    let taken := thMask i.ts
    let rc := pcPlus q.pc (fReconv i.w)
    if taken = 0 then .done s q
    else if taken = q.active then .stay s { q with pc := pcPlus q.pc (fTarget i.w) }
    else if 30 < q.stack.length then .stop s 0x1008 taken 0
    else
      .stay s { q with
        stack := (q.pc + 8, q.active - taken, rc) :: (rc, q.active, q.rcv) :: q.stack
        active := taken, pc := pcPlus q.pc (fTarget i.w), rcv := rc })

/-- Entries of a divergence stack without some threads. -/
def stripStack (m : Nat) (l : List (Nat × Nat × Nat)) : List (Nat × Nat × Nat) :=
  l.map (fun e => (e.1, e.2.1 - (e.2.1 &&& m), e.2.2))

/-- A rill without a thread left ends (R215, R225). -/
def reapRill (s : State) (k : Nat) : State :=
  match getRill s k with
  | some q =>
    if q.active = 0 ∧ q.stack = [] then
      noteBlock (updLaunch (dropRill s k) q.ctx q.launch (fun l => { l with running := l.running - 1, ended := l.ended + 1 })) q.ctx
    else s
  | none => s

/-- EXIT (R225): the executing threads leave every mask; the rill ends when none remains (R215). -/
def execRillExit (r : RillAt) (s : State) : Host.Outcome State Fault Refusal :=
  .next (reapRill (issue s r (· == 0xA1) fun s i =>
    guardFmt s i (fD i.w == 0 && fA i.w == 0) <|
    guardUpset s i r.upset false fun s =>
    let m := thMask i.ts
    let act := i.r.active - (i.r.active &&& m)
    let st := stripStack m i.r.stack
    if act ≠ 0 then .done s { i.r with active := act, stack := st }
    else
      match st.dropWhile (fun e => e.2.1 == 0) with
      | (pc, mk, rc) :: rest => .stay s { i.r with pc := pc, active := mk, rcv := rc, stack := rest }
      | [] => .stay s { i.r with active := 0, stack := [] }) (rillKey r.reach r.runnel r.slot))

/-- The barriers the executing threads name, with their count, in thread order: none when two threads give one barrier
different counts (R235). -/
def barrierGroups (i : Issue) : Option (List (Nat × Nat × Nat)) :=
  i.ts.foldl (fun acc th =>
    match acc with
    | none => none
    | some l =>
      let b := i.r.get th (fA i.w) % 16
      let c := i.r.get th (fB i.w)
      match l.find? (fun x => x.1 == b) with
      | none => some (l ++ [(b, c, 1)])
      | some x => if x.2.1 = c then some (l.map (fun y => if y.1 = b then (b, c, y.2.2 + 1) else y)) else none) (some [])

/-- Arrival of an instruction's threads at their barriers: the state, and the barriers whose phase is still open. -/
def arriveAll (s : State) (i : Issue) (l : List (Nat × Nat × Nat)) : State × List Nat :=
  l.foldl (fun acc g =>
    let x := arrive i.r.ctx i.r.launch i.reach g.1 g.2.1 (g.2.2 + 1) g.2.2 acc.1
    (x.1, if x.2 then acc.2 ++ [g.1] else acc.2)) (s, [])

/-- The shared checks of BARSYNC and BARARRIVE: poisoned operands, counts of 1 to 4,096, one count per phase (R235, R237). -/
def barrierOp (s : State) (at' : RillAt) (op : Nat) (wait : Bool) : State :=
  issue s at' (· == op) fun s i =>
    guardFmt s i (bits i.w 44 20 == 0 && fMod i.w == 0) <|
    guardUpset s i at'.upset false fun s =>
    guardPoison s i (fun th => i.r.bad th (fA i.w) || i.r.bad th (fB i.w)) <|
    let out := i.ts.filter (fun th => i.r.get th (fB i.w) == 0 || decide (4096 < i.r.get th (fB i.w)))
    if out ≠ [] then .stop s 0x1002 (thMask out) 0
    else
      match barrierGroups i with
      | none => .stop s 0x1003 (thMask i.ts) 0
      | some l =>
        let bad := l.filter (fun g =>
          let x := mget ({} : Barrier) s.runnels.barriers (barKey i.r.ctx i.reach g.1)
          decide (0 < x.count) && x.count != g.2.1)
        if bad ≠ [] then .stop s 0x1003 (thMask (i.ts.filter (fun th => bad.any (fun g => g.1 == i.r.get th (fA i.w) % 16)))) 0
        else
          let x := arriveAll s i l
          if wait ∧ x.2 ≠ [] then .stay x.1 { i.r with wait := .barrier x.2 } else .done x.1 i.r

/-- BARSYNC (R235). -/
def execRillBarsync (r : RillAt) (s : State) : Host.Outcome State Fault Refusal := .next (barrierOp s r 0xB0 true)

/-- BARARRIVE (R235). -/
def execRillBararrive (r : RillAt) (s : State) : Host.Outcome State Fault Refusal := .next (barrierOp s r 0xB1 false)

/-- SIGADD and SIGSET: `f old b` into counter A[5:0], thread by thread (R236, R237). -/
def signalOp (s : State) (at' : RillAt) (op : Nat) (f : Nat → Nat → Nat) : State :=
  issue s at' (· == op) fun s i =>
    guardFmt s i (bits i.w 44 20 == 0 && fMod i.w == 0) <|
    guardUpset s i at'.upset false fun s =>
    guardPoison s i (fun th => i.r.bad th (fA i.w) || i.r.bad th (fB i.w)) <|
    .done (i.ts.foldl (fun s th =>
      let n := i.r.get th (fA i.w) % 64
      putSig s i.r.ctx i.reach n (f (getSig s i.r.ctx i.reach n) (i.r.get th (fB i.w)))) s) i.r

/-- SIGADD (R236). -/
def execRillSigadd (r : RillAt) (s : State) : Host.Outcome State Fault Refusal := .next (signalOp s r 0xB2 fun o b => o + b)

/-- SIGSET (R236). -/
def execRillSigset (r : RillAt) (s : State) : Host.Outcome State Fault Refusal := .next (signalOp s r 0xB3 fun _ b => b)

/-- SIGWAIT (R236): goes on once every executing thread's counter has reached its threshold. -/
def execRillSigwait (r : RillAt) (s : State) : Host.Outcome State Fault Refusal :=
  .next (issue s r (· == 0xB4) fun s i =>
    guardFmt s i (bits i.w 44 20 == 0 && fMod i.w == 0) <|
    guardUpset s i r.upset false fun s =>
    guardPoison s i (fun th => i.r.bad th (fA i.w) || i.r.bad th (fB i.w)) <|
    let cs := i.ts.map (fun th => (i.r.get th (fA i.w) % 64, i.r.get th (fB i.w)))
    if cs.all (fun c => reached (getSig s i.r.ctx i.reach c.1) c.2) then .done s i.r
    else .stay s { i.r with wait := .signal cs })

/-- NAP (R236): A cycles of the reach, at most 65,535; the longest of the executing threads. -/
def execRillNap (r : RillAt) (s : State) : Host.Outcome State Fault Refusal :=
  .next (issue s r (· == 0xB5) fun s i =>
    guardFmt s i (bits i.w 44 20 == 0 && fMod i.w == 0) <|
    guardUpset s i r.upset false fun s =>
    guardPoison s i (fun th => i.r.bad th (fA i.w)) <|
    let n := i.ts.foldl (fun m th => max m (min (i.r.get th (fA i.w)) 65535)) 0
    .stay s { i.r with wait := .nap (cyc s i.reach + n) })

/-- NAP_EXPIRE (R236): the reach's cycle counter has reached the end of the NAP. -/
def execRillNapExpire (r : RillAt) (s : State) : Host.Outcome State Fault Refusal :=
  .next (
    let k := rillKey r.reach r.runnel r.slot
    match getRill s k with
    | none => s
    | some q =>
      match q.wait with
      | .nap c => if c ≤ cyc s r.reach then putRill s k { q with wait := .none, pc := q.pc + 8 } else s
      | _ => s)

end Sys2Proof.Machine
end

