-- ==== Sys2Proof/Machine/RillFp.lean ====
section
/-!
DEFINITION. Machine/RillFp.lean: the FP32 and conversion instructions of the runnels (R217, R220, R221).
-/
namespace Sys2Proof.Machine

/-- FADD (R220) -/
def execRillFadd (r : RillAt) (s : State) : Host.Outcome State Fault Refusal :=
  .next (alu s r 0x40 true fadd)

/-- FSUB (R220) -/
def execRillFsub (r : RillAt) (s : State) : Host.Outcome State Fault Refusal :=
  .next (alu s r 0x41 true fsub)

/-- FMUL (R220) -/
def execRillFmul (r : RillAt) (s : State) : Host.Outcome State Fault Refusal :=
  .next (alu s r 0x42 true fmul)

/-- FFMA (R220): one rounding -/
def execRillFfma (r : RillAt) (s : State) : Host.Outcome State Fault Refusal :=
  .next (aluX s r 0x43 (· == 0) true (fun _ => 3) fun _ a b c => ffma a b c)

/-- FMIN (R220) -/
def execRillFmin (r : RillAt) (s : State) : Host.Outcome State Fault Refusal :=
  .next (alu s r 0x44 false (fminmax false))

/-- FMAX (R220) -/
def execRillFmax (r : RillAt) (s : State) : Host.Outcome State Fault Refusal :=
  .next (alu s r 0x45 false (fminmax true))

/-- FABS (R220) -/
def execRillFabs (r : RillAt) (s : State) : Host.Outcome State Fault Refusal :=
  .next (alu1 s r 0x46 fabs)

/-- FNEG (R220) -/
def execRillFneg (r : RillAt) (s : State) : Host.Outcome State Fault Refusal :=
  .next (alu1 s r 0x47 fneg)

/-- FDIV (R220), correctly rounded -/
def execRillFdiv (r : RillAt) (s : State) : Host.Outcome State Fault Refusal :=
  .next (alu s r 0x49 false fdiv)

/-- FSQRT (R220), correctly rounded -/
def execRillFsqrt (r : RillAt) (s : State) : Host.Outcome State Fault Refusal :=
  .next (alu1 s r 0x4A fsqrt)

/-- RCP (R220), within 1 ulp -/
def execRillRcp (r : RillAt) (s : State) : Host.Outcome State Fault Refusal :=
  .next (alu1 s r 0x4B frcp)

/-- RSQ (R220), within 1 ulp -/
def execRillRsq (r : RillAt) (s : State) : Host.Outcome State Fault Refusal :=
  .next (alu1 s r 0x4C frsq)

/-- EXP2 (R220) -/
def execRillExp2 (r : RillAt) (s : State) : Host.Outcome State Fault Refusal :=
  .next (alu1 s r 0x4D fexp2)

/-- LOG2 (R220) -/
def execRillLog2 (r : RillAt) (s : State) : Host.Outcome State Fault Refusal :=
  .next (alu1 s r 0x4E flog2)

/-- SINP (R220) -/
def execRillSinp (r : RillAt) (s : State) : Host.Outcome State Fault Refusal :=
  .next (alu1 s r 0x4F fsinp)

/-- COSP (R220) -/
def execRillCosp (r : RillAt) (s : State) : Host.Outcome State Fault Refusal :=
  .next (alu1 s r 0x50 fcosp)

/-- CVTN (R221): FP32 to the format in MOD[3:0], rounded as MOD[4] selects with seed B and index C. -/
def execRillCvtn (r : RillAt) (s : State) : Host.Outcome State Fault Refusal :=
  .next (aluX s r 0x70 (fun m => decide (m % 16 ≤ 8) && decide (m < 32)) false (fun m => if m < 16 then 1 else 3) fun m a b c =>
    cvtn (m % 16) (if m < 16 then none else some (stochR b c)) a)

/-- CVTW (R221): a code to FP32. -/
def execRillCvtw (r : RillAt) (s : State) : Host.Outcome State Fault Refusal :=
  .next (aluX s r 0x71 (fun m => decide (m ≤ 8)) false (fun _ => 1) fun m a _ _ => cvtw m a)

/-- I2F (R221) -/
def execRillI2f (r : RillAt) (s : State) : Host.Outcome State Fault Refusal :=
  .next (alu1 s r 0x72 i2f)

/-- F2I (R221) -/
def execRillF2i (r : RillAt) (s : State) : Host.Outcome State Fault Refusal :=
  .next (alu1 s r 0x73 f2i)

/-- Elements of a format a register holds (R221). -/
def regElems (fmt : Nat) : Nat := 32 / elemBits fmt

/-- PACK and UNPACK: MOD and every thread's index C[4:0] in range, else 0x1002 (R218, R221). -/
def packOp (s : State) (at' : RillAt) (op : Nat) (f : Issue → Nat → Rill → Nat → Rill) : State :=
  issue s at' (· == op) fun s i =>
    guardFmt s i (bits i.w 44 20 == 0 && decide (fMod i.w ≤ 8)) <|
    guardUpset s i at'.upset false fun s =>
    let l := i.ts.filter (fun th => decide (regElems (fMod i.w) ≤ i.r.get th (fC i.w) % 32))
    if l ≠ [] then .stop s 0x1002 (thMask l) 0
    else .done s (i.ts.foldl (fun q th => f i (i.r.get th (fC i.w) % 32) q th) i.r)

/-- PACK (R221): the low bits of B into element C of D. -/
def execRillPack (r : RillAt) (s : State) : Host.Outcome State Fault Refusal :=
  .next (packOp s r 0x74 fun i n q th =>
    let w := elemBits (fMod i.w)
    let d := i.r.get th (fD i.w)
    q.put th (fD i.w) (d - bits d (w * n) w * 2 ^ (w * n) + i.r.get th (fB i.w) % 2 ^ w * 2 ^ (w * n))
      (i.r.bad th (fD i.w) || i.r.bad th (fB i.w) || i.r.bad th (fC i.w)))

/-- UNPACK (R221): element C of A. -/
def execRillUnpack (r : RillAt) (s : State) : Host.Outcome State Fault Refusal :=
  .next (packOp s r 0x75 fun i n q th =>
    let w := elemBits (fMod i.w)
    q.put th (fD i.w) (bits (i.r.get th (fA i.w)) (w * n) w) (i.r.bad th (fA i.w) || i.r.bad th (fC i.w)))

end Sys2Proof.Machine
end

