-- ==== Sys2Proof/Machine/RillInt.lean ====
section
/-!
DEFINITION. Machine/RillInt.lean: the integer instructions of the runnels (R217, R219) and the stop on a reserved opcode
(R218).
-/
namespace Sys2Proof.Machine

/-- Quotient of a signed division toward zero; by zero all ones (R219). -/
def sdiv (a b : Nat) : Nat := if b % 2 ^ 32 = 0 then 0xFFFFFFFF else wrap 32 ((sext 32 a).tdiv (sext 32 b))
/-- Remainder of a signed division; by zero the dividend (R219). -/
def srem (a b : Nat) : Nat := if b % 2 ^ 32 = 0 then a else wrap 32 ((sext 32 a).tmod (sext 32 b))
def udiv (a b : Nat) : Nat := if b = 0 then 0xFFFFFFFF else a / b
def urem (a b : Nat) : Nat := if b = 0 then a else a % b
/-- Leading zeros of a 32-bit value. -/
def clz32 (a : Nat) : Nat := if a = 0 then 32 else 31 - Nat.log2 a

/-- RESERVED_OPCODE (R218): the rill stops with 0x1001. -/
def execRillReservedOpcode (r : RillAt) (s : State) : Host.Outcome State Fault Refusal :=
  .next (issue s r (fun op => !knownOp op) fun s i => .stop s 0x1001 i.r.active 0)

/-- IADD (R219) -/
def execRillIadd (r : RillAt) (s : State) : Host.Outcome State Fault Refusal :=
  .next (alu s r 0x00 true fun a b => (a + b) % 2 ^ 32)

/-- ISUB (R219) -/
def execRillIsub (r : RillAt) (s : State) : Host.Outcome State Fault Refusal :=
  .next (alu s r 0x01 true fun a b => (a + (2 ^ 32 - b)) % 2 ^ 32)

/-- IMUL (R219): the low half -/
def execRillImul (r : RillAt) (s : State) : Host.Outcome State Fault Refusal :=
  .next (alu s r 0x02 true fun a b => a * b % 2 ^ 32)

/-- IMULHI (R219): signed high half -/
def execRillImulhi (r : RillAt) (s : State) : Host.Outcome State Fault Refusal :=
  .next (alu s r 0x03 true fun a b => wrap 32 (sext 32 a * sext 32 b / 2 ^ 32))

/-- UMULHI (R219): unsigned high half -/
def execRillUmulhi (r : RillAt) (s : State) : Host.Outcome State Fault Refusal :=
  .next (alu s r 0x04 true fun a b => a * b / 2 ^ 32)

/-- IDIV (R219) -/
def execRillIdiv (r : RillAt) (s : State) : Host.Outcome State Fault Refusal :=
  .next (alu s r 0x05 true sdiv)

/-- UDIV (R219) -/
def execRillUdiv (r : RillAt) (s : State) : Host.Outcome State Fault Refusal :=
  .next (alu s r 0x06 true udiv)

/-- IREM (R219) -/
def execRillIrem (r : RillAt) (s : State) : Host.Outcome State Fault Refusal :=
  .next (alu s r 0x07 true srem)

/-- UREM (R219) -/
def execRillUrem (r : RillAt) (s : State) : Host.Outcome State Fault Refusal :=
  .next (alu s r 0x08 true urem)

/-- IADD64 (R219) -/
def execRillIadd64 (r : RillAt) (s : State) : Host.Outcome State Fault Refusal :=
  .next (alu64 s r 0x09 fun a b => a + b)

/-- ISUB64 (R219) -/
def execRillIsub64 (r : RillAt) (s : State) : Host.Outcome State Fault Refusal :=
  .next (alu64 s r 0x0A fun a b => a + (2 ^ 64 - b))

/-- IMUL64 (R219) -/
def execRillImul64 (r : RillAt) (s : State) : Host.Outcome State Fault Refusal :=
  .next (alu64 s r 0x0B fun a b => a * b)

/-- AND (R217) -/
def execRillAnd (r : RillAt) (s : State) : Host.Outcome State Fault Refusal :=
  .next (alu s r 0x0C false fun a b => a &&& b)

/-- OR (R217) -/
def execRillOr (r : RillAt) (s : State) : Host.Outcome State Fault Refusal :=
  .next (alu s r 0x0D false fun a b => a ||| b)

/-- XOR (R217) -/
def execRillXor (r : RillAt) (s : State) : Host.Outcome State Fault Refusal :=
  .next (alu s r 0x0E false fun a b => a ^^^ b)

/-- NOT (R217) -/
def execRillNot (r : RillAt) (s : State) : Host.Outcome State Fault Refusal :=
  .next (alu1 s r 0x0F fun a => 2 ^ 32 - 1 - a % 2 ^ 32)

/-- SHL (R219) -/
def execRillShl (r : RillAt) (s : State) : Host.Outcome State Fault Refusal :=
  .next (alu s r 0x10 false fun a b => a * 2 ^ (b % 32) % 2 ^ 32)

/-- SHR (R219) -/
def execRillShr (r : RillAt) (s : State) : Host.Outcome State Fault Refusal :=
  .next (alu s r 0x11 false fun a b => a / 2 ^ (b % 32))

/-- SAR (R219) -/
def execRillSar (r : RillAt) (s : State) : Host.Outcome State Fault Refusal :=
  .next (alu s r 0x12 false fun a b => wrap 32 (sext 32 a / ((2 ^ (b % 32) : Nat) : Int)))

/-- ROTL (R219) -/
def execRillRotl (r : RillAt) (s : State) : Host.Outcome State Fault Refusal :=
  .next (alu s r 0x13 false fun a b => a * 2 ^ (b % 32) % 2 ^ 32 + a / 2 ^ (32 - b % 32))

/-- POPC (R217) -/
def execRillPopc (r : RillAt) (s : State) : Host.Outcome State Fault Refusal :=
  .next (alu1 s r 0x14 fun a => popCount a 32)

/-- CLZ (R217) -/
def execRillClz (r : RillAt) (s : State) : Host.Outcome State Fault Refusal :=
  .next (alu1 s r 0x15 clz32)

/-- IMIN (R217) -/
def execRillImin (r : RillAt) (s : State) : Host.Outcome State Fault Refusal :=
  .next (alu s r 0x16 false fun a b => if sext 32 a ≤ sext 32 b then a else b)

/-- IMAX (R217) -/
def execRillImax (r : RillAt) (s : State) : Host.Outcome State Fault Refusal :=
  .next (alu s r 0x17 false fun a b => if sext 32 a ≤ sext 32 b then b else a)

/-- UMIN (R217) -/
def execRillUmin (r : RillAt) (s : State) : Host.Outcome State Fault Refusal :=
  .next (alu s r 0x18 false fun a b => min a b)

/-- UMAX (R217) -/
def execRillUmax (r : RillAt) (s : State) : Host.Outcome State Fault Refusal :=
  .next (alu s r 0x19 false fun a b => max a b)

/-- SEL (R217): A where predicate C is 1, B otherwise. -/
def execRillSel (r : RillAt) (s : State) : Host.Outcome State Fault Refusal :=
  .next (issue s r (· == 0x1A) fun s i =>
    guardFmt s i (bits i.w 44 20 == 0 && fMod i.w == 0) <|
    guardUpset s i r.upset false fun s =>
    .done s (i.ts.foldl (fun q th =>
      q.put th (fD i.w) (if i.r.pred th (fC i.w % 8) then i.r.get th (fA i.w) else i.r.get th (fB i.w))
        (i.r.bad th (fA i.w) || i.r.bad th (fB i.w))) i.r))

/-- MOV (R217) -/
def execRillMov (r : RillAt) (s : State) : Host.Outcome State Fault Refusal :=
  .next (alu1 s r 0x1B fun a => a)

/-- An instruction of the RI format (R216): a value of A and the immediate. -/
def aluI (s : State) (at' : RillAt) (op : Nat) (checked reads : Bool) (f : Nat → Nat → Nat) : State :=
  issue s at' (· == op) fun s i =>
    guardFmt s i (fModI i.w == 0) <|
    guardUpset s i at'.upset checked fun s =>
    let v (th : Nat) : Nat := f (i.r.get th (fA i.w)) (fImm i.w)
    .done s (i.ts.foldl (fun q th => q.put th (fD i.w) (if checked then (v th + unseen at'.upset th) % 2 ^ 32 else v th) (reads && i.r.bad th (fA i.w))) i.r)

/-- MOVI (R217): the 32-bit immediate. -/
def execRillMovi (r : RillAt) (s : State) : Host.Outcome State Fault Refusal :=
  .next (aluI s r 0x1C false false fun _ imm => imm)

/-- IADDI (R217): A plus the immediate. -/
def execRillIaddi (r : RillAt) (s : State) : Host.Outcome State Fault Refusal :=
  .next (aluI s r 0x1D true true fun a imm => (a + imm) % 2 ^ 32)

end Sys2Proof.Machine
end

