-- ==== Sys2Proof/Machine/RillLane.lean ====
section
/-!
DEFINITION. Machine/RillLane.lean: predicates, lane exchange and special values (R214, R217, R237).
-/
namespace Sys2Proof.Machine

/-- The comparison of SETP (R217): codes 0-5 signed, 6 LTU, 7 LEU. -/
def setpCmp (code a b : Nat) : Bool :=
  if code = 6 then a < b else if code = 7 then a ≤ b else cmpCode code (sext 32 a - sext 32 b)

/-- A comparison of A and B into predicate D[2:0]; a poisoned source is consumed (R217, R237). -/
def cmpOp (s : State) (at' : RillAt) (op modMax : Nat) (f : Nat → Nat → Nat → Bool) : State :=
  issue s at' (· == op) fun s i =>
    guardFmt s i (bits i.w 44 20 == 0 && decide (fMod i.w ≤ modMax)) <|
    guardUpset s i at'.upset false fun s =>
    guardPoison s i (fun th => i.r.bad th (fA i.w) || i.r.bad th (fB i.w)) <|
    .done s (i.ts.foldl (fun q th => q.setPred th (fD i.w % 8) (f (fMod i.w) (i.r.get th (fA i.w)) (i.r.get th (fB i.w)))) i.r)

/-- SETP (R217). -/
def execRillSetp (r : RillAt) (s : State) : Host.Outcome State Fault Refusal := .next (cmpOp s r 0x1E 7 setpCmp)

/-- FSETP (R217): codes 6 and 7 are reserved. -/
def execRillFsetp (r : RillAt) (s : State) : Host.Outcome State Fault Refusal := .next (cmpOp s r 0x48 5 fsetp)

/-- PLOP (R217): AND, OR, XOR, A AND NOT B of two predicates. -/
def execRillPlop (r : RillAt) (s : State) : Host.Outcome State Fault Refusal :=
  .next (issue s r (· == 0x1F) fun s i =>
    guardFmt s i (bits i.w 44 20 == 0 && decide (fMod i.w ≤ 3)) <|
    guardUpset s i r.upset false fun s =>
    .done s (i.ts.foldl (fun q th =>
      let a := i.r.pred th (fA i.w % 8)
      let b := i.r.pred th (fB i.w % 8)
      q.setPred th (fD i.w % 8) (match fMod i.w with | 0 => a && b | 1 => a || b | 2 => a != b | _ => a && !b)) i.r))

/-- SHFL (R217): the A register of the thread named by B[4:0], 0 when that thread is inactive or has exited; the lane
selector consumes poison (R237). -/
def execRillShfl (r : RillAt) (s : State) : Host.Outcome State Fault Refusal :=
  .next (issue s r (· == 0x30) fun s i =>
    guardFmt s i (bits i.w 44 20 == 0 && fMod i.w == 0) <|
    guardUpset s i r.upset false fun s =>
    guardPoison s i (fun th => i.r.bad th (fB i.w)) <|
    .done s (i.ts.foldl (fun q th =>
      let src := i.r.get th (fB i.w) % 32
      if bit i.r.active src then q.put th (fD i.w) (i.r.get src (fA i.w)) (i.r.bad src (fA i.w)) else q.put th (fD i.w) 0 false) i.r))

/-- A vote over the active threads' predicate A[2:0] into predicate D[2:0]. -/
def voteOp (s : State) (at' : RillAt) (op : Nat) (f : List Bool → Bool) : State :=
  issue s at' (· == op) fun s i =>
    guardFmt s i (bits i.w 44 20 == 0 && fMod i.w == 0) <|
    guardUpset s i at'.upset false fun s =>
    let v := f ((bitList i.r.active 32).map (fun th => i.r.pred th (fA i.w % 8)))
    .done s (i.ts.foldl (fun q th => q.setPred th (fD i.w % 8) v) i.r)

/-- VOTEANY (R217). -/
def execRillVoteany (r : RillAt) (s : State) : Host.Outcome State Fault Refusal := .next (voteOp s r 0x31 (·.any id))

/-- VOTEALL (R217). -/
def execRillVoteall (r : RillAt) (s : State) : Host.Outcome State Fault Refusal := .next (voteOp s r 0x32 (·.all id))

/-- BALLOT (R217): the mask of active threads whose predicate A[2:0] is 1. -/
def execRillBallot (r : RillAt) (s : State) : Host.Outcome State Fault Refusal :=
  .next (issue s r (· == 0x33) fun s i =>
    guardFmt s i (bits i.w 44 20 == 0 && fMod i.w == 0) <|
    guardUpset s i r.upset false fun s =>
    let m := maskOf ((bitList i.r.active 32).filter (fun th => i.r.pred th (fA i.w % 8)))
    .done s (i.ts.foldl (fun q th => q.put th (fD i.w) m false) i.r))

/-- The special values of R214 for a thread. -/
def sregValue (s : State) (i : Issue) (code th : Nat) : Nat :=
  let q := i.r
  match code with
  | 0 => th
  | 1 => q.rank
  | 2 => i.key % 128 / 32
  | 3 => i.reach
  | 4 => q.rslot
  | 5 => ((q.reachRank * 4 + q.runnelRank) * q.rills + q.rank) * 32 + th
  | 6 => q.nthreads
  | 7 => q.ctx
  | 8 => cyc s i.reach % 2 ^ 32
  | 9 => mget 0 q.hi th
  | _ => q.active

/-- SREG (R214): the code stands in MOD; CYCLE_LO latches the high half for the thread. -/
def execRillSreg (r : RillAt) (s : State) : Host.Outcome State Fault Refusal :=
  .next (issue s r (· == 0x34) fun s i =>
    guardFmt s i (bits i.w 44 20 == 0 && decide (fMod i.w ≤ 10)) <|
    guardUpset s i r.upset false fun s =>
    .done s (i.ts.foldl (fun q th =>
      let q := q.put th (fD i.w) (sregValue s i (fMod i.w) th) false
      if fMod i.w = 8 then { q with hi := mset 0 q.hi th (cyc s i.reach / 2 ^ 32) } else q) i.r))

end Sys2Proof.Machine
end

