-- ==== Sys2Proof/Machine/RillMem.lean ====
section
/-!
DEFINITION. Machine/RillMem.lean: loads, stores, atomics and fences of the runnels (R222, R230-R234, R237).
-/
namespace Sys2Proof.Machine

/-- Bytes of a SIZE code (R216). -/
def sizeBytes (c : Nat) : Nat := 2 ^ c

/-- The address of a thread's access: A pair plus OFFSET, modulo 2^64 (R222). -/
def accAddr (i : Issue) (th : Nat) : Nat := wrap 64 ((i.r.get64 th (fA i.w) : Int) + fOffset i.w)

/-- Checks every thread's access in thread order: the first fault with the threads that share it, else whether any
waits for a page (R238). -/
def checkAll (s : State) (i : Issue) (n : Nat) (k : AccKind) : State × Chk × Nat × Nat :=
  i.ts.foldl (fun acc th =>
    match checkAccess acc.1 i.r.ctx i.reach (accAddr i th) n k with
    | (s, .ok) => (s, acc.2)
    | (s, .wait) => (s, (match acc.2.1 with | .ok => .wait | c => c), acc.2.2)
    | (s, .fault f) =>
      match acc.2.1 with
      | .fault g => (s, .fault g, (if f = g then setBit acc.2.2.1 th true else acc.2.2.1), acc.2.2.2)
      | _ => (s, .fault f, 2 ^ th, accAddr i th)) (s, .ok, 0, 0)

/-- The thread whose access meets the environment's codeword, with its address: `hit` and `fixed` are of the first. -/
def upsetThread (i : Issue) (u : Upset) : Nat :=
  match u with | .hitAt th | .fixedAt th => if i.ts.contains th then th else i.ts.headD 0 | _ => i.ts.headD 0

/-- The shared course of a data access: address poison, checks, window waits, port sluices; then `k` (R222, R237, R261).
A hit is an uncorrectable codeword at a thread's address: a rill stops, an object frame is fetched again (R113, R417), unless
its granule is poisoned already (R415); a corrected one there, or in the instruction cache, is counted (R414). An invalid word or
granule reads as zeros without check (R424, R425). Registers may meet an uncorrectable word as any instruction's do (R238). -/
def access (s : State) (at' : RillAt) (i : Issue) (n : Nat) (kind : AccKind) (k : State → RStep) : RStep :=
  match at'.upset with
  | .register th => if i.ts.contains th then .stop (eventIn s i.reach 0 0 true) 0x4001 (2 ^ th) 0 else go
  | _ => go
where
  go : RStep :=
  guardPoison s i (fun th => i.r.bad64 th (fA i.w)) <|
  match checkAll s i n kind with
  | (s', .fault f, m, a) => .stop s' f m a
  | (s', .wait, _, _) => .stay s' { i.r with wait := .page ((i.ts.filterMap (fun th => flyingAt s' (accAddr i th))).eraseDups) }
  | (s', .ok, _, _) =>
    let th := upsetThread i at'.upset
    let a0 := accAddr i th
    let there := kind ≠ .store ∧ i.ts ≠ [] ∧ storedAt s' a0 ∧ poisoned s' a0 = false
    if isHit at'.upset ∧ there then
      match regionOf s' a0 with
      | .window off =>
        let s' := upsetFrame s' a0 off
        .stay s' { i.r with wait := .page (flyingAt s' a0).toList }
      | _ => .stop (markUncorrectable s' a0) 0x4001 (2 ^ th) a0
    else
      match stackPorts s' (i.reach / 8) (2 ^ 20 + i.key) (kind == .store) (i.ts.map (fun th => (accAddr i th, n))) with
      | (s2, true) =>
        let l := i.ts.map (fun th => (accAddr i th, n))
        let s2 := if isFixed at'.upset ∧ there then correctedAt s2 a0 else if at'.upset = .inner then eventIn s2 i.reach 4 0 false else s2
        let s2 := if kind = .store then s2 else countReads s2 (i.reach / 8) l
        let s2 := if kind = .load then s2 else countWrites s2 (i.reach / 8) l
        k (touchBank s2 l)
      | (s2, false) => .stay s2 { i.r with wait := .sluice }

/-- Register numbers from `d` that hold `n` bytes. -/
def regsOf (d n : Nat) : List Nat := (List.range ((n + 3) / 4)).map (d + ·)

/-- A register group of `n` bytes is aligned (R216). -/
def groupOk (d n : Nat) : Bool := if n = 8 then d % 2 == 0 else if n = 16 then d % 4 == 0 else true

/-- LD (R222, R237): a register is poisoned when a byte loaded into it is. -/
def execRillLd (r : RillAt) (s : State) : Host.Outcome State Fault Refusal :=
  .next (issue s r (· == 0x80) fun s i =>
    let n := sizeBytes (fSize i.w)
    guardFmt s i (decide (fSize i.w ≤ 4) && decide (fOrder i.w ≤ 1) && bits i.w 37 3 == 0 && fA i.w % 2 == 0 && groupOk (fD i.w) n) <|
    access s r i n .load fun s =>
    .done s (i.ts.foldl (fun q th =>
      let l := loadBytes s i.r.ctx i.reach (accAddr i th) n
      (List.range ((n + 3) / 4)).foldl (fun q j =>
        let c := (l.drop (4 * j)).take 4
        q.put th (fD i.w + j) (ofBytes (c.map (·.b))) (c.any (·.p))) q) i.r))

/-- ST (R222, R237): poisoned registers write poisoned data. -/
def execRillSt (r : RillAt) (s : State) : Host.Outcome State Fault Refusal :=
  .next (issue s r (· == 0x81) fun s i =>
    let n := sizeBytes (fSize i.w)
    guardFmt s i (decide (fSize i.w ≤ 4) && (fOrder i.w == 0 || fOrder i.w == 2) && bits i.w 37 3 == 0 && fA i.w % 2 == 0 && groupOk (fB i.w) n) <|
    access s r i n .store fun s =>
    let s := if i.ts.isEmpty then s else underWrite s r.upset (accAddr i (upsetThread i r.upset)) n
    .done (i.ts.foldl (fun s th =>
      let l := ((regsOf (fB i.w) n).map (fun g => (toBytes 4 (i.r.get th g)).map (fun b => (⟨b, i.r.bad th g⟩ : PByte)))).flatten
      wrPBytes s (accAddr i th) (l.take n)) s) i.r)

/-- An atomic (R230): thread by thread, the old value in D, `f old operand compare` in memory. Poison in an operand or in
the word is consumed (R237, R417). -/
def atomic (s : State) (at' : RillAt) (op : Nat) (sz8 cas : Bool) (f : Nat → Nat → Nat → Nat → Nat) : State :=
  issue s at' (· == op) fun s i =>
    let n := sizeBytes (fSize i.w)
    guardFmt s i ((fSize i.w == 2 || (sz8 && fSize i.w == 3)) && bits i.w 37 3 == 0 && fA i.w % 2 == 0 && groupOk (fB i.w) n && groupOk (fD i.w) n) <|
    guardPoison s i (fun th => (regsOf (fB i.w) n).any (i.r.bad th) || (cas && (regsOf (fD i.w) n).any (i.r.bad th))) <|
    access s at' i n .atomic fun s =>
    let bad := i.ts.filter (fun th => poisonedIn s (accAddr i th) n)
    if bad ≠ [] then .stop s 0x4003 (thMask bad) (accAddr i (bad.headD 0))
    else
      let val (th g : Nat) : Nat := if n = 8 then i.r.get64 th g else i.r.get th g
      let res := i.ts.foldl (fun (x : State × Rill) th =>
        let a := accAddr i th
        let old := ofBytes (rdBytes x.1 a n)
        (wrBytes x.1 a (toBytes n (f (8 * n) old (val th (fB i.w)) (val th (fD i.w)))),
         if n = 8 then x.2.put64 th (fD i.w) old false else x.2.put th (fD i.w) old false)) (s, i.r)
      .done res.1 res.2

/-- AADD (R230) -/
def execRillAadd (r : RillAt) (s : State) : Host.Outcome State Fault Refusal :=
  .next (atomic s r 0x82 true false fun w o b _ => (o + b) % 2 ^ w)

/-- ASMIN (R230) -/
def execRillAsmin (r : RillAt) (s : State) : Host.Outcome State Fault Refusal :=
  .next (atomic s r 0x83 true false fun w o b _ => if sext w o ≤ sext w b then o else b)

/-- ASMAX (R230) -/
def execRillAsmax (r : RillAt) (s : State) : Host.Outcome State Fault Refusal :=
  .next (atomic s r 0x84 true false fun w o b _ => if sext w o ≤ sext w b then b else o)

/-- AUMIN (R230) -/
def execRillAumin (r : RillAt) (s : State) : Host.Outcome State Fault Refusal :=
  .next (atomic s r 0x85 true false fun _ o b _ => min o b)

/-- AUMAX (R230) -/
def execRillAumax (r : RillAt) (s : State) : Host.Outcome State Fault Refusal :=
  .next (atomic s r 0x86 true false fun _ o b _ => max o b)

/-- AAND (R230) -/
def execRillAand (r : RillAt) (s : State) : Host.Outcome State Fault Refusal :=
  .next (atomic s r 0x87 true false fun _ o b _ => o &&& b)

/-- AOR (R230) -/
def execRillAor (r : RillAt) (s : State) : Host.Outcome State Fault Refusal :=
  .next (atomic s r 0x88 true false fun _ o b _ => o ||| b)

/-- AXOR (R230) -/
def execRillAxor (r : RillAt) (s : State) : Host.Outcome State Fault Refusal :=
  .next (atomic s r 0x89 true false fun _ o b _ => o ^^^ b)

/-- AXCHG (R230) -/
def execRillAxchg (r : RillAt) (s : State) : Host.Outcome State Fault Refusal :=
  .next (atomic s r 0x8A true false fun _ _ b _ => b)

/-- ACAS (R230): B is stored when the word equals D -/
def execRillAcas (r : RillAt) (s : State) : Host.Outcome State Fault Refusal :=
  .next (atomic s r 0x8B true true fun _ o b d => if o = d then b else o)

/-- AFADD (R230): FP32 add rounded to nearest even at the memory -/
def execRillAfadd (r : RillAt) (s : State) : Host.Outcome State Fault Refusal :=
  .next (atomic s r 0x8C false false fun _ o b _ => fadd o b)

/-- FENCE (R230, R232, R233): in a model that takes one access at a time it orders nothing further and goes on. -/
def execRillFence (r : RillAt) (s : State) : Host.Outcome State Fault Refusal :=
  .next (issue s r (· == 0x8D) fun s i =>
    guardFmt s i (bits i.w 37 3 == 0 && decide (fSize i.w ≤ 4)) <|
    guardUpset s i r.upset false fun s => .done s i.r)

end Sys2Proof.Machine
end

