-- ==== Sys2Proof/Machine/RillUnit.lean ====
section
/-!
DEFINITION. Machine/RillUnit.lean: unit operations of the runnels (R226-R229, R243): acceptance thread by thread, holding the rill
while a ticket or a queue place is missing, and waiting on tickets.
-/
namespace Sys2Proof.Machine

/-- What a unit says to one thread's operation. -/
inductive UnitRes where
  /-- rejected with a status -/
  | reject (status : Nat)
  /-- its queue is full -/
  | full
  /-- accepted: the effect, given the reference of the operation -/
  | accept (f : State → OpRef → State)

/-- A free ticket of a rill, the lowest (R226). -/
def freeTicket (r : Rill) : Option Nat := (List.range 64).find? (fun t => (mfind r.tickets t).isNone)

/-- The 128-bit pass descriptor of a thread's A group. -/
def passDesc (r : Rill) (w th : Nat) : Nat :=
  r.get th (fA w) + 2 ^ 32 * r.get th (fA w + 1) + 2 ^ 64 * r.get th (fA w + 2) + 2 ^ 96 * r.get th (fA w + 3)

/-- Entries of a residency slot in a tile's queue (R142). -/
def slotQueue (s : State) (reach tile slot : Nat) : Nat := ((getTile s reach tile).queue.filter (fun p => p.slot == slot)).length

/-- Puts an entry into a tile's queue. -/
def enqueue (s : State) (reach tile : Nat) (p : TPass) : State :=
  updTile s reach tile (fun t => { t with queue := t.queue ++ [{ p with no := t.nextNo, accepted := cyc s reach }], nextNo := t.nextNo + 1 })

/-- PASS at a tile (R143, R144). -/
def passRes (s : State) (reach : Nat) (r : Rill) (w th : Nat) : UnitRes :=
  let d := passDesc r w th
  let tile := bits d 0 6
  let n := bits d 64 7
  if bits d 44 4 ≠ 0 ∨ bits d 61 3 ≠ 0 ∨ bits d 71 57 ≠ 0 ∨ bits d 19 10 = 0 ∨ 512 < bits d 19 10 ∨ 47 < tile ∨ 4096 < bits d 48 13
      ∨ 64 < n ∨ (n ≠ 0 ∧ n < 16) then .reject 0x1002
  else if tileEnabled s reach tile = false then .reject 0x1004
  else if 8 ≤ slotQueue s reach tile r.rslot then .full
  else .accept fun s op => enqueue s reach tile { no := 0, slot := r.rslot, op := op, desc := d }

/-- TSCALE at a tile (R227). -/
def tscaleRes (s : State) (reach : Nat) (r : Rill) (w th : Nat) : UnitRes :=
  let a := r.get th (fA w)
  let b := r.get th (fB w)
  if 63 < a ∨ 63 < b ∨ 47 < a then .reject 0x1002
  else if tileEnabled s reach a = false then .reject 0x1004
  else if 8 ≤ slotQueue s reach a r.rslot then .full
  else .accept fun s op => enqueue s reach a { no := 0, slot := r.rslot, op := op, scaleWrite := some (b, r.get th (fC w)) }

/-- An address in stack memory or a scratchpad that the context may reach (R102, R227, R243). -/
def unitAddr (s : State) (ctx a n : Nat) : Bool :=
  match regionOf s a with
  | .stack => stackOwned s (ctxDom s ctx) a n
  | .scratch r off => scratchOk s (ctxDom s ctx) ctx r off n
  | _ => false

/-- FLAUNCH at an engine (R242, R243). -/
def flaunchRes (s : State) (reach : Nat) (r : Rill) (w th : Nat) : UnitRes :=
  let a := r.get64 th (fA w)
  let b := r.get th (fB w)
  let key := progKey reach (b % 8) r.rslot
  if 7 < b then .reject 0x1002
  else if a % 16 ≠ 0 ∨ unitAddr s r.ctx a 16 = false then .reject 0x4004
  else if 5 ≤ (getProgs s key).length then .full
  else .accept fun s op => putProgs s key (getProgs s key ++ [{ op := op, addr := a, arg := r.get th (fC w) }])

/-- FETCH at the tier manager (R126, R129, R227). -/
def fetchRes (s : State) (r : Rill) (w th : Nat) : UnitRes :=
  let a := r.get64 th (fA w)
  let b := r.get64 th (fB w)
  let nsid := ctxDom s r.ctx + 1
  if a % 32 ≠ 0 ∨ b % 32 ≠ 0 ∨ unitAddr s r.ctx a 32 = false ∨ unitAddr s r.ctx b 32 = false then .reject 0x4004
  else
    let rs := if regionOf s a = .stack then readStatus s a 32 else if poisonedIn s a 32 then 0x4003 else 0
    if rs ≠ 0 then .accept fun s op => writeRecord s b op (fetchRecord rs 0 0 0 0 0) rs
    else
      let d := rdBytes s a 32
      let die := le d 28 1
      let off := le d 8 8
      let len := le d 16 8
      let obj := findObj s nsid (le d 0 8)
      let st := firstOf ([cond (le d 30 2 != 0 || decide (1 < le d 29 1)) 0x1002] ++ dieConds s die ++ tierRangeConds obj off len)
      match st, obj with
      | 0, some o =>
          let g := tierRange o off len
          .accept fun s op => acceptFetch (stackRead s 6 a 32) o g.1 g.2.1 g.2.2 (pickDie s die) (le d 24 4) (.record b op) (le d 29 1 == 1)
      | st, _ => .reject st

/-- What the unit says to a thread's operation. -/
def unitRes (s : State) (reach : Nat) (r : Rill) (w th : Nat) : UnitRes :=
  match fOp w with
  | 0xC0 => passRes s reach r w th
  | 0xC1 => tscaleRes s reach r w th
  | 0xC2 => flaunchRes s reach r w th
  | _ => fetchRes s r w th

/-- Threads' operations are accepted or rejected in thread order; the threads still held (R226). -/
def acceptUnits (k w : Nat) : List Nat → State → State × List Nat
  | [], s => (s, [])
  | th :: l, s =>
    match getRill s k with
    | none => (s, [])
    | some r =>
      match unitRes s (k / 128) r w th with
      | .reject st => acceptUnits k w l (putRill s k (r.put th (fD w) st false))
      | .full => (s, th :: l)
      | .accept f =>
        match freeTicket r with
        | none => (s, th :: l)
        | some t =>
          let r := { r with tickets := mins r.tickets t none }
          let s := updLaunch (putRill s k (r.put th (fD w) (t * 65536) false)) r.ctx r.launch (fun l => { l with ops := l.ops + 1 })
          let s := rillEv s k r 0x12 (k % 128 / 32) 1
          acceptUnits k w l (f s ⟨r.ctx, r.launch, r.uid, t⟩)

/-- A context whose rills issue no unit operation: it drains, or is being destroyed (R273, R277). -/
def unitsHeld (s : State) (ctx : Nat) : Bool :=
  match findCtx s ctx with
  | some c => c.st != .resident || c.destroy != 0
  | none => true

/-- A unit operation (R226): `grp` whether A is a group of four, `bad` the poisoned operands it consumes. -/
def unitOp (s : State) (at' : RillAt) (op : Nat) (fmt : Nat → Bool) (bad : Rill → Nat → Nat → Bool) : State :=
  issue s at' (· == op) fun s i =>
    guardFmt s i (bits i.w 36 28 == 0 && fmt i.w) <|
    guardUpset s i at'.upset false fun s =>
    guardPoison s i (bad i.r i.w) <|
    if unitsHeld s i.r.ctx then .stay s { i.r with wait := .unit i.w (thMask i.ts) }
    else
      let x := acceptUnits i.key i.w i.ts (putRill s i.key i.r)
      match getRill x.1 i.key with
      | none => .done x.1 i.r
      | some r => if x.2.isEmpty then .done x.1 r else .stay x.1 { r with wait := .unit i.w (thMask x.2) }

def badRegs (r : Rill) (th a n : Nat) : Bool := (List.range n).any (fun j => r.bad th (a + j))

/-- PASS (R143, R144, R227). -/
def execRillPass (r : RillAt) (s : State) : Host.Outcome State Fault Refusal :=
  .next (unitOp s r 0xC0 (fun w => fA w % 4 == 0) (fun q w th => badRegs q th (fA w) 4))

/-- TSCALE (R147, R227). -/
def execRillTscale (r : RillAt) (s : State) : Host.Outcome State Fault Refusal :=
  .next (unitOp s r 0xC1 (fun _ => true) (fun q w th => q.bad th (fA w) || q.bad th (fB w) || q.bad th (fC w)))

/-- FLAUNCH (R227, R243). -/
def execRillFlaunch (r : RillAt) (s : State) : Host.Outcome State Fault Refusal :=
  .next (unitOp s r 0xC2 (fun w => fA w % 2 == 0) (fun q w th => badRegs q th (fA w) 2 || q.bad th (fB w) || q.bad th (fC w)))

/-- FETCH (R126, R129, R227). -/
def execRillFetch (r : RillAt) (s : State) : Host.Outcome State Fault Refusal :=
  .next (unitOp s r 0xC3 (fun w => fA w % 2 == 0 && fB w % 2 == 0) (fun q w th => badRegs q th (fA w) 2 || badRegs q th (fB w) 2))

/-- UNIT_OP_ACCEPTANCE (R226): the operations a rill is held for are tried again. -/
def execUnitOpAcceptance (r : RillAt) (s : State) : Host.Outcome State Fault Refusal :=
  .next (
    let k := rillKey r.reach r.runnel r.slot
    match getRill s k with
    | none => s
    | some q =>
      match q.wait with
      | .unit w todo =>
        if unitsHeld s q.ctx ∨ mayIssue s r.reach q = false ∨ 4 ≤ r.runnel ∨ 32 ≤ r.slot then s
        else
          let x := acceptUnits k w (bitList todo 32) s
          match getRill x.1 k with
          | none => x.1
          | some q => noteBlock (putRill x.1 k (if x.2.isEmpty then { q with wait := .none, pc := q.pc + 8 } else { q with wait := .unit w (thMask x.2) })) q.ctx
      | _ => s)

/-- UWAIT (R228). -/
def execRillUwait (r : RillAt) (s : State) : Host.Outcome State Fault Refusal :=
  .next (issue s r (· == 0xC4) fun s i =>
    guardFmt s i (bits i.w 36 28 == 0) <|
    guardUpset s i r.upset false fun s =>
    guardPoison s i (fun th => i.r.bad th (fA i.w)) <|
    if i.ts.isEmpty then .done s i.r
    else .stay s (finishWait { i.r with wait := .ticket (fD i.w) (i.ts.map (fun th => (th, i.r.get th (fA i.w) % 64))) }))

/-- UPOLL (R228). -/
def execRillUpoll (r : RillAt) (s : State) : Host.Outcome State Fault Refusal :=
  .next (issue s r (· == 0xC5) fun s i =>
    guardFmt s i (bits i.w 36 28 == 0) <|
    guardUpset s i r.upset false fun s =>
    guardPoison s i (fun th => i.r.bad th (fA i.w)) <|
    let tk (th : Nat) : Nat := i.r.get th (fA i.w) % 64
    let q := i.ts.foldl (fun q th => q.put th (fD i.w) ((ticketStatus i.r (tk th)).getD 0xFFFF) false) i.r
    .done s { q with tickets := i.ts.foldl (fun m th => if (ticketStatus i.r (tk th)).isSome then mdel m (tk th) else m) q.tickets })

end Sys2Proof.Machine
end

