-- ==== Sys2Proof/Machine/Dispatch.lean ====
section
/-!
DEFINITION. Machine/Dispatch.lean: one arm per command, each one call of its meaning.
-/
namespace Sys2Proof.Machine

def exec (i : Instr) (s : State) : Host.Outcome State Fault Refusal :=
  match i with
  | .regWrite port access value => Sys2Proof.Machine.execRegWrite port access value s
  | .loReadLatch port addr => Sys2Proof.Machine.execLoReadLatch port addr s
  | .groupCommit port addr value => Sys2Proof.Machine.execGroupCommit port addr value s
  | .groupAdopt addr => Sys2Proof.Machine.execGroupAdopt addr s
  | .sidebandRegAccess write access value => Sys2Proof.Machine.execSidebandRegAccess write access value s
  | .sbImgOpen => Sys2Proof.Machine.execSbImgOpen s
  | .sbImgData value => Sys2Proof.Machine.execSbImgData value s
  | .sbImgSubmit => Sys2Proof.Machine.execSbImgSubmit s
  | .inputQualified slotId pins => Sys2Proof.Machine.execInputQualified slotId pins s
  | .startUpStepEnd env => Sys2Proof.Machine.execStartUpStepEnd env s
  | .linkTrained sideband => Sys2Proof.Machine.execLinkTrained sideband s
  | .flitRejected raw => Sys2Proof.Machine.execFlitRejected raw s
  | .idle ack freed => Sys2Proof.Machine.execIdle ack freed s
  | .init ack credit buffers => Sys2Proof.Machine.execInit ack credit buffers s
  | .nak ack credit number => Sys2Proof.Machine.execNak ack credit number s
  | .doorbell hdr entries => Sys2Proof.Machine.execDoorbell hdr entries s
  | .regReq hdr entries => Sys2Proof.Machine.execRegReq hdr entries s
  | .pullData hdr offset reqId data => Sys2Proof.Machine.execPullData hdr offset reqId data s
  | .replayTimeout => Sys2Proof.Machine.execReplayTimeout s
  | .idleDue => Sys2Proof.Machine.execIdleDue s
  | .commandFetch => Sys2Proof.Machine.execCommandFetch s
  | .cqCoalesceTimeout cqid => Sys2Proof.Machine.execCqCoalesceTimeout cqid s
  | .dqpEnable => Sys2Proof.Machine.execDqpEnable s
  | .dqpDisable => Sys2Proof.Machine.execDqpDisable s
  | .identify c => Sys2Proof.Machine.execIdentify c s
  | .createSq c => Sys2Proof.Machine.execCreateSq c s
  | .deleteSq c => Sys2Proof.Machine.execDeleteSq c s
  | .createCq c => Sys2Proof.Machine.execCreateCq c s
  | .deleteCq c => Sys2Proof.Machine.execDeleteCq c s
  | .getLog c => Sys2Proof.Machine.execGetLog c s
  | .getFeatureCqInterrupt c => Sys2Proof.Machine.execGetFeatureCqInterrupt c s
  | .getFeatureSqClass c => Sys2Proof.Machine.execGetFeatureSqClass c s
  | .setFeatureCqInterrupt c => Sys2Proof.Machine.execSetFeatureCqInterrupt c s
  | .setFeatureSqClass c => Sys2Proof.Machine.execSetFeatureSqClass c s
  | .setPower c => Sys2Proof.Machine.execSetPower c s
  | .powerStateEntered pastPoint => Sys2Proof.Machine.execPowerStateEntered pastPoint s
  | .powerStateExited => Sys2Proof.Machine.execPowerStateExited s
  | .abort c => Sys2Proof.Machine.execAbort c s
  | .imageWrite c readBackOk => Sys2Proof.Machine.execImageWrite c readBackOk s
  | .attestQuote c => Sys2Proof.Machine.execAttestQuote c s
  | .quoteSigned => Sys2Proof.Machine.execQuoteSigned s
  | .unitDrain c => Sys2Proof.Machine.execUnitDrain c s
  | .unitTest c => Sys2Proof.Machine.execUnitTest c s
  | .unitJoin c fault sensed marked => Sys2Proof.Machine.execUnitJoin c fault sensed marked s
  | .unitOffline c => Sys2Proof.Machine.execUnitOffline c s
  | .shutdownHalt c => Sys2Proof.Machine.execShutdownHalt c s
  | .shutdownReset c => Sys2Proof.Machine.execShutdownReset c s
  | .shutdownWaitExpire => Sys2Proof.Machine.execShutdownWaitExpire s
  | .haltFlushComplete => Sys2Proof.Machine.execHaltFlushComplete s
  | .read c => Sys2Proof.Machine.execRead c s
  | .write c => Sys2Proof.Machine.execWrite c s
  | .writeResume c => Sys2Proof.Machine.execWriteResume c s
  | .flush c => Sys2Proof.Machine.execFlush c s
  | .trim c => Sys2Proof.Machine.execTrim c s
  | .secureDiscardRange c => Sys2Proof.Machine.execSecureDiscardRange c s
  | .secureDiscardReleased c => Sys2Proof.Machine.execSecureDiscardReleased c s
  | .verify c => Sys2Proof.Machine.execVerify c s
  | .rawReadCorrected c => Sys2Proof.Machine.execRawReadCorrected c s
  | .rawReadStored c => Sys2Proof.Machine.execRawReadStored c s
  | .rawReadEraseCount c zeros => Sys2Proof.Machine.execRawReadEraseCount c zeros s
  | .objRegister c => Sys2Proof.Machine.execObjRegister c s
  | .objSetAttr c => Sys2Proof.Machine.execObjSetAttr c s
  | .objDelete c => Sys2Proof.Machine.execObjDelete c s
  | .objLookup c => Sys2Proof.Machine.execObjLookup c s
  | .objMap c => Sys2Proof.Machine.execObjMap c s
  | .objUnmap c => Sys2Proof.Machine.execObjUnmap c s
  | .tierMoveResident c => Sys2Proof.Machine.execTierMoveResident c s
  | .tierMoveRelease c => Sys2Proof.Machine.execTierMoveRelease c s
  | .tierPin c => Sys2Proof.Machine.execTierPin c s
  | .tierUnpin c => Sys2Proof.Machine.execTierUnpin c s
  | .tierHint c => Sys2Proof.Machine.execTierHint c s
  | .shadowSet c => Sys2Proof.Machine.execShadowSet c s
  | .quotaQuery c => Sys2Proof.Machine.execQuotaQuery c s
  | .tmModeWrite port value => Sys2Proof.Machine.execTmModeWrite port value s
  | .pageFetchComplete nsid obj idx outs => Sys2Proof.Machine.execPageFetchComplete nsid obj idx outs s
  | .tierFetchComplete id => Sys2Proof.Machine.execTierFetchComplete id s
  | .deadlineExpire id => Sys2Proof.Machine.execDeadlineExpire id s
  | .extentCopyComplete stack ext => Sys2Proof.Machine.execExtentCopyComplete stack ext s
  | .stackDrainComplete stack => Sys2Proof.Machine.execStackDrainComplete stack s
  | .stackValidClearDone stack => Sys2Proof.Machine.execStackValidClearDone stack s
  | .stackJoinStep stack => Sys2Proof.Machine.execStackJoinStep stack s
  | .stackFault stack => Sys2Proof.Machine.execStackFault stack s
  | .stackScrub stack corrected uncorrectable => Sys2Proof.Machine.execStackScrub stack corrected uncorrectable s
  | .ctxCreate c => Sys2Proof.Machine.execCtxCreate c s
  | .ctxDestroy c => Sys2Proof.Machine.execCtxDestroy c s
  | .ctxLaunch c => Sys2Proof.Machine.execCtxLaunch c s
  | .ctxSetPriority c => Sys2Proof.Machine.execCtxSetPriority c s
  | .ctxImageSave c => Sys2Proof.Machine.execCtxImageSave c s
  | .ctxImageLoad c => Sys2Proof.Machine.execCtxImageLoad c s
  | .ctxQuery c => Sys2Proof.Machine.execCtxQuery c s
  | .imageSaveComplete ctx => Sys2Proof.Machine.execImageSaveComplete ctx s
  | .imageLoadComplete ctx failed => Sys2Proof.Machine.execImageLoadComplete ctx failed s
  | .contextCold ctx => Sys2Proof.Machine.execContextCold ctx s
  | .stepMembersPresent ctx launch => Sys2Proof.Machine.execStepMembersPresent ctx launch s
  | .schedDecision => Sys2Proof.Machine.execSchedDecision s
  | .quantumEnd => Sys2Proof.Machine.execQuantumEnd s
  | .contextDrainEnd ctx => Sys2Proof.Machine.execContextDrainEnd ctx s
  | .contextSaveComplete ctx => Sys2Proof.Machine.execContextSaveComplete ctx s
  | .contextRestoreComplete ctx => Sys2Proof.Machine.execContextRestoreComplete ctx s
  | .turnBoundary => Sys2Proof.Machine.execTurnBoundary s
  | .turnLeadPoint => Sys2Proof.Machine.execTurnLeadPoint s
  | .turnSignalApply reach => Sys2Proof.Machine.execTurnSignalApply reach s
  | .rillStart reach runnel slot ctx => Sys2Proof.Machine.execRillStart reach runnel slot ctx s
  | .launchComplete ctx launch => Sys2Proof.Machine.execLaunchComplete ctx launch s
  | .rillReservedOpcode r => Sys2Proof.Machine.execRillReservedOpcode r s
  | .rillIadd r => Sys2Proof.Machine.execRillIadd r s
  | .rillIsub r => Sys2Proof.Machine.execRillIsub r s
  | .rillImul r => Sys2Proof.Machine.execRillImul r s
  | .rillImulhi r => Sys2Proof.Machine.execRillImulhi r s
  | .rillUmulhi r => Sys2Proof.Machine.execRillUmulhi r s
  | .rillIdiv r => Sys2Proof.Machine.execRillIdiv r s
  | .rillUdiv r => Sys2Proof.Machine.execRillUdiv r s
  | .rillIrem r => Sys2Proof.Machine.execRillIrem r s
  | .rillUrem r => Sys2Proof.Machine.execRillUrem r s
  | .rillIadd64 r => Sys2Proof.Machine.execRillIadd64 r s
  | .rillIsub64 r => Sys2Proof.Machine.execRillIsub64 r s
  | .rillImul64 r => Sys2Proof.Machine.execRillImul64 r s
  | .rillAnd r => Sys2Proof.Machine.execRillAnd r s
  | .rillOr r => Sys2Proof.Machine.execRillOr r s
  | .rillXor r => Sys2Proof.Machine.execRillXor r s
  | .rillNot r => Sys2Proof.Machine.execRillNot r s
  | .rillShl r => Sys2Proof.Machine.execRillShl r s
  | .rillShr r => Sys2Proof.Machine.execRillShr r s
  | .rillSar r => Sys2Proof.Machine.execRillSar r s
  | .rillRotl r => Sys2Proof.Machine.execRillRotl r s
  | .rillPopc r => Sys2Proof.Machine.execRillPopc r s
  | .rillClz r => Sys2Proof.Machine.execRillClz r s
  | .rillImin r => Sys2Proof.Machine.execRillImin r s
  | .rillImax r => Sys2Proof.Machine.execRillImax r s
  | .rillUmin r => Sys2Proof.Machine.execRillUmin r s
  | .rillUmax r => Sys2Proof.Machine.execRillUmax r s
  | .rillSel r => Sys2Proof.Machine.execRillSel r s
  | .rillMov r => Sys2Proof.Machine.execRillMov r s
  | .rillMovi r => Sys2Proof.Machine.execRillMovi r s
  | .rillIaddi r => Sys2Proof.Machine.execRillIaddi r s
  | .rillSetp r => Sys2Proof.Machine.execRillSetp r s
  | .rillPlop r => Sys2Proof.Machine.execRillPlop r s
  | .rillShfl r => Sys2Proof.Machine.execRillShfl r s
  | .rillVoteany r => Sys2Proof.Machine.execRillVoteany r s
  | .rillVoteall r => Sys2Proof.Machine.execRillVoteall r s
  | .rillBallot r => Sys2Proof.Machine.execRillBallot r s
  | .rillSreg r => Sys2Proof.Machine.execRillSreg r s
  | .rillFadd r => Sys2Proof.Machine.execRillFadd r s
  | .rillFsub r => Sys2Proof.Machine.execRillFsub r s
  | .rillFmul r => Sys2Proof.Machine.execRillFmul r s
  | .rillFfma r => Sys2Proof.Machine.execRillFfma r s
  | .rillFmin r => Sys2Proof.Machine.execRillFmin r s
  | .rillFmax r => Sys2Proof.Machine.execRillFmax r s
  | .rillFabs r => Sys2Proof.Machine.execRillFabs r s
  | .rillFneg r => Sys2Proof.Machine.execRillFneg r s
  | .rillFsetp r => Sys2Proof.Machine.execRillFsetp r s
  | .rillFdiv r => Sys2Proof.Machine.execRillFdiv r s
  | .rillFsqrt r => Sys2Proof.Machine.execRillFsqrt r s
  | .rillRcp r => Sys2Proof.Machine.execRillRcp r s
  | .rillRsq r => Sys2Proof.Machine.execRillRsq r s
  | .rillExp2 r => Sys2Proof.Machine.execRillExp2 r s
  | .rillLog2 r => Sys2Proof.Machine.execRillLog2 r s
  | .rillSinp r => Sys2Proof.Machine.execRillSinp r s
  | .rillCosp r => Sys2Proof.Machine.execRillCosp r s
  | .rillCvtn r => Sys2Proof.Machine.execRillCvtn r s
  | .rillCvtw r => Sys2Proof.Machine.execRillCvtw r s
  | .rillI2f r => Sys2Proof.Machine.execRillI2f r s
  | .rillF2i r => Sys2Proof.Machine.execRillF2i r s
  | .rillPack r => Sys2Proof.Machine.execRillPack r s
  | .rillUnpack r => Sys2Proof.Machine.execRillUnpack r s
  | .rillLd r => Sys2Proof.Machine.execRillLd r s
  | .rillSt r => Sys2Proof.Machine.execRillSt r s
  | .rillAadd r => Sys2Proof.Machine.execRillAadd r s
  | .rillAsmin r => Sys2Proof.Machine.execRillAsmin r s
  | .rillAsmax r => Sys2Proof.Machine.execRillAsmax r s
  | .rillAumin r => Sys2Proof.Machine.execRillAumin r s
  | .rillAumax r => Sys2Proof.Machine.execRillAumax r s
  | .rillAand r => Sys2Proof.Machine.execRillAand r s
  | .rillAor r => Sys2Proof.Machine.execRillAor r s
  | .rillAxor r => Sys2Proof.Machine.execRillAxor r s
  | .rillAxchg r => Sys2Proof.Machine.execRillAxchg r s
  | .rillAcas r => Sys2Proof.Machine.execRillAcas r s
  | .rillAfadd r => Sys2Proof.Machine.execRillAfadd r s
  | .rillFence r => Sys2Proof.Machine.execRillFence r s
  | .rillBra r => Sys2Proof.Machine.execRillBra r s
  | .rillExit r => Sys2Proof.Machine.execRillExit r s
  | .rillBarsync r => Sys2Proof.Machine.execRillBarsync r s
  | .rillBararrive r => Sys2Proof.Machine.execRillBararrive r s
  | .rillSigadd r => Sys2Proof.Machine.execRillSigadd r s
  | .rillSigset r => Sys2Proof.Machine.execRillSigset r s
  | .rillSigwait r => Sys2Proof.Machine.execRillSigwait r s
  | .rillNap r => Sys2Proof.Machine.execRillNap r s
  | .rillNapExpire r => Sys2Proof.Machine.execRillNapExpire r s
  | .rillPass r => Sys2Proof.Machine.execRillPass r s
  | .rillTscale r => Sys2Proof.Machine.execRillTscale r s
  | .rillFlaunch r => Sys2Proof.Machine.execRillFlaunch r s
  | .rillFetch r => Sys2Proof.Machine.execRillFetch r s
  | .rillUwait r => Sys2Proof.Machine.execRillUwait r s
  | .rillUpoll r => Sys2Proof.Machine.execRillUpoll r s
  | .unitOpAcceptance r => Sys2Proof.Machine.execUnitOpAcceptance r s
  | .passStart reach tile quad => Sys2Proof.Machine.execPassStart reach tile quad s
  | .slotGate reach tile quad => Sys2Proof.Machine.execSlotGate reach tile quad s
  | .passComplete reach tile quad faults => Sys2Proof.Machine.execPassComplete reach tile quad faults s
  | .tileSelfTestDone reach tile quads failed => Sys2Proof.Machine.execTileSelfTestDone reach tile quads failed s
  | .tileDrainComplete reach tile quad => Sys2Proof.Machine.execTileDrainComplete reach tile quad s
  | .tileJoinCountReached reach tile quad => Sys2Proof.Machine.execTileJoinCountReached reach tile quad s
  | .flumeProgramStart f => Sys2Proof.Machine.execFlumeProgramStart f s
  | .flumeNop f => Sys2Proof.Machine.execFlumeNop f s
  | .flumeLoop f => Sys2Proof.Machine.execFlumeLoop f s
  | .flumeEndl f => Sys2Proof.Machine.execFlumeEndl f s
  | .flumeSeta f => Sys2Proof.Machine.execFlumeSeta f s
  | .flumeStride f => Sys2Proof.Machine.execFlumeStride f s
  | .flumeMove f => Sys2Proof.Machine.execFlumeMove f s
  | .flumeGather f => Sys2Proof.Machine.execFlumeGather f s
  | .flumeSignal f => Sys2Proof.Machine.execFlumeSignal f s
  | .flumeWait f => Sys2Proof.Machine.execFlumeWait f s
  | .flumeShadow f => Sys2Proof.Machine.execFlumeShadow f s
  | .flumeEnd f => Sys2Proof.Machine.execFlumeEnd f s
  | .flumeReadIssue f upset => Sys2Proof.Machine.execFlumeReadIssue f upset s
  | .flumeEmit f dkind => Sys2Proof.Machine.execFlumeEmit f dkind s
  | .flumeProgramComplete f => Sys2Proof.Machine.execFlumeProgramComplete f s
  | .flumeWaitTimeout f => Sys2Proof.Machine.execFlumeWaitTimeout f s
  | .sluiceAdmit island sluice => Sys2Proof.Machine.execSluiceAdmit island sluice s
  | .sweepStart coll sweep => Sys2Proof.Machine.execSweepStart coll sweep s
  | .poolDispatch sweep island units => Sys2Proof.Machine.execPoolDispatch sweep island units s
  | .sievePoolDone sweep pool fault => Sys2Proof.Machine.execSievePoolDone sweep pool fault s
  | .sweepComplete sweep => Sys2Proof.Machine.execSweepComplete sweep s
  | .sieveSelfTestDone island unit failed => Sys2Proof.Machine.execSieveSelfTestDone island unit failed s
  | .sieveDrainComplete island unit => Sys2Proof.Machine.execSieveDrainComplete island unit s
  | .sieveJoinCountReached island unit => Sys2Proof.Machine.execSieveJoinCountReached island unit s
  | .collCreate c => Sys2Proof.Machine.execCollCreate c s
  | .collDelete c => Sys2Proof.Machine.execCollDelete c s
  | .poolAppend c => Sys2Proof.Machine.execPoolAppend c s
  | .searchVector c => Sys2Proof.Machine.execSearchVector c s
  | .searchContent c => Sys2Proof.Machine.execSearchContent c s
  | .poolCompact c => Sys2Proof.Machine.execPoolCompact c s
  | .braidSetNode c => Sys2Proof.Machine.execBraidSetNode c s
  | .braidRemoveNode c => Sys2Proof.Machine.execBraidRemoveNode c s
  | .braidSetEntries c => Sys2Proof.Machine.execBraidSetEntries c s
  | .collStats c => Sys2Proof.Machine.execCollStats c s
  | .mediaDecode c => Sys2Proof.Machine.execMediaDecode c s
  | .decodeStart d => Sys2Proof.Machine.execDecodeStart d s
  | .decodeComplete n fault => Sys2Proof.Machine.execDecodeComplete n fault s
  | .mediaSelfTestDone island unit failed => Sys2Proof.Machine.execMediaSelfTestDone island unit failed s
  | .mediaDrainComplete island unit => Sys2Proof.Machine.execMediaDrainComplete island unit s
  | .mediaJoinCountReached island unit => Sys2Proof.Machine.execMediaJoinCountReached island unit s
  | .rIdentify c => Sys2Proof.Machine.execRIdentify c s
  | .rRead c => Sys2Proof.Machine.execRRead c s
  | .rWrite c => Sys2Proof.Machine.execRWrite c s
  | .rFlush c => Sys2Proof.Machine.execRFlush c s
  | .rTrim c => Sys2Proof.Machine.execRTrim c s
  | .rEmbed c => Sys2Proof.Machine.execREmbed c s
  | .rSearch c => Sys2Proof.Machine.execRSearch c s
  | .dieOpIssue chan die => Sys2Proof.Machine.execDieOpIssue chan die s
  | .journalPageDue chan die => Sys2Proof.Machine.execJournalPageDue chan die s
  | .flashReadDone chan die outcome => Sys2Proof.Machine.execFlashReadDone chan die outcome s
  | .programDone chan die ok => Sys2Proof.Machine.execProgramDone chan die ok s
  | .eraseDone chan die ok => Sys2Proof.Machine.execEraseDone chan die ok s
  | .suspendHoldExpire chan die => Sys2Proof.Machine.execSuspendHoldExpire chan die s
  | .suspendDone chan die => Sys2Proof.Machine.execSuspendDone chan die s
  | .dieTimeout chan die cause => Sys2Proof.Machine.execDieTimeout chan die cause s
  | .lineTestPeriodic chan cause die => Sys2Proof.Machine.execLineTestPeriodic chan cause die s
  | .channelTestComplete chan found => Sys2Proof.Machine.execChannelTestComplete chan found s
  | .channelDrainComplete chan => Sys2Proof.Machine.execChannelDrainComplete chan s
  | .channelJoinComplete chan => Sys2Proof.Machine.execChannelJoinComplete chan s
  | .slotPlace island slot => Sys2Proof.Machine.execSlotPlace island slot s
  | .rowPadTimeout stripe => Sys2Proof.Machine.execRowPadTimeout stripe s
  | .rowComplete stripe row => Sys2Proof.Machine.execRowComplete stripe row s
  | .gcStart group => Sys2Proof.Machine.execGcStart group s
  | .gcSwitch victim failed => Sys2Proof.Machine.execGcSwitch victim failed s
  | .memberReplaceStart stripe idx => Sys2Proof.Machine.execMemberReplaceStart stripe idx s
  | .memberReplaceComplete stripe idx copied => Sys2Proof.Machine.execMemberReplaceComplete stripe idx copied s
  | .patrolRead island => Sys2Proof.Machine.execPatrolRead island s
  | .patrolPeriodEnd island => Sys2Proof.Machine.execPatrolPeriodEnd island s
  | .journalCheckpoint island => Sys2Proof.Machine.execJournalCheckpoint island s
  | .nandTempRead island temps => Sys2Proof.Machine.execNandTempRead island temps s
  | .bucketLeak island => Sys2Proof.Machine.execBucketLeak island s
  | .fatalError => Sys2Proof.Machine.execFatalError s
  | .protTestWrite port island value => Sys2Proof.Machine.execProtTestWrite port island value s
  | .protTestRead port island value => Sys2Proof.Machine.execProtTestRead port island value s
  | .protTestCodec port island value => Sys2Proof.Machine.execProtTestCodec port island value s
  | .protFlipArm port island value => Sys2Proof.Machine.execProtFlipArm port island value s
  | .weirRenegotiate requests draws volt current host => Sys2Proof.Machine.execWeirRenegotiate requests draws volt current host s
  | .currentOverGrant island draw => Sys2Proof.Machine.execCurrentOverGrant island draw s
  | .thermalThrottle sensor temp => Sys2Proof.Machine.execThermalThrottle sensor temp s
  | .reachCritical reach temp => Sys2Proof.Machine.execReachCritical reach temp s
  | .thermalAbort sensor temp => Sys2Proof.Machine.execThermalAbort sensor temp s
  | .reachSelfTestDone reach failed => Sys2Proof.Machine.execReachSelfTestDone reach failed s
  | .reachDrainComplete reach => Sys2Proof.Machine.execReachDrainComplete reach s
  | .reachJoinQuantum reach => Sys2Proof.Machine.execReachJoinQuantum reach s
  | .weirOrderHalt port => Sys2Proof.Machine.execWeirOrderHalt port s
  | .weirOrderReset port => Sys2Proof.Machine.execWeirOrderReset port s
  | .weirOrderRestart port => Sys2Proof.Machine.execWeirOrderRestart port s
  | .modResetAssert => Sys2Proof.Machine.execModResetAssert s
  | .modResetRelease => Sys2Proof.Machine.execModResetRelease s
  | .powerFailDetect => Sys2Proof.Machine.execPowerFailDetect s
  | .flushComplete => Sys2Proof.Machine.execFlushComplete s
  | .overVoltage => Sys2Proof.Machine.execOverVoltage s
  | .overCurrent => Sys2Proof.Machine.execOverCurrent s
  | .converterTrip rail index => Sys2Proof.Machine.execConverterTrip rail index s
  | .holdupMeasure energy => Sys2Proof.Machine.execHoldupMeasure energy s
  | .freqMark => Sys2Proof.Machine.execFreqMark s
  | .counterEnable port island value => Sys2Proof.Machine.execCounterEnable port island value s
  | .counterClear port island value => Sys2Proof.Machine.execCounterClear port island value s
  | .sampleCapture island counter => Sys2Proof.Machine.execSampleCapture island counter s
  | .cntSmpTailWrite port island value => Sys2Proof.Machine.execCntSmpTailWrite port island value s
  | .bwWindowEnd island => Sys2Proof.Machine.execBwWindowEnd island s
  | .mgmtQuoteRequest port value => Sys2Proof.Machine.execMgmtQuoteRequest port value s
  | .mgmtRead frame => Sys2Proof.Machine.execMgmtRead frame s
  | .mgmtWrite frame => Sys2Proof.Machine.execMgmtWrite frame s
  | .mgmtResponse n => Sys2Proof.Machine.execMgmtResponse n s
  | .setdasa static dyn => Sys2Proof.Machine.execSetdasa static dyn s
  | .entdaa dyn => Sys2Proof.Machine.execEntdaa dyn s
  | .rstdaa => Sys2Proof.Machine.execRstdaa s
  | .jtagIdcode tap => Sys2Proof.Machine.execJtagIdcode tap s
  | .jtagBypass tap code => Sys2Proof.Machine.execJtagBypass tap code s
  | .jtagSamplePreload tap shifted => Sys2Proof.Machine.execJtagSamplePreload tap shifted s
  | .jtagExtest tap shifted => Sys2Proof.Machine.execJtagExtest tap shifted s
  | .laneRepair mdl repaired => Sys2Proof.Machine.execLaneRepair mdl repaired s
  | .holdupCharged energy => Sys2Proof.Machine.execHoldupCharged energy s
  | .trstNAssert => Sys2Proof.Machine.execTrstNAssert s

end Sys2Proof.Machine
end

