-- ==== Sys2Proof/Safety.lean ====
section
/-!
DEFINITION. Safety.lean: the forms a state keeps, in which claims are stated: memory in its canonical form, the sparse
maps with rising keys, and what a claim calls the result of a command.
-/
namespace Sys2Proof.Machine

/-- Memory in its canonical form: addresses strictly rising, no entry equal to the 0 that an unlisted byte reads as. -/
def Memory.wf (m : List Host.Cell) : Bool := mCanon 0 m

/-- The forms every step keeps: canonical memory, and rising keys in the register store, its pending and active sets, the
cycle counters, the rills and the tiles. -/
def State.wf (s : State) : Bool :=
  Memory.wf s.mem.bytes && mSorted none s.regs && mSorted none s.act && mSorted none s.pend
    && mSorted none s.counters.cycles && mSorted none s.runnels.rills && mSorted none s.tiles

/-- The maps of a rill have rising keys. -/
def Rill.form (r : Rill) : Bool :=
  mSorted none r.regs && mSorted none r.poison && mSorted none r.preds && mSorted none r.hi && mSorted none r.tickets

/-- Rising keys in the further maps that claims read: poison, the ranges of the valid flags, the counters, barriers and signals, rills and saved rills, flume
programs and sluices, held turns, and flash: logical blocks, the map, write-buffer slots, dies and plane sets. -/
def State.mapsWf (s : State) : Bool :=
  mSorted none s.mem.poison && rSorted 0 s.mem.valid && mSorted none s.counters.values && mSorted none s.counters.bytes && mSorted none s.counters.lastBytes
    && mSorted none s.counters.marks && mSorted none s.counters.win && mSorted none s.counters.latches
    && mSorted none s.runnels.saved && mSorted none s.runnels.signals && mSorted none s.runnels.barriers
    && s.runnels.rills.all (fun p => p.2.form) && s.runnels.saved.all (fun p => p.2.form)
    && mSorted none s.flume.progs && mSorted none s.flume.sluices && s.flume.progs.all (fun p => p.2.all (fun q => mSorted none q.stride))
    && mSorted none s.sched.turnHeld
    && mSorted none s.flash.blocks && mSorted none s.flash.lostBlocks && mSorted none s.flash.map && mSorted none s.flash.slots
    && mSorted none s.flash.dies && mSorted none s.flash.sets

/-- The command answers a next state that has a property. -/
def Gives (c : Instr) (s : State) (P : State → Prop) : Prop := ∃ t, exec c s = .next t ∧ P t

end Sys2Proof.Machine
end

