-- ==== Sys2Proof/Certificates/Slice0/Obligations.lean ====
section
/-!
DEFINITION. Certificates/Slice0/Obligations.lean: the statements, family by family in the order of the opcode table, with the
words they are stated in. A docstring names the rule a statement formalises, and the log entry of every part that is the
model's choice.
-/
namespace Sys2Proof.Machine

/-! ### Words of the statements -/

/-- Register fields other than the listed keys are as they were. -/
def RegsBut (s t : State) (ks : List Nat) : Prop := ∀ k, k ∉ ks → mfind t.regs k = mfind s.regs k

/-- Of all but the registers, at most a decision is owed for a unit that has changed state (R276). -/
def UnitMoves (s t : State) : Prop :=
  ∃ l, t = { s with regs := t.regs, sched := { s.sched with owed := s.sched.owed ++ l } } ∧ l = (if working s then [false] else [])

/-- At most port bytes and sluice levels changed. -/
def Metered (s t : State) : Prop := t = { s with flume := t.flume, counters := t.counters }

/-- A port (0 host, 1 management, 2 sideband) can reach a register of an island (R49, R62, R507, R516). -/
def CanReach (s : State) (port isl : Nat) : Prop :=
  portUp s port = true ∧ enabled s isl = true ∧ (s.boot.applied = true ∨ isl = 59 ∨ (port ≠ 1 ∧ (isl = 56 ∨ isl = 58)))

/-- A write of a word to a register meets the conditions of R9 to R12: owner, access types, reserved bits, legal values. -/
def WordOk (s : State) (port isl : Nat) (r : Reg) (i v : Nat) : Prop :=
  v < 2 ^ 32 ∧ (r.owner = .both ∨ r.owner = (if port = 1 then .mgmt else .host)) ∧ r.fields.all (fun f => f.acc == .ro) = false
    ∧ legalWord s isl r v = true ∧ lkFree s isl r i = true

/-- Registers whose write does more than R9 says: each has a rule and a row of its own, or is a commit register. -/
def specialRegs : List Nat :=
  [R.DQP_CTRL.num, R.DQP_SB_IMG_CTRL.num, R.DQP_SB_IMG_DATA.num, R.DQP_SB_IMG_LEN.num, R.TM_CTRL.num, R.SCHED_CFG.num, R.PROT_TCTRL.num,
   R.PROT_FLIP_CTRL.num, R.PROT_STATUS.num, R.CNT_CTRL.num, R.CNT_SMP_TAIL.num, R.ID_MQ_CTRL.num, R.WEIR_ORDER.num, R.WEIR_CAP.num]
    ++ groupTable.map (·.commit)

/-- The answer of an access on a port. -/
def answer (port addr status value : Nat) : Output := .access port addr status value

/-- What a write leaves in bit `b` of a field: the bit written, or what R9 says of its type. -/
def bitAfter (acc : Acc) (old v b : Nat) : Bool :=
  match acc with
  | .rw | .st | .lk => v.testBit b
  | .w1c => old.testBit b && !v.testBit b
  | .ro | .cm => old.testBit b

/-- Keys of a commit group's instance. -/
def GroupKey (g : Group) (isl i k : Nat) : Prop := g.holds isl i k = true

/-- The unit of a commit group runs and is at the safe point R56 names for the group (R53, R56, R287, R333). -/
def SafePoint (s : State) (g : Group) (isl i : Nat) : Prop := clockRuns s isl = true ∧ atSafePoint s g isl i = true

/-- No order that reached the arbiter before, or that waits, can conflict with one in hand (R90). -/
def NoRival (s : State) : Prop := s.dqp.orders = [] ∧ waitingOrders s = []

/-- A tile with the lateness of its LOADs left out. -/
def noDue (x : Nat × Tile) : Nat × Tile := (x.1, { x.2 with flight := x.2.flight.map (fun p => { p with due := none }) })

end Sys2Proof.Machine

open Sys2Proof Sys2Proof.Machine

/-! ## The queue of commands and the step -/

/-- One step runs the command at the front of the queue, with the queue's rest. -/
def Obligations.StepRunsTheFrontCommand : Prop :=
  ∀ (c : Instr) (rest : List Instr) (s : State), s.pending = c :: rest → step s = exec c { s with pending := rest }

/-- On an empty queue a step is one cycle of every island whose clock runs, and nothing of memory, command queues, contexts or
media changes; of a pass in flight at most the cycle at which its LOAD wants its next row, which a row that has not come puts
off (the model's choice, notes/assumptions 2; R6 and R474 give the counters their rate). -/
def Obligations.StepOnAnEmptyQueueIsACycle : Prop :=
  ∀ s : State, State.wf s = true → s.pending = [] →
    ∃ t, step s = .next t
      ∧ (∀ i, i < 60 → cyc t i = if clockRuns s i then (cyc s i + 1) % 2 ^ 64 else cyc s i)
      ∧ t.mem = s.mem ∧ t.dqp = s.dqp ∧ t.flash = s.flash ∧ t.sched = s.sched ∧ t.runnels = s.runnels
      ∧ t.tiles.map noDue = s.tiles.map noDue ∧ t.flume = s.flume ∧ t.search = s.search ∧ t.media = s.media ∧ t.boot = s.boot ∧ t.ident = s.ident ∧ t.weir = s.weir
      ∧ t.mgmt = s.mgmt ∧ t.jtag = s.jtag ∧ t.out = s.out ∧ t.pending = []

/-- No command touches the queue: a step takes its front and leaves the rest in order. -/
def Obligations.CommandsRunFirstInFirstOut : Prop :=
  ∀ s t : State, step s = .next t → t.pending = s.pending.tail

/-- Memory stays canonical and every sparse map keeps its rising keys over each step. -/
def Obligations.StepKeepsTheForms : Prop :=
  ∀ s t : State, State.wf s = true → step s = .next t → State.wf t = true

/-- The further sparse maps that statements read keep their rising keys too; a statement that assumes the form of one of them
assumes a part of this. -/
def Obligations.StepKeepsTheFurtherForms : Prop :=
  ∀ s t : State, State.mapsWf s = true → step s = .next t → State.mapsWf t = true

/-- The state after reset has those forms. -/
def Obligations.ResetHasTheForms : Prop :=
 State.wf State.reset = true ∧ State.mapsWf State.reset = true

/-! ## Registers (R8-R12, R49-R53, R62, R63) -/

/-- A write that meets R10 to R12 changes each field of its register as R9 says for the field's type, no other field, and
nothing else of the module; it completes with 0. A `_LO` or `_HI` register is a register like another here.
A write that R9 to R12, R49 or R57 reject changes nothing, and its status is that rule's: 0x1004 in an island that is not
enabled (offsets 0x00 to 0x0F aside), 0x1002 where no register lies, 0x1006 from a port that does not own it, 0x1002 for a
register of read-only fields, a reserved bit or an illegal value, 0x1005 while the unit is busy. The order of the tests is
that of R497. A write of another width than 32 bits, at an address that is not a multiple of 4 or outside configuration space
is rejected with 0x1002 (R8).
A read of a `_LO` register returns the low 32 bits of its 64-bit value and latches the rest for the port that read, so
that the matching `_HI` register then shows that port bits 63 to 32 of the same value; nothing else changes (R474). -/
def Obligations.RegisterAccessesFollowTheRules : Prop :=
  (∀ (s : State) (port addr v isl off : Nat) (r : Reg) (i j : Nat),
    State.wf s = true → islandAt addr = some (isl, off) → addr % 4 = 0 → findReg isl off = some (r, i, j) → CanReach s port isl →
    WordOk s port isl r i v → r.num ∉ specialRegs →
    Gives (.regWrite port ⟨addr, 4⟩ v) s fun t =>
      (∀ f ∈ r.fields, ∀ b, b < f.w → (getF t isl f i j).testBit b = bitAfter f.acc (getF s isl f i j) (bits v f.lo f.w) b)
        ∧ RegsBut s t (r.fields.map (fun f => fieldKey isl f i j))
        ∧ t = { s with regs := t.regs, out := s.out ++ [answer port addr 0 0] })
    ∧ (∀ (s : State) (port addr v isl off : Nat),
    islandAt addr = some (isl, off) → addr % 4 = 0 → v < 2 ^ 32 → portUp s port = true →
    (s.boot.applied = true ∨ isl = 59 ∨ (port ≠ 1 ∧ (isl = 56 ∨ isl = 58))) →
    (answers s isl off = false → exec (.regWrite port ⟨addr, 4⟩ v) s = .next { s with out := s.out ++ [answer port addr 0x1004 0] })
      ∧ (answers s isl off = true → findReg isl off = none →
          exec (.regWrite port ⟨addr, 4⟩ v) s = .next { s with out := s.out ++ [answer port addr 0x1002 0] })
      ∧ (answers s isl off = true → ∀ (r : Reg) (i j : Nat), findReg isl off = some (r, i, j) →
          ((r.owner ≠ .both ∧ r.owner ≠ (if port = 1 then .mgmt else .host)) →
            exec (.regWrite port ⟨addr, 4⟩ v) s = .next { s with out := s.out ++ [answer port addr 0x1006 0] })
          ∧ ((r.owner = .both ∨ r.owner = (if port = 1 then .mgmt else .host)) →
            ((r.fields.all (fun f => f.acc == .ro) = true ∨ legalWord s isl r v = false) →
              exec (.regWrite port ⟨addr, 4⟩ v) s = .next { s with out := s.out ++ [answer port addr 0x1002 0] })
            ∧ ((r.fields.all (fun f => f.acc == .ro) = false ∧ legalWord s isl r v = true ∧ lkFree s isl r i = false) →
              exec (.regWrite port ⟨addr, 4⟩ v) s = .next { s with out := s.out ++ [answer port addr 0x1005 0] }))))
    ∧ (∀ (s : State) (port addr width v : Nat), portUp s port = true → (islandAt addr = none ∨ addr % 4 ≠ 0 ∨ width ≠ 4) →
    exec (.regWrite port ⟨addr, width⟩ v) s = .next { s with out := s.out ++ [answer port addr 0x1002 0] })
    ∧ (∀ (s : State) (port addr isl off : Nat) (r : Reg) (i j x : Nat),
    mSorted none s.counters.latches = true → islandAt addr = some (isl, off) → addr % 4 = 0 → findReg isl off = some (r, i, j) →
    CanReach s port isl → (port = 1 → r.hostReadOnly = false) → pairOf s isl r.num i = some x → x < 2 ^ 64 →
    Gives (.loReadLatch port addr) s fun t =>
      t.out = s.out ++ [answer port addr 0 (x % 2 ^ 32)]
        ∧ (∀ hi : Reg, loOf hi.num = some r.num → viewReg t (b2n (port == 1)) isl hi i j = x / 2 ^ 32)
        ∧ t = { s with counters := { s.counters with latches := t.counters.latches }, out := t.out })

/-- A write of 1 to GO of a group whose staged set is consistent makes the pending set a copy of the staged set, adds one to
COMMITTED modulo 256 and sets PENDING; with an inconsistent set it completes with 0x1003 and nothing changes (R52). Nothing else
changes, but that a new turnout table changes which turns are to come for the scheduler (R271, R285). The cap group of island 59 is
here where no other order is on record or waits, so that the arbiter of R90 lets it pass. -/
def Obligations.GroupCommitCopiesTheStagedSet : Prop :=
  ∀ (s : State) (port addr isl off : Nat) (r : Reg) (i j : Nat) (g : Group),
    State.wf s = true → islandAt addr = some (isl, off) → addr % 4 = 0 → findReg isl off = some (r, i, j) → CanReach s port isl →
    WordOk s port isl r i 1 → groupTable.find? (fun g => g.commit == r.num) = some g →
    (consistent s g isl i = false → exec (.groupCommit port addr 1) s = .next { s with out := s.out ++ [answer port addr 0x1003 0] })
    ∧ (consistent s g isl i = true → NoRival s →
      Gives (.groupCommit port addr 1) s fun t =>
        (∀ k, GroupKey g isl i k → mfind t.pend k = mfind s.regs k)
          ∧ (∀ k, ¬ GroupKey g isl i k → mfind t.pend k = mfind s.pend k)
          ∧ getF t isl g.committed i = (getF s isl g.committed i + 1) % 256 ∧ getF t isl g.pending i = 1
          ∧ RegsBut s t [fieldKey isl g.committed i 0, fieldKey isl g.pending i 0]
          ∧ t = { s with regs := t.regs, pend := t.pend, sched := t.sched, dqp := { s.dqp with orders := t.dqp.orders }, out := s.out ++ [answer port addr 0 0] }
          ∧ (g.commit ≠ R.SCHED_GROUP_TURNOUT_COMMIT.num → t.sched = s.sched))

/-- At a safe point a unit with PENDING = 1 copies its pending set to its active set, sets ADOPTED to COMMITTED and clears
PENDING (R53). A tile whose MODE changes discards its stationary activations (R149). For the turnout table the safe point here is
the empty table (R287): its values come over cut to their widths. -/
def Obligations.GroupAdoptCopiesThePendingSet : Prop :=
  ∀ (s : State) (addr isl off : Nat) (r : Reg) (i j : Nat) (g : Group),
    State.wf s = true → islandAt addr = some (isl, off) → findReg isl off = some (r, i, j) →
    groupTable.find? (fun g => g.commit == r.num) = some g → present s isl = true → getF s isl g.pending i = 1 → SafePoint s g isl i →
    (g.commit ≠ R.SCHED_GROUP_TURNOUT_COMMIT.num →
      Gives (.groupAdopt addr) s fun t =>
        (∀ k, GroupKey g isl i k → mfind t.act k = mfind s.pend k) ∧ (∀ k, ¬ GroupKey g isl i k → mfind t.act k = mfind s.act k)
          ∧ getF t isl g.adopted i = getF t isl g.committed i ∧ getF t isl g.pending i = 0 ∧ t.pend = s.pend ∧ t.mem = s.mem
          ∧ (g.commit = R.TILE_GROUP_FMT_COMMIT.num → getA t isl F.TILE_FMT_MODE i ≠ getA s isl F.TILE_FMT_MODE i → (getTile t isl i).keep = none))
    ∧ (g.commit = R.SCHED_GROUP_TURNOUT_COMMIT.num → getA s 57 F.SCHED_TURN_CNT_COUNT = 0 →
      Gives (.groupAdopt addr) s fun t =>
        getA t 57 F.SCHED_TURN_CNT_COUNT = getP s 57 F.SCHED_TURN_CNT_COUNT % 2 ^ F.SCHED_TURN_CNT_COUNT.w
          ∧ (∀ n, n < 256 →
              getA t 57 F.SCHED_TURN_DUR_DURATION n = getP s 57 F.SCHED_TURN_DUR_DURATION n % 2 ^ F.SCHED_TURN_DUR_DURATION.w
              ∧ getA t 57 F.SCHED_TURN_MASK_REACH_MASK n = getP s 57 F.SCHED_TURN_MASK_REACH_MASK n % 2 ^ F.SCHED_TURN_MASK_REACH_MASK.w
              ∧ getA t 57 F.SCHED_TURN_GROUP_GROUP n = getP s 57 F.SCHED_TURN_GROUP_GROUP n % 2 ^ F.SCHED_TURN_GROUP_GROUP.w)
          ∧ getF t 57 g.adopted = getF t 57 g.committed % 256 ∧ getF t 57 g.pending = 0 ∧ getF t 57 F.SCHED_STATUS_TURN = 0)

/-- A sideband packet reads or writes the register its low 22 address bits name, with owner port Host, and is answered on the
sideband (R62): a packet is the access that R8 to R12 and R49 describe, at that address, whatever it ends in. A write of a plain
register has the effect of R9; a read that latches nothing changes nothing; a read of a `_LO` register latches the other half for
the host (R474); another width or a misaligned address is rejected with 0x1002 (R8).
The sideband image (R63). While the module waits for one: CMD 1 opens a transfer with COUNT 0; a DATA write appends the bytes of its
word that still fit in LENGTH, those beyond being 0; CMD 2 with COUNT = LENGTH hands the bytes to check(), whose code is RESULT,
0x7004 where their number is not the image's own length. With 0 start-up step 3 ends with the image active from the sideband; with
another code the image is discarded and the module waits on (that COUNT is 0 then is DEDUCED, notes/assumptions 11); no register but CMD and
RESULT changes where no counter of island 58 runs, which a verified signature advances (R478).
Otherwise each of the three is rejected with 0x1003: no image is awaited, LENGTH is reached, a byte beyond LENGTH is not 0, or
COUNT is not LENGTH; nothing else changes but that CMD reads 0. -/
def Obligations.SidebandPortAndImage : Prop :=
  (∀ (s : State) (a w v : Nat),
    exec (.sidebandRegAccess true ⟨a, w⟩ v) s = exec (.regWrite 2 ⟨configBase + a % 2 ^ 22, w⟩ v) s
    ∧ exec (.sidebandRegAccess false ⟨a, 4⟩ v) s = exec (.loReadLatch 2 (configBase + a % 2 ^ 22)) s
    ∧ (portUp s 2 = true → (a % 4 ≠ 0 ∨ w ≠ 4) → ∀ b,
        exec (.sidebandRegAccess b ⟨a, w⟩ v) s = .next { s with out := s.out ++ [answer 2 (configBase + a % 2 ^ 22) 0x1002 0] }))
    ∧ (∀ (s : State) (a v isl off : Nat) (r : Reg) (i j : Nat),
    State.wf s = true → islandAt (configBase + a % 2 ^ 22) = some (isl, off) → a % 4 = 0 → findReg isl off = some (r, i, j) →
    CanReach s 2 isl →
    (WordOk s 2 isl r i v → r.num ∉ specialRegs →
      Gives (.sidebandRegAccess true ⟨a, 4⟩ v) s fun t =>
        (∀ f ∈ r.fields, ∀ b, b < f.w → (getF t isl f i j).testBit b = bitAfter f.acc (getF s isl f i j) (bits v f.lo f.w) b)
          ∧ RegsBut s t (r.fields.map (fun f => fieldKey isl f i j))
          ∧ t = { s with regs := t.regs, out := s.out ++ [answer 2 (configBase + a % 2 ^ 22) 0 0] })
    ∧ (pairOf s isl r.num i = none →
      exec (.sidebandRegAccess false ⟨a, 4⟩ v) s
        = .next { s with out := s.out ++ [answer 2 (configBase + a % 2 ^ 22) 0 (viewReg s 0 isl r i j)] })
    ∧ (∀ x, pairOf s isl r.num i = some x → x < 2 ^ 64 → mSorted none s.counters.latches = true →
      Gives (.sidebandRegAccess false ⟨a, 4⟩ v) s fun t =>
        t.out = s.out ++ [answer 2 (configBase + a % 2 ^ 22) 0 (x % 2 ^ 32)]
          ∧ (∀ hi : Reg, loOf hi.num = some r.num → viewReg t 0 isl hi i j = x / 2 ^ 32)
          ∧ t = { s with counters := { s.counters with latches := t.counters.latches }, out := t.out }))
    ∧ (∀ (s : State) (v : Nat), State.wf s = true → CanReach s 2 56 → v < 2 ^ 32 →
    let said (reg : Reg) (st : Nat) : Output := answer 2 (regAddr 56 reg.num 0) st 0
    let n := s.dqp.sbImage.length
    let len := getF s 56 F.DQP_SB_IMG_LEN_LENGTH
    let left := len - n
    (getF s 56 F.DQP_SB_IMG_STAT_WAITING = 1 →
      (Gives .sbImgOpen s fun t => t = { s with regs := t.regs, dqp := { s.dqp with sbImage := [] }, out := s.out ++ [said R.DQP_SB_IMG_CTRL 0] }
        ∧ getF t 56 F.DQP_SB_IMG_CTRL_CMD = 0 ∧ RegsBut s t [fieldKey 56 F.DQP_SB_IMG_CTRL_CMD 0 0])
      ∧ (0 < left → (left < 4 → v < 256 ^ left) →
        Gives (.sbImgData v) s fun t =>
          t = { s with regs := t.regs, dqp := { s.dqp with sbImage := s.dqp.sbImage ++ (toBytes 4 v).take left }, out := s.out ++ [said R.DQP_SB_IMG_DATA 0] }
          ∧ RegsBut s t [fieldKey 56 F.DQP_SB_IMG_DATA_DATA 0 0])
      ∧ (n = len →
        Gives .sbImgSubmit s fun t =>
          let code := if n = imgLength s.dqp.sbImage then checkImage s (getF s 58 F.IMG_COUNTER_COUNTER) s.dqp.sbImage else 0x7004
          getF t 56 F.DQP_SB_IMG_RESULT_RESULT = code % 2 ^ 16 ∧ t.out = s.out ++ [said R.DQP_SB_IMG_CTRL 0]
            ∧ (code = 0 → t.boot.active = s.dqp.sbImage ∧ getF t 58 F.IMG_STATUS_SOURCE = 3 ∧ getF t 59 F.WEIR_STATUS_STEP = 3
                ∧ getF t 56 F.DQP_SB_IMG_STAT_WAITING = 0)
            ∧ (code ≠ 0 → t.boot = s.boot ∧ t.dqp = { s.dqp with sbImage := [] } ∧ getF t 56 F.DQP_SB_IMG_STAT_WAITING = 1
                ∧ (getF s 58 F.CNT_CTRL_EN = 0 →
                    RegsBut s t [fieldKey 56 F.DQP_SB_IMG_CTRL_CMD 0 0, fieldKey 56 F.DQP_SB_IMG_RESULT_RESULT 0 0])))
      ∧ ((left = 0 ∨ (left < 4 ∧ 256 ^ left ≤ v)) → exec (.sbImgData v) s = .next { s with out := s.out ++ [said R.DQP_SB_IMG_DATA 0x1003] })
      ∧ (n ≠ len → Gives .sbImgSubmit s fun t => t = { s with regs := t.regs, out := s.out ++ [said R.DQP_SB_IMG_CTRL 0x1003] }
          ∧ RegsBut s t [fieldKey 56 F.DQP_SB_IMG_CTRL_CMD 0 0]))
    ∧ (getF s 56 F.DQP_SB_IMG_STAT_WAITING = 0 →
      exec .sbImgOpen s = .next { s with out := s.out ++ [said R.DQP_SB_IMG_CTRL 0x1003] }
        ∧ exec (.sbImgData v) s = .next { s with out := s.out ++ [said R.DQP_SB_IMG_DATA 0x1003] }
        ∧ exec .sbImgSubmit s = .next { s with out := s.out ++ [said R.DQP_SB_IMG_CTRL 0x1003] }))

/-! ## Register commands with rules of their own (R69, R114, R427, R428, R441-R443, R471, R476, R477, R479) -/

namespace Sys2Proof.Machine

/-- The write of a named register of an island, at its address (R492). -/
def NamedWriteOk (s : State) (port isl : Nat) (r : Reg) (v : Nat) : Prop := CanReach s port isl ∧ WordOk s port isl r 0 v

/-- PROT_TADDR in bytes (R429). -/
def testAddr (s : State) (isl : Nat) : Nat := getF s isl F.PROT_TADDR_LO_ADDR * 64 + 2 ^ 32 * getF s isl F.PROT_TADDR_HI_ADDR

end Sys2Proof.Machine

/-- EN = 1 brings up the admin pair, empty, of the sizes DQP_AQ_SIZE gives, and RDY once DQP is ready; EN = 0 clears RDY,
deletes every queue and abandons every command (R69). Nothing else of the registers changes.
A write of TM_CTRL sets MODE (R114); outside a change from demand to hint mode nothing else changes. -/
def Obligations.DqpEnableAndTierModeWrites : Prop :=
  (∀ s : State, State.wf s = true → CanReach s 0 56 →
    (getF s 56 F.DQP_CTRL_EN = 0 →
      Gives .dqpEnable s fun t =>
        getF t 56 F.DQP_CTRL_EN = 1 ∧ getF t 56 F.DQP_STATUS_RDY = b2n s.boot.ready
          ∧ (∃ sq cq, t.dqp = { s.dqp with sqs := [sq], cqs := [cq] } ∧ sq.qid = 0 ∧ sq.cqid = 0 ∧ sq.head = 0 ∧ sq.tail = 0
              ∧ sq.entries = getF s 56 F.DQP_AQ_SIZE_ASQ_ENTRIES ∧ cq.qid = 0 ∧ cq.head = 0 ∧ cq.tail = 0
              ∧ cq.entries = getF s 56 F.DQP_AQ_SIZE_ACQ_ENTRIES ∧ cq.phase = true)
          ∧ RegsBut s t [fieldKey 56 F.DQP_CTRL_EN 0 0, fieldKey 56 F.DQP_STATUS_RDY 0 0])
    ∧ (getF s 56 F.DQP_CTRL_EN = 1 →
      Gives .dqpDisable s fun t =>
        getF t 56 F.DQP_CTRL_EN = 0 ∧ getF t 56 F.DQP_STATUS_RDY = 0
          ∧ t.dqp = { s.dqp with sqs := [], cqs := [], cmds := [], pulls := [] }
          ∧ RegsBut s t [fieldKey 56 F.DQP_CTRL_EN 0 0, fieldKey 56 F.DQP_STATUS_RDY 0 0]))
    ∧ (∀ (s : State) (v : Nat), State.wf s = true → CanReach s 0 57 → v < 2 →
    Gives (.tmModeWrite 0 v) s fun t =>
      getF t 57 F.TM_CTRL_MODE = v
        ∧ (v = 0 ∨ getF s 57 F.TM_CTRL_MODE = 1 →
            RegsBut s t [fieldKey 57 F.TM_CTRL_MODE 0 0] ∧ t = { s with regs := t.regs, out := t.out }))

/-- PROT_TCTRL on the scratchpad of a reach out of service, where no operation runs (R427): OP 1 puts the 64 bytes of PROT_TDATA at PROT_TADDR, and no
byte elsewhere changes; OP 2 shows the 64 bytes there in PROT_TDATA, none of their words corrupted or poisoned; both report
0 and DONE, and run until the island's next cycle (the model's choice, notes/assumptions 50).
PROT_TCTRL OP 3 on a channel out of service with no corruption armed leaves the loopback buffer and reports 0 (R427); a write
of PROT_FLIP_CTRL on a Test array of a unit out of service arms as written (R428). -/
def Obligations.TestWindowAndFlips : Prop :=
  (∀ (s : State) (isl v : Nat), State.wf s = true → isl < 32 → (reachState s isl = 2 ∨ reachState s isl = 3) →
    bits v 2 3 = 0 → bits v 5 6 = 0 → testAddr s isl + 64 ≤ 0x1800000 → testOp s isl = 0 →
    (bits v 0 2 = 1 → NamedWriteOk s 0 isl R.PROT_TCTRL v →
      Gives (.protTestWrite 0 isl v) s fun t =>
        (∀ k, k < 64 → rdByte t (reachWindow isl + testAddr s isl + k) = (testWindow s isl).getD k 0)
          ∧ (∀ a, a < reachWindow isl + testAddr s isl ∨ reachWindow isl + testAddr s isl + 64 ≤ a → rdByte t a = rdByte s a)
          ∧ getF t isl F.PROT_TSTATUS_RESULT = 0 ∧ getF t isl F.PROT_TSTATUS_DONE = 1 ∧ testOp t isl = 1)
    ∧ (bits v 0 2 = 2 → NamedWriteOk s 0 isl R.PROT_TCTRL v →
      (∀ i, i < 8 → mfind s.prot.flips (reachWindow isl + testAddr s isl + 8 * i) = none
        ∧ poisoned s (reachWindow isl + testAddr s isl + 8 * i) = false) →
      Gives (.protTestRead 0 isl v) s fun t =>
        (∀ i, i < 16 → getF t isl F.PROT_TDATA_DATA i = ofBytes (rdBytes s (reachWindow isl + testAddr s isl + 4 * i) 4))
          ∧ t.mem = s.mem ∧ getF t isl F.PROT_TSTATUS_RESULT = 0 ∧ getF t isl F.PROT_TSTATUS_DONE = 1 ∧ testOp t isl = 2))
    ∧ (∀ (s : State) (isl v : Nat), State.wf s = true →
    (kindOf isl = .flash → bits v 0 2 = 3 → bits v 2 3 = 0 → bits v 5 6 < 32 →
      (getF s isl F.FCH_CSTATE_STATE (bits v 5 6) = 2 ∨ getF s isl F.FCH_CSTATE_STATE (bits v 5 6) = 3) →
      getF s isl F.PROT_FLIP_CTRL_ARM = 0 → testOp s isl = 0 → NamedWriteOk s 0 isl R.PROT_TCTRL v →
      Gives (.protTestCodec 0 isl v) s fun t =>
        getF t isl F.PROT_TSTATUS_RESULT = 0 ∧ getF t isl F.PROT_TSTATUS_DONE = 1 ∧ testOp t isl = 3
          ∧ t.prot = { s.prot with ordered := t.prot.ordered } ∧ t.flash = s.flash ∧ t.mem = s.mem)
    ∧ (isl < 32 → (reachState s isl = 2 ∨ reachState s isl = 3) → bits v 0 3 ≤ 1 → bits v 3 1 = 0 → bits v 4 10 < 8 → bits v 14 1 = 1 →
      NamedWriteOk s 0 isl R.PROT_FLIP_CTRL v →
      Gives (.protFlipArm 0 isl v) s fun t =>
        getF t isl F.PROT_FLIP_CTRL_ARM = 1 ∧ getF t isl F.PROT_FLIP_CTRL_ARRAY = bits v 0 3
          ∧ getF t isl F.PROT_FLIP_CTRL_TARGET = bits v 3 1 ∧ getF t isl F.PROT_FLIP_CTRL_WORD = bits v 4 10
          ∧ t = { s with regs := t.regs, out := t.out }))

/-- WEIR_ORDER on a module that is STARTING or RUNNING, no other order on record or waiting: ORDER 1 makes it HALTING with HALT_CAUSE 1, ORDER 2
makes it HALTING on the way to a restart; the tiles' passes, the flume programs and the pulls end at once, as FORCE = 1 has it
(R441-R443).
ORDER 3 in HALTED with every sensor cool starts the module at step 4 with the image it holds, and at step 1 after a fatal
error or with no image active (R441); flash keeps its contents. With a sensor at its throttle point it completes with 0x6002,
outside HALTED with 0x1003, and nothing changes. -/
def Obligations.OrdersHaltResetAndRestart : Prop :=
  (∀ (s : State) (port : Nat), State.wf s = true → CanReach s port 59 → port < 3 →
    (getF s 59 F.WEIR_STATUS_MSTATE = 0 ∨ getF s 59 F.WEIR_STATUS_MSTATE = 1) → NoRival s →
    (Gives (.weirOrderHalt port) s fun t =>
        getF t 59 F.WEIR_STATUS_MSTATE = 2 ∧ getF t 59 F.WEIR_STATUS_STEP = 0 ∧ getF t 59 F.WEIR_STATUS_HALT_CAUSE = 1
          ∧ t.boot.haltReset = false ∧ t.tiles = [] ∧ t.flume.progs = [] ∧ t.dqp.pulls = [] ∧ t.ident.anchors = s.ident.anchors)
    ∧ (Gives (.weirOrderReset port) s fun t =>
        getF t 59 F.WEIR_STATUS_MSTATE = 2 ∧ getF t 59 F.WEIR_STATUS_STEP = 0 ∧ t.boot.haltReset = true ∧ t.tiles = []
          ∧ t.flume.progs = [] ∧ t.dqp.pulls = [] ∧ t.ident.anchors = s.ident.anchors))
    ∧ (∀ (s : State) (port : Nat), State.wf s = true → CanReach s port 59 → port < 3 →
    (getF s 59 F.WEIR_STATUS_MSTATE = 3 → allCool s = true →
      Gives (.weirOrderRestart port) s fun t =>
        getF t 59 F.WEIR_STATUS_MSTATE = 0 ∧ t.flash = s.flash
          ∧ getF t 59 F.WEIR_STATUS_STEP = (if s.boot.fatal = true ∨ getF s 58 F.IMG_STATUS_SOURCE = 0 then 1 else 4)
          ∧ (s.boot.fatal = false → getF s 58 F.IMG_STATUS_SOURCE ≠ 0 → t.boot.active = s.boot.active))
    ∧ (getF s 59 F.WEIR_STATUS_MSTATE = 3 → allCool s = false →
      exec (.weirOrderRestart port) s = .next { s with out := s.out ++ [answer port (regAddr 59 R.WEIR_ORDER.num 0) 0x6002 0] })
    ∧ (getF s 59 F.WEIR_STATUS_MSTATE ≠ 3 →
      exec (.weirOrderRestart port) s = .next { s with out := s.out ++ [answer port (regAddr 59 R.WEIR_ORDER.num 0) 0x1003 0] }))

/-! ## Start-up (R43, R44, R445, R450) -/

namespace Sys2Proof.Machine

/-- Start-up goes on: powered, the reset input high, STARTING, and the step's work ended well. -/
def StepEnds (s : State) (env : StepEnv) (n : Nat) : Prop :=
  s.boot.powered = true ∧ s.boot.resetPin = false ∧ getF s 59 F.WEIR_STATUS_MSTATE = 0 ∧ env.ok = true ∧ getF s 59 F.WEIR_STATUS_STEP = n

/-- Counters of the readable copies whose complement check passes (R43). -/
def goodCounters (s : State) : List Nat := (([0, 1, 2, 3].map (readCopy s s.boot.counters)).filter counterOk).map (fun r => le r 0 4)

end Sys2Proof.Machine

/-- The rollback counter is the largest value among the readable copies whose complement check passes; with none it is 0 and
CTR_LOST is set (R43). IMG_COUNTER shows it after step 3, raised to the floor of an image chosen there (R46); with none chosen the floor is 0. -/
def Obligations.CounterIsTheLargestGoodCopy : Prop :=
  ∀ (s : State) (env : StepEnv), State.wf s = true → StepEnds s env 3 → s.boot.active = [] →
    let u := deriveIdentity s env
    (goodCounters u = [] →
      Gives (.startUpStepEnd env) s fun t => getF t 58 F.IMG_STATUS_CTR_LOST = 1 ∧ getF t 58 F.IMG_COUNTER_COUNTER = imgFloor t.boot.active)
    ∧ (∀ m, m ∈ goodCounters u → (∀ x ∈ goodCounters u, x ≤ m) →
      Gives (.startUpStepEnd env) s fun t => getF t 58 F.IMG_STATUS_CTR_LOST = 0 ∧ getF t 58 F.IMG_COUNTER_COUNTER = max m (imgFloor t.boot.active))

/-- The steps of start-up follow one another: 1 to 2 with the sideband trained, 2 to 3 unless a sideband image is awaited, 4 to 5
with the image applied, 5 to 6 with every stack whose training failed OFFLINE, 6 to 7, 7 to 8 once the bank is charged (until
then nothing changes), and step 8 makes the module RUNNING with RDY as EN (R445, R69).
Step 3 takes slot A when its image passes check() and slot B's does not or is of no higher version, else slot B when it passes;
with neither the module waits for a sideband image (R44).
The end of step 8 makes the module RUNNING: MSTATE 1, STEP 0, RDY as EN, the energy measured, DEGRADED below 12 J (R445, R449). A
module in native mode; in Risal mode the collection of R92 is made as well. -/
def Obligations.StartUpRunsToRunning : Prop :=
  (∀ (s : State) (env : StepEnv), State.wf s = true →
    (StepEnds s env 1 → Gives (.startUpStepEnd env) s fun t => getF t 59 F.WEIR_STATUS_STEP = 2 ∧ t.link.sbTrained = true ∧ t.mem = s.mem)
    ∧ (StepEnds s env 2 → getF s 56 F.DQP_SB_IMG_STAT_WAITING = 0 →
        Gives (.startUpStepEnd env) s fun t => getF t 59 F.WEIR_STATUS_STEP = 3 ∧ t.mem = s.mem)
    ∧ (StepEnds s env 4 → Gives (.startUpStepEnd env) s fun t => getF t 59 F.WEIR_STATUS_STEP = 5 ∧ t.boot.applied = true)
    ∧ (StepEnds s env 5 →
        Gives (.startUpStepEnd env) s fun t => getF t 59 F.WEIR_STATUS_STEP = 6
          ∧ (∀ n, n < 16 → env.badStacks.testBit n = true → enabled s (32 + n) = true → getF t (32 + n) F.STK_STATE_STATE = 2)
          ∧ (∀ n, n < 16 → env.badStacks.testBit n = false → getF t (32 + n) F.STK_STATE_STATE = getF s (32 + n) F.STK_STATE_STATE))
    ∧ (StepEnds s env 6 → Gives (.startUpStepEnd env) s fun t => getF t 59 F.WEIR_STATUS_STEP = 7)
    ∧ (StepEnds s env 7 → getF s 59 F.WEIR_HOLDUP_CHARGED = 1 → Gives (.startUpStepEnd env) s fun t => getF t 59 F.WEIR_STATUS_STEP = 8)
    ∧ (StepEnds s env 7 → getF s 59 F.WEIR_HOLDUP_CHARGED = 0 → exec (.startUpStepEnd env) s = .next s))
    ∧ (∀ (s : State) (env : StepEnv), State.wf s = true → StepEnds s env 3 → s.boot.active = [] →
    let u := deriveIdentity s env
    let counter := (goodCounters u).foldl max 0
    let u' := setF (setF u 58 F.IMG_STATUS_CTR_LOST (b2n (goodCounters u).isEmpty)) 58 F.IMG_COUNTER_COUNTER counter
    let a := checkSlot u' counter 0
    let b := checkSlot u' counter 1
    (a.1 = 0 → (b.1 ≠ 0 ∨ imgVersion b.2 ≤ imgVersion a.2) →
      Gives (.startUpStepEnd env) s fun t => t.boot.active = a.2 ∧ getF t 58 F.IMG_STATUS_SOURCE = 1 ∧ getF t 59 F.WEIR_STATUS_STEP = 4)
    ∧ (b.1 = 0 → (a.1 ≠ 0 ∨ imgVersion a.2 < imgVersion b.2) →
      Gives (.startUpStepEnd env) s fun t => t.boot.active = b.2 ∧ getF t 58 F.IMG_STATUS_SOURCE = 2 ∧ getF t 59 F.WEIR_STATUS_STEP = 4)
    ∧ (a.1 ≠ 0 → b.1 ≠ 0 →
      Gives (.startUpStepEnd env) s fun t => t.boot.active = [] ∧ getF t 56 F.DQP_SB_IMG_STAT_WAITING = 1
        ∧ getF t 59 F.WEIR_STATUS_MSTATE = 0))
    ∧ (∀ (s : State) (env : StepEnv), State.wf s = true → StepEnds s env 8 → s.boot.info.risal = false →
    getF s 56 F.DQP_CTRL_EN < 2 →
    Gives (.startUpStepEnd env) s fun t =>
      getF t 59 F.WEIR_STATUS_MSTATE = 1 ∧ getF t 59 F.WEIR_STATUS_STEP = 0 ∧ getF t 56 F.DQP_STATUS_RDY = getF s 56 F.DQP_CTRL_EN
        ∧ getF t 59 F.WEIR_HOLDUP_ENERGY_J = min env.energy 255 ∧ getF t 59 F.WEIR_HOLDUP_DEGRADED = b2n (decide (env.energy < 12))
        ∧ t.boot.ready = true)

/-! ## The link (R61, R64-R67, R71, R519, R522) -/

namespace Sys2Proof.Machine

/-- A link with a session in L0, nothing queued and nothing waiting to be done, so that a received flit is done at once. -/
def QuietLink (s : State) : Prop :=
  linkOpen s = true ∧ s.link.queue = [] ∧ s.link.outbox = [] ∧ s.link.rxBuf = [] ∧ (∀ c ∈ s.dqp.cqs, c.waiting = []) ∧ getF s 56 F.CNT_CTRL_EN = 0

/-- The link after a flit's ACK and CREDIT are taken (R519). -/
def acked (l : Link) (ack credit : Nat) : Link :=
  let d := (credit % 256 + 256 - l.k % 256) % 256
  { l with held := releaseTo l.held ack, credits := l.credits + d, k := (l.k + d) % 2 ^ 32 }

end Sys2Proof.Machine

/-- A DOORBELL flit in order, on a quiet link, of one entry: a tail below the queue's size becomes the SQ's tail; an entry that
names no SQ, or a tail beyond it, is ignored with DB_ERR set and the queue recorded (R71). A head no further than the device's tail
becomes the CQ's head; another, or one of no CQ, is ignored in the same way. The flit is acknowledged by the next ACK and its
buffer is freed.
A REG_REQ flit in order, on a quiet link, of one read entry is answered by a REG_RSP entry with its address, status and value; a
write of a plain register has the effect of R9 and is answered with 0; a reserved OP performs no access and is answered with
0x1002 and value 0 (R65). Queue room and the partner's credit send it, in the 256 bytes of R64.
PULL_DATA in order, on a quiet link: data that continues its request at the request's next OFFSET is kept with it; data at another
OFFSET is dropped (R67). Data that makes the one request of a command whole hands the command its bytes, and it may start. -/
def Obligations.HostFlitsAreServed : Prop :=
  (∀ (s : State) (h : FlitHdr) (q v : Nat), State.wf s = true → QuietLink s → h.seq = s.link.rxSeq → s.link.rxSeq < 4096 →
    (∀ x, findSq s q = some x → v < x.entries →
      Gives (.doorbell h [⟨q, 0, 0, v⟩]) s fun t =>
        t.dqp = { s.dqp with sqs := s.dqp.sqs.map (fun y => if y.qid = q then { y with tail := v } else y) }
          ∧ t.link.rxSeq = (s.link.rxSeq + 1) % 4096 ∧ t.link.rxBuf = [] ∧ t.link.freed = (s.link.freed + 1) % 2 ^ 32
          ∧ t.regs = s.regs ∧ t.mem = s.mem)
    ∧ ((findSq s q = none ∨ ∃ x, findSq s q = some x ∧ x.entries ≤ v) →
      Gives (.doorbell h [⟨q, 0, 0, v⟩]) s fun t =>
        t.dqp = s.dqp ∧ getF t 56 F.DQP_STATUS_DB_ERR = 1 ∧ getF t 56 F.DQP_DB_ERR_QID = q % 1024 ∧ getF t 56 F.DQP_DB_ERR_KIND = 0
          ∧ t.link.rxSeq = (s.link.rxSeq + 1) % 4096)
    ∧ (∀ x, findCq s q = some x → v < x.entries → (v + x.entries - x.head) % x.entries ≤ (x.tail + x.entries - x.head) % x.entries →
      Gives (.doorbell h [⟨q, 1, 0, v⟩]) s fun t =>
        t.dqp = { s.dqp with cqs := s.dqp.cqs.map (fun y => if y.qid = q then { y with head := v } else y) }
          ∧ t.link.rxSeq = (s.link.rxSeq + 1) % 4096 ∧ t.regs = s.regs ∧ t.mem = s.mem)
    ∧ ((findCq s q = none ∨ ∃ x, findCq s q = some x
          ∧ (x.entries ≤ v ∨ (x.tail + x.entries - x.head) % x.entries < (v + x.entries - x.head) % x.entries)) →
      Gives (.doorbell h [⟨q, 1, 0, v⟩]) s fun t =>
        t.dqp = s.dqp ∧ getF t 56 F.DQP_STATUS_DB_ERR = 1 ∧ getF t 56 F.DQP_DB_ERR_QID = q % 1024 ∧ getF t 56 F.DQP_DB_ERR_KIND = 1
          ∧ t.link.rxSeq = (s.link.rxSeq + 1) % 4096))
    ∧ (∀ (s : State) (h : FlitHdr) (a op : Nat), State.wf s = true → QuietLink s → h.seq = s.link.rxSeq → s.link.rxSeq < 4096 →
    s.link.hostInit = true → 0 < s.link.credits → s.link.held.length < 512 → s.link.held.any (fun f => f.seq == h.ack) = false →
    h.credit % 256 = s.link.k % 256 →
    (2 ≤ op → Gives (.regReq h [⟨a, op, 0, 0⟩]) s fun t => ∃ g : Flit,
        t.out = s.out ++ [.flit g.wire] ∧ g.ty = 4 ∧ g.len = 1 ∧ g.seq = s.link.txSeq
          ∧ g.body = toBytes 8 a ++ toBytes 2 0x1002 ++ [0, 0] ++ toBytes 4 0
          ∧ t.regs = s.regs ∧ t.link.credits + 1 = s.link.credits ∧ t.link.held = s.link.held ++ [g])
    ∧ (∀ isl off r i j, islandAt a = some (isl, off) → a % 4 = 0 → findReg isl off = some (r, i, j) → CanReach s 0 isl →
        pairOf s isl r.num i = none →
        Gives (.regReq h [⟨a, 0, 0, 0⟩]) s fun t => ∃ g : Flit,
          t.out = s.out ++ [.flit g.wire] ∧ g.ty = 4 ∧ g.len = 1
            ∧ g.body = toBytes 8 a ++ toBytes 2 0 ++ [0, 0] ++ toBytes 4 (viewReg s 0 isl r i j) ∧ t.regs = s.regs)
    ∧ (∀ isl off r i j v, islandAt a = some (isl, off) → a % 4 = 0 → findReg isl off = some (r, i, j) → CanReach s 0 isl →
        WordOk s 0 isl r i v → r.num ∉ specialRegs →
        Gives (.regReq h [⟨a, 1, 0, v⟩]) s fun t =>
          (∀ f ∈ r.fields, ∀ b, b < f.w → (getF t isl f i j).testBit b = bitAfter f.acc (getF s isl f i j) (bits v f.lo f.w) b)
            ∧ RegsBut s t (r.fields.map (fun f => fieldKey isl f i j)) ∧ t.mem = s.mem
            ∧ ∃ g : Flit, t.out = s.out ++ [.flit g.wire] ∧ g.ty = 4 ∧ g.len = 1
                ∧ g.body = toBytes 8 a ++ toBytes 2 0 ++ [0, 0] ++ toBytes 4 0))
    ∧ (∀ (s : State) (h : FlitHdr) (off id : Nat) (d : List Byte) (p : Pull), State.wf s = true → QuietLink s → h.seq = s.link.rxSeq →
    s.link.rxSeq < 4096 → 0 < d.length → d.length ≤ 240 → s.dqp.pulls.find? (fun p => p.reqId == id) = some p →
    (off = p.got.length → off + d.length < p.bytes →
      Gives (.pullData h off id d) s fun t =>
        t.dqp = { s.dqp with pulls := s.dqp.pulls.map (fun q => if q.reqId = id then { q with got := q.got ++ d } else q) }
          ∧ t.link.rxSeq = (s.link.rxSeq + 1) % 4096 ∧ t.regs = s.regs ∧ t.mem = s.mem)
    ∧ (∀ no, off = p.got.length → off + d.length = p.bytes → p.what = .data no → s.dqp.pulls.filter (fun q => q.what == p.what) = [p] →
        (∀ q ∈ s.dqp.pulls, q.reqId = id → q = p) →
      Gives (.pullData h off id d) s fun t =>
        t.dqp = { s.dqp with
          pulls := s.dqp.pulls.filter (fun q => q.what != p.what)
          cmds := s.dqp.cmds.map (fun c => if c.no = no then { c with phase := .ready, data := p.got ++ d, due := 0 } else c) }
          ∧ t.link.rxSeq = (s.link.rxSeq + 1) % 4096 ∧ t.regs = s.regs ∧ t.mem = s.mem)
    ∧ (off ≠ p.got.length → Gives (.pullData h off id d) s fun t => t.dqp = s.dqp ∧ t.link.rxSeq = (s.link.rxSeq + 1) % 4096))

/-- Training brings up the sideband, or the main link: without a session it begins one, all counts at their start and the
device's INIT of 256 buffers sent; with a session it returns to L0 (R61, R62, R519). Main-link training waits for start-up step 4.
A flit with a bad CRC is counted, and a NAK names the next expected number unless one did within 1,024 cycles of island 56;
nothing in the flit is used (R66).
IDLE, INIT and NAK on a quiet link. IDLE brings ACK and the partner's freed count F whole: the credits grow by F - K and K becomes F. The
first INIT of a session sets the credits to the partner's buffers and K to 0; a later one is counted as BAD_TYPE. A NAK naming
a held flit replays from it, in order, with the present ACK and freed count; one naming the next number to send replays nothing (R66, R519).
A replay timeout sends every held flit again; an IDLE due carries the device's freed count; a module whose lanes cannot be
repaired leaves the link with one module less, and the link leaves L0 to retrain (R61, R66, R519). -/
def Obligations.LinkFlitsTrainingAndTimers : Prop :=
  (∀ s : State, s.boot.powered = true → getF s 59 F.WEIR_STATUS_MSTATE = 1 →
    (Gives (.linkTrained true) s fun t => t = { s with link := { s.link with sbTrained := true } })
    ∧ (s.link.modules ≠ 0 → s.link.session = false → getF s 56 F.CNT_CTRL_EN = 0 →
      Gives (.linkTrained false) s fun t =>
        t.link.session = true ∧ t.link.l0 = true ∧ t.link.hostInit = false ∧ t.link.txSeq = 0 ∧ t.link.rxSeq = 0 ∧ t.link.credits = 0
          ∧ t.link.k = 0 ∧ t.link.freed = 0 ∧ t.link.held = [] ∧ t.link.rxBuf = []
          ∧ t.out = s.out ++ [.flit (⟨1, 0, [0, 0, 0, 1, 0, 0], [], 4095, 4095, 0, true⟩ : Flit).wire])
    ∧ (s.link.modules ≠ 0 → s.link.session = true → s.link.queue = [] → s.link.rxBuf = [] → (∀ c ∈ s.dqp.cqs, c.waiting = []) →
      Gives (.linkTrained false) s fun t => t = { s with link := { s.link with l0 := true } }))
    ∧ (∀ (s : State) (raw : List Byte), State.wf s = true → linkOpen s = true → raw.length = 256 →
    crc32c (raw.take 252) ≠ le raw 252 4 → getF s 56 F.CNT_CTRL_EN = 0 → getF s 56 F.DQP_LINK_ERR_CRC_ERR < 2 ^ F.DQP_LINK_ERR_CRC_ERR.w - 1 →
    Gives (.flitRejected raw) s fun t =>
      getF t 56 F.DQP_LINK_ERR_CRC_ERR = getF s 56 F.DQP_LINK_ERR_CRC_ERR + 1
        ∧ t.link.held = s.link.held ∧ t.link.rxSeq = s.link.rxSeq ∧ t.link.credits = s.link.credits ∧ t.dqp = s.dqp
        ∧ (s.link.lastNak = none → ∃ g : Flit, t.out = s.out ++ [.flit g.wire] ∧ g.ty = 1 ∧ g.hdr = [1, 0] ++ toBytes 2 s.link.rxSeq ++ [0, 0])
        ∧ (∀ c, s.link.lastNak = some (s.link.rxSeq, c) → cyc s 56 < c + 1024 → t.out = s.out))
    ∧ (∀ (s : State) (ack credit x : Nat), State.wf s = true → QuietLink s →
    (x < 2 ^ 32 → Gives (.idle ack x) s fun t =>
        t = { s with link := { s.link with held := releaseTo s.link.held ack, credits := s.link.credits + (x + 2 ^ 32 - s.link.k) % 2 ^ 32, k := x } })
    ∧ (s.link.hostInit = false → x < 2 ^ 16 → Gives (.init ack credit x) s fun t =>
        t = { s with link := acked { s.link with hostInit := true, credits := x, k := 0 } ack credit })
    ∧ (s.link.hostInit = true → Gives (.init ack credit x) s fun t =>
        t.link = acked s.link ack credit ∧ t.out = s.out
          ∧ getF t 56 F.DQP_LINK_ERR_BAD_TYPE = min (getF s 56 F.DQP_LINK_ERR_BAD_TYPE + 1) (2 ^ F.DQP_LINK_ERR_BAD_TYPE.w - 1))
    ∧ (let l := acked s.link ack credit
       l.held.any (fun f => f.seq == x) = true → Gives (.nak ack credit x) s fun t =>
        t.out = s.out ++ (l.held.dropWhile (fun f => f.seq != x)).map (fun f => Output.flit { f with ack := ackNow l, freed := l.freed : Flit }.wire)
          ∧ t.link.held = l.held ∧ t.link.credits = l.credits)
    ∧ (let l := acked s.link ack credit
       l.held.any (fun f => f.seq == x) = false → x = l.txSeq → Gives (.nak ack credit x) s fun t =>
        t = { s with link := l }))
    ∧ (∀ (s : State) (m : Nat), linkOpen s = true → getF s 56 F.CNT_CTRL_EN = 0 →
    (Gives .replayTimeout s fun t =>
        t.out = s.out ++ s.link.held.map (fun f => Output.flit { f with ack := ackNow s.link, freed := s.link.freed : Flit }.wire)
          ∧ t.link.held = s.link.held ∧ t.link.txSeq = s.link.txSeq ∧ t.dqp = s.dqp)
    ∧ (Gives .idleDue s fun t => ∃ g : Flit, t.out = s.out ++ [.flit g.wire] ∧ g.ty = 0 ∧ g.hdr = [0, 0] ++ toBytes 4 s.link.freed
          ∧ g.ack = ackNow s.link ∧ t.link.held = s.link.held ∧ t.link.txSeq = s.link.txSeq)
    ∧ (m < 4 → s.link.lostModules.testBit m = false →
        (Gives (.laneRepair m true) s fun t => t.link.l0 = false ∧ t.link.lostModules = s.link.lostModules)
        ∧ (Gives (.laneRepair m false) s fun t => t.link.l0 = false ∧ t.link.lostModules = s.link.lostModules + 2 ^ m
            ∧ t.link.modules = 4 - popCount (s.link.lostModules + 2 ^ m) 4 ∧ t.link.session = s.link.session)))

/-! ## DQP: fetching, completing and ordering commands (R72, R73, R76, R81, R85) -/

namespace Sys2Proof.Machine

/-- The command a row names is outstanding and may start (R81, R86-R88), has the row's opcode, meets the checks that R75 puts to
every command and no bad word of control SRAM (R420), and has no command-specific byte outside the row's fields. -/
def Runs (s : State) (id : CmdId) (c : Cmd) (op : Nat) (fields : List (Nat × Nat)) : Prop :=
  id.sram = .none ∧ cmdById s id = some c ∧ canStart s c = true ∧ c.opcode = op ∧ (∀ x ∈ baseConds c, x = 0) ∧ onlyBytes c fields = true

/-- The command ends with a status and results (R76) in a state that has a property. -/
def EndsIn (t : State) (c : Cmd) (status r0 r1 : Nat) (P : State → Prop) : Prop := ∃ x, P x ∧ t = complete x c.no status r0 r1

/-- The command has started and nothing else has changed. -/
def JustStarted (s : State) (c : Cmd) (x : State) : Prop := x = markStarted s c.no

end Sys2Proof.Machine

/-- A command with FENCE = 1 does not start while an earlier command of its SQ is outstanding, and no later command of an SQ starts
while a fenced one is outstanding; commands of other SQs do not hold it (R81). -/
def Obligations.FenceOrdersAQueue : Prop :=
  ∀ (s : State) (c x : Cmd), x ∈ s.dqp.cmds → x.sqid = c.sqid → x.no < c.no → (c.fence = true ∨ x.fence = true) →
    canStart s c = false ∧ ∀ id, cmdById s id = some c → c.opcode = 0x00 → exec (.identify id) s = .next s

/-- COMMAND_FETCH, with DQP ready and the flit queue not full, takes an entry of the admin queue first, else of the class whose turn
the weighted round-robin of R72 has it, credits renewed when no class with credit left has work: the queue's head moves on by one and
one pull of its 128 bytes is ordered. With no queue that can be served, or while flits fill the queue, nothing happens (R72).
A completion leaves the outstanding commands, and its entry of 32 bytes goes to the tail of the queue's CQ: one PUSH flit with the host
address and the entry, phase bit as the CQ's pass has it, then an INTERRUPT with the CQ's vector when the CQ does not coalesce
(R72, R73, R76). The CQ has room, the link may send, no deferred entry waits and no DELETE_SQ waits for the queue.
CQ_COALESCE_TIMEOUT signals a CQ with unsignalled completions by one INTERRUPT with its vector, the last of what is to be sent, and
no queue, command or memory changes (R73). -/
def Obligations.EntriesInAndCompletionsOut : Prop :=
  (∀ (s : State) (q : Sq), getF s 56 F.DQP_STATUS_RDY = 1 → (running s = true ∨ enteringDp3 s = true) → linkRoom s = true →
    s.boot.haltWait = false → q.entries ≠ 0 →
    let fetched (t : State) : Prop :=
      t.dqp.sqs = s.dqp.sqs.map (fun y => if y.qid = q.qid then { y with head := (q.head + 1) % q.entries } else y)
        ∧ t.dqp.pulls = s.dqp.pulls ++ [⟨s.dqp.nextReq % 2 ^ 32, 128, [], .entry q.qid s.dqp.nextNo ((q.head + 1) % q.entries)⟩]
        ∧ t.dqp.nextNo = s.dqp.nextNo + 1 ∧ t.dqp.cmds = s.dqp.cmds ∧ t.mem = s.mem
    (findSq s 0 = some q → fetchable s q = true → Gives .commandFetch s fun t => fetched t ∧ t.dqp.wrr = s.dqp.wrr ∧ t.dqp.rrLast = s.dqp.rrLast)
      ∧ (∀ k cr, (∀ a, findSq s 0 = some a → fetchable s a = false) →
          (cr = s.dqp.wrr ∨ (cr = [8, 4, 2, 1] ∧ ∀ j, j < 4 → 0 < s.dqp.wrr.getD j 0 → nextInClass s j (s.dqp.rrLast.getD j 0) = none)) →
          k < 4 → 0 < cr.getD k 0 → nextInClass s k (s.dqp.rrLast.getD k 0) = some q →
          (∀ j, j < k → 0 < cr.getD j 0 → nextInClass s j (s.dqp.rrLast.getD j 0) = none) →
          Gives .commandFetch s fun t => fetched t ∧ t.dqp.wrr = updAt cr k (· - 1) ∧ t.dqp.rrLast = s.dqp.rrLast.set k q.qid))
    ∧ (∀ s : State, (linkRoom s = false ∨ ∀ q ∈ s.dqp.sqs, fetchable s q = false) → exec .commandFetch s = .next s)
    ∧ (∀ (s : State) (c : Cmd) (q : Sq) (k : Cq) (st r0 r1 : Nat), findCmd s c.no = some c → findSq s c.sqid = some q → findCq s q.cqid = some k →
    s.dqp.cqs = [k] → k.waiting = [] → 0 < k.room → k.coalCount = 0 → 2 ≤ k.entries → k.tail < k.entries →
    s.dqp.deferred = [] → (∀ x ∈ s.dqp.cmds, x.opcode ≠ 2) →
    canSend s.link = true → s.link.queue = [] → s.link.outbox = [] → 2 ≤ s.link.credits → s.link.held.length < 511 → getF s 56 F.CNT_CTRL_EN = 0 →
    let t := complete s c.no st r0 r1
    t.dqp.cmds = s.dqp.cmds.filter (fun x => x.no != c.no)
      ∧ (∃ f g : Flit, t.out = s.out ++ [.flit f.wire, .flit g.wire]
          ∧ f.ty = 7 ∧ f.len = 32
          ∧ f.body = toBytes 8 (k.base + 32 * k.tail)
              ++ (toBytes 8 r0 ++ toBytes 4 r1 ++ toBytes 2 c.sqid ++ toBytes 2 c.sqhd ++ toBytes 2 c.tag ++ toBytes 2 st
                  ++ toBytes 4 0 ++ toBytes 4 c.nsid ++ toBytes 3 0 ++ toBytes 1 (b2n k.phase))
          ∧ g.ty = 8 ∧ g.hdr = toBytes 2 k.vector ++ [0, 0, 0, 0])
      ∧ (∃ k', t.dqp.cqs = [k'] ∧ k'.tail = (k.tail + 1) % k.entries ∧ k'.phase = (if k.tail + 1 = k.entries then !k.phase else k.phase))
      ∧ t.mem = s.mem ∧ t.regs = s.regs)
    ∧ (∀ (s : State) (q : Nat) (k : Cq), findCq s q = some k → 0 < k.unsignalled →
    Gives (.cqCoalesceTimeout q) s fun t =>
      t.dqp = { s.dqp with cqs := s.dqp.cqs.map (fun x => if x.qid = q then { x with unsignalled := 0 } else x) } ∧ t.mem = s.mem
        ∧ ∃ g : Flit, (t.link.held ++ t.link.queue ++ t.link.outbox).getLast? = some g ∧ g.ty = 8 ∧ g.hdr = toBytes 2 k.vector ++ [0, 0, 0, 0])
    ∧ (∀ (s : State) (q : Nat) (k : Cq), findCq s q = some k → 0 < k.unsignalled → canSend s.link = true → s.link.queue = [] → s.link.outbox = [] →
    0 < s.link.credits → s.link.held.length < 512 → getF s 56 F.CNT_CTRL_EN = 0 →
    Gives (.cqCoalesceTimeout q) s fun t =>
      t.dqp = { s.dqp with cqs := s.dqp.cqs.map (fun x => if x.qid = q then { x with unsignalled := 0 } else x) }
        ∧ ∃ g : Flit, t.out = s.out ++ [.flit g.wire] ∧ g.ty = 8 ∧ g.hdr = toBytes 2 k.vector ++ [0, 0, 0, 0] ∧ t.regs = s.regs)

/-! ## Admin commands (R69, R70, R79, R80, R86, R407, R442, R452, R466) -/

/-- IDENTIFY writes its 4,096 bytes: capabilities, UCIe modules in use, and the capacity of each namespace in blocks (R79). GET_LOG
writes the part of the health log its OFFSET names (R407).
The queue commands (R70, R79). CREATE_CQ and CREATE_SQ add the queue their fields describe, empty; DELETE_CQ removes a CQ that no SQ
uses; DELETE_SQ of a queue with no outstanding command removes it. The namespace of a new SQ is the NSID of the command, 1
when that is 0 (notes/assumptions 20).
GET_FEATURE reports, and SET_FEATURE sets, the interrupt of a CQ and the arbitration class of an SQ (R80). -/
def Obligations.QueuesFeaturesAndLogs : Prop :=
  (∀ (s : State) (id : CmdId) (c : Cmd),
    (Runs s id c 0x00 [] → 4096 ≤ c.bufBytes →
      Gives (.identify id) s fun t => EndsIn t c 0 0 0 fun x =>
        x = toHost (markStarted s c.no) c
          (toBytes 4 (capFeature s) ++ toBytes 1 s.link.modules ++ toBytes 3 0
            ++ ((List.range 64).map (fun n => toBytes 8 (nsBlocks s (n + 1)))).flatten ++ List.replicate 3576 0))
    ∧ (Runs s id c 0x05 [(32, 1), (40, 8)] → c.b 32 1 = 1 → c.b 40 8 % 4 = 0 → c.bufBytes % 4 = 0 → c.b 40 8 + c.bufBytes ≤ 49408 →
      Gives (.getLog id) s fun t => EndsIn t c 0 0 0 fun x =>
        x = toHost (markStarted s c.no) c (slice (healthLog (markStarted s c.no)) (c.b 40 8) c.bufBytes)))
    ∧ (∀ (s : State) (id : CmdId) (c : Cmd),
    (Runs s id c 0x03 [(32, 2), (36, 4), (40, 2), (42, 1), (44, 4)] → 1 ≤ c.b 32 2 → c.b 32 2 ≤ 1023 → 2 ≤ c.b 36 4 → c.b 36 4 ≤ 4096 →
      c.b 40 2 ≤ 1023 → c.b 44 4 ≤ 1500000 → c.b 16 8 % 4096 = 0 → c.isList = false → c.b 24 4 = c.b 36 4 * 32 → findCq s (c.b 32 2) = none →
      Gives (.createCq id) s fun t => EndsIn t c 0 0 0 fun x =>
        x = updDqp (markStarted s c.no) fun d =>
          { d with cqs := insCq d.cqs ⟨c.b 32 2, c.b 16 8, c.b 36 4, c.b 40 2, c.b 42 1, c.b 44 4, 0, 0, true, [], 0⟩ })
    ∧ (Runs s id c 0x01 [(32, 2), (34, 2), (36, 4), (40, 1)] → 1 ≤ c.b 32 2 → c.b 32 2 ≤ 1023 → 2 ≤ c.b 36 4 → c.b 36 4 ≤ 4096 →
      c.b 40 1 ≤ 3 → c.b 16 8 % 4096 = 0 → c.isList = false → c.b 24 4 = c.b 36 4 * 128 → c.b 34 2 ≠ 0 → (findCq s (c.b 34 2)).isSome = true →
      findSq s (c.b 32 2) = none →
      (let ns := if c.b 4 4 = 0 then 1 else c.b 4 4
       domExists s (ns - 1) = true →
        Gives (.createSq id) s fun t => EndsIn t c 0 0 0 fun x =>
          x = updDqp (markStarted s c.no) fun d =>
            { d with sqs := insSq d.sqs ⟨c.b 32 2, c.b 34 2, ns, c.b 16 8, c.b 36 4, c.b 40 1, 0, 0⟩ }))
    ∧ (Runs s id c 0x04 [(32, 2)] → c.b 32 2 ≠ 0 → (findCq s (c.b 32 2)).isSome = true → (∀ q ∈ s.dqp.sqs, q.cqid ≠ c.b 32 2) →
      Gives (.deleteCq id) s fun t => EndsIn t c 0 0 0 fun x =>
        x = updDqp (markStarted s c.no) fun d => { d with cqs := d.cqs.filter (fun q => q.qid != c.b 32 2) })
    ∧ (Runs s id c 0x02 [(32, 2)] → c.b 32 2 ≠ 0 → (findSq s (c.b 32 2)).isSome = true → (∀ x ∈ s.dqp.cmds, x.sqid ≠ c.b 32 2) →
      (∀ x ∈ s.dqp.cmds, x.opcode = 2 → x = c) →
      Gives (.deleteSq id) s fun t => findSq t (c.b 32 2) = none ∧ (∀ q, q ≠ c.b 32 2 → findSq t q = findSq s q) ∧ findCmd t c.no = none))
    ∧ (∀ (s : State) (id : CmdId) (c : Cmd), c.b 36 2 ≠ 0 →
    (∀ q : Cq, findCq s (c.b 36 2) = some q →
      (Runs s id c 0x06 [(32, 1), (36, 2)] → c.b 32 1 = 1 →
        Gives (.getFeatureCqInterrupt id) s fun t =>
          EndsIn t c 0 (q.vector + q.coalCount * 2 ^ 16 + q.coalTime * 2 ^ 32) 0 (JustStarted s c))
      ∧ (Runs s id c 0x07 [(32, 1), (36, 2), (40, 2), (42, 1), (44, 4)] → c.b 32 1 = 1 → c.b 40 2 ≤ 1023 → c.b 44 4 ≤ 1500000 →
        Gives (.setFeatureCqInterrupt id) s fun t => ∃ u, t = signalCq u (c.b 36 2)
          ∧ EndsIn u c 0 0 0 fun x =>
            x = updCq (markStarted s c.no) (c.b 36 2) (fun k => { k with vector := c.b 40 2, coalCount := c.b 42 1, coalTime := c.b 44 4 })))
    ∧ (∀ q : Sq, findSq s (c.b 36 2) = some q →
      (Runs s id c 0x06 [(32, 1), (36, 2)] → c.b 32 1 = 2 →
        Gives (.getFeatureSqClass id) s fun t => EndsIn t c 0 (q.prio + q.cqid * 2 ^ 16 + q.nsid * 2 ^ 32) 0 (JustStarted s c))
      ∧ (Runs s id c 0x07 [(32, 1), (36, 2), (40, 1)] → c.b 32 1 = 2 → c.b 40 1 ≤ 3 →
        Gives (.setFeatureSqClass id) s fun t => EndsIn t c 0 0 0 fun x =>
          x = updSq (markStarted s c.no) (c.b 36 2) (fun k => { k with prio := c.b 40 1 }))))

/-- GO of the management port's quote, its registers idle and a quote allowed, puts the quote with ID_MQ_NONCE at the end of the
queue, sets GO and clears READY (R469, R471).
ABORT of a command that has not started ends it with 0x2005 and completes with 1; of any other it completes with 0 and changes
nothing (R79). IMAGE_WRITE, with no earlier one outstanding, of an image that passes check() puts it into both copies of the slot it
targets, and no stored data changes (R47, R48); one whose programs or read-back fail leaves no readable copy there and completes with 0x3002; while it goes on
the slot holds none either, so that power lost then leaves it failing its check (R48). ATTEST_QUOTE joins the queue of quotes with
its nonce (R466, R469).
A signed quote leaves the queue; to the host it is written to the command's buffer and completes with 5,645 and its number, one more than the quotes
before it; on the management port it stands in ID_MQ_DATA with READY set and RESULT 0. Its last 3,309 bytes are the hedged ML-DSA-65
signature over its first part, with the context DM-QUOTE and 32 random bytes that are free values (R457, R466-R471). -/
def Obligations.AbortsImagesAndQuotes : Prop :=
  (∀ s : State, State.wf s = true → CanReach s 1 58 → mqIdle s = true → quoteRefused s = false →
    Gives (.mgmtQuoteRequest 1 1) s fun t =>
      (∃ cycle, t.ident.quotes
          = s.ident.quotes ++ [⟨true, 0, ((List.range 8).map (fun k => toBytes 4 (getF s 58 F.ID_MQ_NONCE_NONCE k))).flatten, cycle⟩])
        ∧ getF t 58 F.ID_MQ_CTRL_GO = 1 ∧ getF t 58 F.ID_MQ_STATUS_READY = 0)
    ∧ (∀ (s : State) (id : CmdId) (c : Cmd),
    (Runs s id c 0x09 [(32, 2), (34, 2)] → (findSq s (c.b 32 2)).isSome = true →
      (∀ x, (markStarted s c.no).dqp.cmds.find? (fun x => x.sqid == c.b 32 2 && x.tag == c.b 34 2 && x.phase != .started) = some x →
        Gives (.abort id) s fun t => EndsIn t c 0 1 0 fun u => u = complete (markStarted s c.no) x.no 0x2005)
      ∧ ((markStarted s c.no).dqp.cmds.find? (fun x => x.sqid == c.b 32 2 && x.tag == c.b 34 2 && x.phase != .started) = none →
        Gives (.abort id) s fun t => EndsIn t c 0 0 0 (JustStarted s c)))
    ∧ (Runs s id c 0x0A [] → getF s 58 F.CNT_CTRL_EN = 0 → (∀ x ∈ s.dqp.cmds, x.no < c.no → x.opcode ≠ 0x0A) →
      (∀ x ∈ imageConds (markStarted s c.no) c, x = 0) →
      let k := imageTarget s
      let data (x : State) : Prop := x.flash.blocks = s.flash.blocks ∧ x.flash.lostBlocks = s.flash.lostBlocks ∧ x.flash.map = s.flash.map ∧ x.flash.slots = s.flash.slots
      let slot (d : List Byte) : List (List Byte) := updAt (updAt s.boot.copies (2 * k) (fun _ => d)) (2 * k + 1) (fun _ => d)
      (Gives (.imageWrite id 1) s fun t => EndsIn t c 0 (k + 1) (imgVersion c.data) fun x =>
        x.boot = { s.boot with copies := slot c.data, imgWrites := s.boot.imgWrites + 1 } ∧ data x ∧ x.mem = s.mem)
      ∧ (Gives (.imageWrite id 0) s fun t => EndsIn t c 0x3002 0 0 fun x =>
        x.boot = { s.boot with copies := slot [], imgWrites := s.boot.imgWrites + 1 } ∧ data x ∧ x.mem = s.mem)
      ∧ exec (.imageWrite id 2) s = .next { markStarted s c.no with boot := { s.boot with copies := slot [] } })
    ∧ (Runs s id c 0x0B [(32, 32)] → 5645 ≤ c.bufBytes → quoteRefused s = false → ((s.ident.quotes.drop 1).filter (!·.mgmt)).length < 4 →
      Gives (.attestQuote id) s fun t => ∃ cycle, t.ident.quotes = s.ident.quotes ++ [⟨false, c.no, slice c.raw 32 32, cycle⟩]
        ∧ t.dqp = (markStarted s c.no).dqp ∧ t.regs = s.regs))
    ∧ (∀ (s : State) (q : Quote) (l : List Quote), State.wf s = true → s.ident.quotes = q :: l → quoteRefused s = false →
    getF s 58 F.CNT_CTRL_EN = 0 → getF s 58 F.ID_QUOTES_COUNT < 2 ^ 32 - 1 →
    let seq := (s.ident.quoteSeq + 1) % 2 ^ 64
    let count := getF s 58 F.ID_QUOTES_COUNT + 1
    let quote := quoteBody s q seq ++ fit 3309 (Config.mldsaSign s.ident.sk (drawRandom s).1 (ascii "DM-QUOTE") (quoteBody s q seq))
    (q.mgmt = true → Gives .quoteSigned s fun t =>
      t.ident.mqData = quote ∧ getF t 58 F.ID_MQ_STATUS_READY = 1 ∧ getF t 58 F.ID_MQ_STATUS_RESULT = 0 ∧ getF t 58 F.ID_MQ_CTRL_GO = 0
        ∧ getF t 58 F.ID_QUOTES_COUNT = count ∧ t.ident.quoteSeq = seq ∧ t.ident.quotes.length = l.length)
    ∧ (∀ c, q.mgmt = false → findCmd s q.no = some c → c.no = q.no → Gives .quoteSigned s fun t => ∃ u, t = headQuote u
        ∧ EndsIn u c 0 5645 seq fun x => ∃ y, x = toHost y c quote ∧ y.dqp = s.dqp ∧ y.ident.quotes = l ∧ getF y 58 F.ID_QUOTES_COUNT = count ∧ y.ident.quoteSeq = seq))

/-- SET_POWER to the present state completes at once; to a shallower one it begins an exit; to a deeper one an entry, for DP2 once every
resident context has begun to leave, where the headgate refuses one of them it completes with 0x2001, and DP3 asks for no context (R86,
R89). An entry passes its point of no return, for DP2 with every context saved and no die at work, and ends with PSTATE set and its
command complete, in DP3 with the module HALTED; a command that arrived after that point has it left again at once, in DP3 by a restart
at step 4 (R86, R87). The end of an exit sets PSTATE, and completes the command that ordered it with the state reached.
SHUTDOWN on a RUNNING module, no other order on record or waiting: the module is HALTING; with FORCE = 1 its passes and programs end at once
and no command is left but SHUTDOWN; with FORCE = 0 the module waits for started commands until the wait expires. A reset is on record
as one (R442).
When its wait expires a halt ends the passes, programs and pulls (R442 step 3). When the buffers are flushed the module is
HALTED: tier 1, links, queues and contexts are gone, key storage is clear, and island 59 keeps its registers but its grants;
where the halt is a reset it is STARTING at step 1 (R441, R442, R464). -/
def Obligations.PowerStatesAndShutdown : Prop :=
  (∀ (s : State) (id : CmdId) (c : Cmd), State.wf s = true →
    (s.dqp.pwr = .none → Runs s id c 0x08 [(32, 1)] → c.b 32 1 ≤ 3 → (c.b 32 1 = 3 → s.sched.ctxs = []) →
      (c.b 32 1 = getF s 56 F.DQP_STATUS_PSTATE → Gives (.setPower id) s fun t => EndsIn t c 0 (c.b 32 1) 0 (JustStarted s c))
      ∧ (c.b 32 1 < getF s 56 F.DQP_STATUS_PSTATE → Gives (.setPower id) s fun t =>
          t.dqp.pwr = .exiting (c.b 32 1) (some c.no) ∧ getF t 56 F.DQP_STATUS_PS_BUSY = 1)
      ∧ (getF s 56 F.DQP_STATUS_PSTATE < c.b 32 1 → c.b 32 1 ≠ 2 → Gives (.setPower id) s fun t =>
          t.dqp.pwr = .entering (c.b 32 1) (getF s 56 F.DQP_STATUS_PSTATE) c.no false none ∧ getF t 56 F.DQP_STATUS_PS_BUSY = 1)
      ∧ (getF s 56 F.DQP_STATUS_PSTATE < 2 → c.b 32 1 = 2 → (∀ x ∈ s.sched.ctxs, x.st ≠ .resident) → Gives (.setPower id) s fun t =>
          t.dqp.pwr = .entering 2 (getF s 56 F.DQP_STATUS_PSTATE) c.no false none ∧ getF t 56 F.DQP_STATUS_PS_BUSY = 1 ∧ t.mem = s.mem)
      ∧ (let r := saveResidents s.sched.ctxs (markStarted s c.no)
         getF s 56 F.DQP_STATUS_PSTATE < 2 → c.b 32 1 = 2 →
          (r.2 = none → Gives (.setPower id) s fun t =>
            t.dqp.pwr = .entering 2 (getF s 56 F.DQP_STATUS_PSTATE) c.no false none ∧ getF t 56 F.DQP_STATUS_PS_BUSY = 1)
          ∧ (∀ e, r.2 = some e → Gives (.setPower id) s fun t => t = complete r.1 c.no 0x2001 (getF s 56 F.DQP_STATUS_PSTATE) 0 e)))
    ∧ (∀ target prior no late, s.dqp.pwr = .entering target prior no false late → target ≤ 3 →
        (target = 2 → (∀ x ∈ s.sched.ctxs, x.holds = false) ∧ ∀ d ∈ s.flash.dies, d.2.run = none ∧ d.2.st ≠ .psusp) →
        Gives (.powerStateEntered false) s fun t =>
          t.dqp.pwr = .entering target prior no true late ∧ getF t 56 F.DQP_STATUS_PS_BUSY = 1
            ∧ (target = 3 → getF t 59 F.WEIR_STATUS_MSTATE = 2 ∧ getF t 59 F.WEIR_STATUS_HALT_CAUSE = 2))
    ∧ (∀ target prior no late, s.dqp.pwr = .entering target prior no true late → target ≤ 2 →
        Gives (.powerStateEntered true) s fun t =>
          getF t 56 F.DQP_STATUS_PSTATE = target ∧ findCmd t no = none
            ∧ (late = none → t.dqp.pwr = .none ∧ getF t 56 F.DQP_STATUS_PS_BUSY = 0 ∧ (target = 2 → t.link.l0 = false))
            ∧ (∀ w, late = some w → t.dqp.pwr = .exiting w none ∧ getF t 56 F.DQP_STATUS_PS_BUSY = 1))
    ∧ (∀ prior no late, s.dqp.pwr = .entering 3 prior no true late →
        Gives (.powerStateEntered true) s fun t =>
          (late = none → getF t 59 F.WEIR_STATUS_MSTATE = 3 ∧ t.dqp = {} ∧ t.link = {} ∧ t.sched = {} ∧ t.boot.active = s.boot.active)
            ∧ (∀ w, late = some w → getF t 59 F.WEIR_STATUS_MSTATE = 0 ∧ getF t 59 F.WEIR_STATUS_STEP = 4 ∧ t.dqp.pwr = .none
                ∧ findCmd t no = none ∧ t.boot.active = s.boot.active))
    ∧ (∀ target no, s.dqp.pwr = .exiting target no → target ≤ 3 →
        Gives .powerStateExited s fun t =>
          getF t 56 F.DQP_STATUS_PSTATE = target ∧ t.dqp.pwr = .none ∧ getF t 56 F.DQP_STATUS_PS_BUSY = 0
            ∧ (∀ n, no = some n → findCmd t n = none)))
    ∧ (∀ (s : State) (id : CmdId) (c : Cmd), State.wf s = true → Runs s id c 0x0D [(32, 1), (33, 1), (36, 4)] → getF s 59 F.WEIR_STATUS_MSTATE = 1 →
    NoRival s → c.b 36 4 ≤ 1500000000 → (c.b 33 1 = 0 ∨ (c.b 33 1 = 1 ∧ c.b 36 4 = 0)) →
    (c.b 32 1 = 0 → Gives (.shutdownHalt id) s fun t =>
        getF t 59 F.WEIR_STATUS_MSTATE = 2 ∧ getF t 59 F.WEIR_STATUS_HALT_CAUSE = 1 ∧ t.boot.haltReset = false
          ∧ (c.b 33 1 = 0 → t.boot.haltWait = true) ∧ (c.b 33 1 = 1 → t.tiles = [] ∧ t.flume.progs = [] ∧ t.dqp.pulls = []))
    ∧ (c.b 32 1 = 1 → Gives (.shutdownReset id) s fun t =>
        getF t 59 F.WEIR_STATUS_MSTATE = 2 ∧ t.boot.haltReset = true
          ∧ (c.b 33 1 = 0 → t.boot.haltWait = true) ∧ (c.b 33 1 = 1 → t.tiles = [] ∧ t.flume.progs = [] ∧ t.dqp.pulls = [])))
    ∧ (∀ s : State, State.wf s = true → getF s 59 F.WEIR_STATUS_MSTATE = 2 →
    (s.boot.haltWait = true → Gives .shutdownWaitExpire s fun t =>
        getF t 59 F.WEIR_STATUS_MSTATE = 2 ∧ t.boot.haltWait = false ∧ t.tiles = [] ∧ t.flume.progs = [] ∧ t.dqp.pulls = [])
    ∧ (enteringDp3 s = false → s.boot.haltWait = false → s.boot.haltReset = false → Gives .haltFlushComplete s fun t =>
        getF t 59 F.WEIR_STATUS_MSTATE = 3 ∧ t.link = {} ∧ t.dqp = {} ∧ t.mem = {} ∧ t.tiles = [] ∧ t.runnels = {} ∧ t.sched = {}
          ∧ t.ident.sk = [] ∧ t.boot.active = s.boot.active ∧ getF t 59 F.WEIR_STATUS_HALT_CAUSE = getF s 59 F.WEIR_STATUS_HALT_CAUSE)
    ∧ (enteringDp3 s = false → s.boot.haltWait = false → s.boot.haltReset = true → Gives .haltFlushComplete s fun t =>
        getF t 59 F.WEIR_STATUS_MSTATE = 0 ∧ getF t 59 F.WEIR_STATUS_STEP = 1 ∧ t.link = {} ∧ t.dqp = {} ∧ t.mem = {} ∧ t.boot.active = []
          ∧ t.boot.copies = s.boot.copies))

/-! ## Storage commands (R78, R83, R373, R383, R389, R390, R402) -/

namespace Sys2Proof.Machine

/-- The maps of the flash state have rising keys. -/
def FlashSorted (s : State) : Prop :=
  mSorted none s.flash.blocks = true ∧ mSorted none s.flash.lostBlocks = true ∧ mSorted none s.flash.map = true
    ∧ mSorted none s.flash.slots = true ∧ mSorted none s.flash.dies = true ∧ mSorted none s.flash.sets = true

/-- No other command has the number, and none has started. -/
def Alone (s : State) (c : Cmd) : Prop := findCmd s c.no = some c ∧ ∀ x ∈ s.dqp.cmds, x.phase ≠ .started ∧ (x.no = c.no → x = c)

/-- The range of a storage command lies in its namespace (R78). -/
def RangeOk (s : State) (c : Cmd) (most : Nat) : Prop :=
  1 ≤ c.b 40 4 ∧ c.b 40 4 ≤ most ∧ c.b 32 8 + c.b 40 4 ≤ nsBlocks s c.nsid ∧ c.b 32 8 + c.b 40 4 ≤ 2 ^ 59

/-- The data of the blocks [a, a+n) of a namespace, zeros where a block is not mapped. -/
def hostBlocks (s : State) (nsid a n : Nat) : List Byte := ((List.range n).map (fun i => (rdBlock s nsid (a + i)).getD zeroBlock)).flatten

/-- The units of a range that lie in stripes have their page reads queued. -/
def readsQueued (s : State) (c : Cmd) : State :=
  (stripeUnits s c.nsid (c.b 32 8) (c.b 40 4)).foldl (fun s u => readUnit s u.1 (u.2.1, u.2.2) (.cmd c.no)) s

/-- A command with its opcode and the bytes it reads. -/
abbrev Form := (CmdId → Instr) × Nat × List (Nat × Nat)

end Sys2Proof.Machine

/-- WRITE in a writable module: refused by the headgate or the mapping reserve it completes with 0x2001 and the DETAIL of R120, and writes
nothing; granted its blocks: where the write buffer takes every block, each reads back as the data and blocks
elsewhere read as before; without FUA the command completes with 0; R_WRITE without EMBED is a WRITE (R95). Where the buffer is full the blocks taken so far are there,
the command waits, and WRITE_RESUME goes on from the next block in the same way (R78, R383).
FLUSH, or R_FLUSH, completes once no block of its namespace is left only in the buffer; else each slot that holds one has it waiting, and it
is outstanding (R78). TRIM, or R_TRIM, makes the mapped units of its range read zeros and no block outside it change; where no slot is
free for a unit covered in part it waits (R383, R389).
SECURE_DISCARD of a range trims it, zeroes its blocks in the buffer and looks for copies; of the released storage of its domain it
takes every released unit; where no stripe and no plane set out of use can hold a copy it completes at once with no set erased
(R402, R403). Where some can, the discard is on record with those stripes and sets. -/
def Obligations.WritesFlushesAndDiscards : Prop :=
  (∀ (s : State) (id : CmdId) (c : Cmd), FlashSorted s → c.due = 0 → roStatus s = 0 → RangeOk s c 65536 →
    flashRefusal s c.nsid (c.b 32 8 + c.done) (c.b 40 4 - c.done) = none → c.done < c.b 40 4 →
    let n := c.b 40 4
    let P (r : State × Nat) (t : State) : Prop :=
      (∀ i, c.done ≤ i → i < r.2 → rdBlock t c.nsid (c.b 32 8 + i) = some (slice c.data (4096 * i) 4096))
        ∧ (∀ b, b < 2 ^ 59 → (b < c.b 32 8 + c.done ∨ c.b 32 8 + r.2 ≤ b) → rdBlock t c.nsid b = rdBlock s c.nsid b)
        ∧ t.mem.bytes = s.mem.bytes
        ∧ (r.2 < n → ∃ x, findCmd t c.no = some x ∧ x.phase = .started ∧ x.done = r.2)
        ∧ (r.2 = n → c.fua s = false → ∃ x, findCmd x c.no ≠ none ∧ t = complete x c.no 0)
    (Alone s c → c.done = 0 → Runs s id c 0x21 [(32, 16)] → c.bufBytes = 4096 * n → c.b 44 4 ≤ 1 → durableLeft s c.no = false →
      Gives (.write id) s (P (writeBlocks c (c.fua s) n 0 (markStarted s c.no))))
    ∧ (Alone s c → c.done = 0 → Runs s id c 0xC2 [(32, 96)] → c.bufBytes = 4096 * n → (c.b 44 4).testBit 0 = false → durableLeft s c.no = false →
      Gives (.rWrite id) s (P (writeBlocks c (c.fua s) n 0 (markStarted s c.no))))
    ∧ (cmdById s id = some c → c.opcode = 0x21 → c.phase = .started → findCmd s c.no = some c → (∀ x ∈ s.dqp.cmds, x.phase = .started → x = c) →
      durableLeft s c.no = false → Gives (.writeResume id) s (P (writeBlocks c (c.fua s) (n - c.done) c.done s))))
    ∧ (∀ (s : State) (id : CmdId) (c : Cmd) (d : Nat), roStatus s = 0 → RangeOk s c 65536 → c.done = 0 → findCmd s c.no = some c →
    c.bufBytes = 4096 * c.b 40 4 → flashRefusal s c.nsid (c.b 32 8) (c.b 40 4) = some d →
    (Runs s id c 0x21 [(32, 16)] → c.b 44 4 ≤ 1 →
      exec (.write id) s = .next (complete (deny (markStarted s c.no) (domOf c.nsid)) c.no 0x2001 0 0 d))
    ∧ (Runs s id c 0xC2 [(32, 96)] →
      exec (.rWrite id) s = .next (complete (deny (markStarted s c.no) (domOf c.nsid)) c.no 0x2001 0 0 d)))
    ∧ (∀ (s : State) (id : CmdId) (c : Cmd), FlashSorted s → Alone s c → c.due = 0 → ∀ k ∈ ([(Instr.flush, 0x22, []), (Instr.rFlush, 0xC3, [(32, 96)])] : List Form), ∀ j ∈ ([(Instr.trim, 0x23, [(32, 12)]), (Instr.rTrim, 0xC4, [(32, 96)])] : List Form),
    (Runs s id c k.2.1 k.2.2 → durableLeft s c.no = false → (∀ p ∈ s.flash.slots, luaSpace p.2.lua = c.nsid → p.2.staged ≠ none) →
      Gives (k.1 id) s fun t => EndsIn t c 0 0 0 (JustStarted s c))
    ∧ (Runs s id c k.2.1 k.2.2 → (∃ p ∈ s.flash.slots, luaSpace p.2.lua = c.nsid ∧ p.2.staged = none) →
      Gives (k.1 id) s fun t => t.dqp = (markStarted s c.no).dqp
        ∧ (∀ p ∈ s.flash.slots, luaSpace p.2.lua = c.nsid → p.2.staged = none →
            ∃ q ∈ t.flash.slots, q.1 = p.1 ∧ q.2.data = p.2.data ∧ ∃ w ∈ q.2.writers, w.no = c.no ∧ w.fua = true))
    ∧ (Runs s id c j.2.1 j.2.2 → RangeOk s c (2 ^ 32 - 1) → trimRange s c.nsid (c.b 32 8) (c.b 40 4) = none →
      exec (j.1 id) s = .next s)
    ∧ (∀ u, Runs s id c j.2.1 j.2.2 → RangeOk s c (2 ^ 32 - 1) → (partUnits (c.b 32 8) (c.b 40 4) = [] ∨ roStatus s = 0) →
      trimRange (markStarted s c.no) c.nsid (c.b 32 8) (c.b 40 4) = some u → trimWaits s id = false →
      Gives (j.1 id) s fun t => t = noteRo (finishDurable (pumpMedia (dropStaging (complete u c.no 0))))
        ∧ (∀ b, c.b 32 8 ≤ b → b < c.b 32 8 + c.b 40 4 → mfind s.flash.map (luaOf c.nsid (b / 8)) ≠ none → rdBlock u c.nsid b = some zeroBlock)
        ∧ (∀ b, b < 2 ^ 59 → (b < c.b 32 8 ∨ c.b 32 8 + c.b 40 4 ≤ b) → rdBlock u c.nsid b = rdBlock s c.nsid b)))
    ∧ (∀ (s : State) (id : CmdId) (c : Cmd), s.flash.discards = [] → roStatus s = 0 → Runs s id c 0x24 [(32, 13)] →
    let found (x : State) (mask : Nat) (t : State) : Prop :=
      ((∀ y ∈ x.flash.stripes, y.filter &&& mask = 0) → (∀ p ∈ x.flash.sets, p.2.filter &&& mask = 0) →
          ∃ y : State, t = complete y c.no 0 ∧ y.flash = { x.flash with discards := [] } ∧ y.dqp = x.dqp ∧ y.mem = x.mem)
        ∧ (∀ y ∈ x.flash.stripes, y.filter &&& mask ≠ 0 → ∃ d ∈ t.flash.discards, d.no = c.no ∧ d.nsid = c.nsid ∧ y.id ∈ d.stripes)
    (∀ u, c.b 44 1 = 0 → RangeOk s c (2 ^ 32 - 1) → trimWaits s id = false →
      trimRange (markStarted s c.no) c.nsid (c.b 32 8) (c.b 40 4) = some u →
      Gives (.secureDiscardRange id)
        s (found (zeroSlots u fun lua i => luaSpace lua == c.nsid && decide (c.b 32 8 ≤ 8 * luaUnit lua + i) && decide (8 * luaUnit lua + i < c.b 32 8 + c.b 40 4))
          (rangeMask c.nsid (c.b 32 8 / 8) ((c.b 32 8 + c.b 40 4 - 1) / 8))))
    ∧ (c.b 44 1 = 1 → c.b 32 8 = 0 → c.b 40 4 = 0 →
      Gives (.secureDiscardReleased id) s fun t => (∀ p ∈ t.flash.released, p.1 ≠ domOf c.nsid)
        ∧ found (zeroSlots (updFlash (markStarted s c.no) fun f => { f with released := f.released.filter (fun u => u.1 != domOf c.nsid) })
              fun lua _ => s.flash.released.any (fun u => u.1 == domOf c.nsid && u.2 == lua))
            (((s.flash.released.filter (fun u => u.1 == domOf c.nsid)).map (·.2)).foldl (fun m lua => m ||| filterBit lua) 0) t))

/-- READ, and under Risal R_READ, writes the blocks of its range to its buffer, zeros for blocks never written or trimmed; with a block that cannot be read it
completes with 0x3001 and transfers nothing; VERIFY reads the same and reports the first such block (R78, R390). Units in
stripes have page reads queued first, and nothing completes while one is outstanding.
RAW_READ with DIAG_EN: corrected data and stored bytes queue the read of their page at the level named; the erase-verify count is the
number of zero bits, up to 147,456, and counts as a read of its set (R373). -/
def Obligations.ReadsAndRawReads : Prop :=
  (∀ (s : State) (id : CmdId) (c : Cmd), findCmd s c.no = some c → RangeOk s c 65536 → ∀ k ∈ ([(Instr.read, 0x20, [(32, 12)]), (Instr.rRead, 0xC1, [(32, 96)])] : List Form),
    (let u := readsQueued (markStarted s c.no) c
     readsLeft u (.cmd c.no) = true →
      (Runs s id c k.2.1 k.2.2 → c.bufBytes = 4096 * c.b 40 4 → exec (k.1 id) s = .next u)
      ∧ (Runs s id c 0x25 [(32, 12)] → exec (.verify id) s = .next u))
    ∧ (stripeUnits s c.nsid (c.b 32 8) (c.b 40 4) = [] → readsLeft s (.cmd c.no) = false →
      (firstBad s c.nsid (c.b 32 8) (c.b 40 4) = none →
        (Runs s id c k.2.1 k.2.2 → c.bufBytes = 4096 * c.b 40 4 → Gives (k.1 id) s fun t =>
          EndsIn t c 0 0 0 fun x => ∃ y, Metered (markStarted s c.no) y ∧ x = toHost y c (hostBlocks s c.nsid (c.b 32 8) (c.b 40 4)))
        ∧ (Runs s id c 0x25 [(32, 12)] → Gives (.verify id) s fun t => EndsIn t c 0 0 0 (JustStarted s c)))
      ∧ (∀ b, firstBad s c.nsid (c.b 32 8) (c.b 40 4) = some b →
        (Runs s id c k.2.1 k.2.2 → c.bufBytes = 4096 * c.b 40 4 → Gives (k.1 id) s fun t => EndsIn t c 0x3001 0 0 (JustStarted s c))
        ∧ (Runs s id c 0x25 [(32, 12)] → Gives (.verify id) s fun t => EndsIn t c 0x3001 b 0 (JustStarted s c)))))
    ∧ (∀ (s : State) (id : CmdId) (c : Cmd) (zeros : Nat), FlashSorted s → Runs s id c 0x26 [(32, 10)] →
    let p := rawPage c
    (c.b 40 1 = 0 → rawCond s c 16448 = 0 → Gives (.rawReadCorrected id) s fun t =>
      (getDie t p.chan p.die).reads = (getDie s p.chan p.die).reads ++ [.read p (c.b 41 1) (.raw c.no)]
        ∧ t = { markStarted s c.no with flash := { s.flash with dies := t.flash.dies } })
    ∧ (c.b 40 1 = 1 → rawCond s c 18432 = 0 → Gives (.rawReadStored id) s fun t =>
      (getDie t p.chan p.die).reads = (getDie s p.chan p.die).reads ++ [.read p (c.b 41 1) (.raw c.no)]
        ∧ t = { markStarted s c.no with flash := { s.flash with dies := t.flash.dies } })
    ∧ (c.b 40 1 = 2 → rawCond s c 8 = 0 → Gives (.rawReadEraseCount id zeros) s fun t => EndsIn t c 0 0 0 fun x => ∃ y,
        x = toHost y c (toBytes 4 (min zeros 147456) ++ [0, 0, 0, 0]) ∧ y.dqp = (markStarted s c.no).dqp
          ∧ (getSet y p.chan p.die p.block).reads = (getSet s p.chan p.die p.block).reads + 1))

/-! ## Objects, tier commands and stacks (R109-R119, R125-R139, R297-R303, R414) -/

/-- OBJ_REGISTER adds the object its fields, extents and attributes describe; OBJ_SET_ATTR replaces the attributes its mask names, of that
object alone; OBJ_LOOKUP writes the object's record and the extents that fit (R300, R301, R303).
OBJ_DELETE removes the entry at once, leaves every other, unmaps its window range, drops its pages and leaves a tombstone where pools
may hold its members; it completes at once when no sweep is in progress, else after those in progress (R302). The object here
has no fetch outstanding.
OBJ_MAP of a mapped object counts one more map and answers its address; of another it takes the first window range that fits, in
demand mode placing nothing. OBJ_UNMAP takes one map off, and the range goes with the last (R109, R110). -/
def Obligations.ObjectsComeAndGo : Prop :=
  (∀ (s : State) (id : CmdId) (c : Cmd),
    (Runs s id c 0x40 [(32, 9), (44, 12)] → idOk (c.b 32 8) = true → 1 ≤ c.b 44 4 → c.b 44 4 ≤ 4096 → c.b 48 8 ≠ 0 →
      c.bufBytes = 64 + 16 * c.b 44 4 → hostType (c.b 40 1) = true → idFree s c.nsid (c.b 32 8) = true →
      (∀ e ∈ regExtents c, e.2.2 = 0 ∧ e.1 + e.2.1 ≤ nsBlocks s c.nsid) →
      c.b 48 8 ≤ 4096 * ((regExtents c).map (·.2.1)).foldl (· + ·) 0 → s.search.objs.length < 2 ^ 32 →
      Gives (.objRegister id) s fun t => EndsIn t c 0 0 0 fun x => ∃ o : Obj,
        x = { markStarted s c.no with search := { s.search with objs := s.search.objs ++ [o] } }
          ∧ o.nsid = c.nsid ∧ o.id = c.b 32 8 ∧ o.mtype = c.b 40 1 ∧ o.size = c.b 48 8 ∧ o.attrs = attrFields c.data
          ∧ o.storage = .host ((regExtents c).map (fun e => (e.1, e.2.1))) ∧ o.quarantined = false ∧ o.pathKind = 0)
    ∧ (∀ o, findObj s c.nsid (c.b 32 8) = some o →
      (Runs s id c 0x41 [(32, 10)] → c.bufBytes = 64 →
        Gives (.objSetAttr id) s fun t => EndsIn t c 0 0 0 fun x =>
          findObj x c.nsid (c.b 32 8) = some { o with
              attrs := (List.range 16).map (fun f => if (c.b 40 2).testBit f then (attrFields c.data).getD f 0 else o.attrs.getD f 0) }
            ∧ (∀ n i, ¬ (n = c.nsid ∧ i = c.b 32 8) → findObj x n i = findObj s n i)
            ∧ x = { markStarted s c.no with search := { s.search with objs := x.search.objs } })
      ∧ (Runs s id c 0x43 [(32, 8)] → 128 ≤ c.bufBytes → ∀ ext, o.storage = .host ext →
        Gives (.objLookup id) s fun t => EndsIn t c 0 0 0 fun x => x = toHost (markStarted s c.no) c
          (toBytes 8 o.id ++ toBytes 1 o.mtype ++ toBytes 1 (b2n o.quarantined) ++ toBytes 2 0 ++ toBytes 4 ext.length ++ toBytes 8 o.size
            ++ toBytes 8 (windowAddr s o.nsid o.id 0) ++ ((List.range 16).map (fun f => toBytes 4 (o.attrs.getD f 0))).flatten ++ toBytes 32 0
            ++ ((ext.take ((c.bufBytes - 128) / 16)).map (fun e => toBytes 8 e.1 ++ toBytes 4 e.2 ++ toBytes 4 0)).flatten))))
    ∧ (∀ (s : State) (id : CmdId) (c : Cmd) (o : Obj), Runs s id c 0x42 [(32, 8)] → findObj s c.nsid (c.b 32 8) = some o → findCmd s c.no = some c →
    o.mtype ≠ 8 → o.mtype ≠ 9 → (∀ x ∈ s.sched.ctxs, ¬ (x.nsid = o.nsid ∧ x.curImage = o.id)) →
    (needsTomb s o = true → s.search.tombs.length < 262144) → (∀ f ∈ s.mem.fetches, ¬ (f.nsid = o.nsid ∧ f.obj = o.id)) →
    Gives (.objDelete id) s fun t =>
      findObj t o.nsid o.id = none ∧ (∀ n i, ¬ (n = o.nsid ∧ i = o.id) → findObj t n i = findObj s n i)
        ∧ (∀ p ∈ t.mem.pages, ¬ (p.nsid = o.nsid ∧ p.obj = o.id)) ∧ (∀ w ∈ t.mem.windows, w.nsid = o.nsid → w.obj = o.id → w.dead = true)
        ∧ (needsTomb s o = true → t.search.tombs = s.search.tombs ++ [⟨o.nsid, o.id, livePools s o.nsid⟩])
        ∧ (s.search.sweeps = [] → findCmd t c.no = none)
        ∧ (s.search.sweeps ≠ [] → t.search.deletes = s.search.deletes ++ [(c.no, s.search.sweeps.map (·.seq))] ∧ findCmd t c.no ≠ none))
    ∧ (∀ (s : State) (id : CmdId) (c : Cmd),
    (∀ o, findObj s c.nsid (c.b 32 8) = some o → Runs s id c 0x44 [(32, 8)] →
      (∀ w, s.mem.windows.find? (fun w => w.nsid == o.nsid && w.obj == o.id) = some w →
        Gives (.objMap id) s fun t => EndsIn t c 0 (2 * 2 ^ 56 + w.first * MiB2) 0 fun x =>
          x = updWindow (markStarted s c.no) o.nsid o.id (fun w => { w with maps := min (w.maps + 1) 65535 }))
      ∧ (s.mem.windows.find? (fun w => w.nsid == o.nsid && w.obj == o.id) = none → getF s 57 F.TM_CTRL_MODE = 0 →
        (∀ a, windowFit s (ceilDiv o.size MiB2) = some a →
          Gives (.objMap id) s fun t => EndsIn t c 0 (2 * 2 ^ 56 + a * MiB2) 0 fun x =>
            x = updMem (markStarted s c.no) fun m => { m with windows := m.windows ++ [⟨o.nsid, o.id, a, ceilDiv o.size MiB2, 1, false⟩] })
        ∧ (windowFit s (ceilDiv o.size MiB2) = none → exec (.objMap id) s = .next (complete (markStarted s c.no) c.no 0x2001 0 0 3))))
    ∧ (∀ w, s.mem.windows.find? (fun w => w.nsid == c.nsid && w.obj == c.b 32 8) = some w → Runs s id c 0x45 [(32, 8)] →
      (w.maps ≤ 1 → Gives (.objUnmap id) s fun t => EndsIn t c 0 0 0 fun x =>
        x = updMem (markStarted s c.no) fun m => { m with windows := m.windows.filter (fun x => !(x.nsid == w.nsid && x.obj == w.obj)) })
      ∧ (1 < w.maps → Gives (.objUnmap id) s fun t => EndsIn t c 0 0 0 fun x =>
        x = updWindow (markStarted s c.no) w.nsid w.obj (fun w => { w with maps := w.maps - 1 }))))

namespace Sys2Proof.Machine

/-- An unpinned page that has lost every frame with its stacks: it is no page any more (R139). -/
def bare (p : Page) : Bool := p.asleep && p.pins == 0 && p.lost == p.frame.length

end Sys2Proof.Machine

/-- The tier commands that answer at once, no tier command outstanding on the object: TIER_MOVE to tier 2 drops the resident pages of its range
and no other page; TIER_UNPIN takes one pin off each page of its range, and a page with no frame left goes with its last pin; TIER_HINT
and SHADOW_SET change the object's hint and path alone, but that a change of grain, which no resident or pinned page permits,
drops the pages still being fetched; QUOTA_QUERY writes its domain's record and changes nothing (R115-R117, R119, R125, R127).
TIER_MOVE to tier 1 and TIER_PIN of an object not quarantined start the pages of their range and stay outstanding as a fetch, with its
pin and deadline; a frame the headgate refuses ends them with 0x2001 (R116, R117, R120, R126). A page whose blocks all are read once its
reads have ended is resident; with blocks that are not, its object is quarantined for them and keeps no page (R131, R132); a fetch whose
pages all are completes with the object's ID and the MiB brought in, its pages pinned where it asked (R116, R117). A deadline that
expires counts once; with no spillway the fetch goes on, else the command completes with 2 and the path (R126-R130). -/
def Obligations.TierCommandsAndFetches : Prop :=
  ((∀ (s : State) (id : CmdId) (c : Cmd) (o : Obj), findObj s c.nsid (c.b 32 8) = some o → tierFree s c = true →
    let r := (tierRange o (c.b 40 8) (c.b 48 8)).1
    ((Runs s id c 0xA0 [(32, 27)] → (∀ x ∈ tierConds s c ++ dieConds s (c.b 57 1), x = 0) → c.b 56 1 = 2 → c.b 58 1 = 0 →
      (∀ i ∈ r, ∀ p, findPage s o.nsid o.id i = some p → p.pins = 0) →
      Gives (.tierMoveRelease id) s fun t => EndsIn t c 0 o.id 0 fun x =>
        (∀ i ∈ r, ∀ p, findPage x o.nsid o.id i = some p → p.resident = false)
          ∧ (∀ n b i, ¬ (n = o.nsid ∧ b = o.id ∧ i ∈ r) → findPage x n b i = findPage s n b i)
          ∧ x.mem.bytes = s.mem.bytes ∧ x.search = s.search ∧ x.flash = s.flash)
    ∧ (Runs s id c 0xA2 [(32, 24)] → (∀ x ∈ tierConds s c, x = 0) →
      (∀ i ∈ r, ∃ p, findPage s o.nsid o.id i = some p ∧ 1 ≤ p.pins ∧ (isShadow s o = true → p.pins ≠ 1)) →
      Gives (.tierUnpin id) s fun t => EndsIn t c 0 0 0 fun x =>
        (∀ i ∈ r, ∀ p, findPage s o.nsid o.id i = some p → bare { p with pins := p.pins - 1 } = false →
            findPage x o.nsid o.id i = some { p with pins := p.pins - 1 })
          ∧ (∀ n b i, ¬ (n = o.nsid ∧ b = o.id ∧ i ∈ r) → ∀ p, findPage s n b i = some p → bare p = false → findPage x n b i = some p)
          ∧ (∀ p ∈ x.mem.pages, bare p = false)
          ∧ x = { markStarted s c.no with mem := { s.mem with pages := x.mem.pages } })
    ∧ (Runs s id c 0xA3 [(32, 12)] → (∀ x ∈ dieConds s (c.b 42 1), x = 0) → (c.b 40 1 = 1 ∨ c.b 40 1 = 2) → c.b 41 1 ≤ 2 → c.b 43 1 ≤ 1 →
      let hinted (x : State) : State := updObj x c.nsid (c.b 32 8) fun o =>
        { o with grain := c.b 41 1, hintTier := c.b 40 1, hintDie := c.b 42 1, hintPin := c.b 43 1 == 1, hinted := true }
      (o.grain = c.b 41 1 → Gives (.tierHint id) s fun t => EndsIn t c 0 0 0 fun x => x = hinted (markStarted s c.no))
      ∧ (o.grain ≠ c.b 41 1 → (∀ p ∈ s.mem.pages, p.nsid = o.nsid → p.obj = o.id → p.resident = false ∧ p.pins = 0) →
        Gives (.tierHint id) s fun t => EndsIn t c 0 0 0 fun x =>
          x.search = (hinted (markStarted s c.no)).search ∧ (∀ p ∈ x.mem.pages, ¬ (p.nsid = o.nsid ∧ p.obj = o.id))
            ∧ (∀ n b i, ¬ (n = o.nsid ∧ b = o.id) → findPage x n b i = findPage s n b i) ∧ x.mem.bytes = s.mem.bytes ∧ x.flash = s.flash))
    ∧ (Runs s id c 0xA4 [(32, 9), (48, 8)] → c.b 40 1 ≤ 3 →
      (c.b 40 1 = 1 → o.mtype = 6 ∧ ∃ h, findObj s c.nsid (c.b 48 8) = some h ∧ heldWhole s h = true ∧ h.pathKind = 0) →
      (c.b 40 1 = 2 → o.mtype = 8) → (c.b 40 1 = 3 → o.mtype = 7) →
      Gives (.shadowSet id) s fun t => EndsIn t c 0 0 0 fun x =>
        x = updObj (markStarted s c.no) c.nsid (c.b 32 8) fun o => { o with pathKind := c.b 40 1, shadow := c.b 48 8 })))
    ∧ (∀ (s : State) (id : CmdId) (c : Cmd), Runs s id c 0xA5 [] → c.isList = false → c.bufBytes = 32 →
      Gives (.quotaQuery id) s fun t => EndsIn t c 0 0 0 fun x => x = toHost (markStarted s c.no) c (quotaRecord s c.dom)))
    ∧ (∀ (s : State) (id : CmdId) (c : Cmd) (o : Obj),
    (findObj s c.nsid (c.b 32 8) = some o → tierFree s c = true → o.quarantined = false →
      let r := tierRange o (c.b 40 8) (c.b 48 8)
      let P (die : Nat) (pin : Bool) (t : State) : Prop :=
        (∀ u, startPages o die r.1 (updMem (markStarted s c.no) fun m => { m with nextFetch := m.nextFetch + 1 }) = (u, .ok ()) →
          ∃ f : Fetch, t = updMem u (fun m => { m with fetches := m.fetches ++ [f] }) ∧ f.id = s.mem.nextFetch ∧ f.nsid = o.nsid ∧ f.obj = o.id
            ∧ f.pages = r.1 ∧ f.deadline = c.b 12 4 ∧ f.accepted = cyc s 57 ∧ f.pin = pin ∧ f.issuer = .cmd c.no ∧ f.expired = false)
        ∧ (∀ u e, startPages o die r.1 (updMem (markStarted s c.no) fun m => { m with nextFetch := m.nextFetch + 1 }) = (u, .error e) →
          t = complete u c.no 0x2001 0 0 e)
      (Runs s id c 0xA0 [(32, 27)] → (∀ x ∈ tierConds s c ++ dieConds s (c.b 57 1), x = 0) → c.b 56 1 = 1 → c.b 58 1 ≤ 1 →
        Gives (.tierMoveResident id) s (P (pickDie s (c.b 57 1)) (c.b 58 1 == 1)))
      ∧ (Runs s id c 0xA1 [(32, 24)] → (∀ x ∈ tierConds s c, x = 0) →
        Gives (.tierPin id) s (P (hintedDie s o (pickDie s 255)) true)))
    ∧ (∀ p idx outs, findPage s o.nsid o.id idx = some p → findObj s o.nsid o.id = some o → p.resident = false → p.asleep = false →
      p.again = false → p.lost = 0 → selfRefresh s = false →
      let n := min (pageBytes o) (o.size - idx * pageBytes o)
      let bad := lostIn (noteRo (unitReads s (unitsIn o (idx * pageBytes o) n) outs)) o (idx * pageBytes o) n
      (bad = [] → Gives (.pageFetchComplete o.nsid o.id idx outs) s fun t =>
        findPage t o.nsid o.id idx = some { p with resident := true, stamp := s.mem.clock }
          ∧ (∀ n b i, ¬ (n = o.nsid ∧ b = o.id ∧ i = idx) → findPage t n b i = findPage s n b i)
          ∧ t.mem.bytes = s.mem.bytes ∧ t.mem.clock = s.mem.clock + 1)
      ∧ (bad ≠ [] → o.quarantined = false → (∀ f ∈ s.mem.fetches, ¬ (f.nsid = o.nsid ∧ f.obj = o.id)) →
        Gives (.pageFetchComplete o.nsid o.id idx outs) s fun t =>
          findObj t o.nsid o.id = some { o with quarantined := true, failed := bad } ∧ (∀ q ∈ t.mem.pages, ¬ (q.nsid = o.nsid ∧ q.obj = o.id))
            ∧ t.mem.bytes = s.mem.bytes)
      ∧ (bad ≠ [] → o.quarantined = false →
        Gives (.pageFetchComplete o.nsid o.id idx outs) s fun t =>
          (∃ q, findObj t o.nsid o.id = some q ∧ q.quarantined = true ∧ q.failed = bad) ∧ ∀ f ∈ t.mem.fetches, ¬ (f.nsid = o.nsid ∧ f.obj = o.id)))
    ∧ (∀ p idx outs, findPage s o.nsid o.id idx = some p → findObj s o.nsid o.id = some o → p.resident = false → p.asleep = false →
      p.again = true → p.lost = 0 → selfRefresh s = false →
      Gives (.pageFetchComplete o.nsid o.id idx outs) s fun t => findPage t o.nsid o.id idx = some { p with again := false } ∧ t.mem.bytes = s.mem.bytes)
    ∧ (∀ f, findFetch s f.id = some f → findObj s f.nsid f.obj = some o → (∀ i ∈ f.pages, pageResident s f.nsid f.obj i = true) →
      f.issuer = .cmd c.no → f.spilled = false →
      Gives (.tierFetchComplete f.id) s fun t => EndsIn t c 0 o.id (f.newKib / 1024) fun x =>
        x = if f.pin then pinPages (dropFetch s f.id) f.nsid f.obj f.pages else dropFetch s f.id)
    ∧ (∀ f i, findFetch s f.id = some f → findObj s f.nsid f.obj = some o → i ∈ f.pages → pageResident s f.nsid f.obj i = false →
      f.issuer = .cmd c.no → f.deadline ≠ 0 → f.expired = false → getF s 57 F.CNT_CTRL_EN = 0 → State.wf s = true →
      getF s 57 F.TM_DEADLINE_MISS_COUNT < 2 ^ F.TM_DEADLINE_MISS_COUNT.w - 1 →
      Gives (.deadlineExpire f.id) s fun t =>
        getF t 57 F.TM_DEADLINE_MISS_COUNT = getF s 57 F.TM_DEADLINE_MISS_COUNT + 1
          ∧ (pathOf s o = 0 → findFetch t f.id = some { f with expired := true } ∧ t.dqp = s.dqp)
          ∧ (pathOf s o ≠ 0 → findFetch t f.id = some { f with expired := true, spilled := true } ∧ findCmd t c.no = none
            ∧ ∃ x r0 r1, t = addF (complete x c.no 2 r0 r1 (pathOf s o + 65536)) 57 F.TM_SPILL_COUNT 1)))

/-- A DRAINING stack: a copied extent moves to the roomiest other ONLINE stack of its die and reads on under its logical address; with nothing
left on it the stack is OFFLINE; so does a copied FRAME extent, with the pages in it. A JOINING stack goes through eight steps and is
then ONLINE, and extents that found no room before are backed. A fault takes a stack out of service: no frame stays on it, its
extents are poisoned and no longer on it. The scrub counts each corrected granule it finds (R134-R139, R414). -/
def Obligations.StacksDrainJoinAndFault : Prop :=
  ∀ (s : State) (k : Nat), State.wf s = true → k < 16 →
    (∀ m key ext, stkState s k = 1 → roomiest s (otherStacks s k) = some m → (heldExts s k).find? (fun p => p.2 == ext) = some (key, ext) →
      Gives (.extentCopyComplete k ⟨ext, [], []⟩) s fun t =>
        t.mem.exts = s.mem.exts.map (fun p => if p.1 = key then (key, { p.2 with phys := some (m, lowestPhys s m), copied := true }) else p)
          ∧ t = { holdExt s m (lowestPhys s m) with mem := { s.mem with exts := t.mem.exts } })
    ∧ (∀ m ext fr, stkState s k = 1 → roomiest s (otherStacks s k) = some m → (heldExts s k).find? (fun p => p.2 == ext) = none →
      mfind s.mem.frames (k * 65536 + ext) = some fr →
      exec (.extentCopyComplete k ⟨ext, [], []⟩) s = .next (updMem (holdExt s m (lowestPhys s m)) fun x => { x with
        frames := mins (mdel x.frames (k * 65536 + ext)) (m * 65536 + lowestPhys s m) { fr with copied := true }
        pages := x.pages.map (fun p => { p with frame := p.frame.map (fun f => if f = (k, ext) then (m, lowestPhys s m) else f) }) }))
    ∧ (stkState s k = 1 → heldExts s k = [] → heldFrames s k = [] →
      Gives (.stackDrainComplete k) s fun t => stkState t k = 2 ∧ t.mem = s.mem)
    ∧ (stkState s k = 1 → (heldExts s k ≠ [] ∨ heldFrames s k ≠ []) → exec (.stackDrainComplete k) s = .next s)
    ∧ (stkState s k = 4 → getF s (32 + k) F.STK_STATE_JOIN_STEP = 0 →
      Gives (.stackValidClearDone k) s fun t => getF t (32 + k) F.STK_STATE_JOIN_STEP = 1 ∧ stkState t k = 4 ∧ t = { s with regs := t.regs })
    ∧ (∀ n, stkState s k = 4 → getF s (32 + k) F.STK_STATE_JOIN_STEP = n → 1 ≤ n →
      Gives (.stackJoinStep k) s fun t =>
        (n < 7 → getF t (32 + k) F.STK_STATE_JOIN_STEP = n + 1 ∧ stkState t k = 4)
          ∧ (7 ≤ n → getF t (32 + k) F.STK_STATE_JOIN_STEP = 0 ∧ stkState t k = 0)
          ∧ t.mem = { s.mem with exts := t.mem.exts } ∧ ((n < 7 ∨ ∀ p ∈ s.mem.exts, p.2.phys ≠ none) → t.mem = s.mem))
    ∧ (enabled s (32 + k) = true → stkState s k ≠ 2 → stkState s k ≠ 3 → mSorted none s.mem.exts = true →
      Gives (.stackFault k) s fun t => stkState t k = 2 ∧ getF t (32 + k) F.STK_STATE_JOIN_STEP = 0
        ∧ (∀ p ∈ t.mem.pages, ∀ f ∈ p.frame, f.1 ≠ k)
        ∧ (∀ p ∈ heldExts s k, ∃ x, mfind t.mem.exts p.1 = some x ∧ x.poisoned = true ∧ ∀ e, x.phys ≠ some (k, e))
        ∧ (heldExts s k = [] → t.mem.bytes = s.mem.bytes ∧ ((∀ p ∈ s.mem.exts, p.2.phys ≠ none) → t.mem.exts = s.mem.exts)))
    ∧ (enabled s (32 + k) = true → getF s (32 + k) F.CNT_CTRL_EN = 0 →
      Gives (.stackScrub k [] []) s fun t => t = s)
    ∧ (∀ a, enabled s (32 + k) = true → getF s (32 + k) F.CNT_CTRL_EN = 0 →
      stackOfAddr s a = some k → storedAt s a = true →
      getF s (32 + k) F.PROT_CE_COUNT_COUNT < 2 ^ F.PROT_CE_COUNT_COUNT.w - 1 →
      Gives (.stackScrub k [a] []) s fun t =>
        getF t (32 + k) F.PROT_CE_COUNT_COUNT = getF s (32 + k) F.PROT_CE_COUNT_COUNT + 1 ∧ t.mem = s.mem)

/-! ## Contexts (R212-R215, R266-R295) -/

namespace Sys2Proof.Machine

/-- The context in a slot is `x`, apart from its block reason, which is kept up to date as R271 says. -/
def CtxIs (t : State) (slot : Nat) (x : Ctx) : Prop :=
  ∃ y, findCtx t slot = some y ∧ { y with block := x.block, blockedSince := x.blockedSince } = x

/-- The state differs in its scheduler alone. -/
def OnlySched (s t : State) : Prop := t = { s with sched := t.sched }

end Sys2Proof.Machine

/-- CTX_CREATE answers its slot and its arena's address: a run or serving context is IDLE, a state context in STATE with no tokens, all
with no launch; an arena the headgate refuses ends it with 0x2001 (R267-R269). CTX_DESTROY ends the context once no unit
operation is left, its launches with 0x2006, and frees its rills and slot; while one is left it waits (R273).
CTX_LAUNCH adds one launch with its fields and all its rills to start, an IDLE context is READY, and the argument buffer is copied at
once; the launch of a serving context waits for its members (R212, R288). CTX_SET_PRIORITY sets priority and hold alone,
CTX_QUERY writes the record of R274 and changes nothing. -/
def Obligations.ContextsAndLaunches : Prop :=
  (∀ (s : State) (id : CmdId) (c : Cmd),
    (Runs s id c 0x60 [(32, 56)] → (∀ x ∈ createConds s c, x = 0) →
      let slot := if c.b 8 4 = 0xFFFFFFFF then ((List.range 1024).find? (fun i => (findCtx s i).isNone)).getD 0 else c.b 8 4
      let area := allocArea (markStarted s c.no) (.arena (domOf c.nsid) slot) false (pickDie s (c.b 44 1)) (arenaOf c / MiB2)
      (∀ u a, area = (u, .ok a) → Gives (.ctxCreate id) s fun t => EndsIn t c 0 a slot fun x =>
        (∃ y, findCtx x slot = some y ∧ y.st = (if c.b 32 1 = 1 then .state else .idle) ∧ y.kind = c.b 32 1 ∧ y.nsid = c.nsid ∧ y.prio = c.b 34 1
          ∧ y.rills = c.b 35 1 ∧ y.reaches = c.b 36 4 ∧ y.accMask = c.b 42 1 ∧ y.scratch = c.b 43 1 ∧ y.arena = a ∧ y.arenaBytes = arenaOf c
          ∧ y.launches = [] ∧ y.save = [] ∧ y.tokens = 0 ∧ y.curImage = 0 ∧ y.faults = 0)
          ∧ (∀ m, m ≠ slot → findCtx x m = findCtx u m) ∧ OnlySched u x)
      ∧ (∀ u e, area = (u, .error e) → exec (.ctxCreate id) s = .next (complete u c.no 0x2001 0 0 e)))
    ∧ (∀ x, cmdCtx s c = some x → Runs s id c 0x61 [] → x.destroy = 0 → c.no ≠ 0 →
      (x.kind = 2 → ∀ y ∈ s.sched.ctxs, ¬ (y.kind = 1 ∧ y.leader = x.slot)) → (x.kind = 1 → listed s x.slot = false) →
      (unitsBusy s x.slot = true →
        exec (.ctxDestroy id) s = .next (updCtx (markStarted s c.no) x.slot (fun y => { y with destroy := c.no })))
      ∧ (unitsBusy s x.slot = false → (∀ l ∈ x.launches, l.why = 0 ∧ l.ops = 0) →
        Gives (.ctxDestroy id) s fun t => findCtx t x.slot = none ∧ (∀ p ∈ t.runnels.rills, p.2.ctx ≠ x.slot)
          ∧ (∀ p ∈ t.runnels.saved, p.2.ctx ≠ x.slot) ∧ findCmd t c.no = none ∧ (∀ l ∈ x.launches, findCmd t l.no = none))))
    ∧ (∀ (s : State) (id : CmdId) (c : Cmd) (x : Ctx), cmdCtx s c = some x →
    (Runs s id c 0x62 [(32, 14), (48, 26)] → (∀ e ∈ launchConds s c, e = 0) →
      (x.kind ≠ 2 → Gives (.ctxLaunch ⟨id, [], []⟩) s fun t =>
        (∃ l : Launch, CtxIs t x.slot { x with
              launches := x.launches ++ [l], st := if x.st = .idle then .ready else x.st
              readySince := if x.st = .idle then cyc s 57 else x.readySince }
            ∧ l.id = s.sched.nextLaunch ∧ l.no = c.no ∧ l.why = 0 ∧ l.entry = c.b 32 8 ∧ l.arg = c.b 48 8 ∧ l.reaches = c.b 40 4 ∧ l.runnels = c.b 44 1
            ∧ l.rills = c.b 45 1 ∧ l.ring = c.b 64 8 ∧ l.ringSize = c.b 72 2 ∧ l.toStart = launchRills (c.b 40 4) (c.b 44 1) (c.b 45 1)
            ∧ l.running = 0 ∧ l.ready = true)
          ∧ t.mem = (if c.data.take c.bufBytes = [] then s.mem else (wrBytes s (c.b 56 8) (c.data.take c.bufBytes)).mem)
          ∧ t.dqp = (markStarted s c.no).dqp ∧ ((∀ k, getF s (32 + k) F.CNT_CTRL_EN = 0) → t.regs = s.regs))
      ∧ (x.kind = 2 → Gives (.ctxLaunch ⟨id, [], []⟩) s fun t => ∃ y l, findCtx t x.slot = some y ∧ l ∈ y.launches ∧ l.no = c.no
          ∧ l.entry = c.b 32 8 ∧ l.ready = false ∧ l.buffer = c.data.take c.bufBytes))
    ∧ (Runs s id c 0x63 [(32, 2)] → c.b 32 1 ≤ 15 → c.b 33 1 ≤ 1 → Gives (.ctxSetPriority id) s fun t => EndsIn t c 0 0 0 fun u =>
        CtxIs u x.slot { x with prio := c.b 32 1, hold := c.b 33 1 == 1 } ∧ (∀ m, m ≠ x.slot → findCtx u m = findCtx s m)
          ∧ OnlySched (markStarted s c.no) u)
    ∧ (Runs s id c 0x66 [] → c.isList = false → c.bufBytes = 64 → Gives (.ctxQuery id) s fun t => EndsIn t c 0 0 0 fun u =>
        u = toHost (markStarted s c.no) c (ctxRecord s x)))

/-- Image commands with no earlier one outstanding on their context (R294). CTX_IMAGE_SAVE of a context without tokens completes at once, releasing its arena where told to; else the save is under way, or ends with
what refused it (R290, R294). When every unit of the version is on media it is the context's current image and the command
answers its bytes and segments; one that was to release its arena is imaged. CTX_IMAGE_LOAD puts the context in IMAGING or is refused; a load whose needed segments all
arrived puts the tokens in its arena and answers their count (R291, R292). The coldest context saves itself while
fewer than four do, without tokens it is imaged at once, and a save that is refused counts as failed (R293). -/
def Obligations.ImagesAreSavedAndLoaded : Prop :=
  ∀ (s : State) (id : CmdId) (c : Cmd) (x : Ctx),
    (cmdCtx s c = some x → x.st ≠ .imaging → listed s x.slot = false → (∀ y ∈ s.dqp.cmds, y.no < c.no → sameImageCtx y c = false) →
      (Runs s id c 0x64 [(32, 10), (48, 8)] → x.st = .state → idOk (c.b 32 8) = true → c.b 40 1 ≤ 1 → c.b 41 1 ≤ 1 → (c.b 40 1 = 1 → hasKv4 s = true) →
        roStatus s = 0 → (∀ o, findObj s c.nsid (c.b 32 8) = some o → o.mtype = 7) →
        (findObj s c.nsid (c.b 32 8) = none → tombed s c.nsid (c.b 32 8) = false ∧ s.search.objs.length < 2 ^ 32
          ∧ s.mem.windows.any (fun w => w.nsid == c.nsid && w.obj == c.b 32 8) = false) →
        let src := if c.b 48 8 = 0 then x.sourceId else c.b 48 8
        (x.tokens = 0 → c.b 41 1 = 0 → Gives (.ctxImageSave ⟨id, [], []⟩) s fun t => EndsIn t c 0 0 0 (JustStarted s c))
        ∧ (x.tokens = 0 → c.b 41 1 = 1 → Gives (.ctxImageSave ⟨id, [], []⟩) s fun t => EndsIn t c 0 0 0 fun u =>
            findCtx u x.slot = some { x with arena := 0, st := .imaged, curImage := 0 })
        ∧ (0 < x.tokens → ∀ u st d, startSave (markStarted s c.no) x.slot 1 c.no (c.b 32 8) (c.b 40 1) src (c.b 41 1 == 1) [] [] = (u, st, d) →
            Gives (.ctxImageSave ⟨id, [], []⟩) s fun t =>
              (st = 0 → t = u ∧ ∃ y, findCtx t x.slot = some y ∧ y.st = .imaging ∧ y.imgOp = 1 ∧ y.imgNo = c.no ∧ y.imgId = c.b 32 8 ∧ y.imgTokens = x.tokens)
                ∧ (st ≠ 0 → t = complete u c.no st 0 0 d)))
      ∧ (∀ o, let img := if c.b 32 8 = 0 then x.curImage else c.b 32 8
        Runs s id c 0x65 [(32, 12)] → (x.st = .state ∨ x.st = .imaged) → img ≠ 0 → findObj s c.nsid img = some o → o.mtype = 7 →
        (imageHeader s o = none ∨ ∃ fmt toks seg n, imageHeader s o = some (fmt, x.tokenBytes, toks, seg, n) ∧ c.b 40 4 ≤ toks
          ∧ (if c.b 40 4 = 0 then toks else c.b 40 4) ≤ x.capacity ∧ (fmt = 1 → hasKv4 s = true)) →
        (∀ u, startLoad (markStarted s c.no) x.slot 2 c.no img (c.b 40 4) (c.b 12 4) = (u, .ok ()) →
            Gives (.ctxImageLoad id) s fun t => t = u ∧ ∃ y, findCtx t x.slot = some y ∧ y.st = .imaging ∧ y.imgOp = 2 ∧ y.imgNo = c.no ∧ y.imgId = img
              ∧ y.tokens = (if x.st = .imaged then 0 else x.tokens))
          ∧ (∀ u e, startLoad (markStarted s c.no) x.slot 2 c.no img (c.b 40 4) (c.b 12 4) = (u, .error e) →
            exec (.ctxImageLoad id) s = .next (complete u c.no 0x2001 0 0 e))))
    ∧ (findCtx s x.slot = some x → (x.imgOp = 1 ∨ x.imgOp = 3) → onMedia s x.newImage = true →
      Gives (.imageSaveComplete x.slot) s fun t => ∃ u,
        t = (if x.imgOp = 1 then complete u x.imgNo 0 x.imgBytes x.imgSegs else addF u 57 F.SCHED_AUTO_IMAGE_DONE 1)
        ∧ findCtx u x.slot = some (if x.imgRelease then { x with curImage := x.imgId, arena := 0, st := .imaged, imgOp := 0, imgNo := 0 }
            else { x with curImage := x.imgId, st := .state, imgOp := 0, imgNo := 0 })
        ∧ ∃ o, findObj u x.nsid x.imgId = some o ∧ o.size = x.imgBytes ∧ o.storage = .device x.imgUnit x.imgUnits)
    ∧ (∀ n k d upto, findCtx s x.slot = some x → x.imgOp = 2 → loadResult s x upto = (0, n, k, d) → State.wf s = true → x.imgId ≠ 0 →
      (d = [] ∨ extPoisoned s x.kvAddr d.length = false) →
      (∀ f ∈ s.mem.fetches, f.nsid = x.nsid → f.obj = x.imgId → f.issuer = .image x.slot) →
      Gives (.imageLoadComplete x.slot upto) s fun t => ∃ u, t = complete u x.imgNo 0 n 0 0
        ∧ CtxIs u x.slot { x with st := .state, tokens := n, curImage := x.imgId, imgOp := 0, imgNo := 0 }
        ∧ (∀ i, i < d.length → rdByte u (x.kvAddr + i) = d.getD i 0))
    ∧ (findCtx s x.slot = some x → x.kind = 1 → x.auto = true → x.st = .state → x.destroy = 0 → getF s 57 F.SCHED_COLD_COLD ≠ 0 →
      x.lastStep + getF s 57 F.SCHED_COLD_COLD * 1048576 ≤ cyc s 57 → (s.sched.ctxs.filter (fun y => y.imgOp == 3)).length < 4 →
      (∀ y ∈ s.sched.ctxs, y.kind = 1 → y.auto = true → y.st = .state → y.destroy = 0 → listed s y.slot = false →
        y.lastStep + getF s 57 F.SCHED_COLD_COLD * 1048576 ≤ cyc s 57 → x.lastStep ≤ y.lastStep) →
      listed s x.slot = false →
      (0 < x.tokens → roStatus s = 0 → (∀ o, findObj s x.nsid x.imageId = some o → o.mtype = 7) →
        (findObj s x.nsid x.imageId = none → tombed s x.nsid x.imageId = false) →
        (∀ u d, startSave s x.slot 3 0 x.imageId (b2n x.kv4) x.sourceId true [] [] = (u, 0, d) →
          Gives (.contextCold ⟨x.slot, [], []⟩) s fun t => t = u ∧ ∃ y, findCtx t x.slot = some y ∧ y.st = .imaging ∧ y.imgOp = 3)
        ∧ (∀ u st d, startSave s x.slot 3 0 x.imageId (b2n x.kv4) x.sourceId true [] [] = (u, st, d) → st ≠ 0 →
          Gives (.contextCold ⟨x.slot, [], []⟩) s fun t =>
            t = addF (updCtx u x.slot (fun y => { y with lastStep := cyc u 57 })) 57 F.SCHED_AUTO_IMAGE_FAILED 1))
        ∧ (x.tokens = 0 → Gives (.contextCold ⟨x.slot, [], []⟩) s fun t => ∃ u,
          t = addF u 57 F.SCHED_AUTO_IMAGE_DONE 1 ∧ findCtx u x.slot = some { x with arena := 0, st := .imaged, curImage := 0 }))

/-- A turn lasts its DURATION from the turn before, and the next turn of the table follows, or turn 0 of a table that is pending; its reaches and those of the turn before are
signalled (R283, R286, R287). The lead point of the next coming turn whose lead point has not passed owes a decision (R276, R285). A reach that applies its signal holds the current turn's
reservation, and the greatest delay is kept. -/
def Obligations.TurnsFollowTheTable : Prop :=
  ∀ s : State, State.wf s = true → getF s 57 F.CNT_CTRL_EN = 0 →
    (∀ n, working s = true → getA s 57 F.SCHED_TURN_CNT_COUNT = n → 0 < n → n ≤ 256 → turnPending s = false →
      let k := (getF s 57 F.SCHED_STATUS_TURN + 1) % n
      let at' := turnBase s + getA s 57 F.SCHED_TURN_DUR_DURATION (getF s 57 F.SCHED_STATUS_TURN)
      Gives .turnBoundary s fun t =>
        getF t 57 F.SCHED_STATUS_TURN = k ∧ turnBase t = at' % 2 ^ 64 ∧ t.sched.leads = s.sched.leads - 1
          ∧ (∀ r, (getA s 57 F.SCHED_TURN_MASK_REACH_MASK k).testBit r = true ∨ (getA s 57 F.SCHED_TURN_MASK_REACH_MASK (getF s 57 F.SCHED_STATUS_TURN)).testBit r = true →
              t.sched.turnSignals.testBit r = true)
          ∧ t.act = s.act ∧ t.mem = s.mem)
    ∧ (∀ n, working s = true → getA s 57 F.SCHED_TURN_CNT_COUNT = n → 0 < n → turnPending s = true →
      let at' := turnBase s + getA s 57 F.SCHED_TURN_DUR_DURATION (getF s 57 F.SCHED_STATUS_TURN)
      Gives .turnBoundary s fun t =>
        getF t 57 F.SCHED_STATUS_TURN = 0 ∧ turnBase t = at' % 2 ^ 64
          ∧ getA t 57 F.SCHED_TURN_CNT_COUNT = getP s 57 F.SCHED_TURN_CNT_COUNT % 2 ^ F.SCHED_TURN_CNT_COUNT.w ∧ turnPending t = false ∧ t.mem = s.mem)
    ∧ (working s = true → s.sched.leads < (comingTurns s).length →
      Gives .turnLeadPoint s fun t => t.sched.leads = s.sched.leads + 1 ∧ s.sched.owed.length < t.sched.owed.length ∧ t.mem = s.mem ∧ t.act = s.act
        ∧ ((∀ p ∈ s.flume.sluices, p.1 / 16 ≠ 57) → t.regs = s.regs))
    ∧ (∀ reach m g, reach < 32 → s.sched.turnSignals.testBit reach = true → currentTurn s = some (m, g) → 0 < m → g < 65536 → mSorted none s.sched.turnHeld = true →
      Gives (.turnSignalApply reach) s fun t =>
        mfind t.sched.turnHeld reach = some (m * 65536 + g) ∧ t.sched.turnSignals.testBit reach = false
          ∧ (∀ r, r ≠ reach → mfind t.sched.turnHeld r = mfind s.sched.turnHeld r ∧ t.sched.turnSignals.testBit r = s.sched.turnSignals.testBit r)
          ∧ getF t 57 F.SCHED_JITTER_MAX_CYCLES = max (min (cyc s 57 - turnBase s) 65535) (getF s 57 F.SCHED_JITTER_MAX_CYCLES) % 65536
          ∧ t.mem = s.mem)

/-- A scheduling decision with one candidate and nobody in its way lets it enter, its scratchpad charged; where one blocked resident is in
its way that one begins to leave, or is counted as starving it when the headgate refuses its save area; in every case the candidates are
taken in their order, after the residents of draining reaches (R275, R281). A quantum's end owes a decision and begins the next. A context
that leaves has its rills stopped when its unit operations are done, one that is being destroyed then ends, and is READY or IDLE
when the save ends, its region and slices cleared; one that enters has its rills back in their slots and is RESIDENT with
no save area, and where the device is on its way into DP2 it leaves again at once, or ends that entry (R89, R273, R277-R279).
RILL_START starts the next rill of the oldest launch on its runnel with all 32 threads at the launch's entry, registers zero but the
argument address in registers 0 and 1 of each thread (R213). A launch with no rill left and no unit operation outstanding is
over, and CTX_LAUNCH answers the rills ended and stopped (R215). A step whose members are all present, in STATE or gone may start (R289). -/
def Obligations.ContextsEnterLeaveAndRun : Prop :=
  (∀ (s : State) (x : Ctx), State.wf s = true → findCtx s x.slot = some x → getF s 57 F.CNT_CTRL_EN = 0 →
    (∀ q l, s.sched.owed = q :: l → (∀ y ∈ s.sched.ctxs, y.st ≠ .resident) → candidates s = [x] → needOf s x = [] → entriesAllowed s = true →
      domOf x.nsid < 64 → x.scratchCharge + getF s 57 F.HG_SCRATCH_USED_MIB (domOf x.nsid) ≤ getA s 57 F.HG_SCRATCH_LIM_MIB (domOf x.nsid) →
      Gives .schedDecision s fun t =>
        CtxIs t x.slot { x with st := .entering, quotaRefused := false, filled := false }
          ∧ getF t 57 F.HG_SCRATCH_USED_MIB (domOf x.nsid) = (getF s 57 F.HG_SCRATCH_USED_MIB (domOf x.nsid) + x.scratchCharge) % 1024)
    ∧ (∀ q l v, s.sched.owed = q :: l → (∀ r, reachState s r ≠ 1) → candidates s = [x] → needOf s x = [v] → v.st = .resident → countsBlocked s x v = true →
      (∀ u a, beginLeave { s with sched := { s.sched with owed := l } } v false = (u, .ok a) → exec .schedDecision s = .next u)
      ∧ (∀ u e, beginLeave { s with sched := { s.sched with owed := l } } v false = (u, .error e) →
          exec .schedDecision s = .next (addF u 57 F.SCHED_STARVE_COUNT 1)))
    ∧ (∀ q l, s.sched.owed = q :: l →
      let u := evictDraining { s with sched := { s.sched with owed := l } }
      exec .schedDecision s = .next (decideAll q (candidates u) 0 u))
    ∧ (working s = true → Gives .quantumEnd s fun t =>
        t.sched = { s.sched with owed := s.sched.owed ++ [true], quantumBase := cyc t 57 }
          ∧ cyc t 57 = max (cyc s 57) (s.sched.quantumBase + quantum s) % 2 ^ 64 ∧ t.mem = s.mem
          ∧ ((∀ p ∈ s.flume.sluices, p.1 / 16 ≠ 57) → t.regs = s.regs))
    ∧ (x.st = .leaving → x.destroy = 0 → x.saving = false → unitsBusy s x.slot = false → mSorted none s.runnels.saved = true →
      Gives (.contextDrainEnd x.slot) s fun t =>
        findCtx t x.slot = some { x with saving := true } ∧ (∀ p ∈ t.runnels.rills, p.2.ctx ≠ x.slot)
          ∧ (∀ p ∈ s.runnels.rills, p.2.ctx = x.slot → ∃ r, mfind t.runnels.saved (x.slot * 4096 + p.1) = some r ∧ r.uid = p.2.uid ∧ r.pc = p.2.pc ∧ r.regs = p.2.regs)
          ∧ t.mem = s.mem ∧ t.regs = s.regs)
    ∧ (x.destroy ≠ 0 → unitsBusy s x.slot = false → (∀ l ∈ x.launches, l.why = 0 ∧ l.ops = 0) →
      Gives (.contextDrainEnd x.slot) s fun t => findCtx t x.slot = none ∧ (∀ p ∈ t.runnels.rills, p.2.ctx ≠ x.slot)
        ∧ (∀ p ∈ t.runnels.saved, p.2.ctx ≠ x.slot) ∧ findCmd t x.destroy = none ∧ (∀ l ∈ x.launches, findCmd t l.no = none))
    ∧ (x.st = .leaving → x.saving = true → Gives (.contextSaveComplete ⟨x.slot, [], []⟩) s fun t =>
        CtxIs t x.slot { x with st := (if x.launches = [] then .idle else .ready), readySince := cyc s 57, saving := false, forced := false, filled := false }
          ∧ (∀ r, r < 32 → x.reaches.testBit r = true → ∀ a, x.saveOffset r a ≠ none → rdByte t a = 0) ∧ t.runnels = s.runnels)
    ∧ (x.st = .entering → mSorted none s.runnels.saved = true → (∀ p n b e, s.dqp.pwr ≠ .entering 2 p n b e) →
      Gives (.contextRestoreComplete ⟨x.slot, [], []⟩) s fun t =>
        CtxIs t x.slot { x with st := .resident, residentSince := cyc s 57, entered := true, save := [], filled := !x.save.isEmpty }
          ∧ (∀ k r, mfind s.runnels.saved (x.slot * 4096 + k) = some r → k < 4096 → mfind t.runnels.rills k = some r)
          ∧ (∀ p ∈ t.runnels.saved, p.1 / 4096 ≠ x.slot))
    ∧ (∀ prior no p e, x.st = .entering → s.dqp.pwr = .entering 2 prior no p e →
      let u := restored s x [] []
      let r := saveResidents (findCtx u x.slot).toList u
      (r.2 = none → exec (.contextRestoreComplete ⟨x.slot, [], []⟩) s = .next r.1)
        ∧ (∀ d, r.2 = some d → Gives (.contextRestoreComplete ⟨x.slot, [], []⟩) s fun t => t.dqp.pwr = .none ∧ findCmd t no = none)))
    ∧ (∀ (s : State) (x : Ctx) (l : Launch), State.wf s = true → findCtx s x.slot = some x →
    (∀ reach runnel slot i, x.st = .resident → reachLive s reach = true → runnel < 4 → slot < 32 → x.ownsSlot slot = true → x.reaches.testBit reach = true →
      getRill s (rillKey reach runnel slot) = none → turnHolds s reach x = false → x.destroy = 0 →
      x.launches.find? (fun l => l.toStart.any (fun i => i / 32 == reach * 4 + runnel)) = some l → l.ready = true →
      l.toStart.find? (fun i => i / 32 == reach * 4 + runnel) = some i → l.arg < 2 ^ 64 →
      Gives (.rillStart reach runnel slot x.slot) s fun t =>
        (∃ r, getRill t (rillKey reach runnel slot) = some r ∧ r.ctx = x.slot ∧ r.launch = l.id ∧ r.rank = i % 32 ∧ r.pc = l.entry ∧ r.active = 2 ^ 32 - 1
          ∧ r.uid = s.runnels.nextUid ∧ r.wait = .none
          ∧ (∀ th, th < 32 → mget 0 r.regs (th * 64) = l.arg % 2 ^ 32 ∧ mget 0 r.regs (th * 64 + 1) = l.arg / 2 ^ 32
              ∧ ∀ k, 2 ≤ k → k < 64 → mget 0 r.regs (th * 64 + k) = 0))
          ∧ (∀ k, k ≠ rillKey reach runnel slot → getRill t k = getRill s k)
          ∧ CtxIs t x.slot { x with launches := x.launches.map (fun m => if m.id = l.id then { m with toStart := m.toStart.erase i, running := m.running + 1 } else m) }
          ∧ t.mem = s.mem ∧ t.regs = s.regs)
    ∧ (findLaunch s x.slot l.id = some l → l.why = 0 → l.ready = true → l.toStart = [] → l.running = 0 → l.ops = 0 →
      (∀ q ∈ s.search.queries, q.ctx = x.slot → q.phase ≠ .rerankWait) →
      ∀ bad fixed, Gives (.launchComplete x.slot ⟨l.id, bad, fixed⟩) s fun t =>
        findLaunch t x.slot l.id = none ∧ findCmd t l.no = none ∧ t.mem = s.mem
          ∧ ∃ u, t = noteBlock (owe (complete u l.no (if l.faults = 0 then 0 else l.status) (l.ended + l.faults * 2 ^ 32) l.written l.detail) false) x.slot
            ∧ u.dqp = s.dqp)
    ∧ (findLaunch s x.slot l.id = some l → l.ready = true → l.toStart = [] → l.running = 0 → l.ops = 0 → l.id < s.sched.nextLaunch →
      ∀ bad fixed, Gives (.launchComplete x.slot ⟨l.id, bad, fixed⟩) s fun t => findLaunch t x.slot l.id = none)
    ∧ (findLaunch s x.slot l.id = some l → l.ready = false →
      (∀ m ∈ l.members, m.2.2.2.2.2 = true ∨ findCtx s m.1 = none
        ∨ ∃ y, findCtx s m.1 = some y ∧ y.st = .state ∧ takenEarlier s x.slot l.id m.1 = false) →
      Gives (.stepMembersPresent x.slot ⟨l.id, [], []⟩) s fun t => ∃ l', findLaunch t x.slot l.id = some l' ∧ l'.ready = true
        ∧ (∀ m ∈ l'.members, m.2.2.2.2.2 = true) ∧ t.dqp = s.dqp)
    ∧ (findLaunch s x.slot l.id = some l → l.ready = false → (∀ m ∈ l.members, m.2.2.2.2.2 = true) → extPoisoned s l.argDest l.buffer.length = false →
      Gives (.stepMembersPresent x.slot ⟨l.id, [], []⟩) s fun t =>
        CtxIs t x.slot { x with launches := x.launches.map (fun m => if m.id = l.id then { m with ready := true } else m) }
          ∧ t.mem = (wrBytes s l.argDest (fillStep s l)).mem ∧ ((∀ k, getF s (32 + k) F.CNT_CTRL_EN = 0) → t.regs = s.regs)))

/-! ## Runnels (R209-R241) -/

namespace Sys2Proof.Machine

/-- No counter of a reach is enabled and no sample of it waits for its source (R476, R480). -/
def Uncounted (s : State) (reach : Nat) : Prop := getF s reach F.CNT_CTRL_EN = 0 ∧ ∀ c ∈ s.counters.captures, c.island ≠ reach

/-- The rill a command names is ready and may issue; `m` is that rill with the paths that have met merged (R224), `w` the word at its pc,
of opcode `op`, `s1` the state after its fetch. No upset, no injected error, nothing counted in the reach. -/
def Issues (s s1 : State) (a : RillAt) (op : Nat) (m : Rill) (w : Nat) : Prop :=
  State.wf s = true ∧ a.runnel < 4 ∧ a.slot < 32 ∧ a.upset = .none
    ∧ (∃ r, getRill s (rillKey a.reach a.runnel a.slot) = some r ∧ r.wait = .none ∧ mayIssue s a.reach r = true ∧ m = mergePaths r.stack.length r)
    ∧ fetchWord s m.ctx a.reach m.pc = (s1, .ok w) ∧ fOp w = op ∧ getF s a.reach F.RUN_INJECT_ARM = 0 ∧ Uncounted s a.reach
    ∧ mSorted none m.regs = true ∧ mSorted none m.poison = true ∧ mSorted none m.preds = true ∧ mSorted none m.tickets = true
    ∧ (∀ th n, m.get th n < 2 ^ 32)

/-- The threads that execute a word: active, with the guard predicate as PG and PN say (R216). -/
def threads (m : Rill) (w : Nat) : List Nat := (bitList m.active 32).filter (fun th => m.pred th (fPG w) != fPN w)

/-- The key of a command's rill. -/
def keyOf (a : RillAt) : Nat := rillKey a.reach a.runnel a.slot

/-- The instruction completes: the rill is `q` at the next instruction, and nothing but the rill and its context's block reason differs
from the state after the fetch. -/
def Completes (c : Instr) (s s1 : State) (a : RillAt) (m : Rill) (P : Rill → Prop) : Prop :=
  ∃ q, exec c s = .next (noteBlock (putRill s1 (keyOf a) { q with pc := m.pc + 8 }) m.ctx) ∧ P q

/-- Register `d` of each executing thread takes the value and the poison bit that `f` gives; every other register, of every thread, and
all else of the rill is as it was. -/
def Writes (m q : Rill) (w d : Nat) (f : Nat → Nat × Bool) : Prop :=
  q = { m with regs := q.regs, poison := q.poison } ∧
    ∀ th n, n < 64 → if th ∈ threads m w ∧ n = d then q.get th n = (f th).1 % 2 ^ 32 ∧ q.bad th n = (f th).2
      else q.get th n = m.get th n ∧ q.bad th n = m.bad th n

/-- Predicate `d` of each executing thread takes the value `f` gives, p7 never; nothing else of the rill differs. -/
def WritesPred (m q : Rill) (w d : Nat) (f : Nat → Bool) : Prop :=
  q = { m with preds := q.preds } ∧ ∀ th p, p < 8 → q.pred th p = if th ∈ threads m w ∧ p = d ∧ p ≠ 7 then f th else m.pred th p

/-- A register of a thread as a 32-bit value, and a pair as a 64-bit one. -/
def Rill.bv (m : Rill) (th n : Nat) : BitVec 32 := BitVec.ofNat 32 (m.get th n)
def Rill.bv64 (m : Rill) (th n : Nat) : BitVec 64 := BitVec.ofNat 64 (m.get64 th n)

/-- The reserved bits of the RRR format and MOD are 0 (R216, R218). -/
def PlainRRR (w : Nat) : Prop := fMod w = 0 ∧ bits w 44 20 = 0

/-- The integer instructions of two sources, as R217 and R219 have them: wrapping, shift counts of five bits, divisions by zero
with all ones and the dividend. -/
def intTwo : List ((RillAt → Instr) × Nat × (BitVec 32 → BitVec 32 → BitVec 32)) :=
  [(Instr.rillIadd, 0x00, fun x y => x + y), (Instr.rillIsub, 0x01, fun x y => x - y), (Instr.rillImul, 0x02, fun x y => x * y),
   (Instr.rillImulhi, 0x03, fun x y => (x.signExtend 64 * y.signExtend 64).extractLsb' 32 32),
   (Instr.rillUmulhi, 0x04, fun x y => (x.zeroExtend 64 * y.zeroExtend 64).extractLsb' 32 32),
   (Instr.rillIdiv, 0x05, fun x y => if y = 0 then BitVec.allOnes 32 else x.sdiv y), (Instr.rillUdiv, 0x06, fun x y => if y = 0 then BitVec.allOnes 32 else x / y),
   (Instr.rillIrem, 0x07, fun x y => if y = 0 then x else x.srem y), (Instr.rillUrem, 0x08, fun x y => if y = 0 then x else x % y),
   (Instr.rillAnd, 0x0C, fun x y => x &&& y), (Instr.rillOr, 0x0D, fun x y => x ||| y), (Instr.rillXor, 0x0E, fun x y => x ^^^ y),
   (Instr.rillShl, 0x10, fun x y => x <<< (y.toNat % 32)), (Instr.rillShr, 0x11, fun x y => x >>> (y.toNat % 32)),
   (Instr.rillSar, 0x12, fun x y => x.sshiftRight (y.toNat % 32)), (Instr.rillRotl, 0x13, fun x y => x.rotateLeft (y.toNat % 32)),
   (Instr.rillImin, 0x16, fun x y => if x.sle y then x else y), (Instr.rillImax, 0x17, fun x y => if x.sle y then y else x),
   (Instr.rillUmin, 0x18, fun x y => if x.ule y then x else y), (Instr.rillUmax, 0x19, fun x y => if x.ule y then y else x)]

/-- The integer instructions of one source. -/
def intOne : List ((RillAt → Instr) × Nat × (BitVec 32 → BitVec 32)) :=
  [(Instr.rillNot, 0x0F, fun x => ~~~x), (Instr.rillPopc, 0x14, fun x => BitVec.ofNat 32 ((List.range 32).countP x.getLsbD)),
   (Instr.rillClz, 0x15, fun x => BitVec.ofNat 32 ((List.range 33).find? (fun n => decide (n = 32) || x.getLsbD (31 - n))).get!),
   (Instr.rillMov, 0x1B, fun x => x)]

/-- The 64-bit forms on even-odd pairs. -/
def intPair : List ((RillAt → Instr) × Nat × (BitVec 64 → BitVec 64 → BitVec 64)) :=
  [(Instr.rillIadd64, 0x09, fun x y => x + y), (Instr.rillIsub64, 0x0A, fun x y => x - y), (Instr.rillImul64, 0x0B, fun x y => x * y)]

/-- The FP32 instructions of two sources and of one, with the operations of R220 and R221. -/
def fpTwo : List ((RillAt → Instr) × Nat × (Nat → Nat → Nat)) :=
  [(Instr.rillFadd, 0x40, fun x y => enc32 (fpSum (dec32 x) (dec32 y))), (Instr.rillFsub, 0x41, fun x y => enc32 (fpSum (dec32 x) (fpNeg (dec32 y)))),
   (Instr.rillFmul, 0x42, fun x y => enc32 (fpMul (dec32 x) (dec32 y))), (Instr.rillFmin, 0x44, fminmax false), (Instr.rillFmax, 0x45, fminmax true),
   (Instr.rillFdiv, 0x49, fdiv)]
def fpOne : List ((RillAt → Instr) × Nat × (Nat → Nat)) :=
  [(Instr.rillFabs, 0x46, fun x => if dec32 x = .nan then nan32 else x % 2 ^ 31), (Instr.rillFneg, 0x47, fun x => if dec32 x = .nan then nan32 else x ^^^ 2 ^ 31),
   (Instr.rillFsqrt, 0x4A, fsqrt), (Instr.rillRcp, 0x4B, frcp), (Instr.rillRsq, 0x4C, frsq), (Instr.rillExp2, 0x4D, fexp2), (Instr.rillLog2, 0x4E, flog2), (Instr.rillSinp, 0x4F, fsinp),
   (Instr.rillCosp, 0x50, fcosp), (Instr.rillI2f, 0x72, fun x => rne32 (BitVec.ofNat 32 x).toInt 0), (Instr.rillF2i, 0x73, f2i)]

end Sys2Proof.Machine

/-- The integer instructions: each executing thread's D takes the two's-complement result, poisoned when a source is; no other register, thread or
part of the module differs, and no value of the operands stops the rill (R217, R219, R237). -/
def Obligations.IntegerInstructionsCompute : Prop :=
  ∀ (s s1 : State) (a : RillAt) (m : Rill) (w : Nat),
    (∀ e ∈ intTwo, Issues s s1 a e.2.1 m w → PlainRRR w → Completes (e.1 a) s s1 a m fun q =>
      Writes m q w (fD w) fun th => ((e.2.2 (m.bv th (fA w)) (m.bv th (fB w))).toNat, m.bad th (fA w) || m.bad th (fB w)))
    ∧ (∀ e ∈ intOne, Issues s s1 a e.2.1 m w → PlainRRR w → Completes (e.1 a) s s1 a m fun q =>
      Writes m q w (fD w) fun th => ((e.2.2 (m.bv th (fA w))).toNat, m.bad th (fA w)))
    ∧ (∀ e ∈ intPair, Issues s s1 a e.2.1 m w → PlainRRR w → fD w % 2 = 0 → fA w % 2 = 0 → fB w % 2 = 0 → Completes (e.1 a) s s1 a m fun q =>
      q = { m with regs := q.regs, poison := q.poison } ∧ ∀ th, (th ∈ threads m w →
          q.bv64 th (fD w) = e.2.2 (m.bv64 th (fA w)) (m.bv64 th (fB w)) ∧ q.bad th (fD w) = (m.bad64 th (fA w) || m.bad64 th (fB w))
            ∧ q.bad th (fD w + 1) = (m.bad64 th (fA w) || m.bad64 th (fB w)))
        ∧ ∀ n, n < 64 → (th ∉ threads m w ∨ (n ≠ fD w ∧ n ≠ fD w + 1)) → q.get th n = m.get th n ∧ q.bad th n = m.bad th n)
    ∧ (Issues s s1 a 0x1A m w → PlainRRR w → Completes (.rillSel a) s s1 a m fun q =>
      Writes m q w (fD w) fun th => (if m.pred th (fC w % 8) then m.get th (fA w) else m.get th (fB w), m.bad th (fA w) || m.bad th (fB w)))
    ∧ (Issues s s1 a 0x1C m w → fModI w = 0 → Completes (.rillMovi a) s s1 a m fun q => Writes m q w (fD w) fun _ => (fImm w, false))
    ∧ (Issues s s1 a 0x1D m w → fModI w = 0 → Completes (.rillIaddi a) s s1 a m fun q =>
      Writes m q w (fD w) fun th => ((m.bv th (fA w) + BitVec.ofNat 32 (fImm w)).toNat, m.bad th (fA w)))

/-- The comparisons, predicate and lane instructions (R214, R217): SETP compares as its code says, FSETP any comparison with a NaN false
but NE; PLOP, the votes and BALLOT combine predicates; SHFL takes another active thread's register, 0 from one that is not
active; SREG gives the special value. Predicate 7 is never written.
The FP32 and conversion instructions: D takes the result of the operation, poisoned when a source is; no data stops the rill. FFMA rounds once; CVTN
rounds to the format in MOD[3:0], to nearest even or with the seed and index of B and C; CVTW widens; PACK and UNPACK move one
element of the format in MOD (R220, R221). The results of RCP, RSQ, EXP2, LOG2, SINP and COSP are free values held to the bounds of
R220, and the zero that FMIN and FMAX of two zeros answer is a free choice. -/
def Obligations.LaneAndFloatInstructionsCompute : Prop :=
  (∀ (s s1 : State) (a : RillAt) (m : Rill) (w : Nat), bits w 44 20 = 0 →
    let clean := ∀ th ∈ threads m w, m.bad th (fA w) = false ∧ m.bad th (fB w) = false
    (Issues s s1 a 0x1E m w → fMod w ≤ 7 → clean → Completes (.rillSetp a) s s1 a m fun q =>
      WritesPred m q w (fD w % 8) fun th =>
        let x := m.bv th (fA w)
        let y := m.bv th (fB w)
        match fMod w with
        | 0 => x == y | 1 => x != y | 2 => x.slt y | 3 => x.sle y | 4 => y.slt x | 5 => y.sle x | 6 => x.ult y | _ => x.ule y)
    ∧ (Issues s s1 a 0x48 m w → fMod w ≤ 5 → clean → Completes (.rillFsetp a) s s1 a m fun q =>
      WritesPred m q w (fD w % 8) fun th =>
        match fpCmp (dec32 (m.get th (fA w))) (dec32 (m.get th (fB w))), fMod w with
        | none, n => n == 1
        | some c, 0 => c == 0 | some c, 1 => c != 0 | some c, 2 => decide (c < 0) | some c, 3 => decide (c ≤ 0) | some c, 4 => decide (0 < c)
        | some c, _ => decide (0 ≤ c))
    ∧ (Issues s s1 a 0x1F m w → fMod w ≤ 3 → Completes (.rillPlop a) s s1 a m fun q =>
      WritesPred m q w (fD w % 8) fun th =>
        let x := m.pred th (fA w % 8)
        let y := m.pred th (fB w % 8)
        match fMod w with | 0 => x && y | 1 => x || y | 2 => x != y | _ => x && !y)
    ∧ (Issues s s1 a 0x30 m w → fMod w = 0 → (∀ th ∈ threads m w, m.bad th (fB w) = false) → Completes (.rillShfl a) s s1 a m fun q =>
      Writes m q w (fD w) fun th =>
        let src := m.get th (fB w) % 32
        if m.active.testBit src then (m.get src (fA w), m.bad src (fA w)) else (0, false))
    ∧ (Issues s s1 a 0x31 m w → fMod w = 0 → Completes (.rillVoteany a) s s1 a m fun q =>
      WritesPred m q w (fD w % 8) fun _ => (List.range 32).any (fun th => m.active.testBit th && m.pred th (fA w % 8)))
    ∧ (Issues s s1 a 0x32 m w → fMod w = 0 → Completes (.rillVoteall a) s s1 a m fun q =>
      WritesPred m q w (fD w % 8) fun _ => (List.range 32).all (fun th => !m.active.testBit th || m.pred th (fA w % 8)))
    ∧ (Issues s s1 a 0x33 m w → fMod w = 0 → Completes (.rillBallot a) s s1 a m fun q => ∃ v, v < 2 ^ 32
        ∧ (∀ b, b < 32 → v.testBit b = (m.active.testBit b && m.pred b (fA w % 8))) ∧ Writes m q w (fD w) fun _ => (v, false))
    ∧ (Issues s s1 a 0x34 m w → fMod w ≤ 10 → fMod w ≠ 8 → Completes (.rillSreg a) s s1 a m fun q =>
      Writes m q w (fD w) fun th => ((match fMod w with
        | 0 => th | 1 => m.rank | 2 => a.runnel | 3 => a.reach | 4 => m.rslot | 5 => ((m.reachRank * 4 + m.runnelRank) * m.rills + m.rank) * 32 + th
        | 6 => m.nthreads | 7 => m.ctx | 9 => mget 0 m.hi th | _ => m.active), false))
    ∧ (Issues s s1 a 0x34 m w → fMod w = 8 → mSorted none m.hi = true → Completes (.rillSreg a) s s1 a m fun q =>
      ∀ th ∈ threads m w, q.get th (fD w) = cyc s1 a.reach % 2 ^ 32 ∧ mget 0 q.hi th = cyc s1 a.reach / 2 ^ 32))
    ∧ (∀ (s s1 : State) (a : RillAt) (m : Rill) (w : Nat), bits w 44 20 = 0 →
    (∀ e ∈ fpTwo, Issues s s1 a e.2.1 m w → fMod w = 0 → Completes (e.1 a) s s1 a m fun q =>
      Writes m q w (fD w) fun th => (e.2.2 (m.get th (fA w)) (m.get th (fB w)), m.bad th (fA w) || m.bad th (fB w)))
    ∧ (∀ e ∈ fpOne, Issues s s1 a e.2.1 m w → fMod w = 0 → Completes (e.1 a) s s1 a m fun q =>
      Writes m q w (fD w) fun th => (e.2.2 (m.get th (fA w)), m.bad th (fA w)))
    ∧ (Issues s s1 a 0x43 m w → fMod w = 0 → Completes (.rillFfma a) s s1 a m fun q =>
      Writes m q w (fD w) fun th => (enc32 (fpSum (fpMul (dec32 (m.get th (fA w))) (dec32 (m.get th (fB w)))) (dec32 (m.get th (fC w)))),
        m.bad th (fA w) || m.bad th (fB w) || m.bad th (fC w)))
    ∧ (Issues s s1 a 0x70 m w → fMod w < 9 → Completes (.rillCvtn a) s s1 a m fun q =>
      Writes m q w (fD w) fun th => (cvtn (fMod w) none (m.get th (fA w)), m.bad th (fA w)))
    ∧ (Issues s s1 a 0x70 m w → 16 ≤ fMod w → fMod w < 25 → Completes (.rillCvtn a) s s1 a m fun q =>
      Writes m q w (fD w) fun th => (cvtn (fMod w - 16) (some (stochR (m.get th (fB w)) (m.get th (fC w)))) (m.get th (fA w)),
        m.bad th (fA w) || m.bad th (fB w) || m.bad th (fC w)))
    ∧ (Issues s s1 a 0x71 m w → fMod w < 9 → Completes (.rillCvtw a) s s1 a m fun q =>
      Writes m q w (fD w) fun th => (enc32 (elemFp (fMod w) (m.get th (fA w) % 2 ^ elemBits (fMod w))), m.bad th (fA w)))
    ∧ (let e := elemBits (fMod w)
       let n (th : Nat) : Nat := m.get th (fC w) % 32
       (∀ th ∈ threads m w, n th < 32 / e) → fMod w < 9 →
       (Issues s s1 a 0x74 m w → Completes (.rillPack a) s s1 a m fun q =>
          q = { m with regs := q.regs, poison := q.poison } ∧ ∀ th, (th ∈ threads m w →
            (∀ b, b < 32 → (q.get th (fD w)).testBit b = (if e * n th ≤ b ∧ b < e * (n th + 1) then (m.get th (fB w)).testBit (b - e * n th)
              else (m.get th (fD w)).testBit b)) ∧ q.bad th (fD w) = (m.bad th (fD w) || m.bad th (fB w) || m.bad th (fC w)))
          ∧ ∀ k, k < 64 → (th ∉ threads m w ∨ k ≠ fD w) → q.get th k = m.get th k ∧ q.bad th k = m.bad th k)
       ∧ (Issues s s1 a 0x75 m w → Completes (.rillUnpack a) s s1 a m fun q =>
          Writes m q w (fD w) fun th => (m.get th (fA w) / 2 ^ (e * n th) % 2 ^ e, m.bad th (fA w) || m.bad th (fC w)))))

namespace Sys2Proof.Machine

/-- Every executing thread's access of `n` bytes is aligned and allowed, its address not poisoned, and the port sluices it meets admit it
(R222, R261): it names stack memory, a scratchpad or an accumulator. -/
def Accesses (s1 : State) (a : RillAt) (m : Rill) (w n : Nat) (kind : AccKind) (addr : Nat → Nat) : Prop :=
  fA w % 2 = 0 ∧ (∀ th ∈ threads m w, m.bad64 th (fA w) = false ∧ addr th = wrap 64 ((m.get64 th (fA w) : Int) + fOffset w)
      ∧ checkAccess s1 m.ctx a.reach (addr th) n kind = (s1, .ok) ∧ (∀ off, regionOf s1 (addr th) ≠ .window off))
    ∧ (∃ s2, stackPorts s1 (a.reach / 8) (2 ^ 20 + (keyOf a)) (kind == .store) ((threads m w).map (fun th => (addr th, n))) = (s2, true))

/-- The accesses of different threads do not overlap. -/
def Apart (m : Rill) (w n : Nat) (addr : Nat → Nat) : Prop :=
  ∀ th ∈ threads m w, ∀ th' ∈ threads m w, th ≠ th' → addr th + n ≤ addr th' ∨ addr th' + n ≤ addr th

/-- The rill is `q` at the next instruction, and every other rill is as it was. -/
def RillIs (s t : State) (a : RillAt) (q : Rill) : Prop := getRill t (keyOf a) = some q ∧ ∀ k, k ≠ (keyOf a) → getRill t k = getRill s k

/-- The atomics of R230: whether the 8-byte size is theirs, and the value stored from width, old value, B and D. -/
def atomics : List ((RillAt → Instr) × Nat × Bool × (Nat → Nat → Nat → Nat → Nat)) :=
  [(Instr.rillAadd, 0x82, true, fun n o b _ => (o + b) % 2 ^ n), (Instr.rillAsmin, 0x83, true, fun n o b _ => if sext n o ≤ sext n b then o else b),
   (Instr.rillAsmax, 0x84, true, fun n o b _ => if sext n o ≤ sext n b then b else o), (Instr.rillAumin, 0x85, true, fun _ o b _ => min o b),
   (Instr.rillAumax, 0x86, true, fun _ o b _ => max o b), (Instr.rillAand, 0x87, true, fun _ o b _ => o &&& b), (Instr.rillAor, 0x88, true, fun _ o b _ => o ||| b),
   (Instr.rillAxor, 0x89, true, fun _ o b _ => o ^^^ b), (Instr.rillAxchg, 0x8A, true, fun _ _ b _ => b), (Instr.rillAcas, 0x8B, true, fun _ o b d => if o = d then b else o),
   (Instr.rillAfadd, 0x8C, false, fun _ o b _ => enc32 (fpSum (dec32 o) (dec32 b)))]

end Sys2Proof.Machine

/-- LD, ST and the atomics on stack memory, scratchpads and accumulators. LD of 1 to 16 bytes fills registers from D on, poisoned where a
byte is, and changes no memory; ST writes the bytes of its registers at each thread's address and no byte elsewhere; an atomic
leaves in memory what its operation makes of the old value and puts the old value in D. FENCE goes on (R222, R230-R234, R237). -/
def Obligations.MemoryInstructionsReadAndWrite : Prop :=
  ∀ (s s1 : State) (a : RillAt) (m : Rill) (w : Nat) (addr : Nat → Nat),
    let n := 2 ^ fSize w
    (Issues s s1 a 0x80 m w → fSize w ≤ 4 → fOrder w ≤ 1 → bits w 37 3 = 0 → groupOk (fD w) n = true → Accesses s1 a m w n .load addr →
      Gives (.rillLd a) s fun t => ∃ q : Rill, RillIs s t a { q with pc := m.pc + 8 } ∧ q = { m with regs := q.regs, poison := q.poison }
        ∧ t.mem.bytes = s.mem.bytes
        ∧ (∀ th ∈ threads m w, ∀ j, j < (n + 3) / 4 →
            q.get th (fD w + j) = ofBytes (rdBytes s (addr th + 4 * j) (min 4 n))
              ∧ q.bad th (fD w + j) = (List.range (min 4 n)).any (fun i => poisoned s1 (addr th + 4 * j + i)))
        ∧ (∀ th k, k < 64 → (th ∉ threads m w ∨ k < fD w ∨ fD w + (n + 3) / 4 ≤ k) → q.get th k = m.get th k ∧ q.bad th k = m.bad th k))
    ∧ (Issues s s1 a 0x81 m w → fSize w ≤ 4 → (fOrder w = 0 ∨ fOrder w = 2) → bits w 37 3 = 0 → groupOk (fB w) n = true →
      Accesses s1 a m w n .store addr → Apart m w n addr →
      Gives (.rillSt a) s fun t => RillIs s t a { m with pc := m.pc + 8 }
        ∧ (∀ th ∈ threads m w, ∀ i, i < n → rdByte t (addr th + i) = BitVec.ofNat 8 (m.get th (fB w + i / 4) / 256 ^ (i % 4)))
        ∧ (∀ x, (∀ th ∈ threads m w, x < addr th ∨ addr th + n ≤ x) → rdByte t x = rdByte s x))
    ∧ (∀ e ∈ atomics, Issues s s1 a e.2.1 m w → (fSize w = 2 ∨ (fSize w = 3 ∧ e.2.2.1 = true)) → bits w 37 3 = 0 → groupOk (fB w) n = true → groupOk (fD w) n = true →
      Accesses s1 a m w n .atomic addr → Apart m w n addr →
      (∀ th ∈ threads m w, poisonedIn s1 (addr th) n = false ∧ ∀ j, j < n / 4 → m.bad th (fB w + j) = false ∧ m.bad th (fD w + j) = false) →
      let val (r : Rill) (th g : Nat) : Nat := if n = 8 then r.get64 th g else r.get th g
      let old (th : Nat) : Nat := ofBytes (rdBytes s (addr th) n)
      Gives (e.1 a) s fun t => ∃ q : Rill, RillIs s t a { q with pc := m.pc + 8 } ∧ q = { m with regs := q.regs, poison := q.poison }
        ∧ (∀ th ∈ threads m w, val q th (fD w) = old th
            ∧ ofBytes (rdBytes t (addr th) n) = e.2.2.2 (8 * n) (old th) (val m th (fB w)) (val m th (fD w)) % 2 ^ (8 * n))
        ∧ (∀ x, (∀ th ∈ threads m w, x < addr th ∨ addr th + n ≤ x) → rdByte t x = rdByte s x)
        ∧ (∀ th k, k < 64 → (th ∉ threads m w ∨ k < fD w ∨ fD w + n / 4 ≤ k) → q.get th k = m.get th k))
    ∧ (Issues s s1 a 0x8D m w → bits w 37 3 = 0 → fSize w ≤ 4 → Completes (.rillFence a) s s1 a m fun q => q = m)

namespace Sys2Proof.Machine

/-- The operands of a barrier, signal or NAP instruction carry no poison. -/
def CleanAB (m : Rill) (w : Nat) : Prop := ∀ th ∈ threads m w, m.bad th (fA w) = false ∧ m.bad th (fB w) = false

end Sys2Proof.Machine

/-- Barriers, signals and NAP (R235, R236). Arrivals short of the count leave the phase open: BARSYNC waits, BARARRIVE goes on; the arrival
that reaches it closes the phase and both go on. SIGADD adds and SIGSET stores thread by thread; SIGWAIT goes on once every thread's
counter has reached its threshold, else it waits. NAP waits for its cycles, and goes on when they have passed. -/
def Obligations.BarriersSignalsAndNaps : Prop :=
  ∀ (s s1 : State) (a : RillAt) (m : Rill) (w : Nat), PlainRRR w → CleanAB m w → mSorted none s.runnels.barriers = true → mSorted none s.runnels.signals = true →
    (∀ b c, threads m w ≠ [] → (∀ th ∈ threads m w, m.get th (fA w) % 16 = b ∧ m.get th (fB w) = c) → 1 ≤ c → c ≤ 4096 →
      let x := mget ({} : Barrier) s.runnels.barriers (barKey m.ctx a.reach b)
      let n := (threads m w).length
      (x.count = 0 ∨ x.count = c) →
      (x.arrived + departedOf s (x.owner m.launch) a.reach + n < c →
        (Issues s s1 a 0xB0 m w → Gives (.rillBarsync a) s fun t => RillIs s t a { m with wait := .barrier [b] }
          ∧ mfind t.runnels.barriers (barKey m.ctx a.reach b) = some ⟨c, x.arrived + n, x.owner m.launch⟩ ∧ t.mem = s1.mem)
        ∧ (Issues s s1 a 0xB1 m w → Gives (.rillBararrive a) s fun t => RillIs s t a { m with pc := m.pc + 8 }
          ∧ mfind t.runnels.barriers (barKey m.ctx a.reach b) = some ⟨c, x.arrived + n, x.owner m.launch⟩ ∧ t.mem = s1.mem))
      ∧ (x.arrived + departedOf s (x.owner m.launch) a.reach + n = c → 
        let gone (t : State) : Prop := getRill t (keyOf a) = some { m with pc := m.pc + 8 } ∧ mfind t.runnels.barriers (barKey m.ctx a.reach b) = none
          ∧ (∀ k r, k ≠ (keyOf a) → getRill s k = some r → r.ctx = m.ctx → k / 128 = a.reach → r.wait = .barrier [b] →
              getRill t k = some { r with wait := .none, pc := r.pc + 8 }) ∧ t.mem = s1.mem
        (Issues s s1 a 0xB0 m w → Gives (.rillBarsync a) s gone) ∧ (Issues s s1 a 0xB1 m w → Gives (.rillBararrive a) s gone)))
    ∧ (let after (f : Nat → Nat → Nat) (t : State) : Prop := getRill t (keyOf a) = some { m with pc := m.pc + 8 }
          ∧ (∀ c, c < 64 → getSig s m.ctx a.reach c < 2 ^ 32 → getSig t m.ctx a.reach c
              = ((threads m w).filter (fun th => m.get th (fA w) % 64 == c)).foldl (fun o th => f o (m.get th (fB w)) % 2 ^ 32) (getSig s m.ctx a.reach c))
          ∧ t.mem = s1.mem ∧ t.regs = s1.regs
       (Issues s s1 a 0xB2 m w → Gives (.rillSigadd a) s (after (fun o b => o + b)))
       ∧ (Issues s s1 a 0xB3 m w → Gives (.rillSigset a) s (after (fun _ b => b))))
    ∧ (Issues s s1 a 0xB4 m w → (∀ th ∈ threads m w, reached (getSig s m.ctx a.reach (m.get th (fA w) % 64)) (m.get th (fB w)) = true) →
      Completes (.rillSigwait a) s s1 a m fun q => q = m)
    ∧ (Issues s s1 a 0xB4 m w → (∃ th ∈ threads m w, reached (getSig s m.ctx a.reach (m.get th (fA w) % 64)) (m.get th (fB w)) = false) →
      exec (.rillSigwait a) s = .next (noteBlock (putRill s1 (keyOf a)
        { m with wait := .signal ((threads m w).map (fun th => (m.get th (fA w) % 64, m.get th (fB w)))) }) m.ctx))
    ∧ (Issues s s1 a 0xB5 m w → Gives (.rillNap a) s fun t => ∃ n, RillIs s t a { m with wait := .nap (cyc s1 a.reach + n) }
        ∧ (∀ th ∈ threads m w, min (m.get th (fA w)) 65535 ≤ n) ∧ (n = 0 ∨ ∃ th ∈ threads m w, n = min (m.get th (fA w)) 65535))
    ∧ (∀ r c, getRill s (keyOf a) = some r → r.wait = .nap c →
      (c ≤ cyc s a.reach → exec (.rillNapExpire a) s = .next (putRill s (keyOf a) { r with wait := .none, pc := r.pc + 8 }))
      ∧ (cyc s a.reach < c → exec (.rillNapExpire a) s = .next s))

namespace Sys2Proof.Machine

/-- One thread's operation is accepted with ticket `k`: the thread's D names it, it is outstanding, and the launch counts one more
operation (R226, R229). -/
def Accepted (s t : State) (a : RillAt) (m : Rill) (w th k : Nat) : Prop :=
  (∃ q, getRill t (keyOf a) = some q ∧ q.pc = m.pc + 8 ∧ q.wait = .none ∧ q.get th (fD w) = k * 65536 ∧ mfind q.tickets k = some none
      ∧ (∀ j, j ≠ k → mfind q.tickets j = mfind m.tickets j)
      ∧ ∀ th' n, n < 64 → (th' ≠ th ∨ n ≠ fD w) → q.get th' n = m.get th' n)
    ∧ (∀ l, findLaunch s m.ctx m.launch = some l → findLaunch t m.ctx m.launch = some { l with ops := l.ops + 1 })

/-- The thread's operation is rejected: its D holds the status, and no ticket is taken (R226). -/
def Rejected (s1 t : State) (a : RillAt) (m : Rill) (w th st : Nat) : Prop :=
  t = noteBlock (putRill s1 (keyOf a) { m.put th (fD w) st false with pc := m.pc + 8 }) m.ctx

end Sys2Proof.Machine

/-- The unit operations, here of one executing thread of a resident context. PASS and TSCALE join the queue of the thread's slot at their tile, FLAUNCH the
programs of its engine, FETCH becomes a fetch of the tier manager, each with the lowest free ticket; a full queue holds the rill,
and UNIT_OP_ACCEPTANCE tries again; a wrong operand is rejected with a status in D (R126, R143, R144, R226, R227, R243).
UWAIT goes on when each thread's ticket has completed, with the statuses in D (0x1003 for one not outstanding) and the tickets free; until
then it waits. UPOLL writes 0xFFFF for a ticket outstanding and does not wait (R228). -/
def Obligations.UnitOperationsAndTickets : Prop :=
  (∀ (s s1 : State) (a : RillAt) (m : Rill) (w th k : Nat), threads m w = [th] → bits w 36 28 = 0 → unitsHeld s m.ctx = false → freeTicket m = some k →
    (Issues s s1 a 0xC0 m w → fA w % 4 = 0 → (∀ j, j < 4 → m.bad th (fA w + j) = false) →
      let d := passDesc m w th
      (∀ f, passRes s1 a.reach m w th = .accept f → Gives (.rillPass a) s fun t => Accepted s t a m w th k
        ∧ ∃ p : TPass, (getTile t a.reach (bits d 0 6)).queue = (getTile s a.reach (bits d 0 6)).queue ++ [p] ∧ p.desc = d ∧ p.slot = m.rslot
          ∧ p.op = ⟨m.ctx, m.launch, m.uid, k⟩ ∧ p.scaleWrite = none)
      ∧ (passRes s1 a.reach m w th = .full → exec (.rillPass a) s = .next (noteBlock (putRill s1 (keyOf a) { m with wait := .unit w (2 ^ th) }) m.ctx))
      ∧ (∀ st, passRes s1 a.reach m w th = .reject st → Gives (.rillPass a) s fun t => Rejected s1 t a m w th st))
    ∧ (∀ f, Issues s s1 a 0xC1 m w → m.bad th (fA w) = false → m.bad th (fB w) = false → m.bad th (fC w) = false → tscaleRes s1 a.reach m w th = .accept f →
      Gives (.rillTscale a) s fun t => Accepted s t a m w th k ∧ ∃ p : TPass,
        (getTile t a.reach (m.get th (fA w))).queue = (getTile s a.reach (m.get th (fA w))).queue ++ [p] ∧ p.scaleWrite = some (m.get th (fB w), m.get th (fC w)))
    ∧ (∀ f, Issues s s1 a 0xC2 m w → fA w % 2 = 0 → (∀ j, j < 2 → m.bad th (fA w + j) = false) → m.bad th (fB w) = false → m.bad th (fC w) = false →
      flaunchRes s1 a.reach m w th = .accept f →
      let key := progKey a.reach (m.get th (fB w) % 8) m.rslot
      Gives (.rillFlaunch a) s fun t => Accepted s t a m w th k ∧ ∃ p : Prog, getProgs t key = getProgs s key ++ [p]
        ∧ p.addr = m.get64 th (fA w) ∧ p.arg = m.get th (fC w) ∧ p.op = ⟨m.ctx, m.launch, m.uid, k⟩)
    ∧ (∀ o, Issues s s1 a 0xC3 m w → fA w % 2 = 0 → fB w % 2 = 0 → (∀ j, j < 2 → m.bad th (fA w + j) = false ∧ m.bad th (fB w + j) = false) →
      let x := m.get64 th (fA w)
      let y := m.get64 th (fB w)
      x % 32 = 0 → y % 32 = 0 → unitAddr s1 m.ctx x 32 = true → unitAddr s1 m.ctx y 32 = true →
      (if regionOf s1 x = .stack then readStatus s1 x 32 = 0 else poisonedIn s1 x 32 = false) →
      let d := rdBytes s1 x 32
      findObj s1 (ctxDom s1 m.ctx + 1) (le d 0 8) = some o → o.grain = 0 → le d 30 2 = 0 → le d 29 1 ≤ 1 →
      (le d 28 1 = 255 ∨ (le d 28 1 ≤ 3 ∧ dieExts s1 (le d 28 1) ≠ 0)) → le d 8 8 = 0 → le d 16 8 = 0 →
      o.quarantined = false → (∃ g, findPage s1 o.nsid o.id 0 = some g ∧ g.asleep = false) →
      Gives (.rillFetch a) s fun t => Accepted s t a m w th k ∧ ∃ f : Fetch, t.mem.fetches = s1.mem.fetches ++ [f] ∧ f.obj = o.id ∧ f.pages = [0]
        ∧ f.deadline = le d 24 4 ∧ f.issuer = .record y ⟨m.ctx, m.launch, m.uid, k⟩)
    ∧ (∀ o u, Issues s s1 a 0xC3 m w → fA w % 2 = 0 → fB w % 2 = 0 → (∀ j, j < 2 → m.bad th (fA w + j) = false ∧ m.bad th (fB w + j) = false) →
      let x := m.get64 th (fA w)
      let y := m.get64 th (fB w)
      x % 32 = 0 → y % 32 = 0 → unitAddr s1 m.ctx x 32 = true → unitAddr s1 m.ctx y 32 = true →
      (if regionOf s1 x = .stack then readStatus s1 x 32 = 0 else poisonedIn s1 x 32 = false) →
      let d := rdBytes s1 x 32
      let r := tierRange o (le d 8 8) (le d 16 8)
      findObj s1 (ctxDom s1 m.ctx + 1) (le d 0 8) = some o → le d 30 2 = 0 → le d 29 1 ≤ 1 →
      (∀ e ∈ dieConds s1 (le d 28 1) ++ tierRangeConds (some o) (le d 8 8) (le d 16 8), e = 0) → o.quarantined = false →
      startPages o (pickDie s1 (le d 28 1)) r.1 (updMem (stackRead s1 6 x 32) fun z => { z with nextFetch := z.nextFetch + 1 }) = (u, .ok ()) →
      Gives (.rillFetch a) s fun t => Accepted s t a m w th k ∧ ∃ f : Fetch, t.mem.fetches = u.mem.fetches ++ [f] ∧ f.obj = o.id ∧ f.pages = r.1
        ∧ f.pin = (le d 29 1 == 1) ∧ f.deadline = le d 24 4 ∧ f.issuer = .record y ⟨m.ctx, m.launch, m.uid, k⟩)
    ∧ (∀ f, Issues s s1 a 0xC0 m w → unitRes s a.reach { m with wait := .unit w (2 ^ th) } w th = .accept f → th < 32 →
      Gives (.unitOpAcceptance a) (putRill s (keyOf a) { m with wait := .unit w (2 ^ th) }) fun t => Accepted s t a m w th k))
    ∧ (∀ (s s1 : State) (a : RillAt) (m : Rill) (w : Nat), bits w 36 28 = 0 → threads m w ≠ [] → (∀ th ∈ threads m w, m.bad th (fA w) = false) →
    let tk (th : Nat) : Nat := m.get th (fA w) % 64
    (Issues s s1 a 0xC4 m w → (∀ th ∈ threads m w, (ticketStatus m (tk th)).isSome = true) →
      Completes (.rillUwait a) s s1 a m fun q => (∀ th, th ∉ threads m w → ∀ n, n < 64 → q.get th n = m.get th n)
        ∧ (∀ th ∈ threads m w, q.get th (fD w) = (ticketStatus m (tk th)).getD 0 % 2 ^ 32 ∧ mfind q.tickets (tk th) = none)
        ∧ (∀ k, (∀ th ∈ threads m w, tk th ≠ k) → mfind q.tickets k = mfind m.tickets k) ∧ q.wait = .none)
    ∧ (Issues s s1 a 0xC4 m w → (∃ th ∈ threads m w, ticketStatus m (tk th) = none) →
      exec (.rillUwait a) s = .next (noteBlock (putRill s1 (keyOf a) { m with wait := .ticket (fD w) ((threads m w).map (fun th => (th, tk th))) }) m.ctx))
    ∧ (Issues s s1 a 0xC5 m w → Completes (.rillUpoll a) s s1 a m fun q =>
        (∀ th ∈ threads m w, q.get th (fD w) = (ticketStatus m (tk th)).getD 0xFFFF % 2 ^ 32)
        ∧ (∀ th ∈ threads m w, (ticketStatus m (tk th)).isSome = true → mfind q.tickets (tk th) = none)
        ∧ (∀ th ∈ threads m w, ticketStatus m (tk th) = none → mfind q.tickets (tk th) = mfind m.tickets (tk th))))

/-- BRA taken by all threads moves the pc, by none falls through, by some runs the taken path and keeps the other on the stack until they meet
at RECONV, and stops the rill with 0x1008 where the stack is full. EXIT takes its threads out of every mask and lets the next path
with a thread go on; a rill without a thread ends and its launch counts it. (R224, R225, R215)
A rill stops on a reserved opcode with 0x1001, on a reserved format with 0x1002, on a poisoned register that is consumed with 0x4003 and on a
residue mismatch with 0x4002; the rill leaves its slot, RUN_FAULT shows the status, slot and pc, and its launch counts the fault
(R218, R237-R240). -/
def Obligations.BranchesAndFaultsOfRills : Prop :=
  (∀ (s s1 : State) (a : RillAt) (m : Rill) (w : Nat), fD w = 0 → fA w = 0 →
    let target := pcPlus m.pc (fTarget w)
    let rc := pcPlus m.pc (fReconv w)
    let taken := maskOf (threads m w)
    (Issues s s1 a 0xA0 m w → taken = 0 → Completes (.rillBra a) s s1 a m fun q => q = m)
    ∧ (Issues s s1 a 0xA0 m w → taken ≠ 0 → taken = m.active →
      exec (.rillBra a) s = .next (noteBlock (putRill s1 (keyOf a) { m with pc := target }) m.ctx))
    ∧ (Issues s s1 a 0xA0 m w → taken ≠ 0 → taken ≠ m.active → m.stack.length ≤ 30 →
      exec (.rillBra a) s = .next (noteBlock (putRill s1 (keyOf a) { m with
        active := taken, pc := target, rcv := rc, stack := (m.pc + 8, m.active - taken, rc) :: (rc, m.active, m.rcv) :: m.stack }) m.ctx))
    ∧ (Issues s s1 a 0xA1 m w → m.active &&& taken ≠ m.active →
      Gives (.rillExit a) s fun t => RillIs s t a { m with pc := m.pc + 8, active := m.active - (m.active &&& taken), stack := stripStack taken m.stack }
        ∧ t.mem = s1.mem ∧ t.regs = s1.regs)
    ∧ (Issues s s1 a 0xA0 m w → taken ≠ 0 → taken ≠ m.active → 30 < m.stack.length →
      Gives (.rillBra a) s fun t => getRill t (keyOf a) = none ∧ getF t a.reach F.RUN_FAULT_CODE = 0x1008)
    ∧ (∀ pc mk rc rest, Issues s s1 a 0xA1 m w → m.active &&& taken = m.active → m.stack = (pc, mk, rc) :: rest → mk - (mk &&& taken) ≠ 0 →
      Gives (.rillExit a) s fun t =>
        RillIs s t a { m with pc := pc, active := mk - (mk &&& taken), rcv := rc, stack := stripStack taken rest } ∧ t.mem = s1.mem ∧ t.regs = s1.regs)
    ∧ (∀ l, Issues s s1 a 0xA1 m w → m.active &&& taken = m.active → m.stack = [] → findLaunch s m.ctx m.launch = some l →
      Gives (.rillExit a) s fun t => getRill t (keyOf a) = none ∧ (∀ k, k ≠ (keyOf a) → getRill t k = getRill s k)
        ∧ findLaunch t m.ctx m.launch = some { l with running := l.running - 1, ended := l.ended + 1 } ∧ t.mem = s1.mem ∧ t.regs = s1.regs))
    ∧ (∀ (s s1 : State) (a : RillAt) (m : Rill) (w op : Nat) (l : Launch), Issues s s1 a op m w → findLaunch s m.ctx m.launch = some l →
    getF s a.reach F.RUN_FAULTS_COUNT < 2 ^ F.RUN_FAULTS_COUNT.w - 1 →
    let stopped (st : Nat) (t : State) : Prop :=
      getRill t (keyOf a) = none ∧ getF t a.reach F.RUN_FAULT_CODE = st ∧ getF t a.reach F.RUN_FAULT_RUNNEL = a.runnel ∧ getF t a.reach F.RUN_FAULT_RILL = a.slot
        ∧ getF t a.reach F.RUN_FAULT_VALID = 1 ∧ getF t a.reach F.RUN_FAULT_PC_LO_PC = m.pc % 2 ^ 32
        ∧ getF t a.reach F.RUN_FAULTS_COUNT = getF s a.reach F.RUN_FAULTS_COUNT + 1
        ∧ ∃ l', findLaunch t m.ctx m.launch = some l' ∧ l'.running = l.running - 1 ∧ l'.faults = l.faults + 1 ∧ (l.faults = 0 → l'.status = st)
    (knownOp op = false → Gives (.rillReservedOpcode a) s (stopped 0x1001))
    ∧ (op = 0x00 → bits w 44 20 ≠ 0 → Gives (.rillIadd a) s (stopped 0x1002))
    ∧ (op = 0x1E → PlainRRR w → (∃ th ∈ threads m w, m.bad th (fA w) = true) → Gives (.rillSetp a) s (stopped 0x4003))
    ∧ (op = 0x02 → PlainRRR w → threads m w ≠ [] → Gives (.rillImul { a with upset := .hit }) s (stopped 0x4002)))

/-! ## Tiles (R142-R200) -/

namespace Sys2Proof.Machine

/-- A tile at work: its reach live, itself enabled, nothing counted in the reach, no injection armed. -/
def TileAtWork (s : State) (reach tile : Nat) : Prop :=
  State.wf s = true ∧ reach < 32 ∧ tile < 48 ∧ reachLive s reach = true ∧ tileEnabled s reach tile = true ∧ Uncounted s reach
    ∧ getF s reach F.TILE_INJECT_ARM tile = 0

/-- The rill that issued an operation, ready or waiting elsewhere, has its ticket completed with a status (R228, R229). -/
def TicketDone (s t : State) (op : OpRef) (status : Nat) : Prop :=
  ∀ k r, getRill s k = some r → r.uid = op.uid → r.wait = .none → getRill t k = some { r with tickets := mins r.tickets op.ticket (some status) }

/-- The element products of row `row` of a full pass and column `j`, the row's bytes `raw` taken from the feeders (R176-R182). -/
def columnSum (p : TPass) (raw : List PByte) (j : Nat) : Fp :=
  let d := depthOf (fmtW p.fmt)
  let row := raw.drop (if afmtHasSide (fmtA p.fmt) then 4 else 0)
  dotGroup (fmtW p.fmt) (fmtA p.fmt) (((List.range d).map (fun k => elemAt (elemBits (fmtA p.fmt)) (pbytes row) k)).zip
    ((List.range d).map (fun k => (p.weightAt k j).1)))

/-- The FP32 result of the column: rescaled by the side exponents and the pass's scale (R177, R178, R182). -/
def columnResult (p : TPass) (raw : List PByte) (j : Nat) : Nat :=
  let xa : Int := if afmtHasSide (fmtA p.fmt) then (sideX (raw.take 4) : Int) - 127 else 0
  rescale (columnSum p raw j) (xa - (sideNibble p.side j).1) (p.scales.getD j 0)

end Sys2Proof.Machine

/-- PASS_START, no scale write queued and no escalation pass due: of the first passes of the two slots that are ready, the one accepted in
the earlier cycle, slot 0's on a tie, leaves the queue; a pass the checks of R145 reject completes with that
status, one they pass is in flight with the active format and, but for a millrace pass, its scales; a waiting escalation pass starts
ahead of every queued one (R200). One is ready when no turn holds its slot and the checks
reject it or the port holds its first weights; with none ready nothing happens. A scale
write at the head of a queue takes effect and completes (R145-R149).
SLOT_GATE on a full pass whose weights and side entry are in, no sentinel on it and no escalation pass ahead of it: the row's 32 column
results are rescaled and written, or added, at the pass's next row, no byte elsewhere changes, and the feeders move on; with up to four
feeders dry the slot is a bubble, with more it is a freeze, and nothing else happens; a quad pass takes a row of its lane so, whatever its
sentinel does, and a millrace pass a beat of 128 bytes (R152, R153, R161, R176-R182). -/
def Obligations.PassesStartAndComputeRows : Prop :=
  (∀ (s : State) (reach tile : Nat) (p : TPass), TileAtWork s reach tile →
    let t0 := getTile s reach tile
    let f := activeFmt s reach tile
    let first (sl : Nat) : Option TPass := (t0.queue.filter (fun x => x.slot == sl)).head?
    let ready (x : TPass) : Prop :=
      slotHeld s reach x.slot = false ∧ (startCheck s reach tile x f ≠ 0 ∨ weightRow f ≤ (ownBytes (t0.wport.getD 0 []) x.no).length)
    ((∀ x ∈ t0.queue, x.scaleWrite = none) → fmtMode f = 0 → inflight t0 0 < 2 → loading t0 0 = false → waitingEsc t0 = none → escQueued t0 = false →
      getF s reach F.TILE_GROUP_FMT_EPOCH_PENDING tile ≠ 1 →
      (first p.slot = some p → p.slot < 2 → ready p →
        (∀ x, first (1 - p.slot) = some x → ready x → p.accepted < x.accepted ∨ (p.accepted = x.accepted ∧ p.slot = 0)) →
        (∀ x ∈ t0.flight, x.no ≠ p.no) →
        (startCheck s reach tile p f ≠ 0 → exec (.passStart reach tile 0) s
          = .next (finishPass (updTile s reach tile (·.forget [p.no])) reach tile p (startCheck s reach tile p f)))
        ∧ (startCheck s reach tile p f = 0 → Gives (.passStart reach tile 0) s fun t =>
          (getTile t reach tile).queue = t0.queue.filter (fun x => x.no != p.no)
            ∧ (getTile t reach tile).flight.map (·.no) = t0.flight.map (·.no) ++ [p.no]
            ∧ (∃ x ∈ (getTile t reach tile).flight, x.no = p.no ∧ x.fmt = f ∧ x.started = t0.starts
              ∧ x.scales = (List.range 32).map (fun i => getF s reach F.TILE_SCALE_SCALE tile (p.scaleBase + i)))
            ∧ t.mem = s.mem ∧ t.runnels = s.runnels))
      ∧ ((∀ sl x, sl < 2 → first sl = some x → ¬ ready x) → exec (.passStart reach tile 0) s = .next s))
    ∧ (∀ i v, t0.queue = [p] → p.scaleWrite = some (i, v) → i < 64 → t0.flight = [] → p.slot < 2 → slotHeld s reach p.slot = false →
      Gives (.passStart reach tile 0) s fun t => getF t reach F.TILE_SCALE_SCALE tile i = v % 2 ^ 32 ∧ (getTile t reach tile).queue = []
        ∧ TicketDone s t p.op 0 ∧ t.mem = s.mem)
    ∧ (∀ quad, let q := if fmtMode f = 1 then quad % 4 else 0
      (∀ x ∈ t0.queue, x.scaleWrite = none) → inflight t0 q < 2 → loading t0 q = false →
      (fmtMode f ≠ 0 → escQueued t0 = false → getF s reach F.TILE_GROUP_FMT_EPOCH_PENDING tile ≠ 1 → nextPass s reach tile q = some p →
        (∀ x ∈ t0.flight, x.no ≠ p.no) → startCheck s reach tile p f = 0 → Gives (.passStart reach tile quad) s fun t =>
          (getTile t reach tile).queue = t0.queue.filter (fun x => x.no != p.no)
            ∧ (∃ x ∈ (getTile t reach tile).flight, x.no = p.no ∧ x.fmt = f ∧ x.started = t0.starts) ∧ t.mem = s.mem ∧ t.runnels = s.runnels)
      ∧ (fmtMode f = 0 → waitingEsc t0 = some p → Gives (.passStart reach tile quad) s fun t =>
          (∃ x ∈ (getTile t reach tile).flight, x.no = p.no ∧ x.owns = true ∧ (∃ b ∈ x.esc.head?, b.flying = true ∧ b.started = t0.starts))
            ∧ (getTile t reach tile).queue = t0.queue ∧ t.mem = s.mem ∧ t.runnels = s.runnels)))
    ∧ (∀ (s : State) (reach tile : Nat) (p : TPass), TileAtWork s reach tile →
    let t0 := getTile s reach tile
    t0.flight.find? (fun x => x.lane x.fmt == 0 && decide (x.row < x.total)) = some p → fmtMode p.fmt = 0 → p.gpart = 0 → p.weightNeed p.fmt ≤ p.weights.length →
    p.sideNeed p.fmt ≤ p.side.length → p.sent.testBit 16 = false → p.row0 + p.row < 512 → escAhead t0 p.started = false →
    let data := ownBytes (t0.feeders.getD 0 []) p.no
    let raw := data.take (actRow p.fmt)
    let a0 := wordAddr reach tile p.bank (p.row0 + p.row) 0
    let dry := dryFeeders p.fmt data.length
    (dry = 0 → t0.feeders ≠ [] → Gives (.slotGate reach tile 0) s fun t =>
        (∀ j, j < 32 → word32 t (a0 + 4 * j)
          = (if p.acc then fadd (word32 s (a0 + 4 * j)) (columnResult p raw j) else columnResult p raw j) % 2 ^ 32)
        ∧ (∀ x, (x < a0 ∨ a0 + 128 ≤ x) → rdByte t x = rdByte s x)
        ∧ ownBytes ((getTile t reach tile).feeders.getD 0 []) p.no = data.drop (actRow p.fmt)
        ∧ (∃ x ∈ (getTile t reach tile).flight, x.no = p.no ∧ x.row = p.row + 1)
        ∧ t.runnels = s.runnels ∧ t.sched = s.sched)
    ∧ (0 < dry → dry ≤ 4 → exec (.slotGate reach tile 0) s = .next (addF s reach F.TILE_BUBBLES_COUNT 1 tile))
    ∧ (4 < dry → exec (.slotGate reach tile 0) s = .next (addF s reach F.TILE_FREEZES_COUNT 1 tile)))
    ∧ (∀ (s : State) (reach tile quad : Nat) (p : TPass), TileAtWork s reach tile →
    let t0 := getTile s reach tile
    let q := if fmtMode p.fmt = 1 then quad % 4 else 0
    let data := ownBytes (t0.feeders.getD q []) p.no
    let beat := ownBytes (t0.wport.getD 0 []) p.no
    let streamed (t : State) : Prop := (∃ x ∈ (getTile t reach tile).flight, x.no = p.no ∧ x.row = p.row + 1) ∧ t.runnels = s.runnels ∧ t.sched = s.sched
    t0.flight.find? (fun x => x.lane x.fmt == (if fmtMode x.fmt = 1 then quad % 4 else 0) && decide (x.row < x.total)) = some p →
    (fmtMode p.fmt ≠ 2 → p.weightNeed p.fmt ≤ p.weights.length → p.sideNeed p.fmt ≤ p.side.length → escAhead t0 p.started = false →
      q < t0.feeders.length → dryFeeders p.fmt data.length = 0 → Gives (.slotGate reach tile quad) s fun t =>
        streamed t ∧ ownBytes ((getTile t reach tile).feeders.getD q []) p.no = data.drop (actRow p.fmt))
    ∧ (fmtMode p.fmt = 2 → p.count * (p.k / fmtGsize p.fmt) * actGroup p.fmt ≤ p.acts.length → t0.wport ≠ [] → 128 ≤ beat.length →
      8 ≤ (ownBytes (t0.sidecar.getD 0 []) p.no).length → Gives (.slotGate reach tile quad) s fun t =>
        streamed t ∧ ownBytes ((getTile t reach tile).wport.getD 0 []) p.no = beat.drop 128))

/-- A pass whose rows are all written and that has no escalation left leaves the tile and completes with 0, with 0x4003 where it used poisoned
data; a residue mismatch poisons its column, sends its unit to TESTING and completes it with 0x4002, also where an uncorrectable
latch, whose column is poisoned too, was met with it (R148, R168-R170). An escalation pass in flight ends before it, once its shadows have
come and the rows before it have streamed: its batch goes on to the next block or is done (R200). A
quadrant's self-test, drain and join end as R169 and R170 say. -/
def Obligations.PassesCompleteAndUnitsMove : Prop :=
  ∀ (s : State) (reach tile q : Nat), TileAtWork s reach tile → q < 4 →
    let t0 := getTile s reach tile
    (∀ p, (∀ x ∈ t0.flight, x.esc = []) → t0.flight.find? (fun x => x.lane x.fmt == 0 && x.esc.isEmpty && decide (x.total ≤ x.row)) = some p →
      fmtMode p.fmt = 0 → p.inject = none → p.upset = [] → p.badOuts = [] → getF s reach F.TILE_PASSES_COUNT tile < 2 ^ F.TILE_PASSES_COUNT.w - 1 →
      (Gives (.passComplete reach tile 0 []) s fun t =>
        (getTile t reach tile).flight = t0.flight.filter (fun x => x.no != p.no) ∧ getF t reach F.TILE_PASSES_COUNT tile = getF s reach F.TILE_PASSES_COUNT tile + 1
          ∧ TicketDone s t p.op (if p.pois then 0x4003 else 0) ∧ t.mem = s.mem)
      ∧ (∀ c, t0.queue = [] → p.gpart = 0 → mSorted none s.mem.poison = true → (∀ k, k < 4 → quadState s reach tile k = 0) → Gives (.passComplete reach tile 0 [.residue c]) s fun t =>
        (∀ k, k < 4 → quadState t reach tile k = 3) ∧ getF t reach F.TILE_FAULT_CODE tile = 0x4002 ∧ getF t reach F.TILE_FAULT_VALID tile = 1
          ∧ getF t reach F.TILE_FAULT_COL tile = c % 32 ∧ TicketDone s t p.op 0x4002 ∧ t.mem.bytes = s.mem.bytes
          ∧ (∀ m, m < p.count → poisoned t (wordAddr reach tile p.bank (p.row0 + m) (c % 32)) = true))
      ∧ (∀ b c, t0.queue = [] → p.gpart = 0 → mSorted none s.mem.poison = true → (∀ k, k < 4 → quadState s reach tile k = 0) →
          Gives (.passComplete reach tile 0 [.latch b, .residue c]) s fun t =>
        getF t reach F.TILE_FAULT_CODE tile = 0x4002 ∧ getF t reach F.TILE_FAULT_COL tile = c % 32 ∧ TicketDone s t p.op 0x4002
          ∧ (∀ m, m < p.count → poisoned t (wordAddr reach tile p.bank (p.row0 + m) (b % 32)) = true
              ∧ poisoned t (wordAddr reach tile p.bank (p.row0 + m) (c % 32)) = true)))
    ∧ (∀ quad p,
      let mine (x : TPass) : Bool := x.lane x.fmt == (if fmtMode x.fmt = 1 then quad % 4 else 0)
      (t0.flight.find? (fun x => mine x && (x.esc.head?.map (·.flying)) == some true) = none →
        t0.flight.find? (fun x => mine x && x.esc.isEmpty && decide (x.total ≤ x.row)) = some p →
        p.inject = none → p.upset = [] → p.badOuts = [] → getF s reach F.TILE_PASSES_COUNT tile < 2 ^ F.TILE_PASSES_COUNT.w - 1 →
        Gives (.passComplete reach tile quad []) s fun t =>
          (getTile t reach tile).flight = t0.flight.filter (fun x => x.no != p.no) ∧ getF t reach F.TILE_PASSES_COUNT tile = getF s reach F.TILE_PASSES_COUNT tile + 1
            ∧ TicketDone s t p.op (if p.pois then 0x4003 else 0) ∧ t.mem = s.mem)
      ∧ (∀ b rest, t0.flight.find? (fun x => mine x && (x.esc.head?.map (·.flying)) == some true) = some p → p.esc = b :: rest →
        (escReady s reach p b = true → passAhead t0 b.started = false → Gives (.passComplete reach tile quad []) s fun t =>
          (∃ x ∈ (getTile t reach tile).flight, x.no = p.no ∧ (fmtGsize p.fmt ≤ 32 * (b.u + 1) → x.esc = rest)
            ∧ (32 * (b.u + 1) < fmtGsize p.fmt → ∃ y, x.esc = y :: rest ∧ y.u = b.u + 1 ∧ y.rows = b.rows ∧ y.flying = false))
            ∧ (32 * (b.u + 1) < fmtGsize p.fmt → t.mem = s.mem) ∧ t.sched = s.sched ∧ t.runnels = s.runnels)
        ∧ (escReady s reach p b = false ∨ passAhead t0 b.started = true → exec (.passComplete reach tile quad []) s = .next s)))
    ∧ (∀ quads failed, Gives (.tileSelfTestDone reach tile quads failed) s fun t =>
        (quads.testBit q = true → quadState s reach tile q = 3 → (getF s reach F.TILE_QSTATE_BIST_DONE tile).testBit q = false →
          (getF t reach F.TILE_QSTATE_BIST_DONE tile).testBit q = true ∧ (getF t reach F.TILE_QSTATE_BIST_FAIL tile).testBit q = failed.testBit q)
        ∧ (quads.testBit q = false → (getF t reach F.TILE_QSTATE_BIST_DONE tile).testBit q = (getF s reach F.TILE_QSTATE_BIST_DONE tile).testBit q
            ∧ (getF t reach F.TILE_QSTATE_BIST_FAIL tile).testBit q = (getF s reach F.TILE_QSTATE_BIST_FAIL tile).testBit q)
        ∧ RegsBut s t [fieldKey reach F.TILE_QSTATE_BIST_DONE tile 0, fieldKey reach F.TILE_QSTATE_BIST_FAIL tile 0] ∧ t = { s with regs := t.regs })
    ∧ (quadState s reach tile q = 1 → quadBusy s reach tile q = false → Gives (.tileDrainComplete reach tile q) s fun t =>
        quadState t reach tile q = 2 ∧ RegsBut s t [fieldKey reach (quadField q) tile 0] ∧ UnitMoves s t)
    ∧ (quadState s reach tile q = 1 → quadBusy s reach tile q = true → exec (.tileDrainComplete reach tile q) s = .next s)
    ∧ (quadState s reach tile q = 4 → 64 ≤ t0.joins.getD q 0 → Gives (.tileJoinCountReached reach tile q) s fun t =>
        quadState t reach tile q = 0 ∧ (getTile t reach tile).joins = t0.joins.set q 0 ∧ t.mem = s.mem)
    ∧ (quadState s reach tile q = 4 → t0.joins.getD q 0 < 64 → exec (.tileJoinCountReached reach tile q) s = .next s)

/-- Elements narrower than a byte pack little-endian: element i of a run of b-bit elements occupies bits b x i to b x i + b - 1 of the
run, counted from bit 0 of its first byte, in as few bytes as hold it; eight FP3 elements take 3 bytes and four of 2 bits one; the
same holds at b = 16 and 32, where a run is its elements' bytes, least significant first. What reads element i of a run reads those
bits (R175). -/
def Obligations.PackedElementsLieLittleEndian : Prop :=
  (∀ (b : Nat) (l : List Nat), 0 < b → (packCodes b l).length = (b * l.length + 7) / 8
    ∧ ∀ i, i < l.length → bits (ofBytes (packCodes b l)) (b * i) b = l.getD i 0 % 2 ^ b ∧ elemAt b (packCodes b l) i = l.getD i 0 % 2 ^ b)
  ∧ (∀ (b i : Nat) (r : List Byte), 0 < b → b * i + b ≤ 8 * r.length → elemAt b r i = bits (ofBytes r) (b * i) b)
  ∧ (∀ l : List Nat, l.length = 8 → (packCodes 3 l).length = 3) ∧ (∀ l : List Nat, l.length = 4 → (packCodes 2 l).length = 1)
  ∧ (∀ l : List Nat, packCodes 16 l = (l.map (fun v => toBytes 2 (v % 2 ^ 16))).flatten)
  ∧ (∀ l : List Nat, packCodes 32 l = (l.map (fun v => toBytes 4 (v % 2 ^ 32))).flatten)

/-! ## Flume engines and sluices (R242-R261) -/

namespace Sys2Proof.Machine

/-- The head program of a slot is running at the word `w` of opcode `op`, its reach live, nothing counted in the reach. -/
def FlumeAtWork (s : State) (f : FlumeAt) (p : Prog) (op w : Nat) : Prop :=
  mSorted none s.flume.progs = true ∧ headProg s f.key = some p ∧ f.ok s = true ∧ p.started = true ∧ p.ended = false ∧ p.stopAt = none
    ∧ p.code[p.pc]? = some w ∧ w % 256 = op ∧ (op ≠ 8 → p.waitAt = none) ∧ Uncounted s f.reach

/-- The head program of a slot becomes `q`; the programs behind it, every other slot and all else of the state stay. -/
def HeadIs (s t : State) (k : Nat) (q : Prog) : Prop :=
  headProg t k = some q ∧ (getProgs t k).drop 1 = (getProgs s k).drop 1 ∧ (∀ j, j ≠ k → getProgs t j = getProgs s j)
    ∧ t = { s with flume := { s.flume with progs := t.flume.progs } }

/-- The address R248 gives: base plus, for every open loop, iteration times stride, cut to 64 bits. -/
def flumeAddr (p : Prog) (n : Nat) : Nat :=
  wrap 64 ((p.base.getD n 0 : Int) + ((p.loops.map fun l => (l.2.2.1 : Int) * sext 32 (mget 0 p.stride (8 * n + l.1))).sum))

/-- A stack or scratchpad address. -/
def PlainAt (s : State) (a : Nat) : Prop := regionOf s a = .stack ∨ ∃ r o, regionOf s a = .scratch r o

/-- No sluice is switched on. -/
def SluicesOff (s : State) : Prop := ∀ i n, sluiceOn s i n = false

/-- The head program of a slot has left it: its ticket is complete with a status. -/
def ProgramEnds (s t : State) (k status : Nat) (p : Prog) : Prop :=
  getProgs t k = (getProgs s k).drop 1 ∧ TicketDone s t p.op status ∧ t.mem = s.mem

end Sys2Proof.Machine

/-- Every word of a flume program does what R247, R248, R249, R253 and R257 say of it: NOP, LOOP, ENDL, SETA and STRIDE move the pc,
the loops and the address registers; MOVE and GATHER order the transfer of their fields at the addresses of R248; SIGNAL adds to its
counter once every earlier transfer has finished and waits its turn before; WAIT holds while (counter - threshold) is negative; SHADOW
declares; END ends. -/
def Obligations.FlumeWordsAreExecuted : Prop :=
  ∀ (s : State) (f : FlumeAt) (p : Prog) (w : Nat),
    (FlumeAtWork s f p 0 w → Gives (.flumeNop f) s fun t => HeadIs s t f.key { p with pc := p.pc + 1, last := p.pc })
    ∧ (FlumeAtWork s f p 1 w → Gives (.flumeLoop f) s fun t =>
        HeadIs s t f.key { p with pc := p.pc + 1, last := p.pc, loops := (bits w 8 3, bits w 32 24, 0, p.pc + 1) :: p.loops })
    ∧ (∀ lv n i first rest, FlumeAtWork s f p 2 w → p.loops = (lv, n, i, first) :: rest → Gives (.flumeEndl f) s fun t =>
        HeadIs s t f.key (if i + 1 < n then { p with pc := first, last := p.pc, loops := (lv, n, i + 1, first) :: rest } else { p with pc := p.pc + 1, last := p.pc, loops := rest }))
    ∧ (FlumeAtWork s f p 3 w → Gives (.flumeSeta f) s fun t => HeadIs s t f.key
        { p with pc := p.pc + 1, last := p.pc, base := p.base.set (bits w 8 3) ((bits w 64 64 + (if w.testBit 11 then p.arg * 2 ^ bits w 12 5 else 0)) % 2 ^ 64) })
    ∧ (FlumeAtWork s f p 4 w → mSorted none p.stride = true → Gives (.flumeStride f) s fun t => ∃ st, HeadIs s t f.key { p with pc := p.pc + 1, last := p.pc, stride := st }
        ∧ ∀ n lv, n < 8 → lv < 8 → mget 0 st (8 * n + lv) = if n = bits w 8 3 ∧ lv = bits w 11 3 then bits w 32 32 else mget 0 p.stride (8 * n + lv))
    ∧ (FlumeAtWork s f p 5 w → Gives (.flumeMove f) s fun t => ∃ x, HeadIs s t f.key { p with pc := p.pc + 1, last := p.pc, xfers := p.xfers ++ [x], xIssued := p.xIssued + 1 }
        ∧ x = { gather := false, src := flumeAddr p (bits w 8 3), idx := 0, total := bits w 32 24, elem := 0, estride := 0, dkind := bits w 14 3
                dst := if bits w 14 3 = 0 then flumeAddr p (bits w 17 3) else 0, tile := bits w 20 6, quad := bits w 26 2, prof := bits w 28 3, pc := p.pc })
    ∧ (FlumeAtWork s f p 6 w → Gives (.flumeGather f) s fun t => ∃ x, HeadIs s t f.key { p with pc := p.pc + 1, last := p.pc, xfers := p.xfers ++ [x], xIssued := p.xIssued + 1 }
        ∧ x = { gather := true, src := flumeAddr p (bits w 8 3), idx := flumeAddr p (bits w 11 3), total := bits w 32 24 * bits w 64 16, elem := bits w 64 16
                estride := bits w 80 32, dkind := bits w 14 3, dst := if bits w 14 3 = 0 then flumeAddr p (bits w 17 3) else 0, tile := bits w 20 6
                quad := bits w 26 2, prof := bits w 28 3, pc := p.pc })
    ∧ (FlumeAtWork s f p 7 w → p.sigs = [] → p.xIssued = p.xDone → mSorted none s.runnels.signals = true → Gives (.flumeSignal f) s fun t =>
        headProg t f.key = some { p with pc := p.pc + 1, last := p.pc } ∧ (∀ j, j ≠ f.key → getProgs t j = getProgs s j)
        ∧ (∀ c r n, c < 1024 → r < 32 → n < 64 → p.op.ctx < 1024 → getSig t c r n
            = if c = p.op.ctx ∧ r = f.reach ∧ n = bits w 8 6 then (getSig s c r n + bits w 32 32) % 2 ^ 32 else getSig s c r n)
        ∧ t.mem = s.mem ∧ t.tiles = s.tiles ∧ t.regs = s.regs)
    ∧ (FlumeAtWork s f p 7 w → p.xDone < p.xIssued → (∀ g, p.sigs.head? = some g → p.xDone < g.1) → Gives (.flumeSignal f) s fun t =>
        HeadIs s t f.key { p with pc := p.pc + 1, last := p.pc, sigs := p.sigs ++ [(p.xIssued, bits w 8 6, bits w 32 32)] })
    ∧ (∀ thr, FlumeAtWork s f p 8 w →
        thr = BitVec.ofNat 32 (bits w 32 32 + if w.testBit 14 then ((p.loops.find? (fun l => l.1 == bits w 15 3)).map (fun l => l.2.2.1)).getD 0 else 0) →
        Gives (.flumeWait f) s fun t => HeadIs s t f.key
          (if 0 ≤ (BitVec.ofNat 32 (getSig s p.op.ctx f.reach (bits w 8 6)) - thr).toInt then { p with pc := p.pc + 1, last := p.pc, waitAt := none }
           else { p with waitAt := some (p.waitAt.getD (cyc s f.reach)) }))
    ∧ (FlumeAtWork s f p 9 w → Gives (.flumeShadow f) s fun t => HeadIs s t f.key
        (if w.testBit 11 then { p with pc := p.pc + 1, last := p.pc, aShadow := true } else { p with pc := p.pc + 1, last := p.pc, wShadow := some (flumeAddr p (bits w 8 3), bits w 32 32) }))
    ∧ (FlumeAtWork s f p 15 w → Gives (.flumeEnd f) s fun t => HeadIs s t f.key { p with ended := true, last := p.pc })

namespace Sys2Proof.Machine

/-- A requester that waits at a sluice is there: a rill held by one, or a program (R261). -/
def Requester (s : State) (q : Nat) : Prop :=
  (2 ^ 20 ≤ q ∧ q < 2 ^ 21 ∧ ∃ r, getRill s (q - 2 ^ 20) = some r ∧ r.wait = .sluice)
    ∨ (2 ^ 21 ≤ q ∧ getProgs s ((q - 2 ^ 21) % 2 ^ 20) ≠ [])

/-- The lanes of a tile's inputs are there. -/
def HasLane (t : Tile) (q : Nat) : Prop := q < t.wport.length ∧ q < t.sidecar.length ∧ q < t.feeders.length

end Sys2Proof.Machine

/-- At the head of its slot, with the sluices off, a program's words are read up to the first END: one that fails the checks completes with the status of R244
having done nothing, a valid one starts. A program whose END has executed and that has nothing outstanding, and with a shadow
declared no pass it fed unfinished, completes with 0
(R246); one that waits longer than the bound of FLUME_CFG stops with 0x1009, once what lies before is delivered, and FLUME_FAULT says where (R258).
With the sluices off, the next read of a MOVE takes the bytes up to the next 128-byte line, with their poison, into the program's
staging buffer, and a GATHER reads the index of its element first (R249, R251); an emit to memory writes up to the next line and changes no other byte; an emit to a tile input
gives it what it accepts, or holds (R245, R254, R256).
At a switched-on sluice the oldest waiting request passes in pieces of 128 bytes as the level, RATE a cycle up to BURST x 128 x 1,024,
covers them, and their bytes are taken; once the last has passed the request is admitted and a rill it held issues again; a request of
traffic that the model does not hold back (notes/assumptions 35) takes its tokens in its turn and leaves (R260, R261). -/
def Obligations.FlumeProgramsMoveBytes : Prop :=
  (∀ (s : State) (f : FlumeAt) (p : Prog), State.wf s = true → mSorted none s.flume.progs = true → headProg s f.key = some p → f.ok s = true →
    let words := (List.range 64).map (fun i => ofBytes (rdBytes s (p.addr + 16 * i) 16))
    (∀ n, SluicesOff s → p.started = false → (∀ c, cutAtEnd words = some c → n = 16 * c.length) → (cutAtEnd words = none → n = 1024) →
      flumeCheckRead s p.op.ctx f.reach p.addr n = (s, some 0) → poisonedIn s p.addr n = false →
      (words.all (fun w => w % 256 != 15) = true → Gives (.flumeProgramStart ⟨f, .none⟩) s fun t => ProgramEnds s t f.key 0x1001 p)
      ∧ (∀ c, cutAtEnd words = some c →
          (∃ m, m ≤ 64 ∧ c = words.take m ∧ ∀ i, i < m → ((words.getD i 0 % 256 = 15) ↔ i + 1 = m))
          ∧ (c.any (fun w => !(decide (w % 256 ≤ 9) || w % 256 == 15)) = true → Gives (.flumeProgramStart ⟨f, .none⟩) s fun t => ProgramEnds s t f.key 0x1001 p)
          ∧ (c.all (fun w => decide (w % 256 ≤ 9) || w % 256 == 15) = true → c.any (fun w => !flumeFieldsOk w) = true →
              Gives (.flumeProgramStart ⟨f, .none⟩) s fun t => ProgramEnds s t f.key 0x1002 p)
          ∧ (c.all (fun w => decide (w % 256 ≤ 9) || w % 256 == 15) = true → c.all flumeFieldsOk = true → flumeOrderOk c 0 false [] = false →
              Gives (.flumeProgramStart ⟨f, .none⟩) s fun t => ProgramEnds s t f.key 0x1003 p)
          ∧ (c.all (fun w => decide (w % 256 ≤ 9) || w % 256 == 15) = true → c.all flumeFieldsOk = true → flumeOrderOk c 0 false [] = true →
              Gives (.flumeProgramStart ⟨f, .none⟩) s fun t => headProg t f.key = some { p with started := true, tokens := false, code := c }
                ∧ (getProgs t f.key).drop 1 = (getProgs s f.key).drop 1 ∧ (∀ j, j ≠ f.key → getProgs t j = getProgs s j)
                ∧ t.mem = s.mem ∧ t.tiles = s.tiles ∧ t.runnels = s.runnels)))
    ∧ (p.ended = true → p.stopAt = none → p.xfers = [] → p.sigs = [] →
        ((p.aShadow = false ∧ p.wShadow = none) ∨ ∀ y ∈ p.fed, fedBusy s f.reach y = false) →
        getF s f.reach F.FLUME_PROGRAMS_COUNT f.engine < 2 ^ F.FLUME_PROGRAMS_COUNT.w - 1 → Gives (.flumeProgramComplete f) s fun t =>
        ProgramEnds s t f.key 0 p ∧ getF t f.reach F.FLUME_PROGRAMS_COUNT f.engine = getF s f.reach F.FLUME_PROGRAMS_COUNT f.engine + 1)
    ∧ (∀ c, p.waitAt = some c → p.stopAt = none → p.sigs = [] → p.fed = [] → p.pc < 64 → 0 < getF s f.reach F.FLUME_CFG_TIMEOUT → getF s f.reach F.FLUME_CFG_TIMEOUT < 15 →
        let late := 2 ^ (getF s f.reach F.FLUME_CFG_TIMEOUT + 12) < cyc s f.reach - c
        (late → p.xfers = [] →
          Gives (.flumeWaitTimeout f) s fun t => ProgramEnds s t f.key 0x1009 p ∧ getF t f.reach F.FLUME_FAULT_CODE f.engine = 0x1009
            ∧ getF t f.reach F.FLUME_FAULT_SLOT f.engine = f.slot ∧ getF t f.reach F.FLUME_FAULT_PC f.engine = p.pc
            ∧ getF t f.reach F.FLUME_FAULT_VALID f.engine = 1)
        ∧ (∀ x, late → p.xfers = [x] → x.em < x.total → x.held = none → Gives (.flumeWaitTimeout f) s fun t =>
            HeadIs s t f.key { p with tokens := false, waitAt := none, stopAt := some (0x1009, p.pc, 0) })
        ∧ (¬ late → (∀ x ∈ p.xfers, x.held = none) → exec (.flumeWaitTimeout f) s = .next s)))
    ∧ (∀ (s : State) (f : FlumeAt) (p : Prog) (x : Xfer), State.wf s = true → mSorted none s.flume.progs = true → headProg s f.key = some p → f.ok s = true →
    SluicesOff s → Uncounted s f.reach → p.stopAt = none →
    (∀ i, shadowDue s f.reach f.key = none → p.xfers.findIdx? (fun y => decide (y.rd < y.total)) = some i → p.xfers[i]? = some x →
      (x.dkind = 0 → x.dst % 4 = 0) →
      let reads (a n : Nat) : Prop := PlainAt s a ∧ flumeCheckRead s p.op.ctx f.reach a n = (s, some 0) ∧ writesLine s f.reach p (p.xfers.take i) a n = false
      let becomes (y : Xfer) (t : State) : Prop := headProg t f.key = some { p with tokens := false, xfers := p.xfers.set i y }
        ∧ (∀ j, j ≠ f.key → getProgs t j = getProgs s j) ∧ t.mem = s.mem ∧ t.tiles = s.tiles ∧ t.runnels = s.runnels
      (x.gather = false → x.src % 4 = 0 → x.total % 4 = 0 →
        let a := (x.src + x.rd) % 2 ^ 64
        let n := min (x.total - x.rd) (128 - a % 128)
        reads a n → p.staging + n ≤ 131072 →
        Gives (.flumeReadIssue f .none) s (becomes { x with rd := x.rd + n, staged := x.staged ++ rdPBytes s a n }))
      ∧ (x.gather = true → x.idx % 4 = 0 → x.elem % 4 = 0 → 0 < x.elem → x.ix = none →
        let a := (x.idx + 4 * (x.rd / x.elem)) % 2 ^ 64
        reads a 4 → poisonedIn s a 4 = false →
        Gives (.flumeReadIssue f .none) s (becomes { x with ix := some (ofBytes (rdBytes s a 4)) }))
      ∧ (∀ v, x.gather = true → x.idx % 4 = 0 → x.elem % 4 = 0 → 0 < x.elem → x.ix = some v → v ≠ 0xFFFFFFFF →
        let a := (x.src + v * x.estride + x.rd % x.elem) % 2 ^ 64
        let n := min (x.elem - x.rd % x.elem) (128 - a % 128)
        a % 4 = 0 → reads a n → p.staging + n ≤ 131072 →
        Gives (.flumeReadIssue f .none) s
          (becomes { x with rd := x.rd + n, staged := x.staged ++ rdPBytes s a n, ix := if (x.rd + n) % x.elem = 0 then none else some v })))
    ∧ (∀ a l, p.xfers = [x] → x.dkind = 0 → x.prof = 0 → x.em < x.total → x.staged ≠ [] → x.asked = 0 → p.sigs = [] → a = (x.dst + x.wr) % 2 ^ 64 →
        l = x.staged.take (128 - a % 128) → PlainAt s a → flumeCheckWrite s p.op.ctx a l.length = 0 → Gives (.flumeEmit ⟨f, .none⟩ 0) s fun t =>
        (∀ b, rdByte t b = if a ≤ b ∧ b < a + l.length then (l.getD (b - a) ⟨0, false⟩).b else rdByte s b)
        ∧ headProg t f.key = some (if x.total ≤ x.em + l.length then { p with xfers := [], xDone := p.xDone + 1 }
            else { p with xfers := [{ x with staged := x.staged.drop l.length, em := x.em + l.length, wr := x.wr + l.length }] })
        ∧ t.tiles = s.tiles ∧ t.runnels = s.runnels)
    ∧ (∀ k, p.xfers = [x] → x.dkind = k → 0 < k → k ≤ 3 → x.prof = 0 → x.em < x.total → x.staged ≠ [] → p.sigs = [] → p.wShadow = none → x.lane s f.reach = x.quad →
        let t0 := getTile s f.reach x.tile
        (∀ ps first n, tileAccept s f.reach x.tile k x.quad f.engine f.slot = some (ps, first, n) → Gives (.flumeEmit ⟨f, .none⟩ k) s fun t =>
            let m := min n (min 128 x.staged.length)
            (∃ q, headProg t f.key = some q ∧ (x.tile, ps.no, k) ∈ q.fed
              ∧ q.xfers = if x.total ≤ x.em + m then [] else [{ x with staged := x.staged.drop m, em := x.em + m, held := none }])
            ∧ (t0.flight = [] → HasLane t0 x.quad → laneBuf (getTile t f.reach x.tile) k x.quad = laneBuf t0 k x.quad ++ x.staged.take m)
            ∧ t.mem = s.mem ∧ t.regs = s.regs ∧ t.runnels = s.runnels)
        ∧ (tileAccept s f.reach x.tile k x.quad f.engine f.slot = none → Gives (.flumeEmit ⟨f, .none⟩ k) s fun t =>
            HeadIs s t f.key { p with xfers := [{ x with held := some (x.held.getD (cyc s f.reach)) }] })))
    ∧ (∀ (s : State) (i n q b left : Nat) (rest : List (Nat × Nat × Nat)), i < 60 → n < 16 → mSorted none s.flume.sluices = true → getA s i F.SLUICE_CFG_EN n = 1 →
    let x := getSluice s i n
    x.waiting = (q, b, left) :: rest → (q = 0 ∨ Requester s q) →
    let level := min (x.level + getA s i F.SLUICE_CFG_RATE n * (cyc s i - x.since)) (getA s i F.SLUICE_BURST_UNITS n * 128 * 1024)
    let pieces := min (left / 128) (level / (128 * 1024))
    let lv := level - pieces * (128 * 1024)
    let l := left - 128 * pieces
    Gives (.sluiceAdmit i n) s fun t =>
      (if l < 128 ∧ l * 1024 ≤ lv then
        getSluice t i n = { level := lv - l * 1024, since := cyc s i, waiting := rest, passed := if q = 0 then x.passed else x.passed ++ [(q, b)] }
          ∧ ∀ r, 2 ^ 20 ≤ q → q < 2 ^ 21 → getRill s (q - 2 ^ 20) = some r → getRill t (q - 2 ^ 20) = some { r with wait := if r.wait = .sluice then .none else r.wait }
       else getSluice t i n = { level := lv, since := cyc s i, waiting := (q, b, l) :: rest, passed := x.passed } ∧ t.runnels = s.runnels)
      ∧ (∀ j m, m < 16 → (j, m) ≠ (i, n) → getSluice t j m = getSluice s j m) ∧ t.mem = s.mem ∧ t.tiles = s.tiles)

/-! ## Collections, sweeps and searches (R304-R333) -/

namespace Sys2Proof.Machine

/-- No collection but number `no` differs, and of the search state nothing but the collections. -/
def CollsBut (s t : State) (no : Nat) : Prop :=
  (∀ n, n ≠ no → findColl t n = findColl s n) ∧ t.search = { s.search with colls := t.search.colls }

/-- No append or compaction of the command's pool arrived before it and is outstanding (R311). -/
def FirstOfPool (s : State) (c : Cmd) : Prop := ∀ y ∈ s.dqp.cmds, y.no < c.no → samePool y c = false

/-- The conditions R311 puts to an append. -/
def AppendOk (s : State) (c : Cmd) (x : Coll) : Prop :=
  let f := c.b 34 1
  let p := findPool x (c.b 36 4)
  let e := entryBytes x c
  f ≤ 15 ∧ 1 ≤ c.b 40 4 ∧ c.b 40 4 ≤ 65536 ∧ c.b 36 4 < x.poolsMax ∧ (f.testBit 0 = p.isNone) ∧ ((p.map (·.members.length)).getD 0) + c.b 40 4 ≤ 65536
    ∧ (f.testBit 3 = true → x.fullEn = true)
    ∧ (if f.testBit 1 then c.b 48 8 % 64 = 0 ∧ c.bufBytes = 0 ∧ stackRange s c.dom (c.b 48 8) (appendBytes x c) = true ∧ readStatus s (c.b 48 8) (appendBytes x c) = 0
       else c.b 48 8 = 0 ∧ c.bufBytes = appendBytes x c)
    ∧ (∀ i, i < c.b 40 4 →
        let k := slice (appendInput s x c) ((if f.testBit 0 then x.dim else 0) + i * e) 16
        le k 12 4 = 0 ∧ ∃ o l, findObj s c.nsid (le k 0 8) = some o ∧ o.storage = .host l)
    ∧ roStatus s = 0
    ∧ objRefusal s c.dom (appendParts s x (c.b 36 4) ((p.map (·.createIdx)).getD x.pools.length) ((p.map (·.members.length)).getD 0) (c.b 40 4) (f.testBit 3)) = none
    ∧ FirstOfPool s c

/-- The command's effect is there, and it ends with status 0: at once where no block that the device wrote waits outside the write
buffer, else once none does (R14, R78; notes/assumptions 41). `was` is what the collection was before it. -/
def StoredIn (t : State) (c : Cmd) (r0 r1 coll : Nat) (was : Option Coll) (P : State → Prop) : Prop :=
  ∃ x, P x ∧ t = (if x.flash.waits = [] then complete x c.no 0 r0 r1
    else updFlash x fun f => { f with late := f.late ++ [⟨c.no, 0, r0, r1, f.waitSeq, coll, was⟩] })

/-- The first `n` of a list of candidates in the order of R310. -/
def FirstOf (n : Nat) (l r : List Cand) : Prop :=
  ∃ o : List Cand, o.Perm l ∧ o.Pairwise (fun a b => candLt b a = false) ∧ r = o.take n

end Sys2Proof.Machine

/-- COLL_CREATE adds the collection its fields describe, without a pool, and registers its objects with media types 0x08 and 0x09 (R304);
COLL_DELETE waits for the sweeps of its collection and then removes it, its objects and the searches not yet in a sweep (R307);
COLL_STATS writes the record of R329 and with CLEAR takes the entries it returns from the repair queue. -/
def Obligations.CollectionsAreMadeAndDeleted : Prop :=
  ∀ (s : State) (id : CmdId) (c : Cmd),
    (let dim := c.b 34 2
     Runs s id c 0x80 [(32, 28)] → c.b 32 2 ≤ 4095 → 64 ≤ dim → dim ≤ 4096 → dim % 64 = 0 → 1 ≤ c.b 36 1 → c.b 36 1 ≤ 16 → c.b 37 1 ≤ 3 →
      16 ≤ c.b 38 2 → c.b 38 2 ≤ 4096 → 1 ≤ c.b 56 4 → c.b 56 4 ≤ 16777216 → c.bufBytes = 8 * dim → findColl s (c.b 32 2) = none →
      idOk (c.b 40 8) = true → idFree s c.nsid (c.b 40 8) = true →
      (if (c.b 37 1).testBit 0 then idOk (c.b 48 8) = true ∧ idFree s c.nsid (c.b 48 8) = true ∧ c.b 48 8 ≠ c.b 40 8 else c.b 48 8 = 0) →
      (∀ d, d < dim → isFinite (le c.data (4 * d) 4) = true ∧ isFinite (le c.data (4 * dim + 4 * d) 4) = true
        ∧ (le c.data (4 * dim + 4 * d) 4).testBit 31 = false ∧ le c.data (4 * dim + 4 * d) 4 ≠ 0) →
      let k : Coll := { no := c.b 32 2, nsid := c.nsid, dim := dim, w := c.b 36 1, fullEn := (c.b 37 1).testBit 0, fullFmt := c.b 37 1 / 2 % 2, budget := c.b 38 2
                        obj := c.b 40 8, fullId := c.b 48 8, poolsMax := c.b 56 4, offs := (List.range dim).map (fun d => le c.data (4 * d) 4)
                        steps := (List.range dim).map (fun d => le c.data (4 * dim + 4 * d) 4), pools := [], nodes := [], entries := [], stale := 0
                        nextCompact := 1, last := [], deleting := 0 }
      s.search.objs.length + 2 ≤ 2 ^ 32 → roStatus s = 0 → objRefusal s c.dom [(collObj s k, 0, 4096 + 8 * dim)] = none →
      Gives (.collCreate id) s fun t => StoredIn t c 0 0 (c.b 32 2) none fun x =>
        findColl x (c.b 32 2) = some k ∧ x.search.colls.Perm (k :: s.search.colls)
        ∧ (∃ o, findObj x c.nsid (c.b 40 8) = some o ∧ o.mtype = 8)
        ∧ ((c.b 37 1).testBit 0 = true → ∃ o, findObj x c.nsid (c.b 48 8) = some o ∧ o.mtype = 9) ∧ (∀ o ∈ s.search.objs, o ∈ x.search.objs)
        ∧ x.mem = s.mem)
    ∧ (∀ x, Runs s id c 0x81 [(32, 2)] → findColl s (c.b 32 2) = some x → x.nsid = c.nsid → x.deleting = 0 → findCmd s c.no = some c → c.no ≠ 0 →
      (∀ f ∈ s.mem.fetches, ¬ (f.nsid = x.nsid ∧ (f.obj = x.obj ∨ f.obj = x.fullId))) →
      ((∀ w ∈ s.search.sweeps, w.coll ≠ x.no) → Gives (.collDelete id) s fun t =>
        findColl t x.no = none ∧ (∀ n, n ≠ x.no → findColl t n = findColl s n) ∧ findObj t x.nsid x.obj = none ∧ (x.fullEn = true → findObj t x.nsid x.fullId = none)
          ∧ (∀ q ∈ t.search.queries, q.coll = x.no → q.phase ≠ .content ∧ q.phase ≠ .embed ∧ q.phase ≠ .queued) ∧ findCmd t c.no = none)
      ∧ ((∃ w ∈ s.search.sweeps, w.coll = x.no) → exec (.collDelete id) s
          = .next (updColl (markStarted s c.no) x.no (fun x => { x with deleting := c.no }))))
    ∧ (∀ x, Runs s id c 0x87 [(32, 3)] → findColl s (c.b 32 2) = some x → x.nsid = c.nsid → c.b 34 1 ≤ 1 → 64 ≤ c.bufBytes →
      let mine := s.search.repairs.filter (fun r => r.1 == x.no)
      let out := mine.take (min 256 ((c.bufBytes - 64) / 8))
      Gives (.collStats id) s fun t => EndsIn t c 0 0 0 fun y => ∃ z, z = toHost (markStarted s c.no) c
          (toBytes 8 ((x.pools.map (·.members.length)).foldl (· + ·) 0) ++ toBytes 4 x.pools.length ++ toBytes 4 (x.nodes.filter (·.valid)).length
            ++ toBytes 4 x.stale ++ toBytes 4 (x.pools.filter (·.damaged)).length
            ++ toBytes 4 (s.search.tombs.filter (fun t => t.pools.any (fun p => p.1 == x.no))).length ++ toBytes 4 mine.length ++ toBytes 4 out.length
            ++ toBytes 28 0 ++ (out.map (fun r => toBytes 4 r.2 ++ toBytes 4 0)).flatten)
        ∧ y = (if c.b 34 1 = 1 then { z with search := { z.search with repairs := s.search.repairs.filter (fun r => !out.contains r) } } else z))

/-- POOL_APPEND, first of its pool's commands, adds its entries behind a pool's members, making the pool around its centroid when it is new; R2 and R1 cover the new
members; the completion carries the first new index and the new COUNT (R311, R312). POOL_COMPACT keeps the members neither
tombstoned nor unreadable, in order, and the nodes follow them or become invalid (R313).
BRAID_REPAIR writes a node from its member with the targets' generations, removes one, or replaces the entry nodes, each with the
node's generation counted on; another collection does not change (R316). -/
def Obligations.PoolsGrowAndTheBraidIsRepaired : Prop :=
  (∀ (s : State) (id : CmdId) (c : Cmd) (x : Coll), findColl s (c.b 32 2) = some x → x.nsid = c.nsid →
    (Runs s id c 0x82 [(32, 3), (36, 8), (48, 8)] → AppendOk s c x →
      let old := ((findPool x (c.b 36 4)).map (·.members)).getD []
      let new := appendEntries x c (appendInput s x c)
      ∀ bad fixed : List Nat, ((c.b 34 1).testBit 1 = true → bad = [] ∧ fixed = []) →
      Gives (.poolAppend ⟨id, bad, fixed⟩) s fun t => StoredIn t c old.length (old.length + c.b 40 4) x.no (some x) fun y =>
        (∃ k p, findColl y x.no = some k ∧ findPool k (c.b 36 4) = some p ∧ p.members = old ++ new
          ∧ (∀ q, findPool x (c.b 36 4) = some q → p = { q with members := p.members, r2 := max q.r2 (boundsOf q.centroid new).1, r1 := max q.r1 (boundsOf q.centroid new).2 })
          ∧ (findPool x (c.b 36 4) = none → p.centroid = (appendInput s x c).take x.dim ∧ p.createIdx = x.pools.length
            ∧ (p.r2, p.r1) = boundsOf p.centroid new)
          ∧ (∀ n, n ≠ c.b 36 4 → findPool k n = findPool x n) ∧ k.nodes = x.nodes)
        ∧ (∀ n, n ≠ x.no → findColl y n = findColl s n) ∧ y.mem = s.mem)
    ∧ (∀ p, Runs s id c 0x85 [(32, 2), (36, 4)] → FirstOfPool s c → findPool x (c.b 36 4) = some p →
      let keep := p.members.zipIdx.filter (fun m => !tombed s x.nsid m.1.obj && !p.unread.contains m.2)
      Gives (.poolCompact id) s fun t => StoredIn t c (p.members.length - keep.length) keep.length x.no (some x) fun y =>
        (∃ k q, findColl y x.no = some k ∧ findPool k (c.b 36 4) = some q ∧ q.members = keep.map (·.1) ∧ q.centroid = p.centroid ∧ q.damaged = false
          ∧ q.unread = [] ∧ (q.r2, q.r1) = boundsOf p.centroid q.members
          ∧ k.nodes.length = x.nodes.length
          ∧ (∀ (i : Nat) (n : Node), x.nodes[i]? = some n → k.nodes[i]? = some (if n.valid = true ∧ n.pool = c.b 36 4 then
              (match (keep.map (·.2)).idxOf? n.member with | some j => { n with member := j } | none => { n with valid := false, gen := (n.gen + 1) % 65536 }) else n)))
        ∧ (∀ n, n ≠ x.no → findColl y n = findColl s n) ∧ y.mem = s.mem))
    ∧ (∀ (s : State) (id : CmdId) (c : Cmd) (x : Coll), findColl s (c.b 32 2) = some x → x.nsid = c.nsid →
    (∀ p m, Runs s id c 0x86 [(32, 3)] → c.b 34 1 = 0 → 16 ≤ c.bufBytes →
      let no := le c.data 0 4
      let dest := (List.range (le c.data 12 1)).map (fun i => le c.data (16 + 4 * i) 4)
      le c.data 12 1 ≤ 16 → c.bufBytes = 16 + 4 * le c.data 12 1 → le c.data 13 3 = 0 → no < 16 * x.poolsMax → findPool x (le c.data 4 4) = some p →
      p.members[le c.data 8 4]? = some m → tombed s x.nsid m.obj = false → (∀ n ∈ dest, n ≠ no ∧ ∃ y, findNode x.nodes n = some y ∧ y.valid = true) →
      objRefusal s c.dom (nodeParts s x no) = none →
      Gives (.braidSetNode id) s fun t => StoredIn t c 0 0 x.no (some x) fun y => CollsBut s y x.no ∧ ∃ k, findColl y x.no = some k ∧ k = { x with nodes := k.nodes }
        ∧ findNode k.nodes no = some { no := no, gen := ((((findNode x.nodes no).map (·.gen)).getD 0) + 1) % 65536, valid := true, pool := le c.data 4 4
                                       member := le c.data 8 4, obj := m.obj, item := m.item, codes := m.codes
                                       edges := dest.map (fun n => (n, ((findNode x.nodes n).map (·.gen)).getD 0)) }
        ∧ (∀ n, n ≠ no → ∀ y, findNode x.nodes n = some y → y ∈ k.nodes))
    ∧ (Runs s id c 0x86 [(32, 3)] → c.b 34 1 = 1 → c.bufBytes = 4 → le c.data 0 4 < 16 * x.poolsMax →
      objRefusal s c.dom (nodeParts s x (le c.data 0 4)) = none →
      Gives (.braidRemoveNode id) s fun t => StoredIn t c 0 0 x.no (some x) fun y => CollsBut s y x.no ∧ ∃ k, findColl y x.no = some k ∧ k = { x with nodes := k.nodes }
        ∧ (∀ n, findNode x.nodes (le c.data 0 4) = some n → findNode k.nodes (le c.data 0 4) = some { n with valid := false, gen := (n.gen + 1) % 65536 })
        ∧ (findNode x.nodes (le c.data 0 4) = none → ∃ n, findNode k.nodes (le c.data 0 4) = some n ∧ n.valid = false ∧ n.gen = 1)
        ∧ (∀ n, n ≠ le c.data 0 4 → findNode k.nodes n = findNode x.nodes n))
    ∧ (let n := le c.data 0 4
       let es := (List.range n).map (fun i => le c.data (4 + 4 * i) 4)
       Runs s id c 0x86 [(32, 3)] → c.b 34 1 = 2 → 1 ≤ n → n ≤ 16 → c.bufBytes = 4 + 4 * n → (∀ i ∈ es, ∃ y, findNode x.nodes i = some y ∧ y.valid = true) →
      Gives (.braidSetEntries id) s fun t => EndsIn t c 0 0 0 fun y => CollsBut s y x.no ∧ findColl y x.no = some { x with entries := es }))

/-- The bound of a pool never exceeds the distance of one of its members: where R2 and R1 cover the members, LB of R314 is at most DIST
of R309 for every member, whatever the query's codes; and a query that does not yet know k' candidates needs every pool (R321). -/
def Obligations.PoolBoundsAreSound : Prop :=
  ∀ (metric : Nat) (a : List Byte) (p : Pool), metric < 3 → a.length = p.centroid.length → (boundsOf p.centroid p.members).1 ≤ p.r2 →
    (boundsOf p.centroid p.members).2 ≤ p.r1 →
    (∀ m ∈ p.members, m.codes.length = a.length → ∀ l, lowerBound metric a p = some l → l ≤ distOf metric a m.codes)
    ∧ (∀ q : Query, q.codes = a → 0 < q.depth → q.known.length < q.depth → needsPool metric q p = true)
    ∧ (∀ q : Query, q.codes = a → 0 < q.depth → q.known.Pairwise (fun a b => candLt b a = false) → needsPool metric q p = false →
        ∀ m ∈ p.members, m.codes.length = a.length → ∀ k ∈ q.known.take q.depth, k.dist < distOf metric a m.codes)

/-- A search that meets its conditions waits for a sweep with the codes, the depth and the terms its fields give: SEARCH_VECTOR at once,
SEARCH_CONTENT behind the decode and the embedding of its content (R323, R324, R326).
SWEEP_START takes the queries that wait, in acceptance order while their depths fit, into one sweep over a snapshot of the collection's
pools, braid and tombstones; with no entry nodes its pools are ordered by number (R317-R319, R322). No other query changes. -/
def Obligations.SearchesAndSnapshots : Prop :=
  (∀ (s : State) (id : CmdId) (c : Cmd) (x : Coll), findColl s (c.b 32 2) = some x → x.nsid = c.nsid →
    let nt := c.b 35 1
    let room := 32 + c.b 36 2 * (16 + 4 * ((c.b 34 1 / 4) % 2) + 4 * popCount (c.b 38 2) 16)
    let depth := if (c.b 34 1).testBit 3 ∨ (c.b 34 1).testBit 2 then min (c.b 36 2 * x.w) 10000 else c.b 36 2
    (let n := if (c.b 34 1).testBit 4 then x.dim else 4 * x.dim
     Runs s id c 0x83 [(32, 24)] → (∀ y ∈ searchConds s c false, y = 0) → max (n + 16 * nt) room ≤ c.bufBytes →
      (∀ y ∈ termsOf (c.data.drop n) nt, termBad y = false) →
      Gives (.searchVector id) s fun t => ∃ q : Query, t = { markStarted s c.no with search := { s.search with queries := s.search.queries ++ [q], nextQuery := s.search.nextQuery + 1 } }
        ∧ q.id = s.search.nextQuery ∧ q.no = c.no ∧ q.coll = x.no ∧ q.metric = c.b 34 1 % 4 ∧ q.k = c.b 36 2 ∧ q.depth = depth ∧ q.phase = .queued
        ∧ q.codes = (if (c.b 34 1).testBit 4 then c.data.take x.dim else x.encode (c.data.take (4 * x.dim)))
        ∧ q.filter = (c.b 34 1).testBit 3 ∧ q.rerank = (c.b 34 1).testBit 2 ∧ q.attrMask = c.b 38 2 ∧ q.known = [] ∧ q.widened = false)
    ∧ (Runs s id c 0x84 [(32, 36), (68, 1), (72, 16), (96, 26), (124, 4)] → (∀ y ∈ searchConds s c true ++ decodeConds s c 96 (c.b 68 1) true, y = 0) → c.b 68 1 ≤ 5 →
      c.b 56 8 = 0 → 1 ≤ c.b 64 4 → c.b 64 4 ≤ 2 ^ 24 → c.b 72 8 % 8 = 0 → c.b 80 8 % 64 = 0 → max (16 * nt + c.b 64 4) room ≤ c.bufBytes →
      (∀ y ∈ termsOf c.data nt, termBad y = false) → entryOk s c.dom (c.b 72 8) = true → stackRange s c.dom (c.b 80 8) (4 * x.dim) = true →
      Gives (.searchContent id) s fun t => ∃ q d, t = { markStarted s c.no with
            search := { s.search with queries := s.search.queries ++ [q], nextQuery := s.search.nextQuery + 1 }
            media := { s.media with decodes := s.media.decodes ++ [d] } }
        ∧ q.id = s.search.nextQuery ∧ q.no = c.no ∧ q.coll = x.no ∧ q.k = c.b 36 2 ∧ q.depth = depth ∧ q.phase = .content ∧ q.embedEntry = c.b 72 8
        ∧ q.embedAddr = c.b 80 8 ∧ d.query = q.id ∧ d.mtype = c.b 68 1 ∧ d.content = slice c.data (16 * nt) (c.b 64 4) ∧ d.dest = c.b (96 + 8) 8))
    ∧ (∀ (s : State) (no metric : Nat) (c : Coll), findColl s no = some c → c.deleting = 0 → working s = true → s.search.sweeps.length < getF s 57 F.SRCH_CFG_SWEEPS_MAX →
    let qs := takeQueries (s.search.queries.filter (fun q => q.coll == no && q.metric == metric && q.phase == .queued))
      (getF s 57 F.SRCH_CFG_SWEEP_MAX) (1048576 - heapUsed s)
    ∀ unbound lost : List Nat, qs ≠ [] → Gives (.sweepStart no ⟨metric, unbound, lost⟩) s fun t => ∃ w, t.search.sweeps = s.search.sweeps ++ [w] ∧ w.seq = s.search.nextSweep ∧ t.search.nextSweep = w.seq + 1
      ∧ w.coll = no ∧ w.metric = metric ∧ w.queries = qs.map (·.id) ∧ w.pools = c.pools ∧ w.nodes = c.nodes ∧ w.entries = c.entries ∧ w.active = [] ∧ w.unbound = unbound ∧ w.lost = lost
      ∧ w.tombs = (s.search.tombs.filter (fun t => t.nsid == c.nsid)).map (·.id)
      ∧ (w.order.map (·.1)).Perm (c.pools.map (·.no)) ∧ (c.entries = [] → c.pools.Pairwise (fun a b => a.no < b.no) → w.order = c.pools.map (fun p => (p.no, 0)))
      ∧ (∀ q ∈ t.search.queries, q.id ∈ w.queries → q.phase = .swept ∧ q.sweep = w.seq) ∧ (∀ i, i ∉ w.queries → findQuery t i = findQuery s i)
      ∧ qs.length ≤ getF s 57 F.SRCH_CFG_SWEEP_MAX ∧ (qs.map (·.depth)).sum ≤ 1048576 - heapUsed s ∧ t.mem = s.mem)

namespace Sys2Proof.Machine

/-- No pool at the sieves but pool `p` of one sweep is with a unit. -/
def OnlyPool (s : State) (sweep isl unit : Nat) : Prop :=
  ∀ v ∈ s.search.sweeps, v.seq ≠ sweep → ∀ a ∈ v.active, a.2.1 = isl → unit ∉ a.2.2.1

end Sys2Proof.Machine

/-- POOL_DISPATCH sends the next pool of the order, if some query needs it, to units of its island in service that have a place for it,
and counts it read for those queries and skipped for the
others; a pool no query needs is skipped; one another island serves keeps its turn (R320-R322, R333). SIEVE_POOL_DONE gives each query that needed it the first k' live members
of the pool in the order of R310; a residue mismatch sends the unit to TESTING and the pool back once, an uncorrectable heap word fails
the queries whose heaps held it, and a pool whose members could not be read is damaged and fails the queries that needed it (R320, R330, R422).
SWEEP_COMPLETE with every pool done ends the sweep: a query that failed completes with its status; one without rerank has the candidates its predicate
rejects removed, and either joins a later sweep once with depth min(k' x W, 10,000), or its first k are written with the header of
R328 and it completes with 0, or with 1 and FILTERED where fewer than k are left (R326, R328). One query here; no delete waits. -/
def Obligations.SweepsSearchAndAnswer : Prop :=
  (∀ (s : State) (sweep isl : Nat) (units : List Nat) (w : Sweep) (p : Pool), (isl = 50 ∨ isl = 54) → findSweep s sweep = some w → State.wf s = true →
    w.pools.find? (fun y => y.no == p.no) = some p →
    (∀ rest, w.order = (p.no, 0) :: rest → p.damaged = false →
      (∀ c d, findColl s w.coll = some c → findPool c p.no = some d → d.damaged = false) →
      let need := needing s w p
      (poolIsland s p ≠ isl → exec (.poolDispatch sweep isl units) s = .next s)
      ∧ (poolIsland s p = isl → unitsReady s isl units = true → need ≠ [] → w.queries.Nodup → Gives (.poolDispatch sweep isl units) s fun t =>
        findSweep t sweep = some { w with order := rest, active := w.active ++ [(p.no, isl, units, need, 0)] }
          ∧ (∀ i q, i ∈ w.queries → findQuery s i = some q →
              findQuery t i = some (if i ∈ need then { q with read := q.read + 1 } else { q with skipped := q.skipped + 1 }))
          ∧ (∀ i, i ∉ w.queries → findQuery t i = findQuery s i) ∧ t.mem = s.mem)
      ∧ (poolIsland s p = isl → need = [] → getF s 57 F.SRCH_POOLS_SKIPPED_COUNT < 2 ^ F.SRCH_POOLS_SKIPPED_COUNT.w - 1 → Gives (.poolDispatch sweep isl units) s fun t =>
          findSweep t sweep = some { w with order := rest } ∧ getF t 57 F.SRCH_POOLS_SKIPPED_COUNT = getF s 57 F.SRCH_POOLS_SKIPPED_COUNT + 1
          ∧ RegsBut s t [fieldKey 57 F.SRCH_POOLS_SKIPPED_COUNT 0 0] ∧ t.mem = s.mem))
    ∧ (∀ a, w.active.find? (fun x => x.1 == p.no) = some a → a.2.2.2.1.Nodup →
      (∀ x ∈ w.active.takeWhile (fun x => x.1 != p.no), x.2.1 = a.2.1 → ∀ u ∈ x.2.2.1, u ∉ a.2.2.1) →
      Gives (.sievePoolDone sweep p.no .none) s fun t => findSweep t sweep = some { w with active := w.active.erase a }
        ∧ (∀ i q, i ∈ a.2.2.2.1 → findQuery s i = some q → ∃ r, findQuery t i = some r ∧ r = { q with known := r.known })
        ∧ (∀ i, i ∉ a.2.2.2.1 → findQuery t i = findQuery s i) ∧ t.mem = s.mem)
    ∧ (∀ need miss unit, w.active = [(p.no, isl, units, need, miss)] → need.Nodup → unit ∈ units → unit < 64 → OnlyPool s sweep isl unit →
      let best (q : Query) (r : List Cand) : Prop := FirstOf q.depth ((p.members.zipIdx.filter (fun m => !w.tombs.contains m.1.obj)).map
                (fun m => (⟨distOf w.metric q.codes m.1.codes, m.1.obj, m.1.item, p.no, m.2⟩ : Cand))) r
      (Gives (.sievePoolDone sweep p.no .none) s fun t => findSweep t sweep = some { w with active := [] }
        ∧ (∀ i q, i ∈ need → findQuery s i = some q → q.known = [] → ∃ r, findQuery t i = some r ∧ r = { q with known := r.known } ∧ best q r.known)
        ∧ (∀ i, i ∉ need → findQuery t i = findQuery s i) ∧ t.mem = s.mem)
      ∧ (Gives (.sievePoolDone sweep p.no (.residue unit)) s fun t =>
        sieveState t isl unit = 3 ∧ getF t isl F.SIEVE_FAULT_CODE = 0x4002 ∧ getF t isl F.SIEVE_FAULT_UNIT = unit ∧ getF t isl F.SIEVE_FAULT_VALID = 1
          ∧ (miss = 0 → findSweep t sweep = some { w with active := [], order := (p.no, 1) :: w.order } ∧ t.search.queries = s.search.queries)
          ∧ (miss ≠ 0 → findSweep t sweep = some { w with active := [] }
              ∧ ∀ i q, i ∈ need → findQuery s i = some q → findQuery t i = some (if q.fail = 0 then { q with fail := 0x4002 } else q)))
      ∧ (∀ qs, w.queries.Nodup → Gives (.sievePoolDone sweep p.no (.heap unit qs)) s fun t =>
        sieveState t isl unit = 3 ∧ getF t isl F.SIEVE_FAULT_CODE = 0x4001 ∧ findSweep t sweep = some { w with active := [] }
          ∧ ∀ i q, i ∈ w.queries → i ∈ need → findQuery s i = some q → q.fail = 0 → q.known = [] →
              ∃ r, findQuery t i = some r ∧ r = { q with known := r.known, fail := if i ∈ qs then 0x4001 else 0 } ∧ best q r.known)
      ∧ (∀ ms c, findColl s w.coll = some c → findPool c p.no = some p → Gives (.sievePoolDone sweep p.no (.unread unit ms)) s fun t =>
        sieveState t isl unit = sieveState s isl unit ∧ getF t isl F.SIEVE_FAULT_CODE = 0x3001 ∧ findSweep t sweep = some { w with active := [] }
          ∧ (∃ k d, findColl t w.coll = some k ∧ findPool k p.no = some d ∧ d.damaged = true ∧ d.members = p.members ∧ ∀ m, m ∈ d.unread ↔ m ∈ p.unread ∨ m ∈ ms)
          ∧ ∀ i q, i ∈ need → findQuery s i = some q → findQuery t i = some (if q.fail = 0 then { q with fail := 0x3001 } else q))))
    ∧ (∀ (s : State) (sweep : Nat) (w : Sweep), findSweep s sweep = some w → w.order = [] → w.active = [] →
      Gives (.sweepComplete sweep) s fun t => findSweep t sweep = none)
    ∧ (∀ (s : State) (sweep : Nat) (w : Sweep) (q : Query) (x : Coll) (c : Cmd), findSweep s sweep = some w → w.order = [] → w.active = [] → w.queries = [q.id] →
    findQuery s q.id = some q → findColl s w.coll = some x → q.coll = w.coll → x.deleting = 0 → s.search.deletes = [] → findCmd s q.no = some c →
    q.rerank = false → q.risal = false →
    let s0 := addF { s with search := { s.search with sweeps := s.search.sweeps.filter (fun y => y.seq != sweep) } } 57 F.SRCH_SWEEPS_COUNT 1
    let all := q.known.map (fun k => (k, attrsOf s x.nsid k.obj))
    let kept := if q.filter then all.filter (fun r => predHolds r.2 q.terms none) else all
    let gone := all.length - kept.length
    let wide := min (q.depth * x.w) 10000
    let rows := kept.take q.k
    (q.fail ≠ 0 → exec (.sweepComplete sweep) s = .next (endQuery s0 q q.fail 0 0 q.failDetail))
    ∧ (q.fail = 0 → q.filter = true → kept.length < q.k → q.depth < wide → q.widened = false → Gives (.sweepComplete sweep) s fun t =>
        (∃ r, findQuery t q.id = some r ∧ r.phase = .queued ∧ r.depth = wide ∧ r.widened = true ∧ r.known = [] ∧ r.no = q.no ∧ r.k = q.k ∧ r.codes = q.codes)
          ∧ t.dqp = s.dqp ∧ t.mem = s.mem)
    ∧ (q.fail = 0 → (q.filter = false ∨ q.k ≤ kept.length ∨ wide ≤ q.depth ∨ q.widened = true) → exec (.sweepComplete sweep) s = .next
        (endQuery (toHost s0 c
            (toBytes 4 rows.length ++ toBytes 4 gone ++ toBytes 4 q.depth ++ toBytes 4 q.read ++ toBytes 4 q.skipped ++ toBytes 4 (b2n q.widened)
              ++ toBytes 4 q.sweep ++ toBytes 4 0
              ++ (rows.map (fun r => toBytes 8 r.1.obj ++ toBytes 4 r.1.item ++ toBytes 4 (wrap 32 r.1.dist)
                  ++ ((bitList q.attrMask 16).map (fun f => toBytes 4 (r.2.getD f 0))).flatten)).flatten))
          { q with result := kept, filtered := gone } (if rows.length < q.k then 1 else 0) rows.length gone (if rows.length < q.k then gone else 0))))

/-! ## Media and Risal commands (R92-R97, R336-R347) -/

/-- Sieve and media units: a self-test of a unit in TESTING leaves its result in BIST_FAIL; a DRAINING unit without work goes OFFLINE, one
with work stays; a JOINING unit goes ONLINE after 64 pools, or 16 decodes, without fault, and not before (R330, R347).
MEDIA_DECODE of a host-stored object waits as its fields say; DECODE_START gives the first decode of its kind that waits the first
free decoder of its kind in service, and one that needs no decoder none, its content, read as READ reads it, and its profile, or ends it with 0x3001 where its content cannot be
had; at DECODE_COMPLETE exactly the bytes decoded stand at the destination, whole frames in
order each the resize of R340, and the command completes with the count, the bytes and the status of R339. -/
def Obligations.UnitsOfMediaAndDecodes : Prop :=
  (∀ (s : State) (isl u : Nat), State.wf s = true → isl < 60 → u < 64 →
    (∀ failed, (isl = 50 ∨ isl = 54) → sieveEnabled s isl u = true → sieveState s isl u = 3 → Gives (.sieveSelfTestDone isl u failed) s fun t =>
        getF t isl F.SIEVE_USTATE_BIST_FAIL u = b2n failed ∧ sieveState t isl u = 3 ∧ RegsBut s t [fieldKey isl F.SIEVE_USTATE_BIST_FAIL u 0] ∧ t.search = s.search)
    ∧ ((isl = 50 ∨ isl = 54) → sieveEnabled s isl u = true → sieveState s isl u = 1 →
        (sieveBusy s isl u = false → Gives (.sieveDrainComplete isl u) s fun t =>
          sieveState t isl u = 2 ∧ RegsBut s t [fieldKey isl F.SIEVE_USTATE_STATE u 0] ∧ UnitMoves s t)
        ∧ (sieveBusy s isl u = true → exec (.sieveDrainComplete isl u) s = .next s))
    ∧ ((isl = 50 ∨ isl = 54) → sieveState s isl u = 4 →
        (64 ≤ mget 0 s.media.sieveJoin (isl * 64 + u) → Gives (.sieveJoinCountReached isl u) s fun t =>
          sieveState t isl u = 0 ∧ RegsBut s t [fieldKey isl F.SIEVE_USTATE_STATE u 0] ∧ UnitMoves s t)
        ∧ (mget 0 s.media.sieveJoin (isl * 64 + u) < 64 → exec (.sieveJoinCountReached isl u) s = .next s))
    ∧ (∀ failed, mediaEnabled s isl u = true → mediaState s isl u = 3 → Gives (.mediaSelfTestDone isl u failed) s fun t =>
        getF t isl F.MEDIA_USTATE_BIST_FAIL u = b2n failed ∧ mediaState t isl u = 3 ∧ RegsBut s t [fieldKey isl F.MEDIA_USTATE_BIST_FAIL u 0] ∧ t.search = s.search)
    ∧ (mediaEnabled s isl u = true → mediaState s isl u = 1 →
        (mediaBusy s isl u = false → Gives (.mediaDrainComplete isl u) s fun t =>
          mediaState t isl u = 2 ∧ RegsBut s t [fieldKey isl F.MEDIA_USTATE_STATE u 0] ∧ UnitMoves s t)
        ∧ (mediaBusy s isl u = true → exec (.mediaDrainComplete isl u) s = .next s))
    ∧ (mediaEnabled s isl u = true → mediaState s isl u = 4 →
        (16 ≤ mget 0 s.media.joinCount (isl * 16 + u) → Gives (.mediaJoinCountReached isl u) s fun t =>
          mediaState t isl u = 0 ∧ RegsBut s t [fieldKey isl F.MEDIA_USTATE_STATE u 0] ∧ UnitMoves s t)
        ∧ (mget 0 s.media.joinCount (isl * 16 + u) < 16 → exec (.mediaJoinCountReached isl u) s = .next s)))
    ∧ (∀ (s : State) (id : CmdId) (c : Cmd) (n : Nat) (d : Decode), State.wf s = true →
    (∀ o l, Runs s id c 0x67 [(32, 26), (60, 4)] → findObj s c.nsid (c.b 32 8) = some o → o.storage = .host l → o.id = c.b 32 8 → o.quarantined = false →
      (∀ y ∈ decodeConds s c 32 o.mtype false, y = 0) → Gives (.mediaDecode id) s fun t => ∃ x : Decode,
        t = { markStarted s c.no with media := { s.media with decodes := s.media.decodes ++ [x] } }
          ∧ x.no = c.no ∧ x.query = 0 ∧ x.risal = false ∧ x.obj = o.id ∧ x.mtype = o.mtype ∧ x.dest = c.b 40 8 ∧ x.first = c.b 48 4 ∧ x.frames = c.b 52 2
          ∧ x.step = c.b 54 2 ∧ x.profile = c.b 56 1 ∧ x.wrap = c.b 57 1 % 4 ∧ x.destBytes = 1024 * c.b 60 4 ∧ x.unit = none)
    ∧ (∀ u outs, s.media.decodes[n]? = some d → d.unit = none → working s = true → getF s 56 F.DQP_STATUS_PSTATE = 0 →
      (coded d.mtype = true → mediaIn s d.island 12 = true
        ∧ (∀ x ∈ s.media.decodes.take n, x.unit = none → coded x.mtype = true → x.island = d.island → ¬ (x.mtype = 1 ↔ d.mtype = 1))
        ∧ (decodersFor d.mtype).find? (fun u => mediaIn s d.island u && !mediaBusy s d.island u) = some u) →
      (coded d.mtype = false → u = 13) →
      let begun (b : List Byte) : Media := { s.media with
        decodes := updAt s.media.decodes n (fun _ => { d with unit := some u, captured := profileNow s d.island d.profile, content := b }) }
      (d.obj = 0 → exec (.decodeStart ⟨n, outs⟩) s = .next { s with media := begun d.content })
      ∧ (∀ o, d.obj ≠ 0 → findObj s d.nsid d.obj = some o →
        let r := noteRo (unitReads s (unitsIn o 0 o.size) outs)
        (∀ b, objBytes r o 0 o.size = some b → Gives (.decodeStart ⟨n, outs⟩) s fun t => t.media = begun b ∧ t.tiles = s.tiles)
        ∧ (objBytes r o 0 o.size = none → d.query = 0 → d.risal = false → Gives (.decodeStart ⟨n, outs⟩) s fun t =>
            ∃ x, t = complete x d.no 0x3001 0 0 0 ∧ x.media.decodes = s.media.decodes.eraseIdx n)))
    ∧ (∀ fault : FrameUpset, s.media.decodes[n]? = some d → d.unit.isSome = true → d.query = 0 → d.risal = false →
      let up : Option Nat := match fault with | .hit k => some k | _ => none
      let e := decodeRun s d up
      let sound := ∀ n, extPoisoned s d.dest n = false
      (Gives (.decodeComplete n fault) s fun t => ∃ x, t = complete x d.no e.status e.frames e.data.length e.detail
        ∧ x.media.decodes = s.media.decodes.eraseIdx n
        ∧ ∀ a, rdByte x a = if d.dest ≤ a ∧ a < d.dest + e.data.length then e.data.getD (a - d.dest) 0 else rdByte s a)
      ∧ (sound → d.wrap = 0 → coded d.mtype = false → up = none → e.status = 0 ∧ e.data = d.content.take d.destBytes ∧ e.detail = b2n (decide (d.destBytes < d.content.length)))
      ∧ (sound → d.wrap = 0 → coded d.mtype = true → e.frames ≤ d.frames ∧ e.data.length ≤ d.destBytes ∧ ∃ fs : List (List Byte), fs.length = e.frames ∧ e.data = fs.flatten
          ∧ ∀ k f, fs[k]? = some f → ∃ raw, Config.mediaPicture d.mtype d.content (d.first + k * d.step) = some raw ∧ resizeFrame d.captured raw = some f)
      ∧ (sound → d.wrap = 0 → coded d.mtype = true → up = some e.frames → e.frames < d.frames → e.status = 0x4001)
      ∧ (let n := (runDecode d up).data.length
        0 < n → extPoisoned s d.dest n = true → e.status = 0x4001)))

/-- Risal: R_IDENTIFY answers the record of R93; R_EMBED of an object that an R_WRITE registered orders its embedding, or completes with RESULT1 = 0 where
it cannot be embedded, and of any other object with 0x1002; R_SEARCH queues a query on collection 0 with the codes of its source, or with
the content that a decode and an embedding are ordered for; an empty one completes with status 1
(R93, R94, R97). Where the values of R97 meet a condition of SEARCH_CONTENT the command ends with that status (the model's reading,
notes/assumptions 38). -/
def Obligations.RisalCommandsAct : Prop :=
  ∀ (s : State) (id : CmdId) (c : Cmd), findCmd s c.no = some c →
    (Runs s id c 0xC0 [(32, 96)] → 4096 ≤ c.bufBytes → Gives (.rIdentify id) s fun t => EndsIn t c 0 0 0 fun x =>
        x = toHost (markStarted s c.no) c (toBytes 4 s.boot.info.risalGib ++ toBytes 2 512 ++ toBytes 2 1024 ++ List.replicate 4088 0))
    ∧ (∀ o, Runs s id c 0xC5 [(32, 96)] → findObj s c.nsid (c.b 48 8) = some o →
      (o.risal = false → exec (.rEmbed id) s = .next (complete s c.no 0x1002))
      ∧ (o.risal = true → risalCtx s c = true → risalEntry s ≠ 0 →
        (risalCan s c o.mtype = true → o.quarantined = true → Gives (.rEmbed id) s fun t => EndsIn t c 0x3001 0 0 (JustStarted s c))
        ∧ (risalCan s c o.mtype = true → o.quarantined = false → risalStatus s = 0 → Gives (.rEmbed id) s fun t => ∃ d : Decode, t = { markStarted s c.no with media := { s.media with decodes := s.media.decodes ++ [d] } }
          ∧ d.no = c.no ∧ d.risal = true ∧ d.query = 0 ∧ d.obj = c.b 48 8 ∧ d.mtype = o.mtype ∧ d.ctx = c.b 8 4 ∧ d.entry = risalEntry s ∧ d.slot = risalSlot s
          ∧ d.dest = risalDest s ∧ d.first = 0 ∧ d.step = 1 ∧ d.frames = (if coded o.mtype then 1 else 0))
        ∧ (risalCan s c o.mtype = true → o.quarantined = false → risalStatus s ≠ 0 → Gives (.rEmbed id) s fun t => EndsIn t c (risalStatus s) 0 0 (JustStarted s c))
        ∧ (risalCan s c o.mtype = false → Gives (.rEmbed id) s fun t => EndsIn t c 0 0 0 (JustStarted s c))))
    ∧ (let src := (c.b 32 4 / 16) % 4
       let k := if c.b 36 2 % 1024 = 0 then 1024 else c.b 36 2 % 1024
       let fl := (c.b 32 4).testBit 3
       Runs s id c 0xC6 [(32, 96)] → 32 ≤ c.bufBytes →
        (∀ x codes, findColl s 0 = some x → src ≠ 1 → (if src = 2 then lastCodes s (c.b 48 8) = some codes else 2048 ≤ c.bufBytes ∧ codes = x.encode (c.data.take 2048)) →
          Gives (.rSearch id) s fun t => ∃ q : Query, t = { markStarted s c.no with search := { s.search with queries := s.search.queries ++ [q], nextQuery := s.search.nextQuery + 1 } }
            ∧ q.no = c.no ∧ q.coll = 0 ∧ q.k = k ∧ q.depth = (if fl then min (k * 4) 10000 else k) ∧ q.codes = codes ∧ q.filter = fl ∧ q.rerank = false ∧ q.phase = .queued
            ∧ q.metric = (if c.b 32 4 % 4 = 3 then 1 else c.b 32 4 % 4) ∧ q.terms = (if fl then [(0, 0, true, c.b 40 4, 0)] else []) ∧ q.risal = true)
        ∧ (src = 2 → lastCodes s (c.b 48 8) = none → Gives (.rSearch id) s fun t => EndsIn t c 1 0 0 fun x => x.search.colls = s.search.colls ∧ x.mem = s.mem)
        ∧ (let n := if c.b 44 4 = 0 then c.bufBytes else c.b 44 4
           let ty := getF s 56 F.RISAL_CTYPE_CTYPE
           (findColl s 0).isSome = true → src = 1 → n ≤ c.bufBytes → 1 ≤ n → n ≤ 2 ^ 24 →
            (risalCan s c ty = false → Gives (.rSearch id) s fun t => EndsIn t c 1 0 0 fun x => x.search.colls = s.search.colls ∧ x.mem = s.mem)
            ∧ (risalCan s c ty = true → risalStatus s ≠ 0 → Gives (.rSearch id) s fun t => EndsIn t c (risalStatus s) 0 0 (JustStarted s c))
            ∧ (risalCan s c ty = true → risalStatus s = 0 → Gives (.rSearch id) s fun t => ∃ q d, t = { markStarted s c.no with
                  search := { s.search with queries := s.search.queries ++ [q], nextQuery := s.search.nextQuery + 1 }
                  media := { s.media with decodes := s.media.decodes ++ [d] } }
              ∧ q.no = c.no ∧ q.coll = 0 ∧ q.k = k ∧ q.phase = .content ∧ q.embedEntry = risalEntry s ∧ q.embedAddr = risalSlot s ∧ q.ctx = c.b 8 4
              ∧ d.query = q.id ∧ d.risal = false ∧ d.mtype = ty ∧ d.content = c.data.take n ∧ d.dest = risalDest s)))

/-! ## Flash dies, channels and the translation layer (R342, R354-R407) -/

namespace Sys2Proof.Machine

/-- A die in service of a channel that runs operations. -/
def DieServes (s : State) (c d : Nat) : Prop :=
  State.wf s = true ∧ FlashSorted s ∧ c < 128 ∧ d < 16 ∧ chIn s c = true ∧ dieOut s c d = false ∧ flashRuns s = true ∧ getF s (chIsl c) F.CNT_CTRL_EN = 0

/-- One die becomes `x`; every other die stays. -/
def DieIs (s t : State) (c d : Nat) (x : Die) : Prop :=
  getDie t c d = x ∧ ∀ e f, dieKey e f ≠ dieKey c d → getDie t e f = getDie s e f

/-- Registers outside an island are as they were. -/
def Elsewhere (s t : State) (isl : Nat) : Prop := ∀ k, k / 2 ^ 31 ≠ isl → mfind t.regs k = mfind s.regs k

end Sys2Proof.Machine

/-- The states of a die (R357, R358): an idle die takes its first waiting read, else the first operation that may start; a program with a
read that has waited its hold, suspended fewer than PROG_MAX times, is suspended, and so an erase; a suspended operation with reads
waiting lets them run. Nothing but the die, and FCH_SUSPENDS, changes; a member's first program of row 0 takes the die's next OPEN_SEQ,
and the row it starts is no longer just sealed (R364, R410).
A page read that decodes frees the die and lets what waited go on; one that fails below read level 7 is queued again at the next
level, ahead of all other reads (R356, R388); the page's set counts the read (R401). -/
def Obligations.DieOperationsAndPageReads : Prop :=
  (∀ (s : State) (c d : Nat), DieServes s c d →
    let x := getDie s c d
    (∀ o l, x.st = .idle → x.reads = o :: l → opFits s c o = true → o.isRead = true → Gives (.dieOpIssue c d) s fun t =>
      DieIs s t c d { x with st := .read, run := some o, reads := l, readsIn := x.readsIn + 1 } ∧ t = { s with flash := { s.flash with dies := t.flash.dies } })
    ∧ (∀ i o, x.st = .idle → x.reads = [] → (x.pageQueued = true ∨ (x.switches = false ∧ x.wantErase = [])) → x.others.findIdx? (opReady s c d) = some i → x.others[i]? = some o →
      opFits s c o = true →
      let y : Die := { x with st := if o.isErase then .erase else .prog, run := some o, others := x.others.eraseIdx i, suspensions := 0, progIn := false }
      ((∀ id row mem pass u, o ≠ .prog id row mem pass u) → Gives (.dieOpIssue c d) s fun t =>
        DieIs s t c d y ∧ t = { s with flash := { s.flash with dies := t.flash.dies } })
      ∧ (∀ id row mem pass u z, o = .prog id row mem pass u → findStripe s id = some z → Gives (.dieOpIssue c d) s fun t =>
        let first := decide (row = 0) && !z.headSeqs.any (fun h => h.1 == mem)
        DieIs s t c d { y with opens := if first then x.opens + 1 else x.opens }
          ∧ findStripe t id = some (if first then { z with headSeqs := z.headSeqs ++ [(mem, x.opens + 1)] } else z) ∧ (∀ n, n ≠ id → findStripe t n = findStripe s n)
          ∧ t = { s with flash := { s.flash with dies := t.flash.dies, stripes := t.flash.stripes, rowSealed := t.flash.rowSealed } }))
    ∧ (∀ (st : DieSt) (more isl : Nat), isl = chIsl c →
      ((x.st = .prog ∧ st = .psuspending ∧ more = getF s isl F.FCH_SUSP_CFG_PROG_MAX) ∨ (x.st = .erase ∧ st = .esuspending ∧ more = getF s isl F.FCH_SUSP_CFG_ERASE_MAX)) →
      (x.reads.any (fun o => !o.isRaw) = true → x.suspensions < more → Gives (.suspendHoldExpire c d) s fun t =>
        DieIs s t c d { x with st := st, suspensions := x.suspensions + 1 } ∧ RegsBut s t [fieldKey isl F.FCH_SUSPENDS_COUNT 0 0]
          ∧ t = { s with regs := t.regs, flash := { s.flash with dies := t.flash.dies } })
      ∧ (more ≤ x.suspensions → exec (.suspendHoldExpire c d) s = .next s))
    ∧ (∀ st : DieSt, ((x.st = .psuspending ∧ st = .psusp) ∨ (x.st = .esuspending ∧ st = .esusp)) → x.reads ≠ [] → Gives (.suspendDone c d) s fun t =>
      DieIs s t c d { x with st := st, susp := x.run, run := none, readsIn := 0, progIn := false } ∧ t = { s with flash := { s.flash with dies := t.flash.dies } }))
    ∧ (∀ (s : State) (c d : Nat) (p : PageAddr) (level no : Nat) (k : Cmd), DieServes s c d → p.chan = c → p.die = d → p.block < 1024 →
    let x := getDie s c d
    x.st = .read → x.run = some (.read p level (.cmd no)) →
    (∀ n, level < 7 → Gives (.flashReadDone c d (.failed n)) s fun t =>
      DieIs s t c d { x with st := .idle, run := none, reads := .read p (level + 1) (.cmd no) :: x.reads } ∧ (getSet t c d p.block).reads = (getSet s c d p.block).reads + 1
        ∧ t.dqp = s.dqp ∧ t.mem = s.mem ∧ t.flash.blocks = s.flash.blocks)
    ∧ (level = 0 → findCmd s no = some k → k.no = no → k.opcode = 0x25 → firstBad s k.nsid (k.b 32 8) (k.b 40 4) = none → stripeAt s p = none →
      readsLeft (updDie s c d (fun y => { y with st := .idle, run := none })) (.cmd no) = false →
      Gives (.flashReadDone c d (.decoded [])) s fun t => findCmd t no = none
        ∧ DieIs s t c d { x with st := .idle, run := none } ∧ (getSet t c d p.block).reads = (getSet s c d p.block).reads + 1 ∧ t.mem = s.mem))
    ∧ (∀ (s : State) (c d : Nat) (p : PageAddr), DieServes s c d → p.chan = c → p.die = d → p.block < 1024 →
    let x := getDie s c d
    x.st = .read → x.run = some (.read p 0 .patrol) → Gives (.flashReadDone c d (.decoded [])) s fun t =>
      DieIs s t c d { x with st := .idle, run := none } ∧ (getSet t c d p.block).reads = (getSet s c d p.block).reads + 1
        ∧ t.dqp = s.dqp ∧ t.mem = s.mem ∧ t.flash.blocks = s.flash.blocks)

/-- A die timeout or a line test that finds a cause of 1 to 4 takes the channel OFFLINE with that CAUSE; one of 9 puts the die out of use;
WP_n stuck fences writes; FCH_FAULT records cause and channel (R370, R371). A test without a finding only counts. A TESTING channel's test
leaves BIST_FAIL, and with a cause that fails it CAUSE and FCH_FAULT (which causes do is the model's reading, notes/assumptions 46); a DRAINING channel without members goes OFFLINE, a JOINING one with every member rebuilt ONLINE, and neither before (R372). -/
def Obligations.ChannelsFailTestAndMove : Prop :=
  ∀ (s : State) (c d : Nat), State.wf s = true → c < 128 → d < 16 → chEnabled s c = true →
    let isl := chIsl c
    let j := c % 32
    (∀ cause, 1 ≤ cause → cause ≤ 4 → chIn s c = true → (getDie s c d).run.isSome = true → Gives (.dieTimeout c d cause) s fun t =>
      chState t c = 2 ∧ getF t isl F.FCH_CSTATE_CAUSE j = cause ∧ getF t isl F.FCH_FAULT_CAUSE = cause ∧ getF t isl F.FCH_FAULT_CHANNEL = j
        ∧ getF t isl F.FCH_FAULT_VALID = 1 ∧ t.mem.bytes = s.mem.bytes)
    ∧ (chIn s c = true → (getDie s c d).run.isSome = true → dieOut s c d = false → getF s isl F.FCH_CSTATE_DIES_OUT j < 2 ^ 16 → Gives (.dieTimeout c d 0) s fun t =>
      chState t c = chState s c ∧ dieOut t c d = true ∧ (∀ e, e < 16 → e ≠ d → dieOut t c e = dieOut s c e)
        ∧ getF t isl F.FCH_FAULT_CAUSE = 9 ∧ getF t isl F.FCH_FAULT_DIE = d ∧ getF t isl F.FCH_FAULT_VALID = 1)
    ∧ (chIn s c = true → (getF s isl F.FCH_CTRL_LINE_TEST ≠ 0 ∨ (mfind s.flash.testDue c).isSome = true) → getF s isl F.FCH_LINE_TESTS_COUNT < 2 ^ 32 - 1 →
      (Gives (.lineTestPeriodic c 0 0) s fun t => getF t isl F.FCH_LINE_TESTS_COUNT = getF s isl F.FCH_LINE_TESTS_COUNT + 1
        ∧ RegsBut s t [fieldKey isl F.FCH_LINE_TESTS_COUNT 0 0] ∧ t.flash.stripes = s.flash.stripes ∧ t.flash.dies = s.flash.dies ∧ t.mem = s.mem)
      ∧ (chFence s c = false → Gives (.lineTestPeriodic c 6 0) s fun t => chFence t c = true ∧ chState t c = chState s c ∧ getF t isl F.FCH_FAULT_CAUSE = 6))
    ∧ (∀ found : LineFault, chState s c = 3 → found.cause < 10 → Gives (.channelTestComplete c found) s fun t =>
        let failed := decide (found.cause ≠ 0) && !decide (found.cause = 5 ∨ found.cause = 6 ∨ found.cause = 9)
        getF t isl F.FCH_CSTATE_BIST_FAIL j = b2n failed ∧ chState t c = 3 ∧ t.mem = s.mem
        ∧ (failed = false → (mfind t.flash.chTest c).isSome = true) ∧ (found.cause = 0 ∨ failed = true → t.flash.dies = s.flash.dies)
        ∧ (failed = true → getF t isl F.FCH_CSTATE_CAUSE j = found.cause ∧ getF t isl F.FCH_FAULT_CAUSE = found.cause ∧ getF t isl F.FCH_FAULT_CHANNEL = j
          ∧ getF t isl F.FCH_FAULT_VALID = 1))
    ∧ (chState s c = 1 → (membersOn s c = false → Gives (.channelDrainComplete c) s fun t => chState t c = 2)
        ∧ (membersOn s c = true → exec (.channelDrainComplete c) s = .next s))
    ∧ (chState s c = 4 → (s.flash.joinLeft = [] → Gives (.channelJoinComplete c) s fun t => chState t c = 0 ∧ t.mem = s.mem ∧ t.flash.stripes = s.flash.stripes)
        ∧ (∀ id i x m, s.flash.joinLeft = [(id, i)] → findStripe s id = some x → x.members[i]? = some m → m.chan = c → exec (.channelJoinComplete c) s = .next s))

/-- Whatever the compressor gives, the stored block of a unit decodes to the unit, and is at most eight bytes longer (R342, R343, R384). -/
def Obligations.StoredBlocksDecodeToTheirUnits : Prop :=
  ∀ (s : State) (lua : Nat) (unit : List Byte), 30720 ≤ unit.length → unit.length ≤ 32768 →
    unpackBlock (packUnit s lua unit).1 = some unit ∧ (packUnit s lua unit).1.length ≤ unit.length + 8

namespace Sys2Proof.Machine

/-- Nothing that the device writes waits for a slot, nor a full page of records for the mapping journal. -/
def NothingWaits (s : State) : Prop :=
  s.flash.waits = [] ∧ s.flash.rewrites = [] ∧ s.flash.late = [] ∧ ∀ l ∈ s.flash.jbuf, (l.map (fun r => r.2.words.length)).sum < 1020

end Sys2Proof.Machine

/-- The erase-intent journal (R362): a waiting DONE gets its page; once a page is on media its INTENTs' erases are queued ahead of all
else and its DONEs closed; an erase's end leaves its DONE waiting; that of a journal block starts the die's next generation there (R363). A pass of a stripe's row that succeeds is noted.
A slot whose unit lives elsewhere is freed, what it holds beside the unit's newer slot passing to that one; a full one of which no word is lost goes to the next free KiB of its group's open host stripe (R383, R384). A row
waiting in a host stripe is padded and queued. When every member of the next row is done the row is complete, and the entries
of the slots that lie in complete rows move to the stripe; the last row seals it; before that nothing changes (R380, R385). -/
def Obligations.ErasesAndRows : Prop :=
  (∀ (s : State) (c d : Nat), DieServes s c d →
    let x := getDie s c d
    (x.dones ≠ [] → x.pageQueued = false → x.wantErase = [] → x.switches = false → Gives (.journalPageDue c d) s fun t =>
      DieIs s t c d { x with others := .journal ⟨x.jplane, x.pageSeq + 1, x.generation, x.dones⟩ :: x.others } ∧ t = { s with flash := { s.flash with dies := t.flash.dies } })
    ∧ (∀ p, x.st = .prog → x.run = some (.journal p) →
      let fresh := p.entries.filter (fun e => e.kind != 2 && !x.intents.any (fun i => i.iseq == e.iseq))
      let closed (i : JEntry) : Bool := p.entries.any (fun e => e.kind == 2 && e.iseq == i.iseq)
      Gives (.programDone c d true) s fun t =>
        getDie t c d = { x with
          st := .idle, run := none, suspensions := 0, jpages := x.jpages ++ [p], pageSeq := p.pageSeq, jfree := x.jfree - 1
          intents := (x.intents ++ fresh).filter (fun i => !closed i), dones := x.dones.filter (fun e => !closed e)
          others := if fresh = [] then x.others else .erase (fresh.map (fun e => (e.plane, e.block))) :: x.others }
        ∧ t.mem = s.mem ∧ t.search = s.search ∧ t.flash.map = s.flash.map ∧ t.flash.blocks = s.flash.blocks)
    ∧ (∀ id row mem pass u y, x.st = .prog → x.run = some (.prog id row mem pass u) → findStripe s id = some y → Gives (.programDone c d true) s fun t =>
      DieIs s t c d { x with st := .idle, run := none, suspensions := 0 }
        ∧ findStripe t id = some (if pass = 2 then { y with progDone := y.progDone ++ [(row, mem)], lows := y.lows.filter (fun p => p != (row, mem)) }
            else { y with lows := y.lows ++ [(row, mem)] })
        ∧ (∀ n, n ≠ id → findStripe t n = findStripe s n) ∧ t.mem = s.mem ∧ t.flash.map = s.flash.map)
    ∧ (∀ bs ok, x.st = .erase → x.run = some (.erase bs) → (∀ b ∈ bs, b.2 ≠ 0) → Gives (.eraseDone c d ok) s fun t =>
      (getDie t c d).st = .idle ∧ (getDie t c d).run = none ∧ (getDie t c d).intents = x.intents
        ∧ (getDie t c d).dones = x.dones ++ (x.intents.filter (fun i => bs.contains (i.plane, i.block))).map (fun i => { i with kind := 2, fail := !ok })
        ∧ (ok = false → 4 ≤ (bs.headD (0, 0)).2 → (getSet t c d (bs.headD (0, 0)).2).retired = true)
        ∧ t.flash.map = s.flash.map ∧ (s.flash.discards = [] → t.mem = s.mem))
    ∧ (∀ bs, x.st = .erase → x.run = some (.erase bs) → (∃ b ∈ bs, b.2 = 0) → Gives (.eraseDone c d true) s fun t =>
      (getDie t c d).st = .idle ∧ (getDie t c d).run = none ∧ (getDie t c d).generation = x.generation + 1 ∧ (getDie t c d).jfree = 256
        ∧ (∃ p l, (getDie t c d).others = .journal p :: l ∧ p.generation = x.generation + 1 ∧ p.plane = (getDie t c d).jplane)
        ∧ t.mem = s.mem ∧ t.flash.map = s.flash.map))
    ∧ (∀ (s : State) (x : Stripe), FlashSorted s → (s.flash.stripes.map (·.id)).Nodup → findStripe s x.id = some x → x.kind = .host → x.sealed = false →
    (∀ k n y isl, flashIndex isl = some k → mfind s.flash.slots (slotKey k n) = some y → y.placed = none → flashRuns s = true →
      (slotCurrent s k n y = false → ∀ u, exec (.slotPlace isl ⟨n, u⟩) s = .next (pumpMedia (yieldSlot s (slotKey k n) y))
        ∧ (NothingWaits s → (∀ c ∈ s.dqp.cmds, c.phase ≠ .started) → (∀ a b, mfind s.flash.map y.lua ≠ some (.slot a b)) →
          pumpMedia (yieldSlot s (slotKey k n) y) = { s with flash := { s.flash with slots := mdel s.flash.slots (slotKey k n) } }))
      ∧ (NothingWaits s → slotCurrent s k n y = true → n < 4096 → y.mask = 255 → y.writers.all (fun w => !w.fua) = true →
        let b := (packUnit s y.lua y.data.flatten).1
        s.flash.stripes.find? (fun z => z.group == homeGroup s y.lua && z.kind == .host && !z.sealed) = some x → x.next + ceilDiv b.length 1024 ≤ x.space →
        Gives (.slotPlace isl ⟨n, .none⟩) s fun t =>
          mfind t.flash.slots (slotKey k n) = some { y with placed := some (x.id, x.next, ceilDiv b.length 1024) }
            ∧ (∃ z, findStripe t x.id = some z ∧ z.packed = x.packed ++ [⟨y.lua, x.next, b, y.lostMask⟩] ∧ z.next = x.next + ceilDiv b.length 1024 ∧ z.members = x.members)
            ∧ t.flash.map = s.flash.map ∧ t.flash.blocks = s.flash.blocks ∧ t.mem = s.mem))
    ∧ (x.rowsOut * x.rowKib < x.next → Gives (.rowPadTimeout x.id) s fun t => ∃ z, findStripe t x.id = some z ∧ z.rowsOut = x.rowsOut + 1
        ∧ z.next = (x.rowsOut + 1) * x.rowKib ∧ z.packed = x.packed ∧ t.flash.map = s.flash.map ∧ t.flash.slots = s.flash.slots ∧ t.mem = s.mem)
    ∧ (x.rowsDone < x.rowsOut → x.rowsDone + 1 < x.rows →
      ((∀ i, i < x.members.length → (x.rowsDone, i) ∈ x.progDone) → Gives (.rowComplete x.id x.rowsDone) s fun t =>
        findStripe t x.id = some { x with
            rowsDone := x.rowsDone + 1, progDone := x.progDone.filter (fun p => p.1 != x.rowsDone), lows := x.lows.filter (fun p => p.1 != x.rowsDone) }
          ∧ (NothingWaits s → ∀ p ∈ s.flash.slots, (∀ q ∈ s.flash.slots, q.2.lua = p.2.lua → q = p) → ∀ off kib, p.2.placed = some (x.id, off, kib) →
              off + kib ≤ (x.rowsDone + 1) * x.rowKib → slotCurrent s (p.1 / 2 ^ 20) (p.1 % 2 ^ 20) p.2 = true →
              mfind t.flash.map p.2.lua = some (.stripe x.id off) ∧ mfind t.flash.slots p.1 = none))
      ∧ (∀ i, i < x.members.length → (x.rowsDone, i) ∉ x.progDone → exec (.rowComplete x.id x.rowsDone) s = .next s))
    ∧ (x.rowsDone < x.rowsOut → x.rowsDone + 1 = x.rows → (∀ i, i < x.members.length → (x.rowsDone, i) ∈ x.progDone) →
      Gives (.rowComplete x.id x.rowsDone) s fun t => ∃ z, findStripe t x.id = some z ∧ z.rowsDone = x.rows ∧ z.sealed = true
        ∧ z.members = x.members ∧ z.packed = x.packed))

/-- Collection takes the stripe with the fewest live KiB, the lowest identifier on a tie, when a channel of the group is short of free sets
(R391), and copies what is live (R392); at the verified switch every unit that still names the victim takes a target's place and
the victim's members are erased, and an unready target waits (R392).
A member that waits for refresh on a free channel, or for its rebuild on a joining one, gets the plane set of R380 on its channel; once that set is clean and verified it
takes the member's place in the stripe, before that nothing happens; units that neither a read nor a rebuild recovered are lost, and no
other mapping entry changes (R395, R401).
The patrol reads its next live page of its island and keeps its place, and past the last one it is finished; a period that ends before it sets PATROL_LATE and leaves one event
(R400); a checkpoint starts the island's journal anew with its directory between two CHECKPOINT records and writes a table page changed
since the last as a unit of SPACE 255 (R405; which unit is the model's choice, notes/assumptions 47); NAND temperatures are reported per package with their warnings
(R484); at the next cycle of an island whose number is a multiple of 2^LEAK every bucket leaks by 1 and stops at 0 (R426). -/
def Obligations.CollectionsReplacementsAndPatrol : Prop :=
  (∀ (s : State) (g : Nat), g < 8 → flashRuns s = true →
    (s.flash.discards = [] → (∀ x ∈ s.flash.stripes, canCollect s g x = true → ∀ m ∈ x.members, chState s m.chan ≠ 1) → gcShort s g 160 = true →
      let may (y : Stripe) : Bool := canCollect s g y && (y.kind == .host || y.kind == .target)
      let on : State := { s with flash := { s.flash with collecting := setBit s.flash.collecting g true } }
      ∀ v, emptiest s (s.flash.stripes.filter may) = some v →
      (v ∈ s.flash.stripes ∧ may v = true ∧ ∀ y ∈ s.flash.stripes, may y = true → liveKib s v < liveKib s y ∨ (liveKib s v = liveKib s y ∧ v.id ≤ y.id))
      ∧ (findStripe s v.id = some v →
          ((startCollect on v.id 0).isSome = true → Gives (.gcStart g) s fun t =>
            ∃ ts, t.flash.gcs = s.flash.gcs ++ [⟨v.id, ts, (liveOf s v).map (·.lua), 0⟩] ∧ t.mem = s.mem)
          ∧ (startCollect on v.id 0 = none → exec (.gcStart g) s = .next (prepGroup on g false))))
    ∧ (∀ v x gc, s.flash.gcs.find? (fun y => y.victim == v) = some gc → findStripe s v = some x → x.kind ≠ .journal → v ∉ gc.targets →
      (gc.targets.all (targetReady s) = false → exec (.gcSwitch v 0) s = .next s)
      ∧ (gc.targets.all (targetReady s) = true → mSorted none s.flash.map = true →
          (∀ p ∈ liveOf s x, ∃ y ∈ s.flash.stripes, y.id ∈ gc.targets ∧ ∃ q ∈ y.packed, q.lua = p.lua) → Gives (.gcSwitch v 0) s fun t =>
          findStripe t v = none ∧ (∀ p ∈ x.packed, mfind t.flash.map p.lua ≠ some (.stripe v p.off))
            ∧ (∀ p ∈ liveOf s x, ∃ id off : Nat, id ∈ gc.targets ∧ mfind t.flash.map p.lua = some (.stripe id off))
            ∧ (∀ lua, (∀ p ∈ x.packed, p.lua ≠ lua) → mfind t.flash.map lua = mfind s.flash.map lua) ∧ t.flash.blocks = s.flash.blocks ∧ t.mem = s.mem)))
    ∧ (∀ (s : State) (x : Stripe) (i : Nat) (m : Member), findStripe s x.id = some x → x.members[i]? = some m →
    (x.sealed = true → x.rowsOut ≤ x.rowsDone → chIn s m.chan = true → flashRuns s = true →
      (∀ r ∈ s.flash.repls, r.stripe ≠ x.id) → (∀ g ∈ s.flash.gcs, g.victim ≠ x.id ∧ x.id ∉ g.targets) →
      ((x.id, i) ∈ s.flash.joinLeft ∨ ((x.id, i) ∈ s.flash.refresh ∧ refreshStopped s m.chan = false
        ∧ (∀ r ∈ s.flash.repls, ∀ y z, findStripe s r.stripe = some y → y.members[r.idx]? = some z → z.chan ≠ m.chan)
        ∧ (∀ g ∈ s.flash.gcs, ∀ y, findStripe s g.victim = some y → y.group ≠ x.group))) → ∀ p, pickSet s m.chan x.pslc setFree = some p → Gives (.memberReplaceStart x.id i) s fun t =>
        t.flash.repls = s.flash.repls ++ [⟨x.id, i, ⟨m.chan, p.1, p.2⟩⟩] ∧ t.flash.map = s.flash.map ∧ t.flash.stripes = s.flash.stripes ∧ t.mem = s.mem)
    ∧ (∀ dest, s.flash.repls.find? (fun r => r.stripe == x.id && r.idx == i) = some ⟨x.id, i, dest⟩ → (getSet s dest.chan dest.die dest.block).clean = true →
      ∀ lost : List (Nat × Nat), mSorted none s.flash.map = true →
      let gone (lua : Nat) : Prop := ∃ p ∈ lost, p.1 < x.rowsDone ∧ lua ∈ unitsOn s x (p.1, i, p.2)
      Gives (.memberReplaceComplete x.id i ⟨true, lost⟩) s fun t =>
        findStripe t x.id = some { x with members := x.members.set i dest, badPages := x.badPages.filter (fun p => p.2.1 != i || lost.contains (p.1, p.2.2)) }
          ∧ (x.id, i) ∉ t.flash.refresh ∧ (x.id, i) ∉ t.flash.joinLeft ∧ t.flash.blocks = s.flash.blocks ∧ t.mem = s.mem
          ∧ ∀ lua, (gone lua → mfind t.flash.map lua = some .lost) ∧ (¬ gone lua → mfind t.flash.map lua = mfind s.flash.map lua))
    ∧ (∀ dest, s.flash.repls.find? (fun r => r.stripe == x.id && r.idx == i) = some ⟨x.id, i, dest⟩ → (getSet s dest.chan dest.die dest.block).clean = false →
      ∀ ok, exec (.memberReplaceComplete x.id i ok) s = .next s))
    ∧ (∀ (s : State) (isl k : Nat), State.wf s = true → flashIndex isl = some k →
    (∀ x pg a, enabled s isl = true → flashRuns s = true → getF s 59 F.WEIR_STATUS_MSTATE = 1 → s.flash.patrolDone.getD k false = false →
      patrolNext s (s.flash.patrol.getD k 0) (s.flash.patrolPage.getD k none) (patrolList s k (s.flash.patrol.getD k 0)) = some (x, pg) → physPage x pg = some a → memberIn s x pg.2.1 = true →
      s.flash.patrol.length = 4 → s.flash.patrolPage.length = 4 → mSorted none s.flash.dies = true → Gives (.patrolRead isl) s fun t =>
        DieIs s t a.chan a.die { getDie s a.chan a.die with reads := (getDie s a.chan a.die).reads ++ [.read a 0 .patrol] }
          ∧ t.flash.patrol = s.flash.patrol.set k x.openSeq ∧ t.flash.patrolPage = s.flash.patrolPage.set k (some pg) ∧ t.regs = s.regs ∧ t.mem = s.mem)
    ∧ (enabled s isl = true → flashRuns s = true → getF s 59 F.WEIR_STATUS_MSTATE = 1 → s.flash.patrolDone.getD k false = false →
      patrolNext s (s.flash.patrol.getD k 0) (s.flash.patrolPage.getD k none) (patrolList s k (s.flash.patrol.getD k 0)) = none →
      s.flash.patrol.length = 4 → s.flash.patrolPage.length = 4 → s.flash.patrolDone.length = 4 → s.flash.patrolOver.length = 4 →
      getF s isl F.FTL_PATROLS_COUNT < 2 ^ F.FTL_PATROLS_COUNT.w - 1 → Gives (.patrolRead isl) s fun t =>
        t.flash.patrol = s.flash.patrol.set k 0 ∧ t.flash.patrolPage = s.flash.patrolPage.set k none
          ∧ t.flash.patrolDone = s.flash.patrolDone.set k (!s.flash.patrolOver.getD k false)
          ∧ getF t isl F.FTL_PATROLS_COUNT = getF s isl F.FTL_PATROLS_COUNT + 1 ∧ t.flash.dies = s.flash.dies ∧ t.mem = s.mem)
    ∧ (enabled s isl = true → s.flash.patrolDone.getD k false = false → s.flash.patrolOver.getD k false = false → Gives (.patrolPeriodEnd isl) s fun t =>
        getF t isl F.FTL_STATUS_PATROL_LATE = 1 ∧ RegsBut s t [fieldKey isl F.FTL_STATUS_PATROL_LATE 0 0] ∧ t.flash.nextEvent = s.flash.nextEvent + 1
          ∧ (∃ e, t.flash.events.getLast? = some e ∧ e.kind = 6) ∧ t.flash.map = s.flash.map)
    ∧ (65536 ≤ s.flash.jpages.getD k 0 → s.flash.journal.length = 4 → s.flash.seqs.length = 4 → s.flash.jpages.length = 4 → Gives (.journalCheckpoint isl) s fun t =>
        let seq := s.flash.jpageSeq.getD k 0 + 1
        (∃ a b d rest, t.flash.journal.getD k [] = (a, .checkpoint true seq) :: d ++ (b, .checkpoint false seq) :: rest ∧ ∀ r ∈ d, ∃ u l, r.2 = .tablePage u l)
          ∧ (NothingWaits s → s.flash.jbuf.getD k [] = [] → dirtyTables s k = [] → directory s k = [] → (∀ x ∈ s.flash.stripes, x.kind ≠ .journal) →
              t.flash.jpages.getD k 1 = 0 ∧ (t.flash.journal.getD k []).length = 2 ∧ t.flash.map = s.flash.map ∧ t.flash.slots = s.flash.slots ∧ t.regs = s.regs)
          ∧ (∀ key seq, dirtyTables s k = [(key, seq)] → FlashSorted s → NothingWaits s → (freeSlot s (homeGroup s (luaOf 255 (tableUnit key)) / 2)).isSome = true →
              (∀ i, i < 8 → mfind t.flash.blocks (blockKey 255 (8 * tableUnit key + i)) = some (slice (tablePage s key seq) (4096 * i) 4096))
                ∧ (∀ b, b / 8 ≠ blockKey 255 (8 * tableUnit key) / 8 → mfind t.flash.blocks b = mfind s.flash.blocks b)
                ∧ (∀ lua, lua ≠ luaOf 255 (tableUnit key) → mfind t.flash.map lua = mfind s.flash.map lua)))
    ∧ (∀ temps, enabled s isl = true → Gives (.nandTempRead isl temps) s fun t => ∀ i v, i < 64 → temps[i]? = some v → chEnabled s (32 * k + i / 2) = true →
        getF t 59 F.TEL_TEMP_TEMP (76 + 64 * k + i) = v % 4096 ∧ getF t 59 F.TEL_TEMP_VALID (76 + 64 * k + i) = 1
          ∧ (getF t 59 F.TEL_TEMP_THROT (76 + 64 * k + i) = 1 ↔ 640 < (BitVec.ofNat 12 v).toInt)
          ∧ (getF t 59 F.TEL_TEMP_CRIT (76 + 64 * k + i) = 1 ↔ 720 ≤ (BitVec.ofNat 12 v).toInt))
    ∧ (∀ n, n < 60 → clockRuns s n = true → cyc s n < 2 ^ 63 → (∀ a, a < 8 → getF s n F.PROT_BUCKET_LEVEL a < 256) → Gives (.bucketLeak n) s fun t =>
        let m := 2 ^ getF s n F.PROT_CE_CFG_LEAK
        cyc t n = (cyc s n / m + 1) * m ∧ (∀ a, a < 8 → getF t n F.PROT_BUCKET_LEVEL a = getF s n F.PROT_BUCKET_LEVEL a - 1)
          ∧ (∀ i, i ≠ n → cyc t i = cyc s i) ∧ t.mem = s.mem ∧ t.flash = s.flash ∧ t.sched = s.sched))

/-! ## Power, temperatures and rails (R433-R451, R503) -/

namespace Sys2Proof.Machine

/-- GRANT of an island. -/
def grantOf (s : State) (i : Nat) : Nat := getF s 59 F.WEIR_GRANT_GRANT i

/-- The enabled islands, lowest number first. -/
def enabledIslands (s : State) : List Nat := (List.range 60).filter (enabled s)

/-- No residency slot of a reach is held. -/
def ReachFree (s : State) (reach : Nat) : Prop := ∀ c ∈ s.sched.ctxs, (c.holds && bit c.reaches reach) = false

/-- The machine is STARTING or RUNNING. -/
def Up (s : State) : Prop := s.boot.powered = true ∧ (getF s 59 F.WEIR_STATUS_MSTATE = 0 ∨ getF s 59 F.WEIR_STATUS_MSTATE = 1)

/-- What a power failure leaves: FLUSHING, compute and DQP stopped, every die operation aborted, the message sent where the sideband is
trained, a management quote ended with 0x7003; what is on media and the anchors untouched. -/
def PowerFailed (s t : State) : Prop :=
  getF t 59 F.WEIR_STATUS_MSTATE = 4 ∧ getF t 59 F.WEIR_STATUS_STEP = 0 ∧ getF t 56 F.DQP_STATUS_RDY = 0 ∧ getF t 58 F.ID_STATUS_STATE = 0
    ∧ t.dqp = {} ∧ t.tiles = [] ∧ t.runnels = {} ∧ t.flume = {} ∧ t.sched = {} ∧ t.mem = {} ∧ t.ident.sk = [] ∧ t.ident.quotes = []
    ∧ t.link.l0 = false ∧ t.flash = { s.flash with dies := t.flash.dies } ∧ (∀ d ∈ t.flash.dies, d.2.st = .idle ∧ d.2.run = none ∧ d.2.susp = none)
    ∧ t.ident.anchors = s.ident.anchors ∧ t.counters = s.counters ∧ t.out = (if s.link.sbTrained then s.out ++ [.powerFail] else s.out)
    ∧ (s.ident.quotes.any (·.mgmt) = true →
        getF t 58 F.ID_MQ_STATUS_RESULT = 0x7003 ∧ getF t 58 F.ID_MQ_STATUS_READY = 1 ∧ getF t 58 F.ID_MQ_CTRL_GO = 0)

end Sys2Proof.Machine

/-- At each multiple of 30,000 island-59 cycles the arbiter takes the least of cap, input limit and thermal limit (R433): the input
readings, THERM_W, the bound bits and BUDGET are reported; every enabled island has at least its floor credit and no more than
its floor or its PEAK; one at its floor credit runs at level 0, one at its full peak credit at its nominal clock, level 15 (R17); and where the floors fit the budget the grants fit it too
(R434, R435). Before the image is applied a period is measured only. That every limit equal to the least sets its bit is deduced,
notes/assumptions 23. -/
def Obligations.RenegotiationGrantsWithinTheBudget : Prop :=
  ∀ (s : State) (requests draws : List Nat) (volt current host : Nat), State.wf s = true → s.boot.powered = true →
    volt < 1024 → current < 4096 → cyc s 59 < 2 ^ 63 →
    (s.boot.applied = false → Gives (.weirRenegotiate requests draws volt current host) s fun t =>
      cyc t 59 = (cyc s 59 / 30000 + 1) * 30000 ∧ getF t 59 F.WEIR_INPUT_VOLT = volt ∧ getF t 59 F.WEIR_INPUT_CURRENT = current
        ∧ (∀ i, grantOf t i = grantOf s i) ∧ t.mem = s.mem ∧ t.dqp = s.dqp ∧ t.flash = s.flash ∧ t.sched = s.sched ∧ t.boot = s.boot)
    ∧ (s.boot.applied = true → Gives (.weirRenegotiate requests draws volt current host) s fun t =>
      let cap := 100 * getA t 59 F.WEIR_CAP_CAP_W
      let lim := volt * getF s 59 F.WEIR_LIMITS_INPUT_LIMIT_DA
      let thr := 100 * thermW s
      let p := min cap (min lim thr)
      let b := p * 1828 / 100000 - getF s 59 F.WEIR_LIMITS_HOST_DIE_QUANTA
      cyc t 59 = (cyc s 59 / 30000 + 1) * 30000
        ∧ getF t 59 F.WEIR_INPUT_VOLT = volt ∧ getF t 59 F.WEIR_INPUT_CURRENT = current
        ∧ getF t 59 F.WEIR_THERM_THERM_W = thermW s % 2 ^ 13 ∧ getF t 59 F.WEIR_BUDGET_QUANTA = b % 2 ^ 14
        ∧ getF t 59 F.WEIR_STATUS_CAP_BOUND = b2n (p == cap) ∧ getF t 59 F.WEIR_STATUS_INPUT_BOUND = b2n (p == lim)
        ∧ getF t 59 F.WEIR_STATUS_THERM_BOUND = b2n (p == thr)
        ∧ (∀ i ∈ enabledIslands s, floorCredit i ≤ grantOf t i ∧ grantOf t i ≤ max (floorCredit i) (peakOf t i) ∧ grantOf t i ≤ peakCredit i
            ∧ (grantOf t i = floorCredit i → getF t 59 F.WEIR_GRANT_LEVEL i = 0 ∧ getF t 59 F.WEIR_GRANT_AT_FLOOR i = 1)
            ∧ (grantOf t i = peakCredit i → getF t 59 F.WEIR_GRANT_LEVEL i = 15 ∧ getF t 59 F.WEIR_GRANT_AT_FLOOR i = 0))
        ∧ (floorSum s ≤ b → ((enabledIslands s).map (grantOf t)).foldl (· + ·) 0 ≤ b)
        ∧ t.mem = s.mem ∧ t.dqp = s.dqp ∧ t.flash = s.flash ∧ t.sched = s.sched ∧ t.boot = s.boot)

/-- A qualified input powers a module that is off, with SLOT_ID, the management mode and VDD_MGMT as the pins have them; during a flush it is
kept for the flush's end; a powered module is not affected (R447, R450, R503). The charged bank is reported at once (R445).
Loss of input, over-voltage and over-current start the power-fail sequence (R447, R450); the hold-up energy is reported and below
12 J is DEGRADED (R449). A tripped die rail halts the module with HALT_CAUSE 4 and FEED_FAULT the first time and is fatal the
second, the host-die rail halts it with 6, a stack's rail takes its stack OFFLINE, a Thiarn die's its reaches with cause 2 (R451).
The end of the flush empties the buffers to media and takes the module's power, unless the input is back: then start-up
begins (R447). -/
def Obligations.PowerInputAndRails : Prop :=
  (∀ (s : State) (slot energy : Nat) (i3c vdd33 : Bool), State.wf s = true →
    (s.boot.powered = false →
      exec (.inputQualified slot ⟨i3c, vdd33⟩) s
        = .next { s with boot := { s.boot with powered := true, slotId := slot % 32, i3c := i3c, vdd33 := vdd33 } })
    ∧ (s.boot.powered = true → getF s 59 F.WEIR_STATUS_MSTATE = 4 →
      exec (.inputQualified slot ⟨i3c, vdd33⟩) s
        = .next { s with boot := { s.boot with inputBack := true, slotId := slot % 32, i3c := i3c, vdd33 := vdd33 } })
    ∧ (s.boot.powered = true → getF s 59 F.WEIR_STATUS_MSTATE ≠ 4 → exec (.inputQualified slot ⟨i3c, vdd33⟩) s = .next s)
    ∧ (s.boot.powered = true → Gives (.holdupCharged energy) s fun t =>
        getF t 59 F.WEIR_HOLDUP_CHARGED = 1 ∧ RegsBut s t [fieldKey 59 F.WEIR_HOLDUP_CHARGED 0 0] ∧ t = { s with regs := t.regs }))
    ∧ (∀ s : State, State.wf s = true → s.boot.powered = true →
    (getF s 59 F.WEIR_STATUS_MSTATE ≠ 4 → Gives .powerFailDetect s (PowerFailed s) ∧ Gives .overVoltage s (PowerFailed s) ∧ Gives .overCurrent s (PowerFailed s))
    ∧ (getF s 59 F.WEIR_STATUS_MSTATE = 4 → Gives .flushComplete s fun t =>
        t.boot.powered = s.boot.inputBack ∧ getF t 59 F.WEIR_STATUS_MSTATE = 0 ∧ t.regs = [] ∧ t.flash.gcs = [] ∧ t.flash.repls = []
          ∧ (∀ x ∈ t.flash.stripes, x.sealed = true) ∧ t.flash.blocks = s.flash.blocks ∧ t.ident.anchors = s.ident.anchors)
    ∧ (∀ e, Gives (.holdupMeasure e) s fun t =>
        getF t 59 F.WEIR_HOLDUP_ENERGY_J = min e 255 ∧ getF t 59 F.WEIR_HOLDUP_DEGRADED = b2n (decide (e < 12))
          ∧ RegsBut s t [fieldKey 59 F.WEIR_HOLDUP_ENERGY_J 0 0, fieldKey 59 F.WEIR_HOLDUP_DEGRADED 0 0] ∧ t = { s with regs := t.regs, mgmt := t.mgmt })
    ∧ (Up s → ∀ rail index, (rail = 3 ∧ index < 2) ∨ (rail = 4 ∧ index = 0) →
        let die := if rail = 4 then 2 else index
        (bit s.boot.feedTrips die = false → Gives (.converterTrip rail index) s fun t =>
          getF t 59 F.WEIR_STATUS_MSTATE = 2 ∧ getF t 59 F.WEIR_STATUS_HALT_CAUSE = 4 ∧ getF t 59 F.WEIR_STATUS_FEED_FAULT = 1
            ∧ bit t.boot.feedTrips die = true ∧ t.tiles = [])
        ∧ (bit s.boot.feedTrips die = true → Gives (.converterTrip rail index) s fun t =>
          getF t 59 F.WEIR_STATUS_MSTATE = 2 ∧ getF t 59 F.WEIR_STATUS_HALT_CAUSE = 5 ∧ t.boot.fatal = true))
    ∧ (Up s → Gives (.converterTrip 5 0) s fun t =>
        getF t 59 F.WEIR_STATUS_MSTATE = 2 ∧ getF t 59 F.WEIR_STATUS_HALT_CAUSE = 6 ∧ t.link.sbTrained = false ∧ t.link.l0 = false)
    ∧ (∀ n, n < 16 → enabled s (32 + n) = true → stkState s n = 0 → (∀ p ∈ s.mem.pages, p.frame.all (fun f => f.1 != n)) →
        Gives (.converterTrip 1 n) s fun t => getF t (32 + n) F.STK_STATE_STATE = 2)
    ∧ (∀ d, d < 4 → s.sched.ctxs = [] → s.mem.pages = [] → (∀ k, k < 8 → enabled s (8 * d + k) = true ∧ reachState s (8 * d + k) = 0) →
        Gives (.converterTrip 0 d) s fun t => ∀ k, k < 8 → getF t (8 * d + k) F.REACH_STATE_STATE = 2 ∧ getF t (8 * d + k) F.REACH_STATE_CAUSE = 2))

/-- An island whose draw exceeds its grant steps its level down once, to no less than 0; another keeps everything (R433).
A reading below the critical point is recorded, THROT set above the throttle point, and an island above it loses an eighth of its last
grant as PEAK, unless the module is HALTED and holds no grants (R438, R439, R484). At its critical point a reach goes OFFLINE with cause 1 and its scratchpad is lost; any
other sensor there, the coolant's included, halts the module with HALT_CAUSE 3 (R440).
A fatal error takes the link down at once, completes no command and leaves the module HALTING with HALT_CAUSE 5 (R444); an uncorrectable word of control SRAM that is not
held in two copies ends only the command that read it, with 0x4001 (R420). MOD_RESET_N
low is a reset order, its module held for as long as the pin is low (R503); high, the pin alone changes. -/
def Obligations.DrawTemperaturesAndStops : Prop :=
  (∀ (s : State) (isl draw : Nat), State.wf s = true → s.boot.applied = true → enabled s isl = true → isl < 60 →
    (grantOf s isl < draw → getF s isl F.CNT_CTRL_EN = 0 → Gives (.currentOverGrant isl draw) s fun t =>
        getF t 59 F.WEIR_GRANT_LEVEL isl = (getF s 59 F.WEIR_GRANT_LEVEL isl - 1) % 16 ∧ RegsBut s t [fieldKey 59 F.WEIR_GRANT_LEVEL isl 0]
          ∧ t = { s with regs := t.regs, counters := { s.counters with lvlChanged := t.counters.lvlChanged } })
    ∧ (draw ≤ grantOf s isl → exec (.currentOverGrant isl draw) s = .next s))
    ∧ (∀ (s : State) (sensor temp : Nat), State.wf s = true → sensorThere s sensor = true → temp < 4096 →
    let above : Bool := decide (((8 * (sensorLimits sensor).1 : Nat) : Int) < tempInt temp)
    (atCritical sensor temp = false ∨ sensor = 332 → Gives (.thermalThrottle sensor temp) s fun t =>
        getF t 59 F.TEL_TEMP_TEMP sensor = temp ∧ getF t 59 F.TEL_TEMP_VALID sensor = 1 ∧ getF t 59 F.TEL_TEMP_THROT sensor = b2n above
          ∧ (∀ n, sensorIsland sensor = some n → above = true →
              t.weir.peaks = if getF s 59 F.WEIR_STATUS_MSTATE = 3 then s.weir.peaks else s.weir.peaks.set n (grantOf s n * 7 / 8))
          ∧ (sensor = 332 → t.mgmt.coolAlert = above)
          ∧ t.mem = s.mem ∧ t.dqp = s.dqp ∧ t.flash = s.flash ∧ t.sched = s.sched ∧ t.boot = s.boot)
    ∧ (sensor < 32 → atCritical sensor temp = true → enabled s sensor = true → reachState s sensor ∈ [0, 1, 4] → ReachFree s sensor →
      Gives (.reachCritical sensor temp) s fun t =>
        getF t sensor F.REACH_STATE_STATE = 2 ∧ getF t sensor F.REACH_STATE_CAUSE = 1 ∧ getF t 59 F.TEL_TEMP_CRIT sensor = 1
          ∧ (∀ a, reachWindow sensor ≤ a → a < reachWindow sensor + 0x2000000 → rdByte t a = 0)
          ∧ (∀ a, a < reachWindow sensor ∨ reachWindow sensor + 0x2000000 ≤ a → rdByte t a = rdByte s a)
          ∧ t.tiles = s.tiles ∧ t.dqp = s.dqp)
    ∧ (32 ≤ sensor → atCritical sensor temp = true → Up s → Gives (.thermalAbort sensor temp) s fun t =>
        getF t 59 F.WEIR_STATUS_MSTATE = 2 ∧ getF t 59 F.WEIR_STATUS_HALT_CAUSE = 3 ∧ getF t 59 F.WEIR_STATUS_STEP = 0
          ∧ getF t 59 F.TEL_TEMP_CRIT sensor = 1 ∧ t.tiles = [] ∧ t.flume.progs = []))
    ∧ (∀ s : State, State.wf s = true → s.boot.powered = true →
    (getF s 59 F.WEIR_STATUS_MSTATE ≠ 3 → getF s 59 F.WEIR_STATUS_MSTATE ≠ 4 → Gives .fatalError s fun t =>
        getF t 59 F.WEIR_STATUS_MSTATE = 2 ∧ getF t 59 F.WEIR_STATUS_STEP = 0 ∧ getF t 59 F.WEIR_STATUS_HALT_CAUSE = 5
          ∧ t.boot.fatal = true ∧ t.link.l0 = false ∧ t.link.session = false ∧ t.dqp.cmds = [] ∧ t.tiles = [] ∧ t.flume.progs = []
          ∧ t.ident.anchors = s.ident.anchors)
    ∧ (∀ (id : CmdId) (c : Cmd) (isl : Nat), id.sram = .lost isl → cmdById s id = some c → canStart s c = true → c.opcode = 0 →
        (∀ x ∈ baseConds c, x = 0) → onlyBytes c [] = true → 4096 ≤ c.bufBytes →
      Gives (.identify id) s fun t => EndsIn t c 0x4001 0 0 fun x =>
        x.dqp = s.dqp ∧ x.mem = s.mem ∧ x.flash = s.flash ∧ x.sched = s.sched ∧ x.boot = s.boot)
    ∧ (s.boot.resetPin = false → NoRival s → Up s → Gives .modResetAssert s fun t =>
        t.boot.resetPin = true ∧ t.boot.haltReset = true ∧ getF t 59 F.WEIR_STATUS_MSTATE = 2 ∧ t.tiles = [])
    ∧ (s.boot.resetPin = false → NoRival s → getF s 59 F.WEIR_STATUS_MSTATE = 3 → Gives .modResetAssert s fun t =>
        t.boot.resetPin = true ∧ getF t 59 F.WEIR_STATUS_MSTATE = 0 ∧ portUp t 0 = false ∧ portUp t 1 = false ∧ portUp t 2 = false)
    ∧ exec .modResetRelease s = .next { s with boot := { s.boot with resetPin := false } })

/-- UNIT_STATE orders on a unit that is named, enabled and in a state the order leaves, the first outstanding of the unit (R452): drain makes it DRAINING, test TESTING, join
JOINING, offline OFFLINE, each reported in RESULT0. A stack drains when its extents find room elsewhere; a join needs its last test
passed and its floor credit free; a channel joins when its line test finds nothing.
The reach's own transitions (R453): a self-test's end reports DONE and FAIL, a drain ends OFFLINE once no residency slot is held, a
joining reach is ONLINE after its quantum; in any other state nothing happens. -/
def Obligations.UnitsAndReachesMove : Prop :=
  (∀ (s : State) (id : CmdId) (c : Cmd) (fault : LineFault) (sensed : List Sensed) (marked : List (Nat × Nat × Nat)), State.wf s = true → Runs s id c 0x0C unitFields →
    let u := unitOf c
    unitNamed u = true → unitEnabled s u = true → (∀ x ∈ s.dqp.cmds, x.no < c.no → x.opcode = 0x0C → unitOf x ≠ u) →
    (c.b 33 1 = 0 → (∀ v ∈ unitStates s u, v = 0) → (u.1 = 3 → drainFits (releaseUnpinned (markStarted s c.no) (u.2.1 - 32)) (u.2.1 - 32) = true) →
      Gives (.unitDrain id) s fun t => EndsIn t c 0 1 0 fun x => ∀ v ∈ unitStates x u, v = 1)
    ∧ (c.b 33 1 = 1 → (∀ v ∈ unitStates s u, v = 2) →
      Gives (.unitTest id) s fun t => EndsIn t c 0 3 0 fun x => ∀ v ∈ unitStates x u, v = 3)
    ∧ (c.b 33 1 = 2 → (∀ v ∈ unitStates s u, v = 3) → unitPassed s u = true → joinFits s u.2.1 = true → (u.1 = 4 → fault.cause = 0) →
      Gives (.unitJoin id fault sensed marked) s fun t => EndsIn t c 0 4 0 fun x => ∀ v ∈ unitStates x u, v = 4)
    ∧ (c.b 33 1 = 3 → (∀ v ∈ unitStates s u, v = 3) →
      Gives (.unitOffline id) s fun t => EndsIn t c 0 2 0 fun x => ∀ v ∈ unitStates x u, v = 2))
    ∧ (∀ (s : State) (r : Nat) (failed : Bool), State.wf s = true → r < 32 → enabled s r = true →
    (reachState s r = 3 → Gives (.reachSelfTestDone r failed) s fun t =>
        getF t r F.REACH_STATE_BIST_DONE = 1 ∧ getF t r F.REACH_STATE_BIST_FAIL = b2n failed
          ∧ RegsBut s t [fieldKey r F.REACH_STATE_BIST_DONE 0 0, fieldKey r F.REACH_STATE_BIST_FAIL 0 0] ∧ t = { s with regs := t.regs })
    ∧ (reachState s r = 1 → ReachFree s r → Gives (.reachDrainComplete r) s fun t =>
        getF t r F.REACH_STATE_STATE = 2 ∧ RegsBut s t [fieldKey r F.REACH_STATE_STATE 0 0] ∧ t.mem = s.mem ∧ t.dqp = s.dqp ∧ t.tiles = s.tiles)
    ∧ (reachState s r = 4 → Gives (.reachJoinQuantum r) s fun t =>
        getF t r F.REACH_STATE_STATE = 0 ∧ RegsBut s t [fieldKey r F.REACH_STATE_STATE 0 0] ∧ t.mem = s.mem ∧ t.dqp = s.dqp ∧ t.tiles = s.tiles)
    ∧ (reachState s r ≠ 3 → exec (.reachSelfTestDone r failed) s = .next s) ∧ (reachState s r ≠ 1 → exec (.reachDrainComplete r) s = .next s)
    ∧ (reachState s r ≠ 4 → exec (.reachJoinQuantum r) s = .next s))

/-! ## Windows, marks and samples (R475-R482) -/

/-- A write of CNT_CTRL whose newly enabled counters have valid selections makes EN the value written and sets each counter of
CLEAR to 0, SAT with it; other counters keep their values (R476, R477).
A write of CNT_SMP_TAIL within the 64 records from HEAD frees the records before it (R479); one beyond them completes
with 0x1003 and changes nothing.
FREQ_MARK stores the cycles of every running island since its last mark, where it ran then, and begins the next interval; a stopped
island has none (R475); the figure of
island 59 is its nominal clock, a value the model takes, notes/assumptions 24. BW_WINDOW_END moves each port's bytes of the
window to its register, counts the window and reports a change of level, the cycles of the window counted for what waited in them
(R264, R265, R482); a new WIN holds from the first multiple of its length on, and where a shorter WIN cuts the window short is the
model's choice, notes/assumptions 53.
SAMPLE_CAPTURE of a counter whose capture is pending writes the 32-byte record at HEAD, of what the source of the crossing captured, or of
the last it issued with SKID 1 once it has ended, and moves HEAD on; with 64 records unread it is lost and counted; before either
nothing happens (R479-R481). -/
def Obligations.CountersMarksAndSamples : Prop :=
  (∀ (s : State) (isl v : Nat), State.wf s = true → mSorted none s.counters.values = true → isl < 60 → v < 2 ^ 16 → CanReach s 0 isl →
    (∀ n, n < 8 → v.testBit n = true → (getF s isl F.CNT_CTRL_EN).testBit n = true ∨ selOk s isl n = true) →
    let P (t : State) : Prop :=
      getF t isl F.CNT_CTRL_EN = v % 256
        ∧ (∀ n, n < 8 → v.testBit (8 + n) = true → mget 0 t.counters.values (8 * isl + n) = 0 ∧ getF t isl F.CNT_HI_SAT n = 0)
        ∧ (∀ n, n < 8 → v.testBit (8 + n) = false →
            mget 0 t.counters.values (8 * isl + n) = mget 0 s.counters.values (8 * isl + n) ∧ getF t isl F.CNT_HI_SAT n = getF s isl F.CNT_HI_SAT n)
        ∧ t = { s with regs := t.regs, out := t.out, counters := { s.counters with values := t.counters.values } }
    Gives (.counterEnable 0 isl v) s P ∧ Gives (.counterClear 0 isl v) s P)
    ∧ (∀ (s : State) (isl v : Nat), State.wf s = true → isl < 60 → v < 2 ^ 16 → CanReach s 0 isl → getF s isl F.CNT_SMP_HEAD_HEAD < 2 ^ 16 →
    ((getF s isl F.CNT_SMP_HEAD_HEAD + 65536 - v) % 65536 ≤ 64 →
      Gives (.cntSmpTailWrite 0 isl v) s fun t =>
        getF t isl F.CNT_SMP_TAIL_TAIL = v ∧ smpLevel t isl = (getF s isl F.CNT_SMP_HEAD_HEAD + 65536 - v) % 65536
          ∧ RegsBut s t [fieldKey isl F.CNT_SMP_TAIL_TAIL 0 0])
    ∧ (64 < (getF s isl F.CNT_SMP_HEAD_HEAD + 65536 - v) % 65536 →
      exec (.cntSmpTailWrite 0 isl v) s = .next { s with out := s.out ++ [answer 0 (regAddr isl R.CNT_SMP_TAIL.num 0) 0x1003 0] }))
    ∧ (∀ s : State, State.wf s = true → State.mapsWf s = true →
    (Gives .freqMark s fun t =>
        (∀ i, i < 60 → clockRuns s i = true → mfind t.counters.marks i = some (cyc s i + 1)
          ∧ (i = 59 → getF t i F.CNT_FREQ_KHZ = 1500000)
          ∧ (∀ m, i ≠ 59 → mfind s.counters.marks i = some m → getF t i F.CNT_FREQ_KHZ = min (cyc s i + 1 - m) (2 ^ 22 - 1))
          ∧ (i ≠ 59 → mfind s.counters.marks i = none → getF t i F.CNT_FREQ_KHZ = getF s i F.CNT_FREQ_KHZ))
        ∧ (∀ i, i < 60 → clockRuns s i = false → getF t i F.CNT_FREQ_KHZ = getF s i F.CNT_FREQ_KHZ ∧ mfind t.counters.marks i = none)
        ∧ t = { s with regs := t.regs, counters := { s.counters with marks := t.counters.marks } })
    ∧ (∀ i, i < 60 → clockRuns s i = true → getF s i F.CNT_CTRL_EN = 0 → getF s i F.CNT_BW_STATUS_SEQ < 2 ^ 31 →
        let win := getF s i F.CNT_BW_CFG_WIN
        let w := 2 ^ min (mget 20 s.counters.win i) win
        Gives (.bwWindowEnd i) s fun t =>
          cyc t i = max (cyc s i) ((cyc s i / w + 1) * w) % 2 ^ 64
            ∧ (∀ p, p < 8 → mget 0 t.counters.lastBytes (8 * i + p) = min (mget 0 s.counters.bytes (8 * i + p)) (2 ^ 48 - 1)
                ∧ mget 0 t.counters.bytes (8 * i + p) = 0)
            ∧ (∀ k, k / 8 ≠ i → mget 0 t.counters.lastBytes k = mget 0 s.counters.lastBytes k ∧ mget 0 t.counters.bytes k = mget 0 s.counters.bytes k)
            ∧ getF t i F.CNT_BW_STATUS_SEQ = min (getF s i F.CNT_BW_STATUS_SEQ + 1) (2 ^ 31 - 1)
            ∧ getF t i F.CNT_BW_STATUS_LEVEL_CHG = b2n (bit s.counters.lvlChanged i) ∧ bit t.counters.lvlChanged i = false
            ∧ mget 20 t.counters.win i = (if cyc t i % 2 ^ win = 0 then win else mget 20 s.counters.win i)
            ∧ RegsBut s t ([fieldKey i F.CNT_BW_STATUS_SEQ 0 0, fieldKey i F.CNT_BW_STATUS_LEVEL_CHG 0 0]
                ++ (List.range 16).map (fun k => fieldKey i F.SLUICE_STALLS_COUNT k 0)
                ++ ((List.range 8).map (fun e => [fieldKey i F.FLUME_STALL_SLUICE_COUNT e 0, fieldKey i F.FLUME_STALL_DEST_COUNT e 0])).flatten)
            ∧ t.mem = s.mem ∧ t.dqp = s.dqp ∧ t.flash = s.flash ∧ t.sched = s.sched ∧ t.tiles.map noDue = s.tiles.map noDue))
    ∧ (∀ (s : State) (isl n : Nat) (c : Capture), State.wf s = true → isl < 60 → s.counters.captures = [c] → c.island = isl → c.counter = n →
    getF s isl F.CNT_SMP_HEAD_HEAD < 2 ^ 16 →
    let h := getF s isl F.CNT_SMP_HEAD_HEAD
    (c.got = none → sourceEnded s c = false → exec (.sampleCapture isl n) s = .next s)
    ∧ ∀ x cycle skid, (c.got = some (x, cycle, skid) ∨ (c.got = none ∧ sourceEnded s c = true ∧ (x, cycle, skid) = (c.src, cyc s isl, true))) →
    let data := sampleRecord cycle n skid true x
    (smpLevel s isl < 64 → Gives (.sampleCapture isl n) s fun t =>
        (∀ k, k < 8 → getF t isl F.CNT_SMP_DATA_DATA (h % 64 * 8 + k) = ofBytes ((data.drop (4 * k)).take 4))
          ∧ getF t isl F.CNT_SMP_HEAD_HEAD = (h + 1) % 65536 ∧ t.counters.captures = [] ∧ t.mem = s.mem ∧ t.dqp = s.dqp)
    ∧ (64 ≤ smpLevel s isl → Gives (.sampleCapture isl n) s fun t =>
        getF t isl F.CNT_SMP_LOST_COUNT = min (getF s isl F.CNT_SMP_LOST_COUNT + 1) (2 ^ 32 - 1) ∧ getF t isl F.CNT_SMP_HEAD_HEAD = h
          ∧ t.counters.captures = [] ∧ RegsBut s t [fieldKey isl F.CNT_SMP_LOST_COUNT 0 0]))

/-! ## The management port and JTAG (R504-R511) -/

namespace Sys2Proof.Machine

/-- A request as R506 and R507 frame it: in I3C mode the code and its data; on SMBus the code, the count of data bytes, the data
and, optionally, the packet error code (CRC-8, notes/assumptions 25) over the address with its write bit and those bytes. -/
def MgmtFrame (s : State) (code : Nat) (data frame : List Byte) : Prop :=
  (s.boot.i3c = true ∧ frame = toBytes 1 code ++ data)
    ∨ (s.boot.i3c = false ∧ (frame = toBytes 1 code ++ toBytes 1 data.length ++ data
        ∨ frame = toBytes 1 code ++ toBytes 1 data.length ++ data
            ++ toBytes 1 (pec (toBytes 1 (2 * (0x40 + s.boot.slotId)) ++ toBytes 1 code ++ toBytes 1 data.length ++ data))))

/-- The state with a request's access done: SEQ one up, STATE 0, STATUS and VALUE of the access. -/
def mgmtDone (s : State) (r : State × Nat × Nat) : State :=
  { r.1 with mgmt := { r.1.mgmt with seq := (s.mgmt.seq + 1) % 256, state := 0, status := r.2.1, value := if r.2.1 = 0 then r.2.2 else 0 } }

end Sys2Proof.Machine

/-- A read or write request in a right frame is executed through the bridge on the register at its 24-bit address, and its result waits in
the response; an address outside the island spaces ends with 0x1002; a frame of another length is discarded with STATE 3
and 0x1002 and leaves SEQ as it was; a response gives SEQ, STATE, STATUS and VALUE (R506, R507). That a request has ended when
it is answered is the model's choice, notes/assumptions 26.
Dynamic addresses of the port in I3C mode (R505): SETDASA naming its static address and ENTDAA give one where it has none, RSTDAA
takes it away; outside I3C mode each does nothing. In I3C mode with 3.3 V on VDD_MGMT the bridge answers no transaction (R504).
Each TAP shifts out 0b00000001 as it takes an instruction, the identification of its die for IDCODE, takes any other code as BYPASS, and acts on its boundary cells for
SAMPLE/PRELOAD and EXTEST in HALTED alone; TRST_N puts every TAP into reset, with IDCODE (notes/assumptions 25), and no pin is driven (R510, R511). -/
def Obligations.ManagementPortAndTaps : Prop :=
  (∀ (s : State) (a v : Nat) (frame : List Byte), mgmtUp s = true →
    (a < 2 ^ 22 → MgmtFrame s 1 (toBytes 3 a) frame → exec (.mgmtRead frame) s = .next (mgmtDone s (regAccess s true false (configBase + a) 0)))
    ∧ (a < 2 ^ 22 → v < 2 ^ 32 → MgmtFrame s 2 (toBytes 3 a ++ toBytes 4 v) frame →
        exec (.mgmtWrite frame) s = .next (mgmtDone s (regAccess s true true (configBase + a) v)))
    ∧ (2 ^ 22 ≤ a → a < 2 ^ 24 → MgmtFrame s 1 (toBytes 3 a) frame → exec (.mgmtRead frame) s = .next (mgmtDone s (s, 0x1002, 0)))
    ∧ (frame.head? = some 1 → 6 < frame.length →
        exec (.mgmtRead frame) s = .next { s with mgmt := { s.mgmt with state := 3, status := 0x1002, value := 0 } })
    ∧ (∀ n, s.boot.i3c = true → exec (.mgmtResponse n) s = .next { s with out := s.out ++
        [.mgmt ((toBytes 1 s.mgmt.seq ++ toBytes 1 s.mgmt.state ++ toBytes 2 s.mgmt.status ++ toBytes 4 s.mgmt.value).take n)] }))
    ∧ (∀ (s : State) (frame : List Byte) (n a d : Nat), s.boot.i3c = true → s.boot.vdd33 = true →
      exec (.mgmtRead frame) s = .next s ∧ exec (.mgmtWrite frame) s = .next s ∧ exec (.mgmtResponse n) s = .next s
        ∧ exec (.setdasa a d) s = .next s ∧ exec (.entdaa d) s = .next s ∧ exec .rstdaa s = .next s)
    ∧ (∀ (s : State) (d : Nat), portUp s 1 = true → d < 128 →
    (s.boot.i3c = true → s.boot.vdd33 = false →
      (s.mgmt.dyn = none → exec (.setdasa (0x40 + s.boot.slotId) d) s = .next { s with mgmt := { s.mgmt with dyn := some d } }
        ∧ exec (.entdaa d) s = .next { s with mgmt := { s.mgmt with dyn := some d } })
      ∧ exec .rstdaa s = .next { s with mgmt := { s.mgmt with dyn := none } }
      ∧ (∀ st, st ≠ 0x40 + s.boot.slotId → exec (.setdasa st d) s = .next s))
    ∧ (s.boot.i3c = false → exec (.setdasa (0x40 + s.boot.slotId) d) s = .next s ∧ exec (.entdaa d) s = .next s ∧ exec .rstdaa s = .next s))
    ∧ (∀ (s : State) (tap code : Nat) (cells : List Bool), tapOk s tap = true →
    let id := if tap = 0 then 0x1914014B else if tap ≤ 2 then 0x1914114B else 0x1914214B
    let bits (n v : Nat) : Output := .jtag ((List.range n).map (fun i => Nat.testBit v i))
    let ir (c : Nat) (t : State) : Prop := t.jtag.ir = s.jtag.ir.set tap c
    (Gives (.jtagIdcode tap) s fun t => ir 1 t ∧ t.out = s.out ++ [bits 8 1, bits 32 id] ∧ t = { s with jtag := t.jtag, out := t.out })
    ∧ (code < 256 → code = 0 ∨ 3 < code → Gives (.jtagBypass tap code) s fun t => ir code t ∧ t.jtag.cells = s.jtag.cells ∧ t = { s with jtag := t.jtag, out := s.out ++ [bits 8 1] })
    ∧ (Gives (.jtagSamplePreload tap cells) s fun t =>
        ir 2 t ∧ t.jtag.cells = (if getF s 59 F.WEIR_STATUS_MSTATE = 3 then s.jtag.cells.set tap cells else s.jtag.cells) ∧ t = { s with jtag := t.jtag, out := s.out ++ [bits 8 1] })
    ∧ (Gives (.jtagExtest tap cells) s fun t =>
        ir 3 t ∧ t = { s with jtag := t.jtag, out := s.out ++ [bits 8 1] }
          ∧ (getF s 59 F.WEIR_STATUS_MSTATE = 3 → cells ≠ [] → t.jtag.driven = s.jtag.driven.set tap cells)
          ∧ (getF s 59 F.WEIR_STATUS_MSTATE ≠ 3 → t.jtag.driven = s.jtag.driven.set tap [] ∧ t.jtag.cells = s.jtag.cells))
    ∧ (Gives .trstNAssert s fun t => t.jtag.ir = [1, 1, 1, 1, 1, 1, 1] ∧ (∀ k, t.jtag.driven.getD k [] = []) ∧ t = { s with jtag := t.jtag }))
end

