-- ==== Sys2Proof/Laws/Maps.lean ====
section
/-!
SUPPORT. Laws/Maps.lean: the laws of the sparse maps: read after write, other keys, and the canonical form kept.
-/
namespace Sys2Proof.Machine

variable {α : Type}

/-- Every key is above `lo`, and the keys rise. -/
theorem mSorted_cons (lo : Option Nat) (k : Nat) (v : α) (m : NMap α) :
    mSorted lo ((k, v) :: m) = true ↔ (∀ l, lo = some l → l < k) ∧ mSorted (some k) m = true := by
  cases lo <;> simp [mSorted]

theorem mSorted_weaken {lo lo' : Option Nat} {m : NMap α} (h : mSorted lo m = true)
    (hl : ∀ l', lo' = some l' → ∃ l, lo = some l ∧ l' ≤ l) : mSorted lo' m = true := by
  cases m with
  | nil => rfl
  | cons p m =>
    obtain ⟨k, v⟩ := p
    rw [mSorted_cons] at h ⊢
    refine ⟨fun l' e => ?_, h.2⟩
    obtain ⟨l, e', hle⟩ := hl l' e
    exact Nat.lt_of_le_of_lt hle (h.1 l e')

theorem mSorted_none {lo : Option Nat} {m : NMap α} (h : mSorted lo m = true) : mSorted none m = true :=
  mSorted_weaken h (by simp)

/-- A key not above the bound is not listed. -/
theorem mfind_below {k x : Nat} {m : NMap α} (h : mSorted (some k) m = true) (hx : x ≤ k) : mfind m x = none := by
  cases m with
  | nil => rfl
  | cons p m =>
    obtain ⟨j, v⟩ := p
    have := ((mSorted_cons _ _ _ _).1 h).1 k rfl
    simp only [mfind]
    rw [if_neg (by omega), if_pos (by omega)]

@[simp] theorem mfind_mins_same (m : NMap α) (x : Nat) (v : α) : mfind (mins m x v) x = some v := by
  induction m with
  | nil => simp [mins, mfind]
  | cons p m ih =>
    obtain ⟨k, w⟩ := p
    simp only [mins]
    by_cases h1 : x = k
    · simp [h1, mfind]
    · by_cases h2 : x < k
      · simp [h1, h2, mfind]
      · simp [h1, h2, mfind, ih]

theorem mfind_mins_ne {x y : Nat} (h : y ≠ x) (v : α) {m : NMap α} (hm : mSorted none m = true) :
    mfind (mins m x v) y = mfind m y := by
  induction m with
  | nil => simp only [mins, mfind, if_neg h, ite_self]
  | cons p m ih =>
    obtain ⟨k, w⟩ := p
    have hs := ((mSorted_cons _ _ _ _).1 hm).2
    simp only [mins]
    by_cases h1 : x = k
    · subst h1; simp [mfind, h]
    · by_cases h2 : x < k
      · simp only [h1, h2, if_true, if_false, mfind, if_neg h]
        by_cases h3 : y < x
        · rw [if_pos h3, if_neg (by omega), if_pos (by omega)]
        · rw [if_neg h3]
      · simp only [h1, h2, if_false, mfind, ih (mSorted_none hs)]

theorem mfind_mdel_same {x : Nat} {m : NMap α} (hm : mSorted none m = true) : mfind (mdel m x) x = none := by
  induction m with
  | nil => rfl
  | cons p m ih =>
    obtain ⟨k, w⟩ := p
    have hs := ((mSorted_cons _ _ _ _).1 hm).2
    simp only [mdel]
    by_cases h1 : x = k
    · rw [if_pos h1]; exact mfind_below hs (by omega)
    · by_cases h2 : x < k
      · simp [h1, h2, mfind]
      · simp [h1, h2, mfind, ih (mSorted_none hs)]

theorem mfind_mdel_ne {x y : Nat} (h : y ≠ x) {m : NMap α} (hm : mSorted none m = true) :
    mfind (mdel m x) y = mfind m y := by
  induction m with
  | nil => rfl
  | cons p m ih =>
    obtain ⟨k, w⟩ := p
    have hs := ((mSorted_cons _ _ _ _).1 hm).2
    simp only [mdel]
    by_cases h1 : x = k
    · rw [if_pos h1]
      simp only [mfind]
      rw [if_neg (by omega)]
      by_cases h2 : y < k
      · rw [if_pos h2]; exact mfind_below hs (by omega)
      · rw [if_neg h2]
    · by_cases h2 : x < k
      · simp [h1, h2]
      · simp only [h1, h2, if_false, mfind, ih (mSorted_none hs)]

theorem mSorted_mins {lo : Option Nat} {m : NMap α} {x : Nat} (v : α) (hm : mSorted lo m = true)
    (hx : ∀ l, lo = some l → l < x) : mSorted lo (mins m x v) = true := by
  induction m generalizing lo with
  | nil => simp only [mins, mSorted_cons]; exact ⟨hx, rfl⟩
  | cons p m ih =>
    obtain ⟨k, w⟩ := p
    have hc := (mSorted_cons _ _ _ _).1 hm
    simp only [mins]
    by_cases h1 : x = k
    · rw [if_pos h1, mSorted_cons]; exact hc
    · by_cases h2 : x < k
      · rw [if_neg h1, if_pos h2, mSorted_cons, mSorted_cons]
        exact ⟨hx, by simpa using h2, hc.2⟩
      · rw [if_neg h1, if_neg h2, mSorted_cons]
        exact ⟨hc.1, ih hc.2 (by rintro l ⟨⟩; omega)⟩

theorem mSorted_mdel {lo : Option Nat} {m : NMap α} (x : Nat) (hm : mSorted lo m = true) :
    mSorted lo (mdel m x) = true := by
  induction m generalizing lo with
  | nil => rfl
  | cons p m ih =>
    obtain ⟨k, w⟩ := p
    have hc := (mSorted_cons _ _ _ _).1 hm
    simp only [mdel]
    by_cases h1 : x = k
    · rw [if_pos h1]
      refine mSorted_weaken hc.2 (fun l e => ⟨k, rfl, ?_⟩)
      exact Nat.le_of_lt (hc.1 l e)
    · by_cases h2 : x < k
      · rw [if_neg h1, if_pos h2]; exact hm
      · rw [if_neg h1, if_neg h2, mSorted_cons]; exact ⟨hc.1, ih hc.2⟩

theorem mSorted_filter {lo : Option Nat} {m : NMap α} (p : Nat × α → Bool) (hm : mSorted lo m = true) :
    mSorted lo (m.filter p) = true := by
  induction m generalizing lo with
  | nil => rfl
  | cons q m ih =>
    obtain ⟨k, w⟩ := q
    have hc := (mSorted_cons _ _ _ _).1 hm
    by_cases h : p (k, w) = true
    · rw [List.filter_cons_of_pos h, mSorted_cons]; exact ⟨hc.1, ih hc.2⟩
    · rw [List.filter_cons_of_neg h]
      refine ih (mSorted_weaken hc.2 (fun l e => ⟨k, rfl, Nat.le_of_lt (hc.1 l e)⟩))

theorem mem_mins {m : NMap α} {x : Nat} {v : α} {p : Nat × α} (h : p ∈ mins m x v) : p = (x, v) ∨ p ∈ m := by
  induction m with
  | nil => simpa [mins] using h
  | cons q m ih =>
    obtain ⟨k, w⟩ := q
    simp only [mins] at h
    by_cases h1 : x = k
    · rw [if_pos h1] at h
      rcases List.mem_cons.1 h with e | e
      · left; rw [e, h1]
      · right; exact List.mem_cons_of_mem _ e
    · by_cases h2 : x < k
      · rw [if_neg h1, if_pos h2] at h; exact List.mem_cons.1 h
      · rw [if_neg h1, if_neg h2] at h
        rcases List.mem_cons.1 h with e | e
        · right; exact e ▸ List.mem_cons_self
        · exact (ih e).imp id (List.mem_cons_of_mem _)

theorem mem_mdel {m : NMap α} {x : Nat} {p : Nat × α} (h : p ∈ mdel m x) : p ∈ m := by
  induction m with
  | nil => exact h
  | cons q m ih =>
    obtain ⟨k, w⟩ := q
    simp only [mdel] at h
    by_cases h1 : x = k
    · rw [if_pos h1] at h; exact List.mem_cons_of_mem _ h
    · by_cases h2 : x < k
      · rw [if_neg h1, if_pos h2] at h; exact h
      · rw [if_neg h1, if_neg h2] at h
        rcases List.mem_cons.1 h with e | e
        · exact e ▸ List.mem_cons_self
        · exact List.mem_cons_of_mem _ (ih e)

section Values
variable [DecidableEq α]

theorem mSorted_mset {m : NMap α} (d : α) (x : Nat) (v : α) (hm : mSorted none m = true) :
    mSorted none (mset d m x v) = true := by
  unfold mset; split
  · exact mSorted_mdel x hm
  · exact mSorted_mins v hm (by simp)

/-- A write is read back. -/
theorem mget_mset_same {m : NMap α} (d : α) (x : Nat) (v : α) (hm : mSorted none m = true) :
    mget d (mset d m x v) x = v := by
  unfold mset mget; split
  · next h => rw [mfind_mdel_same hm, h]; rfl
  · rw [mfind_mins_same]; rfl

/-- A write leaves every other key alone. -/
theorem mget_mset_ne {m : NMap α} (d e : α) {x y : Nat} (v : α) (h : y ≠ x) (hm : mSorted none m = true) :
    mget e (mset d m x v) y = mget e m y := by
  unfold mset mget; split
  · rw [mfind_mdel_ne h hm]
  · rw [mfind_mins_ne h v hm]

/-- Every write keeps the canonical form. -/
theorem mCanon_mset {d : α} {m : NMap α} (x : Nat) (v : α) (h : mCanon d m = true) : mCanon d (mset d m x v) = true := by
  simp only [mCanon, Bool.and_eq_true, List.all_eq_true, decide_eq_true_eq] at h ⊢
  refine ⟨mSorted_mset d x v h.1, fun p hp => ?_⟩
  unfold mset at hp; split at hp
  · exact h.2 p (mem_mdel hp)
  · next hv => rcases mem_mins hp with e | e
               · rw [e]; exact hv
               · exact h.2 p e

/-- Dropping entries keeps the canonical form. -/
theorem mCanon_filter {d : α} {m : NMap α} (p : Nat × α → Bool) (h : mCanon d m = true) : mCanon d (m.filter p) = true := by
  simp only [mCanon, Bool.and_eq_true, List.all_eq_true, decide_eq_true_eq] at h ⊢
  exact ⟨mSorted_filter p h.1, fun q hq => h.2 q ((List.mem_filter.1 hq).1)⟩

end Values

/-! ### Sets as ranges -/

theorem rSorted_weaken {lo lo' : Nat} {m : NMap Nat} (h : rSorted lo m = true) (hl : lo' ≤ lo) : rSorted lo' m = true := by
  cases m with
  | nil => rfl
  | cons p m => simp only [rSorted, Bool.and_eq_true, decide_eq_true_eq] at h ⊢; exact ⟨⟨by omega, h.1.2⟩, h.2⟩

/-- Taking a range out keeps ranges disjoint and rising. -/
theorem rSorted_rangeDel {m : NMap Nat} (a b : Nat) (hab : a ≤ b) : ∀ {lo : Nat}, rSorted lo m = true → rSorted lo (rangeDel m a b) = true := by
  induction m with
  | nil => intro lo h; rfl
  | cons p m ih =>
    obtain ⟨x, y⟩ := p
    intro lo h
    simp only [rSorted, Bool.and_eq_true, decide_eq_true_eq] at h
    obtain ⟨⟨h1, h2⟩, h3⟩ := h
    have hm := ih h3
    have hm' : rSorted lo (rangeDel m a b) = true := rSorted_weaken hm (by omega)
    simp only [rangeDel]
    by_cases c1 : x < min y a <;> by_cases c2 : max x b < y <;> simp only [c1, c2, if_true, if_false, List.nil_append, List.cons_append, rSorted,
      Bool.and_eq_true, decide_eq_true_eq] <;> try exact hm'
    · exact ⟨⟨h1, trivial⟩, ⟨by omega, trivial⟩, hm⟩
    · exact ⟨⟨h1, trivial⟩, rSorted_weaken hm (by omega)⟩
    · exact ⟨⟨by omega, trivial⟩, hm⟩

/-- Adding a range keeps ranges disjoint and rising. -/
theorem rSorted_rangeAdd {m : NMap Nat} : ∀ {a b lo : Nat}, a < b → lo ≤ a → rSorted lo m = true → rSorted lo (rangeAdd m a b) = true := by
  induction m with
  | nil => intro a b lo hab hl h; simp [rangeAdd, rSorted, hab, hl]
  | cons p m ih =>
    obtain ⟨x, y⟩ := p
    intro a b lo hab hl h
    simp only [rSorted, Bool.and_eq_true, decide_eq_true_eq] at h
    obtain ⟨⟨h1, h2⟩, h3⟩ := h
    simp only [rangeAdd]
    split
    · simp only [rSorted, Bool.and_eq_true, decide_eq_true_eq]; exact ⟨⟨hl, hab⟩, ⟨by omega, h2⟩, h3⟩
    · split
      · simp only [rSorted, Bool.and_eq_true, decide_eq_true_eq]; exact ⟨⟨h1, h2⟩, ih hab (by omega) h3⟩
      · exact ih (by omega) (by omega) (rSorted_weaken h3 (by omega))

end Sys2Proof.Machine
end

