-- ==== Sys2Proof/Laws/State.lean ====
section
/-!
SUPPORT. Laws/State.lean: for each operation that writes one part of the state, that every other part is as it was, and
what the register operations do to the register store.
-/
namespace Sys2Proof.Machine

variable (s : State)

@[simp] theorem setF_variant (isl : Nat) (f : Field) (v i j : Nat) : (setF s isl f v i j).variant = s.variant := rfl
@[simp] theorem setF_act (isl : Nat) (f : Field) (v i j : Nat) : (setF s isl f v i j).act = s.act := rfl
@[simp] theorem setF_pend (isl : Nat) (f : Field) (v i j : Nat) : (setF s isl f v i j).pend = s.pend := rfl
@[simp] theorem setF_link (isl : Nat) (f : Field) (v i j : Nat) : (setF s isl f v i j).link = s.link := rfl
@[simp] theorem setF_dqp (isl : Nat) (f : Field) (v i j : Nat) : (setF s isl f v i j).dqp = s.dqp := rfl
@[simp] theorem setF_mem (isl : Nat) (f : Field) (v i j : Nat) : (setF s isl f v i j).mem = s.mem := rfl
@[simp] theorem setF_tiles (isl : Nat) (f : Field) (v i j : Nat) : (setF s isl f v i j).tiles = s.tiles := rfl
@[simp] theorem setF_runnels (isl : Nat) (f : Field) (v i j : Nat) : (setF s isl f v i j).runnels = s.runnels := rfl
@[simp] theorem setF_flume (isl : Nat) (f : Field) (v i j : Nat) : (setF s isl f v i j).flume = s.flume := rfl
@[simp] theorem setF_sched (isl : Nat) (f : Field) (v i j : Nat) : (setF s isl f v i j).sched = s.sched := rfl
@[simp] theorem setF_search (isl : Nat) (f : Field) (v i j : Nat) : (setF s isl f v i j).search = s.search := rfl
@[simp] theorem setF_media (isl : Nat) (f : Field) (v i j : Nat) : (setF s isl f v i j).media = s.media := rfl
@[simp] theorem setF_flash (isl : Nat) (f : Field) (v i j : Nat) : (setF s isl f v i j).flash = s.flash := rfl
@[simp] theorem setF_prot (isl : Nat) (f : Field) (v i j : Nat) : (setF s isl f v i j).prot = s.prot := rfl
@[simp] theorem setF_boot (isl : Nat) (f : Field) (v i j : Nat) : (setF s isl f v i j).boot = s.boot := rfl
@[simp] theorem setF_weir (isl : Nat) (f : Field) (v i j : Nat) : (setF s isl f v i j).weir = s.weir := rfl
@[simp] theorem setF_ident (isl : Nat) (f : Field) (v i j : Nat) : (setF s isl f v i j).ident = s.ident := rfl
@[simp] theorem setF_counters (isl : Nat) (f : Field) (v i j : Nat) : (setF s isl f v i j).counters = s.counters := rfl
@[simp] theorem setF_mgmt (isl : Nat) (f : Field) (v i j : Nat) : (setF s isl f v i j).mgmt = s.mgmt := rfl
@[simp] theorem setF_jtag (isl : Nat) (f : Field) (v i j : Nat) : (setF s isl f v i j).jtag = s.jtag := rfl
@[simp] theorem setF_out (isl : Nat) (f : Field) (v i j : Nat) : (setF s isl f v i j).out = s.out := rfl
@[simp] theorem setF_freeCount (isl : Nat) (f : Field) (v i j : Nat) : (setF s isl f v i j).freeCount = s.freeCount := rfl
@[simp] theorem setF_pending (isl : Nat) (f : Field) (v i j : Nat) : (setF s isl f v i j).pending = s.pending := rfl

@[simp] theorem addF_variant (isl : Nat) (f : Field) (n i j : Nat) : (addF s isl f n i j).variant = s.variant := rfl
@[simp] theorem addF_act (isl : Nat) (f : Field) (n i j : Nat) : (addF s isl f n i j).act = s.act := rfl
@[simp] theorem addF_pend (isl : Nat) (f : Field) (n i j : Nat) : (addF s isl f n i j).pend = s.pend := rfl
@[simp] theorem addF_link (isl : Nat) (f : Field) (n i j : Nat) : (addF s isl f n i j).link = s.link := rfl
@[simp] theorem addF_dqp (isl : Nat) (f : Field) (n i j : Nat) : (addF s isl f n i j).dqp = s.dqp := rfl
@[simp] theorem addF_mem (isl : Nat) (f : Field) (n i j : Nat) : (addF s isl f n i j).mem = s.mem := rfl
@[simp] theorem addF_tiles (isl : Nat) (f : Field) (n i j : Nat) : (addF s isl f n i j).tiles = s.tiles := rfl
@[simp] theorem addF_runnels (isl : Nat) (f : Field) (n i j : Nat) : (addF s isl f n i j).runnels = s.runnels := rfl
@[simp] theorem addF_flume (isl : Nat) (f : Field) (n i j : Nat) : (addF s isl f n i j).flume = s.flume := rfl
@[simp] theorem addF_sched (isl : Nat) (f : Field) (n i j : Nat) : (addF s isl f n i j).sched = s.sched := rfl
@[simp] theorem addF_search (isl : Nat) (f : Field) (n i j : Nat) : (addF s isl f n i j).search = s.search := rfl
@[simp] theorem addF_media (isl : Nat) (f : Field) (n i j : Nat) : (addF s isl f n i j).media = s.media := rfl
@[simp] theorem addF_flash (isl : Nat) (f : Field) (n i j : Nat) : (addF s isl f n i j).flash = s.flash := rfl
@[simp] theorem addF_prot (isl : Nat) (f : Field) (n i j : Nat) : (addF s isl f n i j).prot = s.prot := rfl
@[simp] theorem addF_boot (isl : Nat) (f : Field) (n i j : Nat) : (addF s isl f n i j).boot = s.boot := rfl
@[simp] theorem addF_weir (isl : Nat) (f : Field) (n i j : Nat) : (addF s isl f n i j).weir = s.weir := rfl
@[simp] theorem addF_ident (isl : Nat) (f : Field) (n i j : Nat) : (addF s isl f n i j).ident = s.ident := rfl
@[simp] theorem addF_counters (isl : Nat) (f : Field) (n i j : Nat) : (addF s isl f n i j).counters = s.counters := rfl
@[simp] theorem addF_mgmt (isl : Nat) (f : Field) (n i j : Nat) : (addF s isl f n i j).mgmt = s.mgmt := rfl
@[simp] theorem addF_jtag (isl : Nat) (f : Field) (n i j : Nat) : (addF s isl f n i j).jtag = s.jtag := rfl
@[simp] theorem addF_out (isl : Nat) (f : Field) (n i j : Nat) : (addF s isl f n i j).out = s.out := rfl
@[simp] theorem addF_freeCount (isl : Nat) (f : Field) (n i j : Nat) : (addF s isl f n i j).freeCount = s.freeCount := rfl
@[simp] theorem addF_pending (isl : Nat) (f : Field) (n i j : Nat) : (addF s isl f n i j).pending = s.pending := rfl

@[simp] theorem subF_variant (isl : Nat) (f : Field) (n i j : Nat) : (subF s isl f n i j).variant = s.variant := rfl
@[simp] theorem subF_act (isl : Nat) (f : Field) (n i j : Nat) : (subF s isl f n i j).act = s.act := rfl
@[simp] theorem subF_pend (isl : Nat) (f : Field) (n i j : Nat) : (subF s isl f n i j).pend = s.pend := rfl
@[simp] theorem subF_link (isl : Nat) (f : Field) (n i j : Nat) : (subF s isl f n i j).link = s.link := rfl
@[simp] theorem subF_dqp (isl : Nat) (f : Field) (n i j : Nat) : (subF s isl f n i j).dqp = s.dqp := rfl
@[simp] theorem subF_mem (isl : Nat) (f : Field) (n i j : Nat) : (subF s isl f n i j).mem = s.mem := rfl
@[simp] theorem subF_tiles (isl : Nat) (f : Field) (n i j : Nat) : (subF s isl f n i j).tiles = s.tiles := rfl
@[simp] theorem subF_runnels (isl : Nat) (f : Field) (n i j : Nat) : (subF s isl f n i j).runnels = s.runnels := rfl
@[simp] theorem subF_flume (isl : Nat) (f : Field) (n i j : Nat) : (subF s isl f n i j).flume = s.flume := rfl
@[simp] theorem subF_sched (isl : Nat) (f : Field) (n i j : Nat) : (subF s isl f n i j).sched = s.sched := rfl
@[simp] theorem subF_search (isl : Nat) (f : Field) (n i j : Nat) : (subF s isl f n i j).search = s.search := rfl
@[simp] theorem subF_media (isl : Nat) (f : Field) (n i j : Nat) : (subF s isl f n i j).media = s.media := rfl
@[simp] theorem subF_flash (isl : Nat) (f : Field) (n i j : Nat) : (subF s isl f n i j).flash = s.flash := rfl
@[simp] theorem subF_prot (isl : Nat) (f : Field) (n i j : Nat) : (subF s isl f n i j).prot = s.prot := rfl
@[simp] theorem subF_boot (isl : Nat) (f : Field) (n i j : Nat) : (subF s isl f n i j).boot = s.boot := rfl
@[simp] theorem subF_weir (isl : Nat) (f : Field) (n i j : Nat) : (subF s isl f n i j).weir = s.weir := rfl
@[simp] theorem subF_ident (isl : Nat) (f : Field) (n i j : Nat) : (subF s isl f n i j).ident = s.ident := rfl
@[simp] theorem subF_counters (isl : Nat) (f : Field) (n i j : Nat) : (subF s isl f n i j).counters = s.counters := rfl
@[simp] theorem subF_mgmt (isl : Nat) (f : Field) (n i j : Nat) : (subF s isl f n i j).mgmt = s.mgmt := rfl
@[simp] theorem subF_jtag (isl : Nat) (f : Field) (n i j : Nat) : (subF s isl f n i j).jtag = s.jtag := rfl
@[simp] theorem subF_out (isl : Nat) (f : Field) (n i j : Nat) : (subF s isl f n i j).out = s.out := rfl
@[simp] theorem subF_freeCount (isl : Nat) (f : Field) (n i j : Nat) : (subF s isl f n i j).freeCount = s.freeCount := rfl
@[simp] theorem subF_pending (isl : Nat) (f : Field) (n i j : Nat) : (subF s isl f n i j).pending = s.pending := rfl

@[simp] theorem setFBit_variant (isl : Nat) (f : Field) (b : Nat) (v : Bool) (i j : Nat) : (setFBit s isl f b v i j).variant = s.variant := rfl
@[simp] theorem setFBit_act (isl : Nat) (f : Field) (b : Nat) (v : Bool) (i j : Nat) : (setFBit s isl f b v i j).act = s.act := rfl
@[simp] theorem setFBit_pend (isl : Nat) (f : Field) (b : Nat) (v : Bool) (i j : Nat) : (setFBit s isl f b v i j).pend = s.pend := rfl
@[simp] theorem setFBit_link (isl : Nat) (f : Field) (b : Nat) (v : Bool) (i j : Nat) : (setFBit s isl f b v i j).link = s.link := rfl
@[simp] theorem setFBit_dqp (isl : Nat) (f : Field) (b : Nat) (v : Bool) (i j : Nat) : (setFBit s isl f b v i j).dqp = s.dqp := rfl
@[simp] theorem setFBit_mem (isl : Nat) (f : Field) (b : Nat) (v : Bool) (i j : Nat) : (setFBit s isl f b v i j).mem = s.mem := rfl
@[simp] theorem setFBit_tiles (isl : Nat) (f : Field) (b : Nat) (v : Bool) (i j : Nat) : (setFBit s isl f b v i j).tiles = s.tiles := rfl
@[simp] theorem setFBit_runnels (isl : Nat) (f : Field) (b : Nat) (v : Bool) (i j : Nat) : (setFBit s isl f b v i j).runnels = s.runnels := rfl
@[simp] theorem setFBit_flume (isl : Nat) (f : Field) (b : Nat) (v : Bool) (i j : Nat) : (setFBit s isl f b v i j).flume = s.flume := rfl
@[simp] theorem setFBit_sched (isl : Nat) (f : Field) (b : Nat) (v : Bool) (i j : Nat) : (setFBit s isl f b v i j).sched = s.sched := rfl
@[simp] theorem setFBit_search (isl : Nat) (f : Field) (b : Nat) (v : Bool) (i j : Nat) : (setFBit s isl f b v i j).search = s.search := rfl
@[simp] theorem setFBit_media (isl : Nat) (f : Field) (b : Nat) (v : Bool) (i j : Nat) : (setFBit s isl f b v i j).media = s.media := rfl
@[simp] theorem setFBit_flash (isl : Nat) (f : Field) (b : Nat) (v : Bool) (i j : Nat) : (setFBit s isl f b v i j).flash = s.flash := rfl
@[simp] theorem setFBit_prot (isl : Nat) (f : Field) (b : Nat) (v : Bool) (i j : Nat) : (setFBit s isl f b v i j).prot = s.prot := rfl
@[simp] theorem setFBit_boot (isl : Nat) (f : Field) (b : Nat) (v : Bool) (i j : Nat) : (setFBit s isl f b v i j).boot = s.boot := rfl
@[simp] theorem setFBit_weir (isl : Nat) (f : Field) (b : Nat) (v : Bool) (i j : Nat) : (setFBit s isl f b v i j).weir = s.weir := rfl
@[simp] theorem setFBit_ident (isl : Nat) (f : Field) (b : Nat) (v : Bool) (i j : Nat) : (setFBit s isl f b v i j).ident = s.ident := rfl
@[simp] theorem setFBit_counters (isl : Nat) (f : Field) (b : Nat) (v : Bool) (i j : Nat) : (setFBit s isl f b v i j).counters = s.counters := rfl
@[simp] theorem setFBit_mgmt (isl : Nat) (f : Field) (b : Nat) (v : Bool) (i j : Nat) : (setFBit s isl f b v i j).mgmt = s.mgmt := rfl
@[simp] theorem setFBit_jtag (isl : Nat) (f : Field) (b : Nat) (v : Bool) (i j : Nat) : (setFBit s isl f b v i j).jtag = s.jtag := rfl
@[simp] theorem setFBit_out (isl : Nat) (f : Field) (b : Nat) (v : Bool) (i j : Nat) : (setFBit s isl f b v i j).out = s.out := rfl
@[simp] theorem setFBit_freeCount (isl : Nat) (f : Field) (b : Nat) (v : Bool) (i j : Nat) : (setFBit s isl f b v i j).freeCount = s.freeCount := rfl
@[simp] theorem setFBit_pending (isl : Nat) (f : Field) (b : Nat) (v : Bool) (i j : Nat) : (setFBit s isl f b v i j).pending = s.pending := rfl

@[simp] theorem setA_variant (isl : Nat) (f : Field) (v i j : Nat) : (setA s isl f v i j).variant = s.variant := rfl
@[simp] theorem setA_regs (isl : Nat) (f : Field) (v i j : Nat) : (setA s isl f v i j).regs = s.regs := rfl
@[simp] theorem setA_pend (isl : Nat) (f : Field) (v i j : Nat) : (setA s isl f v i j).pend = s.pend := rfl
@[simp] theorem setA_link (isl : Nat) (f : Field) (v i j : Nat) : (setA s isl f v i j).link = s.link := rfl
@[simp] theorem setA_dqp (isl : Nat) (f : Field) (v i j : Nat) : (setA s isl f v i j).dqp = s.dqp := rfl
@[simp] theorem setA_mem (isl : Nat) (f : Field) (v i j : Nat) : (setA s isl f v i j).mem = s.mem := rfl
@[simp] theorem setA_tiles (isl : Nat) (f : Field) (v i j : Nat) : (setA s isl f v i j).tiles = s.tiles := rfl
@[simp] theorem setA_runnels (isl : Nat) (f : Field) (v i j : Nat) : (setA s isl f v i j).runnels = s.runnels := rfl
@[simp] theorem setA_flume (isl : Nat) (f : Field) (v i j : Nat) : (setA s isl f v i j).flume = s.flume := rfl
@[simp] theorem setA_sched (isl : Nat) (f : Field) (v i j : Nat) : (setA s isl f v i j).sched = s.sched := rfl
@[simp] theorem setA_search (isl : Nat) (f : Field) (v i j : Nat) : (setA s isl f v i j).search = s.search := rfl
@[simp] theorem setA_media (isl : Nat) (f : Field) (v i j : Nat) : (setA s isl f v i j).media = s.media := rfl
@[simp] theorem setA_flash (isl : Nat) (f : Field) (v i j : Nat) : (setA s isl f v i j).flash = s.flash := rfl
@[simp] theorem setA_prot (isl : Nat) (f : Field) (v i j : Nat) : (setA s isl f v i j).prot = s.prot := rfl
@[simp] theorem setA_boot (isl : Nat) (f : Field) (v i j : Nat) : (setA s isl f v i j).boot = s.boot := rfl
@[simp] theorem setA_weir (isl : Nat) (f : Field) (v i j : Nat) : (setA s isl f v i j).weir = s.weir := rfl
@[simp] theorem setA_ident (isl : Nat) (f : Field) (v i j : Nat) : (setA s isl f v i j).ident = s.ident := rfl
@[simp] theorem setA_counters (isl : Nat) (f : Field) (v i j : Nat) : (setA s isl f v i j).counters = s.counters := rfl
@[simp] theorem setA_mgmt (isl : Nat) (f : Field) (v i j : Nat) : (setA s isl f v i j).mgmt = s.mgmt := rfl
@[simp] theorem setA_jtag (isl : Nat) (f : Field) (v i j : Nat) : (setA s isl f v i j).jtag = s.jtag := rfl
@[simp] theorem setA_out (isl : Nat) (f : Field) (v i j : Nat) : (setA s isl f v i j).out = s.out := rfl
@[simp] theorem setA_freeCount (isl : Nat) (f : Field) (v i j : Nat) : (setA s isl f v i j).freeCount = s.freeCount := rfl
@[simp] theorem setA_pending (isl : Nat) (f : Field) (v i j : Nat) : (setA s isl f v i j).pending = s.pending := rfl

@[simp] theorem setP_variant (isl : Nat) (f : Field) (v i j : Nat) : (setP s isl f v i j).variant = s.variant := rfl
@[simp] theorem setP_regs (isl : Nat) (f : Field) (v i j : Nat) : (setP s isl f v i j).regs = s.regs := rfl
@[simp] theorem setP_act (isl : Nat) (f : Field) (v i j : Nat) : (setP s isl f v i j).act = s.act := rfl
@[simp] theorem setP_link (isl : Nat) (f : Field) (v i j : Nat) : (setP s isl f v i j).link = s.link := rfl
@[simp] theorem setP_dqp (isl : Nat) (f : Field) (v i j : Nat) : (setP s isl f v i j).dqp = s.dqp := rfl
@[simp] theorem setP_mem (isl : Nat) (f : Field) (v i j : Nat) : (setP s isl f v i j).mem = s.mem := rfl
@[simp] theorem setP_tiles (isl : Nat) (f : Field) (v i j : Nat) : (setP s isl f v i j).tiles = s.tiles := rfl
@[simp] theorem setP_runnels (isl : Nat) (f : Field) (v i j : Nat) : (setP s isl f v i j).runnels = s.runnels := rfl
@[simp] theorem setP_flume (isl : Nat) (f : Field) (v i j : Nat) : (setP s isl f v i j).flume = s.flume := rfl
@[simp] theorem setP_sched (isl : Nat) (f : Field) (v i j : Nat) : (setP s isl f v i j).sched = s.sched := rfl
@[simp] theorem setP_search (isl : Nat) (f : Field) (v i j : Nat) : (setP s isl f v i j).search = s.search := rfl
@[simp] theorem setP_media (isl : Nat) (f : Field) (v i j : Nat) : (setP s isl f v i j).media = s.media := rfl
@[simp] theorem setP_flash (isl : Nat) (f : Field) (v i j : Nat) : (setP s isl f v i j).flash = s.flash := rfl
@[simp] theorem setP_prot (isl : Nat) (f : Field) (v i j : Nat) : (setP s isl f v i j).prot = s.prot := rfl
@[simp] theorem setP_boot (isl : Nat) (f : Field) (v i j : Nat) : (setP s isl f v i j).boot = s.boot := rfl
@[simp] theorem setP_weir (isl : Nat) (f : Field) (v i j : Nat) : (setP s isl f v i j).weir = s.weir := rfl
@[simp] theorem setP_ident (isl : Nat) (f : Field) (v i j : Nat) : (setP s isl f v i j).ident = s.ident := rfl
@[simp] theorem setP_counters (isl : Nat) (f : Field) (v i j : Nat) : (setP s isl f v i j).counters = s.counters := rfl
@[simp] theorem setP_mgmt (isl : Nat) (f : Field) (v i j : Nat) : (setP s isl f v i j).mgmt = s.mgmt := rfl
@[simp] theorem setP_jtag (isl : Nat) (f : Field) (v i j : Nat) : (setP s isl f v i j).jtag = s.jtag := rfl
@[simp] theorem setP_out (isl : Nat) (f : Field) (v i j : Nat) : (setP s isl f v i j).out = s.out := rfl
@[simp] theorem setP_freeCount (isl : Nat) (f : Field) (v i j : Nat) : (setP s isl f v i j).freeCount = s.freeCount := rfl
@[simp] theorem setP_pending (isl : Nat) (f : Field) (v i j : Nat) : (setP s isl f v i j).pending = s.pending := rfl

@[simp] theorem setST_variant (isl : Nat) (f : Field) (v i j : Nat) : (setST s isl f v i j).variant = s.variant := rfl
@[simp] theorem setST_link (isl : Nat) (f : Field) (v i j : Nat) : (setST s isl f v i j).link = s.link := rfl
@[simp] theorem setST_dqp (isl : Nat) (f : Field) (v i j : Nat) : (setST s isl f v i j).dqp = s.dqp := rfl
@[simp] theorem setST_mem (isl : Nat) (f : Field) (v i j : Nat) : (setST s isl f v i j).mem = s.mem := rfl
@[simp] theorem setST_tiles (isl : Nat) (f : Field) (v i j : Nat) : (setST s isl f v i j).tiles = s.tiles := rfl
@[simp] theorem setST_runnels (isl : Nat) (f : Field) (v i j : Nat) : (setST s isl f v i j).runnels = s.runnels := rfl
@[simp] theorem setST_flume (isl : Nat) (f : Field) (v i j : Nat) : (setST s isl f v i j).flume = s.flume := rfl
@[simp] theorem setST_sched (isl : Nat) (f : Field) (v i j : Nat) : (setST s isl f v i j).sched = s.sched := rfl
@[simp] theorem setST_search (isl : Nat) (f : Field) (v i j : Nat) : (setST s isl f v i j).search = s.search := rfl
@[simp] theorem setST_media (isl : Nat) (f : Field) (v i j : Nat) : (setST s isl f v i j).media = s.media := rfl
@[simp] theorem setST_flash (isl : Nat) (f : Field) (v i j : Nat) : (setST s isl f v i j).flash = s.flash := rfl
@[simp] theorem setST_prot (isl : Nat) (f : Field) (v i j : Nat) : (setST s isl f v i j).prot = s.prot := rfl
@[simp] theorem setST_boot (isl : Nat) (f : Field) (v i j : Nat) : (setST s isl f v i j).boot = s.boot := rfl
@[simp] theorem setST_weir (isl : Nat) (f : Field) (v i j : Nat) : (setST s isl f v i j).weir = s.weir := rfl
@[simp] theorem setST_ident (isl : Nat) (f : Field) (v i j : Nat) : (setST s isl f v i j).ident = s.ident := rfl
@[simp] theorem setST_counters (isl : Nat) (f : Field) (v i j : Nat) : (setST s isl f v i j).counters = s.counters := rfl
@[simp] theorem setST_mgmt (isl : Nat) (f : Field) (v i j : Nat) : (setST s isl f v i j).mgmt = s.mgmt := rfl
@[simp] theorem setST_jtag (isl : Nat) (f : Field) (v i j : Nat) : (setST s isl f v i j).jtag = s.jtag := rfl
@[simp] theorem setST_out (isl : Nat) (f : Field) (v i j : Nat) : (setST s isl f v i j).out = s.out := rfl
@[simp] theorem setST_freeCount (isl : Nat) (f : Field) (v i j : Nat) : (setST s isl f v i j).freeCount = s.freeCount := rfl
@[simp] theorem setST_pending (isl : Nat) (f : Field) (v i j : Nat) : (setST s isl f v i j).pending = s.pending := rfl

@[simp] theorem advanceTo_variant (i c : Nat) : (advanceTo s i c).variant = s.variant := rfl
@[simp] theorem advanceTo_regs (i c : Nat) : (advanceTo s i c).regs = s.regs := rfl
@[simp] theorem advanceTo_act (i c : Nat) : (advanceTo s i c).act = s.act := rfl
@[simp] theorem advanceTo_pend (i c : Nat) : (advanceTo s i c).pend = s.pend := rfl
@[simp] theorem advanceTo_link (i c : Nat) : (advanceTo s i c).link = s.link := rfl
@[simp] theorem advanceTo_dqp (i c : Nat) : (advanceTo s i c).dqp = s.dqp := rfl
@[simp] theorem advanceTo_mem (i c : Nat) : (advanceTo s i c).mem = s.mem := rfl
@[simp] theorem advanceTo_tiles (i c : Nat) : (advanceTo s i c).tiles = s.tiles := rfl
@[simp] theorem advanceTo_runnels (i c : Nat) : (advanceTo s i c).runnels = s.runnels := rfl
@[simp] theorem advanceTo_flume (i c : Nat) : (advanceTo s i c).flume = s.flume := rfl
@[simp] theorem advanceTo_sched (i c : Nat) : (advanceTo s i c).sched = s.sched := rfl
@[simp] theorem advanceTo_search (i c : Nat) : (advanceTo s i c).search = s.search := rfl
@[simp] theorem advanceTo_media (i c : Nat) : (advanceTo s i c).media = s.media := rfl
@[simp] theorem advanceTo_flash (i c : Nat) : (advanceTo s i c).flash = s.flash := rfl
@[simp] theorem advanceTo_prot (i c : Nat) : (advanceTo s i c).prot = s.prot := rfl
@[simp] theorem advanceTo_boot (i c : Nat) : (advanceTo s i c).boot = s.boot := rfl
@[simp] theorem advanceTo_weir (i c : Nat) : (advanceTo s i c).weir = s.weir := rfl
@[simp] theorem advanceTo_ident (i c : Nat) : (advanceTo s i c).ident = s.ident := rfl
@[simp] theorem advanceTo_mgmt (i c : Nat) : (advanceTo s i c).mgmt = s.mgmt := rfl
@[simp] theorem advanceTo_jtag (i c : Nat) : (advanceTo s i c).jtag = s.jtag := rfl
@[simp] theorem advanceTo_out (i c : Nat) : (advanceTo s i c).out = s.out := rfl
@[simp] theorem advanceTo_freeCount (i c : Nat) : (advanceTo s i c).freeCount = s.freeCount := rfl
@[simp] theorem advanceTo_pending (i c : Nat) : (advanceTo s i c).pending = s.pending := rfl

@[simp] theorem emit_variant (o : Output) : (emit s o).variant = s.variant := rfl
@[simp] theorem emit_regs (o : Output) : (emit s o).regs = s.regs := rfl
@[simp] theorem emit_act (o : Output) : (emit s o).act = s.act := rfl
@[simp] theorem emit_pend (o : Output) : (emit s o).pend = s.pend := rfl
@[simp] theorem emit_link (o : Output) : (emit s o).link = s.link := rfl
@[simp] theorem emit_dqp (o : Output) : (emit s o).dqp = s.dqp := rfl
@[simp] theorem emit_mem (o : Output) : (emit s o).mem = s.mem := rfl
@[simp] theorem emit_tiles (o : Output) : (emit s o).tiles = s.tiles := rfl
@[simp] theorem emit_runnels (o : Output) : (emit s o).runnels = s.runnels := rfl
@[simp] theorem emit_flume (o : Output) : (emit s o).flume = s.flume := rfl
@[simp] theorem emit_sched (o : Output) : (emit s o).sched = s.sched := rfl
@[simp] theorem emit_search (o : Output) : (emit s o).search = s.search := rfl
@[simp] theorem emit_media (o : Output) : (emit s o).media = s.media := rfl
@[simp] theorem emit_flash (o : Output) : (emit s o).flash = s.flash := rfl
@[simp] theorem emit_prot (o : Output) : (emit s o).prot = s.prot := rfl
@[simp] theorem emit_boot (o : Output) : (emit s o).boot = s.boot := rfl
@[simp] theorem emit_weir (o : Output) : (emit s o).weir = s.weir := rfl
@[simp] theorem emit_ident (o : Output) : (emit s o).ident = s.ident := rfl
@[simp] theorem emit_counters (o : Output) : (emit s o).counters = s.counters := rfl
@[simp] theorem emit_mgmt (o : Output) : (emit s o).mgmt = s.mgmt := rfl
@[simp] theorem emit_jtag (o : Output) : (emit s o).jtag = s.jtag := rfl
@[simp] theorem emit_freeCount (o : Output) : (emit s o).freeCount = s.freeCount := rfl
@[simp] theorem emit_pending (o : Output) : (emit s o).pending = s.pending := rfl

@[simp] theorem wrBytes_variant (a : Nat) (l : List Byte) : (wrBytes s a l).variant = s.variant := rfl
@[simp] theorem wrBytes_regs (a : Nat) (l : List Byte) : (wrBytes s a l).regs = s.regs := rfl
@[simp] theorem wrBytes_act (a : Nat) (l : List Byte) : (wrBytes s a l).act = s.act := rfl
@[simp] theorem wrBytes_pend (a : Nat) (l : List Byte) : (wrBytes s a l).pend = s.pend := rfl
@[simp] theorem wrBytes_link (a : Nat) (l : List Byte) : (wrBytes s a l).link = s.link := rfl
@[simp] theorem wrBytes_dqp (a : Nat) (l : List Byte) : (wrBytes s a l).dqp = s.dqp := rfl
@[simp] theorem wrBytes_tiles (a : Nat) (l : List Byte) : (wrBytes s a l).tiles = s.tiles := rfl
@[simp] theorem wrBytes_runnels (a : Nat) (l : List Byte) : (wrBytes s a l).runnels = s.runnels := rfl
@[simp] theorem wrBytes_flume (a : Nat) (l : List Byte) : (wrBytes s a l).flume = s.flume := rfl
@[simp] theorem wrBytes_sched (a : Nat) (l : List Byte) : (wrBytes s a l).sched = s.sched := rfl
@[simp] theorem wrBytes_search (a : Nat) (l : List Byte) : (wrBytes s a l).search = s.search := rfl
@[simp] theorem wrBytes_media (a : Nat) (l : List Byte) : (wrBytes s a l).media = s.media := rfl
@[simp] theorem wrBytes_flash (a : Nat) (l : List Byte) : (wrBytes s a l).flash = s.flash := rfl
@[simp] theorem wrBytes_prot (a : Nat) (l : List Byte) : (wrBytes s a l).prot = s.prot := rfl
@[simp] theorem wrBytes_boot (a : Nat) (l : List Byte) : (wrBytes s a l).boot = s.boot := rfl
@[simp] theorem wrBytes_weir (a : Nat) (l : List Byte) : (wrBytes s a l).weir = s.weir := rfl
@[simp] theorem wrBytes_ident (a : Nat) (l : List Byte) : (wrBytes s a l).ident = s.ident := rfl
@[simp] theorem wrBytes_counters (a : Nat) (l : List Byte) : (wrBytes s a l).counters = s.counters := rfl
@[simp] theorem wrBytes_mgmt (a : Nat) (l : List Byte) : (wrBytes s a l).mgmt = s.mgmt := rfl
@[simp] theorem wrBytes_jtag (a : Nat) (l : List Byte) : (wrBytes s a l).jtag = s.jtag := rfl
@[simp] theorem wrBytes_out (a : Nat) (l : List Byte) : (wrBytes s a l).out = s.out := rfl
@[simp] theorem wrBytes_freeCount (a : Nat) (l : List Byte) : (wrBytes s a l).freeCount = s.freeCount := rfl
@[simp] theorem wrBytes_pending (a : Nat) (l : List Byte) : (wrBytes s a l).pending = s.pending := rfl

@[simp] theorem poisonRange_variant (a n : Nat) : (poisonRange s a n).variant = s.variant := rfl
@[simp] theorem poisonRange_regs (a n : Nat) : (poisonRange s a n).regs = s.regs := rfl
@[simp] theorem poisonRange_act (a n : Nat) : (poisonRange s a n).act = s.act := rfl
@[simp] theorem poisonRange_pend (a n : Nat) : (poisonRange s a n).pend = s.pend := rfl
@[simp] theorem poisonRange_link (a n : Nat) : (poisonRange s a n).link = s.link := rfl
@[simp] theorem poisonRange_dqp (a n : Nat) : (poisonRange s a n).dqp = s.dqp := rfl
@[simp] theorem poisonRange_tiles (a n : Nat) : (poisonRange s a n).tiles = s.tiles := rfl
@[simp] theorem poisonRange_runnels (a n : Nat) : (poisonRange s a n).runnels = s.runnels := rfl
@[simp] theorem poisonRange_flume (a n : Nat) : (poisonRange s a n).flume = s.flume := rfl
@[simp] theorem poisonRange_sched (a n : Nat) : (poisonRange s a n).sched = s.sched := rfl
@[simp] theorem poisonRange_search (a n : Nat) : (poisonRange s a n).search = s.search := rfl
@[simp] theorem poisonRange_media (a n : Nat) : (poisonRange s a n).media = s.media := rfl
@[simp] theorem poisonRange_flash (a n : Nat) : (poisonRange s a n).flash = s.flash := rfl
@[simp] theorem poisonRange_prot (a n : Nat) : (poisonRange s a n).prot = s.prot := rfl
@[simp] theorem poisonRange_boot (a n : Nat) : (poisonRange s a n).boot = s.boot := rfl
@[simp] theorem poisonRange_weir (a n : Nat) : (poisonRange s a n).weir = s.weir := rfl
@[simp] theorem poisonRange_ident (a n : Nat) : (poisonRange s a n).ident = s.ident := rfl
@[simp] theorem poisonRange_counters (a n : Nat) : (poisonRange s a n).counters = s.counters := rfl
@[simp] theorem poisonRange_mgmt (a n : Nat) : (poisonRange s a n).mgmt = s.mgmt := rfl
@[simp] theorem poisonRange_jtag (a n : Nat) : (poisonRange s a n).jtag = s.jtag := rfl
@[simp] theorem poisonRange_out (a n : Nat) : (poisonRange s a n).out = s.out := rfl
@[simp] theorem poisonRange_freeCount (a n : Nat) : (poisonRange s a n).freeCount = s.freeCount := rfl
@[simp] theorem poisonRange_pending (a n : Nat) : (poisonRange s a n).pending = s.pending := rfl

@[simp] theorem clearMem_variant (a n : Nat) : (clearMem s a n).variant = s.variant := rfl
@[simp] theorem clearMem_regs (a n : Nat) : (clearMem s a n).regs = s.regs := rfl
@[simp] theorem clearMem_act (a n : Nat) : (clearMem s a n).act = s.act := rfl
@[simp] theorem clearMem_pend (a n : Nat) : (clearMem s a n).pend = s.pend := rfl
@[simp] theorem clearMem_link (a n : Nat) : (clearMem s a n).link = s.link := rfl
@[simp] theorem clearMem_dqp (a n : Nat) : (clearMem s a n).dqp = s.dqp := rfl
@[simp] theorem clearMem_tiles (a n : Nat) : (clearMem s a n).tiles = s.tiles := rfl
@[simp] theorem clearMem_runnels (a n : Nat) : (clearMem s a n).runnels = s.runnels := rfl
@[simp] theorem clearMem_flume (a n : Nat) : (clearMem s a n).flume = s.flume := rfl
@[simp] theorem clearMem_sched (a n : Nat) : (clearMem s a n).sched = s.sched := rfl
@[simp] theorem clearMem_search (a n : Nat) : (clearMem s a n).search = s.search := rfl
@[simp] theorem clearMem_media (a n : Nat) : (clearMem s a n).media = s.media := rfl
@[simp] theorem clearMem_flash (a n : Nat) : (clearMem s a n).flash = s.flash := rfl
@[simp] theorem clearMem_prot (a n : Nat) : (clearMem s a n).prot = s.prot := rfl
@[simp] theorem clearMem_boot (a n : Nat) : (clearMem s a n).boot = s.boot := rfl
@[simp] theorem clearMem_weir (a n : Nat) : (clearMem s a n).weir = s.weir := rfl
@[simp] theorem clearMem_ident (a n : Nat) : (clearMem s a n).ident = s.ident := rfl
@[simp] theorem clearMem_counters (a n : Nat) : (clearMem s a n).counters = s.counters := rfl
@[simp] theorem clearMem_mgmt (a n : Nat) : (clearMem s a n).mgmt = s.mgmt := rfl
@[simp] theorem clearMem_jtag (a n : Nat) : (clearMem s a n).jtag = s.jtag := rfl
@[simp] theorem clearMem_out (a n : Nat) : (clearMem s a n).out = s.out := rfl
@[simp] theorem clearMem_freeCount (a n : Nat) : (clearMem s a n).freeCount = s.freeCount := rfl
@[simp] theorem clearMem_pending (a n : Nat) : (clearMem s a n).pending = s.pending := rfl

@[simp] theorem updCtx_variant (slot : Nat) (f : Ctx → Ctx) : (updCtx s slot f).variant = s.variant := rfl
@[simp] theorem updCtx_regs (slot : Nat) (f : Ctx → Ctx) : (updCtx s slot f).regs = s.regs := rfl
@[simp] theorem updCtx_act (slot : Nat) (f : Ctx → Ctx) : (updCtx s slot f).act = s.act := rfl
@[simp] theorem updCtx_pend (slot : Nat) (f : Ctx → Ctx) : (updCtx s slot f).pend = s.pend := rfl
@[simp] theorem updCtx_link (slot : Nat) (f : Ctx → Ctx) : (updCtx s slot f).link = s.link := rfl
@[simp] theorem updCtx_dqp (slot : Nat) (f : Ctx → Ctx) : (updCtx s slot f).dqp = s.dqp := rfl
@[simp] theorem updCtx_mem (slot : Nat) (f : Ctx → Ctx) : (updCtx s slot f).mem = s.mem := rfl
@[simp] theorem updCtx_tiles (slot : Nat) (f : Ctx → Ctx) : (updCtx s slot f).tiles = s.tiles := rfl
@[simp] theorem updCtx_runnels (slot : Nat) (f : Ctx → Ctx) : (updCtx s slot f).runnels = s.runnels := rfl
@[simp] theorem updCtx_flume (slot : Nat) (f : Ctx → Ctx) : (updCtx s slot f).flume = s.flume := rfl
@[simp] theorem updCtx_search (slot : Nat) (f : Ctx → Ctx) : (updCtx s slot f).search = s.search := rfl
@[simp] theorem updCtx_media (slot : Nat) (f : Ctx → Ctx) : (updCtx s slot f).media = s.media := rfl
@[simp] theorem updCtx_flash (slot : Nat) (f : Ctx → Ctx) : (updCtx s slot f).flash = s.flash := rfl
@[simp] theorem updCtx_prot (slot : Nat) (f : Ctx → Ctx) : (updCtx s slot f).prot = s.prot := rfl
@[simp] theorem updCtx_boot (slot : Nat) (f : Ctx → Ctx) : (updCtx s slot f).boot = s.boot := rfl
@[simp] theorem updCtx_weir (slot : Nat) (f : Ctx → Ctx) : (updCtx s slot f).weir = s.weir := rfl
@[simp] theorem updCtx_ident (slot : Nat) (f : Ctx → Ctx) : (updCtx s slot f).ident = s.ident := rfl
@[simp] theorem updCtx_counters (slot : Nat) (f : Ctx → Ctx) : (updCtx s slot f).counters = s.counters := rfl
@[simp] theorem updCtx_mgmt (slot : Nat) (f : Ctx → Ctx) : (updCtx s slot f).mgmt = s.mgmt := rfl
@[simp] theorem updCtx_jtag (slot : Nat) (f : Ctx → Ctx) : (updCtx s slot f).jtag = s.jtag := rfl
@[simp] theorem updCtx_out (slot : Nat) (f : Ctx → Ctx) : (updCtx s slot f).out = s.out := rfl
@[simp] theorem updCtx_freeCount (slot : Nat) (f : Ctx → Ctx) : (updCtx s slot f).freeCount = s.freeCount := rfl
@[simp] theorem updCtx_pending (slot : Nat) (f : Ctx → Ctx) : (updCtx s slot f).pending = s.pending := rfl

@[simp] theorem updLink_variant (f : Link → Link) : (updLink s f).variant = s.variant := rfl
@[simp] theorem updLink_regs (f : Link → Link) : (updLink s f).regs = s.regs := rfl
@[simp] theorem updLink_act (f : Link → Link) : (updLink s f).act = s.act := rfl
@[simp] theorem updLink_pend (f : Link → Link) : (updLink s f).pend = s.pend := rfl
@[simp] theorem updLink_dqp (f : Link → Link) : (updLink s f).dqp = s.dqp := rfl
@[simp] theorem updLink_mem (f : Link → Link) : (updLink s f).mem = s.mem := rfl
@[simp] theorem updLink_tiles (f : Link → Link) : (updLink s f).tiles = s.tiles := rfl
@[simp] theorem updLink_runnels (f : Link → Link) : (updLink s f).runnels = s.runnels := rfl
@[simp] theorem updLink_flume (f : Link → Link) : (updLink s f).flume = s.flume := rfl
@[simp] theorem updLink_sched (f : Link → Link) : (updLink s f).sched = s.sched := rfl
@[simp] theorem updLink_search (f : Link → Link) : (updLink s f).search = s.search := rfl
@[simp] theorem updLink_media (f : Link → Link) : (updLink s f).media = s.media := rfl
@[simp] theorem updLink_flash (f : Link → Link) : (updLink s f).flash = s.flash := rfl
@[simp] theorem updLink_prot (f : Link → Link) : (updLink s f).prot = s.prot := rfl
@[simp] theorem updLink_boot (f : Link → Link) : (updLink s f).boot = s.boot := rfl
@[simp] theorem updLink_weir (f : Link → Link) : (updLink s f).weir = s.weir := rfl
@[simp] theorem updLink_ident (f : Link → Link) : (updLink s f).ident = s.ident := rfl
@[simp] theorem updLink_counters (f : Link → Link) : (updLink s f).counters = s.counters := rfl
@[simp] theorem updLink_mgmt (f : Link → Link) : (updLink s f).mgmt = s.mgmt := rfl
@[simp] theorem updLink_jtag (f : Link → Link) : (updLink s f).jtag = s.jtag := rfl
@[simp] theorem updLink_out (f : Link → Link) : (updLink s f).out = s.out := rfl
@[simp] theorem updLink_freeCount (f : Link → Link) : (updLink s f).freeCount = s.freeCount := rfl
@[simp] theorem updLink_pending (f : Link → Link) : (updLink s f).pending = s.pending := rfl

@[simp] theorem updDqp_variant (f : Dqp → Dqp) : (updDqp s f).variant = s.variant := rfl
@[simp] theorem updDqp_regs (f : Dqp → Dqp) : (updDqp s f).regs = s.regs := rfl
@[simp] theorem updDqp_act (f : Dqp → Dqp) : (updDqp s f).act = s.act := rfl
@[simp] theorem updDqp_pend (f : Dqp → Dqp) : (updDqp s f).pend = s.pend := rfl
@[simp] theorem updDqp_link (f : Dqp → Dqp) : (updDqp s f).link = s.link := rfl
@[simp] theorem updDqp_mem (f : Dqp → Dqp) : (updDqp s f).mem = s.mem := rfl
@[simp] theorem updDqp_tiles (f : Dqp → Dqp) : (updDqp s f).tiles = s.tiles := rfl
@[simp] theorem updDqp_runnels (f : Dqp → Dqp) : (updDqp s f).runnels = s.runnels := rfl
@[simp] theorem updDqp_flume (f : Dqp → Dqp) : (updDqp s f).flume = s.flume := rfl
@[simp] theorem updDqp_sched (f : Dqp → Dqp) : (updDqp s f).sched = s.sched := rfl
@[simp] theorem updDqp_search (f : Dqp → Dqp) : (updDqp s f).search = s.search := rfl
@[simp] theorem updDqp_media (f : Dqp → Dqp) : (updDqp s f).media = s.media := rfl
@[simp] theorem updDqp_flash (f : Dqp → Dqp) : (updDqp s f).flash = s.flash := rfl
@[simp] theorem updDqp_prot (f : Dqp → Dqp) : (updDqp s f).prot = s.prot := rfl
@[simp] theorem updDqp_boot (f : Dqp → Dqp) : (updDqp s f).boot = s.boot := rfl
@[simp] theorem updDqp_weir (f : Dqp → Dqp) : (updDqp s f).weir = s.weir := rfl
@[simp] theorem updDqp_ident (f : Dqp → Dqp) : (updDqp s f).ident = s.ident := rfl
@[simp] theorem updDqp_counters (f : Dqp → Dqp) : (updDqp s f).counters = s.counters := rfl
@[simp] theorem updDqp_mgmt (f : Dqp → Dqp) : (updDqp s f).mgmt = s.mgmt := rfl
@[simp] theorem updDqp_jtag (f : Dqp → Dqp) : (updDqp s f).jtag = s.jtag := rfl
@[simp] theorem updDqp_out (f : Dqp → Dqp) : (updDqp s f).out = s.out := rfl
@[simp] theorem updDqp_freeCount (f : Dqp → Dqp) : (updDqp s f).freeCount = s.freeCount := rfl
@[simp] theorem updDqp_pending (f : Dqp → Dqp) : (updDqp s f).pending = s.pending := rfl

@[simp] theorem updMem_variant (f : Mem → Mem) : (updMem s f).variant = s.variant := rfl
@[simp] theorem updMem_regs (f : Mem → Mem) : (updMem s f).regs = s.regs := rfl
@[simp] theorem updMem_act (f : Mem → Mem) : (updMem s f).act = s.act := rfl
@[simp] theorem updMem_pend (f : Mem → Mem) : (updMem s f).pend = s.pend := rfl
@[simp] theorem updMem_link (f : Mem → Mem) : (updMem s f).link = s.link := rfl
@[simp] theorem updMem_dqp (f : Mem → Mem) : (updMem s f).dqp = s.dqp := rfl
@[simp] theorem updMem_tiles (f : Mem → Mem) : (updMem s f).tiles = s.tiles := rfl
@[simp] theorem updMem_runnels (f : Mem → Mem) : (updMem s f).runnels = s.runnels := rfl
@[simp] theorem updMem_flume (f : Mem → Mem) : (updMem s f).flume = s.flume := rfl
@[simp] theorem updMem_sched (f : Mem → Mem) : (updMem s f).sched = s.sched := rfl
@[simp] theorem updMem_search (f : Mem → Mem) : (updMem s f).search = s.search := rfl
@[simp] theorem updMem_media (f : Mem → Mem) : (updMem s f).media = s.media := rfl
@[simp] theorem updMem_flash (f : Mem → Mem) : (updMem s f).flash = s.flash := rfl
@[simp] theorem updMem_prot (f : Mem → Mem) : (updMem s f).prot = s.prot := rfl
@[simp] theorem updMem_boot (f : Mem → Mem) : (updMem s f).boot = s.boot := rfl
@[simp] theorem updMem_weir (f : Mem → Mem) : (updMem s f).weir = s.weir := rfl
@[simp] theorem updMem_ident (f : Mem → Mem) : (updMem s f).ident = s.ident := rfl
@[simp] theorem updMem_counters (f : Mem → Mem) : (updMem s f).counters = s.counters := rfl
@[simp] theorem updMem_mgmt (f : Mem → Mem) : (updMem s f).mgmt = s.mgmt := rfl
@[simp] theorem updMem_jtag (f : Mem → Mem) : (updMem s f).jtag = s.jtag := rfl
@[simp] theorem updMem_out (f : Mem → Mem) : (updMem s f).out = s.out := rfl
@[simp] theorem updMem_freeCount (f : Mem → Mem) : (updMem s f).freeCount = s.freeCount := rfl
@[simp] theorem updMem_pending (f : Mem → Mem) : (updMem s f).pending = s.pending := rfl

@[simp] theorem updSearch_variant (f : Search → Search) : (updSearch s f).variant = s.variant := rfl
@[simp] theorem updSearch_regs (f : Search → Search) : (updSearch s f).regs = s.regs := rfl
@[simp] theorem updSearch_act (f : Search → Search) : (updSearch s f).act = s.act := rfl
@[simp] theorem updSearch_pend (f : Search → Search) : (updSearch s f).pend = s.pend := rfl
@[simp] theorem updSearch_link (f : Search → Search) : (updSearch s f).link = s.link := rfl
@[simp] theorem updSearch_dqp (f : Search → Search) : (updSearch s f).dqp = s.dqp := rfl
@[simp] theorem updSearch_mem (f : Search → Search) : (updSearch s f).mem = s.mem := rfl
@[simp] theorem updSearch_tiles (f : Search → Search) : (updSearch s f).tiles = s.tiles := rfl
@[simp] theorem updSearch_runnels (f : Search → Search) : (updSearch s f).runnels = s.runnels := rfl
@[simp] theorem updSearch_flume (f : Search → Search) : (updSearch s f).flume = s.flume := rfl
@[simp] theorem updSearch_sched (f : Search → Search) : (updSearch s f).sched = s.sched := rfl
@[simp] theorem updSearch_media (f : Search → Search) : (updSearch s f).media = s.media := rfl
@[simp] theorem updSearch_flash (f : Search → Search) : (updSearch s f).flash = s.flash := rfl
@[simp] theorem updSearch_prot (f : Search → Search) : (updSearch s f).prot = s.prot := rfl
@[simp] theorem updSearch_boot (f : Search → Search) : (updSearch s f).boot = s.boot := rfl
@[simp] theorem updSearch_weir (f : Search → Search) : (updSearch s f).weir = s.weir := rfl
@[simp] theorem updSearch_ident (f : Search → Search) : (updSearch s f).ident = s.ident := rfl
@[simp] theorem updSearch_counters (f : Search → Search) : (updSearch s f).counters = s.counters := rfl
@[simp] theorem updSearch_mgmt (f : Search → Search) : (updSearch s f).mgmt = s.mgmt := rfl
@[simp] theorem updSearch_jtag (f : Search → Search) : (updSearch s f).jtag = s.jtag := rfl
@[simp] theorem updSearch_out (f : Search → Search) : (updSearch s f).out = s.out := rfl
@[simp] theorem updSearch_freeCount (f : Search → Search) : (updSearch s f).freeCount = s.freeCount := rfl
@[simp] theorem updSearch_pending (f : Search → Search) : (updSearch s f).pending = s.pending := rfl

@[simp] theorem updMedia_variant (f : Media → Media) : (updMedia s f).variant = s.variant := rfl
@[simp] theorem updMedia_regs (f : Media → Media) : (updMedia s f).regs = s.regs := rfl
@[simp] theorem updMedia_act (f : Media → Media) : (updMedia s f).act = s.act := rfl
@[simp] theorem updMedia_pend (f : Media → Media) : (updMedia s f).pend = s.pend := rfl
@[simp] theorem updMedia_link (f : Media → Media) : (updMedia s f).link = s.link := rfl
@[simp] theorem updMedia_dqp (f : Media → Media) : (updMedia s f).dqp = s.dqp := rfl
@[simp] theorem updMedia_mem (f : Media → Media) : (updMedia s f).mem = s.mem := rfl
@[simp] theorem updMedia_tiles (f : Media → Media) : (updMedia s f).tiles = s.tiles := rfl
@[simp] theorem updMedia_runnels (f : Media → Media) : (updMedia s f).runnels = s.runnels := rfl
@[simp] theorem updMedia_flume (f : Media → Media) : (updMedia s f).flume = s.flume := rfl
@[simp] theorem updMedia_sched (f : Media → Media) : (updMedia s f).sched = s.sched := rfl
@[simp] theorem updMedia_search (f : Media → Media) : (updMedia s f).search = s.search := rfl
@[simp] theorem updMedia_flash (f : Media → Media) : (updMedia s f).flash = s.flash := rfl
@[simp] theorem updMedia_prot (f : Media → Media) : (updMedia s f).prot = s.prot := rfl
@[simp] theorem updMedia_boot (f : Media → Media) : (updMedia s f).boot = s.boot := rfl
@[simp] theorem updMedia_weir (f : Media → Media) : (updMedia s f).weir = s.weir := rfl
@[simp] theorem updMedia_ident (f : Media → Media) : (updMedia s f).ident = s.ident := rfl
@[simp] theorem updMedia_counters (f : Media → Media) : (updMedia s f).counters = s.counters := rfl
@[simp] theorem updMedia_mgmt (f : Media → Media) : (updMedia s f).mgmt = s.mgmt := rfl
@[simp] theorem updMedia_jtag (f : Media → Media) : (updMedia s f).jtag = s.jtag := rfl
@[simp] theorem updMedia_out (f : Media → Media) : (updMedia s f).out = s.out := rfl
@[simp] theorem updMedia_freeCount (f : Media → Media) : (updMedia s f).freeCount = s.freeCount := rfl
@[simp] theorem updMedia_pending (f : Media → Media) : (updMedia s f).pending = s.pending := rfl

@[simp] theorem updFlash_variant (f : Flash → Flash) : (updFlash s f).variant = s.variant := rfl
@[simp] theorem updFlash_regs (f : Flash → Flash) : (updFlash s f).regs = s.regs := rfl
@[simp] theorem updFlash_act (f : Flash → Flash) : (updFlash s f).act = s.act := rfl
@[simp] theorem updFlash_pend (f : Flash → Flash) : (updFlash s f).pend = s.pend := rfl
@[simp] theorem updFlash_link (f : Flash → Flash) : (updFlash s f).link = s.link := rfl
@[simp] theorem updFlash_dqp (f : Flash → Flash) : (updFlash s f).dqp = s.dqp := rfl
@[simp] theorem updFlash_mem (f : Flash → Flash) : (updFlash s f).mem = s.mem := rfl
@[simp] theorem updFlash_tiles (f : Flash → Flash) : (updFlash s f).tiles = s.tiles := rfl
@[simp] theorem updFlash_runnels (f : Flash → Flash) : (updFlash s f).runnels = s.runnels := rfl
@[simp] theorem updFlash_flume (f : Flash → Flash) : (updFlash s f).flume = s.flume := rfl
@[simp] theorem updFlash_sched (f : Flash → Flash) : (updFlash s f).sched = s.sched := rfl
@[simp] theorem updFlash_search (f : Flash → Flash) : (updFlash s f).search = s.search := rfl
@[simp] theorem updFlash_media (f : Flash → Flash) : (updFlash s f).media = s.media := rfl
@[simp] theorem updFlash_prot (f : Flash → Flash) : (updFlash s f).prot = s.prot := rfl
@[simp] theorem updFlash_boot (f : Flash → Flash) : (updFlash s f).boot = s.boot := rfl
@[simp] theorem updFlash_weir (f : Flash → Flash) : (updFlash s f).weir = s.weir := rfl
@[simp] theorem updFlash_ident (f : Flash → Flash) : (updFlash s f).ident = s.ident := rfl
@[simp] theorem updFlash_counters (f : Flash → Flash) : (updFlash s f).counters = s.counters := rfl
@[simp] theorem updFlash_mgmt (f : Flash → Flash) : (updFlash s f).mgmt = s.mgmt := rfl
@[simp] theorem updFlash_jtag (f : Flash → Flash) : (updFlash s f).jtag = s.jtag := rfl
@[simp] theorem updFlash_out (f : Flash → Flash) : (updFlash s f).out = s.out := rfl
@[simp] theorem updFlash_freeCount (f : Flash → Flash) : (updFlash s f).freeCount = s.freeCount := rfl
@[simp] theorem updFlash_pending (f : Flash → Flash) : (updFlash s f).pending = s.pending := rfl

@[simp] theorem updProt_variant (f : Prot → Prot) : (updProt s f).variant = s.variant := rfl
@[simp] theorem updProt_regs (f : Prot → Prot) : (updProt s f).regs = s.regs := rfl
@[simp] theorem updProt_act (f : Prot → Prot) : (updProt s f).act = s.act := rfl
@[simp] theorem updProt_pend (f : Prot → Prot) : (updProt s f).pend = s.pend := rfl
@[simp] theorem updProt_link (f : Prot → Prot) : (updProt s f).link = s.link := rfl
@[simp] theorem updProt_dqp (f : Prot → Prot) : (updProt s f).dqp = s.dqp := rfl
@[simp] theorem updProt_mem (f : Prot → Prot) : (updProt s f).mem = s.mem := rfl
@[simp] theorem updProt_tiles (f : Prot → Prot) : (updProt s f).tiles = s.tiles := rfl
@[simp] theorem updProt_runnels (f : Prot → Prot) : (updProt s f).runnels = s.runnels := rfl
@[simp] theorem updProt_flume (f : Prot → Prot) : (updProt s f).flume = s.flume := rfl
@[simp] theorem updProt_sched (f : Prot → Prot) : (updProt s f).sched = s.sched := rfl
@[simp] theorem updProt_search (f : Prot → Prot) : (updProt s f).search = s.search := rfl
@[simp] theorem updProt_media (f : Prot → Prot) : (updProt s f).media = s.media := rfl
@[simp] theorem updProt_flash (f : Prot → Prot) : (updProt s f).flash = s.flash := rfl
@[simp] theorem updProt_boot (f : Prot → Prot) : (updProt s f).boot = s.boot := rfl
@[simp] theorem updProt_weir (f : Prot → Prot) : (updProt s f).weir = s.weir := rfl
@[simp] theorem updProt_ident (f : Prot → Prot) : (updProt s f).ident = s.ident := rfl
@[simp] theorem updProt_counters (f : Prot → Prot) : (updProt s f).counters = s.counters := rfl
@[simp] theorem updProt_mgmt (f : Prot → Prot) : (updProt s f).mgmt = s.mgmt := rfl
@[simp] theorem updProt_jtag (f : Prot → Prot) : (updProt s f).jtag = s.jtag := rfl
@[simp] theorem updProt_out (f : Prot → Prot) : (updProt s f).out = s.out := rfl
@[simp] theorem updProt_freeCount (f : Prot → Prot) : (updProt s f).freeCount = s.freeCount := rfl
@[simp] theorem updProt_pending (f : Prot → Prot) : (updProt s f).pending = s.pending := rfl

@[simp] theorem updJtag_variant (f : Jtag → Jtag) : (updJtag s f).variant = s.variant := rfl
@[simp] theorem updJtag_regs (f : Jtag → Jtag) : (updJtag s f).regs = s.regs := rfl
@[simp] theorem updJtag_act (f : Jtag → Jtag) : (updJtag s f).act = s.act := rfl
@[simp] theorem updJtag_pend (f : Jtag → Jtag) : (updJtag s f).pend = s.pend := rfl
@[simp] theorem updJtag_link (f : Jtag → Jtag) : (updJtag s f).link = s.link := rfl
@[simp] theorem updJtag_dqp (f : Jtag → Jtag) : (updJtag s f).dqp = s.dqp := rfl
@[simp] theorem updJtag_mem (f : Jtag → Jtag) : (updJtag s f).mem = s.mem := rfl
@[simp] theorem updJtag_tiles (f : Jtag → Jtag) : (updJtag s f).tiles = s.tiles := rfl
@[simp] theorem updJtag_runnels (f : Jtag → Jtag) : (updJtag s f).runnels = s.runnels := rfl
@[simp] theorem updJtag_flume (f : Jtag → Jtag) : (updJtag s f).flume = s.flume := rfl
@[simp] theorem updJtag_sched (f : Jtag → Jtag) : (updJtag s f).sched = s.sched := rfl
@[simp] theorem updJtag_search (f : Jtag → Jtag) : (updJtag s f).search = s.search := rfl
@[simp] theorem updJtag_media (f : Jtag → Jtag) : (updJtag s f).media = s.media := rfl
@[simp] theorem updJtag_flash (f : Jtag → Jtag) : (updJtag s f).flash = s.flash := rfl
@[simp] theorem updJtag_prot (f : Jtag → Jtag) : (updJtag s f).prot = s.prot := rfl
@[simp] theorem updJtag_boot (f : Jtag → Jtag) : (updJtag s f).boot = s.boot := rfl
@[simp] theorem updJtag_weir (f : Jtag → Jtag) : (updJtag s f).weir = s.weir := rfl
@[simp] theorem updJtag_ident (f : Jtag → Jtag) : (updJtag s f).ident = s.ident := rfl
@[simp] theorem updJtag_counters (f : Jtag → Jtag) : (updJtag s f).counters = s.counters := rfl
@[simp] theorem updJtag_mgmt (f : Jtag → Jtag) : (updJtag s f).mgmt = s.mgmt := rfl
@[simp] theorem updJtag_out (f : Jtag → Jtag) : (updJtag s f).out = s.out := rfl
@[simp] theorem updJtag_freeCount (f : Jtag → Jtag) : (updJtag s f).freeCount = s.freeCount := rfl
@[simp] theorem updJtag_pending (f : Jtag → Jtag) : (updJtag s f).pending = s.pending := rfl

@[simp] theorem putRill_variant (k : Nat) (r : Rill) : (putRill s k r).variant = s.variant := rfl
@[simp] theorem putRill_regs (k : Nat) (r : Rill) : (putRill s k r).regs = s.regs := rfl
@[simp] theorem putRill_act (k : Nat) (r : Rill) : (putRill s k r).act = s.act := rfl
@[simp] theorem putRill_pend (k : Nat) (r : Rill) : (putRill s k r).pend = s.pend := rfl
@[simp] theorem putRill_link (k : Nat) (r : Rill) : (putRill s k r).link = s.link := rfl
@[simp] theorem putRill_dqp (k : Nat) (r : Rill) : (putRill s k r).dqp = s.dqp := rfl
@[simp] theorem putRill_mem (k : Nat) (r : Rill) : (putRill s k r).mem = s.mem := rfl
@[simp] theorem putRill_tiles (k : Nat) (r : Rill) : (putRill s k r).tiles = s.tiles := rfl
@[simp] theorem putRill_flume (k : Nat) (r : Rill) : (putRill s k r).flume = s.flume := rfl
@[simp] theorem putRill_sched (k : Nat) (r : Rill) : (putRill s k r).sched = s.sched := rfl
@[simp] theorem putRill_search (k : Nat) (r : Rill) : (putRill s k r).search = s.search := rfl
@[simp] theorem putRill_media (k : Nat) (r : Rill) : (putRill s k r).media = s.media := rfl
@[simp] theorem putRill_flash (k : Nat) (r : Rill) : (putRill s k r).flash = s.flash := rfl
@[simp] theorem putRill_prot (k : Nat) (r : Rill) : (putRill s k r).prot = s.prot := rfl
@[simp] theorem putRill_boot (k : Nat) (r : Rill) : (putRill s k r).boot = s.boot := rfl
@[simp] theorem putRill_weir (k : Nat) (r : Rill) : (putRill s k r).weir = s.weir := rfl
@[simp] theorem putRill_ident (k : Nat) (r : Rill) : (putRill s k r).ident = s.ident := rfl
@[simp] theorem putRill_counters (k : Nat) (r : Rill) : (putRill s k r).counters = s.counters := rfl
@[simp] theorem putRill_mgmt (k : Nat) (r : Rill) : (putRill s k r).mgmt = s.mgmt := rfl
@[simp] theorem putRill_jtag (k : Nat) (r : Rill) : (putRill s k r).jtag = s.jtag := rfl
@[simp] theorem putRill_out (k : Nat) (r : Rill) : (putRill s k r).out = s.out := rfl
@[simp] theorem putRill_freeCount (k : Nat) (r : Rill) : (putRill s k r).freeCount = s.freeCount := rfl
@[simp] theorem putRill_pending (k : Nat) (r : Rill) : (putRill s k r).pending = s.pending := rfl

@[simp] theorem dropRill_variant (k : Nat) : (dropRill s k).variant = s.variant := rfl
@[simp] theorem dropRill_regs (k : Nat) : (dropRill s k).regs = s.regs := rfl
@[simp] theorem dropRill_act (k : Nat) : (dropRill s k).act = s.act := rfl
@[simp] theorem dropRill_pend (k : Nat) : (dropRill s k).pend = s.pend := rfl
@[simp] theorem dropRill_link (k : Nat) : (dropRill s k).link = s.link := rfl
@[simp] theorem dropRill_dqp (k : Nat) : (dropRill s k).dqp = s.dqp := rfl
@[simp] theorem dropRill_mem (k : Nat) : (dropRill s k).mem = s.mem := rfl
@[simp] theorem dropRill_tiles (k : Nat) : (dropRill s k).tiles = s.tiles := rfl
@[simp] theorem dropRill_flume (k : Nat) : (dropRill s k).flume = s.flume := rfl
@[simp] theorem dropRill_sched (k : Nat) : (dropRill s k).sched = s.sched := rfl
@[simp] theorem dropRill_search (k : Nat) : (dropRill s k).search = s.search := rfl
@[simp] theorem dropRill_media (k : Nat) : (dropRill s k).media = s.media := rfl
@[simp] theorem dropRill_flash (k : Nat) : (dropRill s k).flash = s.flash := rfl
@[simp] theorem dropRill_prot (k : Nat) : (dropRill s k).prot = s.prot := rfl
@[simp] theorem dropRill_boot (k : Nat) : (dropRill s k).boot = s.boot := rfl
@[simp] theorem dropRill_weir (k : Nat) : (dropRill s k).weir = s.weir := rfl
@[simp] theorem dropRill_ident (k : Nat) : (dropRill s k).ident = s.ident := rfl
@[simp] theorem dropRill_counters (k : Nat) : (dropRill s k).counters = s.counters := rfl
@[simp] theorem dropRill_mgmt (k : Nat) : (dropRill s k).mgmt = s.mgmt := rfl
@[simp] theorem dropRill_jtag (k : Nat) : (dropRill s k).jtag = s.jtag := rfl
@[simp] theorem dropRill_out (k : Nat) : (dropRill s k).out = s.out := rfl
@[simp] theorem dropRill_freeCount (k : Nat) : (dropRill s k).freeCount = s.freeCount := rfl
@[simp] theorem dropRill_pending (k : Nat) : (dropRill s k).pending = s.pending := rfl

@[simp] theorem putTile_variant (reach tile : Nat) (x : Tile) : (putTile s reach tile x).variant = s.variant := rfl
@[simp] theorem putTile_regs (reach tile : Nat) (x : Tile) : (putTile s reach tile x).regs = s.regs := rfl
@[simp] theorem putTile_act (reach tile : Nat) (x : Tile) : (putTile s reach tile x).act = s.act := rfl
@[simp] theorem putTile_pend (reach tile : Nat) (x : Tile) : (putTile s reach tile x).pend = s.pend := rfl
@[simp] theorem putTile_link (reach tile : Nat) (x : Tile) : (putTile s reach tile x).link = s.link := rfl
@[simp] theorem putTile_dqp (reach tile : Nat) (x : Tile) : (putTile s reach tile x).dqp = s.dqp := rfl
@[simp] theorem putTile_mem (reach tile : Nat) (x : Tile) : (putTile s reach tile x).mem = s.mem := rfl
@[simp] theorem putTile_runnels (reach tile : Nat) (x : Tile) : (putTile s reach tile x).runnels = s.runnels := rfl
@[simp] theorem putTile_flume (reach tile : Nat) (x : Tile) : (putTile s reach tile x).flume = s.flume := rfl
@[simp] theorem putTile_sched (reach tile : Nat) (x : Tile) : (putTile s reach tile x).sched = s.sched := rfl
@[simp] theorem putTile_search (reach tile : Nat) (x : Tile) : (putTile s reach tile x).search = s.search := rfl
@[simp] theorem putTile_media (reach tile : Nat) (x : Tile) : (putTile s reach tile x).media = s.media := rfl
@[simp] theorem putTile_flash (reach tile : Nat) (x : Tile) : (putTile s reach tile x).flash = s.flash := rfl
@[simp] theorem putTile_prot (reach tile : Nat) (x : Tile) : (putTile s reach tile x).prot = s.prot := rfl
@[simp] theorem putTile_boot (reach tile : Nat) (x : Tile) : (putTile s reach tile x).boot = s.boot := rfl
@[simp] theorem putTile_weir (reach tile : Nat) (x : Tile) : (putTile s reach tile x).weir = s.weir := rfl
@[simp] theorem putTile_ident (reach tile : Nat) (x : Tile) : (putTile s reach tile x).ident = s.ident := rfl
@[simp] theorem putTile_counters (reach tile : Nat) (x : Tile) : (putTile s reach tile x).counters = s.counters := rfl
@[simp] theorem putTile_mgmt (reach tile : Nat) (x : Tile) : (putTile s reach tile x).mgmt = s.mgmt := rfl
@[simp] theorem putTile_jtag (reach tile : Nat) (x : Tile) : (putTile s reach tile x).jtag = s.jtag := rfl
@[simp] theorem putTile_out (reach tile : Nat) (x : Tile) : (putTile s reach tile x).out = s.out := rfl
@[simp] theorem putTile_freeCount (reach tile : Nat) (x : Tile) : (putTile s reach tile x).freeCount = s.freeCount := rfl
@[simp] theorem putTile_pending (reach tile : Nat) (x : Tile) : (putTile s reach tile x).pending = s.pending := rfl

@[simp] theorem updCmd_variant (no : Nat) (f : Cmd → Cmd) : (updCmd s no f).variant = s.variant := rfl
@[simp] theorem updCmd_regs (no : Nat) (f : Cmd → Cmd) : (updCmd s no f).regs = s.regs := rfl
@[simp] theorem updCmd_act (no : Nat) (f : Cmd → Cmd) : (updCmd s no f).act = s.act := rfl
@[simp] theorem updCmd_pend (no : Nat) (f : Cmd → Cmd) : (updCmd s no f).pend = s.pend := rfl
@[simp] theorem updCmd_link (no : Nat) (f : Cmd → Cmd) : (updCmd s no f).link = s.link := rfl
@[simp] theorem updCmd_mem (no : Nat) (f : Cmd → Cmd) : (updCmd s no f).mem = s.mem := rfl
@[simp] theorem updCmd_tiles (no : Nat) (f : Cmd → Cmd) : (updCmd s no f).tiles = s.tiles := rfl
@[simp] theorem updCmd_runnels (no : Nat) (f : Cmd → Cmd) : (updCmd s no f).runnels = s.runnels := rfl
@[simp] theorem updCmd_flume (no : Nat) (f : Cmd → Cmd) : (updCmd s no f).flume = s.flume := rfl
@[simp] theorem updCmd_sched (no : Nat) (f : Cmd → Cmd) : (updCmd s no f).sched = s.sched := rfl
@[simp] theorem updCmd_search (no : Nat) (f : Cmd → Cmd) : (updCmd s no f).search = s.search := rfl
@[simp] theorem updCmd_media (no : Nat) (f : Cmd → Cmd) : (updCmd s no f).media = s.media := rfl
@[simp] theorem updCmd_flash (no : Nat) (f : Cmd → Cmd) : (updCmd s no f).flash = s.flash := rfl
@[simp] theorem updCmd_prot (no : Nat) (f : Cmd → Cmd) : (updCmd s no f).prot = s.prot := rfl
@[simp] theorem updCmd_boot (no : Nat) (f : Cmd → Cmd) : (updCmd s no f).boot = s.boot := rfl
@[simp] theorem updCmd_weir (no : Nat) (f : Cmd → Cmd) : (updCmd s no f).weir = s.weir := rfl
@[simp] theorem updCmd_ident (no : Nat) (f : Cmd → Cmd) : (updCmd s no f).ident = s.ident := rfl
@[simp] theorem updCmd_counters (no : Nat) (f : Cmd → Cmd) : (updCmd s no f).counters = s.counters := rfl
@[simp] theorem updCmd_mgmt (no : Nat) (f : Cmd → Cmd) : (updCmd s no f).mgmt = s.mgmt := rfl
@[simp] theorem updCmd_jtag (no : Nat) (f : Cmd → Cmd) : (updCmd s no f).jtag = s.jtag := rfl
@[simp] theorem updCmd_out (no : Nat) (f : Cmd → Cmd) : (updCmd s no f).out = s.out := rfl
@[simp] theorem updCmd_freeCount (no : Nat) (f : Cmd → Cmd) : (updCmd s no f).freeCount = s.freeCount := rfl
@[simp] theorem updCmd_pending (no : Nat) (f : Cmd → Cmd) : (updCmd s no f).pending = s.pending := rfl

@[simp] theorem updSq_variant (q : Nat) (f : Sq → Sq) : (updSq s q f).variant = s.variant := rfl
@[simp] theorem updSq_regs (q : Nat) (f : Sq → Sq) : (updSq s q f).regs = s.regs := rfl
@[simp] theorem updSq_act (q : Nat) (f : Sq → Sq) : (updSq s q f).act = s.act := rfl
@[simp] theorem updSq_pend (q : Nat) (f : Sq → Sq) : (updSq s q f).pend = s.pend := rfl
@[simp] theorem updSq_link (q : Nat) (f : Sq → Sq) : (updSq s q f).link = s.link := rfl
@[simp] theorem updSq_mem (q : Nat) (f : Sq → Sq) : (updSq s q f).mem = s.mem := rfl
@[simp] theorem updSq_tiles (q : Nat) (f : Sq → Sq) : (updSq s q f).tiles = s.tiles := rfl
@[simp] theorem updSq_runnels (q : Nat) (f : Sq → Sq) : (updSq s q f).runnels = s.runnels := rfl
@[simp] theorem updSq_flume (q : Nat) (f : Sq → Sq) : (updSq s q f).flume = s.flume := rfl
@[simp] theorem updSq_sched (q : Nat) (f : Sq → Sq) : (updSq s q f).sched = s.sched := rfl
@[simp] theorem updSq_search (q : Nat) (f : Sq → Sq) : (updSq s q f).search = s.search := rfl
@[simp] theorem updSq_media (q : Nat) (f : Sq → Sq) : (updSq s q f).media = s.media := rfl
@[simp] theorem updSq_flash (q : Nat) (f : Sq → Sq) : (updSq s q f).flash = s.flash := rfl
@[simp] theorem updSq_prot (q : Nat) (f : Sq → Sq) : (updSq s q f).prot = s.prot := rfl
@[simp] theorem updSq_boot (q : Nat) (f : Sq → Sq) : (updSq s q f).boot = s.boot := rfl
@[simp] theorem updSq_weir (q : Nat) (f : Sq → Sq) : (updSq s q f).weir = s.weir := rfl
@[simp] theorem updSq_ident (q : Nat) (f : Sq → Sq) : (updSq s q f).ident = s.ident := rfl
@[simp] theorem updSq_counters (q : Nat) (f : Sq → Sq) : (updSq s q f).counters = s.counters := rfl
@[simp] theorem updSq_mgmt (q : Nat) (f : Sq → Sq) : (updSq s q f).mgmt = s.mgmt := rfl
@[simp] theorem updSq_jtag (q : Nat) (f : Sq → Sq) : (updSq s q f).jtag = s.jtag := rfl
@[simp] theorem updSq_out (q : Nat) (f : Sq → Sq) : (updSq s q f).out = s.out := rfl
@[simp] theorem updSq_freeCount (q : Nat) (f : Sq → Sq) : (updSq s q f).freeCount = s.freeCount := rfl
@[simp] theorem updSq_pending (q : Nat) (f : Sq → Sq) : (updSq s q f).pending = s.pending := rfl

@[simp] theorem updCq_variant (q : Nat) (f : Cq → Cq) : (updCq s q f).variant = s.variant := rfl
@[simp] theorem updCq_regs (q : Nat) (f : Cq → Cq) : (updCq s q f).regs = s.regs := rfl
@[simp] theorem updCq_act (q : Nat) (f : Cq → Cq) : (updCq s q f).act = s.act := rfl
@[simp] theorem updCq_pend (q : Nat) (f : Cq → Cq) : (updCq s q f).pend = s.pend := rfl
@[simp] theorem updCq_link (q : Nat) (f : Cq → Cq) : (updCq s q f).link = s.link := rfl
@[simp] theorem updCq_mem (q : Nat) (f : Cq → Cq) : (updCq s q f).mem = s.mem := rfl
@[simp] theorem updCq_tiles (q : Nat) (f : Cq → Cq) : (updCq s q f).tiles = s.tiles := rfl
@[simp] theorem updCq_runnels (q : Nat) (f : Cq → Cq) : (updCq s q f).runnels = s.runnels := rfl
@[simp] theorem updCq_flume (q : Nat) (f : Cq → Cq) : (updCq s q f).flume = s.flume := rfl
@[simp] theorem updCq_sched (q : Nat) (f : Cq → Cq) : (updCq s q f).sched = s.sched := rfl
@[simp] theorem updCq_search (q : Nat) (f : Cq → Cq) : (updCq s q f).search = s.search := rfl
@[simp] theorem updCq_media (q : Nat) (f : Cq → Cq) : (updCq s q f).media = s.media := rfl
@[simp] theorem updCq_flash (q : Nat) (f : Cq → Cq) : (updCq s q f).flash = s.flash := rfl
@[simp] theorem updCq_prot (q : Nat) (f : Cq → Cq) : (updCq s q f).prot = s.prot := rfl
@[simp] theorem updCq_boot (q : Nat) (f : Cq → Cq) : (updCq s q f).boot = s.boot := rfl
@[simp] theorem updCq_weir (q : Nat) (f : Cq → Cq) : (updCq s q f).weir = s.weir := rfl
@[simp] theorem updCq_ident (q : Nat) (f : Cq → Cq) : (updCq s q f).ident = s.ident := rfl
@[simp] theorem updCq_counters (q : Nat) (f : Cq → Cq) : (updCq s q f).counters = s.counters := rfl
@[simp] theorem updCq_mgmt (q : Nat) (f : Cq → Cq) : (updCq s q f).mgmt = s.mgmt := rfl
@[simp] theorem updCq_jtag (q : Nat) (f : Cq → Cq) : (updCq s q f).jtag = s.jtag := rfl
@[simp] theorem updCq_out (q : Nat) (f : Cq → Cq) : (updCq s q f).out = s.out := rfl
@[simp] theorem updCq_freeCount (q : Nat) (f : Cq → Cq) : (updCq s q f).freeCount = s.freeCount := rfl
@[simp] theorem updCq_pending (q : Nat) (f : Cq → Cq) : (updCq s q f).pending = s.pending := rfl


/-! ### What the single writes do -/

@[simp] theorem updLink_link (f : Link → Link) : (updLink s f).link = f s.link := rfl
@[simp] theorem updDqp_dqp (f : Dqp → Dqp) : (updDqp s f).dqp = f s.dqp := rfl
@[simp] theorem updMem_mem (f : Mem → Mem) : (updMem s f).mem = f s.mem := rfl
@[simp] theorem updSearch_search (f : Search → Search) : (updSearch s f).search = f s.search := rfl
@[simp] theorem updMedia_media (f : Media → Media) : (updMedia s f).media = f s.media := rfl
@[simp] theorem updFlash_flash (f : Flash → Flash) : (updFlash s f).flash = f s.flash := rfl
@[simp] theorem updProt_prot (f : Prot → Prot) : (updProt s f).prot = f s.prot := rfl
@[simp] theorem updJtag_jtag (f : Jtag → Jtag) : (updJtag s f).jtag = f s.jtag := rfl
@[simp] theorem emit_out (o : Output) : (emit s o).out = s.out ++ [o] := rfl

/-! ### Register fields -/

/-- A field reads the register store alone. -/
theorem getF_congr {s t : State} (h : t.regs = s.regs) (isl : Nat) (f : Field) (i j : Nat) : getF t isl f i j = getF s isl f i j := by
  unfold getF; rw [h]

/-- A field written is read back, cut to its width (R9). -/
theorem getF_setF_same {s : State} (h : mSorted none s.regs = true) (isl : Nat) (f : Field) (v i j : Nat) :
    getF (setF s isl f v i j) isl f i j = v % 2 ^ f.w := mget_mset_same _ _ _ h

/-- Writing a field leaves every field of another key alone. -/
theorem getF_setF_ne {s : State} (h : mSorted none s.regs = true) (isl isl' : Nat) (f g : Field) (v i j i' j' : Nat)
    (hk : fieldKey isl' g i' j' ≠ fieldKey isl f i j) : getF (setF s isl f v i j) isl' g i' j' = getF s isl' g i' j' :=
  mget_mset_ne _ _ _ hk h

/-- Keys of fields within the layout's bounds are equal only for the same place. -/
theorem fieldKey_inj {isl isl' i i' j j' : Nat} {f g : Field} (hf : f.reg < 512) (hg : g.reg < 512) (hi : i < 2048) (hi' : i' < 2048)
    (hj : j < 64) (hj' : j' < 64) (hl : f.lo < 32) (hl' : g.lo < 32) (h : fieldKey isl f i j = fieldKey isl' g i' j') :
    isl = isl' ∧ f.reg = g.reg ∧ i = i' ∧ j = j' ∧ f.lo = g.lo := by
  simp only [fieldKey] at h; omega

theorem setF_regs_sorted {s : State} (h : mSorted none s.regs = true) (isl : Nat) (f : Field) (v i j : Nat) :
    mSorted none (setF s isl f v i j).regs = true := mSorted_mset _ _ _ h

/-! ### Memory -/

theorem wrCells_canon {m : List Host.Cell} (a : Nat) (l : List Byte) (h : Memory.wf m = true) : Memory.wf (wrCells m a l) = true := by
  induction l generalizing a m with
  | nil => exact h
  | cons b l ih => exact ih (a + 1) (mCanon_mset _ _ h)

/-- A write of bytes keeps memory canonical. -/
theorem wrBytes_wf {s : State} (a : Nat) (l : List Byte) (h : Memory.wf s.mem.bytes = true) : Memory.wf (wrBytes s a l).mem.bytes = true :=
  wrCells_canon a l h

theorem clearMem_wf {s : State} (a n : Nat) (h : Memory.wf s.mem.bytes = true) : Memory.wf (clearMem s a n).mem.bytes = true :=
  mCanon_filter _ h

theorem foldl_mset_canon {β : Type} (f : β → Nat) (g : β → Byte) (l : List β) {m : List Host.Cell} (h : Memory.wf m = true) :
    Memory.wf (l.foldl (fun m p => mset 0 m (f p) (g p)) m) = true := by
  induction l generalizing m with
  | nil => exact h
  | cons x l ih => exact ih (mCanon_mset _ _ h)


theorem poisonRange_wf {s : State} (a n : Nat) (h : Memory.wf s.mem.bytes = true) : Memory.wf (poisonRange s a n).mem.bytes = true := h

/-- Marking the granules of poisoned bytes keeps memory canonical. -/
theorem wrPBytes_wf {s : State} (a : Nat) (l : List PByte) (h : Memory.wf s.mem.bytes = true) :
    Memory.wf (wrPBytes s a l).mem.bytes = true := by
  unfold wrPBytes
  split
  · refine List.foldlRecOn _ _ (motive := fun s' : State => Memory.wf s'.mem.bytes = true) (wrBytes_wf a _ h) ?_
    intro b hb x _; exact hb
  · exact wrBytes_wf a _ h

/-- Moving contexts' bytes to and from a save keeps memory canonical (R277, R279). -/
theorem moveMem_wf {s : State} (f : Nat → Option Nat) (h : Memory.wf s.mem.bytes = true) : Memory.wf (moveMem s f).mem.bytes = true := by
  unfold moveMem
  exact foldl_mset_canon (fun p : Nat × Byte => p.1) (fun p => p.2) _ h

theorem mget_wrCells_below (l : List Byte) {m : List Host.Cell} {a x : Nat} (hx : x < a) (h : mSorted none m = true) :
    mget 0 (wrCells m a l) x = mget 0 m x := by
  induction l generalizing a m with
  | nil => rfl
  | cons b l ih =>
    simp only [wrCells]
    rw [ih (by omega) (mSorted_mset _ _ _ h), mget_mset_ne _ _ _ (by omega) h]

/-- A read after a write of bytes: the byte written inside the range, the old byte outside it. -/
theorem mget_wrCells (l : List Byte) {m : List Host.Cell} {a x : Nat} (h : mSorted none m = true) :
    mget 0 (wrCells m a l) x = if a ≤ x ∧ x < a + l.length then l.getD (x - a) 0 else mget 0 m x := by
  induction l generalizing a m with
  | nil => simp only [wrCells, List.length_nil]; rw [if_neg (by omega)]
  | cons b l ih =>
    simp only [wrCells, List.length_cons]
    by_cases hx : x = a
    · subst hx
      rw [mget_wrCells_below l (by omega) (mSorted_mset _ _ _ h), mget_mset_same _ _ _ h, if_pos (by omega)]
      simp
    · rw [ih (mSorted_mset _ _ _ h), mget_mset_ne _ _ _ hx h]
      by_cases hin : a ≤ x ∧ x < a + (l.length + 1)
      · rw [if_pos hin, if_pos (by omega)]
        obtain ⟨k, hk⟩ : ∃ k, x - a = k + 1 := ⟨x - a - 1, by omega⟩
        rw [hk, show x - (a + 1) = k by omega]; simp
      · rw [if_neg hin, if_neg (by omega)]

/-- One byte after a write of bytes. -/
theorem rdByte_wrBytes {s : State} (a x : Nat) (l : List Byte) (h : Memory.wf s.mem.bytes = true) :
    rdByte (wrBytes s a l) x = if a ≤ x ∧ x < a + l.length then l.getD (x - a) 0 else rdByte s x := by
  have hs : mSorted none s.mem.bytes = true := by
    simp only [Memory.wf, mCanon, Bool.and_eq_true] at h; exact h.1
  exact mget_wrCells l hs

end Sys2Proof.Machine
end

