-- ==== Sys2Proof/Laws/Ops.lean ====
section
/-!
SUPPORT. Laws/Ops.lean: what the shared operations can do, each said once: the run of a DQP command, its checks, the queue's front, and
the forms of Safety.lean kept by the single writes of registers, outputs and memory.
-/
namespace Sys2Proof.Machine

/-! ### Commands of the DQP (R75, R81, R497) -/

/-- A command named by queue and tag: nothing happens, or it is rejected with the first status of its conditions, or it ends in 0x4001
at a lost word of its control SRAM, or it runs (R420). -/
theorem runCmd_cases (s : State) (id : CmdId) (sel : Cmd → Bool) (fields : List (Nat × Nat)) (conds : Cmd → List Nat)
    (body : State → Cmd → State) :
    (runCmd s id sel fields conds body = s ∧ ∀ c, cmdById s id = some c → (canStart s c && sel c) = false) ∨
    ∃ c, cmdById s id = some c ∧ canStart s c = true ∧ sel c = true ∧
      ((firstOf (baseConds c ++ [cond (!onlyBytes c fields) 0x1002] ++ conds c) ≠ 0 ∧
          runCmd s id sel fields conds body
            = complete s c.no (firstOf (baseConds c ++ [cond (!onlyBytes c fields) 0x1002] ++ conds c))) ∨
       (firstOf (baseConds c ++ [cond (!onlyBytes c fields) 0x1002] ++ conds c) = 0 ∧
          runCmd s id sel fields conds body
            = if (sramMeets s id.sram).2 then complete (sramMeets s id.sram).1 c.no 0x4001
              else body (markStarted (sramMeets s id.sram).1 c.no) c)) := by
  unfold runCmd
  cases h : cmdById s id with
  | none => exact .inl ⟨rfl, fun c hc => nomatch hc⟩
  | some c =>
    by_cases hg : (canStart s c && sel c) = true
    · obtain ⟨h1, h2⟩ := Bool.and_eq_true_iff.mp hg
      refine .inr ⟨c, rfl, h1, h2, ?_⟩
      by_cases hz : firstOf (baseConds c ++ [cond (!onlyBytes c fields) 0x1002] ++ conds c) = 0
      · exact .inr ⟨hz, by simp only [hg, if_true, hz, ne_eq, not_true_eq_false, if_false]⟩
      · exact .inl ⟨hz, by simp only [hg, if_true, ne_eq, hz, not_false_eq_true]⟩
    · refine .inl ⟨by simp only [hg, Bool.false_eq_true, if_false], ?_⟩
      intro d hd; obtain rfl := Option.some.inj hd; exact Bool.eq_false_iff.mpr hg

/-- The completion of a command that is not outstanding is nothing. -/
theorem complete_none {s : State} {no : Nat} (h : findCmd s no = none) (status r0 r1 detail : Nat) :
    complete s no status r0 r1 detail = s := by
  unfold complete; rw [h]

/-! ### The queue of commands -/

/-- With a command in front, a step is that command's effect with the queue's rest. -/
theorem step_front {s : State} {c : Instr} {rest : List Instr} (h : s.pending = c :: rest) :
    step s = exec c { s with pending := rest } := by
  unfold step; rw [h]

/-- On an empty queue a step is a tick. -/
theorem step_empty {s : State} (h : s.pending = []) : step s = .next (tick s) := by
  unfold step; rw [h]

/-! ### Forms (Safety.lean) -/

/-- The parts of the form. -/
theorem State.wf_iff (s : State) : State.wf s = true ↔
    Memory.wf s.mem.bytes = true ∧ mSorted none s.regs = true ∧ mSorted none s.act = true ∧ mSorted none s.pend = true
      ∧ mSorted none s.counters.cycles = true ∧ mSorted none s.runnels.rills = true ∧ mSorted none s.tiles = true := by
  simp only [State.wf, Bool.and_eq_true, and_assoc]

/-- The form depends on seven parts of the state alone. -/
theorem State.wf_congr {s t : State} (h : State.wf s = true) (hm : t.mem.bytes = s.mem.bytes) (hr : t.regs = s.regs) (ha : t.act = s.act)
    (hp : t.pend = s.pend) (hc : t.counters.cycles = s.counters.cycles) (hi : t.runnels.rills = s.runnels.rills) (ht : t.tiles = s.tiles) :
    State.wf t = true := by
  rw [State.wf_iff] at *; rw [hm, hr, ha, hp, hc, hi, ht]; exact h

/-- The memory after reset is in its form. -/
theorem reset_memory_wf : Memory.wf State.reset.mem.bytes = true := rfl

theorem setF_wf {s : State} (h : State.wf s = true) (isl : Nat) (f : Field) (v i j : Nat) : State.wf (setF s isl f v i j) = true := by
  obtain ⟨hm, hr, hx⟩ := (State.wf_iff s).mp h
  exact (State.wf_iff _).mpr ⟨hm, mSorted_mset _ _ _ hr, hx⟩

theorem addF_wf {s : State} (h : State.wf s = true) (isl : Nat) (f : Field) (n i j : Nat) : State.wf (addF s isl f n i j) = true :=
  setF_wf h _ _ _ _ _

theorem subF_wf {s : State} (h : State.wf s = true) (isl : Nat) (f : Field) (n i j : Nat) : State.wf (subF s isl f n i j) = true :=
  setF_wf h _ _ _ _ _

theorem setFBit_wf {s : State} (h : State.wf s = true) (isl : Nat) (f : Field) (b : Nat) (v : Bool) (i j : Nat) :
    State.wf (setFBit s isl f b v i j) = true :=
  setF_wf h _ _ _ _ _

theorem setA_wf {s : State} (h : State.wf s = true) (isl : Nat) (f : Field) (v i j : Nat) : State.wf (setA s isl f v i j) = true := by
  obtain ⟨hm, hr, ha, hx⟩ := (State.wf_iff s).mp h
  exact (State.wf_iff _).mpr ⟨hm, hr, mSorted_mset _ _ _ ha, hx⟩

theorem setP_wf {s : State} (h : State.wf s = true) (isl : Nat) (f : Field) (v i j : Nat) : State.wf (setP s isl f v i j) = true := by
  obtain ⟨hm, hr, ha, hp, hx⟩ := (State.wf_iff s).mp h
  exact (State.wf_iff _).mpr ⟨hm, hr, ha, mSorted_mset _ _ _ hp, hx⟩

/-- A field written as island configuration writes it (R516). -/
theorem setST_wf {s : State} (h : State.wf s = true) (isl : Nat) (f : Field) (v i j : Nat) : State.wf (setST s isl f v i j) = true :=
  setA_wf (setP_wf (setF_wf h _ _ _ _ _) _ _ _ _ _) _ _ _ _ _

theorem advanceTo_wf {s : State} (h : State.wf s = true) (i c : Nat) : State.wf (advanceTo s i c) = true := by
  obtain ⟨hm, hr, ha, hp, hc, hx⟩ := (State.wf_iff s).mp h
  exact (State.wf_iff _).mpr ⟨hm, hr, ha, hp, mSorted_mset _ _ _ hc, hx⟩

theorem emit_wf {s : State} (h : State.wf s = true) (o : Output) : State.wf (emit s o) = true :=
  State.wf_congr h rfl rfl rfl rfl rfl rfl rfl

theorem updCtx_wf {s : State} (h : State.wf s = true) (slot : Nat) (f : Ctx → Ctx) : State.wf (updCtx s slot f) = true :=
  State.wf_congr h rfl rfl rfl rfl rfl rfl rfl

theorem portBytes_wf {s : State} (h : State.wf s = true) (isl p n : Nat) : State.wf (portBytes s isl p n) = true :=
  State.wf_congr h rfl rfl rfl rfl rfl rfl rfl

/-- Writing bytes keeps the form (R416). -/
theorem wrBytes_form {s : State} (h : State.wf s = true) (a : Nat) (l : List Byte) : State.wf (wrBytes s a l) = true := by
  obtain ⟨hm, hx⟩ := (State.wf_iff s).mp h
  exact (State.wf_iff _).mpr ⟨wrBytes_wf a l hm, hx⟩

theorem clearMem_form {s : State} (h : State.wf s = true) (a n : Nat) : State.wf (clearMem s a n) = true := by
  obtain ⟨hm, hx⟩ := (State.wf_iff s).mp h
  exact (State.wf_iff _).mpr ⟨clearMem_wf a n hm, hx⟩

theorem putTile_wf {s : State} (h : State.wf s = true) (reach tile : Nat) (t : Tile) : State.wf (putTile s reach tile t) = true := by
  obtain ⟨hm, hr, ha, hp, hc, hi, ht⟩ := (State.wf_iff s).mp h
  exact (State.wf_iff _).mpr ⟨hm, hr, ha, hp, hc, hi, mSorted_mset _ _ _ ht⟩

/-- The event counters of one island keep the form (R476-R480). -/
theorem putWords_wf (isl i : Nat) (l : List Byte) {s : State} (h : State.wf s = true) : State.wf (putWords isl i l s) = true := by
  fun_induction putWords isl i l s with
  | case1 => exact h
  | case2 i b0 b1 b2 b3 l s ih => exact ih (setF_wf h _ _ _ _ _)
  | case3 => exact h

end Sys2Proof.Machine
end

