-- ==== Sys2Proof/Laws/PerInstr.lean ====
section
/-!
SUPPORT. Laws/PerInstr.lean: of each command, that the machine answers a next state for it: no command stops with a fault or
a refusal (notes/assumptions 1).
-/
namespace Sys2Proof.Laws.Answers
open Sys2Proof.Machine

/-- The command answers a next state from every state. -/
def Statement (i : Instr) : Prop := ∀ s : State, ∃ t : State, exec i s = .next t

theorem regWrite (port : Nat) (access : RegAt) (value : Nat) : Statement (.regWrite port access value) := fun _ => ⟨_, rfl⟩
theorem loReadLatch (port addr : Nat) : Statement (.loReadLatch port addr) := fun _ => ⟨_, rfl⟩
theorem groupCommit (port addr value : Nat) : Statement (.groupCommit port addr value) := fun _ => ⟨_, rfl⟩
theorem groupAdopt (addr : Nat) : Statement (.groupAdopt addr) := fun _ => ⟨_, rfl⟩
theorem sidebandRegAccess (write : Bool) (access : RegAt) (value : Nat) : Statement (.sidebandRegAccess write access value) := fun _ => ⟨_, rfl⟩
theorem sbImgOpen : Statement (.sbImgOpen) := fun _ => ⟨_, rfl⟩
theorem sbImgData (value : Nat) : Statement (.sbImgData value) := fun _ => ⟨_, rfl⟩
theorem sbImgSubmit : Statement (.sbImgSubmit) := fun _ => ⟨_, rfl⟩
theorem inputQualified (slotId : Nat) (pins : MgmtPins) : Statement (.inputQualified slotId pins) := fun _ => ⟨_, rfl⟩
theorem startUpStepEnd (env : StepEnv) : Statement (.startUpStepEnd env) := fun _ => ⟨_, rfl⟩
theorem linkTrained (sideband : Bool) : Statement (.linkTrained sideband) := fun _ => ⟨_, rfl⟩
theorem flitRejected (raw : List Byte) : Statement (.flitRejected raw) := fun _ => ⟨_, rfl⟩
theorem idle (ack freed : Nat) : Statement (.idle ack freed) := fun _ => ⟨_, rfl⟩
theorem init (ack credit buffers : Nat) : Statement (.init ack credit buffers) := fun _ => ⟨_, rfl⟩
theorem nak (ack credit number : Nat) : Statement (.nak ack credit number) := fun _ => ⟨_, rfl⟩
theorem doorbell (hdr : FlitHdr) (entries : List DbEntry) : Statement (.doorbell hdr entries) := fun _ => ⟨_, rfl⟩
theorem regReq (hdr : FlitHdr) (entries : List RegEntry) : Statement (.regReq hdr entries) := fun _ => ⟨_, rfl⟩
theorem pullData (hdr : FlitHdr) (offset reqId : Nat) (data : List Byte) : Statement (.pullData hdr offset reqId data) := fun _ => ⟨_, rfl⟩
theorem replayTimeout : Statement (.replayTimeout) := fun _ => ⟨_, rfl⟩
theorem idleDue : Statement (.idleDue) := fun _ => ⟨_, rfl⟩
theorem commandFetch : Statement (.commandFetch) := fun _ => ⟨_, rfl⟩
theorem cqCoalesceTimeout (cqid : Nat) : Statement (.cqCoalesceTimeout cqid) := fun _ => ⟨_, rfl⟩
theorem dqpEnable : Statement (.dqpEnable) := fun _ => ⟨_, rfl⟩
theorem dqpDisable : Statement (.dqpDisable) := fun _ => ⟨_, rfl⟩
theorem identify (c : CmdId) : Statement (.identify c) := fun _ => ⟨_, rfl⟩
theorem createSq (c : CmdId) : Statement (.createSq c) := fun _ => ⟨_, rfl⟩
theorem deleteSq (c : CmdId) : Statement (.deleteSq c) := fun _ => ⟨_, rfl⟩
theorem createCq (c : CmdId) : Statement (.createCq c) := fun _ => ⟨_, rfl⟩
theorem deleteCq (c : CmdId) : Statement (.deleteCq c) := fun _ => ⟨_, rfl⟩
theorem getLog (c : CmdId) : Statement (.getLog c) := fun _ => ⟨_, rfl⟩
theorem getFeatureCqInterrupt (c : CmdId) : Statement (.getFeatureCqInterrupt c) := fun _ => ⟨_, rfl⟩
theorem getFeatureSqClass (c : CmdId) : Statement (.getFeatureSqClass c) := fun _ => ⟨_, rfl⟩
theorem setFeatureCqInterrupt (c : CmdId) : Statement (.setFeatureCqInterrupt c) := fun _ => ⟨_, rfl⟩
theorem setFeatureSqClass (c : CmdId) : Statement (.setFeatureSqClass c) := fun _ => ⟨_, rfl⟩
theorem setPower (c : CmdId) : Statement (.setPower c) := fun _ => ⟨_, rfl⟩
theorem powerStateEntered (pastPoint : Bool) : Statement (.powerStateEntered pastPoint) := fun _ => ⟨_, rfl⟩
theorem powerStateExited : Statement (.powerStateExited) := fun _ => ⟨_, rfl⟩
theorem abort (c : CmdId) : Statement (.abort c) := fun _ => ⟨_, rfl⟩
theorem imageWrite (c : CmdId) (readBackOk : Nat) : Statement (.imageWrite c readBackOk) := fun _ => ⟨_, rfl⟩
theorem attestQuote (c : CmdId) : Statement (.attestQuote c) := fun _ => ⟨_, rfl⟩
theorem quoteSigned : Statement (.quoteSigned) := fun _ => ⟨_, rfl⟩
theorem unitDrain (c : CmdId) : Statement (.unitDrain c) := fun _ => ⟨_, rfl⟩
theorem unitTest (c : CmdId) : Statement (.unitTest c) := fun _ => ⟨_, rfl⟩
theorem unitJoin (c : CmdId) (fault : LineFault) (sensed : List Sensed) (marked : List (Nat × Nat × Nat)) : Statement (.unitJoin c fault sensed marked) := fun _ => ⟨_, rfl⟩
theorem unitOffline (c : CmdId) : Statement (.unitOffline c) := fun _ => ⟨_, rfl⟩
theorem shutdownHalt (c : CmdId) : Statement (.shutdownHalt c) := fun _ => ⟨_, rfl⟩
theorem shutdownReset (c : CmdId) : Statement (.shutdownReset c) := fun _ => ⟨_, rfl⟩
theorem shutdownWaitExpire : Statement (.shutdownWaitExpire) := fun _ => ⟨_, rfl⟩
theorem haltFlushComplete : Statement (.haltFlushComplete) := fun _ => ⟨_, rfl⟩
theorem read (c : CmdId) : Statement (.read c) := fun _ => ⟨_, rfl⟩
theorem write (c : CmdId) : Statement (.write c) := fun _ => ⟨_, rfl⟩
theorem writeResume (c : CmdId) : Statement (.writeResume c) := fun _ => ⟨_, rfl⟩
theorem flush (c : CmdId) : Statement (.flush c) := fun _ => ⟨_, rfl⟩
theorem trim (c : CmdId) : Statement (.trim c) := by
  intro s; show ∃ t, execTrim c s = .next t; unfold execTrim; split <;> exact ⟨_, rfl⟩
theorem secureDiscardRange (c : CmdId) : Statement (.secureDiscardRange c) := by
  intro s; show ∃ t, execSecureDiscardRange c s = .next t; unfold execSecureDiscardRange; split <;> exact ⟨_, rfl⟩
theorem secureDiscardReleased (c : CmdId) : Statement (.secureDiscardReleased c) := fun _ => ⟨_, rfl⟩
theorem verify (c : CmdId) : Statement (.verify c) := fun _ => ⟨_, rfl⟩
theorem rawReadCorrected (c : CmdId) : Statement (.rawReadCorrected c) := fun _ => ⟨_, rfl⟩
theorem rawReadStored (c : CmdId) : Statement (.rawReadStored c) := fun _ => ⟨_, rfl⟩
theorem rawReadEraseCount (c : CmdId) (zeros : Nat) : Statement (.rawReadEraseCount c zeros) := fun _ => ⟨_, rfl⟩
theorem objRegister (c : CmdId) : Statement (.objRegister c) := fun _ => ⟨_, rfl⟩
theorem objSetAttr (c : CmdId) : Statement (.objSetAttr c) := fun _ => ⟨_, rfl⟩
theorem objDelete (c : CmdId) : Statement (.objDelete c) := fun _ => ⟨_, rfl⟩
theorem objLookup (c : CmdId) : Statement (.objLookup c) := fun _ => ⟨_, rfl⟩
theorem objMap (c : CmdId) : Statement (.objMap c) := fun _ => ⟨_, rfl⟩
theorem objUnmap (c : CmdId) : Statement (.objUnmap c) := fun _ => ⟨_, rfl⟩
theorem tierMoveResident (c : CmdId) : Statement (.tierMoveResident c) := fun _ => ⟨_, rfl⟩
theorem tierMoveRelease (c : CmdId) : Statement (.tierMoveRelease c) := fun _ => ⟨_, rfl⟩
theorem tierPin (c : CmdId) : Statement (.tierPin c) := fun _ => ⟨_, rfl⟩
theorem tierUnpin (c : CmdId) : Statement (.tierUnpin c) := fun _ => ⟨_, rfl⟩
theorem tierHint (c : CmdId) : Statement (.tierHint c) := fun _ => ⟨_, rfl⟩
theorem shadowSet (c : CmdId) : Statement (.shadowSet c) := fun _ => ⟨_, rfl⟩
theorem quotaQuery (c : CmdId) : Statement (.quotaQuery c) := fun _ => ⟨_, rfl⟩
theorem tmModeWrite (port value : Nat) : Statement (.tmModeWrite port value) := fun _ => ⟨_, rfl⟩
theorem pageFetchComplete (nsid obj idx : Nat) (outs : List PageRead) : Statement (.pageFetchComplete nsid obj idx outs) := fun _ => ⟨_, rfl⟩
theorem tierFetchComplete (id : Nat) : Statement (.tierFetchComplete id) := fun _ => ⟨_, rfl⟩
theorem deadlineExpire (id : Nat) : Statement (.deadlineExpire id) := fun _ => ⟨_, rfl⟩
theorem extentCopyComplete (stack : Nat) (ext : Finding Nat) : Statement (.extentCopyComplete stack ext) := fun _ => ⟨_, rfl⟩
theorem stackDrainComplete (stack : Nat) : Statement (.stackDrainComplete stack) := fun _ => ⟨_, rfl⟩
theorem stackValidClearDone (stack : Nat) : Statement (.stackValidClearDone stack) := fun _ => ⟨_, rfl⟩
theorem stackJoinStep (stack : Nat) : Statement (.stackJoinStep stack) := fun _ => ⟨_, rfl⟩
theorem stackFault (stack : Nat) : Statement (.stackFault stack) := fun _ => ⟨_, rfl⟩
theorem stackScrub (stack : Nat) (corrected uncorrectable : List Nat) : Statement (.stackScrub stack corrected uncorrectable) := fun _ => ⟨_, rfl⟩
theorem ctxCreate (c : CmdId) : Statement (.ctxCreate c) := fun _ => ⟨_, rfl⟩
theorem ctxDestroy (c : CmdId) : Statement (.ctxDestroy c) := fun _ => ⟨_, rfl⟩
theorem ctxLaunch (c : Finding CmdId) : Statement (.ctxLaunch c) := fun _ => ⟨_, rfl⟩
theorem ctxSetPriority (c : CmdId) : Statement (.ctxSetPriority c) := fun _ => ⟨_, rfl⟩
theorem ctxImageSave (c : Finding CmdId) : Statement (.ctxImageSave c) := fun _ => ⟨_, rfl⟩
theorem ctxImageLoad (c : CmdId) : Statement (.ctxImageLoad c) := fun _ => ⟨_, rfl⟩
theorem ctxQuery (c : CmdId) : Statement (.ctxQuery c) := fun _ => ⟨_, rfl⟩
theorem imageSaveComplete (ctx : Nat) : Statement (.imageSaveComplete ctx) := fun _ => ⟨_, rfl⟩
theorem imageLoadComplete (ctx : Nat) (failed : Nat) : Statement (.imageLoadComplete ctx failed) := fun _ => ⟨_, rfl⟩
theorem contextCold (ctx : Finding Nat) : Statement (.contextCold ctx) := fun _ => ⟨_, rfl⟩
theorem stepMembersPresent (ctx : Nat) (launch : Finding Nat) : Statement (.stepMembersPresent ctx launch) := fun _ => ⟨_, rfl⟩
theorem schedDecision : Statement (.schedDecision) := fun _ => ⟨_, rfl⟩
theorem quantumEnd : Statement (.quantumEnd) := fun _ => ⟨_, rfl⟩
theorem contextDrainEnd (ctx : Nat) : Statement (.contextDrainEnd ctx) := fun _ => ⟨_, rfl⟩
theorem contextSaveComplete (ctx : Finding Nat) : Statement (.contextSaveComplete ctx) := fun _ => ⟨_, rfl⟩
theorem contextRestoreComplete (ctx : Finding Nat) : Statement (.contextRestoreComplete ctx) := fun _ => ⟨_, rfl⟩
theorem turnBoundary : Statement (.turnBoundary) := fun _ => ⟨_, rfl⟩
theorem turnLeadPoint : Statement (.turnLeadPoint) := fun _ => ⟨_, rfl⟩
theorem turnSignalApply (reach : Nat) : Statement (.turnSignalApply reach) := fun _ => ⟨_, rfl⟩
theorem rillStart (reach runnel slot ctx : Nat) : Statement (.rillStart reach runnel slot ctx) := fun _ => ⟨_, rfl⟩
theorem launchComplete (ctx : Nat) (launch : Finding Nat) : Statement (.launchComplete ctx launch) := fun _ => ⟨_, rfl⟩
theorem rillReservedOpcode (r : RillAt) : Statement (.rillReservedOpcode r) := fun _ => ⟨_, rfl⟩
theorem rillIadd (r : RillAt) : Statement (.rillIadd r) := fun _ => ⟨_, rfl⟩
theorem rillIsub (r : RillAt) : Statement (.rillIsub r) := fun _ => ⟨_, rfl⟩
theorem rillImul (r : RillAt) : Statement (.rillImul r) := fun _ => ⟨_, rfl⟩
theorem rillImulhi (r : RillAt) : Statement (.rillImulhi r) := fun _ => ⟨_, rfl⟩
theorem rillUmulhi (r : RillAt) : Statement (.rillUmulhi r) := fun _ => ⟨_, rfl⟩
theorem rillIdiv (r : RillAt) : Statement (.rillIdiv r) := fun _ => ⟨_, rfl⟩
theorem rillUdiv (r : RillAt) : Statement (.rillUdiv r) := fun _ => ⟨_, rfl⟩
theorem rillIrem (r : RillAt) : Statement (.rillIrem r) := fun _ => ⟨_, rfl⟩
theorem rillUrem (r : RillAt) : Statement (.rillUrem r) := fun _ => ⟨_, rfl⟩
theorem rillIadd64 (r : RillAt) : Statement (.rillIadd64 r) := fun _ => ⟨_, rfl⟩
theorem rillIsub64 (r : RillAt) : Statement (.rillIsub64 r) := fun _ => ⟨_, rfl⟩
theorem rillImul64 (r : RillAt) : Statement (.rillImul64 r) := fun _ => ⟨_, rfl⟩
theorem rillAnd (r : RillAt) : Statement (.rillAnd r) := fun _ => ⟨_, rfl⟩
theorem rillOr (r : RillAt) : Statement (.rillOr r) := fun _ => ⟨_, rfl⟩
theorem rillXor (r : RillAt) : Statement (.rillXor r) := fun _ => ⟨_, rfl⟩
theorem rillNot (r : RillAt) : Statement (.rillNot r) := fun _ => ⟨_, rfl⟩
theorem rillShl (r : RillAt) : Statement (.rillShl r) := fun _ => ⟨_, rfl⟩
theorem rillShr (r : RillAt) : Statement (.rillShr r) := fun _ => ⟨_, rfl⟩
theorem rillSar (r : RillAt) : Statement (.rillSar r) := fun _ => ⟨_, rfl⟩
theorem rillRotl (r : RillAt) : Statement (.rillRotl r) := fun _ => ⟨_, rfl⟩
theorem rillPopc (r : RillAt) : Statement (.rillPopc r) := fun _ => ⟨_, rfl⟩
theorem rillClz (r : RillAt) : Statement (.rillClz r) := fun _ => ⟨_, rfl⟩
theorem rillImin (r : RillAt) : Statement (.rillImin r) := fun _ => ⟨_, rfl⟩
theorem rillImax (r : RillAt) : Statement (.rillImax r) := fun _ => ⟨_, rfl⟩
theorem rillUmin (r : RillAt) : Statement (.rillUmin r) := fun _ => ⟨_, rfl⟩
theorem rillUmax (r : RillAt) : Statement (.rillUmax r) := fun _ => ⟨_, rfl⟩
theorem rillSel (r : RillAt) : Statement (.rillSel r) := fun _ => ⟨_, rfl⟩
theorem rillMov (r : RillAt) : Statement (.rillMov r) := fun _ => ⟨_, rfl⟩
theorem rillMovi (r : RillAt) : Statement (.rillMovi r) := fun _ => ⟨_, rfl⟩
theorem rillIaddi (r : RillAt) : Statement (.rillIaddi r) := fun _ => ⟨_, rfl⟩
theorem rillSetp (r : RillAt) : Statement (.rillSetp r) := fun _ => ⟨_, rfl⟩
theorem rillPlop (r : RillAt) : Statement (.rillPlop r) := fun _ => ⟨_, rfl⟩
theorem rillShfl (r : RillAt) : Statement (.rillShfl r) := fun _ => ⟨_, rfl⟩
theorem rillVoteany (r : RillAt) : Statement (.rillVoteany r) := fun _ => ⟨_, rfl⟩
theorem rillVoteall (r : RillAt) : Statement (.rillVoteall r) := fun _ => ⟨_, rfl⟩
theorem rillBallot (r : RillAt) : Statement (.rillBallot r) := fun _ => ⟨_, rfl⟩
theorem rillSreg (r : RillAt) : Statement (.rillSreg r) := fun _ => ⟨_, rfl⟩
theorem rillFadd (r : RillAt) : Statement (.rillFadd r) := fun _ => ⟨_, rfl⟩
theorem rillFsub (r : RillAt) : Statement (.rillFsub r) := fun _ => ⟨_, rfl⟩
theorem rillFmul (r : RillAt) : Statement (.rillFmul r) := fun _ => ⟨_, rfl⟩
theorem rillFfma (r : RillAt) : Statement (.rillFfma r) := fun _ => ⟨_, rfl⟩
theorem rillFmin (r : RillAt) : Statement (.rillFmin r) := fun _ => ⟨_, rfl⟩
theorem rillFmax (r : RillAt) : Statement (.rillFmax r) := fun _ => ⟨_, rfl⟩
theorem rillFabs (r : RillAt) : Statement (.rillFabs r) := fun _ => ⟨_, rfl⟩
theorem rillFneg (r : RillAt) : Statement (.rillFneg r) := fun _ => ⟨_, rfl⟩
theorem rillFsetp (r : RillAt) : Statement (.rillFsetp r) := fun _ => ⟨_, rfl⟩
theorem rillFdiv (r : RillAt) : Statement (.rillFdiv r) := fun _ => ⟨_, rfl⟩
theorem rillFsqrt (r : RillAt) : Statement (.rillFsqrt r) := fun _ => ⟨_, rfl⟩
theorem rillRcp (r : RillAt) : Statement (.rillRcp r) := fun _ => ⟨_, rfl⟩
theorem rillRsq (r : RillAt) : Statement (.rillRsq r) := fun _ => ⟨_, rfl⟩
theorem rillExp2 (r : RillAt) : Statement (.rillExp2 r) := fun _ => ⟨_, rfl⟩
theorem rillLog2 (r : RillAt) : Statement (.rillLog2 r) := fun _ => ⟨_, rfl⟩
theorem rillSinp (r : RillAt) : Statement (.rillSinp r) := fun _ => ⟨_, rfl⟩
theorem rillCosp (r : RillAt) : Statement (.rillCosp r) := fun _ => ⟨_, rfl⟩
theorem rillCvtn (r : RillAt) : Statement (.rillCvtn r) := fun _ => ⟨_, rfl⟩
theorem rillCvtw (r : RillAt) : Statement (.rillCvtw r) := fun _ => ⟨_, rfl⟩
theorem rillI2f (r : RillAt) : Statement (.rillI2f r) := fun _ => ⟨_, rfl⟩
theorem rillF2i (r : RillAt) : Statement (.rillF2i r) := fun _ => ⟨_, rfl⟩
theorem rillPack (r : RillAt) : Statement (.rillPack r) := fun _ => ⟨_, rfl⟩
theorem rillUnpack (r : RillAt) : Statement (.rillUnpack r) := fun _ => ⟨_, rfl⟩
theorem rillLd (r : RillAt) : Statement (.rillLd r) := fun _ => ⟨_, rfl⟩
theorem rillSt (r : RillAt) : Statement (.rillSt r) := fun _ => ⟨_, rfl⟩
theorem rillAadd (r : RillAt) : Statement (.rillAadd r) := fun _ => ⟨_, rfl⟩
theorem rillAsmin (r : RillAt) : Statement (.rillAsmin r) := fun _ => ⟨_, rfl⟩
theorem rillAsmax (r : RillAt) : Statement (.rillAsmax r) := fun _ => ⟨_, rfl⟩
theorem rillAumin (r : RillAt) : Statement (.rillAumin r) := fun _ => ⟨_, rfl⟩
theorem rillAumax (r : RillAt) : Statement (.rillAumax r) := fun _ => ⟨_, rfl⟩
theorem rillAand (r : RillAt) : Statement (.rillAand r) := fun _ => ⟨_, rfl⟩
theorem rillAor (r : RillAt) : Statement (.rillAor r) := fun _ => ⟨_, rfl⟩
theorem rillAxor (r : RillAt) : Statement (.rillAxor r) := fun _ => ⟨_, rfl⟩
theorem rillAxchg (r : RillAt) : Statement (.rillAxchg r) := fun _ => ⟨_, rfl⟩
theorem rillAcas (r : RillAt) : Statement (.rillAcas r) := fun _ => ⟨_, rfl⟩
theorem rillAfadd (r : RillAt) : Statement (.rillAfadd r) := fun _ => ⟨_, rfl⟩
theorem rillFence (r : RillAt) : Statement (.rillFence r) := fun _ => ⟨_, rfl⟩
theorem rillBra (r : RillAt) : Statement (.rillBra r) := fun _ => ⟨_, rfl⟩
theorem rillExit (r : RillAt) : Statement (.rillExit r) := fun _ => ⟨_, rfl⟩
theorem rillBarsync (r : RillAt) : Statement (.rillBarsync r) := fun _ => ⟨_, rfl⟩
theorem rillBararrive (r : RillAt) : Statement (.rillBararrive r) := fun _ => ⟨_, rfl⟩
theorem rillSigadd (r : RillAt) : Statement (.rillSigadd r) := fun _ => ⟨_, rfl⟩
theorem rillSigset (r : RillAt) : Statement (.rillSigset r) := fun _ => ⟨_, rfl⟩
theorem rillSigwait (r : RillAt) : Statement (.rillSigwait r) := fun _ => ⟨_, rfl⟩
theorem rillNap (r : RillAt) : Statement (.rillNap r) := fun _ => ⟨_, rfl⟩
theorem rillNapExpire (r : RillAt) : Statement (.rillNapExpire r) := fun _ => ⟨_, rfl⟩
theorem rillPass (r : RillAt) : Statement (.rillPass r) := fun _ => ⟨_, rfl⟩
theorem rillTscale (r : RillAt) : Statement (.rillTscale r) := fun _ => ⟨_, rfl⟩
theorem rillFlaunch (r : RillAt) : Statement (.rillFlaunch r) := fun _ => ⟨_, rfl⟩
theorem rillFetch (r : RillAt) : Statement (.rillFetch r) := fun _ => ⟨_, rfl⟩
theorem rillUwait (r : RillAt) : Statement (.rillUwait r) := fun _ => ⟨_, rfl⟩
theorem rillUpoll (r : RillAt) : Statement (.rillUpoll r) := fun _ => ⟨_, rfl⟩
theorem unitOpAcceptance (r : RillAt) : Statement (.unitOpAcceptance r) := fun _ => ⟨_, rfl⟩
theorem passStart (reach tile quad : Nat) : Statement (.passStart reach tile quad) := fun _ => ⟨_, rfl⟩
theorem slotGate (reach tile quad : Nat) : Statement (.slotGate reach tile quad) := fun _ => ⟨_, rfl⟩
theorem passComplete (reach tile quad : Nat) (faults : List TileUpset) : Statement (.passComplete reach tile quad faults) := fun _ => ⟨_, rfl⟩
theorem tileSelfTestDone (reach tile quads : Nat) (failed : Nat) : Statement (.tileSelfTestDone reach tile quads failed) := fun _ => ⟨_, rfl⟩
theorem tileDrainComplete (reach tile quad : Nat) : Statement (.tileDrainComplete reach tile quad) := fun _ => ⟨_, rfl⟩
theorem tileJoinCountReached (reach tile quad : Nat) : Statement (.tileJoinCountReached reach tile quad) := fun _ => ⟨_, rfl⟩
theorem flumeProgramStart (f : FlumeMem) : Statement (.flumeProgramStart f) := fun _ => ⟨_, rfl⟩
theorem flumeNop (f : FlumeAt) : Statement (.flumeNop f) := fun _ => ⟨_, rfl⟩
theorem flumeLoop (f : FlumeAt) : Statement (.flumeLoop f) := fun _ => ⟨_, rfl⟩
theorem flumeEndl (f : FlumeAt) : Statement (.flumeEndl f) := fun _ => ⟨_, rfl⟩
theorem flumeSeta (f : FlumeAt) : Statement (.flumeSeta f) := fun _ => ⟨_, rfl⟩
theorem flumeStride (f : FlumeAt) : Statement (.flumeStride f) := fun _ => ⟨_, rfl⟩
theorem flumeMove (f : FlumeAt) : Statement (.flumeMove f) := fun _ => ⟨_, rfl⟩
theorem flumeGather (f : FlumeAt) : Statement (.flumeGather f) := fun _ => ⟨_, rfl⟩
theorem flumeSignal (f : FlumeAt) : Statement (.flumeSignal f) := fun _ => ⟨_, rfl⟩
theorem flumeWait (f : FlumeAt) : Statement (.flumeWait f) := fun _ => ⟨_, rfl⟩
theorem flumeShadow (f : FlumeAt) : Statement (.flumeShadow f) := fun _ => ⟨_, rfl⟩
theorem flumeEnd (f : FlumeAt) : Statement (.flumeEnd f) := fun _ => ⟨_, rfl⟩
theorem flumeReadIssue (f : FlumeAt) (upset : Upset) : Statement (.flumeReadIssue f upset) := fun _ => ⟨_, rfl⟩
theorem flumeEmit (f : FlumeMem) (dkind : Nat) : Statement (.flumeEmit f dkind) := fun _ => ⟨_, rfl⟩
theorem flumeProgramComplete (f : FlumeAt) : Statement (.flumeProgramComplete f) := fun _ => ⟨_, rfl⟩
theorem flumeWaitTimeout (f : FlumeAt) : Statement (.flumeWaitTimeout f) := fun _ => ⟨_, rfl⟩
theorem sluiceAdmit (island sluice : Nat) : Statement (.sluiceAdmit island sluice) := fun _ => ⟨_, rfl⟩
theorem sweepStart (coll : Nat) (sweep : SweepAt) : Statement (.sweepStart coll sweep) := fun _ => ⟨_, rfl⟩
theorem poolDispatch (sweep : Nat) (island : Nat) (units : List Nat) : Statement (.poolDispatch sweep island units) := fun _ => ⟨_, rfl⟩
theorem sievePoolDone (sweep pool : Nat) (fault : SieveUpset) : Statement (.sievePoolDone sweep pool fault) := fun _ => ⟨_, rfl⟩
theorem sweepComplete (sweep : Nat) : Statement (.sweepComplete sweep) := fun _ => ⟨_, rfl⟩
theorem sieveSelfTestDone (island unit : Nat) (failed : Bool) : Statement (.sieveSelfTestDone island unit failed) := fun _ => ⟨_, rfl⟩
theorem sieveDrainComplete (island unit : Nat) : Statement (.sieveDrainComplete island unit) := fun _ => ⟨_, rfl⟩
theorem sieveJoinCountReached (island unit : Nat) : Statement (.sieveJoinCountReached island unit) := fun _ => ⟨_, rfl⟩
theorem collCreate (c : CmdId) : Statement (.collCreate c) := fun _ => ⟨_, rfl⟩
theorem collDelete (c : CmdId) : Statement (.collDelete c) := fun _ => ⟨_, rfl⟩
theorem poolAppend (c : Finding CmdId) : Statement (.poolAppend c) := fun _ => ⟨_, rfl⟩
theorem searchVector (c : CmdId) : Statement (.searchVector c) := fun _ => ⟨_, rfl⟩
theorem searchContent (c : CmdId) : Statement (.searchContent c) := fun _ => ⟨_, rfl⟩
theorem poolCompact (c : CmdId) : Statement (.poolCompact c) := fun _ => ⟨_, rfl⟩
theorem braidSetNode (c : CmdId) : Statement (.braidSetNode c) := fun _ => ⟨_, rfl⟩
theorem braidRemoveNode (c : CmdId) : Statement (.braidRemoveNode c) := fun _ => ⟨_, rfl⟩
theorem braidSetEntries (c : CmdId) : Statement (.braidSetEntries c) := fun _ => ⟨_, rfl⟩
theorem collStats (c : CmdId) : Statement (.collStats c) := fun _ => ⟨_, rfl⟩
theorem mediaDecode (c : CmdId) : Statement (.mediaDecode c) := fun _ => ⟨_, rfl⟩
theorem decodeStart (d : DecodeAt) : Statement (.decodeStart d) := fun _ => ⟨_, rfl⟩
theorem decodeComplete (n : Nat) (fault : FrameUpset) : Statement (.decodeComplete n fault) := fun _ => ⟨_, rfl⟩
theorem mediaSelfTestDone (island unit : Nat) (failed : Bool) : Statement (.mediaSelfTestDone island unit failed) := fun _ => ⟨_, rfl⟩
theorem mediaDrainComplete (island unit : Nat) : Statement (.mediaDrainComplete island unit) := fun _ => ⟨_, rfl⟩
theorem mediaJoinCountReached (island unit : Nat) : Statement (.mediaJoinCountReached island unit) := fun _ => ⟨_, rfl⟩
theorem rIdentify (c : CmdId) : Statement (.rIdentify c) := fun _ => ⟨_, rfl⟩
theorem rRead (c : CmdId) : Statement (.rRead c) := fun _ => ⟨_, rfl⟩
theorem rWrite (c : CmdId) : Statement (.rWrite c) := fun _ => ⟨_, rfl⟩
theorem rFlush (c : CmdId) : Statement (.rFlush c) := fun _ => ⟨_, rfl⟩
theorem rTrim (c : CmdId) : Statement (.rTrim c) := by
  intro s; show ∃ t, execRTrim c s = .next t; unfold execRTrim; split <;> exact ⟨_, rfl⟩
theorem rEmbed (c : CmdId) : Statement (.rEmbed c) := fun _ => ⟨_, rfl⟩
theorem rSearch (c : CmdId) : Statement (.rSearch c) := fun _ => ⟨_, rfl⟩
theorem dieOpIssue (chan die : Nat) : Statement (.dieOpIssue chan die) := fun _ => ⟨_, rfl⟩
theorem journalPageDue (chan die : Nat) : Statement (.journalPageDue chan die) := fun _ => ⟨_, rfl⟩
theorem flashReadDone (chan die : Nat) (outcome : ReadOutcome) : Statement (.flashReadDone chan die outcome) := fun _ => ⟨_, rfl⟩
theorem programDone (chan die : Nat) (ok : Bool) : Statement (.programDone chan die ok) := fun _ => ⟨_, rfl⟩
theorem eraseDone (chan die : Nat) (ok : Bool) : Statement (.eraseDone chan die ok) := fun _ => ⟨_, rfl⟩
theorem suspendHoldExpire (chan die : Nat) : Statement (.suspendHoldExpire chan die) := fun _ => ⟨_, rfl⟩
theorem suspendDone (chan die : Nat) : Statement (.suspendDone chan die) := fun _ => ⟨_, rfl⟩
theorem dieTimeout (chan die : Nat) (cause : Nat) : Statement (.dieTimeout chan die cause) := fun _ => ⟨_, rfl⟩
theorem lineTestPeriodic (chan : Nat) (cause dies : Nat) : Statement (.lineTestPeriodic chan cause dies) := fun _ => ⟨_, rfl⟩
theorem channelTestComplete (chan : Nat) (found : LineFault) : Statement (.channelTestComplete chan found) := fun _ => ⟨_, rfl⟩
theorem channelDrainComplete (chan : Nat) : Statement (.channelDrainComplete chan) := fun _ => ⟨_, rfl⟩
theorem channelJoinComplete (chan : Nat) : Statement (.channelJoinComplete chan) := fun _ => ⟨_, rfl⟩
theorem slotPlace (island : Nat) (slot : SlotAt) : Statement (.slotPlace island slot) := fun _ => ⟨_, rfl⟩
theorem rowPadTimeout (stripe : Nat) : Statement (.rowPadTimeout stripe) := fun _ => ⟨_, rfl⟩
theorem rowComplete (stripe row : Nat) : Statement (.rowComplete stripe row) := fun _ => ⟨_, rfl⟩
theorem gcStart (group : Nat) : Statement (.gcStart group) := fun _ => ⟨_, rfl⟩
theorem gcSwitch (victim failed : Nat) : Statement (.gcSwitch victim failed) := fun _ => ⟨_, rfl⟩
theorem memberReplaceStart (stripe idx : Nat) : Statement (.memberReplaceStart stripe idx) := fun _ => ⟨_, rfl⟩
theorem memberReplaceComplete (stripe idx : Nat) (copied : Copied) : Statement (.memberReplaceComplete stripe idx copied) := fun _ => ⟨_, rfl⟩
theorem patrolRead (island : Nat) : Statement (.patrolRead island) := fun _ => ⟨_, rfl⟩
theorem patrolPeriodEnd (island : Nat) : Statement (.patrolPeriodEnd island) := fun _ => ⟨_, rfl⟩
theorem journalCheckpoint (island : Nat) : Statement (.journalCheckpoint island) := fun _ => ⟨_, rfl⟩
theorem nandTempRead (island : Nat) (temps : List Nat) : Statement (.nandTempRead island temps) := fun _ => ⟨_, rfl⟩
theorem bucketLeak (island : Nat) : Statement (.bucketLeak island) := fun _ => ⟨_, rfl⟩
theorem fatalError : Statement (.fatalError) := fun _ => ⟨_, rfl⟩
theorem protTestWrite (port island value : Nat) : Statement (.protTestWrite port island value) := fun _ => ⟨_, rfl⟩
theorem protTestRead (port island value : Nat) : Statement (.protTestRead port island value) := fun _ => ⟨_, rfl⟩
theorem protTestCodec (port island value : Nat) : Statement (.protTestCodec port island value) := fun _ => ⟨_, rfl⟩
theorem protFlipArm (port island value : Nat) : Statement (.protFlipArm port island value) := fun _ => ⟨_, rfl⟩
theorem weirRenegotiate (requests draws : List Nat) (volt current host : Nat) : Statement (.weirRenegotiate requests draws volt current host) := fun _ => ⟨_, rfl⟩
theorem currentOverGrant (island draw : Nat) : Statement (.currentOverGrant island draw) := fun _ => ⟨_, rfl⟩
theorem thermalThrottle (sensor temp : Nat) : Statement (.thermalThrottle sensor temp) := fun _ => ⟨_, rfl⟩
theorem reachCritical (reach temp : Nat) : Statement (.reachCritical reach temp) := fun _ => ⟨_, rfl⟩
theorem thermalAbort (sensor temp : Nat) : Statement (.thermalAbort sensor temp) := fun _ => ⟨_, rfl⟩
theorem reachSelfTestDone (reach : Nat) (failed : Bool) : Statement (.reachSelfTestDone reach failed) := fun _ => ⟨_, rfl⟩
theorem reachDrainComplete (reach : Nat) : Statement (.reachDrainComplete reach) := fun _ => ⟨_, rfl⟩
theorem reachJoinQuantum (reach : Nat) : Statement (.reachJoinQuantum reach) := fun _ => ⟨_, rfl⟩
theorem weirOrderHalt (port : Nat) : Statement (.weirOrderHalt port) := fun _ => ⟨_, rfl⟩
theorem weirOrderReset (port : Nat) : Statement (.weirOrderReset port) := fun _ => ⟨_, rfl⟩
theorem weirOrderRestart (port : Nat) : Statement (.weirOrderRestart port) := fun _ => ⟨_, rfl⟩
theorem modResetAssert : Statement (.modResetAssert) := fun _ => ⟨_, rfl⟩
theorem modResetRelease : Statement (.modResetRelease) := fun _ => ⟨_, rfl⟩
theorem powerFailDetect : Statement (.powerFailDetect) := fun _ => ⟨_, rfl⟩
theorem flushComplete : Statement (.flushComplete) := fun _ => ⟨_, rfl⟩
theorem overVoltage : Statement (.overVoltage) := fun _ => ⟨_, rfl⟩
theorem overCurrent : Statement (.overCurrent) := fun _ => ⟨_, rfl⟩
theorem converterTrip (rail : Nat) (index : Nat) : Statement (.converterTrip rail index) := fun _ => ⟨_, rfl⟩
theorem holdupMeasure (energy : Nat) : Statement (.holdupMeasure energy) := fun _ => ⟨_, rfl⟩
theorem freqMark : Statement (.freqMark) := fun _ => ⟨_, rfl⟩
theorem counterEnable (port island value : Nat) : Statement (.counterEnable port island value) := fun _ => ⟨_, rfl⟩
theorem counterClear (port island value : Nat) : Statement (.counterClear port island value) := fun _ => ⟨_, rfl⟩
theorem sampleCapture (island counter : Nat) : Statement (.sampleCapture island counter) := fun _ => ⟨_, rfl⟩
theorem cntSmpTailWrite (port island value : Nat) : Statement (.cntSmpTailWrite port island value) := fun _ => ⟨_, rfl⟩
theorem bwWindowEnd (island : Nat) : Statement (.bwWindowEnd island) := fun _ => ⟨_, rfl⟩
theorem mgmtQuoteRequest (port value : Nat) : Statement (.mgmtQuoteRequest port value) := fun _ => ⟨_, rfl⟩
theorem mgmtRead (frame : List Byte) : Statement (.mgmtRead frame) := fun _ => ⟨_, rfl⟩
theorem mgmtWrite (frame : List Byte) : Statement (.mgmtWrite frame) := fun _ => ⟨_, rfl⟩
theorem mgmtResponse (n : Nat) : Statement (.mgmtResponse n) := fun _ => ⟨_, rfl⟩
theorem setdasa (static dyn : Nat) : Statement (.setdasa static dyn) := fun _ => ⟨_, rfl⟩
theorem entdaa (dyn : Nat) : Statement (.entdaa dyn) := fun _ => ⟨_, rfl⟩
theorem rstdaa : Statement (.rstdaa) := fun _ => ⟨_, rfl⟩
theorem jtagIdcode (tap : Nat) : Statement (.jtagIdcode tap) := fun _ => ⟨_, rfl⟩
theorem jtagBypass (tap code : Nat) : Statement (.jtagBypass tap code) := fun _ => ⟨_, rfl⟩
theorem jtagSamplePreload (tap : Nat) (shifted : List Bool) : Statement (.jtagSamplePreload tap shifted) := fun _ => ⟨_, rfl⟩
theorem jtagExtest (tap : Nat) (shifted : List Bool) : Statement (.jtagExtest tap shifted) := fun _ => ⟨_, rfl⟩
theorem laneRepair (mdl : Nat) (repaired : Bool) : Statement (.laneRepair mdl repaired) := fun _ => ⟨_, rfl⟩
theorem holdupCharged (energy : Nat) : Statement (.holdupCharged energy) := fun _ => ⟨_, rfl⟩
theorem trstNAssert : Statement (.trstNAssert) := fun _ => ⟨_, rfl⟩

end Sys2Proof.Laws.Answers
end

