-- ==== Sys2Proof/WellFormed.lean ====
section
/-!
DEFINITION. WellFormed.lean: which commands a sender, a clock or the physical world can give: each operand within the
width or the count the spec gives it. The meanings take any operands: an ill-formed command that reaches one is a
command about nothing and leaves the state as it is, or is cut to its width.
-/
namespace Sys2Proof

/-- Why a command is ill-formed. -/
inductive Malformed where
  /-- a port other than host, management or sideband (R11) -/
  | port
  /-- a register value beyond 32 bits (R8) -/
  | value
  /-- an address beyond its width (R100, R62, R505) -/
  | address
  /-- a queue number or TAG beyond 16 bits (R74) -/
  | queueTag
  /-- a flit or flit field of the wrong size (R64, R65) -/
  | flit
  /-- a rill slot the device does not have (R209) -/
  | rill
  /-- a flume program slot the device does not have (R242) -/
  | program
  /-- a residency slot or rill slot beyond the reach's (R209) -/
  | slot
  /-- an island, stack, tile or other unit the device does not have (R16) -/
  | unit
  /-- a NAND channel or die the device does not have (R348) -/
  | channel
  /-- a namespace, object or metric that cannot be named (R69, R93) -/
  | object
  /-- a context slot beyond the 1,024 (R266) -/
  | context
  /-- a physical outcome that the row does not have -/
  | outcome
  /-- a sensor beyond the 333 (R484) -/
  | sensor
  /-- a measured value beyond its field (R484, R485) -/
  | telemetry
  /-- a strap pin value beyond its width (R443) -/
  | pin
  /-- a management frame too short to carry a command (R504) -/
  | frame
  deriving DecidableEq, Repr

def SramUpset.wf : SramUpset → Bool
  | .none => true
  | .fixed i | .copy i | .lost i => decide (i < 60)
def CmdId.wf (c : CmdId) : Bool := decide (c.sqid < 2 ^ 16) && decide (c.tag < 2 ^ 16) && c.sram.wf
/-- Codewords named by device address. -/
def foundWf (bad fixed : List Nat) : Bool := (bad ++ fixed).all (fun a => decide (a < 2 ^ 64))
def BufUpset.wf : BufUpset → Bool
  | .blocks m => decide (m < 256)
  | .none | .fixed _ | .journal => true
def FlitHdr.wf (h : FlitHdr) : Bool := decide (h.seq < 4096) && decide (h.ack < 4096) && decide (h.credit < 2 ^ 16)
def DbEntry.wf (e : DbEntry) : Bool := decide (e.qid < 2 ^ 16) && decide (e.kind < 256) && decide (e.rsv < 256) && decide (e.value < 2 ^ 32)
def RegEntry.wf (e : RegEntry) : Bool := decide (e.addr < 2 ^ 64) && decide (e.op < 256) && decide (e.rsv < 2 ^ 24) && decide (e.value < 2 ^ 32)
def RillAt.wf (r : RillAt) : Bool := decide (r.reach < 32) && decide (r.runnel < 4) && decide (r.slot < 32)
def FlumeAt.wf (f : FlumeAt) : Bool := decide (f.reach < 32) && decide (f.engine < 8) && decide (f.slot < 2)
def LineFault.wf (f : LineFault) : Bool := decide (f.cause < 10) && decide (f.die < 16)
/-- A block of a die: die, plane, number. -/
def markWf (m : Nat × Nat × Nat) : Bool := decide (m.1 < 16) && decide (m.2.1 < 4) && decide (m.2.2 < 708)
def Sensed.wf (x : Sensed) : Bool := markWf (x.die, x.plane, x.block) && decide (x.first ≤ 147456) && decide (x.last ≤ 147456)
def ReadOutcome.wf : ReadOutcome → Bool
  | .decoded l => decide (l.length ≤ 4)
  | .failed b | .pair b => decide (0 < b) && decide (b ≤ 4)
  | .badBlock _ => true
def PageRead.wf (r : PageRead) : Bool := decide (r.level < 8) && r.outcome.wf
/-- What a start-up step can show: masks and fields within the device. -/
def StepEnv.wf (e : StepEnv) : Bool :=
  decide (e.badStacks < 2 ^ 16) && e.channels.all (fun c => decide (c.1 < 128) && c.2.wf)
    && e.sensed.all (fun x => decide (x.1 < 128) && x.2.wf) && e.marked.all (fun m => decide (m.1 < 128) && markWf m.2) && decide (e.energy < 2 ^ 16)
def TileUpset.wf : TileUpset → Bool
  | .residue c | .latch c => decide (c < 128)
  | .feeder r => decide (r < 512)
  | .fixed _ r c | .word _ r c | .under _ r c | .error r c _ => decide (r < 512) && decide (c < 64)

/-- NAND channel islands (R16). -/
def isFlash (i : Nat) : Bool := i == 48 || i == 49 || i == 52 || i == 53

/-- The checks of a command's operands. -/
def Instr.checks : Instr → List (Malformed × Bool)
  | .regWrite port ⟨addr, width⟩ value =>
    [(.port, decide (port < 3)), (.address, decide (addr < 2 ^ 64)), (.value, decide (width < 2 ^ 8)), (.value, decide (value < 2 ^ 32))]
  | .groupCommit port addr value =>
    [(.port, decide (port < 3)), (.address, decide (addr < 2 ^ 64)), (.value, decide (value < 2 ^ 32))]
  | .loReadLatch port addr =>
    [(.port, decide (port < 3)), (.address, decide (addr < 2 ^ 64))]
  | .groupAdopt addr =>
    [(.address, decide (addr < 2 ^ 64))]
  | .sidebandRegAccess _ ⟨addr, width⟩ value =>
    [(.address, decide (addr < 2 ^ 22)), (.value, decide (width < 2 ^ 8)), (.value, decide (value < 2 ^ 32))]
  | .sbImgOpen | .sbImgSubmit | .linkTrained _ | .replayTimeout | .idleDue | .commandFetch | .dqpEnable | .dqpDisable |
    .powerStateEntered _ | .powerStateExited | .quoteSigned | .shutdownWaitExpire | .haltFlushComplete | .tierFetchComplete _ |
    .deadlineExpire _ | .schedDecision | .quantumEnd | .turnBoundary | .turnLeadPoint | .sievePoolDone _ _ _ | .sweepComplete _ |
    .decodeStart _ | .decodeComplete _ _ | .rowPadTimeout _ | .rowComplete _ _ | .gcSwitch _ _ | .memberReplaceStart _ _ |
    .memberReplaceComplete _ _ _ | .fatalError | .modResetAssert | .modResetRelease | .powerFailDetect | .flushComplete | .overVoltage
    | .overCurrent | .freqMark | .mgmtResponse _ | .rstdaa | .trstNAssert =>
    []
  | .sbImgData value =>
    [(.value, decide (value < 2 ^ 32))]
  | .inputQualified slotId _ =>
    [(.pin, decide (slotId < 32))]
  | .startUpStepEnd env =>
    [(.outcome, env.wf)]
  | .flitRejected raw =>
    [(.flit, decide (raw.length = 256))]
  | .idle ack freed =>
    [(.flit, decide (ack < 4096)), (.flit, decide (freed < 2 ^ 32))]
  | .init ack credit buffers =>
    [(.flit, decide (ack < 4096)), (.flit, decide (credit < 2 ^ 16)), (.flit, decide (buffers < 2 ^ 16))]
  | .nak ack credit number =>
    [(.flit, decide (ack < 4096)), (.flit, decide (credit < 2 ^ 16)), (.flit, decide (number < 2 ^ 16))]
  | .doorbell hdr entries =>
    [(.flit, hdr.wf), (.flit, decide (0 < entries.length) && decide (entries.length ≤ 30) && entries.all DbEntry.wf)]
  | .regReq hdr entries =>
    [(.flit, hdr.wf), (.flit, decide (0 < entries.length) && decide (entries.length ≤ 15) && entries.all RegEntry.wf)]
  | .pullData hdr offset reqId data =>
    [(.flit, hdr.wf), (.flit, decide (offset < 2 ^ 16)), (.flit, decide (reqId < 2 ^ 32)), (.flit, decide (0 < data.length) && decide (data.length ≤ 240))]
  | .cqCoalesceTimeout cqid =>
    [(.queueTag, decide (cqid < 2 ^ 16))]
  | .identify c | .createSq c | .deleteSq c | .createCq c | .deleteCq c | .getLog c | .getFeatureCqInterrupt c | .getFeatureSqClass c
    | .setFeatureCqInterrupt c | .setFeatureSqClass c | .setPower c | .abort c | .attestQuote c | .unitDrain c | .unitTest c |
    .unitOffline c | .shutdownHalt c | .shutdownReset c | .read c | .write c | .writeResume c | .flush c | .trim c |
    .secureDiscardRange c | .secureDiscardReleased c | .verify c | .rawReadCorrected c | .rawReadStored c | .objRegister c |
    .objSetAttr c | .objDelete c | .objLookup c | .objMap c | .objUnmap c | .tierMoveResident c | .tierMoveRelease c | .tierPin c |
    .tierUnpin c | .tierHint c | .shadowSet c | .quotaQuery c | .ctxCreate c | .ctxDestroy c | .ctxSetPriority c |
    .ctxImageLoad c | .ctxQuery c | .collCreate c | .collDelete c | .searchVector c | .searchContent
    c | .poolCompact c | .braidSetNode c | .braidRemoveNode c | .braidSetEntries c | .collStats c | .mediaDecode c | .rIdentify c |
    .rRead c | .rWrite c | .rFlush c | .rTrim c | .rEmbed c | .rSearch c =>
    [(.queueTag, c.wf)]
  | .ctxImageSave ⟨c, bad, fixed⟩ | .poolAppend ⟨c, bad, fixed⟩ | .ctxLaunch ⟨c, bad, fixed⟩ =>
    [(.queueTag, c.wf), (.address, foundWf bad fixed)]
  | .imageWrite c readBackOk =>
    [(.queueTag, c.wf), (.outcome, decide (readBackOk < 3))]
  | .unitJoin c fault sensed marked =>
    [(.queueTag, c.wf), (.outcome, fault.wf), (.outcome, sensed.all (·.wf)), (.outcome, marked.all markWf)]
  | .rawReadEraseCount c zeros =>
    [(.queueTag, c.wf), (.outcome, decide (zeros < 2 ^ 32))]
  | .tmModeWrite port value | .mgmtQuoteRequest port value =>
    [(.port, decide (port < 3)), (.value, decide (value < 2 ^ 32))]
  | .pageFetchComplete nsid obj idx outs =>
    [(.object, decide (0 < nsid) && decide (nsid ≤ 64)), (.object, decide (obj < 2 ^ 64)), (.object, decide (idx < 2 ^ 32)),
     (.outcome, outs.all (fun o => decide (o.level < 8)))]
  | .extentCopyComplete stack ⟨ext, bad, fixed⟩ =>
    [(.unit, decide (stack < 16)), (.unit, decide (ext < 36864)), (.address, foundWf bad fixed)]
  | .stackDrainComplete stack | .stackValidClearDone stack | .stackJoinStep stack | .stackFault stack =>
    [(.unit, decide (stack < 16))]
  | .stackScrub stack corrected uncorrectable =>
    [(.unit, decide (stack < 16)), (.address, corrected.all (fun a => decide (a < 2 ^ 64))), (.address, uncorrectable.all (fun a => decide (a < 2 ^ 64)))]
  | .imageSaveComplete ctx | .imageLoadComplete ctx _ | .contextDrainEnd ctx =>
    [(.context, decide (ctx < 1024))]
  | .contextSaveComplete ⟨ctx, bad, fixed⟩ | .contextRestoreComplete ⟨ctx, bad, fixed⟩ | .contextCold ⟨ctx, bad, fixed⟩
    | .launchComplete ctx ⟨_, bad, fixed⟩ | .stepMembersPresent ctx ⟨_, bad, fixed⟩ =>
    [(.context, decide (ctx < 1024)), (.address, foundWf bad fixed)]
  | .turnSignalApply reach | .reachSelfTestDone reach _ | .reachDrainComplete reach | .reachJoinQuantum reach =>
    [(.unit, decide (reach < 32))]
  | .rillStart reach runnel slot ctx =>
    [(.unit, decide (reach < 32)), (.unit, decide (runnel < 4)), (.slot, decide (slot < 32)), (.context, decide (ctx < 1024))]
  | .rillReservedOpcode r | .rillIadd r | .rillIsub r | .rillImul r | .rillImulhi r | .rillUmulhi r | .rillIdiv r | .rillUdiv r |
    .rillIrem r | .rillUrem r | .rillIadd64 r | .rillIsub64 r | .rillImul64 r | .rillAnd r | .rillOr r | .rillXor r | .rillNot r |
    .rillShl r | .rillShr r | .rillSar r | .rillRotl r | .rillPopc r | .rillClz r | .rillImin r | .rillImax r | .rillUmin r |
    .rillUmax r | .rillSel r | .rillMov r | .rillMovi r | .rillIaddi r | .rillSetp r | .rillPlop r | .rillShfl r | .rillVoteany r |
    .rillVoteall r | .rillBallot r | .rillSreg r | .rillFadd r | .rillFsub r | .rillFmul r | .rillFfma r | .rillFmin r | .rillFmax r |
    .rillFabs r | .rillFneg r | .rillFsetp r | .rillFdiv r | .rillFsqrt r | .rillRcp r | .rillRsq r | .rillExp2 r | .rillLog2 r |
    .rillSinp r | .rillCosp r | .rillCvtn r | .rillCvtw r | .rillI2f r | .rillF2i r | .rillPack r | .rillUnpack r | .rillLd r |
    .rillSt r | .rillAadd r | .rillAsmin r | .rillAsmax r | .rillAumin r | .rillAumax r | .rillAand r | .rillAor r | .rillAxor r |
    .rillAxchg r | .rillAcas r | .rillAfadd r | .rillFence r | .rillBra r | .rillExit r | .rillBarsync r | .rillBararrive r |
    .rillSigadd r | .rillSigset r | .rillSigwait r | .rillNap r | .rillNapExpire r | .rillPass r | .rillTscale r | .rillFlaunch r |
    .rillFetch r | .rillUwait r | .rillUpoll r | .unitOpAcceptance r =>
    [(.rill, r.wf)]
  | .passStart reach tile quad | .slotGate reach tile quad | .tileDrainComplete reach tile quad | .tileJoinCountReached reach tile
    quad =>
    [(.unit, decide (reach < 32)), (.unit, decide (tile < 48)), (.unit, decide (quad < 4))]
  | .passComplete reach tile quad faults =>
    [(.unit, decide (reach < 32)), (.unit, decide (tile < 48)), (.unit, decide (quad < 4)), (.outcome, faults.all TileUpset.wf)]
  | .tileSelfTestDone reach tile quads failed =>
    [(.unit, decide (reach < 32)), (.unit, decide (tile < 48)), (.unit, decide (quads < 16)), (.outcome, decide (failed < 16))]
  | .flumeNop f | .flumeLoop f | .flumeEndl f | .flumeSeta f | .flumeStride f | .flumeMove f | .flumeGather f |
    .flumeSignal f | .flumeWait f | .flumeShadow f | .flumeEnd f | .flumeReadIssue f _ | .flumeProgramComplete f | .flumeWaitTimeout f =>
    [(.program, f.wf)]
  | .flumeProgramStart f =>
    [(.program, f.at'.wf)]
  | .flumeEmit f dkind =>
    [(.program, f.at'.wf), (.unit, decide (dkind < 8))]
  | .sluiceAdmit island sluice =>
    [(.unit, decide (island < 60)), (.unit, decide (sluice < 16))]
  | .sweepStart _ ⟨metric, _, _⟩ =>
    [(.object, decide (metric < 3))]
  | .poolDispatch _ island units => [(.unit, (island == 50 || island == 54)), (.unit, units.all (fun u => decide (u < 64)))]
  | .sieveSelfTestDone island unit _ | .sieveDrainComplete island unit | .sieveJoinCountReached island
    unit =>
    [(.unit, (island == 50 || island == 54)), (.unit, decide (unit < 64))]
  | .mediaSelfTestDone island unit _ | .mediaDrainComplete island unit | .mediaJoinCountReached island unit =>
    [(.unit, (island == 51 || island == 55)), (.unit, decide (unit < 13))]
  | .flashReadDone chan die outcome =>
    [(.channel, decide (chan < 128)), (.channel, decide (die < 16)), (.outcome, outcome.wf)]
  | .dieOpIssue chan die | .journalPageDue chan die | .programDone chan die _ | .eraseDone chan die _ |
    .suspendHoldExpire chan die | .suspendDone chan die =>
    [(.channel, decide (chan < 128)), (.channel, decide (die < 16))]
  | .dieTimeout chan die cause =>
    [(.channel, decide (chan < 128)), (.channel, decide (die < 16)), (.outcome, decide (cause < 10))]
  | .lineTestPeriodic chan cause die =>
    [(.channel, decide (chan < 128)), (.outcome, decide (cause < 10)), (.outcome, decide (die < 16))]
  | .channelTestComplete chan found =>
    [(.channel, decide (chan < 128)), (.outcome, found.wf)]
  | .channelDrainComplete chan | .channelJoinComplete chan =>
    [(.channel, decide (chan < 128))]
  | .slotPlace island ⟨_, upset⟩ =>
    [(.unit, isFlash island), (.outcome, upset.wf)]
  | .patrolRead island | .patrolPeriodEnd island | .journalCheckpoint island =>
    [(.unit, isFlash island)]
  | .gcStart group =>
    [(.object, decide (group < 8))]
  | .nandTempRead island temps =>
    [(.unit, isFlash island), (.telemetry, decide (temps.length = 64))]
  | .bucketLeak island | .bwWindowEnd island =>
    [(.unit, decide (island < 60))]
  | .protTestWrite port island value | .protTestRead port island value | .protTestCodec port island value | .protFlipArm port island
    value | .counterEnable port island value | .counterClear port island value | .cntSmpTailWrite port island value =>
    [(.port, decide (port < 3)), (.unit, decide (island < 60)), (.value, decide (value < 2 ^ 32))]
  | .weirRenegotiate requests draws volt current host =>
    [(.telemetry, decide (requests.length = 60)), (.telemetry, decide (draws.length = 60)), (.telemetry, decide (volt < 2 ^ 16)), (.telemetry, decide (current < 2 ^ 16)), (.telemetry, decide (host < 2 ^ 16))]
  | .currentOverGrant island draw =>
    [(.unit, decide (island < 60)), (.telemetry, decide (draw < 2 ^ 32))]
  | .thermalThrottle sensor temp | .thermalAbort sensor temp =>
    [(.sensor, decide (sensor < 333)), (.telemetry, decide (temp < 4096))]
  | .reachCritical reach temp =>
    [(.unit, decide (reach < 32)), (.telemetry, decide (temp < 4096))]
  | .weirOrderHalt port | .weirOrderReset port | .weirOrderRestart port =>
    [(.port, decide (port < 3))]
  | .converterTrip rail _ =>
    [(.unit, decide (rail < 6))]
  | .holdupMeasure energy | .holdupCharged energy =>
    [(.telemetry, decide (energy < 2 ^ 16))]
  | .sampleCapture island counter =>
    [(.unit, decide (island < 60)), (.unit, decide (counter < 8))]
  | .mgmtRead frame | .mgmtWrite frame =>
    [(.frame, decide (2 ≤ frame.length))]
  | .setdasa static dyn =>
    [(.address, decide (static < 128)), (.address, decide (dyn < 128))]
  | .entdaa dyn =>
    [(.address, decide (dyn < 128))]
  | .jtagIdcode tap | .jtagSamplePreload tap _ | .jtagExtest tap _ =>
    [(.unit, decide (tap < 7))]
  | .jtagBypass tap code =>
    [(.unit, decide (tap < 7)), (.outcome, decide (code < 256))]
  | .laneRepair mdl _ =>
    [(.unit, decide (mdl < 4))]

/-- The first check a command fails; none for a well-formed one. -/
def Instr.malformed (i : Instr) : Option Malformed := (i.checks.find? (fun c => !c.2)).map (·.1)

/-- A command that a sender or the environment can give. -/
def Instr.wellFormed (i : Instr) : Bool := i.malformed.isNone

end Sys2Proof
end

