-- ==== Sys2Proof/Tests/Slice0.lean ====
section
/-!
SUPPORT. Tests/Slice0.lean: the ill-formed commands each check of WellFormed refuses; for every statement with hypotheses, states
and operands that meet them together (one part for each clause); and small tests with results from the spec.
-/
namespace Sys2Proof.Tests
set_option Elab.async false
open Sys2Proof Sys2Proof.Machine

/-! ### States the tests start from -/

/-- A running module with every island enabled, a session in L0, the sideband trained and DQP ready, with nothing under way. -/
def up : State :=
  let s := State.reset
  let s := { s with
    boot := { s.boot with
      applied := true, ready := true
      info := { islands := 2 ^ 60 - 1, tiles := List.replicate 32 (2 ^ 48 - 1), channels := 2 ^ 128 - 1, sieves := 2 ^ 128 - 1, decoders := 2 ^ 29 - 1 } }
    link := { s.link with session := true, l0 := true, sbTrained := true, hostInit := true, credits := 1000 }
    ident := { s.ident with anchors := List.replicate 4 ([], false) } }
  setF (setF (setF s 59 F.WEIR_STATUS_MSTATE 1) 56 F.DQP_STATUS_RDY 1) 56 F.DQP_CTRL_EN 1

/-- The same module in another MSTATE. -/
def at_ (m : Nat) : State := setF up 59 F.WEIR_STATUS_MSTATE m

/-- A ready command of queue 1 (namespace 1) or, with `q` 0, of the admin queue, the fields (offset, bytes, value) in its 128 bytes. -/
def cmd (q op : Nat) (fs : List (Nat × Nat × Nat)) : Cmd :=
  { sqid := q, tag := 7, sqhd := 1, nsid := q, no := 1, phase := .ready, segs := [], data := [], due := 0, done := 0
    raw := fs.foldl (fun l f => l.take f.1 ++ toBytes f.2.1 f.2.2 ++ l.drop (f.1 + f.2.1)) (toBytes 1 op ++ List.replicate 127 0) }

/-- A command with `n` bytes of host buffer. -/
def buf (n : Nat) (c : Cmd) : Cmd := { c with segs := [(0x10000, n)] }

/-- The running module with that command outstanding, alone. -/
def run (s : State) (c : Cmd) : State := { s with dqp := { s.dqp with cmds := [c] } }

/-- The admin pair and one I/O pair of 16 entries, with one entry waiting in the admin queue. -/
def queues (s : State) : State :=
  { s with dqp := { s.dqp with
    sqs := [⟨0, 0, 0, 0x1000, 16, 0, 0, 1⟩, ⟨1, 1, 1, 0x2000, 16, 1, 0, 0⟩]
    cqs := [⟨0, 0x3000, 16, 3, 0, 0, 0, 0, true, [], 0⟩, ⟨1, 0x4000, 16, 4, 2, 100, 0, 0, true, [], 1⟩] } }

/-- A module in start-up step `n`, its identity at hand. -/
def atStep (n : Nat) : State := setF (setF State.reset 59 F.WEIR_STATUS_STEP n) 58 F.ID_STATUS_STATE 1

def goodEnv : StepEnv := ⟨true, [], [], 0, [], [], [], 20⟩

/-- Namespace 1 with room: every limit of its domain set. -/
def roomy (s : State) : State :=
  setA (setA (setA (setA s 57 F.HG_FLASH_LIM_GIB 64 0) 57 F.HG_STACK_LIM_GIB 64 0) 57 F.HG_SCRATCH_LIM_MIB 512 0) 57 F.HG_SAVE_LIM_GIB 64 0

/-- An object of namespace 1 with its blocks in the first of the namespace, and one of device-managed storage. -/
def obj (id mtype size : Nat) : Obj :=
  { nsid := 1, id := id, mtype := mtype, size := size, storage := .host [(0, 1024)], attrs := List.replicate 16 0, quarantined := false
    failed := [], grain := 1, hintTier := 2, hintDie := 255, hintPin := false, hinted := false, pathKind := 0, shadow := 0 }

def withObjs (s : State) (l : List Obj) : State := { s with search := { s.search with objs := l } }

/-- A write-buffer slot of a unit with its first block, not yet placed. -/
def slot (lua : Nat) : Slot :=
  { lua := lua, mask := 1, data := List.replicate 8 [], lostMask := 0, old := none, merging := false, placed := none, staged := none
    fails := 0, writers := [] }

/-- A context of namespace 1 on reach 0, two rills of residency slot 0, without arena or launch. -/
def ctx (slot : Nat) (st : CtxSt) (kind : Nat) : Ctx :=
  { slot := slot, st := st, kind := kind, nsid := 1, rslot := 0, prio := 0, rills := 2, reaches := 1, group := 0, accMask := 0, scratch := 1
    die := 0, auto := false, kv4 := false, leader := 0xFFFF, arena := 0, arenaBytes := 0, kvOffset := 0, tokenBytes := 64, segTokens := 1
    imageId := 0, sourceId := 0, curImage := 0, tokens := 0, hold := false, block := 0, blockedSince := 0, readySince := 0, residentSince := 0
    lastStep := 0, faults := 0, launches := [], save := [], quotaRefused := false, entered := true, imgOp := 0, imgNo := 0, imgFormat := 0
    imgRelease := false, imgSource := 0, imgTokens := 0, imgId := 0, imgFetchAt := 0, imgDeadline := 0, imgExpired := false, imgUnit := 0
    imgUnits := 0, imgBytes := 0, imgSegs := 0, saving := false, forced := false, destroy := 0 }

def withCtx (s : State) (l : List Ctx) : State := { s with sched := { s.sched with ctxs := l } }

/-- A launch of one rill on runnel 0 of reach 0, its rills still to start. -/
def launch : Launch :=
  { id := 1, no := 1, why := 0, entry := 0x1000, arg := 2 ^ 64 - 1, reaches := 1, runnels := 1, rills := 1, ring := 0, ringSize := 0, seq := 0
    status := 0, detail := 0, written := 0, toStart := [0], running := 0, ops := 0, ended := 0, faults := 0, members := [], ready := true
    argDest := 0, buffer := [], deadline := 0 }

/-- A page of object 5 with a frame on stack 1. -/
def page (resident : Bool) (pins : Nat) : Page := ⟨1, 5, 0, [(1, 0)], resident, false, false, pins, 0⟩


/-- A rill of context 3 in the first slot of reach 0, its first two threads active, about to issue the word at 0x1000; registers of
threads 0 and 1 as given. -/
def rill (regs : NMap Nat) : Rill :=
  { uid := 1, ctx := 3, launch := 1, rslot := 0, rank := 0, reachRank := 0, runnelRank := 0, nthreads := 32, rills := 1, pc := 0x1000, active := 3, rcv := 0, regs := regs }

/-- That rill in a module whose context 3 is resident with one launch, the word in stack memory, scratchpad region and arena owned. -/
def at0 (r : Rill) (w : Nat) : State :=
  let s := withCtx (roomy up) [{ ctx 3 .resident 0 with launches := [{ launch with toStart := [], running := 1 }], scratch := 1 }]
  { s with
    mem := { s.mem with tags := [(0, .arena 0 3)], bytes := wrCells [] 0x1000 (toBytes 8 w) }
    runnels := { s.runnels with rills := [(0, r)] } }

/-- The command of that rill. -/
def a0 : RillAt := ⟨0, 0, 0, .none⟩

theorem get_small (m : Rill) (h : m.regs.all (fun p => decide (p.2 < 2 ^ 32)) = true) : ∀ th n, m.get th n < 2 ^ 32 := by
  intro th n
  unfold Rill.get mget
  cases hf : mfind m.regs (th * 64 + n) with
  | none => simp
  | some v =>
    have hm : ∀ (l : NMap Nat) k v, mfind l k = some v → l.all (fun p => decide (p.2 < 2 ^ 32)) = true → v < 2 ^ 32 := by
      intro l k v hk hl
      induction l with
      | nil => simp [mfind] at hk
      | cons p l ih =>
        obtain ⟨k', v'⟩ := p
        simp only [List.all_cons, Bool.and_eq_true, decide_eq_true_eq] at hl
        simp only [mfind] at hk
        split at hk
        · simp only [Option.some.injEq] at hk; omega
        · first | exact ih hk hl.2 | (split at hk <;> first | exact ih hk hl.2 | simp at hk)
    simpa using hm _ _ _ hf h

theorem issues (s : State) (op : Nat) (m : Rill) (w : Nat) (h : State.wf s = true ∧ getRill s 0 = some m ∧ m.wait = .none ∧ mayIssue s 0 m = true
      ∧ mergePaths m.stack.length m = m
      ∧ fOp w = op ∧ getF s 0 F.RUN_INJECT_ARM = 0 ∧ (getF s 0 F.CNT_CTRL_EN = 0 ∧ ∀ c ∈ s.counters.captures, c.island ≠ 0) ∧ mSorted none m.regs = true ∧ mSorted none m.poison = true
      ∧ mSorted none m.preds = true ∧ mSorted none m.tickets = true ∧ m.regs.all (fun p => decide (p.2 < 2 ^ 32)) = true)
    (hf : fetchWord s m.ctx 0 m.pc = (s, .ok w)) : Issues s s a0 op m w := by
  obtain ⟨h1, h2, h3, h4, h5, h6, h7, h8, h9, h10, h11, h12, h13⟩ := h
  exact ⟨h1, by decide, by decide, rfl, ⟨m, h2, h3, h4, h5.symm⟩, hf, h6, h7, h8, h9, h10, h11, h12, get_small m h13⟩

/-- What a unit does with an operation it accepts. -/
def acceptance : UnitRes → (State → OpRef → State)
  | .accept f => f
  | _ => fun s _ => s

theorem accepts (r : UnitRes) (h : (match r with | .accept _ => true | _ => false) = true) : r = .accept (acceptance r) := by
  cases r <;> simp_all [acceptance]

theorem accesses (s : State) (m : Rill) (w n : Nat) (k : AccKind) (addr : Nat → Nat) (ha : fA w % 2 = 0)
    (h : ∀ th ∈ threads m w, m.bad64 th (fA w) = false ∧ addr th = wrap 64 ((m.get64 th (fA w) : Int) + fOffset w)
      ∧ checkAccess s m.ctx 0 (addr th) n k = (s, .ok) ∧ regionOf s (addr th) = .stack)
    (hp : (stackPorts s 0 (2 ^ 20) (k == .store) ((threads m w).map (fun th => (addr th, n)))).2 = true) : Accesses s a0 m w n k addr :=
  ⟨ha, fun th ht => ⟨(h th ht).1, (h th ht).2.1, (h th ht).2.2.1, fun off => by rw [(h th ht).2.2.2]; simp⟩,
    (stackPorts s 0 (2 ^ 20) (k == .store) ((threads m w).map (fun th => (addr th, n)))).1, Prod.ext rfl hp⟩

/-- A pass of one row in slot 0, no weights yet; and tile 0 of reach 0 in the module of `at0`, slot 0 owning bank 0. -/
def tpass : TPass := { no := 0, slot := 0, op := ⟨3, 1, 1, 9⟩, desc := 2 ^ 19 }
def withTile (t : Tile) : State :=
  let s := setF (at0 { rill [] with tickets := [(9, none)] } 0) 0 F.TILE_ACC_OWN_OWNER 0x5555 0
  { s with tiles := mset {} [] 0 t }
def pb (l : List Nat) : List PByte := l.map (fun v => ⟨BitVec.ofNat 8 v, false⟩)

theorem cut_none {l : List Nat} {P : List Nat → Prop} (h : cutAtEnd l = none) : ∀ c, cutAtEnd l = some c → P c := by intro c hc; rw [h] at hc; cases hc
theorem cut_some {l c0 : List Nat} {P : List Nat → Prop} (h : cutAtEnd l = some c0) (hp : P c0) : ∀ c, cutAtEnd l = some c → P c := by
  intro c hc; rw [h] at hc; cases hc; exact hp

/-- A program of context 3 at the head of slot 0 of engine 7 of reach 0. -/
def prog (code : List Nat) : Prog := { op := ⟨3, 1, 1, 9⟩, addr := 0x3000, arg := 5, started := true, code := code }
def f7 : FlumeAt := ⟨0, 7, 0⟩
def withProg (p : Prog) : State :=
  let s := withTile { queue := [{ tpass with desc := 2 ^ 19 + 7 * 2 ^ 38 }] }
  { s with act := [], flume := { s.flume with progs := [(14, [p])] }, mem := { s.mem with bytes := wrCells [] 0x3000 (toBytes 16 0 ++ toBytes 16 15 ++ List.replicate 96 1) } }

theorem sluices_off (s : State) (h : s.act = []) : SluicesOff s := by intro i n; simp [sluiceOn, getA, h, mget, mfind, F.SLUICE_CFG_EN]

/-- Codes of 64 elements, a pool of two members, a collection of it, and a query of it. -/
def codes (v : Nat) : List Byte := List.replicate 64 (BitVec.ofNat 8 v)
def member (o v : Nat) : PMember := ⟨o, 1, codes v, []⟩
def pool0 : Pool :=
  { no := 0, createIdx := 0, damaged := false, unread := [], r2 := 64, r1 := 64, compactSeq := 0, centroid := codes 10, members := [member 5 9, member 6 11] }
def coll5 : Coll :=
  { no := 5, nsid := 1, dim := 64, w := 4, fullEn := false, fullFmt := 0, budget := 16, obj := 20, fullId := 0, poolsMax := 4, offs := List.replicate 64 0
    steps := List.replicate 64 0x3F800000, pools := [pool0], nodes := [], entries := [], stale := 0, nextCompact := 1, last := [], deleting := 0 }
def query (n : Nat) : Query := { blankQuery with id := n, no := 1, coll := 5, metric := 1, k := 2, depth := 2, codes := codes 9, phase := .swept, sweep := 1 }
def sweep1 : Sweep := { seq := 1, coll := 5, metric := 1, queries := [1], pools := [pool0], nodes := [], entries := [], tombs := [], order := [], active := [], unbound := [], lost := [] }
def withSearch (f : Search → Search) : State :=
  let s := withObjs (roomy up) [obj 20 8 65536, obj 5 6 65536, obj 6 6 65536]
  let s := setA (setA s 50 F.SIEVE_CTRL_UNITS 64) 54 F.SIEVE_CTRL_UNITS 64
  { s with search := f { s.search with colls := [coll5] } }

theorem undamaged (s : State) (n no : Nat)
    (h : (match findColl s n with | some c => (match findPool c no with | some d => !d.damaged | none => true) | none => true) = true) :
    ∀ c d, findColl s n = some c → findPool c no = some d → d.damaged = false := by
  intro c d hc hd
  simpa [hc, hd] using h

/-- A page of die 3 of channel 127; a module whose die 3 of that channel is `x`, channel island 53 granted power. -/
def pgA : PageAddr := ⟨127, 3, 1, 9, 0, 0⟩
def withDie (x : Die) : State :=
  let s := setF (roomy up) 59 F.WEIR_GRANT_GRANT 200 53
  { s with flash := { s.flash with dies := [(16 * 127 + 3, x)] } }
/-- A host stripe of group 0 on three channels, one row queued. -/
def stripe1 : Stripe :=
  { id := 1, group := 0, kind := .host, members := [⟨0, 0, 9⟩, ⟨1, 0, 9⟩, ⟨2, 0, 9⟩], next := 512, rowsOut := 1, rowsDone := 0, progDone := []
    sealed := false, packed := [], openSeq := 0, filter := 0, rowSeqs := [0], badPages := [], lows := [], headSeqs := [] }
def withStripes (f : Flash → Flash) : State :=
  let s := roomy up
  { s with flash := f { s.flash with stripes := [stripe1], nextStripe := 2 } }

theorem some_getD {α : Type} {o : Option α} {d : α} (h : o.isSome = true) : o = some (o.getD d) := by cases o <;> simp_all

theorem eta3 {α β γ : Type} (x : α × β × γ) : x = (x.1, x.2.1, x.2.2) := rfl
theorem eta0 {α γ : Type} (x : α × Nat × γ) (h : x.2.1 = 0) : x = (x.1, 0, x.2.2) := by rw [← h]
theorem eta_ex {α β γ : Type} (x : α × β × γ) : ∃ u st d, x = (u, st, d) := ⟨x.1, x.2.1, x.2.2, rfl⟩
theorem eta_ex0 {α γ : Type} (x : α × Nat × γ) (h : x.2.1 = 0) : ∃ u d, x = (u, 0, d) := ⟨x.1, x.2.2, by rw [← h]⟩
theorem eta_exne {α γ : Type} (x : α × Nat × γ) (h : x.2.1 ≠ 0) : ∃ u st d, x = (u, st, d) ∧ st ≠ 0 := ⟨x.1, x.2.1, x.2.2, rfl, h⟩
theorem ex_ok {α ε β : Type} (x : α × Except ε β) (h : (match x.2 with | .ok _ => true | .error _ => false) = true) : ∃ u a, x = (u, .ok a) := by
  obtain ⟨u, a | a⟩ := x
  · simp at h
  · exact ⟨u, a, rfl⟩
theorem some_all {α : Type} {x : Option α} {y : α} {P : α → Prop} (h : x = some y) (hp : P y) : ∀ o, x = some o → P o := by
  intro o ho; rw [h] at ho; cases ho; exact hp
theorem none_all {α : Type} {x : Option α} {P : α → Prop} (h : x = none) : ∀ o, x = some o → P o := by intro o ho; rw [h] at ho; cases ho

theorem ex_in {α : Type} {A : Prop} {B : α → Prop} (a : A) (h : ∃ u, B u) : ∃ u, A ∧ B u := by obtain ⟨u, hu⟩ := h; exact ⟨u, a, hu⟩
theorem ex_in4 {α : Type} {A A' A'' A''' : Prop} {B : α → Prop} (a : A) (a' : A') (a'' : A'') (a''' : A''') (h : ∃ u, B u) :
    ∃ u, A ∧ A' ∧ A'' ∧ A''' ∧ B u := ex_in a (ex_in a' (ex_in a'' (ex_in a''' h)))
theorem ex_ok1 {α ε : Type} (x : α × Except ε Unit) (h : (match x.2 with | .ok _ => true | .error _ => false) = true) : ∃ u, x = (u, .ok ()) := by
  obtain ⟨u, a | a⟩ := x
  · simp at h
  · exact ⟨u, rfl⟩

theorem witness_StepRunsTheFrontCommand :
    ∃ (c : Instr) (rest : List Instr) (s : State), s.pending = c :: rest :=
  ⟨.trstNAssert, [], { up with pending := [.trstNAssert] }, by decide +kernel⟩

theorem witness_StepOnAnEmptyQueueIsACycle :
    ∃ (s : State), State.wf s = true ∧ s.pending = [] :=
  ⟨up, by decide +kernel⟩

theorem witness_RegisterAccessesFollowTheRules :
    (∃ (s : State) (port addr v isl off : Nat) (r : Reg) (i j : Nat), State.wf s = true ∧ islandAt addr = some (isl, off) ∧ addr % 4 = 0 ∧ findReg isl off = some (r, i, j) ∧ CanReach s port isl ∧ WordOk s port isl r i v ∧ r.num ∉ specialRegs)
    ∧ (∃ (s : State) (port addr v isl off : Nat), islandAt addr = some (isl, off) ∧ addr % 4 = 0 ∧ v < 2 ^ 32 ∧ portUp s port = true ∧ ((s.boot.applied = true ∨ isl = 59 ∨ (port ≠ 1 ∧ (isl = 56 ∨ isl = 58)))) ∧ answers s isl off = false)
    ∧ (∃ (s : State) (port addr v isl off : Nat), islandAt addr = some (isl, off) ∧ addr % 4 = 0 ∧ v < 2 ^ 32 ∧ portUp s port = true ∧ ((s.boot.applied = true ∨ isl = 59 ∨ (port ≠ 1 ∧ (isl = 56 ∨ isl = 58)))) ∧ answers s isl off = true ∧ findReg isl off = none)
    ∧ (∃ (s : State) (port addr v isl off : Nat), islandAt addr = some (isl, off) ∧ addr % 4 = 0 ∧ v < 2 ^ 32 ∧ portUp s port = true ∧ ((s.boot.applied = true ∨ isl = 59 ∨ (port ≠ 1 ∧ (isl = 56 ∨ isl = 58)))) ∧ answers s isl off = true ∧ ∃ (r : Reg) (i j : Nat), findReg isl off = some (r, i, j) ∧ (r.owner ≠ .both ∧ r.owner ≠ (if port = 1 then .mgmt else .host)))
    ∧ (∃ (s : State) (port addr v isl off : Nat), islandAt addr = some (isl, off) ∧ addr % 4 = 0 ∧ v < 2 ^ 32 ∧ portUp s port = true ∧ ((s.boot.applied = true ∨ isl = 59 ∨ (port ≠ 1 ∧ (isl = 56 ∨ isl = 58)))) ∧ answers s isl off = true ∧ ∃ (r : Reg) (i j : Nat), findReg isl off = some (r, i, j) ∧ ((r.owner = .both ∨ r.owner = (if port = 1 then .mgmt else .host))) ∧ ((r.fields.all (fun f => f.acc == .ro) = true ∨ legalWord s isl r v = false)))
    ∧ (∃ (s : State) (port addr v isl off : Nat), islandAt addr = some (isl, off) ∧ addr % 4 = 0 ∧ v < 2 ^ 32 ∧ portUp s port = true ∧ ((s.boot.applied = true ∨ isl = 59 ∨ (port ≠ 1 ∧ (isl = 56 ∨ isl = 58)))) ∧ answers s isl off = true ∧ ∃ (r : Reg) (i j : Nat), findReg isl off = some (r, i, j) ∧ ((r.owner = .both ∨ r.owner = (if port = 1 then .mgmt else .host))) ∧ ((r.fields.all (fun f => f.acc == .ro) = false ∧ legalWord s isl r v = true ∧ lkFree s isl r i = false)))
    ∧ (∃ (s : State) (port addr isl off : Nat) (r : Reg) (i j x : Nat), mSorted none s.counters.latches = true ∧ islandAt addr = some (isl, off) ∧ addr % 4 = 0 ∧ findReg isl off = some (r, i, j) ∧ CanReach s port isl ∧ ((port = 1 → r.hostReadOnly = false)) ∧ pairOf s isl r.num i = some x ∧ x < 2 ^ 64)
    ∧ (∃ (s : State) (port : Nat) (addr : Nat) (width : Nat), portUp s port = true ∧ (islandAt addr = none ∨ addr % 4 ≠ 0 ∨ width ≠ 4)) :=
  ⟨⟨up, 0, configBase + 57 * 0x10000 + 0xE010, 20, 57, 0xE010, R.CNT_BW_CFG, 0, 0, by decide +kernel, by decide +kernel, by decide +kernel, by decide +kernel, by simp only [CanReach]; decide +kernel, by simp only [WordOk]; decide +kernel, by decide +kernel⟩,
   ⟨{ up with variant := .dm9140N }, 0, configBase + 51 * 0x10000, 0, 51, 0, by decide +kernel⟩,
   ⟨up, 0, configBase + 57 * 0x10000 + 0xB000, 0, 57, 0xB000, by decide +kernel⟩,
   ⟨up, 0, configBase + 58 * 0x10000 + 800, 1, 58, 800, by decide +kernel, by decide +kernel, by decide +kernel, by decide +kernel, by decide +kernel, by decide +kernel, R.ID_MQ_CTRL, 0, 0, by decide +kernel⟩,
   ⟨up, 0, configBase + 57 * 0x10000 + 0xE000, 0, 57, 0xE000, by decide +kernel, by decide +kernel, by decide +kernel, by decide +kernel, by decide +kernel, by decide +kernel, R.CNT_CYCLE_LO, 0, 0, by decide +kernel⟩,
   ⟨setF up 57 F.CNT_CTRL_EN 1, 0, configBase + 57 * 0x10000 + 0xE040, 1, 57, 0xE040, by decide +kernel, by decide +kernel, by decide +kernel, by decide +kernel, by decide +kernel, by decide +kernel, R.CNT_SEL, 0, 0, by decide +kernel⟩,
   ⟨{ up with counters := { up.counters with cycles := [(57, 2 ^ 64 - 1)] } }, 0, configBase + 57 * 0x10000 + 0xE000, 57, 0xE000, R.CNT_CYCLE_LO, 0, 0, 2 ^ 64 - 1, by decide +kernel, by decide +kernel, by decide +kernel, by decide +kernel, by simp only [CanReach]; decide +kernel, by decide +kernel⟩,
   ⟨up, 0, configBase, 2, by decide +kernel, Or.inr (Or.inr (by decide))⟩⟩

theorem witness_GroupCommitCopiesTheStagedSet :
    (∃ (s : State) (port addr isl off : Nat) (r : Reg) (i j : Nat) (g : Group), State.wf s = true ∧ islandAt addr = some (isl, off) ∧ addr % 4 = 0 ∧ findReg isl off = some (r, i, j) ∧ CanReach s port isl ∧ WordOk s port isl r i 1 ∧ (groupTable.find? (fun g => g.commit == r.num) = some g) ∧ consistent s g isl i = false)
    ∧ (∃ (s : State) (port : Nat) (addr : Nat) (isl : Nat) (off : Nat) (r : Reg) (i : Nat) (j : Nat) (g : Group), State.wf s = true ∧ islandAt addr = some (isl, off) ∧ addr % 4 = 0 ∧ findReg isl off = some (r, i, j) ∧ CanReach s port isl ∧ WordOk s port isl r i 1 ∧ (List.find? (fun g => g.commit == r.num) groupTable = some g) ∧ consistent s g isl i = true ∧ NoRival s) :=
  ⟨⟨{ setF up 50 F.SIEVE_CTRL_UNITS 1 with boot := { up.boot with info := { up.boot.info with sieves := 0 } } }, 0, configBase + 50 * 0x10000 + 264, 50, 264, R.SIEVE_GROUP_CFG_COMMIT, 0, 0, (groupTable.find? (fun g => g.commit == R.SIEVE_GROUP_CFG_COMMIT.num)).get (by decide), by decide +kernel, by decide +kernel, by decide +kernel, by decide +kernel, by simp only [CanReach]; decide +kernel, by simp only [WordOk]; decide +kernel, by decide +kernel⟩,
   ⟨up, 0, configBase + 50 * 0x10000 + 264, 50, 264, R.SIEVE_GROUP_CFG_COMMIT, 0, 0, (groupTable.find? (fun g => g.commit == R.SIEVE_GROUP_CFG_COMMIT.num)).get (by decide), by decide +kernel, by decide +kernel, by decide +kernel, by decide +kernel, by simp only [CanReach]; decide +kernel, by simp only [WordOk]; decide +kernel, by decide +kernel, by decide +kernel, by simp only [NoRival]; decide +kernel⟩⟩

theorem witness_GroupAdoptCopiesThePendingSet :
    (∃ (s : State) (addr isl off : Nat) (r : Reg) (i j : Nat) (g : Group), State.wf s = true ∧ islandAt addr = some (isl, off) ∧ findReg isl off = some (r, i, j) ∧ (groupTable.find? (fun g => g.commit == r.num) = some g) ∧ present s isl = true ∧ getF s isl g.pending i = 1 ∧ SafePoint s g isl i ∧ g.commit ≠ R.SCHED_GROUP_TURNOUT_COMMIT.num)
    ∧ (∃ (s : State) (addr isl off : Nat) (r : Reg) (i j : Nat) (g : Group), State.wf s = true ∧ islandAt addr = some (isl, off) ∧ findReg isl off = some (r, i, j) ∧ (groupTable.find? (fun g => g.commit == r.num) = some g) ∧ present s isl = true ∧ getF s isl g.pending i = 1 ∧ SafePoint s g isl i ∧ g.commit = R.SCHED_GROUP_TURNOUT_COMMIT.num ∧ getA s 57 F.SCHED_TURN_CNT_COUNT = 0) :=
  ⟨⟨setF up 50 F.SIEVE_GROUP_CFG_EPOCH_PENDING 1, configBase + 50 * 0x10000 + 264, 50, 264, R.SIEVE_GROUP_CFG_COMMIT, 0, 0, (groupTable.find? (fun g => g.commit == R.SIEVE_GROUP_CFG_COMMIT.num)).get (by decide), by decide +kernel, by decide +kernel, by decide +kernel, by decide +kernel, by decide +kernel, by decide +kernel, by simp only [SafePoint]; decide +kernel, by decide +kernel⟩,
   ⟨setF up 57 F.SCHED_GROUP_TURNOUT_EPOCH_PENDING 1, configBase + 57 * 0x10000 + 548, 57, 548, R.SCHED_GROUP_TURNOUT_COMMIT, 0, 0, (groupTable.find? (fun g => g.commit == R.SCHED_GROUP_TURNOUT_COMMIT.num)).get (by decide), by decide +kernel, by decide +kernel, by decide +kernel, by decide +kernel, by decide +kernel, by decide +kernel, by simp only [SafePoint]; decide +kernel, by decide +kernel⟩⟩

theorem witness_SidebandPortAndImage :
    (∃ (s : State) (a v isl off : Nat) (r : Reg) (i j : Nat), State.wf s = true ∧ islandAt (configBase + a % 2 ^ 22) = some (isl, off) ∧ a % 4 = 0 ∧ findReg isl off = some (r, i, j) ∧ CanReach s 2 isl ∧ WordOk s 2 isl r i v ∧ r.num ∉ specialRegs)
    ∧ (∃ (s : State) (a  isl off : Nat) (r : Reg) (i j : Nat), State.wf s = true ∧ islandAt (configBase + a % 2 ^ 22) = some (isl, off) ∧ a % 4 = 0 ∧ findReg isl off = some (r, i, j) ∧ CanReach s 2 isl ∧ pairOf s isl r.num i = none)
    ∧ (∃ (s : State) (v : Nat), State.wf s = true ∧ CanReach s 2 56 ∧ getF s 56 F.DQP_SB_IMG_STAT_WAITING = 1 ∧ v < 2 ^ 32 ∧ s.dqp.sbImage.length + 4 ≤ getF s 56 F.DQP_SB_IMG_LEN_LENGTH)
    ∧ (∃ (s : State) (v : Nat), State.wf s = true ∧ CanReach s 2 56 ∧ getF s 56 F.DQP_SB_IMG_STAT_WAITING = 1 ∧ v < 2 ^ 32 ∧ s.dqp.sbImage.length = getF s 56 F.DQP_SB_IMG_LEN_LENGTH ∧ s.dqp.sbImage.length = imgLength s.dqp.sbImage)
    ∧ (∃ (s : State) (a : Nat) (w : Nat), portUp s 2 = true ∧ (a % 4 ≠ 0 ∨ w ≠ 4))
    ∧ (∃ (s : State) (a : Nat) (isl : Nat) (off : Nat) (r : Reg) (i : Nat) (j : Nat), State.wf s = true ∧ islandAt (configBase + a % 2 ^ 22) = some (isl, off) ∧ a % 4 = 0 ∧ findReg isl off = some (r, i, j) ∧ CanReach s 2 isl ∧ ∃ (x : Nat), pairOf s isl r.num i = some x ∧ x < 2 ^ 64 ∧ mSorted none s.counters.latches = true)
    ∧ (∃ (s : State) (v : Nat), State.wf s = true ∧ CanReach s 2 56 ∧ v < 2 ^ 32 ∧ let n : Nat := s.dqp.sbImage.length; let len : Nat := getF s 56 F.DQP_SB_IMG_LEN_LENGTH; let left : Nat := len - n; getF s 56 F.DQP_SB_IMG_STAT_WAITING = 1 ∧ 0 < left ∧ (left < 4 → v < 256 ^ left))
    ∧ (∃ (s : State) (v : Nat), State.wf s = true ∧ CanReach s 2 56 ∧ v < 2 ^ 32 ∧ let n : Nat := s.dqp.sbImage.length; let len : Nat := getF s 56 F.DQP_SB_IMG_LEN_LENGTH; getF s 56 F.DQP_SB_IMG_STAT_WAITING = 1 ∧ n = len)
    ∧ (∃ (s : State) (v : Nat), State.wf s = true ∧ CanReach s 2 56 ∧ v < 2 ^ 32 ∧ let n : Nat := s.dqp.sbImage.length; let len : Nat := getF s 56 F.DQP_SB_IMG_LEN_LENGTH; let left : Nat := len - n; getF s 56 F.DQP_SB_IMG_STAT_WAITING = 1 ∧ (left = 0 ∨ left < 4 ∧ 256 ^ left ≤ v))
    ∧ (∃ (s : State) (v : Nat), State.wf s = true ∧ CanReach s 2 56 ∧ v < 2 ^ 32 ∧ let n : Nat := s.dqp.sbImage.length; let len : Nat := getF s 56 F.DQP_SB_IMG_LEN_LENGTH; getF s 56 F.DQP_SB_IMG_STAT_WAITING = 1 ∧ n ≠ len)
    ∧ (∃ (s : State) (v : Nat), State.wf s = true ∧ CanReach s 2 56 ∧ v < 2 ^ 32 ∧ getF s 56 F.DQP_SB_IMG_STAT_WAITING = 0) :=
  ⟨⟨up, 57 * 0x10000 + 0xE010, 20, 57, 0xE010, R.CNT_BW_CFG, 0, 0, by decide +kernel, by decide +kernel, by decide +kernel, by decide +kernel, by simp only [CanReach]; decide +kernel, by simp only [WordOk]; decide +kernel, by decide +kernel⟩,
   ⟨up, 57 * 0x10000 + 0xE010, 57, 0xE010, R.CNT_BW_CFG, 0, 0, by decide +kernel, by decide +kernel, by decide +kernel, by decide +kernel, by simp only [CanReach]; decide +kernel, by decide +kernel⟩,
   ⟨setF (setF up 56 F.DQP_SB_IMG_STAT_WAITING 1) 56 F.DQP_SB_IMG_LEN_LENGTH 4, 2 ^ 32 - 1, by decide +kernel, by simp only [CanReach]; decide +kernel, by decide +kernel⟩,
   ⟨{ setF (setF up 56 F.DQP_SB_IMG_STAT_WAITING 1) 56 F.DQP_SB_IMG_LEN_LENGTH 24 with dqp := { up.dqp with sbImage := List.replicate 20 0 ++ toBytes 4 24 } }, 0, by decide +kernel, by simp only [CanReach]; decide +kernel, by decide +kernel⟩,
   ⟨up, 0, 2, by decide +kernel, Or.inr (by decide)⟩,
   ⟨up, 57 * 0x10000 + 0xE000, 57, 0xE000, R.CNT_CYCLE_LO, 0, 0, by decide +kernel, by decide +kernel, by decide +kernel, by decide +kernel, by simp only [CanReach]; decide +kernel, 0, by decide +kernel⟩,
   ⟨{ setF (setF up 56 F.DQP_SB_IMG_STAT_WAITING 1) 56 F.DQP_SB_IMG_LEN_LENGTH 6 with dqp := { up.dqp with sbImage := List.replicate 4 7 } }, 65535, by decide +kernel, by simp only [CanReach]; decide +kernel, by decide +kernel⟩,
   ⟨{ setF (setF up 56 F.DQP_SB_IMG_STAT_WAITING 1) 56 F.DQP_SB_IMG_LEN_LENGTH 6 with dqp := { up.dqp with sbImage := List.replicate 6 7 } }, 0, by decide +kernel, by simp only [CanReach]; decide +kernel, by decide +kernel⟩,
   ⟨{ setF (setF up 56 F.DQP_SB_IMG_STAT_WAITING 1) 56 F.DQP_SB_IMG_LEN_LENGTH 6 with dqp := { up.dqp with sbImage := List.replicate 4 7 } }, 65536, by decide +kernel, by simp only [CanReach]; decide +kernel, by decide +kernel⟩,
   ⟨{ setF (setF up 56 F.DQP_SB_IMG_STAT_WAITING 1) 56 F.DQP_SB_IMG_LEN_LENGTH 6 with dqp := { up.dqp with sbImage := List.replicate 4 7 } }, 0, by decide +kernel, by simp only [CanReach]; decide +kernel, by decide +kernel⟩,
   ⟨{ setF (setF up 56 F.DQP_SB_IMG_STAT_WAITING 0) 56 F.DQP_SB_IMG_LEN_LENGTH 6 with dqp := { up.dqp with sbImage := [] } }, 0, by decide +kernel, by simp only [CanReach]; decide +kernel, by decide +kernel⟩⟩

theorem witness_DqpEnableAndTierModeWrites :
    (∃ (s : State), State.wf s = true ∧ CanReach s 0 56 ∧ getF s 56 F.DQP_CTRL_EN = 0)
    ∧ (∃ (s : State), State.wf s = true ∧ CanReach s 0 56 ∧ getF s 56 F.DQP_CTRL_EN = 1)
    ∧ (∃ (s : State) (v : Nat), State.wf s = true ∧ CanReach s 0 57 ∧ v < 2) :=
  ⟨⟨setF up 56 F.DQP_CTRL_EN 0, by decide +kernel, by simp only [CanReach]; decide +kernel, by decide +kernel⟩,
   ⟨up, by decide +kernel, by simp only [CanReach]; decide +kernel, by decide +kernel⟩,
   ⟨up, 1, by decide +kernel, by simp only [CanReach]; decide +kernel, by decide +kernel⟩⟩

theorem witness_TestWindowAndFlips :
    (∃ (s : State) (isl v : Nat), State.wf s = true ∧ isl < 32 ∧ ((reachState s isl = 2 ∨ reachState s isl = 3)) ∧ bits v 0 3 ≤ 1 ∧ bits v 3 1 = 0 ∧ bits v 4 10 < 8 ∧ bits v 14 1 = 1 ∧ NamedWriteOk s 0 isl R.PROT_FLIP_CTRL v)
    ∧ (∃ (s : State) (isl : Nat) (v : Nat), State.wf s = true ∧ isl < 32 ∧ (reachState s isl = 2 ∨ reachState s isl = 3) ∧ bits v 2 3 = 0 ∧ bits v 5 6 = 0 ∧ testAddr s isl + 64 ≤ 25165824 ∧ testOp s isl = 0 ∧ bits v 0 2 = 1 ∧ NamedWriteOk s 0 isl R.PROT_TCTRL v)
    ∧ (∃ (s : State) (isl : Nat) (v : Nat), State.wf s = true ∧ kindOf isl = Kind.flash ∧ bits v 0 2 = 3 ∧ bits v 2 3 = 0 ∧ bits v 5 6 < 32 ∧ (getF s isl F.FCH_CSTATE_STATE (bits v 5 6) = 2 ∨ getF s isl F.FCH_CSTATE_STATE (bits v 5 6) = 3) ∧ getF s isl F.PROT_FLIP_CTRL_ARM = 0 ∧ testOp s isl = 0 ∧ NamedWriteOk s 0 isl R.PROT_TCTRL v) :=
  ⟨⟨setF up 3 F.REACH_STATE_STATE 2, 3, 1 + 7 * 2 ^ 4 + 2 ^ 14, by decide +kernel, by decide +kernel, by decide +kernel, by decide +kernel, (by decide +kernel), by decide +kernel, by decide +kernel, by simp only [NamedWriteOk, CanReach, WordOk]; decide +kernel⟩,
   ⟨setF (setF up 3 F.REACH_STATE_STATE 2) 3 F.PROT_TADDR_LO_ADDR 0x5FFFF, 3, 1, by decide +kernel, by decide +kernel, by decide +kernel, by decide +kernel, (by decide +kernel), by decide +kernel, by decide +kernel, by simp only [NamedWriteOk, CanReach, WordOk]; decide +kernel⟩,
   ⟨setF up 48 F.FCH_CSTATE_STATE 2 31, 48, 3 + 31 * 2 ^ 5, by decide +kernel, by decide +kernel, by decide +kernel, by decide +kernel, (by decide +kernel), by decide +kernel, by decide +kernel, by simp only [NamedWriteOk, CanReach, WordOk]; decide +kernel⟩⟩

theorem witness_OrdersHaltResetAndRestart :
    (∃ (s : State) (port : Nat), State.wf s = true ∧ CanReach s port 59 ∧ port < 3 ∧ (getF s 59 F.WEIR_STATUS_MSTATE = 0 ∨ getF s 59 F.WEIR_STATUS_MSTATE = 1) ∧ NoRival s)
    ∧ (∃ (s : State) (port : Nat), State.wf s = true ∧ CanReach s port 59 ∧ port < 3 ∧ getF s 59 F.WEIR_STATUS_MSTATE = 3 ∧ allCool s = true)
    ∧ (∃ (s : State) (port : Nat), State.wf s = true ∧ CanReach s port 59 ∧ port < 3 ∧ getF s 59 F.WEIR_STATUS_MSTATE = 3 ∧ allCool s = false)
    ∧ (∃ (s : State) (port : Nat), State.wf s = true ∧ CanReach s port 59 ∧ port < 3 ∧ getF s 59 F.WEIR_STATUS_MSTATE ≠ 3) :=
  ⟨⟨at_ 0, 2, by decide +kernel, by simp only [CanReach]; decide +kernel, by decide +kernel, by decide +kernel, by simp only [NoRival]; decide +kernel⟩,
   ⟨at_ 3, 1, by decide +kernel, by simp only [CanReach]; decide +kernel, by decide +kernel⟩,
   ⟨setF (setF (at_ 3) 59 F.TEL_TEMP_VALID 1 76) 59 F.TEL_TEMP_TEMP 640 76, 1, by decide +kernel, by simp only [CanReach]; decide +kernel, by decide +kernel⟩,
   ⟨at_ 4, 1, by decide +kernel, by simp only [CanReach]; decide +kernel, by decide +kernel⟩⟩

theorem witness_CounterIsTheLargestGoodCopy :
    (∃ (s : State) (env : StepEnv), State.wf s = true ∧ StepEnds s env 3 ∧ s.boot.active = [] ∧ let u := deriveIdentity s env; goodCounters u = [])
    ∧ (∃ (s : State) (env : StepEnv), State.wf s = true ∧ StepEnds s env 3 ∧ s.boot.active = [] ∧ let u := deriveIdentity s env; ∃ m, m ∈ goodCounters u ∧ (∀ x ∈ goodCounters u, x ≤ m)) :=
  ⟨⟨atStep 3, goodEnv, by decide +kernel, by simp only [StepEnds]; decide +kernel, by decide +kernel⟩,
   ⟨{ atStep 3 with boot := { State.reset.boot with counters := [toBytes 4 9 ++ toBytes 4 (2 ^ 32 - 10) ++ toBytes 8 0, [], [], []] } }, goodEnv, by decide +kernel, by simp only [StepEnds]; decide +kernel, by decide +kernel, 9, by decide +kernel⟩⟩

theorem witness_StartUpRunsToRunning :
    (∃ (s : State) (env : StepEnv), State.wf s = true ∧ StepEnds s env 1)
    ∧ (∃ (s : State) (env : StepEnv), State.wf s = true ∧ StepEnds s env 2 ∧ getF s 56 F.DQP_SB_IMG_STAT_WAITING = 0)
    ∧ (∃ (s : State) (env : StepEnv), State.wf s = true ∧ StepEnds s env 4)
    ∧ (∃ (s : State) (env : StepEnv), State.wf s = true ∧ StepEnds s env 5)
    ∧ (∃ (s : State) (env : StepEnv), State.wf s = true ∧ StepEnds s env 6)
    ∧ (∃ (s : State) (env : StepEnv), State.wf s = true ∧ StepEnds s env 7 ∧ getF s 59 F.WEIR_HOLDUP_CHARGED = 1)
    ∧ (∃ (s : State) (env : StepEnv), State.wf s = true ∧ StepEnds s env 7 ∧ getF s 59 F.WEIR_HOLDUP_CHARGED = 0)
    ∧ (∃ (s : State) (env : StepEnv), State.wf s = true ∧ StepEnds s env 3 ∧ s.boot.active = [] ∧ let u := deriveIdentity s env; let counter := (goodCounters u).foldl max 0; let u' := setF (setF u 58 F.IMG_STATUS_CTR_LOST (b2n (goodCounters u).isEmpty)) 58 F.IMG_COUNTER_COUNTER counter; let a := checkSlot u' counter 0; let b := checkSlot u' counter 1; a.1 ≠ 0 ∧ b.1 ≠ 0)
    ∧ (∃ (s : State) (env : StepEnv), State.wf s = true ∧ StepEnds s env 8 ∧ s.boot.info.risal = false ∧ getF s 56 F.DQP_CTRL_EN < 2) :=
  ⟨⟨atStep 1, goodEnv, by decide +kernel, by simp only [StepEnds]; decide +kernel⟩,
   ⟨atStep 2, goodEnv, by decide +kernel, by simp only [StepEnds]; decide +kernel, by decide +kernel⟩,
   ⟨atStep 4, goodEnv, by decide +kernel, by simp only [StepEnds]; decide +kernel⟩,
   ⟨atStep 5, goodEnv, by decide +kernel, by simp only [StepEnds]; decide +kernel⟩,
   ⟨atStep 6, goodEnv, by decide +kernel, by simp only [StepEnds]; decide +kernel⟩,
   ⟨setF (atStep 7) 59 F.WEIR_HOLDUP_CHARGED 1, goodEnv, by decide +kernel, by simp only [StepEnds]; decide +kernel, by decide +kernel⟩,
   ⟨atStep 7, goodEnv, by decide +kernel, by simp only [StepEnds]; decide +kernel, by decide +kernel⟩,
   ⟨atStep 3, goodEnv, by decide +kernel, by simp only [StepEnds]; decide +kernel, by decide +kernel⟩,
   ⟨atStep 8, goodEnv, by decide +kernel, by simp only [StepEnds]; decide +kernel, by decide +kernel⟩⟩

theorem witness_HostFlitsAreServed :
    (∃ (s : State) (h : FlitHdr) (q v : Nat), State.wf s = true ∧ QuietLink s ∧ h.seq = s.link.rxSeq ∧ s.link.rxSeq < 4096 ∧ ∃ x, findSq s q = some x ∧ v < x.entries)
    ∧ (∃ (s : State) (h : FlitHdr) (q v : Nat), State.wf s = true ∧ QuietLink s ∧ h.seq = s.link.rxSeq ∧ s.link.rxSeq < 4096 ∧ ((findSq s q = none ∨ ∃ x, findSq s q = some x ∧ x.entries ≤ v)))
    ∧ (∃ (s : State) (h : FlitHdr) (op : Nat), State.wf s = true ∧ QuietLink s ∧ h.seq = s.link.rxSeq ∧ s.link.rxSeq < 4096 ∧ s.link.hostInit = true ∧ 0 < s.link.credits ∧ s.link.held.length < 512 ∧ (s.link.held.any (fun f => f.seq == h.ack) = false) ∧ h.credit % 256 = s.link.k % 256 ∧ 2 ≤ op)
    ∧ (∃ (s : State) (h : FlitHdr) (a : Nat), State.wf s = true ∧ QuietLink s ∧ h.seq = s.link.rxSeq ∧ s.link.rxSeq < 4096 ∧ s.link.hostInit = true ∧ 0 < s.link.credits ∧ s.link.held.length < 512 ∧ (s.link.held.any (fun f => f.seq == h.ack) = false) ∧ h.credit % 256 = s.link.k % 256 ∧ ∃ isl off r i j, islandAt a = some (isl, off) ∧ a % 4 = 0 ∧ findReg isl off = some (r, i, j) ∧ CanReach s 0 isl ∧ pairOf s isl r.num i = none)
    ∧ (∃ (s : State) (h : FlitHdr) (off id : Nat) (d : List Byte) (p : Pull), State.wf s = true ∧ QuietLink s ∧ h.seq = s.link.rxSeq ∧ s.link.rxSeq < 4096 ∧ 0 < d.length ∧ d.length ≤ 240 ∧ (s.dqp.pulls.find? (fun p => p.reqId == id) = some p) ∧ off = p.got.length ∧ off + d.length < p.bytes)
    ∧ (∃ (s : State) (h : FlitHdr) (off id : Nat) (d : List Byte) (p : Pull), State.wf s = true ∧ QuietLink s ∧ h.seq = s.link.rxSeq ∧ s.link.rxSeq < 4096 ∧ 0 < d.length ∧ d.length ≤ 240 ∧ (s.dqp.pulls.find? (fun p => p.reqId == id) = some p) ∧ off ≠ p.got.length)
    ∧ (∃ (s : State) (h : FlitHdr) (q : Nat) (v : Nat), State.wf s = true ∧ QuietLink s ∧ h.seq = s.link.rxSeq ∧ s.link.rxSeq < 4096 ∧ ∃ (x : Cq), findCq s q = some x ∧ v < x.entries ∧ (v + x.entries - x.head) % x.entries ≤ (x.tail + x.entries - x.head) % x.entries)
    ∧ (∃ (s : State) (h : FlitHdr) (q : Nat) (v : Nat), State.wf s = true ∧ QuietLink s ∧ h.seq = s.link.rxSeq ∧ s.link.rxSeq < 4096 ∧ (findCq s q = none ∨ ∃ x, findCq s q = some x ∧ (x.entries ≤ v ∨ (x.tail + x.entries - x.head) % x.entries < (v + x.entries - x.head) % x.entries)))
    ∧ (∃ (s : State) (h : FlitHdr) (a : Nat), State.wf s = true ∧ QuietLink s ∧ h.seq = s.link.rxSeq ∧ s.link.rxSeq < 4096 ∧ s.link.hostInit = true ∧ 0 < s.link.credits ∧ s.link.held.length < 512 ∧ ((s.link.held.any fun f => f.seq == h.ack) = false) ∧ h.credit % 256 = s.link.k % 256 ∧ ∃ (isl : Nat) (off : Nat) (r : Reg) (i : Nat) (j : Nat) (v : Nat), islandAt a = some (isl, off) ∧ a % 4 = 0 ∧ findReg isl off = some (r, i, j) ∧ CanReach s 0 isl ∧ WordOk s 0 isl r i v ∧ r.num ∉ specialRegs)
    ∧ (∃ (s : State) (h : FlitHdr) (off : Nat) (id : Nat) (d : List Byte) (p : Pull), State.wf s = true ∧ QuietLink s ∧ h.seq = s.link.rxSeq ∧ s.link.rxSeq < 4096 ∧ 0 < d.length ∧ d.length ≤ 240 ∧ (List.find? (fun p => p.reqId == id) s.dqp.pulls = some p) ∧ ∃ (no : Nat), off = p.got.length ∧ off + d.length = p.bytes ∧ p.what = PullFor.data no ∧ (List.filter (fun q => q.what == p.what) s.dqp.pulls = [p]) ∧ (∀ q ∈ s.dqp.pulls, q.reqId = id → q = p)) :=
  ⟨⟨queues up, ⟨0, 0, 0⟩, 1, 15, by decide +kernel, by simp only [QuietLink]; decide +kernel, by decide +kernel, by decide +kernel, (⟨1, 1, 1, 0x2000, 16, 1, 0, 0⟩ : Sq), by decide +kernel⟩,
   ⟨queues up, ⟨0, 0, 0⟩, 1, 16, by decide +kernel, by simp only [QuietLink]; decide +kernel, by decide +kernel, by decide +kernel, Or.inr ⟨_, rfl, by decide⟩⟩,
   ⟨queues up, ⟨0, 0, 0⟩, 2, by decide +kernel, by simp only [QuietLink]; decide +kernel, by decide +kernel⟩,
   ⟨queues up, ⟨0, 0, 0⟩, configBase + 57 * 0x10000 + 0xE010, by decide +kernel, by simp only [QuietLink]; decide +kernel, by decide +kernel, by decide +kernel, by decide +kernel, by decide +kernel, (by decide +kernel), by decide +kernel, by decide +kernel, 57, 0xE010, R.CNT_BW_CFG, 0, 0, by decide +kernel, by decide +kernel, by decide +kernel, by simp only [CanReach]; decide +kernel, by decide +kernel⟩,
   ⟨{ queues up with dqp := { up.dqp with pulls := [⟨5, 241, [], .list 9⟩] } }, ⟨0, 0, 0⟩, 0, 5, List.replicate 240 0, ⟨5, 241, [], .list 9⟩, by decide +kernel, by simp only [QuietLink]; decide +kernel, by decide +kernel⟩,
   ⟨{ queues up with dqp := { up.dqp with pulls := [⟨5, 241, [], .list 9⟩] } }, ⟨0, 0, 0⟩, 1, 5, [0], ⟨5, 241, [], .list 9⟩, by decide +kernel, by simp only [QuietLink]; decide +kernel, by decide +kernel⟩,
   ⟨{ queues up with dqp := { (queues up).dqp with cqs := [⟨1, 0x4000, 16, 4, 2, 100, 5, 0, true, [], 1⟩] } }, ⟨0, 0, 0⟩, 1, 5, by decide +kernel, by simp only [QuietLink]; decide +kernel, by decide +kernel, by decide +kernel, (⟨1, 0x4000, 16, 4, 2, 100, 5, 0, true, [], 1⟩ : Cq), by decide +kernel⟩,
   ⟨{ queues up with dqp := { (queues up).dqp with cqs := [⟨1, 0x4000, 16, 4, 2, 100, 5, 0, true, [], 1⟩] } }, ⟨0, 0, 0⟩, 1, 6, by decide +kernel, by simp only [QuietLink]; decide +kernel, by decide +kernel, by decide +kernel, Or.inr ⟨(⟨1, 0x4000, 16, 4, 2, 100, 5, 0, true, [], 1⟩ : Cq), by decide +kernel⟩⟩,
   ⟨queues up, ⟨0, 0, 0⟩, configBase + 57 * 0x10000 + 0xE010, by decide +kernel, by simp only [QuietLink]; decide +kernel, by decide +kernel, by decide +kernel, by decide +kernel, by decide +kernel, (by decide +kernel), by decide +kernel, by decide +kernel, 57, 0xE010, R.CNT_BW_CFG, 0, 0, 20, by decide +kernel, by decide +kernel, by decide +kernel, by simp only [CanReach]; decide +kernel, by simp only [WordOk]; decide +kernel, by decide +kernel⟩,
   ⟨{ queues up with dqp := { up.dqp with pulls := [⟨5, 241, [7], .data 9⟩] } }, ⟨0, 0, 0⟩, 1, 5, List.replicate 240 0, ⟨5, 241, [7], .data 9⟩, by decide +kernel, by simp only [QuietLink]; decide +kernel, by decide +kernel, by decide +kernel, by decide +kernel, by decide +kernel, (by decide +kernel), 9, by decide +kernel⟩⟩

theorem witness_LinkFlitsTrainingAndTimers :
    (∃ (s : State), s.boot.powered = true ∧ getF s 59 F.WEIR_STATUS_MSTATE = 1 ∧ s.link.modules ≠ 0 ∧ s.link.session = false ∧ getF s 56 F.CNT_CTRL_EN = 0)
    ∧ (∃ (s : State), s.boot.powered = true ∧ getF s 59 F.WEIR_STATUS_MSTATE = 1 ∧ s.link.modules ≠ 0 ∧ s.link.session = true ∧ s.link.queue = [] ∧ s.link.rxBuf = [] ∧ (∀ c ∈ s.dqp.cqs, c.waiting = []))
    ∧ (∃ (s : State) (raw : List Byte), State.wf s = true ∧ linkOpen s = true ∧ raw.length = 256 ∧ crc32c (raw.take 252) ≠ le raw 252 4 ∧ getF s 56 F.CNT_CTRL_EN = 0 ∧ getF s 56 F.DQP_LINK_ERR_CRC_ERR < 2 ^ F.DQP_LINK_ERR_CRC_ERR.w - 1)
    ∧ (∃ (s : State) (x : Nat), State.wf s = true ∧ QuietLink s ∧ x < 2 ^ 32)
    ∧ (∃ (s : State) (x : Nat), State.wf s = true ∧ QuietLink s ∧ s.link.hostInit = false ∧ x < 2 ^ 16)
    ∧ (∃ (s : State), State.wf s = true ∧ QuietLink s ∧ s.link.hostInit = true)
    ∧ (∃ (s : State) (ack credit x : Nat), State.wf s = true ∧ QuietLink s ∧ let l := acked s.link ack credit; (l.held.any (fun f => f.seq == x) = true))
    ∧ (∃ (s : State) (ack credit x : Nat), State.wf s = true ∧ QuietLink s ∧ let l := acked s.link ack credit; (l.held.any (fun f => f.seq == x) = false) ∧ x = l.txSeq)
    ∧ (∃ (s : State) (m : Nat), linkOpen s = true ∧ getF s 56 F.CNT_CTRL_EN = 0 ∧ m < 4 ∧ s.link.lostModules.testBit m = false) :=
  ⟨⟨{ up with link := { up.link with session := false } }, by decide +kernel⟩,
   ⟨up, by decide +kernel⟩,
   ⟨up, 1 :: List.replicate 255 0, by decide +kernel⟩,
   ⟨up, 2 ^ 32 - 1, by decide +kernel, by simp only [QuietLink]; decide +kernel, by decide +kernel⟩,
   ⟨{ up with link := { up.link with hostInit := false } }, 2 ^ 16 - 1, by decide +kernel, by simp only [QuietLink]; decide +kernel, by decide +kernel⟩,
   ⟨up, by decide +kernel, by simp only [QuietLink]; decide +kernel, by decide +kernel⟩,
   ⟨{ up with link := { up.link with held := [⟨8, 0, [], [], 0, 0, 0, true⟩] } }, 4095, 0, 0, by decide +kernel, by simp only [QuietLink]; decide +kernel, by decide +kernel⟩,
   ⟨{ up with link := { up.link with txSeq := 3 } }, 4095, 0, 3, by decide +kernel, by simp only [QuietLink]; decide +kernel, by decide +kernel⟩,
   ⟨up, 3, by decide +kernel⟩⟩

theorem witness_EntriesInAndCompletionsOut :
    (∃ (s : State) (c : Cmd) (q : Sq) (k : Cq), findCmd s c.no = some c ∧ findSq s c.sqid = some q ∧ findCq s q.cqid = some k ∧ s.dqp.cqs = [k] ∧ k.waiting = [] ∧ 0 < k.room ∧ k.coalCount = 0 ∧ 2 ≤ k.entries ∧ k.tail < k.entries ∧ s.dqp.deferred = [] ∧ (∀ x ∈ s.dqp.cmds, x.opcode ≠ 2) ∧ canSend s.link = true ∧ s.link.queue = [] ∧ s.link.outbox = [] ∧ 2 ≤ s.link.credits ∧ s.link.held.length < 511 ∧ getF s 56 F.CNT_CTRL_EN = 0)
    ∧ (∃ (s : State) (q : Nat) (k : Cq), findCq s q = some k ∧ 0 < k.unsignalled ∧ canSend s.link = true ∧ s.link.queue = [] ∧ s.link.outbox = [] ∧ 0 < s.link.credits ∧ s.link.held.length < 512 ∧ getF s 56 F.CNT_CTRL_EN = 0)
    ∧ (∃ (s : State) (q : Sq), getF s 56 F.DQP_STATUS_RDY = 1 ∧ (running s = true ∨ enteringDp3 s = true) ∧ linkRoom s = true ∧ s.boot.haltWait = false ∧ q.entries ≠ 0 ∧ findSq s 0 = some q ∧ fetchable s q = true) :=
  ⟨⟨run { up with dqp := { up.dqp with sqs := [⟨1, 1, 1, 0x2000, 16, 1, 0, 0⟩], cqs := [⟨1, 0x4000, 16, 4, 0, 0, 15, 3, true, [], 0⟩] } } (cmd 1 0x20 []), cmd 1 0x20 [], ⟨1, 1, 1, 0x2000, 16, 1, 0, 0⟩, ⟨1, 0x4000, 16, 4, 0, 0, 15, 3, true, [], 0⟩, by decide +kernel⟩,
   ⟨{ queues up with dqp := { (queues up).dqp with cqs := [⟨1, 0x4000, 16, 4, 2, 100, 1, 0, true, [], 1⟩] } }, 1, ⟨1, 0x4000, 16, 4, 2, 100, 1, 0, true, [], 1⟩, by decide +kernel⟩,
   ⟨queues up, ⟨0, 0, 0, 0x1000, 16, 0, 0, 1⟩, by decide +kernel⟩⟩

theorem witness_QueuesFeaturesAndLogs :
    (∃ (s : State) (id : CmdId) (c : Cmd), Runs s id c 0x00 [] ∧ 4096 ≤ c.bufBytes)
    ∧ (∃ (s : State) (id : CmdId) (c : Cmd), Runs s id c 0x05 [(32, 1), (40, 8)] ∧ c.b 32 1 = 1 ∧ c.b 40 8 % 4 = 0 ∧ c.bufBytes % 4 = 0 ∧ c.b 40 8 + c.bufBytes ≤ 49408)
    ∧ (∃ (s : State) (id : CmdId) (c : Cmd), Runs s id c 0x03 [(32, 2), (36, 4), (40, 2), (42, 1), (44, 4)] ∧ 1 ≤ c.b 32 2 ∧ c.b 32 2 ≤ 1023 ∧ 2 ≤ c.b 36 4 ∧ c.b 36 4 ≤ 4096 ∧ c.b 40 2 ≤ 1023 ∧ c.b 44 4 ≤ 1500000 ∧ c.b 16 8 % 4096 = 0 ∧ c.isList = false ∧ c.b 24 4 = c.b 36 4 * 32 ∧ findCq s (c.b 32 2) = none)
    ∧ (∃ (s : State) (id : CmdId) (c : Cmd), Runs s id c 0x01 [(32, 2), (34, 2), (36, 4), (40, 1)] ∧ 1 ≤ c.b 32 2 ∧ c.b 32 2 ≤ 1023 ∧ 2 ≤ c.b 36 4 ∧ c.b 36 4 ≤ 4096 ∧ c.b 40 1 ≤ 3 ∧ c.b 16 8 % 4096 = 0 ∧ c.isList = false ∧ c.b 24 4 = c.b 36 4 * 128 ∧ c.b 34 2 ≠ 0 ∧ (findCq s (c.b 34 2)).isSome = true ∧ findSq s (c.b 32 2) = none ∧ let ns := if c.b 4 4 = 0 then 1 else c.b 4 4; domExists s (ns - 1) = true)
    ∧ (∃ (s : State) (id : CmdId) (c : Cmd), Runs s id c 0x04 [(32, 2)] ∧ c.b 32 2 ≠ 0 ∧ (findCq s (c.b 32 2)).isSome = true ∧ (∀ q ∈ s.dqp.sqs, q.cqid ≠ c.b 32 2))
    ∧ (∃ (s : State) (id : CmdId) (c : Cmd), Runs s id c 0x02 [(32, 2)] ∧ c.b 32 2 ≠ 0 ∧ (findSq s (c.b 32 2)).isSome = true ∧ (∀ x ∈ s.dqp.cmds, x.sqid ≠ c.b 32 2) ∧ ((∀ x ∈ s.dqp.cmds, x.opcode = 2 → x = c)))
    ∧ (∃ (s : State) (id : CmdId) (c : Cmd), c.b 36 2 ≠ 0 ∧ ∃ (q : Cq), findCq s (c.b 36 2) = some q ∧ Runs s id c 0x06 [(32, 1), (36, 2)] ∧ c.b 32 1 = 1)
    ∧ (∃ (s : State) (id : CmdId) (c : Cmd), c.b 36 2 ≠ 0 ∧ ∃ (q : Cq), findCq s (c.b 36 2) = some q ∧ Runs s id c 0x07 [(32, 1), (36, 2), (40, 2), (42, 1), (44, 4)] ∧ c.b 32 1 = 1 ∧ c.b 40 2 ≤ 1023 ∧ c.b 44 4 ≤ 1500000)
    ∧ (∃ (s : State) (id : CmdId) (c : Cmd), c.b 36 2 ≠ 0 ∧ ∃ (q : Sq), findSq s (c.b 36 2) = some q ∧ Runs s id c 0x06 [(32, 1), (36, 2)] ∧ c.b 32 1 = 2)
    ∧ (∃ (s : State) (id : CmdId) (c : Cmd), c.b 36 2 ≠ 0 ∧ ∃ (q : Sq), findSq s (c.b 36 2) = some q ∧ Runs s id c 0x07 [(32, 1), (36, 2), (40, 1)] ∧ c.b 32 1 = 2 ∧ c.b 40 1 ≤ 3) :=
  ⟨⟨run up (buf 4096 (cmd 0 0 [])), ⟨0, 7, .none⟩, buf 4096 (cmd 0 0 []), by simp only [Runs]; decide +kernel, by decide +kernel⟩,
   ⟨run up (buf 8 (cmd 0 0x05 [(32, 1, 1), (40, 8, 49400)])), ⟨0, 7, .none⟩, buf 8 (cmd 0 0x05 [(32, 1, 1), (40, 8, 49400)]), by simp only [Runs]; decide +kernel, by decide +kernel⟩,
   ⟨run up (cmd 0 0x03 [(24, 4, 64), (32, 2, 1023), (36, 4, 2), (40, 2, 1023), (44, 4, 1500000)]), ⟨0, 7, .none⟩, cmd 0 0x03 [(24, 4, 64), (32, 2, 1023), (36, 4, 2), (40, 2, 1023), (44, 4, 1500000)], by simp only [Runs]; decide +kernel, by decide +kernel⟩,
   ⟨run (roomy (queues up)) (cmd 0 0x01 [(24, 4, 524288), (32, 2, 1023), (34, 2, 1), (36, 4, 4096), (40, 1, 3)]), ⟨0, 7, .none⟩, cmd 0 0x01 [(24, 4, 524288), (32, 2, 1023), (34, 2, 1), (36, 4, 4096), (40, 1, 3)], by simp only [Runs]; decide +kernel, by decide +kernel⟩,
   ⟨run ({ up with dqp := { up.dqp with cqs := [⟨2, 0x4000, 16, 4, 2, 100, 0, 0, true, [], 1⟩] } }) (cmd 0 0x04 [(32, 2, 2)]), ⟨0, 7, .none⟩, cmd 0 0x04 [(32, 2, 2)], by simp only [Runs]; decide +kernel, by decide +kernel⟩,
   ⟨run (queues up) (cmd 0 0x02 [(32, 2, 1)]), ⟨0, 7, .none⟩, cmd 0 0x02 [(32, 2, 1)], by simp only [Runs]; decide +kernel, by decide +kernel⟩,
   ⟨run (queues up) (cmd 0 0x06 [(32, 1, 1), (36, 2, 1)]), ⟨0, 7, .none⟩, cmd 0 0x06 [(32, 1, 1), (36, 2, 1)], by decide +kernel, ⟨1, 0x4000, 16, 4, 2, 100, 0, 0, true, [], 1⟩, by decide +kernel, by simp only [Runs]; decide +kernel, by decide +kernel⟩,
   ⟨run (queues up) (cmd 0 0x07 [(32, 1, 1), (36, 2, 1), (40, 2, 1023), (42, 1, 0), (44, 4, 1500000)]), ⟨0, 7, .none⟩, cmd 0 0x07 [(32, 1, 1), (36, 2, 1), (40, 2, 1023), (42, 1, 0), (44, 4, 1500000)], by decide +kernel, ⟨1, 0x4000, 16, 4, 2, 100, 0, 0, true, [], 1⟩, by decide +kernel, by simp only [Runs]; decide +kernel, by decide +kernel⟩,
   ⟨run (queues up) (cmd 0 0x06 [(32, 1, 2), (36, 2, 1)]), ⟨0, 7, .none⟩, cmd 0 0x06 [(32, 1, 2), (36, 2, 1)], by decide +kernel, ⟨1, 1, 1, 0x2000, 16, 1, 0, 0⟩, by decide +kernel, by simp only [Runs]; decide +kernel, by decide +kernel⟩,
   ⟨run (queues up) (cmd 0 0x07 [(32, 1, 2), (36, 2, 1), (40, 1, 3)]), ⟨0, 7, .none⟩, cmd 0 0x07 [(32, 1, 2), (36, 2, 1), (40, 1, 3)], by decide +kernel, ⟨1, 1, 1, 0x2000, 16, 1, 0, 0⟩, by decide +kernel, by simp only [Runs]; decide +kernel, by decide +kernel⟩⟩

theorem witness_AbortsImagesAndQuotes :
    (∃ (s : State), State.wf s = true ∧ CanReach s 1 58 ∧ mqIdle s = true ∧ quoteRefused s = false)
    ∧ (∃ (s : State) (id : CmdId) (c : Cmd), Runs s id c 0x09 [(32, 2), (34, 2)] ∧ (findSq s (c.b 32 2)).isSome = true ∧ ∃ x, ((markStarted s c.no).dqp.cmds.find? (fun x => x.sqid == c.b 32 2 && x.tag == c.b 34 2 && x.phase != .started) = some x))
    ∧ (∃ (s : State) (id : CmdId) (c : Cmd), Runs s id c 0x09 [(32, 2), (34, 2)] ∧ (findSq s (c.b 32 2)).isSome = true ∧ ((markStarted s c.no).dqp.cmds.find? (fun x => x.sqid == c.b 32 2 && x.tag == c.b 34 2 && x.phase != .started) = none))
    ∧ (∃ (s : State) (id : CmdId) (c : Cmd), Runs s id c 0x0B [(32, 32)] ∧ 5645 ≤ c.bufBytes ∧ quoteRefused s = false ∧ ((s.ident.quotes.drop 1).filter (!·.mgmt)).length < 4)
    ∧ (∃ (s : State) (q : Quote) (l : List Quote), State.wf s = true ∧ s.ident.quotes = q :: l ∧ quoteRefused s = false ∧ getF s 58 F.CNT_CTRL_EN = 0 ∧ getF s 58 F.ID_QUOTES_COUNT < 2 ^ 32 - 1 ∧ q.mgmt = true)
    ∧ (∃ (s : State) (q : Quote) (l : List Quote), State.wf s = true ∧ s.ident.quotes = q :: l ∧ quoteRefused s = false ∧ getF s 58 F.CNT_CTRL_EN = 0 ∧ getF s 58 F.ID_QUOTES_COUNT < 2 ^ 32 - 1 ∧ ∃ c, q.mgmt = false ∧ findCmd s q.no = some c ∧ c.no = q.no) :=
  ⟨⟨setF up 58 F.ID_STATUS_STATE 1, by decide +kernel, by simp only [CanReach]; decide +kernel, by decide +kernel⟩,
   ⟨{ queues up with dqp := { (queues up).dqp with cmds := [cmd 0 0x09 [(32, 2, 1), (34, 2, 9)], { cmd 1 0x20 [] with tag := 9, no := 2 }] } }, ⟨0, 7, .none⟩, cmd 0 0x09 [(32, 2, 1), (34, 2, 9)], by simp only [Runs]; decide +kernel, by decide +kernel, { cmd 1 0x20 [] with tag := 9, no := 2 }, by decide +kernel⟩,
   ⟨run (queues up) (cmd 0 0x09 [(32, 2, 1), (34, 2, 9)]), ⟨0, 7, .none⟩, cmd 0 0x09 [(32, 2, 1), (34, 2, 9)], by simp only [Runs]; decide +kernel, by decide +kernel⟩,
   ⟨run (setF up 58 F.ID_STATUS_STATE 1) (buf 5645 (cmd 0 0x0B [(32, 32, 5)])), ⟨0, 7, .none⟩, buf 5645 (cmd 0 0x0B [(32, 32, 5)]), by simp only [Runs]; decide +kernel, by decide +kernel⟩,
   ⟨{ setF up 58 F.ID_STATUS_STATE 1 with ident := { up.ident with quotes := [⟨true, 0, [], 0⟩] } }, ⟨true, 0, [], 0⟩, [], by decide +kernel⟩,
   ⟨{ run (setF up 58 F.ID_STATUS_STATE 1) (cmd 0 0x0B []) with ident := { up.ident with quotes := [⟨false, 1, [], 0⟩] } }, ⟨false, 1, [], 0⟩, [], by decide +kernel, by decide +kernel, by decide +kernel, by decide +kernel, by decide +kernel, cmd 0 0x0B [], by decide +kernel⟩⟩

theorem witness_PowerStatesAndShutdown :
    (∃ (s : State) (id : CmdId) (c : Cmd), State.wf s = true ∧ s.dqp.pwr = .none ∧ Runs s id c 0x08 [(32, 1)] ∧ c.b 32 1 ≤ 3 ∧ ((c.b 32 1 = 3 → s.sched.ctxs = [])) ∧ c.b 32 1 = getF s 56 F.DQP_STATUS_PSTATE)
    ∧ (∃ (s : State) (id : CmdId) (c : Cmd), State.wf s = true ∧ s.dqp.pwr = .none ∧ Runs s id c 0x08 [(32, 1)] ∧ c.b 32 1 ≤ 3 ∧ ((c.b 32 1 = 3 → s.sched.ctxs = [])) ∧ c.b 32 1 < getF s 56 F.DQP_STATUS_PSTATE)
    ∧ (∃ (s : State) (id : CmdId) (c : Cmd), State.wf s = true ∧ s.dqp.pwr = .none ∧ Runs s id c 0x08 [(32, 1)] ∧ c.b 32 1 ≤ 3 ∧ ((c.b 32 1 = 3 → s.sched.ctxs = [])) ∧ getF s 56 F.DQP_STATUS_PSTATE < c.b 32 1 ∧ c.b 32 1 ≠ 2)
    ∧ (∃ (s : State) (id : CmdId) (c : Cmd), State.wf s = true ∧ Runs s id c 13 [(32, 1), (33, 1), (36, 4)] ∧ getF s 59 F.WEIR_STATUS_MSTATE = 1 ∧ NoRival s ∧ c.b 36 4 ≤ 1500000000 ∧ (c.b 33 1 = 0 ∨ c.b 33 1 = 1 ∧ c.b 36 4 = 0) ∧ c.b 32 1 = 0)
    ∧ (∃ (s : State) (id : CmdId) (c : Cmd), State.wf s = true ∧ Runs s id c 13 [(32, 1), (33, 1), (36, 4)] ∧ getF s 59 F.WEIR_STATUS_MSTATE = 1 ∧ NoRival s ∧ c.b 36 4 ≤ 1500000000 ∧ (c.b 33 1 = 0 ∨ c.b 33 1 = 1 ∧ c.b 36 4 = 0) ∧ c.b 32 1 = 1)
    ∧ (∃ (s : State), State.wf s = true ∧ getF s 59 F.WEIR_STATUS_MSTATE = 2 ∧ s.boot.haltWait = true)
    ∧ (∃ (s : State), State.wf s = true ∧ getF s 59 F.WEIR_STATUS_MSTATE = 2 ∧ enteringDp3 s = false ∧ s.boot.haltWait = false ∧ s.boot.haltReset = false)
    ∧ (∃ (s : State), State.wf s = true ∧ getF s 59 F.WEIR_STATUS_MSTATE = 2 ∧ enteringDp3 s = false ∧ s.boot.haltWait = false ∧ s.boot.haltReset = true)
    ∧ (∃ (s : State) (id : CmdId) (c : Cmd), State.wf s = true ∧ s.dqp.pwr = PwrMove.none ∧ Runs s id c 8 [(32, 1)] ∧ c.b 32 1 ≤ 3 ∧ (c.b 32 1 = 3 → s.sched.ctxs = []) ∧ getF s 56 F.DQP_STATUS_PSTATE < 2 ∧ c.b 32 1 = 2 ∧ (∀ x ∈ s.sched.ctxs, x.st ≠ .resident))
    ∧ (∃ (s : State) (id : CmdId) (c : Cmd), State.wf s = true ∧ s.dqp.pwr = PwrMove.none ∧ Runs s id c 8 [(32, 1)] ∧ c.b 32 1 ≤ 3 ∧ (c.b 32 1 = 3 → s.sched.ctxs = []) ∧ let r : State × Option Nat := saveResidents s.sched.ctxs (markStarted s c.no); getF s 56 F.DQP_STATUS_PSTATE < 2 ∧ c.b 32 1 = 2 ∧ r.2 = none) :=
  ⟨⟨run up (cmd 0 0x08 [(32, 1, 0)]), ⟨0, 7, .none⟩, cmd 0 0x08 [(32, 1, 0)], by decide +kernel, by decide +kernel, by simp only [Runs]; decide +kernel, by decide +kernel⟩,
   ⟨run (setF up 56 F.DQP_STATUS_PSTATE 2) (cmd 0 0x08 [(32, 1, 0)]), ⟨0, 7, .none⟩, cmd 0 0x08 [(32, 1, 0)], by decide +kernel, by decide +kernel, by simp only [Runs]; decide +kernel, by decide +kernel⟩,
   ⟨run up (cmd 0 0x08 [(32, 1, 3)]), ⟨0, 7, .none⟩, cmd 0 0x08 [(32, 1, 3)], by decide +kernel, by decide +kernel, by simp only [Runs]; decide +kernel, by decide +kernel⟩,
   ⟨run up (cmd 0 0x0D [(32, 1, 0), (36, 4, 1500000000)]), ⟨0, 7, .none⟩, cmd 0 0x0D [(32, 1, 0), (36, 4, 1500000000)], by decide +kernel, by simp only [Runs]; decide +kernel, by decide +kernel, by simp only [NoRival]; decide +kernel, by decide +kernel⟩,
   ⟨run up (cmd 0 0x0D [(32, 1, 1), (33, 1, 1)]), ⟨0, 7, .none⟩, cmd 0 0x0D [(32, 1, 1), (33, 1, 1)], by decide +kernel, by simp only [Runs]; decide +kernel, by decide +kernel, by simp only [NoRival]; decide +kernel, by decide +kernel⟩,
   ⟨{ at_ 2 with boot := { up.boot with haltWait := true } }, by decide +kernel⟩,
   ⟨at_ 2, by decide +kernel⟩,
   ⟨{ at_ 2 with boot := { up.boot with haltReset := true } }, by decide +kernel⟩,
   ⟨run (withCtx up [ctx 3 .ready 0]) (cmd 0 0x08 [(32, 1, 2)]), ⟨0, 7, .none⟩, cmd 0 0x08 [(32, 1, 2)], by decide +kernel, by decide +kernel, by simp only [Runs]; decide +kernel, by decide +kernel⟩,
   ⟨run (withCtx up [ctx 3 .ready 0]) (cmd 0 0x08 [(32, 1, 2)]), ⟨0, 7, .none⟩, cmd 0 0x08 [(32, 1, 2)], by decide +kernel, by decide +kernel, by simp only [Runs]; decide +kernel, by decide +kernel⟩⟩

theorem witness_WritesFlushesAndDiscards :
    (∃ (s : State) (id : CmdId) (c : Cmd), FlashSorted s ∧ c.due = 0 ∧ roStatus s = 0 ∧ RangeOk s c 65536 ∧ flashRefusal s c.nsid (c.b 32 8 + c.done) (c.b 40 4 - c.done) = none ∧ c.done < c.b 40 4 ∧ let n := c.b 40 4; Alone s c ∧ c.done = 0 ∧ Runs s id c 0x21 [(32, 16)] ∧ c.bufBytes = 4096 * n ∧ c.b 44 4 ≤ 1 ∧ durableLeft s c.no = false)
    ∧ (∃ (s : State) (id : CmdId) (c : Cmd), FlashSorted s ∧ c.due = 0 ∧ roStatus s = 0 ∧ RangeOk s c 65536 ∧ flashRefusal s c.nsid (c.b 32 8 + c.done) (c.b 40 4 - c.done) = none ∧ c.done < c.b 40 4 ∧ let n := c.b 40 4; Alone s c ∧ c.done = 0 ∧ Runs s id c 0xC2 [(32, 96)] ∧ c.bufBytes = 4096 * n ∧ (c.b 44 4).testBit 0 = false ∧ durableLeft s c.no = false)
    ∧ (∃ (s : State) (id : CmdId) (c : Cmd), FlashSorted s ∧ c.due = 0 ∧ roStatus s = 0 ∧ RangeOk s c 65536 ∧ flashRefusal s c.nsid (c.b 32 8 + c.done) (c.b 40 4 - c.done) = none ∧ c.done < c.b 40 4 ∧ cmdById s id = some c ∧ c.opcode = 0x21 ∧ c.phase = .started ∧ findCmd s c.no = some c ∧ ((∀ x ∈ s.dqp.cmds, x.phase = .started → x = c)) ∧ durableLeft s c.no = false)
    ∧ (∃ (s : State) (id : CmdId) (c : Cmd), FlashSorted s ∧ Alone s c ∧ c.due = 0 ∧ ∃ k, k ∈ ([(Instr.flush, 0x22, []), (Instr.rFlush, 0xC3, [(32, 96)])] : List Form) ∧ ∃ j, j ∈ ([(Instr.trim, 0x23, [(32, 12)]), (Instr.rTrim, 0xC4, [(32, 96)])] : List Form) ∧ Runs s id c k.2.1 k.2.2 ∧ durableLeft s c.no = false ∧ ((∀ p ∈ s.flash.slots, luaSpace p.2.lua = c.nsid → p.2.staged ≠ none)))
    ∧ (∃ (s : State) (id : CmdId) (c : Cmd), FlashSorted s ∧ Alone s c ∧ c.due = 0 ∧ ∃ k, k ∈ ([(Instr.flush, 0x22, []), (Instr.rFlush, 0xC3, [(32, 96)])] : List Form) ∧ ∃ j, j ∈ ([(Instr.trim, 0x23, [(32, 12)]), (Instr.rTrim, 0xC4, [(32, 96)])] : List Form) ∧ Runs s id c k.2.1 k.2.2 ∧ (∃ p ∈ s.flash.slots, luaSpace p.2.lua = c.nsid ∧ p.2.staged = none))
    ∧ (∃ (s : State) (id : CmdId) (c : Cmd), FlashSorted s ∧ Alone s c ∧ c.due = 0 ∧ ∃ k, k ∈ ([(Instr.flush, 0x22, []), (Instr.rFlush, 0xC3, [(32, 96)])] : List Form) ∧ ∃ j, j ∈ ([(Instr.trim, 0x23, [(32, 12)]), (Instr.rTrim, 0xC4, [(32, 96)])] : List Form) ∧ ∃ u, Runs s id c j.2.1 j.2.2 ∧ RangeOk s c (2 ^ 32 - 1) ∧ ((partUnits (c.b 32 8) (c.b 40 4) = [] ∨ roStatus s = 0)) ∧ trimRange (markStarted s c.no) c.nsid (c.b 32 8) (c.b 40 4) = some u ∧ trimWaits s id = false)
    ∧ (∃ (s : State) (id : CmdId) (c : Cmd), s.flash.discards = [] ∧ roStatus s = 0 ∧ Runs s id c 0x24 [(32, 13)] ∧ ∃ u, c.b 44 1 = 0 ∧ RangeOk s c (2 ^ 32 - 1) ∧ trimWaits s id = false ∧ trimRange (markStarted s c.no) c.nsid (c.b 32 8) (c.b 40 4) = some u)
    ∧ (∃ (s : State) (id : CmdId) (c : Cmd), s.flash.discards = [] ∧ roStatus s = 0 ∧ Runs s id c 0x24 [(32, 13)] ∧ c.b 44 1 = 1 ∧ c.b 32 8 = 0 ∧ c.b 40 4 = 0) :=
  ⟨⟨run (roomy up) (buf 4096 (cmd 1 0x21 [(40, 4, 1)])), ⟨1, 7, .none⟩, buf 4096 (cmd 1 0x21 [(40, 4, 1)]), by simp only [FlashSorted]; decide +kernel, by decide +kernel, by decide +kernel, by simp only [RangeOk]; decide +kernel, by decide +kernel, by decide +kernel, by simp only [Alone]; decide +kernel, by decide +kernel, by simp only [Runs]; decide +kernel, by decide +kernel⟩,
   ⟨run (roomy up) (buf 8192 (cmd 1 0xC2 [(32, 8, 16777214), (40, 4, 2)])), ⟨1, 7, .none⟩, buf 8192 (cmd 1 0xC2 [(32, 8, 16777214), (40, 4, 2)]), by simp only [FlashSorted]; decide +kernel, by decide +kernel, by decide +kernel, by simp only [RangeOk]; decide +kernel, by decide +kernel, by decide +kernel, by simp only [Alone]; decide +kernel, by decide +kernel, by simp only [Runs]; decide +kernel, by decide +kernel⟩,
   ⟨run (roomy up) { cmd 1 0x21 [(40, 4, 2)] with phase := .started, done := 1 }, ⟨1, 7, .none⟩, { cmd 1 0x21 [(40, 4, 2)] with phase := .started, done := 1 }, by simp only [FlashSorted]; decide +kernel, by decide +kernel, by decide +kernel, by simp only [RangeOk]; decide +kernel, by decide +kernel⟩,
   ⟨run (roomy up) (cmd 1 0x22 []), ⟨1, 7, .none⟩, cmd 1 0x22 [], by simp only [FlashSorted]; decide +kernel, by simp only [Alone]; decide +kernel, by decide +kernel, ((Instr.flush, 0x22, []) : Form), List.mem_cons_self, ((Instr.trim, 0x23, [(32, 12)]) : Form), List.mem_cons_self, by simp only [Runs]; decide +kernel, by decide +kernel⟩,
   ⟨run ({ roomy up with flash := { up.flash with slots := [(0, slot (2 ^ 56))] } }) (cmd 1 0x22 []), ⟨1, 7, .none⟩, cmd 1 0x22 [], by simp only [FlashSorted]; decide +kernel, by simp only [Alone]; decide +kernel, by decide +kernel, ((Instr.flush, 0x22, []) : Form), List.mem_cons_self, ((Instr.trim, 0x23, [(32, 12)]) : Form), List.mem_cons_self, by simp only [Runs]; decide +kernel, by decide +kernel⟩,
   ⟨run (roomy up) (cmd 1 0x23 [(32, 8, 8), (40, 4, 8)]), ⟨1, 7, .none⟩, cmd 1 0x23 [(32, 8, 8), (40, 4, 8)], by simp only [FlashSorted]; decide +kernel, by simp only [Alone]; decide +kernel, by decide +kernel, ((Instr.flush, 0x22, []) : Form), List.mem_cons_self, ((Instr.trim, 0x23, [(32, 12)]) : Form), List.mem_cons_self, (trimRange (markStarted (run (roomy up) (cmd 1 0x23 [(32, 8, 8), (40, 4, 8)])) 1) 1 8 8).getD up, by simp only [Runs]; decide +kernel, by simp only [RangeOk]; decide +kernel, by decide +kernel, rfl, by decide +kernel⟩,
   ⟨run (roomy up) (cmd 1 0x24 [(40, 4, 1)]), ⟨1, 7, .none⟩, cmd 1 0x24 [(40, 4, 1)], by decide +kernel, by decide +kernel, by simp only [Runs]; decide +kernel, ((trimRange (markStarted (run (roomy up) (cmd 1 0x24 [(40, 4, 1)])) 1) 1 0 1).getD up), by decide +kernel, by simp only [RangeOk]; decide +kernel, by decide +kernel⟩,
   ⟨run (roomy up) (cmd 1 0x24 [(44, 1, 1)]), ⟨1, 7, .none⟩, cmd 1 0x24 [(44, 1, 1)], by decide +kernel, by decide +kernel, by simp only [Runs]; decide +kernel, by decide +kernel⟩⟩

theorem witness_ReadsAndRawReads :
    (∃ (s : State) (id : CmdId) (c : Cmd), findCmd s c.no = some c ∧ RangeOk s c 65536 ∧ ∃ k, k ∈ ([(Instr.read, 0x20, [(32, 12)]), (Instr.rRead, 0xC1, [(32, 96)])] : List Form) ∧ let u := readsQueued (markStarted s c.no) c; readsLeft u (.cmd c.no) = true ∧ Runs s id c k.2.1 k.2.2 ∧ c.bufBytes = 4096 * c.b 40 4)
    ∧ (∃ (s : State) (id : CmdId) (c : Cmd), findCmd s c.no = some c ∧ RangeOk s c 65536 ∧ ∃ k, k ∈ ([(Instr.read, 0x20, [(32, 12)]), (Instr.rRead, 0xC1, [(32, 96)])] : List Form) ∧ let u := readsQueued (markStarted s c.no) c; readsLeft u (.cmd c.no) = true ∧ Runs s id c 0x25 [(32, 12)])
    ∧ (∃ (s : State) (id : CmdId) (c : Cmd), findCmd s c.no = some c ∧ RangeOk s c 65536 ∧ ∃ k, k ∈ ([(Instr.read, 0x20, [(32, 12)]), (Instr.rRead, 0xC1, [(32, 96)])] : List Form) ∧ stripeUnits s c.nsid (c.b 32 8) (c.b 40 4) = [] ∧ readsLeft s (.cmd c.no) = false ∧ firstBad s c.nsid (c.b 32 8) (c.b 40 4) = none ∧ Runs s id c k.2.1 k.2.2 ∧ c.bufBytes = 4096 * c.b 40 4)
    ∧ (∃ (s : State) (id : CmdId) (c : Cmd), findCmd s c.no = some c ∧ RangeOk s c 65536 ∧ ∃ k, k ∈ ([(Instr.read, 0x20, [(32, 12)]), (Instr.rRead, 0xC1, [(32, 96)])] : List Form) ∧ stripeUnits s c.nsid (c.b 32 8) (c.b 40 4) = [] ∧ readsLeft s (.cmd c.no) = false ∧ firstBad s c.nsid (c.b 32 8) (c.b 40 4) = none ∧ Runs s id c 0x25 [(32, 12)])
    ∧ (∃ (s : State) (id : CmdId) (c : Cmd), findCmd s c.no = some c ∧ RangeOk s c 65536 ∧ ∃ k, k ∈ ([(Instr.read, 0x20, [(32, 12)]), (Instr.rRead, 0xC1, [(32, 96)])] : List Form) ∧ stripeUnits s c.nsid (c.b 32 8) (c.b 40 4) = [] ∧ readsLeft s (.cmd c.no) = false ∧ ∃ b, firstBad s c.nsid (c.b 32 8) (c.b 40 4) = some b ∧ Runs s id c k.2.1 k.2.2 ∧ c.bufBytes = 4096 * c.b 40 4)
    ∧ (∃ (s : State) (id : CmdId) (c : Cmd), findCmd s c.no = some c ∧ RangeOk s c 65536 ∧ ∃ k, k ∈ ([(Instr.read, 0x20, [(32, 12)]), (Instr.rRead, 0xC1, [(32, 96)])] : List Form) ∧ stripeUnits s c.nsid (c.b 32 8) (c.b 40 4) = [] ∧ readsLeft s (.cmd c.no) = false ∧ ∃ b, firstBad s c.nsid (c.b 32 8) (c.b 40 4) = some b ∧ Runs s id c 0x25 [(32, 12)])
    ∧ (∃ (s : State) (id : CmdId) (c : Cmd), FlashSorted s ∧ Runs s id c 0x26 [(32, 10)] ∧ c.b 40 1 = 0 ∧ rawCond s c 16448 = 0)
    ∧ (∃ (s : State) (id : CmdId) (c : Cmd), FlashSorted s ∧ Runs s id c 0x26 [(32, 10)] ∧ c.b 40 1 = 1 ∧ rawCond s c 18432 = 0)
    ∧ (∃ (s : State) (id : CmdId) (c : Cmd), FlashSorted s ∧ Runs s id c 0x26 [(32, 10)] ∧ c.b 40 1 = 2 ∧ rawCond s c 8 = 0) :=
  ⟨⟨run ({ roomy up with flash := { up.flash with dies := [(0, { reads := [.read ⟨0, 0, 0, 8, 0, 0⟩ 0 (.cmd 1)] })] } }) (buf 4096 (cmd 1 0x20 [(40, 4, 1)])), ⟨1, 7, .none⟩, buf 4096 (cmd 1 0x20 [(40, 4, 1)]), by decide +kernel, by simp only [RangeOk]; decide +kernel, (Instr.read, 0x20, [(32, 12)]), List.mem_cons_self, by decide +kernel, by simp only [Runs]; decide +kernel, by decide +kernel⟩,
   ⟨run ({ roomy up with flash := { up.flash with dies := [(0, { reads := [.read ⟨0, 0, 0, 8, 0, 0⟩ 0 (.cmd 1)] })] } }) (cmd 1 0x25 [(40, 4, 1)]), ⟨1, 7, .none⟩, cmd 1 0x25 [(40, 4, 1)], by decide +kernel, by simp only [RangeOk]; decide +kernel, (Instr.read, 0x20, [(32, 12)]), List.mem_cons_self, by decide +kernel, by simp only [Runs]; decide +kernel⟩,
   ⟨run (roomy up) (buf 4096 (cmd 1 0x20 [(32, 8, 16777215), (40, 4, 1)])), ⟨1, 7, .none⟩, buf 4096 (cmd 1 0x20 [(32, 8, 16777215), (40, 4, 1)]), by decide +kernel, by simp only [RangeOk]; decide +kernel, (Instr.read, 0x20, [(32, 12)]), List.mem_cons_self, by decide +kernel, by decide +kernel, by decide +kernel, by simp only [Runs]; decide +kernel, by decide +kernel⟩,
   ⟨run (roomy up) (cmd 1 0x25 [(32, 8, 16777215), (40, 4, 1)]), ⟨1, 7, .none⟩, cmd 1 0x25 [(32, 8, 16777215), (40, 4, 1)], by decide +kernel, by simp only [RangeOk]; decide +kernel, (Instr.read, 0x20, [(32, 12)]), List.mem_cons_self, by decide +kernel, by decide +kernel, by decide +kernel, by simp only [Runs]; decide +kernel⟩,
   ⟨run ({ roomy up with flash := { up.flash with lostBlocks := [(blockKey 1 5, ())] } }) (buf 8192 (cmd 1 0x20 [(32, 8, 4), (40, 4, 2)])), ⟨1, 7, .none⟩, buf 8192 (cmd 1 0x20 [(32, 8, 4), (40, 4, 2)]), by decide +kernel, by simp only [RangeOk]; decide +kernel, (Instr.read, 0x20, [(32, 12)]), List.mem_cons_self, by decide +kernel, by decide +kernel, 5, by decide +kernel, by simp only [Runs]; decide +kernel, by decide +kernel⟩,
   ⟨run ({ roomy up with flash := { up.flash with lostBlocks := [(blockKey 1 5, ())] } }) (cmd 1 0x25 [(32, 8, 4), (40, 4, 2)]), ⟨1, 7, .none⟩, cmd 1 0x25 [(32, 8, 4), (40, 4, 2)], by decide +kernel, by simp only [RangeOk]; decide +kernel, (Instr.read, 0x20, [(32, 12)]), List.mem_cons_self, by decide +kernel, by decide +kernel, 5, by decide +kernel, by simp only [Runs]; decide +kernel⟩,
   ⟨run (setF (roomy up) 48 F.FCH_CTRL_DIAG_EN 1) (buf 16448 (cmd 1 0x26 [(32, 1, 0), (34, 1, 0), (35, 1, 3), (36, 2, 707), (38, 2, 1535)])), ⟨1, 7, .none⟩, buf 16448 (cmd 1 0x26 [(32, 1, 0), (34, 1, 0), (35, 1, 3), (36, 2, 707), (38, 2, 1535)]), by simp only [FlashSorted]; decide +kernel, by simp only [Runs]; decide +kernel, by decide +kernel⟩,
   ⟨run (setF (roomy up) 48 F.FCH_CTRL_DIAG_EN 1) (buf 18432 (cmd 1 0x26 [(40, 1, 1)])), ⟨1, 7, .none⟩, buf 18432 (cmd 1 0x26 [(40, 1, 1)]), by simp only [FlashSorted]; decide +kernel, by simp only [Runs]; decide +kernel, by decide +kernel⟩,
   ⟨run (setF (roomy up) 48 F.FCH_CTRL_DIAG_EN 1) (buf 8 (cmd 1 0x26 [(40, 1, 2)])), ⟨1, 7, .none⟩, buf 8 (cmd 1 0x26 [(40, 1, 2)]), by simp only [FlashSorted]; decide +kernel, by simp only [Runs]; decide +kernel, by decide +kernel⟩⟩

theorem witness_ObjectsComeAndGo :
    (∃ (s : State) (id : CmdId) (c : Cmd), Runs s id c 0x40 [(32, 9), (44, 12)] ∧ idOk (c.b 32 8) = true ∧ 1 ≤ c.b 44 4 ∧ c.b 44 4 ≤ 4096 ∧ c.b 48 8 ≠ 0 ∧ c.bufBytes = 64 + 16 * c.b 44 4 ∧ hostType (c.b 40 1) = true ∧ idFree s c.nsid (c.b 32 8) = true ∧ (∀ e ∈ regExtents c, e.2.2 = 0 ∧ e.1 + e.2.1 ≤ nsBlocks s c.nsid) ∧ c.b 48 8 ≤ 4096 * ((regExtents c).map (·.2.1)).foldl (· + ·) 0 ∧ s.search.objs.length < 2 ^ 32)
    ∧ (∃ (s : State) (id : CmdId) (c : Cmd), ∃ o, findObj s c.nsid (c.b 32 8) = some o ∧ Runs s id c 0x41 [(32, 10)] ∧ c.bufBytes = 64)
    ∧ (∃ (s : State) (id : CmdId) (c : Cmd), ∃ o, findObj s c.nsid (c.b 32 8) = some o ∧ Runs s id c 0x43 [(32, 8)] ∧ 128 ≤ c.bufBytes ∧ ∃ ext, o.storage = .host ext)
    ∧ (∃ (s : State) (id : CmdId) (c : Cmd) (o : Obj), Runs s id c 0x42 [(32, 8)] ∧ findObj s c.nsid (c.b 32 8) = some o ∧ findCmd s c.no = some c ∧ o.mtype ≠ 8 ∧ o.mtype ≠ 9 ∧ (∀ x ∈ s.sched.ctxs, ¬ (x.nsid = o.nsid ∧ x.curImage = o.id)) ∧ ((needsTomb s o = true → s.search.tombs.length < 262144)) ∧ (∀ f ∈ s.mem.fetches, ¬ (f.nsid = o.nsid ∧ f.obj = o.id)))
    ∧ (∃ (s : State) (id : CmdId) (c : Cmd), ∃ o, findObj s c.nsid (c.b 32 8) = some o ∧ Runs s id c 0x44 [(32, 8)] ∧ ∃ w, (s.mem.windows.find? (fun w => w.nsid == o.nsid && w.obj == o.id) = some w))
    ∧ (∃ (s : State) (id : CmdId) (c : Cmd), ∃ o, findObj s c.nsid (c.b 32 8) = some o ∧ Runs s id c 0x44 [(32, 8)] ∧ (s.mem.windows.find? (fun w => w.nsid == o.nsid && w.obj == o.id) = none) ∧ getF s 57 F.TM_CTRL_MODE = 0 ∧ ∃ a, windowFit s (ceilDiv o.size MiB2) = some a)
    ∧ (∃ (s : State) (id : CmdId) (c : Cmd), ∃ o, findObj s c.nsid (c.b 32 8) = some o ∧ Runs s id c 0x44 [(32, 8)] ∧ (s.mem.windows.find? (fun w => w.nsid == o.nsid && w.obj == o.id) = none) ∧ getF s 57 F.TM_CTRL_MODE = 0 ∧ windowFit s (ceilDiv o.size MiB2) = none)
    ∧ (∃ (s : State) (id : CmdId) (c : Cmd), ∃ w, (s.mem.windows.find? (fun w => w.nsid == c.nsid && w.obj == c.b 32 8) = some w) ∧ Runs s id c 0x45 [(32, 8)] ∧ w.maps ≤ 1)
    ∧ (∃ (s : State) (id : CmdId) (c : Cmd), ∃ w, (s.mem.windows.find? (fun w => w.nsid == c.nsid && w.obj == c.b 32 8) = some w) ∧ Runs s id c 0x45 [(32, 8)] ∧ 1 < w.maps) :=
  ⟨⟨run (roomy up) (buf 80 { (cmd 1 0x40 [(32, 8, 5), (40, 1, 6), (44, 4, 1), (48, 8, 4096)]) with data := List.replicate 64 0 ++ toBytes 8 16777215 ++ toBytes 4 1 ++ [0, 0, 0, 0] }), ⟨1, 7, .none⟩, buf 80 { (cmd 1 0x40 [(32, 8, 5), (40, 1, 6), (44, 4, 1), (48, 8, 4096)]) with data := List.replicate 64 0 ++ toBytes 8 16777215 ++ toBytes 4 1 ++ [0, 0, 0, 0] }, by simp only [Runs]; decide +kernel, by decide +kernel⟩,
   ⟨run (withObjs (roomy up) [obj 5 6 65536]) (buf 64 (cmd 1 0x41 [(32, 8, 5)])), ⟨1, 7, .none⟩, buf 64 (cmd 1 0x41 [(32, 8, 5)]), obj 5 6 65536, by decide +kernel, by simp only [Runs]; decide +kernel, by decide +kernel⟩,
   ⟨run (withObjs (roomy up) [obj 5 6 65536]) (buf 128 (cmd 1 0x43 [(32, 8, 5)])), ⟨1, 7, .none⟩, buf 128 (cmd 1 0x43 [(32, 8, 5)]), obj 5 6 65536, by decide +kernel, by simp only [Runs]; decide +kernel, by decide +kernel, [(0, 1024)], by decide +kernel⟩,
   ⟨run (withObjs (roomy up) [obj 5 6 65536]) (cmd 1 0x42 [(32, 8, 5)]), ⟨1, 7, .none⟩, cmd 1 0x42 [(32, 8, 5)], obj 5 6 65536, by simp only [Runs]; decide +kernel, by decide +kernel⟩,
   ⟨run ({ withObjs (roomy up) [obj 5 6 65536] with mem := { up.mem with windows := [(⟨1, 5, 0, 1, 1, false⟩ : WinMap)] } }) (cmd 1 0x44 [(32, 8, 5)]), ⟨1, 7, .none⟩, cmd 1 0x44 [(32, 8, 5)], obj 5 6 65536, by decide +kernel, by simp only [Runs]; decide +kernel, (⟨1, 5, 0, 1, 1, false⟩ : WinMap), by decide +kernel⟩,
   ⟨run (withObjs (setF (roomy up) 57 F.TM_CTRL_MODE 0) [obj 5 6 65536]) (cmd 1 0x44 [(32, 8, 5)]), ⟨1, 7, .none⟩, cmd 1 0x44 [(32, 8, 5)], obj 5 6 65536, by decide +kernel, by simp only [Runs]; decide +kernel, by decide +kernel, by decide +kernel, 0, by decide +kernel⟩,
   ⟨run ({ withObjs (setF (roomy up) 57 F.TM_CTRL_MODE 0) [obj 5 6 65536] with mem := { up.mem with windows := [⟨1, 6, 0, 268435456, 1, false⟩] } }) (cmd 1 0x44 [(32, 8, 5)]), ⟨1, 7, .none⟩, cmd 1 0x44 [(32, 8, 5)], obj 5 6 65536, by decide +kernel, by simp only [Runs]; decide +kernel, by decide +kernel⟩,
   ⟨run ({ withObjs (roomy up) [obj 5 6 65536] with mem := { up.mem with windows := [(⟨1, 5, 0, 1, 1, false⟩ : WinMap)] } }) (cmd 1 0x45 [(32, 8, 5)]), ⟨1, 7, .none⟩, cmd 1 0x45 [(32, 8, 5)], (⟨1, 5, 0, 1, 1, false⟩ : WinMap), by decide +kernel, by simp only [Runs]; decide +kernel, by decide +kernel⟩,
   ⟨run ({ withObjs (roomy up) [obj 5 6 65536] with mem := { up.mem with windows := [(⟨1, 5, 0, 1, 65535, false⟩ : WinMap)] } }) (cmd 1 0x45 [(32, 8, 5)]), ⟨1, 7, .none⟩, cmd 1 0x45 [(32, 8, 5)], (⟨1, 5, 0, 1, 65535, false⟩ : WinMap), by decide +kernel, by simp only [Runs]; decide +kernel, by decide +kernel⟩⟩

theorem witness_TierCommandsAndFetches :
    (∃ (s : State) (id : CmdId) (c : Cmd) (o : Obj), findObj s c.nsid (c.b 32 8) = some o ∧ tierFree s c = true ∧ let r := (tierRange o (c.b 40 8) (c.b 48 8)).1; Runs s id c 0xA0 [(32, 27)] ∧ (∀ x ∈ tierConds s c ++ dieConds s (c.b 57 1), x = 0) ∧ c.b 56 1 = 2 ∧ c.b 58 1 = 0 ∧ ((∀ i ∈ r, ∀ p, findPage s o.nsid o.id i = some p → p.pins = 0)))
    ∧ (∃ (s : State) (id : CmdId) (c : Cmd) (o : Obj), findObj s c.nsid (c.b 32 8) = some o ∧ tierFree s c = true ∧ let r := (tierRange o (c.b 40 8) (c.b 48 8)).1; Runs s id c 0xA2 [(32, 24)] ∧ (∀ x ∈ tierConds s c, x = 0) ∧ ((∀ i ∈ r, ∃ p, findPage s o.nsid o.id i = some p ∧ 1 ≤ p.pins ∧ (isShadow s o = true → p.pins ≠ 1))))
    ∧ (∃ (s : State) (id : CmdId) (c : Cmd) (o : Obj), findObj s c.nsid (c.b 32 8) = some o ∧ tierFree s c = true ∧ Runs s id c 163 [(32, 12)] ∧ (∀ x ∈ dieConds s (c.b 42 1), x = 0) ∧ (c.b 40 1 = 1 ∨ c.b 40 1 = 2) ∧ c.b 41 1 ≤ 2 ∧ c.b 43 1 ≤ 1 ∧ o.grain = c.b 41 1)
    ∧ (∃ (s : State) (id : CmdId) (c : Cmd) (o : Obj), findObj s c.nsid (c.b 32 8) = some o ∧ tierFree s c = true ∧ Runs s id c 0xA4 [(32, 9), (48, 8)] ∧ c.b 40 1 ≤ 3 ∧ ((c.b 40 1 = 1 → o.mtype = 6 ∧ ∃ h, findObj s c.nsid (c.b 48 8) = some h ∧ heldWhole s h = true ∧ h.pathKind = 0)) ∧ ((c.b 40 1 = 2 → o.mtype = 8)) ∧ ((c.b 40 1 = 3 → o.mtype = 7)))
    ∧ (∃ (s : State) (id : CmdId) (c : Cmd), Runs s id c 0xA5 [] ∧ c.isList = false ∧ c.bufBytes = 32)
    ∧ (∃ (s : State) (id : CmdId) (c : Cmd) (o : Obj), findObj s c.nsid (c.b 32 8) = some o ∧ tierFree s c = true ∧ o.quarantined = false ∧ Runs s id c 0xA0 [(32, 27)] ∧ (∀ x ∈ tierConds s c ++ dieConds s (c.b 57 1), x = 0) ∧ c.b 56 1 = 1 ∧ c.b 58 1 ≤ 1)
    ∧ (∃ (s : State) (id : CmdId) (c : Cmd) (o : Obj), findObj s c.nsid (c.b 32 8) = some o ∧ tierFree s c = true ∧ o.quarantined = false ∧ Runs s id c 0xA1 [(32, 24)] ∧ (∀ x ∈ tierConds s c, x = 0))
    ∧ (∃ (s : State) (o : Obj) (p : Page) (idx : Nat) (outs : List PageRead), findPage s o.nsid o.id idx = some p ∧ findObj s o.nsid o.id = some o ∧ p.resident = false ∧ p.asleep = false ∧ p.again = false ∧ p.lost = 0 ∧ selfRefresh s = false ∧ let n : Nat := min (pageBytes o) (o.size - idx * pageBytes o); let bad : List Nat := lostIn (noteRo (unitReads s (unitsIn o (idx * pageBytes o) n) outs)) o (idx * pageBytes o) n; bad = [])
    ∧ (∃ (s : State)  (c : Cmd) (o : Obj), ∃ f, findFetch s f.id = some f ∧ findObj s f.nsid f.obj = some o ∧ (∀ i ∈ f.pages, pageResident s f.nsid f.obj i = true) ∧ f.issuer = .cmd c.no ∧ f.spilled = false)
    ∧ (∃ (s : State)  (c : Cmd) (o : Obj), ∃ f i, findFetch s f.id = some f ∧ findObj s f.nsid f.obj = some o ∧ i ∈ f.pages ∧ pageResident s f.nsid f.obj i = false ∧ f.issuer = .cmd c.no ∧ f.deadline ≠ 0 ∧ f.expired = false ∧ getF s 57 F.CNT_CTRL_EN = 0 ∧ State.wf s = true ∧ getF s 57 F.TM_DEADLINE_MISS_COUNT < 2 ^ F.TM_DEADLINE_MISS_COUNT.w - 1)
    ∧ (∃ (s : State) (id : CmdId) (c : Cmd) (o : Obj), findObj s c.nsid (c.b 32 8) = some o ∧ tierFree s c = true ∧ Runs s id c 163 [(32, 12)] ∧ (∀ x ∈ dieConds s (c.b 42 1), x = 0) ∧ (c.b 40 1 = 1 ∨ c.b 40 1 = 2) ∧ c.b 41 1 ≤ 2 ∧ c.b 43 1 ≤ 1 ∧ o.grain ≠ c.b 41 1 ∧ (∀ p ∈ s.mem.pages, p.nsid = o.nsid → p.obj = o.id → p.resident = false ∧ p.pins = 0))
    ∧ (∃ (s : State) (o : Obj) (p : Page) (idx : Nat) (outs : List PageRead), findPage s o.nsid o.id idx = some p ∧ findObj s o.nsid o.id = some o ∧ p.resident = false ∧ p.asleep = false ∧ p.again = false ∧ p.lost = 0 ∧ selfRefresh s = false ∧ let n : Nat := min (pageBytes o) (o.size - idx * pageBytes o); let bad : List Nat := lostIn (noteRo (unitReads s (unitsIn o (idx * pageBytes o) n) outs)) o (idx * pageBytes o) n; bad ≠ [] ∧ o.quarantined = false ∧ (∀ f ∈ s.mem.fetches, ¬(f.nsid = o.nsid ∧ f.obj = o.id))) :=
  ⟨⟨run ({ withObjs (roomy up) [obj 5 6 65536] with mem := { up.mem with pages := [page true 0], frames := [(65536, ⟨0, 1, false⟩)] } }) (cmd 1 0xA0 [(32, 8, 5), (56, 1, 2), (57, 1, 255)]), ⟨1, 7, .none⟩, cmd 1 0xA0 [(32, 8, 5), (56, 1, 2), (57, 1, 255)], obj 5 6 65536, by decide +kernel, by decide +kernel, by simp only [Runs]; decide +kernel, by decide +kernel⟩,
   ⟨run ({ withObjs (roomy up) [obj 5 6 65536] with mem := { up.mem with pages := [page true 255], frames := [(65536, ⟨0, 1, false⟩)] } }) (cmd 1 0xA2 [(32, 8, 5)]), ⟨1, 7, .none⟩, cmd 1 0xA2 [(32, 8, 5)], obj 5 6 65536, by decide +kernel, by decide +kernel, by simp only [Runs]; decide +kernel, by decide +kernel⟩,
   ⟨run (withObjs (roomy up) [obj 5 6 65536]) (cmd 1 0xA3 [(32, 8, 5), (40, 1, 2), (41, 1, 1), (42, 1, 3), (43, 1, 1)]), ⟨1, 7, .none⟩, cmd 1 0xA3 [(32, 8, 5), (40, 1, 2), (41, 1, 1), (42, 1, 3), (43, 1, 1)], obj 5 6 65536, by decide +kernel, by decide +kernel, by simp only [Runs]; decide +kernel, by decide +kernel⟩,
   ⟨run (withObjs (roomy up) [obj 5 7 65536]) (cmd 1 0xA4 [(32, 8, 5), (40, 1, 3)]), ⟨1, 7, .none⟩, cmd 1 0xA4 [(32, 8, 5), (40, 1, 3)], obj 5 7 65536, by decide +kernel, by decide +kernel, by simp only [Runs]; decide +kernel, by decide +kernel, by decide, by decide, by decide⟩,
   ⟨run (withObjs (roomy up) [obj 5 6 65536]) (buf 32 (cmd 1 0xA5 [])), ⟨1, 7, .none⟩, buf 32 (cmd 1 0xA5 []), by simp only [Runs]; decide +kernel, by decide +kernel⟩,
   ⟨run (withObjs (roomy up) [obj 5 6 65536]) (cmd 1 0xA0 [(32, 8, 5), (56, 1, 1), (57, 1, 255), (58, 1, 1)]), ⟨1, 7, .none⟩, cmd 1 0xA0 [(32, 8, 5), (56, 1, 1), (57, 1, 255), (58, 1, 1)], obj 5 6 65536, by decide +kernel, by decide +kernel, by decide +kernel, by simp only [Runs]; decide +kernel, by decide +kernel⟩,
   ⟨run (withObjs (roomy up) [obj 5 6 65536]) (cmd 1 0xA1 [(32, 8, 5)]), ⟨1, 7, .none⟩, cmd 1 0xA1 [(32, 8, 5)], obj 5 6 65536, by decide +kernel, by decide +kernel, by decide +kernel, by simp only [Runs]; decide +kernel, by decide +kernel⟩,
   ⟨{ withObjs (roomy up) [obj 5 6 65536] with mem := { up.mem with pages := [page false 0], frames := [(65536, ⟨0, 1, false⟩)] } }, obj 5 6 65536, page false 0, 0, [], by decide +kernel⟩,
   ⟨run ({ withObjs (roomy up) [obj 5 6 65536] with mem := { ({ withObjs (roomy up) [obj 5 6 65536] with mem := { up.mem with pages := [page true 0], frames := [(65536, ⟨0, 1, false⟩)] } }).mem with fetches := [(⟨3, 1, 5, [0], 0, 0, 0, .cmd 1, false, false, false, 64, 0, 65536⟩ : Fetch)] } }) (cmd 1 0xA0 [(32, 8, 5)]), cmd 1 0xA0 [(32, 8, 5)], obj 5 6 65536, (⟨3, 1, 5, [0], 0, 0, 0, .cmd 1, false, false, false, 64, 0, 65536⟩ : Fetch), by decide +kernel⟩,
   ⟨run ({ withObjs (roomy up) [obj 5 6 65536] with mem := { ({ withObjs (roomy up) [obj 5 6 65536] with mem := { up.mem with pages := [page false 0], frames := [(65536, ⟨0, 1, false⟩)] } }).mem with fetches := [(⟨3, 1, 5, [0], 0, 0, 1, .cmd 1, false, false, false, 64, 0, 65536⟩ : Fetch)] } }) (cmd 1 0xA0 [(32, 8, 5)]), cmd 1 0xA0 [(32, 8, 5)], obj 5 6 65536, (⟨3, 1, 5, [0], 0, 0, 1, .cmd 1, false, false, false, 64, 0, 65536⟩ : Fetch), 0, by decide +kernel⟩,
   ⟨run ({ withObjs (roomy up) [obj 5 6 65536] with mem := { up.mem with pages := [page false 0], frames := [(65536, ⟨0, 1, false⟩)] } }) (cmd 1 0xA3 [(32, 8, 5), (40, 1, 2), (41, 1, 2), (42, 1, 3), (43, 1, 1)]), ⟨1, 7, .none⟩, (cmd 1 0xA3 [(32, 8, 5), (40, 1, 2), (41, 1, 2), (42, 1, 3), (43, 1, 1)]), obj 5 6 65536, by decide +kernel, by decide +kernel, by simp only [Runs]; decide +kernel, by decide +kernel⟩,
   ⟨{ { withObjs (roomy up) [obj 5 6 65536] with mem := { up.mem with pages := [page false 0], frames := [(65536, ⟨0, 1, false⟩)] } } with flash := { up.flash with lostBlocks := [(blockKey 1 3, ())] } }, obj 5 6 65536, page false 0, 0, [], by decide +kernel⟩⟩

theorem witness_StacksDrainJoinAndFault :
    (∃ (s : State) (k : Nat), State.wf s = true ∧ k < 16 ∧ ∃ m key ext, stkState s k = 1 ∧ roomiest s (otherStacks s k) = some m ∧ ((heldExts s k).find? (fun p => p.2 == ext) = some (key, ext)))
    ∧ (∃ (s : State) (k : Nat), State.wf s = true ∧ k < 16 ∧ stkState s k = 1 ∧ heldExts s k = [] ∧ heldFrames s k = [])
    ∧ (∃ (s : State) (k : Nat), State.wf s = true ∧ k < 16 ∧ stkState s k = 1 ∧ ((heldExts s k ≠ [] ∨ heldFrames s k ≠ [])))
    ∧ (∃ (s : State) (k : Nat), State.wf s = true ∧ k < 16 ∧ stkState s k = 4 ∧ getF s (32 + k) F.STK_STATE_JOIN_STEP = 0)
    ∧ (∃ (s : State) (k : Nat), State.wf s = true ∧ k < 16 ∧ ∃ (a : Nat), enabled s (32 + k) = true ∧ getF s (32 + k) F.CNT_CTRL_EN = 0 ∧ stackOfAddr s a = some k ∧ storedAt s a = true ∧ getF s (32 + k) F.PROT_CE_COUNT_COUNT < 2 ^ F.PROT_CE_COUNT_COUNT.w - 1) :=
  ⟨⟨{ setF up 33 F.STK_STATE_STATE 1 with mem := { up.mem with exts := [(65536, ⟨some (1, 9), false, false⟩)] } }, 1, by decide +kernel, by decide +kernel, 0, 65536, 9, by decide +kernel⟩,
   ⟨setF up 47 F.STK_STATE_STATE 1, 15, by decide +kernel⟩,
   ⟨{ setF up 33 F.STK_STATE_STATE 1 with mem := { up.mem with exts := [(65536, ⟨some (1, 9), false, false⟩)] } }, 1, by decide +kernel⟩,
   ⟨setF up 33 F.STK_STATE_STATE 4, 1, by decide +kernel⟩,
   ⟨{ up with mem := { up.mem with exts := [(0, ⟨some (0, 9), false, false⟩)], valid := [(0, 0x1000)] } }, 0, by decide +kernel, by decide +kernel, 0, by decide +kernel⟩⟩

theorem witness_StacksDrainJoinAndFaultMore :
    (∃ (s : State) (k : Nat), State.wf s = true ∧ k < 16 ∧ ∃ n, stkState s k = 4 ∧ getF s (32 + k) F.STK_STATE_JOIN_STEP = n ∧ 1 ≤ n)
    ∧ (∃ (s : State) (k : Nat), State.wf s = true ∧ k < 16 ∧ enabled s (32 + k) = true ∧ getF s (32 + k) F.CNT_CTRL_EN = 0)
    ∧ (∃ (s : State) (k : Nat), State.wf s = true ∧ k < 16 ∧ ∃ (m : Nat) (ext : Nat) (fr : FrameExt), stkState s k = 1 ∧ roomiest s (otherStacks s k) = some m ∧ (List.find? (fun p => p.2 == ext) (heldExts s k) = none) ∧ mfind s.mem.frames (k * 65536 + ext) = some fr)
    ∧ (∃ (s : State) (k : Nat), State.wf s = true ∧ k < 16 ∧ enabled s (32 + k) = true ∧ stkState s k ≠ 2 ∧ stkState s k ≠ 3 ∧ mSorted none s.mem.exts = true) :=
  ⟨⟨setF (setF up 33 F.STK_STATE_STATE 4) 33 F.STK_STATE_JOIN_STEP 7, 1, by decide +kernel, by decide +kernel, 7, by decide +kernel⟩,
   ⟨up, 15, by decide +kernel⟩,
   ⟨{ setF up 33 F.STK_STATE_STATE 1 with mem := { up.mem with frames := [(65545, ⟨0, 1, false⟩)] } }, 1, by decide +kernel, by decide +kernel, 0, 9, ⟨0, 1, false⟩, by decide +kernel⟩,
   ⟨up, 15, by decide +kernel⟩⟩

theorem witness_ContextsAndLaunches :
    (∃ (s : State) (id : CmdId) (c : Cmd), Runs s id c 0x60 [(32, 56)] ∧ (∀ x ∈ createConds s c, x = 0) ∧ let slot := if c.b 8 4 = 0xFFFFFFFF then ((List.range 1024).find? (fun i => (findCtx s i).isNone)).getD 0 else c.b 8 4; let area := allocArea (markStarted s c.no) (.arena (domOf c.nsid) slot) false (pickDie s (c.b 44 1)) (arenaOf c / MiB2); ∃ u a, area = (u, .ok a))
    ∧ (∃ (s : State) (id : CmdId) (c : Cmd), Runs s id c 0x60 [(32, 56)] ∧ (∀ x ∈ createConds s c, x = 0) ∧ let slot := if c.b 8 4 = 0xFFFFFFFF then ((List.range 1024).find? (fun i => (findCtx s i).isNone)).getD 0 else c.b 8 4; let area := allocArea (markStarted s c.no) (.arena (domOf c.nsid) slot) false (pickDie s (c.b 44 1)) (arenaOf c / MiB2); ∃ u e, area = (u, .error e))
    ∧ (∃ (s : State) (id : CmdId) (c : Cmd), ∃ x, cmdCtx s c = some x ∧ Runs s id c 0x61 [] ∧ x.destroy = 0 ∧ c.no ≠ 0 ∧ ((x.kind = 2 → ∀ y ∈ s.sched.ctxs, ¬ (y.kind = 1 ∧ y.leader = x.slot))) ∧ ((x.kind = 1 → listed s x.slot = false)) ∧ unitsBusy s x.slot = true)
    ∧ (∃ (s : State) (id : CmdId) (c : Cmd), ∃ x, cmdCtx s c = some x ∧ Runs s id c 0x61 [] ∧ x.destroy = 0 ∧ c.no ≠ 0 ∧ ((x.kind = 2 → ∀ y ∈ s.sched.ctxs, ¬ (y.kind = 1 ∧ y.leader = x.slot))) ∧ ((x.kind = 1 → listed s x.slot = false)) ∧ unitsBusy s x.slot = false ∧ (∀ l ∈ x.launches, l.why = 0 ∧ l.ops = 0))
    ∧ (∃ (s : State) (id : CmdId) (c : Cmd) (x : Ctx), cmdCtx s c = some x ∧ Runs s id c 0x62 [(32, 14), (48, 26)] ∧ (∀ e ∈ launchConds s c, e = 0) ∧ x.kind ≠ 2)
    ∧ (∃ (s : State) (id : CmdId) (c : Cmd) (x : Ctx), cmdCtx s c = some x ∧ Runs s id c 0x62 [(32, 14), (48, 26)] ∧ (∀ e ∈ launchConds s c, e = 0) ∧ x.kind = 2)
    ∧ (∃ (s : State) (id : CmdId) (c : Cmd) (x : Ctx), cmdCtx s c = some x ∧ Runs s id c 0x63 [(32, 2)] ∧ c.b 32 1 ≤ 15 ∧ c.b 33 1 ≤ 1)
    ∧ (∃ (s : State) (id : CmdId) (c : Cmd) (x : Ctx), cmdCtx s c = some x ∧ Runs s id c 0x66 [] ∧ c.isList = false ∧ c.bufBytes = 64) :=
  ⟨⟨run (roomy up) (cmd 1 0x60 [(8, 4, 0xFFFFFFFF), (35, 1, 32), (36, 4, 1), (40, 2, 0xFFFF), (46, 2, 0xFFFF), (43, 1, 24), (48, 8, 2 ^ 21)]), ⟨1, 7, .none⟩, cmd 1 0x60 [(8, 4, 0xFFFFFFFF), (35, 1, 32), (36, 4, 1), (40, 2, 0xFFFF), (46, 2, 0xFFFF), (43, 1, 24), (48, 8, 2 ^ 21)], by simp only [Runs]; decide +kernel, by decide +kernel, (allocArea (markStarted (run (roomy up) (cmd 1 0x60 [(8, 4, 0xFFFFFFFF), (35, 1, 32), (36, 4, 1), (40, 2, 0xFFFF), (46, 2, 0xFFFF), (43, 1, 24), (48, 8, 2 ^ 21)])) 1) (.arena 0 0) false (pickDie (run (roomy up) (cmd 1 0x60 [(8, 4, 0xFFFFFFFF), (35, 1, 32), (36, 4, 1), (40, 2, 0xFFFF), (46, 2, 0xFFFF), (43, 1, 24), (48, 8, 2 ^ 21)])) 0) 1).1, 0, by decide +kernel⟩,
   ⟨run (roomy up) (cmd 1 0x60 [(8, 4, 1023), (35, 1, 1), (36, 4, 1), (40, 2, 0xFFFF), (46, 2, 0xFFFF), (43, 1, 1), (48, 8, 2 ^ 40)]), ⟨1, 7, .none⟩, cmd 1 0x60 [(8, 4, 1023), (35, 1, 1), (36, 4, 1), (40, 2, 0xFFFF), (46, 2, 0xFFFF), (43, 1, 1), (48, 8, 2 ^ 40)], by simp only [Runs]; decide +kernel, by decide +kernel, (allocArea (markStarted (run (roomy up) (cmd 1 0x60 [(8, 4, 1023), (35, 1, 1), (36, 4, 1), (40, 2, 0xFFFF), (46, 2, 0xFFFF), (43, 1, 1), (48, 8, 2 ^ 40)])) 1) (.arena 0 1023) false (pickDie (run (roomy up) (cmd 1 0x60 [(8, 4, 1023), (35, 1, 1), (36, 4, 1), (40, 2, 0xFFFF), (46, 2, 0xFFFF), (43, 1, 1), (48, 8, 2 ^ 40)])) 0) (2 ^ 19)).1, 0, by decide +kernel⟩,
   ⟨run ({ withCtx (roomy up) [ctx 3 .idle 0] with tiles := [(0, { queue := [tpass] })] }) (cmd 1 0x61 [(8, 4, 3)]), ⟨1, 7, .none⟩, cmd 1 0x61 [(8, 4, 3)], ctx 3 .idle 0, by decide +kernel, by simp only [Runs]; decide +kernel, by decide +kernel⟩,
   ⟨run (withCtx (roomy up) [ctx 3 .idle 0]) (cmd 1 0x61 [(8, 4, 3)]), ⟨1, 7, .none⟩, cmd 1 0x61 [(8, 4, 3)], ctx 3 .idle 0, by decide +kernel, by simp only [Runs]; decide +kernel, by decide +kernel⟩,
   ⟨run ({ withCtx (roomy up) [ctx 3 .idle 0] with mem := { up.mem with tags := [(0, .arena 0 3)] } }) (cmd 1 0x62 [(8, 4, 3), (40, 4, 1), (44, 1, 1), (45, 1, 2)]), ⟨1, 7, .none⟩, cmd 1 0x62 [(8, 4, 3), (40, 4, 1), (44, 1, 1), (45, 1, 2)], ctx 3 .idle 0, by decide +kernel, by simp only [Runs]; decide +kernel, by decide +kernel⟩,
   ⟨run ({ withCtx (roomy up) [ctx 3 .idle 2, { ctx 4 .state 1 with leader := 3 }] with mem := { up.mem with tags := [(0, .arena 0 3)] } }) (buf 48 { (cmd 1 0x62 [(8, 4, 3), (32, 8, 0x1000), (40, 4, 1), (44, 1, 1), (45, 1, 2), (56, 8, 0x8000)]) with data := toBytes 2 1 ++ List.replicate 14 0 ++ (toBytes 2 4 ++ [0, 0] ++ toBytes 4 1 ++ List.replicate 24 0) }), ⟨1, 7, .none⟩, buf 48 { (cmd 1 0x62 [(8, 4, 3), (32, 8, 0x1000), (40, 4, 1), (44, 1, 1), (45, 1, 2), (56, 8, 0x8000)]) with data := toBytes 2 1 ++ List.replicate 14 0 ++ (toBytes 2 4 ++ [0, 0] ++ toBytes 4 1 ++ List.replicate 24 0) }, ctx 3 .idle 2, by decide +kernel, by simp only [Runs]; decide +kernel, by decide +kernel⟩,
   ⟨run (withCtx (roomy up) [ctx 3 .idle 0]) (cmd 1 0x63 [(8, 4, 3), (32, 1, 15), (33, 1, 1)]), ⟨1, 7, .none⟩, cmd 1 0x63 [(8, 4, 3), (32, 1, 15), (33, 1, 1)], ctx 3 .idle 0, by decide +kernel, by simp only [Runs]; decide +kernel, by decide +kernel⟩,
   ⟨run (withCtx (roomy up) [ctx 3 .idle 0]) (buf 64 (cmd 1 0x66 [(8, 4, 3)])), ⟨1, 7, .none⟩, buf 64 (cmd 1 0x66 [(8, 4, 3)]), ctx 3 .idle 0, by decide +kernel, by simp only [Runs]; decide +kernel, by decide +kernel⟩⟩

set_option maxRecDepth 4000 in
theorem witness_ImagesAreSavedAndLoaded :
    (∃ (s : State) (x : Ctx), findCtx s x.slot = some x ∧ (x.imgOp = 1 ∨ x.imgOp = 3) ∧ onMedia s x.newImage = true) :=
  ⟨run (withCtx (roomy up) [{ ctx 3 .imaging 1 with imgOp := 1 }]) (cmd 1 0x64 [(8, 4, 3)]), { ctx 3 .imaging 1 with imgOp := 1 }, by decide +kernel⟩

theorem witness_TurnsFollowTheTable :
    (∃ (s : State), State.wf s = true ∧ getF s 57 F.CNT_CTRL_EN = 0 ∧ ∃ n, working s = true ∧ getA s 57 F.SCHED_TURN_CNT_COUNT = n ∧ 0 < n ∧ n ≤ 256 ∧ turnPending s = false)
    ∧ (∃ (s : State), State.wf s = true ∧ getF s 57 F.CNT_CTRL_EN = 0 ∧ working s = true ∧ s.sched.leads < (comingTurns s).length)
    ∧ (∃ (s : State), State.wf s = true ∧ getF s 57 F.CNT_CTRL_EN = 0 ∧ ∃ reach m g, reach < 32 ∧ s.sched.turnSignals.testBit reach = true ∧ currentTurn s = some (m, g) ∧ 0 < m ∧ g < 65536 ∧ mSorted none s.sched.turnHeld = true) :=
  ⟨⟨setA up 57 F.SCHED_TURN_CNT_COUNT 256, by decide +kernel, by decide +kernel, 256, by decide +kernel⟩,
   ⟨setA up 57 F.SCHED_TURN_CNT_COUNT 256, by decide +kernel⟩,
   ⟨{ setA (setA up 57 F.SCHED_TURN_CNT_COUNT 256) 57 F.SCHED_TURN_MASK_REACH_MASK (2 ^ 31) 0 with sched := { up.sched with turnSignals := 2 ^ 31 } }, by decide +kernel, by decide +kernel, 31, 2 ^ 31, 0, by decide +kernel⟩⟩

theorem witness_ContextsEnterLeaveAndRun :
    (∃ (s : State) (x : Ctx), State.wf s = true ∧ findCtx s x.slot = some x ∧ getF s 57 F.CNT_CTRL_EN = 0 ∧ ∃ q l, s.sched.owed = q :: l ∧ (∀ y ∈ s.sched.ctxs, y.st ≠ .resident) ∧ candidates s = [x] ∧ needOf s x = [] ∧ entriesAllowed s = true ∧ domOf x.nsid < 64 ∧ x.scratchCharge + getF s 57 F.HG_SCRATCH_USED_MIB (domOf x.nsid) ≤ getA s 57 F.HG_SCRATCH_LIM_MIB (domOf x.nsid))
    ∧ (∃ (s : State) (x : Ctx), State.wf s = true ∧ findCtx s x.slot = some x ∧ getF s 57 F.CNT_CTRL_EN = 0 ∧ working s = true)
    ∧ (∃ (s : State) (x : Ctx), State.wf s = true ∧ findCtx s x.slot = some x ∧ getF s 57 F.CNT_CTRL_EN = 0 ∧ x.st = .leaving ∧ x.destroy = 0 ∧ x.saving = false ∧ unitsBusy s x.slot = false ∧ mSorted none s.runnels.saved = true)
    ∧ (∃ (s : State) (x : Ctx), State.wf s = true ∧ findCtx s x.slot = some x ∧ getF s 57 F.CNT_CTRL_EN = 0 ∧ x.st = .leaving ∧ x.saving = true)
    ∧ (∃ (s : State) (x : Ctx), State.wf s = true ∧ findCtx s x.slot = some x ∧ getF s 57 F.CNT_CTRL_EN = 0 ∧ x.st = .entering ∧ mSorted none s.runnels.saved = true ∧ (∀ (p n : Nat) (b : Bool) (e : Option Nat), s.dqp.pwr ≠ PwrMove.entering 2 p n b e))
    ∧ (∃ (s : State) (x : Ctx) (l : Launch), State.wf s = true ∧ findCtx s x.slot = some x ∧ ∃ reach runnel slot i, x.st = .resident ∧ reachLive s reach = true ∧ runnel < 4 ∧ slot < 32 ∧ x.ownsSlot slot = true ∧ x.reaches.testBit reach = true ∧ getRill s (rillKey reach runnel slot) = none ∧ turnHolds s reach x = false ∧ x.destroy = 0 ∧ (x.launches.find? (fun l => l.toStart.any (fun i => i / 32 == reach * 4 + runnel)) = some l) ∧ l.ready = true ∧ (l.toStart.find? (fun i => i / 32 == reach * 4 + runnel) = some i) ∧ l.arg < 2 ^ 64)
    ∧ (∃ (s : State) (x : Ctx) (l : Launch), State.wf s = true ∧ findCtx s x.slot = some x ∧ findLaunch s x.slot l.id = some l ∧ l.why = 0 ∧ l.ready = true ∧ l.toStart = [] ∧ l.running = 0 ∧ l.ops = 0 ∧ (∀ q ∈ s.search.queries, q.ctx = x.slot → q.phase ≠ QPhase.rerankWait))
    ∧ (∃ (s : State) (x : Ctx) (l : Launch), State.wf s = true ∧ findCtx s x.slot = some x ∧ findLaunch s x.slot l.id = some l ∧ l.ready = false ∧ (∀ m ∈ l.members, m.2.2.2.2.2 = true ∨ findCtx s m.1 = none ∨ ∃ y, findCtx s m.1 = some y ∧ y.st = .state ∧ takenEarlier s x.slot l.id m.1 = false))
    ∧ (∃ (s : State) (x : Ctx) (l : Launch), State.wf s = true ∧ findCtx s x.slot = some x ∧ findLaunch s x.slot l.id = some l ∧ l.ready = false ∧ (∀ m ∈ l.members, m.2.2.2.2.2 = true) ∧ extPoisoned s l.argDest l.buffer.length = false) :=
  ⟨⟨{ roomy up with sched := { up.sched with ctxs := [{ ctx 3 .ready 0 with launches := [launch] }], owed := [false] } }, { ctx 3 .ready 0 with launches := [launch] }, by decide +kernel, by decide +kernel, by decide +kernel, false, [], by decide +kernel⟩,
   ⟨withCtx (roomy up) [ctx 3 .idle 0], ctx 3 .idle 0, by decide +kernel⟩,
   ⟨withCtx (roomy up) [ctx 3 .leaving 0], ctx 3 .leaving 0, by decide +kernel⟩,
   ⟨withCtx (roomy up) [{ ctx 3 .leaving 0 with saving := true }], { ctx 3 .leaving 0 with saving := true }, by decide +kernel⟩,
   ⟨withCtx (roomy up) [ctx 3 .entering 0], ctx 3 .entering 0, by decide +kernel, by decide +kernel, by decide +kernel, by decide +kernel, by decide +kernel, fun _ _ _ _ h => PwrMove.noConfusion h⟩,
   ⟨withCtx (roomy up) [{ ctx 3 .resident 0 with launches := [launch] }], { ctx 3 .resident 0 with launches := [launch] }, launch, by decide +kernel, by decide +kernel, 0, 0, 1, 0, by decide +kernel⟩,
   ⟨withCtx (roomy up) [{ ctx 3 .resident 0 with launches := [{ launch with toStart := [] }] }], { ctx 3 .resident 0 with launches := [{ launch with toStart := [] }] }, { launch with toStart := [] }, by decide +kernel⟩,
   ⟨withCtx (roomy up) [{ ctx 3 .resident 0 with launches := [{ launch with ready := false, members := [(1, 0, 1, 0, 0, true)] }] }], { ctx 3 .resident 0 with launches := [{ launch with ready := false, members := [(1, 0, 1, 0, 0, true)] }] }, { launch with ready := false, members := [(1, 0, 1, 0, 0, true)] }, by decide +kernel⟩,
   ⟨withCtx (roomy up) [{ ctx 3 .resident 0 with launches := [{ launch with ready := false, members := [(1, 0, 1, 0, 0, true)] }] }], { ctx 3 .resident 0 with launches := [{ launch with ready := false, members := [(1, 0, 1, 0, 0, true)] }] }, { launch with ready := false, members := [(1, 0, 1, 0, 0, true)] }, by decide +kernel⟩⟩

theorem witness_IntegerInstructionsCompute :
    (∃ (s s1 : State) (a : RillAt) (m : Rill) (w : Nat), ∃ e, e ∈ intTwo ∧ Issues s s1 a e.2.1 m w ∧ PlainRRR w)
    ∧ (∃ (s s1 : State) (a : RillAt) (m : Rill) (w : Nat), ∃ e, e ∈ intOne ∧ Issues s s1 a e.2.1 m w ∧ PlainRRR w)
    ∧ (∃ (s s1 : State) (a : RillAt) (m : Rill) (w : Nat), ∃ e, e ∈ intPair ∧ Issues s s1 a e.2.1 m w ∧ PlainRRR w ∧ fD w % 2 = 0 ∧ fA w % 2 = 0 ∧ fB w % 2 = 0)
    ∧ (∃ (s s1 : State) (a : RillAt) (m : Rill) (w : Nat), Issues s s1 a 0x1A m w ∧ PlainRRR w)
    ∧ (∃ (s s1 : State) (a : RillAt) (m : Rill) (w : Nat), Issues s s1 a 0x1C m w ∧ fModI w = 0)
    ∧ (∃ (s s1 : State) (a : RillAt) (m : Rill) (w : Nat), Issues s s1 a 0x1D m w ∧ fModI w = 0) :=
  ⟨⟨(at0 (rill [(1, 7), (2, 0xFFFFFFFE), (3, 3), (65, 0xFFFFFFFF), (66, 5), (67, 2)]) 0x2044700), (at0 (rill [(1, 7), (2, 0xFFFFFFFE), (3, 3), (65, 0xFFFFFFFF), (66, 5), (67, 2)]) 0x2044700), a0, (rill [(1, 7), (2, 0xFFFFFFFE), (3, 3), (65, 0xFFFFFFFF), (66, 5), (67, 2)]), 0x2044700, (Instr.rillIadd, 0x00, fun x y => x + y), List.mem_cons_self, issues _ _ _ _ (by decide +kernel) (by decide +kernel), by simp only [PlainRRR]; decide +kernel⟩,
   ⟨(at0 (rill [(1, 7), (2, 0xFFFFFFFE), (3, 3), (65, 0xFFFFFFFF), (66, 5), (67, 2)]) 0x204470f), (at0 (rill [(1, 7), (2, 0xFFFFFFFE), (3, 3), (65, 0xFFFFFFFF), (66, 5), (67, 2)]) 0x204470f), a0, (rill [(1, 7), (2, 0xFFFFFFFE), (3, 3), (65, 0xFFFFFFFF), (66, 5), (67, 2)]), 0x204470f, (Instr.rillNot, 0x0F, fun x => ~~~x), List.mem_cons_self, issues _ _ _ _ (by decide +kernel) (by decide +kernel), by simp only [PlainRRR]; decide +kernel⟩,
   ⟨(at0 (rill [(1, 7), (2, 0xFFFFFFFE), (3, 3), (65, 0xFFFFFFFF), (66, 5), (67, 2)]) 0x6084709), (at0 (rill [(1, 7), (2, 0xFFFFFFFE), (3, 3), (65, 0xFFFFFFFF), (66, 5), (67, 2)]) 0x6084709), a0, (rill [(1, 7), (2, 0xFFFFFFFE), (3, 3), (65, 0xFFFFFFFF), (66, 5), (67, 2)]), 0x6084709, (Instr.rillIadd64, 0x09, fun x y => x + y), List.mem_cons_self, issues _ _ _ _ (by decide +kernel) (by decide +kernel), by simp only [PlainRRR]; decide +kernel, by decide +kernel⟩,
   ⟨(at0 (rill [(1, 7), (2, 0xFFFFFFFE), (3, 3), (65, 0xFFFFFFFF), (66, 5), (67, 2)]) 0x1c204471a), (at0 (rill [(1, 7), (2, 0xFFFFFFFE), (3, 3), (65, 0xFFFFFFFF), (66, 5), (67, 2)]) 0x1c204471a), a0, (rill [(1, 7), (2, 0xFFFFFFFE), (3, 3), (65, 0xFFFFFFFF), (66, 5), (67, 2)]), 0x1c204471a, issues _ _ _ _ (by decide +kernel) (by decide +kernel), by simp only [PlainRRR]; decide +kernel⟩,
   ⟨(at0 (rill [(1, 7), (2, 0xFFFFFFFE), (3, 3), (65, 0xFFFFFFFF), (66, 5), (67, 2)]) 0x471c), (at0 (rill [(1, 7), (2, 0xFFFFFFFE), (3, 3), (65, 0xFFFFFFFF), (66, 5), (67, 2)]) 0x471c), a0, (rill [(1, 7), (2, 0xFFFFFFFE), (3, 3), (65, 0xFFFFFFFF), (66, 5), (67, 2)]), 0x471c, issues _ _ _ _ (by decide +kernel) (by decide +kernel), by decide +kernel⟩,
   ⟨(at0 (rill [(1, 7), (2, 0xFFFFFFFE), (3, 3), (65, 0xFFFFFFFF), (66, 5), (67, 2)]) 0xffffffff0004471d), (at0 (rill [(1, 7), (2, 0xFFFFFFFE), (3, 3), (65, 0xFFFFFFFF), (66, 5), (67, 2)]) 0xffffffff0004471d), a0, (rill [(1, 7), (2, 0xFFFFFFFE), (3, 3), (65, 0xFFFFFFFF), (66, 5), (67, 2)]), 0xffffffff0004471d, issues _ _ _ _ (by decide +kernel) (by decide +kernel), by decide +kernel⟩⟩

theorem witness_LaneAndFloatInstructionsCompute :
    (∃ (s s1 : State) (a : RillAt) (m : Rill) (w : Nat), bits w 44 20 = 0 ∧ let clean := ∀ th ∈ threads m w, m.bad th (fA w) = false ∧ m.bad th (fB w) = false; Issues s s1 a 0x1E m w ∧ fMod w ≤ 7 ∧ clean)
    ∧ (∃ (s s1 : State) (a : RillAt) (m : Rill) (w : Nat), bits w 44 20 = 0 ∧ let clean := ∀ th ∈ threads m w, m.bad th (fA w) = false ∧ m.bad th (fB w) = false; Issues s s1 a 0x48 m w ∧ fMod w ≤ 5 ∧ clean)
    ∧ (∃ (s s1 : State) (a : RillAt) (m : Rill) (w : Nat), bits w 44 20 = 0 ∧ Issues s s1 a 0x1F m w ∧ fMod w ≤ 3)
    ∧ (∃ (s s1 : State) (a : RillAt) (m : Rill) (w : Nat), bits w 44 20 = 0 ∧ Issues s s1 a 0x30 m w ∧ fMod w = 0 ∧ (∀ th ∈ threads m w, m.bad th (fB w) = false))
    ∧ (∃ (s s1 : State) (a : RillAt) (m : Rill) (w : Nat), bits w 44 20 = 0 ∧ Issues s s1 a 0x31 m w ∧ fMod w = 0)
    ∧ (∃ (s s1 : State) (a : RillAt) (m : Rill) (w : Nat), bits w 44 20 = 0 ∧ Issues s s1 a 0x32 m w ∧ fMod w = 0)
    ∧ (∃ (s s1 : State) (a : RillAt) (m : Rill) (w : Nat), bits w 44 20 = 0 ∧ Issues s s1 a 0x33 m w ∧ fMod w = 0)
    ∧ (∃ (s s1 : State) (a : RillAt) (m : Rill) (w : Nat), bits w 44 20 = 0 ∧ Issues s s1 a 0x34 m w ∧ fMod w ≤ 10 ∧ fMod w ≠ 8)
    ∧ (∃ (s s1 : State) (a : RillAt) (m : Rill) (w : Nat), bits w 44 20 = 0 ∧ Issues s s1 a 0x34 m w ∧ fMod w = 8 ∧ mSorted none m.hi = true)
    ∧ (∃ (s s1 : State) (a : RillAt) (m : Rill) (w : Nat), bits w 44 20 = 0 ∧ ∃ e, e ∈ fpTwo ∧ Issues s s1 a e.2.1 m w ∧ fMod w = 0)
    ∧ (∃ (s s1 : State) (a : RillAt) (m : Rill) (w : Nat), bits w 44 20 = 0 ∧ ∃ e, e ∈ fpOne ∧ Issues s s1 a e.2.1 m w ∧ fMod w = 0)
    ∧ (∃ (s s1 : State) (a : RillAt) (m : Rill) (w : Nat), bits w 44 20 = 0 ∧ Issues s s1 a 0x43 m w ∧ fMod w = 0)
    ∧ (∃ (s s1 : State) (a : RillAt) (m : Rill) (w : Nat), bits w 44 20 = 0 ∧ Issues s s1 a 0x70 m w ∧ fMod w < 9)
    ∧ (∃ (s s1 : State) (a : RillAt) (m : Rill) (w : Nat), bits w 44 20 = 0 ∧ Issues s s1 a 0x70 m w ∧ 16 ≤ fMod w ∧ fMod w < 25)
    ∧ (∃ (s s1 : State) (a : RillAt) (m : Rill) (w : Nat), bits w 44 20 = 0 ∧ Issues s s1 a 0x71 m w ∧ fMod w < 9)
    ∧ (∃ (s s1 : State) (a : RillAt) (m : Rill) (w : Nat), bits w 44 20 = 0 ∧ let e := elemBits (fMod w); let n (th : Nat) : Nat := m.get th (fC w) % 32; (∀ th ∈ threads m w, n th < 32 / e) ∧ fMod w < 9 ∧ Issues s s1 a 0x74 m w)
    ∧ (∃ (s s1 : State) (a : RillAt) (m : Rill) (w : Nat), bits w 44 20 = 0 ∧ let e := elemBits (fMod w); let n (th : Nat) : Nat := m.get th (fC w) % 32; (∀ th ∈ threads m w, n th < 32 / e) ∧ fMod w < 9 ∧ Issues s s1 a 0x75 m w) :=
  ⟨⟨(at0 (rill [(1, 7), (2, 0xFFFFFFFE), (3, 3), (65, 0xFFFFFFFF), (66, 5), (67, 2)]) 0x200204171e), (at0 (rill [(1, 7), (2, 0xFFFFFFFE), (3, 3), (65, 0xFFFFFFFF), (66, 5), (67, 2)]) 0x200204171e), a0, (rill [(1, 7), (2, 0xFFFFFFFE), (3, 3), (65, 0xFFFFFFFF), (66, 5), (67, 2)]), 0x200204171e, by decide +kernel, issues _ _ _ _ (by decide +kernel) (by decide +kernel), by decide +kernel⟩,
   ⟨(at0 (rill [(1, 7), (2, 0xFFFFFFFE), (3, 3), (65, 0xFFFFFFFF), (66, 5), (67, 2)]) 0x2002041748), (at0 (rill [(1, 7), (2, 0xFFFFFFFE), (3, 3), (65, 0xFFFFFFFF), (66, 5), (67, 2)]) 0x2002041748), a0, (rill [(1, 7), (2, 0xFFFFFFFE), (3, 3), (65, 0xFFFFFFFF), (66, 5), (67, 2)]), 0x2002041748, by decide +kernel, issues _ _ _ _ (by decide +kernel) (by decide +kernel), by decide +kernel⟩,
   ⟨(at0 (rill [(1, 7), (2, 0xFFFFFFFE), (3, 3), (65, 0xFFFFFFFF), (66, 5), (67, 2)]) 0x30001c171f), (at0 (rill [(1, 7), (2, 0xFFFFFFFE), (3, 3), (65, 0xFFFFFFFF), (66, 5), (67, 2)]) 0x30001c171f), a0, (rill [(1, 7), (2, 0xFFFFFFFE), (3, 3), (65, 0xFFFFFFFF), (66, 5), (67, 2)]), 0x30001c171f, by decide +kernel, issues _ _ _ _ (by decide +kernel) (by decide +kernel), by decide +kernel⟩,
   ⟨(at0 (rill [(1, 7), (2, 0xFFFFFFFE), (3, 3), (65, 0xFFFFFFFF), (66, 5), (67, 2)]) 0x3044730), (at0 (rill [(1, 7), (2, 0xFFFFFFFE), (3, 3), (65, 0xFFFFFFFF), (66, 5), (67, 2)]) 0x3044730), a0, (rill [(1, 7), (2, 0xFFFFFFFE), (3, 3), (65, 0xFFFFFFFF), (66, 5), (67, 2)]), 0x3044730, by decide +kernel, issues _ _ _ _ (by decide +kernel) (by decide +kernel), by decide +kernel⟩,
   ⟨(at0 (rill [(1, 7), (2, 0xFFFFFFFE), (3, 3), (65, 0xFFFFFFFF), (66, 5), (67, 2)]) 0x1c1731), (at0 (rill [(1, 7), (2, 0xFFFFFFFE), (3, 3), (65, 0xFFFFFFFF), (66, 5), (67, 2)]) 0x1c1731), a0, (rill [(1, 7), (2, 0xFFFFFFFE), (3, 3), (65, 0xFFFFFFFF), (66, 5), (67, 2)]), 0x1c1731, by decide +kernel, issues _ _ _ _ (by decide +kernel) (by decide +kernel), by decide +kernel⟩,
   ⟨(at0 (rill [(1, 7), (2, 0xFFFFFFFE), (3, 3), (65, 0xFFFFFFFF), (66, 5), (67, 2)]) 0x1c1732), (at0 (rill [(1, 7), (2, 0xFFFFFFFE), (3, 3), (65, 0xFFFFFFFF), (66, 5), (67, 2)]) 0x1c1732), a0, (rill [(1, 7), (2, 0xFFFFFFFE), (3, 3), (65, 0xFFFFFFFF), (66, 5), (67, 2)]), 0x1c1732, by decide +kernel, issues _ _ _ _ (by decide +kernel) (by decide +kernel), by decide +kernel⟩,
   ⟨(at0 (rill [(1, 7), (2, 0xFFFFFFFE), (3, 3), (65, 0xFFFFFFFF), (66, 5), (67, 2)]) 0x1c4733), (at0 (rill [(1, 7), (2, 0xFFFFFFFE), (3, 3), (65, 0xFFFFFFFF), (66, 5), (67, 2)]) 0x1c4733), a0, (rill [(1, 7), (2, 0xFFFFFFFE), (3, 3), (65, 0xFFFFFFFF), (66, 5), (67, 2)]), 0x1c4733, by decide +kernel, issues _ _ _ _ (by decide +kernel) (by decide +kernel), by decide +kernel⟩,
   ⟨(at0 (rill [(1, 7), (2, 0xFFFFFFFE), (3, 3), (65, 0xFFFFFFFF), (66, 5), (67, 2)]) 0x5000004734), (at0 (rill [(1, 7), (2, 0xFFFFFFFE), (3, 3), (65, 0xFFFFFFFF), (66, 5), (67, 2)]) 0x5000004734), a0, (rill [(1, 7), (2, 0xFFFFFFFE), (3, 3), (65, 0xFFFFFFFF), (66, 5), (67, 2)]), 0x5000004734, by decide +kernel, issues _ _ _ _ (by decide +kernel) (by decide +kernel), by decide +kernel⟩,
   ⟨(at0 (rill [(1, 7), (2, 0xFFFFFFFE), (3, 3), (65, 0xFFFFFFFF), (66, 5), (67, 2)]) 0x8000004734), (at0 (rill [(1, 7), (2, 0xFFFFFFFE), (3, 3), (65, 0xFFFFFFFF), (66, 5), (67, 2)]) 0x8000004734), a0, (rill [(1, 7), (2, 0xFFFFFFFE), (3, 3), (65, 0xFFFFFFFF), (66, 5), (67, 2)]), 0x8000004734, by decide +kernel, issues _ _ _ _ (by decide +kernel) (by decide +kernel), by decide +kernel⟩,
   ⟨(at0 (rill [(1, 7), (2, 0xFFFFFFFE), (3, 3), (65, 0xFFFFFFFF), (66, 5), (67, 2)]) 0x2044740), (at0 (rill [(1, 7), (2, 0xFFFFFFFE), (3, 3), (65, 0xFFFFFFFF), (66, 5), (67, 2)]) 0x2044740), a0, (rill [(1, 7), (2, 0xFFFFFFFE), (3, 3), (65, 0xFFFFFFFF), (66, 5), (67, 2)]), 0x2044740, by decide +kernel, (Instr.rillFadd, 0x40, fun x y => enc32 (fpSum (dec32 x) (dec32 y))), List.mem_cons_self, issues _ _ _ _ (by decide +kernel) (by decide +kernel), by decide +kernel⟩,
   ⟨(at0 (rill [(1, 7), (2, 0xFFFFFFFE), (3, 3), (65, 0xFFFFFFFF), (66, 5), (67, 2)]) 0x44746), (at0 (rill [(1, 7), (2, 0xFFFFFFFE), (3, 3), (65, 0xFFFFFFFF), (66, 5), (67, 2)]) 0x44746), a0, (rill [(1, 7), (2, 0xFFFFFFFE), (3, 3), (65, 0xFFFFFFFF), (66, 5), (67, 2)]), 0x44746, by decide +kernel, (Instr.rillFabs, 0x46, fun x => if dec32 x = .nan then nan32 else x % 2 ^ 31), List.mem_cons_self, issues _ _ _ _ (by decide +kernel) (by decide +kernel), by decide +kernel⟩,
   ⟨(at0 (rill [(1, 7), (2, 0xFFFFFFFE), (3, 3), (65, 0xFFFFFFFF), (66, 5), (67, 2)]) 0xc2044743), (at0 (rill [(1, 7), (2, 0xFFFFFFFE), (3, 3), (65, 0xFFFFFFFF), (66, 5), (67, 2)]) 0xc2044743), a0, (rill [(1, 7), (2, 0xFFFFFFFE), (3, 3), (65, 0xFFFFFFFF), (66, 5), (67, 2)]), 0xc2044743, by decide +kernel, issues _ _ _ _ (by decide +kernel) (by decide +kernel), by decide +kernel⟩,
   ⟨(at0 (rill [(1, 7), (2, 0xFFFFFFFE), (3, 3), (65, 0xFFFFFFFF), (66, 5), (67, 2)]) 0x3000044770), (at0 (rill [(1, 7), (2, 0xFFFFFFFE), (3, 3), (65, 0xFFFFFFFF), (66, 5), (67, 2)]) 0x3000044770), a0, (rill [(1, 7), (2, 0xFFFFFFFE), (3, 3), (65, 0xFFFFFFFF), (66, 5), (67, 2)]), 0x3000044770, by decide +kernel, issues _ _ _ _ (by decide +kernel) (by decide +kernel), by decide +kernel⟩,
   ⟨(at0 (rill [(1, 7), (2, 0xFFFFFFFE), (3, 3), (65, 0xFFFFFFFF), (66, 5), (67, 2)]) 0x130c2044770), (at0 (rill [(1, 7), (2, 0xFFFFFFFE), (3, 3), (65, 0xFFFFFFFF), (66, 5), (67, 2)]) 0x130c2044770), a0, (rill [(1, 7), (2, 0xFFFFFFFE), (3, 3), (65, 0xFFFFFFFF), (66, 5), (67, 2)]), 0x130c2044770, by decide +kernel, issues _ _ _ _ (by decide +kernel) (by decide +kernel), by decide +kernel⟩,
   ⟨(at0 (rill [(1, 7), (2, 0xFFFFFFFE), (3, 3), (65, 0xFFFFFFFF), (66, 5), (67, 2)]) 0x3000044771), (at0 (rill [(1, 7), (2, 0xFFFFFFFE), (3, 3), (65, 0xFFFFFFFF), (66, 5), (67, 2)]) 0x3000044771), a0, (rill [(1, 7), (2, 0xFFFFFFFE), (3, 3), (65, 0xFFFFFFFF), (66, 5), (67, 2)]), 0x3000044771, by decide +kernel, issues _ _ _ _ (by decide +kernel) (by decide +kernel), by decide +kernel⟩,
   ⟨(at0 (rill [(1, 7), (2, 0xFFFFFFFE), (3, 3), (65, 0xFFFFFFFF), (66, 5), (67, 2)]) 0x3142044774), (at0 (rill [(1, 7), (2, 0xFFFFFFFE), (3, 3), (65, 0xFFFFFFFF), (66, 5), (67, 2)]) 0x3142044774), a0, (rill [(1, 7), (2, 0xFFFFFFFE), (3, 3), (65, 0xFFFFFFFF), (66, 5), (67, 2)]), 0x3142044774, by decide +kernel, by decide +kernel, by decide +kernel, issues _ _ _ _ (by decide +kernel) (by decide +kernel)⟩,
   ⟨(at0 (rill [(1, 7), (2, 0xFFFFFFFE), (3, 3), (65, 0xFFFFFFFF), (66, 5), (67, 2)]) 0x3142044775), (at0 (rill [(1, 7), (2, 0xFFFFFFFE), (3, 3), (65, 0xFFFFFFFF), (66, 5), (67, 2)]) 0x3142044775), a0, (rill [(1, 7), (2, 0xFFFFFFFE), (3, 3), (65, 0xFFFFFFFF), (66, 5), (67, 2)]), 0x3142044775, by decide +kernel, by decide +kernel, by decide +kernel, issues _ _ _ _ (by decide +kernel) (by decide +kernel)⟩⟩

theorem witness_MemoryInstructionsReadAndWrite :
    (∃ (s s1 : State) (a : RillAt) (m : Rill) (w : Nat) (addr : Nat → Nat), let n := 2 ^ fSize w; Issues s s1 a 0x80 m w ∧ fSize w ≤ 4 ∧ fOrder w ≤ 1 ∧ bits w 37 3 = 0 ∧ groupOk (fD w) n = true ∧ Accesses s1 a m w n .load addr)
    ∧ (∃ (s s1 : State) (a : RillAt) (m : Rill) (w : Nat) (addr : Nat → Nat), let n := 2 ^ fSize w; Issues s s1 a 0x81 m w ∧ fSize w ≤ 4 ∧ ((fOrder w = 0 ∨ fOrder w = 2)) ∧ bits w 37 3 = 0 ∧ groupOk (fB w) n = true ∧ Accesses s1 a m w n .store addr ∧ Apart m w n addr)
    ∧ (∃ (s s1 : State) (a : RillAt) (m : Rill) (w : Nat) (addr : Nat → Nat), let n := 2 ^ fSize w; ∃ e, e ∈ atomics ∧ Issues s s1 a e.2.1 m w ∧ ((fSize w = 2 ∨ (fSize w = 3 ∧ e.2.2.1 = true))) ∧ bits w 37 3 = 0 ∧ groupOk (fB w) n = true ∧ groupOk (fD w) n = true ∧ Accesses s1 a m w n .atomic addr ∧ Apart m w n addr ∧ ((∀ th ∈ threads m w, poisonedIn s1 (addr th) n = false ∧ ∀ j, j < n / 4 → m.bad th (fB w + j) = false ∧ m.bad th (fD w + j) = false)))
    ∧ (∃ (s : State) (s1 : State) (a : RillAt) (m : Rill) (w : Nat), Issues s s1 a 141 m w ∧ bits w 37 3 = 0 ∧ fSize w ≤ 4) :=
  ⟨⟨(at0 (rill [(2, 0x2000), (4, 0x11223344), (5, 9), (66, 0x2040), (68, 77)]) 0x100088780), (at0 (rill [(2, 0x2000), (4, 0x11223344), (5, 9), (66, 0x2040), (68, 77)]) 0x100088780), a0, (rill [(2, 0x2000), (4, 0x11223344), (5, 9), (66, 0x2040), (68, 77)]), 0x100088780, (fun th => 0x2000 + 64 * th), issues _ _ _ _ (by decide +kernel) (by decide +kernel), by decide +kernel, by decide +kernel, by decide +kernel, by decide +kernel, accesses _ _ _ _ _ _ (by decide +kernel) (by decide +kernel) (by decide +kernel)⟩,
   ⟨(at0 (rill [(2, 0x2000), (4, 0x11223344), (5, 9), (66, 0x2040), (68, 77)]) 0xc4080781), (at0 (rill [(2, 0x2000), (4, 0x11223344), (5, 9), (66, 0x2040), (68, 77)]) 0xc4080781), a0, (rill [(2, 0x2000), (4, 0x11223344), (5, 9), (66, 0x2040), (68, 77)]), 0xc4080781, (fun th => 0x2000 + 64 * th), issues _ _ _ _ (by decide +kernel) (by decide +kernel), by decide +kernel, by decide +kernel, by decide +kernel, by decide +kernel, accesses _ _ _ _ _ _ (by decide +kernel) (by decide +kernel) (by decide +kernel), by simp only [Apart]; decide +kernel⟩,
   ⟨(at0 (rill [(2, 0x2000), (4, 0x11223344), (5, 9), (66, 0x2040), (68, 77)]) 0x84088782), (at0 (rill [(2, 0x2000), (4, 0x11223344), (5, 9), (66, 0x2040), (68, 77)]) 0x84088782), a0, (rill [(2, 0x2000), (4, 0x11223344), (5, 9), (66, 0x2040), (68, 77)]), 0x84088782, (fun th => 0x2000 + 64 * th), (Instr.rillAadd, 0x82, true, fun n o b _ => (o + b) % 2 ^ n), List.mem_cons_self, issues _ _ _ _ (by decide +kernel) (by decide +kernel), by decide +kernel, by decide +kernel, by decide +kernel, by decide +kernel, accesses _ _ _ _ _ _ (by decide +kernel) (by decide +kernel) (by decide +kernel), by simp only [Apart]; decide +kernel, by decide +kernel⟩,
   ⟨(at0 (rill [(2, 0x2000), (4, 0x11223344), (5, 9), (66, 0x2040), (68, 77)]) 0x78d), (at0 (rill [(2, 0x2000), (4, 0x11223344), (5, 9), (66, 0x2040), (68, 77)]) 0x78d), a0, (rill [(2, 0x2000), (4, 0x11223344), (5, 9), (66, 0x2040), (68, 77)]), 0x78d, issues _ _ _ _ (by decide +kernel) (by decide +kernel), by decide +kernel⟩⟩

theorem witness_BarriersSignalsAndNaps :
    (∃ (s s1 : State) (a : RillAt) (m : Rill) (w : Nat), PlainRRR w ∧ CleanAB m w ∧ mSorted none s.runnels.barriers = true ∧ mSorted none s.runnels.signals = true ∧ ∃ b c, threads m w ≠ [] ∧ (∀ th ∈ threads m w, m.get th (fA w) % 16 = b ∧ m.get th (fB w) = c) ∧ 1 ≤ c ∧ c ≤ 4096 ∧ let x := mget ({} : Barrier) s.runnels.barriers (barKey m.ctx a.reach b); let n := (threads m w).length; ((x.count = 0 ∨ x.count = c)) ∧ x.arrived + departedOf s (x.owner m.launch) a.reach + n < c ∧ Issues s s1 a 0xB0 m w)
    ∧ (∃ (s s1 : State) (a : RillAt) (m : Rill) (w : Nat), PlainRRR w ∧ CleanAB m w ∧ mSorted none s.runnels.barriers = true ∧ mSorted none s.runnels.signals = true ∧ ∃ b c, threads m w ≠ [] ∧ (∀ th ∈ threads m w, m.get th (fA w) % 16 = b ∧ m.get th (fB w) = c) ∧ 1 ≤ c ∧ c ≤ 4096 ∧ let x := mget ({} : Barrier) s.runnels.barriers (barKey m.ctx a.reach b); let n := (threads m w).length; ((x.count = 0 ∨ x.count = c)) ∧ x.arrived + departedOf s (x.owner m.launch) a.reach + n < c ∧ Issues s s1 a 0xB1 m w)
    ∧ (∃ (s s1 : State) (a : RillAt) (m : Rill) (w : Nat), PlainRRR w ∧ CleanAB m w ∧ mSorted none s.runnels.barriers = true ∧ mSorted none s.runnels.signals = true ∧ ∃ b c, threads m w ≠ [] ∧ (∀ th ∈ threads m w, m.get th (fA w) % 16 = b ∧ m.get th (fB w) = c) ∧ 1 ≤ c ∧ c ≤ 4096 ∧ let x := mget ({} : Barrier) s.runnels.barriers (barKey m.ctx a.reach b); let n := (threads m w).length; ((x.count = 0 ∨ x.count = c)) ∧ x.arrived + departedOf s (x.owner m.launch) a.reach + n = c ∧ Issues s s1 a 0xB0 m w)
    ∧ (∃ (s s1 : State) (a : RillAt) (m : Rill) (w : Nat), PlainRRR w ∧ CleanAB m w ∧ mSorted none s.runnels.barriers = true ∧ mSorted none s.runnels.signals = true ∧ ∃ b c, threads m w ≠ [] ∧ (∀ th ∈ threads m w, m.get th (fA w) % 16 = b ∧ m.get th (fB w) = c) ∧ 1 ≤ c ∧ c ≤ 4096 ∧ let x := mget ({} : Barrier) s.runnels.barriers (barKey m.ctx a.reach b); let n := (threads m w).length; ((x.count = 0 ∨ x.count = c)) ∧ x.arrived + departedOf s (x.owner m.launch) a.reach + n = c ∧ Issues s s1 a 0xB1 m w)
    ∧ (∃ (s s1 : State) (a : RillAt) (m : Rill) (w : Nat), PlainRRR w ∧ CleanAB m w ∧ mSorted none s.runnels.barriers = true ∧ mSorted none s.runnels.signals = true ∧ Issues s s1 a 0xB3 m w)
    ∧ (∃ (s s1 : State) (a : RillAt) (m : Rill) (w : Nat), PlainRRR w ∧ CleanAB m w ∧ mSorted none s.runnels.barriers = true ∧ mSorted none s.runnels.signals = true ∧ Issues s s1 a 0xB4 m w ∧ (∀ th ∈ threads m w, reached (getSig s m.ctx a.reach (m.get th (fA w) % 64)) (m.get th (fB w)) = true))
    ∧ (∃ (s s1 : State) (a : RillAt) (m : Rill) (w : Nat), PlainRRR w ∧ CleanAB m w ∧ mSorted none s.runnels.barriers = true ∧ mSorted none s.runnels.signals = true ∧ Issues s s1 a 0xB4 m w ∧ (∃ th ∈ threads m w, reached (getSig s m.ctx a.reach (m.get th (fA w) % 64)) (m.get th (fB w)) = false))
    ∧ (∃ (s s1 : State) (a : RillAt) (m : Rill) (w : Nat), PlainRRR w ∧ CleanAB m w ∧ mSorted none s.runnels.barriers = true ∧ mSorted none s.runnels.signals = true ∧ Issues s s1 a 0xB5 m w)
    ∧ (∃ (s : State) (a : RillAt) (m : Rill) (w : Nat), PlainRRR w ∧ CleanAB m w ∧ mSorted none s.runnels.barriers = true ∧ mSorted none s.runnels.signals = true ∧ ∃ r c, getRill s (keyOf a) = some r ∧ r.wait = .nap c ∧ c ≤ cyc s a.reach)
    ∧ (∃ (s : State) (a : RillAt) (m : Rill) (w : Nat), PlainRRR w ∧ CleanAB m w ∧ mSorted none s.runnels.barriers = true ∧ mSorted none s.runnels.signals = true ∧ ∃ r c, getRill s (keyOf a) = some r ∧ r.wait = .nap c ∧ cyc s a.reach < c)
    ∧ (∃ (s : State) (s1 : State) (a : RillAt) (m : Rill) (w : Nat), PlainRRR w ∧ CleanAB m w ∧ mSorted none s.runnels.barriers = true ∧ mSorted none s.runnels.signals = true ∧ Issues s s1 a 178 m w) :=
  ⟨⟨(at0 (rill [(1, 3), (2, 4), (65, 3), (66, 4)]) 0x20407b0), (at0 (rill [(1, 3), (2, 4), (65, 3), (66, 4)]) 0x20407b0), a0, (rill [(1, 3), (2, 4), (65, 3), (66, 4)]), 0x20407b0, by simp only [PlainRRR]; decide +kernel, by simp only [CleanAB]; decide +kernel, by decide +kernel, by decide +kernel, 3, 4, by decide +kernel, by decide +kernel, by decide +kernel, by decide +kernel, by decide +kernel, by decide +kernel, issues _ _ _ _ (by decide +kernel) (by decide +kernel)⟩,
   ⟨(at0 (rill [(1, 3), (2, 4), (65, 3), (66, 4)]) 0x20407b1), (at0 (rill [(1, 3), (2, 4), (65, 3), (66, 4)]) 0x20407b1), a0, (rill [(1, 3), (2, 4), (65, 3), (66, 4)]), 0x20407b1, by simp only [PlainRRR]; decide +kernel, by simp only [CleanAB]; decide +kernel, by decide +kernel, by decide +kernel, 3, 4, by decide +kernel, by decide +kernel, by decide +kernel, by decide +kernel, by decide +kernel, by decide +kernel, issues _ _ _ _ (by decide +kernel) (by decide +kernel)⟩,
   ⟨(at0 (rill [(1, 3), (2, 2), (65, 3), (66, 2)]) 0x20407b0), (at0 (rill [(1, 3), (2, 2), (65, 3), (66, 2)]) 0x20407b0), a0, (rill [(1, 3), (2, 2), (65, 3), (66, 2)]), 0x20407b0, by simp only [PlainRRR]; decide +kernel, by simp only [CleanAB]; decide +kernel, by decide +kernel, by decide +kernel, 3, 2, by decide +kernel, by decide +kernel, by decide +kernel, by decide +kernel, by decide +kernel, by decide +kernel, issues _ _ _ _ (by decide +kernel) (by decide +kernel)⟩,
   ⟨(at0 (rill [(1, 3), (2, 2), (65, 3), (66, 2)]) 0x20407b1), (at0 (rill [(1, 3), (2, 2), (65, 3), (66, 2)]) 0x20407b1), a0, (rill [(1, 3), (2, 2), (65, 3), (66, 2)]), 0x20407b1, by simp only [PlainRRR]; decide +kernel, by simp only [CleanAB]; decide +kernel, by decide +kernel, by decide +kernel, 3, 2, by decide +kernel, by decide +kernel, by decide +kernel, by decide +kernel, by decide +kernel, by decide +kernel, issues _ _ _ _ (by decide +kernel) (by decide +kernel)⟩,
   ⟨(at0 (rill [(1, 3), (2, 4), (65, 3), (66, 4)]) 0x20407b3), (at0 (rill [(1, 3), (2, 4), (65, 3), (66, 4)]) 0x20407b3), a0, (rill [(1, 3), (2, 4), (65, 3), (66, 4)]), 0x20407b3, by simp only [PlainRRR]; decide +kernel, by simp only [CleanAB]; decide +kernel, by decide +kernel, by decide +kernel, issues _ _ _ _ (by decide +kernel) (by decide +kernel)⟩,
   ⟨(at0 (rill [(1, 3), (2, 4), (65, 3), (66, 4)]) 0x30407b4), (at0 (rill [(1, 3), (2, 4), (65, 3), (66, 4)]) 0x30407b4), a0, (rill [(1, 3), (2, 4), (65, 3), (66, 4)]), 0x30407b4, by simp only [PlainRRR]; decide +kernel, by simp only [CleanAB]; decide +kernel, by decide +kernel, by decide +kernel, issues _ _ _ _ (by decide +kernel) (by decide +kernel), by decide +kernel⟩,
   ⟨(at0 (rill [(1, 3), (2, 4), (65, 3), (66, 4)]) 0x20407b4), (at0 (rill [(1, 3), (2, 4), (65, 3), (66, 4)]) 0x20407b4), a0, (rill [(1, 3), (2, 4), (65, 3), (66, 4)]), 0x20407b4, by simp only [PlainRRR]; decide +kernel, by simp only [CleanAB]; decide +kernel, by decide +kernel, by decide +kernel, issues _ _ _ _ (by decide +kernel) (by decide +kernel), by decide +kernel⟩,
   ⟨(at0 (rill [(1, 3), (2, 4), (65, 3), (66, 4)]) 0x807b5), (at0 (rill [(1, 3), (2, 4), (65, 3), (66, 4)]) 0x807b5), a0, (rill [(1, 3), (2, 4), (65, 3), (66, 4)]), 0x807b5, by simp only [PlainRRR]; decide +kernel, by simp only [CleanAB]; decide +kernel, by decide +kernel, by decide +kernel, issues _ _ _ _ (by decide +kernel) (by decide +kernel)⟩,
   ⟨(at0 ({ rill [] with wait := .nap 0 }) 0), a0, (rill []), 0, by simp only [PlainRRR]; decide +kernel, by simp only [CleanAB]; decide +kernel, by decide +kernel, by decide +kernel, { rill [] with wait := .nap 0 }, 0, by decide +kernel⟩,
   ⟨(at0 ({ rill [] with wait := .nap 5 }) 0), a0, (rill []), 0, by simp only [PlainRRR]; decide +kernel, by simp only [CleanAB]; decide +kernel, by decide +kernel, by decide +kernel, { rill [] with wait := .nap 5 }, 5, by decide +kernel⟩,
   ⟨(at0 (rill [(1, 3), (2, 4), (65, 3), (66, 4)]) 0x20407b2), (at0 (rill [(1, 3), (2, 4), (65, 3), (66, 4)]) 0x20407b2), a0, (rill [(1, 3), (2, 4), (65, 3), (66, 4)]), 0x20407b2, by simp only [PlainRRR]; decide +kernel, by simp only [CleanAB]; decide +kernel, by decide +kernel, by decide +kernel, issues _ _ _ _ (by decide +kernel) (by decide +kernel)⟩⟩

theorem witness_UnitOperationsAndTickets :
    (∃ (s s1 : State) (a : RillAt) (m : Rill) (w th k : Nat), threads m w = [th] ∧ bits w 36 28 = 0 ∧ unitsHeld s m.ctx = false ∧ freeTicket m = some k ∧ Issues s s1 a 0xC0 m w ∧ fA w % 4 = 0 ∧ ((∀ j, j < 4 → m.bad th (fA w + j) = false)) ∧ ∃ f, passRes s1 a.reach m w th = .accept f)
    ∧ (∃ (s s1 : State) (a : RillAt) (m : Rill) (w th k : Nat), threads m w = [th] ∧ bits w 36 28 = 0 ∧ unitsHeld s m.ctx = false ∧ freeTicket m = some k ∧ Issues s s1 a 0xC0 m w ∧ fA w % 4 = 0 ∧ ((∀ j, j < 4 → m.bad th (fA w + j) = false)) ∧ passRes s1 a.reach m w th = .full)
    ∧ (∃ (s s1 : State) (a : RillAt) (m : Rill) (w th k : Nat), threads m w = [th] ∧ bits w 36 28 = 0 ∧ unitsHeld s m.ctx = false ∧ freeTicket m = some k ∧ Issues s s1 a 0xC0 m w ∧ fA w % 4 = 0 ∧ ((∀ j, j < 4 → m.bad th (fA w + j) = false)) ∧ ∃ st, passRes s1 a.reach m w th = .reject st)
    ∧ (∃ (s s1 : State) (a : RillAt) (m : Rill) (w th k : Nat), threads m w = [th] ∧ bits w 36 28 = 0 ∧ unitsHeld s m.ctx = false ∧ freeTicket m = some k ∧ ∃ f, Issues s s1 a 0xC1 m w ∧ m.bad th (fA w) = false ∧ m.bad th (fB w) = false ∧ m.bad th (fC w) = false ∧ tscaleRes s1 a.reach m w th = .accept f)
    ∧ (∃ (s s1 : State) (a : RillAt) (m : Rill) (w th k : Nat), threads m w = [th] ∧ bits w 36 28 = 0 ∧ unitsHeld s m.ctx = false ∧ freeTicket m = some k ∧ ∃ f, Issues s s1 a 0xC2 m w ∧ fA w % 2 = 0 ∧ ((∀ j, j < 2 → m.bad th (fA w + j) = false)) ∧ m.bad th (fB w) = false ∧ m.bad th (fC w) = false ∧ flaunchRes s1 a.reach m w th = .accept f)
    ∧ (∃ (s s1 : State) (a : RillAt) (m : Rill) (w th k : Nat), threads m w = [th] ∧ bits w 36 28 = 0 ∧ unitsHeld s m.ctx = false ∧ freeTicket m = some k ∧ ∃ f, Issues s s1 a 0xC0 m w ∧ unitRes s a.reach { m with wait := .unit w (2 ^ th) } w th = .accept f ∧ th < 32)
    ∧ (∃ (s s1 : State) (a : RillAt) (m : Rill) (w : Nat), bits w 36 28 = 0 ∧ threads m w ≠ [] ∧ (∀ th ∈ threads m w, m.bad th (fA w) = false) ∧ let tk (th : Nat) : Nat := m.get th (fA w) % 64; Issues s s1 a 0xC4 m w ∧ (∀ th ∈ threads m w, (ticketStatus m (tk th)).isSome = true))
    ∧ (∃ (s s1 : State) (a : RillAt) (m : Rill) (w : Nat), bits w 36 28 = 0 ∧ threads m w ≠ [] ∧ (∀ th ∈ threads m w, m.bad th (fA w) = false) ∧ let tk (th : Nat) : Nat := m.get th (fA w) % 64; Issues s s1 a 0xC4 m w ∧ (∃ th ∈ threads m w, ticketStatus m (tk th) = none))
    ∧ (∃ (s s1 : State) (a : RillAt) (m : Rill) (w : Nat), bits w 36 28 = 0 ∧ threads m w ≠ [] ∧ (∀ th ∈ threads m w, m.bad th (fA w) = false) ∧ Issues s s1 a 0xC5 m w)
    ∧ (∃ (s : State) (s1 : State) (a : RillAt) (m : Rill) (w : Nat) (th : Nat) (k : Nat), threads m w = [th] ∧ bits w 36 28 = 0 ∧ unitsHeld s m.ctx = false ∧ freeTicket m = some k ∧ ∃ (o : Obj), Issues s s1 a 195 m w ∧ fA w % 2 = 0 ∧ fB w % 2 = 0 ∧ (∀ j < 2, m.bad th (fA w + j) = false ∧ m.bad th (fB w + j) = false) ∧ let x : Nat := m.get64 th (fA w); let y : Nat := m.get64 th (fB w); x % 32 = 0 ∧ y % 32 = 0 ∧ unitAddr s1 m.ctx x 32 = true ∧ unitAddr s1 m.ctx y 32 = true ∧ (if regionOf s1 x = Region.stack then readStatus s1 x 32 = 0 else poisonedIn s1 x 32 = false) ∧ let d : List Byte := rdBytes s1 x 32; findObj s1 (ctxDom s1 m.ctx + 1) (le d 0 8) = some o ∧ o.grain = 0 ∧ le d 30 2 = 0 ∧ le d 29 1 ≤ 1 ∧ (le d 28 1 = 255 ∨ le d 28 1 ≤ 3 ∧ dieExts s1 (le d 28 1) ≠ 0) ∧ le d 8 8 = 0 ∧ le d 16 8 = 0 ∧ o.quarantined = false ∧ (∃ g, findPage s1 o.nsid o.id 0 = some g ∧ g.asleep = false)) :=
  ⟨⟨(at0 ({ rill [(4, 0x80000), (5, 0x10000)] with active := 1 }) 0x1017c0), (at0 ({ rill [(4, 0x80000), (5, 0x10000)] with active := 1 }) 0x1017c0), a0, ({ rill [(4, 0x80000), (5, 0x10000)] with active := 1 }), 0x1017c0, 0, 0, by decide +kernel, by decide +kernel, by decide +kernel, by decide +kernel, issues _ _ _ _ (by decide +kernel) (by decide +kernel), by decide +kernel, by decide +kernel, (acceptance (passRes ((at0 ({ rill [(4, 0x80000), (5, 0x10000)] with active := 1 }) 0x1017c0)) 0 ({ rill [(4, 0x80000), (5, 0x10000)] with active := 1 }) 0x1017c0 0)), accepts _ (by decide +kernel)⟩,
   ⟨((fun s : State => { s with tiles := [(0, { queue := List.replicate 8 { no := 0, slot := 0, op := ⟨3, 1, 1, 9⟩, desc := 2 ^ 19, scaleWrite := none } })] }) (at0 ({ rill [(4, 0x80000), (5, 0x10000)] with active := 1 }) 0x1017c0)), ((fun s : State => { s with tiles := [(0, { queue := List.replicate 8 { no := 0, slot := 0, op := ⟨3, 1, 1, 9⟩, desc := 2 ^ 19, scaleWrite := none } })] }) (at0 ({ rill [(4, 0x80000), (5, 0x10000)] with active := 1 }) 0x1017c0)), a0, ({ rill [(4, 0x80000), (5, 0x10000)] with active := 1 }), 0x1017c0, 0, 0, by decide +kernel, by decide +kernel, by decide +kernel, by decide +kernel, issues _ _ _ _ (by decide +kernel) (by decide +kernel), by decide +kernel, by decide +kernel, by rfl⟩,
   ⟨(at0 ({ rill [(4, 0x80030)] with active := 1 }) 0x1017c0), (at0 ({ rill [(4, 0x80030)] with active := 1 }) 0x1017c0), a0, ({ rill [(4, 0x80030)] with active := 1 }), 0x1017c0, 0, 0, by decide +kernel, by decide +kernel, by decide +kernel, by decide +kernel, issues _ _ _ _ (by decide +kernel) (by decide +kernel), by decide +kernel, by decide +kernel, 0x1002, by rfl⟩,
   ⟨(at0 ({ rill [(4, 47), (5, 63), (6, 0x3f800000)] with active := 1 }) 0x1851017c1), (at0 ({ rill [(4, 47), (5, 63), (6, 0x3f800000)] with active := 1 }) 0x1851017c1), a0, ({ rill [(4, 47), (5, 63), (6, 0x3f800000)] with active := 1 }), 0x1851017c1, 0, 0, by decide +kernel, by decide +kernel, by decide +kernel, by decide +kernel, (acceptance (tscaleRes ((at0 ({ rill [(4, 47), (5, 63), (6, 0x3f800000)] with active := 1 }) 0x1851017c1)) 0 ({ rill [(4, 47), (5, 63), (6, 0x3f800000)] with active := 1 }) 0x1851017c1 0)), issues _ _ _ _ (by decide +kernel) (by decide +kernel), by decide +kernel, by decide +kernel, by decide +kernel, accepts _ (by decide +kernel)⟩,
   ⟨(at0 ({ rill [(4, 0x3000), (6, 7), (7, 9)] with active := 1 }) 0x1c61017c2), (at0 ({ rill [(4, 0x3000), (6, 7), (7, 9)] with active := 1 }) 0x1c61017c2), a0, ({ rill [(4, 0x3000), (6, 7), (7, 9)] with active := 1 }), 0x1c61017c2, 0, 0, by decide +kernel, by decide +kernel, by decide +kernel, by decide +kernel, (acceptance (flaunchRes ((at0 ({ rill [(4, 0x3000), (6, 7), (7, 9)] with active := 1 }) 0x1c61017c2)) 0 ({ rill [(4, 0x3000), (6, 7), (7, 9)] with active := 1 }) 0x1c61017c2 0)), issues _ _ _ _ (by decide +kernel) (by decide +kernel), by decide +kernel, by decide +kernel, by decide +kernel, by decide +kernel, accepts _ (by decide +kernel)⟩,
   ⟨(at0 ({ rill [(4, 0x80000), (5, 0x10000)] with active := 1 }) 0x1017c0), (at0 ({ rill [(4, 0x80000), (5, 0x10000)] with active := 1 }) 0x1017c0), a0, ({ rill [(4, 0x80000), (5, 0x10000)] with active := 1 }), 0x1017c0, 0, 0, by decide +kernel, by decide +kernel, by decide +kernel, by decide +kernel, (acceptance (passRes ((at0 ({ rill [(4, 0x80000), (5, 0x10000)] with active := 1 }) 0x1017c0)) 0 ({ rill [(4, 0x80000), (5, 0x10000)] with active := 1 }) 0x1017c0 0)), issues _ _ _ _ (by decide +kernel) (by decide +kernel), accepts _ (by decide +kernel), by decide +kernel⟩,
   ⟨(at0 ({ rill [(4, 2)] with active := 1, tickets := [(2, some 0)] }) 0x1017c4), (at0 ({ rill [(4, 2)] with active := 1, tickets := [(2, some 0)] }) 0x1017c4), a0, ({ rill [(4, 2)] with active := 1, tickets := [(2, some 0)] }), 0x1017c4, by decide +kernel, by decide +kernel, by decide +kernel, issues _ _ _ _ (by decide +kernel) (by decide +kernel), by decide +kernel⟩,
   ⟨(at0 ({ rill [(4, 2)] with active := 1, tickets := [(2, none)] }) 0x1017c4), (at0 ({ rill [(4, 2)] with active := 1, tickets := [(2, none)] }) 0x1017c4), a0, ({ rill [(4, 2)] with active := 1, tickets := [(2, none)] }), 0x1017c4, by decide +kernel, by decide +kernel, by decide +kernel, issues _ _ _ _ (by decide +kernel) (by decide +kernel), by decide +kernel⟩,
   ⟨(at0 ({ rill [(4, 2)] with active := 1, tickets := [(2, some 0)] }) 0x1017c5), (at0 ({ rill [(4, 2)] with active := 1, tickets := [(2, some 0)] }) 0x1017c5), a0, ({ rill [(4, 2)] with active := 1, tickets := [(2, some 0)] }), 0x1017c5, by decide +kernel, by decide +kernel, by decide +kernel, issues _ _ _ _ (by decide +kernel) (by decide +kernel)⟩,
   ⟨((fun s : State => { withObjs s [{ obj 5 6 65536 with grain := 0 }] with mem := { s.mem with pages := [page false 0], bytes := s.mem.bytes ++ wrCells [] 0x4000 (toBytes 8 5 ++ List.replicate 20 0 ++ [255]) } }) (at0 ({ rill [(4, 0x4000), (6, 0x4040)] with active := 1 }) 0x61017c3)), ((fun s : State => { withObjs s [{ obj 5 6 65536 with grain := 0 }] with mem := { s.mem with pages := [page false 0], bytes := s.mem.bytes ++ wrCells [] 0x4000 (toBytes 8 5 ++ List.replicate 20 0 ++ [255]) } }) (at0 ({ rill [(4, 0x4000), (6, 0x4040)] with active := 1 }) 0x61017c3)), a0, ({ rill [(4, 0x4000), (6, 0x4040)] with active := 1 }), 0x61017c3, 0, 0, by decide +kernel, by decide +kernel, by decide +kernel, by decide +kernel, { obj 5 6 65536 with grain := 0 }, issues _ _ _ _ (by decide +kernel) (by decide +kernel), by decide +kernel, by decide +kernel, by decide +kernel, by decide +kernel, by decide +kernel, (by decide +kernel), by decide +kernel, by decide +kernel, by decide +kernel, by decide +kernel, (by decide +kernel), by decide +kernel, by decide +kernel, by decide +kernel, by decide +kernel, (by decide +kernel), page false 0, by decide +kernel⟩⟩

theorem witness_BranchesAndFaultsOfRills :
    (∃ (s s1 : State) (a : RillAt) (m : Rill) (w : Nat), fD w = 0 ∧ fA w = 0 ∧ let taken := maskOf (threads m w); Issues s s1 a 0xA0 m w ∧ taken = 0)
    ∧ (∃ (s s1 : State) (a : RillAt) (m : Rill) (w : Nat), fD w = 0 ∧ fA w = 0 ∧ let taken := maskOf (threads m w); Issues s s1 a 0xA0 m w ∧ taken ≠ 0 ∧ taken = m.active)
    ∧ (∃ (s s1 : State) (a : RillAt) (m : Rill) (w : Nat), fD w = 0 ∧ fA w = 0 ∧ let taken := maskOf (threads m w); Issues s s1 a 0xA0 m w ∧ taken ≠ 0 ∧ taken ≠ m.active ∧ m.stack.length ≤ 30)
    ∧ (∃ (s s1 : State) (a : RillAt) (m : Rill) (w : Nat), fD w = 0 ∧ fA w = 0 ∧ let taken := maskOf (threads m w); Issues s s1 a 0xA1 m w ∧ m.active &&& taken ≠ m.active)
    ∧ (∃ (s s1 : State) (a : RillAt) (m : Rill) (w : Nat), fD w = 0 ∧ fA w = 0 ∧ let taken := maskOf (threads m w); ∃ l, Issues s s1 a 0xA1 m w ∧ m.active &&& taken = m.active ∧ m.stack = [] ∧ findLaunch s m.ctx m.launch = some l)
    ∧ (∃ (s s1 : State) (a : RillAt) (m : Rill) (w op : Nat) (l : Launch), Issues s s1 a op m w ∧ findLaunch s m.ctx m.launch = some l ∧ getF s a.reach F.RUN_FAULTS_COUNT < 2 ^ F.RUN_FAULTS_COUNT.w - 1 ∧ knownOp op = false)
    ∧ (∃ (s s1 : State) (a : RillAt) (m : Rill) (w op : Nat) (l : Launch), Issues s s1 a op m w ∧ findLaunch s m.ctx m.launch = some l ∧ getF s a.reach F.RUN_FAULTS_COUNT < 2 ^ F.RUN_FAULTS_COUNT.w - 1 ∧ op = 0x00 ∧ bits w 44 20 ≠ 0)
    ∧ (∃ (s s1 : State) (a : RillAt) (m : Rill) (w op : Nat) (l : Launch), Issues s s1 a op m w ∧ findLaunch s m.ctx m.launch = some l ∧ getF s a.reach F.RUN_FAULTS_COUNT < 2 ^ F.RUN_FAULTS_COUNT.w - 1 ∧ op = 0x1E ∧ PlainRRR w ∧ (∃ th ∈ threads m w, m.bad th (fA w) = true))
    ∧ (∃ (s s1 : State) (a : RillAt) (m : Rill) (w op : Nat) (l : Launch), Issues s s1 a op m w ∧ findLaunch s m.ctx m.launch = some l ∧ getF s a.reach F.RUN_FAULTS_COUNT < 2 ^ F.RUN_FAULTS_COUNT.w - 1 ∧ op = 0x02 ∧ PlainRRR w ∧ threads m w ≠ [])
    ∧ (∃ (s : State) (s1 : State) (a : RillAt) (m : Rill) (w : Nat), fD w = 0 ∧ fA w = 0 ∧ let taken : Nat := maskOf (threads m w); Issues s s1 a 160 m w ∧ taken ≠ 0 ∧ taken ≠ m.active ∧ 30 < m.stack.length)
    ∧ (∃ (s : State) (s1 : State) (a : RillAt) (m : Rill) (w : Nat), fD w = 0 ∧ fA w = 0 ∧ let rc : Nat := pcPlus m.pc (fReconv w); let taken : Nat := maskOf (threads m w); ∃ (pc : Nat) (mk : Nat) (rc : Nat) (rest : List (Nat × Nat × Nat)), Issues s s1 a 161 m w ∧ m.active &&& taken = m.active ∧ m.stack = (pc, mk, rc) :: rest ∧ mk - (mk &&& taken) ≠ 0) :=
  ⟨⟨(at0 (rill []) 0x8000040000a0), (at0 (rill []) 0x8000040000a0), a0, (rill []), 0x8000040000a0, by decide +kernel, by decide +kernel, issues _ _ _ _ (by decide +kernel) (by decide +kernel), by decide +kernel⟩,
   ⟨(at0 (rill []) 0x8ffffc0007a0), (at0 (rill []) 0x8ffffc0007a0), a0, (rill []), 0x8ffffc0007a0, by decide +kernel, by decide +kernel, issues _ _ _ _ (by decide +kernel) (by decide +kernel), by decide +kernel⟩,
   ⟨(at0 ({ rill [] with preds := [(0, 2)] }) 0x8000040000a0), (at0 ({ rill [] with preds := [(0, 2)] }) 0x8000040000a0), a0, ({ rill [] with preds := [(0, 2)] }), 0x8000040000a0, by decide +kernel, by decide +kernel, issues _ _ _ _ (by decide +kernel) (by decide +kernel), by decide +kernel⟩,
   ⟨(at0 ({ rill [] with preds := [(0, 2)] }) 0xa1), (at0 ({ rill [] with preds := [(0, 2)] }) 0xa1), a0, ({ rill [] with preds := [(0, 2)] }), 0xa1, by decide +kernel, by decide +kernel, issues _ _ _ _ (by decide +kernel) (by decide +kernel), by decide +kernel⟩,
   ⟨(at0 (rill []) 0x7a1), (at0 (rill []) 0x7a1), a0, (rill []), 0x7a1, by decide +kernel, by decide +kernel, { launch with toStart := [], running := 1 }, issues _ _ _ _ (by decide +kernel) (by decide +kernel), by decide +kernel⟩,
   ⟨(at0 ({ rill [] with uid := 1 }) 0x7ff), (at0 ({ rill [] with uid := 1 }) 0x7ff), a0, ({ rill [] with uid := 1 }), 0x7ff, 0xff, { launch with toStart := [], running := 1 }, issues _ _ _ _ (by decide +kernel) (by decide +kernel), by decide +kernel⟩,
   ⟨(at0 ({ rill [] with uid := 1 }) 0x100000000700), (at0 ({ rill [] with uid := 1 }) 0x100000000700), a0, ({ rill [] with uid := 1 }), 0x100000000700, 0x0, { launch with toStart := [], running := 1 }, issues _ _ _ _ (by decide +kernel) (by decide +kernel), by decide +kernel⟩,
   ⟨(at0 ({ rill [] with poison := [(1, true)] }) 0x204171e), (at0 ({ rill [] with poison := [(1, true)] }) 0x204171e), a0, ({ rill [] with poison := [(1, true)] }), 0x204171e, 0x1e, { launch with toStart := [], running := 1 }, issues _ _ _ _ (by decide +kernel) (by decide +kernel), by decide +kernel, by decide +kernel, by decide +kernel, by simp only [PlainRRR]; decide +kernel, by decide +kernel⟩,
   ⟨(at0 ({ rill [] with uid := 1 }) 0x2044702), (at0 ({ rill [] with uid := 1 }) 0x2044702), a0, ({ rill [] with uid := 1 }), 0x2044702, 0x2, { launch with toStart := [], running := 1 }, issues _ _ _ _ (by decide +kernel) (by decide +kernel), by decide +kernel, by decide +kernel, by decide +kernel, by simp only [PlainRRR]; decide +kernel, by decide +kernel⟩,
   ⟨(at0 ({ rill [] with preds := [(0, 2)], stack := List.replicate 31 (0x2000, 1, 0x3000) }) 0x8000040000a0), (at0 ({ rill [] with preds := [(0, 2)], stack := List.replicate 31 (0x2000, 1, 0x3000) }) 0x8000040000a0), a0, ({ rill [] with preds := [(0, 2)], stack := List.replicate 31 (0x2000, 1, 0x3000) }), 0x8000040000a0, by decide +kernel, by decide +kernel, issues _ _ _ _ (by decide +kernel) (by decide +kernel), by decide +kernel⟩,
   ⟨(at0 ({ rill [] with stack := [(0x2000, 4, 0x3000)] }) 0x7a1), (at0 ({ rill [] with stack := [(0x2000, 4, 0x3000)] }) 0x7a1), a0, ({ rill [] with stack := [(0x2000, 4, 0x3000)] }), 0x7a1, by decide +kernel, by decide +kernel, 0x2000, 4, 0x3000, [], issues _ _ _ _ (by decide +kernel) (by decide +kernel), by decide +kernel⟩⟩

theorem witness_PassesStartAndComputeRows :
    (∃ (s : State) (reach tile : Nat) (p : TPass), TileAtWork s reach tile ∧ let t0 := getTile s reach tile; ∃ i v, t0.queue = [p] ∧ p.scaleWrite = some (i, v) ∧ i < 64 ∧ t0.flight = [] ∧ p.slot < 2 ∧ slotHeld s reach p.slot = false) :=
  ⟨withTile { queue := [{ tpass with scaleWrite := some (63, 0x40000000) }] }, 0, 0, { tpass with scaleWrite := some (63, 0x40000000) }, by simp only [TileAtWork, Uncounted]; decide +kernel, 63, 0x40000000, by decide +kernel⟩

theorem witness_PassesCompleteAndUnitsMove :
    (∃ (s : State) (reach tile q : Nat), TileAtWork s reach tile ∧ q < 4 ∧ let t0 := getTile s reach tile; ∃ p, (∀ x ∈ t0.flight, x.esc = []) ∧ (t0.flight.find? (fun x => x.lane x.fmt == 0 && x.esc.isEmpty && decide (x.total ≤ x.row)) = some p) ∧ fmtMode p.fmt = 0 ∧ p.inject = none ∧ p.upset = [] ∧ p.badOuts = [] ∧ getF s reach F.TILE_PASSES_COUNT tile < 2 ^ F.TILE_PASSES_COUNT.w - 1 ∧ t0.queue = [] ∧ p.gpart = 0 ∧ mSorted none s.mem.poison = true ∧ ((∀ k, k < 4 → quadState s reach tile k = 0)))
    ∧ (∃ (s : State) (reach tile q : Nat), TileAtWork s reach tile ∧ q < 4)
    ∧ (∃ (s : State) (reach tile q : Nat), TileAtWork s reach tile ∧ q < 4 ∧ quadState s reach tile q = 1 ∧ quadBusy s reach tile q = false)
    ∧ (∃ (s : State) (reach tile q : Nat), TileAtWork s reach tile ∧ q < 4 ∧ quadState s reach tile q = 1 ∧ quadBusy s reach tile q = true)
    ∧ (∃ (s : State) (reach tile q : Nat), TileAtWork s reach tile ∧ q < 4 ∧ let t0 := getTile s reach tile; quadState s reach tile q = 4 ∧ 64 ≤ t0.joins.getD q 0)
    ∧ (∃ (s : State) (reach tile q : Nat), TileAtWork s reach tile ∧ q < 4 ∧ let t0 := getTile s reach tile; quadState s reach tile q = 4 ∧ t0.joins.getD q 0 < 64) :=
  ⟨⟨withTile { flight := [{ tpass with row := 1 }] }, 0, 0, 3, by simp only [TileAtWork, Uncounted]; decide +kernel, by decide +kernel, { tpass with row := 1 }, by decide +kernel⟩,
   ⟨withTile {}, 0, 0, 3, by simp only [TileAtWork, Uncounted]; decide +kernel, by decide +kernel⟩,
   ⟨(fun s => setQuad s 0 0 3 1) (withTile {  }), 0, 0, 3, by simp only [TileAtWork, Uncounted]; decide +kernel, by decide +kernel⟩,
   ⟨(fun s => setQuad s 0 0 3 1) (withTile { flight := [tpass] }), 0, 0, 3, by simp only [TileAtWork, Uncounted]; decide +kernel, by decide +kernel⟩,
   ⟨(fun s => setQuad s 0 0 3 4) (withTile { joins := [0, 0, 0, 64] }), 0, 0, 3, by simp only [TileAtWork, Uncounted]; decide +kernel, by decide +kernel⟩,
   ⟨(fun s => setQuad s 0 0 3 4) (withTile { joins := [0, 0, 0, 63] }), 0, 0, 3, by simp only [TileAtWork, Uncounted]; decide +kernel, by decide +kernel⟩⟩

theorem witness_FlumeWordsAreExecuted :
    (∃ (s : State) (f : FlumeAt) (p : Prog) (w : Nat), FlumeAtWork s f p 0 w)
    ∧ (∃ (s : State) (f : FlumeAt) (p : Prog) (w : Nat), FlumeAtWork s f p 1 w)
    ∧ (∃ (s : State) (f : FlumeAt) (p : Prog) (w : Nat), ∃ lv n i first rest, FlumeAtWork s f p 2 w ∧ p.loops = (lv, n, i, first) :: rest)
    ∧ (∃ (s : State) (f : FlumeAt) (p : Prog) (w : Nat), FlumeAtWork s f p 3 w)
    ∧ (∃ (s : State) (f : FlumeAt) (p : Prog) (w : Nat), FlumeAtWork s f p 4 w ∧ mSorted none p.stride = true)
    ∧ (∃ (s : State) (f : FlumeAt) (p : Prog) (w : Nat), FlumeAtWork s f p 5 w)
    ∧ (∃ (s : State) (f : FlumeAt) (p : Prog) (w : Nat), FlumeAtWork s f p 6 w)
    ∧ (∃ (s : State) (f : FlumeAt) (p : Prog) (w : Nat), FlumeAtWork s f p 7 w ∧ p.sigs = [] ∧ p.xIssued = p.xDone ∧ mSorted none s.runnels.signals = true)
    ∧ (∃ (s : State) (f : FlumeAt) (p : Prog) (w : Nat), FlumeAtWork s f p 7 w ∧ p.xDone < p.xIssued ∧ (∀ (g : Nat × Nat × Nat), p.sigs.head? = some g → p.xDone < g.1))
    ∧ (∃ (s : State) (f : FlumeAt) (p : Prog) (w : Nat), ∃ thr, FlumeAtWork s f p 8 w ∧ (thr = BitVec.ofNat 32 (bits w 32 32 + if w.testBit 14 then ((p.loops.find? (fun l => l.1 == bits w 15 3)).map (fun l => l.2.2.1)).getD 0 else 0)))
    ∧ (∃ (s : State) (f : FlumeAt) (p : Prog) (w : Nat), FlumeAtWork s f p 9 w)
    ∧ (∃ (s : State) (f : FlumeAt) (p : Prog) (w : Nat), FlumeAtWork s f p 15 w) :=
  ⟨⟨withProg (prog [0]), f7, (prog [0]), 0, by simp only [FlumeAtWork, Uncounted]; decide +kernel⟩,
   ⟨withProg (prog [0x900000301]), f7, (prog [0x900000301]), 0x900000301, by simp only [FlumeAtWork, Uncounted]; decide +kernel⟩,
   ⟨withProg ({ prog [2] with loops := [(3, 9, 7, 0)] }), f7, { prog [2] with loops := [(3, 9, 7, 0)] }, 2, 3, 9, 7, 0, [], by simp only [FlumeAtWork, Uncounted]; decide +kernel, by decide +kernel⟩,
   ⟨withProg (prog [0x1234567890000000000004903]), f7, (prog [0x1234567890000000000004903]), 0x1234567890000000000004903, by simp only [FlumeAtWork, Uncounted]; decide +kernel⟩,
   ⟨withProg (prog [0xffffff0000001104]), f7, (prog [0xffffff0000001104]), 0xffffff0000001104, by simp only [FlumeAtWork, Uncounted]; decide +kernel, by decide +kernel⟩,
   ⟨withProg ({ prog [0x10000040105] with base := [0, 0x3000, 0x4000, 0, 0, 0, 0, 0], stride := [(9, 4294967292)], loops := [(1, 3, 2, 0)] }), f7, { prog [0x10000040105] with base := [0, 0x3000, 0x4000, 0, 0, 0, 0, 0], stride := [(9, 4294967292)], loops := [(1, 3, 2, 0)] }, 0x10000040105, by simp only [FlumeAtWork, Uncounted]; decide +kernel⟩,
   ⟨withProg ({ prog [0x2000100000010000005106] with base := [0, 0x3000, 0x4000, 0, 0, 0, 0, 0] }), f7, { prog [0x2000100000010000005106] with base := [0, 0x3000, 0x4000, 0, 0, 0, 0, 0] }, 0x2000100000010000005106, by simp only [FlumeAtWork, Uncounted]; decide +kernel⟩,
   ⟨withProg (prog [0xffffffff00003f07]), f7, (prog [0xffffffff00003f07]), 0xffffffff00003f07, by simp only [FlumeAtWork, Uncounted]; decide +kernel, by decide +kernel⟩,
   ⟨withProg ({ prog [0xffffffff00003f07] with xIssued := 1 }), f7, { prog [0xffffffff00003f07] with xIssued := 1 }, 0xffffffff00003f07, by simp only [FlumeAtWork, Uncounted]; decide +kernel, by decide +kernel, by intro g h; cases h⟩,
   ⟨withProg ({ prog [0x1ff08] with loops := [(3, 9, 7, 0)] }), f7, { prog [0x1ff08] with loops := [(3, 9, 7, 0)] }, 0x1ff08, 7, by simp only [FlumeAtWork, Uncounted]; decide +kernel, by decide +kernel⟩,
   ⟨withProg ({ prog [0x41000000109] with base := [0, 0x3000, 0x4000, 0, 0, 0, 0, 0] }), f7, { prog [0x41000000109] with base := [0, 0x3000, 0x4000, 0, 0, 0, 0, 0] }, 0x41000000109, by simp only [FlumeAtWork, Uncounted]; decide +kernel⟩,
   ⟨withProg (prog [15]), f7, (prog [15]), 15, by simp only [FlumeAtWork, Uncounted]; decide +kernel⟩⟩

theorem witness_FlumeProgramsMoveBytes :
    (∃ (s : State) (f : FlumeAt) (p : Prog), State.wf s = true ∧ mSorted none s.flume.progs = true ∧ headProg s f.key = some p ∧ f.ok s = true ∧ let words : List Nat := List.map (fun i => ofBytes (rdBytes s (p.addr + 16 * i) 16)) (List.range 64); ∃ (n : Nat), SluicesOff s ∧ p.started = false ∧ (∀ (c : List Nat), cutAtEnd words = some c → n = 16 * c.length) ∧ (cutAtEnd words = none → n = 1024) ∧ flumeCheckRead s p.op.ctx f.reach p.addr n = (s, some 0) ∧ poisonedIn s p.addr n = false ∧ ((words.all fun w => w % 256 != 15) = true))
    ∧ (∃ (s : State) (f : FlumeAt) (p : Prog), State.wf s = true ∧ mSorted none s.flume.progs = true ∧ headProg s f.key = some p ∧ f.ok s = true ∧ let words : List Nat := List.map (fun i => ofBytes (rdBytes s (p.addr + 16 * i) 16)) (List.range 64); ∃ (n : Nat), SluicesOff s ∧ p.started = false ∧ (∀ (c : List Nat), cutAtEnd words = some c → n = 16 * c.length) ∧ (cutAtEnd words = none → n = 1024) ∧ flumeCheckRead s p.op.ctx f.reach p.addr n = (s, some 0) ∧ poisonedIn s p.addr n = false ∧ ∃ (c : List Nat), cutAtEnd words = some c ∧ ((c.any fun w => !(decide (w % 256 ≤ 9) || w % 256 == 15)) = true))
    ∧ (∃ (s : State) (f : FlumeAt) (p : Prog), State.wf s = true ∧ mSorted none s.flume.progs = true ∧ headProg s f.key = some p ∧ f.ok s = true ∧ let words : List Nat := List.map (fun i => ofBytes (rdBytes s (p.addr + 16 * i) 16)) (List.range 64); ∃ (n : Nat), SluicesOff s ∧ p.started = false ∧ (∀ (c : List Nat), cutAtEnd words = some c → n = 16 * c.length) ∧ (cutAtEnd words = none → n = 1024) ∧ flumeCheckRead s p.op.ctx f.reach p.addr n = (s, some 0) ∧ poisonedIn s p.addr n = false ∧ ∃ (c : List Nat), cutAtEnd words = some c ∧ ((c.all fun w => decide (w % 256 ≤ 9) || w % 256 == 15) = true) ∧ ((c.any fun w => !flumeFieldsOk w) = true))
    ∧ (∃ (s : State) (f : FlumeAt) (p : Prog), State.wf s = true ∧ mSorted none s.flume.progs = true ∧ headProg s f.key = some p ∧ f.ok s = true ∧ let words : List Nat := List.map (fun i => ofBytes (rdBytes s (p.addr + 16 * i) 16)) (List.range 64); ∃ (n : Nat), SluicesOff s ∧ p.started = false ∧ (∀ (c : List Nat), cutAtEnd words = some c → n = 16 * c.length) ∧ (cutAtEnd words = none → n = 1024) ∧ flumeCheckRead s p.op.ctx f.reach p.addr n = (s, some 0) ∧ poisonedIn s p.addr n = false ∧ ∃ (c : List Nat), cutAtEnd words = some c ∧ ((c.all fun w => decide (w % 256 ≤ 9) || w % 256 == 15) = true) ∧ c.all flumeFieldsOk = true ∧ flumeOrderOk c 0 false [] = false)
    ∧ (∃ (s : State) (f : FlumeAt) (p : Prog), State.wf s = true ∧ mSorted none s.flume.progs = true ∧ headProg s f.key = some p ∧ f.ok s = true ∧ let words : List Nat := List.map (fun i => ofBytes (rdBytes s (p.addr + 16 * i) 16)) (List.range 64); ∃ (n : Nat), SluicesOff s ∧ p.started = false ∧ (∀ (c : List Nat), cutAtEnd words = some c → n = 16 * c.length) ∧ (cutAtEnd words = none → n = 1024) ∧ flumeCheckRead s p.op.ctx f.reach p.addr n = (s, some 0) ∧ poisonedIn s p.addr n = false ∧ ∃ (c : List Nat), cutAtEnd words = some c ∧ ((c.all fun w => decide (w % 256 ≤ 9) || w % 256 == 15) = true) ∧ c.all flumeFieldsOk = true ∧ flumeOrderOk c 0 false [] = true)
    ∧ (∃ (s : State) (f : FlumeAt) (p : Prog), State.wf s = true ∧ mSorted none s.flume.progs = true ∧ headProg s f.key = some p ∧ f.ok s = true ∧ p.ended = true ∧ p.stopAt = none ∧ p.xfers = [] ∧ p.sigs = [] ∧ (p.aShadow = false ∧ p.wShadow = none ∨ ∀ y ∈ p.fed, fedBusy s f.reach y = false) ∧ getF s f.reach F.FLUME_PROGRAMS_COUNT f.engine < 2 ^ F.FLUME_PROGRAMS_COUNT.w - 1)
    ∧ (∃ (s : State) (f : FlumeAt) (p : Prog), State.wf s = true ∧ mSorted none s.flume.progs = true ∧ headProg s f.key = some p ∧ f.ok s = true ∧ ∃ (c : Nat), p.waitAt = some c ∧ p.stopAt = none ∧ p.sigs = [] ∧ p.fed = [] ∧ p.pc < 64 ∧ 0 < getF s f.reach F.FLUME_CFG_TIMEOUT ∧ getF s f.reach F.FLUME_CFG_TIMEOUT < 15 ∧ let late : Prop := 2 ^ (getF s f.reach F.FLUME_CFG_TIMEOUT + 12) < cyc s f.reach - c; late ∧ p.xfers = [])
    ∧ (∃ (s : State) (f : FlumeAt) (p : Prog), State.wf s = true ∧ mSorted none s.flume.progs = true ∧ headProg s f.key = some p ∧ f.ok s = true ∧ ∃ (c : Nat), p.waitAt = some c ∧ p.stopAt = none ∧ p.sigs = [] ∧ p.fed = [] ∧ p.pc < 64 ∧ 0 < getF s f.reach F.FLUME_CFG_TIMEOUT ∧ getF s f.reach F.FLUME_CFG_TIMEOUT < 15 ∧ let late : Prop := 2 ^ (getF s f.reach F.FLUME_CFG_TIMEOUT + 12) < cyc s f.reach - c; ∃ (x : Xfer), late ∧ p.xfers = [x] ∧ x.em < x.total ∧ x.held = none)
    ∧ (∃ (s : State) (f : FlumeAt) (p : Prog), State.wf s = true ∧ mSorted none s.flume.progs = true ∧ headProg s f.key = some p ∧ f.ok s = true ∧ ∃ (c : Nat), p.waitAt = some c ∧ p.stopAt = none ∧ p.sigs = [] ∧ p.fed = [] ∧ p.pc < 64 ∧ 0 < getF s f.reach F.FLUME_CFG_TIMEOUT ∧ getF s f.reach F.FLUME_CFG_TIMEOUT < 15 ∧ let late : Prop := 2 ^ (getF s f.reach F.FLUME_CFG_TIMEOUT + 12) < cyc s f.reach - c; (¬late) ∧ (∀ x ∈ p.xfers, x.held = none)) :=
  ⟨⟨{ withProg ({ prog [] with started := false }) with mem := { (withProg ({ prog [] with started := false })).mem with bytes := wrCells [] 0x3000 (toBytes 16 1) } }, f7, { prog [] with started := false }, by decide +kernel, by decide +kernel, by decide +kernel, by decide +kernel, 1024, sluices_off _ rfl, by decide +kernel, cut_none (by decide +kernel), by decide +kernel⟩,
   ⟨{ withProg ({ prog [] with started := false }) with mem := { (withProg ({ prog [] with started := false })).mem with bytes := wrCells [] 0x3000 (toBytes 16 12 ++ toBytes 16 15) } }, f7, { prog [] with started := false }, by decide +kernel, by decide +kernel, by decide +kernel, by decide +kernel, 32, sluices_off _ rfl, by decide +kernel, cut_some (c0 := [12, 15]) (by decide +kernel) rfl, by decide +kernel, by decide +kernel, by decide +kernel, [12, 15], by decide +kernel⟩,
   ⟨{ withProg ({ prog [] with started := false }) with mem := { (withProg ({ prog [] with started := false })).mem with bytes := wrCells [] 0x3000 (toBytes 16 1 ++ toBytes 16 15) } }, f7, { prog [] with started := false }, by decide +kernel, by decide +kernel, by decide +kernel, by decide +kernel, 32, sluices_off _ rfl, by decide +kernel, cut_some (c0 := [1, 15]) (by decide +kernel) rfl, by decide +kernel, by decide +kernel, by decide +kernel, [1, 15], by decide +kernel⟩,
   ⟨{ withProg ({ prog [] with started := false }) with mem := { (withProg ({ prog [] with started := false })).mem with bytes := wrCells [] 0x3000 (toBytes 16 2 ++ toBytes 16 15) } }, f7, { prog [] with started := false }, by decide +kernel, by decide +kernel, by decide +kernel, by decide +kernel, 32, sluices_off _ rfl, by decide +kernel, cut_some (c0 := [2, 15]) (by decide +kernel) rfl, by decide +kernel, by decide +kernel, by decide +kernel, [2, 15], by decide +kernel⟩,
   ⟨{ withProg ({ prog [] with started := false }) with mem := { (withProg ({ prog [] with started := false })).mem with bytes := wrCells [] 0x3000 (toBytes 16 0x100000001 ++ toBytes 16 2 ++ toBytes 16 15) } }, f7, { prog [] with started := false }, by decide +kernel, by decide +kernel, by decide +kernel, by decide +kernel, 48, sluices_off _ rfl, by decide +kernel, cut_some (c0 := [0x100000001, 2, 15]) (by decide +kernel) rfl, by decide +kernel, by decide +kernel, by decide +kernel, [0x100000001, 2, 15], by decide +kernel⟩,
   ⟨withProg ({ prog [15] with ended := true }), f7, { prog [15] with ended := true }, by decide +kernel⟩,
   ⟨{ setF (withProg ({ prog [8] with waitAt := some 0 })) 0 F.FLUME_CFG_TIMEOUT 1 with counters := { up.counters with cycles := [(0, 8193)] } }, f7, { prog [8] with waitAt := some 0 }, by decide +kernel, by decide +kernel, by decide +kernel, by decide +kernel, 0, by decide +kernel, by decide +kernel, by decide +kernel, by decide +kernel, (by decide +kernel), by decide +kernel⟩,
   ⟨{ setF (withProg ({ prog [8] with waitAt := some 0, xfers := [({ gather := false, src := 0x3004, idx := 0, total := 256, elem := 0, estride := 0, dkind := 0, dst := 0x4010, tile := 0, quad := 0, prof := 0, pc := 0 } : Xfer)], xIssued := 1 })) 0 F.FLUME_CFG_TIMEOUT 1 with counters := { up.counters with cycles := [(0, 8193)] } }, f7, { prog [8] with waitAt := some 0, xfers := [({ gather := false, src := 0x3004, idx := 0, total := 256, elem := 0, estride := 0, dkind := 0, dst := 0x4010, tile := 0, quad := 0, prof := 0, pc := 0 } : Xfer)], xIssued := 1 }, by decide +kernel, by decide +kernel, by decide +kernel, by decide +kernel, 0, by decide +kernel, by decide +kernel, by decide +kernel, by decide +kernel, (by decide +kernel), by decide +kernel, by decide +kernel, ({ gather := false, src := 0x3004, idx := 0, total := 256, elem := 0, estride := 0, dkind := 0, dst := 0x4010, tile := 0, quad := 0, prof := 0, pc := 0 } : Xfer), by decide +kernel⟩,
   ⟨setF (withProg ({ prog [8] with waitAt := some 0 })) 0 F.FLUME_CFG_TIMEOUT 1, f7, { prog [8] with waitAt := some 0 }, by decide +kernel, by decide +kernel, by decide +kernel, by decide +kernel, 0, by decide +kernel, by decide +kernel, by decide +kernel, by decide +kernel, (by decide +kernel), by decide +kernel⟩⟩

theorem witness_CollectionsAreMadeAndDeleted :
    (∃ (s : State) (id : CmdId) (c : Cmd), ∃ x, Runs s id c 0x81 [(32, 2)] ∧ findColl s (c.b 32 2) = some x ∧ x.nsid = c.nsid ∧ x.deleting = 0 ∧ findCmd s c.no = some c ∧ c.no ≠ 0 ∧ ((∀ f ∈ s.mem.fetches, ¬ (f.nsid = x.nsid ∧ (f.obj = x.obj ∨ f.obj = x.fullId)))) ∧ (∀ w ∈ s.search.sweeps, w.coll ≠ x.no))
    ∧ (∃ (s : State) (id : CmdId) (c : Cmd), ∃ x, Runs s id c 0x87 [(32, 3)] ∧ findColl s (c.b 32 2) = some x ∧ x.nsid = c.nsid ∧ c.b 34 1 ≤ 1 ∧ 64 ≤ c.bufBytes)
    ∧ (∃ (s : State) (id : CmdId) (c : Cmd), let dim : Nat := c.b 34 2; Runs s id c 128 [(32, 28)] ∧ c.b 32 2 ≤ 4095 ∧ 64 ≤ dim ∧ dim ≤ 4096 ∧ dim % 64 = 0 ∧ 1 ≤ c.b 36 1 ∧ c.b 36 1 ≤ 16 ∧ c.b 37 1 ≤ 3 ∧ 16 ≤ c.b 38 2 ∧ c.b 38 2 ≤ 4096 ∧ 1 ≤ c.b 56 4 ∧ c.b 56 4 ≤ 16777216 ∧ c.bufBytes = 8 * dim ∧ findColl s (c.b 32 2) = none ∧ idOk (c.b 40 8) = true ∧ idFree s c.nsid (c.b 40 8) = true ∧ (if (c.b 37 1).testBit 0 = true then idOk (c.b 48 8) = true ∧ idFree s c.nsid (c.b 48 8) = true ∧ c.b 48 8 ≠ c.b 40 8 else c.b 48 8 = 0) ∧ (∀ d < dim, isFinite (le c.data (4 * d) 4) = true ∧ isFinite (le c.data (4 * dim + 4 * d) 4) = true ∧ (le c.data (4 * dim + 4 * d) 4).testBit 31 = false ∧ le c.data (4 * dim + 4 * d) 4 ≠ 0) ∧ let k : Coll := { no := c.b 32 2, nsid := c.nsid, dim := dim, w := c.b 36 1, fullEn := (c.b 37 1).testBit 0, fullFmt := c.b 37 1 / 2 % 2, budget := c.b 38 2, obj := c.b 40 8, fullId := c.b 48 8, poolsMax := c.b 56 4, offs := List.map (fun d => le c.data (4 * d) 4) (List.range dim), steps := List.map (fun d => le c.data (4 * dim + 4 * d) 4) (List.range dim), pools := [], nodes := [], entries := [], stale := 0, nextCompact := 1, last := [], deleting := 0 }; s.search.objs.length + 2 ≤ 2 ^ 32 ∧ roStatus s = 0 ∧ objRefusal s c.dom [(collObj s k, 0, 4096 + 8 * dim)] = none)
    ∧ (∃ (s : State) (id : CmdId) (c : Cmd) (x : Coll), Runs s id c 129 [(32, 2)] ∧ findColl s (c.b 32 2) = some x ∧ x.nsid = c.nsid ∧ x.deleting = 0 ∧ findCmd s c.no = some c ∧ c.no ≠ 0 ∧ (∀ f ∈ s.mem.fetches, ¬(f.nsid = x.nsid ∧ (f.obj = x.obj ∨ f.obj = x.fullId))) ∧ (∃ w ∈ s.search.sweeps, w.coll = x.no)) :=
  ⟨⟨run (withSearch id) (cmd 1 0x81 [(32, 2, 5)]), ⟨1, 7, .none⟩, cmd 1 0x81 [(32, 2, 5)], coll5, by simp only [Runs]; decide +kernel, by decide +kernel⟩,
   ⟨run (withSearch (fun x => { x with repairs := [(5, 3), (4, 2), (5, 8)] })) (buf 72 (cmd 1 0x87 [(32, 2, 5), (34, 1, 1)])), ⟨1, 7, .none⟩, buf 72 (cmd 1 0x87 [(32, 2, 5), (34, 1, 1)]), coll5, by simp only [Runs]; decide +kernel, by decide +kernel⟩,
   ⟨run (roomy up) (buf 512 { (cmd 1 0x80 [(32, 2, 4095), (34, 2, 64), (36, 1, 1), (37, 1, 0), (38, 2, 16), (40, 8, 77), (56, 4, 1)]) with data := (List.replicate 64 (toBytes 4 0x3F800000)).flatten ++ (List.replicate 64 (toBytes 4 0x3F800000)).flatten }), ⟨1, 7, .none⟩, buf 512 { (cmd 1 0x80 [(32, 2, 4095), (34, 2, 64), (36, 1, 1), (37, 1, 0), (38, 2, 16), (40, 8, 77), (56, 4, 1)]) with data := (List.replicate 64 (toBytes 4 0x3F800000)).flatten ++ (List.replicate 64 (toBytes 4 0x3F800000)).flatten }, by simp only [Runs]; decide +kernel, by decide +kernel⟩,
   ⟨run (withSearch (fun x => { x with sweeps := [sweep1] })) (cmd 1 0x81 [(32, 2, 5)]), ⟨1, 7, .none⟩, cmd 1 0x81 [(32, 2, 5)], coll5, by simp only [Runs]; decide +kernel, by decide +kernel⟩⟩

theorem witness_PoolsGrowAndTheBraidIsRepaired :
    (∃ (s : State) (id : CmdId) (c : Cmd) (x : Coll), findColl s (c.b 32 2) = some x ∧ x.nsid = c.nsid ∧ ∃ (p : Pool), Runs s id c 133 [(32, 2), (36, 4)] ∧ FirstOfPool s c ∧ findPool x (c.b 36 4) = some p)
    ∧ (∃ (s : State) (id : CmdId) (c : Cmd) (x : Coll), findColl s (c.b 32 2) = some x ∧ x.nsid = c.nsid ∧ let n := le c.data 0 4; let es := (List.range n).map (fun i => le c.data (4 + 4 * i) 4); Runs s id c 0x86 [(32, 3)] ∧ c.b 34 1 = 2 ∧ 1 ≤ n ∧ n ≤ 16 ∧ c.bufBytes = 4 + 4 * n ∧ (∀ i ∈ es, ∃ y, findNode x.nodes i = some y ∧ y.valid = true))
    ∧ (∃ (s : State) (id : CmdId) (c : Cmd) (x : Coll), findColl s (c.b 32 2) = some x ∧ x.nsid = c.nsid ∧ ∃ (p : Pool) (m : PMember), Runs s id c 134 [(32, 3)] ∧ c.b 34 1 = 0 ∧ 16 ≤ c.bufBytes ∧ let no : Nat := le c.data 0 4; let dest : List Nat := List.map (fun i => le c.data (16 + 4 * i) 4) (List.range (le c.data 12 1)); le c.data 12 1 ≤ 16 ∧ c.bufBytes = 16 + 4 * le c.data 12 1 ∧ le c.data 13 3 = 0 ∧ no < 16 * x.poolsMax ∧ findPool x (le c.data 4 4) = some p ∧ p.members[le c.data 8 4]? = some m ∧ tombed s x.nsid m.obj = false ∧ (∀ n ∈ dest, n ≠ no ∧ ∃ y, findNode x.nodes n = some y ∧ y.valid = true) ∧ objRefusal s c.dom (nodeParts s x no) = none)
    ∧ (∃ (s : State) (id : CmdId) (c : Cmd) (x : Coll), findColl s (c.b 32 2) = some x ∧ x.nsid = c.nsid ∧ Runs s id c 134 [(32, 3)] ∧ c.b 34 1 = 1 ∧ c.bufBytes = 4 ∧ le c.data 0 4 < 16 * x.poolsMax ∧ objRefusal s c.dom (nodeParts s x (le c.data 0 4)) = none) :=
  ⟨⟨run (withSearch id) (cmd 1 0x85 [(32, 2, 5), (36, 4, 0)]), ⟨1, 7, .none⟩, cmd 1 0x85 [(32, 2, 5), (36, 4, 0)], coll5, by decide +kernel, by decide +kernel, pool0, by simp only [Runs]; decide +kernel, by simp only [FirstOfPool]; decide +kernel, by decide +kernel⟩,
   ⟨run (withSearch (fun x => { x with colls := [{ coll5 with nodes := [{ no := 2, gen := 3, valid := true, pool := 0, member := 0, obj := 5, item := 1, edges := [], codes := codes 9 }] }] })) (buf 8 { (cmd 1 0x86 [(32, 2, 5), (34, 1, 2)]) with data := toBytes 4 1 ++ toBytes 4 2 }), ⟨1, 7, .none⟩, buf 8 { (cmd 1 0x86 [(32, 2, 5), (34, 1, 2)]) with data := toBytes 4 1 ++ toBytes 4 2 }, { coll5 with nodes := [{ no := 2, gen := 3, valid := true, pool := 0, member := 0, obj := 5, item := 1, edges := [], codes := codes 9 }] }, by decide +kernel, by decide +kernel, by simp only [Runs]; decide +kernel, by decide +kernel, by decide +kernel, by decide +kernel, by decide +kernel, (by intro i hi; have h : i ∈ [2] := hi; rw [List.mem_singleton] at h; subst h; exact ⟨{ no := 2, gen := 3, valid := true, pool := 0, member := 0, obj := 5, item := 1, edges := [], codes := codes 9 }, by decide +kernel, rfl⟩)⟩,
   ⟨run (withSearch (fun x => { x with colls := [{ coll5 with nodes := [{ no := 2, gen := 3, valid := true, pool := 0, member := 0, obj := 5, item := 1, edges := [], codes := codes 9 }] }] })) (buf 20 { (cmd 1 0x86 [(32, 2, 5), (34, 1, 0)]) with data := toBytes 4 63 ++ toBytes 4 0 ++ toBytes 4 1 ++ toBytes 4 1 ++ toBytes 4 2 }), ⟨1, 7, .none⟩, buf 20 { (cmd 1 0x86 [(32, 2, 5), (34, 1, 0)]) with data := toBytes 4 63 ++ toBytes 4 0 ++ toBytes 4 1 ++ toBytes 4 1 ++ toBytes 4 2 }, { coll5 with nodes := [{ no := 2, gen := 3, valid := true, pool := 0, member := 0, obj := 5, item := 1, edges := [], codes := codes 9 }] }, by decide +kernel, by decide +kernel, pool0, member 6 11, by simp only [Runs]; decide +kernel, by decide +kernel⟩,
   ⟨run (withSearch (fun x => { x with colls := [{ coll5 with nodes := [{ no := 2, gen := 3, valid := true, pool := 0, member := 0, obj := 5, item := 1, edges := [], codes := codes 9 }] }] })) (buf 4 { (cmd 1 0x86 [(32, 2, 5), (34, 1, 1)]) with data := toBytes 4 2 }), ⟨1, 7, .none⟩, buf 4 { (cmd 1 0x86 [(32, 2, 5), (34, 1, 1)]) with data := toBytes 4 2 }, { coll5 with nodes := [{ no := 2, gen := 3, valid := true, pool := 0, member := 0, obj := 5, item := 1, edges := [], codes := codes 9 }] }, by decide +kernel, by decide +kernel, by simp only [Runs]; decide +kernel, by decide +kernel⟩⟩

theorem witness_PoolBoundsAreSound :
    (∃ (metric : Nat) (a : List Byte) (p : Pool), metric < 3 ∧ a.length = p.centroid.length ∧ (boundsOf p.centroid p.members).1 ≤ p.r2 ∧ (boundsOf p.centroid p.members).2 ≤ p.r1 ∧ ∃ m, m ∈ p.members ∧ m.codes.length = a.length ∧ ∃ l, lowerBound metric a p = some l)
    ∧ (∃ (metric : Nat) (a : List Byte) (p : Pool), metric < 3 ∧ a.length = p.centroid.length ∧ (boundsOf p.centroid p.members).1 ≤ p.r2 ∧ (boundsOf p.centroid p.members).2 ≤ p.r1 ∧ ∃ (q : Query), q.codes = a ∧ 0 < q.depth ∧ q.known.length < q.depth)
    ∧ (∃ (metric : Nat) (a : List Byte) (p : Pool), metric < 3 ∧ a.length = p.centroid.length ∧ (boundsOf p.centroid p.members).1 ≤ p.r2 ∧ (boundsOf p.centroid p.members).2 ≤ p.r1 ∧ ∃ (q : Query), q.codes = a ∧ 0 < q.depth ∧ (q.known.Pairwise (fun a b => candLt b a = false)) ∧ needsPool metric q p = false ∧ ∃ m, m ∈ p.members ∧ m.codes.length = a.length ∧ ∃ k, k ∈ q.known.take q.depth) :=
  ⟨⟨1, codes 200, pool0, by decide +kernel, by decide +kernel, by decide +kernel, by decide +kernel, member 5 9, List.mem_cons_self, by decide +kernel, 2286144, by decide +kernel⟩,
   ⟨2, codes 200, pool0, by decide +kernel, by decide +kernel, by decide +kernel, by decide +kernel, { query 1 with codes := codes 200 }, by decide +kernel⟩,
   ⟨1, codes 200, pool0, by decide +kernel, by decide +kernel, by decide +kernel, by decide +kernel, { query 1 with codes := codes 200, depth := 1, known := [(⟨3, 5, 1, 3, 0⟩ : Cand)] }, by decide +kernel, by decide +kernel, by decide +kernel, by decide +kernel, member 6 11, List.mem_cons_of_mem _ List.mem_cons_self, by decide +kernel, (⟨3, 5, 1, 3, 0⟩ : Cand), by decide +kernel⟩⟩

theorem witness_SearchesAndSnapshots :
    (∃ (s : State) (id : CmdId) (c : Cmd) (x : Coll), findColl s (c.b 32 2) = some x ∧ x.nsid = c.nsid ∧ let nt := c.b 35 1; let room := 32 + c.b 36 2 * (16 + 4 * ((c.b 34 1 / 4) % 2) + 4 * popCount (c.b 38 2) 16); let n := if (c.b 34 1).testBit 4 then x.dim else 4 * x.dim; Runs s id c 0x83 [(32, 24)] ∧ (∀ y ∈ searchConds s c false, y = 0) ∧ max (n + 16 * nt) room ≤ c.bufBytes ∧ (∀ y ∈ termsOf (c.data.drop n) nt, termBad y = false))
    ∧ (∃ (s : State) (id : CmdId) (c : Cmd) (x : Coll), findColl s (c.b 32 2) = some x ∧ x.nsid = c.nsid ∧ let nt := c.b 35 1; let room := 32 + c.b 36 2 * (16 + 4 * ((c.b 34 1 / 4) % 2) + 4 * popCount (c.b 38 2) 16); Runs s id c 0x84 [(32, 36), (68, 1), (72, 16), (96, 26), (124, 4)] ∧ (∀ y ∈ searchConds s c true ++ decodeConds s c 96 (c.b 68 1) true, y = 0) ∧ c.b 68 1 ≤ 5 ∧ c.b 56 8 = 0 ∧ 1 ≤ c.b 64 4 ∧ c.b 64 4 ≤ 2 ^ 24 ∧ c.b 72 8 % 8 = 0 ∧ c.b 80 8 % 64 = 0 ∧ max (16 * nt + c.b 64 4) room ≤ c.bufBytes ∧ (∀ y ∈ termsOf c.data nt, termBad y = false) ∧ entryOk s c.dom (c.b 72 8) = true ∧ stackRange s c.dom (c.b 80 8) (4 * x.dim) = true) :=
  ⟨⟨run (withSearch id) (buf 64 { (cmd 1 0x83 [(8, 4, 0xFFFFFFFF), (32, 2, 5), (34, 1, 17), (36, 2, 2)]) with data := codes 9 }), ⟨1, 7, .none⟩, buf 64 { (cmd 1 0x83 [(8, 4, 0xFFFFFFFF), (32, 2, 5), (34, 1, 17), (36, 2, 2)]) with data := codes 9 }, coll5, by decide +kernel, by decide +kernel, by simp only [Runs]; decide +kernel, by decide +kernel⟩,
   ⟨run ({ withSearch id with sched := { up.sched with ctxs := [ctx 3 .idle 0] }, mem := { up.mem with tags := [(0, .arena 0 3)] } }) (buf 64 { (cmd 1 0x84 [(8, 4, 3), (32, 2, 5), (34, 1, 1), (36, 2, 2), (64, 4, 8), (68, 1, 0), (72, 8, 0x1000), (80, 8, 0x2000), (104, 8, 0x4000), (118, 2, 1), (121, 1, 1), (124, 4, 1)]) with data := List.replicate 64 7 }), ⟨1, 7, .none⟩, buf 64 { (cmd 1 0x84 [(8, 4, 3), (32, 2, 5), (34, 1, 1), (36, 2, 2), (64, 4, 8), (68, 1, 0), (72, 8, 0x1000), (80, 8, 0x2000), (104, 8, 0x4000), (118, 2, 1), (121, 1, 1), (124, 4, 1)]) with data := List.replicate 64 7 }, coll5, by decide +kernel, by decide +kernel, by simp only [Runs]; decide +kernel, by decide +kernel⟩⟩

theorem witness_SweepsSearchAndAnswer :
    (∃ (s : State) (sweep : Nat) (isl : Nat) (units : List Nat) (w : Sweep) (p : Pool), (isl = 50 ∨ isl = 54) ∧ findSweep s sweep = some w ∧ State.wf s = true ∧ (List.find? (fun y => y.no == p.no) w.pools = some p) ∧ ∃ (rest : List (Nat × Nat)), w.order = (p.no, 0) :: rest ∧ p.damaged = false ∧ (∀ (c : Coll) (d : Pool), findColl s w.coll = some c → findPool c p.no = some d → d.damaged = false) ∧ let need : List Nat := needing s w p; poolIsland s p = isl ∧ unitsReady s isl units = true ∧ need ≠ [] ∧ w.queries.Nodup)
    ∧ (∃ (s : State) (sweep : Nat) (isl : Nat) (w : Sweep) (p : Pool), (isl = 50 ∨ isl = 54) ∧ findSweep s sweep = some w ∧ State.wf s = true ∧ (List.find? (fun y => y.no == p.no) w.pools = some p) ∧ ∃ (rest : List (Nat × Nat)), w.order = (p.no, 0) :: rest ∧ p.damaged = false ∧ (∀ (c : Coll) (d : Pool), findColl s w.coll = some c → findPool c p.no = some d → d.damaged = false) ∧ let need : List Nat := needing s w p; poolIsland s p = isl ∧ need = [] ∧ getF s 57 F.SRCH_POOLS_SKIPPED_COUNT < 2 ^ F.SRCH_POOLS_SKIPPED_COUNT.w - 1)
    ∧ (∃ (s : State) (sweep : Nat) (isl : Nat) (units : List Nat) (w : Sweep) (p : Pool), (isl = 50 ∨ isl = 54) ∧ findSweep s sweep = some w ∧ State.wf s = true ∧ (List.find? (fun y => y.no == p.no) w.pools = some p) ∧ ∃ (need : List Nat) (miss : Nat) (unit : Nat), w.active = [(p.no, isl, units, need, miss)] ∧ need.Nodup ∧ unit ∈ units ∧ unit < 64 ∧ OnlyPool s sweep isl unit ∧ w.queries.Nodup)
    ∧ (∃ (s : State) (sweep : Nat) (w : Sweep) (q : Query) (x : Coll) (c : Cmd), findSweep s sweep = some w ∧ w.order = [] ∧ w.active = [] ∧ w.queries = [q.id] ∧ findQuery s q.id = some q ∧ findColl s w.coll = some x ∧ q.coll = w.coll ∧ x.deleting = 0 ∧ s.search.deletes = [] ∧ findCmd s q.no = some c ∧ q.rerank = false ∧ q.risal = false ∧ q.fail ≠ 0)
    ∧ (∃ (s : State) (sweep : Nat) (w : Sweep) (q : Query) (x : Coll) (c : Cmd), findSweep s sweep = some w ∧ w.order = [] ∧ w.active = [] ∧ w.queries = [q.id] ∧ findQuery s q.id = some q ∧ findColl s w.coll = some x ∧ q.coll = w.coll ∧ x.deleting = 0 ∧ s.search.deletes = [] ∧ findCmd s q.no = some c ∧ q.rerank = false ∧ q.risal = false ∧ let all := q.known.map (fun k => (k, attrsOf s x.nsid k.obj)); let kept := if q.filter then all.filter (fun r => predHolds r.2 q.terms none) else all; let wide := min (q.depth * x.w) 10000; q.fail = 0 ∧ q.filter = true ∧ kept.length < q.k ∧ q.depth < wide ∧ q.widened = false)
    ∧ (∃ (s : State) (sweep : Nat) (w : Sweep) (q : Query) (x : Coll) (c : Cmd), findSweep s sweep = some w ∧ w.order = [] ∧ w.active = [] ∧ w.queries = [q.id] ∧ findQuery s q.id = some q ∧ findColl s w.coll = some x ∧ q.coll = w.coll ∧ x.deleting = 0 ∧ s.search.deletes = [] ∧ findCmd s q.no = some c ∧ q.rerank = false ∧ q.risal = false ∧ let all := q.known.map (fun k => (k, attrsOf s x.nsid k.obj)); let kept := if q.filter then all.filter (fun r => predHolds r.2 q.terms none) else all; let wide := min (q.depth * x.w) 10000; q.fail = 0 ∧ ((q.filter = false ∨ q.k ≤ kept.length ∨ wide ≤ q.depth ∨ q.widened = true)))
    ∧ (∃ (s : State) (sweep : Nat) (isl : Nat) (w : Sweep) (p : Pool), (isl = 50 ∨ isl = 54) ∧ findSweep s sweep = some w ∧ State.wf s = true ∧ (List.find? (fun y => y.no == p.no) w.pools = some p) ∧ ∃ (rest : List (Nat × Nat)), w.order = (p.no, 0) :: rest ∧ p.damaged = false ∧ (∀ (c : Coll) (d : Pool), findColl s w.coll = some c → findPool c p.no = some d → d.damaged = false) ∧ poolIsland s p ≠ isl)
    ∧ (∃ (s : State) (sweep : Nat) (isl : Nat) (units : List Nat) (w : Sweep) (p : Pool), (isl = 50 ∨ isl = 54) ∧ findSweep s sweep = some w ∧ State.wf s = true ∧ (List.find? (fun y => y.no == p.no) w.pools = some p) ∧ ∃ (need : List Nat) (miss : Nat) (unit : Nat), w.active = [(p.no, isl, units, need, miss)] ∧ need.Nodup ∧ unit ∈ units ∧ unit < 64 ∧ OnlyPool s sweep isl unit ∧ ∃ (c : Coll), findColl s w.coll = some c ∧ findPool c p.no = some p) :=
  ⟨⟨withSearch (fun x => { x with queries := [query 1], sweeps := [{ sweep1 with order := [(0, 0)] }] }), 1, 50, [63], { sweep1 with order := [(0, 0)] }, pool0, by decide +kernel, by decide +kernel, by decide +kernel, by decide +kernel, [], by decide +kernel, by decide +kernel, undamaged _ _ _ (by decide +kernel), by decide +kernel⟩,
   ⟨withSearch (fun x => { x with queries := [{ query 1 with codes := codes 200, depth := 1, known := [(⟨3, 5, 1, 3, 0⟩ : Cand)] }], sweeps := [{ sweep1 with order := [(0, 0)] }] }), 1, 50, { sweep1 with order := [(0, 0)] }, pool0, by decide +kernel, by decide +kernel, by decide +kernel, by decide +kernel, [], by decide +kernel, by decide +kernel, undamaged _ _ _ (by decide +kernel), by decide +kernel⟩,
   ⟨withSearch (fun x => { x with queries := [query 1], sweeps := [{ sweep1 with active := [(0, 50, [63, 5], [1], 1)] }] }), 1, 50, [63, 5], { sweep1 with active := [(0, 50, [63, 5], [1], 1)] }, pool0, by decide +kernel, by decide +kernel, by decide +kernel, by decide +kernel, [1], 1, 63, by decide +kernel, by decide +kernel, by decide +kernel, by decide +kernel, by simp only [OnlyPool]; decide +kernel, by decide +kernel⟩,
   ⟨run (withSearch (fun x => { x with queries := [{ query 1 with fail := 0x4002 }], sweeps := [sweep1] })) (buf 256 (cmd 1 0x83 [(32, 2, 5), (36, 2, 2)])), 1, sweep1, { query 1 with fail := 0x4002 }, coll5, buf 256 (cmd 1 0x83 [(32, 2, 5), (36, 2, 2)]), by decide +kernel⟩,
   ⟨run (withSearch (fun x => { x with queries := [{ query 1 with filter := true, known := [(⟨3, 5, 1, 3, 0⟩ : Cand)] }], sweeps := [sweep1] })) (buf 256 (cmd 1 0x83 [(32, 2, 5), (36, 2, 2)])), 1, sweep1, { query 1 with filter := true, known := [(⟨3, 5, 1, 3, 0⟩ : Cand)] }, coll5, buf 256 (cmd 1 0x83 [(32, 2, 5), (36, 2, 2)]), by decide +kernel⟩,
   ⟨run (withSearch (fun x => { x with queries := [{ query 1 with filter := true, known := [(⟨3, 5, 1, 3, 0⟩ : Cand)], widened := true }], sweeps := [sweep1] })) (buf 256 (cmd 1 0x83 [(32, 2, 5), (36, 2, 2)])), 1, sweep1, { query 1 with filter := true, known := [(⟨3, 5, 1, 3, 0⟩ : Cand)], widened := true }, coll5, buf 256 (cmd 1 0x83 [(32, 2, 5), (36, 2, 2)]), by decide +kernel⟩,
   ⟨withSearch (fun x => { x with queries := [query 1], sweeps := [{ sweep1 with order := [(0, 0)] }] }), 1, 54, { sweep1 with order := [(0, 0)] }, pool0, by decide +kernel, by decide +kernel, by decide +kernel, by decide +kernel, [], by decide +kernel, by decide +kernel, undamaged _ _ _ (by decide +kernel), by decide +kernel⟩,
   ⟨withSearch (fun x => { x with queries := [query 1], sweeps := [{ sweep1 with active := [(0, 50, [63, 5], [1], 1)] }] }), 1, 50, [63, 5], { sweep1 with active := [(0, 50, [63, 5], [1], 1)] }, pool0, by decide +kernel, by decide +kernel, by decide +kernel, by decide +kernel, [1], 1, 63, by decide +kernel, by decide +kernel, by decide +kernel, by decide +kernel, by simp only [OnlyPool]; decide +kernel, coll5, by decide +kernel⟩⟩

theorem witness_UnitsOfMediaAndDecodes :
    (∃ (s : State) (isl u : Nat), State.wf s = true ∧ isl < 60 ∧ u < 64 ∧ ((isl = 50 ∨ isl = 54)) ∧ sieveEnabled s isl u = true ∧ sieveState s isl u = 3)
    ∧ (∃ (s : State) (isl u : Nat), State.wf s = true ∧ isl < 60 ∧ u < 64 ∧ ((isl = 50 ∨ isl = 54)) ∧ sieveEnabled s isl u = true ∧ sieveState s isl u = 1 ∧ sieveBusy s isl u = false)
    ∧ (∃ (s : State) (isl u : Nat), State.wf s = true ∧ isl < 60 ∧ u < 64 ∧ ((isl = 50 ∨ isl = 54)) ∧ sieveEnabled s isl u = true ∧ sieveState s isl u = 1 ∧ sieveBusy s isl u = true)
    ∧ (∃ (s : State) (isl u : Nat), State.wf s = true ∧ isl < 60 ∧ u < 64 ∧ ((isl = 50 ∨ isl = 54)) ∧ sieveState s isl u = 4 ∧ 64 ≤ mget 0 s.media.sieveJoin (isl * 64 + u))
    ∧ (∃ (s : State) (isl u : Nat), State.wf s = true ∧ isl < 60 ∧ u < 64 ∧ ((isl = 50 ∨ isl = 54)) ∧ sieveState s isl u = 4 ∧ mget 0 s.media.sieveJoin (isl * 64 + u) < 64)
    ∧ (∃ (s : State) (isl u : Nat), State.wf s = true ∧ isl < 60 ∧ u < 64 ∧ mediaEnabled s isl u = true ∧ mediaState s isl u = 3)
    ∧ (∃ (s : State) (isl u : Nat), State.wf s = true ∧ isl < 60 ∧ u < 64 ∧ mediaEnabled s isl u = true ∧ mediaState s isl u = 1 ∧ mediaBusy s isl u = false)
    ∧ (∃ (s : State) (isl u : Nat), State.wf s = true ∧ isl < 60 ∧ u < 64 ∧ mediaEnabled s isl u = true ∧ mediaState s isl u = 1 ∧ mediaBusy s isl u = true)
    ∧ (∃ (s : State) (isl u : Nat), State.wf s = true ∧ isl < 60 ∧ u < 64 ∧ mediaEnabled s isl u = true ∧ mediaState s isl u = 4 ∧ 16 ≤ mget 0 s.media.joinCount (isl * 16 + u))
    ∧ (∃ (s : State) (isl u : Nat), State.wf s = true ∧ isl < 60 ∧ u < 64 ∧ mediaEnabled s isl u = true ∧ mediaState s isl u = 4 ∧ mget 0 s.media.joinCount (isl * 16 + u) < 16)
    ∧ (∃ (s : State) (id : CmdId) (c : Cmd), State.wf s = true ∧ ∃ o l, Runs s id c 0x67 [(32, 26), (60, 4)] ∧ findObj s c.nsid (c.b 32 8) = some o ∧ o.storage = .host l ∧ o.id = c.b 32 8 ∧ o.quarantined = false ∧ (∀ y ∈ decodeConds s c 32 o.mtype false, y = 0))
    ∧ (∃ (s : State)   (n : Nat) (d : Decode), State.wf s = true ∧ ∃ fault, s.media.decodes[n]? = some d ∧ d.unit.isSome = true ∧ d.query = 0 ∧ d.risal = false ∧ d.wrap = 0 ∧ coded d.mtype = false ∧ fault = 0)
    ∧ (∃ (s : State)   (n : Nat) (d : Decode), State.wf s = true ∧ ∃ fault, s.media.decodes[n]? = some d ∧ d.unit.isSome = true ∧ d.query = 0 ∧ d.risal = false ∧ let e := runDecode d (if fault = 0 then none else some (fault - 1)); d.wrap = 0 ∧ coded d.mtype = true ∧ fault = e.frames + 1 ∧ e.frames < d.frames) :=
  ⟨⟨setF up 54 F.SIEVE_USTATE_STATE 3 63, 54, 63, by decide +kernel⟩,
   ⟨setF up 54 F.SIEVE_USTATE_STATE 1 63, 54, 63, by decide +kernel⟩,
   ⟨{ setF up 54 F.SIEVE_USTATE_STATE 1 63 with search := { up.search with sweeps := [{ sweep1 with active := [(0, 54, [63], [1], 0)] }] } }, 54, 63, by decide +kernel⟩,
   ⟨{ setF up 54 F.SIEVE_USTATE_STATE 4 63 with media := { up.media with sieveJoin := [(54 * 64 + 63, 64)] } }, 54, 63, by decide +kernel⟩,
   ⟨{ setF up 54 F.SIEVE_USTATE_STATE 4 63 with media := { up.media with sieveJoin := [(54 * 64 + 63, 63)] } }, 54, 63, by decide +kernel⟩,
   ⟨setF up 51 F.MEDIA_USTATE_STATE 3 12, 51, 12, by decide +kernel⟩,
   ⟨setF up 51 F.MEDIA_USTATE_STATE 1 12, 51, 12, by decide +kernel⟩,
   ⟨{ setF up 51 F.MEDIA_USTATE_STATE 1 12 with media := { up.media with decodes := [{ no := 1, query := 0, nsid := 1, mtype := 2, obj := 5, content := [], dest := 0x4000, first := 0, frames := 1, step := 1, profile := 0, captured := [], wrap := 0, destBytes := 1024, island := 51, unit := some 3, risal := false, ctx := 0, entry := 0, slot := 0 }] } }, 51, 12, by decide +kernel⟩,
   ⟨{ setF up 55 F.MEDIA_USTATE_STATE 4 12 with media := { up.media with joinCount := [(55 * 16 + 12, 16)] } }, 55, 12, by decide +kernel⟩,
   ⟨{ setF up 55 F.MEDIA_USTATE_STATE 4 12 with media := { up.media with joinCount := [(55 * 16 + 12, 15)] } }, 55, 12, by decide +kernel⟩,
   ⟨run ({ withObjs (roomy up) [obj 5 2 4096] with sched := { up.sched with ctxs := [ctx 3 .idle 0] }, mem := { up.mem with tags := [(0, .arena 0 3)] } }) (cmd 1 0x67 [(32, 8, 5), (40, 8, 0x4000), (52, 2, 1), (54, 2, 1), (60, 4, 1)]), ⟨1, 7, .none⟩, cmd 1 0x67 [(32, 8, 5), (40, 8, 0x4000), (52, 2, 1), (54, 2, 1), (60, 4, 1)], by decide +kernel, obj 5 2 4096, [(0, 1024)], by simp only [Runs]; decide +kernel, by decide +kernel⟩,
   ⟨{ up with media := { up.media with decodes := [{ no := 1, query := 0, nsid := 1, mtype := 0, obj := 5, content := [], dest := 0x4000, first := 0, frames := 0, step := 1, profile := 0, captured := [], wrap := 0, destBytes := 1024, island := 51, unit := some 0, risal := false, ctx := 0, entry := 0, slot := 0 }] } }, 0, { no := 1, query := 0, nsid := 1, mtype := 0, obj := 5, content := [], dest := 0x4000, first := 0, frames := 0, step := 1, profile := 0, captured := [], wrap := 0, destBytes := 1024, island := 51, unit := some 0, risal := false, ctx := 0, entry := 0, slot := 0 }, by decide +kernel, 0, by decide +kernel⟩,
   ⟨{ up with media := { up.media with decodes := [{ no := 1, query := 0, nsid := 1, mtype := 2, obj := 5, content := [], dest := 0x4000, first := 0, frames := 1, step := 1, profile := 0, captured := [], wrap := 0, destBytes := 1024, island := 51, unit := some 0, risal := false, ctx := 0, entry := 0, slot := 0 }] } }, 0, { no := 1, query := 0, nsid := 1, mtype := 2, obj := 5, content := [], dest := 0x4000, first := 0, frames := 1, step := 1, profile := 0, captured := [], wrap := 0, destBytes := 1024, island := 51, unit := some 0, risal := false, ctx := 0, entry := 0, slot := 0 }, by decide +kernel, 1, by decide +kernel⟩⟩

theorem witness_RisalCommandsAct :
    (∃ (s : State) (id : CmdId) (c : Cmd), findCmd s c.no = some c ∧ Runs s id c 192 [(32, 96)] ∧ 4096 ≤ c.bufBytes)
    ∧ (∃ (s : State) (id : CmdId) (c : Cmd), findCmd s c.no = some c ∧ ∃ (o : Obj), Runs s id c 197 [(32, 96)] ∧ findObj s c.nsid (c.b 48 8) = some o ∧ o.risal = false)
    ∧ (∃ (s : State) (id : CmdId) (c : Cmd), findCmd s c.no = some c ∧ ∃ (o : Obj), Runs s id c 197 [(32, 96)] ∧ findObj s c.nsid (c.b 48 8) = some o ∧ o.risal = true ∧ risalCtx s c = true ∧ risalEntry s ≠ 0 ∧ risalCan s c o.mtype = false)
    ∧ (∃ (s : State) (id : CmdId) (c : Cmd), findCmd s c.no = some c ∧ let src : Nat := c.b 32 4 / 16 % 4; Runs s id c 198 [(32, 96)] ∧ 32 ≤ c.bufBytes ∧ ∃ (x : Coll) (codes : List Byte), findColl s 0 = some x ∧ src ≠ 1 ∧ (if src = 2 then lastCodes s (c.b 48 8) = some codes else 2048 ≤ c.bufBytes ∧ codes = x.encode (List.take 2048 c.data)))
    ∧ (∃ (s : State) (id : CmdId) (c : Cmd), findCmd s c.no = some c ∧ let src : Nat := c.b 32 4 / 16 % 4; Runs s id c 198 [(32, 96)] ∧ 32 ≤ c.bufBytes ∧ src = 2 ∧ lastCodes s (c.b 48 8) = none)
    ∧ (∃ (s : State) (id : CmdId) (c : Cmd), findCmd s c.no = some c ∧ ∃ (o : Obj), Runs s id c 197 [(32, 96)] ∧ findObj s c.nsid (c.b 48 8) = some o ∧ o.risal = true ∧ risalCtx s c = true ∧ risalEntry s ≠ 0 ∧ risalCan s c o.mtype = true ∧ o.quarantined = false ∧ risalStatus s = 0)
    ∧ (∃ (s : State) (id : CmdId) (c : Cmd), findCmd s c.no = some c ∧ ∃ (o : Obj), Runs s id c 197 [(32, 96)] ∧ findObj s c.nsid (c.b 48 8) = some o ∧ o.risal = true ∧ risalCtx s c = true ∧ risalEntry s ≠ 0 ∧ risalCan s c o.mtype = true ∧ o.quarantined = false ∧ risalStatus s ≠ 0)
    ∧ (∃ (s : State) (id : CmdId) (c : Cmd), findCmd s c.no = some c ∧ let src : Nat := c.b 32 4 / 16 % 4; Runs s id c 198 [(32, 96)] ∧ 32 ≤ c.bufBytes ∧ let n : Nat := if c.b 44 4 = 0 then c.bufBytes else c.b 44 4; let ty : Nat := getF s 56 F.RISAL_CTYPE_CTYPE; (findColl s 0).isSome = true ∧ src = 1 ∧ n ≤ c.bufBytes ∧ 1 ≤ n ∧ n ≤ 2 ^ 24 ∧ risalCan s c ty = false)
    ∧ (∃ (s : State) (id : CmdId) (c : Cmd), findCmd s c.no = some c ∧ let src : Nat := c.b 32 4 / 16 % 4; Runs s id c 198 [(32, 96)] ∧ 32 ≤ c.bufBytes ∧ let n : Nat := if c.b 44 4 = 0 then c.bufBytes else c.b 44 4; let ty : Nat := getF s 56 F.RISAL_CTYPE_CTYPE; (findColl s 0).isSome = true ∧ src = 1 ∧ n ≤ c.bufBytes ∧ 1 ≤ n ∧ n ≤ 2 ^ 24 ∧ risalCan s c ty = true ∧ risalStatus s ≠ 0)
    ∧ (∃ (s : State) (id : CmdId) (c : Cmd), findCmd s c.no = some c ∧ let src : Nat := c.b 32 4 / 16 % 4; Runs s id c 198 [(32, 96)] ∧ 32 ≤ c.bufBytes ∧ let n : Nat := if c.b 44 4 = 0 then c.bufBytes else c.b 44 4; let ty : Nat := getF s 56 F.RISAL_CTYPE_CTYPE; (findColl s 0).isSome = true ∧ src = 1 ∧ n ≤ c.bufBytes ∧ 1 ≤ n ∧ n ≤ 2 ^ 24 ∧ risalCan s c ty = true ∧ risalStatus s = 0) :=
  ⟨⟨run up (buf 4096 (cmd 1 0xC0 [])), ⟨1, 7, .none⟩, buf 4096 (cmd 1 0xC0 []), by decide +kernel, by simp only [Runs]; decide +kernel, by decide +kernel⟩,
   ⟨run ({ setF (setF (setF (setF (roomy up) 56 F.RISAL_ENTRY_LO_ADDR 512) 56 F.RISAL_SLOT_LO_ADDR 128) 56 F.RISAL_DEST_LO_ADDR 256) 56 F.RISAL_DCFG_DEST_KIB 4 with search := { up.search with objs := [{ obj 5 2 4096 with risal := false }] }, sched := { up.sched with ctxs := [ctx 3 .idle 0] }, mem := { up.mem with tags := [(0, .arena 0 3)] } }) (cmd 1 0xC5 [(8, 4, 3), (48, 8, 5)]), ⟨1, 7, .none⟩, (cmd 1 0xC5 [(8, 4, 3), (48, 8, 5)]), by decide +kernel, { obj 5 2 4096 with risal := false }, by simp only [Runs]; decide +kernel, by decide +kernel⟩,
   ⟨run ({ setF (setF (setF (setF (roomy up) 56 F.RISAL_ENTRY_LO_ADDR 512) 56 F.RISAL_SLOT_LO_ADDR 128) 56 F.RISAL_DEST_LO_ADDR 256) 56 F.RISAL_DCFG_DEST_KIB 4 with search := { up.search with objs := [{ obj 5 9 4096 with risal := true }] }, sched := { up.sched with ctxs := [ctx 3 .idle 0] }, mem := { up.mem with tags := [(0, .arena 0 3)] } }) (cmd 1 0xC5 [(8, 4, 3), (48, 8, 5)]), ⟨1, 7, .none⟩, (cmd 1 0xC5 [(8, 4, 3), (48, 8, 5)]), by decide +kernel, { obj 5 9 4096 with risal := true }, by simp only [Runs]; decide +kernel, by decide +kernel⟩,
   ⟨run (withSearch (fun x => { x with colls := [{ coll5 with no := 0, last := [(5, 0, 1)] }] })) (buf 64 (cmd 1 0xC6 [(32, 4, 2 * 16 + 8 + 1), (36, 2, 3), (40, 4, 9), (48, 8, 5)])), ⟨1, 7, .none⟩, buf 64 (cmd 1 0xC6 [(32, 4, 2 * 16 + 8 + 1), (36, 2, 3), (40, 4, 9), (48, 8, 5)]), by decide +kernel, by simp only [Runs]; decide +kernel, by decide +kernel, { coll5 with no := 0, last := [(5, 0, 1)] }, codes 11, by decide +kernel⟩,
   ⟨run (withSearch (fun x => { x with colls := [{ coll5 with no := 0, last := [(5, 0, 1)] }] })) (buf 64 (cmd 1 0xC6 [(32, 4, 2 * 16 + 1), (48, 8, 6)])), ⟨1, 7, .none⟩, buf 64 (cmd 1 0xC6 [(32, 4, 2 * 16 + 1), (48, 8, 6)]), by decide +kernel, by simp only [Runs]; decide +kernel, by decide +kernel⟩,
   ⟨run ({ setF (setF (setF (setF (roomy up) 56 F.RISAL_ENTRY_LO_ADDR 512) 56 F.RISAL_SLOT_LO_ADDR 128) 56 F.RISAL_DEST_LO_ADDR 256) 56 F.RISAL_DCFG_DEST_KIB 4 with search := { up.search with objs := [{ obj 5 2 4096 with risal := true }] }, sched := { up.sched with ctxs := [ctx 3 .idle 0] }, mem := { up.mem with tags := [(0, .arena 0 3)] } }) (cmd 1 0xC5 [(8, 4, 3), (48, 8, 5)]), ⟨1, 7, .none⟩, (cmd 1 0xC5 [(8, 4, 3), (48, 8, 5)]), by decide +kernel, { obj 5 2 4096 with risal := true }, by simp only [Runs]; decide +kernel, by decide +kernel⟩,
   ⟨run ({ setF (setF (setF (setF (roomy up) 56 F.RISAL_ENTRY_LO_ADDR 512) 56 F.RISAL_SLOT_LO_ADDR 128) 56 F.RISAL_DEST_LO_ADDR 256) 56 F.RISAL_DCFG_DEST_KIB 0 with search := { up.search with objs := [{ obj 5 2 4096 with risal := true }] }, sched := { up.sched with ctxs := [ctx 3 .idle 0] }, mem := { up.mem with tags := [(0, .arena 0 3)] } }) (cmd 1 0xC5 [(8, 4, 3), (48, 8, 5)]), ⟨1, 7, .none⟩, (cmd 1 0xC5 [(8, 4, 3), (48, 8, 5)]), by decide +kernel, { obj 5 2 4096 with risal := true }, by simp only [Runs]; decide +kernel, by decide +kernel⟩,
   ⟨run ({ setF (setF (setF (setF (setF (roomy up) 56 F.RISAL_ENTRY_LO_ADDR 512) 56 F.RISAL_SLOT_LO_ADDR 128) 56 F.RISAL_DEST_LO_ADDR 256) 56 F.RISAL_DCFG_DEST_KIB 4) 56 F.RISAL_CTYPE_CTYPE 9 with search := { up.search with colls := [{ coll5 with no := 0 }] }, sched := { up.sched with ctxs := [ctx 3 .idle 0] }, mem := { up.mem with tags := [(0, .arena 0 3)] } }) (buf 64 (cmd 1 0xC6 [(8, 4, 3), (32, 4, 16 + 1), (44, 4, 64)])), ⟨1, 7, .none⟩, (buf 64 (cmd 1 0xC6 [(8, 4, 3), (32, 4, 16 + 1), (44, 4, 64)])), by decide +kernel, by simp only [Runs]; decide +kernel, by decide +kernel⟩,
   ⟨run ({ setF (setF (setF (setF (setF (roomy up) 56 F.RISAL_ENTRY_LO_ADDR 512) 56 F.RISAL_SLOT_LO_ADDR 128) 56 F.RISAL_DEST_LO_ADDR 256) 56 F.RISAL_DCFG_DEST_KIB 0) 56 F.RISAL_CTYPE_CTYPE 2 with search := { up.search with colls := [{ coll5 with no := 0 }] }, sched := { up.sched with ctxs := [ctx 3 .idle 0] }, mem := { up.mem with tags := [(0, .arena 0 3)] } }) (buf 64 (cmd 1 0xC6 [(8, 4, 3), (32, 4, 16 + 1), (44, 4, 0)])), ⟨1, 7, .none⟩, (buf 64 (cmd 1 0xC6 [(8, 4, 3), (32, 4, 16 + 1), (44, 4, 0)])), by decide +kernel, by simp only [Runs]; decide +kernel, by decide +kernel⟩,
   ⟨run ({ setF (setF (setF (setF (setF (roomy up) 56 F.RISAL_ENTRY_LO_ADDR 512) 56 F.RISAL_SLOT_LO_ADDR 128) 56 F.RISAL_DEST_LO_ADDR 256) 56 F.RISAL_DCFG_DEST_KIB 4) 56 F.RISAL_CTYPE_CTYPE 2 with search := { up.search with colls := [{ coll5 with no := 0 }] }, sched := { up.sched with ctxs := [ctx 3 .idle 0] }, mem := { up.mem with tags := [(0, .arena 0 3)] } }) (buf 64 (cmd 1 0xC6 [(8, 4, 3), (32, 4, 16 + 1), (44, 4, 64)])), ⟨1, 7, .none⟩, (buf 64 (cmd 1 0xC6 [(8, 4, 3), (32, 4, 16 + 1), (44, 4, 64)])), by decide +kernel, by simp only [Runs]; decide +kernel, by decide +kernel⟩⟩

theorem witness_DieOperationsAndPageReads :
    (∃ (s : State) (c d : Nat), DieServes s c d ∧ let x := getDie s c d; ∃ (st : DieSt) (more isl : Nat), isl = chIsl c ∧ (((x.st = .prog ∧ st = .psuspending ∧ more = getF s isl F.FCH_SUSP_CFG_PROG_MAX) ∨ (x.st = .erase ∧ st = .esuspending ∧ more = getF s isl F.FCH_SUSP_CFG_ERASE_MAX))) ∧ (x.reads.any (fun o => !o.isRaw) = true) ∧ x.suspensions < more)
    ∧ (∃ (s : State) (c d : Nat), DieServes s c d ∧ let x := getDie s c d; ∃ (st : DieSt) (more isl : Nat), isl = chIsl c ∧ (((x.st = .prog ∧ st = .psuspending ∧ more = getF s isl F.FCH_SUSP_CFG_PROG_MAX) ∨ (x.st = .erase ∧ st = .esuspending ∧ more = getF s isl F.FCH_SUSP_CFG_ERASE_MAX))) ∧ more ≤ x.suspensions)
    ∧ (∃ (s : State) (c d : Nat), DieServes s c d ∧ let x := getDie s c d; ∃ (st : DieSt), (((x.st = .psuspending ∧ st = .psusp) ∨ (x.st = .esuspending ∧ st = .esusp))) ∧ x.reads ≠ [])
    ∧ (∃ (s : State) (c d : Nat) (p : PageAddr) (level no : Nat), DieServes s c d ∧ p.chan = c ∧ p.die = d ∧ p.block < 1024 ∧ let x := getDie s c d; x.st = .read ∧ x.run = some (.read p level (.cmd no)) ∧ level < 7)
    ∧ (∃ (s : State) (c d : Nat) (p : PageAddr) (level no : Nat) (k : Cmd), DieServes s c d ∧ p.chan = c ∧ p.die = d ∧ p.block < 1024 ∧ let x := getDie s c d; x.st = .read ∧ x.run = some (.read p level (.cmd no)) ∧ level = 0 ∧ findCmd s no = some k ∧ k.no = no ∧ k.opcode = 0x25 ∧ firstBad s k.nsid (k.b 32 8) (k.b 40 4) = none ∧ stripeAt s p = none ∧ (readsLeft (updDie s c d (fun y => { y with st := .idle, run := none })) (.cmd no) = false)) :=
  ⟨⟨setF (withDie { st := .prog, run := some (.prog 1 0 0 2 false), reads := [.read pgA 0 (.cmd 1)] }) 53 F.FCH_SUSP_CFG_PROG_MAX 3, 127, 3, by simp only [DieServes, FlashSorted]; decide +kernel, .psuspending, 3, 53, by decide +kernel⟩,
   ⟨setF (withDie { st := .erase, run := some (.erase []), suspensions := 2, reads := [.read pgA 0 (.cmd 1)] }) 53 F.FCH_SUSP_CFG_ERASE_MAX 2, 127, 3, by simp only [DieServes, FlashSorted]; decide +kernel, .esuspending, 2, 53, by decide +kernel⟩,
   ⟨withDie { st := .esuspending, run := some (.erase []), reads := [.read pgA 0 (.cmd 1)] }, 127, 3, by simp only [DieServes, FlashSorted]; decide +kernel, .esusp, by decide +kernel⟩,
   ⟨withDie { st := .read, run := some (.read pgA 6 (.cmd 1)) }, 127, 3, pgA, 6, 1, by simp only [DieServes, FlashSorted]; decide +kernel, by decide +kernel⟩,
   ⟨run (withDie { st := .read, run := some (.read pgA 0 (.cmd 1)) }) (cmd 1 0x25 [(40, 4, 1)]), 127, 3, pgA, 0, 1, cmd 1 0x25 [(40, 4, 1)], by simp only [DieServes, FlashSorted]; decide +kernel, by decide +kernel⟩⟩

theorem witness_ChannelsFailTestAndMove :
    (∃ (s : State) (c d : Nat), State.wf s = true ∧ c < 128 ∧ d < 16 ∧ chEnabled s c = true ∧ ∃ cause, 1 ≤ cause ∧ cause ≤ 4 ∧ chIn s c = true ∧ (getDie s c d).run.isSome = true)
    ∧ (∃ (s : State) (c d : Nat), State.wf s = true ∧ c < 128 ∧ d < 16 ∧ chEnabled s c = true ∧ let isl := chIsl c; let j := c % 32; chIn s c = true ∧ (getDie s c d).run.isSome = true ∧ dieOut s c d = false ∧ getF s isl F.FCH_CSTATE_DIES_OUT j < 2 ^ 16)
    ∧ (∃ (s : State) (c d : Nat), State.wf s = true ∧ c < 128 ∧ d < 16 ∧ chEnabled s c = true ∧ let isl := chIsl c; chIn s c = true ∧ ((getF s isl F.FCH_CTRL_LINE_TEST ≠ 0 ∨ (mfind s.flash.testDue c).isSome = true)) ∧ getF s isl F.FCH_LINE_TESTS_COUNT < 2 ^ 32 - 1 ∧ chFence s c = false)
    ∧ (∃ (s : State) (c d : Nat), State.wf s = true ∧ c < 128 ∧ d < 16 ∧ chEnabled s c = true ∧ chState s c = 1 ∧ membersOn s c = false)
    ∧ (∃ (s : State) (c d : Nat), State.wf s = true ∧ c < 128 ∧ d < 16 ∧ chEnabled s c = true ∧ chState s c = 1 ∧ membersOn s c = true)
    ∧ (∃ (s : State) (c d : Nat), State.wf s = true ∧ c < 128 ∧ d < 16 ∧ chEnabled s c = true ∧ chState s c = 4 ∧ s.flash.joinLeft = [])
    ∧ (∃ (s : State) (c d : Nat), State.wf s = true ∧ c < 128 ∧ d < 16 ∧ chEnabled s c = true ∧ chState s c = 4 ∧ ∃ id i x m, s.flash.joinLeft = [(id, i)] ∧ findStripe s id = some x ∧ x.members[i]? = some m ∧ m.chan = c) :=
  ⟨⟨withDie { st := .erase, run := some (.erase []) }, 127, 3, by decide +kernel, by decide +kernel, by decide +kernel, by decide +kernel, 4, by decide +kernel⟩,
   ⟨withDie { st := .erase, run := some (.erase []) }, 127, 3, by decide +kernel⟩,
   ⟨setF (withDie { st := .erase, run := some (.erase []) }) 53 F.FCH_CTRL_LINE_TEST 1, 127, 3, by decide +kernel⟩,
   ⟨setF (withDie { st := .erase, run := some (.erase []) }) 53 F.FCH_CSTATE_STATE 1 31, 127, 3, by decide +kernel⟩,
   ⟨{ setF (withDie { st := .erase, run := some (.erase []) }) 53 F.FCH_CSTATE_STATE 1 31 with flash := { up.flash with stripes := [{ stripe1 with members := [⟨127, 0, 9⟩] }] } }, 127, 3, by decide +kernel⟩,
   ⟨setF (withDie { st := .erase, run := some (.erase []) }) 53 F.FCH_CSTATE_STATE 4 31, 127, 3, by decide +kernel⟩,
   ⟨{ setF (withDie { st := .erase, run := some (.erase []) }) 53 F.FCH_CSTATE_STATE 4 31 with flash := { up.flash with stripes := [{ stripe1 with members := [⟨127, 0, 9⟩] }], joinLeft := [(1, 0)] } }, 127, 3, by decide +kernel, by decide +kernel, by decide +kernel, by decide +kernel, by decide +kernel, 1, 0, { stripe1 with members := [⟨127, 0, 9⟩] }, (⟨127, 0, 9⟩ : Member), by decide +kernel⟩⟩

theorem witness_StoredBlocksDecodeToTheirUnits :
    ∃ (unit : List Byte), 30720 ≤ unit.length ∧ unit.length ≤ 32768 :=
  ⟨List.replicate 30720 0, Nat.le_of_eq List.length_replicate.symm, by rw [List.length_replicate]; decide⟩

theorem witness_ErasesAndRows :
    (∃ (s : State) (c d : Nat), DieServes s c d ∧ let x := getDie s c d; ∃ p, x.st = .prog ∧ x.run = some (.journal p))
    ∧ (∃ (s : State) (c d : Nat), DieServes s c d ∧ let x := getDie s c d; ∃ bs, x.st = .erase ∧ x.run = some (.erase bs) ∧ (∀ b ∈ bs, b.2 ≠ 0) ∧ s.flash.discards = [])
    ∧ (∃ (s : State) (x : Stripe), FlashSorted s ∧ (s.flash.stripes.map (·.id)).Nodup ∧ findStripe s x.id = some x ∧ x.kind = .host ∧ x.sealed = false ∧ ∃ k n y isl, flashIndex isl = some k ∧ mfind s.flash.slots (slotKey k n) = some y ∧ y.placed = none ∧ flashRuns s = true ∧ slotCurrent s k n y = false ∧ (∀ c ∈ s.dqp.cmds, c.phase ≠ .started))
    ∧ (∃ (s : State) (x : Stripe), FlashSorted s ∧ (s.flash.stripes.map (·.id)).Nodup ∧ findStripe s x.id = some x ∧ x.kind = .host ∧ x.sealed = false ∧ x.rowsOut * x.rowKib < x.next)
    ∧ (∃ (s : State) (x : Stripe), FlashSorted s ∧ (s.flash.stripes.map (·.id)).Nodup ∧ findStripe s x.id = some x ∧ x.kind = .host ∧ x.sealed = false ∧ x.rowsDone < x.rowsOut ∧ x.rowsDone + 1 < x.rows ∧ ((∀ i, i < x.members.length → (x.rowsDone, i) ∈ x.progDone)))
    ∧ (∃ (s : State) (x : Stripe), FlashSorted s ∧ (s.flash.stripes.map (·.id)).Nodup ∧ findStripe s x.id = some x ∧ x.kind = .host ∧ x.sealed = false ∧ x.rowsDone < x.rowsOut ∧ x.rowsDone + 1 < x.rows ∧ ∃ i, i < x.members.length ∧ (x.rowsDone, i) ∉ x.progDone)
    ∧ (∃ (s : State) (c : Nat) (d : Nat), DieServes s c d ∧ let x : Die := getDie s c d; x.dones ≠ [] ∧ x.pageQueued = false ∧ x.wantErase = [] ∧ x.switches = false) :=
  ⟨⟨withDie { st := .prog, run := some (.journal (⟨0, 1, 0, [(⟨1, 0, 9, 4, 1, false⟩ : JEntry)]⟩ : JPage)) }, 127, 3, by simp only [DieServes, FlashSorted]; decide +kernel, (⟨0, 1, 0, [(⟨1, 0, 9, 4, 1, false⟩ : JEntry)]⟩ : JPage), by decide +kernel⟩,
   ⟨withDie { st := .erase, run := some (.erase [(0, 9), (1, 9)]), intents := [(⟨1, 0, 9, 4, 1, false⟩ : JEntry)] }, 127, 3, by simp only [DieServes, FlashSorted]; decide +kernel, [(0, 9), (1, 9)], by decide +kernel⟩,
   ⟨withStripes (fun f => { f with slots := [(3, slot (2 ^ 56 + 9))] }), stripe1, by simp only [FlashSorted]; decide +kernel, by decide +kernel, by decide +kernel, by decide +kernel, by decide +kernel, 0, 3, slot (2 ^ 56 + 9), 48, by decide +kernel⟩,
   ⟨withStripes (fun f => { f with stripes := [{ stripe1 with next := 513 }] }), { stripe1 with next := 513 }, by simp only [FlashSorted]; decide +kernel, by decide +kernel⟩,
   ⟨withStripes (fun f => { f with stripes := [{ stripe1 with progDone := [(0, 0), (0, 1), (0, 2)] }] }), { stripe1 with progDone := [(0, 0), (0, 1), (0, 2)] }, by simp only [FlashSorted]; decide +kernel, by decide +kernel⟩,
   ⟨withStripes id, stripe1, by simp only [FlashSorted]; decide +kernel, by decide +kernel, by decide +kernel, by decide +kernel, by decide +kernel, by decide +kernel, by decide +kernel, 2, by decide +kernel⟩,
   ⟨withDie { dones := [(⟨2, 0, 9, 4, 1, false⟩ : JEntry)] }, 127, 3, by simp only [DieServes, FlashSorted]; decide +kernel, by decide +kernel⟩⟩

theorem witness_CollectionsReplacementsAndPatrol :
    (∃ (s : State) (x : Stripe) (i : Nat) (m : Member), findStripe s x.id = some x ∧ x.members[i]? = some m ∧ ∃ dest, (s.flash.repls.find? (fun r => r.stripe == x.id && r.idx == i) = some ⟨x.id, i, dest⟩) ∧ (getSet s dest.chan dest.die dest.block).clean = false)
    ∧ (∃ (s : State) (isl k : Nat), State.wf s = true ∧ flashIndex isl = some k ∧ enabled s isl = true ∧ s.flash.patrolDone.getD k false = false ∧ s.flash.patrolOver.getD k false = false)
    ∧ (∃ (s : State) (isl k : Nat), State.wf s = true ∧ flashIndex isl = some k ∧ 65536 ≤ s.flash.jpages.getD k 0 ∧ s.flash.journal.length = 4 ∧ s.flash.seqs.length = 4 ∧ s.flash.jpages.length = 4)
    ∧ (∃ (s : State) (isl k : Nat), State.wf s = true ∧ flashIndex isl = some k ∧ enabled s isl = true)
    ∧ (∃ (s : State) (g : Nat), g < 8 ∧ flashRuns s = true ∧ ∃ (v : Nat) (x : Stripe) (gc : Gc), (List.find? (fun y => y.victim == v) s.flash.gcs = some gc) ∧ findStripe s v = some x ∧ x.kind ≠ StripeKind.journal ∧ v ∉ gc.targets ∧ gc.targets.all (targetReady s) = false)
    ∧ (∃ (s : State) (g : Nat), g < 8 ∧ flashRuns s = true ∧ ∃ (v : Nat) (x : Stripe) (gc : Gc), (List.find? (fun y => y.victim == v) s.flash.gcs = some gc) ∧ findStripe s v = some x ∧ x.kind ≠ StripeKind.journal ∧ v ∉ gc.targets ∧ gc.targets.all (targetReady s) = true ∧ mSorted none s.flash.map = true ∧ (∀ p ∈ liveOf s x, ∃ y ∈ s.flash.stripes, y.id ∈ gc.targets ∧ ∃ q ∈ y.packed, q.lua = p.lua))
    ∧ (∃ (s : State) (x : Stripe) (i : Nat) (m : Member), findStripe s x.id = some x ∧ x.members[i]? = some m ∧ ∃ (dest : Member), (List.find? (fun r => r.stripe == x.id && r.idx == i) s.flash.repls = some { stripe := x.id, idx := i, dest := dest }) ∧ (getSet s dest.chan dest.die dest.block).clean = true ∧ mSorted none s.flash.map = true)
    ∧ (∃ (s : State) (isl : Nat) (k : Nat), State.wf s = true ∧ flashIndex isl = some k ∧ enabled s isl = true ∧ flashRuns s = true ∧ getF s 59 F.WEIR_STATUS_MSTATE = 1 ∧ s.flash.patrolDone.getD k false = false ∧ patrolNext s (s.flash.patrol.getD k 0) (s.flash.patrolPage.getD k none) (patrolList s k (s.flash.patrol.getD k 0)) = none ∧ s.flash.patrol.length = 4 ∧ s.flash.patrolPage.length = 4 ∧ s.flash.patrolDone.length = 4 ∧ s.flash.patrolOver.length = 4 ∧ getF s isl F.FTL_PATROLS_COUNT < 2 ^ F.FTL_PATROLS_COUNT.w - 1)
    ∧ (∃ (s : State) (isl : Nat) (k : Nat), State.wf s = true ∧ flashIndex isl = some k ∧ ∃ (n : Nat), n < 60 ∧ clockRuns s n = true ∧ cyc s n < 2 ^ 63 ∧ (∀ a < 8, getF s n F.PROT_BUCKET_LEVEL a < 256)) :=
  ⟨⟨withStripes (fun f => { f with stripes := [{ stripe1 with sealed := true, rowsDone := 1 }], refresh := [(1, 2)], repls := [(⟨1, 2, ⟨2, 0, 700⟩⟩ : Repl)], sets := [((32) * 1024 + 700, { clean := false, free := false })] }), { stripe1 with sealed := true, rowsDone := 1 }, 2, ⟨2, 0, 9⟩, by decide +kernel, by decide +kernel, ⟨2, 0, 700⟩, by decide +kernel⟩,
   ⟨up, 53, 3, by decide +kernel⟩,
   ⟨{ up with flash := { up.flash with jpages := [65536, 0, 0, 0] } }, 48, 0, by decide +kernel⟩,
   ⟨up, 53, 3, by decide +kernel⟩,
   ⟨withStripes (fun f => { f with stripes := [{ stripe1 with sealed := true, rowsDone := 1, packed := [⟨2 ^ 56, 0, List.replicate 2048 0, 0⟩] }, { stripe1 with id := 2, kind := .target, packed := [⟨2 ^ 56, 0, List.replicate 2048 0, 0⟩] }], gcs := [(⟨1, [2], [2 ^ 56], 0⟩ : Gc)], map := [(2 ^ 56, .stripe 1 0)] }), 0, by decide +kernel, by decide +kernel, 1, { stripe1 with sealed := true, rowsDone := 1, packed := [⟨2 ^ 56, 0, List.replicate 2048 0, 0⟩] }, (⟨1, [2], [2 ^ 56], 0⟩ : Gc), by decide +kernel⟩,
   ⟨withStripes (fun f => { f with stripes := [{ stripe1 with sealed := true, rowsDone := 1, packed := [⟨2 ^ 56, 0, List.replicate 2048 0, 0⟩] }, { stripe1 with id := 2, kind := .target, rowsDone := 1, packed := [⟨2 ^ 56, 0, List.replicate 2048 0, 0⟩] }], gcs := [(⟨1, [2], [2 ^ 56], 0⟩ : Gc)], map := [(2 ^ 56, .stripe 1 0)] }), 0, by decide +kernel, by decide +kernel, 1, { stripe1 with sealed := true, rowsDone := 1, packed := [⟨2 ^ 56, 0, List.replicate 2048 0, 0⟩] }, (⟨1, [2], [2 ^ 56], 0⟩ : Gc), by decide +kernel⟩,
   ⟨withStripes (fun f => { f with stripes := [{ stripe1 with sealed := true, rowsDone := 1 }], refresh := [(1, 2)], repls := [(⟨1, 2, ⟨2, 0, 700⟩⟩ : Repl)], sets := [((32) * 1024 + 700, { clean := true, free := false })] }), { stripe1 with sealed := true, rowsDone := 1 }, 2, ⟨2, 0, 9⟩, by decide +kernel, by decide +kernel, ⟨2, 0, 700⟩, by decide +kernel⟩,
   ⟨up, 53, 3, by decide +kernel⟩,
   ⟨up, 53, 3, by decide +kernel⟩⟩

theorem witness_RenegotiationGrantsWithinTheBudget :
    (∃ (s : State) (volt current : Nat), State.wf s = true ∧ s.boot.powered = true ∧ s.boot.applied = true ∧ volt < 1024 ∧ current < 4096 ∧ cyc s 59 < 2 ^ 63)
    ∧ (∃ (s : State) (volt : Nat) (current : Nat), State.wf s = true ∧ s.boot.powered = true ∧ volt < 1024 ∧ current < 4096 ∧ cyc s 59 < 2 ^ 63 ∧ s.boot.applied = false) :=
  ⟨⟨up, 900, 2000, by decide +kernel⟩,
   ⟨State.reset, 900, 2000, by decide +kernel⟩⟩

theorem witness_PowerInputAndRails :
    (∃ (s : State), State.wf s = true ∧ s.boot.powered = false)
    ∧ (∃ (s : State), State.wf s = true ∧ s.boot.powered = true ∧ getF s 59 F.WEIR_STATUS_MSTATE = 4)
    ∧ (∃ (s : State), State.wf s = true ∧ s.boot.powered = true ∧ getF s 59 F.WEIR_STATUS_MSTATE ≠ 4)
    ∧ (∃ (s : State), State.wf s = true ∧ s.boot.powered = true ∧ getF s 59 F.WEIR_STATUS_MSTATE ≠ 4)
    ∧ (∃ (s : State), State.wf s = true ∧ s.boot.powered = true ∧ getF s 59 F.WEIR_STATUS_MSTATE = 4)
    ∧ (∃ (s : State), State.wf s = true ∧ s.boot.powered = true)
    ∧ (∃ (s : State), State.wf s = true ∧ s.boot.powered = true ∧ Up s ∧ ∃ rail index, ((rail = 3 ∧ index < 2) ∨ (rail = 4 ∧ index = 0)) ∧ let die := if rail = 4 then 2 else index; bit s.boot.feedTrips die = false)
    ∧ (∃ (s : State), State.wf s = true ∧ s.boot.powered = true ∧ Up s ∧ ∃ rail index, ((rail = 3 ∧ index < 2) ∨ (rail = 4 ∧ index = 0)) ∧ let die := if rail = 4 then 2 else index; bit s.boot.feedTrips die = true)
    ∧ (∃ (s : State), State.wf s = true ∧ s.boot.powered = true ∧ ∃ n, n < 16 ∧ enabled s (32 + n) = true ∧ stkState s n = 0 ∧ ((∀ p ∈ s.mem.pages, p.frame.all (fun f => f.1 != n))))
    ∧ (∃ (s : State), State.wf s = true ∧ s.boot.powered = true ∧ ∃ d, d < 4 ∧ s.sched.ctxs = [] ∧ s.mem.pages = [] ∧ ((∀ k, k < 8 → enabled s (8 * d + k) = true ∧ reachState s (8 * d + k) = 0))) :=
  ⟨⟨{ up with boot := { up.boot with powered := false } }, by decide +kernel⟩,
   ⟨at_ 4, by decide +kernel⟩,
   ⟨up, by decide +kernel⟩,
   ⟨up, by decide +kernel⟩,
   ⟨at_ 4, by decide +kernel⟩,
   ⟨up, by decide +kernel⟩,
   ⟨up, by decide +kernel, by decide +kernel, by simp only [Up]; decide +kernel, 4, 0, by decide +kernel⟩,
   ⟨{ up with boot := { up.boot with feedTrips := 4 } }, by decide +kernel, by decide +kernel, by simp only [Up]; decide +kernel, 4, 0, by decide +kernel⟩,
   ⟨up, by decide +kernel, by decide +kernel, 15, by decide +kernel⟩,
   ⟨up, by decide +kernel, by decide +kernel, 3, by decide +kernel⟩⟩

theorem witness_DrawTemperaturesAndStops :
    (∃ (s : State) (isl draw : Nat), State.wf s = true ∧ s.boot.applied = true ∧ enabled s isl = true ∧ isl < 60 ∧ grantOf s isl < draw ∧ getF s isl F.CNT_CTRL_EN = 0)
    ∧ (∃ (s : State) (isl draw : Nat), State.wf s = true ∧ s.boot.applied = true ∧ enabled s isl = true ∧ isl < 60 ∧ draw ≤ grantOf s isl)
    ∧ (∃ (s : State) (sensor temp : Nat), State.wf s = true ∧ sensorThere s sensor = true ∧ temp < 4096 ∧ (atCritical sensor temp = false ∨ sensor = 332))
    ∧ (∃ (s : State) (sensor temp : Nat), State.wf s = true ∧ sensorThere s sensor = true ∧ temp < 4096 ∧ sensor < 32 ∧ atCritical sensor temp = true ∧ enabled s sensor = true ∧ reachState s sensor ∈ [0, 1, 4] ∧ ReachFree s sensor)
    ∧ (∃ (s : State) (sensor temp : Nat), State.wf s = true ∧ sensorThere s sensor = true ∧ temp < 4096 ∧ 32 ≤ sensor ∧ atCritical sensor temp = true ∧ Up s)
    ∧ (∃ (s : State), State.wf s = true ∧ s.boot.powered = true ∧ getF s 59 F.WEIR_STATUS_MSTATE ≠ 3 ∧ getF s 59 F.WEIR_STATUS_MSTATE ≠ 4)
    ∧ (∃ (s : State), State.wf s = true ∧ s.boot.powered = true ∧ s.boot.resetPin = false ∧ NoRival s ∧ Up s)
    ∧ (∃ (s : State), State.wf s = true ∧ s.boot.powered = true ∧ s.boot.resetPin = false ∧ NoRival s ∧ getF s 59 F.WEIR_STATUS_MSTATE = 3) :=
  ⟨⟨setF up 59 F.WEIR_GRANT_GRANT 100 48, 48, 101, by decide +kernel⟩,
   ⟨setF up 59 F.WEIR_GRANT_GRANT 100 48, 48, 100, by decide +kernel⟩,
   ⟨up, 331, 720 - 1, by decide +kernel⟩,
   ⟨up, 31, 115 * 8, by decide +kernel, by decide +kernel, by decide +kernel, by decide +kernel, (by decide +kernel), by decide +kernel, by decide +kernel, by simp only [ReachFree]; decide +kernel⟩,
   ⟨up, 75, 105 * 8, by decide +kernel, by decide +kernel, by decide +kernel, by decide +kernel, by decide +kernel, by simp only [Up]; decide +kernel⟩,
   ⟨up, by decide +kernel⟩,
   ⟨up, by decide +kernel, by decide +kernel, by decide +kernel, by simp only [NoRival]; decide +kernel, by simp only [Up]; decide +kernel⟩,
   ⟨at_ 3, by decide +kernel, by decide +kernel, by decide +kernel, by simp only [NoRival]; decide +kernel, by decide +kernel⟩⟩

theorem witness_UnitsAndReachesMove :
    (∃ (s : State) (id : CmdId) (c : Cmd), State.wf s = true ∧ Runs s id c 12 unitFields ∧ let u : Nat × Nat × Nat := unitOf c; unitNamed u = true ∧ unitEnabled s u = true ∧ (∀ x ∈ s.dqp.cmds, x.no < c.no → x.opcode = 12 → unitOf x ≠ u) ∧ c.b 33 1 = 0 ∧ (∀ v ∈ unitStates s u, v = 0) ∧ (u.1 = 3 → drainFits (releaseUnpinned (markStarted s c.no) (u.2.1 - 32)) (u.2.1 - 32) = true))
    ∧ (∃ (s : State) (id : CmdId) (c : Cmd), State.wf s = true ∧ Runs s id c 12 unitFields ∧ let u : Nat × Nat × Nat := unitOf c; unitNamed u = true ∧ unitEnabled s u = true ∧ (∀ x ∈ s.dqp.cmds, x.no < c.no → x.opcode = 12 → unitOf x ≠ u) ∧ c.b 33 1 = 1 ∧ (∀ v ∈ unitStates s u, v = 2))
    ∧ (∃ (s : State) (id : CmdId) (c : Cmd), State.wf s = true ∧ Runs s id c 12 unitFields ∧ let u : Nat × Nat × Nat := unitOf c; unitNamed u = true ∧ unitEnabled s u = true ∧ (∀ x ∈ s.dqp.cmds, x.no < c.no → x.opcode = 12 → unitOf x ≠ u) ∧ c.b 33 1 = 3 ∧ (∀ v ∈ unitStates s u, v = 3))
    ∧ (∃ (s : State) (r : Nat), State.wf s = true ∧ r < 32 ∧ enabled s r = true ∧ reachState s r = 3)
    ∧ (∃ (s : State) (r : Nat), State.wf s = true ∧ r < 32 ∧ enabled s r = true ∧ reachState s r = 1 ∧ ReachFree s r)
    ∧ (∃ (s : State) (r : Nat), State.wf s = true ∧ r < 32 ∧ enabled s r = true ∧ reachState s r = 4)
    ∧ (∃ (s : State) (r : Nat), State.wf s = true ∧ r < 32 ∧ enabled s r = true ∧ reachState s r ≠ 3)
    ∧ (∃ (s : State) (r : Nat), State.wf s = true ∧ r < 32 ∧ enabled s r = true ∧ reachState s r ≠ 1)
    ∧ (∃ (s : State) (r : Nat), State.wf s = true ∧ r < 32 ∧ enabled s r = true ∧ reachState s r ≠ 4) :=
  ⟨⟨run (roomy up) (cmd 0 0x0C [(32, 1, 3), (33, 1, 0), (34, 1, 47), (36, 2, 0)]), ⟨0, 7, .none⟩, cmd 0 0x0C [(32, 1, 3), (33, 1, 0), (34, 1, 47), (36, 2, 0)], by decide +kernel, by simp only [Runs]; decide +kernel, by decide +kernel⟩,
   ⟨run (setF (roomy up) 54 F.SIEVE_USTATE_STATE 2 63) (cmd 0 0x0C [(32, 1, 5), (33, 1, 1), (34, 1, 54), (36, 2, 63)]), ⟨0, 7, .none⟩, cmd 0 0x0C [(32, 1, 5), (33, 1, 1), (34, 1, 54), (36, 2, 63)], by decide +kernel, by simp only [Runs]; decide +kernel, by decide +kernel⟩,
   ⟨run (setQuad (roomy up) 31 47 3 3) (cmd 0 0x0C [(32, 1, 2), (33, 1, 3), (34, 1, 31), (36, 2, 191)]), ⟨0, 7, .none⟩, cmd 0 0x0C [(32, 1, 2), (33, 1, 3), (34, 1, 31), (36, 2, 191)], by decide +kernel, by simp only [Runs]; decide +kernel, by decide +kernel⟩,
   ⟨setF up 31 F.REACH_STATE_STATE 3, 31, by decide +kernel⟩,
   ⟨setF up 31 F.REACH_STATE_STATE 1, 31, by decide +kernel, by decide +kernel, by decide +kernel, by decide +kernel, by simp only [ReachFree]; decide +kernel⟩,
   ⟨setF up 31 F.REACH_STATE_STATE 4, 31, by decide +kernel⟩,
   ⟨setF up 31 F.REACH_STATE_STATE 1, 31, by decide +kernel⟩,
   ⟨setF up 31 F.REACH_STATE_STATE 4, 31, by decide +kernel⟩,
   ⟨setF up 31 F.REACH_STATE_STATE 3, 31, by decide +kernel⟩⟩

theorem witness_CountersMarksAndSamples :
    (∃ (s : State) (isl v : Nat), State.wf s = true ∧ mSorted none s.counters.values = true ∧ isl < 60 ∧ v < 2 ^ 16 ∧ CanReach s 0 isl ∧ ((∀ n, n < 8 → v.testBit n = true → (getF s isl F.CNT_CTRL_EN).testBit n = true ∨ selOk s isl n = true)))
    ∧ (∃ (s : State) (isl v : Nat), State.wf s = true ∧ isl < 60 ∧ v < 2 ^ 16 ∧ CanReach s 0 isl ∧ getF s isl F.CNT_SMP_HEAD_HEAD < 2 ^ 16 ∧ (getF s isl F.CNT_SMP_HEAD_HEAD + 65536 - v) % 65536 ≤ 64)
    ∧ (∃ (s : State) (isl v : Nat), State.wf s = true ∧ isl < 60 ∧ v < 2 ^ 16 ∧ CanReach s 0 isl ∧ getF s isl F.CNT_SMP_HEAD_HEAD < 2 ^ 16 ∧ 64 < (getF s isl F.CNT_SMP_HEAD_HEAD + 65536 - v) % 65536)
    ∧ (∃ (s : State), State.wf s = true ∧ State.mapsWf s = true ∧ ∃ i, i < 60 ∧ clockRuns s i = true ∧ getF s i F.CNT_CTRL_EN = 0 ∧ getF s i F.CNT_BW_STATUS_SEQ < 2 ^ 31) :=
  ⟨⟨up, 59, 0x0101, by decide +kernel, by decide +kernel, by decide +kernel, by decide +kernel, by simp only [CanReach]; decide +kernel, by decide +kernel⟩,
   ⟨setF up 59 F.CNT_SMP_HEAD_HEAD 5, 59, 65477, by decide +kernel, by decide +kernel, by decide +kernel, by simp only [CanReach]; decide +kernel, by decide +kernel⟩,
   ⟨setF up 59 F.CNT_SMP_HEAD_HEAD 5, 59, 6, by decide +kernel, by decide +kernel, by decide +kernel, by simp only [CanReach]; decide +kernel, by decide +kernel⟩,
   ⟨up, by decide +kernel, by decide +kernel, 59, by decide +kernel⟩⟩

theorem witness_ManagementPortAndTaps :
    (∃ (s : State) (a : Nat) (frame : List Byte), mgmtUp s = true ∧ a < 2 ^ 22 ∧ MgmtFrame s 1 (toBytes 3 a) frame)
    ∧ (∃ (s : State) (a v : Nat) (frame : List Byte), mgmtUp s = true ∧ a < 2 ^ 22 ∧ v < 2 ^ 32 ∧ MgmtFrame s 2 (toBytes 3 a ++ toBytes 4 v) frame)
    ∧ (∃ (s : State) (a : Nat) (frame : List Byte), mgmtUp s = true ∧ 2 ^ 22 ≤ a ∧ a < 2 ^ 24 ∧ MgmtFrame s 1 (toBytes 3 a) frame)
    ∧ (∃ (s : State)  (frame : List Byte), mgmtUp s = true ∧ frame.head? = some 1 ∧ 6 < frame.length)
    ∧ (∃ (s : State), mgmtUp s = true ∧ s.boot.i3c = true)
    ∧ (∃ (s : State) (d : Nat), portUp s 1 = true ∧ d < 128 ∧ s.boot.i3c = true ∧ s.boot.vdd33 = false ∧ s.mgmt.dyn = none)
    ∧ (∃ (s : State) (d : Nat), portUp s 1 = true ∧ d < 128 ∧ s.boot.i3c = true ∧ s.boot.vdd33 = false ∧ ∃ (st : Nat), st ≠ 64 + s.boot.slotId)
    ∧ (∃ (s : State) (d : Nat), portUp s 1 = true ∧ d < 128 ∧ s.boot.i3c = false)
    ∧ (∃ (s : State) (tap code : Nat), tapOk s tap = true ∧ code < 256 ∧ (code = 0 ∨ 3 < code))
    ∧ (∃ (s : State), s.boot.i3c = true ∧ s.boot.vdd33 = true) :=
  ⟨⟨{ up with boot := { up.boot with i3c := true }, mgmt := { up.mgmt with dyn := some 9 } }, 2 ^ 22 - 1, toBytes 1 1 ++ toBytes 3 (2 ^ 22 - 1), by decide +kernel, by decide +kernel, Or.inl ⟨rfl, rfl⟩⟩,
   ⟨up, 0x10, 2 ^ 32 - 1, toBytes 1 2 ++ toBytes 1 7 ++ (toBytes 3 0x10 ++ toBytes 4 (2 ^ 32 - 1)), by decide +kernel, by decide +kernel, by decide +kernel, Or.inr ⟨rfl, Or.inl rfl⟩⟩,
   ⟨{ up with boot := { up.boot with i3c := true }, mgmt := { up.mgmt with dyn := some 9 } }, 2 ^ 22, toBytes 1 1 ++ toBytes 3 (2 ^ 22), by decide +kernel, by decide +kernel, by decide +kernel, Or.inl ⟨rfl, rfl⟩⟩,
   ⟨up, List.replicate 7 1, by decide +kernel⟩,
   ⟨{ up with boot := { up.boot with i3c := true }, mgmt := { up.mgmt with dyn := some 9 } }, by decide +kernel⟩,
   ⟨{ up with boot := { up.boot with i3c := true } }, 127, by decide +kernel⟩,
   ⟨{ up with boot := { up.boot with i3c := true } }, 127, by decide +kernel, by decide +kernel, by decide +kernel, by decide +kernel, 0, by decide +kernel⟩,
   ⟨up, 127, by decide +kernel⟩,
   ⟨up, 0, 255, by decide +kernel⟩,
   ⟨{ up with boot := { up.boot with i3c := true, vdd33 := true } }, by decide +kernel⟩⟩

theorem witness_ChannelsFailTestAndMove_also :
    (∃ (s : State) (c : Nat) (d : Nat), State.wf s = true ∧ c < 128 ∧ d < 16 ∧ chEnabled s c = true ∧ ∃ (found : LineFault), chState s c = 3 ∧ found.cause < 10) :=
  ⟨setF (withDie { st := .erase, run := some (.erase []) }) 53 F.FCH_CSTATE_STATE 3 31, 127, 3, by decide +kernel, by decide +kernel, by decide +kernel, by decide +kernel, ⟨9, 3⟩, by decide +kernel⟩

theorem witness_CollectionsReplacementsAndPatrol_also :
    (∃ (s : State) (g : Nat), g < 8 ∧ flashRuns s = true ∧ s.flash.discards = [] ∧ (∀ x ∈ s.flash.stripes, canCollect s g x = true → ∀ m ∈ x.members, chState s m.chan ≠ 1) ∧ gcShort s g 160 = true)
    ∧ (∃ (s : State) (x : Stripe) (i : Nat) (m : Member), findStripe s x.id = some x ∧ x.members[i]? = some m ∧ x.sealed = true ∧ x.rowsOut ≤ x.rowsDone ∧ chIn s m.chan = true ∧ flashRuns s = true ∧ (∀ r ∈ s.flash.repls, r.stripe ≠ x.id) ∧ (∀ g ∈ s.flash.gcs, g.victim ≠ x.id ∧ x.id ∉ g.targets) ∧ ((x.id, i) ∈ s.flash.joinLeft ∨ (x.id, i) ∈ s.flash.refresh ∧ refreshStopped s m.chan = false ∧ (∀ r ∈ s.flash.repls, ∀ (y : Stripe) (z : Member), findStripe s r.stripe = some y → y.members[r.idx]? = some z → z.chan ≠ m.chan) ∧ ∀ g ∈ s.flash.gcs, ∀ (y : Stripe), findStripe s g.victim = some y → y.group ≠ x.group) ∧ ∃ (p : Nat × Nat), pickSet s m.chan x.pslc setFree = some p)
    ∧ (∃ (s : State) (isl : Nat) (k : Nat), State.wf s = true ∧ flashIndex isl = some k ∧ ∃ (x : Stripe) (pg : Nat × Nat × Nat) (a : PageAddr), enabled s isl = true ∧ flashRuns s = true ∧ getF s 59 F.WEIR_STATUS_MSTATE = 1 ∧ s.flash.patrolDone.getD k false = false ∧ patrolNext s (s.flash.patrol.getD k 0) (s.flash.patrolPage.getD k none) (patrolList s k (s.flash.patrol.getD k 0)) = some (x, pg) ∧ physPage x pg = some a ∧ memberIn s x pg.2.1 = true ∧ s.flash.patrol.length = 4 ∧ s.flash.patrolPage.length = 4 ∧ mSorted none s.flash.dies = true) :=
  ⟨⟨(fun s : State => setF s 48 F.FCH_CSTATE_DIES_OUT 65535 0) (withStripes (fun f => { f with stripes := [{ stripe1 with sealed := true, rowsDone := 1, packed := [⟨2 ^ 56, 0, List.replicate 2048 0, 0⟩] }], map := [(2 ^ 56, .stripe 1 0)] })), 0, by decide +kernel⟩,
   ⟨withStripes (fun f => { f with stripes := [{ stripe1 with sealed := true, rowsDone := 1 }], refresh := [(1, 2)], sets := [(32 * 1024 + 8, { clean := true, free := true })] }), { stripe1 with sealed := true, rowsDone := 1 }, 2, ⟨2, 0, 9⟩, by decide +kernel, by decide +kernel, by decide +kernel, by decide +kernel, by decide +kernel, by decide +kernel, (by intro r hr; cases hr), (by intro r hr; cases hr), Or.inr ⟨by decide +kernel, by decide +kernel, (by intro r hr; cases hr), (by intro r hr; cases hr)⟩, (0, 8), by decide +kernel⟩,
   ⟨withStripes (fun f => { f with stripes := [{ stripe1 with sealed := true, rowsDone := 1, packed := [⟨2 ^ 56, 0, List.replicate 2048 0, 0⟩] }], map := [(2 ^ 56, .stripe 1 0)] }), 48, 0, by decide +kernel, by decide +kernel, { stripe1 with sealed := true, rowsDone := 1, packed := [⟨2 ^ 56, 0, List.replicate 2048 0, 0⟩] }, (0, 0, 0), ⟨0, 0, 0, 9, 0, 0⟩, by decide +kernel⟩⟩

theorem witness_ContextsEnterLeaveAndRun_also :
    (∃ (s : State) (x : Ctx), State.wf s = true ∧ findCtx s x.slot = some x ∧ getF s 57 F.CNT_CTRL_EN = 0 ∧ ∃ (q : Bool) (l : List Bool) (v : Ctx), s.sched.owed = q :: l ∧ (∀ (r : Nat), reachState s r ≠ 1) ∧ candidates s = [x] ∧ needOf s x = [v] ∧ v.st = .resident ∧ countsBlocked s x v = true ∧ ∃ (u : State) (a : Unit), beginLeave { s with sched := { s.sched with owed := l } } v false = (u, .ok a))
    ∧ (∃ (s : State) (x : Ctx), State.wf s = true ∧ findCtx s x.slot = some x ∧ getF s 57 F.CNT_CTRL_EN = 0 ∧ x.destroy ≠ 0 ∧ unitsBusy s x.slot = false ∧ (∀ l ∈ x.launches, l.why = 0 ∧ l.ops = 0))
    ∧ (∃ (s : State) (x : Ctx), State.wf s = true ∧ findCtx s x.slot = some x ∧ getF s 57 F.CNT_CTRL_EN = 0 ∧ ∃ (prior : Nat) (no : Nat) (p : Bool) (e : Option Nat), x.st = .entering ∧ s.dqp.pwr = PwrMove.entering 2 prior no p e ∧ let u : State := restored s x [] []; let r : State × Option Nat := saveResidents (findCtx u x.slot).toList u; r.2 = none)
    ∧ (∃ (s : State) (x : Ctx), State.wf s = true ∧ findCtx s x.slot = some x ∧ getF s 57 F.CNT_CTRL_EN = 0 ∧ ∃ (prior : Nat) (no : Nat) (p : Bool) (e : Option Nat), x.st = .entering ∧ s.dqp.pwr = PwrMove.entering 2 prior no p e ∧ let u : State := restored s x [] []; let r : State × Option Nat := saveResidents (findCtx u x.slot).toList u; ∃ (d : Nat), r.2 = some d)
    ∧ (∃ (s : State) (x : Ctx) (l : Launch), State.wf s = true ∧ findCtx s x.slot = some x ∧ findLaunch s x.slot l.id = some l ∧ l.ready = true ∧ l.toStart = [] ∧ l.running = 0 ∧ l.ops = 0 ∧ l.id < s.sched.nextLaunch) :=
  ⟨⟨{ roomy up with sched := { up.sched with ctxs := [{ ctx 3 .ready 0 with launches := [launch] }, { ctx 4 .resident 0 with block := 2 }], owed := [false] } }, { ctx 3 .ready 0 with launches := [launch] }, by decide +kernel, by decide +kernel, by decide +kernel, false, [], { ctx 4 .resident 0 with block := 2 }, by decide +kernel, (by
   intro r
   have h : ∀ l : NMap Nat, l.all (fun p => p.1 / 32 / 64 / 2048 % 512 != 244) = true → mfind l (fieldKey r F.REACH_STATE_STATE 0 0) = none := by
     intro l hl
     induction l with
     | nil => rfl
     | cons p l ih =>
       simp only [List.all_cons, Bool.and_eq_true, bne_iff_ne] at hl
       have hk : fieldKey r F.REACH_STATE_STATE 0 0 / 32 / 64 / 2048 % 512 = 244 := by simp only [fieldKey, F.REACH_STATE_STATE]; omega
       have hn : p.1 ≠ fieldKey r F.REACH_STATE_STATE 0 0 := fun e => hl.1 (e ▸ hk)
       obtain ⟨a, b⟩ := p
       simp only [mfind]
       split
       · rename_i e; exact absurd (by simpa using e.symm) hn
       · first | exact ih hl.2 | (split <;> first | rfl | exact ih hl.2)
   have h2 := h ({ roomy up with sched := { up.sched with ctxs := [{ ctx 3 .ready 0 with launches := [launch] }, { ctx 4 .resident 0 with block := 2 }], owed := [false] } }).regs (by decide +kernel)
   have h3 : reachState ({ roomy up with sched := { up.sched with ctxs := [{ ctx 3 .ready 0 with launches := [launch] }, { ctx 4 .resident 0 with block := 2 }], owed := [false] } }) r = mget 0 ({ roomy up with sched := { up.sched with ctxs := [{ ctx 3 .ready 0 with launches := [launch] }, { ctx 4 .resident 0 with block := 2 }], owed := [false] } }).regs (fieldKey r F.REACH_STATE_STATE 0 0) := rfl
   rw [h3, mget, h2]; decide), by decide +kernel, by decide +kernel, by decide +kernel, by decide +kernel, ex_ok _ (by decide +kernel)⟩,
   ⟨withCtx (roomy up) [{ ctx 3 .idle 0 with destroy := 5 }], { ctx 3 .idle 0 with destroy := 5 }, by decide +kernel⟩,
   ⟨{ withCtx (roomy up) [ctx 3 .entering 0] with dqp := { up.dqp with pwr := .entering 2 0 1 false none } }, ctx 3 .entering 0, by decide +kernel, by decide +kernel, by decide +kernel, 0, 1, false, none, by decide +kernel⟩,
   ⟨{ withCtx (setA (roomy up) 57 F.HG_SAVE_LIM_GIB 0 0) [ctx 3 .entering 0] with dqp := { up.dqp with pwr := .entering 2 0 1 false none } }, ctx 3 .entering 0, by decide +kernel, by decide +kernel, by decide +kernel, 0, 1, false, none, by decide +kernel, by decide +kernel, 0, by decide +kernel⟩,
   ⟨{ (withCtx (roomy up) [{ ctx 3 .resident 0 with launches := [{ launch with toStart := [] }] }]) with sched := { (withCtx (roomy up) [{ ctx 3 .resident 0 with launches := [{ launch with toStart := [] }] }]).sched with nextLaunch := 2 } }, { ctx 3 .resident 0 with launches := [{ launch with toStart := [] }] }, { launch with toStart := [] }, by decide +kernel⟩⟩

theorem witness_CountersMarksAndSamples_also :
    (∃ (s : State) (isl : Nat) (n : Nat) (c : Capture), State.wf s = true ∧ isl < 60 ∧ s.counters.captures = [c] ∧ c.island = isl ∧ c.counter = n ∧ getF s isl F.CNT_SMP_HEAD_HEAD < 2 ^ 16 ∧ c.got = none ∧ sourceEnded s c = false)
    ∧ (∃ (s : State) (isl : Nat) (n : Nat) (c : Capture), State.wf s = true ∧ isl < 60 ∧ s.counters.captures = [c] ∧ c.island = isl ∧ c.counter = n ∧ getF s isl F.CNT_SMP_HEAD_HEAD < 2 ^ 16 ∧ ∃ (x : Src) (cycle : Nat) (skid : Bool), (c.got = some (x, cycle, skid) ∨ c.got = none ∧ sourceEnded s c = true ∧ (x, cycle, skid) = (c.src, cyc s isl, true)) ∧ smpLevel s isl < 64)
    ∧ (∃ (s : State) (isl : Nat) (n : Nat) (c : Capture), State.wf s = true ∧ isl < 60 ∧ s.counters.captures = [c] ∧ c.island = isl ∧ c.counter = n ∧ getF s isl F.CNT_SMP_HEAD_HEAD < 2 ^ 16 ∧ ∃ (x : Src) (cycle : Nat) (skid : Bool), (c.got = some (x, cycle, skid) ∨ c.got = none ∧ sourceEnded s c = true ∧ (x, cycle, skid) = (c.src, cyc s isl, true)) ∧ 64 ≤ smpLevel s isl) :=
  ⟨⟨{ up with runnels := { up.runnels with rills := [(0, rill [])] }, counters := { up.counters with captures := [({ island := 0, counter := 7, source := 1, unit := 1, src := { ctx := 3, pc := 0x1000 } } : Capture)] } }, 0, 7, ({ island := 0, counter := 7, source := 1, unit := 1, src := { ctx := 3, pc := 0x1000 } } : Capture), by decide +kernel⟩,
   ⟨{ up with counters := { up.counters with captures := [({ island := 0, counter := 7, source := 1, unit := 0, src := { ctx := 3, pc := 0x1000 }, got := some ({}, 5, false) } : Capture)] } }, 0, 7, ({ island := 0, counter := 7, source := 1, unit := 0, src := { ctx := 3, pc := 0x1000 }, got := some ({}, 5, false) } : Capture), by decide +kernel, by decide +kernel, by decide +kernel, by decide +kernel, by decide +kernel, by decide +kernel, {}, 5, false, by decide +kernel⟩,
   ⟨{ (setF up 0 F.CNT_SMP_HEAD_HEAD 64) with counters := { up.counters with captures := [({ island := 0, counter := 7, source := 1, unit := 0, src := { ctx := 3, pc := 0x1000 }, got := some ({}, 5, false) } : Capture)] } }, 0, 7, ({ island := 0, counter := 7, source := 1, unit := 0, src := { ctx := 3, pc := 0x1000 }, got := some ({}, 5, false) } : Capture), by decide +kernel, by decide +kernel, by decide +kernel, by decide +kernel, by decide +kernel, by decide +kernel, {}, 5, false, by decide +kernel⟩⟩

theorem witness_DieOperationsAndPageReads_also :
    (∃ (s : State) (c : Nat) (d : Nat), DieServes s c d ∧ let x : Die := getDie s c d; ∃ (o : DieOp) (l : List DieOp), x.st = DieSt.idle ∧ x.reads = o :: l ∧ opFits s c o = true ∧ o.isRead = true)
    ∧ (∃ (s : State) (c : Nat) (d : Nat), DieServes s c d ∧ let x : Die := getDie s c d; ∃ (i : Nat) (o : DieOp), x.st = DieSt.idle ∧ x.reads = [] ∧ (x.pageQueued = true ∨ x.switches = false ∧ x.wantErase = []) ∧ List.findIdx? (opReady s c d) x.others = some i ∧ x.others[i]? = some o ∧ opFits s c o = true ∧ (∀ (id row mem pass : Nat) (u : Bool), o ≠ DieOp.prog id row mem pass u))
    ∧ (∃ (s : State) (c : Nat) (d : Nat), DieServes s c d ∧ let x : Die := getDie s c d; ∃ (i : Nat) (o : DieOp), x.st = DieSt.idle ∧ x.reads = [] ∧ (x.pageQueued = true ∨ x.switches = false ∧ x.wantErase = []) ∧ List.findIdx? (opReady s c d) x.others = some i ∧ x.others[i]? = some o ∧ opFits s c o = true ∧ ∃ (id : Nat) (row : Nat) (mem : Nat) (pass : Nat) (u : Bool) (z : Stripe), o = DieOp.prog id row mem pass u ∧ findStripe s id = some z)
    ∧ (∃ (s : State) (c : Nat) (d : Nat) (p : PageAddr), DieServes s c d ∧ p.chan = c ∧ p.die = d ∧ p.block < 1024 ∧ let x : Die := getDie s c d; x.st = DieSt.read ∧ x.run = some (DieOp.read p 0 ReadFor.patrol)) :=
  ⟨⟨withDie { reads := [.read pgA 0 (.cmd 1)] }, 127, 3, by simp only [DieServes, FlashSorted]; decide +kernel, .read pgA 0 (.cmd 1), [], by decide +kernel⟩,
   ⟨withDie { others := [.erase [(0, 9)]] }, 127, 3, by simp only [DieServes, FlashSorted]; decide +kernel, 0, .erase [(0, 9)], by decide +kernel, by decide +kernel, by decide +kernel, by decide +kernel, by decide +kernel, by decide +kernel, fun _ _ _ _ _ h => DieOp.noConfusion h⟩,
   ⟨{ withDie { others := [.prog 1 0 0 1 false] } with flash := { (withDie { others := [.prog 1 0 0 1 false] }).flash with stripes := [{ stripe1 with members := [⟨127, 3, 9⟩] }], sets := [((127 * 16 + 3) * 1024 + 9, { clean := true, free := false })] } }, 127, 3, by simp only [DieServes, FlashSorted]; decide +kernel, 0, .prog 1 0 0 1 false, by decide +kernel, by decide +kernel, by decide +kernel, by decide +kernel, by decide +kernel, by decide +kernel, 1, 0, 0, 1, false, { stripe1 with members := [⟨127, 3, 9⟩] }, by decide +kernel⟩,
   ⟨withDie { st := .read, run := some (.read pgA 0 .patrol) }, 127, 3, pgA, by simp only [DieServes, FlashSorted]; decide +kernel, by decide +kernel⟩⟩

theorem witness_DrawTemperaturesAndStops_also :
    (∃ (s : State), State.wf s = true ∧ s.boot.powered = true ∧ ∃ (id : CmdId) (c : Cmd) (isl : Nat), id.sram = SramUpset.lost isl ∧ cmdById s id = some c ∧ canStart s c = true ∧ c.opcode = 0 ∧ (∀ x ∈ baseConds c, x = 0) ∧ onlyBytes c [] = true ∧ 4096 ≤ c.bufBytes) :=
  ⟨run up (buf 4096 (cmd 0 0 [])), by decide +kernel, by decide +kernel, ⟨0, 7, .lost 3⟩, buf 4096 (cmd 0 0 []), 3, by decide +kernel⟩

theorem witness_EntriesInAndCompletionsOut_also :
    (∃ (s : State) (q : Sq), getF s 56 F.DQP_STATUS_RDY = 1 ∧ (running s = true ∨ enteringDp3 s = true) ∧ linkRoom s = true ∧ s.boot.haltWait = false ∧ q.entries ≠ 0 ∧ ∃ (k : Nat) (cr : List Nat), (∀ (a : Sq), findSq s 0 = some a → fetchable s a = false) ∧ (cr = s.dqp.wrr ∨ cr = [8, 4, 2, 1] ∧ ∀ j < 4, 0 < s.dqp.wrr.getD j 0 → nextInClass s j (s.dqp.rrLast.getD j 0) = none) ∧ k < 4 ∧ 0 < cr.getD k 0 ∧ nextInClass s k (s.dqp.rrLast.getD k 0) = some q ∧ (∀ j < k, 0 < cr.getD j 0 → nextInClass s j (s.dqp.rrLast.getD j 0) = none))
    ∧ (∃ (s : State), (linkRoom s = false ∨ ∀ q ∈ s.dqp.sqs, fetchable s q = false)) :=
  ⟨⟨{ queues up with dqp := { (queues up).dqp with sqs := [⟨1, 1, 1, 0x2000, 16, 1, 0, 1⟩], wrr := [8, 4, 2, 1] } }, ⟨1, 1, 1, 0x2000, 16, 1, 0, 1⟩, by decide +kernel, by decide +kernel, by decide +kernel, by decide +kernel, by decide +kernel, 1, [8, 4, 2, 1], (by intro a h; cases h), Or.inl rfl, by decide +kernel⟩,
   ⟨up, Or.inr (by decide +kernel)⟩⟩

theorem witness_ErasesAndRows_also :
    (∃ (s : State) (c : Nat) (d : Nat), DieServes s c d ∧ let x : Die := getDie s c d; ∃ (id : Nat) (row : Nat) (mem : Nat) (pass : Nat) (u : Bool) (y : Stripe), x.st = DieSt.prog ∧ x.run = some (DieOp.prog id row mem pass u) ∧ findStripe s id = some y)
    ∧ (∃ (s : State) (c : Nat) (d : Nat), DieServes s c d ∧ let x : Die := getDie s c d; ∃ (bs : List (Nat × Nat)), x.st = DieSt.erase ∧ x.run = some (DieOp.erase bs) ∧ (∃ b ∈ bs, b.2 = 0))
    ∧ (∃ (s : State) (x : Stripe), FlashSorted s ∧ ((List.map (fun x => x.id) s.flash.stripes).Nodup) ∧ findStripe s x.id = some x ∧ x.kind = StripeKind.host ∧ x.sealed = false ∧ ∃ (k : Nat) (n : Nat) (y : Slot) (isl : Nat), flashIndex isl = some k ∧ mfind s.flash.slots (slotKey k n) = some y ∧ y.placed = none ∧ flashRuns s = true ∧ slotCurrent s k n y = false ∧ NothingWaits s ∧ (∀ c ∈ s.dqp.cmds, c.phase ≠ Phase.started) ∧ (∀ (a b : Nat), mfind s.flash.map y.lua ≠ some (Loc.slot a b)))
    ∧ (∃ (s : State) (x : Stripe), FlashSorted s ∧ ((List.map (fun x => x.id) s.flash.stripes).Nodup) ∧ findStripe s x.id = some x ∧ x.kind = StripeKind.host ∧ x.sealed = false ∧ ∃ (k : Nat) (n : Nat) (y : Slot) (isl : Nat), flashIndex isl = some k ∧ mfind s.flash.slots (slotKey k n) = some y ∧ y.placed = none ∧ flashRuns s = true ∧ NothingWaits s ∧ slotCurrent s k n y = true ∧ n < 4096 ∧ y.mask = 255 ∧ ((y.writers.all fun w => !w.fua) = true) ∧ let b : List Byte := (packUnit s y.lua y.data.flatten).1; (List.find? (fun z => z.group == homeGroup s y.lua && z.kind == StripeKind.host && !z.sealed) s.flash.stripes = some x) ∧ x.next + ceilDiv b.length 1024 ≤ x.space)
    ∧ (∃ (s : State) (x : Stripe), FlashSorted s ∧ ((List.map (fun x => x.id) s.flash.stripes).Nodup) ∧ findStripe s x.id = some x ∧ x.kind = StripeKind.host ∧ x.sealed = false ∧ x.rowsDone < x.rowsOut ∧ x.rowsDone + 1 = x.rows ∧ (∀ i < x.members.length, (x.rowsDone, i) ∈ x.progDone)) :=
  ⟨⟨{ withDie { st := .prog, run := some (.prog 1 0 0 2 true) } with flash := { (withDie { st := .prog, run := some (.prog 1 0 0 2 true) }).flash with stripes := [{ stripe1 with members := [⟨127, 0, 9⟩] }] } }, 127, 3, by simp only [DieServes, FlashSorted]; decide +kernel, 1, 0, 0, 2, true, { stripe1 with members := [⟨127, 0, 9⟩] }, by decide +kernel⟩,
   ⟨withDie { st := .erase, run := some (.erase [(0, 0), (1, 0)]) }, 127, 3, by simp only [DieServes, FlashSorted]; decide +kernel, [(0, 0), (1, 0)], by decide +kernel⟩,
   ⟨withStripes (fun f => { f with slots := [(3, slot (2 ^ 56 + 9))] }), stripe1, by simp only [FlashSorted]; decide +kernel, by decide +kernel, by decide +kernel, by decide +kernel, by decide +kernel, 0, 3, slot (2 ^ 56 + 9), 48, by decide +kernel, by decide +kernel, by decide +kernel, by decide +kernel, by decide +kernel, by simp only [NothingWaits]; decide +kernel, by decide +kernel, by intro a b h; revert h; simp [withStripes, roomy, up, setA, setF, State.reset, mfind]⟩,
   ⟨withStripes (fun f => { f with slots := [(3, { slot (255 * 2 ^ 56) with mask := 255 })], map := [((255 * 2 ^ 56), .slot 0 3)] }), stripe1, by simp only [FlashSorted]; decide +kernel, by decide +kernel, by decide +kernel, by decide +kernel, by decide +kernel, 0, 3, { slot (255 * 2 ^ 56) with mask := 255 }, 48, by decide +kernel, by decide +kernel, by decide +kernel, by decide +kernel, by simp only [NothingWaits]; decide +kernel, by decide +kernel⟩,
   ⟨withStripes (fun f => { f with stripes := [{ stripe1 with rowsDone := 1535, rowsOut := 1536, progDone := [(1535, 0), (1535, 1), (1535, 2)] }] }), { stripe1 with rowsDone := 1535, rowsOut := 1536, progDone := [(1535, 0), (1535, 1), (1535, 2)] }, by simp only [FlashSorted]; decide +kernel, by decide +kernel⟩⟩

theorem witness_FlumeProgramsMoveBytes_also :
    (∃ (s : State) (f : FlumeAt) (p : Prog) (x : Xfer), State.wf s = true ∧ mSorted none s.flume.progs = true ∧ headProg s f.key = some p ∧ f.ok s = true ∧ SluicesOff s ∧ Uncounted s f.reach ∧ p.stopAt = none ∧ ∃ (i : Nat), shadowDue s f.reach f.key = none ∧ (List.findIdx? (fun y => decide (y.rd < y.total)) p.xfers = some i) ∧ p.xfers[i]? = some x ∧ (x.dkind = 0 → x.dst % 4 = 0) ∧ let reads : Nat → Nat → Prop := fun a n => PlainAt s a ∧ flumeCheckRead s p.op.ctx f.reach a n = (s, some 0) ∧ writesLine s f.reach p (List.take i p.xfers) a n = false; x.gather = false ∧ x.src % 4 = 0 ∧ x.total % 4 = 0 ∧ let a : Nat := (x.src + x.rd) % 2 ^ 64; let n : Nat := min (x.total - x.rd) (128 - a % 128); reads a n ∧ p.staging + n ≤ 131072)
    ∧ (∃ (s : State) (f : FlumeAt) (p : Prog) (x : Xfer), State.wf s = true ∧ mSorted none s.flume.progs = true ∧ headProg s f.key = some p ∧ f.ok s = true ∧ SluicesOff s ∧ Uncounted s f.reach ∧ p.stopAt = none ∧ ∃ (i : Nat), shadowDue s f.reach f.key = none ∧ (List.findIdx? (fun y => decide (y.rd < y.total)) p.xfers = some i) ∧ p.xfers[i]? = some x ∧ (x.dkind = 0 → x.dst % 4 = 0) ∧ let reads : Nat → Nat → Prop := fun a n => PlainAt s a ∧ flumeCheckRead s p.op.ctx f.reach a n = (s, some 0) ∧ writesLine s f.reach p (List.take i p.xfers) a n = false; x.gather = true ∧ x.idx % 4 = 0 ∧ x.elem % 4 = 0 ∧ 0 < x.elem ∧ x.ix = none ∧ let a : Nat := (x.idx + 4 * (x.rd / x.elem)) % 2 ^ 64; reads a 4 ∧ poisonedIn s a 4 = false)
    ∧ (∃ (s : State) (f : FlumeAt) (p : Prog) (x : Xfer), State.wf s = true ∧ mSorted none s.flume.progs = true ∧ headProg s f.key = some p ∧ f.ok s = true ∧ SluicesOff s ∧ Uncounted s f.reach ∧ p.stopAt = none ∧ ∃ (i : Nat), shadowDue s f.reach f.key = none ∧ (List.findIdx? (fun y => decide (y.rd < y.total)) p.xfers = some i) ∧ p.xfers[i]? = some x ∧ (x.dkind = 0 → x.dst % 4 = 0) ∧ let reads : Nat → Nat → Prop := fun a n => PlainAt s a ∧ flumeCheckRead s p.op.ctx f.reach a n = (s, some 0) ∧ writesLine s f.reach p (List.take i p.xfers) a n = false; ∃ (v : Nat), x.gather = true ∧ x.idx % 4 = 0 ∧ x.elem % 4 = 0 ∧ 0 < x.elem ∧ x.ix = some v ∧ v ≠ 4294967295 ∧ let a : Nat := (x.src + v * x.estride + x.rd % x.elem) % 2 ^ 64; let n : Nat := min (x.elem - x.rd % x.elem) (128 - a % 128); a % 4 = 0 ∧ reads a n ∧ p.staging + n ≤ 131072)
    ∧ (∃ (s : State) (f : FlumeAt) (p : Prog) (x : Xfer), State.wf s = true ∧ mSorted none s.flume.progs = true ∧ headProg s f.key = some p ∧ f.ok s = true ∧ SluicesOff s ∧ Uncounted s f.reach ∧ p.stopAt = none ∧ ∃ (a : Nat) (l : List PByte), p.xfers = [x] ∧ x.dkind = 0 ∧ x.prof = 0 ∧ x.em < x.total ∧ x.staged ≠ [] ∧ x.asked = 0 ∧ p.sigs = [] ∧ a = (x.dst + x.wr) % 2 ^ 64 ∧ l = List.take (128 - a % 128) x.staged ∧ PlainAt s a ∧ flumeCheckWrite s p.op.ctx a l.length = 0)
    ∧ (∃ (s : State) (f : FlumeAt) (p : Prog) (x : Xfer), State.wf s = true ∧ mSorted none s.flume.progs = true ∧ headProg s f.key = some p ∧ f.ok s = true ∧ SluicesOff s ∧ Uncounted s f.reach ∧ p.stopAt = none ∧ ∃ (k : Nat), p.xfers = [x] ∧ x.dkind = k ∧ 0 < k ∧ k ≤ 3 ∧ x.prof = 0 ∧ x.em < x.total ∧ x.staged ≠ [] ∧ p.sigs = [] ∧ p.wShadow = none ∧ Xfer.lane s f.reach x = x.quad ∧ ∃ (ps : TPass) (first : Bool) (n : Nat), tileAccept s f.reach x.tile k x.quad f.engine f.slot = some (ps, first, n))
    ∧ (∃ (s : State) (f : FlumeAt) (p : Prog) (x : Xfer), State.wf s = true ∧ mSorted none s.flume.progs = true ∧ headProg s f.key = some p ∧ f.ok s = true ∧ SluicesOff s ∧ Uncounted s f.reach ∧ p.stopAt = none ∧ ∃ (k : Nat), p.xfers = [x] ∧ x.dkind = k ∧ 0 < k ∧ k ≤ 3 ∧ x.prof = 0 ∧ x.em < x.total ∧ x.staged ≠ [] ∧ p.sigs = [] ∧ p.wShadow = none ∧ Xfer.lane s f.reach x = x.quad ∧ tileAccept s f.reach x.tile k x.quad f.engine f.slot = none)
    ∧ (∃ (s : State) (i : Nat) (n : Nat) (q : Nat) (b : Nat) (left : Nat) (rest : List (Nat × Nat × Nat)), i < 60 ∧ n < 16 ∧ mSorted none s.flume.sluices = true ∧ getA s i F.SLUICE_CFG_EN n = 1 ∧ let x : Sluice := getSluice s i n; x.waiting = (q, b, left) :: rest ∧ (q = 0 ∨ Requester s q)) :=
  ⟨⟨withProg ({ prog [5, 15] with pc := 1, xfers := [({ gather := false, src := 0x3004, idx := 0, total := 256, elem := 0, estride := 0, dkind := 0, dst := 0x4010, tile := 0, quad := 0, prof := 0, pc := 0 } : Xfer)], xIssued := 1 }), f7, { prog [5, 15] with pc := 1, xfers := [({ gather := false, src := 0x3004, idx := 0, total := 256, elem := 0, estride := 0, dkind := 0, dst := 0x4010, tile := 0, quad := 0, prof := 0, pc := 0 } : Xfer)], xIssued := 1 }, ({ gather := false, src := 0x3004, idx := 0, total := 256, elem := 0, estride := 0, dkind := 0, dst := 0x4010, tile := 0, quad := 0, prof := 0, pc := 0 } : Xfer), by decide +kernel, by decide +kernel, by decide +kernel, by decide +kernel, sluices_off _ rfl, by simp only [Uncounted]; decide +kernel, by decide +kernel, 0, by decide +kernel, by decide +kernel, by decide +kernel, by decide +kernel, by decide +kernel, by decide +kernel, (by decide +kernel), ⟨Or.inl (by decide +kernel), by decide +kernel⟩, by decide +kernel⟩,
   ⟨withProg ({ prog [5, 15] with pc := 1, xfers := [({ gather := true, src := 0x4000, idx := 0x3004, total := 256, elem := 64, estride := 64, dkind := 0, dst := 0x4010, tile := 0, quad := 0, prof := 0, pc := 0 } : Xfer)], xIssued := 1 }), f7, { prog [5, 15] with pc := 1, xfers := [({ gather := true, src := 0x4000, idx := 0x3004, total := 256, elem := 64, estride := 64, dkind := 0, dst := 0x4010, tile := 0, quad := 0, prof := 0, pc := 0 } : Xfer)], xIssued := 1 }, ({ gather := true, src := 0x4000, idx := 0x3004, total := 256, elem := 64, estride := 64, dkind := 0, dst := 0x4010, tile := 0, quad := 0, prof := 0, pc := 0 } : Xfer), by decide +kernel, by decide +kernel, by decide +kernel, by decide +kernel, sluices_off _ rfl, by simp only [Uncounted]; decide +kernel, by decide +kernel, 0, by decide +kernel, by decide +kernel, by decide +kernel, by decide +kernel, by decide +kernel, by decide +kernel, (by decide +kernel), by decide +kernel, by decide +kernel, ⟨Or.inl (by decide +kernel), by decide +kernel⟩, by decide +kernel⟩,
   ⟨withProg ({ prog [5, 15] with pc := 1, xfers := [({ gather := true, src := 0x4000, idx := 0x3004, total := 256, elem := 64, estride := 64, dkind := 0, dst := 0x4010, tile := 0, quad := 0, prof := 0, pc := 0, ix := some 2 } : Xfer)], xIssued := 1 }), f7, { prog [5, 15] with pc := 1, xfers := [({ gather := true, src := 0x4000, idx := 0x3004, total := 256, elem := 64, estride := 64, dkind := 0, dst := 0x4010, tile := 0, quad := 0, prof := 0, pc := 0, ix := some 2 } : Xfer)], xIssued := 1 }, ({ gather := true, src := 0x4000, idx := 0x3004, total := 256, elem := 64, estride := 64, dkind := 0, dst := 0x4010, tile := 0, quad := 0, prof := 0, pc := 0, ix := some 2 } : Xfer), by decide +kernel, by decide +kernel, by decide +kernel, by decide +kernel, sluices_off _ rfl, by simp only [Uncounted]; decide +kernel, by decide +kernel, 0, by decide +kernel, by decide +kernel, by decide +kernel, by decide +kernel, 2, by decide +kernel, by decide +kernel, (by decide +kernel), by decide +kernel, by decide +kernel, by decide +kernel, by decide +kernel, ⟨Or.inl (by decide +kernel), by decide +kernel⟩, by decide +kernel⟩,
   ⟨withProg ({ prog [5, 15] with pc := 1, xfers := [({ gather := false, src := 0x3004, idx := 0, total := 256, elem := 0, estride := 0, dkind := 0, dst := 0x4010, tile := 0, quad := 0, prof := 0, pc := 0, rd := 256, staged := pb (List.range 256) } : Xfer)], xIssued := 1 }), f7, { prog [5, 15] with pc := 1, xfers := [({ gather := false, src := 0x3004, idx := 0, total := 256, elem := 0, estride := 0, dkind := 0, dst := 0x4010, tile := 0, quad := 0, prof := 0, pc := 0, rd := 256, staged := pb (List.range 256) } : Xfer)], xIssued := 1 }, ({ gather := false, src := 0x3004, idx := 0, total := 256, elem := 0, estride := 0, dkind := 0, dst := 0x4010, tile := 0, quad := 0, prof := 0, pc := 0, rd := 256, staged := pb (List.range 256) } : Xfer), by decide +kernel, by decide +kernel, by decide +kernel, by decide +kernel, sluices_off _ rfl, by simp only [Uncounted]; decide +kernel, by decide +kernel, 0x4010, pb (List.range 112), by decide +kernel, by decide +kernel, by decide +kernel, by decide +kernel, (by decide +kernel), by decide +kernel, by decide +kernel, by decide +kernel, by decide +kernel, Or.inl (by decide +kernel), by decide +kernel⟩,
   ⟨withProg ({ prog [5, 15] with pc := 1, xfers := [({ gather := false, src := 0x3004, idx := 0, total := 256, elem := 0, estride := 0, dkind := 1, dst := 0x4010, tile := 0, quad := 0, prof := 0, pc := 0, rd := 256, staged := pb (List.range 256) } : Xfer)], xIssued := 1 }), f7, { prog [5, 15] with pc := 1, xfers := [({ gather := false, src := 0x3004, idx := 0, total := 256, elem := 0, estride := 0, dkind := 1, dst := 0x4010, tile := 0, quad := 0, prof := 0, pc := 0, rd := 256, staged := pb (List.range 256) } : Xfer)], xIssued := 1 }, ({ gather := false, src := 0x3004, idx := 0, total := 256, elem := 0, estride := 0, dkind := 1, dst := 0x4010, tile := 0, quad := 0, prof := 0, pc := 0, rd := 256, staged := pb (List.range 256) } : Xfer), by decide +kernel, by decide +kernel, by decide +kernel, by decide +kernel, sluices_off _ rfl, by simp only [Uncounted]; decide +kernel, by decide +kernel, 1, by decide +kernel, by decide +kernel, by decide +kernel, by decide +kernel, (by decide +kernel), by decide +kernel, by decide +kernel, by decide +kernel, by decide +kernel, (by decide +kernel), { tpass with desc := 2 ^ 19 + 7 * 2 ^ 38 }, true, 1024, by decide +kernel⟩,
   ⟨withProg ({ prog [5, 15] with pc := 1, xfers := [({ gather := false, src := 0x3004, idx := 0, total := 256, elem := 0, estride := 0, dkind := 1, dst := 0x4010, tile := 1, quad := 0, prof := 0, pc := 0, rd := 256, staged := pb (List.range 256) } : Xfer)], xIssued := 1 }), f7, { prog [5, 15] with pc := 1, xfers := [({ gather := false, src := 0x3004, idx := 0, total := 256, elem := 0, estride := 0, dkind := 1, dst := 0x4010, tile := 1, quad := 0, prof := 0, pc := 0, rd := 256, staged := pb (List.range 256) } : Xfer)], xIssued := 1 }, ({ gather := false, src := 0x3004, idx := 0, total := 256, elem := 0, estride := 0, dkind := 1, dst := 0x4010, tile := 1, quad := 0, prof := 0, pc := 0, rd := 256, staged := pb (List.range 256) } : Xfer), by decide +kernel, by decide +kernel, by decide +kernel, by decide +kernel, sluices_off _ rfl, by simp only [Uncounted]; decide +kernel, by decide +kernel, 1, by decide +kernel⟩,
   ⟨{ setA (withProg (prog [5, 15])) 59 F.SLUICE_CFG_EN 1 15 with flume := { (withProg (prog [5, 15])).flume with sluices := mset {} [] (59 * 16 + 15) { level := 5000, waiting := [(2 ^ 21 + 14, 4, 4), (10, 1, 1)] } } }, 59, 15, 2 ^ 21 + 14, 4, 4, [(10, 1, 1)], by decide +kernel, by decide +kernel, by decide +kernel, by decide +kernel, by decide +kernel, Or.inr (by simp only [Requester]; decide +kernel)⟩⟩

theorem witness_ImagesAreSavedAndLoaded_also :
    (∃ (s : State) (id : CmdId) (c : Cmd) (x : Ctx), cmdCtx s c = some x ∧ x.st ≠ .imaging ∧ listed s x.slot = false ∧ (∀ y ∈ s.dqp.cmds, y.no < c.no → sameImageCtx y c = false) ∧ Runs s id c 100 [(32, 10), (48, 8)] ∧ x.st = .state ∧ idOk (c.b 32 8) = true ∧ c.b 40 1 ≤ 1 ∧ c.b 41 1 ≤ 1 ∧ (c.b 40 1 = 1 → hasKv4 s = true) ∧ roStatus s = 0 ∧ (∀ (o : Obj), findObj s c.nsid (c.b 32 8) = some o → o.mtype = 7) ∧ (findObj s c.nsid (c.b 32 8) = none → tombed s c.nsid (c.b 32 8) = false ∧ s.search.objs.length < 2 ^ 32 ∧ (s.mem.windows.any fun w => w.nsid == c.nsid && w.obj == c.b 32 8) = false) ∧ x.tokens = 0 ∧ c.b 41 1 = 0)
    ∧ (∃ (s : State) (id : CmdId) (c : Cmd) (x : Ctx), cmdCtx s c = some x ∧ x.st ≠ .imaging ∧ listed s x.slot = false ∧ (∀ y ∈ s.dqp.cmds, y.no < c.no → sameImageCtx y c = false) ∧ Runs s id c 100 [(32, 10), (48, 8)] ∧ x.st = .state ∧ idOk (c.b 32 8) = true ∧ c.b 40 1 ≤ 1 ∧ c.b 41 1 ≤ 1 ∧ (c.b 40 1 = 1 → hasKv4 s = true) ∧ roStatus s = 0 ∧ (∀ (o : Obj), findObj s c.nsid (c.b 32 8) = some o → o.mtype = 7) ∧ (findObj s c.nsid (c.b 32 8) = none → tombed s c.nsid (c.b 32 8) = false ∧ s.search.objs.length < 2 ^ 32 ∧ (s.mem.windows.any fun w => w.nsid == c.nsid && w.obj == c.b 32 8) = false) ∧ x.tokens = 0 ∧ c.b 41 1 = 1)
    ∧ (∃ (s : State) (id : CmdId) (c : Cmd) (x : Ctx), cmdCtx s c = some x ∧ x.st ≠ .imaging ∧ listed s x.slot = false ∧ (∀ y ∈ s.dqp.cmds, y.no < c.no → sameImageCtx y c = false) ∧ Runs s id c 100 [(32, 10), (48, 8)] ∧ x.st = .state ∧ idOk (c.b 32 8) = true ∧ c.b 40 1 ≤ 1 ∧ c.b 41 1 ≤ 1 ∧ (c.b 40 1 = 1 → hasKv4 s = true) ∧ roStatus s = 0 ∧ (∀ (o : Obj), findObj s c.nsid (c.b 32 8) = some o → o.mtype = 7) ∧ (findObj s c.nsid (c.b 32 8) = none → tombed s c.nsid (c.b 32 8) = false ∧ s.search.objs.length < 2 ^ 32 ∧ (s.mem.windows.any fun w => w.nsid == c.nsid && w.obj == c.b 32 8) = false) ∧ let src : Nat := if c.b 48 8 = 0 then x.sourceId else c.b 48 8; 0 < x.tokens ∧ ∃ (u : State) (st : Nat) (d : Nat), startSave (markStarted s c.no) x.slot 1 c.no (c.b 32 8) (c.b 40 1) src (c.b 41 1 == 1) [] [] = (u, st, d))
    ∧ (∃ (s : State) (id : CmdId) (c : Cmd) (x : Ctx), cmdCtx s c = some x ∧ x.st ≠ .imaging ∧ listed s x.slot = false ∧ (∀ y ∈ s.dqp.cmds, y.no < c.no → sameImageCtx y c = false) ∧ ∃ (o : Obj), let img : Nat := if c.b 32 8 = 0 then x.curImage else c.b 32 8; Runs s id c 101 [(32, 12)] ∧ (x.st = .state ∨ x.st = .imaged) ∧ img ≠ 0 ∧ findObj s c.nsid img = some o ∧ o.mtype = 7 ∧ (imageHeader s o = none ∨ ∃ fmt toks seg n, imageHeader s o = some (fmt, x.tokenBytes, toks, seg, n) ∧ c.b 40 4 ≤ toks ∧ (if c.b 40 4 = 0 then toks else c.b 40 4) ≤ x.capacity ∧ (fmt = 1 → hasKv4 s = true)) ∧ ∃ (u : State), startLoad (markStarted s c.no) x.slot 2 c.no img (c.b 40 4) (c.b 12 4) = (u, Except.ok ()))
    ∧ (∃ (s : State) (id : CmdId) (c : Cmd) (x : Ctx), cmdCtx s c = some x ∧ x.st ≠ .imaging ∧ listed s x.slot = false ∧ (∀ y ∈ s.dqp.cmds, y.no < c.no → sameImageCtx y c = false) ∧ ∃ (o : Obj), let img : Nat := if c.b 32 8 = 0 then x.curImage else c.b 32 8; Runs s id c 101 [(32, 12)] ∧ (x.st = .state ∨ x.st = .imaged) ∧ img ≠ 0 ∧ findObj s c.nsid img = some o ∧ o.mtype = 7 ∧ (imageHeader s o = none ∨ ∃ fmt toks seg n, imageHeader s o = some (fmt, x.tokenBytes, toks, seg, n) ∧ c.b 40 4 ≤ toks ∧ (if c.b 40 4 = 0 then toks else c.b 40 4) ≤ x.capacity ∧ (fmt = 1 → hasKv4 s = true)) ∧ ∃ (u : State) (e : Nat), startLoad (markStarted s c.no) x.slot 2 c.no img (c.b 40 4) (c.b 12 4) = (u, Except.error e))
    ∧ (∃ (s : State) (x : Ctx), findCtx s x.slot = some x ∧ x.kind = 1 ∧ x.auto = true ∧ x.st = .state ∧ x.destroy = 0 ∧ getF s 57 F.SCHED_COLD_COLD ≠ 0 ∧ x.lastStep + getF s 57 F.SCHED_COLD_COLD * 1048576 ≤ cyc s 57 ∧ ((List.filter (fun y => y.imgOp == 3) s.sched.ctxs).length < 4) ∧ (∀ y ∈ s.sched.ctxs, y.kind = 1 → y.auto = true → y.st = .state → y.destroy = 0 → listed s y.slot = false → y.lastStep + getF s 57 F.SCHED_COLD_COLD * 1048576 ≤ cyc s 57 → x.lastStep ≤ y.lastStep) ∧ listed s x.slot = false ∧ 0 < x.tokens ∧ roStatus s = 0 ∧ (∀ (o : Obj), findObj s x.nsid x.imageId = some o → o.mtype = 7) ∧ (findObj s x.nsid x.imageId = none → tombed s x.nsid x.imageId = false) ∧ ∃ (u : State) (d : Nat), startSave s x.slot 3 0 x.imageId (b2n x.kv4) x.sourceId true [] [] = (u, 0, d))
    ∧ (∃ (s : State) (x : Ctx), findCtx s x.slot = some x ∧ x.kind = 1 ∧ x.auto = true ∧ x.st = .state ∧ x.destroy = 0 ∧ getF s 57 F.SCHED_COLD_COLD ≠ 0 ∧ x.lastStep + getF s 57 F.SCHED_COLD_COLD * 1048576 ≤ cyc s 57 ∧ ((List.filter (fun y => y.imgOp == 3) s.sched.ctxs).length < 4) ∧ (∀ y ∈ s.sched.ctxs, y.kind = 1 → y.auto = true → y.st = .state → y.destroy = 0 → listed s y.slot = false → y.lastStep + getF s 57 F.SCHED_COLD_COLD * 1048576 ≤ cyc s 57 → x.lastStep ≤ y.lastStep) ∧ listed s x.slot = false ∧ 0 < x.tokens ∧ roStatus s = 0 ∧ (∀ (o : Obj), findObj s x.nsid x.imageId = some o → o.mtype = 7) ∧ (findObj s x.nsid x.imageId = none → tombed s x.nsid x.imageId = false) ∧ ∃ (u : State) (st : Nat) (d : Nat), startSave s x.slot 3 0 x.imageId (b2n x.kv4) x.sourceId true [] [] = (u, st, d) ∧ st ≠ 0)
    ∧ (∃ (s : State) (x : Ctx), findCtx s x.slot = some x ∧ x.kind = 1 ∧ x.auto = true ∧ x.st = .state ∧ x.destroy = 0 ∧ getF s 57 F.SCHED_COLD_COLD ≠ 0 ∧ x.lastStep + getF s 57 F.SCHED_COLD_COLD * 1048576 ≤ cyc s 57 ∧ ((List.filter (fun y => y.imgOp == 3) s.sched.ctxs).length < 4) ∧ (∀ y ∈ s.sched.ctxs, y.kind = 1 → y.auto = true → y.st = .state → y.destroy = 0 → listed s y.slot = false → y.lastStep + getF s 57 F.SCHED_COLD_COLD * 1048576 ≤ cyc s 57 → x.lastStep ≤ y.lastStep) ∧ listed s x.slot = false ∧ x.tokens = 0) :=
  ⟨⟨run (withObjs (withCtx (roomy up) [ctx 3 .state 1]) [obj 9 7 65536]) (cmd 1 0x64 [(8, 4, 3), (32, 8, 9), (40, 1, 1)]), ⟨1, 7, .none⟩, cmd 1 0x64 [(8, 4, 3), (32, 8, 9), (40, 1, 1)], ctx 3 .state 1, by decide +kernel, by decide +kernel, by decide +kernel, by decide +kernel, by simp only [Runs]; decide +kernel, by decide +kernel, by decide +kernel, by decide +kernel, by decide +kernel, by decide +kernel, by decide +kernel, some_all (y := obj 9 7 65536) (by decide +kernel) rfl, (fun h => absurd h (by decide +kernel)), by decide +kernel⟩,
   ⟨run (withObjs (withCtx (roomy up) [ctx 3 .state 1]) [obj 9 7 65536]) (cmd 1 0x64 [(8, 4, 3), (32, 8, 9), (41, 1, 1)]), ⟨1, 7, .none⟩, cmd 1 0x64 [(8, 4, 3), (32, 8, 9), (41, 1, 1)], ctx 3 .state 1, by decide +kernel, by decide +kernel, by decide +kernel, by decide +kernel, by simp only [Runs]; decide +kernel, by decide +kernel, by decide +kernel, by decide +kernel, by decide +kernel, by decide +kernel, by decide +kernel, some_all (y := obj 9 7 65536) (by decide +kernel) rfl, (fun h => absurd h (by decide +kernel)), by decide +kernel⟩,
   ⟨run (withObjs (withCtx (roomy up) [{ ctx 3 .state 1 with tokens := 1, arena := 0x200000, arenaBytes := 0x200000 }]) [obj 9 7 65536]) (cmd 1 0x64 [(8, 4, 3), (32, 8, 9)]), ⟨1, 7, .none⟩, cmd 1 0x64 [(8, 4, 3), (32, 8, 9)], { ctx 3 .state 1 with tokens := 1, arena := 0x200000, arenaBytes := 0x200000 }, by decide +kernel, by decide +kernel, by decide +kernel, by decide +kernel, by simp only [Runs]; decide +kernel, by decide +kernel, by decide +kernel, by decide +kernel, by decide +kernel, by decide +kernel, by decide +kernel, some_all (y := obj 9 7 65536) (by decide +kernel) rfl, (fun h => absurd h (by decide +kernel)), by decide +kernel, eta_ex _⟩,
   ⟨run (withObjs (withCtx (roomy up) [ctx 3 .state 1]) [obj 9 7 65536]) (cmd 1 0x65 [(8, 4, 3), (32, 8, 9)]), ⟨1, 7, .none⟩, cmd 1 0x65 [(8, 4, 3), (32, 8, 9)], ctx 3 .state 1, by decide +kernel, by decide +kernel, by decide +kernel, by decide +kernel, obj 9 7 65536, by simp only [Runs]; decide +kernel, by decide +kernel, by decide +kernel, by decide +kernel, by decide +kernel, Or.inl (by decide +kernel), (startLoad (markStarted (run (withObjs (withCtx (roomy up) [ctx 3 .state 1]) [obj 9 7 65536]) (cmd 1 0x65 [(8, 4, 3), (32, 8, 9)])) 1) 3 2 1 9 0 0).1, Prod.ext rfl (by decide +kernel)⟩,
   ⟨run (withObjs (withCtx (setA (roomy up) 57 F.HG_STACK_LIM_GIB 0 0) [{ ctx 3 .imaged 1 with arenaBytes := 0x200000 }]) [obj 9 7 65536]) (cmd 1 0x65 [(8, 4, 3), (32, 8, 9)]), ⟨1, 7, .none⟩, cmd 1 0x65 [(8, 4, 3), (32, 8, 9)], { ctx 3 .imaged 1 with arenaBytes := 0x200000 }, by decide +kernel, by decide +kernel, by decide +kernel, by decide +kernel, obj 9 7 65536, by simp only [Runs]; decide +kernel, by decide +kernel, by decide +kernel, by decide +kernel, by decide +kernel, Or.inl (by decide +kernel), (startLoad (markStarted (run (withObjs (withCtx (setA (roomy up) 57 F.HG_STACK_LIM_GIB 0 0) [{ ctx 3 .imaged 1 with arenaBytes := 0x200000 }]) [obj 9 7 65536]) (cmd 1 0x65 [(8, 4, 3), (32, 8, 9)])) 1) 3 2 1 9 0 0).1, 0, Prod.ext rfl (by decide +kernel)⟩,
   ⟨{ setF (withObjs (withCtx (roomy up) [{ ctx 3 .state 1 with auto := true, tokens := 1, imageId := 9, arena := 0x200000, arenaBytes := 0x200000 }]) [obj 9 7 65536]) 57 F.SCHED_COLD_COLD 1 with counters := { up.counters with cycles := [(57, 1048576)] } }, { ctx 3 .state 1 with auto := true, tokens := 1, imageId := 9, arena := 0x200000, arenaBytes := 0x200000 }, by decide +kernel, by decide +kernel, by decide +kernel, by decide +kernel, (by decide +kernel), by decide +kernel, by decide +kernel, by decide +kernel, by decide +kernel, (by decide +kernel), by decide +kernel, by decide +kernel, some_all (y := obj 9 7 65536) (by decide +kernel) rfl, (fun h => absurd h (by decide +kernel)), eta_ex0 _ (by decide +kernel)⟩,
   ⟨{ setF (withObjs (withCtx (setA (roomy up) 57 F.HG_FLASH_LIM_GIB 0 0) [{ ctx 3 .state 1 with auto := true, tokens := 1, imageId := 9, arena := 0x200000, arenaBytes := 0x200000 }]) [obj 9 7 65536]) 57 F.SCHED_COLD_COLD 1 with counters := { up.counters with cycles := [(57, 1048576)] } }, { ctx 3 .state 1 with auto := true, tokens := 1, imageId := 9, arena := 0x200000, arenaBytes := 0x200000 }, by decide +kernel, by decide +kernel, by decide +kernel, by decide +kernel, (by decide +kernel), by decide +kernel, by decide +kernel, by decide +kernel, by decide +kernel, (by decide +kernel), by decide +kernel, by decide +kernel, some_all (y := obj 9 7 65536) (by decide +kernel) rfl, (fun h => absurd h (by decide +kernel)), eta_exne _ (by decide +kernel)⟩,
   ⟨{ setF (withObjs (withCtx (roomy up) [{ ctx 3 .state 1 with auto := true, imageId := 9, arena := 0x200000, arenaBytes := 0x200000 }]) [obj 9 7 65536]) 57 F.SCHED_COLD_COLD 1 with counters := { up.counters with cycles := [(57, 1048576)] } }, { ctx 3 .state 1 with auto := true, imageId := 9, arena := 0x200000, arenaBytes := 0x200000 }, by decide +kernel⟩⟩

theorem witness_PassesStartAndComputeRows_also :
    (∃ (s : State) (reach : Nat) (tile : Nat) (p : TPass), TileAtWork s reach tile ∧ let t0 : Tile := getTile s reach tile; let f : Nat := activeFmt s reach tile; let first : Nat → Option TPass := fun sl => (List.filter (fun x => x.slot == sl) t0.queue).head?; let ready : TPass → Prop := fun x => slotHeld s reach x.slot = false ∧ (startCheck s reach tile x f ≠ 0 ∨ weightRow f ≤ (ownBytes (t0.wport.getD 0 []) x.no).length); (∀ x ∈ t0.queue, x.scaleWrite = none) ∧ fmtMode f = 0 ∧ inflight t0 0 < 2 ∧ loading t0 0 = false ∧ waitingEsc t0 = none ∧ escQueued t0 = false ∧ getF s reach F.TILE_GROUP_FMT_EPOCH_PENDING tile ≠ 1 ∧ first p.slot = some p ∧ p.slot < 2 ∧ ready p ∧ (∀ (x : TPass), first (1 - p.slot) = some x → ready x → p.accepted < x.accepted ∨ p.accepted = x.accepted ∧ p.slot = 0) ∧ (∀ x ∈ t0.flight, x.no ≠ p.no) ∧ startCheck s reach tile p f ≠ 0)
    ∧ (∃ (s : State) (reach : Nat) (tile : Nat) (p : TPass), TileAtWork s reach tile ∧ let t0 : Tile := getTile s reach tile; let f : Nat := activeFmt s reach tile; let first : Nat → Option TPass := fun sl => (List.filter (fun x => x.slot == sl) t0.queue).head?; let ready : TPass → Prop := fun x => slotHeld s reach x.slot = false ∧ (startCheck s reach tile x f ≠ 0 ∨ weightRow f ≤ (ownBytes (t0.wport.getD 0 []) x.no).length); (∀ x ∈ t0.queue, x.scaleWrite = none) ∧ fmtMode f = 0 ∧ inflight t0 0 < 2 ∧ loading t0 0 = false ∧ waitingEsc t0 = none ∧ escQueued t0 = false ∧ getF s reach F.TILE_GROUP_FMT_EPOCH_PENDING tile ≠ 1 ∧ first p.slot = some p ∧ p.slot < 2 ∧ ready p ∧ (∀ (x : TPass), first (1 - p.slot) = some x → ready x → p.accepted < x.accepted ∨ p.accepted = x.accepted ∧ p.slot = 0) ∧ (∀ x ∈ t0.flight, x.no ≠ p.no) ∧ startCheck s reach tile p f = 0)
    ∧ (∃ (s : State) (reach : Nat) (tile : Nat), TileAtWork s reach tile ∧ let t0 : Tile := getTile s reach tile; let f : Nat := activeFmt s reach tile; let first : Nat → Option TPass := fun sl => (List.filter (fun x => x.slot == sl) t0.queue).head?; let ready : TPass → Prop := fun x => slotHeld s reach x.slot = false ∧ (startCheck s reach tile x f ≠ 0 ∨ weightRow f ≤ (ownBytes (t0.wport.getD 0 []) x.no).length); (∀ x ∈ t0.queue, x.scaleWrite = none) ∧ fmtMode f = 0 ∧ inflight t0 0 < 2 ∧ loading t0 0 = false ∧ waitingEsc t0 = none ∧ escQueued t0 = false ∧ getF s reach F.TILE_GROUP_FMT_EPOCH_PENDING tile ≠ 1 ∧ (∀ (sl : Nat) (x : TPass), sl < 2 → first sl = some x → ¬ready x))
    ∧ (∃ (s : State) (reach : Nat) (tile : Nat) (p : TPass), TileAtWork s reach tile ∧ let t0 : Tile := getTile s reach tile; let f : Nat := activeFmt s reach tile; ∃ (quad : Nat), let q : Nat := if fmtMode f = 1 then quad % 4 else 0; (∀ x ∈ t0.queue, x.scaleWrite = none) ∧ inflight t0 q < 2 ∧ loading t0 q = false ∧ fmtMode f ≠ 0 ∧ escQueued t0 = false ∧ getF s reach F.TILE_GROUP_FMT_EPOCH_PENDING tile ≠ 1 ∧ nextPass s reach tile q = some p ∧ (∀ x ∈ t0.flight, x.no ≠ p.no) ∧ startCheck s reach tile p f = 0)
    ∧ (∃ (s : State) (reach : Nat) (tile : Nat) (p : TPass), TileAtWork s reach tile ∧ let t0 : Tile := getTile s reach tile; let f : Nat := activeFmt s reach tile; ∃ (quad : Nat), let q : Nat := if fmtMode f = 1 then quad % 4 else 0; (∀ x ∈ t0.queue, x.scaleWrite = none) ∧ inflight t0 q < 2 ∧ loading t0 q = false ∧ fmtMode f = 0 ∧ waitingEsc t0 = some p)
    ∧ (∃ (s : State) (reach : Nat) (tile : Nat) (p : TPass), TileAtWork s reach tile ∧ let t0 : Tile := getTile s reach tile; (List.find? (fun x => x.lane x.fmt == 0 && decide (x.row < x.total)) t0.flight = some p) ∧ fmtMode p.fmt = 0 ∧ p.gpart = 0 ∧ p.weightNeed p.fmt ≤ p.weights.length ∧ p.sideNeed p.fmt ≤ p.side.length ∧ p.sent.testBit 16 = false ∧ p.row0 + p.row < 512 ∧ escAhead t0 p.started = false ∧ let data : List PByte := ownBytes (t0.feeders.getD 0 []) p.no; let dry : Nat := dryFeeders p.fmt data.length; dry = 0 ∧ t0.feeders ≠ [])
    ∧ (∃ (s : State) (reach : Nat) (tile : Nat) (p : TPass), TileAtWork s reach tile ∧ let t0 : Tile := getTile s reach tile; (List.find? (fun x => x.lane x.fmt == 0 && decide (x.row < x.total)) t0.flight = some p) ∧ fmtMode p.fmt = 0 ∧ p.gpart = 0 ∧ p.weightNeed p.fmt ≤ p.weights.length ∧ p.sideNeed p.fmt ≤ p.side.length ∧ p.sent.testBit 16 = false ∧ p.row0 + p.row < 512 ∧ escAhead t0 p.started = false ∧ let data : List PByte := ownBytes (t0.feeders.getD 0 []) p.no; let dry : Nat := dryFeeders p.fmt data.length; 0 < dry ∧ dry ≤ 4)
    ∧ (∃ (s : State) (reach : Nat) (tile : Nat) (p : TPass), TileAtWork s reach tile ∧ let t0 : Tile := getTile s reach tile; (List.find? (fun x => x.lane x.fmt == 0 && decide (x.row < x.total)) t0.flight = some p) ∧ fmtMode p.fmt = 0 ∧ p.gpart = 0 ∧ p.weightNeed p.fmt ≤ p.weights.length ∧ p.sideNeed p.fmt ≤ p.side.length ∧ p.sent.testBit 16 = false ∧ p.row0 + p.row < 512 ∧ escAhead t0 p.started = false ∧ let data : List PByte := ownBytes (t0.feeders.getD 0 []) p.no; let dry : Nat := dryFeeders p.fmt data.length; 4 < dry)
    ∧ (∃ (s : State) (reach : Nat) (tile : Nat) (quad : Nat) (p : TPass), TileAtWork s reach tile ∧ let t0 : Tile := getTile s reach tile; let q : Nat := if fmtMode p.fmt = 1 then quad % 4 else 0; let data : List PByte := ownBytes (t0.feeders.getD q []) p.no; (List.find? (fun x => (x.lane x.fmt == if fmtMode x.fmt = 1 then quad % 4 else 0) && decide (x.row < x.total)) t0.flight = some p) ∧ fmtMode p.fmt ≠ 2 ∧ p.weightNeed p.fmt ≤ p.weights.length ∧ p.sideNeed p.fmt ≤ p.side.length ∧ escAhead t0 p.started = false ∧ q < t0.feeders.length ∧ dryFeeders p.fmt data.length = 0)
    ∧ (∃ (s : State) (reach : Nat) (tile : Nat) (quad : Nat) (p : TPass), TileAtWork s reach tile ∧ let t0 : Tile := getTile s reach tile; let beat : List PByte := ownBytes (t0.wport.getD 0 []) p.no; (List.find? (fun x => (x.lane x.fmt == if fmtMode x.fmt = 1 then quad % 4 else 0) && decide (x.row < x.total)) t0.flight = some p) ∧ fmtMode p.fmt = 2 ∧ p.count * (p.k / fmtGsize p.fmt) * actGroup p.fmt ≤ p.acts.length ∧ t0.wport ≠ [] ∧ 128 ≤ beat.length ∧ 8 ≤ (ownBytes (t0.sidecar.getD 0 []) p.no).length) :=
  ⟨⟨withTile { queue := [{ tpass with desc := 2 ^ 32 * 33 + 2 ^ 19 }] }, 0, 0, { tpass with desc := 2 ^ 32 * 33 + 2 ^ 19 }, by simp only [TileAtWork, Uncounted]; decide +kernel, by decide +kernel, by decide +kernel, by decide +kernel, by decide +kernel, (by decide +kernel), by decide +kernel, by decide +kernel, by decide +kernel, by decide +kernel, (by refine ⟨?_, ?_⟩ <;> decide +kernel), (by intro x h; revert x h; exact none_all (by decide +kernel)), by decide +kernel⟩,
   ⟨withTile { queue := [tpass], wport := [[⟨0, pb (List.replicate 32 0x38), none, none⟩], [], [], []] }, 0, 0, tpass, by simp only [TileAtWork, Uncounted]; decide +kernel, by decide +kernel, by decide +kernel, by decide +kernel, by decide +kernel, (by decide +kernel), by decide +kernel, by decide +kernel, by decide +kernel, by decide +kernel, (by refine ⟨?_, ?_⟩ <;> decide +kernel), (by intro x h; revert x h; exact none_all (by decide +kernel)), by decide +kernel⟩,
   ⟨withTile { queue := [tpass] }, 0, 0, by simp only [TileAtWork, Uncounted]; decide +kernel, by decide +kernel, by decide +kernel, by decide +kernel, by decide +kernel, (by decide +kernel), by decide +kernel, by decide +kernel, (by
   intro sl x hs
   have h2 : sl = 0 ∨ sl = 1 := by omega
   rcases h2 with rfl | rfl
   · revert x; exact some_all (y := tpass) (by decide +kernel) (by decide +kernel)
   · revert x; exact none_all (by decide +kernel))⟩,
   ⟨(fun s : State => setA (setA s 0 F.TILE_FMT_MODE 2 0) 0 F.TILE_FMT_WFMT 1 0) (withTile { queue := [{ tpass with desc := 2 ^ 19 + 32 * 2 ^ 48 + 16 * 2 ^ 64 }] }), 0, 0, { tpass with desc := 2 ^ 19 + 32 * 2 ^ 48 + 16 * 2 ^ 64 }, by simp only [TileAtWork, Uncounted]; decide +kernel, 0, by decide +kernel⟩,
   ⟨withTile { flight := [{ tpass with weights := pb (List.replicate 1024 0x38), side := pb (List.replicate 16 0x11), scales := List.replicate 32 0x3F800000, row := 1, esc := [{ rows := [{ m := 0, x := 0, src := ⟨0x5000, 0, 0, ⟨3, 1, 1, 9⟩⟩ }], u := 0, flying := false, sums := [], started := 0 }] }] }, 0, 0, { tpass with weights := pb (List.replicate 1024 0x38), side := pb (List.replicate 16 0x11), scales := List.replicate 32 0x3F800000, row := 1, esc := [{ rows := [{ m := 0, x := 0, src := ⟨0x5000, 0, 0, ⟨3, 1, 1, 9⟩⟩ }], u := 0, flying := false, sums := [], started := 0 }] }, by simp only [TileAtWork, Uncounted]; decide +kernel, 0, by decide +kernel⟩,
   ⟨withTile { flight := [{ tpass with weights := pb (List.replicate 1024 0x38), side := pb (List.replicate 16 0x11), scales := List.replicate 32 0x3F800000, row := 0 }], feeders := [[⟨0, pb (List.replicate 40 0x40), none, none⟩], [], [], []] }, 0, 0, { tpass with weights := pb (List.replicate 1024 0x38), side := pb (List.replicate 16 0x11), scales := List.replicate 32 0x3F800000, row := 0 }, by simp only [TileAtWork, Uncounted]; decide +kernel, by decide +kernel⟩,
   ⟨withTile { flight := [{ tpass with weights := pb (List.replicate 1024 0x38), side := pb (List.replicate 16 0x11), scales := List.replicate 32 0x3F800000, row := 0 }], feeders := [[⟨0, pb (List.replicate 29 0x40), none, none⟩], [], [], []] }, 0, 0, { tpass with weights := pb (List.replicate 1024 0x38), side := pb (List.replicate 16 0x11), scales := List.replicate 32 0x3F800000, row := 0 }, by simp only [TileAtWork, Uncounted]; decide +kernel, by decide +kernel⟩,
   ⟨withTile { flight := [{ tpass with weights := pb (List.replicate 1024 0x38), side := pb (List.replicate 16 0x11), scales := List.replicate 32 0x3F800000, row := 0 }], feeders := [[⟨0, pb (List.replicate 0 0x40), none, none⟩], [], [], []] }, 0, 0, { tpass with weights := pb (List.replicate 1024 0x38), side := pb (List.replicate 16 0x11), scales := List.replicate 32 0x3F800000, row := 0 }, by simp only [TileAtWork, Uncounted]; decide +kernel, by decide +kernel⟩,
   ⟨withTile { flight := [{ tpass with weights := pb (List.replicate 1024 0x38), side := pb (List.replicate 16 0x11), scales := List.replicate 32 0x3F800000, row := 0 }], feeders := [[⟨0, pb (List.replicate 40 0x40), none, none⟩], [], [], []] }, 0, 0, 0, { tpass with weights := pb (List.replicate 1024 0x38), side := pb (List.replicate 16 0x11), scales := List.replicate 32 0x3F800000, row := 0 }, by simp only [TileAtWork, Uncounted]; decide +kernel, by decide +kernel⟩,
   ⟨withTile { flight := [{ tpass with desc := 2 ^ 19 + 32 * 2 ^ 48 + 16 * 2 ^ 64, fmt := 2 + 16, scales := List.replicate 16 0x3F800000, acts := pb (List.replicate 64 0x11) }], wport := [[⟨0, pb (List.replicate 128 0x38), none, none⟩], [], [], []], sidecar := [[⟨0, pb (List.replicate 8 0x11), none, none⟩], [], [], []] }, 0, 0, 0, { tpass with desc := 2 ^ 19 + 32 * 2 ^ 48 + 16 * 2 ^ 64, fmt := 2 + 16, scales := List.replicate 16 0x3F800000, acts := pb (List.replicate 64 0x11) }, by simp only [TileAtWork, Uncounted]; decide +kernel, by decide +kernel⟩⟩

theorem witness_PassesCompleteAndUnitsMove_also :
    (∃ (s : State) (reach : Nat) (tile : Nat) (q : Nat), TileAtWork s reach tile ∧ q < 4 ∧ let t0 : Tile := getTile s reach tile; ∃ (quad : Nat) (p : TPass), let mine : TPass → Bool := fun x => x.lane x.fmt == if fmtMode x.fmt = 1 then quad % 4 else 0; (List.find? (fun x => mine x && Option.map (fun x => x.flying) x.esc.head? == some true) t0.flight = none) ∧ (List.find? (fun x => mine x && x.esc.isEmpty && decide (x.total ≤ x.row)) t0.flight = some p) ∧ p.inject = none ∧ p.upset = [] ∧ p.badOuts = [] ∧ getF s reach F.TILE_PASSES_COUNT tile < 2 ^ F.TILE_PASSES_COUNT.w - 1)
    ∧ (∃ (s : State) (reach : Nat) (tile : Nat) (q : Nat), TileAtWork s reach tile ∧ q < 4 ∧ let t0 : Tile := getTile s reach tile; ∃ (quad : Nat) (p : TPass), let mine : TPass → Bool := fun x => x.lane x.fmt == if fmtMode x.fmt = 1 then quad % 4 else 0; ∃ (b : EscBatch) (rest : List EscBatch), (List.find? (fun x => mine x && Option.map (fun x => x.flying) x.esc.head? == some true) t0.flight = some p) ∧ p.esc = b :: rest ∧ escReady s reach p b = true ∧ passAhead t0 b.started = false)
    ∧ (∃ (s : State) (reach : Nat) (tile : Nat) (q : Nat), TileAtWork s reach tile ∧ q < 4 ∧ let t0 : Tile := getTile s reach tile; ∃ (quad : Nat) (p : TPass), let mine : TPass → Bool := fun x => x.lane x.fmt == if fmtMode x.fmt = 1 then quad % 4 else 0; ∃ (b : EscBatch) (rest : List EscBatch), (List.find? (fun x => mine x && Option.map (fun x => x.flying) x.esc.head? == some true) t0.flight = some p) ∧ p.esc = b :: rest ∧ (escReady s reach p b = false ∨ passAhead t0 b.started = true)) :=
  ⟨⟨withTile { flight := [{ tpass with row := 1 }] }, 0, 0, 3, by simp only [TileAtWork, Uncounted]; decide +kernel, by decide +kernel, 0, { tpass with row := 1 }, by decide +kernel⟩,
   ⟨withTile { flight := [{ tpass with weights := pb (List.replicate 1024 0x38), side := pb (List.replicate 16 0x11), scales := List.replicate 32 0x3F800000, row := 1, esc := [{ rows := [{ m := 0, x := 0, src := ⟨0x5000, 0, 0, ⟨3, 1, 1, 9⟩⟩ }], u := 0, flying := true, sums := [], started := 0, wgot := pb (List.replicate 1040 0), agot := pb (List.replicate 40 0) }] }] }, 0, 0, 3, by simp only [TileAtWork, Uncounted]; decide +kernel, by decide +kernel, 0, { tpass with weights := pb (List.replicate 1024 0x38), side := pb (List.replicate 16 0x11), scales := List.replicate 32 0x3F800000, row := 1, esc := [{ rows := [{ m := 0, x := 0, src := ⟨0x5000, 0, 0, ⟨3, 1, 1, 9⟩⟩ }], u := 0, flying := true, sums := [], started := 0, wgot := pb (List.replicate 1040 0), agot := pb (List.replicate 40 0) }] }, { rows := [{ m := 0, x := 0, src := ⟨0x5000, 0, 0, ⟨3, 1, 1, 9⟩⟩ }], u := 0, flying := true, sums := [], started := 0, wgot := pb (List.replicate 1040 0), agot := pb (List.replicate 40 0) }, [], by decide +kernel⟩,
   ⟨withTile { flight := [{ tpass with weights := pb (List.replicate 1024 0x38), side := pb (List.replicate 16 0x11), scales := List.replicate 32 0x3F800000, row := 1, esc := [{ rows := [{ m := 0, x := 0, src := ⟨0x5000, 0, 0, ⟨3, 1, 1, 9⟩⟩ }], u := 0, flying := true, sums := [], started := 1 }] }, { tpass with no := 1, weights := [] }] }, 0, 0, 3, by simp only [TileAtWork, Uncounted]; decide +kernel, by decide +kernel, 0, { tpass with weights := pb (List.replicate 1024 0x38), side := pb (List.replicate 16 0x11), scales := List.replicate 32 0x3F800000, row := 1, esc := [{ rows := [{ m := 0, x := 0, src := ⟨0x5000, 0, 0, ⟨3, 1, 1, 9⟩⟩ }], u := 0, flying := true, sums := [], started := 1 }] }, { rows := [{ m := 0, x := 0, src := ⟨0x5000, 0, 0, ⟨3, 1, 1, 9⟩⟩ }], u := 0, flying := true, sums := [], started := 1 }, [], by decide +kernel⟩⟩

theorem witness_PoolsGrowAndTheBraidIsRepaired_also :
    (∃ (s : State) (id : CmdId) (c : Cmd) (x : Coll), findColl s (c.b 32 2) = some x ∧ x.nsid = c.nsid ∧ Runs s id c 130 [(32, 3), (36, 8), (48, 8)] ∧ AppendOk s c x ∧ ∃ (bad : List Nat) (fixed : List Nat), ((c.b 34 1).testBit 1 = true → bad = [] ∧ fixed = [])) :=
  ⟨run (withSearch id) (buf 144 { (cmd 1 0x82 [(32, 2, 5), (34, 1, 1), (36, 4, 3), (40, 4, 1)]) with data := codes 7 ++ toBytes 8 5 ++ toBytes 4 2 ++ toBytes 4 0 ++ codes 9 }), ⟨1, 7, .none⟩, buf 144 { (cmd 1 0x82 [(32, 2, 5), (34, 1, 1), (36, 4, 3), (40, 4, 1)]) with data := codes 7 ++ toBytes 8 5 ++ toBytes 4 2 ++ toBytes 4 0 ++ codes 9 }, coll5, by decide +kernel, by decide +kernel, by simp only [Runs]; decide +kernel, ⟨by decide +kernel, by decide +kernel, by decide +kernel, by decide +kernel, (by decide +kernel), by decide +kernel, by decide +kernel, by decide +kernel, (by intro i hi; have h : i = 0 := by { have h1 : i < 1 := hi; omega }; subst h; exact ⟨by decide +kernel, obj 5 6 65536, [(0, 1024)], by decide +kernel, rfl⟩), by decide +kernel, by decide +kernel, by simp only [FirstOfPool]; decide +kernel⟩, [], [], by decide +kernel⟩

theorem witness_PowerStatesAndShutdown_also :
    (∃ (s : State) (id : CmdId) (c : Cmd), State.wf s = true ∧ s.dqp.pwr = PwrMove.none ∧ Runs s id c 8 [(32, 1)] ∧ c.b 32 1 ≤ 3 ∧ (c.b 32 1 = 3 → s.sched.ctxs = []) ∧ let r : State × Option Nat := saveResidents s.sched.ctxs (markStarted s c.no); getF s 56 F.DQP_STATUS_PSTATE < 2 ∧ c.b 32 1 = 2 ∧ ∃ (e : Nat), r.2 = some e)
    ∧ (∃ (s : State), State.wf s = true ∧ ∃ (target : Nat) (prior : Nat) (no : Nat) (late : Option Nat), s.dqp.pwr = PwrMove.entering target prior no false late ∧ target ≤ 3 ∧ (target = 2 → (∀ x ∈ s.sched.ctxs, x.holds = false) ∧ ∀ d ∈ s.flash.dies, d.2.run = none ∧ d.2.st ≠ DieSt.psusp))
    ∧ (∃ (s : State), State.wf s = true ∧ ∃ (target : Nat) (prior : Nat) (no : Nat) (late : Option Nat), s.dqp.pwr = PwrMove.entering target prior no true late ∧ target ≤ 2)
    ∧ (∃ (s : State), State.wf s = true ∧ ∃ (prior : Nat) (no : Nat) (late : Option Nat), s.dqp.pwr = PwrMove.entering 3 prior no true late)
    ∧ (∃ (s : State), State.wf s = true ∧ ∃ (target : Nat) (no : Option Nat), s.dqp.pwr = PwrMove.exiting target no ∧ target ≤ 3) :=
  ⟨⟨run (withCtx (setA (roomy up) 57 F.HG_SAVE_LIM_GIB 0 0) [ctx 3 .resident 0]) (cmd 0 0x08 [(32, 1, 2)]), ⟨0, 7, .none⟩, cmd 0 0x08 [(32, 1, 2)], by decide +kernel, by decide +kernel, by simp only [Runs]; decide +kernel, by decide +kernel, by decide +kernel, by decide +kernel, by decide +kernel, 0, by decide +kernel⟩,
   ⟨{ run up (cmd 0 0x08 []) with dqp := { (run up (cmd 0 0x08 [])).dqp with pwr := .entering 2 0 1 false (some 5) } }, by decide +kernel, 2, 0, 1, some 5, by decide +kernel⟩,
   ⟨{ run up (cmd 0 0x08 []) with dqp := { (run up (cmd 0 0x08 [])).dqp with pwr := .entering 2 0 1 true (some 5) } }, by decide +kernel, 2, 0, 1, some 5, by decide +kernel⟩,
   ⟨{ run up (cmd 0 0x08 []) with dqp := { (run up (cmd 0 0x08 [])).dqp with pwr := .entering 3 0 1 true (some 5) } }, by decide +kernel, 0, 1, some 5, by decide +kernel⟩,
   ⟨{ run up (cmd 0 0x08 []) with dqp := { (run up (cmd 0 0x08 [])).dqp with pwr := .exiting 1 (some 1) } }, by decide +kernel, 1, some 1, by decide +kernel⟩⟩

theorem witness_RisalCommandsAct_also :
    (∃ (s : State) (id : CmdId) (c : Cmd), findCmd s c.no = some c ∧ ∃ (o : Obj), Runs s id c 197 [(32, 96)] ∧ findObj s c.nsid (c.b 48 8) = some o ∧ o.risal = true ∧ risalCtx s c = true ∧ risalEntry s ≠ 0 ∧ risalCan s c o.mtype = true ∧ o.quarantined = true) :=
  ⟨run ({ setF (setF (setF (setF (roomy up) 56 F.RISAL_ENTRY_LO_ADDR 512) 56 F.RISAL_SLOT_LO_ADDR 128) 56 F.RISAL_DEST_LO_ADDR 256) 56 F.RISAL_DCFG_DEST_KIB 4 with search := { up.search with objs := [{ obj 5 2 4096 with risal := true, quarantined := true }] }, sched := { up.sched with ctxs := [ctx 3 .idle 0] }, mem := { up.mem with tags := [(0, .arena 0 3)] } }) (cmd 1 0xC5 [(8, 4, 3), (48, 8, 5)]), ⟨1, 7, .none⟩, (cmd 1 0xC5 [(8, 4, 3), (48, 8, 5)]), by decide +kernel, { obj 5 2 4096 with risal := true, quarantined := true }, by simp only [Runs]; decide +kernel, by decide +kernel⟩

theorem witness_SweepsSearchAndAnswer_also :
    (∃ (s : State) (sweep : Nat) (isl : Nat) (w : Sweep) (p : Pool), (isl = 50 ∨ isl = 54) ∧ findSweep s sweep = some w ∧ State.wf s = true ∧ (List.find? (fun y => y.no == p.no) w.pools = some p) ∧ ∃ (a : Nat × Nat × List Nat × List Nat × Nat), (List.find? (fun x => x.1 == p.no) w.active = some a) ∧ a.2.2.2.1.Nodup ∧ (∀ x ∈ List.takeWhile (fun x => x.1 != p.no) w.active, x.2.1 = a.2.1 → ∀ u ∈ x.2.2.1, u ∉ a.2.2.1)) :=
  ⟨withSearch (fun x => { x with queries := [query 1], sweeps := [{ sweep1 with active := [(1, 50, [7], [1], 0), (0, 50, [63, 5], [1], 1)] }] }), 1, 50, { sweep1 with active := [(1, 50, [7], [1], 0), (0, 50, [63, 5], [1], 1)] }, pool0, by decide +kernel, by decide +kernel, by decide +kernel, by decide +kernel, (0, 50, [63, 5], [1], 1), by decide +kernel⟩

theorem witness_TierCommandsAndFetches_also :
    (∃ (s : State) (o : Obj) (p : Page) (idx : Nat), findPage s o.nsid o.id idx = some p ∧ findObj s o.nsid o.id = some o ∧ p.resident = false ∧ p.asleep = false ∧ p.again = true ∧ p.lost = 0 ∧ selfRefresh s = false) :=
  ⟨{ withObjs (roomy up) [obj 5 6 65536] with mem := { up.mem with pages := [{ page false 0 with again := true }], frames := [(65536, ⟨0, 1, false⟩)] } }, obj 5 6 65536, { page false 0 with again := true }, 0, by decide +kernel⟩

theorem witness_TurnsFollowTheTable_also :
    (∃ (s : State), State.wf s = true ∧ getF s 57 F.CNT_CTRL_EN = 0 ∧ ∃ (n : Nat), working s = true ∧ getA s 57 F.SCHED_TURN_CNT_COUNT = n ∧ 0 < n ∧ turnPending s = true) :=
  ⟨setF (setA up 57 F.SCHED_TURN_CNT_COUNT 256) 57 F.SCHED_GROUP_TURNOUT_EPOCH_PENDING 1, by decide +kernel, by decide +kernel, 256, by decide +kernel⟩

theorem witness_UnitsAndReachesMove_also :
    (∃ (s : State) (id : CmdId) (c : Cmd) (fault : LineFault), State.wf s = true ∧ Runs s id c 12 unitFields ∧ let u : Nat × Nat × Nat := unitOf c; unitNamed u = true ∧ unitEnabled s u = true ∧ (∀ x ∈ s.dqp.cmds, x.no < c.no → x.opcode = 12 → unitOf x ≠ u) ∧ c.b 33 1 = 2 ∧ (∀ v ∈ unitStates s u, v = 3) ∧ unitPassed s u = true ∧ joinFits s u.2.1 = true ∧ (u.1 = 4 → fault.cause = 0)) :=
  ⟨run (setF (setF (roomy up) 31 F.REACH_STATE_STATE 3) 31 F.REACH_STATE_BIST_DONE 1) (cmd 0 0x0C [(32, 1, 0), (33, 1, 2), (34, 1, 31), (36, 2, 0)]), ⟨0, 7, .none⟩, cmd 0 0x0C [(32, 1, 0), (33, 1, 2), (34, 1, 31), (36, 2, 0)], ⟨0, 0⟩, by decide +kernel, by simp only [Runs]; decide +kernel, by decide +kernel⟩

theorem witness_UnitsOfMediaAndDecodes_also :
    (∃ (s : State) (n : Nat) (d : Decode), State.wf s = true ∧ ∃ (u : Nat), s.media.decodes[n]? = some d ∧ d.unit = none ∧ working s = true ∧ getF s 56 F.DQP_STATUS_PSTATE = 0 ∧ (coded d.mtype = true → mediaIn s d.island 12 = true ∧ (∀ x ∈ List.take n s.media.decodes, x.unit = none → coded x.mtype = true → x.island = d.island → ¬(x.mtype = 1 ↔ d.mtype = 1)) ∧ List.find? (fun u => mediaIn s d.island u && !mediaBusy s d.island u) (decodersFor d.mtype) = some u) ∧ (coded d.mtype = false → u = 13)) :=
  ⟨{ withObjs (roomy up) [obj 5 2 16] with media := { up.media with decodes := [{ no := 1, query := 0, nsid := 1, mtype := 2, obj := 5, content := [], dest := 0x4000, first := 0, frames := 1, step := 1, profile := 0, captured := [], wrap := 0, destBytes := 1024, island := 51, unit := none, risal := false, ctx := 0, entry := 0, slot := 0 }] } }, 0, { no := 1, query := 0, nsid := 1, mtype := 2, obj := 5, content := [], dest := 0x4000, first := 0, frames := 1, step := 1, profile := 0, captured := [], wrap := 0, destBytes := 1024, island := 51, unit := none, risal := false, ctx := 0, entry := 0, slot := 0 }, by decide +kernel, 0, by decide +kernel⟩

theorem witness_TestWindowAndFlips_also :
    (∃ (s : State) (isl : Nat) (v : Nat), State.wf s = true ∧ isl < 32 ∧ (reachState s isl = 2 ∨ reachState s isl = 3) ∧ bits v 2 3 = 0 ∧ bits v 5 6 = 0 ∧ testAddr s isl + 64 ≤ 25165824 ∧ testOp s isl = 0 ∧ bits v 0 2 = 2 ∧ NamedWriteOk s 0 isl R.PROT_TCTRL v ∧ (∀ i < 8, mfind s.prot.flips (reachWindow isl + testAddr s isl + 8 * i) = none ∧ poisoned s (reachWindow isl + testAddr s isl + 8 * i) = false)) :=
  ⟨setF up 3 F.REACH_STATE_STATE 3, 3, 2, by decide +kernel, by decide +kernel, by decide +kernel, by decide +kernel, (by decide +kernel), by decide +kernel, by decide +kernel, by decide +kernel, (by simp only [NamedWriteOk, CanReach, WordOk]; decide +kernel), by decide +kernel⟩

theorem witness_UnitOperationsAndTickets_also :
    (∃ (s : State) (s1 : State) (a : RillAt) (m : Rill) (w : Nat) (th : Nat) (k : Nat), threads m w = [th] ∧ bits w 36 28 = 0 ∧ unitsHeld s m.ctx = false ∧ freeTicket m = some k ∧ ∃ (o : Obj) (u : State), Issues s s1 a 195 m w ∧ fA w % 2 = 0 ∧ fB w % 2 = 0 ∧ (∀ j < 2, m.bad th (fA w + j) = false ∧ m.bad th (fB w + j) = false) ∧ let x : Nat := m.get64 th (fA w); let y : Nat := m.get64 th (fB w); x % 32 = 0 ∧ y % 32 = 0 ∧ unitAddr s1 m.ctx x 32 = true ∧ unitAddr s1 m.ctx y 32 = true ∧ (if regionOf s1 x = Region.stack then readStatus s1 x 32 = 0 else poisonedIn s1 x 32 = false) ∧ let d : List Byte := rdBytes s1 x 32; let r : List Nat × Nat × Nat := tierRange o (le d 8 8) (le d 16 8); findObj s1 (ctxDom s1 m.ctx + 1) (le d 0 8) = some o ∧ le d 30 2 = 0 ∧ le d 29 1 ≤ 1 ∧ (∀ e ∈ dieConds s1 (le d 28 1) ++ tierRangeConds (some o) (le d 8 8) (le d 16 8), e = 0) ∧ o.quarantined = false ∧ (startPages o (pickDie s1 (le d 28 1)) r.1 (updMem (stackRead s1 6 x 32) fun z => { bytes := z.bytes, poison := z.poison, valid := z.valid, tags := z.tags, exts := z.exts, frames := z.frames, released := z.released, pages := z.pages, windows := z.windows, fetches := z.fetches, nextFetch := z.nextFetch + 1, clock := z.clock, scratchUsed := z.scratchUsed, drains := z.drains }) = (u, Except.ok ()))) :=
  ⟨((fun s : State => { withObjs s [obj 5 6 65536] with mem := { s.mem with bytes := s.mem.bytes ++ wrCells [] 0x4000 (toBytes 8 5 ++ List.replicate 20 0 ++ [255]) } }) (at0 ({ rill [(4, 0x4000), (6, 0x4040)] with active := 1 }) 0x61017c3)), ((fun s : State => { withObjs s [obj 5 6 65536] with mem := { s.mem with bytes := s.mem.bytes ++ wrCells [] 0x4000 (toBytes 8 5 ++ List.replicate 20 0 ++ [255]) } }) (at0 ({ rill [(4, 0x4000), (6, 0x4040)] with active := 1 }) 0x61017c3)), a0, ({ rill [(4, 0x4000), (6, 0x4040)] with active := 1 }), 0x61017c3, 0, 0, by decide +kernel, by decide +kernel, by decide +kernel, by decide +kernel, obj 5 6 65536, ex_in (issues _ _ _ _ (by decide +kernel) (by decide +kernel)) (ex_in4 (by decide +kernel) (by decide +kernel) (by decide +kernel) (by decide +kernel) (ex_in4 (by decide +kernel) (by decide +kernel) (by decide +kernel) (by decide +kernel) (ex_in4 (by decide +kernel) (by decide +kernel) (by decide +kernel) (by decide +kernel) (ex_in (by decide +kernel) (ex_ok1 _ (by decide +kernel))))))⟩

/-! ### Witnesses of the statements about every step, and those written out by hand -/

theorem witness_CommandsRunFirstInFirstOut :
    ∃ s t : State, s.pending.length = 2 ∧ step s = .next t :=
  ⟨{ up with pending := [.idle 4095 0, .idleDue] }, _, by decide +kernel, rfl⟩

theorem witness_StepKeepsTheForms : ∃ s t : State, State.wf s = true ∧ s.pending ≠ [] ∧ step s = .next t :=
  ⟨{ up with pending := [.holdupCharged 5] }, _, by decide +kernel, by decide, rfl⟩

theorem witness_StepKeepsTheFurtherForms : ∃ s t : State, State.mapsWf s = true ∧ s.pending ≠ [] ∧ step s = .next t :=
  ⟨{ up with pending := [.holdupCharged 5] }, _, by decide +kernel, by decide, rfl⟩

theorem witness_FenceOrdersAQueue :
    ∃ (s : State) (id : CmdId) (c x : Cmd), x ∈ s.dqp.cmds ∧ x.sqid = c.sqid ∧ x.no < c.no ∧ (c.fence = true ∨ x.fence = true)
      ∧ cmdById s id = some c ∧ c.opcode = 0x00 :=
  ⟨{ up with dqp := { up.dqp with cmds := [cmd 1 0 [(1, 1, 1)], { cmd 1 0 [] with no := 2, tag := 8 }] } }, ⟨1, 8, .none⟩,
   { cmd 1 0 [] with no := 2, tag := 8 }, cmd 1 0 [(1, 1, 1)], by decide +kernel, by decide +kernel, by decide +kernel,
   by decide +kernel⟩

theorem witness_SearchesAndSnapshots_sweepStart :
    ∃ (s : State) (no metric : Nat) (c : Coll), findColl s no = some c ∧ c.deleting = 0 ∧ working s = true
      ∧ s.search.sweeps.length < getF s 57 F.SRCH_CFG_SWEEPS_MAX
      ∧ takeQueries (s.search.queries.filter (fun q => q.coll == no && q.metric == metric && q.phase == .queued))
          (getF s 57 F.SRCH_CFG_SWEEP_MAX) (1048576 - heapUsed s) ≠ [] :=
  ⟨withSearch (fun x => { x with queries := [{ query 1 with phase := .queued, sweep := 0 }] }), 5, 1, coll5, by decide +kernel,
   by decide +kernel⟩

theorem witness_UnitsOfMediaAndDecodes_coded :
    ∃ (s : State) (n : Nat) (d : Decode), State.wf s = true ∧ s.media.decodes[n]? = some d ∧ d.unit.isSome = true ∧ d.query = 0
      ∧ d.risal = false ∧ d.wrap = 0 ∧ coded d.mtype = true :=
  let d : Decode := { no := 1, query := 0, nsid := 1, mtype := 2, obj := 5, content := [], dest := 0x4000, first := 0, frames := 1, step := 1, profile := 0, captured := [], wrap := 0, destBytes := 1024, island := 51, unit := some 0, risal := false, ctx := 0, entry := 0, slot := 0 }
  ⟨{ up with media := { up.media with decodes := [d] } }, 0, d, by decide +kernel, rfl, rfl, rfl, rfl, rfl, by decide⟩

/-! ### Each check of WellFormed refuses an ill-formed command -/

theorem test_wf_port : (Instr.regWrite 3 ⟨0, 4⟩ 0).malformed = some .port := by decide
theorem test_wf_value : (Instr.regWrite 0 ⟨0, 4⟩ (2 ^ 32)).malformed = some .value := by decide
theorem test_wf_address : (Instr.groupAdopt (2 ^ 64)).malformed = some .address := by decide
theorem test_wf_queueTag : (Instr.identify ⟨2 ^ 16, 0, .none⟩).malformed = some .queueTag := by decide
theorem test_wf_flit : (Instr.flitRejected []).malformed = some .flit := by decide
theorem test_wf_rill : (Instr.rillIadd ⟨32, 0, 0, .none⟩).malformed = some .rill := by decide
theorem test_wf_program : (Instr.flumeNop ⟨0, 8, 0⟩).malformed = some .program := by decide
theorem test_wf_slot : (Instr.rillStart 0 0 32 0).malformed = some .slot := by decide
theorem test_wf_unit : (Instr.stackFault 16).malformed = some .unit := by decide
theorem test_wf_channel : (Instr.dieOpIssue 128 0).malformed = some .channel := by decide
theorem test_wf_object : (Instr.pageFetchComplete 0 0 0 []).malformed = some .object := by decide
theorem test_wf_context : (Instr.contextCold ⟨1024, [], []⟩).malformed = some .context := by decide
theorem test_wf_outcome : (Instr.tileSelfTestDone 0 0 0 16).malformed = some .outcome := by decide
theorem test_wf_sensor : (Instr.thermalThrottle 333 0).malformed = some .sensor := by decide
theorem test_wf_telemetry : (Instr.nandTempRead 48 []).malformed = some .telemetry := by decide
theorem test_wf_pin : (Instr.inputQualified 32 ⟨false, false⟩).malformed = some .pin := by decide
theorem test_wf_frame : (Instr.mgmtRead []).malformed = some .frame := by decide
theorem test_wf_wellFormed : (Instr.thermalThrottle 332 40).wellFormed = true ∧ (Instr.sweepStart 5 ⟨2, [], []⟩).wellFormed = true := by decide

/-! ### Results taken from the spec's worked examples -/

/-- 18_address_map_and_status.md, "one register batch": on a DM-9140N with two passes in flight on tile 17 of island 5, the read of
TILE_STATUS, the write of the busy tile's TILE_INJECT, the host's write of ID_MQ_CTRL, MR_OUT_0 of the absent island 51, and island 60. -/
theorem test_registerBatch :
    let s := { up with variant := .dm9140N, tiles := [(5 * 64 + 17, { flight := [tpass, tpass] })] }
    (regAccess s false false 0x03FF000000053210 0).2 = (0, 0x80)
    ∧ (regAccess s false true 0x03FF000000053234 0x25).2 = (0x1005, 0)
    ∧ (regAccess s false true 0x03FF0000003A0320 3).2 = (0x1006, 0)
    ∧ (regAccess s false true 0x03FF000000330208 0x01000100).2 = (0x1004, 0)
    ∧ (regAccess s false false 0x03FF0000003C0000 0).2 = (0x1002, 0) := by
  decide +kernel

/-- 19_module_interface.md, "two requests in SMBus mode": SEQ was 0x2B; the READ of WEIR_STATUS answers the bytes given there, and the
WRITE of DQP_CTRL, which the host owns, 0x1006. -/
theorem test_smbus :
    let s := { setF up 59 F.WEIR_STATUS_STEP 0 with boot := { up.boot with slotId := 6, i3c := false }, mgmt := { up.mgmt with seq := 0x2B } }
    let t := mgmtRequest s [0x01, 0x03, 0x10, 0x01, 0x3B]
    portAddr s = 0x46 ∧ (responseBytes t).take 9 = [8, 0x2C, 0, 0, 0, 1, 0, 0, 0]
    ∧ (responseBytes (mgmtRequest t [0x02, 0x07, 0x00, 0x01, 0x38, 1, 0, 0, 0])).take 9 = [8, 0x2D, 0, 0x06, 0x10, 0, 0, 0, 0] := by
  decide +kernel

/-- 06_number_formats.md, "an outlier row": amax 40 among 0.125s has X = 130 in E2M1, 40 becomes 4, 0.125 becomes 0, and RATIO is 21,731. -/
theorem test_outlierRow :
    let p : Prof := ⟨0, false, 32, 3, 64, false, 0, 0, 0, 0, 0, 0⟩
    let l := 0x42200000 :: List.replicate 63 0x3E000000
    quantGroup p 0 l = (6 :: List.replicate 63 0, 130, 0) ∧ ratioOf 3 130 l (quantGroup p 0 l).1 = 21731 := by
  decide +kernel

/-- 08_flume_and_sluice.md, "feeding one decode projection": the weight engine's ten words are a valid program. -/
theorem test_flumeExample :
    (flumeCheck [0x00000012000000000000000000000003, 0x00000012008000000000000000000103, 0x0002000000000004, 0x0000080000000104,
      0x0000004000000001, 0x0000080000408105, 0x0002000000404005, 2, 0x0000000100000507, 15]).1 = 0 := by
  decide +kernel

/-- 11_media_and_compression.md, "sampling a recording": a crop of 1,080 for 256 is box-reduced by 2^2. -/
theorem test_boxReduction : boxJ 1080 256 = 2 := by decide +kernel

/-- CRC-32C of the nine digits 1 to 9, the check value published with the polynomial that R64 names. -/
theorem test_crc32c : crc32c ((List.range 9).map (fun i => BitVec.ofNat 8 (0x31 + i))) = 0xE3069283 := by decide +kernel

theorem witness_PackedElementsLieLittleEndian :
    (∃ (b i : Nat) (l : List Nat), 0 < b ∧ i < l.length) ∧ (∃ (b i : Nat) (r : List Byte), 0 < b ∧ b * i + b ≤ 8 * r.length)
      ∧ (∃ l : List Nat, l.length = 8) ∧ ∃ l : List Nat, l.length = 4 :=
  ⟨⟨3, 2, [1, 2, 7], by decide, by decide⟩, ⟨3, 1, [0xFF], by decide, by decide⟩, ⟨List.replicate 8 5, by decide⟩, ⟨List.replicate 4 5, by decide⟩⟩

/-- A checkpoint with one dirty table page. -/
theorem witness_CollectionsReplacementsAndPatrol_dirty :
    ∃ (s : State) (isl k key seq : Nat), State.wf s = true ∧ flashIndex isl = some k ∧ 65536 ≤ s.flash.jpages.getD k 0 ∧ s.flash.journal.length = 4
      ∧ s.flash.seqs.length = 4 ∧ s.flash.jpages.length = 4 ∧ dirtyTables s k = [(key, seq)] ∧ FlashSorted s :=
  ⟨{ up with flash := { up.flash with jpages := [65536, 0, 0, 0], journal := [[(7, mapRec (2 ^ 56) none)], [], [], []] } }, 48, 0, 2 ^ 56, 7,
   by decide +kernel, by decide +kernel, by decide +kernel, by decide +kernel, by decide +kernel, by decide +kernel, by decide +kernel,
   by simp only [FlashSorted]; decide +kernel⟩

/-! ### A small valid image: one reach, one stack, flash island 48 and 52 with channels 0 and 64 -/

set_option maxRecDepth 20000

/-- Header, directory and the sections UNIT_ENABLE, MODE and POWER; the signature's bytes are zeros. -/
def img0 : List Byte :=
  toBytes 4 0x4C48524B ++ toBytes 2 1 ++ toBytes 2 128 ++ toBytes 4 5 ++ toBytes 4 1 ++ toBytes 4 15 ++ toBytes 4 6253 ++ toBytes 2 3 ++ toBytes 2 0
    ++ toBytes 4 128 ++ List.replicate 96 0
    ++ (toBytes 2 1 ++ toBytes 2 0 ++ toBytes 4 176 ++ toBytes 4 800 ++ toBytes 4 0) ++ (toBytes 2 7 ++ toBytes 2 0 ++ toBytes 4 976 ++ toBytes 4 8 ++ toBytes 4 0)
    ++ (toBytes 2 8 ++ toBytes 2 0 ++ toBytes 4 984 ++ toBytes 4 8 ++ toBytes 4 0)
    ++ (toBytes 8 (1 + 2 ^ 32 + 2 ^ 48 + 2 ^ 52 + 2 ^ 56 + 2 ^ 57 + 2 ^ 58 + 2 ^ 59) ++ toBytes 8 (2 ^ 48 - 1) ++ List.replicate 248 0 ++ toBytes 16 (1 + 2 ^ 64) ++ List.replicate 520 0)
    ++ List.replicate 8 0 ++ (toBytes 2 0 ++ toBytes 2 500 ++ toBytes 2 750 ++ toBytes 2 0) ++ List.replicate 5261 0

/-- A module with the key of that image in anchor slot 0. -/
def keyed (s : State) : State := { s with ident := { s.ident with anchors := [(digest64 (imgKey img0), false)] } }

theorem img0_head : imgHeadOk img0 = true := by decide +kernel
theorem img0_full : imgFullOk State.reset img0 = true := by decide +kernel
theorem img0_forMe : imgForMe State.reset img0 = true := by decide +kernel
theorem img0_key : (digest64 (imgKey img0)).isEmpty = false := by decide +kernel

/-- The image's check passes wherever its signature does. -/
theorem img0_checks (hv : Config.mldsaVerify (imgKey img0) [] (imgBody img0) (imgSignature img0) = true) (s : State) (n : Nat)
    (h1 : s.ident.anchors = [(digest64 (imgKey img0), false)]) (h2 : s.variant = State.reset.variant) (h3 : n ≤ 5) : checkImage s n img0 = 0 := by
  have ha : imgAnchor s img0 = some 0 := by simp [imgAnchor, h1, List.range, List.range.loop, img0_key]
  have hf : imgFullOk s img0 = true := by
    rw [← img0_full]; simp only [imgFullOk, enableOk, repairOk, present, h2]
  have hm : imgForMe s img0 = true := by
    have hb : allZero (imgBinding img0) = true := by decide +kernel
    have := img0_forMe
    simp only [imgForMe, hb, Bool.true_or, Bool.and_true] at this ⊢; rw [h2]; exact this
  have hn : ¬ imgVersion img0 < n := by have : imgVersion img0 = 5 := by decide +kernel
                                        omega
  simp [checkImage, img0_head, ha, hv, hn, hf, hm]

theorem img0_inSlot (hv : Config.mldsaVerify (imgKey img0) [] (imgBody img0) (imgSignature img0) = true) (s : State) (n k : Nat)
    (h : readCopy s s.boot.copies (2 * k) = img0) (h1 : s.ident.anchors = [(digest64 (imgKey img0), false)]) (h2 : s.variant = State.reset.variant)
    (h3 : n ≤ 5) : (checkSlot s n k).1 = 0 := by
  have h0 : img0.isEmpty = false := by decide +kernel
  simp [checkSlot, h, h0, img0_checks hv s n h1 h2 h3]

def atSlots (l : List (List Byte)) : State := let s := keyed (atStep 3); { s with boot := { s.boot with copies := l } }

/-- The witnesses that need an image whose signature verifies: Config.mldsaVerify has no body, so that it does is a premise here. -/
theorem witness_AbortsImagesAndQuotes_image (hv : Config.mldsaVerify (imgKey img0) [] (imgBody img0) (imgSignature img0) = true) :
    ∃ (s : State) (id : CmdId) (c : Cmd), Runs s id c 10 [] ∧ getF s 58 F.CNT_CTRL_EN = 0 ∧ (∀ x ∈ s.dqp.cmds, x.no < c.no → x.opcode ≠ 10) ∧ (∀ x ∈ imageConds (markStarted s c.no) c, x = 0) := by
  refine ⟨run (keyed up) { buf 6253 (cmd 0 0x0A []) with data := img0 }, ⟨0, 7, .none⟩, { buf 6253 (cmd 0 0x0A []) with data := img0 }, by simp only [Runs]; decide +kernel, by decide +kernel, by decide +kernel, ?_⟩
  intro x hx
  have h := img0_checks hv (markStarted (run (keyed up) { buf 6253 (cmd 0 0x0A []) with data := img0 }) 1)
    (getF (markStarted (run (keyed up) { buf 6253 (cmd 0 0x0A []) with data := img0 }) 1) 58 F.IMG_COUNTER_COUNTER) rfl rfl (by decide +kernel)
  have e : imageConds (markStarted (run (keyed up) { buf 6253 (cmd 0 0x0A []) with data := img0 }) 1) { buf 6253 (cmd 0 0x0A []) with data := img0 } = [0, 0, 0] := by
    simp only [imageConds]
    rw [h]
    decide +kernel
  have hx' : x ∈ [0, 0, 0] := e ▸ hx
  simpa using hx'

theorem witness_StartUpRunsToRunning_slots (hv : Config.mldsaVerify (imgKey img0) [] (imgBody img0) (imgSignature img0) = true) :
    (∃ (s : State) (env : StepEnv), State.wf s = true ∧ StepEnds s env 3 ∧ s.boot.active = [] ∧ let u : State := deriveIdentity s env; let counter : Nat := List.foldl max 0 (goodCounters u); let u' : State := setF (setF u 58 F.IMG_STATUS_CTR_LOST (b2n (goodCounters u).isEmpty)) 58 F.IMG_COUNTER_COUNTER counter; let a : Nat × List Byte := checkSlot u' counter 0; let b : Nat × List Byte := checkSlot u' counter 1; a.1 = 0 ∧ (b.1 ≠ 0 ∨ imgVersion b.2 ≤ imgVersion a.2))
    ∧ (∃ (s : State) (env : StepEnv), State.wf s = true ∧ StepEnds s env 3 ∧ s.boot.active = [] ∧ let u : State := deriveIdentity s env; let counter : Nat := List.foldl max 0 (goodCounters u); let u' : State := setF (setF u 58 F.IMG_STATUS_CTR_LOST (b2n (goodCounters u).isEmpty)) 58 F.IMG_COUNTER_COUNTER counter; let a : Nat × List Byte := checkSlot u' counter 0; let b : Nat × List Byte := checkSlot u' counter 1; b.1 = 0 ∧ (a.1 ≠ 0 ∨ imgVersion a.2 < imgVersion b.2)) := by
  constructor
  · refine ⟨atSlots [img0, [], [], []], goodEnv, by decide +kernel, by simp only [StepEnds]; decide +kernel, rfl, ?_⟩
    have hu : deriveIdentity (atSlots [img0, [], [], []]) goodEnv = atSlots [img0, [], [], []] := if_pos (by decide +kernel)
    rw [hu]
    exact ⟨img0_inSlot hv _ _ 0 (if_pos (by decide +kernel)) rfl rfl (by decide +kernel), Or.inl (by decide +kernel)⟩
  · refine ⟨atSlots [[], [], img0, []], goodEnv, by decide +kernel, by simp only [StepEnds]; decide +kernel, rfl, ?_⟩
    have hu : deriveIdentity (atSlots [[], [], img0, []]) goodEnv = atSlots [[], [], img0, []] := if_pos (by decide +kernel)
    rw [hu]
    exact ⟨img0_inSlot hv _ _ 1 (if_pos (by decide +kernel)) rfl rfl (by decide +kernel), Or.inl (by decide +kernel)⟩

/-! ### A full namespace and a full write buffer -/

/-- Namespace 1 limited to 1 GiB, `m` blocks taken by its device-managed storage. -/
def crowded (m : Nat) (c : Cmd) : State :=
  let s := run (setA (roomy up) 57 F.HG_FLASH_LIM_GIB 1 0) c
  { s with flash := { s.flash with blocks := (List.range m).map (fun n => (65 * 2 ^ 59 + n, [])) } }

theorem crowded_refuses (m : Nat) (c : Cmd) (a n : Nat) (hm : m = 262144) (ha : a + n ≤ 2 ^ 18) (hn : 0 < n) : flashRefusal (crowded m c) 1 a n = some 0 := by
  have hd : domOf 1 = 0 := rfl
  have h1 : flashBlocks (crowded m c) 0 = m := by
    have : (crowded m c).flash.blocks.filter (fun p => p.1 / 2 ^ 59 == 0 + 1 || p.1 / 2 ^ 59 == 0 + 65) = (crowded m c).flash.blocks := by
      rw [List.filter_eq_self]
      intro p hp
      obtain ⟨i, hi, rfl⟩ := List.mem_map.mp hp
      have hi := List.mem_range.mp hi
      have : (65 * 2 ^ 59 + i) / 2 ^ 59 = 65 := by omega
      rw [Bool.or_eq_true]; right
      exact beq_iff_eq.mpr this
    rw [flashBlocks, this]
    exact (List.length_map _).trans List.length_range
  have h2 : unmappedBlocks (crowded m c) 1 a n = n := by
    have : (crowded m c).flash.blocks.filter (fun p => decide (blockKey 1 a ≤ p.1) && decide (p.1 < blockKey 1 a + n)) = [] := by
      rw [List.filter_eq_nil_iff]
      intro p hp
      obtain ⟨i, hi, rfl⟩ := List.mem_map.mp hp
      have hb : blockKey 1 a = 2 ^ 59 + a := by unfold blockKey; omega
      rw [hb, Bool.and_eq_true, decide_eq_true_eq, decide_eq_true_eq]
      show ¬ (_ ∧ 65 * 2 ^ 59 + i < _)
      omega
    rw [unmappedBlocks, this]; rfl
  have h3 : getA (crowded m c) 57 F.HG_FLASH_LIM_GIB 0 = 1 := by
    show getA (setA (roomy up) 57 F.HG_FLASH_LIM_GIB 1 0) 57 F.HG_FLASH_LIM_GIB 0 = 1
    decide +kernel
  have h4 : flashWithin (crowded m c) 0 n = false := by
    rw [flashWithin, h1, h3]; exact decide_eq_false (by omega)
  rw [flashRefusal, hd, h2, h4]; rfl

/-- The first `m` slots of island 48 hold partial units of namespace 1, none placed. -/
def fullSlots (m : Nat) : NMap Slot := (List.range' 0 m).map (fun n => (n, slot (2 ^ 56 + 1000 + n)))
def buffered (m : Nat) (c : Cmd) : State :=
  let s := run (roomy up) c
  { s with flash := { s.flash with slots := fullSlots m, map := [(2 ^ 56, .stripe 1 0)] } }

theorem mfind_range {α : Type} (f : Nat → α) (m : Nat) : ∀ a k, a ≤ k → k < a + m → mfind ((List.range' a m).map (fun n => (n, f n))) k = some (f k) := by
  induction m with
  | zero => intro a k h1 h2; omega
  | succ m ih =>
    intro a k h1 h2
    rw [List.range'_succ, List.map_cons, mfind]
    split
    · rename_i h; rw [h]
    · rw [if_neg (by omega)]; exact ih (a + 1) k (by omega) (by omega)

theorem mSorted_range {α : Type} (f : Nat → α) (m : Nat) : ∀ a lo, (∀ l, lo = some l → l < a) → mSorted lo ((List.range' a m).map (fun n => (n, f n))) = true := by
  induction m with
  | zero => intro a lo h; cases lo <;> rfl
  | succ m ih =>
    intro a lo h
    rw [List.range'_succ, List.map_cons]; show (_ && mSorted _ _) = true; rw [ih (a + 1) (some a) (by intro l hl; cases hl; omega), Bool.and_true]
    cases lo with
    | none => rfl
    | some l => exact decide_eq_true (h l rfl)

theorem fullSlots_find (m n : Nat) (h : n < m) : mfind (fullSlots m) n = some (slot (2 ^ 56 + 1000 + n)) :=
  mfind_range (fun n => slot (2 ^ 56 + 1000 + n)) m 0 n (Nat.zero_le _) (by omega)

theorem find_none (m : Nat) (s : State) (hs : s.flash.slots = fullSlots m) (r : Nat) (hr : r ≤ m) :
    (List.range r).find? (fun n => (mfind s.flash.slots (slotKey 0 n)).isNone) = none := by
  rw [List.find?_eq_none]
  intro n hn
  have hn := List.mem_range.mp hn
  have hk : slotKey 0 n = n := by unfold slotKey; omega
  rw [hs, hk, fullSlots_find m n (by omega)]
  exact Bool.false_ne_true

theorem full_none (m : Nat) (s : State) (hm : m = 4096) (hs : s.flash.slots = fullSlots m) : freeSlot s 0 = none := by
  unfold freeSlot
  exact find_none m s hs (min ((s.flash.slots.filter (fun p => p.1 / 2 ^ 20 == 0)).length + 1) 4096) (by rw [hm]; exact Nat.min_le_right _ _)

theorem disown_full (m i : Nat) (s : State) (hs : s.flash.slots = fullSlots m) : (disown s (2 ^ 56) i).flash.slots = fullSlots m := by
  show s.flash.slots.map _ = _
  rw [hs]
  conv => rhs; rw [← List.map_id (fullSlots m)]
  refine List.map_congr_left fun p hp => ?_
  obtain ⟨n, hn, rfl⟩ := List.mem_map.mp hp
  have : (slot (2 ^ 56 + 1000 + n)).lua ≠ 2 ^ 56 := by show 2 ^ 56 + 1000 + n ≠ 2 ^ 56; omega
  simp only [this, if_false, id]

theorem openSlot_none (m : Nat) (s : State) (hs : s.flash.slots = fullSlots m) : openSlot s (2 ^ 56) = none := by
  unfold openSlot
  rw [hs, List.find?_eq_none]
  intro p hp
  obtain ⟨i, hi, rfl⟩ := List.mem_map.mp hp
  have : (slot (2 ^ 56 + 1000 + i)).lua ≠ 2 ^ 56 := by show 2 ^ 56 + 1000 + i ≠ 2 ^ 56; omega
  simp only [beq_false_of_ne this, Bool.false_and]; exact Bool.false_ne_true

theorem buffered_trim (m : Nat) (c : Cmd) (hm : m = 4096) : trimRange (buffered m c) 1 1 1 = none := by
  have h0 : partUnits 1 1 = [(0, 2)] := by decide +kernel
  have hl : luaOf 1 0 = 2 ^ 56 := by decide +kernel
  have hb : bufferBlock (buffered m c) 1 1 zeroBlock = none := by
    have hs : (disown (buffered m c) (luaOf 1 (1 / 8)) (1 % 8)).flash.slots = fullSlots m := disown_full m _ _ rfl
    have ho : openSlot (disown (buffered m c) (luaOf 1 (1 / 8)) (1 % 8)) (luaOf 1 (1 / 8)) = none := openSlot_none m _ hs
    have hg : homeGroup (disown (buffered m c) (luaOf 1 (1 / 8)) (1 % 8)) (luaOf 1 (1 / 8)) / 2 = 0 := by
      show homeGroup (roomy up) (luaOf 1 (1 / 8)) / 2 = 0
      decide +kernel
    unfold bufferBlock
    simp only [ho, hg, full_none m _ hm hs]
  have hz : zeroPart (buffered m c) 1 (0, 2) = none := by
    have hm : mfind (buffered m c).flash.map (luaOf 1 0) = some (.stripe 1 0) := rfl
    have h2 : bitList 2 8 = [1] := by decide +kernel
    simp only [zeroPart, hm, h2, List.foldl, Option.bind_some, hb, Nat.mul_zero, Nat.zero_add, Option.map_none, Option.isNone_some, Bool.false_eq_true, if_false]
  simp only [trimRange, h0, List.foldl, Option.bind_some, hz, Option.map_none]

theorem witness_WritesFlushesAndDiscards_full :
    (∃ (s : State) (id : CmdId) (c : Cmd) (d : Nat), roStatus s = 0 ∧ RangeOk s c 65536 ∧ c.done = 0 ∧ findCmd s c.no = some c ∧ c.bufBytes = 4096 * c.b 40 4 ∧ flashRefusal s c.nsid (c.b 32 8) (c.b 40 4) = some d ∧ Runs s id c 33 [(32, 16)] ∧ c.b 44 4 ≤ 1)
    ∧ (∃ (s : State) (id : CmdId) (c : Cmd) (d : Nat), roStatus s = 0 ∧ RangeOk s c 65536 ∧ c.done = 0 ∧ findCmd s c.no = some c ∧ c.bufBytes = 4096 * c.b 40 4 ∧ flashRefusal s c.nsid (c.b 32 8) (c.b 40 4) = some d ∧ Runs s id c 194 [(32, 96)])
    ∧ (∃ (s : State) (id : CmdId) (c : Cmd), FlashSorted s ∧ Alone s c ∧ c.due = 0 ∧ ∃ (k : Form), k ∈ ([(Instr.flush, 34, []), (Instr.rFlush, 195, [(32, 96)])] : List Form) ∧ ∃ (j : Form), j ∈ ([(Instr.trim, 35, [(32, 12)]), (Instr.rTrim, 196, [(32, 96)])] : List Form) ∧ Runs s id c j.2.1 j.2.2 ∧ RangeOk s c (2 ^ 32 - 1) ∧ trimRange s c.nsid (c.b 32 8) (c.b 40 4) = none) := by
  refine ⟨⟨crowded 262144 (buf 4096 (cmd 1 0x21 [(40, 4, 1)])), ⟨1, 7, .none⟩, buf 4096 (cmd 1 0x21 [(40, 4, 1)]), 0, by decide +kernel, by simp only [RangeOk]; decide +kernel, by decide +kernel, by decide +kernel, by decide +kernel, crowded_refuses _ _ 0 1 rfl (by decide) (by decide), by simp only [Runs]; decide +kernel, by decide +kernel⟩,
    ⟨crowded 262144 (buf 4096 (cmd 1 0xC2 [(40, 4, 1)])), ⟨1, 7, .none⟩, buf 4096 (cmd 1 0xC2 [(40, 4, 1)]), 0, by decide +kernel, by simp only [RangeOk]; decide +kernel, by decide +kernel, by decide +kernel, by decide +kernel, crowded_refuses _ _ 0 1 rfl (by decide) (by decide), by simp only [Runs]; decide +kernel⟩,
    ⟨buffered 4096 (cmd 1 0x23 [(32, 8, 1), (40, 4, 1)]), ⟨1, 7, .none⟩, cmd 1 0x23 [(32, 8, 1), (40, 4, 1)], ?_, by simp only [Alone]; decide +kernel, by decide +kernel, ((Instr.flush, 0x22, []) : Form), List.mem_cons_self, ((Instr.trim, 0x23, [(32, 12)]) : Form), List.mem_cons_self, by simp only [Runs]; decide +kernel, by simp only [RangeOk]; decide +kernel, ?_⟩⟩
  · refine ⟨by decide +kernel, by decide +kernel, by decide +kernel, ?_, by decide +kernel⟩
    exact mSorted_range _ 4096 0 none (by intro l h; cases h)
  · exact buffered_trim 4096 _ rfl

/-! ### A context image of one token -/

def kvHead : List Byte := toBytes 4 0x34564B43 ++ toBytes 4 0 ++ toBytes 4 64 ++ toBytes 4 1 ++ toBytes 4 1 ++ toBytes 4 1 ++ List.replicate 8 0
def kvDir : List Byte := toBytes 8 128 ++ toBytes 4 64 ++ toBytes 4 (crc32c (codes 9))
def kvBlock : List Byte := kvHead ++ shake256 (kvHead ++ kvDir) 32 ++ kvDir ++ List.replicate 48 0 ++ codes 9 ++ List.replicate 3904 0

theorem witness_ImagesAreSavedAndLoaded_load : ∃ (s : State) (x : Ctx) (n : Nat) (k : Nat) (d : List Byte) (upto : Nat), findCtx s x.slot = some x ∧ x.imgOp = 2 ∧ loadResult s x upto = (0, n, k, d) ∧ State.wf s = true ∧ x.imgId ≠ 0 ∧ (d = [] ∨ extPoisoned s x.kvAddr d.length = false) ∧ (∀ f ∈ s.mem.fetches, f.nsid = x.nsid → f.obj = x.imgId → f.issuer = FetchFor.image x.slot) :=
  let x := { ctx 3 .imaging 1 with imgOp := 2, imgId := 9, curImage := 9 }
  ⟨{ withObjs (withCtx (roomy up) [x]) [obj 9 7 65536] with flash := { up.flash with blocks := [(blockKey 1 0, kvBlock)] } }, x, 1, 0, codes 9, 1,
   by decide +kernel⟩

/-- An empty Zstandard frame with its checksum, by the layout of RFC 8878 (R344). -/
theorem test_zstd_empty_frame :
    unwrapData 2 [0x28, 0xB5, 0x2F, 0xFD, 0x24, 0x00, 0x01, 0x00, 0x00, 0x99, 0xE9, 0xD8, 0x51] = .ok [] := by decide +kernel

end Sys2Proof.Tests
end

section
/-!
PROOFS. Scope: register accesses (R8-R12, R49, R57, R474, R497) and the step on an empty queue (R6, R474).
-/
namespace Sys2Proof.Machine

/-! ### Bits of a written field -/

/-- Clearing the bits that a mask names (R9, W1C). -/
theorem testBit_sub_and (x y b : Nat) : (x - (x &&& y)).testBit b = (x.testBit b && !y.testBit b) := by
  induction b generalizing x y with
  | zero =>
    have hle : x &&& y ≤ x := Nat.and_le_left
    have hodd : (x &&& y) % 2 = 1 ↔ x % 2 = 1 ∧ y % 2 = 1 := Nat.and_mod_two_eq_one
    simp only [Nat.testBit_zero, ← decide_not, ← Bool.decide_and]
    rw [decide_eq_decide]
    omega
  | succ b ih =>
    have hle : x / 2 &&& y / 2 ≤ x / 2 := Nat.and_le_left
    have hdiv : (x &&& y) / 2 = x / 2 &&& y / 2 := Nat.and_div_two
    have hodd : (x &&& y) % 2 = 1 ↔ x % 2 = 1 ∧ y % 2 = 1 := Nat.and_mod_two_eq_one
    have hhalf : (x - (x &&& y)) / 2 = x / 2 - (x / 2 &&& y / 2) := by omega
    rw [Nat.testBit_succ, hhalf, ih, Nat.testBit_succ, Nat.testBit_succ]

/-! ### Reading a sparse map after a write -/

theorem mfind_mset_ne {α : Type} [DecidableEq α] {m : NMap α} (d : α) {x y : Nat} (v : α) (h : y ≠ x) (hm : mSorted none m = true) :
    mfind (mset d m x v) y = mfind m y := by
  unfold mset; split
  · exact mfind_mdel_ne h hm
  · exact mfind_mins_ne h v hm

/-- A field depends on the entry at its key alone. -/
theorem getF_of_mfind {s t : State} {isl i j : Nat} {f : Field}
    (h : mfind t.regs (fieldKey isl f i j) = mfind s.regs (fieldKey isl f i j)) : getF t isl f i j = getF s isl f i j := by
  unfold getF mget; rw [h]

/-! ### The register table -/

/-- The fields of one register lie at different bits and carry the register's number. -/
theorem allRegs_fields : ∀ r ∈ allRegs, r.fields.Pairwise (fun f g => f.lo ≠ g.lo) ∧ ∀ f ∈ r.fields, f.reg = r.num := by
  decide +kernel

theorem findReg_mem {isl off i j : Nat} {r : Reg} (h : findReg isl off = some (r, i, j)) : r ∈ allRegs := by
  obtain ⟨q, hq, hmap⟩ := List.mem_filterMap.mp (List.mem_of_mem_head? (Option.mem_def.mpr h))
  obtain ⟨x, _, hx⟩ := Option.map_eq_some_iff.mp hmap
  obtain ⟨rfl, _⟩ := Prod.mk.inj hx
  exact hq

/-- The fields of a register of the table have keys of their own. -/
theorem fieldKeys_distinct {r : Reg} (hr : r ∈ allRegs) (isl i j : Nat) :
    r.fields.Pairwise (fun f g => fieldKey isl f i j ≠ fieldKey isl g i j) := by
  obtain ⟨hlo, hreg⟩ := allRegs_fields r hr
  refine hlo.imp_of_mem fun {f g} hf hg hne hkey => hne ?_
  simp only [fieldKey, hreg f hf, hreg g hg] at hkey
  omega

/-! ### A plain write, field by field (R9) -/

/-- One field of a written word, under the field's own type (R9). -/
def storeField (isl i j v : Nat) (s : State) (f : Field) : State :=
  match f.acc with
  | .rw | .st | .lk => setF s isl f (bits v f.lo f.w) i j
  | .w1c => setF s isl f (getF s isl f i j - Nat.land (getF s isl f i j) (bits v f.lo f.w)) i j
  | .ro | .cm => s

theorem plainWrite_eq (s : State) (isl : Nat) (r : Reg) (i j v : Nat) :
    plainWrite s isl r i j v = r.fields.foldl (storeField isl i j v) s := rfl

/-- A field of a word is stored by one write at its key, or not at all. -/
theorem storeField_cases (isl i j v : Nat) (s : State) (f : Field) :
    storeField isl i j v s f = s ∨ ∃ x, storeField isl i j v s f = setF s isl f x i j := by
  cases h : f.acc
  case rw | st | lk | w1c => exact .inr ⟨_, by simp only [storeField, h]; rfl⟩
  case ro | cm => exact .inl (by simp only [storeField, h])

section StoreField
variable {s : State} (isl i j v : Nat)

theorem storeField_frame (f : Field) : storeField isl i j v s f = { s with regs := (storeField isl i j v s f).regs } := by
  obtain h | ⟨x, h⟩ := storeField_cases isl i j v s f
  · rw [h]
  · rw [h]; rfl

theorem storeField_sorted (hs : mSorted none s.regs = true) (f : Field) : mSorted none (storeField isl i j v s f).regs = true := by
  obtain h | ⟨x, h⟩ := storeField_cases isl i j v s f <;> rw [h]
  · exact hs
  · exact setF_regs_sorted hs ..

theorem storeField_other (hs : mSorted none s.regs = true) {f : Field} {k : Nat} (hk : k ≠ fieldKey isl f i j) :
    mfind (storeField isl i j v s f).regs k = mfind s.regs k := by
  obtain h | ⟨x, h⟩ := storeField_cases isl i j v s f <;> rw [h]
  exact mfind_mset_ne _ _ hk hs

/-- The bits of a stored field are those that R9 gives its type. -/
theorem storeField_bit (hs : mSorted none s.regs = true) {f : Field} {b : Nat} (hb : b < f.w) :
    (getF (storeField isl i j v s f) isl f i j).testBit b = bitAfter f.acc (getF s isl f i j) (bits v f.lo f.w) b := by
  cases h : f.acc
  case ro | cm => simp only [storeField, h, bitAfter]
  case rw | st | lk =>
    simp only [storeField, h, bitAfter, getF_setF_same hs, Nat.testBit_mod_two_pow, hb, decide_true, Bool.true_and]
  case w1c =>
    simp only [storeField, h, bitAfter, getF_setF_same hs, Nat.testBit_mod_two_pow, hb, decide_true, Bool.true_and, Nat.land_eq,
      testBit_sub_and]

/-! A list of fields stored one after another. -/

theorem foldl_storeField_frame (s : State) (l : List Field) :
    l.foldl (storeField isl i j v) s = { s with regs := (l.foldl (storeField isl i j v) s).regs } := by
  induction l generalizing s with
  | nil => rfl
  | cons f l ih =>
    rw [List.foldl_cons, ih, storeField_frame]

theorem foldl_storeField_other (hs : mSorted none s.regs = true) {l : List Field} {k : Nat}
    (hk : ∀ f ∈ l, k ≠ fieldKey isl f i j) : mfind (l.foldl (storeField isl i j v) s).regs k = mfind s.regs k := by
  induction l generalizing s with
  | nil => rfl
  | cons f l ih =>
    rw [List.forall_mem_cons] at hk
    rw [List.foldl_cons, ih (storeField_sorted isl i j v hs f) hk.2, storeField_other isl i j v hs hk.1]

/-- Fields of different keys do not disturb each other. -/
theorem foldl_storeField_bit (hs : mSorted none s.regs = true) {l : List Field}
    (hl : l.Pairwise (fun f g => fieldKey isl f i j ≠ fieldKey isl g i j)) {f : Field} (hf : f ∈ l) {b : Nat} (hb : b < f.w) :
    (getF (l.foldl (storeField isl i j v) s) isl f i j).testBit b = bitAfter f.acc (getF s isl f i j) (bits v f.lo f.w) b := by
  induction l generalizing s with
  | nil => cases hf
  | cons g l ih =>
    obtain ⟨hg, hl⟩ := List.pairwise_cons.mp hl
    have hs' := storeField_sorted isl i j v hs g
    rw [List.foldl_cons]
    obtain rfl | hf := List.mem_cons.mp hf
    · rw [getF_of_mfind (foldl_storeField_other isl i j v hs' hg), storeField_bit isl i j v hs hb]
    · rw [ih hs' hl hf, getF_of_mfind (storeField_other isl i j v hs (hg f hf).symm)]

end StoreField

/-! ### What a register write does -/

/-- A register that is none of the special ones is written field by field and completes with 0 (R9). -/
theorem writeEffect_plain {r : Reg} (h : r.num ∉ specialRegs) (s : State) (mgmt : Bool) (isl i j v : Nat) :
    writeEffect s mgmt isl r i j v = (plainWrite s isl r i j v, 0) := by
  obtain ⟨hone, hgroup⟩ := not_or.mp (mt List.mem_append.mpr h)
  have hnone : groupTable.find? (fun g => g.commit == r.num) = none :=
    List.find?_eq_none.mpr fun g hg heq => hgroup (List.mem_map.mpr ⟨g, hg, beq_iff_eq.mp heq⟩)
  simp only [List.mem_cons, List.not_mem_nil, or_false, not_or] at hone
  simp only [writeEffect, hone, if_false, hnone]

section WriteReg
variable {s : State} {mgmt : Bool} {isl off v i j : Nat} {r : Reg}

theorem writeReg_silent (h : answers s isl off = false) : writeReg s mgmt isl off v = (s, 0x1004) := by
  simp only [writeReg, h, Bool.not_false, if_true]

theorem writeReg_nothing (h : answers s isl off = true) (hr : findReg isl off = none) : writeReg s mgmt isl off v = (s, 0x1002) := by
  simp only [writeReg, h, hr, Bool.not_true, Bool.false_eq_true, if_false]

/-- The tests of a write to a register that answers, in the order of R497. -/
theorem writeReg_found (h : answers s isl off = true) (hr : findReg isl off = some (r, i, j)) :
    writeReg s mgmt isl off v =
      if r.owner ≠ .both ∧ r.owner ≠ (if mgmt then .mgmt else .host) then (s, 0x1006)
      else if r.fields.all (fun f => f.acc == .ro) ∨ !legalWord s isl r v then (s, 0x1002)
      else if !lkFree s isl r i then (s, 0x1005)
      else writeEffect s mgmt isl r i j v := by
  simp only [writeReg, h, hr, Bool.not_true, Bool.false_eq_true, if_false]

variable (h : answers s isl off = true) (hr : findReg isl off = some (r, i, j))
include h hr

theorem writeReg_notOwner (ho : r.owner ≠ .both ∧ r.owner ≠ (if mgmt then .mgmt else .host)) :
    writeReg s mgmt isl off v = (s, 0x1006) := by
  rw [writeReg_found h hr, if_pos ho]

variable (ho : r.owner = .both ∨ r.owner = (if mgmt then .mgmt else .host))
include ho

theorem writeReg_illegal (hw : r.fields.all (fun f => f.acc == .ro) = true ∨ legalWord s isl r v = false) :
    writeReg s mgmt isl off v = (s, 0x1002) := by
  rw [writeReg_found h hr, if_neg (by tauto), if_pos (hw.imp_right fun hl => by rw [hl]; rfl)]

theorem writeReg_legal (hw : r.fields.all (fun f => f.acc == .ro) = false) (hl : legalWord s isl r v = true) :
    writeReg s mgmt isl off v = if !lkFree s isl r i then (s, 0x1005) else writeEffect s mgmt isl r i j v := by
  rw [writeReg_found h hr, if_neg (by tauto), if_neg (by simp [hw, hl])]

end WriteReg

/-! ### Accesses on a port -/

/-- The island's registers are open to the port: the image is applied, or they are among those that answer before (R507, R516). -/
def OpenTo (s : State) (port isl : Nat) : Prop := s.boot.applied = true ∨ isl = 59 ∨ (port ≠ 1 ∧ (isl = 56 ∨ isl = 58))

theorem openTo_test {s : State} {port isl : Nat} (h : OpenTo s port isl) :
    (!s.boot.applied && !(isl == 59 || (!(port == 1) && (isl == 56 || isl == 58)))) = false := by
  obtain h | rfl | ⟨hp, rfl | rfl⟩ := h
  · simp [h]
  · simp
  · simp [hp]
  · simp [hp]

/-- An island that is enabled answers at every offset (R49). -/
theorem answers_of_enabled {s : State} {isl : Nat} (off : Nat) (h : enabled s isl = true) : answers s isl off = true := by
  have hp : present s isl = true := (Bool.and_eq_true_iff.mp h).1
  simp only [answers, hp, h, Bool.true_or, Bool.and_self]

/-- Each port is its side's owner (R12). -/
theorem ownerOf_port (port : Nat) : (if (port == 1) = true then Owner.mgmt else .host) = if port = 1 then .mgmt else .host := by
  simp only [beq_iff_eq]

section PortAccess
variable {s : State} {port addr isl off : Nat}

/-- A write with another width, off its word, or outside configuration space (R8). -/
theorem exec_regWrite_misplaced {width : Nat} (v : Nat) (hp : portUp s port = true)
    (h : islandAt addr = none ∨ addr % 4 ≠ 0 ∨ width ≠ 4) :
    exec (.regWrite port ⟨addr, width⟩ v) s = .next { s with out := s.out ++ [answer port addr 0x1002 0] } := by
  have hacc : regAccess s (port == 1) true addr v width = (s, 0x1002, 0) := by
    unfold regAccess
    cases hi : islandAt addr with
    | none => rfl
    | some x => exact if_pos (h.resolve_left (by simp [hi]))
  show Host.Outcome.next (portAccess s port true addr v width) = _
  simp only [portAccess, hp, if_true, hacc]
  rfl

variable (hp : portUp s port = true) (ha : islandAt addr = some (isl, off)) (h4 : addr % 4 = 0) (ho : OpenTo s port isl)
include hp ha h4 ho

/-- A word written on a port that is up, to an island that is open to it, goes to the island's register. -/
theorem exec_regWrite {v status : Nat} {t : State} (hv : v < 2 ^ 32) (hw : writeReg s (port == 1) isl off v = (t, status)) :
    exec (.regWrite port ⟨addr, 4⟩ v) s = .next { t with out := t.out ++ [answer port addr status 0] } := by
  have hacc : regAccess s (port == 1) true addr v = (t, status, 0) := by
    simp only [regAccess, ha, h4, openTo_test ho, ne_eq, not_true_eq_false, or_self, if_false, Bool.false_eq_true, if_true,
      Nat.mod_eq_of_lt hv, hw]
  show Host.Outcome.next (portAccess s port true addr v) = _
  simp only [portAccess, hp, if_true, hacc]
  rfl

/-- A read on such a port shows the register and latches what R474 has it latch. -/
theorem exec_loReadLatch {r : Reg} {i j : Nat} (hen : enabled s isl = true) (hr : findReg isl off = some (r, i, j))
    (hm : port = 1 → r.hostReadOnly = false) :
    exec (.loReadLatch port addr) s = .next (emit (latchHi s (b2n (port == 1)) isl r i)
      (answer port addr 0 (viewReg s (b2n (port == 1)) isl r i j))) := by
  have hro : ((port == 1) && r.hostReadOnly) = false := by
    by_cases h1 : port = 1
    · simp [hm h1]
    · simp [h1]
  have hacc : regAccess s (port == 1) false addr 0
      = (latchHi s (b2n (port == 1)) isl r i, 0, viewReg s (b2n (port == 1)) isl r i j) := by
    simp only [regAccess, ha, h4, openTo_test ho, ne_eq, not_true_eq_false, or_self, if_false, Bool.false_eq_true,
      readReg, answers_of_enabled off hen, Bool.not_true, hr, hro]
  show Host.Outcome.next (portAccess s port false addr 0) = _
  simp only [portAccess, hp, if_true, hacc]
  rfl

end PortAccess

/-! ### The two halves of a 64-bit counter (R474) -/

/-- A register that shows the latch of a `_LO` register is none itself. -/
theorem pairOf_of_loOf {n lo : Nat} (h : loOf n = some lo) (s : State) (isl i : Nat) : pairOf s isl n i = none := by
  have hn : n = F.CNT_CYCLE_HI_CYCLE.reg ∨ n = F.CNT_HI_VALUE.reg ∨ n = F.CNT_BW_HI_BYTES.reg ∨ n = F.TEL_ENERGY_HI_MJ.reg := by
    by_contra hno
    simp only [not_or] at hno
    simp only [loOf, hno, if_false, reduceCtorEq] at h
  obtain rfl | rfl | rfl | rfl := hn <;> rfl

/-- A `_HI` register shows a port what the read of its `_LO` register latched. -/
theorem viewReg_latchHi {s : State} {port isl i j x : Nat} {r hi : Reg} (hs : mSorted none s.counters.latches = true)
    (hx : pairOf s isl r.num i = some x) (hlt : x < 2 ^ 64) (hhi : loOf hi.num = some r.num) (o : Output) :
    viewReg (emit (latchHi s port isl r i) o) port isl hi i j = x / 2 ^ 32 := by
  simp only [viewReg, pairOf_of_loOf hhi, hhi, latchHi, hx, emit, mget_mset_same _ _ _ hs]
  omega

/-! ### The parts of the statement -/

theorem regWrite_plain {s : State} {port addr v isl off i j : Nat} {r : Reg} (hwf : State.wf s = true)
    (ha : islandAt addr = some (isl, off)) (h4 : addr % 4 = 0) (hr : findReg isl off = some (r, i, j)) (hc : CanReach s port isl)
    (hw : WordOk s port isl r i v) (hn : r.num ∉ specialRegs) :
    Gives (.regWrite port ⟨addr, 4⟩ v) s fun t =>
      (∀ f ∈ r.fields, ∀ b, b < f.w → (getF t isl f i j).testBit b = bitAfter f.acc (getF s isl f i j) (bits v f.lo f.w) b)
        ∧ RegsBut s t (r.fields.map (fun f => fieldKey isl f i j))
        ∧ t = { s with regs := t.regs, out := s.out ++ [answer port addr 0 0] } := by
  obtain ⟨hup, hen, hopen⟩ := hc
  obtain ⟨hv, howner, hrw, hlegal, hfree⟩ := hw
  obtain ⟨_, hs, _⟩ := (State.wf_iff s).mp hwf
  rw [← ownerOf_port] at howner
  have hwrite : writeReg s (port == 1) isl off v = (plainWrite s isl r i j v, 0) := by
    rw [writeReg_legal (answers_of_enabled off hen) hr howner hrw hlegal, hfree, writeEffect_plain hn]
    rfl
  have hframe := foldl_storeField_frame isl i j v s r.fields
  refine ⟨_, exec_regWrite hup ha h4 hopen hv hwrite, fun f hf b hb => ?_, fun k hk => ?_, ?_⟩
  · exact foldl_storeField_bit isl i j v hs (fieldKeys_distinct (findReg_mem hr) isl i j) hf hb
  · refine foldl_storeField_other isl i j v hs fun f hf heq => hk ?_
    exact heq ▸ List.mem_map_of_mem hf
  · rw [plainWrite_eq, hframe]

theorem regWrite_rejected {s : State} {port addr v isl off : Nat} (ha : islandAt addr = some (isl, off)) (h4 : addr % 4 = 0)
    (hv : v < 2 ^ 32) (hup : portUp s port = true) (hopen : OpenTo s port isl) :
    (answers s isl off = false → exec (.regWrite port ⟨addr, 4⟩ v) s = .next { s with out := s.out ++ [answer port addr 0x1004 0] })
      ∧ (answers s isl off = true → findReg isl off = none →
          exec (.regWrite port ⟨addr, 4⟩ v) s = .next { s with out := s.out ++ [answer port addr 0x1002 0] })
      ∧ (answers s isl off = true → ∀ (r : Reg) (i j : Nat), findReg isl off = some (r, i, j) →
          ((r.owner ≠ .both ∧ r.owner ≠ (if port = 1 then .mgmt else .host)) →
            exec (.regWrite port ⟨addr, 4⟩ v) s = .next { s with out := s.out ++ [answer port addr 0x1006 0] })
          ∧ ((r.owner = .both ∨ r.owner = (if port = 1 then .mgmt else .host)) →
            ((r.fields.all (fun f => f.acc == .ro) = true ∨ legalWord s isl r v = false) →
              exec (.regWrite port ⟨addr, 4⟩ v) s = .next { s with out := s.out ++ [answer port addr 0x1002 0] })
            ∧ ((r.fields.all (fun f => f.acc == .ro) = false ∧ legalWord s isl r v = true ∧ lkFree s isl r i = false) →
              exec (.regWrite port ⟨addr, 4⟩ v) s = .next { s with out := s.out ++ [answer port addr 0x1005 0] }))) := by
  have hexec {t : State} {status : Nat} := exec_regWrite (t := t) (status := status) hup ha h4 hopen hv
  refine ⟨fun h => hexec (writeReg_silent h), fun h hr => hexec (writeReg_nothing h hr), fun h r i j hr => ?_⟩
  simp only [← ownerOf_port port]
  refine ⟨fun ho => hexec (writeReg_notOwner h hr ho), fun ho => ⟨fun hw => hexec (writeReg_illegal h hr ho hw), ?_⟩⟩
  rintro ⟨hrw, hlegal, hbusy⟩
  refine hexec ?_
  rw [writeReg_legal h hr ho hrw hlegal, hbusy]
  rfl

theorem loReadLatch_pair {s : State} {port addr isl off i j x : Nat} {r : Reg} (hs : mSorted none s.counters.latches = true)
    (ha : islandAt addr = some (isl, off)) (h4 : addr % 4 = 0) (hr : findReg isl off = some (r, i, j)) (hc : CanReach s port isl)
    (hm : port = 1 → r.hostReadOnly = false) (hx : pairOf s isl r.num i = some x) (hlt : x < 2 ^ 64) :
    Gives (.loReadLatch port addr) s fun t =>
      t.out = s.out ++ [answer port addr 0 (x % 2 ^ 32)]
        ∧ (∀ hi : Reg, loOf hi.num = some r.num → viewReg t (b2n (port == 1)) isl hi i j = x / 2 ^ 32)
        ∧ t = { s with counters := { s.counters with latches := t.counters.latches }, out := t.out } := by
  obtain ⟨hup, hen, hopen⟩ := hc
  have hview : viewReg s (b2n (port == 1)) isl r i j = x % 2 ^ 32 := by simp only [viewReg, hx]
  refine ⟨_, exec_loReadLatch hup ha h4 hopen hen hr hm, ?_, fun hi hhi => viewReg_latchHi hs hx hlt hhi _, ?_⟩
  · simp only [hview, emit, latchHi, hx]
  · simp only [emit, latchHi, hx]

/-- Settles O7: a plain register is written field by field, the tests of a write stand in the order of R497, and a read of a
`_LO` register latches the other half. -/
theorem registerAccessesFollowTheRules : Obligations.RegisterAccessesFollowTheRules := by
  unfold Obligations.RegisterAccessesFollowTheRules
  exact ⟨fun _ _ _ _ _ _ _ _ _ hwf ha h4 hr hc hw hn => regWrite_plain hwf ha h4 hr hc hw hn,
    fun _ _ _ _ _ _ ha h4 hv hup hopen => regWrite_rejected ha h4 hv hup hopen,
    fun _ _ _ _ v hup h => exec_regWrite_misplaced v hup h,
    fun _ _ _ _ _ _ _ _ _ hs ha h4 hr hc hm hx hlt => loReadLatch_pair hs ha h4 hr hc hm hx hlt⟩

/-! ### A cycle while a program waits -/

/-- A program that has executed a MOVE of 128 bytes and holds at the WAIT after it since cycle 0, while the MOVE's read waits only for
sluice tokens (R249, R253, R258). -/
def tokenWaiter : Prog :=
  { op := ⟨0, 0, 0, 0⟩, addr := 0x3000, arg := 0, started := true, code := [0x8000040105, 0x100000008], pc := 1
    base := [0, 0x1000, 0x2000, 0, 0, 0, 0, 0], waitAt := some 0, tokens := true, xIssued := 1
    xfers := [{ gather := false, src := 0x1000, idx := 0, total := 128, elem := 0, estride := 0, dkind := 0, dst := 0x2000, tile := 0
                quad := 0, prof := 0, pc := 0 }] }

/-- A running module with reach 0 enabled and that program in slot 0 of its engine 0. -/
def tokenWaitState : State :=
  let s := setF State.reset 59 F.WEIR_STATUS_MSTATE 1
  { s with boot := { s.boot with applied := true, info := { s.boot.info with islands := 1 } }, flume := { progs := [(0, [tokenWaiter])] } }

theorem tokenWaitState_wf : State.wf tokenWaitState = true := by decide +kernel

/-- The cycle does not count toward the program's timeout: the start of its wait moves with it (R258). -/
theorem tick_moves_the_wait : (headProg (tick tokenWaitState) 0).map (·.waitAt) = some (some 1) := by decide +kernel

/-- Refutes O2: in a cycle in which a flume read waits only for sluice tokens, the model moves the start of its program's wait
(R258), so that `flume` changes, which the statement says it does not. -/
theorem not_stepOnAnEmptyQueueIsACycle : ¬ Obligations.StepOnAnEmptyQueueIsACycle := by
  unfold Obligations.StepOnAnEmptyQueueIsACycle
  intro h
  obtain ⟨t, hstep, _, _, _, _, _, _, _, hflume, _⟩ := h tokenWaitState tokenWaitState_wf rfl
  have ht : tick tokenWaitState = t := Host.Outcome.next.inj ((step_empty rfl).symm.trans hstep)
  have hsame : headProg (tick tokenWaitState) 0 = some tokenWaiter := by
    rw [headProg, getProgs, ht, hflume]; rfl
  have hmoved := tick_moves_the_wait
  rw [hsame] at hmoved
  exact absurd hmoved (by decide)

end Sys2Proof.Machine
end

section
/-!
PROOFS. Scope: commit and adoption of groups (R51-R53, R90).
-/
namespace Sys2Proof.Machine

/-! ### Copying a group's entries from one set to another (R51) -/

/-- A lookup in a rising map stops at its first entry or goes on behind it. -/
theorem mfind_cons {α : Type} {lo : Option Nat} {a : Nat} {v : α} {m : NMap α} (hm : mSorted lo ((a, v) :: m) = true) (k : Nat) :
    mfind ((a, v) :: m) k = if k = a then some v else mfind m k := by
  have htail := ((mSorted_cons lo a v m).mp hm).2
  simp only [mfind]
  by_cases hk : k < a
  · rw [if_pos hk, mfind_below htail (Nat.le_of_lt hk)]
  · rw [if_neg hk]

/-- The entries at the keys that a test lets through. -/
theorem mfind_filter {α : Type} (q : Nat → Bool) {lo : Option Nat} {m : NMap α} (hm : mSorted lo m = true) (k : Nat) :
    mfind (m.filter (fun p => q p.1)) k = if q k then mfind m k else none := by
  induction m generalizing lo with
  | nil => simp [mfind]
  | cons p m ih =>
    obtain ⟨a, v⟩ := p
    have htail := ((mSorted_cons lo a v m).mp hm).2
    have hsub := mSorted_filter (fun p => q p.1) hm
    cases hq : q a
    · rw [List.filter_cons_of_neg (by simp [hq]), ih htail, mfind_cons hm]
      by_cases hk : k = a <;> simp [hk, hq]
    · rw [List.filter_cons_of_pos (by simp [hq])] at hsub ⊢
      rw [mfind_cons hsub, mfind_cons hm, ih htail]
      by_cases hk : k = a <;> simp [hk, hq]

/-- Entries inserted one after another: an inserted key reads the new value, another the old. -/
theorem mfind_foldl_mins {α : Type} {lo : Option Nat} {l m : NMap α} (hl : mSorted lo l = true) (hm : mSorted none m = true) (k : Nat) :
    mfind (l.foldl (fun m p => mins m p.1 p.2) m) k = (mfind l k).or (mfind m k) := by
  induction l generalizing lo m with
  | nil => rfl
  | cons p l ih =>
    obtain ⟨a, v⟩ := p
    have htail := ((mSorted_cons lo a v l).mp hl).2
    rw [List.foldl_cons, ih htail (mSorted_mins v hm (by simp)), mfind_cons hl]
    by_cases hk : k = a
    · subst hk
      rw [if_pos rfl, mfind_below htail le_rfl, mfind_mins_same]
      rfl
    · rw [if_neg hk, mfind_mins_ne hk v hm]

/-- A copied group reads as its source at the group's keys and as before at every other. -/
theorem mfind_copyGroup (g : Group) (isl i : Nat) {src dst : NMap Nat} (hs : mSorted none src = true) (hd : mSorted none dst = true) (k : Nat) :
    mfind (copyGroup g isl i src dst) k = if g.holds isl i k then mfind src k else mfind dst k := by
  have hout := mSorted_filter (fun p => !g.holds isl i p.1) hd
  rw [copyGroup, mfind_foldl_mins (mSorted_filter _ hs) hout, mfind_filter (g.holds isl i) hs, mfind_filter (fun x => !g.holds isl i x) hd]
  cases hk : g.holds isl i k
  · simp
  · simp

/-! ### What the scheduler's bookkeeping leaves alone (R271, R285) -/

theorem noteBlock_frame (s : State) (ctx : Nat) : noteBlock s ctx = { s with sched := (noteBlock s ctx).sched } := by
  unfold noteBlock
  split
  · rfl
  · dsimp only
    split <;> rfl

theorem noteBlocks_frame (s : State) : noteBlocks s = { s with sched := (noteBlocks s).sched } := by
  have hfold (l : List Ctx) : ∀ s : State, l.foldl (fun s c => noteBlock s c.slot) s
      = { s with sched := (l.foldl (fun s c => noteBlock s c.slot) s).sched } := by
    induction l with
    | nil => exact fun _ => rfl
    | cons c l ih =>
      intro s
      rw [List.foldl_cons, ih, noteBlock_frame]
  exact hfold s.sched.ctxs s

/-- Counting the coming turns anew changes the scheduler's state alone. -/
theorem renewLeads_frame (s : State) : renewLeads s = { s with sched := (renewLeads s).sched } := by
  unfold renewLeads
  dsimp only
  split
  · rw [noteBlocks_frame]; rfl
  · rw [noteBlocks_frame]

/-! ### The commit of a group (R52) -/

/-- The epoch fields of a group are fields of one register, at bits of their own; COMMITTED is of 8 bits and PENDING of one. -/
theorem groupTable_epoch : ∀ g ∈ groupTable,
    g.committed.lo = 0 ∧ g.committed.w = 8 ∧ g.pending.lo = 16 ∧ g.pending.w = 1 := by
  decide

theorem committedKey_ne_pendingKey {g : Group} (hg : g ∈ groupTable) (isl i : Nat) :
    fieldKey isl g.committed i 0 ≠ fieldKey isl g.pending i 0 := by
  obtain ⟨hc, _, hp, _⟩ := groupTable_epoch g hg
  simp only [fieldKey, hc, hp]
  omega

/-- A state with a group's staged set copied to its pending set, and its epoch register brought up to date (R52). -/
def stagedToPending (s : State) (g : Group) (isl i : Nat) : State :=
  setF (setF { s with pend := copyGroup g isl i s.regs s.pend } isl g.committed ((getF s isl g.committed i + 1) % 256) i) isl g.pending 1 i

/-- A consistent set is taken over, and the scheduler's state changes only where it is a turnout table. -/
theorem commitGroup_consistent {s : State} {g : Group} {isl i : Nat} (h : consistent s g isl i = true) :
    ∃ sched, commitGroup s g isl i = ({ stagedToPending s g isl i with sched := sched }, 0)
      ∧ (g.commit ≠ R.SCHED_GROUP_TURNOUT_COMMIT.num → sched = s.sched) := by
  have htaken : commitGroup s g isl i = (if g.commit = R.SCHED_GROUP_TURNOUT_COMMIT.num then renewLeads (stagedToPending s g isl i)
      else stagedToPending s g isl i, 0) := by
    rw [commitGroup, if_pos h]
    rfl
  by_cases hturn : g.commit = R.SCHED_GROUP_TURNOUT_COMMIT.num
  · refine ⟨(renewLeads (stagedToPending s g isl i)).sched, ?_, fun hne => absurd hturn hne⟩
    rw [htaken, if_pos hturn, ← renewLeads_frame]
  · refine ⟨s.sched, ?_, fun _ => rfl⟩
    rw [htaken, if_neg hturn]
    rfl

section StagedToPending
variable {s : State} {g : Group} (isl i : Nat)

theorem getF_stagedToPending_committed (hs : mSorted none s.regs = true) (hg : g ∈ groupTable) :
    getF (stagedToPending s g isl i) isl g.committed i = (getF s isl g.committed i + 1) % 256 := by
  obtain ⟨_, hw, _, _⟩ := groupTable_epoch g hg
  rw [stagedToPending, getF_setF_ne (setF_regs_sorted (by exact hs) ..) _ _ _ _ _ _ _ _ _ (committedKey_ne_pendingKey hg isl i),
    getF_setF_same (by exact hs), hw]
  exact Nat.mod_mod _ _

theorem getF_stagedToPending_pending (hs : mSorted none s.regs = true) (hg : g ∈ groupTable) :
    getF (stagedToPending s g isl i) isl g.pending i = 1 := by
  obtain ⟨_, _, _, hw⟩ := groupTable_epoch g hg
  rw [stagedToPending, getF_setF_same (setF_regs_sorted (by exact hs) ..), hw]
  rfl

theorem regsBut_stagedToPending (hs : mSorted none s.regs = true) :
    RegsBut s (stagedToPending s g isl i) [fieldKey isl g.committed i 0, fieldKey isl g.pending i 0] := by
  intro k hk
  simp only [List.mem_cons, List.not_mem_nil, or_false, not_or] at hk
  obtain ⟨hc, hp⟩ := hk
  exact (mfind_mset_ne _ _ hp (setF_regs_sorted (s := { s with pend := _ }) hs ..)).trans (mfind_mset_ne _ _ hc hs)

end StagedToPending

/-! ### The way of a commit to its group (R9, R52, R90) -/

/-- No commit register is one of the registers whose write has another effect of its own. -/
theorem groupTable_commit_other : ∀ g ∈ groupTable, g.commit ∉ [R.DQP_CTRL.num, R.DQP_SB_IMG_CTRL.num, R.DQP_SB_IMG_DATA.num,
    R.DQP_SB_IMG_LEN.num, R.TM_CTRL.num, R.SCHED_CFG.num, R.PROT_TCTRL.num, R.PROT_FLIP_CTRL.num, R.PROT_STATUS.num, R.CNT_CTRL.num,
    R.CNT_SMP_TAIL.num, R.ID_MQ_CTRL.num, R.WEIR_ORDER.num, R.WEIR_CAP.num] := by
  decide

/-- A write of 1 to a commit register is its group's commit. -/
theorem writeEffect_commit {r : Reg} {g : Group} (h : groupTable.find? (fun g => g.commit == r.num) = some g)
    (s : State) (mgmt : Bool) (isl i j : Nat) : writeEffect s mgmt isl r i j 1 = writeCommit s mgmt g isl i := by
  have hnum : g.commit = r.num := by simpa using List.find?_some h
  have hother := groupTable_commit_other g (List.mem_of_find?_eq_some h)
  rw [hnum] at hother
  simp only [List.mem_cons, List.not_mem_nil, or_false, not_or] at hother
  have hbit : bit 1 0 = true := by decide
  simp only [writeEffect, hother, if_false, h, hbit, if_true]

theorem writeCommit_inconsistent {s : State} {g : Group} {isl i : Nat} (h : consistent s g isl i = false) (mgmt : Bool) :
    writeCommit s mgmt g isl i = (s, 0x1003) := by
  simp only [writeCommit, h, Bool.not_false, if_true]

/-- With no order on record or waiting, an order takes effect and is the one on record (R90). -/
theorem arbitrate_noRival {s : State} (h : NoRival s) (mgmt : Bool) (kind key value : Nat) :
    arbitrate s mgmt kind key value
      = ({ s with dqp := { s.dqp with orders := [⟨mgmt, cyc s 56, kind, key, value⟩] } }, true) := by
  obtain ⟨hrecord, hwaiting⟩ := h
  simp only [arbitrate, hrecord, hwaiting, List.filter_nil, List.append_nil, List.any_nil, Bool.false_eq_true, if_false, List.foldl_nil,
    List.nil_append, updDqp]

/-- The module cap's set is judged by registers and islands alone (R435). -/
theorem consistent_cap_orders {g : Group} (h : g.commit = R.WEIR_GROUP_CAP_COMMIT.num) (s : State) (isl i : Nat) (l : List Order) :
    consistent { s with dqp := { s.dqp with orders := l } } g isl i = consistent s g isl i := by
  simp only [consistent, h]
  rfl

/-- A commit that no order rivals is carried out; at most the orders on record change before it. -/
theorem writeCommit_consistent {s : State} {g : Group} {isl i : Nat} (h : consistent s g isl i = true) (hr : NoRival s) (mgmt : Bool) :
    ∃ l, consistent { s with dqp := { s.dqp with orders := l } } g isl i = true
      ∧ writeCommit s mgmt g isl i = commitGroup { s with dqp := { s.dqp with orders := l } } g isl i := by
  by_cases hcap : g.commit = R.WEIR_GROUP_CAP_COMMIT.num
  · refine ⟨[⟨mgmt, cyc s 56, 0, g.commit, 1⟩], (consistent_cap_orders hcap s isl i _).trans h, ?_⟩
    simp only [writeCommit, h, Bool.not_true, Bool.false_eq_true, if_false, hcap, if_true, arbitrate_noRival hr]
  · refine ⟨s.dqp.orders, h, ?_⟩
    simp only [writeCommit, h, Bool.not_true, Bool.false_eq_true, if_false, hcap]

/-- A commit on a port that reaches the register goes to its group and is answered with its status. -/
theorem exec_groupCommit {s t : State} {port addr isl off i j status : Nat} {r : Reg} {g : Group}
    (ha : islandAt addr = some (isl, off)) (h4 : addr % 4 = 0) (hr : findReg isl off = some (r, i, j)) (hc : CanReach s port isl)
    (hw : WordOk s port isl r i 1) (hg : groupTable.find? (fun g => g.commit == r.num) = some g)
    (ht : writeCommit s (port == 1) g isl i = (t, status)) :
    exec (.groupCommit port addr 1) s = .next { t with out := t.out ++ [answer port addr status 0] } := by
  obtain ⟨hup, hen, hopen⟩ := hc
  obtain ⟨hv, howner, hrw, hlegal, hfree⟩ := hw
  rw [← ownerOf_port] at howner
  have hwrite : writeReg s (port == 1) isl off 1 = (t, status) := by
    rw [writeReg_legal (answers_of_enabled off hen) hr howner hrw hlegal, hfree, writeEffect_commit hg, ht]
    rfl
  exact exec_regWrite hup ha h4 hopen hv hwrite

/-- Settles O8: an inconsistent set changes nothing, a consistent one is copied; the arbiter lets it pass, and only the turnout table
has the scheduler count its turns anew. -/
theorem groupCommitCopiesTheStagedSet : Obligations.GroupCommitCopiesTheStagedSet := by
  unfold Obligations.GroupCommitCopiesTheStagedSet
  intro s port addr isl off r i j g hwf ha h4 hr hc hw hg
  refine ⟨fun hbad => exec_groupCommit ha h4 hr hc hw hg (writeCommit_inconsistent hbad _), fun hok hrival => ?_⟩
  obtain ⟨_, hregs, _, hpend, _⟩ := (State.wf_iff s).mp hwf
  obtain ⟨l, hok', hcommit⟩ := writeCommit_consistent hok hrival (port == 1)
  have hmem := List.mem_of_find?_eq_some hg
  have hcopy := mfind_copyGroup g isl i hregs hpend
  obtain ⟨sched, hgroup, hsched⟩ := commitGroup_consistent hok'
  exact ⟨_, exec_groupCommit ha h4 hr hc hw hg (hcommit.trans hgroup),
    fun k hk => (hcopy k).trans (if_pos hk), fun k hk => (hcopy k).trans (if_neg hk),
    getF_stagedToPending_committed isl i hregs hmem, getF_stagedToPending_pending isl i hregs hmem, regsBut_stagedToPending isl i hregs,
    rfl, hsched⟩

/-! ### The adoption of a group (R53) -/

/-- GROUP_ADOPT is the adoption of the group whose commit register lies at the address. -/
theorem exec_groupAdopt {s : State} {addr isl off i j : Nat} {r : Reg} {g : Group} (ha : islandAt addr = some (isl, off))
    (hr : findReg isl off = some (r, i, j)) (hg : groupTable.find? (fun g => g.commit == r.num) = some g) (hp : present s isl = true) :
    exec (.groupAdopt addr) s = .next (adoptGroup s g isl i) := by
  show execGroupAdopt addr s = _
  simp only [execGroupAdopt, ha, hr, hg, hp, if_true]

/-- The group of the module cap, in island 59. -/
def capGroup : Group :=
  ⟨R.WEIR_GROUP_CAP_COMMIT.num, [R.WEIR_CAP.num], false, F.WEIR_GROUP_CAP_EPOCH_COMMITTED, F.WEIR_GROUP_CAP_EPOCH_ADOPTED,
    F.WEIR_GROUP_CAP_EPOCH_PENDING⟩

/-- A module whose cap waits to be adopted, with a COMMITTED of 300 in the register store: the field is of 8 bits, and the form of a
state bounds no value. -/
def overcounted : State :=
  { State.reset with regs := [(fieldKey 59 capGroup.committed 0 0, 300), (fieldKey 59 capGroup.pending 0 0, 1)] }

theorem overcounted_adoptable : State.wf overcounted = true ∧ present overcounted 59 = true ∧ getF overcounted 59 capGroup.pending = 1
    ∧ clockRuns overcounted 59 = true ∧ atSafePoint overcounted capGroup 59 0 = true := by
  decide +kernel

/-- ADOPTED takes COMMITTED cut to its own 8 bits. -/
theorem overcounted_adopted : getF (adoptGroup overcounted capGroup 59 0) 59 capGroup.adopted = 300 % 2 ^ 8
    ∧ getF (adoptGroup overcounted capGroup 59 0) 59 capGroup.committed = 300 := by
  decide +kernel

/-- Refutes O9: adoption writes ADOPTED as the 8-bit field it is, so where the register store holds a COMMITTED beyond 8 bits, which
`State.wf` admits though no write of the model leaves one, the two differ. -/
theorem not_groupAdoptCopiesThePendingSet : ¬ Obligations.GroupAdoptCopiesThePendingSet := by
  unfold Obligations.GroupAdoptCopiesThePendingSet
  intro h
  obtain ⟨hwf, hpresent, hpending, hclock, hsafe⟩ := overcounted_adoptable
  have haddr : islandAt (configBase + 59 * 0x10000 + 0x104) = some (59, 0x104) := by decide
  have hreg : findReg 59 0x104 = some (R.WEIR_GROUP_CAP_COMMIT, 0, 0) := by decide +kernel
  have hgroup : groupTable.find? (fun g => g.commit == R.WEIR_GROUP_CAP_COMMIT.num) = some capGroup := by decide
  obtain ⟨hplain, _⟩ :=
    h overcounted _ 59 0x104 R.WEIR_GROUP_CAP_COMMIT 0 0 capGroup hwf haddr hreg hgroup hpresent hpending ⟨hclock, hsafe⟩
  obtain ⟨t, hexec, _, _, hepoch, _⟩ := hplain (by decide)
  have ht : adoptGroup overcounted capGroup 59 0 = t :=
    Host.Outcome.next.inj ((exec_groupAdopt haddr hreg hgroup hpresent).symm.trans hexec)
  obtain ⟨hadopted, hcommitted⟩ := overcounted_adopted
  rw [← ht, hadopted, hcommitted] at hepoch
  exact absurd hepoch (by decide)

end Sys2Proof.Machine
end

section
/-!
PROOFS. Scope: the rollback counter at start-up (R43, R46).
-/
namespace Sys2Proof.Machine

/-! ### Numbers read from bytes (R5) -/

theorem ofBytes_lt (l : List Byte) : ofBytes l < 256 ^ l.length := by
  induction l with
  | nil => decide
  | cons b l ih =>
    have hb : b.toNat < 256 := b.isLt
    rw [ofBytes, List.length_cons, Nat.pow_succ]
    omega

theorem slice_length (l : List Byte) (o n : Nat) : (slice l o n).length = n := by
  simp only [slice, List.length_append, List.length_replicate, List.length_take, List.length_drop]
  omega

theorem le_lt_pow (l : List Byte) (o n : Nat) : le l o n < 256 ^ n := by
  simpa only [le, slice_length] using ofBytes_lt (slice l o n)

theorem toBytes_length (n v : Nat) : (toBytes n v).length = n := by
  induction n generalizing v with
  | zero => rfl
  | succ n ih => rw [toBytes, List.length_cons, ih]

/-! ### Operations that leave the counter, its loss and the active image alone -/

/-- An operation leaves IMG_COUNTER, CTR_LOST and the active image as they are, and the register store in its form. -/
structure KeepsCounter (s t : State) : Prop where
  sorted : mSorted none s.regs = true → mSorted none t.regs = true
  counter : mSorted none s.regs = true → getF t 58 F.IMG_COUNTER_COUNTER = getF s 58 F.IMG_COUNTER_COUNTER
  lost : mSorted none s.regs = true → getF t 58 F.IMG_STATUS_CTR_LOST = getF s 58 F.IMG_STATUS_CTR_LOST
  active : t.boot.active = s.boot.active

/-- A field of another register than IMG_STATUS and IMG_COUNTER, within the layout's bounds. -/
def Field.elsewhere (f : Field) : Bool :=
  f.reg != F.IMG_STATUS_CTR_LOST.reg && f.reg != F.IMG_COUNTER_COUNTER.reg && decide (f.reg < 512) && decide (f.lo < 32)

namespace KeepsCounter
variable {s t u : State}

theorem refl (s : State) : KeepsCounter s s := ⟨id, fun _ => rfl, fun _ => rfl, rfl⟩

theorem trans (h : KeepsCounter s t) (h' : KeepsCounter t u) : KeepsCounter s u :=
  ⟨fun hs => h'.sorted (h.sorted hs), fun hs => (h'.counter (h.sorted hs)).trans (h.counter hs),
    fun hs => (h'.lost (h.sorted hs)).trans (h.lost hs), h'.active.trans h.active⟩

theorem foldl {α : Type} {f : State → α → State} {l : List α} (h : ∀ s, ∀ a ∈ l, KeepsCounter s (f s a)) (s : State) :
    KeepsCounter s (l.foldl f s) := by
  induction l generalizing s with
  | nil => exact refl s
  | cons a l ih =>
    exact (h s a List.mem_cons_self).trans (ih (fun s b hb => h s b (List.mem_cons_of_mem a hb)) _)

/-- An operation on other parts of the state. -/
theorem of_regs (hr : t.regs = s.regs) (ha : t.boot.active = s.boot.active) : KeepsCounter s t :=
  ⟨fun hs => by rw [hr]; exact hs, fun _ => getF_congr hr .., fun _ => getF_congr hr .., ha⟩

/-- A write of a field at another key. -/
theorem setF_otherKey {isl i : Nat} {f : Field} (hc : fieldKey 58 F.IMG_COUNTER_COUNTER 0 0 ≠ fieldKey isl f i 0)
    (hl : fieldKey 58 F.IMG_STATUS_CTR_LOST 0 0 ≠ fieldKey isl f i 0) (s : State) (v : Nat) : KeepsCounter s (setF s isl f v i) :=
  ⟨fun hs => setF_regs_sorted hs .., fun hs => getF_setF_ne hs _ _ _ _ _ _ _ _ _ hc, fun hs => getF_setF_ne hs _ _ _ _ _ _ _ _ _ hl, rfl⟩

/-- A write of a field of another register. -/
theorem setF_elsewhere {f : Field} (hf : f.elsewhere = true) (s : State) (isl v : Nat) {i : Nat} (hi : i < 2048) :
    KeepsCounter s (setF s isl f v i) := by
  simp only [Field.elsewhere, Bool.and_eq_true, bne_iff_ne, decide_eq_true_eq] at hf
  obtain ⟨⟨⟨hl, hc⟩, hreg⟩, hlo⟩ := hf
  refine setF_otherKey (fun h => hc ?_) (fun h => hl ?_) s v
  · exact (fieldKey_inj (by decide) hreg (by decide) hi (by decide) (by decide) (by decide) hlo h).2.1.symm
  · exact (fieldKey_inj (by decide) hreg (by decide) hi (by decide) (by decide) (by decide) hlo h).2.1.symm

theorem addF_elsewhere {f : Field} (hf : f.elsewhere = true) (s : State) (isl n : Nat) {i : Nat} (hi : i < 2048) :
    KeepsCounter s (addF s isl f n i) :=
  setF_elsewhere hf s isl _ hi

end KeepsCounter

/-! ### Event counters and samples (R476-R481) -/

theorem keepsCounter_putWords (isl i : Nat) (l : List Byte) (s : State) (h : i + l.length ≤ 2048) : KeepsCounter s (putWords isl i l s) := by
  fun_induction putWords isl i l s with
  | case1 => exact .refl _
  | case2 i b0 b1 b2 b3 l s ih =>
    simp only [List.length_cons] at h
    exact (KeepsCounter.setF_elsewhere (by decide) s isl _ (by omega)).trans (ih (by omega))
  | case3 => exact .refl _

theorem keepsCounter_writeSample (s : State) (isl : Nat) {r : List Byte} (h : r.length = 32) : KeepsCounter s (writeSample s isl r) := by
  unfold writeSample
  split
  · exact .addF_elsewhere (by decide) s isl 1 (by decide)
  · extract_lets below _ armed head filled moved flit
    have harmed : KeepsCounter s armed := by
      unfold armed
      split
      · exact .of_regs rfl rfl
      · exact .refl s
    have hfilled : KeepsCounter armed filled := keepsCounter_putWords isl _ r armed (by omega)
    have hmoved : KeepsCounter filled moved := .setF_elsewhere (by decide) filled isl _ (by decide)
    have hdone := (harmed.trans hfilled).trans hmoved
    split
    · exact hdone.trans (.of_regs rfl rfl)
    · exact hdone

theorem sampleRecord_length (cycle counter : Nat) (skid attr : Bool) (x : Src) : (sampleRecord cycle counter skid attr x).length = 32 := by
  simp only [sampleRecord, List.length_append, toBytes_length]

theorem keepsCounter_cycleSamples (s : State) (isl k sh v m n : Nat) : KeepsCounter s (cycleSamples s isl k sh v m n) := by
  unfold cycleSamples
  extract_lets room taken
  have htaken : KeepsCounter s taken := .foldl (fun t j _ => keepsCounter_writeSample t isl (sampleRecord_length ..)) s
  split
  · exact htaken.trans (.addF_elsewhere (by decide) taken isl _ (by decide))
  · exact htaken

theorem keepsCounter_countOne (isl code unit slot n : Nat) (x : Source) (s : State) {k : Nat} (hk : k < 8) :
    KeepsCounter s (countOne isl code unit slot n x s k) := by
  unfold countOne
  split
  case isFalse => exact .refl s
  extract_lets v w _ counted saturated sh m missed
  have hcounted : KeepsCounter s counted := .of_regs rfl rfl
  have hsaturated : KeepsCounter counted saturated := by
    unfold saturated
    split
    · exact .setF_elsewhere (by decide) counted isl 1 (by omega)
    · exact .refl counted
  have hmissed : KeepsCounter saturated missed := by
    unfold missed
    split
    · exact .refl saturated
    · exact .addF_elsewhere (by decide) saturated isl _ (by decide)
  refine (hcounted.trans hsaturated).trans ?_
  split
  · split
    · exact keepsCounter_cycleSamples ..
    · refine hmissed.trans ?_
      split
      · exact .addF_elsewhere (by decide) missed isl 1 (by decide)
      · exact .of_regs rfl rfl
  · exact .refl saturated

/-- An event counted, with its samples. -/
theorem keepsCounter_countEv (s : State) (isl code unit n slot : Nat) : KeepsCounter s (countEv s isl code unit n slot) := by
  unfold countEv countSrc
  split
  · exact .refl s
  · exact .foldl (fun t k hk => keepsCounter_countOne isl code unit slot n _ t (List.mem_range.mp hk)) s

/-! ### Copies on media (R43, R46, R361-R363) -/

theorem keepsCounter_updFlash (s : State) (f : Flash → Flash) : KeepsCounter s (updFlash s f) := .of_regs rfl rfl

theorem keepsCounter_updDie (s : State) (c dn : Nat) (f : Die → Die) : KeepsCounter s (updDie s c dn f) := .of_regs rfl rfl

theorem keepsCounter_noteRo (s : State) : KeepsCounter s (noteRo s) := by
  unfold noteRo
  extract_lets chans new logged
  split
  · exact .refl s
  · refine (KeepsCounter.of_regs rfl rfl : KeepsCounter s logged).trans (.foldl (fun t k _ => ?_) _)
    split
    · exact .of_regs rfl rfl
    · exact .refl t

theorem keepsCounter_setErased (s : State) (c dn : Nat) (e : JEntry) : KeepsCounter s (setErased s c dn e) := by
  unfold setErased
  split
  · exact .refl s
  · split
    · exact .of_regs rfl rfl
    · exact .of_regs rfl rfl

theorem keepsCounter_pageDone (s : State) (c dn : Nat) (p : JPage) : KeepsCounter s (pageDone s c dn p) := by
  unfold pageDone
  extract_lets closed ints fresh still paged erased
  have hpaged : KeepsCounter s paged := .of_regs rfl rfl
  have herased : KeepsCounter paged erased := .foldl (fun t e _ => keepsCounter_setErased t c dn e) paged
  exact ((hpaged.trans herased).trans (keepsCounter_updFlash erased _)).trans (keepsCounter_noteRo _)

theorem keepsCounter_writeParam (s : State) (i b bytes : Nat) : KeepsCounter s (writeParam s i b bytes) := by
  unfold writeParam
  extract_lets c dn d e p paged closed
  have hpaged : KeepsCounter s paged := (keepsCounter_updDie s c dn _).trans (keepsCounter_pageDone _ c dn p)
  have hclosed : KeepsCounter paged closed := keepsCounter_updDie paged c dn _
  exact ((hpaged.trans hclosed).trans (keepsCounter_countEv ..)).trans (keepsCounter_countEv ..)

/-- The fields of IMG_STATUS beside CTR_LOST. -/
theorem keepsCounter_setF_source (s : State) (v : Nat) : KeepsCounter s (setF s 58 F.IMG_STATUS_SOURCE v) :=
  .setF_otherKey (by decide) (by decide) s v

theorem keepsCounter_setF_pend (s : State) (v : Nat) : KeepsCounter s (setF s 58 F.IMG_STATUS_CTR_PEND v) :=
  .setF_otherKey (by decide) (by decide) s v

theorem keepsCounter_writeCopies (s : State) (ok : Nat → Bool) : KeepsCounter s (writeCopies s ok) := by
  unfold writeCopies
  extract_lets can programmed _ _ recorded repaired _ stored
  have hparams (t : State) (l : List Nat) (b n : Nat) : KeepsCounter t (l.foldl (fun t i => writeParam t i b n) t) :=
    .foldl (fun t i _ => keepsCounter_writeParam t i b n) t
  have hprogrammed : KeepsCounter s programmed := by
    unfold programmed
    split
    · exact hparams ..
    · exact .refl s
  have hrecorded : KeepsCounter programmed recorded := by
    unfold recorded
    split
    · exact .refl programmed
    · extract_lets owed
      exact (KeepsCounter.of_regs rfl rfl : KeepsCounter programmed owed).trans (keepsCounter_setF_pend owed _)
  have hrepaired : KeepsCounter recorded repaired := hparams ..
  have hstored : KeepsCounter repaired stored := .of_regs rfl rfl
  split
  · exact hprogrammed.trans hrecorded
  · exact (((hprogrammed.trans hrecorded).trans hrepaired).trans hstored).trans (.setF_elsewhere (by decide) stored 58 _ (by decide))

/-! ### The end of step 3 (R43, R44, R46) -/

theorem keepsCounter_nextStep (s : State) {n : Nat} (hn : n ≤ 8) (k : Nat) : KeepsCounter s (nextStep s n k) := by
  unfold nextStep
  extract_lets now timed _
  have htimed : KeepsCounter s timed := .addF_elsewhere (by decide) s 59 _ (by omega)
  have hstep (t : State) (v : Nat) : KeepsCounter t (setF t 59 F.WEIR_STATUS_STEP v) := .setF_elsewhere (by decide) t 59 v (by decide)
  refine (htimed.trans ?_).trans (hstep _ _)
  exact .of_regs rfl rfl

/-- IMG_COUNTER and CTR_LOST read `c` and `l`, and the register store is in its form. -/
structure ShowsCounter (s : State) (c l : Nat) : Prop where
  sorted : mSorted none s.regs = true
  counter : getF s 58 F.IMG_COUNTER_COUNTER = c
  lost : getF s 58 F.IMG_STATUS_CTR_LOST = l

theorem KeepsCounter.shows {s t : State} {c l : Nat} (h : KeepsCounter s t) (hs : ShowsCounter s c l) : ShowsCounter t c l :=
  ⟨h.sorted hs.sorted, (h.counter hs.sorted).trans hs.counter, (h.lost hs.sorted).trans hs.lost⟩

/-- Both lie in the register store. -/
theorem ShowsCounter.of_regs {s t : State} {c l : Nat} (h : ShowsCounter s c l) (hr : t.regs = s.regs) : ShowsCounter t c l :=
  ⟨by rw [hr]; exact h.sorted, (getF_congr hr ..).trans h.counter, (getF_congr hr ..).trans h.lost⟩

theorem showsCounter_setF_lost {s : State} (hs : mSorted none s.regs = true) (b : Bool) :
    ShowsCounter (setF s 58 F.IMG_STATUS_CTR_LOST (b2n b)) (getF s 58 F.IMG_COUNTER_COUNTER) (b2n b) := by
  refine ⟨setF_regs_sorted hs .., getF_setF_ne hs _ _ _ _ _ _ _ _ _ (by decide), (getF_setF_same hs ..).trans ?_⟩
  cases b <;> rfl

theorem ShowsCounter.setF_counter {s : State} {c l v : Nat} (h : ShowsCounter s c l) (hv : v < 2 ^ 32) :
    ShowsCounter (setF s 58 F.IMG_COUNTER_COUNTER v) v l :=
  ⟨setF_regs_sorted h.sorted .., (getF_setF_same h.sorted ..).trans (Nat.mod_eq_of_lt hv),
    (getF_setF_ne h.sorted _ _ _ _ _ _ _ _ _ (by decide)).trans h.lost⟩

/-- The floor of the active image is the least that IMG_COUNTER shows afterwards (R46). -/
theorem ShowsCounter.raiseFloor {s : State} {c l : Nat} (h : ShowsCounter s c l) :
    ShowsCounter (raiseFloor s) (max c (imgFloor s.boot.active)) l ∧ (raiseFloor s).boot.active = s.boot.active := by
  unfold Machine.raiseFloor
  extract_lets floor raised _ owed src _ written _
  rw [h.counter]
  split
  case isTrue hle => exact ⟨by rwa [Nat.max_eq_left hle], rfl⟩
  case isFalse hlt =>
    have hset : ShowsCounter (setF s 58 F.IMG_COUNTER_COUNTER floor) floor l := h.setF_counter (le_lt_pow s.boot.active 0x0C 4)
    have hraised : KeepsCounter (setF s 58 F.IMG_COUNTER_COUNTER floor) raised := keepsCounter_setF_pend _ 1
    have howed : KeepsCounter raised owed := .of_regs rfl rfl
    have hwritten : KeepsCounter owed written := by
      refine KeepsCounter.trans ?_ (keepsCounter_writeCopies _ _)
      exact .of_regs rfl rfl
    have hdone := (hraised.trans howed).trans hwritten
    rw [Nat.max_eq_right (Nat.le_of_not_le hlt)]
    exact ⟨(hdone.shows hset).of_regs rfl, hdone.active⟩

theorem keepsCounter_putDigest {f : Field} (hf : f.elsewhere = true) (s : State) (b : List Byte) : KeepsCounter s (putDigest s f b) :=
  .foldl (fun t k hk => .setF_elsewhere hf t 58 _ (Nat.lt_trans (List.mem_range.mp hk) (by decide))) s

/-- The image chosen shows in SOURCE and in registers of island 58's identity (R45, R50, R459). -/
theorem ShowsCounter.chooseImage {s : State} {c l : Nat} (h : ShowsCounter s c l) (d : List Byte) (source : Nat) :
    ShowsCounter (chooseImage s d source) c l := by
  unfold Machine.chooseImage
  extract_lets a _ _ taken digested
  have htaken : ShowsCounter taken c l := h.of_regs rfl
  have hanchor : KeepsCounter taken (setF taken 58 F.ID_ANCHORS_USED a) := .setF_elsewhere (by decide) taken 58 a (by decide)
  have hdigested : KeepsCounter taken digested := hanchor.trans (keepsCounter_putDigest (by decide) _ _)
  exact (hdigested.trans (keepsCounter_setF_source digested source)).shows htaken

/-- The values of the counter copies are of 32 bits. -/
theorem goodCounters_lt {s : State} {m : Nat} (h : m ∈ goodCounters s) : m < 2 ^ 32 := by
  obtain ⟨r, _, rfl⟩ := List.mem_map.mp h
  exact le_lt_pow r 0 4

theorem foldl_max_lt {l : List Nat} {a n : Nat} (ha : a < n) (hl : ∀ x ∈ l, x < n) : l.foldl max a < n :=
  List.foldlRecOn l max (motive := (· < n)) ha fun _ hb x hx => Nat.max_lt.mpr ⟨hb, hl x hx⟩

/-- The largest member of a list is its running maximum from 0. -/
theorem foldl_max_of_mem {l : List Nat} {m : Nat} (hm : m ∈ l) (hmax : ∀ x ∈ l, x ≤ m) : l.foldl max 0 = m := by
  obtain ⟨hmem, hle⟩ := List.max?_eq_some_iff.mp (List.max?_cons' (x := 0) (xs := l))
  refine Nat.le_antisymm ?_ (hle m (List.mem_cons_of_mem 0 hm))
  obtain hzero | hmem := List.mem_cons.mp hmem
  · exact hzero.trans_le (Nat.zero_le m)
  · exact hmax _ hmem

/-- Whatever image step 3 takes, it shows the largest good counter, and its loss where there is none (R43). -/
theorem chooseSlot_shows {s : State} (hs : mSorted none s.regs = true) :
    ShowsCounter (chooseSlot s) ((goodCounters s).foldl max 0) (b2n (goodCounters s).isEmpty) := by
  unfold chooseSlot
  extract_lets vals counter shown a b counted rejected
  have hshown : ShowsCounter shown counter (b2n vals.isEmpty) :=
    (showsCounter_setF_lost hs vals.isEmpty).setF_counter (foldl_max_lt (by decide) fun x hx => goodCounters_lt hx)
  have hcounted : KeepsCounter shown counted := keepsCounter_countEv ..
  have hslotA : KeepsCounter counted (setF counted 58 F.IMG_REJECT_SLOT_A a.1) := .setF_elsewhere (by decide) counted 58 _ (by decide)
  have hslotB : KeepsCounter (setF counted 58 F.IMG_REJECT_SLOT_A a.1) rejected := .setF_elsewhere (by decide) _ 58 _ (by decide)
  have hrejected := ((hcounted.trans hslotA).trans hslotB).shows hshown
  split
  · exact hrejected.chooseImage a.2 1
  · split
    · exact hrejected.chooseImage b.2 2
    · have hwait : KeepsCounter rejected (setF rejected 56 F.DQP_SB_IMG_STAT_WAITING 1) := .setF_elsewhere (by decide) rejected 56 1 (by decide)
      exact (hwait.trans (keepsCounter_nextStep _ (by decide) 2)).shows hrejected

/-! Identity derivation comes first (R463): it touches neither. -/

theorem keepsCounter_loadIdentity (s : State) (k : List Byte × List Byte) (source : Nat) : KeepsCounter s (loadIdentity s k source) := by
  unfold loadIdentity
  extract_lets _ loaded digested
  have hloaded : KeepsCounter s loaded := .of_regs rfl rfl
  have hdigested : KeepsCounter loaded digested := keepsCounter_putDigest (by decide) ..
  have hstate : KeepsCounter digested (setF digested 58 F.ID_STATUS_STATE 1) := .setF_elsewhere (by decide) digested 58 1 (by decide)
  exact ((hloaded.trans hdigested).trans hstate).trans (.setF_elsewhere (by decide) _ 58 source (by decide))

theorem keepsCounter_deriveOver (s : State) (puf : List Byte) (l : List (Nat × List Byte)) (tried : List (List Byte)) :
    KeepsCounter s (deriveOver s puf l tried) := by
  induction l generalizing tried with
  | nil =>
    show KeepsCounter s (setF s 58 F.ID_STATUS_STATE 2)
    exact .setF_elsewhere (by decide) s 58 2 (by decide)
  | cons p l ih =>
    obtain ⟨n, r⟩ := p
    show KeepsCounter s (ite _ _ _)
    split
    · exact ih tried
    · split
      case h_1 k _ => exact (keepsCounter_loadIdentity s k n).trans (.of_regs rfl rfl)
      case h_2 => exact ih _

theorem keepsCounter_enrol (s : State) (puf entropy : List Byte) : KeepsCounter s (enrol s puf entropy) := by
  unfold enrol
  extract_lets h xi k r r' loaded _
  have hloaded : KeepsCounter s loaded := keepsCounter_loadIdentity s k 5
  exact hloaded.trans (.of_regs rfl rfl)

theorem keepsCounter_deriveIdentity (s : State) (env : StepEnv) : KeepsCounter s (deriveIdentity s env) := by
  unfold deriveIdentity
  split
  case isTrue => exact .refl s
  extract_lets recs derived dup bad
  have hderived : KeepsCounter s derived := by
    unfold derived
    split
    · exact keepsCounter_deriveOver ..
    · exact keepsCounter_enrol ..
  have hbad : KeepsCounter derived (setF derived 58 F.ID_STATUS_COPIES_BAD bad) := .setF_elsewhere (by decide) derived 58 bad (by decide)
  exact (hderived.trans hbad).trans (.setF_elsewhere (by decide) _ 58 _ (by decide))

/-- Step 3 without an active image: the choice of a slot, then the floor of the image chosen, if any (R44, R46). -/
theorem exec_stepThree {s : State} {env : StepEnv} (h : StepEnds s env 3) (ha : s.boot.active = []) :
    exec (.startUpStepEnd env) s = .next (
      let t := chooseSlot (deriveIdentity s env)
      if t.boot.active.isEmpty then t else nextStep (raiseFloor t) 3 4) := by
  obtain ⟨hpowered, hreset, hstarting, hok, hstep⟩ := h
  have hactive : (deriveIdentity s env).boot.active = [] := (keepsCounter_deriveIdentity s env).active.trans ha
  show execStartUpStepEnd env s = _
  simp only [execStartUpStepEnd, hpowered, hreset, mstate, hstarting, hok, hstep, hactive, Bool.not_true, Bool.false_eq_true, ne_eq,
    not_true_eq_false, or_self, Bool.true_eq_false, if_false, List.isEmpty_nil, if_true]

/-- What step 3 ends with: the largest good counter, or the floor of the image it has chosen where that is higher. -/
theorem stepThree_shows {s : State} {env : StepEnv} (hwf : State.wf s = true) (h : StepEnds s env 3) (ha : s.boot.active = []) :
    Gives (.startUpStepEnd env) s fun t => ShowsCounter t (max ((goodCounters (deriveIdentity s env)).foldl max 0) (imgFloor t.boot.active))
      (b2n (goodCounters (deriveIdentity s env)).isEmpty) := by
  obtain ⟨_, hregs, _⟩ := (State.wf_iff s).mp hwf
  have hchosen := chooseSlot_shows ((keepsCounter_deriveIdentity s env).sorted hregs)
  refine ⟨_, exec_stepThree h ha, ?_⟩
  dsimp only
  split
  case isTrue hnone =>
    have hfloor : imgFloor [] = 0 := by decide
    rw [List.isEmpty_iff.mp hnone, hfloor, Nat.max_zero]
    exact hchosen
  case isFalse =>
    obtain ⟨hraised, hactive⟩ := hchosen.raiseFloor
    have hnext := keepsCounter_nextStep (raiseFloor (chooseSlot (deriveIdentity s env))) (n := 3) (by decide) 4
    rw [hnext.active, hactive]
    exact hnext.shows hraised

/-- Settles O14: step 3 shows the largest of the good counters, 0 without one, raised to the floor of the image chosen. -/
theorem counterIsTheLargestGoodCopy : Obligations.CounterIsTheLargestGoodCopy := by
  unfold Obligations.CounterIsTheLargestGoodCopy
  intro s env hwf h ha
  obtain ⟨t, hexec, hshows⟩ := stepThree_shows hwf h ha
  refine ⟨fun hnone => ?_, fun m hm hmax => ?_⟩
  · rw [hnone] at hshows
    exact ⟨t, hexec, hshows.lost, hshows.counter.trans (Nat.zero_max _)⟩
  · rw [foldl_max_of_mem hm hmax, List.isEmpty_eq_false_iff_exists_mem.mpr ⟨m, hm⟩] at hshows
    exact ⟨t, hexec, hshows.lost, hshows.counter⟩

end Sys2Proof.Machine
end

section
/-!
PROOFS. Scope: the step on a waiting command, and the order in which a queue's commands start (R81, R90).
-/
namespace Sys2Proof.Machine

/-- Settles O1. -/
theorem stepRunsTheFrontCommand : Obligations.StepRunsTheFrontCommand := by
  unfold Obligations.StepRunsTheFrontCommand
  exact fun _ _ _ h => step_front h

/-! ### What a row does with its command (R75, R81, R420) -/

section RunCmd
variable {s : State} {id : CmdId} {c : Cmd} {sel : Cmd → Bool} {fields : List (Nat × Nat)} {conds : Cmd → List Nat}
  {body : State → Cmd → State}

/-- A row does nothing with a command that may not start, or that it does not describe. -/
theorem runCmd_idle (hid : cmdById s id = some c) (h : (canStart s c && sel c) = false) :
    runCmd s id sel fields conds body = s := by
  simp only [runCmd, hid, h, Bool.false_eq_true, if_false]

/-- An earlier command of the queue holds a command where one of the two has FENCE set (R81). -/
theorem canStart_behind_fence {x : Cmd} (hx : x ∈ s.dqp.cmds) (hq : x.sqid = c.sqid) (hno : x.no < c.no)
    (hf : c.fence = true ∨ x.fence = true) : canStart s c = false := by
  have held : s.dqp.cmds.any (fun y => y.sqid == c.sqid && decide (y.no < c.no) && (y.fence || c.fence)) = true := by
    refine List.any_eq_true.mpr ⟨x, hx, ?_⟩
    obtain hf | hf := hf <;> simp [hq, hno, hf]
  simp only [canStart, held, Bool.not_true, Bool.and_false]

end RunCmd

/-- Settles O18. -/
theorem fenceOrdersAQueue : Obligations.FenceOrdersAQueue := by
  unfold Obligations.FenceOrdersAQueue
  intro s c x hx hq hno hf
  have hheld := canStart_behind_fence hx hq hno hf
  refine ⟨hheld, fun id hid _ => ?_⟩
  show execIdentify id s = _
  rw [execIdentify, runCmd_idle hid (by rw [hheld, Bool.false_and])]

end Sys2Proof.Machine
end

section
/-!
PROOFS. Scope: three statements that fail, each with a state in which the model leaves what the statement says (R73, R86, R114, R442).
Two of them turn on a namespace number that names no domain: State.wf bounds the numbers of neither objects nor contexts, and the
headgate's count for such a domain lies under the key of another register.
-/
namespace Sys2Proof.Machine

/-! ### TM_CTRL (R114): denied windows of a far domain count in the place of MODE -/

/-- A hinted object in device memory, of a namespace beyond the last domain. -/
def farObject : Obj := { deviceObj 20481 1 0 65536 0 2 with hinted := true, hintTier := 1, hintDie := 0 }

/-- A window of that object. -/
def farWindow : WinMap := ⟨20481, 1, 0, 1, 1, false⟩

/-- Demand mode, with two windows that the change to hint mode asks the headgate for. -/
def farHintState : State :=
  { State.reset with
    regs := [(fieldKey 57 F.TM_CTRL_MODE 0 0, 0)]
    link := { sbTrained := true }
    mem := { windows := [farWindow, farWindow] }
    search := { objs := [farObject] }
    boot := { State.reset.boot with applied := true, powered := true } }

/-- Both windows are denied; the count of denials of domain 20480 has MODE's key, and MODE reads 2. -/
theorem farHintState_mode :
    getF (portAccess farHintState 0 true (regAddr 57 R.TM_CTRL.num 0) 1) 57 F.TM_CTRL_MODE = 2 := by decide +kernel

/-- Refutes O11: the change to hint mode denies the two windows of an object whose domain's HG_DENY_COUNT has the key of TM_CTRL.MODE,
which then reads 2 and not 1. -/
theorem not_dqpEnableAndTierModeWrites : ¬ Obligations.DqpEnableAndTierModeWrites := by
  unfold Obligations.DqpEnableAndTierModeWrites
  rintro ⟨_, hmode⟩
  have hwf : State.wf farHintState = true := by decide +kernel
  have hreach : CanReach farHintState 0 57 := by simp only [CanReach]; decide +kernel
  obtain ⟨t, ht, hread, _⟩ := hmode farHintState 1 hwf hreach (by decide)
  have hstate : portAccess farHintState 0 true (regAddr 57 R.TM_CTRL.num 0) 1 = t := Host.Outcome.next.inj ht
  rw [← hstate, farHintState_mode] at hread
  exact absurd hread (by decide)

/-! ### CQ_COALESCE_TIMEOUT (R73): the interrupt it sends is an event, whose sample sends another -/

theorem exec_cqCoalesceTimeout {s : State} {q : Nat} {k : Cq} (hk : findCq s q = some k) (hu : 0 < k.unsignalled) :
    exec (.cqCoalesceTimeout q) s = .next (interrupt (updCq s q (fun c => { c with unsignalled := 0 })) k.vector) := by
  show execCqCoalesceTimeout q s = _
  simp only [execCqCoalesceTimeout, hk, hu, if_true]

/-- A CQ that holds one completion back, with vector 4. -/
def coalescingCq : Cq := ⟨0, 0, 16, 4, 8, 100, 1, 0, true, [], 1⟩

/-- Counter 0 of island 56 counts and samples the flits sent (event 0x61); the first record reaches the watermark, with vector 0. -/
def sampledLinkState : State :=
  { setF (setF (setF (setF (setF State.reset 56 F.CNT_CTRL_EN 1) 56 F.CNT_SEL_EVENT 0x61) 56 F.CNT_SEL_SAMPLE 1)
      56 F.CNT_SMP_CFG_WATERMARK 1) 56 F.CNT_SMP_CFG_IRQ_EN 1 with
    link := { session := true, l0 := true, hostInit := true, credits := 8 }
    dqp := { cqs := [coalescingCq] } }

/-- The state after the timeout, the flits that wait or are held: the CQ's interrupt, then the sample buffer's. -/
theorem sampledLinkState_flits :
    let l := (interrupt (updCq sampledLinkState 0 (fun c => { c with unsignalled := 0 })) 4).link
    (l.held ++ l.queue ++ l.outbox).map (·.hdr) = [toBytes 2 4 ++ [0, 0, 0, 0], [0, 0, 0, 0, 0, 0]] := by decide +kernel

/-- Refutes O19: where the island counts and samples its flits, the interrupt of the CQ is followed by the watermark interrupt of the
sample it causes, which is then the last of what is to be sent and names another vector. -/
theorem not_entriesInAndCompletionsOut : ¬ Obligations.EntriesInAndCompletionsOut := by
  unfold Obligations.EntriesInAndCompletionsOut
  rintro ⟨_, _, _, htimeout, _⟩
  have hcq : findCq sampledLinkState 0 = some coalescingCq := by decide +kernel
  obtain ⟨t, ht, _, _, g, hlast, _, hvector⟩ := htimeout sampledLinkState 0 coalescingCq hcq (by decide)
  rw [exec_cqCoalesceTimeout hcq (by decide)] at ht
  have hstate : interrupt (updCq sampledLinkState 0 (fun c => { c with unsignalled := 0 })) 4 = t := Host.Outcome.next.inj ht
  have hhdr : ((t.link.held ++ t.link.queue ++ t.link.outbox).map (·.hdr)).getLast? = some g.hdr := by
    rw [List.getLast?_map, hlast, Option.map_some]
  rw [← hstate, sampledLinkState_flits, hvector] at hhdr
  exact absurd hhdr (by decide)

/-! ### SHUTDOWN (R442): a far context returns its scratch in the place of MSTATE -/

/-- A SHUTDOWN of the admin queue with FORCE = 1, ready. -/
def forcedShutdown : Cmd :=
  { sqid := 0, tag := 7, sqhd := 1, nsid := 0, no := 1, phase := .ready, segs := [], data := [], due := 0, done := 0
    raw := (0x0D : Byte) :: List.replicate 32 0 ++ ((1 : Byte) :: List.replicate 94 0) }

/-- A resident context on reach 0, of a namespace beyond the last domain. -/
def farResident : Ctx :=
  { slot := 0, st := .resident, kind := 0, nsid := 2492417, rslot := 0, prio := 0, rills := 2, reaches := 1, group := 0, accMask := 0
    scratch := 1, die := 0, auto := false, kv4 := false, leader := 0xFFFF, arena := 0, arenaBytes := 0, kvOffset := 0, tokenBytes := 64
    segTokens := 1, imageId := 0, sourceId := 0, curImage := 0, tokens := 0, hold := false, block := 0, blockedSince := 0, readySince := 0
    residentSince := 0, lastStep := 0, faults := 0, launches := [], save := [], quotaRefused := false, entered := true, imgOp := 0, imgNo := 0
    imgFormat := 0, imgRelease := false, imgSource := 0, imgTokens := 0, imgId := 0, imgFetchAt := 0, imgDeadline := 0, imgExpired := false
    imgUnit := 0, imgUnits := 0, imgBytes := 0, imgSegs := 0, saving := false, forced := false, destroy := 0 }

/-- A running module with that context and that command. -/
def farResidentState : State :=
  { setF (setF State.reset 59 F.WEIR_STATUS_MSTATE 1) 56 F.DQP_STATUS_RDY 1 with
    sched := { ctxs := [farResident] }
    dqp := { cmds := [forcedShutdown] } }

/-- The context leaves its slots; the scratch in use of domain 2492416 has MSTATE's key, and MSTATE is one less than HALTING. -/
theorem farResidentState_mstate :
    getF (shutdown farResidentState ⟨0, 7, .none⟩ 0) 59 F.WEIR_STATUS_MSTATE = 1 := by decide +kernel

/-- Refutes O22: a forced SHUTDOWN returns the scratch of a resident context whose domain's HG_SCRATCH_USED has the key of
WEIR_STATUS.MSTATE, which then reads 1 and not 2. -/
theorem not_powerStatesAndShutdown : ¬ Obligations.PowerStatesAndShutdown := by
  unfold Obligations.PowerStatesAndShutdown
  rintro ⟨_, hshutdown, _⟩
  have hruns : Runs farResidentState ⟨0, 7, .none⟩ forcedShutdown 0x0D [(32, 1), (33, 1), (36, 4)] := by
    simp only [Runs]; decide +kernel
  have hrival : NoRival farResidentState := by simp only [NoRival]; decide +kernel
  have hhalt := (hshutdown farResidentState ⟨0, 7, .none⟩ forcedShutdown (by decide +kernel) hruns (by decide +kernel) hrival
    (by decide +kernel) (.inr (by decide +kernel))).1 (by decide +kernel)
  obtain ⟨t, ht, hmstate, _⟩ := hhalt
  have hstate : shutdown farResidentState ⟨0, 7, .none⟩ 0 = t := Host.Outcome.next.inj ht
  rw [← hstate, farResidentState_mstate] at hmstate
  exact absurd hmstate (by decide)

end Sys2Proof.Machine
end

section
/-!
PROOFS. Scope: the main link: what a quiet link does with nothing to send, the flits it sends, and its training, acknowledgements and
timers (R61, R62, R64, R66, R519, R522).
-/
namespace Sys2Proof.Machine

/-! ### Fields -/

theorem getF_addF_same {s : State} (hs : mSorted none s.regs = true) (isl : Nat) (f : Field) (n : Nat) :
    getF (addF s isl f n) isl f = min (getF s isl f + n) (2 ^ f.w - 1) := by
  have hpos : 0 < 2 ^ f.w := Nat.two_pow_pos f.w
  rw [addF, getF_setF_same hs, Nat.mod_eq_of_lt (by omega)]

theorem getF_addF_ne {s : State} (hs : mSorted none s.regs = true) (isl isl' : Nat) (f g : Field) (n : Nat)
    (hk : fieldKey isl' g 0 0 ≠ fieldKey isl f 0 0) : getF (addF s isl f n) isl' g = getF s isl' g :=
  getF_setF_ne hs _ _ _ _ _ _ _ _ _ hk

/-! ### A link with nothing to do -/

/-- An island whose counters do not run counts nothing (R476). -/
theorem countEv_off {s : State} {isl : Nat} (h : getF s isl F.CNT_CTRL_EN = 0) (code unit n slot : Nat) :
    countEv s isl code unit n slot = s := by
  simp only [countEv, countSrc, h, if_true]

/-- The same of a state with the same registers. -/
theorem countEv_off_of_regs {s t : State} {isl : Nat} (h : getF s isl F.CNT_CTRL_EN = 0) (hr : t.regs = s.regs) (code unit n slot : Nat) :
    countEv t isl code unit n slot = t :=
  countEv_off ((getF_congr hr ..).trans h) ..

theorem pump_noQueue {s : State} (h : s.link.queue = []) : pump s = s := by
  unfold pump
  cases s.link.queue.length + s.link.outbox.length with
  | zero => rfl
  | succ n => simp only [pumpLink, h]

theorem drainAll_noWaiting {s : State} (h : ∀ c ∈ s.dqp.cqs, c.waiting = []) : drainAll s = s := by
  have hfold (l : List Cq) (hl : ∀ c ∈ l, c.waiting = []) : l.foldl (fun s c => drainCq c.qid c.waiting.length s) s = s := by
    induction l with
    | nil => rfl
    | cons c l ih =>
      rw [List.forall_mem_cons] at hl
      rw [List.foldl_cons, hl.1]
      exact ih hl.2
  exact hfold s.dqp.cqs h

theorem drainRx_none {s : State} (h : s.link.rxBuf = []) (n : Nat) : drainRx n s = s := by
  cases n with
  | zero => rfl
  | succ n => simp only [drainRx, h]

/-- Nothing is queued, no completion waits and no flit's work waits. -/
structure Settled (s : State) : Prop where
  queue : s.link.queue = []
  rxBuf : s.link.rxBuf = []
  waiting : ∀ c ∈ s.dqp.cqs, c.waiting = []

theorem Settled.of_eq {s t : State} (h : Settled s) (hq : t.link.queue = s.link.queue) (hr : t.link.rxBuf = s.link.rxBuf)
    (hc : t.dqp.cqs = s.dqp.cqs) : Settled t :=
  ⟨hq.trans h.queue, hr.trans h.rxBuf, by rw [hc]; exact h.waiting⟩

theorem settleLink_settled {s : State} (h : Settled s) : settleLink s = s := by
  simp only [settleLink, pump_noQueue h.queue, drainAll_noWaiting h.waiting, drainRx_none h.rxBuf]

/-- So settles a state with the same queue, the same waiting work and the same completion queues. -/
theorem settleLink_like {s : State} (h : Settled s) (t : State) (hq : t.link.queue = s.link.queue) (hr : t.link.rxBuf = s.link.rxBuf)
    (hc : t.dqp.cqs = s.dqp.cqs) : settleLink t = t :=
  settleLink_settled (h.of_eq hq hr hc)

theorem QuietLink.settled {s : State} (h : QuietLink s) : Settled s := by
  obtain ⟨_, hq, _, hr, hw, _⟩ := h
  exact ⟨hq, hr, hw⟩

theorem QuietLink.open {s : State} (h : QuietLink s) : linkOpen s = true := h.1

theorem QuietLink.notCounting {s : State} (h : QuietLink s) : getF s 56 F.CNT_CTRL_EN = 0 := by
  obtain ⟨_, _, _, _, _, hc⟩ := h
  exact hc

/-! ### Flits sent (R519) -/

/-- An unsequenced flit goes out as it is; the counts last told are brought up to date. -/
theorem sendBare_sends {s t : State} (hc : getF s 56 F.CNT_CTRL_EN = 0) (hr : t.regs = s.regs) (ty : Nat) (hdr : List Byte) :
    sendBare t ty hdr =
      { t with
        link := { t.link with ackSent := ackNow t.link, freedSent := t.link.freed }
        out := t.out ++ [.flit (⟨ty, 0, hdr, [], (t.link.txSeq + 4095) % 4096, ackNow t.link, t.link.freed, true⟩ : Flit).wire] } := by
  simp only [sendBare, emit, stamp]
  split
  · rfl
  · rw [countEv_off_of_regs hc (by exact hr)]

/-- A replay sends the flits again with the present ACK and freed count, and changes only which of these the partner was last told. -/
theorem replay_sends {s : State} (hc : getF s 56 F.CNT_CTRL_EN = 0) (l : List Flit) :
    replay s l =
      { s with
        link := if l.isEmpty then s.link else { s.link with ackSent := ackNow s.link, freedSent := s.link.freed }
        out := s.out ++ l.map (fun f => Output.flit (stamp s.link f).wire) } := by
  have hfold : ∀ (l : List Flit) (o : List Output),
      l.foldl (fun s f => countEv (emit s (.flit (stamp s.link f).wire)) 56 0x61 0 1) { s with out := o }
        = { s with out := o ++ l.map (fun f => Output.flit (stamp s.link f).wire) } := by
    intro l
    induction l with
    | nil => intro o; simp
    | cons f l ih =>
      intro o
      rw [List.foldl_cons, countEv_off_of_regs hc (by rfl)]
      exact (ih _).trans (by simp)
  have hs := hfold l s.out
  unfold replay
  dsimp only
  rw [hs]
  split <;> rfl

/-! ### What flits of the partner say of the link (R66, R519) -/

theorem takeBack_eq (s : State) (ack credit : Nat) : takeBack s ack credit = { s with link := acked s.link ack credit } := rfl

section Quiet
variable {s : State} (h : QuietLink s)
include h

/-- What an IDLE changes of the link is settled. -/
theorem settleLink_counts (held : List Flit) (credits k : Nat) :
    settleLink { s with link := { s.link with held := held, credits := credits, k := k } }
      = { s with link := { s.link with held := held, credits := credits, k := k } } :=
  settleLink_like h.settled _ rfl rfl rfl

theorem exec_idle (ack : Nat) {x : Nat} (hx : x < 2 ^ 32) : exec (.idle ack x) s = .next
    { s with link := { s.link with held := releaseTo s.link.held ack, credits := s.link.credits + (x + 2 ^ 32 - s.link.k) % 2 ^ 32, k := x } } := by
  show execIdle ack x s = _
  simp only [execIdle, h.open, Bool.true_eq_false, if_false, Nat.mod_eq_of_lt hx, updLink,
    settleLink_counts h]

theorem exec_init_first (ack credit : Nat) {x : Nat} (hx : x < 2 ^ 16) (hi : s.link.hostInit = false) : exec (.init ack credit x) s = .next
    { s with link := acked { s.link with hostInit := true, credits := x, k := 0 } ack credit } := by
  show execInit ack credit x s = _
  have hx' : x % 65536 = x := Nat.mod_eq_of_lt hx
  simp only [execInit, h.open, Bool.true_eq_false, if_false, countEv_off h.notCounting, hi, Bool.false_eq_true, hx']
  exact congrArg _ (settleLink_like h.settled
    { s with link := acked { s.link with hostInit := true, credits := x, k := 0 } ack credit } rfl rfl rfl)

theorem exec_init_again (ack credit x : Nat) (hi : s.link.hostInit = true) :
    exec (.init ack credit x) s = .next (badType { s with link := acked s.link ack credit }) := by
  show execInit ack credit x s = _
  simp only [execInit, h.open, Bool.true_eq_false, if_false, countEv_off h.notCounting, hi, if_true]
  exact congrArg _ (settleLink_like h.settled (badType { s with link := acked s.link ack credit }) rfl rfl rfl)

/-- A NAK takes back ACK and CREDIT, then replays from the flit it names, or does nothing with the next number to send. -/
theorem exec_nak (ack credit x : Nat) : exec (.nak ack credit x) s = .next
    (let t := { s with link := acked s.link ack credit }
     settleLink (if t.link.held.any (fun f => f.seq == x) then replay t (t.link.held.dropWhile (fun f => f.seq != x))
      else if x = t.link.txSeq then t else badType t)) := by
  have hc : getF { s with link := acked s.link ack credit } 56 F.CNT_CTRL_EN = 0 := h.notCounting
  show execNak ack credit x s = _
  simp only [execNak, h.open, Bool.true_eq_false, if_false, takeBack_eq, countEv_off hc]

theorem nak_replays (ack credit x : Nat) (hx : (acked s.link ack credit).held.any (fun f => f.seq == x) = true) :
    Gives (.nak ack credit x) s fun t =>
      t.out = s.out ++ ((acked s.link ack credit).held.dropWhile (fun f => f.seq != x)).map
          (fun f => Output.flit { f with ack := ackNow (acked s.link ack credit), freed := (acked s.link ack credit).freed : Flit }.wire)
        ∧ t.link.held = (acked s.link ack credit).held ∧ t.link.credits = (acked s.link ack credit).credits := by
  have hc : getF { s with link := acked s.link ack credit } 56 F.CNT_CTRL_EN = 0 := h.notCounting
  refine ⟨_, exec_nak h ack credit x, ?_⟩
  dsimp only
  have hquiet : Settled (replay { s with link := acked s.link ack credit }
      ((acked s.link ack credit).held.dropWhile (fun f => f.seq != x))) := by
    rw [replay_sends hc]
    refine h.settled.of_eq ?_ ?_ rfl <;> dsimp only <;> split <;> rfl
  rw [if_pos hx, settleLink_settled hquiet, replay_sends hc]
  refine ⟨rfl, ?_, ?_⟩ <;> dsimp only <;> split <;> rfl

theorem nak_ofNext (ack credit x : Nat) (hx : (acked s.link ack credit).held.any (fun f => f.seq == x) = false)
    (hn : x = (acked s.link ack credit).txSeq) : exec (.nak ack credit x) s = .next { s with link := acked s.link ack credit } := by
  rw [exec_nak h ack credit x]
  simp only [hx, Bool.false_eq_true, if_false, ← hn, if_true]
  exact congrArg _ (settleLink_like h.settled { s with link := acked s.link ack credit } rfl rfl rfl)

end Quiet

/-! ### A flit with a bad CRC (R66) -/

theorem sendNak_again {s : State} {c : Nat} (hn : s.link.lastNak = some (s.link.rxSeq, c)) (hc : cyc s 56 < c + 1024) : sendNak s = s := by
  simp only [sendNak, hn, beq_self_eq_true, hc, decide_true, Bool.and_self, if_true]

theorem sendNak_cases (s : State) : sendNak s = s ∨ sendNak s
    = sendBare (updLink s fun l => { l with lastNak := some (s.link.rxSeq, cyc s 56) }) 1 ([1, 0] ++ toBytes 2 s.link.rxSeq ++ [0, 0]) := by
  exact ite_eq_or_eq _ _ _

theorem sendNak_fresh {s : State} (hn : s.link.lastNak = none) : sendNak s
    = sendBare (updLink s fun l => { l with lastNak := some (s.link.rxSeq, cyc s 56) }) 1 ([1, 0] ++ toBytes 2 s.link.rxSeq ++ [0, 0]) := by
  simp only [sendNak, hn, Bool.false_eq_true, if_false]

/-- A NAK changes no register, and of the link neither what is held nor the counts. -/
theorem sendNak_keeps {s : State} (hc : getF s 56 F.CNT_CTRL_EN = 0) :
    (sendNak s).regs = s.regs ∧ (sendNak s).link.held = s.link.held ∧ (sendNak s).link.rxSeq = s.link.rxSeq
      ∧ (sendNak s).link.credits = s.link.credits ∧ (sendNak s).dqp = s.dqp := by
  obtain h | h := sendNak_cases s
  · rw [h]; exact ⟨rfl, rfl, rfl, rfl, rfl⟩
  · rw [h, sendBare_sends hc (by rfl)]; exact ⟨rfl, rfl, rfl, rfl, rfl⟩

theorem flitRejected_badCrc {s : State} {raw : List Byte} (hwf : State.wf s = true) (ho : linkOpen s = true) (hl : raw.length = 256)
    (hcrc : crc32c (raw.take 252) ≠ le raw 252 4) (hc : getF s 56 F.CNT_CTRL_EN = 0)
    (hlt : getF s 56 F.DQP_LINK_ERR_CRC_ERR < 2 ^ F.DQP_LINK_ERR_CRC_ERR.w - 1) :
    Gives (.flitRejected raw) s fun t =>
      getF t 56 F.DQP_LINK_ERR_CRC_ERR = getF s 56 F.DQP_LINK_ERR_CRC_ERR + 1
        ∧ t.link.held = s.link.held ∧ t.link.rxSeq = s.link.rxSeq ∧ t.link.credits = s.link.credits ∧ t.dqp = s.dqp
        ∧ (s.link.lastNak = none → ∃ g : Flit, t.out = s.out ++ [.flit g.wire] ∧ g.ty = 1 ∧ g.hdr = [1, 0] ++ toBytes 2 s.link.rxSeq ++ [0, 0])
        ∧ (∀ c, s.link.lastNak = some (s.link.rxSeq, c) → cyc s 56 < c + 1024 → t.out = s.out) := by
  obtain ⟨_, hregs, _⟩ := (State.wf_iff s).mp hwf
  have hexec : exec (.flitRejected raw) s = .next (sendNak (addF s 56 F.DQP_LINK_ERR_CRC_ERR 1)) := by
    show execFlitRejected raw s = _
    simp only [execFlitRejected, ho, hl, Bool.true_eq_false, ne_eq, not_true_eq_false, or_self, if_false, hcrc, not_false_eq_true, if_true]
  have hoff : getF (addF s 56 F.DQP_LINK_ERR_CRC_ERR 1) 56 F.CNT_CTRL_EN = 0 := (getF_addF_ne hregs _ _ _ _ _ (by decide)).trans hc
  obtain ⟨hkregs, hheld, hrx, hcredits, hdqp⟩ := sendNak_keeps hoff
  refine ⟨_, hexec, ?_, hheld, hrx, hcredits, hdqp, fun hn => ?_, fun c hn hcyc => ?_⟩
  · rw [getF_congr hkregs, getF_addF_same hregs, Nat.min_eq_left (by omega)]
  · rw [sendNak_fresh (by exact hn), sendBare_sends hoff (by rfl)]
    exact ⟨_, rfl, rfl, rfl⟩
  · rw [sendNak_again (by exact hn) (by exact hcyc)]
    rfl

/-! ### Training, timers and lanes (R61, R62, R66, R519) -/

section Training
variable {s : State} (hp : s.boot.powered = true) (hm : getF s 59 F.WEIR_STATUS_MSTATE = 1)
include hp hm

/-- A running module that is powered trains its links. -/
theorem training_allowed : ¬ ((!s.boot.powered) = true ∨ mstate s = 3 ∨ mstate s = 4 ∨ (s.boot.resetPin = true ∧ mstate s = 0)) := by
  simp [hp, mstate, hm]

theorem exec_linkTrained_sideband : exec (.linkTrained true) s = .next { s with link := { s.link with sbTrained := true } } := by
  show execLinkTrained true s = _
  simp only [execLinkTrained, training_allowed hp hm, if_false, if_true]
  rfl

theorem exec_linkTrained_main (hmod : s.link.modules ≠ 0) : exec (.linkTrained false) s = .next
    (if s.link.session then settleLink { s with link := { s.link with l0 := true } }
     else sendBare { s with link := { s.link with
        session := true, l0 := true, hostInit := false, txSeq := 0, rxSeq := 0, credits := 0, k := 0, freed := 0, ackSent := 4095
        freedSent := 0, held := [], rxBuf := [], lastNak := none } } 1 ([0, 0] ++ toBytes 2 256 ++ [0, 0])) := by
  show execLinkTrained false s = _
  have hstep : ¬ (s.link.modules = 0 ∨ (mstate s = 0 ∧ getF s 59 F.WEIR_STATUS_STEP < 4)) := by simp [hmod, mstate, hm]
  simp only [execLinkTrained, training_allowed hp hm, if_false, Bool.false_eq_true, hstep]
  rfl

end Training

theorem exec_replayTimeout {s : State} (ho : linkOpen s = true) : exec .replayTimeout s = .next (replay s s.link.held) := by
  show execReplayTimeout s = _
  simp only [execReplayTimeout, ho, Bool.true_eq_false, if_false]

theorem exec_idleDue {s : State} (ho : linkOpen s = true) :
    exec .idleDue s = .next (sendBare s 0 ([0, 0] ++ toBytes 4 s.link.freed)) := by
  show execIdleDue s = _
  simp only [execIdleDue, ho, Bool.true_eq_false, if_false]

theorem setBit_clear {v i : Nat} (h : v.testBit i = false) : setBit v i true = v + 2 ^ i := by
  simp only [setBit, h, Bool.false_eq_true, if_false, if_true]

theorem exec_laneRepair {s : State} {m : Nat} (hm : m < 4) (hl : s.link.lostModules.testBit m = false) (repaired : Bool) :
    exec (.laneRepair m repaired) s = .next
      (let lost := if repaired then s.link.lostModules else s.link.lostModules + 2 ^ m
       { s with link := { s.link with l0 := false, lostModules := lost, modules := 4 - popCount lost 4 } }) := by
  have hno : ¬ (4 ≤ m ∨ bit s.link.lostModules m = true) := by simp [bit, hl, hm]
  show execLaneRepair m repaired s = _
  simp only [execLaneRepair, hno, if_false, setBit_clear hl]
  rfl

/-- Settles O17: nothing waits on the links of the statement, so that a flit or a timer does its own work alone; a session begins with
its counts at their start. -/
theorem linkFlitsTrainingAndTimers : Obligations.LinkFlitsTrainingAndTimers := by
  unfold Obligations.LinkFlitsTrainingAndTimers
  refine ⟨fun s hp hm => ⟨⟨_, exec_linkTrained_sideband hp hm, rfl⟩, fun hmod hses hc => ⟨_, exec_linkTrained_main hp hm hmod, ?_⟩,
      fun hmod hses hq hr hw => ⟨_, exec_linkTrained_main hp hm hmod, ?_⟩⟩,
    fun s raw hwf ho hl hcrc hc hlt => flitRejected_badCrc hwf ho hl hcrc hc hlt,
    fun s ack credit x hwf hquiet => ⟨fun hx => ⟨_, exec_idle hquiet ack hx, rfl⟩,
      fun hi hx => ⟨_, exec_init_first hquiet ack credit hx hi, rfl⟩, fun hi => ⟨_, exec_init_again hquiet ack credit x hi, rfl, rfl, ?_⟩,
      nak_replays hquiet ack credit x, fun hx hn => ⟨_, nak_ofNext hquiet ack credit x hx hn, rfl⟩⟩,
    fun s m ho hc => ⟨⟨_, exec_replayTimeout ho, ?_⟩, ⟨_, exec_idleDue ho, ?_⟩,
      fun hm hl => ⟨⟨_, exec_laneRepair hm hl true, rfl, rfl⟩, ⟨_, exec_laneRepair hm hl false, rfl, rfl, rfl, rfl⟩⟩⟩⟩
  · have hhdr : ([0, 0] ++ toBytes 2 256 ++ [0, 0] : List Byte) = [0, 0, 0, 1, 0, 0] := by decide
    rw [hses, if_neg (by decide), hhdr, sendBare_sends hc (by rfl)]
    exact ⟨rfl, rfl, rfl, rfl, rfl, rfl, rfl, rfl, rfl, rfl, by simp [ackNow]⟩
  · rw [hses, if_pos rfl]
    exact settleLink_settled ⟨hq, hr, hw⟩
  · obtain ⟨_, hregs, _⟩ := (State.wf_iff s).mp hwf
    exact getF_addF_same (by exact hregs) 56 _ 1
  · rw [replay_sends hc]
    refine ⟨rfl, ?_, ?_, rfl⟩ <;> dsimp only <;> split <;> rfl
  · rw [sendBare_sends hc rfl]
    exact ⟨_, rfl, rfl, rfl, rfl, rfl, rfl⟩

end Sys2Proof.Machine
end

section
/-!
PROOFS. Scope: flits of the host that are taken in order on a quiet link (R64-R67, R71, R519, R522).
-/
namespace Sys2Proof.Machine

/-! ### A flit in order (R66) -/

/-- The link once a flit in order is taken: its ACK and CREDIT taken back, the next number expected, its buffer freed again. -/
def takenLink (l : Link) (h : FlitHdr) : Link :=
  { acked l h.ack h.credit with rxSeq := (l.rxSeq + 1) % 4096, rxBuf := [], freed := (l.freed + 1) % 2 ^ 32 }

theorem flitTest_inOrder {l : Link} (hr : l.rxBuf = []) : flitTest l l.rxSeq true = 5 := by
  have hbehind : (l.rxSeq + 4096 - l.rxSeq % 4096) % 4096 = 0 := by omega
  simp [flitTest, hbehind, hr]

/-- The work of the one flit that waits is done. -/
theorem settleLink_one {s : State} {f : HostFlit} (hqueue : s.link.queue = []) (houtbox : s.link.outbox = []) (hrx : s.link.rxBuf = [f])
    (hwait : ∀ c ∈ s.dqp.cqs, c.waiting = []) :
    settleLink s = drainRx 1 (doHostFlit (updLink s fun k => { k with rxBuf := [], freed := (k.freed + 1) % 2 ^ 32 }) f) := by
  have hroom : linkRoom s = true := by simp [linkRoom, hqueue, houtbox]
  have htwo : s.link.rxBuf.length + 1 = 1 + 1 := by rw [hrx]; rfl
  simp only [settleLink, pump_noQueue hqueue, drainAll_noWaiting hwait, htwo]
  rw [drainRx, hrx]
  simp only [hroom, if_true]

theorem countEv_off_link {s : State} {isl : Nat} (h : getF s isl F.CNT_CTRL_EN = 0) (l : Link) (code unit n slot : Nat) :
    countEv { s with link := l } isl code unit n slot = { s with link := l } :=
  countEv_off (s := { s with link := l }) h code unit n slot

section InOrder
variable {s : State} {h : FlitHdr} (hq : QuietLink s) (hseq : h.seq = s.link.rxSeq)
include hq hseq

/-- A well-formed flit in order is done at once. -/
theorem receive_inOrder (f : HostFlit) : receive s h true f = drainRx 1 (doHostFlit { s with link := takenLink s.link h } f) := by
  obtain ⟨hopen, hqueue, houtbox, hrx, hwait, hoff⟩ := hq
  have hcount : countEv (takeBack s h.ack h.credit) 56 0x60 0 1 = { s with link := acked s.link h.ack h.credit } := by
    rw [takeBack_eq, countEv_off_link hoff]
  have htest : flitTest (acked s.link h.ack h.credit) h.seq true = 5 := by
    rw [hseq]; exact flitTest_inOrder (l := acked s.link h.ack h.credit) hrx
  simp only [receive, hopen, Bool.true_eq_false, if_false, hcount, htest]
  rw [settleLink_one (f := f) (by simpa only [updLink, acked] using hqueue) (by simpa only [updLink, acked] using houtbox)
    (by simp only [updLink, acked, hrx, List.nil_append]) (by simpa only [updLink] using hwait)]
  simp only [updLink, takenLink, acked]

/-- The work leaves no other work behind it. -/
theorem receive_done {f : HostFlit} (hdone : (doHostFlit { s with link := takenLink s.link h } f).link.rxBuf = []) :
    receive s h true f = doHostFlit { s with link := takenLink s.link h } f := by
  rw [receive_inOrder hq hseq, drainRx_none hdone]

end InOrder

/-! ### Doorbells (R71) -/

theorem badDoorbell_frame (s : State) (qid kind : Nat) (bad : Bool) :
    (badDoorbell s qid kind bad).dqp = s.dqp ∧ (badDoorbell s qid kind bad).link = s.link := ⟨rfl, rfl⟩

theorem badDoorbell_fields {s : State} (hs : mSorted none s.regs = true) (qid kind : Nat) (bad : Bool) :
    getF (badDoorbell s qid kind bad) 56 F.DQP_STATUS_DB_ERR = 1 ∧ getF (badDoorbell s qid kind bad) 56 F.DQP_DB_ERR_QID = qid % 1024
      ∧ getF (badDoorbell s qid kind bad) 56 F.DQP_DB_ERR_KIND = kind % 2 := by
  have h1 := setF_regs_sorted hs 56 F.DQP_STATUS_DB_ERR 1 0 0
  have h2 := setF_regs_sorted h1 56 F.DQP_DB_ERR_QID (qid % 1024) 0 0
  have h3 := setF_regs_sorted h2 56 F.DQP_DB_ERR_KIND kind 0 0
  refine ⟨?_, ?_, ?_⟩
  · rw [badDoorbell, getF_setF_ne h3 _ _ _ _ _ _ _ _ _ (by decide), getF_setF_ne h2 _ _ _ _ _ _ _ _ _ (by decide),
      getF_setF_ne h1 _ _ _ _ _ _ _ _ _ (by decide), getF_setF_same hs]
    rfl
  · rw [badDoorbell, getF_setF_ne h3 _ _ _ _ _ _ _ _ _ (by decide), getF_setF_ne h2 _ _ _ _ _ _ _ _ _ (by decide), getF_setF_same h1]
    exact Nat.mod_mod _ 1024
  · rw [badDoorbell, getF_setF_ne h3 _ _ _ _ _ _ _ _ _ (by decide), getF_setF_same h2]
    rfl

section Ring
variable {s : State} {q v : Nat}

theorem ringEntry_sqTail {x : Sq} (hx : findSq s q = some x) (hv : v < x.entries) :
    ringEntry s ⟨q, 0, 0, v⟩ = updSq s q (fun q => { q with tail := v }) := by
  simp [ringEntry, hx, hv]

theorem ringEntry_badSq (h : findSq s q = none ∨ ∃ x, findSq s q = some x ∧ x.entries ≤ v) :
    ringEntry s ⟨q, 0, 0, v⟩ = badDoorbell s q 0 false := by
  obtain hnone | ⟨x, hx, hv⟩ := h
  · simp [ringEntry, hnone]
  · simp [ringEntry, hx, hv]

/-- The heads the device takes are those no further than its tail. -/
theorem ringEntry_cq {x : Cq} (hx : findCq s q = some x) :
    ringEntry s ⟨q, 1, 0, v⟩ =
      if x.entries ≤ v ∨ (x.tail + x.entries - x.head) % x.entries < (v + x.entries - x.head) % x.entries then badDoorbell s q 1 false
      else drainAll (updCq s q (fun q => { q with head := v })) := by
  have hmax (hv : ¬ x.entries ≤ v) : max x.entries 1 = x.entries := by omega
  simp only [ringEntry, hx, Nat.reduceLeDiff, ne_eq, not_true_eq_false, or_self, if_false, Nat.one_ne_zero]
  by_cases hv : x.entries ≤ v
  · simp only [hv, true_or, if_true]
  · simp only [hv, false_or, hmax hv]

theorem ringEntry_badCq (h : findCq s q = none ∨ ∃ x, findCq s q = some x
      ∧ (x.entries ≤ v ∨ (x.tail + x.entries - x.head) % x.entries < (v + x.entries - x.head) % x.entries)) :
    ringEntry s ⟨q, 1, 0, v⟩ = badDoorbell s q 1 false := by
  obtain hnone | ⟨x, hx, hv⟩ := h
  · simp [ringEntry, hnone]
  · rw [ringEntry_cq hx, if_pos hv]

theorem ringEntry_cqHead {x : Cq} (hx : findCq s q = some x) (hv : v < x.entries)
    (hle : (v + x.entries - x.head) % x.entries ≤ (x.tail + x.entries - x.head) % x.entries) (hw : ∀ c ∈ s.dqp.cqs, c.waiting = []) :
    ringEntry s ⟨q, 1, 0, v⟩ = updCq s q (fun q => { q with head := v }) := by
  rw [ringEntry_cq hx, if_neg (by omega)]
  refine drainAll_noWaiting fun c hc => ?_
  obtain ⟨y, hy, rfl⟩ := List.mem_map.mp hc
  have hyw := hw y hy
  split
  · exact hyw
  · exact hyw

end Ring

/-! ### A flit sent (R64, R519) -/

/-- A flit as it leaves: numbered, with the ACK and the freed count as they are. -/
def leavingFlit (l : Link) (ty len : Nat) (hdr body : List Byte) : Flit :=
  { ty := ty, len := len, hdr := hdr, body := body, seq := l.txSeq, ack := ackNow l, freed := l.freed, paid := true }

/-- The link once a flit has left. -/
def afterFlit (l : Link) (g : Flit) : Link :=
  { l with held := l.held ++ [g], txSeq := (l.txSeq + 1) % 4096, credits := l.credits - 1, ackSent := g.ack, freedSent := l.freed }

/-- Nothing is queued and the partner takes a flit at once. -/
structure CanLeave (l : Link) : Prop where
  sending : canSend l = true
  queue : l.queue = []
  outbox : l.outbox = []
  credit : 0 < l.credits
  place : l.held.length < 512

theorem pumpLink_one {s : State} {f : Flit} (hc : getF s 56 F.CNT_CTRL_EN = 0) (hs : canSend s.link = true) (hq : s.link.queue = [f])
    (ho : s.link.outbox = []) (hcr : 0 < s.link.credits) (hh : s.link.held.length < 512) :
    pumpLink 1 s =
      (let g := { stamp s.link f with seq := s.link.txSeq, paid := true }
       portBytes { s with
          link := { s.link with queue := [], outbox := [], held := s.link.held ++ [g], txSeq := (s.link.txSeq + 1) % 4096
                                credits := s.link.credits - 1, ackSent := g.ack, freedSent := s.link.freed }
          out := s.out ++ [.flit g.wire] } 56 1 (payload g.ty g.len)) := by
  simp only [pumpLink, hq, hs, hcr, hh, decide_true, Bool.and_self, if_true, ho, List.take_nil, List.drop_nil, List.append_nil]
  rw [countEv_off_of_regs hc (by rfl)]
  rfl

theorem sendFlit_leaves {s : State} (hc : getF s 56 F.CNT_CTRL_EN = 0) (hl : CanLeave s.link) (ty len : Nat) (hdr body : List Byte) :
    sendFlit s ty len hdr body =
      (let g := leavingFlit s.link ty len hdr body
       portBytes { s with link := afterFlit s.link g, out := s.out ++ [.flit g.wire] } 56 1 (payload ty len)) := by
  obtain ⟨hsend, hqueue, houtbox, hcredit, hplace⟩ := hl
  have hroom : linkRoom s = true := by simp [linkRoom, hqueue, houtbox]
  have hjoin : sendFlit s ty len hdr body = pumpLink 1 { s with link := { s.link with queue := [⟨ty, len, hdr, body, 0, 0, 0, false⟩] } } := by
    simp only [sendFlit, hroom, if_true, updLink, pump, hqueue, houtbox, List.nil_append, List.length_singleton, List.length_nil, Nat.add_zero]
  rw [hjoin, pumpLink_one (s := { s with link := { s.link with queue := [⟨ty, len, hdr, body, 0, 0, 0, false⟩] } }) hc hsend rfl houtbox
    hcredit hplace]
  simp only [stamp, leavingFlit, afterFlit, hqueue, houtbox, ackNow]

/-! ### The flits of the statement -/

theorem takenLink_keeps {l : Link} {h : FlitHdr} (hany : l.held.any (fun f => f.seq == h.ack) = false) (hcr : h.credit % 256 = l.k % 256) :
    (takenLink l h).held = l.held ∧ (takenLink l h).credits = l.credits := by
  have hheld : releaseTo l.held h.ack = l.held := by simp only [releaseTo, hany, Bool.false_eq_true, if_false]
  have hnone : (h.credit % 256 + 256 - l.k % 256) % 256 = 0 := by omega
  simp only [takenLink, acked, hheld, hnone, Nat.add_zero, and_self]

section Doorbell
variable {s : State} {h : FlitHdr} (hq : QuietLink s) (hseq : h.seq = s.link.rxSeq)
include hq hseq

theorem exec_doorbell {e : DbEntry} (hl : (ringEntry { s with link := takenLink s.link h } e).link = takenLink s.link h) :
    exec (.doorbell h [e]) s = .next (ringEntry { s with link := takenLink s.link h } e) := by
  have hdo : doHostFlit { s with link := takenLink s.link h } (.doorbell [e]) = ringEntry { s with link := takenLink s.link h } e := rfl
  show Host.Outcome.next (receive s h (rawFormOk 2 1) (.doorbell [e])) = _
  rw [show rawFormOk 2 1 = true from rfl, receive_done hq hseq (by rw [hdo, hl]; rfl), hdo]

end Doorbell

section DoorbellEntries
variable {s : State} {q v : Nat}

theorem ringEntry_sqTail_frame {x : Sq} (hx : findSq s q = some x) (hv : v < x.entries) (l : Link) :
    let t := ringEntry { s with link := l } ⟨q, 0, 0, v⟩
    t.link = l ∧ t.dqp = { s.dqp with sqs := s.dqp.sqs.map (fun y => if y.qid = q then { y with tail := v } else y) } ∧ t.regs = s.regs
      ∧ t.mem = s.mem := by
  dsimp only
  rw [ringEntry_sqTail (s := { s with link := l }) hx hv]
  exact ⟨rfl, rfl, rfl, rfl⟩

theorem ringEntry_cqHead_frame {x : Cq} (hx : findCq s q = some x) (hv : v < x.entries)
    (hle : (v + x.entries - x.head) % x.entries ≤ (x.tail + x.entries - x.head) % x.entries) (hw : ∀ c ∈ s.dqp.cqs, c.waiting = []) (l : Link) :
    let t := ringEntry { s with link := l } ⟨q, 1, 0, v⟩
    t.link = l ∧ t.dqp = { s.dqp with cqs := s.dqp.cqs.map (fun y => if y.qid = q then { y with head := v } else y) } ∧ t.regs = s.regs
      ∧ t.mem = s.mem := by
  dsimp only
  rw [ringEntry_cqHead (s := { s with link := l }) hx hv hle hw]
  exact ⟨rfl, rfl, rfl, rfl⟩

/-- An ignored entry of either kind is recorded. -/
theorem badDoorbell_gives (hs : mSorted none s.regs = true) {kind : Nat} (hk : kind < 2) {e : DbEntry}
    (he : ∀ l, ringEntry { s with link := l } e = badDoorbell { s with link := l } q kind false) (l : Link) :
    let t := ringEntry { s with link := l } e
    t.link = l ∧ t.dqp = s.dqp ∧ getF t 56 F.DQP_STATUS_DB_ERR = 1 ∧ getF t 56 F.DQP_DB_ERR_QID = q % 1024
      ∧ getF t 56 F.DQP_DB_ERR_KIND = kind := by
  obtain ⟨herr, hqid, hkind⟩ := badDoorbell_fields (s := { s with link := l }) hs q kind false
  obtain ⟨hdqp, hlink⟩ := badDoorbell_frame { s with link := l } q kind false
  dsimp only
  rw [he l]
  exact ⟨hlink, hdqp, herr, hqid, hkind.trans (Nat.mod_eq_of_lt hk)⟩

end DoorbellEntries

/-- Doorbells of one entry (R71). -/
theorem doorbells_served {s : State} {h : FlitHdr} (q v : Nat) (hwf : State.wf s = true) (hq : QuietLink s) (hseq : h.seq = s.link.rxSeq) :
    (∀ x, findSq s q = some x → v < x.entries →
      Gives (.doorbell h [⟨q, 0, 0, v⟩]) s fun t =>
        t.dqp = { s.dqp with sqs := s.dqp.sqs.map (fun y => if y.qid = q then { y with tail := v } else y) }
          ∧ t.link.rxSeq = (s.link.rxSeq + 1) % 4096 ∧ t.link.rxBuf = [] ∧ t.link.freed = (s.link.freed + 1) % 2 ^ 32
          ∧ t.regs = s.regs ∧ t.mem = s.mem)
    ∧ ((findSq s q = none ∨ ∃ x, findSq s q = some x ∧ x.entries ≤ v) →
      Gives (.doorbell h [⟨q, 0, 0, v⟩]) s fun t =>
        t.dqp = s.dqp ∧ getF t 56 F.DQP_STATUS_DB_ERR = 1 ∧ getF t 56 F.DQP_DB_ERR_QID = q % 1024 ∧ getF t 56 F.DQP_DB_ERR_KIND = 0
          ∧ t.link.rxSeq = (s.link.rxSeq + 1) % 4096)
    ∧ (∀ x, findCq s q = some x → v < x.entries → (v + x.entries - x.head) % x.entries ≤ (x.tail + x.entries - x.head) % x.entries →
      Gives (.doorbell h [⟨q, 1, 0, v⟩]) s fun t =>
        t.dqp = { s.dqp with cqs := s.dqp.cqs.map (fun y => if y.qid = q then { y with head := v } else y) }
          ∧ t.link.rxSeq = (s.link.rxSeq + 1) % 4096 ∧ t.regs = s.regs ∧ t.mem = s.mem)
    ∧ ((findCq s q = none ∨ ∃ x, findCq s q = some x
          ∧ (x.entries ≤ v ∨ (x.tail + x.entries - x.head) % x.entries < (v + x.entries - x.head) % x.entries)) →
      Gives (.doorbell h [⟨q, 1, 0, v⟩]) s fun t =>
        t.dqp = s.dqp ∧ getF t 56 F.DQP_STATUS_DB_ERR = 1 ∧ getF t 56 F.DQP_DB_ERR_QID = q % 1024 ∧ getF t 56 F.DQP_DB_ERR_KIND = 1
          ∧ t.link.rxSeq = (s.link.rxSeq + 1) % 4096) := by
  obtain ⟨_, hregs, _⟩ := (State.wf_iff s).mp hwf
  have hwait := hq.settled.waiting
  refine ⟨fun x hx hv => ?_, fun hbad => ?_, fun x hx hv hle => ?_, fun hbad => ?_⟩
  · obtain ⟨hl, hdqp, hr, hm⟩ := ringEntry_sqTail_frame hx hv (takenLink s.link h)
    exact ⟨_, exec_doorbell hq hseq hl, hdqp, by rw [hl]; rfl, by rw [hl]; rfl, by rw [hl]; rfl, hr, hm⟩
  · obtain ⟨hl, hdqp, herr, hqid, hkind⟩ :=
      badDoorbell_gives hregs (by decide) (fun l => ringEntry_badSq (s := { s with link := l }) hbad) (takenLink s.link h)
    exact ⟨_, exec_doorbell hq hseq hl, hdqp, herr, hqid, hkind, by rw [hl]; rfl⟩
  · obtain ⟨hl, hdqp, hr, hm⟩ := ringEntry_cqHead_frame hx hv hle hwait (takenLink s.link h)
    exact ⟨_, exec_doorbell hq hseq hl, hdqp, by rw [hl]; rfl, hr, hm⟩
  · obtain ⟨hl, hdqp, herr, hqid, hkind⟩ :=
      badDoorbell_gives hregs (by decide) (fun l => ringEntry_badCq (s := { s with link := l }) hbad) (takenLink s.link h)
    exact ⟨_, exec_doorbell hq hseq hl, hdqp, herr, hqid, hkind, by rw [hl]; rfl⟩

end Sys2Proof.Machine
end

section
/-!
PROOFS. Scope: register batches and pulled data that flits of the host bring (R9, R64, R65, R67).
-/
namespace Sys2Proof.Machine

/-! ### Register accesses of the host (R8, R9, R62) -/

section HostAccess
variable {s : State} {addr isl off : Nat} (ha : islandAt addr = some (isl, off)) (h4 : addr % 4 = 0) (ho : OpenTo s 0 isl)
include ha h4 ho

theorem regAccess_hostRead {r : Reg} {i j : Nat} (v : Nat) (hen : enabled s isl = true) (hr : findReg isl off = some (r, i, j)) :
    regAccess s false false addr v = (latchHi s 0 isl r i, 0, viewReg s 0 isl r i j) := by
  have hopen : (!s.boot.applied && !(isl == 59 || (!false && (isl == 56 || isl == 58)))) = false := openTo_test ho
  simp only [regAccess, ha, h4, hopen, ne_eq, not_true_eq_false, or_self, if_false, Bool.false_eq_true, readReg,
    answers_of_enabled off hen, Bool.not_true, hr, Bool.false_and]
  rfl

theorem regAccess_hostWrite {t : State} {v status : Nat} (hv : v < 2 ^ 32) (hw : writeReg s false isl off v = (t, status)) :
    regAccess s false true addr v = (t, status, 0) := by
  have hopen : (!s.boot.applied && !(isl == 59 || (!false && (isl == 56 || isl == 58)))) = false := openTo_test ho
  simp only [regAccess, ha, h4, hopen, ne_eq, not_true_eq_false, or_self, if_false, Bool.false_eq_true, if_true,
    Nat.mod_eq_of_lt hv, hw]

end HostAccess

/-- A register shows of the link only whether it is up. -/
theorem viewReg_link (s : State) (l : Link) (hup : (l.session && l.l0) = (s.link.session && s.link.l0)) (port isl : Nat) (r : Reg) (i j : Nat) :
    viewReg { s with link := l } port isl r i j = viewReg s port isl r i j := by
  have hview (f : Field) : viewF { s with link := l } isl f i j = viewF s isl f i j := by
    unfold viewF
    simp only [hup]
    rfl
  unfold viewReg
  simp only [hview]
  rfl

/-! ### Writes that leave the counters of island 56 stopped -/

/-- Every place of the register table lies within the layout's bounds, and no register but CNT_CTRL carries its number. -/
theorem allRegs_bounds : ∀ r ∈ allRegs, r.num < 512 ∧ (∀ f ∈ r.fields, f.lo < 32) ∧ ∀ p ∈ r.places, p.lo1 + p.n1 ≤ 2048 ∧ p.n2 ≤ 64 := by
  decide +kernel

theorem Place.find_bounds {p : Place} {k : Kind} {off i j : Nat} (h : p.find k off = some (i, j)) : i < p.lo1 + p.n1 ∧ j < p.n2 := by
  unfold Place.find at h
  dsimp only at h
  split_ifs at h with _ _ hb hb <;> obtain ⟨rfl, rfl⟩ := Prod.mk.inj (Option.some.inj h) <;> omega

theorem findReg_bounds {isl off i j : Nat} {r : Reg} (h : findReg isl off = some (r, i, j)) : i < 2048 ∧ j < 64 := by
  have hr := findReg_mem h
  obtain ⟨q, hq, hmap⟩ := List.mem_filterMap.mp (List.mem_of_mem_head? (Option.mem_def.mpr h))
  obtain ⟨x, hx, hxr⟩ := Option.map_eq_some_iff.mp hmap
  obtain ⟨rfl, rfl⟩ : q = r ∧ x = (i, j) := by simpa using hxr
  obtain ⟨p, hp, hfind⟩ := List.mem_filterMap.mp (List.mem_of_mem_head? (Option.mem_def.mpr hx))
  obtain ⟨h1, h2⟩ := (allRegs_bounds q hq).2.2 p hp
  obtain ⟨hi, hj⟩ := Place.find_bounds hfind
  omega

/-- A plain write of a register other than CNT_CTRL starts no counter. -/
theorem plainWrite_cntCtrl {s : State} (hs : mSorted none s.regs = true) {isl off i j : Nat} {r : Reg} (hr : findReg isl off = some (r, i, j))
    (hn : r.num ≠ R.CNT_CTRL.num) (v : Nat) : getF (plainWrite s isl r i j v) 56 F.CNT_CTRL_EN = getF s 56 F.CNT_CTRL_EN := by
  have hmem := findReg_mem hr
  obtain ⟨hnum, hlo, _⟩ := allRegs_bounds r hmem
  obtain ⟨hi, hj⟩ := findReg_bounds hr
  rw [plainWrite_eq]
  refine getF_of_mfind (foldl_storeField_other isl i j v hs fun f hf hkey => hn ?_)
  have hreg : f.reg = r.num := (allRegs_fields r hmem).2 f hf
  obtain ⟨_, heq, _⟩ := fieldKey_inj (by decide) (by omega) (by decide) hi (by decide) hj (by decide) (hlo f hf) hkey
  exact hreg.symm.trans heq.symm

/-! ### A batch of one entry (R65) -/

section RegReq
variable {s : State} {h : FlitHdr}

/-- The link can answer at once once the flit is taken. -/
theorem canLeave_takenLink (hq : QuietLink s) (hinit : s.link.hostInit = true) (hcr : 0 < s.link.credits) (hh : s.link.held.length < 512)
    (hany : s.link.held.any (fun f => f.seq == h.ack) = false) (hk : h.credit % 256 = s.link.k % 256) : CanLeave (takenLink s.link h) := by
  obtain ⟨hopen, hqueue, houtbox, _⟩ := hq
  obtain ⟨hheld, hcredits⟩ := takenLink_keeps hany hk
  simp only [linkOpen, Bool.and_eq_true] at hopen
  obtain ⟨⟨_, hses⟩, hl0⟩ := hopen
  refine ⟨?_, hqueue, houtbox, by rw [hcredits]; exact hcr, by rw [hheld]; exact hh⟩
  have hsame : canSend (takenLink s.link h) = canSend s.link := rfl
  rw [hsame, canSend, hses, hl0, hinit]
  rfl

/-- One entry is done and its 16 bytes of answer leave in a REG_RSP flit. -/
theorem exec_regReq (hq : QuietLink s) (hseq : h.seq = s.link.rxSeq) (hleave : CanLeave (takenLink s.link h)) {e : RegEntry} {u : State}
    {d : List Byte} (he : regEntry { s with link := takenLink s.link h } e = (u, d)) (hu : u.link = takenLink s.link h)
    (hc : getF u 56 F.CNT_CTRL_EN = 0) :
    exec (.regReq h [e]) s = .next (
      let g := leavingFlit (takenLink s.link h) 4 1 [0, 0, 0, 0, 0, 0] d
      portBytes { u with link := afterFlit (takenLink s.link h) g, out := u.out ++ [.flit g.wire] } 56 1 0) := by
  have hdo : doHostFlit { s with link := takenLink s.link h } (.regReq [e]) = sendFlit u 4 1 [0, 0, 0, 0, 0, 0] d := by
    simp only [doHostFlit, regBatch, he, List.nil_append, List.length_singleton]
  have hsent := sendFlit_leaves hc (by rw [hu]; exact hleave) 4 1 [0, 0, 0, 0, 0, 0] d
  rw [hu] at hsent
  have hpay : payload 4 1 = 0 := rfl
  show Host.Outcome.next (receive s h (rawFormOk 3 1) (.regReq [e])) = _
  rw [show rawFormOk 3 1 = true from rfl, receive_done hq hseq (by rw [hdo, hsent]; rfl), hdo, hsent, hpay]

/-- What the batch leaves of the registers and the memories, and what it sends. -/
theorem regReq_gives (hq : QuietLink s) (hseq : h.seq = s.link.rxSeq) (hleave : CanLeave (takenLink s.link h)) {e : RegEntry} {u : State}
    {d : List Byte} (he : regEntry { s with link := takenLink s.link h } e = (u, d)) (hu : u.link = takenLink s.link h)
    (hc : getF u 56 F.CNT_CTRL_EN = 0) :
    Gives (.regReq h [e]) s fun t =>
      let g := leavingFlit (takenLink s.link h) 4 1 [0, 0, 0, 0, 0, 0] d
      t.regs = u.regs ∧ t.mem = u.mem ∧ t.link = afterFlit (takenLink s.link h) g ∧ t.out = u.out ++ [.flit g.wire] := by
  have hframe (l : Link) (o : List Output) : let t := portBytes { u with link := l, out := o } 56 1 0
      t.regs = u.regs ∧ t.mem = u.mem ∧ t.link = l ∧ t.out = o := ⟨rfl, rfl, rfl, rfl⟩
  exact ⟨_, exec_regReq hq hseq hleave he hu hc, hframe _ _⟩

variable (hq : QuietLink s) (hseq : h.seq = s.link.rxSeq) (hleave : CanLeave (takenLink s.link h))
include hq hseq hleave

/-- A reserved OP performs no access (R65). -/
theorem regReq_reserved (hheld : (takenLink s.link h).held = s.link.held) (hcr : (takenLink s.link h).credits = s.link.credits)
    (a : Nat) {op : Nat} (hop : 2 ≤ op) :
    Gives (.regReq h [⟨a, op, 0, 0⟩]) s fun t => ∃ g : Flit,
        t.out = s.out ++ [.flit g.wire] ∧ g.ty = 4 ∧ g.len = 1 ∧ g.seq = s.link.txSeq
          ∧ g.body = toBytes 8 a ++ toBytes 2 0x1002 ++ [0, 0] ++ toBytes 4 0
          ∧ t.regs = s.regs ∧ t.link.credits + 1 = s.link.credits ∧ t.link.held = s.link.held ++ [g] := by
  have he (l : Link) : regEntry { s with link := l } ⟨a, op, 0, 0⟩
      = ({ s with link := l }, toBytes 8 a ++ toBytes 2 0x1002 ++ [0, 0] ++ toBytes 4 0) := by
    simp only [regEntry, hop, true_or, if_true]
  obtain ⟨t, ht, hregs, _, hlink, hout⟩ := regReq_gives hq hseq hleave (he _) rfl hq.notCounting
  have hone : t.link.credits + 1 = (takenLink s.link h).credits := by
    rw [hlink]; exact Nat.sub_add_cancel hleave.credit
  refine ⟨t, ht, _, hout, rfl, rfl, rfl, rfl, hregs, hone.trans hcr, ?_⟩
  rw [hlink, ← hheld]
  rfl

section Access
variable {a isl off i j : Nat} {r : Reg} (ha : islandAt a = some (isl, off)) (h4 : a % 4 = 0) (hr : findReg isl off = some (r, i, j))
  (hreach : CanReach s 0 isl)
include ha h4 hr hreach

/-- A read entry is answered with what the register shows (R9). -/
theorem regReq_read (hpair : pairOf s isl r.num i = none) :
    Gives (.regReq h [⟨a, 0, 0, 0⟩]) s fun t => ∃ g : Flit,
        t.out = s.out ++ [.flit g.wire] ∧ g.ty = 4 ∧ g.len = 1
          ∧ g.body = toBytes 8 a ++ toBytes 2 0 ++ [0, 0] ++ toBytes 4 (viewReg s 0 isl r i j) ∧ t.regs = s.regs := by
  obtain ⟨_, hen, hopen⟩ := hreach
  have he (l : Link) (hup : (l.session && l.l0) = (s.link.session && s.link.l0)) : regEntry { s with link := l } ⟨a, 0, 0, 0⟩
      = ({ s with link := l }, toBytes 8 a ++ toBytes 2 0 ++ [0, 0] ++ toBytes 4 (viewReg s 0 isl r i j)) := by
    have hlatch : latchHi { s with link := l } 0 isl r i = { s with link := l } := by
      have hpair' : pairOf { s with link := l } isl r.num i = none := hpair
      simp only [latchHi, hpair']
    have hread := regAccess_hostRead (s := { s with link := l }) ha h4 hopen 0 hen hr
    rw [hlatch, viewReg_link s l hup] at hread
    simp [regEntry, hread]
  obtain ⟨t, ht, hregs, _, _, hout⟩ := regReq_gives hq hseq hleave (he _ rfl) rfl hq.notCounting
  exact ⟨t, ht, _, hout, rfl, rfl, rfl, hregs⟩

/-- A write entry of a plain register stores its fields and is answered with 0 (R9). -/
theorem regReq_write (hwf : State.wf s = true) {v : Nat} (hw : WordOk s 0 isl r i v) (hn : r.num ∉ specialRegs) :
    Gives (.regReq h [⟨a, 1, 0, v⟩]) s fun t =>
      (∀ f ∈ r.fields, ∀ b, b < f.w → (getF t isl f i j).testBit b = bitAfter f.acc (getF s isl f i j) (bits v f.lo f.w) b)
        ∧ RegsBut s t (r.fields.map (fun f => fieldKey isl f i j)) ∧ t.mem = s.mem
        ∧ ∃ g : Flit, t.out = s.out ++ [.flit g.wire] ∧ g.ty = 4 ∧ g.len = 1
            ∧ g.body = toBytes 8 a ++ toBytes 2 0 ++ [0, 0] ++ toBytes 4 0 := by
  obtain ⟨_, hen, hopen⟩ := hreach
  obtain ⟨hv, howner, hrw, hlegal, hfree⟩ := hw
  obtain ⟨_, hs, _⟩ := (State.wf_iff s).mp hwf
  have hframe (l : Link) : plainWrite { s with link := l } isl r i j v
      = { s with link := l, regs := (plainWrite { s with link := l } isl r i j v).regs } :=
    foldl_storeField_frame isl i j v { s with link := l } r.fields
  have he (l : Link) : regEntry { s with link := l } ⟨a, 1, 0, v⟩
      = (plainWrite { s with link := l } isl r i j v, toBytes 8 a ++ toBytes 2 0 ++ [0, 0] ++ toBytes 4 0) := by
    have hfree' : lkFree { s with link := l } isl r i = true := hfree
    have hwrite : writeReg { s with link := l } false isl off v = (plainWrite { s with link := l } isl r i j v, 0) := by
      rw [writeReg_legal (s := { s with link := l }) (answers_of_enabled off hen) hr howner hrw hlegal, hfree', writeEffect_plain hn]
      rfl
    have hacc := regAccess_hostWrite (s := { s with link := l }) ha h4 hopen hv hwrite
    simp [regEntry, hacc]
  have hcnt (l : Link) : getF (plainWrite { s with link := l } isl r i j v) 56 F.CNT_CTRL_EN = 0 :=
    (plainWrite_cntCtrl (s := { s with link := l }) hs hr (fun heq => hn (by rw [heq]; decide)) v).trans hq.notCounting
  have hbits (l : Link) (f : Field) (hf : f ∈ r.fields) (b : Nat) (hb : b < f.w) :
      (getF (plainWrite { s with link := l } isl r i j v) isl f i j).testBit b = bitAfter f.acc (getF s isl f i j) (bits v f.lo f.w) b :=
    foldl_storeField_bit (s := { s with link := l }) isl i j v hs (fieldKeys_distinct (findReg_mem hr) isl i j) hf hb
  have hother (l : Link) (k : Nat) (hk : k ∉ r.fields.map (fun f => fieldKey isl f i j)) :
      mfind (plainWrite { s with link := l } isl r i j v).regs k = mfind s.regs k :=
    foldl_storeField_other (s := { s with link := l }) isl i j v hs fun f hf heq => hk (heq ▸ List.mem_map_of_mem hf)
  obtain ⟨t, ht, hregs, hmem, _, hout⟩ := regReq_gives hq hseq hleave (he _) (by rw [hframe]) (hcnt _)
  rw [hframe] at hmem hout
  refine ⟨t, ht, fun f hf b hb => ?_, fun k hk => ?_, hmem, _, hout, rfl, rfl, rfl⟩
  · rw [getF_congr hregs, hbits _ f hf b hb]
  · rw [hregs, hother _ k hk]

end Access

end RegReq

/-! ### Pulled data (R67) -/

section Pull
variable {s : State} {off id : Nat} {d : List Byte} {p : Pull} (hp : s.dqp.pulls.find? (fun p => p.reqId == id) = some p)
include hp

theorem pullArrive_dropped (hoff : off ≠ p.got.length) : pullArrive s off id d = s := by
  simp only [pullArrive, hp, hoff, ne_eq, not_false_eq_true, true_or, if_true]

/-- Data at the request's next OFFSET is kept with it. -/
theorem pullArrive_kept (hoff : off = p.got.length) (hle : off + d.length ≤ p.bytes) :
    pullArrive s off id d
      = pullDone (updDqp s fun x => { x with pulls := x.pulls.map (fun q => if q.reqId = id then { q with got := q.got ++ d } else q) }) p.what := by
  have hno : ¬ (off ≠ p.got.length ∨ p.bytes < off + d.length) := by omega
  simp only [pullArrive, hp, hno, if_false]

/-- A request that is not whole waits for the rest. -/
theorem pullArrive_partial (hoff : off = p.got.length) (hlt : off + d.length < p.bytes) :
    pullArrive s off id d
      = updDqp s fun x => { x with pulls := x.pulls.map (fun q => if q.reqId = id then { q with got := q.got ++ d } else q) } := by
  have hid : p.reqId = id := by simpa using List.find?_some hp
  have hmem : { p with got := p.got ++ d }
      ∈ (s.dqp.pulls.map (fun q => if q.reqId = id then { q with got := q.got ++ d } else q)).filter (fun q => q.what == p.what) := by
    refine List.mem_filter.mpr ⟨List.mem_map.mpr ⟨p, List.mem_of_find?_eq_some hp, by rw [if_pos hid]⟩, by simp⟩
  have hshort : (p.got ++ d).length < p.bytes := by rw [List.length_append]; omega
  rw [pullArrive_kept hp hoff (by omega)]
  exact if_pos (.inr (List.any_eq_true.mpr ⟨_, hmem, by simpa using hshort⟩))

/-- The data of a command whose one request is whole is in hand. -/
theorem pullArrive_whole {no : Nat} (hoff : off = p.got.length) (hall : off + d.length = p.bytes) (hw : p.what = .data no)
    (hone : s.dqp.pulls.filter (fun q => q.what == p.what) = [p]) (huniq : ∀ q ∈ s.dqp.pulls, q.reqId = id → q = p) :
    pullArrive s off id d = { s with dqp := { s.dqp with
      pulls := s.dqp.pulls.filter (fun q => q.what != p.what)
      cmds := s.dqp.cmds.map (fun c => if c.no = no then { c with phase := .ready, data := p.got ++ d, due := 0 } else c) } } := by
  have hid : p.reqId = id := by simpa using List.find?_some hp
  have hwhat (g : PullFor → Bool) : (fun q : Pull => g q.what) ∘ (fun q : Pull => if q.reqId = id then { q with got := q.got ++ d } else q)
      = fun q => g q.what := by
    funext q
    by_cases hq : q.reqId = id <;> simp [hq]
  have hmine : (s.dqp.pulls.map (fun q => if q.reqId = id then { q with got := q.got ++ d } else q)).filter (fun q => q.what == p.what)
      = [{ p with got := p.got ++ d }] := by
    rw [List.filter_map, hwhat (· == p.what), hone, List.map_singleton, if_pos hid]
  have hrest : (s.dqp.pulls.map (fun q => if q.reqId = id then { q with got := q.got ++ d } else q)).filter (fun q => q.what != p.what)
      = s.dqp.pulls.filter (fun q => q.what != p.what) := by
    rw [List.filter_map, hwhat (· != p.what)]
    refine (List.map_congr_left fun q hq => ?_).trans (List.map_id' _)
    obtain ⟨hqm, hqw⟩ := List.mem_filter.mp hq
    refine if_neg fun hqid => ?_
    rw [huniq q hqm hqid] at hqw
    simp at hqw
  have hlen : ¬ (p.got ++ d).length < p.bytes := by rw [List.length_append]; omega
  rw [pullArrive_kept hp hoff hall.le]
  simp only [pullDone, updDqp, hmine, hrest]
  rw [if_neg (by simpa using hlen), hw]
  simp only [updCmd, updDqp, List.map_cons, List.map_nil, List.flatten_cons, List.flatten_nil, List.append_nil]

end Pull

section PullData
variable {s : State} {h : FlitHdr} {off id : Nat} {d : List Byte} (hq : QuietLink s) (hseq : h.seq = s.link.rxSeq) (hpos : 0 < d.length)
  (hlen : d.length ≤ 240)
include hq hseq hpos hlen

/-- The data of the flit arrives, its bytes counted at the port. -/
theorem exec_pullData (hl : (pullArrive (portBytes { s with link := takenLink s.link h } 56 0 d.length) off id d).link = takenLink s.link h) :
    exec (.pullData h off id d) s = .next (pullArrive (portBytes { s with link := takenLink s.link h } 56 0 d.length) off id d) := by
  have hform : rawFormOk 6 d.length = true := by
    simp only [rawFormOk, Bool.and_eq_true, decide_eq_true_eq]
    omega
  show Host.Outcome.next (receive s h (rawFormOk 6 d.length) (.pullData off id d)) = _
  rw [hform, receive_done hq hseq (by rw [doHostFlit, hl]; rfl), doHostFlit]

/-- Where the data changes at most the DQP's state, so does the flit but for the link and the port's bytes. -/
theorem pullData_gives {dqp : Dqp}
    (h' : ∀ u : State, u.dqp = s.dqp → pullArrive u off id d = { u with dqp := dqp }) :
    Gives (.pullData h off id d) s fun t => t.dqp = dqp ∧ t.link.rxSeq = (s.link.rxSeq + 1) % 4096 ∧ t.regs = s.regs ∧ t.mem = s.mem := by
  have hframe (l : Link) : let t := pullArrive (portBytes { s with link := l } 56 0 d.length) off id d
      t.link = l ∧ t.dqp = dqp ∧ t.regs = s.regs ∧ t.mem = s.mem := by
    dsimp only
    rw [h' (portBytes { s with link := l } 56 0 d.length) rfl]
    exact ⟨rfl, rfl, rfl, rfl⟩
  obtain ⟨hl, hdqp, hregs, hmem⟩ := hframe (takenLink s.link h)
  exact ⟨_, exec_pullData hq hseq hpos hlen hl, hdqp, by rw [hl]; rfl, hregs, hmem⟩

end PullData

/-- Settles O16: a flit in order on a quiet link is done at once, so that a doorbell, a register entry or pulled data has its own
effect, and one answer leaves for a register entry. -/
theorem hostFlitsAreServed : Obligations.HostFlitsAreServed := by
  unfold Obligations.HostFlitsAreServed
  refine ⟨fun s h q v hwf hq hseq _ => doorbells_served q v hwf hq hseq,
    fun s h a op hwf hq hseq _ hinit hcr hh hany hk => ?_, fun s h off id d p _ hq hseq _ hpos hlen hp => ?_⟩
  · have hleave := canLeave_takenLink hq hinit hcr hh hany hk
    obtain ⟨hheld, hcredits⟩ := takenLink_keeps hany hk
    exact ⟨regReq_reserved hq hseq hleave hheld hcredits a,
      fun _ _ _ _ _ ha h4 hr hreach hpair => regReq_read hq hseq hleave ha h4 hr hreach hpair,
      fun _ _ _ _ _ _ ha h4 hr hreach hw hn => regReq_write hq hseq hleave ha h4 hr hreach hwf hw hn⟩
  · refine ⟨fun hoff hlt => ?_, fun no hoff hall hw hone huniq => ?_, fun hoff => ?_⟩
    · exact pullData_gives hq hseq hpos hlen fun u hu => by
        rw [pullArrive_partial (by rw [hu]; exact hp) hoff hlt, updDqp, hu]
    · exact pullData_gives hq hseq hpos hlen fun u hu => by
        rw [pullArrive_whole (by rw [hu]; exact hp) hoff hall hw (by rw [hu]; exact hone) (by rw [hu]; exact huniq), hu]
    · obtain ⟨t, ht, hdqp, hrx, _, _⟩ := pullData_gives (dqp := s.dqp) hq hseq hpos hlen fun u hu => by
        rw [pullArrive_dropped (by rw [hu]; exact hp) hoff, ← hu]
      exact ⟨t, ht, hdqp, hrx⟩

end Sys2Proof.Machine
end

section
/-!
PROOFS. Scope: what counting, sending and completing leave alone, and the run of a command that meets its checks (R72, R75, R76, R420,
R476, R519).
-/
namespace Sys2Proof.Machine

/-! ### Counting and sending (R476-R481, R519) -/

/-- At most registers, counters, the link and what the module has put out change. -/
def Sends (s t : State) : Prop := t = { s with regs := t.regs, counters := t.counters, link := t.link, out := t.out }

namespace Sends
variable {s t u : State}

theorem refl (s : State) : Sends s s := rfl

theorem eq (h : Sends s t) : t = { s with regs := t.regs, counters := t.counters, link := t.link, out := t.out } := h

theorem trans (h : Sends s t) (h' : Sends t u) : Sends s u :=
  Eq.trans h' (congrArg (fun x : State => { x with regs := u.regs, counters := u.counters, link := u.link, out := u.out }) h.eq)

theorem foldl {α : Type} {f : State → α → State} (h : ∀ s a, Sends s (f s a)) (l : List α) (s : State) : Sends s (l.foldl f s) := by
  induction l generalizing s with
  | nil => exact refl s
  | cons a l ih => exact (h s a).trans (ih (f s a))

theorem setF (s : State) (isl : Nat) (f : Field) (v i j : Nat) : Sends s (setF s isl f v i j) := rfl

theorem addF (s : State) (isl : Nat) (f : Field) (n i j : Nat) : Sends s (addF s isl f n i j) := rfl

theorem portBytes (s : State) (isl p n : Nat) : Sends s (portBytes s isl p n) := rfl

theorem dqp (h : Sends s t) : t.dqp = s.dqp := (congrArg State.dqp h.eq :)

theorem putWords (isl i : Nat) (l : List Byte) (s : State) : Sends s (putWords isl i l s) := by
  fun_induction Machine.putWords isl i l s with
  | case1 => exact refl _
  | case2 i b0 b1 b2 b3 l s ih => exact (setF s isl ..).trans ih
  | case3 => exact refl _

theorem writeSample (s : State) (isl : Nat) (r : List Byte) : Sends s (writeSample s isl r) := by
  unfold Machine.writeSample
  split
  · exact addF ..
  · extract_lets below _ armed head filled moved flit
    have harmed : Sends s armed := by
      unfold armed
      split <;> rfl
    have hmoved : Sends s moved := (harmed.trans (putWords isl _ r armed)).trans (setF ..)
    split
    · exact hmoved.trans rfl
    · exact hmoved

theorem cycleSamples (s : State) (isl k sh v m n : Nat) : Sends s (cycleSamples s isl k sh v m n) := by
  unfold Machine.cycleSamples
  extract_lets room taken
  have htaken : Sends s taken := foldl (fun t j => writeSample t isl _) _ s
  split
  · exact htaken.trans (addF ..)
  · exact htaken

theorem countOne (isl code unit slot n : Nat) (x : Source) (s : State) (k : Nat) : Sends s (countOne isl code unit slot n x s k) := by
  unfold Machine.countOne
  split
  case isFalse => exact refl s
  extract_lets v w _ counted saturated sh m missed
  have hsaturated : Sends s saturated := by
    unfold saturated
    split <;> rfl
  have hmissed : Sends saturated missed := by
    unfold missed
    split
    · exact refl saturated
    · exact addF ..
  split
  · split
    · exact hsaturated.trans (cycleSamples ..)
    · refine (hsaturated.trans hmissed).trans ?_
      split
      · exact addF ..
      · rfl
  · exact hsaturated

theorem countEv (s : State) (isl code unit n slot : Nat) : Sends s (countEv s isl code unit n slot) := by
  unfold Machine.countEv countSrc
  split
  · exact refl s
  · exact foldl (fun t k => countOne isl code unit slot n _ t k) _ s

theorem pumpLink (n : Nat) (s : State) : Sends s (pumpLink n s) := by
  induction n generalizing s with
  | zero => exact refl s
  | succ n ih =>
    unfold Machine.pumpLink
    dsimp only
    split
    · exact refl s
    · split
      · refine (Sends.trans ?_ (countEv _ 56 0x61 0 1 _)).trans ((portBytes _ 56 1 _).trans (ih _))
        rfl
      · exact refl s

theorem sendFlit (s : State) (ty len : Nat) (hdr body : List Byte) : Sends s (sendFlit s ty len hdr body) :=
  Sends.trans (t := updLink s _) rfl (pumpLink _ _)

theorem pushChunks (n : Nat) (s : State) (a : Nat) (l : List Byte) : Sends s (pushChunks n s a l) := by
  induction n generalizing s a l with
  | zero => exact refl s
  | succ n ih =>
    unfold Machine.pushChunks
    dsimp only
    split
    · exact refl s
    · exact (sendFlit ..).trans (ih ..)

theorem push (s : State) (a : Nat) (l : List Byte) : Sends s (push s a l) := pushChunks ..

theorem interrupt (s : State) (vec : Nat) : Sends s (interrupt s vec) := sendFlit ..

theorem pushBuf (l : List (Nat × Nat)) (off : Nat) (d : List Byte) (s : State) : Sends s (pushBuf l off d s) := by
  induction l generalizing off d s with
  | nil => exact refl s
  | cons x l ih =>
    obtain ⟨a, n⟩ := x
    unfold Machine.pushBuf
    dsimp only
    split
    · exact refl s
    · split
      · exact ih ..
      · exact (push ..).trans (ih ..)

theorem toHost (s : State) (c : Cmd) (d : List Byte) : Sends s (toHost s c d) := pushBuf ..

end Sends

/-! ### Completing (R72, R73, R76, R85) -/

/-- Besides what sending changes, at most the completion queues and the deferred entries do. -/
def Posts (s t : State) : Prop :=
  t = { s with
        regs := t.regs, counters := t.counters, link := t.link, out := t.out
        dqp := { s.dqp with cqs := t.dqp.cqs, deferred := t.dqp.deferred } }

namespace Posts
variable {s t u : State}

theorem refl (s : State) : Posts s s := rfl

theorem eq (h : Posts s t) : t =
    { s with
      regs := t.regs, counters := t.counters, link := t.link, out := t.out
      dqp := { s.dqp with cqs := t.dqp.cqs, deferred := t.dqp.deferred } } := h

theorem trans (h : Posts s t) (h' : Posts t u) : Posts s u :=
  Eq.trans h' (congrArg (fun x : State => { x with
    regs := u.regs, counters := u.counters, link := u.link, out := u.out
    dqp := { x.dqp with cqs := u.dqp.cqs, deferred := u.dqp.deferred } }) h.eq)

theorem of_sends (h : Sends s t) : Posts s t := by
  unfold Posts
  rw [h.dqp]
  exact h

theorem foldl {α : Type} {f : State → α → State} (h : ∀ s a, Posts s (f s a)) (l : List α) (s : State) : Posts s (l.foldl f s) := by
  induction l generalizing s with
  | nil => exact refl s
  | cons a l ih => exact (h s a).trans (ih (f s a))

theorem updCq (s : State) (q : Nat) (f : Cq → Cq) : Posts s (updCq s q f) := rfl

theorem signalCq (s : State) (q : Nat) : Posts s (signalCq s q) := by
  unfold Machine.signalCq
  split
  · exact refl s
  · split
    · exact refl s
    · split
      · exact (updCq s q _).trans (of_sends (Sends.interrupt ..))
      · exact refl s

theorem putEntry (s : State) (q : Nat) (e : Comp) : Posts s (putEntry s q e) := by
  unfold Machine.putEntry
  split
  · exact refl s
  · exact (of_sends ((Sends.countEv ..).trans (Sends.push ..))).trans ((updCq ..).trans (signalCq ..))

theorem postNow (s : State) (q : Nat) (e : Comp) : Posts s (postNow s q e) := by
  unfold Machine.postNow
  split
  · exact refl s
  · dsimp only
    split
    · refine (Posts.trans ?_ (foldl (fun s d => putEntry s q _) _ _)).trans (putEntry ..)
      rfl
    · exact putEntry ..

theorem drainCq (q n : Nat) (s : State) : Posts s (drainCq q n s) := by
  induction n generalizing s with
  | zero => exact refl s
  | succ n ih =>
    unfold Machine.drainCq
    split
    · exact refl s
    · split
      · exact refl s
      · split
        · exact ((updCq ..).trans (postNow ..)).trans (ih _)
        · exact refl s

theorem drainAll (s : State) : Posts s (drainAll s) := foldl (fun s (c : Cq) => drainCq c.qid c.waiting.length s) s.dqp.cqs s

theorem postComp (s : State) (q : Nat) (e : Comp) : Posts s (postComp s q e) := (updCq ..).trans (drainAll _)

theorem cmds (h : Posts s t) : t.dqp.cmds = s.dqp.cmds := (congrArg (fun x : State => x.dqp.cmds) h.eq :)

theorem sqs (h : Posts s t) : t.dqp.sqs = s.dqp.sqs := (congrArg (fun x : State => x.dqp.sqs) h.eq :)

end Posts

/-- Completing a command changes of the state outside the DQP what sending changes, and nothing else. -/
def Finishes (s t : State) : Prop := t = { s with regs := t.regs, counters := t.counters, link := t.link, out := t.out, dqp := t.dqp }

namespace Finishes
variable {s t u : State}

theorem refl (s : State) : Finishes s s := rfl

theorem eq (h : Finishes s t) : t = { s with regs := t.regs, counters := t.counters, link := t.link, out := t.out, dqp := t.dqp } := h

theorem trans (h : Finishes s t) (h' : Finishes t u) : Finishes s u :=
  Eq.trans h' (congrArg (fun x : State => { x with
    regs := u.regs, counters := u.counters, link := u.link, out := u.out, dqp := u.dqp }) h.eq)

theorem of_posts (h : Posts s t) : Finishes s t :=
  Eq.trans h.eq (congrArg (fun d : Dqp => { s with regs := t.regs, counters := t.counters, link := t.link, out := t.out, dqp := d })
    (congrArg State.dqp h.eq).symm)

theorem foldl {α : Type} {f : State → α → State} (h : ∀ s a, Finishes s (f s a)) (l : List α) (s : State) :
    Finishes s (l.foldl f s) := by
  induction l generalizing s with
  | nil => exact refl s
  | cons a l ih => exact (h s a).trans (ih (f s a))

theorem updDqp (s : State) (f : Dqp → Dqp) : Finishes s (updDqp s f) := rfl

theorem finishDeletes (s : State) : Finishes s (finishDeletes s) := by
  unfold Machine.finishDeletes
  split
  · exact refl s
  · exact (updDqp s _).trans (of_posts (Posts.postComp ..))

theorem complete (s : State) (no st r0 r1 detail : Nat) : Finishes s (complete s no st r0 r1 detail) := by
  unfold Machine.complete
  split
  · exact refl s
  · exact ((updDqp s _).trans (of_posts (Posts.postComp ..))).trans (finishDeletes _)

end Finishes

/-! ### The run of a command that meets its checks (R75, R420) -/

theorem cond_false {b : Bool} (h : b = false) (st : Nat) : cond b st = 0 := by rw [h]; rfl

/-- No condition met is status 0. -/
theorem firstOf_zeros {l : List Nat} (h : ∀ x ∈ l, x = 0) : firstOf l = 0 := by
  have hnone : l.filter (· != 0) = [] := List.filter_eq_nil_iff.mpr fun x hx => by simp [h x hx]
  rw [firstOf, hnone]
  rfl

section Run
variable {s : State} {id : CmdId} {c : Cmd} {op : Nat} {fields : List (Nat × Nat)} {sel : Cmd → Bool} {conds : Cmd → List Nat}
  {body : State → Cmd → State}

/-- A command that meets every check starts and has its effect. -/
theorem runCmd_runs (h : Runs s id c op fields) (hsel : sel c = true) (hconds : ∀ x ∈ conds c, x = 0) :
    runCmd s id sel fields conds body = body (markStarted s c.no) c := by
  obtain ⟨hsram, hid, hstart, _, hbase, hbytes⟩ := h
  have hzero : firstOf (baseConds c ++ [cond (!onlyBytes c fields) 0x1002] ++ conds c) = 0 := by
    refine firstOf_zeros fun x hx => ?_
    simp only [List.mem_append, List.mem_singleton] at hx
    obtain (hx | hx) | hx := hx
    · exact hbase x hx
    · rw [hx, hbytes]; rfl
    · exact hconds x hx
  have hmeets : sramMeets s id.sram = (s, false) := by rw [hsram]; rfl
  simp only [runCmd, hid, hstart, hsel, Bool.and_self, if_true, hzero, ne_eq, not_true_eq_false, if_false, hmeets, Bool.false_eq_true]

theorem Runs.opcode (h : Runs s id c op fields) : c.opcode = op := by
  obtain ⟨_, _, _, hop, _⟩ := h
  exact hop

theorem Runs.isOp (h : Runs s id c op fields) : isOp op c = true := by
  simp [Machine.isOp, h.opcode]

theorem Runs.mem (h : Runs s id c op fields) : c ∈ s.dqp.cmds := by
  obtain ⟨_, hid, _⟩ := h
  exact List.mem_of_find?_eq_some hid

end Run

end Sys2Proof.Machine
end

section
/-!
PROOFS. Scope: IDENTIFY, GET_LOG, the queue commands and the features (R70, R79, R80, R407).
-/
namespace Sys2Proof.Machine

section Gives
variable {s : State} {id : CmdId} {c : Cmd} {op : Nat} {fields : List (Nat × Nat)} {sel : Cmd → Bool} {conds : Cmd → List Nat}
  {body : State → Cmd → State} {i : Instr}

/-- A row that runs its command gives what its effect gives. -/
theorem Runs.gives (h : Runs s id c op fields) (hexec : exec i s = .next (runCmd s id sel fields conds body)) (hsel : sel c = true)
    (hconds : ∀ x ∈ conds c, x = 0) {P : State → Prop} (hP : P (body (markStarted s c.no) c)) : Gives i s P :=
  ⟨_, hexec.trans (congrArg _ (runCmd_runs h hsel hconds)), hP⟩

/-- An opcode that several rows share, with the selector of one. -/
theorem Runs.isOp_and (h : Runs s id c op fields) {b : Bool} (hb : b = true) : (Machine.isOp op c && b) = true := by
  rw [h.isOp, hb]; rfl

end Gives

section QueueCommands
variable {s : State} {id : CmdId} {c : Cmd}

theorem identify_answers (h : Runs s id c 0x00 []) (hbuf : 4096 ≤ c.bufBytes) :
    Gives (.identify id) s fun t => EndsIn t c 0 0 0 fun x =>
      x = toHost (markStarted s c.no) c
        (toBytes 4 (capFeature s) ++ toBytes 1 s.link.modules ++ toBytes 3 0
          ++ ((List.range 64).map (fun n => toBytes 8 (nsBlocks s (n + 1)))).flatten ++ List.replicate 3576 0) :=
  h.gives rfl h.isOp (by simp [roomFor, cond, hbuf]) ⟨_, rfl, rfl⟩

theorem getLog_answers (h : Runs s id c 0x05 [(32, 1), (40, 8)]) (hlog : c.b 32 1 = 1) (hoff : c.b 40 8 % 4 = 0) (hlen : c.bufBytes % 4 = 0)
    (hend : c.b 40 8 + c.bufBytes ≤ 49408) :
    Gives (.getLog id) s fun t => EndsIn t c 0 0 0 fun x =>
      x = toHost (markStarted s c.no) c (slice (healthLog (markStarted s c.no)) (c.b 40 8) c.bufBytes) :=
  h.gives rfl h.isOp (by simp [cond, hlog, hoff, hlen, hend]) ⟨_, rfl, rfl⟩

theorem createCq_adds (h : Runs s id c 0x03 [(32, 2), (36, 4), (40, 2), (42, 1), (44, 4)]) (hid : 1 ≤ c.b 32 2) (hid' : c.b 32 2 ≤ 1023)
    (hn : 2 ≤ c.b 36 4) (hn' : c.b 36 4 ≤ 4096) (hvec : c.b 40 2 ≤ 1023) (htime : c.b 44 4 ≤ 1500000) (hbase : c.b 16 8 % 4096 = 0)
    (hlist : c.isList = false) (hlen : c.b 24 4 = c.b 36 4 * 32) (hnew : findCq s (c.b 32 2) = none) :
    Gives (.createCq id) s fun t => EndsIn t c 0 0 0 fun x =>
      x = updDqp (markStarted s c.no) fun d =>
        { d with cqs := insCq d.cqs ⟨c.b 32 2, c.b 16 8, c.b 36 4, c.b 40 2, c.b 42 1, c.b 44 4, 0, 0, true, [], 0⟩ } :=
  h.gives rfl h.isOp (by simp [cond, Nat.not_lt.mpr hid', Nat.not_lt.mpr hn, Nat.not_lt.mpr hn', Nat.not_lt.mpr hvec,
    Nat.not_lt.mpr htime, hbase, hlist, hlen, hnew, Nat.one_le_iff_ne_zero.mp hid]) ⟨_, rfl, rfl⟩

theorem createSq_adds (h : Runs s id c 0x01 [(32, 2), (34, 2), (36, 4), (40, 1)]) (hid : 1 ≤ c.b 32 2) (hid' : c.b 32 2 ≤ 1023)
    (hn : 2 ≤ c.b 36 4) (hn' : c.b 36 4 ≤ 4096) (hprio : c.b 40 1 ≤ 3) (hbase : c.b 16 8 % 4096 = 0) (hlist : c.isList = false)
    (hlen : c.b 24 4 = c.b 36 4 * 128) (hcq : c.b 34 2 ≠ 0) (hcq' : (findCq s (c.b 34 2)).isSome = true) (hnew : findSq s (c.b 32 2) = none)
    (hdom : domExists s ((if c.b 4 4 = 0 then 1 else c.b 4 4) - 1) = true) :
    Gives (.createSq id) s fun t => EndsIn t c 0 0 0 fun x =>
      x = updDqp (markStarted s c.no) fun d =>
        { d with sqs := insSq d.sqs ⟨c.b 32 2, c.b 34 2, if c.b 4 4 = 0 then 1 else c.b 4 4, c.b 16 8, c.b 36 4, c.b 40 1, 0, 0⟩ } := by
  have hcqNone : (findCq s (c.b 34 2)).isNone = false := by rw [← Option.not_isSome, hcq']; rfl
  refine h.gives rfl h.isOp ?_ ⟨_, rfl, rfl⟩
  simp [cond, Nat.not_lt.mpr hid', Nat.not_lt.mpr hn, Nat.not_lt.mpr hn', Nat.not_lt.mpr hprio, hbase, hlist, hlen, hcq, hcqNone, hnew, hdom,
    Nat.one_le_iff_ne_zero.mp hid]

theorem deleteCq_removes (h : Runs s id c 0x04 [(32, 2)]) (hid : c.b 32 2 ≠ 0) (hcq : (findCq s (c.b 32 2)).isSome = true)
    (hfree : ∀ q ∈ s.dqp.sqs, q.cqid ≠ c.b 32 2) :
    Gives (.deleteCq id) s fun t => EndsIn t c 0 0 0 fun x =>
      x = updDqp (markStarted s c.no) fun d => { d with cqs := d.cqs.filter (fun q => q.qid != c.b 32 2) } := by
  have hcqNone : (findCq s (c.b 32 2)).isNone = false := by rw [← Option.not_isSome, hcq]; rfl
  have hany : s.dqp.sqs.any (fun q => q.cqid == c.b 32 2) = false := by simpa using hfree
  exact h.gives rfl h.isOp (by simp [cond, hid, hcqNone, hany]) ⟨_, rfl, rfl⟩

end QueueCommands

/-! ### DELETE_SQ (R70) -/

/-- A DELETE_SQ that has started and whose queue has no command left. -/
def deletable (s : State) (c : Cmd) : Bool := c.phase == .started && c.opcode == 2 && !s.dqp.cmds.any (fun x => x.sqid == c.b 32 2)

/-- Where one DELETE_SQ is due, its queue and the command go, and every other queue stays. -/
theorem finishDeletes_one {s : State} {c : Cmd} (hmem : c ∈ s.dqp.cmds) (hdue : deletable s c = true)
    (hone : ∀ x ∈ s.dqp.cmds, x.opcode = 2 → x = c) :
    (finishDeletes s).dqp.sqs = s.dqp.sqs.filter (fun x => x.qid != c.b 32 2)
      ∧ (finishDeletes s).dqp.cmds = s.dqp.cmds.filter (fun x => x.no != c.no) := by
  have hfound : s.dqp.cmds.find? (deletable s) = some c := by
    cases hf : s.dqp.cmds.find? (deletable s) with
    | none => exact absurd hdue (List.find?_eq_none.mp hf c hmem)
    | some x =>
      have hx := List.find?_some hf
      simp only [deletable, Bool.and_eq_true, beq_iff_eq] at hx
      obtain ⟨⟨_, hop⟩, _⟩ := hx
      rw [hone x (List.mem_of_find?_eq_some hf) hop]
  have hsame : s.dqp.cmds.find? (fun c => c.phase == .started && c.opcode == 2 && !s.dqp.cmds.any (fun x => x.sqid == c.b 32 2)) = some c := hfound
  simp only [finishDeletes, hsame]
  have hposts (u : State) (e : Comp) := Posts.postComp u 0 e
  exact ⟨(hposts _ _).sqs, (hposts _ _).cmds⟩

/-- The entries of a queue whose pulls are under way are dropped. -/
def dropEntryPulls (s : State) (q : Nat) : State :=
  updDqp s fun d => { d with pulls := d.pulls.filter (fun p => match p.what with | .entry n _ _ => n != q | _ => true) }

section DeleteSq
variable {s : State} {id : CmdId} {c : Cmd} (h : Runs s id c 0x02 [(32, 2)]) (hnone : ∀ x ∈ s.dqp.cmds, x.sqid ≠ c.b 32 2)
  (hone : ∀ x ∈ s.dqp.cmds, x.opcode = 2 → x = c)

/-- The commands once DELETE_SQ has started. -/
theorem started_cmds {x : Cmd} (hx : x ∈ (dropEntryPulls (markStarted s c.no) (c.b 32 2)).dqp.cmds) :
    ∃ y ∈ s.dqp.cmds, x = if y.no = c.no then { y with phase := .started } else y := by
  obtain ⟨y, hy, hyx⟩ := List.mem_map.mp hx
  exact ⟨y, hy, hyx.symm⟩

include hnone in
theorem started_cmds_elsewhere {x : Cmd} (hx : x ∈ (dropEntryPulls (markStarted s c.no) (c.b 32 2)).dqp.cmds) : x.sqid ≠ c.b 32 2 := by
  obtain ⟨y, hy, rfl⟩ := started_cmds hx
  have hys := hnone y hy
  split
  · exact hys
  · exact hys

include h hnone hone in
/-- No command of the queue is left, so that the started DELETE_SQ ends. -/
theorem finishDeletes_started :
    let u := dropEntryPulls (markStarted s c.no) (c.b 32 2)
    (finishDeletes u).dqp.sqs = u.dqp.sqs.filter (fun x => x.qid != c.b 32 2)
      ∧ (finishDeletes u).dqp.cmds = u.dqp.cmds.filter (fun x => x.no != c.no) := by
  have hmem : { c with phase := .started } ∈ (dropEntryPulls (markStarted s c.no) (c.b 32 2)).dqp.cmds :=
    List.mem_map.mpr ⟨c, h.mem, if_pos rfl⟩
  have hop : c.opcode = 2 := h.opcode
  have hany : (dropEntryPulls (markStarted s c.no) (c.b 32 2)).dqp.cmds.any (fun x => x.sqid == c.b 32 2) = false := by
    simpa using fun x hx => started_cmds_elsewhere hnone hx
  have hdue : deletable (dropEntryPulls (markStarted s c.no) (c.b 32 2)) { c with phase := .started } = true := by
    have hop' : ({ c with phase := .started } : Cmd).opcode = 2 := hop
    have hq : ({ c with phase := .started } : Cmd).b 32 2 = c.b 32 2 := rfl
    rw [deletable, hop', hq, hany]
    rfl
  refine finishDeletes_one (c := { c with phase := .started }) hmem hdue fun x hx hxop => ?_
  obtain ⟨y, hy, rfl⟩ := started_cmds hx
  have hyc : y = c := hone y hy (by split at hxop <;> exact hxop)
  rw [if_pos (by rw [hyc]), hyc]

include h hnone hone in
theorem deleteSq_removes (hid : c.b 32 2 ≠ 0) (hsq : (findSq s (c.b 32 2)).isSome = true) :
    Gives (.deleteSq id) s fun t => findSq t (c.b 32 2) = none ∧ (∀ q, q ≠ c.b 32 2 → findSq t q = findSq s q) ∧ findCmd t c.no = none := by
  have hsqNone : (findSq s (c.b 32 2)).isNone = false := by rw [← Option.not_isSome, hsq]; rfl
  have hunstarted : (dropEntryPulls (markStarted s c.no) (c.b 32 2)).dqp.cmds.filter (fun x => x.sqid == c.b 32 2 && x.phase != .started) = [] :=
    List.filter_eq_nil_iff.mpr fun x hx => by simp [started_cmds_elsewhere hnone hx]
  obtain ⟨hsqs, hcmds⟩ := finishDeletes_started h hnone hone
  have hexec : exec (.deleteSq id) s = .next (finishDeletes (dropEntryPulls (markStarted s c.no) (c.b 32 2))) := by
    show execDeleteSq id s = _
    rw [execDeleteSq, runCmd_runs h h.isOp (by simp [cond, hid, hsqNone])]
    exact congrArg (fun l => Host.Outcome.next (finishDeletes (l.foldl (fun s (x : Cmd) => complete s x.no 0x2005)
      (dropEntryPulls (markStarted s c.no) (c.b 32 2))))) hunstarted
  refine ⟨_, hexec, ?_, fun q hq => ?_, ?_⟩
  · rw [findSq, hsqs]
    exact List.find?_eq_none.mpr fun x hx => by simpa using (List.mem_filter.mp hx).2
  · rw [findSq, hsqs, List.find?_filter]
    refine congrArg (fun p => s.dqp.sqs.find? p) (funext fun x => ?_)
    by_cases hx : x.qid = q
    · simp [hx, hq]
    · simp [hx]
  · rw [findCmd, hcmds]
    exact List.find?_eq_none.mpr fun x hx => by simpa using (List.mem_filter.mp hx).2

end DeleteSq

/-! ### Features (R80) -/

section Features
variable {s : State} {id : CmdId} {c : Cmd} (hid : c.b 36 2 ≠ 0)
include hid

theorem getFeature_cq {q : Cq} (hq : findCq s (c.b 36 2) = some q) (h : Runs s id c 0x06 [(32, 1), (36, 2)]) (hsel : c.b 32 1 = 1) :
    Gives (.getFeatureCqInterrupt id) s fun t =>
      EndsIn t c 0 (q.vector + q.coalCount * 2 ^ 16 + q.coalTime * 2 ^ 32) 0 (JustStarted s c) := by
  refine h.gives rfl (h.isOp_and (by rw [hsel]; rfl)) ?_ ⟨markStarted s c.no, rfl, ?_⟩
  · simp [featureQ, cond, hid, hq]
  · have hq' : findCq (markStarted s c.no) (c.b 36 2) = some q := hq
    simp only [hq']

theorem getFeature_sq {q : Sq} (hq : findSq s (c.b 36 2) = some q) (h : Runs s id c 0x06 [(32, 1), (36, 2)]) (hsel : c.b 32 1 = 2) :
    Gives (.getFeatureSqClass id) s fun t => EndsIn t c 0 (q.prio + q.cqid * 2 ^ 16 + q.nsid * 2 ^ 32) 0 (JustStarted s c) := by
  refine h.gives rfl (h.isOp_and (by rw [hsel]; rfl)) ?_ ⟨markStarted s c.no, rfl, ?_⟩
  · simp [featureQ, cond, hid, hq]
  · have hq' : findSq (markStarted s c.no) (c.b 36 2) = some q := hq
    simp only [hq']

theorem setFeature_cq {q : Cq} (hq : findCq s (c.b 36 2) = some q) (h : Runs s id c 0x07 [(32, 1), (36, 2), (40, 2), (42, 1), (44, 4)])
    (hsel : c.b 32 1 = 1) (hvec : c.b 40 2 ≤ 1023) (htime : c.b 44 4 ≤ 1500000) :
    Gives (.setFeatureCqInterrupt id) s fun t => ∃ u, t = signalCq u (c.b 36 2) ∧ EndsIn u c 0 0 0 fun x =>
      x = updCq (markStarted s c.no) (c.b 36 2) (fun k => { k with vector := c.b 40 2, coalCount := c.b 42 1, coalTime := c.b 44 4 }) := by
  refine h.gives rfl (h.isOp_and (by rw [hsel]; rfl)) ?_ ⟨_, rfl, _, rfl, rfl⟩
  simp [featureQ, cond, hid, hq, Nat.not_lt.mpr hvec, Nat.not_lt.mpr htime]

theorem setFeature_sq {q : Sq} (hq : findSq s (c.b 36 2) = some q) (h : Runs s id c 0x07 [(32, 1), (36, 2), (40, 1)])
    (hsel : c.b 32 1 = 2) (hprio : c.b 40 1 ≤ 3) :
    Gives (.setFeatureSqClass id) s fun t => EndsIn t c 0 0 0 fun x =>
      x = updSq (markStarted s c.no) (c.b 36 2) (fun k => { k with prio := c.b 40 1 }) := by
  refine h.gives rfl (h.isOp_and (by rw [hsel]; rfl)) ?_ ⟨_, rfl, rfl⟩
  simp [featureQ, cond, hid, hq, Nat.not_lt.mpr hprio]

end Features

/-- Settles O20. -/
theorem queuesFeaturesAndLogs : Obligations.QueuesFeaturesAndLogs := by
  unfold Obligations.QueuesFeaturesAndLogs
  refine ⟨fun s id c => ⟨identify_answers, getLog_answers⟩,
    fun s id c => ⟨createCq_adds, createSq_adds, deleteCq_removes,
      fun h hid' hsq hnone hone => deleteSq_removes h hnone hone hid' hsq⟩,
    fun s id c hid => ⟨fun q hq => ⟨getFeature_cq hid hq, setFeature_cq hid hq⟩, fun q hq => ⟨getFeature_sq hid hq, setFeature_sq hid hq⟩⟩⟩

end Sys2Proof.Machine
end

section
/-!
PROOFS. Scope: READ, VERIFY and RAW_READ (R78, R373, R390).
-/
namespace Sys2Proof.Machine

/-! ### Bytes that pass a port (R261, R482) -/

namespace Metered
variable {s t u : State}

theorem refl (s : State) : Metered s s := rfl

theorem eq (h : Metered s t) : t = { s with flume := t.flume, counters := t.counters } := h

theorem trans (h : Metered s t) (h' : Metered t u) : Metered s u :=
  Eq.trans h' (congrArg (fun x : State => { x with flume := u.flume, counters := u.counters }) h.eq)

theorem foldl {α : Type} {f : State → α → State} (h : ∀ s a, Metered s (f s a)) (l : List α) (s : State) : Metered s (l.foldl f s) := by
  induction l generalizing s with
  | nil => exact refl s
  | cons a l ih => exact (h s a).trans (ih (f s a))

theorem putSluice (s : State) (isl p : Nat) (x : Sluice) : Metered s (putSluice s isl p x) := rfl

theorem portBytes (s : State) (isl p n : Nat) : Metered s (portBytes s isl p n) := rfl

theorem settleSluice (s : State) (isl p : Nat) : Metered s (settleSluice s isl p) := rfl

theorem meter (s : State) (isl p n : Nat) : Metered s (meter s isl p n) := by
  unfold Machine.meter
  split
  · exact refl s
  · split
    · exact portBytes ..
    · dsimp only
      split
      · exact (settleSluice s isl p).trans (putSluice ..)
      · exact (settleSluice s isl p).trans (putSluice ..)
      · exact ((settleSluice s isl p).trans (putSluice ..)).trans (portBytes ..)

theorem flashMoved (s : State) (p : Nat → Nat) (l : List (Nat × Nat × Nat)) : Metered s (flashMoved s p l) :=
  foldl (fun _ _ => meter ..) _ s

end Metered

/-! ### The command while it runs -/

/-- A command is found as it was changed. -/
theorem findCmd_updCmd {s : State} {no : Nat} {c : Cmd} (h : findCmd s no = some c) {f : Cmd → Cmd} (hf : ∀ x, (f x).no = x.no) :
    findCmd (updCmd s no f) no = some (f c) := by
  have hkept (x : Cmd) : (if x.no = no then f x else x : Cmd).no = x.no := by
    split
    · exact hf x
    · rfl
  have hno : (fun x : Cmd => x.no == no) ∘ (fun x : Cmd => if x.no = no then f x else x) = fun x => x.no == no :=
    funext fun x => by simp only [Function.comp, hkept]
  have hcno : c.no = no := by simpa using List.find?_some h
  show (s.dqp.cmds.map (fun x : Cmd => if x.no = no then f x else x)).find? (fun x => x.no == no) = _
  have h' : s.dqp.cmds.find? (fun x => x.no == no) = some c := h
  rw [List.find?_map, hno, h', Option.map_some, if_pos hcno]

/-- A started command is found as it is, in its new phase. -/
theorem findCmd_markStarted {s : State} {c : Cmd} (h : findCmd s c.no = some c) :
    findCmd (markStarted s c.no) c.no = some { c with phase := .started } := findCmd_updCmd h fun _ => rfl

/-- A range within its namespace meets the conditions of the storage commands. -/
theorem rangeConds_ok {s : State} {c : Cmd} {most : Nat} (h : RangeOk s c most) : ∀ x ∈ rangeConds s c most, x = 0 := by
  obtain ⟨hone, hmost, hcap, _⟩ := h
  simp [rangeConds, cond, Nat.not_lt.mpr hmost, Nat.not_lt.mpr hcap, Nat.one_le_iff_ne_zero.mp hone]

/-! ### READ and VERIFY (R78, R390) -/

/-- The two rows of a READ. -/
def readForms : List Form := [(Instr.read, 0x20, [(32, 12)]), (Instr.rRead, 0xC1, [(32, 96)])]

section Reads
variable {s : State} {id : CmdId} {c : Cmd}

/-- A READ that meets its checks starts its page reads. -/
theorem read_starts (hr : RangeOk s c 65536) {k : Form} (hk : k ∈ readForms) (h : Runs s id c k.2.1 k.2.2) (hbuf : c.bufBytes = 4096 * c.b 40 4) :
    c.opcode ≠ 0x25 ∧ exec (k.1 id) s = .next (startReads (markStarted s c.no) c) := by
  have hconds : ∀ x ∈ rangeConds s c 65536 ++ [cond (c.bufBytes != 4096 * c.b 40 4) 0x1003], x = 0 := by
    intro x hx
    obtain hx | hx := List.mem_append.mp hx
    · exact rangeConds_ok hr x hx
    · rw [List.mem_singleton.mp hx, hbuf]; simp [cond]
  have hop : c.opcode = k.2.1 := h.opcode
  simp only [readForms, List.mem_cons, List.not_mem_nil, or_false] at hk
  obtain rfl | rfl := hk
  · exact ⟨by rw [hop]; decide, congrArg Host.Outcome.next (runCmd_runs h h.isOp hconds)⟩
  · exact ⟨by rw [hop]; decide, congrArg Host.Outcome.next (runCmd_runs h h.isOp hconds)⟩

theorem verify_starts (hr : RangeOk s c 65536) (h : Runs s id c 0x25 [(32, 12)]) :
    c.opcode = 0x25 ∧ exec (.verify id) s = .next (startReads (markStarted s c.no) c) :=
  ⟨h.opcode, congrArg Host.Outcome.next (runCmd_runs h h.isOp (rangeConds_ok hr))⟩

/-- Nothing completes while a page read is outstanding. -/
theorem startReads_left (h : readsLeft (readsQueued s c) (.cmd c.no) = true) : startReads s c = readsQueued s c := by
  show finishReads (readsQueued s c) c.no = _
  unfold finishReads
  split
  · rfl
  · rw [if_pos h]

variable (hc : findCmd s c.no = some c) (hunits : stripeUnits s c.nsid (c.b 32 8) (c.b 40 4) = []) (hleft : readsLeft s (.cmd c.no) = false)
include hc hunits hleft

/-- With no unit in a stripe and no page read outstanding the command ends at once. -/
theorem startReads_ends : startReads (markStarted s c.no) c =
    if c.opcode = 0x25 then
      (match firstBad s c.nsid (c.b 32 8) (c.b 40 4) with
        | some b => complete (markStarted s c.no) c.no 0x3001 b
        | none => complete (markStarted s c.no) c.no 0)
    else if (firstBad s c.nsid (c.b 32 8) (c.b 40 4)).isSome then complete (markStarted s c.no) c.no 0x3001
    else complete (toHost (flashMoved (markStarted s c.no) (fun _ => 4) ((List.range (c.b 40 4)).map (fun i => (c.nsid, c.b 32 8 + i, 4096)))) c
      (hostBlocks s c.nsid (c.b 32 8) (c.b 40 4))) c.no 0 := by
  have hunits' : stripeUnits (markStarted s c.no) c.nsid (c.b 32 8) (c.b 40 4) = [] := hunits
  have hleft' : readsLeft (markStarted s c.no) (.cmd c.no) = false := hleft
  simp only [startReads, hunits', List.foldl_nil, finishReads, findCmd_markStarted hc, hleft', Bool.false_eq_true, if_false]
  rfl

theorem read_answers (hop : c.opcode ≠ 0x25) (hgood : firstBad s c.nsid (c.b 32 8) (c.b 40 4) = none) :
    EndsIn (startReads (markStarted s c.no) c) c 0 0 0 fun x =>
      ∃ y, Metered (markStarted s c.no) y ∧ x = toHost y c (hostBlocks s c.nsid (c.b 32 8) (c.b 40 4)) := by
  rw [startReads_ends hc hunits hleft, if_neg hop, hgood]
  exact ⟨_, ⟨_, Metered.flashMoved .., rfl⟩, rfl⟩

theorem read_fails (hop : c.opcode ≠ 0x25) {b : Nat} (hbad : firstBad s c.nsid (c.b 32 8) (c.b 40 4) = some b) :
    EndsIn (startReads (markStarted s c.no) c) c 0x3001 0 0 (JustStarted s c) := by
  rw [startReads_ends hc hunits hleft, if_neg hop, hbad]
  exact ⟨_, rfl, rfl⟩

theorem verify_passes (hop : c.opcode = 0x25) (hgood : firstBad s c.nsid (c.b 32 8) (c.b 40 4) = none) :
    EndsIn (startReads (markStarted s c.no) c) c 0 0 0 (JustStarted s c) := by
  rw [startReads_ends hc hunits hleft, if_pos hop, hgood]
  exact ⟨_, rfl, rfl⟩

theorem verify_reports (hop : c.opcode = 0x25) {b : Nat} (hbad : firstBad s c.nsid (c.b 32 8) (c.b 40 4) = some b) :
    EndsIn (startReads (markStarted s c.no) c) c 0x3001 b 0 (JustStarted s c) := by
  rw [startReads_ends hc hunits hleft, if_pos hop, hbad]
  exact ⟨_, rfl, rfl⟩

end Reads

/-! ### RAW_READ (R373) -/

theorem getDie_updDie_same {s : State} (h : mSorted none s.flash.dies = true) (c d : Nat) (f : Die → Die) :
    getDie (updDie s c d f) c d = f (getDie s c d) := mget_mset_same _ _ _ h

theorem getSet_updSet_same {s : State} (h : mSorted none s.flash.sets = true) (c d b : Nat) (f : PlaneSet → PlaneSet) :
    getSet (updSet s c d b f) c d b = f (getSet s c d b) := mget_mset_same _ _ _ h

section RawRead
variable {s : State} {id : CmdId} {c : Cmd}

/-- The read of the page joins the die's queue, and nothing else changes. -/
theorem queueRaw_queues (hs : FlashSorted s) (c : Cmd) : let t := queueRaw (markStarted s c.no) c
    (getDie t (rawPage c).chan (rawPage c).die).reads
        = (getDie s (rawPage c).chan (rawPage c).die).reads ++ [.read (rawPage c) (c.b 41 1) (.raw c.no)]
      ∧ t = { markStarted s c.no with flash := { s.flash with dies := t.flash.dies } } := by
  obtain ⟨_, _, _, _, hdies, _⟩ := hs
  refine ⟨?_, rfl⟩
  rw [queueRaw, getDie_updDie_same (s := markStarted s c.no) hdies]
  rfl

variable (h : Runs s id c 0x26 [(32, 10)])
include h

theorem rawReadCorrected_queues (hmode : c.b 40 1 = 0) (hcond : rawCond s c 16448 = 0) :
    exec (.rawReadCorrected id) s = .next (queueRaw (markStarted s c.no) c) :=
  congrArg Host.Outcome.next (runCmd_runs h (h.isOp_and (by rw [hmode]; rfl)) fun x hx => by
    rw [List.mem_singleton.mp hx, hmode]; exact hcond)

theorem rawReadStored_queues (hmode : c.b 40 1 = 1) (hcond : rawCond s c 18432 = 0) :
    exec (.rawReadStored id) s = .next (queueRaw (markStarted s c.no) c) :=
  congrArg Host.Outcome.next (runCmd_runs h (h.isOp_and (by rw [hmode]; rfl)) fun x hx => by
    rw [List.mem_singleton.mp hx, hmode]; exact hcond)

theorem rawReadEraseCount_answers (hs : FlashSorted s) (zeros : Nat) (hmode : c.b 40 1 = 2) (hcond : rawCond s c 8 = 0) :
    Gives (.rawReadEraseCount id zeros) s fun t => EndsIn t c 0 0 0 fun x => ∃ y,
      x = toHost y c (toBytes 4 (min zeros 147456) ++ [0, 0, 0, 0]) ∧ y.dqp = (markStarted s c.no).dqp
        ∧ (getSet y (rawPage c).chan (rawPage c).die (rawPage c).block).reads
          = (getSet s (rawPage c).chan (rawPage c).die (rawPage c).block).reads + 1 := by
  obtain ⟨_, _, _, _, _, hsets⟩ := hs
  refine ⟨_, congrArg Host.Outcome.next (runCmd_runs h (h.isOp_and (by rw [hmode]; rfl)) fun x hx => by
    rw [List.mem_singleton.mp hx, hmode]; exact hcond),
    _, ⟨updSet (markStarted s c.no) (rawPage c).chan (rawPage c).die (rawPage c).block (fun x => { x with reads := x.reads + 1 }),
      rfl, rfl, ?_⟩, rfl⟩
  rw [getSet_updSet_same (s := markStarted s c.no) hsets]
  rfl

end RawRead

/-- Settles O24: a range without page reads to wait for ends at once, with its blocks, or with the first bad one; a RAW_READ queues its
page's read or answers the count. -/
theorem readsAndRawReads : Obligations.ReadsAndRawReads := by
  unfold Obligations.ReadsAndRawReads
  refine ⟨fun s id c hc hr k hk => ⟨fun hleft => ⟨fun h hbuf => ?_, fun h => ?_⟩,
      fun hunits hleft => ⟨fun hgood => ⟨fun h hbuf => ?_, fun h => ?_⟩, fun b hbad => ⟨fun h hbuf => ?_, fun h => ?_⟩⟩⟩,
    fun s id c zeros hs h => ⟨fun hmode hcond => ⟨_, rawReadCorrected_queues h hmode hcond, queueRaw_queues hs c⟩,
      fun hmode hcond => ⟨_, rawReadStored_queues h hmode hcond, queueRaw_queues hs c⟩,
      fun hmode hcond => rawReadEraseCount_answers h hs zeros hmode hcond⟩⟩
  · obtain ⟨_, hexec⟩ := read_starts hr hk h hbuf
    rw [hexec, startReads_left hleft]
  · obtain ⟨_, hexec⟩ := verify_starts hr h
    rw [hexec, startReads_left hleft]
  · obtain ⟨hop, hexec⟩ := read_starts hr hk h hbuf
    exact ⟨_, hexec, read_answers hc hunits hleft hop hgood⟩
  · obtain ⟨hop, hexec⟩ := verify_starts hr h
    exact ⟨_, hexec, verify_passes hc hunits hleft hop hgood⟩
  · obtain ⟨hop, hexec⟩ := read_starts hr hk h hbuf
    exact ⟨_, hexec, read_fails hc hunits hleft hop hbad⟩
  · obtain ⟨hop, hexec⟩ := verify_starts hr h
    exact ⟨_, hexec, verify_reports hc hunits hleft hop hbad⟩

end Sys2Proof.Machine
end

section
/-!
PROOFS. Scope: R_IDENTIFY, R_EMBED and R_SEARCH (R93, R94, R97).
-/
namespace Sys2Proof.Machine

/-! ### What a command's start leaves of the registers of an embedding (R96) -/

theorem risalEntry_of_regs {s t : State} (h : t.regs = s.regs) : risalEntry t = risalEntry s := by
  simp only [risalEntry, getF_congr h]

theorem risalSlot_of_regs {s t : State} (h : t.regs = s.regs) : risalSlot t = risalSlot s := by
  simp only [risalSlot, getF_congr h]

theorem risalDest_of_regs {s t : State} (h : t.regs = s.regs) : risalDest t = risalDest s := by
  simp only [risalDest, getF_congr h]

theorem markStarted_regs (s : State) (no : Nat) : (markStarted s no).regs = s.regs := rfl

theorem risalCan_markStarted (s : State) (no : Nat) (c : Cmd) (t : Nat) : risalCan (markStarted s no) c t = risalCan s c t := by
  have hctx : risalCtx (markStarted s no) c = risalCtx s c := rfl
  have hmedia : hasMedia (markStarted s no) = hasMedia s := rfl
  have henabled (i : Nat) : enabled (markStarted s no) i = enabled s i := rfl
  simp only [risalCan, hctx, hmedia, henabled, risalEntry_of_regs (markStarted_regs s no)]

theorem risalStatus_markStarted (s : State) (no : Nat) : risalStatus (markStarted s no) = risalStatus s := by
  have hentry (d a : Nat) : entryOk (markStarted s no) d a = entryOk s d a := rfl
  have hrange (d a n : Nat) : stackRange (markStarted s no) d a n = stackRange s d a n := rfl
  have hregs := markStarted_regs s no
  simp only [risalStatus, hentry, hrange, risalEntry_of_regs hregs, risalSlot_of_regs hregs, risalDest_of_regs hregs, getF_congr hregs]

section Risal
variable {s : State} {id : CmdId} {c : Cmd}

theorem rIdentify_answers (h : Runs s id c 0xC0 [(32, 96)]) (hbuf : 4096 ≤ c.bufBytes) :
    Gives (.rIdentify id) s fun t => EndsIn t c 0 0 0 fun x =>
      x = toHost (markStarted s c.no) c (toBytes 4 s.boot.info.risalGib ++ toBytes 2 512 ++ toBytes 2 1024 ++ List.replicate 4088 0) :=
  h.gives rfl h.isOp (by simp [roomFor, cond, hbuf]) ⟨_, rfl, rfl⟩

/-! ### R_EMBED (R97) -/

/-- The one condition of R_EMBED: the object came by an R_WRITE, and the context and the entry are there (R97). -/
theorem rEmbed_runs {o : Obj} (h : Runs s id c 0xC5 [(32, 96)]) (ho : findObj s c.nsid (c.b 48 8) = some o) (hrisal : o.risal = true)
    (hctx : risalCtx s c = true) (hentry : risalEntry s ≠ 0) : exec (.rEmbed id) s = .next (risalEmbed (markStarted s c.no) c (c.b 48 8)) :=
  congrArg Host.Outcome.next (runCmd_runs h h.isOp (by simp [cond, ho, hrisal, hctx, hentry]))

/-- A command whose only condition met is the row's first. -/
theorem runCmd_rejected {sel : Cmd → Bool} {fields : List (Nat × Nat)} {op : Nat} {st : Nat} {conds : Cmd → List Nat}
    {body : State → Cmd → State} (h : Runs s id c op fields) (hsel : sel c = true) (hconds : conds c = [st]) (hst : st ≠ 0) :
    runCmd s id sel fields conds body = complete s c.no st := by
  obtain ⟨_, hid, hstart, _, hbase, hbytes⟩ := h
  have hnone : (baseConds c ++ [cond (!onlyBytes c fields) 0x1002]).filter (· != 0) = [] := by
    refine List.filter_eq_nil_iff.mpr fun x hx => ?_
    obtain hx | hx := List.mem_append.mp hx
    · simp [hbase x hx]
    · rw [List.mem_singleton.mp hx, hbytes]; simp [cond]
  have hfirst : firstOf (baseConds c ++ [cond (!onlyBytes c fields) 0x1002] ++ conds c) = st := by
    rw [firstOf, List.filter_append, hnone, hconds]
    simp [hst]
  simp only [runCmd, hid, hstart, hsel, Bool.and_self, if_true, hfirst, ne_eq, hst, not_false_eq_true]

theorem rEmbed_unknown {o : Obj} (h : Runs s id c 0xC5 [(32, 96)]) (ho : findObj s c.nsid (c.b 48 8) = some o) (hrisal : o.risal = false) :
    exec (.rEmbed id) s = .next (complete s c.no 0x1002) :=
  congrArg Host.Outcome.next (runCmd_rejected h h.isOp (st := 0x1002) (by simp [cond, ho, hrisal]) (by decide))

/-- What an embedding of a known object comes to. -/
theorem risalEmbed_eq {t : State} {obj : Nat} {o : Obj} (ho : findObj t c.nsid obj = some o) (hop : c.opcode = 0xC5) :
    risalEmbed t c obj =
      if risalCan t c o.mtype = false then complete t c.no 0
      else if o.quarantined then complete t c.no 0x3001
      else if risalStatus t ≠ 0 then complete t c.no (risalStatus t)
      else addDecode t (risalDecode t c o.mtype obj []) := by
  simp [risalEmbed, ho, embedFails, hop]

/-- R_EMBED of an object that an R_WRITE registered. -/
theorem rEmbed_embeds {o : Obj} (h : Runs s id c 0xC5 [(32, 96)]) (ho : findObj s c.nsid (c.b 48 8) = some o) (hrisal : o.risal = true)
    (hctx : risalCtx s c = true) (hentry : risalEntry s ≠ 0) :
    (risalCan s c o.mtype = true → o.quarantined = true → Gives (.rEmbed id) s fun t => EndsIn t c 0x3001 0 0 (JustStarted s c))
    ∧ (risalCan s c o.mtype = true → o.quarantined = false → risalStatus s = 0 → Gives (.rEmbed id) s fun t => ∃ d : Decode,
        t = { markStarted s c.no with media := { s.media with decodes := s.media.decodes ++ [d] } }
        ∧ d.no = c.no ∧ d.risal = true ∧ d.query = 0 ∧ d.obj = c.b 48 8 ∧ d.mtype = o.mtype ∧ d.ctx = c.b 8 4 ∧ d.entry = risalEntry s ∧ d.slot = risalSlot s
        ∧ d.dest = risalDest s ∧ d.first = 0 ∧ d.step = 1 ∧ d.frames = (if coded o.mtype then 1 else 0))
    ∧ (risalCan s c o.mtype = true → o.quarantined = false → risalStatus s ≠ 0 →
        Gives (.rEmbed id) s fun t => EndsIn t c (risalStatus s) 0 0 (JustStarted s c))
    ∧ (risalCan s c o.mtype = false → Gives (.rEmbed id) s fun t => EndsIn t c 0 0 0 (JustStarted s c)) := by
  have hexec := rEmbed_runs h ho hrisal hctx hentry
  have hembed := risalEmbed_eq (t := markStarted s c.no) ho h.opcode
  rw [risalCan_markStarted, risalStatus_markStarted] at hembed
  refine ⟨fun hcan hquar => ⟨_, hexec, ?_⟩, fun hcan hquar hzero => ⟨_, hexec, ?_⟩, fun hcan hquar hne => ⟨_, hexec, ?_⟩,
    fun hcan => ⟨_, hexec, ?_⟩⟩
  · rw [hembed, hcan, hquar]
    exact ⟨_, rfl, rfl⟩
  · rw [hembed, hcan, hquar, hzero]
    exact ⟨risalDecode (markStarted s c.no) c o.mtype (c.b 48 8) [], rfl, rfl, rfl, rfl, rfl, rfl, rfl, risalEntry_of_regs (markStarted_regs s c.no),
      risalSlot_of_regs (markStarted_regs s c.no), risalDest_of_regs (markStarted_regs s c.no), rfl, rfl, rfl⟩
  · rw [hembed, hcan, hquar, if_neg (by decide), if_neg (by decide), if_pos hne]
    exact ⟨_, rfl, rfl⟩
  · rw [hembed, hcan]
    exact ⟨_, rfl, rfl⟩

/-! ### R_SEARCH (R93, R94) -/

/-- SOURCE of an R_SEARCH, and the bytes of its content (R93). -/
def Cmd.source (c : Cmd) : Nat := bits (c.b 32 4) 4 2
def Cmd.contentBytes (c : Cmd) : Nat := if c.b 44 4 = 0 then c.bufBytes else c.b 44 4

/-- The query an R_SEARCH describes, without its codes. -/
def searchQuery (c : Cmd) : Query :=
  let k := if c.b 36 2 % 1024 = 0 then 1024 else c.b 36 2 % 1024
  { blankQuery with
    no := c.no, coll := 0, metric := if c.b 32 4 % 4 = 3 then 1 else c.b 32 4 % 4, k := k, depth := queryDepth k 4 (bit (c.b 32 4) 3) false
    filter := bit (c.b 32 4) 3, terms := if bit (c.b 32 4) 3 then [(0, 0, true, c.b 40 4, 0)] else [], ctx := c.b 8 4, risal := true }

/-- An empty answer to it. -/
def emptySearch (s : State) (c : Cmd) : State := emptyQuery s { searchQuery c with id := s.search.nextQuery }

/-- What R_SEARCH does with content (R97). -/
def searchContent (s : State) (c : Cmd) : State :=
  let type := getF s 56 F.RISAL_CTYPE_CTYPE
  if risalCan s c type = false then emptySearch s c
  else if risalStatus s ≠ 0 then complete s c.no (risalStatus s)
  else addDecode (addQuery s { searchQuery c with phase := .content, embedEntry := risalEntry s, embedAddr := risalSlot s })
    { risalDecode s c type 0 (c.data.take c.contentBytes) with query := s.search.nextQuery, risal := false }

theorem searchContent_markStarted (s : State) (c : Cmd) : searchContent (markStarted s c.no) c =
    if risalCan s c (getF s 56 F.RISAL_CTYPE_CTYPE) = false then emptySearch (markStarted s c.no) c
    else if risalStatus s ≠ 0 then complete (markStarted s c.no) c.no (risalStatus s)
    else addDecode
      (addQuery (markStarted s c.no)
        { searchQuery c with phase := .content, embedEntry := risalEntry (markStarted s c.no), embedAddr := risalSlot (markStarted s c.no) })
      { risalDecode (markStarted s c.no) c (getF (markStarted s c.no) 56 F.RISAL_CTYPE_CTYPE) 0 (c.data.take c.contentBytes) with
        query := s.search.nextQuery, risal := false } := by
  simp only [searchContent, getF_congr (markStarted_regs s c.no), risalCan_markStarted, risalStatus_markStarted]
  rfl

/-- The lengths that R_SEARCH asks for (R93). -/
def searchLengths (c : Cmd) : List Nat :=
  [cond (c.source % 3 == 0 && decide (c.bufBytes < 2048)) 0x1002,
    cond (c.source == 1 && (c.contentBytes == 0 || decide (2 ^ 24 < c.contentBytes))) 0x1002,
    roomFor c (max 32 (if c.source = 1 then c.contentBytes else 0))]

section Search
variable (h : Runs s id c 0xC6 [(32, 96)]) (hlen : ∀ x ∈ searchLengths c, x = 0)
include h hlen

theorem rSearch_codes {x : Coll} (hx : findColl s 0 = some x) (hsrc : c.source ≠ 1) (hsrc' : c.source ≠ 2) :
    exec (.rSearch id) s = .next (addQuery (markStarted s c.no) { searchQuery c with codes := x.encode (c.data.take 2048) }) := by
  have hx' : findColl (markStarted s c.no) 0 = some x := hx
  refine congrArg Host.Outcome.next ((runCmd_runs h h.isOp hlen).trans ?_)
  dsimp only
  rw [hx']
  dsimp only
  split
  · exact absurd ‹_› hsrc
  · exact absurd ‹_› hsrc'
  · rfl

theorem rSearch_object {x : Coll} (hx : findColl s 0 = some x) (hsrc : c.source = 2) {l : List Byte} (hl : lastCodes s (c.b 48 8) = some l) :
    exec (.rSearch id) s = .next (addQuery (markStarted s c.no) { searchQuery c with codes := l }) := by
  have hx' : findColl (markStarted s c.no) 0 = some x := hx
  have hl' : lastCodes (markStarted s c.no) (c.b 48 8) = some l := hl
  refine congrArg Host.Outcome.next ((runCmd_runs h h.isOp hlen).trans ?_)
  have hsrc' : bits (c.b 32 4) 4 2 = 2 := hsrc
  dsimp only
  rw [hx', hsrc', hl']
  rfl

theorem rSearch_noCodes (hsrc : c.source = 2) (hl : lastCodes s (c.b 48 8) = none) :
    exec (.rSearch id) s = .next (emptySearch (markStarted s c.no) c) := by
  have hl' : lastCodes (markStarted s c.no) (c.b 48 8) = none := hl
  refine congrArg Host.Outcome.next ((runCmd_runs h h.isOp hlen).trans ?_)
  have hsrc' : bits (c.b 32 4) 4 2 = 2 := hsrc
  dsimp only
  rw [hsrc', hl']
  split <;> rfl

theorem rSearch_content {x : Coll} (hx : findColl s 0 = some x) (hsrc : c.source = 1) :
    exec (.rSearch id) s = .next (searchContent (markStarted s c.no) c) := by
  have hx' : findColl (markStarted s c.no) 0 = some x := hx
  refine congrArg Host.Outcome.next ((runCmd_runs h h.isOp hlen).trans ?_)
  have hsrc' : bits (c.b 32 4) 4 2 = 1 := hsrc
  dsimp only
  rw [hx', hsrc']
  rfl

end Search

/-- An empty answer completes with status 1, and neither a collection nor memory changes (R94). -/
theorem emptySearch_ends (hc : findCmd s c.no = some c) :
    EndsIn (emptySearch (markStarted s c.no) c) c 1 0 0 fun x => x.search.colls = s.search.colls ∧ x.mem = s.mem := by
  have hfound : findCmd (markStarted s c.no) (searchQuery c).no = some { c with phase := .started } := findCmd_markStarted hc
  unfold emptySearch emptyQuery finishQuery
  dsimp only
  rw [hfound]
  dsimp only
  generalize htold : toHost (markStarted s c.no) _ _ = t
  have hsends : Sends (markStarted s c.no) t := htold ▸ Sends.toHost ..
  have hsearch : t.search = s.search := (congrArg State.search hsends.eq :)
  have hmem : t.mem = s.mem := (congrArg State.mem hsends.eq :)
  rw [List.take_nil, List.take_nil]
  refine ⟨_, ?_, rfl⟩
  exact ⟨(congrArg Search.colls hsearch :), hmem⟩

theorem Cmd.source_eq (c : Cmd) : c.source = c.b 32 4 / 16 % 4 := by
  simp only [Cmd.source, bits, Nat.shiftRight_eq_div_pow]
  rfl

theorem searchQuery_depth (c : Cmd) : (searchQuery c).depth = if bit (c.b 32 4) 3 then min ((searchQuery c).k * 4) 10000 else (searchQuery c).k := by
  show queryDepth _ 4 _ false = _
  rw [queryDepth, Bool.or_false]
  rfl

theorem searchLengths_ok (hbuf : 32 ≤ c.bufBytes) (hcodes : c.source % 3 = 0 → 2048 ≤ c.bufBytes)
    (hcontent : c.source = 1 → 1 ≤ c.contentBytes ∧ c.contentBytes ≤ 2 ^ 24 ∧ c.contentBytes ≤ c.bufBytes) : ∀ x ∈ searchLengths c, x = 0 := by
  by_cases hsrc : c.source = 1
  · obtain ⟨hone, hmost, hroom⟩ := hcontent hsrc
    simp [searchLengths, roomFor, cond, hsrc, hbuf, hroom, Nat.one_le_iff_ne_zero.mp hone]
    exact hmost
  · by_cases hzero : c.source % 3 = 0
    · simp [searchLengths, roomFor, cond, hsrc, hzero, hbuf, Nat.not_lt.mpr (hcodes hzero)]
    · simp [searchLengths, roomFor, cond, hsrc, hzero, hbuf]

end Risal

/-- Settles O49. -/
theorem risalCommandsAct : Obligations.RisalCommandsAct := by
  unfold Obligations.RisalCommandsAct
  intro s id c hc
  refine ⟨rIdentify_answers, fun o h ho => ⟨rEmbed_unknown h ho, rEmbed_embeds h ho⟩, fun h hbuf => ⟨?_, fun hsrc hl => ?_, ?_⟩⟩
  · rw [← Cmd.source_eq]
    intro x codes hx hsrc hcodes
    by_cases hobj : c.source = 2
    · have hlen := searchLengths_ok hbuf (by simp [hobj]) (by simp [hobj])
      exact ⟨_, rSearch_object h hlen hx hobj ((if_pos hobj).mp hcodes), _, rfl, rfl, rfl, rfl, searchQuery_depth c, rfl, rfl, rfl, rfl, rfl, rfl, rfl⟩
    · obtain ⟨hroom, rfl⟩ := (if_neg hobj).mp hcodes
      have hlen := searchLengths_ok hbuf (fun _ => hroom) fun hone => absurd hone hsrc
      exact ⟨_, rSearch_codes h hlen hx hsrc hobj, _, rfl, rfl, rfl, rfl, searchQuery_depth c, rfl, rfl, rfl, rfl, rfl, rfl, rfl⟩
  · rw [← Cmd.source_eq] at hsrc
    have hlen := searchLengths_ok hbuf (by simp [hsrc]) (by simp [hsrc])
    exact ⟨_, rSearch_noCodes h hlen hsrc hl, emptySearch_ends hc⟩
  · rw [← Cmd.source_eq]
    intro n type hcoll hsrc hn hone hmost
    obtain ⟨x, hx⟩ := Option.isSome_iff_exists.mp hcoll
    have hlen := searchLengths_ok hbuf (by simp [hsrc]) fun _ => ⟨hone, hmost, hn⟩
    have hexec := rSearch_content h hlen hx hsrc
    have heffect := searchContent_markStarted s c
    have hregs := markStarted_regs s c.no
    refine ⟨fun hcan => ⟨_, hexec, ?_⟩, fun hcan hne => ⟨_, hexec, ?_⟩, fun hcan hzero => ⟨_, hexec, ?_⟩⟩
    · rw [heffect, if_pos hcan]
      exact emptySearch_ends hc
    · rw [heffect, if_neg (ne_false_of_eq_true hcan), if_pos hne]
      exact ⟨_, rfl, rfl⟩
    · rw [heffect, if_neg (ne_false_of_eq_true hcan), if_neg (not_not_intro hzero)]
      exact ⟨_, _, rfl, rfl, rfl, rfl, rfl, risalEntry_of_regs hregs, risalSlot_of_regs hregs, rfl, rfl, rfl, (getF_congr hregs .. :), rfl,
        (risalDest_of_regs hregs :)⟩

end Sys2Proof.Machine
end

section
/-!
PROOFS. Scope: blocks in the write buffer: what taking one changes, and what reads back (R377, R383).
-/
namespace Sys2Proof.Machine

/-- Besides what counting changes, at most the flash state does. -/
def Buffers (s t : State) : Prop := t = { s with regs := t.regs, counters := t.counters, link := t.link, out := t.out, flash := t.flash }

namespace Buffers
variable {s t u : State}

theorem refl (s : State) : Buffers s s := rfl

theorem eq (h : Buffers s t) : t = { s with regs := t.regs, counters := t.counters, link := t.link, out := t.out, flash := t.flash } := h

theorem trans (h : Buffers s t) (h' : Buffers t u) : Buffers s u :=
  Eq.trans h' (congrArg (fun x : State => { x with regs := u.regs, counters := u.counters, link := u.link, out := u.out, flash := u.flash }) h.eq)

theorem of_sends (h : Sends s t) : Buffers s t :=
  Eq.trans h.eq (congrArg (fun f : Flash => { s with regs := t.regs, counters := t.counters, link := t.link, out := t.out, flash := f })
    (congrArg State.flash h.eq).symm)

theorem updFlash (s : State) (f : Flash → Flash) : Buffers s (updFlash s f) := rfl

theorem dqp (h : Buffers s t) : t.dqp = s.dqp := (congrArg State.dqp h.eq :)

theorem mem (h : Buffers s t) : t.mem = s.mem := (congrArg State.mem h.eq :)

end Buffers

/-! ### Taking a block (R383) -/

/-- A block put in a slot. -/
def putBlock (s : State) (space blk : Nat) (d : List Byte) (key : Nat) (x : Slot) : State :=
  let x := { x with mask := setBit x.mask (blk % 8) true, data := updAt x.data (blk % 8) (fun _ => d), lostMask := setBit x.lostMask (blk % 8) false }
  let s := updFlash s fun f => { f with
    slots := mins f.slots key x
    blocks := mins f.blocks (blockKey space blk) d
    lostBlocks := mdel f.lostBlocks (blockKey space blk) }
  setMap s (luaOf space (blk / 8)) (some (.slot (key / 2 ^ 20) (key % 2 ^ 20)))

/-- A block that is taken goes to the slot of its unit, or to a fresh one without writers. -/
theorem bufferBlock_puts {s t : State} {space blk : Nat} {d : List Byte} (h : bufferBlock s space blk d = some t) :
    ∃ u key x, Sends (disown s (luaOf space (blk / 8)) (blk % 8)) u ∧ t = putBlock u space blk d key x
      ∧ (x.writers = [] ∨ ∃ p ∈ u.flash.slots, p.2 = x) := by
  unfold bufferBlock at h
  dsimp only at h
  split at h
  case h_1 key x hopen =>
    cases h
    exact ⟨_, key, x, Sends.refl _, rfl, .inr ⟨_, List.mem_of_find?_eq_some hopen, rfl⟩⟩
  case h_2 =>
    split at h
    · cases h
    · cases h
      exact ⟨_, _, _, Sends.countEv .., rfl, .inl rfl⟩

/-- The maps of blocks and units have rising keys. -/
structure MapsSorted (s : State) : Prop where
  blocks : mSorted none s.flash.blocks = true
  lost : mSorted none s.flash.lostBlocks = true
  map : mSorted none s.flash.map = true

theorem FlashSorted.maps {s : State} (h : FlashSorted s) : MapsSorted s := by
  obtain ⟨hblocks, hlost, hmap, _⟩ := h
  exact ⟨hblocks, hlost, hmap⟩

/-- Every command that waits to see blocks on media is another. -/
def NoDurable (s : State) (no : Nat) : Prop := ∀ p ∈ s.flash.slots, ∀ w ∈ p.2.writers, w.no = no → w.fua = false

theorem durableLeft_eq_false {s : State} {no : Nat} : durableLeft s no = false ↔ NoDurable s no := by
  simp [durableLeft, NoDurable]

/-- What taking a block comes to. -/
structure Takes (s t : State) (space blk : Nat) (d : List Byte) : Prop where
  frame : Buffers s t
  blocks : t.flash.blocks = mins s.flash.blocks (blockKey space blk) d
  lost : t.flash.lostBlocks = mdel s.flash.lostBlocks (blockKey space blk)
  map : ∃ l, t.flash.map = mins s.flash.map (luaOf space (blk / 8)) l
  discards : t.flash.discards = s.flash.discards
  released : t.flash.released = s.flash.released

theorem bufferBlock_takes {s t : State} {space blk : Nat} {d : List Byte} (h : bufferBlock s space blk d = some t) : Takes s t space blk d := by
  obtain ⟨u, key, x, hsends, rfl, hx⟩ := bufferBlock_puts h
  have hflash : u.flash = (disown s (luaOf space (blk / 8)) (blk % 8)).flash := (congrArg State.flash hsends.eq :)
  have hframe : Buffers s u := Buffers.trans (t := disown s (luaOf space (blk / 8)) (blk % 8)) rfl (Buffers.of_sends hsends)
  refine ⟨hframe.trans rfl, (congrArg (fun f : Flash => mins f.blocks (blockKey space blk) d) hflash :),
    (congrArg (fun f : Flash => mdel f.lostBlocks (blockKey space blk)) hflash :),
    ⟨_, (congrArg (fun f : Flash => mins f.map (luaOf space (blk / 8)) _) hflash :)⟩,
    (congrArg Flash.discards hflash :), (congrArg Flash.released hflash :)⟩

/-- A block taken makes no command wait for media. -/
theorem bufferBlock_durable {s t : State} {space blk no : Nat} {d : List Byte} (h : bufferBlock s space blk d = some t) (hno : NoDurable s no) :
    NoDurable t no := by
  obtain ⟨u, key, x, hsends, rfl, hx⟩ := bufferBlock_puts h
  have hflash : u.flash = (disown s (luaOf space (blk / 8)) (blk % 8)).flash := (congrArg State.flash hsends.eq :)
  have hu : NoDurable u no := by
    unfold NoDurable
    rw [hflash]
    intro p hp w hw
    obtain ⟨q, hq, rfl⟩ := List.mem_map.mp hp
    split at hw
    · obtain ⟨v, hv, rfl⟩ := List.mem_map.mp (List.mem_filter.mp hw).1
      have hkept := hno q hq v hv
      split
      · exact hkept
      · exact hkept
    · exact hno q hq w hw
  intro p hp w hw
  obtain rfl | hp := mem_mins hp
  · obtain hnone | ⟨q, hq, rfl⟩ := hx
    · have hw' : w ∈ x.writers := hw
      rw [hnone] at hw'
      cases hw'
    · exact hu q hq w hw
  · exact hu p hp w hw

namespace Takes
variable {s t : State} {space blk : Nat} {d : List Byte} (h : Takes s t space blk d)
include h

theorem sorted (hs : MapsSorted s) : MapsSorted t := by
  obtain ⟨l, hmap⟩ := h.map
  refine ⟨?_, ?_, ?_⟩
  · rw [h.blocks]
    exact mSorted_mins d hs.blocks (by simp)
  · rw [h.lost]
    exact mSorted_mdel _ hs.lost
  · rw [hmap]
    exact mSorted_mins l hs.map (by simp)

/-- The block reads back. -/
theorem reads (hs : MapsSorted s) : rdBlock t space blk = some d := by
  rw [rdBlock, h.lost, h.blocks, mfind_mdel_same hs.lost, mfind_mins_same]
  rfl

/-- Every other block of its SPACE reads as before. -/
theorem reads_ne (hs : MapsSorted s) {b : Nat} (hb : b ≠ blk) : rdBlock t space b = rdBlock s space b := by
  have hkey : blockKey space b ≠ blockKey space blk := fun he => hb (Nat.add_left_cancel he)
  rw [rdBlock, h.lost, h.blocks, mfind_mdel_ne hkey hs.lost, mfind_mins_ne hkey d hs.blocks]
  rfl

end Takes

/-! ### The blocks of a WRITE (R383) -/

/-- The next block of a WRITE goes into the buffer and its command is noted in the slot; none while no slot is free. -/
def takeBlock (c : Cmd) (fua : Bool) (i : Nat) (s : State) : Option State :=
  let blk := c.b 32 8 + i
  (bufferBlock s c.nsid blk (slice c.data (4096 * i) 4096)).map fun s =>
    match openSlot s (luaOf c.nsid (blk / 8)) with
    | some (k, _) => updSlot s k (fun x => { x with writers := addWriter x.writers ⟨c.sqid, c.tag, c.nsid, 2 ^ (blk % 8), c.no, fua⟩ })
    | none => s

section Write
variable {c : Cmd} {fua : Bool}

theorem writeBlocks_stop {i : Nat} {s : State} (h : takeBlock c fua i s = none) (n : Nat) : writeBlocks c fua (n + 1) i s = (s, i) := by
  have hnone := Option.map_eq_none_iff.mp h
  simp only [writeBlocks, hnone]

theorem writeBlocks_goes {i : Nat} {s t : State} (h : takeBlock c fua i s = some t) (n : Nat) :
    writeBlocks c fua (n + 1) i s = writeBlocks c fua n (i + 1) t := by
  obtain ⟨u, hu, rfl⟩ := Option.map_eq_some_iff.mp h
  simp only [writeBlocks, hu] <;> rfl

theorem mem_addWriter {l : List Writer} {w v : Writer} (h : v ∈ addWriter l w) : v = w ∨ ∃ x ∈ l, x.no = v.no ∧ x.fua = v.fua := by
  unfold addWriter at h
  extract_lets kept at h
  have hkept : ∀ y ∈ kept, ∃ x ∈ l, x.no = y.no ∧ x.fua = y.fua := by
    intro y hy
    obtain ⟨x, hx, rfl⟩ := List.mem_map.mp (List.mem_filter.mp hy).1
    refine ⟨x, hx, ?_⟩
    split
    · exact ⟨rfl, rfl⟩
    · exact ⟨rfl, rfl⟩
  split at h
  · obtain ⟨y, hy, rfl⟩ := List.mem_map.mp h
    obtain ⟨x, hx, hsame⟩ := hkept y hy
    refine .inr ⟨x, hx, ?_⟩
    split
    · exact hsame
    · exact hsame
  · obtain hv | hv := List.mem_append.mp h
    · exact .inr (hkept v hv)
    · exact .inl (List.mem_singleton.mp hv)

theorem takeBlock_takes {i : Nat} {s t : State} (h : takeBlock c fua i s = some t) :
    Takes s t c.nsid (c.b 32 8 + i) (slice c.data (4096 * i) 4096) := by
  obtain ⟨u, hu, rfl⟩ := Option.map_eq_some_iff.mp h
  obtain ⟨hframe, hblocks, hlost, hmap, hdiscards, hreleased⟩ := bufferBlock_takes hu
  split
  · exact ⟨hframe.trans rfl, hblocks, hlost, hmap, hdiscards, hreleased⟩
  · exact ⟨hframe, hblocks, hlost, hmap, hdiscards, hreleased⟩

/-- Without FUA the command does not wait to see the block on media. -/
theorem takeBlock_durable {i : Nat} {s t : State} (h : takeBlock c false i s = some t) (hno : NoDurable s c.no) : NoDurable t c.no := by
  obtain ⟨u, hu, rfl⟩ := Option.map_eq_some_iff.mp h
  have hu' := bufferBlock_durable hu hno
  split
  · intro p hp w hw hwno
    obtain ⟨q, hq, rfl⟩ := List.mem_map.mp hp
    split at hw
    · obtain rfl | ⟨x, hx, hxno, hfua⟩ := mem_addWriter hw
      · rfl
      · exact hfua ▸ hu' q hq x hx (hxno.trans hwno)
    · exact hu' q hq w hw hwno
  · exact hu'

/-- A state that a run of `writeBlocks` leads to is reached block by block. -/
theorem writeBlocks_induction {P : Nat → State → Prop} (hP : ∀ i s t, takeBlock c fua i s = some t → P i s → P (i + 1) t) :
    ∀ n i s, P i s → P (writeBlocks c fua n i s).2 (writeBlocks c fua n i s).1
  | 0, i, s, h => h
  | n + 1, i, s, h => by
    cases ht : takeBlock c fua i s with
    | none => rwa [writeBlocks_stop ht]
    | some t =>
      rw [writeBlocks_goes ht]
      exact writeBlocks_induction hP n (i + 1) t (hP i s t ht h)

theorem writeBlocks_le (n i : Nat) (s : State) : (writeBlocks c fua n i s).2 ≤ i + n := by
  induction n generalizing i s with
  | zero => exact Nat.le_refl i
  | succ n ih =>
    cases ht : takeBlock c fua i s with
    | none =>
      rw [writeBlocks_stop ht]
      exact Nat.le_add_right i (n + 1)
    | some t =>
      rw [writeBlocks_goes ht]
      have hle := ih (i + 1) t
      omega

/-- What the blocks from `first` up to `i` have come to. -/
structure Written (c : Cmd) (s : State) (first i : Nat) (t : State) : Prop where
  sorted : MapsSorted t
  frame : Buffers s t
  le : first ≤ i
  reads : ∀ j, first ≤ j → j < i → rdBlock t c.nsid (c.b 32 8 + j) = some (slice c.data (4096 * j) 4096)
  others : ∀ b, b < c.b 32 8 + first ∨ c.b 32 8 + i ≤ b → rdBlock t c.nsid b = rdBlock s c.nsid b

theorem writeBlocks_written {s : State} (hs : MapsSorted s) (n i : Nat) :
    Written c s i (writeBlocks c fua n i s).2 (writeBlocks c fua n i s).1 := by
  refine writeBlocks_induction (fun j t u hu h => ?_) n i s
    ⟨hs, Buffers.refl s, Nat.le_refl i, fun j hj hj' => absurd hj (Nat.not_le.mpr hj'), fun b _ => rfl⟩
  have htakes := takeBlock_takes hu
  refine ⟨htakes.sorted h.sorted, h.frame.trans htakes.frame, Nat.le_succ_of_le h.le, fun k hk hk' => ?_, fun b hb => ?_⟩
  · obtain hlt | rfl := Nat.lt_succ_iff_lt_or_eq.mp hk'
    · rw [htakes.reads_ne h.sorted (by omega), h.reads k hk hlt]
    · exact htakes.reads h.sorted
  · have hle := h.le
    rw [htakes.reads_ne h.sorted (by omega), h.others b (by omega)]

theorem writeBlocks_durable {s : State} (h : NoDurable s c.no) (n i : Nat) : NoDurable (writeBlocks c false n i s).1 c.no :=
  writeBlocks_induction (P := fun _ t => NoDurable t c.no) (fun _ _ _ ht hno => takeBlock_durable ht hno) n i s h

/-- What is written does not depend on how far the command has come. -/
theorem writeBlocks_congr {c' : Cmd} (hc : ∃ p, c' = { c with phase := p }) (n i : Nat) (s : State) :
    writeBlocks c' fua n i s = writeBlocks c fua n i s := by
  obtain ⟨p, rfl⟩ := hc
  induction n generalizing i s with
  | zero => rfl
  | succ n ih =>
    have hsame : takeBlock { c with phase := p } fua i s = takeBlock c fua i s := rfl
    cases ht : takeBlock c fua i s with
    | none => rw [writeBlocks_stop ht, writeBlocks_stop (hsame.trans ht)]
    | some t => rw [writeBlocks_goes ht, writeBlocks_goes (hsame.trans ht), ih]

end Write

end Sys2Proof.Machine
end

section
/-!
PROOFS. Scope: WRITE and FLUSH (R78, R83, R95, R112, R120, R383).
-/
namespace Sys2Proof.Machine

/-! ### Completing a command, once -/

section Complete
variable {s : State} {no : Nat}

theorem complete_gone (h : findCmd s no = none) (st r0 r1 detail : Nat) : complete s no st r0 r1 detail = s := by
  simp only [complete, h]

theorem finishDeletes_cmds {x : Cmd} (h : x ∈ (finishDeletes s).dqp.cmds) : x ∈ s.dqp.cmds := by
  unfold finishDeletes at h
  split at h
  · exact h
  · rw [Posts.cmds (Posts.postComp ..)] at h
    exact (List.mem_filter.mp h).1

/-- A command that has completed is gone. -/
theorem findCmd_complete (s : State) (no st r0 r1 detail : Nat) : findCmd (complete s no st r0 r1 detail) no = none := by
  unfold complete
  split
  · assumption
  · refine List.find?_eq_none.mpr fun x hx => ?_
    have hx' := finishDeletes_cmds hx
    rw [Posts.cmds (Posts.postComp ..)] at hx'
    simpa using (List.mem_filter.mp hx').2

theorem updCmd_gone (h : findCmd s no = none) (f : Cmd → Cmd) : updCmd s no f = s := by
  have hsame : s.dqp.cmds.map (fun c => if c.no = no then f c else c) = s.dqp.cmds :=
    (List.map_congr_left fun c hc => if_neg (by simpa using List.find?_eq_none.mp h c hc)).trans (List.map_id' _)
  exact congrArg (fun l => { s with dqp := { s.dqp with cmds := l } }) hsame

end Complete

theorem findCmd_congr {s t : State} (h : t.dqp = s.dqp) (no : Nat) : findCmd t no = findCmd s no := by
  rw [findCmd, findCmd, h]

/-! ### Commands that wait for media (R78) -/

/-- What a command waits for is on media. -/
def durableReady (s : State) (c : Cmd) : Bool :=
  c.phase == .started && c.due == 0 && !durableLeft s c.no &&
    ((isWrite c.opcode && c.done == c.b 40 4) || c.opcode == 0x22 || c.opcode == 0xC3)

theorem durableReady_of_write {s : State} {c : Cmd} (hphase : c.phase = .started) (hdue : c.due = 0) (hnone : durableLeft s c.no = false)
    (hwrite : isWrite c.opcode = true) (hdone : c.done = c.b 40 4) : durableReady s c = true := by
  simp [durableReady, hphase, hdue, hnone, hwrite, hdone]

theorem durableReady_of_flush {s : State} {c : Cmd} (hphase : c.phase = .started) (hdue : c.due = 0) (hnone : durableLeft s c.no = false)
    (hop : c.opcode = 0x22 ∨ c.opcode = 0xC3) : durableReady s c = true := by
  simp [durableReady, hphase, hdue, hnone, hop, or_assoc]

theorem durableReady_started {s : State} {c : Cmd} (h : durableReady s c = true) : c.phase = .started ∧ durableLeft s c.no = false := by
  simp only [durableReady, Bool.and_eq_true, beq_iff_eq, Bool.not_eq_true'] at h
  obtain ⟨⟨⟨hphase, _⟩, hnone⟩, _⟩ := h
  exact ⟨hphase, hnone⟩

/-- It is over. -/
def finishOne (s : State) (c : Cmd) : State := if isWrite c.opcode then writeDone s c else complete s c.no 0

theorem finishOne_of_flush {s : State} {c : Cmd} (h : isWrite c.opcode = false) : finishOne s c = complete s c.no 0 :=
  if_neg (by rw [h]; decide)

theorem finishDurable_eq (s : State) : finishDurable s = (s.dqp.cmds.filter (durableReady s)).foldl finishOne s := rfl

/-- A WRITE that embeds nothing (R95). -/
def PlainWrite (c : Cmd) : Prop := c.opcode = 0x21 ∨ c.opcode = 0xC2 ∧ bit (c.b 44 4) 0 = false

/-- It completes, an R_WRITE with its embedding on record as due. -/
theorem finishOne_completes {c : Cmd} (h : isWrite c.opcode = true → PlainWrite c) (s : State) :
    ∃ u, finishOne s c = complete u c.no 0 ∧ (u = s ∨ u = updCmd s c.no fun c => { c with due := 1 }) := by
  unfold finishOne
  split
  case isTrue hw =>
    unfold writeDone
    obtain hop | ⟨hop, hembed⟩ := h hw
    · rw [if_neg (by rw [hop]; decide)]
      exact ⟨s, rfl, .inl rfl⟩
    · rw [if_pos hop, risalWritten, if_pos hembed]
      exact ⟨_, rfl, .inr rfl⟩
  case isFalse => exact ⟨s, rfl, .inl rfl⟩

theorem finishOne_finishes {c : Cmd} (h : isWrite c.opcode = true → PlainWrite c) (s : State) : Finishes s (finishOne s c) := by
  obtain ⟨u, hu, rfl | rfl⟩ := finishOne_completes h s
  · rw [hu]
    exact Finishes.complete ..
  · rw [hu]
    exact (Finishes.updDqp ..).trans (Finishes.complete ..)

theorem finishOne_gone {c : Cmd} (h : isWrite c.opcode = true → PlainWrite c) {s : State} (hgone : findCmd s c.no = none) : finishOne s c = s := by
  obtain ⟨u, hu, rfl | rfl⟩ := finishOne_completes h s
  · rw [hu, complete_gone hgone]
  · rw [updCmd_gone hgone] at hu
    rw [hu, complete_gone hgone]

theorem findCmd_finishOne {c : Cmd} (h : isWrite c.opcode = true → PlainWrite c) (s : State) : findCmd (finishOne s c) c.no = none := by
  obtain ⟨u, hu, _⟩ := finishOne_completes h s
  rw [hu]
  exact findCmd_complete ..

theorem finishDurable_finishes {s : State} (h : ∀ x ∈ s.dqp.cmds, x.phase = .started → isWrite x.opcode = true → PlainWrite x) :
    Finishes s (finishDurable s) := by
  rw [finishDurable_eq]
  refine List.foldlRecOn (motive := Finishes s) _ _ (Finishes.refl s) fun t ht x hx => ht.trans (finishOne_finishes ?_ t)
  obtain ⟨hmem, hready⟩ := List.mem_filter.mp hx
  exact h x hmem (durableReady_started hready).1

/-- With no started command but one that still waits nothing completes. -/
theorem finishDurable_waits {s : State} (h : ∀ x ∈ s.dqp.cmds, durableReady s x = false) : finishDurable s = s := by
  rw [finishDurable_eq, List.filter_eq_nil_iff.mpr fun x hx => by rw [h x hx]; decide]
  rfl

/-- The one command that is ready completes, once. -/
theorem finishDurable_one {s : State} {c : Cmd} (hplain : isWrite c.opcode = true → PlainWrite c) (hmem : c ∈ s.dqp.cmds)
    (hready : durableReady s c = true) (hone : ∀ x ∈ s.dqp.cmds, x.phase = .started → x = c) : finishDurable s = finishOne s c := by
  have hall : ∀ x ∈ s.dqp.cmds.filter (durableReady s), x = c := by
    intro x hx
    obtain ⟨hx, hx'⟩ := List.mem_filter.mp hx
    exact hone x hx (durableReady_started hx').1
  have hc : c ∈ s.dqp.cmds.filter (durableReady s) := List.mem_filter.mpr ⟨hmem, hready⟩
  rw [finishDurable_eq]
  generalize s.dqp.cmds.filter (durableReady s) = l at hall hc
  cases l with
  | nil => cases hc
  | cons x l =>
    rw [List.foldl_cons, hall x (List.mem_cons_self ..)]
    refine List.foldlRecOn (motive := fun t => t = finishOne s c) _ _ rfl fun t ht y hy => ?_
    rw [hall y (List.mem_cons_of_mem _ hy), ht, finishOne_gone hplain (findCmd_finishOne hplain s)]

/-! ### Pages over changed blocks (R112, R133) -/

/-- Neither the DQP, nor flash, nor the bytes of tier 1 change. -/
structure Covers (s t : State) : Prop where
  dqp : t.dqp = s.dqp
  flash : t.flash = s.flash
  bytes : t.mem.bytes = s.mem.bytes

namespace Covers
variable {s t u : State}

theorem refl (s : State) : Covers s s := ⟨rfl, rfl, rfl⟩

theorem trans (h : Covers s t) (h' : Covers t u) : Covers s u := ⟨h'.dqp.trans h.dqp, h'.flash.trans h.flash, h'.bytes.trans h.bytes⟩

theorem foldl {α : Type} {f : State → α → State} (h : ∀ s a, Covers s (f s a)) (l : List α) (s : State) : Covers s (l.foldl f s) := by
  induction l generalizing s with
  | nil => exact refl s
  | cons a l ih => exact (h s a).trans (ih (f s a))

theorem freeFrame (small : Bool) (s : State) (fr : Nat × Nat) : Covers s (freeFrame small s fr) := by
  unfold Machine.freeFrame
  dsimp only
  split
  · exact refl s
  · split
    · exact ⟨rfl, rfl, rfl⟩
    · exact ⟨rfl, rfl, rfl⟩

theorem reback (s : State) : Covers s (reback s) := by
  refine foldl (fun s p => ?_) _ s
  split
  · exact refl s
  · exact ⟨rfl, rfl, rfl⟩

theorem dropPage (s : State) (p : Page) : Covers s (dropPage s p) := by
  unfold Machine.dropPage
  extract_lets small freed
  have hfreed : Covers s freed := foldl (freeFrame small) p.frame s
  refine hfreed.trans (Covers.trans ?_ (reback _))
  exact ⟨rfl, rfl, rfl⟩

theorem invalidate (s : State) (nsid a n : Nat) : Covers s (invalidate s nsid a n) := by
  refine foldl (fun s p => ?_) _ s
  split
  · exact dropPage s p
  · split
    · exact refl s
    · split
      · exact ⟨rfl, rfl, rfl⟩
      · exact ⟨rfl, rfl, rfl⟩

theorem endQuarantine (s : State) (o : Obj) : Covers s (endQuarantine s o) := by
  unfold Machine.endQuarantine
  split
  · exact ⟨rfl, rfl, rfl⟩
  · exact refl s

theorem coverFailed (s : State) (nsid a n : Nat) : Covers s (coverFailed s nsid a n) := by
  refine foldl (fun s o => ?_) _ s
  dsimp only
  split
  · refine Covers.trans ?_ (endQuarantine _ o)
    exact ⟨rfl, rfl, rfl⟩
  · exact ⟨rfl, rfl, rfl⟩

end Covers

/-- With no block changed no page is invalid. -/
theorem invalidate_zero (s : State) (nsid a : Nat) : invalidate s nsid a 0 = s := by
  have hnone (p : Page) : pageHits s p a 0 = false := by
    unfold pageHits
    split
    · rfl
    · split
      · rfl
      · refine List.any_eq_false.mpr fun k _ => ?_
        split
        · simp
        · simp
  have hpages : s.mem.pages.filter (fun p => p.nsid == nsid && pageHits s p a 0) = [] :=
    List.filter_eq_nil_iff.mpr fun p _ => by simp [hnone p]
  rw [invalidate, hpages]
  rfl

/-! ### WRITE (R78, R83, R95, R383) -/

/-- Where a WRITE from block `c.done` on has come to when `r` is what the buffer has taken. -/
def WriteComes (s : State) (c : Cmd) (r : State × Nat) (t : State) : Prop :=
  (∀ i, c.done ≤ i → i < r.2 → rdBlock t c.nsid (c.b 32 8 + i) = some (slice c.data (4096 * i) 4096))
    ∧ (∀ b, b < 2 ^ 59 → (b < c.b 32 8 + c.done ∨ c.b 32 8 + r.2 ≤ b) → rdBlock t c.nsid b = rdBlock s c.nsid b)
    ∧ t.mem.bytes = s.mem.bytes
    ∧ (r.2 < c.b 40 4 → ∃ x, findCmd t c.no = some x ∧ x.phase = .started ∧ x.done = r.2)
    ∧ (r.2 = c.b 40 4 → c.fua s = false → ∃ x, findCmd x c.no ≠ none ∧ t = complete x c.no 0)

theorem rdBlock_congr {s t : State} (hblocks : t.flash.blocks = s.flash.blocks) (hlost : t.flash.lostBlocks = s.flash.lostBlocks) (sp b : Nat) :
    rdBlock t sp b = rdBlock s sp b := by
  rw [rdBlock, rdBlock, hblocks, hlost]

section Pump
variable {s : State} {c : Cmd} (hc : findCmd s c.no = some c)
include hc

theorem pumpWrite_refused (hdone : c.done = 0) {d : Nat} (hrefuse : flashRefusal s c.nsid (c.b 32 8) (c.b 40 4) = some d) :
    pumpWrite s c.no = complete (deny s (domOf c.nsid)) c.no 0x2001 0 0 d := by
  have hrefuse' : flashRefusal s c.nsid (c.b 32 8 + c.done) (c.b 40 4 - c.done) = some d := by rwa [hdone]
  simp only [pumpWrite, hc, hrefuse']
  rw [hdone, invalidate_zero]

variable (hgrant : flashRefusal s c.nsid (c.b 32 8 + c.done) (c.b 40 4 - c.done) = none)
include hgrant

/-- The blocks taken, and how far the command has come. -/
def written (s : State) (c : Cmd) : State × Nat := writeBlocks c (c.fua s) (c.b 40 4 - c.done) c.done s
def writtenState (s : State) (c : Cmd) : State := updCmd (written s c).1 c.no fun x => { x with done := (written s c).2 }

/-- All blocks taken: the pages over them are invalid and the bytes counted. -/
def allWritten (s : State) (c : Cmd) : State :=
  health (coverFailed (invalidate (writtenState s c) c.nsid (c.b 32 8) (c.b 40 4)) c.nsid (c.b 32 8) (c.b 40 4)) 4 (4 * c.b 40 4)

theorem pumpWrite_eq : pumpWrite s c.no = if (written s c).2 < c.b 40 4 then writtenState s c else finishDurable (allWritten s c) := by
  simp only [pumpWrite, hc, hgrant]
  rfl

omit hgrant

omit hc in
theorem written_written (hs : MapsSorted s) : Written c s c.done (written s c).2 (written s c).1 :=
  writeBlocks_written hs (c.b 40 4 - c.done) c.done

theorem findCmd_writtenState (hs : MapsSorted s) : findCmd (writtenState s c) c.no = some { c with done := (written s c).2 } := by
  have hdqp := (written_written (c := c) hs).frame.dqp
  have hfound : findCmd (written s c).1 c.no = some c := (findCmd_congr hdqp c.no).trans hc
  exact findCmd_updCmd hfound fun _ => rfl

omit hc

theorem allWritten_dqp : (allWritten s c).dqp = (writtenState s c).dqp :=
  ((Covers.invalidate ..).trans (Covers.coverFailed ..)).dqp

theorem allWritten_bytes : (allWritten s c).mem.bytes = (writtenState s c).mem.bytes :=
  ((Covers.invalidate ..).trans (Covers.coverFailed ..)).bytes

theorem allWritten_flash : (allWritten s c).flash = (health (writtenState s c) 4 (4 * c.b 40 4)).flash :=
  congrArg (fun f : Flash => { f with health := updAt f.health 4 fun v => min (v + 4 * c.b 40 4) (2 ^ 64 - 1) })
    ((Covers.invalidate ..).trans (Covers.coverFailed ..)).flash

/-- Every started command of the state is this one. -/
theorem started_writtenState (hs : MapsSorted s) (hone : ∀ x ∈ s.dqp.cmds, x.phase = .started → x = c) {x : Cmd}
    (hx : x ∈ (writtenState s c).dqp.cmds) (hphase : x.phase = .started) : x = { c with done := (written s c).2 } := by
  have hdqp := (written_written (c := c) hs).frame.dqp
  obtain ⟨y, hy, rfl⟩ := List.mem_map.mp hx
  have hy' : y ∈ s.dqp.cmds := (congrArg Dqp.cmds hdqp) ▸ hy
  split at hphase
  case isTrue hno =>
    rw [if_pos hno, hone y hy' hphase]
  case isFalse hno => exact absurd (congrArg Cmd.no (hone y hy' hphase)) hno

theorem pumpWrite_comes (hs : MapsSorted s) (hc : findCmd s c.no = some c) (hphase : c.phase = .started) (hdue : c.due = 0)
    (hwrite : isWrite c.opcode = true) (hplain : PlainWrite c) (hone : ∀ x ∈ s.dqp.cmds, x.phase = .started → x = c)
    (hgrant : flashRefusal s c.nsid (c.b 32 8 + c.done) (c.b 40 4 - c.done) = none)
    (hdurable : durableLeft s c.no = false) : WriteComes s c (written s c) (pumpWrite s c.no) := by
  have hw := written_written (c := c) hs
  rw [pumpWrite_eq hc hgrant]
  split
  case isTrue hlt =>
    exact ⟨hw.reads, fun b _ => hw.others b, congrArg Mem.bytes hw.frame.mem, fun _ => ⟨_, findCmd_writtenState hc hs, hphase, rfl⟩,
      fun heq => absurd heq (Nat.ne_of_lt hlt)⟩
  case isFalse hge =>
    have hone' : ∀ x ∈ (allWritten s c).dqp.cmds, x.phase = .started → x = { c with done := (written s c).2 } := by
      rw [allWritten_dqp]
      exact fun x hx hx' => started_writtenState hs hone hx hx'
    have hfinishes : Finishes (allWritten s c) (finishDurable (allWritten s c)) :=
      finishDurable_finishes fun x hx hx' _ => by rw [hone' x hx hx']; exact hplain
    have hflash : (finishDurable (allWritten s c)).flash = (health (writtenState s c) 4 (4 * c.b 40 4)).flash :=
      (congrArg State.flash hfinishes.eq :).trans allWritten_flash
    have hread (b : Nat) : rdBlock (finishDurable (allWritten s c)) c.nsid b = rdBlock (written s c).1 c.nsid b :=
      rdBlock_congr (congrArg Flash.blocks hflash) (congrArg Flash.lostBlocks hflash) c.nsid b
    have hbytes : (finishDurable (allWritten s c)).mem.bytes = (written s c).1.mem.bytes :=
      (congrArg (fun x : State => x.mem.bytes) hfinishes.eq :).trans allWritten_bytes
    refine ⟨fun i hi hi' => (hread _).trans (hw.reads i hi hi'), fun b _ hb => (hread b).trans (hw.others b hb),
      hbytes.trans (congrArg Mem.bytes hw.frame.mem), fun hlt => absurd hlt hge, fun heq hfua => ?_⟩
    have hfound : findCmd (allWritten s c) c.no = some { c with done := (written s c).2 } :=
      (findCmd_congr allWritten_dqp c.no).trans (findCmd_writtenState hc hs)
    have hready : durableReady (allWritten s c) { c with done := (written s c).2 } = true := by
      have hnone : durableLeft (allWritten s c) c.no = false := by
        rw [durableLeft_eq_false]
        unfold NoDurable
        rw [allWritten_flash]
        have hkept := writeBlocks_durable (durableLeft_eq_false.mp hdurable) (c.b 40 4 - c.done) c.done
        rw [← hfua] at hkept
        exact hkept
      exact durableReady_of_write hphase hdue hnone hwrite heq
    rw [finishDurable_one (fun _ => hplain) (c := { c with done := (written s c).2 }) (List.mem_of_find?_eq_some hfound) hready hone']
    obtain ⟨u, hu, rfl | rfl⟩ := finishOne_completes (c := { c with done := (written s c).2 }) (fun _ => hplain) (allWritten s c)
    · exact ⟨_, ne_of_eq_of_ne hfound (Option.some_ne_none _), hu⟩
    · exact ⟨_, ne_of_eq_of_ne (findCmd_updCmd (f := fun c => { c with due := 1 }) hfound fun _ => rfl) (Option.some_ne_none _), hu⟩

end Pump

/-! ### The rows of a WRITE -/

section Rows
variable {s : State} {id : CmdId} {c : Cmd}

theorem writeConds_ok (hro : roStatus s = 0) (hr : RangeOk s c 65536) (hbuf : c.bufBytes = 4096 * c.b 40 4) : ∀ x ∈ writeConds s c, x = 0 := by
  intro x hx
  obtain hx | hx := List.mem_append.mp hx
  · exact rangeConds_ok hr x hx
  · simp only [List.mem_cons, List.not_mem_nil, or_false] at hx
    obtain rfl | rfl := hx
    · simp [cond, hbuf]
    · exact hro

theorem write_starts (hro : roStatus s = 0) (hr : RangeOk s c 65536) (h : Runs s id c 0x21 [(32, 16)]) (hbuf : c.bufBytes = 4096 * c.b 40 4)
    (hflags : c.b 44 4 ≤ 1) : exec (.write id) s = .next (pumpWrite (markStarted s c.no) c.no) :=
  congrArg Host.Outcome.next (runCmd_runs h h.isOp fun x hx => by
    obtain rfl | hx := List.mem_cons.mp hx
    · simp [cond, Nat.not_lt.mpr hflags]
    · exact writeConds_ok hro hr hbuf x hx)

theorem rWrite_starts (hro : roStatus s = 0) (hr : RangeOk s c 65536) (h : Runs s id c 0xC2 [(32, 96)]) (hbuf : c.bufBytes = 4096 * c.b 40 4) :
    exec (.rWrite id) s = .next (pumpWrite (markStarted s c.no) c.no) :=
  congrArg Host.Outcome.next (runCmd_runs h h.isOp (writeConds_ok hro hr hbuf))

theorem writeResume_goes (h : cmdById s id = some c) (hwrite : isWrite c.opcode = true) (hphase : c.phase = .started) (hdue : c.due = 0)
    (hdone : c.done < c.b 40 4) : exec (.writeResume id) s = .next (pumpWrite s c.no) := by
  show execWriteResume id s = _
  simp [execWriteResume, h, hwrite, hphase, hdue, hdone]

/-- The one command that has started is the one just started. -/
theorem Alone.started (h : Alone s c) : ∀ x ∈ (markStarted s c.no).dqp.cmds, x.phase = .started → x = { c with phase := .started } := by
  obtain ⟨_, hone⟩ := h
  intro x hx hphase
  obtain ⟨y, hy, rfl⟩ := List.mem_map.mp hx
  obtain ⟨hnot, hsame⟩ := hone y hy
  split at hphase
  case isTrue hno => rw [if_pos hno, hsame hno]
  case isFalse => exact absurd hphase hnot

/-- A WRITE that starts with its blocks granted. -/
theorem pumpWrite_started (hs : MapsSorted s) (halone : Alone s c) (hdue : c.due = 0) (hdone : c.done = 0) (hwrite : isWrite c.opcode = true)
    (hplain : PlainWrite c) (hgrant : flashRefusal s c.nsid (c.b 32 8 + c.done) (c.b 40 4 - c.done) = none) (hdurable : durableLeft s c.no = false) :
    WriteComes s c (writeBlocks c (c.fua s) (c.b 40 4) 0 (markStarted s c.no)) (pumpWrite (markStarted s c.no) c.no) := by
  have hcomes := pumpWrite_comes (s := markStarted s c.no) (c := { c with phase := .started }) ⟨hs.blocks, hs.lost, hs.map⟩
    (findCmd_markStarted halone.1) rfl hdue hwrite hplain halone.started hgrant hdurable
  have hwritten : written (markStarted s c.no) { c with phase := .started } = writeBlocks c (c.fua s) (c.b 40 4) 0 (markStarted s c.no) := by
    refine (writeBlocks_congr (c := c) (fua := c.fua s) ⟨.started, rfl⟩ (c.b 40 4 - c.done) c.done (markStarted s c.no)).trans ?_
    rw [hdone, Nat.sub_zero]
  rw [← hwritten]
  exact hcomes

end Rows

/-! ### FLUSH (R78) -/

section Flush
variable {s : State} {id : CmdId} {c : Cmd}

theorem flush_starts {k : Form} (hk : k ∈ ([(Instr.flush, 0x22, []), (Instr.rFlush, 0xC3, [(32, 96)])] : List Form)) (h : Runs s id c k.2.1 k.2.2) :
    (c.opcode = 0x22 ∨ c.opcode = 0xC3) ∧ exec (k.1 id) s = .next (runFlush (markStarted s c.no) c) := by
  have hop : c.opcode = k.2.1 := h.opcode
  simp only [List.mem_cons, List.not_mem_nil, or_false] at hk
  obtain rfl | rfl := hk
  · exact ⟨.inl hop, congrArg Host.Outcome.next (runCmd_runs h h.isOp (by simp))⟩
  · exact ⟨.inr hop, congrArg Host.Outcome.next (runCmd_runs h h.isOp (by simp))⟩

/-- The command is noted in the slots of its namespace whose blocks are only in the buffer. -/
def flushNoted (s : State) (c : Cmd) : State :=
  updFlash s fun f => { f with
    slots := f.slots.map (fun p => if luaSpace p.2.lua = c.nsid ∧ p.2.staged.isNone then
      (p.1, { p.2 with writers := p.2.writers ++ [⟨c.sqid, c.tag, c.nsid, 0, c.no, true⟩] }) else p) }

theorem runFlush_eq : runFlush s c = finishDurable (flushNoted s c) := rfl

theorem flushNoted_none (h : ∀ p ∈ s.flash.slots, luaSpace p.2.lua = c.nsid → p.2.staged ≠ none) : flushNoted s c = s := by
  have hsame : s.flash.slots.map (fun p => if luaSpace p.2.lua = c.nsid ∧ p.2.staged.isNone then
      (p.1, { p.2 with writers := p.2.writers ++ [⟨c.sqid, c.tag, c.nsid, 0, c.no, true⟩] }) else p) = s.flash.slots :=
    (List.map_congr_left fun p hp => if_neg fun hboth => h p hp hboth.1 (Option.isNone_iff_eq_none.mp hboth.2)).trans (List.map_id' _)
  exact congrArg (fun l => { s with flash := { s.flash with slots := l } }) hsame

theorem flush_ends (halone : Alone s c) (hdue : c.due = 0) (hop : c.opcode = 0x22 ∨ c.opcode = 0xC3) (hdurable : durableLeft s c.no = false)
    (hmedia : ∀ p ∈ s.flash.slots, luaSpace p.2.lua = c.nsid → p.2.staged ≠ none) :
    runFlush (markStarted s c.no) c = complete (markStarted s c.no) c.no 0 := by
  have hwrite : isWrite c.opcode = false := by
    obtain hop | hop := hop <;> rw [hop] <;> decide
  have hnone : durableLeft (markStarted s c.no) c.no = false := hdurable
  have hready : durableReady (markStarted s c.no) { c with phase := .started } = true :=
    durableReady_of_flush rfl hdue hnone hop
  rw [runFlush_eq, flushNoted_none (s := markStarted s c.no) hmedia,
    finishDurable_one (c := { c with phase := .started }) (fun h => absurd hwrite (ne_false_of_eq_true h))
      (List.mem_of_find?_eq_some (findCmd_markStarted halone.1)) hready halone.started,
    finishOne_of_flush (c := { c with phase := .started }) hwrite]

theorem flushNoted_notes {p : Nat × Slot} (hp : p ∈ s.flash.slots) (hspace : luaSpace p.2.lua = c.nsid) (hstaged : p.2.staged = none) :
    ∃ q ∈ (flushNoted s c).flash.slots, q.1 = p.1 ∧ q.2.data = p.2.data ∧ ∃ w ∈ q.2.writers, w.no = c.no ∧ w.fua = true :=
  ⟨_, List.mem_map.mpr ⟨p, hp, if_pos ⟨hspace, by rw [hstaged]; rfl⟩⟩, rfl, rfl, _, List.mem_append_right _ (List.mem_singleton_self _), rfl, rfl⟩

theorem flush_waits (halone : Alone s c) {p : Nat × Slot} (hp : p ∈ s.flash.slots) (hspace : luaSpace p.2.lua = c.nsid) (hstaged : p.2.staged = none) :
    runFlush (markStarted s c.no) c = flushNoted (markStarted s c.no) c := by
  rw [runFlush_eq]
  refine finishDurable_waits fun x hx => ?_
  have hleft : durableLeft (flushNoted (markStarted s c.no) c) c.no = true := by
    obtain ⟨q, hq, _, _, w, hw, hno, hfua⟩ := flushNoted_notes (s := markStarted s c.no) (c := c) hp hspace hstaged
    refine List.any_eq_true.mpr ⟨q, hq, List.any_eq_true.mpr ⟨w, hw, ?_⟩⟩
    simp [hno, hfua]
  by_contra hready
  obtain ⟨hphase, hnone⟩ := durableReady_started (Bool.not_eq_false _ ▸ hready)
  rw [halone.started x hx hphase] at hnone
  exact absurd hleft (ne_true_of_eq_false hnone)

end Flush

end Sys2Proof.Machine
end

section
/-!
PROOFS. Scope: the range of a TRIM (R389).
-/
namespace Sys2Proof.Machine

theorem mem_of_mfind {α : Type} {m : NMap α} {k : Nat} {v : α} (h : mfind m k = some v) : (k, v) ∈ m := by
  fun_induction mfind m k with
  | case1 => cases h
  | case2 k w m =>
    cases h
    exact List.mem_cons_self
  | case3 => cases h
  | case4 _ _ _ _ _ _ ih => exact List.mem_cons_of_mem _ (ih h)

/-- A unit of a SPACE has an entry. -/
def Mapped (s : State) (sp u : Nat) : Prop := (mfind s.flash.map (luaOf sp u)).isSome = true

/-- The blocks of a SPACE that `hit` names read zeros and every other one reads as before. -/
structure Zeroes (s t : State) (sp : Nat) (hit : Nat → Prop) : Prop where
  sorted : MapsSorted t
  zero : ∀ b, hit b → rdBlock t sp b = some zeroBlock
  other : ∀ b, ¬ hit b → rdBlock t sp b = rdBlock s sp b

namespace Zeroes
variable {s t u : State} {sp : Nat} {hit hit' : Nat → Prop}

theorem refl (h : MapsSorted s) : Zeroes s s sp fun _ => False := ⟨h, fun _ h => h.elim, fun _ _ => rfl⟩

theorem congr (h : Zeroes s t sp hit) (hhit : ∀ b, hit' b ↔ hit b) : Zeroes s t sp hit' :=
  ⟨h.sorted, fun b hb => h.zero b ((hhit b).mp hb), fun b hb => h.other b (mt (hhit b).mpr hb)⟩

theorem trans (h : Zeroes s t sp hit) (h' : Zeroes t u sp hit') : Zeroes s u sp fun b => hit b ∨ hit' b := by
  refine ⟨h'.sorted, fun b hb => ?_, fun b hb => ?_⟩
  · by_cases hlast : hit' b
    · exact h'.zero b hlast
    · rw [h'.other b hlast, h.zero b (hb.resolve_right hlast)]
  · rw [h'.other b (hb ∘ .inr), h.other b (hb ∘ .inl)]

end Zeroes

/-! ### Units covered in part -/

/-- One block of a mapped unit is rewritten as zeros. -/
def zeroOne (s : State) (nsid u i : Nat) : Option State :=
  (bufferBlock s nsid (8 * u + i) zeroBlock).map fun s => updFlash s fun f => { f with blocks := mdel f.blocks (8 * luaOf nsid u + i) }

theorem zeroPart_unmapped {s : State} {nsid : Nat} {u : Nat × Nat} (h : ¬ Mapped s nsid u.1) : zeroPart s nsid u = some s := by
  rw [zeroPart, if_pos (by simpa [Mapped] using h)]

theorem zeroPart_mapped {s : State} {nsid : Nat} {u : Nat × Nat} (h : Mapped s nsid u.1) :
    zeroPart s nsid u = (bitList u.2 8).foldl (fun r i => r.bind fun s => zeroOne s nsid u.1 i) (some s) := by
  rw [zeroPart, if_neg (by rw [Option.isNone_iff_eq_none, ← Option.not_isSome_iff_eq_none]; exact not_not_intro h)]
  rfl

/-- A step that may fail, taken through a list, has been taken for the first element and then for the rest. -/
theorem foldl_bind_cons {α : Type} {f : State → α → Option State} {a : α} {l : List α} {s t : State}
    (h : (a :: l).foldl (fun r x => r.bind fun s => f s x) (some s) = some t) :
    ∃ u, f s a = some u ∧ l.foldl (fun r x => r.bind fun s => f s x) (some u) = some t := by
  have hnone : ∀ l : List α, l.foldl (fun r x => r.bind fun s => f s x) none = none := fun l =>
    List.foldlRecOn (motive := fun r => r = none) l _ rfl fun r hr _ _ => by rw [hr]; rfl
  cases hu : f s a with
  | none =>
    rw [List.foldl_cons, Option.bind_some, hu, hnone] at h
    cases h
  | some u => exact ⟨u, rfl, by rwa [List.foldl_cons, Option.bind_some, hu] at h⟩

/-- Units mapped before are the units mapped now. -/
def SameMapped (s t : State) : Prop := ∀ lua, (mfind t.flash.map lua).isSome = (mfind s.flash.map lua).isSome

/-- What rewriting one block of a mapped unit comes to. -/
theorem zeroOne_zeroes {s t : State} {nsid u i : Nat} (h : zeroOne s nsid u i = some t) (hi : i < 8) (hs : MapsSorted s) (hmapped : Mapped s nsid u) :
    Zeroes s t nsid (· = 8 * u + i) ∧ SameMapped s t := by
  obtain ⟨v, hv, rfl⟩ := Option.map_eq_some_iff.mp h
  have htakes := bufferBlock_takes hv
  have hsorted := htakes.sorted hs
  have hkey : 8 * luaOf nsid u + i = blockKey nsid (8 * u + i) := by
    simp only [luaOf, blockKey]
    omega
  have hunit : (8 * u + i) / 8 = u := by omega
  refine ⟨⟨⟨mSorted_mdel _ hsorted.blocks, hsorted.lost, hsorted.map⟩, fun b hb => ?_, fun b hb => ?_⟩, fun lua => ?_⟩
  · subst hb
    have hlost : mfind v.flash.lostBlocks (blockKey nsid (8 * u + i)) = none := by rw [htakes.lost, mfind_mdel_same hs.lost]
    show (if (mfind v.flash.lostBlocks _).isSome then none else some ((mfind (mdel v.flash.blocks (8 * luaOf nsid u + i)) _).getD zeroBlock)) = _
    rw [hlost, hkey, mfind_mdel_same hsorted.blocks]
    rfl
  · have hother := htakes.reads_ne hs hb
    have hne : blockKey nsid b ≠ 8 * luaOf nsid u + i := hkey ▸ fun he => hb (Nat.add_left_cancel he)
    rw [← hother]
    show (if (mfind v.flash.lostBlocks _).isSome then none else some ((mfind (mdel v.flash.blocks (8 * luaOf nsid u + i)) _).getD zeroBlock)) = _
    rw [mfind_mdel_ne hne hsorted.blocks]
    rfl
  · obtain ⟨l, hmap⟩ := htakes.map
    rw [hunit] at hmap
    show (mfind v.flash.map lua).isSome = _
    rw [hmap]
    by_cases hlua : lua = luaOf nsid u
    · rw [hlua, mfind_mins_same]
      exact hmapped.symm
    · rw [mfind_mins_ne hlua l hs.map]

theorem SameMapped.mapped {s t : State} (h : SameMapped s t) {sp u : Nat} : Mapped t sp u ↔ Mapped s sp u := by
  rw [Mapped, Mapped, h]

theorem SameMapped.trans {s t u : State} (h : SameMapped s t) (h' : SameMapped t u) : SameMapped s u := fun lua => (h' lua).trans (h lua)

theorem zeroOnes_zeroes {nsid u : Nat} {l : List Nat} (hl : ∀ i ∈ l, i < 8) {s t : State} (hs : MapsSorted s) (hmapped : Mapped s nsid u)
    (h : l.foldl (fun r i => r.bind fun s => zeroOne s nsid u i) (some s) = some t) :
    Zeroes s t nsid (fun b => ∃ i ∈ l, b = 8 * u + i) ∧ SameMapped s t := by
  induction l generalizing s with
  | nil =>
    cases h
    exact ⟨(Zeroes.refl hs).congr (by simp), fun _ => rfl⟩
  | cons i l ih =>
    obtain ⟨v, hv, hrest⟩ := foldl_bind_cons h
    obtain ⟨hzero, hsame⟩ := zeroOne_zeroes hv (hl i List.mem_cons_self) hs hmapped
    obtain ⟨hzero', hsame'⟩ := ih (fun j hj => hl j (List.mem_cons_of_mem _ hj)) hzero.sorted (hsame.mapped.mpr hmapped) hrest
    exact ⟨(hzero.trans hzero').congr (by simp), hsame.trans hsame'⟩

theorem mem_bitList {v n i : Nat} : i ∈ bitList v n ↔ i < n ∧ v.testBit i = true := by
  simp [bitList]

/-- The blocks of a mapped unit that its mask names read zeros. -/
theorem zeroPart_zeroes {nsid : Nat} {u : Nat × Nat} {s t : State} (hs : MapsSorted s) (h : zeroPart s nsid u = some t) :
    Zeroes s t nsid (fun b => Mapped s nsid u.1 ∧ ∃ i ∈ bitList u.2 8, b = 8 * u.1 + i) ∧ SameMapped s t := by
  by_cases hmapped : Mapped s nsid u.1
  · rw [zeroPart_mapped hmapped] at h
    obtain ⟨hzero, hsame⟩ := zeroOnes_zeroes (fun i hi => (mem_bitList.mp hi).1) hs hmapped h
    exact ⟨hzero.congr (by simp [hmapped]), hsame⟩
  · rw [zeroPart_unmapped hmapped] at h
    cases h
    exact ⟨(Zeroes.refl hs).congr (by simp [hmapped]), fun _ => rfl⟩

theorem zeroParts_zeroes {nsid : Nat} {l : List (Nat × Nat)} {s t : State} (hs : MapsSorted s)
    (h : l.foldl (fun r u => r.bind fun s => zeroPart s nsid u) (some s) = some t) :
    Zeroes s t nsid (fun b => ∃ u ∈ l, Mapped s nsid u.1 ∧ ∃ i ∈ bitList u.2 8, b = 8 * u.1 + i) ∧ SameMapped s t := by
  induction l generalizing s with
  | nil =>
    cases h
    exact ⟨(Zeroes.refl hs).congr (by simp), fun _ => rfl⟩
  | cons u l ih =>
    obtain ⟨v, hv, hrest⟩ := foldl_bind_cons h
    obtain ⟨hzero, hsame⟩ := zeroPart_zeroes hs hv
    obtain ⟨hzero', hsame'⟩ := ih hzero.sorted hrest
    exact ⟨(hzero.trans hzero').congr (by simp [hsame.mapped]), hsame.trans hsame'⟩

/-! ### Units covered whole -/

theorem releaseUnit_zeroes {s : State} (hs : MapsSorted s) (sp lua : Nat) : Zeroes s (releaseUnit s lua) sp (fun b => luaOf sp (b / 8) = lua) := by
  have hkey (b : Nat) : (decide (blockKey sp b < 8 * lua) || decide (8 * lua + 8 ≤ blockKey sp b)) = !decide (luaOf sp (b / 8) = lua) := by
    have hiff : (blockKey sp b < 8 * lua ∨ 8 * lua + 8 ≤ blockKey sp b) ↔ ¬ luaOf sp (b / 8) = lua := by
      simp only [luaOf, blockKey]
      omega
    rw [← Bool.decide_or, ← decide_not, decide_eq_decide]
    exact hiff
  have hread (b : Nat) : rdBlock (releaseUnit s lua) sp b = if luaOf sp (b / 8) = lua then some zeroBlock else rdBlock s sp b := by
    show (if (mfind (mclear s.flash.lostBlocks (8 * lua) 8) (blockKey sp b)).isSome then none
      else some ((mfind (mclear s.flash.blocks (8 * lua) 8) (blockKey sp b)).getD zeroBlock)) = _
    unfold mclear
    rw [mfind_filter (fun k => decide (k < 8 * lua) || decide (8 * lua + 8 ≤ k)) hs.lost,
      mfind_filter (fun k => decide (k < 8 * lua) || decide (8 * lua + 8 ≤ k)) hs.blocks, hkey]
    by_cases hlua : luaOf sp (b / 8) = lua
    · simp [hlua]
    · simp [hlua, rdBlock]
  refine ⟨⟨mSorted_filter _ hs.blocks, mSorted_filter _ hs.lost, mSorted_mdel _ hs.map⟩, fun b hb => ?_, fun b hb => ?_⟩
  · rw [hread, if_pos hb]
  · rw [hread, if_neg hb]

theorem releaseUnits_zeroes {s : State} (hs : MapsSorted s) (sp : Nat) (l : List Nat) :
    Zeroes s (l.foldl releaseUnit s) sp fun b => luaOf sp (b / 8) ∈ l := by
  induction l generalizing s with
  | nil => exact (Zeroes.refl hs).congr (by simp)
  | cons lua l ih =>
    have hfirst := releaseUnit_zeroes hs sp lua
    exact (hfirst.trans (ih hfirst.sorted)).congr (by simp)

/-! ### The range -/

/-- Adding a clear bit leaves the bits above it. -/
theorem testBit_add_two_pow_above {v i j : Nat} (hv : v.testBit i = false) (hij : i < j) : (v + 2 ^ i).testBit j = v.testBit j := by
  have heven : v / 2 ^ i % 2 = 0 := by simpa [Nat.testBit_eq_decide_div_mod_eq] using hv
  have hsame : (v + 2 ^ i) / 2 ^ (i + 1) = v / 2 ^ (i + 1) := by
    rw [pow_succ, ← Nat.div_div_eq_div_mul, ← Nat.div_div_eq_div_mul, Nat.add_div_right _ (Nat.two_pow_pos i)]
    omega
  obtain ⟨k, rfl⟩ := Nat.exists_eq_add_of_lt hij
  have hk : i + k + 1 = k + (i + 1) := by omega
  rw [hk, ← Nat.testBit_div_two_pow, ← Nat.testBit_div_two_pow, hsame]

theorem testBit_setBit (m i j : Nat) : (setBit m i true).testBit j = (decide (i = j) || m.testBit j) := by
  unfold setBit
  split
  case isTrue hset =>
    by_cases hij : i = j
    · simp [← hij, hset]
    · simp [hij]
  case isFalse hclear =>
    have hclear' : m.testBit i = false := by simpa using hclear
    rw [if_pos rfl]
    obtain hlt | rfl | hgt := Nat.lt_trichotomy i j
    · simp [testBit_add_two_pow_above hclear' hlt, Nat.ne_of_lt hlt]
    · rw [Nat.add_comm, Nat.testBit_two_pow_add_eq]
      simp [hclear']
    · rw [Nat.add_comm, Nat.testBit_two_pow_add_gt hgt]
      simp [(Nat.ne_of_lt hgt).symm]

theorem testBit_foldl_setBit (l : List Nat) (m j : Nat) : (l.foldl (fun m i => setBit m i true) m).testBit j = (decide (j ∈ l) || m.testBit j) := by
  induction l generalizing m with
  | nil => simp
  | cons i l ih => 
    rw [List.foldl_cons, ih, testBit_setBit]
    simp only [List.mem_cons, eq_comm (a := j)]
    grind

/-- The mask of a list of bits has just those. -/
theorem testBit_maskOf (l : List Nat) (j : Nat) : (maskOf l).testBit j = decide (j ∈ l) := by
  rw [maskOf, testBit_foldl_setBit, Nat.zero_testBit, Bool.or_false]

/-- The mask of the blocks of a unit that a range covers. -/
def coverMask (a n u : Nat) : Nat := maskOf ((List.range 8).filter fun i => decide (a ≤ 8 * u + i) && decide (8 * u + i < a + n))

theorem mem_coverMask {a n u i : Nat} (hi : i < 8) : (coverMask a n u).testBit i = true ↔ a ≤ 8 * u + i ∧ 8 * u + i < a + n := by
  simp [coverMask, testBit_maskOf, hi]

/-- A unit of the ends of the range that it does not cover whole. -/
theorem mem_partUnits {a n : Nat} {u : Nat × Nat} : u ∈ partUnits a n ↔
    (u.1 = a / 8 ∨ u.1 = (a + n - 1) / 8) ∧ n ≠ 0 ∧ u.2 = coverMask a n u.1 ∧ u.2 ≠ 255 := by
  have hends : ∀ v, v ∈ (if a / 8 = (a + n - 1) / 8 then [a / 8] else [a / 8, (a + n - 1) / 8]) ↔ v = a / 8 ∨ v = (a + n - 1) / 8 := by
    intro v
    split
    case isTrue h => simp [← h]
    case isFalse => simp
  show u ∈ List.filterMap (fun v => if n = 0 ∨ coverMask a n v = 255 then none else some (v, coverMask a n v)) _ ↔ _
  rw [List.mem_filterMap]
  constructor
  · rintro ⟨v, hv, hsome⟩
    split at hsome
    · cases hsome
    case isFalse hne =>
      cases hsome
      exact ⟨(hends v).mp hv, fun h => hne (.inl h), rfl, fun h => hne (.inr h)⟩
  · rintro ⟨hend, hn, hmask, hne⟩
    refine ⟨u.1, (hends _).mpr hend, ?_⟩
    rw [if_neg (by rw [← hmask]; exact not_or_intro hn hne), ← hmask]

/-- The blocks of a part of a unit lie in the range. -/
theorem partUnits_covered {a n b i : Nat} {u : Nat × Nat} (hu : u ∈ partUnits a n) (hi : i ∈ bitList u.2 8) (hb : b = 8 * u.1 + i) :
    a ≤ b ∧ b < a + n := by
  obtain ⟨_, _, hmask, _⟩ := mem_partUnits.mp hu
  obtain ⟨hlt, hbit⟩ := mem_bitList.mp hi
  rw [hmask] at hbit
  exact hb ▸ (mem_coverMask hlt).mp hbit

theorem mem_wholeUnits {s : State} {nsid a n lua : Nat} (h : lua ∈ wholeUnits s nsid a n) :
    luaOf nsid (ceilDiv a 8) ≤ lua ∧ lua < luaOf nsid (ceilDiv a 8) + ((a + n) / 8 - ceilDiv a 8) := by
  obtain ⟨p, hp, rfl⟩ := List.mem_map.mp h
  simpa using (List.mem_filter.mp hp).2

theorem wholeUnits_covered {s : State} {nsid a n b : Nat} (hb : luaOf nsid (b / 8) ∈ wholeUnits s nsid a n) : a ≤ b ∧ b < a + n := by
  have hrange := mem_wholeUnits hb
  simp only [luaOf, ceilDiv] at hrange
  omega

/-- A block of the range lies in a unit covered whole or is named by a part. -/
theorem covered_cases {s : State} {nsid a n b : Nat} (ha : a ≤ b) (hb : b < a + n) (hmapped : Mapped s nsid (b / 8)) :
    luaOf nsid (b / 8) ∈ wholeUnits s nsid a n ∨ ∃ u ∈ partUnits a n, u.1 = b / 8 ∧ b % 8 ∈ bitList u.2 8 := by
  have hbit : (coverMask a n (b / 8)).testBit (b % 8) = true := (mem_coverMask (Nat.mod_lt b (by decide))).mpr (by omega)
  by_cases hpart : (b / 8 = a / 8 ∨ b / 8 = (a + n - 1) / 8) ∧ coverMask a n (b / 8) ≠ 255
  · exact .inr ⟨(b / 8, coverMask a n (b / 8)), mem_partUnits.mpr ⟨hpart.1, by omega, rfl, hpart.2⟩, rfl,
      mem_bitList.mpr ⟨Nat.mod_lt b (by decide), hbit⟩⟩
  · have hwhole : a ≤ 8 * (b / 8) ∧ 8 * (b / 8) + 7 < a + n := by
      by_cases hmask : coverMask a n (b / 8) = 255
      · have hfirst := (mem_coverMask (a := a) (n := n) (u := b / 8) (i := 0) (by decide)).mp (by rw [hmask]; decide)
        have hlast := (mem_coverMask (a := a) (n := n) (u := b / 8) (i := 7) (by decide)).mp (by rw [hmask]; decide)
        omega
      · have hinner : ¬ (b / 8 = a / 8 ∨ b / 8 = (a + n - 1) / 8) := fun h => hpart ⟨h, hmask⟩
        omega
    obtain ⟨l, hl⟩ := Option.isSome_iff_exists.mp hmapped
    refine .inl (List.mem_map.mpr ⟨_, List.mem_filter.mpr ⟨mem_of_mfind hl, ?_⟩, rfl⟩)
    rw [Bool.and_eq_true, decide_eq_true_eq, decide_eq_true_eq]
    simp only [luaOf, ceilDiv]
    omega

/-- A TRIM makes the mapped units of its range read zeros and leaves every other block (R389). -/
theorem trimRange_zeroes {s t : State} {nsid a n : Nat} (hs : MapsSorted s) (h : trimRange s nsid a n = some t) :
    (∀ b, a ≤ b → b < a + n → Mapped s nsid (b / 8) → rdBlock t nsid b = some zeroBlock)
      ∧ (∀ b, b < a ∨ a + n ≤ b → rdBlock t nsid b = rdBlock s nsid b) := by
  obtain ⟨u, hu, rfl⟩ := Option.map_eq_some_iff.mp h
  obtain ⟨hparts, hsame⟩ := zeroParts_zeroes hs hu
  have hall := hparts.trans (releaseUnits_zeroes hparts.sorted nsid (wholeUnits u nsid a n))
  have hflash := ((Covers.invalidate ((wholeUnits u nsid a n).foldl releaseUnit u) nsid a n).trans (Covers.coverFailed _ nsid a n)).flash
  have hread (b : Nat) := rdBlock_congr (congrArg Flash.blocks hflash) (congrArg Flash.lostBlocks hflash) nsid b
  refine ⟨fun b ha hb hmapped => (hread b).trans (hall.zero b ?_), fun b hb => (hread b).trans (hall.other b ?_)⟩
  · obtain hwhole | ⟨v, hv, hunit, hbit⟩ := covered_cases ha hb (hsame.mapped.mpr hmapped)
    · exact .inr hwhole
    · exact .inl ⟨v, hv, hunit ▸ hmapped, _, hbit, by omega⟩
  · rintro (⟨v, hv, _, i, hi, hbi⟩ | hwhole)
    · have := partUnits_covered hv hi hbi
      omega
    · have := wholeUnits_covered hwhole
      omega

end Sys2Proof.Machine
end

section
/-!
PROOFS. Scope: SECURE_DISCARD, and the storage commands that write (R78, R95, R383, R389, R402, R403).
-/
namespace Sys2Proof.Machine

/-! ### The discards on record -/

/-- The discards on record and the released units stay. -/
structure KeepsDiscards (s t : State) : Prop where
  discards : t.flash.discards = s.flash.discards
  released : t.flash.released = s.flash.released

namespace KeepsDiscards
variable {s t u : State}

theorem refl (s : State) : KeepsDiscards s s := ⟨rfl, rfl⟩

theorem trans (h : KeepsDiscards s t) (h' : KeepsDiscards t u) : KeepsDiscards s u :=
  ⟨h'.discards.trans h.discards, h'.released.trans h.released⟩

theorem of_flash (h : t.flash = s.flash) : KeepsDiscards s t := ⟨congrArg Flash.discards h, congrArg Flash.released h⟩

theorem foldl {α : Type} {f : State → α → State} (h : ∀ s a, KeepsDiscards s (f s a)) (l : List α) (s : State) : KeepsDiscards s (l.foldl f s) := by
  induction l generalizing s with
  | nil => exact refl s
  | cons a l ih => exact (h s a).trans (ih (f s a))

/-- A step that may fail, taken through a list. -/
theorem foldl_bind {α : Type} {f : State → α → Option State} (h : ∀ s a t, f s a = some t → KeepsDiscards s t) {l : List α}
    (hl : l.foldl (fun r x => r.bind fun s => f s x) (some s) = some t) : KeepsDiscards s t := by
  induction l generalizing s with
  | nil =>
    cases hl
    exact refl _
  | cons a l ih =>
    obtain ⟨u, hu, hrest⟩ := foldl_bind_cons hl
    exact (h s a u hu).trans (ih hrest)

theorem updDie (s : State) (c d : Nat) (f : Die → Die) : KeepsDiscards s (updDie s c d f) := ⟨rfl, rfl⟩

theorem updStripe (s : State) (id : Nat) (f : Stripe → Stripe) : KeepsDiscards s (updStripe s id f) := ⟨rfl, rfl⟩

theorem journalRec (s : State) (k : Nat) (r : JRec) : KeepsDiscards s (journalRec s k r) := ⟨rfl, rfl⟩

theorem issueRow (s : State) (id : Nat) (urgent : Bool) : KeepsDiscards s (issueRow s id urgent) := by
  unfold Machine.issueRow
  split
  · exact refl s
  · exact (foldl (fun s m => updDie ..) _ s).trans ⟨rfl, rfl⟩

theorem padRow (s : State) (id : Nat) (urgent : Bool) : KeepsDiscards s (padRow s id urgent) := by
  unfold Machine.padRow
  split
  · exact refl s
  · split
    · exact refl s
    · exact (updStripe ..).trans (issueRow ..)

theorem sealStripe (s : State) (id : Nat) : KeepsDiscards s (sealStripe s id) := by
  unfold Machine.sealStripe
  split
  · exact refl s
  · split
    · exact refl s
    · exact (padRow s id false).trans ((updStripe ..).trans (journalRec ..))

theorem complete (s : State) (no st r0 r1 detail : Nat) : KeepsDiscards s (complete s no st r0 r1 detail) :=
  of_flash (congrArg State.flash (Finishes.complete s no st r0 r1 detail).eq :)

theorem zeroPart {nsid : Nat} {x : Nat × Nat} (h : zeroPart s nsid x = some t) : KeepsDiscards s t := by
  by_cases hmapped : Mapped s nsid x.1
  · rw [zeroPart_mapped hmapped] at h
    refine foldl_bind (fun s i t ht => ?_) h
    obtain ⟨u, hu, rfl⟩ := Option.map_eq_some_iff.mp ht
    have htakes := bufferBlock_takes hu
    exact ⟨htakes.discards, htakes.released⟩
  · rw [zeroPart_unmapped hmapped] at h
    cases h
    exact refl s

theorem trimRange {nsid a n : Nat} (h : trimRange s nsid a n = some t) : KeepsDiscards s t := by
  obtain ⟨u, hu, rfl⟩ := Option.map_eq_some_iff.mp h
  have hparts : KeepsDiscards s u := foldl_bind (fun s x t hx => zeroPart hx) hu
  have hwhole : KeepsDiscards u ((wholeUnits u nsid a n).foldl releaseUnit u) := foldl (f := releaseUnit) (fun s lua => ⟨rfl, rfl⟩) _ u
  exact hparts.trans (hwhole.trans (of_flash ((Covers.invalidate ..).trans (Covers.coverFailed ..)).flash))

end KeepsDiscards

/-! ### The search for copies (R402, R403) -/

/-- Stripes that can hold a copy under a filter mask. -/
def maskedStripes (s : State) (mask : Nat) : List Nat := (s.flash.stripes.filter fun x => (x.filter &&& mask) != 0).map (·.id)

def addDiscard (s : State) (d : Discard) : State := updFlash s fun f => { f with discards := f.discards ++ [d] }

theorem startDiscard_records (s : State) (no nsid mask : Nat) : ∃ w sets, KeepsDiscards s w ∧
    startDiscard s no nsid mask = noteDiscards (addDiscard w ⟨no, nsid, maskedStripes s mask, sets, 0, 0, 0⟩) := by
  unfold startDiscard
  extract_lets hit ids sealed olds wanted
  have hsealed : KeepsDiscards s sealed := KeepsDiscards.foldl KeepsDiscards.sealStripe ids s
  have hwanted : KeepsDiscards sealed wanted := KeepsDiscards.foldl (fun s o => KeepsDiscards.updDie ..) _ sealed
  exact ⟨wanted, _, hsealed.trans hwanted, rfl⟩

/-- A discard with something left to erase waits. -/
theorem noteDiscards_waits {s : State} (h : ∀ d ∈ s.flash.discards, d.stripes ≠ []) : noteDiscards s = s := by
  have hnone : s.flash.discards.filter (fun d => d.stripes.isEmpty && d.erasing.isEmpty) = [] :=
    List.filter_eq_nil_iff.mpr fun d hd => by simp [h d hd]
  rw [noteDiscards, hnone]
  rfl

/-- The one discard on record, with nothing to erase and none failed, completes. -/
theorem noteDiscards_ends {s : State} {d : Discard} (h : s.flash.discards = [d]) (hstripes : d.stripes = []) (herasing : d.erasing = [])
    (hfailed : d.failed = 0) :
    noteDiscards s = complete { s with flash := { s.flash with discards := [] } } d.no 0 d.erased d.kib := by
  have hone : s.flash.discards.filter (fun d => d.stripes.isEmpty && d.erasing.isEmpty) = [d] := by simp [h, hstripes, herasing]
  have hrest : s.flash.discards.filter (fun x => x.no != d.no) = [] := by simp [h]
  rw [noteDiscards, hone]
  simp only [List.foldl_cons, List.foldl_nil, hfailed, if_true]
  exact congrArg (fun l => complete { s with flash := { s.flash with discards := l } } d.no 0 d.erased d.kib) hrest

theorem noteDiscards_released (s : State) : (noteDiscards s).flash.released = s.flash.released := by
  unfold noteDiscards
  refine List.foldlRecOn (motive := fun t : State => t.flash.released = s.flash.released) _ _ rfl fun t ht d _ => ?_
  dsimp only
  split
  · exact (KeepsDiscards.complete ..).released.trans ht
  · exact (KeepsDiscards.complete ..).released.trans ht

theorem startDiscard_released (s : State) (no nsid mask : Nat) : (startDiscard s no nsid mask).flash.released = s.flash.released := by
  obtain ⟨w, sets, hkeeps, heq⟩ := startDiscard_records s no nsid mask
  rw [heq, noteDiscards_released]
  exact hkeeps.released

/-- A discard that has a stripe to erase is on record. -/
theorem startDiscard_notes {s : State} {no nsid mask : Nat} (hnone : s.flash.discards = []) {y : Stripe} (hy : y ∈ s.flash.stripes)
    (hmask : y.filter &&& mask ≠ 0) :
    ∃ d ∈ (startDiscard s no nsid mask).flash.discards, d.no = no ∧ d.nsid = nsid ∧ y.id ∈ d.stripes := by
  obtain ⟨w, sets, hkeeps, heq⟩ := startDiscard_records s no nsid mask
  have hid : y.id ∈ maskedStripes s mask := List.mem_map.mpr ⟨y, List.mem_filter.mpr ⟨hy, by simpa using hmask⟩, rfl⟩
  rw [heq, noteDiscards_waits fun d hd => ?_]
  · exact ⟨_, List.mem_append_right _ (List.mem_singleton_self _), rfl, rfl, hid⟩
  · obtain hd | hd := List.mem_append.mp hd
    · rw [hkeeps.discards, hnone] at hd
      cases hd
    · rw [List.mem_singleton.mp hd]
      exact List.ne_nil_of_mem hid

/-- A discard without a copy to find completes at once with no set erased. -/
theorem startDiscard_empty {s : State} {no nsid mask : Nat} (hnone : s.flash.discards = []) (hstripes : ∀ y ∈ s.flash.stripes, y.filter &&& mask = 0)
    (hsets : ∀ p ∈ s.flash.sets, p.2.filter &&& mask = 0) :
    startDiscard s no nsid mask = complete { s with flash := { s.flash with discards := [] } } no 0 := by
  have hids : s.flash.stripes.filter (fun x => (x.filter &&& mask) != 0) = [] :=
    List.filter_eq_nil_iff.mpr fun y hy => by simp [hstripes y hy]
  have holds (ids : List Nat) : s.flash.sets.filter (fun p => (p.2.filter &&& mask) != 0 && !p.2.free && !ids.contains p.2.stripe) = [] :=
    List.filter_eq_nil_iff.mpr fun p hp => by simp [hsets p hp]
  have heq : startDiscard s no nsid mask = noteDiscards (addDiscard s ⟨no, nsid, [], [], 0, 0, 0⟩) := by
    simp only [startDiscard, hids, List.map_nil, List.foldl_nil, holds, List.filter_nil]
    rfl
  rw [heq, noteDiscards_ends (d := ⟨no, nsid, [], [], 0, 0, 0⟩) (by simp [addDiscard, updFlash, hnone]) rfl rfl rfl]
  rfl

/-! ### The rows of TRIM and SECURE_DISCARD -/

section Rows
variable {s : State} {id : CmdId} {c : Cmd}

theorem trimWaits_of_none (hid : cmdById s id = some c) {most : Nat} (hr : RangeOk s c most) (h : trimRange s c.nsid (c.b 32 8) (c.b 40 4) = none) :
    trimWaits s id = true := by
  obtain ⟨hone, _, hcap, _⟩ := hr
  simp only [trimWaits, hid, h, Option.isNone_none, Bool.and_true, Bool.and_eq_true, decide_eq_true_eq]
  exact ⟨Nat.one_le_iff_ne_zero.mp hone, hcap⟩

theorem trimConds_ok (hr : RangeOk s c (2 ^ 32 - 1)) (hro : partUnits (c.b 32 8) (c.b 40 4) = [] ∨ roStatus s = 0) :
    ∀ x ∈ rangeConds s c (2 ^ 32 - 1) ++ [trimRo s c], x = 0 := by
  intro x hx
  obtain hx | hx := List.mem_append.mp hx
  · exact rangeConds_ok hr x hx
  · rw [List.mem_singleton.mp hx, trimRo]
    obtain hnone | hro := hro
    · rw [hnone]
      rfl
    · rw [hro]
      exact ite_self 0

/-- The two rows of a TRIM wait, or run it. -/
theorem trim_rows {k : Form} (hk : k ∈ ([(Instr.trim, 0x23, [(32, 12)]), (Instr.rTrim, 0xC4, [(32, 96)])] : List Form)) (h : Runs s id c k.2.1 k.2.2)
    (hr : RangeOk s c (2 ^ 32 - 1)) :
    (trimWaits s id = true → exec (k.1 id) s = .next s)
      ∧ (trimWaits s id = false → (partUnits (c.b 32 8) (c.b 40 4) = [] ∨ roStatus s = 0) → exec (k.1 id) s = .next (runTrim (markStarted s c.no) c)) := by
  simp only [List.mem_cons, List.not_mem_nil, or_false] at hk
  obtain rfl | rfl := hk
  · exact ⟨fun hw => if_pos hw, fun hw hro => (if_neg (by rw [hw]; decide)).trans
      (congrArg Host.Outcome.next (runCmd_runs h h.isOp (trimConds_ok hr hro)))⟩
  · exact ⟨fun hw => if_pos hw, fun hw hro => (if_neg (by rw [hw]; decide)).trans
      (congrArg Host.Outcome.next (runCmd_runs h h.isOp (trimConds_ok hr hro)))⟩

/-- What the search for copies under a mask comes to, from state `x` (R402, R403). -/
def Found (c : Cmd) (x : State) (mask : Nat) (t : State) : Prop :=
  ((∀ y ∈ x.flash.stripes, y.filter &&& mask = 0) → (∀ p ∈ x.flash.sets, p.2.filter &&& mask = 0) →
      ∃ y : State, t = complete y c.no 0 ∧ y.flash = { x.flash with discards := [] } ∧ y.dqp = x.dqp ∧ y.mem = x.mem)
    ∧ (∀ y ∈ x.flash.stripes, y.filter &&& mask ≠ 0 → ∃ d ∈ t.flash.discards, d.no = c.no ∧ d.nsid = c.nsid ∧ y.id ∈ d.stripes)

theorem startDiscard_found {x : State} (hnone : x.flash.discards = []) (c : Cmd) (mask : Nat) : Found c x mask (startDiscard x c.no c.nsid mask) :=
  ⟨fun hstripes hsets => ⟨_, startDiscard_empty hnone hstripes hsets, rfl, rfl, rfl⟩, fun _ hy hmask => startDiscard_notes hnone hy hmask⟩

variable (hnone : s.flash.discards = []) (hro : roStatus s = 0) (h : Runs s id c 0x24 [(32, 13)])
include hnone hro h

theorem secureDiscardRange_found {u : State} (hscope : c.b 44 1 = 0) (hr : RangeOk s c (2 ^ 32 - 1)) (hw : trimWaits s id = false)
    (hu : trimRange (markStarted s c.no) c.nsid (c.b 32 8) (c.b 40 4) = some u) :
    Gives (.secureDiscardRange id) s (Found c
      (zeroSlots u fun lua i => luaSpace lua == c.nsid && decide (c.b 32 8 ≤ 8 * luaUnit lua + i) && decide (8 * luaUnit lua + i < c.b 32 8 + c.b 40 4))
      (rangeMask c.nsid (c.b 32 8 / 8) ((c.b 32 8 + c.b 40 4 - 1) / 8))) := by
  have hconds : ∀ x ∈ cond (decide (1 < c.b 44 1)) 0x1002 :: rangeConds s c (2 ^ 32 - 1) ++ [roStatus s], x = 0 := by
    intro x hx
    obtain hx | hx := List.mem_append.mp hx
    · obtain rfl | hx := List.mem_cons.mp hx
      · rw [hscope]
        rfl
      · exact rangeConds_ok hr x hx
    · rw [List.mem_singleton.mp hx, hro]
  have hdiscards := (KeepsDiscards.trimRange hu).discards
  refine ⟨_, (if_neg (by rw [hw]; decide)).trans (congrArg Host.Outcome.next (runCmd_runs h (h.isOp_and (by rw [hscope]; rfl)) hconds)), ?_⟩
  dsimp only
  rw [hu]
  exact startDiscard_found (x := zeroSlots u _) (hdiscards.trans hnone) c _

theorem secureDiscardReleased_found (hscope : c.b 44 1 = 1) (hfirst : c.b 32 8 = 0) (hcount : c.b 40 4 = 0) :
    Gives (.secureDiscardReleased id) s fun t => (∀ p ∈ t.flash.released, p.1 ≠ domOf c.nsid)
      ∧ Found c (zeroSlots (updFlash (markStarted s c.no) fun f => { f with released := f.released.filter (fun u => u.1 != domOf c.nsid) })
            fun lua _ => s.flash.released.any (fun u => u.1 == domOf c.nsid && u.2 == lua))
          (((s.flash.released.filter (fun u => u.1 == domOf c.nsid)).map (·.2)).foldl (fun m lua => m ||| filterBit lua) 0) t := by
  have hsame (lua : Nat) : ((s.flash.released.filter (fun u => u.1 == domOf c.nsid)).map (·.2)).contains lua
      = s.flash.released.any fun u => u.1 == domOf c.nsid && u.2 == lua := by
    rw [Bool.eq_iff_iff]
    simp
  refine ⟨_, congrArg Host.Outcome.next (runCmd_runs h (h.isOp_and (by rw [hscope]; rfl)) fun x hx => ?_), ?_⟩
  · obtain rfl | hx := List.mem_cons.mp hx
    · simp [cond, hfirst, hcount]
    · rw [List.mem_singleton.mp hx, hro]
  · have hhit : (fun lua (_ : Nat) => s.flash.released.any fun u => u.1 == domOf c.nsid && u.2 == lua)
        = fun lua _ => ((s.flash.released.filter (fun u => u.1 == domOf c.nsid)).map (·.2)).contains lua :=
      funext fun lua => funext fun _ => (hsame lua).symm
    rw [hhit]
    refine ⟨?_, startDiscard_found ?_ c _⟩
    · rw [startDiscard_released]
      intro p hp
      simpa using (List.mem_filter.mp hp).2
    · exact hnone

end Rows

/-- Settles O23: block by block for a WRITE, unit by unit for a TRIM, and for a discard by the stripes that can hold a copy. -/
theorem writesFlushesAndDiscards : Obligations.WritesFlushesAndDiscards := by
  unfold Obligations.WritesFlushesAndDiscards
  refine ⟨fun s id c hs hdue hro hr hgrant hlt => ⟨fun halone hdone h hbuf hflags hdurable => ?_, fun halone hdone h hbuf hembed hdurable => ?_,
      fun hid hop hphase hc hone hdurable => ?_⟩,
    fun s id c d hro hr hdone hc hbuf hrefuse => ⟨fun h hflags => ?_, fun h => ?_⟩,
    fun s id c hs halone hdue k hk j hj => ⟨fun h hdurable hmedia => ?_, fun h hslot => ?_, fun h hr hnone => ?_,
      fun u h hr hro hu hw => ?_⟩,
    fun s id c hnone hro h => ⟨fun u => secureDiscardRange_found hnone hro h, secureDiscardReleased_found hnone hro h⟩⟩
  · exact ⟨_, write_starts hro hr h hbuf hflags,
      pumpWrite_started hs.maps halone hdue hdone (by rw [h.opcode]; rfl) (.inl h.opcode) hgrant hdurable⟩
  · exact ⟨_, rWrite_starts hro hr h hbuf,
      pumpWrite_started hs.maps halone hdue hdone (by rw [h.opcode]; rfl) (.inr ⟨h.opcode, hembed⟩) hgrant hdurable⟩
  · have hwrite : isWrite c.opcode = true := by rw [hop]; rfl
    exact ⟨_, writeResume_goes hid hwrite hphase hdue hlt, pumpWrite_comes hs.maps hc hphase hdue hwrite (.inl hop) hone hgrant hdurable⟩
  · rw [write_starts hro hr h hbuf hflags]
    exact congrArg Host.Outcome.next (pumpWrite_refused (s := markStarted s c.no) (c := { c with phase := .started }) (findCmd_markStarted hc) hdone hrefuse)
  · rw [rWrite_starts hro hr h hbuf]
    exact congrArg Host.Outcome.next (pumpWrite_refused (s := markStarted s c.no) (c := { c with phase := .started }) (findCmd_markStarted hc) hdone hrefuse)
  · obtain ⟨hop, hexec⟩ := flush_starts hk h
    exact ⟨_, hexec, markStarted s c.no, rfl, flush_ends halone hdue hop hdurable hmedia⟩
  · obtain ⟨_, hexec⟩ := flush_starts hk h
    obtain ⟨p, hp, hspace, hstaged⟩ := hslot
    refine ⟨_, hexec, ?_⟩
    rw [flush_waits halone hp hspace hstaged]
    exact ⟨rfl, fun q hq hspace hstaged => flushNoted_notes (s := markStarted s c.no) hq hspace hstaged⟩
  · have hid : cmdById s id = some c := by
      obtain ⟨_, hid, _⟩ := h
      exact hid
    exact (trim_rows hj h hr).1 (trimWaits_of_none hid hr hnone)
  · obtain ⟨hzero, hother⟩ := trimRange_zeroes (s := markStarted s c.no) ⟨hs.maps.blocks, hs.maps.lost, hs.maps.map⟩ hu
    refine ⟨_, (trim_rows hj h hr).2 hw hro, ?_, fun b ha hb hmapped => hzero b ha hb (Option.isSome_iff_ne_none.mpr hmapped), fun b _ hb => hother b hb⟩
    simp only [runTrim, hu]

end Sys2Proof.Machine
end

section
/-!
PROOFS. Scope: register accesses of the sideband and the sideband image (R62, R63).
-/
namespace Sys2Proof.Machine

/-! ### The sideband's accesses (R8, R9, R62, R474) -/

/-- Where the sideband's address points. -/
def sbAddr (a : Nat) : Nat := configBase + a % 2 ^ 22

theorem sbAddr_mod (a : Nat) : sbAddr a % 4 = a % 4 := by
  simp only [sbAddr, configBase]
  omega

theorem sidebandWrite_eq (s : State) (a w v : Nat) :
    exec (.sidebandRegAccess true ⟨a, w⟩ v) s = exec (.regWrite 2 ⟨sbAddr a, w⟩ v) s := by
  show execSidebandRegAccess true ⟨a, w⟩ v s = execRegWrite 2 ⟨sbAddr a, w⟩ v s
  rfl

theorem sidebandRead_eq (s : State) (a v : Nat) : exec (.sidebandRegAccess false ⟨a, 4⟩ v) s = exec (.loReadLatch 2 (sbAddr a)) s := by
  show execSidebandRegAccess false ⟨a, 4⟩ v s = execLoReadLatch 2 (sbAddr a) s
  rfl

/-- An access off its word, or of another width, is rejected (R8). -/
theorem sideband_misplaced {s : State} {a w : Nat} (v : Nat) (hup : portUp s 2 = true) (h : a % 4 ≠ 0 ∨ w ≠ 4) (b : Bool) :
    exec (.sidebandRegAccess b ⟨a, w⟩ v) s = .next { s with out := s.out ++ [answer 2 (sbAddr a) 0x1002 0] } := by
  have hacc : regAccess s false b (sbAddr a) v w = (s, 0x1002, 0) := by
    unfold regAccess
    cases islandAt (sbAddr a) with
    | none => rfl
    | some x => exact if_pos (by rwa [sbAddr_mod])
  show Host.Outcome.next (portAccess s 2 b (sbAddr a) v w) = _
  have hport : ((2 : Nat) == 1) = false := rfl
  simp only [portAccess, hup, if_true, hport, hacc]
  rfl

section Reads
variable {s : State} {a isl off i j : Nat} {r : Reg} (ha : islandAt (sbAddr a) = some (isl, off)) (h4 : a % 4 = 0)
  (hr : findReg isl off = some (r, i, j)) (hc : CanReach s 2 isl)
include ha h4 hr hc

theorem sideband_write (hwf : State.wf s = true) {v : Nat} (hw : WordOk s 2 isl r i v) (hn : r.num ∉ specialRegs) :
    Gives (.sidebandRegAccess true ⟨a, 4⟩ v) s fun t =>
      (∀ f ∈ r.fields, ∀ b, b < f.w → (getF t isl f i j).testBit b = bitAfter f.acc (getF s isl f i j) (bits v f.lo f.w) b)
        ∧ RegsBut s t (r.fields.map (fun f => fieldKey isl f i j))
        ∧ t = { s with regs := t.regs, out := s.out ++ [answer 2 (sbAddr a) 0 0] } := by
  obtain ⟨t, ht, hall⟩ := regWrite_plain hwf ha (by rwa [sbAddr_mod]) hr hc hw hn
  exact ⟨t, (sidebandWrite_eq s a 4 v).trans ht, hall⟩

/-- A read that latches nothing changes nothing. -/
theorem sideband_read (v : Nat) (hpair : pairOf s isl r.num i = none) :
    exec (.sidebandRegAccess false ⟨a, 4⟩ v) s = .next { s with out := s.out ++ [answer 2 (sbAddr a) 0 (viewReg s 0 isl r i j)] } := by
  obtain ⟨hup, hen, hopen⟩ := hc
  have hlatch : latchHi s 0 isl r i = s := by simp only [latchHi, hpair]
  rw [sidebandRead_eq, exec_loReadLatch hup ha (by rwa [sbAddr_mod]) hopen hen hr fun h => absurd h (by decide)]
  show Host.Outcome.next (emit (latchHi s 0 isl r i) _) = _
  rw [hlatch]
  rfl

theorem sideband_readLatches (v : Nat) {x : Nat} (hx : pairOf s isl r.num i = some x) (hlt : x < 2 ^ 64) (hs : mSorted none s.counters.latches = true) :
    Gives (.sidebandRegAccess false ⟨a, 4⟩ v) s fun t =>
      t.out = s.out ++ [answer 2 (sbAddr a) 0 (x % 2 ^ 32)]
        ∧ (∀ hi : Reg, loOf hi.num = some r.num → viewReg t 0 isl hi i j = x / 2 ^ 32)
        ∧ t = { s with counters := { s.counters with latches := t.counters.latches }, out := t.out } := by
  obtain ⟨t, ht, hall⟩ := loReadLatch_pair hs ha (by rwa [sbAddr_mod]) hr hc (fun h => absurd h (by decide)) hx hlt
  exact ⟨t, (sidebandRead_eq s a v).trans ht, hall⟩

end Reads

/-! ### Words written to the registers of the sideband image -/

/-- The two registers whose write acts (R63). -/
theorem sbImgCtrl_at : islandAt (regAddr 56 R.DQP_SB_IMG_CTRL.num 0) = some (56, regAddr 56 R.DQP_SB_IMG_CTRL.num 0 % 0x10000)
    ∧ regAddr 56 R.DQP_SB_IMG_CTRL.num 0 % 4 = 0
    ∧ findReg 56 (regAddr 56 R.DQP_SB_IMG_CTRL.num 0 % 0x10000) = some (R.DQP_SB_IMG_CTRL, 0, 0) := by
  decide +kernel

theorem sbImgData_at : islandAt (regAddr 56 R.DQP_SB_IMG_DATA.num 0) = some (56, regAddr 56 R.DQP_SB_IMG_DATA.num 0 % 0x10000)
    ∧ regAddr 56 R.DQP_SB_IMG_DATA.num 0 % 4 = 0
    ∧ findReg 56 (regAddr 56 R.DQP_SB_IMG_DATA.num 0 % 0x10000) = some (R.DQP_SB_IMG_DATA, 0, 0) := by
  decide +kernel

/-- CMD takes 0, 1 and 2, and DATA every word (R11). -/
theorem sbCtrl_legal (s : State) {v : Nat} (hv : v ≤ 2) : legalWord s 56 R.DQP_SB_IMG_CTRL v = true := by
  interval_cases v <;> rfl

theorem sbData_legal (s : State) {v : Nat} (hv : v < 2 ^ 32) : legalWord s 56 R.DQP_SB_IMG_DATA v = true := by
  have hbits : bits v 0 32 = v := by rw [bits, Nat.shiftRight_zero, Nat.mod_eq_of_lt hv]
  have hword : legalWord s 56 R.DQP_SB_IMG_DATA v = (v - (0 + bits v 0 32 * 2 ^ 0) == 0) := by
    show (_ && true) = _
    rw [Bool.and_true]
    rfl
  rw [hword, hbits]
  simp

section Image
variable {s : State} (hc : CanReach s 2 56)
include hc

theorem sbCtrl_write {v status : Nat} {t : State} (hv : v ≤ 2) (hw : writeSbCtrl s v = (t, status)) :
    portAccess s 2 true (regAddr 56 R.DQP_SB_IMG_CTRL.num 0) v
      = { t with out := t.out ++ [answer 2 (regAddr 56 R.DQP_SB_IMG_CTRL.num 0) status 0] } := by
  obtain ⟨hup, hen, hopen⟩ := hc
  obtain ⟨haddr, h4, hreg⟩ := sbImgCtrl_at
  refine Host.Outcome.next.inj (exec_regWrite hup haddr h4 hopen (Nat.lt_of_le_of_lt hv (by decide)) ?_)
  have hfree : lkFree s 56 R.DQP_SB_IMG_CTRL 0 = true := rfl
  rw [writeReg_legal (answers_of_enabled _ hen) hreg (.inr rfl) rfl (sbCtrl_legal s hv), hfree]
  exact hw

theorem sbData_write {v status : Nat} {t : State} (hv : v < 2 ^ 32) (hw : writeSbData s v = (t, status)) :
    portAccess s 2 true (regAddr 56 R.DQP_SB_IMG_DATA.num 0) v
      = { t with out := t.out ++ [answer 2 (regAddr 56 R.DQP_SB_IMG_DATA.num 0) status 0] } := by
  obtain ⟨hup, hen, hopen⟩ := hc
  obtain ⟨haddr, h4, hreg⟩ := sbImgData_at
  refine Host.Outcome.next.inj (exec_regWrite hup haddr h4 hopen hv ?_)
  have hfree : lkFree s 56 R.DQP_SB_IMG_DATA 0 = true := rfl
  rw [writeReg_legal (answers_of_enabled _ hen) hreg (.inr rfl) rfl (sbData_legal s hv), hfree]
  exact hw

end Image

/-! ### What counting an event leaves alone (R476-R481) -/

/-- Registers of islands below `isl` and what the module has put out stay; the register store keeps its form. -/
structure CountsOn (isl : Nat) (s t : State) : Prop where
  sorted : mSorted none s.regs = true → mSorted none t.regs = true
  below : mSorted none s.regs = true → ∀ k, k < isl * 2 ^ 31 → mfind t.regs k = mfind s.regs k
  out : t.out = s.out

theorem fieldKey_ge (isl : Nat) (f : Field) (i j : Nat) : isl * 2 ^ 31 ≤ fieldKey isl f i j := by
  simp only [fieldKey]
  omega

namespace CountsOn
variable {isl : Nat} {s t u : State}

theorem of_regs (hr : t.regs = s.regs) (ho : t.out = s.out) : CountsOn isl s t :=
  ⟨fun hs => hr ▸ hs, fun _ _ _ => by rw [hr], ho⟩

theorem refl (s : State) : CountsOn isl s s := of_regs rfl rfl

theorem trans (h : CountsOn isl s t) (h' : CountsOn isl t u) : CountsOn isl s u :=
  ⟨fun hs => h'.sorted (h.sorted hs), fun hs k hk => (h'.below (h.sorted hs) k hk).trans (h.below hs k hk), h'.out.trans h.out⟩

theorem foldl {α : Type} {f : State → α → State} (h : ∀ s a, CountsOn isl s (f s a)) (l : List α) (s : State) : CountsOn isl s (l.foldl f s) := by
  induction l generalizing s with
  | nil => exact refl s
  | cons a l ih => exact (h s a).trans (ih (f s a))

theorem setF {isl' : Nat} (h : isl ≤ isl') (s : State) (f : Field) (v i j : Nat) : CountsOn isl s (setF s isl' f v i j) :=
  ⟨fun hs => setF_regs_sorted hs .., fun hs _ hk => mfind_mset_ne _ _ (Nat.ne_of_lt (Nat.lt_of_lt_of_le hk
    (Nat.le_trans (Nat.mul_le_mul_right _ h) (fieldKey_ge isl' f i j)))) hs, rfl⟩

theorem addF (s : State) (f : Field) (n i j : Nat) : CountsOn isl s (addF s isl f n i j) := setF (Nat.le_refl isl) s f _ i j

theorem putWords (i : Nat) (l : List Byte) (s : State) : CountsOn isl s (putWords isl i l s) := by
  fun_induction Machine.putWords isl i l s with
  | case1 => exact refl _
  | case2 i b0 b1 b2 b3 l s ih => exact (setF (Nat.le_refl isl) s _ _ _ _).trans ih
  | case3 => exact refl _

theorem writeSample (s : State) (r : List Byte) : CountsOn isl s (writeSample s isl r) := by
  unfold Machine.writeSample
  split
  · exact addF ..
  · extract_lets below _ armed head filled moved flit
    have harmed : CountsOn isl s armed := by
      unfold armed
      split
      · exact of_regs rfl rfl
      · exact refl s
    have hmoved : CountsOn isl s moved := (harmed.trans (putWords _ r armed)).trans (setF (Nat.le_refl isl) ..)
    split
    · exact hmoved.trans (of_regs rfl rfl)
    · exact hmoved

theorem cycleSamples (s : State) (k sh v m n : Nat) : CountsOn isl s (cycleSamples s isl k sh v m n) := by
  unfold Machine.cycleSamples
  extract_lets room taken
  have htaken : CountsOn isl s taken := foldl (fun t j => writeSample t _) _ s
  split
  · exact htaken.trans (addF ..)
  · exact htaken

theorem countOne (code unit slot n : Nat) (x : Source) (s : State) (k : Nat) : CountsOn isl s (countOne isl code unit slot n x s k) := by
  unfold Machine.countOne
  split
  case isFalse => exact refl s
  extract_lets v w _ counted saturated sh m missed
  have hsaturated : CountsOn isl s saturated := by
    unfold saturated
    split
    · exact (of_regs rfl rfl : CountsOn isl s counted).trans (setF (Nat.le_refl isl) ..)
    · exact of_regs rfl rfl
  have hmissed : CountsOn isl saturated missed := by
    unfold missed
    split
    · exact refl saturated
    · exact addF ..
  split
  · split
    · exact hsaturated.trans (cycleSamples ..)
    · refine (hsaturated.trans hmissed).trans ?_
      split
      · exact addF ..
      · exact of_regs rfl rfl
  · exact hsaturated

theorem countEv (s : State) (code unit n slot : Nat) : CountsOn isl s (countEv s isl code unit n slot) := by
  unfold Machine.countEv countSrc
  split
  · exact refl s
  · exact foldl (fun t k => countOne code unit slot n _ t k) _ s

/-- A field of an island below reads as before. -/
theorem getF_eq (h : CountsOn isl s t) (hs : mSorted none s.regs = true) {isl' i j : Nat} {f : Field} (hk : fieldKey isl' f i j < isl * 2 ^ 31) :
    getF t isl' f i j = getF s isl' f i j :=
  getF_of_mfind (h.below hs _ hk)

end CountsOn

/-! ### The image handed to check() (R44, R63) -/

/-- The code of the bytes in hand. -/
def sbCode (s : State) : Nat :=
  if s.dqp.sbImage.length = imgLength s.dqp.sbImage then checkImage s (getF s 58 F.IMG_COUNTER_COUNTER) s.dqp.sbImage else 0x7004

/-- RESULT shows the code. -/
def sbResult (s : State) : State := setF s 56 F.DQP_SB_IMG_RESULT_RESULT (sbCode s)

/-- The image is the active one, and step 3 goes on. -/
def sbAccepted (s : State) (d : List Byte) : State := nextStep (setF (chooseImage s d 3) 56 F.DQP_SB_IMG_STAT_WAITING 0) 2 3

def sbDiscarded (s : State) : State := updDqp s fun d => { d with sbImage := [] }

/-- At most an event of island 58 is counted between the result and what comes of it. -/
theorem submitSideband_eq (s : State) : ∃ u, Sends (sbResult s) u ∧ CountsOn 58 (sbResult s) u ∧ (getF (sbResult s) 58 F.CNT_CTRL_EN = 0 → u = sbResult s)
    ∧ submitSideband s = if sbCode s = 0 then sbAccepted u s.dqp.sbImage else sbDiscarded u := by
  have hcode : (if s.dqp.sbImage.length ≠ imgLength s.dqp.sbImage then 0x7004
      else checkImage s (getF s 58 F.IMG_COUNTER_COUNTER) s.dqp.sbImage) = sbCode s := ite_not ..
  by_cases hverifies : s.dqp.sbImage.length = imgLength s.dqp.sbImage ∧ imgVerifies (sbResult s) s.dqp.sbImage
  · refine ⟨countEv (sbResult s) 58 0x78 0 1, Sends.countEv .., CountsOn.countEv .., fun hoff => countEv_off hoff .., ?_⟩
    unfold submitSideband
    dsimp only
    rw [hcode]
    exact congrArg (fun u => if sbCode s = 0 then sbAccepted u s.dqp.sbImage else sbDiscarded u) (if_pos hverifies)
  · refine ⟨sbResult s, Sends.refl _, CountsOn.refl _, fun _ => rfl, ?_⟩
    unfold submitSideband
    dsimp only
    rw [hcode]
    exact congrArg (fun u => if sbCode s = 0 then sbAccepted u s.dqp.sbImage else sbDiscarded u) (if_neg hverifies)

theorem countsOn_nextStep (s : State) (n k : Nat) : CountsOn 59 s (nextStep s n k) := by
  unfold nextStep
  extract_lets now timed
  have htimed : CountsOn 59 s timed := CountsOn.addF ..
  refine (htimed.trans ?_).trans (CountsOn.setF (Nat.le_refl 59) ..)
  exact CountsOn.of_regs rfl rfl

theorem countsOn_putDigest (s : State) (f : Field) (b : List Byte) : CountsOn 58 s (putDigest s f b) :=
  CountsOn.foldl (fun _ _ => CountsOn.setF (Nat.le_refl 58) ..) _ s

theorem countsOn_chooseImage (s : State) (d : List Byte) (source : Nat) : CountsOn 58 s (chooseImage s d source) := by
  unfold chooseImage
  extract_lets a _ _ taken digested
  have htaken : CountsOn 58 s taken := CountsOn.of_regs rfl rfl
  have hdigested : CountsOn 58 taken digested := (CountsOn.setF (Nat.le_refl 58) ..).trans (countsOn_putDigest ..)
  exact (htaken.trans hdigested).trans (CountsOn.setF (Nat.le_refl 58) ..)

theorem chooseImage_active (s : State) (d : List Byte) (source : Nat) : (chooseImage s d source).boot.active = d := by
  unfold chooseImage
  extract_lets a _ _ taken digested
  have hanchor : KeepsCounter taken (setF taken 58 F.ID_ANCHORS_USED a) := .setF_elsewhere (by decide) taken 58 a (by decide)
  have hdigested : KeepsCounter taken digested := hanchor.trans (keepsCounter_putDigest (by decide) _ _)
  exact (hdigested.trans (keepsCounter_setF_source digested source)).active

theorem chooseImage_source {s : State} (hs : mSorted none s.regs = true) (d : List Byte) (source : Nat) :
    getF (chooseImage s d source) 58 F.IMG_STATUS_SOURCE = source % 2 ^ F.IMG_STATUS_SOURCE.w := by
  unfold chooseImage
  extract_lets a _ _ taken digested
  have hdigested : CountsOn 58 taken digested := (CountsOn.setF (Nat.le_refl 58) ..).trans (countsOn_putDigest ..)
  exact getF_setF_same (hdigested.sorted hs) ..

/-- check() looks at the module's variant, its identity and the state of the derivation. -/
theorem checkImage_setF {s : State} (hs : mSorted none s.regs = true) {isl i j : Nat} {f : Field} (v : Nat)
    (hk : fieldKey 58 F.ID_STATUS_STATE 0 0 ≠ fieldKey isl f i j) (counter : Nat) (d : List Byte) :
    checkImage (setF s isl f v i j) counter d = checkImage s counter d := by
  have hfull : imgFullOk (setF s isl f v i j) d = imgFullOk s d := rfl
  have hanchor : imgAnchor (setF s isl f v i j) d = imgAnchor s d := rfl
  have hstate : getF (setF s isl f v i j) 58 F.ID_STATUS_STATE = getF s 58 F.ID_STATUS_STATE := getF_setF_ne hs _ _ _ _ _ _ _ _ _ hk
  have hme : imgForMe (setF s isl f v i j) d = imgForMe s d := by
    unfold imgForMe
    rw [hstate]
    rfl
  simp only [checkImage, hfull, hanchor, hme]

theorem nextStep_step {s : State} (hs : mSorted none s.regs = true) (n k : Nat) :
    getF (nextStep s n k) 59 F.WEIR_STATUS_STEP = (if k = 9 then 0 else k) % 2 ^ F.WEIR_STATUS_STEP.w := by
  unfold nextStep
  extract_lets now timed
  have htimed : CountsOn 59 s timed := CountsOn.addF ..
  exact getF_setF_same (htimed.sorted hs) ..

theorem setF_active (s : State) (isl : Nat) (f : Field) (v i j : Nat) : (setF s isl f v i j).boot.active = s.boot.active := rfl

/-- An image that is accepted: active, from the sideband, in step 3, and no longer waited for. -/
theorem sbAccepted_shows {u : State} (hs : mSorted none u.regs = true) (d : List Byte) :
    (sbAccepted u d).boot.active = d ∧ getF (sbAccepted u d) 58 F.IMG_STATUS_SOURCE = 3 ∧ getF (sbAccepted u d) 59 F.WEIR_STATUS_STEP = 3
      ∧ getF (sbAccepted u d) 56 F.DQP_SB_IMG_STAT_WAITING = 0
      ∧ getF (sbAccepted u d) 56 F.DQP_SB_IMG_RESULT_RESULT = getF u 56 F.DQP_SB_IMG_RESULT_RESULT ∧ (sbAccepted u d).out = u.out := by
  have hchosen := countsOn_chooseImage u d 3
  have hsc := hchosen.sorted hs
  have hsw : mSorted none (setF (chooseImage u d 3) 56 F.DQP_SB_IMG_STAT_WAITING 0).regs = true := setF_regs_sorted hsc ..
  have hnext := countsOn_nextStep (setF (chooseImage u d 3) 56 F.DQP_SB_IMG_STAT_WAITING 0) 2 3
  refine ⟨?_, ?_, (nextStep_step hsw 2 3).trans (by decide), ?_, ?_, (hnext.out.trans (setF_out ..)).trans hchosen.out⟩
  · exact ((keepsCounter_nextStep _ (by decide) 3).active.trans (setF_active ..)).trans (chooseImage_active u d 3)
  · exact ((hnext.getF_eq hsw (by decide)).trans (getF_setF_ne hsc _ _ _ _ _ _ _ _ _ (by decide))).trans (chooseImage_source hs d 3)
  · exact (hnext.getF_eq hsw (by decide)).trans (getF_setF_same hsc ..)
  · exact ((hnext.getF_eq hsw (by decide)).trans (getF_setF_ne hsc _ _ _ _ _ _ _ _ _ (by decide))).trans (hchosen.getF_eq hs (by decide))

/-! ### The three commands of the image (R63) -/

/-- CMD reads 0. -/
def sbCmdZero (s : State) : State := setF s 56 F.DQP_SB_IMG_CTRL_CMD 0

theorem regsBut_setF {s : State} (hs : mSorted none s.regs = true) (isl : Nat) (f : Field) (v i j : Nat) :
    RegsBut s (setF s isl f v i j) [fieldKey isl f i j] :=
  fun _ hk => mfind_mset_ne _ _ (by simpa using hk) hs

theorem RegsBut.trans {s t u : State} {l m : List Nat} (h : RegsBut s t l) (h' : RegsBut t u m) : RegsBut s u (l ++ m) := by
  intro k hk
  obtain ⟨hl, hm⟩ := not_or.mp (mt List.mem_append.mpr hk)
  exact (h' k hm).trans (h k hl)

theorem RegsBut.of_regs {s t u : State} {l : List Nat} (h : RegsBut s t l) (hr : u.regs = t.regs) : RegsBut s u l := fun k hk => by
  rw [hr]
  exact h k hk

/-- An access answered with its status. -/
def answered (s : State) (reg : Reg) (status : Nat) : State := { s with out := s.out ++ [answer 2 (regAddr 56 reg.num 0) status 0] }

section Commands
variable {s : State} (hc : CanReach s 2 56)
include hc

theorem exec_sbImgOpen {t : State} {status : Nat} (h : writeSbCtrl s 1 = (t, status)) :
    exec .sbImgOpen s = .next (answered t R.DQP_SB_IMG_CTRL status) :=
  congrArg Host.Outcome.next (sbCtrl_write hc (by decide) h)

theorem exec_sbImgSubmit {t : State} {status : Nat} (h : writeSbCtrl s 2 = (t, status)) :
    exec .sbImgSubmit s = .next (answered t R.DQP_SB_IMG_CTRL status) :=
  congrArg Host.Outcome.next (sbCtrl_write hc (by decide) h)

theorem exec_sbImgData {v : Nat} (hv : v < 2 ^ 32) {t : State} {status : Nat} (h : writeSbData s v = (t, status)) :
    exec (.sbImgData v) s = .next (answered t R.DQP_SB_IMG_DATA status) :=
  congrArg Host.Outcome.next (sbData_write hc hv h)

/-- While no image is awaited each is rejected. -/
theorem sbImg_notAwaited (hw : getF s 56 F.DQP_SB_IMG_STAT_WAITING = 0) {v : Nat} (hv : v < 2 ^ 32) :
    exec .sbImgOpen s = .next (answered s R.DQP_SB_IMG_CTRL 0x1003) ∧ exec (.sbImgData v) s = .next (answered s R.DQP_SB_IMG_DATA 0x1003)
      ∧ exec .sbImgSubmit s = .next (answered s R.DQP_SB_IMG_CTRL 0x1003) :=
  ⟨exec_sbImgOpen hc (if_pos hw), exec_sbImgData hc hv (if_pos (.inl hw)), exec_sbImgSubmit hc (if_pos hw)⟩

theorem sbImgData_rejected {v : Nat} (hv : v < 2 ^ 32) (hleft : getF s 56 F.DQP_SB_IMG_LEN_LENGTH - s.dqp.sbImage.length = 0
      ∨ (getF s 56 F.DQP_SB_IMG_LEN_LENGTH - s.dqp.sbImage.length < 4 ∧ 256 ^ (getF s 56 F.DQP_SB_IMG_LEN_LENGTH - s.dqp.sbImage.length) ≤ v)) :
    exec (.sbImgData v) s = .next (answered s R.DQP_SB_IMG_DATA 0x1003) :=
  exec_sbImgData hc hv (if_pos (.inr hleft))

variable (hw : getF s 56 F.DQP_SB_IMG_STAT_WAITING = 1)
include hw

theorem sbImgOpen_opens : exec .sbImgOpen s = .next (answered (sbDiscarded (sbCmdZero s)) R.DQP_SB_IMG_CTRL 0) :=
  exec_sbImgOpen hc (if_neg (ne_of_eq_of_ne hw Nat.one_ne_zero))

theorem sbImgSubmit_submits (hlen : s.dqp.sbImage.length = getF s 56 F.DQP_SB_IMG_LEN_LENGTH) (hs : mSorted none s.regs = true) :
    exec .sbImgSubmit s = .next (answered (submitSideband (sbCmdZero s)) R.DQP_SB_IMG_CTRL 0) := by
  refine exec_sbImgSubmit hc ((if_neg (ne_of_eq_of_ne hw Nat.one_ne_zero)).trans ?_)
  have hlen' : getF (sbCmdZero s) 56 F.DQP_SB_IMG_LEN_LENGTH = getF s 56 F.DQP_SB_IMG_LEN_LENGTH := getF_setF_ne hs _ _ _ _ _ _ _ _ _ (by decide)
  exact if_neg (not_not_intro (hlen.trans hlen'.symm))

theorem sbImgSubmit_tooShort (hlen : s.dqp.sbImage.length ≠ getF s 56 F.DQP_SB_IMG_LEN_LENGTH) (hs : mSorted none s.regs = true) :
    exec .sbImgSubmit s = .next (answered (sbCmdZero s) R.DQP_SB_IMG_CTRL 0x1003) := by
  refine exec_sbImgSubmit hc ((if_neg (ne_of_eq_of_ne hw Nat.one_ne_zero)).trans ?_)
  have hlen' : getF (sbCmdZero s) 56 F.DQP_SB_IMG_LEN_LENGTH = getF s 56 F.DQP_SB_IMG_LEN_LENGTH := getF_setF_ne hs _ _ _ _ _ _ _ _ _ (by decide)
  exact if_pos fun heq => hlen (heq.trans hlen')

/-- The bytes of the word that still fit are appended. -/
theorem sbImgData_appends {v : Nat} (hv : v < 2 ^ 32) (hleft : 0 < getF s 56 F.DQP_SB_IMG_LEN_LENGTH - s.dqp.sbImage.length)
    (hfits : getF s 56 F.DQP_SB_IMG_LEN_LENGTH - s.dqp.sbImage.length < 4 → v < 256 ^ (getF s 56 F.DQP_SB_IMG_LEN_LENGTH - s.dqp.sbImage.length)) :
    exec (.sbImgData v) s = .next (answered
      (setF (updDqp s fun d => { d with sbImage := d.sbImage ++ (toBytes 4 v).take (getF s 56 F.DQP_SB_IMG_LEN_LENGTH - s.dqp.sbImage.length) })
        56 F.DQP_SB_IMG_DATA_DATA v) R.DQP_SB_IMG_DATA 0) := by
  refine exec_sbImgData hc hv (if_neg ?_)
  rintro (hnone | hzero | ⟨hlt, hover⟩)
  · exact absurd (hw.symm.trans hnone) Nat.one_ne_zero
  · exact Nat.ne_of_gt hleft hzero
  · exact Nat.not_le.mpr (hfits hlt) hover

end Commands

/-! ### What comes of a submission -/

section Submit
variable {s : State} (hs : mSorted none s.regs = true)
include hs

theorem sbCode_cmdZero : sbCode (sbCmdZero s) = sbCode s := by
  have hcheck := checkImage_setF hs (f := F.DQP_SB_IMG_CTRL_CMD) (isl := 56) (i := 0) (j := 0) 0 (by decide)
    (getF s 58 F.IMG_COUNTER_COUNTER) s.dqp.sbImage
  have hcounter : getF (sbCmdZero s) 58 F.IMG_COUNTER_COUNTER = getF s 58 F.IMG_COUNTER_COUNTER := getF_setF_ne hs _ _ _ _ _ _ _ _ _ (by decide)
  have hdqp : (sbCmdZero s).dqp = s.dqp := rfl
  rw [sbCode, sbCode, hcounter, hdqp, ← hcheck]
  rfl

/-- What the bytes in hand come to, in the words of the statement. -/
structure SbComes (s t : State) : Prop where
  result : getF t 56 F.DQP_SB_IMG_RESULT_RESULT = sbCode s % 2 ^ 16
  out : t.out = s.out
  accepted : sbCode s = 0 → t.boot.active = s.dqp.sbImage ∧ getF t 58 F.IMG_STATUS_SOURCE = 3 ∧ getF t 59 F.WEIR_STATUS_STEP = 3
    ∧ getF t 56 F.DQP_SB_IMG_STAT_WAITING = 0
  rejected : sbCode s ≠ 0 → t.boot = s.boot ∧ t.dqp = { s.dqp with sbImage := [] } ∧ getF t 56 F.DQP_SB_IMG_STAT_WAITING = 1
    ∧ (getF s 58 F.CNT_CTRL_EN = 0 → RegsBut s t [fieldKey 56 F.DQP_SB_IMG_CTRL_CMD 0 0, fieldKey 56 F.DQP_SB_IMG_RESULT_RESULT 0 0])

theorem submitSideband_comes (hw : getF s 56 F.DQP_SB_IMG_STAT_WAITING = 1) : SbComes s (submitSideband (sbCmdZero s)) := by
  have hsz : mSorted none (sbCmdZero s).regs = true := setF_regs_sorted hs ..
  have hsr : mSorted none (sbResult (sbCmdZero s)).regs = true := setF_regs_sorted hsz ..
  obtain ⟨u, hsends, hcounts, hoff, hsubmit⟩ := submitSideband_eq (sbCmdZero s)
  have hsu := hcounts.sorted hsr
  have hresult : getF u 56 F.DQP_SB_IMG_RESULT_RESULT = sbCode s % 2 ^ 16 := by
    rw [← sbCode_cmdZero hs]
    exact (hcounts.getF_eq hsr (by decide)).trans (getF_setF_same hsz ..)
  have hwaiting : getF u 56 F.DQP_SB_IMG_STAT_WAITING = 1 :=
    (hcounts.getF_eq hsr (by decide)).trans ((getF_setF_ne hsz _ _ _ _ _ _ _ _ _ (by decide)).trans
      ((getF_setF_ne hs _ _ _ _ _ _ _ _ _ (by decide)).trans hw))
  have hout : u.out = s.out := hcounts.out
  have hboot : u.boot = s.boot := (congrArg State.boot hsends.eq :)
  have hdqp : u.dqp = s.dqp := hsends.dqp
  have himage : (sbCmdZero s).dqp.sbImage = s.dqp.sbImage := rfl
  rw [hsubmit, sbCode_cmdZero hs, himage]
  by_cases hcode : sbCode s = 0
  · rw [if_pos hcode]
    obtain ⟨hactive, hsource, hstep, hwaits, hkept, hsame⟩ := sbAccepted_shows hsu s.dqp.sbImage
    exact ⟨hkept.trans hresult, hsame.trans hout, fun _ => ⟨hactive, hsource, hstep, hwaits⟩, fun h => absurd hcode h⟩
  · rw [if_neg hcode]
    refine ⟨hresult, hout, fun h => absurd h hcode, fun _ => ⟨hboot, congrArg (fun d : Dqp => { d with sbImage := [] }) hdqp, hwaiting, fun hstopped => ?_⟩⟩
    have hstopped' : getF (sbResult (sbCmdZero s)) 58 F.CNT_CTRL_EN = 0 :=
      (getF_setF_ne hsz _ _ _ _ _ _ _ _ _ (by decide)).trans ((getF_setF_ne hs _ _ _ _ _ _ _ _ _ (by decide)).trans hstopped)
    rw [hoff hstopped']
    exact (regsBut_setF hs 56 F.DQP_SB_IMG_CTRL_CMD 0 0 0).trans (regsBut_setF hsz 56 F.DQP_SB_IMG_RESULT_RESULT _ 0 0)

end Submit

/-- The answer of an access is put out, and nothing else. -/
theorem SbComes.answered {s t : State} (h : SbComes s t) (reg : Reg) (status : Nat) : ∃ u, u = answered t reg status
    ∧ getF u 56 F.DQP_SB_IMG_RESULT_RESULT = sbCode s % 2 ^ 16 ∧ u.out = s.out ++ [answer 2 (regAddr 56 reg.num 0) status 0]
    ∧ (sbCode s = 0 → u.boot.active = s.dqp.sbImage ∧ getF u 58 F.IMG_STATUS_SOURCE = 3 ∧ getF u 59 F.WEIR_STATUS_STEP = 3
        ∧ getF u 56 F.DQP_SB_IMG_STAT_WAITING = 0)
    ∧ (sbCode s ≠ 0 → u.boot = s.boot ∧ u.dqp = { s.dqp with sbImage := [] } ∧ getF u 56 F.DQP_SB_IMG_STAT_WAITING = 1
        ∧ (getF s 58 F.CNT_CTRL_EN = 0 → RegsBut s u [fieldKey 56 F.DQP_SB_IMG_CTRL_CMD 0 0, fieldKey 56 F.DQP_SB_IMG_RESULT_RESULT 0 0])) :=
  ⟨_, rfl, h.result, congrArg (· ++ _) h.out, h.accepted, h.rejected⟩

/-- Settles O10. -/
theorem sidebandPortAndImage : Obligations.SidebandPortAndImage := by
  unfold Obligations.SidebandPortAndImage
  refine ⟨fun s a w v => ⟨sidebandWrite_eq s a w v, sidebandRead_eq s a v, fun hup h b => sideband_misplaced v hup h b⟩,
    fun s a v isl off r i j hwf ha h4 hr hc => ⟨sideband_write ha h4 hr hc hwf, sideband_read ha h4 hr hc v, fun x => sideband_readLatches ha h4 hr hc v⟩,
    fun s v hwf hc hv => ⟨fun hw => ?_, fun hw => sbImg_notAwaited hc hw hv⟩⟩
  obtain ⟨_, hs, _⟩ := (State.wf_iff s).mp hwf
  refine ⟨⟨_, sbImgOpen_opens hc hw, rfl, getF_setF_same hs 56 F.DQP_SB_IMG_CTRL_CMD 0 0 0,
      (regsBut_setF hs 56 F.DQP_SB_IMG_CTRL_CMD 0 0 0).of_regs rfl⟩,
    fun hleft hfits => ⟨_, sbImgData_appends hc hw hv hleft hfits, rfl,
      (regsBut_setF hs 56 F.DQP_SB_IMG_DATA_DATA v 0 0).of_regs rfl⟩, fun hlen => ?_, sbImgData_rejected hc hv,
    fun hlen => ⟨_, sbImgSubmit_tooShort hc hw hlen hs, rfl, (regsBut_setF hs 56 F.DQP_SB_IMG_CTRL_CMD 0 0 0).of_regs rfl⟩⟩
  obtain ⟨u, hu, hall⟩ := (submitSideband_comes hs hw).answered R.DQP_SB_IMG_CTRL 0
  exact ⟨u, (sbImgSubmit_submits hc hw hlen hs).trans (congrArg Host.Outcome.next hu.symm), hall⟩

end Sys2Proof.Machine
end

section
/-!
PROOFS. Scope: O3, the queue of waiting commands: what the functions of Machine/State.lean to Machine/TierOps.lean leave of it.
-/
namespace Sys2Proof.Machine

/-- A command that is done leaves the queue of commands. -/
def KeepsQueue (s : State) (o : Host.Outcome State Fault Refusal) : Prop := ∀ t, o = .next t → t.pending = s.pending

@[simp] theorem keepsQueue_next (s t : State) : KeepsQueue s (.next t) ↔ t.pending = s.pending :=
  ⟨fun h => h t rfl, fun h _ ht => Host.Outcome.next.inj ht ▸ h⟩

@[simp] theorem keepsQueue_ite {c : Prop} [Decidable c] (s : State) (o p : Host.Outcome State Fault Refusal) :
    KeepsQueue s (if c then o else p) ↔ if c then KeepsQueue s o else KeepsQueue s p := by
  split <;> rfl

@[simp] theorem ite_pending {c : Prop} [Decidable c] (s t : State) : (if c then s else t).pending = if c then s.pending else t.pending :=
  apply_ite ..

@[simp] theorem foldl_pending {α : Type} {f : State → α → State} (h : ∀ s a, (f s a).pending = s.pending) (l : List α) (s : State) :
    (l.foldl f s).pending = s.pending := by
  induction l generalizing s with
  | nil => rfl
  | cons a l ih => exact (ih (f s a)).trans (h s a)

/-- One state waits on the commands another waits on. `foldl_pending` through this definition keeps the kernel from
unfolding a fold's step. -/
def SameQueue (s t : State) : Prop := t.pending = s.pending

theorem foldl_sameQueue {α : Type} {f : State → α → State} (h : ∀ s a, SameQueue s (f s a)) (l : List α) (s : State) :
    SameQueue s (l.foldl f s) :=
  foldl_pending h l s

/-- `SameQueue` for the state of a pair. -/
def SameQueueOf {α : Type} (s : State) (x : State × α) : Prop := x.1.pending = s.pending

/-- A state changed or not, as a condition says. -/
theorem SameQueue.ite {c : Prop} [Decidable c] {s t u : State} (ht : SameQueue s t) (hu : SameQueue s u) :
    SameQueue s (if c then t else u) := by
  split
  · exact ht
  · exact hu

theorem SameQueueOf.ite {α : Type} {c : Prop} [Decidable c] {s : State} {x y : State × α} (hx : SameQueueOf s x) (hy : SameQueueOf s y) :
    SameQueueOf s (if c then x else y) := by
  split
  · exact hx
  · exact hy

/-! ### Machine/Ops.lean -/

@[simp] theorem owe_pending (s : State) (quantum : Bool) : (owe s quantum).pending = s.pending := by
  simp [owe]

@[simp] theorem unitMoved_pending (s : State) : (unitMoved s).pending = s.pending := by
  simp [unitMoved]

@[simp] theorem takeFree_pending (s : State) : (takeFree s).2.pending = s.pending := by
  simp [takeFree]

@[simp] theorem wrPBytes_pending (s : State) (a : Nat) (l : List PByte) : (wrPBytes s a l).pending = s.pending := by
  simp [wrPBytes]

@[simp] theorem holdExt_pending (s : State) (stack e : Nat) : (holdExt s stack e).pending = s.pending := by
  simp [holdExt]

/-! ### Machine/Count.lean -/

@[simp] theorem putWords_pending (isl n : Nat) (l : List Byte) (s : State) : (putWords isl n l s).pending = s.pending := by
  fun_induction putWords isl n l s <;> simp_all

@[simp] theorem writeSample_pending (s : State) (isl : Nat) (rec' : List Byte) : (writeSample s isl rec').pending = s.pending := by
  simp [writeSample]

@[simp] theorem cycleSamples_pending (s : State) (isl k sh v m n : Nat) : (cycleSamples s isl k sh v m n).pending = s.pending := by
  simp [cycleSamples]

@[simp] theorem countOne_pending (isl code unit slot n : Nat) (x : Source) (s : State) (k : Nat) :
    (countOne isl code unit slot n x s k).pending = s.pending := by
  simp [countOne]

@[simp] theorem countSrc_pending (s : State) (isl code unit slot n : Nat) (x : Source) :
    (countSrc s isl code unit slot n x).pending = s.pending := by
  simp [countSrc]

@[simp] theorem countEv_pending (s : State) (isl code unit n slot : Nat) : (countEv s isl code unit n slot).pending = s.pending := by
  simp [countEv]

@[simp] theorem capturePoint_pending (was : List Capture) (s : State) (isl : Nat) (x : Source) :
    (capturePoint was s isl x).pending = s.pending := by
  simp [capturePoint]

@[simp] theorem portBytes_pending (s : State) (isl p n : Nat) : (portBytes s isl p n).pending = s.pending := by
  simp [portBytes]

@[simp] theorem countCycles_pending (s : State) (i n : Nat) : (countCycles s i n).pending = s.pending := by
  simp [countCycles]

@[simp] theorem lateLoads_pending (s : State) (reach c n : Nat) : (lateLoads s reach c n).pending = s.pending := by
  simp [lateLoads]

@[simp] theorem engineEv_pending (s : State) (reach e slot code n : Nat) : (engineEv s reach e slot code n).pending = s.pending := by
  unfold engineEv
  split <;> simp

@[simp] theorem noTimeout_pending (s : State) (reach e n : Nat) : (noTimeout s reach e n).pending = s.pending := by
  simp [noTimeout]

@[simp] theorem engineStalls_pending (s : State) (reach e c n : Nat) : (engineStalls s reach e c n).pending = s.pending := by
  unfold engineStalls
  dsimp only
  (repeat' split) <;> simp

@[simp] theorem countStalls_pending (s : State) (i c n : Nat) : (countStalls s i c n).pending = s.pending := by
  simp [countStalls]

@[simp] theorem countIdle_pending (s : State) (reach n : Nat) : (countIdle s reach n).pending = s.pending := by
  simp [countIdle]

@[simp] theorem passTo_pending (s : State) (i c : Nat) : (passTo s i c).pending = s.pending := by
  simp [passTo]

@[simp] theorem tickIsland_pending (s : State) (i : Nat) : (tickIsland s i).pending = s.pending := by
  simp [tickIsland]

@[simp] theorem tick_pending (s : State) : (tick s).pending = s.pending := by
  simp [tick]

@[simp] theorem noteAlert_pending (s : State) : (noteAlert s).pending = s.pending := by
  simp [noteAlert]

/-! ### Machine/LinkOps.lean -/

theorem Sends.pending {s t : State} (h : Sends s t) : t.pending = s.pending := (congrArg State.pending h.eq :)

@[simp] theorem pumpLink_pending (n : Nat) (s : State) : (pumpLink n s).pending = s.pending := (Sends.pumpLink n s).pending

@[simp] theorem pump_pending (s : State) : (pump s).pending = s.pending := by
  simp [pump]

@[simp] theorem sendFlit_pending (s : State) (ty len : Nat) (hdr body : List Byte) : (sendFlit s ty len hdr body).pending = s.pending := by
  simp [sendFlit]

@[simp] theorem sendBare_pending (s : State) (ty : Nat) (hdr : List Byte) : (sendBare s ty hdr).pending = s.pending := by
  simp [sendBare]

@[simp] theorem pushChunks_pending (n : Nat) (s : State) (n1 : Nat) (l : List Byte) : (pushChunks n s n1 l).pending = s.pending := by
  fun_induction pushChunks n s n1 l <;> simp_all

@[simp] theorem push_pending (s : State) (a : Nat) (l : List Byte) : (push s a l).pending = s.pending := by
  simp [push]

@[simp] theorem interrupt_pending (s : State) (vec : Nat) : (interrupt s vec).pending = s.pending := by
  simp [interrupt]

/-! ### Machine/Flags.lean -/

@[simp] theorem protLast_pending (s : State) (isl arr : Nat) (ue : Bool) (unit addr : Nat) :
    (protLast s isl arr ue unit addr).pending = s.pending := by
  simp [protLast]

@[simp] theorem correctedEvent_pending (s : State) (isl arr unit addr : Nat) :
    (correctedEvent s isl arr unit addr).pending = s.pending := by
  simp [correctedEvent]

@[simp] theorem uncorrectableEvent_pending (s : State) (isl arr unit addr : Nat) :
    (uncorrectableEvent s isl arr unit addr).pending = s.pending := by
  simp [uncorrectableEvent]

@[simp] theorem eventIn_pending (s : State) (isl arr unit : Nat) (ue : Bool) : (eventIn s isl arr unit ue).pending = s.pending := by
  simp [eventIn]

@[simp] theorem sramMeets_pending (s : State) (u : SramUpset) : (sramMeets s u).1.pending = s.pending := by
  unfold sramMeets
  dsimp only
  (repeat' split) <;> simp

@[simp] theorem markUncorrectable_pending (s : State) (a : Nat) : (markUncorrectable s a).pending = s.pending := by
  unfold markUncorrectable
  dsimp only
  (repeat' split) <;> simp

/-! ### Machine/TierOps.lean -/

@[simp] theorem updObj_pending (s : State) (nsid id : Nat) (f : Obj → Obj) : (updObj s nsid id f).pending = s.pending := by
  simp [updObj]

@[simp] theorem deny_pending (s : State) (d : Nat) : (deny s d).pending = s.pending := by
  simp [deny]

@[simp] theorem chargeStack_pending (s : State) (d mib : Nat) : (chargeStack s d mib).pending = s.pending := by
  simp [chargeStack]

@[simp] theorem unchargeStack_pending (s : State) (d mib : Nat) : (unchargeStack s d mib).pending = s.pending := by
  simp [unchargeStack]

@[simp] theorem updPage_pending (s : State) (nsid obj idx : Nat) (f : Page → Page) : (updPage s nsid obj idx f).pending = s.pending := by
  simp [updPage]

@[simp] theorem freeFrame_pending (small : Bool) (s : State) (fr : Nat × Nat) : (freeFrame small s fr).pending = s.pending := by
  unfold freeFrame
  dsimp only
  split <;> simp

@[simp] theorem reback_pending (s : State) : (reback s).pending = s.pending := by
  refine foldl_pending (fun s p => ?_) _ _
  dsimp only
  split
  · rfl
  · simp

@[simp] theorem dropPage_pending (s : State) (p : Page) : (dropPage s p).pending = s.pending := by
  simp [dropPage]

@[simp] theorem loseFrames_pending (stack : Nat) (s : State) (p : Page) : (loseFrames stack s p).pending = s.pending := by
  simp [loseFrames]

theorem evictOne_pending {s : State} {ok : Page → Bool} {u : State} (h : evictOne s ok = some u) : u.pending = s.pending := by
  obtain ⟨p, _, rfl⟩ := Option.map_eq_some_iff.mp h
  simp

/-- A loop whose attempt leaves the queue leaves it, evictions included. -/
theorem allocLoop_pending {α : Type} (d die : Nat) (within : State → Bool) {attempt : State → Option (State × α)}
    (h : ∀ s u, attempt s = some u → u.1.pending = s.pending) (n : Nat) (s : State) :
    (allocLoop d die within attempt n s).1.pending = s.pending := by
  fun_induction allocLoop d die within attempt n s with
  | case1 => simp
  | case2 n s _ t v ht => exact h s _ ht
  | case3 n s _ _ t ht ih => exact ih.trans (evictOne_pending ht)
  | case4 => simp
  | case5 n s _ t ht ih => exact ih.trans (evictOne_pending ht)
  | case6 => simp

end Sys2Proof.Machine
end

section
/-!
PROOFS. Scope: O3, the queue of waiting commands: what the functions of Machine/TierOps.lean to Machine/SluiceOps.lean leave of it.
-/
namespace Sys2Proof.Machine

/-! ### Machine/TierOps.lean -/

theorem takeExtents_pending (d die used n : Nat) (s : State) {u : State × List (Nat × Nat)} (h : takeExtents d die used n s = some u) :
    u.1.pending = s.pending := by
  induction n generalizing s u with
  | zero =>
    cases h
    rfl
  | succ n ih =>
    unfold takeExtents at h
    split at h
    · cases h
    · obtain ⟨r, hr, rfl⟩ := Option.map_eq_some_iff.mp h
      exact (ih _ hr).trans (by simp)

@[simp] theorem joinFrame_pending (s : State) (f : Nat × Nat) : (joinFrame s f).pending = s.pending := by
  simp [joinFrame]

@[simp] theorem framesFor_pending (s : State) (o : Obj) (die n : Nat) : (framesFor s o die n).1.pending = s.pending := by
  grind [framesFor, allocLoop_pending, joinFrame_pending, → takeExtents_pending]

@[simp] theorem startPage_pending (s : State) (o : Obj) (idx die : Nat) : (startPage s o idx die).1.pending = s.pending := by
  grind [startPage, framesFor_pending]

@[simp] theorem restartPage_pending (s : State) (o : Obj) (p : Page) : (restartPage s o p).1.pending = s.pending := by
  grind [restartPage, framesFor_pending, updPage_pending]

theorem backSpan_pending {die span : Nat} {l : List Nat} {s out : State} (h : backSpan die span l s = some out) :
    out.pending = s.pending := by
  fun_induction backSpan die span l s <;> simp_all

theorem backSpans_pending (die : Nat) (l : List Nat) (s : State) {u : State} (h : backSpans die l s = some u) : u.pending = s.pending := by
  induction l generalizing s with
  | nil =>
    cases h
    rfl
  | cons sp l ih =>
    unfold backSpans at h
    grind [→ backSpan_pending]

theorem takeArea_pending {s : State} {tag : Tag} {die n : Nat} {out : State × Nat} (h : takeArea s tag die n = some out) :
    out.1.pending = s.pending := by
  grind [takeArea, → backSpans_pending, clearMem_pending]

@[simp] theorem allocArea_pending (s : State) (tag : Tag) (save : Bool) (die n : Nat) :
    (allocArea s tag save die n).1.pending = s.pending := by
  grind [allocArea, allocLoop_pending, → takeArea_pending, chargeStack_pending, setF_pending]

@[simp] theorem freeArea_pending (s : State) (a n : Nat) (save : Bool) : (freeArea s a n save).pending = s.pending := by
  unfold freeArea
  dsimp only
  (repeat' split) <;> simp

@[simp] theorem refetchPage_pending (s : State) (off : Nat) : (refetchPage s off).pending = s.pending := by
  unfold refetchPage
  (repeat' split) <;> simp

@[simp] theorem windowRead_pending (s : State) (dom reach off n : Nat) : (windowRead s dom reach off n).1.pending = s.pending := by
  unfold windowRead
  dsimp only
  (repeat' split) <;> grind [updPage_pending, restartPage_pending, addF_pending, startPage_pending]

/-! ### Machine/DqpOps.lean -/

@[simp] theorem markStarted_pending (s : State) (no : Nat) : (markStarted s no).pending = s.pending := by
  simp [markStarted]

@[simp] theorem signalCq_pending (s : State) (q : Nat) : (signalCq s q).pending = s.pending := by
  unfold signalCq
  split <;> simp

@[simp] theorem putEntry_pending (s : State) (q : Nat) (e : Comp) : (putEntry s q e).pending = s.pending := by
  unfold putEntry
  split <;> simp

@[simp] theorem postNow_pending (s : State) (q : Nat) (e : Comp) : (postNow s q e).pending = s.pending := by
  unfold postNow
  split <;> simp

@[simp] theorem drainCq_pending (q n : Nat) (s : State) : (drainCq q n s).pending = s.pending := by
  fun_induction drainCq q n s <;> simp_all

@[simp] theorem drainAll_pending (s : State) : (drainAll s).pending = s.pending := by
  simp [drainAll]

@[simp] theorem postComp_pending (s : State) (q : Nat) (e : Comp) : (postComp s q e).pending = s.pending := by
  simp [postComp]

@[simp] theorem finishDeletes_pending (s : State) : (finishDeletes s).pending = s.pending := by
  unfold finishDeletes
  split <;> simp

@[simp] theorem complete_pending (s : State) (no status r0 r1 detail : Nat) : (complete s no status r0 r1 detail).pending = s.pending := by
  unfold complete
  split <;> simp

@[simp] theorem pushBuf_pending (l : List (Nat × Nat)) (n : Nat) (l1 : List Byte) (s : State) :
    (pushBuf l n l1 s).pending = s.pending := by
  fun_induction pushBuf l n l1 s <;> simp_all

@[simp] theorem toHost_pending (s : State) (c : Cmd) (d : List Byte) : (toHost s c d).pending = s.pending := by
  simp [toHost]

/-- A command leaves the queue where its effect does. -/
@[simp] theorem runCmd_pending {body : State → Cmd → State} (h : ∀ s c, (body s c).pending = s.pending) (s : State) (id : CmdId)
    (sel : Cmd → Bool)
    (fields : List (Nat × Nat)) (conds : Cmd → List Nat) : (runCmd s id sel fields conds body).pending = s.pending := by
  unfold runCmd
  dsimp only
  (repeat' split) <;> simp [h]

theorem runCmd_sameQueue {body : State → Cmd → State} (h : ∀ s c, SameQueue s (body s c)) (s : State) (id : CmdId) (sel : Cmd → Bool)
    (fields : List (Nat × Nat)) (conds : Cmd → List Nat) : SameQueue s (runCmd s id sel fields conds body) :=
  runCmd_pending h ..

@[simp] theorem sendPulls_pending (n : Nat) (s : State) (l : List (Nat × Nat × Nat)) : (sendPulls n s l).pending = s.pending := by
  fun_induction sendPulls n s l <;> simp_all

@[simp] theorem pullRanges_pending (s : State) (l : List (Nat × Nat)) (what : PullFor) : (pullRanges s l what).pending = s.pending := by
  simp [pullRanges]

@[simp] theorem startData_pending (s : State) (no : Nat) : (startData s no).pending = s.pending := by
  unfold startData
  split <;> simp

@[simp] theorem powerArrival_pending (s : State) (c : Cmd) : (powerArrival s c).pending = s.pending := by
  unfold powerArrival
  split <;> simp

@[simp] theorem arriveCmd_pending (s : State) (sqid no sqhd : Nat) (raw : List Byte) :
    (arriveCmd s sqid no sqhd raw).pending = s.pending := by
  unfold arriveCmd
  split <;> simp

@[simp] theorem arriveList_pending (s : State) (no : Nat) (d : List Byte) : (arriveList s no d).pending = s.pending := by
  simp [arriveList]

@[simp] theorem pullDone_pending (s : State) (w : PullFor) : (pullDone s w).pending = s.pending := by
  unfold pullDone
  split <;> simp

@[simp] theorem pullArrive_pending (s : State) (off req : Nat) (d : List Byte) : (pullArrive s off req d).pending = s.pending := by
  unfold pullArrive
  split <;> simp

/-! ### Machine/StoreOps.lean -/

@[simp] theorem setMap_pending (s : State) (lua : Nat) (l : Option Loc) : (setMap s lua l).pending = s.pending := by
  simp [setMap]

@[simp] theorem disown_pending (s : State) (lua i : Nat) : (disown s lua i).pending = s.pending := by
  simp [disown]

theorem bufferBlock_pending {s : State} {space blk : Nat} {d : List Byte} {out : State} (h : bufferBlock s space blk d = some out) :
    out.pending = s.pending := by
  grind [bufferBlock, disown_pending, updFlash_pending, setMap_pending, countEv_pending]

@[simp] theorem takeUnits_pending (s : State) (d n : Nat) : (takeUnits s d n).1.pending = s.pending := by
  simp [takeUnits]

@[simp] theorem storeBlock_pending (s : State) (space blk : Nat) (d : List Byte) : (storeBlock s space blk d).pending = s.pending := by
  unfold storeBlock
  split
  · rfl
  · cases h : bufferBlock s space blk d with
    | none => rfl
    | some t => exact bufferBlock_pending h

@[simp] theorem storeObj_pending (s : State) (o : Obj) (off : Nat) (d : List Byte) : (storeObj s o off d).pending = s.pending := by
  refine foldl_pending (fun s k => ?_) _ _
  split <;> simp

@[simp] theorem unmapUnit_pending (s : State) (lua : Nat) : (unmapUnit s lua).pending = s.pending := by
  simp [unmapUnit]

@[simp] theorem journalRec_pending (s : State) (k : Nat) (r : JRec) : (journalRec s k r).pending = s.pending := by
  simp [journalRec]

@[simp] theorem releaseUnit_pending (s : State) (lua : Nat) : (releaseUnit s lua).pending = s.pending := by
  simp [releaseUnit]

@[simp] theorem releaseStorage_pending (s : State) (o : Obj) : (releaseStorage s o).pending = s.pending := by
  unfold releaseStorage
  split <;> simp

/-! ### Machine/SluiceOps.lean -/

@[simp] theorem putSluice_pending (s : State) (isl p : Nat) (x : Sluice) : (putSluice s isl p x).pending = s.pending := by
  simp [putSluice]

@[simp] theorem settleSluice_pending (s : State) (isl p : Nat) : (settleSluice s isl p).pending = s.pending := by
  simp [settleSluice]

end Sys2Proof.Machine
end

section
/-!
PROOFS. Scope: O3, the queue of waiting commands: what the functions of Machine/SluiceOps.lean to Machine/SearchOps.lean leave of it.
-/
namespace Sys2Proof.Machine

/-! ### Machine/SluiceOps.lean -/

@[simp] theorem sluiceTry_pending (s : State) (isl p q n : Nat) : (sluiceTry s isl p q n).1.pending = s.pending := by
  unfold sluiceTry
  dsimp only
  (repeat' split) <;> simp

@[simp] theorem correctedAt_pending (s : State) (a : Nat) : (correctedAt s a).pending = s.pending := by
  unfold correctedAt
  (repeat' split) <;> simp

@[simp] theorem upsetFrame_pending (s : State) (a off : Nat) : (upsetFrame s a off).pending = s.pending := by
  unfold upsetFrame
  split <;> simp

@[simp] theorem sluiceAll_pending (s : State) (q : Nat) (l : List (Nat × Nat × Nat)) : (sluiceAll s q l).1.pending = s.pending := by
  unfold sluiceAll
  split <;> simp

@[simp] theorem countReads_pending (s : State) (port : Nat) (l : List (Nat × Nat)) : (countReads s port l).pending = s.pending := by
  simp [countReads]

@[simp] theorem countWrites_pending (s : State) (port : Nat) (l : List (Nat × Nat)) : (countWrites s port l).pending = s.pending := by
  unfold countWrites
  dsimp only
  rw [foldl_pending fun s b => by split <;> simp]
  simp

@[simp] theorem stackPorts_pending (s : State) (port q : Nat) (write : Bool) (l : List (Nat × Nat)) :
    (stackPorts s port q write l).1.pending = s.pending := by
  simp [stackPorts]

@[simp] theorem wakeAtSluice_pending (s : State) (q : Nat) : (wakeAtSluice s q).pending = s.pending := by
  simp [wakeAtSluice]

@[simp] theorem meter_pending (s : State) (isl p n : Nat) : (meter s isl p n).pending = s.pending := by
  unfold meter
  dsimp only
  (repeat' split) <;> simp

@[simp] theorem stackRead_pending (s : State) (port a n : Nat) : (stackRead s port a n).pending = s.pending := by
  simp [stackRead]

@[simp] theorem stackWrite_pending (s : State) (port a n : Nat) : (stackWrite s port a n).pending = s.pending := by
  simp [stackWrite]

@[simp] theorem flashMoved_pending (s : State) (p : Nat → Nat) (l : List (Nat × Nat × Nat)) : (flashMoved s p l).pending = s.pending := by
  simp [flashMoved]

/-! ### Machine/CtxOps.lean -/

@[simp] theorem noteBlock_pending (s : State) (ctx : Nat) : (noteBlock s ctx).pending = s.pending := by
  unfold noteBlock
  split <;> simp

@[simp] theorem noteBlocks_pending (s : State) : (noteBlocks s).pending = s.pending := by
  simp [noteBlocks]

@[simp] theorem updLaunch_pending (s : State) (ctx lid : Nat) (f : Launch → Launch) : (updLaunch s ctx lid f).pending = s.pending := by
  simp [updLaunch]

@[simp] theorem addLaunch_pending (s : State) (ctx : Nat) (l : Launch) : (addLaunch s ctx l).pending = s.pending := by
  simp [addLaunch]

@[simp] theorem writeFault_pending (s : State) (port ctx : Nat) (l : Launch) (rec' : Nat → List Byte) :
    (writeFault s port ctx l rec').pending = s.pending := by
  simp [writeFault]

@[simp] theorem reportPoison_pending (s : State) (a : Nat) : (reportPoison s a).pending = s.pending := by
  unfold reportPoison
  (repeat' split) <;> simp

@[simp] theorem underWrite_pending (s : State) (u : Upset) (a n : Nat) : (underWrite s u a n).pending = s.pending := by
  simp [underWrite]

@[simp] theorem foundFixed_pending (s : State) (fixed : List Nat) (here : Nat → Bool) : (foundFixed s fixed here).pending = s.pending := by
  simp [foundFixed]

@[simp] theorem edgeFinds_pending (s : State) (bad fixed : List Nat) (a n : Nat) : (edgeFinds s bad fixed a n).pending = s.pending := by
  simp [edgeFinds]

/-- A list worked through beside the state. -/
theorem foldl_fst_pending {α β : Type} {f : State × β → α → State × β} (h : ∀ x a, (f x a).1.pending = x.1.pending) (l : List α)
    (x : State × β) : (l.foldl f x).1.pending = x.1.pending := by
  induction l generalizing x with
  | nil => rfl
  | cons a l ih => exact (ih (f x a)).trans (h x a)

@[simp] theorem moveFinds_pending (s : State) (bad fixed : List Nat) (dest : Nat → Option Nat) :
    (moveFinds s bad fixed dest).pending = s.pending := by
  unfold moveFinds
  dsimp only
  rw [foldl_fst_pending fun x a => by split <;> simp]
  simp

/-! ### Machine/RillOps.lean -/

@[simp] theorem releaseBarrier_pending (s : State) (ctx reach b : Nat) : (releaseBarrier s ctx reach b).pending = s.pending := by
  simp [releaseBarrier]

@[simp] theorem arrive_pending (ctx launch reach bar cnt fuel n : Nat) (s : State) :
    (arrive ctx launch reach bar cnt fuel n s).1.pending = s.pending := by
  induction fuel generalizing n s with
  | zero => rfl
  | succ fuel ih =>
    unfold arrive
    dsimp only
    split
    · rfl
    · split
      · simp [ih]
      · rfl

@[simp] theorem recheckBarriers_pending (s : State) (ctx reach : Nat) : (recheckBarriers s ctx reach).pending = s.pending := by
  simp [recheckBarriers]

@[simp] theorem putSig_pending (s : State) (ctx reach n v : Nat) : (putSig s ctx reach n v).pending = s.pending := by
  simp [putSig]

@[simp] theorem completeOp_pending (s : State) (op : OpRef) (status : Nat) : (completeOp s op status).pending = s.pending := by
  simp [completeOp]

@[simp] theorem rillEv_pending (s : State) (k : Nat) (r : Rill) (code unit n : Nat) : (rillEv s k r code unit n).pending = s.pending := by
  simp [rillEv]

@[simp] theorem stopRill_pending (s : State) (k : Nat) (r : Rill) (status threads addr : Nat) :
    (stopRill s k r status threads addr).pending = s.pending := by
  unfold stopRill
  dsimp only
  split <;> simp

/-- The state of a pair that a command has taken apart. -/
theorem pending_of_pair {α : Type} {x : State × α} {s t : State} {a : α} (h : x = (t, a)) (hx : x.1.pending = s.pending) :
    t.pending = s.pending := by
  subst h
  exact hx

@[simp] theorem checkAccess_pending (s : State) (ctx reach a n : Nat) (k : AccKind) :
    (checkAccess s ctx reach a n k).1.pending = s.pending := by
  unfold checkAccess
  dsimp only
  split
  · rfl
  · split
    · (repeat' split) <;> rfl
    · split <;> rfl
    · (repeat' split) <;> rfl
    · split
      · split <;> exact pending_of_pair ‹_› (windowRead_pending ..)
      · rfl
    · rfl

@[simp] theorem tileEv_pending (s : State) (reach tile : Nat) (p : TPass) (code n : Nat) :
    (tileEv s reach tile p code n).pending = s.pending := by
  simp [tileEv]

@[simp] theorem touchBank_pending (s : State) (l : List (Nat × Nat)) : (touchBank s l).pending = s.pending := by
  refine foldl_pending (fun s x => ?_) _ _
  split
  · dsimp only
    split <;> simp
  · rfl

@[simp] theorem fetchWord_pending (s : State) (ctx reach pc : Nat) : (fetchWord s ctx reach pc).1.pending = s.pending := by
  unfold fetchWord
  split
  · (repeat' split) <;> rfl
  · split <;> exact pending_of_pair ‹_› (windowRead_pending ..)
  · rfl

@[simp] theorem countFaults_pending (s0 s : State) (k : Nat) (r : Rill) (early : Bool) :
    (countFaults s0 s k r early).pending = s.pending := by
  unfold countFaults
  dsimp only
  split <;> simp

@[simp] theorem fetchUpset_pending (s : State) (k : Nat) (r : Rill) : (fetchUpset s k r).pending = s.pending := by
  unfold fetchUpset
  split <;> simp

/-- The state an instruction leaves. -/
def RStep.state : RStep → State
  | .done s _ => s
  | .stay s _ => s
  | .stop s _ _ _ => s

@[simp] theorem RStep.done_state (s : State) (r : Rill) : (RStep.done s r).state = s := rfl
@[simp] theorem RStep.stay_state (s : State) (r : Rill) : (RStep.stay s r).state = s := rfl
@[simp] theorem RStep.stop_state (s : State) (st ths a : Nat) : (RStep.stop s st ths a).state = s := rfl

@[simp] theorem guardFmt_pending {s : State} {k : RStep} (h : k.state.pending = s.pending) (i : Issue) (ok : Bool) :
    (guardFmt s i ok k).state.pending = s.pending := by
  unfold guardFmt
  split
  · exact h
  · rfl

@[simp] theorem guardPoison_pending {s : State} {k : RStep} (h : k.state.pending = s.pending) (i : Issue) (bad : Nat → Bool) :
    (guardPoison s i bad k).state.pending = s.pending := by
  unfold guardPoison
  dsimp only
  split
  · exact h
  · rfl

@[simp] theorem guardUpset_pending {k : State → RStep} (h : ∀ s, (k s).state.pending = s.pending) (s : State) (i : Issue) (upset : Upset)
    (checked : Bool) : (guardUpset s i upset checked k).state.pending = s.pending := by
  unfold guardUpset
  dsimp only
  (repeat' split) <;> simp [h]

theorem RStep.ite_pending {c : Prop} [Decidable c] {s : State} {x y : RStep} (hx : x.state.pending = s.pending)
    (hy : y.state.pending = s.pending) : (if c then x else y).state.pending = s.pending := by
  split
  · exact hx
  · exact hy

/-- An instruction leaves the queue where its effect does. -/
@[simp] theorem issue_pending {body : State → Issue → RStep} (h : ∀ s i, (body s i).state.pending = s.pending) (s : State) (at' : RillAt)
    (ops : Nat → Bool) : (issue s at' ops body).pending = s.pending := by
  unfold issue
  dsimp only
  split
  · rfl
  · split
    · split
      case h_1 s1 hword => simp [pending_of_pair hword (fetchWord_pending ..)]
      case h_2 s1 f hword => simp [pending_of_pair hword (fetchWord_pending ..)]
      case h_3 => rfl
      case h_4 s1 w hword =>
        have hs := pending_of_pair hword (fetchWord_pending ..)
        split
        · rfl
        · split
          · simp [hs]
          · split
            case h_1 t r' hbody =>
              have ht := (congrArg (fun x => x.state.pending) hbody).symm.trans (h s1 _)
              simp only [RStep.done_state] at ht
              simp [ht, hs]
            case h_2 t r' hbody =>
              have ht := (congrArg (fun x => x.state.pending) hbody).symm.trans (h s1 _)
              simp only [RStep.stay_state] at ht
              split <;> simp [ht, hs]
            case h_3 t st ths a hbody =>
              have ht := (congrArg (fun x => x.state.pending) hbody).symm.trans (h s1 _)
              simp only [RStep.stop_state] at ht
              simp [ht, hs]
    · rfl

@[simp] theorem aluX_pending (s : State) (at' : RillAt) (op : Nat) (modOk : Nat → Bool) (checked : Bool) (nsrc : Nat → Nat)
    (f : Nat → Nat → Nat → Nat → Nat) : (aluX s at' op modOk checked nsrc f).pending = s.pending := by
  exact issue_pending (fun s i => guardFmt_pending (guardUpset_pending (fun s => rfl) ..) ..) ..

@[simp] theorem alu_pending (s : State) (at' : RillAt) (op : Nat) (checked : Bool) (f : Nat → Nat → Nat) :
    (alu s at' op checked f).pending = s.pending := by
  simp [alu]

@[simp] theorem alu1_pending (s : State) (at' : RillAt) (op : Nat) (f : Nat → Nat) : (alu1 s at' op f).pending = s.pending := by
  simp [alu1]

@[simp] theorem alu64_pending (s : State) (at' : RillAt) (op : Nat) (f : Nat → Nat → Nat) :
    (alu64 s at' op f).pending = s.pending := by
  exact issue_pending (fun s i => guardFmt_pending (guardUpset_pending (fun s => rfl) ..) ..) ..

/-! ### Machine/SearchOps.lean -/

@[simp] theorem updColl_pending (s : State) (no : Nat) (f : Coll → Coll) : (updColl s no f).pending = s.pending := by
  simp [updColl]

@[simp] theorem updQuery_pending (s : State) (id : Nat) (f : Query → Query) : (updQuery s id f).pending = s.pending := by
  simp [updQuery]

@[simp] theorem storeRecord_pending (s : State) (c : Coll) (p : Pool) : (storeRecord s c p).pending = s.pending := by
  unfold storeRecord
  split <;> simp

@[simp] theorem storeNode_pending (s : State) (c : Coll) (n : Node) : (storeNode s c n).pending = s.pending := by
  unfold storeNode
  split <;> simp

@[simp] theorem storeMembers_pending (s : State) (c : Coll) (p : Pool) (i : Nat) (ms : List PMember) :
    (storeMembers s c p i ms).pending = s.pending := by
  unfold storeMembers
  dsimp only
  (repeat' split) <;> simp

@[simp] theorem sizePools_pending (s : State) (c : Coll) (n : Nat) : (sizePools s c n).pending = s.pending := by
  simp [sizePools]

end Sys2Proof.Machine
end

section
/-!
PROOFS. Scope: O3, the queue of waiting commands: what the functions of Machine/SearchOps.lean to Machine/FlashOps.lean leave of it.
-/
namespace Sys2Proof.Machine

/-! ### Machine/SearchOps.lean -/

@[simp] theorem finishStored_pending (s : State) (no status r0 r1 coll : Nat) (was : Option Coll) :
    (finishStored s no status r0 r1 coll was).pending = s.pending := by
  simp [finishStored]

@[simp] theorem appendMembers_pending (s : State) (cno p : Nat) (cen : Option (List Byte)) (ms : List PMember) :
    (appendMembers s cno p cen ms).pending = s.pending := by
  unfold appendMembers
  dsimp only
  (repeat' split) <;> simp

@[simp] theorem endQuery_pending (s : State) (q : Query) (status r0 r1 detail : Nat) :
    (endQuery s q status r0 r1 detail).pending = s.pending := by
  simp [endQuery]

@[simp] theorem failQuery_pending (s : State) (q : Query) (status detail : Nat) : (failQuery s q status detail).pending = s.pending := by
  simp [failQuery]

@[simp] theorem finishQuery_pending (s : State) (q : Query) (rows : List (Cand × List Nat × Nat)) (reranked : Bool) (spill : Nat)
    (excess : Option (Nat × Nat)) : (finishQuery s q rows reranked spill excess).pending = s.pending := by
  unfold finishQuery
  split <;> simp

@[simp] theorem launchAll_pending (s : State) (ctx why no entry arg : Nat) : (launchAll s ctx why no entry arg).pending = s.pending := by
  unfold launchAll
  split <;> simp

@[simp] theorem startEmbed_pending (s : State) (q : Query) : (startEmbed s q).pending = s.pending := by
  unfold startEmbed
  split <;> simp

@[simp] theorem readFinds_pending (s : State) (bad fixed : List Nat) (a n : Nat) : (readFinds s bad fixed a n).1.pending = s.pending := by
  simp [readFinds]

@[simp] theorem embedEnd_pending (s : State) (q : Query) (status detail : Nat) (bad fixed : List Nat) :
    (embedEnd s q status detail bad fixed).pending = s.pending := by
  unfold embedEnd
  split <;> simp

@[simp] theorem startRerank_pending (s : State) (q : Query) : (startRerank s q).pending = s.pending := by
  unfold startRerank
  split <;> simp

@[simp] theorem rerankEnd_pending (s : State) (q : Query) (status detail : Nat) (bad fixed : List Nat) :
    (rerankEnd s q status detail bad fixed).pending = s.pending := by
  simp [rerankEnd]

@[simp] theorem wakeRerank_pending (s : State) (ctx : Nat) : (wakeRerank s ctx).pending = s.pending := by
  unfold wakeRerank
  split <;> simp

@[simp] theorem embedFails_pending (s : State) (c : Cmd) (status detail : Nat) : (embedFails s c status detail).pending = s.pending := by
  simp [embedFails]

@[simp] theorem risalAppend_pending (s : State) (c : Cmd) (k : Coll) (obj : Nat) (codes : List Byte) :
    (risalAppend s c k obj codes).pending = s.pending := by
  unfold risalAppend
  (repeat' split) <;> simp

@[simp] theorem risalEmbedEnd_pending (s : State) (no a status detail : Nat) (bad fixed : List Nat) :
    (risalEmbedEnd s no a status detail bad fixed).pending = s.pending := by
  unfold risalEmbedEnd
  (repeat' split) <;> simp

@[simp] theorem launchEnd_pending (s : State) (l : Launch) (status detail : Nat) (bad fixed : List Nat) :
    (launchEnd s l status detail bad fixed).pending = s.pending := by
  unfold launchEnd
  (repeat' split) <;> simp

/-! ### Machine/FetchOps.lean -/

@[simp] theorem updFetch_pending (s : State) (id : Nat) (f : Fetch → Fetch) : (updFetch s id f).pending = s.pending := by
  simp [updFetch]

@[simp] theorem dropFetch_pending (s : State) (id : Nat) : (dropFetch s id).pending = s.pending := by
  simp [dropFetch]

@[simp] theorem writeRecord_pending (s : State) (addr : Nat) (op : OpRef) (rec' : List Byte) (status : Nat) :
    (writeRecord s addr op rec' status).pending = s.pending := by
  unfold writeRecord
  split <;> simp

@[simp] theorem answerFetch_pending (s : State) (f : Fetch) (status path cause : Nat) :
    (answerFetch s f status path cause).pending = s.pending := by
  unfold answerFetch
  (repeat' split) <;> simp

@[simp] theorem spillFetch_pending (s : State) (f : Fetch) (path cause : Nat) : (spillFetch s f path cause).pending = s.pending := by
  simp [spillFetch]

@[simp] theorem loseFetch_pending (s : State) (f : Fetch) (cause : Nat) : (loseFetch s f cause).pending = s.pending := by
  unfold loseFetch
  (repeat' split) <;> simp

@[simp] theorem startPages_pending (o : Obj) (die : Nat) (l : List Nat) (s : State) : (startPages o die l s).1.pending = s.pending := by
  fun_induction startPages o die l s <;> grind [restartPage_pending, startPage_pending]

@[simp] theorem acceptFetch_pending (s : State) (o : Obj) (pages : List Nat) (off n die deadline : Nat) (who : FetchFor) (pin : Bool) :
    (acceptFetch s o pages off n die deadline who pin).pending = s.pending := by
  grind [acceptFetch, updMem_pending, loseFetch_pending, startPages_pending, answerFetch_pending]

@[simp] theorem pinPages_pending (s : State) (nsid obj : Nat) (pages : List Nat) : (pinPages s nsid obj pages).pending = s.pending := by
  simp [pinPages]

@[simp] theorem endFetch_pending (s : State) (f : Fetch) : (endFetch s f).pending = s.pending := by
  simp [endFetch]

@[simp] theorem healthEvent_pending (s : State) (kind nsid a b c : Nat) : (healthEvent s kind nsid a b c).pending = s.pending := by
  simp [healthEvent]

@[simp] theorem wakePages_pending (s : State) : (wakePages s).pending = s.pending := by
  simp [wakePages]

@[simp] theorem quarantine_pending (s : State) (o : Obj) (failed : List Nat) : (quarantine s o failed).pending = s.pending := by
  simp [quarantine]

@[simp] theorem endQuarantine_pending (s : State) (o : Obj) : (endQuarantine s o).pending = s.pending := by
  simp [endQuarantine]

/-! ### Machine/Search.lean -/

@[simp] theorem makeColl_pending (s : State) (x : Coll) (param : List Byte) : (makeColl s x param).pending = s.pending := by
  unfold makeColl
  refine ((storeObj_pending ..).trans (storeObj_pending ..)).trans ?_
  split
  · exact (updSearch_pending ..).trans ((takeUnits_pending ..).trans ((updSearch_pending ..).trans (takeUnits_pending ..)))
  · exact (updSearch_pending ..).trans (takeUnits_pending ..)

@[simp] theorem flashOr_pending {body : State → State} (h : ∀ s, (body s).pending = s.pending) (s : State) (c : Cmd)
    (parts : List (Obj × Nat × Nat)) : (flashOr s c parts body).pending = s.pending := by
  unfold flashOr
  split
  · exact h s
  · simp

@[simp] theorem execCollCreate_pending (c : CmdId) (s : State) : KeepsQueue s (execCollCreate c s) := by
  simp [execCollCreate]

@[simp] theorem removeObj_pending (s : State) (o : Obj) : (removeObj s o).pending = s.pending := by
  simp [removeObj]

@[simp] theorem releaseTombs_pending (s : State) : (releaseTombs s).pending = s.pending := by
  simp [releaseTombs]

@[simp] theorem finishCollDelete_pending (s : State) (no : Nat) : (finishCollDelete s no).pending = s.pending := by
  unfold finishCollDelete
  dsimp only
  (repeat' split) <;> simp

@[simp] theorem execCollDelete_pending (c : CmdId) (s : State) : KeepsQueue s (execCollDelete c s) := by
  simp [execCollDelete]

@[simp] theorem execPoolAppend_pending (id : Finding CmdId) (s : State) : KeepsQueue s (execPoolAppend id s) := by
  unfold execPoolAppend
  rw [keepsQueue_next]
  split
  · rfl
  · refine runCmd_pending (fun s c => ?_) ..
    dsimp only
    (repeat' split) <;> simp

@[simp] theorem execPoolCompact_pending (c : CmdId) (s : State) : KeepsQueue s (execPoolCompact c s) := by
  unfold execPoolCompact
  rw [keepsQueue_next]
  split
  · rfl
  · refine runCmd_pending (fun s c => ?_) ..
    dsimp only
    (repeat' split) <;> simp

@[simp] theorem execBraidSetNode_pending (c : CmdId) (s : State) : KeepsQueue s (execBraidSetNode c s) := by
  unfold execBraidSetNode
  rw [keepsQueue_next]
  refine runCmd_pending (fun s c => ?_) ..
  dsimp only
  (repeat' split) <;> simp

@[simp] theorem execBraidRemoveNode_pending (c : CmdId) (s : State) : KeepsQueue s (execBraidRemoveNode c s) := by
  unfold execBraidRemoveNode
  rw [keepsQueue_next]
  refine runCmd_pending (fun s c => ?_) ..
  split <;> simp

@[simp] theorem execBraidSetEntries_pending (c : CmdId) (s : State) : KeepsQueue s (execBraidSetEntries c s) := by
  simp [execBraidSetEntries]

@[simp] theorem staleEdge_pending (s : State) (coll node : Nat) : (staleEdge s coll node).pending = s.pending := by
  unfold staleEdge
  dsimp only
  (repeat' split) <;> simp

@[simp] theorem walkEdge_pending (w : Sweep) (q : Query) (n : Node) (x : State × Walk) (e : (Nat × Nat) × Nat) :
    (walkEdge w q n x e).1.pending = x.1.pending := by
  unfold walkEdge
  (repeat' split) <;> simp

@[simp] theorem walkBraid_pending (w : Sweep) (q : Query) (n : Nat) (s : State) (x : Walk) :
    (walkBraid w q n s x).1.pending = s.pending := by
  induction n generalizing s x with
  | zero => rfl
  | succ n ih =>
    unfold walkBraid
    split
    · rfl
    · split
      · exact ih ..
      · dsimp only
        rw [ih, foldl_fst_pending (walkEdge_pending w q _)]
        simp

@[simp] theorem updSweep_pending (s : State) (n : Nat) (f : Sweep → Sweep) : (updSweep s n f).pending = s.pending := by
  simp [updSweep]

@[simp] theorem execSweepStart_pending (coll : Nat) (sweep : SweepAt) (s : State) : KeepsQueue s (execSweepStart coll sweep s) := by
  unfold execSweepStart
  dsimp only
  split
  · simp
  · split
    · simp
    · rw [keepsQueue_next, updSearch_pending, countEv_pending, foldl_fst_pending fun x a => by simp]

@[simp] theorem noteTested_pending (s : State) (isl u : Nat) (ok : Bool) : (noteTested s isl u ok).pending = s.pending := by
  simp [noteTested]

@[simp] theorem failMarks_pending (s : State) (qs : List Nat) (status : Nat) : (failMarks s qs status).pending = s.pending := by
  simp [failMarks]

@[simp] theorem execPoolDispatch_pending (sweep island : Nat) (units : List Nat) (s : State) :
    KeepsQueue s (execPoolDispatch sweep island units s) := by
  unfold execPoolDispatch
  (repeat' split) <;> simp

@[simp] theorem moveOff_pending (s : State) (isl unit : Nat) (keep : Bool) : (moveOff s isl unit keep).pending = s.pending := by
  unfold moveOff
  dsimp only
  rw [foldl_fst_pending fun x a => by simp]

@[simp] theorem sieveFault_pending (s : State) (isl unit code : Nat) (test : Bool) :
    (sieveFault s isl unit code test).pending = s.pending := by
  simp [sieveFault]

@[simp] theorem poolMoved_pending (s : State) (isl : Nat) (c : Coll) (p : Pool) : (poolMoved s isl c p).pending = s.pending := by
  unfold poolMoved
  split <;> simp

@[simp] theorem countPool_pending (s : State) (isl : Nat) (units : List Nat) (members dim qs : Nat) :
    (countPool s isl units members dim qs).pending = s.pending := by
  simp [countPool]

@[simp] theorem countJoins_pending (s : State) (isl : Nat) (units : List Nat) : (countJoins s isl units).pending = s.pending := by
  simp [countJoins]

@[simp] theorem execSievePoolDone_pending (sweep pool : Nat) (fault : SieveUpset) (s : State) :
    KeepsQueue s (execSievePoolDone sweep pool fault s) := by
  unfold execSievePoolDone
  rw [keepsQueue_next]
  split
  · rfl
  · split
    · extract_lets isl units need miss isFirst named s1 s2 dim done live learnt clean mismatch
      have hs1 : s1.pending = s.pending := updSweep_pending ..
      have hs2 : s2.pending = s.pending := by
        rw [← hs1]
        dsimp only [s2]
        split <;> simp
      have hdone (t : State) : (done t).pending = t.pending := countPool_pending ..
      have hlearnt (off : Nat → Int) (t : State) : (learnt off t).pending = t.pending := by
        dsimp only [learnt]
        refine foldl_pending ?_ _ _
        intro t i
        rw [updQuery_pending]
      have hclean (t : State) : (clean t).pending = t.pending := hlearnt (fun _ => 0) t
      have hmiss (u : Nat) : (mismatch u).pending = s2.pending := by
        dsimp only [mismatch]
        split <;> simp
      clear_value mismatch clean learnt live done dim s2 s1 named isFirst
      split
      · rfl
      · rw [← hs2]
        dsimp only
        split
        · exact hmiss _
        · split
          · exact hmiss _
          · simp [hlearnt, hdone]
        · simp [hclean, hdone]
        · rw [failMarks_pending, healthEvent_pending]
          split
          · split <;> simp [hdone]
          · simp [hdone]
        · simp [hclean, hdone]
        · simp [hclean, hdone]
    · rfl

@[simp] theorem mergeQuery_pending (s : State) (q : Query) : (mergeQuery s q).pending = s.pending := by
  unfold mergeQuery
  dsimp only
  (repeat' split) <;> simp

@[simp] theorem finishObjDeletes_pending (s : State) (sweep : Nat) : (finishObjDeletes s sweep).pending = s.pending := by
  simp [finishObjDeletes]

@[simp] theorem execSweepComplete_pending (sweep : Nat) (s : State) : KeepsQueue s (execSweepComplete sweep s) := by
  unfold execSweepComplete
  dsimp only
  split
  · simp
  · split
    · simp
    · simp only [keepsQueue_next, finishObjDeletes_pending, finishCollDelete_pending]
      rw [foldl_pending fun s i => by split <;> simp]
      simp

@[simp] theorem addQuery_pending (s : State) (q : Query) : (addQuery s q).pending = s.pending := by
  simp [addQuery]

@[simp] theorem execSearchVector_pending (c : CmdId) (s : State) : KeepsQueue s (execSearchVector c s) := by
  unfold execSearchVector
  rw [keepsQueue_next]
  refine runCmd_pending (fun s c => ?_) ..
  split <;> simp

@[simp] theorem execCollStats_pending (c : CmdId) (s : State) : KeepsQueue s (execCollStats c s) := by
  unfold execCollStats
  rw [keepsQueue_next]
  refine runCmd_pending (fun s c => ?_) ..
  split <;> simp

@[simp] theorem execSieveSelfTestDone_pending (island unit : Nat) (failed : Bool) (s : State) :
    KeepsQueue s (execSieveSelfTestDone island unit failed s) := by
  simp [execSieveSelfTestDone]

@[simp] theorem execSieveDrainComplete_pending (island unit : Nat) (s : State) : KeepsQueue s (execSieveDrainComplete island unit s) := by
  simp [execSieveDrainComplete]

@[simp] theorem execSieveJoinCountReached_pending (island unit : Nat) (s : State) :
    KeepsQueue s (execSieveJoinCountReached island unit s) := by
  simp [execSieveJoinCountReached]

/-! ### Machine/FlashOps.lean -/

@[simp] theorem setChState_pending (s : State) (c v : Nat) : (setChState s c v).pending = s.pending := by
  simp [setChState]

@[simp] theorem updDie_pending (s : State) (c d : Nat) (f : Die → Die) : (updDie s c d f).pending = s.pending := by
  simp [updDie]

end Sys2Proof.Machine
end

section
/-!
PROOFS. Scope: O3, the queue of waiting commands: what the functions of Machine/FlashOps.lean leave of it.
-/
namespace Sys2Proof.Machine

/-! ### Machine/FlashOps.lean -/

@[simp] theorem updSet_pending (s : State) (c d b : Nat) (f : PlaneSet → PlaneSet) : (updSet s c d b f).pending = s.pending := by
  simp [updSet]

@[simp] theorem updStripe_pending (s : State) (id : Nat) (f : Stripe → Stripe) : (updStripe s id f).pending = s.pending := by
  simp [updStripe]

@[simp] theorem wantErase_pending (s : State) (c d b : Nat) : (wantErase s c d b).pending = s.pending := by
  simp [wantErase]

@[simp] theorem takeSet_pending (s : State) (m : Member) (id : Nat) : (takeSet s m id).pending = s.pending := by
  simp [takeSet]

@[simp] theorem prepChan_pending (s : State) (c : Nat) (pslc : Bool) : (prepChan s c pslc).pending = s.pending := by
  unfold prepChan
  split <;> simp

@[simp] theorem prepGroup_pending (s : State) (g : Nat) (pslc : Bool) : (prepGroup s g pslc).pending = s.pending := by
  simp [prepGroup]

@[simp] theorem health_pending (s : State) (i n : Nat) : (health s i n).pending = s.pending := by
  simp [health]

@[simp] theorem noteRo_pending (s : State) : (noteRo s).pending = s.pending := by
  simp [noteRo]

@[simp] theorem retireSet_pending (s : State) (c d b : Nat) : (retireSet s c d b).pending = s.pending := by
  simp [retireSet]

theorem openWith_pending {s : State} {g : Nat} {kind : StripeKind} {ok : State → Nat → Nat → Nat → Bool} {u : State × Nat}
    (h : openWith s g kind ok = some u) : u.1.pending = s.pending := by
  unfold openWith at h
  dsimp only at h
  split at h
  · cases h
  · obtain rfl := Option.some.inj h
    rw [journalRec_pending, updFlash_pending, foldl_pending fun s m => takeSet_pending ..]

theorem openStripe_pending {s : State} {g : Nat} {kind : StripeKind} {u : State × Nat}
    (h : openStripe s g kind = some u) : u.1.pending = s.pending := by
  unfold openStripe at h
  split at h
  · cases h
  · exact openWith_pending h

@[simp] theorem issueRow_pending (s : State) (id : Nat) (urgent : Bool) : (issueRow s id urgent).pending = s.pending := by
  unfold issueRow
  split <;> simp

@[simp] theorem issueRows_pending (id : Nat) (urgent : Bool) (n : Nat) (s : State) : (issueRows id urgent n s).pending = s.pending := by
  fun_induction issueRows id urgent n s <;> simp_all

@[simp] theorem padRow_pending (s : State) (id : Nat) (urgent : Bool) : (padRow s id urgent).pending = s.pending := by
  unfold padRow
  split <;> simp

@[simp] theorem sealStripe_pending (s : State) (id : Nat) : (sealStripe s id).pending = s.pending := by
  unfold sealStripe
  split <;> simp

@[simp] theorem appendBlock_pending (s : State) (id lua : Nat) (b : List Byte) (lost : Nat) (urgent : Bool) :
    (appendBlock s id lua b lost urgent).1.pending = s.pending := by
  unfold appendBlock
  split <;> simp

theorem stripeFor_pending {s : State} {g : Nat} {kind : StripeKind} {kib : Nat} {out : State × Nat}
    (h : stripeFor s g kind kib = some out) : out.1.pending = s.pending := by
  grind [stripeFor, → openStripe_pending, sealStripe_pending]

theorem journalPage_pending {s : State} {k : Nat} {all : Bool} {out : State} (h : journalPage s k all = some out) :
    out.pending = s.pending := by
  grind [journalPage, → stripeFor_pending, appendBlock_pending, updFlash_pending]

@[simp] theorem pumpJournalN_pending (k : Nat) (all : Bool) (n : Nat) (s : State) : (pumpJournalN k all n s).pending = s.pending := by
  fun_induction pumpJournalN k all n s <;> grind [→ journalPage_pending]

@[simp] theorem pumpJournal_pending (s : State) (k : Nat) (all : Bool) : (pumpJournal s k all).pending = s.pending := by
  simp [pumpJournal]

@[simp] theorem eraseStripe_pending (s : State) (id : Nat) : (eraseStripe s id).pending = s.pending := by
  unfold eraseStripe
  split <;> simp

@[simp] theorem dropStaging_pending (s : State) : (dropStaging s).pending = s.pending := by
  simp [dropStaging]

@[simp] theorem loseUnit_pending (s : State) (lua : Nat) : (loseUnit s lua).pending = s.pending := by
  simp [loseUnit]

@[simp] theorem rewriteUnit_pending (s : State) (lua : Nat) : (rewriteUnit s lua).pending = s.pending := by
  unfold rewriteUnit
  dsimp only
  split <;> simp

@[simp] theorem wantRefresh_pending (s : State) (id i : Nat) : (wantRefresh s id i).pending = s.pending := by
  simp [wantRefresh]

@[simp] theorem checkRefresh_pending (s : State) (p : PageAddr) (weak : Bool) : (checkRefresh s p weak).pending = s.pending := by
  unfold checkRefresh
  split <;> simp

@[simp] theorem pageCounted_pending (s : State) (p : PageAddr) (n : Nat) (raw : Bool) : (pageCounted s p n raw).pending = s.pending := by
  simp [pageCounted]

@[simp] theorem rebuildReads_pending (s : State) (x : Stripe) (pg : Nat × Nat × Nat) : (rebuildReads s x pg).pending = s.pending := by
  unfold rebuildReads
  refine foldl_pending ?_ _ _
  intro s x
  (repeat' split) <;> simp

@[simp] theorem loseMerges_pending (s : State) (x : Stripe) (pg : Nat × Nat × Nat) : (loseMerges s x pg).pending = s.pending := by
  unfold loseMerges
  refine foldl_pending ?_ _ _
  simp

@[simp] theorem rebuildPage_pending (s : State) (id : Nat) (pg : Nat × Nat × Nat) (bad : Nat) (pair : Bool) (only : Option Nat) :
    (rebuildPage s id pg bad pair only).pending = s.pending := by
  unfold rebuildPage
  split <;> simp

@[simp] theorem noteUnc_pending (s : State) (c dn : Nat) : (noteUnc s c dn).pending = s.pending := by
  simp [noteUnc]

@[simp] theorem pageBad_pending (s : State) (p : PageAddr) (bad : Nat) (pair : Bool) (only : Option Nat) :
    (pageBad s p bad pair only).pending = s.pending := by
  unfold pageBad
  dsimp only
  split <;> simp

@[simp] theorem pageCorrected_pending (s : State) (p : PageAddr) (level : Nat) (bits : List Nat) :
    (pageCorrected s p level bits).pending = s.pending := by
  simp [pageCorrected]

@[simp] theorem pageGood_pending (s : State) (p : PageAddr) (level : Nat) (o : ReadOutcome) :
    (pageGood s p level o).pending = s.pending := by
  unfold pageGood
  dsimp only
  split <;> simp

@[simp] theorem pageRead_pending (s : State) (a : PageAddr) (level : Nat) (o : ReadOutcome) :
    (pageRead s a level o).pending = s.pending := by
  unfold pageRead
  extract_lets n s1 s2
  have h1 : s1.pending = s.pending := pageCounted_pending ..
  have h2 : s2.pending = s.pending := by
    rw [← h1]
    dsimp only [s2]
    split
    · rfl
    · rw [countEv_pending, addF_pending]
  rw [← h2]
  clear_value s2
  split <;> simp only [pageBad_pending, pageGood_pending, pageCorrected_pending]

@[simp] theorem unitReads_pending (s : State) (luas : List Nat) (outs : List PageRead) : (unitReads s luas outs).pending = s.pending := by
  unfold unitReads
  refine foldl_pending ?_ _ _
  intro s u
  split
  · split
    · rfl
    · split
      · rfl
      · refine foldl_pending ?_ _ _
        intro s pg
        (repeat' split) <;> simp
  · rfl

@[simp] theorem readUnit_pending (s : State) (lua : Nat) (loc : Nat × Nat) (why : ReadFor) :
    (readUnit s lua loc why).pending = s.pending := by
  unfold readUnit
  split
  · rfl
  · split
    · rfl
    · refine foldl_pending ?_ _ _
      intro s pg
      (repeat' split) <;> simp

end Sys2Proof.Machine
end

section
/-!
PROOFS. Scope: O3, the queue of waiting commands: what the functions of Machine/MediaOps.lean to Machine/Storage.lean leave of it.
-/
namespace Sys2Proof.Machine

/-! ### Machine/MediaOps.lean -/

@[simp] theorem addDecode_pending (s : State) (d : Decode) : (addDecode s d).pending = s.pending := by
  simp [addDecode]

@[simp] theorem emptyQuery_pending (s : State) (q : Query) : (emptyQuery s q).pending = s.pending := by
  simp [emptyQuery]

@[simp] theorem decodeDone_pending (s : State) (d : Decode) (e : DecodeEnd) : (decodeDone s d e).pending = s.pending := by
  unfold decodeDone
  (repeat' split) <;> simp

@[simp] theorem mediaJoin_pending (s : State) (isl u : Nat) (ok : Bool) : (mediaJoin s isl u ok).pending = s.pending := by
  simp [mediaJoin]

@[simp] theorem framesMoved_pending (s : State) (isl a n : Nat) : (framesMoved s isl a n).pending = s.pending := by
  simp [framesMoved]

@[simp] theorem endDecode_pending (s : State) (i : Nat) (d : Decode) (e : DecodeEnd) : (endDecode s i d e).pending = s.pending := by
  unfold endDecode
  dsimp only
  split <;> simp

/-! ### Machine/StoreCmdOps.lean -/

@[simp] theorem invalidate_pending (s : State) (nsid a n : Nat) : (invalidate s nsid a n).pending = s.pending := by
  simp [invalidate]

@[simp] theorem coverFailed_pending (s : State) (nsid a n : Nat) : (coverFailed s nsid a n).pending = s.pending := by
  simp [coverFailed]

@[simp] theorem risalEmbed_pending (s : State) (c : Cmd) (obj : Nat) : (risalEmbed s c obj).pending = s.pending := by
  unfold risalEmbed
  split <;> simp

@[simp] theorem risalWritten_pending (s : State) (c : Cmd) : (risalWritten s c).pending = s.pending := by
  unfold risalWritten
  dsimp only
  (repeat' split) <;> simp

@[simp] theorem updSlot_pending (s : State) (k : Nat) (f : Slot → Slot) : (updSlot s k f).pending = s.pending := by
  simp [updSlot]

@[simp] theorem writeDone_pending (s : State) (c : Cmd) : (writeDone s c).pending = s.pending := by
  simp [writeDone]

@[simp] theorem finishDurable_pending (s : State) : (finishDurable s).pending = s.pending := by
  simp [finishDurable]

@[simp] theorem writeBlocks_pending (c : Cmd) (fua : Bool) (n n1 : Nat) (s : State) :
    (writeBlocks c fua n n1 s).1.pending = s.pending := by
  fun_induction writeBlocks c fua n n1 s <;> grind [→ bufferBlock_pending, updSlot_pending]

@[simp] theorem pumpWrite_pending (s : State) (no : Nat) : (pumpWrite s no).pending = s.pending := by
  unfold pumpWrite
  dsimp only
  (repeat' split) <;> simp

@[simp] theorem pumpWait_pending (x : State × List Wait) (w : Wait) : (pumpWait x w).1.pending = x.1.pending := by
  unfold pumpWait
  split
  · rfl
  · split
    case h_1 s hs => exact bufferBlock_pending hs
    case h_2 => rfl

@[simp] theorem pumpWaits_pending (s : State) : (pumpWaits s).pending = s.pending := by
  unfold pumpWaits
  dsimp only
  rw [foldl_pending fun s l => complete_pending .., updFlash_pending, updFlash_pending, foldl_fst_pending pumpWait_pending,
    foldl_pending rewriteUnit_pending, updFlash_pending]

@[simp] theorem pumpMedia_pending (s : State) : (pumpMedia s).pending = s.pending := by
  simp [pumpMedia]

@[simp] theorem finishReads_pending (s : State) (no : Nat) : (finishReads s no).pending = s.pending := by
  unfold finishReads
  dsimp only
  (repeat' split) <;> simp

@[simp] theorem startReads_pending (s : State) (c : Cmd) : (startReads s c).pending = s.pending := by
  simp [startReads]

/-- A fold that stops where a step answers nothing. -/
theorem foldl_bind_pending {α : Type} {f : State → α → Option State} (hf : ∀ s a t, f s a = some t → t.pending = s.pending) (l : List α)
    {o : Option State} {t : State} (h : l.foldl (fun r a => r.bind fun s => f s a) o = some t) :
      ∃ s, o = some s ∧ t.pending = s.pending := by
  induction l generalizing o with
  | nil => exact ⟨t, h, rfl⟩
  | cons a l ih =>
    obtain ⟨s', hs', ht⟩ := ih h
    obtain ⟨s, ho, hf'⟩ := Option.bind_eq_some_iff.mp hs'
    exact ⟨s, ho, ht.trans (hf s a s' hf')⟩

theorem zeroPart_pending {s : State} {nsid : Nat} {u : Nat × Nat} {out : State} (h : zeroPart s nsid u = some out) :
    out.pending = s.pending := by
  unfold zeroPart at h
  dsimp only at h
  split at h
  · exact Option.some.inj h ▸ rfl
  · have hstep (s : State) (i : Nat) (t : State) (ht : (bufferBlock s nsid (8 * u.1 + i) zeroBlock).map (fun s =>
        updFlash s fun f => { f with blocks := mdel f.blocks (8 * luaOf nsid u.1 + i) }) = some t) : t.pending = s.pending := by
      obtain ⟨s', hs', rfl⟩ := Option.map_eq_some_iff.mp ht
      exact (updFlash_pending ..).trans (bufferBlock_pending hs')
    obtain ⟨_, hs, ht⟩ := foldl_bind_pending hstep _ h
    exact Option.some.inj hs ▸ ht

theorem trimRange_pending {s : State} {nsid a n : Nat} {out : State} (h : trimRange s nsid a n = some out) :
    out.pending = s.pending := by
  obtain ⟨t, ht, rfl⟩ := Option.map_eq_some_iff.mp h
  rw [coverFailed_pending, invalidate_pending, foldl_pending releaseUnit_pending]
  obtain ⟨_, hs, ht⟩ := foldl_bind_pending (fun s u t h => zeroPart_pending h) _ ht
  exact Option.some.inj hs ▸ ht

@[simp] theorem runTrim_pending (s : State) (c : Cmd) : (runTrim s c).pending = s.pending := by
  grind [runTrim, → trimRange_pending, noteRo_pending, finishDurable_pending, pumpMedia_pending, dropStaging_pending, complete_pending]

@[simp] theorem noteDiscards_pending (s : State) : (noteDiscards s).pending = s.pending := by
  simp [noteDiscards]

@[simp] theorem startDiscard_pending (s : State) (no nsid mask : Nat) : (startDiscard s no nsid mask).pending = s.pending := by
  simp [startDiscard]

/-! ### Machine/Storage.lean -/

@[simp] theorem execRead_pending (c : CmdId) (s : State) : KeepsQueue s (execRead c s) := by
  simp [execRead]

@[simp] theorem execWrite_pending (c : CmdId) (s : State) : KeepsQueue s (execWrite c s) := by
  simp [execWrite]

@[simp] theorem execWriteResume_pending (c : CmdId) (s : State) : KeepsQueue s (execWriteResume c s) := by
  unfold execWriteResume
  split <;> simp

@[simp] theorem runFlush_pending (s : State) (c : Cmd) : (runFlush s c).pending = s.pending := by
  simp [runFlush]

@[simp] theorem execFlush_pending (c : CmdId) (s : State) : KeepsQueue s (execFlush c s) := by
  simp [execFlush]

@[simp] theorem execTrim_pending (c : CmdId) (s : State) : KeepsQueue s (execTrim c s) := by
  simp [execTrim]

@[simp] theorem zeroSlots_pending (s : State) (hit : Nat → Nat → Bool) : (zeroSlots s hit).pending = s.pending := by
  simp [zeroSlots]

@[simp] theorem execSecureDiscardRange_pending (c : CmdId) (s : State) : KeepsQueue s (execSecureDiscardRange c s) := by
  unfold execSecureDiscardRange
  split
  · simp
  · rw [keepsQueue_next]
    refine runCmd_pending (fun s c => ?_) ..
    dsimp only
    split
    case h_1 => rfl
    case h_2 s' hs => rw [startDiscard_pending, zeroSlots_pending, trimRange_pending hs]

@[simp] theorem execSecureDiscardReleased_pending (c : CmdId) (s : State) : KeepsQueue s (execSecureDiscardReleased c s) := by
  simp [execSecureDiscardReleased]

@[simp] theorem execVerify_pending (c : CmdId) (s : State) : KeepsQueue s (execVerify c s) := by
  simp [execVerify]

@[simp] theorem rawRead_pending {body : State → Cmd → State} (h : ∀ s c, (body s c).pending = s.pending) (s : State) (id : CmdId)
    (sel : Nat → Bool) : (rawRead s id sel body).pending = s.pending :=
  runCmd_pending h ..

@[simp] theorem queueRaw_pending (s : State) (c : Cmd) : (queueRaw s c).pending = s.pending := by
  simp [queueRaw]

@[simp] theorem execRawReadCorrected_pending (c : CmdId) (s : State) : KeepsQueue s (execRawReadCorrected c s) := by
  simp [execRawReadCorrected]

@[simp] theorem execRawReadStored_pending (c : CmdId) (s : State) : KeepsQueue s (execRawReadStored c s) := by
  simp [execRawReadStored]

@[simp] theorem execRawReadEraseCount_pending (c : CmdId) (zeros : Nat) (s : State) : KeepsQueue s (execRawReadEraseCount c zeros s) := by
  simp [execRawReadEraseCount]

end Sys2Proof.Machine
end

section
/-!
PROOFS. Scope: O3, the queue of waiting commands: what the functions of Machine/Risal.lean to Machine/Tile.lean leave of it.
-/
namespace Sys2Proof.Machine

/-! ### Machine/Risal.lean -/

@[simp] theorem makeRisal_pending (s : State) : (makeRisal s).pending = s.pending := by
  unfold makeRisal
  split
  · rfl
  · exact makeColl_pending ..

@[simp] theorem execRIdentify_pending (c : CmdId) (s : State) : KeepsQueue s (execRIdentify c s) := by
  rw [execRIdentify, keepsQueue_next]
  exact runCmd_pending (fun s c => by rw [complete_pending, toHost_pending]) ..

@[simp] theorem execRRead_pending (c : CmdId) (s : State) : KeepsQueue s (execRRead c s) := by
  simp [execRRead]

@[simp] theorem execRWrite_pending (c : CmdId) (s : State) : KeepsQueue s (execRWrite c s) := by
  simp [execRWrite]

@[simp] theorem execRFlush_pending (c : CmdId) (s : State) : KeepsQueue s (execRFlush c s) := by
  simp [execRFlush]

@[simp] theorem execRTrim_pending (c : CmdId) (s : State) : KeepsQueue s (execRTrim c s) := by
  simp [execRTrim]

@[simp] theorem execREmbed_pending (c : CmdId) (s : State) : KeepsQueue s (execREmbed c s) := by
  simp [execREmbed]

@[simp] theorem execRSearch_pending (c : CmdId) (s : State) : KeepsQueue s (execRSearch c s) := by
  unfold execRSearch
  rw [keepsQueue_next]
  refine runCmd_pending (fun s c => ?_) ..
  dsimp only
  (repeat' split) <;> simp

/-! ### Machine/Image.lean -/

@[simp] theorem releaseArena_pending (s : State) (slot : Nat) : (releaseArena s slot).pending = s.pending := by
  unfold releaseArena
  split <;> simp

@[simp] theorem countNans_pending (s : State) (o : Obj) (offs : List Nat) : (countNans s o offs).pending = s.pending := by
  unfold countNans
  refine foldl_pending (fun s x => ?_) _ _
  split <;> simp

@[simp] theorem startSave_pending (s : State) (slot op no id fmt source : Nat) (release : Bool) (bad fixed : List Nat) :
    (startSave s slot op no id fmt source release bad fixed).1.pending = s.pending := by
  unfold startSave
  dsimp only
  (repeat' split) <;> simp

@[simp] theorem registerImage_pending (s : State) (c : Ctx) : (registerImage s c).pending = s.pending := by
  unfold registerImage
  split <;> simp

@[simp] theorem startLoad_pending (s : State) (slot op no id tokens deadline : Nat) :
    (startLoad s slot op no id tokens deadline).1.pending = s.pending := by
  grind [startLoad, allocArea_pending, updMem_pending, updCtx_pending]

/-! ### Machine/CtxMem.lean -/

@[simp] theorem setOwners_pending (s : State) (reach mask owner : Nat) : (setOwners s reach mask owner).pending = s.pending := by
  unfold setOwners
  refine foldl_pending ?_ _ _
  simp

@[simp] theorem moveMem_pending (s : State) (f : Nat → Option Nat) : (moveMem s f).pending = s.pending := by
  simp [moveMem]

@[simp] theorem clearResidency_pending (s : State) (c : Ctx) (reach : Nat) : (clearResidency s c reach).pending = s.pending := by
  simp [clearResidency]

@[simp] theorem saveParts_pending (s : State) (c : Ctx) : (saveParts s c).pending = s.pending := by
  simp [saveParts]

@[simp] theorem restoreParts_pending (s : State) (c : Ctx) : (restoreParts s c).pending = s.pending := by
  unfold restoreParts
  refine foldl_pending ?_ _ _
  intro s p
  extract_lets t
  have ht : t.pending = s.pending := moveMem_pending ..
  clear_value t
  rw [← ht]
  split
  · refine foldl_sameQueue ?_ _ _
    intro s g
    unfold SameQueue
    split
    · refine foldl_sameQueue ?_ _ _
      intro s i
      unfold SameQueue
      split <;> rfl
    · rfl
  · rfl

/-- `takeParts` for any way to take an area; the kernel can unfold it. -/
def takePartsBy (area : State → Tag → Nat → Nat → Option (State × Nat)) (tag : Tag) (die m n : Nat) :
    List Nat → State → Option (State × List SavePart)
  | [], s => some (s, [])
  | r :: l, s =>
    match area s tag die m with
    | none => none
    | some (s, a) => (takePartsBy area tag die m n l s).map (fun x => (x.1, ⟨r, a, n⟩ :: x.2))

theorem takeParts_eq (c : Ctx) (die : Nat) :
    takeParts c die = takePartsBy takeArea (.save (domOf c.nsid) c.slot) die (c.partBytes / MiB2) c.partBytes := by
  delta takeParts takePartsBy
  delta takeParts._f takePartsBy._f
  rfl

theorem takePartsBy_pending {area : State → Tag → Nat → Nat → Option (State × Nat)} {tag : Tag} {die m n : Nat}
    (ha : ∀ {s t}, area s tag die m = some t → t.1.pending = s.pending) {l : List Nat} {s : State} {out : State × List SavePart}
    (h : takePartsBy area tag die m n l s = some out) : out.1.pending = s.pending := by
  induction l generalizing s out with
  | nil => exact Option.some.inj h ▸ rfl
  | cons r l ih =>
    unfold takePartsBy at h
    split at h
    case h_1 => cases h
    case h_2 t a ht =>
      obtain ⟨x, hx, rfl⟩ := Option.map_eq_some_iff.mp h
      exact (ih hx).trans (ha ht)

theorem takeParts_pending {c : Ctx} {die : Nat} {l : List Nat} {s : State} {out : State × List SavePart}
    (h : takeParts c die l s = some out) : out.1.pending = s.pending :=
  takePartsBy_pending (fun ht => takeArea_pending ht) (takeParts_eq c die ▸ h)

@[simp] theorem allocSave_pending (s : State) (c : Ctx) : (allocSave s c).1.pending = s.pending := by
  -- The definition comes in as an equation between functions: applied to its arguments, the kernel would compute the allocation.
  suffices h : ∀ f, f = allocSave → SameQueueOf s (f s c) from h _ rfl
  intro f hf
  delta allocSave at hf
  subst hf
  have h (d die mib : Nat) (l : List Nat) := allocLoop_pending d die (fun s => stackWithin s d mib && saveWithin s d mib)
    (fun s u (hu : takeParts c die l s = some u) => takeParts_pending hu) (s.mem.pages.length + 1) s
  beta_reduce
  extract_lets d mib die
  specialize h d die mib (bitList c.reaches 32)
  clear_value d mib die
  generalize allocLoop .. = r at h ⊢
  unfold SameQueueOf
  split
  case h_1 t e => exact h
  case h_2 t l => rw [setF_pending, chargeStack_pending, h]

@[simp] theorem freeSave_pending (s : State) (c : Ctx) : (freeSave s c).pending = s.pending := by
  simp [freeSave]

@[simp] theorem releaseSlots_pending (s : State) (c : Ctx) : (releaseSlots s c).pending = s.pending := by
  simp [releaseSlots]

@[simp] theorem stashRills_pending (s : State) (ctx : Nat) : (stashRills s ctx).pending = s.pending := by
  simp [stashRills]

@[simp] theorem unstashRills_pending (s : State) (ctx : Nat) : (unstashRills s ctx).pending = s.pending := by
  simp [unstashRills]

/-! ### Machine/Ctx.lean -/

@[simp] theorem execCtxCreate_pending (c : CmdId) (s : State) : KeepsQueue s (execCtxCreate c s) := by
  suffices h : ∀ f, f = execCtxCreate → KeepsQueue s (f c s) from h _ rfl
  intro f hf
  delta execCtxCreate at hf
  subst hf
  beta_reduce
  rw [keepsQueue_next]
  refine runCmd_sameQueue (fun s c => ?_) ..
  extract_lets -underBinder slot d
  have h (n : Nat) := allocArea_pending s (.arena d slot) false (pickDie s (c.b 44 1)) n
  specialize h (arenaOf c / MiB2)
  generalize allocArea .. = r at h ⊢
  clear_value slot d
  unfold SameQueue
  split
  case h_1 t e => rw [complete_pending, h]
  case h_2 t a =>
    extract_lets k x l t'
    rw [complete_pending, noteBlock_pending]
    exact h

@[simp] theorem stepMembers_pending (s : State) (ctx lid : Nat) : (stepMembers s ctx lid).pending = s.pending := by
  unfold stepMembers
  split
  · rfl
  · refine foldl_pending (fun s m => ?_) _ _
    split
    · dsimp only
      split
      · simp
      · split
        · rfl
        · split
          · simp
          · split
            · split
              · simp
              · split
                case h_1 t u ht => exact pending_of_pair ht (startLoad_pending ..)
                case h_2 t u ht => rw [updLaunch_pending, pending_of_pair ht (startLoad_pending ..)]
            · rfl
    · rfl

@[simp] theorem stepLoaded_pending (s : State) (slot st toks : Nat) : (stepLoaded s slot st toks).pending = s.pending := by
  simp [stepLoaded]

@[simp] theorem execStepMembersPresent_pending (ctx : Nat) (launch : Finding Nat) (s : State) :
    KeepsQueue s (execStepMembersPresent ctx launch s) := by
  unfold execStepMembersPresent
  dsimp only
  (repeat' split) <;> simp

@[simp] theorem execCtxLaunch_pending (id : Finding CmdId) (s : State) : KeepsQueue s (execCtxLaunch id s) := by
  unfold execCtxLaunch
  rw [keepsQueue_next]
  refine runCmd_pending (fun s c => ?_) ..
  split <;> simp

@[simp] theorem execCtxSetPriority_pending (c : CmdId) (s : State) : KeepsQueue s (execCtxSetPriority c s) := by
  simp [execCtxSetPriority]

@[simp] theorem execCtxQuery_pending (c : CmdId) (s : State) : KeepsQueue s (execCtxQuery c s) := by
  unfold execCtxQuery
  rw [keepsQueue_next]
  refine runCmd_pending (fun s c => ?_) ..
  split <;> simp

@[simp] theorem endLaunches_pending (s : State) (slot : Nat) : (endLaunches s slot).pending = s.pending := by
  unfold endLaunches
  split <;> simp

@[simp] theorem dropImageOp_pending (s : State) (c : Ctx) : (dropImageOp s c).pending = s.pending := by
  simp [dropImageOp]

@[simp] theorem tearDown_pending (s : State) (c : Ctx) : (tearDown s c).pending = s.pending := by
  simp [tearDown]

@[simp] theorem finishDestroy_pending (s : State) (slot : Nat) : (finishDestroy s slot).pending = s.pending := by
  unfold finishDestroy
  split <;> simp

@[simp] theorem execCtxDestroy_pending (c : CmdId) (s : State) : KeepsQueue s (execCtxDestroy c s) := by
  simp [execCtxDestroy]

@[simp] theorem clearImg_pending (s : State) (slot : Nat) : (clearImg s slot).pending = s.pending := by
  simp [clearImg]

@[simp] theorem execCtxImageSave_pending (id : Finding CmdId) (s : State) : KeepsQueue s (execCtxImageSave id s) := by
  unfold execCtxImageSave
  rw [keepsQueue_next]
  split
  · rfl
  · refine runCmd_pending (fun s c => ?_) ..
    dsimp only
    (repeat' split) <;> grind [runCmd_pending, updCtx_pending, releaseArena_pending, complete_pending, startSave_pending]

@[simp] theorem execImageSaveComplete_pending (ctx : Nat) (s : State) : KeepsQueue s (execImageSaveComplete ctx s) := by
  unfold execImageSaveComplete
  split <;> simp

@[simp] theorem execCtxImageLoad_pending (c : CmdId) (s : State) : KeepsQueue s (execCtxImageLoad c s) := by
  unfold execCtxImageLoad
  rw [keepsQueue_next]
  split
  · rfl
  · refine runCmd_pending (fun s c => ?_) ..
    dsimp only
    (repeat' split) <;> grind [runCmd_pending, startLoad_pending, complete_pending]

@[simp] theorem execImageLoadComplete_pending (ctx : Nat) (upto : Nat) (s : State) : KeepsQueue s (execImageLoadComplete ctx upto s) := by
  unfold execImageLoadComplete
  rw [keepsQueue_next]
  split
  · rfl
  · split
    · rfl
    · extract_lets r0 r s1 o was lost s2 cause s3 s4 s5 s6 s7
      have h1 : s1.pending = s.pending := dropFetch_pending ..
      clear_value s1 lost r o
      have h2 : s2.pending = s.pending := by
        dsimp only [s2]
        (repeat' split) <;> simp [h1]
      clear_value s2
      have h3 : s3.pending = s.pending := by
        dsimp only [s3]
        split <;> simp [h2]
      clear_value s3
      have h4 : s4.pending = s.pending := (wrBytes_pending ..).trans ((stackWrite_pending ..).trans h3)
      clear_value s4
      have h5 : s5.pending = s.pending := (clearImg_pending ..).trans ((updCtx_pending ..).trans h4)
      clear_value s5
      have h6 : s6.pending = s.pending := by
        dsimp only [s6]
        split <;> simp [h5]
      clear_value s6
      have h7 : s7.pending = s.pending := by
        dsimp only [s7]
        split <;> simp [h6]
      clear_value s7
      split <;> simp [h7]

@[simp] theorem execContextCold_pending (ctx : Finding Nat) (s : State) : KeepsQueue s (execContextCold ctx s) := by
  unfold execContextCold
  rw [keepsQueue_next]
  split
  · rfl
  · dsimp only
    split
    · rfl
    · refine SameQueue.ite ?_ (SameQueue.ite ?_ ?_) <;> unfold SameQueue
      · simp
      · simp
      · split
        case h_1 t u ht => exact pending_of_pair ht (startSave_pending ..)
        case h_2 t u v ht => rw [addF_pending, updCtx_pending, pending_of_pair ht (startSave_pending ..)]

@[simp] theorem execRillStart_pending (reach runnel slot ctx : Nat) (s : State) :
    KeepsQueue s (execRillStart reach runnel slot ctx s) := by
  unfold execRillStart
  dsimp only
  (repeat' split) <;> simp

@[simp] theorem stepDone_pending (s : State) (l : Launch) : (stepDone s l).pending = s.pending := by
  simp [stepDone]

@[simp] theorem execLaunchComplete_pending (ctx : Nat) (launch : Finding Nat) (s : State) :
    KeepsQueue s (execLaunchComplete ctx launch s) := by
  unfold execLaunchComplete
  split <;> simp

/-! ### Machine/DqpCmd.lean -/

@[simp] theorem dqpStart_pending (s : State) : (dqpStart s).pending = s.pending := by
  simp [dqpStart]

@[simp] theorem endSession_pending (s : State) : (endSession s).pending = s.pending := by
  simp [endSession]

@[simp] theorem dqpStop_pending (s : State) : (dqpStop s).pending = s.pending := by
  simp [dqpStop]

@[simp] theorem fetchFrom_pending (s : State) (q : Sq) : (fetchFrom s q).pending = s.pending := by
  simp [fetchFrom]

@[simp] theorem execCommandFetch_pending (s : State) : KeepsQueue s (execCommandFetch s) := by
  unfold execCommandFetch
  (repeat' split) <;> simp

@[simp] theorem execCqCoalesceTimeout_pending (cqid : Nat) (s : State) : KeepsQueue s (execCqCoalesceTimeout cqid s) := by
  unfold execCqCoalesceTimeout
  split <;> simp

@[simp] theorem execIdentify_pending (id : CmdId) (s : State) : KeepsQueue s (execIdentify id s) := by
  rw [execIdentify, keepsQueue_next]
  exact runCmd_pending (fun s c => by rw [complete_pending, toHost_pending]) ..

@[simp] theorem execCreateSq_pending (id : CmdId) (s : State) : KeepsQueue s (execCreateSq id s) := by
  simp [execCreateSq]

@[simp] theorem execDeleteSq_pending (id : CmdId) (s : State) : KeepsQueue s (execDeleteSq id s) := by
  simp [execDeleteSq]

@[simp] theorem execCreateCq_pending (id : CmdId) (s : State) : KeepsQueue s (execCreateCq id s) := by
  simp [execCreateCq]

@[simp] theorem execDeleteCq_pending (id : CmdId) (s : State) : KeepsQueue s (execDeleteCq id s) := by
  simp [execDeleteCq]

@[simp] theorem execGetFeatureCqInterrupt_pending (id : CmdId) (s : State) : KeepsQueue s (execGetFeatureCqInterrupt id s) := by
  unfold execGetFeatureCqInterrupt
  rw [keepsQueue_next]
  refine runCmd_pending (fun s c => ?_) ..
  split <;> simp

@[simp] theorem execGetFeatureSqClass_pending (id : CmdId) (s : State) : KeepsQueue s (execGetFeatureSqClass id s) := by
  unfold execGetFeatureSqClass
  rw [keepsQueue_next]
  refine runCmd_pending (fun s c => ?_) ..
  split <;> simp

@[simp] theorem execSetFeatureCqInterrupt_pending (id : CmdId) (s : State) : KeepsQueue s (execSetFeatureCqInterrupt id s) := by
  simp [execSetFeatureCqInterrupt]

@[simp] theorem execSetFeatureSqClass_pending (id : CmdId) (s : State) : KeepsQueue s (execSetFeatureSqClass id s) := by
  simp [execSetFeatureSqClass]

@[simp] theorem execAbort_pending (id : CmdId) (s : State) : KeepsQueue s (execAbort id s) := by
  unfold execAbort
  rw [keepsQueue_next]
  refine runCmd_pending (fun s c => ?_) ..
  split <;> simp

/-! ### Machine/TileOps.lean -/

@[simp] theorem updTile_pending (s : State) (reach tile : Nat) (f : Tile → Tile) : (updTile s reach tile f).pending = s.pending := by
  simp [updTile]

@[simp] theorem setQuad_pending (s : State) (reach tile q v : Nat) : (setQuad s reach tile q v).pending = s.pending := by
  simp [setQuad]

@[simp] theorem enterLane_pending (s : State) (reach tile kind q no : Nat) (l : List PByte) (sh : Option ShadowRec)
    (row : Option RowSrc) : (enterLane s reach tile kind q no l sh row).pending = s.pending := by
  simp [enterLane]

@[simp] theorem putProgs_pending (s : State) (k : Nat) (l : List Prog) : (putProgs s k l).pending = s.pending := by
  simp [putProgs]

@[simp] theorem setHead_pending (s : State) (k : Nat) (p : Prog) : (setHead s k p).pending = s.pending := by
  simp [setHead]

@[simp] theorem fillInput_pending (s : State) (reach tile no eng slot kind : Nat) :
    (fillInput s reach tile no eng slot kind).pending = s.pending := by
  unfold fillInput
  dsimp only
  split <;> simp

@[simp] theorem fillFed_pending (s : State) (reach eng slot : Nat) (fed : List (Nat × Nat × Nat)) :
    (fillFed s reach eng slot fed).pending = s.pending := by
  simp [fillFed]

@[simp] theorem endProg_pending (s : State) (k status : Nat) : (endProg s k status).pending = s.pending := by
  unfold endProg
  split <;> simp

@[simp] theorem endStopped_pending (s : State) (k status pc addr : Nat) : (endStopped s k status pc addr).pending = s.pending := by
  unfold endStopped
  split <;> simp

/-! ### Machine/Tile.lean -/

@[simp] theorem wrWords_pending (s : State) (a : Nat) (l : List (Nat × Bool)) : (wrWords s a l).pending = s.pending := by
  simp [wrWords]

@[simp] theorem depositAt_pending (s : State) (acc : Bool) (a : Nat) (l : List (Nat × Bool)) :
    (depositAt s acc a l).1.pending = s.pending := by
  unfold depositAt
  split <;> simp

@[simp] theorem rescaleRow_pending (s : State) (reach tile : Nat) (p : TPass) (m : Nat) (xa : ℤ) (cells : List (Fp × Bool)) :
    (rescaleRow s reach tile p m xa cells).1.pending = s.pending := by
  unfold rescaleRow
  (repeat' split) <;> simp

@[simp] theorem updPass_pending (s : State) (reach tile no : Nat) (f : TPass → TPass) :
    (updPass s reach tile no f).pending = s.pending := by
  simp [updPass]

@[simp] theorem drainScales_pending (reach tile n : Nat) (s : State) : (drainScales reach tile n s).pending = s.pending := by
  fun_induction drainScales reach tile n s <;> grind [putTile_pending, completeOp_pending, setF_pending]

@[simp] theorem finishPass_pending (s : State) (reach tile : Nat) (p : TPass) (status : Nat) :
    (finishPass s reach tile p status).pending = s.pending := by
  simp [finishPass]

@[simp] theorem execPassStart_pending (reach tile quad : Nat) (s : State) : KeepsQueue s (execPassStart reach tile quad s) := by
  unfold execPassStart
  dsimp only
  (repeat' split) <;> simp

@[simp] theorem unescalated_pending (s : State) (reach tile slot : Nat) : (unescalated s reach tile slot).pending = s.pending := by
  simp [unescalated]

@[simp] theorem runRow_pending (s : State) (reach tile q : Nat) (p : TPass) : (runRow s reach tile q p).pending = s.pending := by
  unfold runRow
  dsimp only
  split <;> simp

@[simp] theorem millraceSides_pending (s : State) (reach tile : Nat) (p : TPass) : (millraceSides s reach tile p).pending = s.pending := by
  simp [millraceSides]

@[simp] theorem millraceBlock_pending (s : State) (reach tile : Nat) (p : TPass) (ob : Nat) :
    (millraceBlock s reach tile p ob).pending = s.pending := by
  simp [millraceBlock]

@[simp] theorem runBeat_pending (s : State) (reach tile : Nat) (p : TPass) : (runBeat s reach tile p).pending = s.pending := by
  unfold runBeat
  dsimp only
  (repeat' split) <;> simp

@[simp] theorem execSlotGate_pending (reach tile quad : Nat) (s : State) : KeepsQueue s (execSlotGate reach tile quad s) := by
  unfold execSlotGate
  dsimp only
  (repeat' split) <;> simp

/-- A list worked through beside a state within a pair. -/
theorem foldl_fst_fst_pending {α β γ : Type} {f : (State × β) × γ → α → (State × β) × γ} (h : ∀ x a, (f x a).1.1.pending = x.1.1.pending)
    (l : List α) (x : (State × β) × γ) : (l.foldl f x).1.1.pending = x.1.1.pending := by
  induction l generalizing x with
  | nil => rfl
  | cons a l ih => exact (ih (f x a)).trans (h x a)

@[simp] theorem runEscalation_pending (s : State) (reach tile : Nat) (p : TPass) (b : EscBatch) :
    (runEscalation s reach tile p b).pending = s.pending := by
  unfold runEscalation
  extract_lets gs final wb side size ab step r
  have hstep (acc : (State × NMap Nat × Bool) × List PByte) (x : EscRow × Nat) : (step acc x).1.1.pending = acc.1.1.pending := by
    dsimp only [step]
    split
    · exact rescaleRow_pending ..
    · rfl
  have hr : r.1.pending = s.pending := by
    dsimp only [r]
    rw [foldl_fst_fst_pending hstep]
  clear_value r
  exact (updPass_pending ..).trans hr

@[simp] theorem poisonColumn_pending (s : State) (reach tile : Nat) (p : TPass) (col : Nat) :
    (poisonColumn s reach tile p col).pending = s.pending := by
  simp [poisonColumn]

@[simp] theorem poisonRow_pending (s : State) (reach tile : Nat) (p : TPass) (m : Nat) :
    (poisonRow s reach tile p m).pending = s.pending := by
  suffices h : ∀ f, f = poisonRow → SameQueue s (f s reach tile p m) from h _ rfl
  intro f hf
  delta poisonRow at hf
  subst hf
  beta_reduce
  extract_lets -underBinder mark
  have hmark (s : State) (a n : Nat) : SameQueue s (mark s a n) := poisonRange_pending ..
  clear_value mark
  refine SameQueue.ite (foldl_sameQueue (fun s ob => hmark ..) ..) ?_
  split
  case h_1 r c0 =>
    extract_lets n t
    have ht : SameQueue s t := SameQueue.ite (hmark ..) rfl
    clear_value t n
    refine SameQueue.ite ht ((hmark ..).trans ht)

@[simp] theorem tileFault_pending (s : State) (reach tile : Nat) (p : TPass) (code col : Nat) :
    (tileFault s reach tile p code col).pending = s.pending := by
  simp [tileFault]

@[simp] theorem countJoin_pending (s : State) (reach tile : Nat) (p : TPass) : (countJoin s reach tile p).pending = s.pending := by
  simp [countJoin]

@[simp] theorem upsetWords_pending (s : State) (reach tile : Nat) (p : TPass) (up : TileUpset) :
    (upsetWords s reach tile p up).1.pending = s.pending := by
  unfold upsetWords
  (repeat' split) <;> simp

@[simp] theorem upsetAll_pending (s : State) (reach tile : Nat) (p : TPass) (l : List TileUpset) :
    (upsetAll s reach tile p l).1.pending = s.pending := by
  fun_induction upsetAll s reach tile p l <;> grind [upsetWords_pending]

@[simp] theorem endPass_pending (s : State) (reach tile : Nat) (p : TPass) (ups : List TileUpset) :
    (endPass s reach tile p ups).pending = s.pending := by
  unfold endPass
  dsimp only
  split <;> simp

@[simp] theorem execPassComplete_pending (reach tile quad : Nat) (faults : List TileUpset) (s : State) :
    KeepsQueue s (execPassComplete reach tile quad faults s) := by
  unfold execPassComplete
  dsimp only
  (repeat' split) <;> simp

@[simp] theorem execTileSelfTestDone_pending (reach tile quads failed : Nat) (s : State) :
    KeepsQueue s (execTileSelfTestDone reach tile quads failed s) := by
  simp [execTileSelfTestDone]

@[simp] theorem execTileDrainComplete_pending (reach tile quad : Nat) (s : State) :
    KeepsQueue s (execTileDrainComplete reach tile quad s) := by
  simp [execTileDrainComplete]

@[simp] theorem execTileJoinCountReached_pending (reach tile quad : Nat) (s : State) :
    KeepsQueue s (execTileJoinCountReached reach tile quad s) := by
  simp [execTileJoinCountReached]

end Sys2Proof.Machine
end

section
/-!
PROOFS. Scope: O3, the queue of waiting commands: what the functions of Machine/FlumeX.lean to Machine/DieOps.lean leave of it.
-/
namespace Sys2Proof.Machine

/-! ### Machine/FlumeX.lean -/

@[simp] theorem flumeCheckRead_pending (s : State) (ctx reach a n : Nat) : (flumeCheckRead s ctx reach a n).1.pending = s.pending := by
  suffices h : ∀ f, f = flumeCheckRead → SameQueueOf s (f s ctx reach a n) from h _ rfl
  intro f hf
  delta flumeCheckRead at hf
  subst hf
  beta_reduce
  have hw (off : Nat) := windowRead_pending s (ctxDom s ctx) reach off n
  generalize regionOf s a = region
  unfold SameQueueOf
  split
  case h_1 => split <;> rfl
  case h_2 => rfl
  case h_3 => rfl
  case h_4 off => split <;> exact pending_of_pair ‹_› (hw off)
  case h_5 => rfl

@[simp] theorem setTokens_pending (s : State) (k : Nat) (v : Bool) : (setTokens s k v).pending = s.pending := by
  unfold setTokens
  split <;> simp

@[simp] theorem readPasses_pending (s : State) (f : FlumeAt) (a n : Nat) : (readPasses s f a n).1.pending = s.pending := by
  simp [readPasses]

@[simp] theorem waitPage_pending (s : State) (k a : Nat) : (waitPage s k a).pending = s.pending := by
  unfold waitPage
  split <;> simp

@[simp] theorem execFlumeProgramStart_pending (g : FlumeMem) (s : State) : KeepsQueue s (execFlumeProgramStart g s) := by
  unfold execFlumeProgramStart
  rw [keepsQueue_next]
  extract_lets -underBinder f
  split
  · rfl
  · rename_i p hp
    extract_lets -underBinder stop words n
    have hstop (s : State) (st : Nat) : (stop s st).pending = s.pending := endStopped_pending ..
    clear_value stop
    refine SameQueue.ite rfl ?_
    have hr := flumeCheckRead_pending s p.op.ctx f.reach p.addr n
    unfold SameQueue
    generalize flumeCheckRead s p.op.ctx f.reach p.addr n = r at hr ⊢
    split
    case h_1 => rfl
    case h_2 t =>
      have hp := readPasses_pending t f p.addr n
      dsimp only at hr
      rw [← hr]
      generalize readPasses t f p.addr n = r at hp ⊢
      split
      case h_1 => exact hp
      case h_2 t2 =>
        extract_lets t3 t4 c
        have h3 : t3.pending = t.pending := (countReads_pending ..).trans hp
        have h4 : t4.pending = t.pending := by
          dsimp only [t4]
          split <;> simp [h3]
        clear_value t3 t4
        split
        · split <;> simp [hstop, h3]
        · split
          · simp [hstop, h3]
          · split <;> simp [h4]
    case h_3 => rw [hstop, hr]

@[simp] theorem flumeEv_pending (s : State) (f : FlumeAt) (p : Prog) (code n : Nat) : (flumeEv s f p code n).pending = s.pending := by
  simp [flumeEv]

@[simp] theorem flumeStep_pending (s : State) (f : FlumeAt) (op : Nat) (body : Prog → Nat → Prog) :
    (flumeStep s f op body).pending = s.pending := by
  unfold flumeStep
  (repeat' split) <;> simp

@[simp] theorem execFlumeNop_pending (f : FlumeAt) (s : State) : KeepsQueue s (execFlumeNop f s) := by
  simp [execFlumeNop]

@[simp] theorem execFlumeLoop_pending (f : FlumeAt) (s : State) : KeepsQueue s (execFlumeLoop f s) := by
  simp [execFlumeLoop]

@[simp] theorem execFlumeEndl_pending (f : FlumeAt) (s : State) : KeepsQueue s (execFlumeEndl f s) := by
  simp [execFlumeEndl]

@[simp] theorem execFlumeSeta_pending (f : FlumeAt) (s : State) : KeepsQueue s (execFlumeSeta f s) := by
  simp [execFlumeSeta]

@[simp] theorem execFlumeStride_pending (f : FlumeAt) (s : State) : KeepsQueue s (execFlumeStride f s) := by
  simp [execFlumeStride]

@[simp] theorem execFlumeMove_pending (f : FlumeAt) (s : State) : KeepsQueue s (execFlumeMove f s) := by
  simp [execFlumeMove]

@[simp] theorem execFlumeGather_pending (f : FlumeAt) (s : State) : KeepsQueue s (execFlumeGather f s) := by
  simp [execFlumeGather]

@[simp] theorem fireSigs_pending (reach k n : Nat) (s : State) : (fireSigs reach k n s).pending = s.pending := by
  fun_induction fireSigs reach k n s <;> grind [setHead_pending, putSig_pending]

@[simp] theorem execFlumeSignal_pending (f : FlumeAt) (s : State) : KeepsQueue s (execFlumeSignal f s) := by
  simp [execFlumeSignal]

@[simp] theorem execFlumeWait_pending (f : FlumeAt) (s : State) : KeepsQueue s (execFlumeWait f s) := by
  simp [execFlumeWait]

@[simp] theorem execFlumeShadow_pending (f : FlumeAt) (s : State) : KeepsQueue s (execFlumeShadow f s) := by
  simp [execFlumeShadow]

@[simp] theorem execFlumeEnd_pending (f : FlumeAt) (s : State) : KeepsQueue s (execFlumeEnd f s) := by
  simp [execFlumeEnd]

@[simp] theorem updStream_pending (s : State) (f : FlumeAt) (q : PStream) : (updStream s f q).pending = s.pending := by
  unfold updStream
  split <;> simp

@[simp] theorem updXfer_pending (s : State) (f : FlumeAt) (i : Nat) (g : Xfer → Xfer) : (updXfer s f i g).pending = s.pending := by
  unfold updXfer
  split <;> simp

@[simp] theorem retire_pending (s : State) (f : FlumeAt) : (retire s f).pending = s.pending := by
  unfold retire
  dsimp only
  (repeat' split) <;> simp

@[simp] theorem stopAfter_pending (s : State) (f : FlumeAt) (keep : Nat) (part : Bool) (status pc addr : Nat) :
    (stopAfter s f keep part status pc addr).pending = s.pending := by
  unfold stopAfter
  split <;> simp

@[simp] theorem stopShadow_pending (s : State) (f : FlumeAt) (status pc addr : Nat) :
    (stopShadow s f status pc addr).pending = s.pending := by
  unfold stopShadow
  split <;> simp

@[simp] theorem fetchPart_pending (s : State) (f : FlumeAt) (p : Prog) (a n : Nat) : (fetchPart s f p a n).1.pending = s.pending := by
  grind [fetchPart, flumeCheckRead_pending, waitPage_pending]

@[simp] theorem flumeFetch_pending (s : State) (f : FlumeAt) (p : Prog) (earlier : List Xfer) (a n : Nat) (upset : Upset) :
    (flumeFetch s f p earlier a n upset).1.pending = s.pending := by
  unfold flumeFetch
  dsimp only
  (repeat' split) <;> grind [fetchPart_pending, setTokens_pending, readPasses_pending, countReads_pending, flumeEv_pending,
    eventIn_pending, correctedAt_pending, waitPage_pending, upsetFrame_pending, windowRead_pending, markUncorrectable_pending, touchBank_pending]

@[simp] theorem issueShadow_pending (s : State) (f : FlumeAt) (p : Prog) (upset : Upset) (d : ShadowDue) :
    (issueShadow s f p upset d).pending = s.pending := by
  grind [issueShadow, flumeFetch_pending, stopShadow_pending, updPass_pending]

@[simp] theorem readXfer_pending (s : State) (f : FlumeAt) (p : Prog) (i : Nat) (x : Xfer) (upset : Upset) :
    (readXfer s f p i x upset).pending = s.pending := by
  unfold readXfer
  extract_lets -underBinder before stop put data a ia
  have hstop (s : State) (st a : Nat) : (stop s st a).pending = s.pending := stopAfter_pending ..
  have hput (s : State) (l : List PByte) : (put s l).pending = s.pending := updXfer_pending ..
  clear_value stop put
  have hf (a n : Nat) := flumeFetch_pending s f p before a n upset
  have hdata (a n : Nat) : (data a n).pending = s.pending := by
    dsimp only [data]
    refine SameQueue.ite (setTokens_pending ..) ?_
    unfold SameQueue
    specialize hf a n
    generalize flumeFetch s f p before a n upset = r at hf ⊢
    split
    · exact hf
    · rw [hstop, hf]
    · rw [hput, hf]
  clear_value data
  refine SameQueue.ite (hstop ..) (SameQueue.ite (hstop ..) (SameQueue.ite (hstop ..) (SameQueue.ite (hstop ..) ?_)))
  refine SameQueue.ite (hdata ..) ?_
  unfold SameQueue
  split
  · specialize hf ia 4
    generalize flumeFetch s f p before ia 4 upset = r at hf ⊢
    split
    · exact hf
    · rw [hstop, hf]
    · refine SameQueue.ite ((hstop ..).trans hf) ((updXfer_pending ..).trans hf)
  · extract_lets left a n
    exact SameQueue.ite (SameQueue.ite (setTokens_pending ..) (hput ..)) (SameQueue.ite (hstop ..) (hdata ..))

@[simp] theorem execFlumeReadIssue_pending (f : FlumeAt) (upset : Upset) (s : State) : KeepsQueue s (execFlumeReadIssue f upset s) := by
  unfold execFlumeReadIssue
  (repeat' split) <;> simp

@[simp] theorem feedTile_pending (s : State) (f : FlumeAt) (kind : Nat) (x : Xfer) (l : List PByte) (row : Option RowSrc) :
    (feedTile s f kind x l row).1.pending = s.pending := by
  unfold feedTile
  dsimp only
  (repeat' split) <;> simp

@[simp] theorem flumeWrite_pending (s : State) (f : FlumeAt) (ctx a : Nat) (l : List PByte) (upset : Upset) :
    (flumeWrite s f ctx a l upset).1.pending = s.pending := by
  grind [flumeWrite, sluiceAll_pending, wrPBytes_pending, underWrite_pending, countWrites_pending]

@[simp] theorem setHeld_pending (s : State) (f : FlumeAt) (i : Nat) (waits : Bool) : (setHeld s f i waits).pending = s.pending := by
  simp [setHeld]

@[simp] theorem emitToMemory_pending {ok : State → Nat → State} (h : ∀ s n, (ok s n).pending = s.pending) (s : State) (f : FlumeAt)
    (ctx i : Nat) (x : Xfer) (a : Nat) (l : List PByte) (upset : Upset) : (emitToMemory s f ctx i x a l upset ok).pending = s.pending := by
  unfold emitToMemory
  extract_lets l1 l2
  have hw := flumeWrite_pending s f ctx a l2 upset
  generalize flumeWrite s f ctx a l2 upset = w at hw ⊢
  split
  case h_1 => simpa using hw
  case h_2 => simpa using hw
  case h_3 => simpa [h] using hw

@[simp] theorem emitRaw_pending (s : State) (f : FlumeAt) (p : Prog) (i : Nat) (x : Xfer) (upset : Upset) :
    (emitRaw s f p i x upset).pending = s.pending := by
  unfold emitRaw
  refine SameQueue.ite ?_ (SameQueue.ite (stopAfter_pending ..) ?_)
  · exact emitToMemory_pending (fun s n => updXfer_pending ..) ..
  · extract_lets r
    have hr : r.1.pending = s.pending := feedTile_pending ..
    clear_value r
    refine SameQueue.ite ?_ ?_ <;> simpa [SameQueue] using hr

@[simp] theorem emitOut_pending (s : State) (f : FlumeAt) (p : Prog) (i : Nat) (x : Xfer) (q : PStream) (upset : Upset) :
    (emitOut s f p i x q upset).pending = s.pending := by
  unfold emitOut
  refine SameQueue.ite ?_ (SameQueue.ite ?_ (SameQueue.ite ?_ ?_))
  · refine SameQueue.ite (stopAfter_pending ..) ?_
    extract_lets r1 r2 out
    have h1 : r1.1.pending = s.pending := by
      dsimp only [r1]
      split
      · rfl
      · exact feedTile_pending ..
    have h2 : r2.1.pending = s.pending := by
      dsimp only [r2]
      split
      · exact h1
      · exact (feedTile_pending ..).trans h1
    clear_value r2
    refine SameQueue.ite ?_ ?_ <;> simpa [SameQueue] using h2
  · exact emitToMemory_pending (fun s n => updStream_pending ..) ..
  · exact emitToMemory_pending (fun s n => (updStream_pending ..).trans (updXfer_pending ..)) ..
  · extract_lets r
    have hr : r.1.pending = s.pending := feedTile_pending ..
    clear_value r
    refine SameQueue.ite ?_ ?_ <;> simpa [SameQueue] using hr

@[simp] theorem emitProfile_pending (s : State) (f : FlumeAt) (p : Prog) (pr : Prof) (i : Nat) (x : Xfer) (q : PStream) :
    (emitProfile s f p pr i x q).pending = s.pending := by
  simp [emitProfile]

@[simp] theorem emitXfer_pending (s : State) (f : FlumeAt) (p : Prog) (i : Nat) (x : Xfer) (upset : Upset) :
    (emitXfer s f p i x upset).pending = s.pending := by
  simp [emitXfer]

@[simp] theorem execFlumeEmit_pending (g : FlumeMem) (dkind : Nat) (s : State) : KeepsQueue s (execFlumeEmit g dkind s) := by
  unfold execFlumeEmit
  dsimp only
  (repeat' split) <;> simp

@[simp] theorem execFlumeProgramComplete_pending (f : FlumeAt) (s : State) : KeepsQueue s (execFlumeProgramComplete f s) := by
  unfold execFlumeProgramComplete
  split <;> simp

@[simp] theorem execFlumeWaitTimeout_pending (f : FlumeAt) (s : State) : KeepsQueue s (execFlumeWaitTimeout f s) := by
  unfold execFlumeWaitTimeout
  dsimp only
  (repeat' split) <;> simp

@[simp] theorem execSluiceAdmit_pending (island sluice : Nat) (s : State) : KeepsQueue s (execSluiceAdmit island sluice s) := by
  unfold execSluiceAdmit
  dsimp only
  (repeat' split) <;> simp

/-! ### Machine/DieOps.lean -/

@[simp] theorem duePage_pending (s : State) (c dn : Nat) : (duePage s c dn).pending = s.pending := by
  unfold duePage
  dsimp only
  (repeat' split) <;> simp

@[simp] theorem maybeResume_pending (s : State) (c dn : Nat) : (maybeResume s c dn).pending = s.pending := by
  simp [maybeResume]

@[simp] theorem suspendDie_pending (s : State) (c dn : Nat) (st : DieSt) : (suspendDie s c dn st).pending = s.pending := by
  simp [suspendDie]

@[simp] theorem suspendErases_pending (s : State) : (suspendErases s).pending = s.pending := by
  simp [suspendErases]

@[simp] theorem resumeDies_pending (s : State) : (resumeDies s).pending = s.pending := by
  simp [resumeDies]

end Sys2Proof.Machine
end

section
/-!
PROOFS. Scope: O3, the queue of waiting commands: what the functions of Machine/DieOps.lean to Machine/Sched.lean leave of it.
-/
namespace Sys2Proof.Machine

/-! ### Machine/DieOps.lean -/

@[simp] theorem deferError_pending (s : State) (x : Deferred) : (deferError s x).pending = s.pending := by
  simp [deferError]

@[simp] theorem failWriter_pending (lua cause : Nat) (s : State) (w : Writer) : (failWriter lua cause s w).pending = s.pending := by
  simp [failWriter]

@[simp] theorem dropSlot_pending (s : State) (key : Nat) : (dropSlot s key).pending = s.pending := by
  simp [dropSlot]

@[simp] theorem yieldSlot_pending (s : State) (key : Nat) (x : Slot) : (yieldSlot s key x).pending = s.pending := by
  unfold yieldSlot
  dsimp only
  split <;> simp

@[simp] theorem failSlot_pending (s : State) (key cause : Nat) : (failSlot s key cause).pending = s.pending := by
  unfold failSlot
  split <;> simp

@[simp] theorem dropProgs_pending (s : State) (id : Nat) : (dropProgs s id).pending = s.pending := by
  simp [dropProgs]

@[simp] theorem reopenSlot_pending (s : State) (failed : Bool) (key : Nat) : (reopenSlot s failed key).pending = s.pending := by
  unfold reopenSlot
  dsimp only
  split <;> simp

@[simp] theorem closeStripe_pending (s : State) (id : Nat) (failed : Bool) : (closeStripe s id failed).pending = s.pending := by
  unfold closeStripe
  split <;> simp

@[simp] theorem readPacked_pending (s : State) (x : Stripe) (p : Packed) : (readPacked s x p).pending = s.pending := by
  unfold readPacked
  refine foldl_pending (fun s x => ?_) _ _
  split <;> simp

theorem copyOut_pending {g : Nat} {kind : StripeKind} {l : List Packed} {s : State} {l1 : List Nat} {out : State × List Nat}
    (h : copyOut g kind l s l1 = some out) : out.1.pending = s.pending := by
  fun_induction copyOut g kind l s l1 <;> grind [→ stripeFor_pending, appendBlock_pending]

theorem startCollect_pending {s : State} {victim discard : Nat} {out : State} (h : startCollect s victim discard = some out) :
    out.pending = s.pending := by
  obtain ⟨x, _, hx⟩ := Option.bind_eq_some_iff.mp h
  obtain ⟨r, hr, rfl⟩ := Option.map_eq_some_iff.mp hx
  rw [updFlash_pending, foldl_pending fun s t => padRow_pending .., copyOut_pending hr, foldl_pending fun s p => readPacked_pending ..]

/-- A step that may answer nothing, and what is done instead. -/
theorem getD_pending {s t : State} {o : Option State} (h : ∀ {u}, o = some u → u.pending = s.pending) (ht : t.pending = s.pending) :
    (o.getD t).pending = s.pending := by
  match o with
  | some u => exact h rfl
  | none => exact ht

@[simp] theorem restartCollect_pending (l : List Gc) (s : State) : (restartCollect l s).pending = s.pending :=
  foldl_pending (fun _ _ => getD_pending (fun h => startCollect_pending h) rfl) ..

@[simp] theorem failTarget_pending (s : State) (id : Nat) : (failTarget s id).pending = s.pending := by
  simp [failTarget]

theorem startReplace_pending {s : State} {x : Stripe} {i : Nat} {out : State} (h : startReplace s x i = some out) :
    out.pending = s.pending := by
  obtain ⟨m, _, hm⟩ := Option.bind_eq_some_iff.mp h
  obtain ⟨p, _, rfl⟩ := Option.map_eq_some_iff.mp hm
  exact (updFlash_pending ..).trans (takeSet_pending ..)

@[simp] theorem progFailed_pending (s : State) (id i : Nat) : (progFailed s id i).pending = s.pending := by
  grind [progFailed, retireSet_pending, failTarget_pending, updDie_pending, → startReplace_pending, closeStripe_pending]

@[simp] theorem endRead_pending (s : State) (x : DieOp) : (endRead s x).pending = s.pending := by
  unfold endRead
  (repeat' split) <;> simp

@[simp] theorem endDie_pending (s : State) (c dn : Nat) : (endDie s c dn).pending = s.pending := by
  unfold endDie
  refine foldl_pending ?_ _ _
  simp

@[simp] theorem finishAllReads_pending (s : State) : (finishAllReads s).pending = s.pending := by
  simp [finishAllReads]

@[simp] theorem closeOn_pending (s : State) (hit : Member → Bool) : (closeOn s hit).pending = s.pending := by
  simp [closeOn]

@[simp] theorem endVictims_pending (s : State) (hit : Nat → Nat → Nat → Bool) : (endVictims s hit).pending = s.pending := by
  unfold endVictims
  refine foldl_pending ?_ _ _
  simp

@[simp] theorem failErases_pending (s : State) (hit : Nat → Nat → Bool) : (failErases s hit).pending = s.pending := by
  simp [failErases]

@[simp] theorem channelFault_pending (s : State) (c cause dies : Nat) : (channelFault s c cause dies).pending = s.pending := by
  simp [channelFault]

@[simp] theorem setErased_pending (s : State) (c dn : Nat) (e : JEntry) : (setErased s c dn e).pending = s.pending := by
  simp [setErased]

@[simp] theorem losePair_pending (s : State) (c dn : Nat) : (losePair s c dn).pending = s.pending := by
  simp [losePair]

@[simp] theorem pageDone_pending (s : State) (c dn : Nat) (p : JPage) : (pageDone s c dn p).pending = s.pending := by
  simp [pageDone]

@[simp] theorem switchJournal_pending (s : State) (c dn : Nat) (ok : Bool) : (switchJournal s c dn ok).pending = s.pending := by
  simp [switchJournal]

/-! ### Machine/Flash.lean -/

@[simp] theorem startOp_pending (s : State) (c dn : Nat) (o : DieOp) (st : DieSt) : (startOp s c dn o st).pending = s.pending := by
  unfold startOp
  split <;> simp

@[simp] theorem startRead_pending (s : State) (c dn : Nat) (st : DieSt) : (startRead s c dn st).pending = s.pending := by
  unfold startRead
  split <;> simp

@[simp] theorem startOther_pending (s : State) (c dn : Nat) (ok : DieOp → Bool) (st : DieOp → DieSt) :
    (startOther s c dn ok st).pending = s.pending := by
  unfold startOther
  dsimp only
  (repeat' split) <;> simp

@[simp] theorem execDieOpIssue_pending (chan die : Nat) (s : State) : KeepsQueue s (execDieOpIssue chan die s) := by
  unfold execDieOpIssue
  dsimp only
  (repeat' split) <;> simp

@[simp] theorem execJournalPageDue_pending (chan die : Nat) (s : State) : KeepsQueue s (execJournalPageDue chan die s) := by
  simp [execJournalPageDue]

@[simp] theorem fillSlot_pending (s : State) (key : Nat) : (fillSlot s key).pending = s.pending := by
  unfold fillSlot
  split <;> simp

@[simp] theorem readOver_pending (s : State) (why : ReadFor) : (readOver s why).pending = s.pending := by
  unfold readOver
  split <;> simp

@[simp] theorem rawDone_pending (s : State) (no : Nat) (p : PageAddr) : (rawDone s no p).pending = s.pending := by
  unfold rawDone
  split
  · rfl
  · exact SameQueue.ite ((complete_pending ..).trans (toHost_pending ..)) ((complete_pending ..).trans (toHost_pending ..))

@[simp] theorem execFlashReadDone_pending (chan die : Nat) (outcome : ReadOutcome) (s : State) :
    KeepsQueue s (execFlashReadDone chan die outcome s) := by
  unfold execFlashReadDone
  dsimp only
  (repeat' split) <;> simp

@[simp] theorem execProgramDone_pending (chan die : Nat) (ok : Bool) (s : State) : KeepsQueue s (execProgramDone chan die ok s) := by
  unfold execProgramDone
  split <;> simp

@[simp] theorem execEraseDone_pending (chan die : Nat) (ok : Bool) (s : State) : KeepsQueue s (execEraseDone chan die ok s) := by
  unfold execEraseDone
  split <;> simp

@[simp] theorem execSuspendHoldExpire_pending (chan die : Nat) (s : State) : KeepsQueue s (execSuspendHoldExpire chan die s) := by
  unfold execSuspendHoldExpire
  dsimp only
  split <;> simp

@[simp] theorem execSuspendDone_pending (chan die : Nat) (s : State) : KeepsQueue s (execSuspendDone chan die s) := by
  unfold execSuspendDone
  split <;> simp

@[simp] theorem lineTest_pending (s : State) (c cause die : Nat) : (lineTest s c cause die).pending = s.pending := by
  simp [lineTest]

@[simp] theorem execDieTimeout_pending (chan die cause : Nat) (s : State) : KeepsQueue s (execDieTimeout chan die cause s) := by
  simp [execDieTimeout]

@[simp] theorem execLineTestPeriodic_pending (chan cause die : Nat) (s : State) :
    KeepsQueue s (execLineTestPeriodic chan cause die s) := by
  simp [execLineTestPeriodic]

@[simp] theorem recordCause_pending (s : State) (c cause die : Nat) : (recordCause s c cause die).pending = s.pending := by
  simp [recordCause]

@[simp] theorem execChannelTestComplete_pending (chan : Nat) (found : LineFault) (s : State) :
    KeepsQueue s (execChannelTestComplete chan found s) := by
  simp [execChannelTestComplete]

@[simp] theorem execChannelDrainComplete_pending (chan : Nat) (s : State) : KeepsQueue s (execChannelDrainComplete chan s) := by
  simp [execChannelDrainComplete]

@[simp] theorem writeParam_pending (s : State) (i b bytes : Nat) : (writeParam s i b bytes).pending = s.pending := by
  simp [writeParam]

@[simp] theorem writeCopies_pending (s : State) (ok : Nat → Bool) : (writeCopies s ok).pending = s.pending := by
  unfold writeCopies
  dsimp only
  split <;> simp

@[simp] theorem execChannelJoinComplete_pending (chan : Nat) (s : State) : KeepsQueue s (execChannelJoinComplete chan s) := by
  simp [execChannelJoinComplete]

/-! ### Machine/Ftl.lean -/

@[simp] theorem placeIn_pending (s : State) (key : Nat) (x : Slot) (kind : StripeKind) : (placeIn s key x kind).pending = s.pending := by
  grind [placeIn, → stripeFor_pending, prepGroup_pending, failSlot_pending, appendBlock_pending, updSlot_pending, addF_pending,
    padRow_pending]

@[simp] theorem placeSlot_pending (s : State) (key : Nat) : (placeSlot s key).pending = s.pending := by
  unfold placeSlot
  split <;> simp

@[simp] theorem spoilBlocks_pending (s : State) (island arr key hit : Nat) : (spoilBlocks s island arr key hit).pending = s.pending := by
  unfold spoilBlocks
  split <;> simp

@[simp] theorem meetBuffers_pending (s : State) (island key : Nat) (u : BufUpset) : (meetBuffers s island key u).pending = s.pending := by
  unfold meetBuffers
  split <;> simp

@[simp] theorem execSlotPlace_pending (island : Nat) (slot : SlotAt) (s : State) : KeepsQueue s (execSlotPlace island slot s) := by
  unfold execSlotPlace
  dsimp only
  (repeat' split) <;> simp

@[simp] theorem execRowPadTimeout_pending (stripe : Nat) (s : State) : KeepsQueue s (execRowPadTimeout stripe s) := by
  unfold execRowPadTimeout
  split <;> simp

@[simp] theorem settleSlot_pending (s : State) (x : Stripe) (p : Nat × Slot) : (settleSlot s x p).pending = s.pending := by
  unfold settleSlot
  split <;> simp

@[simp] theorem execRowComplete_pending (stripe row : Nat) (s : State) : KeepsQueue s (execRowComplete stripe row s) := by
  unfold execRowComplete
  split <;> simp

@[simp] theorem execGcStart_pending (group : Nat) (s : State) : KeepsQueue s (execGcStart group s) := by
  unfold execGcStart
  rw [keepsQueue_next]
  extract_lets -underBinder l disc drain on t pick
  have ht : t.pending = s.pending := updFlash_pending ..
  clear_value pick t
  refine SameQueue.ite ht ?_
  unfold SameQueue
  split
  · exact ht
  · exact (getD_pending (fun h => startCollect_pending h) (prepGroup_pending ..)).trans ht

@[simp] theorem switchUnit_pending (victim : Nat) (targets : List Nat) (r : State × Nat) (p : Packed) :
    (switchUnit victim targets r p).1.pending = r.1.pending := by
  unfold switchUnit
  extract_lets s
  split
  · rfl
  · split
    · rfl
    · exact (journalRec_pending ..).trans (setMap_pending ..)

@[simp] theorem verifyReads_pending (s : State) (id : Nat) : (verifyReads s id).pending = s.pending := by
  unfold verifyReads
  split <;> simp

@[simp] theorem execGcSwitch_pending (victim failed : Nat) (s : State) : KeepsQueue s (execGcSwitch victim failed s) := by
  unfold execGcSwitch
  rw [keepsQueue_next]
  split
  case h_1 g x _ _ =>
    refine SameQueue.ite rfl ?_
    extract_lets -underBinder t ms r u
    have ht : t.pending = s.pending := foldl_pending verifyReads_pending ..
    have hr : r.1.pending = s.pending := (foldl_fst_pending (switchUnit_pending victim g.targets) ..).trans ht
    have hu : u.pending = s.pending := (updFlash_pending ..).trans hr
    clear_value u r ms t
    refine SameQueue.ite ?_ ((noteRo_pending ..).trans ((eraseStripe_pending ..).trans hu))
    unfold SameQueue
    split
    · exact (failTarget_pending ..).trans ((retireSet_pending ..).trans ht)
    · exact ht
  case h_2 => rfl

@[simp] theorem execMemberReplaceStart_pending (stripe idx : Nat) (s : State) : KeepsQueue s (execMemberReplaceStart stripe idx s) := by
  unfold execMemberReplaceStart
  rw [keepsQueue_next]
  split
  · rfl
  · split
    · rfl
    · extract_lets -underBinder join wanted onChan
      clear_value onChan wanted join
      refine SameQueue.ite rfl (SameQueue.ite rfl (SameQueue.ite ((healthEvent_pending ..).trans (updFlash_pending ..)) ?_))
      exact getD_pending (fun h => startReplace_pending h) (prepChan_pending ..)

@[simp] theorem execMemberReplaceComplete_pending (stripe idx : Nat) (copied : Copied) (s : State) :
    KeepsQueue s (execMemberReplaceComplete stripe idx copied s) := by
  unfold execMemberReplaceComplete
  rw [keepsQueue_next]
  split
  case h_1 r x _ _ =>
    refine SameQueue.ite rfl ?_
    extract_lets -underBinder t u
    have ht : t.pending = s.pending := updFlash_pending ..
    have hu : u.pending = s.pending := (retireSet_pending ..).trans ht
    clear_value u t
    refine SameQueue.ite ?_ ?_ <;> unfold SameQueue
    · split
      case h_1 v hv => exact (startReplace_pending hv).trans hu
      case h_2 => exact SameQueue.ite hu ((closeStripe_pending ..).trans hu)
    · split
      · exact ht
      · extract_lets t1 pages t2 t3 t4 t5 t6 t7 t8 t9 t10 rows passes
        have h1 : t1.pending = s.pending := by
          refine (foldl_pending (fun s p => ?_) _ _).trans ht
          exact foldl_pending loseUnit_pending ..
        have h8 : t8.pending = s.pending := by
          simp only [t8, t7, t6, t5, t4, t3, t2, journalRec_pending, addF_pending, updFlash_pending, updStripe_pending, countEv_pending,
            pageCounted_pending, h1]
        have h9 : t9.pending = s.pending := SameQueue.ite h8 ((wantErase_pending ..).trans ((updSet_pending ..).trans h8))
        exact (updDie_pending ..).trans ((health_pending ..).trans h9)
  case h_2 => rfl

@[simp] theorem patrolEnds_pending (s : State) (k : Nat) : (patrolEnds s k).pending = s.pending := by
  simp [patrolEnds]

@[simp] theorem execPatrolRead_pending (island : Nat) (s : State) : KeepsQueue s (execPatrolRead island s) := by
  unfold execPatrolRead
  (repeat' split) <;> simp

@[simp] theorem execPatrolPeriodEnd_pending (island : Nat) (s : State) : KeepsQueue s (execPatrolPeriodEnd island s) := by
  unfold execPatrolPeriodEnd
  split <;> simp

@[simp] theorem writeTable_pending (s : State) (p : Nat × Nat) : (writeTable s p).pending = s.pending := by
  simp [writeTable]

@[simp] theorem freeJournal_pending (s : State) (k seq : Nat) : (freeJournal s k seq).pending = s.pending := by
  simp [freeJournal]

@[simp] theorem execJournalCheckpoint_pending (island : Nat) (s : State) : KeepsQueue s (execJournalCheckpoint island s) := by
  unfold execJournalCheckpoint
  split <;> simp

@[simp] theorem setTemp_pending (s : State) (i t thr crit : Nat) : (setTemp s i t thr crit).pending = s.pending := by
  simp [setTemp]

@[simp] theorem execNandTempRead_pending (island : Nat) (temps : List Nat) (s : State) :
    KeepsQueue s (execNandTempRead island temps s) := by
  unfold execNandTempRead
  rw [keepsQueue_next]
  split
  · rfl
  · refine SameQueue.ite rfl ?_
    extract_lets -underBinder n t l u
    have hu : u.pending = s.pending := (foldl_pending (fun s x => setTemp_pending ..) ..).trans (updFlash_pending ..)
    clear_value u
    exact SameQueue.ite hu ((foldl_pending (fun s x => updFlash_pending ..) ..).trans hu)

@[simp] theorem execBucketLeak_pending (island : Nat) (s : State) : KeepsQueue s (execBucketLeak island s) := by
  unfold execBucketLeak
  rw [keepsQueue_next]
  refine SameQueue.ite ?_ rfl
  exact (foldl_pending (fun s a => subF_pending ..) ..).trans (passTo_pending ..)

@[simp] theorem execGetLog_pending (c : CmdId) (s : State) : KeepsQueue s (execGetLog c s) := by
  simp [execGetLog]

/-! ### Machine/Sched.lean -/

@[simp] theorem beginEnter_pending (s : State) (c : Ctx) : (beginEnter s c).pending = s.pending := by
  simp [beginEnter]

end Sys2Proof.Machine
end

section
/-!
PROOFS. Scope: O3, the queue of waiting commands: what the functions of Machine/Sched.lean to Machine/RegView.lean leave of it.
-/
namespace Sys2Proof.Machine

/-! ### Machine/Sched.lean -/

@[simp] theorem beginLeave_pending (s : State) (c : Ctx) (forced : Bool) : (beginLeave s c forced).1.pending = s.pending := by
  suffices h : ∀ f, f = beginLeave → SameQueueOf s (f s c forced) from h _ rfl
  intro f hf
  delta beginLeave at hf
  subst hf
  beta_reduce
  have h := allocSave_pending s c
  generalize allocSave s c = r at h ⊢
  unfold SameQueueOf
  split
  case h_1 => exact h
  case h_2 => simpa using h

@[simp] theorem tryCand_pending (s : State) (quant : Bool) (c : Ctx) : (tryCand s quant c).pending = s.pending := by
  suffices h : ∀ f, f = tryCand → SameQueue s (f s quant c) from h _ rfl
  intro f hf
  delta tryCand at hf
  subst hf
  beta_reduce
  extract_lets -underBinder need may vs
  clear_value vs may
  refine SameQueue.ite (SameQueue.ite (beginEnter_pending ..) rfl) (SameQueue.ite ?_ rfl)
  -- `beginLeave` as a variable, so that no case split computes it.
  obtain ⟨leave, hleave⟩ : ∃ f, f = beginLeave := ⟨_, rfl⟩
  have h (v : Ctx) : (leave s v false).1.pending = s.pending := hleave ▸ beginLeave_pending ..
  rw [← hleave]
  clear hleave
  unfold SameQueue
  split
  · rfl
  · rename_i v l
    specialize h v
    generalize leave s v false = r at h ⊢
    split
    · exact h
    · exact (addF_pending ..).trans h

@[simp] theorem decideAll_pending (quant : Bool) (l : List Ctx) (n : Nat) (s : State) : (decideAll quant l n s).pending = s.pending := by
  fun_induction decideAll quant l n s <;> simp_all

@[simp] theorem evictDraining_pending (s : State) : (evictDraining s).pending = s.pending := by
  simp [evictDraining]

@[simp] theorem execSchedDecision_pending (s : State) : KeepsQueue s (execSchedDecision s) := by
  unfold execSchedDecision
  split <;> simp

@[simp] theorem execQuantumEnd_pending (s : State) : KeepsQueue s (execQuantumEnd s) := by
  simp [execQuantumEnd]

@[simp] theorem execContextDrainEnd_pending (ctx : Nat) (s : State) : KeepsQueue s (execContextDrainEnd ctx s) := by
  unfold execContextDrainEnd
  split <;> simp

@[simp] theorem execContextSaveComplete_pending (ctx : Finding Nat) (s : State) : KeepsQueue s (execContextSaveComplete ctx s) := by
  unfold execContextSaveComplete
  split <;> simp

@[simp] theorem restored_pending (s : State) (c : Ctx) (bad fixed : List Nat) : (restored s c bad fixed).pending = s.pending := by
  simp [restored]

@[simp] theorem beginTurn_pending (s : State) (n at' before : Nat) : (beginTurn s n at' before).pending = s.pending := by
  simp [beginTurn]

@[simp] theorem adoptTurnout_pending (s : State) (at' : Nat) : (adoptTurnout s at').pending = s.pending := by
  unfold adoptTurnout
  extract_lets before s1 s2 s3
  have h2 : s2.pending = s.pending := by
    refine (foldl_pending (fun s n => ?_) ..).trans (setA_pending ..)
    exact (setA_pending ..).trans ((setA_pending ..).trans (setA_pending ..))
  exact (beginTurn_pending ..).trans ((setF_pending ..).trans ((setF_pending ..).trans h2))

@[simp] theorem execTurnBoundary_pending (s : State) : KeepsQueue s (execTurnBoundary s) := by
  simp [execTurnBoundary]

@[simp] theorem renewLeads_pending (s : State) : (renewLeads s).pending = s.pending := by
  simp [renewLeads]

@[simp] theorem execTurnLeadPoint_pending (s : State) : KeepsQueue s (execTurnLeadPoint s) := by
  simp [execTurnLeadPoint]

@[simp] theorem execTurnSignalApply_pending (reach : Nat) (s : State) : KeepsQueue s (execTurnSignalApply reach s) := by
  simp [execTurnSignalApply]

/-! ### Machine/Tier.lean -/

@[simp] theorem updWindow_pending (s : State) (nsid obj : Nat) (f : WinMap → WinMap) : (updWindow s nsid obj f).pending = s.pending := by
  simp [updWindow]

@[simp] theorem placeHinted_pending (s : State) (o : Obj) : (placeHinted s o).pending = s.pending := by
  simp [placeHinted]

@[simp] theorem execObjMap_pending (c : CmdId) (s : State) : KeepsQueue s (execObjMap c s) := by
  unfold execObjMap
  rw [keepsQueue_next]
  refine runCmd_pending (fun s c => ?_) ..
  dsimp only
  (repeat' split) <;> simp

@[simp] theorem execObjUnmap_pending (c : CmdId) (s : State) : KeepsQueue s (execObjUnmap c s) := by
  unfold execObjUnmap
  rw [keepsQueue_next]
  refine runCmd_pending (fun s c => ?_) ..
  split <;> simp

@[simp] theorem execTierMoveResident_pending (c : CmdId) (s : State) : KeepsQueue s (execTierMoveResident c s) := by
  unfold execTierMoveResident
  rw [keepsQueue_next]
  refine runCmd_pending (fun s c => ?_) ..
  split <;> simp

@[simp] theorem execTierMoveRelease_pending (c : CmdId) (s : State) : KeepsQueue s (execTierMoveRelease c s) := by
  unfold execTierMoveRelease
  rw [keepsQueue_next]
  refine runCmd_pending (fun s c => ?_) ..
  split <;> simp

@[simp] theorem execTierPin_pending (c : CmdId) (s : State) : KeepsQueue s (execTierPin c s) := by
  unfold execTierPin
  rw [keepsQueue_next]
  refine runCmd_pending (fun s c => ?_) ..
  split <;> simp

@[simp] theorem dropBare_pending (s : State) : (dropBare s).pending = s.pending := by
  simp [dropBare]

@[simp] theorem execTierUnpin_pending (c : CmdId) (s : State) : KeepsQueue s (execTierUnpin c s) := by
  unfold execTierUnpin
  rw [keepsQueue_next]
  refine runCmd_pending (fun s c => ?_) ..
  split <;> simp

@[simp] theorem regrain_pending (s : State) (o : Obj) (grain : Nat) : (regrain s o grain).pending = s.pending := by
  simp [regrain]

@[simp] theorem execTierHint_pending (c : CmdId) (s : State) : KeepsQueue s (execTierHint c s) := by
  unfold execTierHint
  rw [keepsQueue_next]
  refine runCmd_pending (fun s c => ?_) ..
  split <;> simp

@[simp] theorem execShadowSet_pending (c : CmdId) (s : State) : KeepsQueue s (execShadowSet c s) := by
  simp [execShadowSet]

@[simp] theorem execQuotaQuery_pending (c : CmdId) (s : State) : KeepsQueue s (execQuotaQuery c s) := by
  simp [execQuotaQuery]

@[simp] theorem pageMoved_pending (s : State) (p : Page) (o : Obj) (n : Nat) : (pageMoved s p o n).pending = s.pending := by
  suffices h : ∀ f, f = pageMoved → SameQueue s (f s p o n) from h _ rfl
  intro f hf
  delta pageMoved at hf
  subst hf
  beta_reduce
  extract_lets -underBinder t
  have ht : t.pending = s.pending := flashMoved_pending ..
  clear_value t
  refine (foldl_sameQueue (fun s f => ?_) _ _).trans ht
  have hm (m : Nat) : SameQueue s (meter (if m = 0 then s else countEv s (32 + f.1.1) 0x31 6 m) (32 + f.1.1) 6 m) :=
    (meter_pending ..).trans (SameQueue.ite rfl (countEv_pending ..))
  exact hm _

@[simp] theorem pageArrives_pending (s : State) (o : Obj) (p : Page) (n : Nat) : (pageArrives s o p n).pending = s.pending := by
  simp [pageArrives]

@[simp] theorem pageBare_pending (s : State) (o : Obj) (p : Page) : (pageBare s o p).pending = s.pending := by
  grind [pageBare, restartPage_pending, wakePages_pending, dropPage_pending, updPage_pending]

@[simp] theorem execPageFetchComplete_pending (nsid obj idx : Nat) (outs : List PageRead) (s : State) :
    KeepsQueue s (execPageFetchComplete nsid obj idx outs s) := by
  unfold execPageFetchComplete
  split <;> simp

@[simp] theorem execTierFetchComplete_pending (id : Nat) (s : State) : KeepsQueue s (execTierFetchComplete id s) := by
  unfold execTierFetchComplete
  rw [keepsQueue_next]
  split
  · rfl
  · rename_i f _
    refine SameQueue.ite ?_ ?_ <;> unfold SameQueue
    · split <;> simp
    · split
      · simp
      · rename_i o _
        have h := startPages_pending o f.die f.pages s
        generalize startPages o f.die f.pages s = r at h ⊢
        split
        · exact h
        · refine SameQueue.ite ?_ ?_ <;> simpa [SameQueue] using h

@[simp] theorem execDeadlineExpire_pending (id : Nat) (s : State) : KeepsQueue s (execDeadlineExpire id s) := by
  unfold execDeadlineExpire
  dsimp only
  (repeat' split) <;> simp

@[simp] theorem releaseUnpinned_pending (s : State) (stack : Nat) : (releaseUnpinned s stack).pending = s.pending := by
  simp [releaseUnpinned]

@[simp] theorem drainedStack_pending (s : State) (stack : Nat) : (drainedStack s stack).pending = s.pending := by
  simp [drainedStack]

@[simp] theorem execExtentCopyComplete_pending (stack : Nat) (ext : Finding Nat) (s : State) :
    KeepsQueue s (execExtentCopyComplete stack ext s) := by
  unfold execExtentCopyComplete
  rw [keepsQueue_next]
  refine SameQueue.ite rfl ?_
  unfold SameQueue
  split
  · rfl
  · extract_lets e mine here s1 s2 s3
    have h1 : s1.pending = s.pending := (moveFinds_pending ..).trans (foundFixed_pending ..)
    have h2 : s2.pending = s.pending := by
      refine (foldl_pending (fun s a => ?_) ..).trans h1
      split <;> simp
    have h3 : s3.pending = s.pending := (holdExt_pending ..).trans h2
    clear_value s3 s2 s1 here mine e
    split
    · simpa using h3
    · split
      · exact h3
      · simpa using h3

@[simp] theorem execStackDrainComplete_pending (stack : Nat) (s : State) : KeepsQueue s (execStackDrainComplete stack s) := by
  simp [execStackDrainComplete]

@[simp] theorem execStackValidClearDone_pending (stack : Nat) (s : State) : KeepsQueue s (execStackValidClearDone stack s) := by
  simp [execStackValidClearDone]

@[simp] theorem execStackJoinStep_pending (stack : Nat) (s : State) : KeepsQueue s (execStackJoinStep stack s) := by
  simp [execStackJoinStep]

@[simp] theorem poisonExt_pending (s : State) (key : Nat) : (poisonExt s key).pending = s.pending := by
  unfold poisonExt
  refine (foldl_fst_pending (fun x a => ?_) ..).trans (updMem_pending ..)
  split
  · rfl
  · exact reportPoison_pending ..

@[simp] theorem stackFault_pending (s : State) (stack : Nat) : (stackFault s stack).pending = s.pending := by
  simp [stackFault]

@[simp] theorem execStackFault_pending (stack : Nat) (s : State) : KeepsQueue s (execStackFault stack s) := by
  simp [execStackFault]

@[simp] theorem execStackScrub_pending (stack : Nat) (corrected uncorrectable : List Nat) (s : State) :
    KeepsQueue s (execStackScrub stack corrected uncorrectable s) := by
  unfold execStackScrub
  rw [keepsQueue_next]
  extract_lets -underBinder mine blocks s1 s2
  have h2 : s2.pending = s.pending := (foldl_pending correctedAt_pending ..).trans (countEv_pending ..)
  clear_value s2
  refine SameQueue.ite rfl ?_
  refine (foldl_pending (fun s a => ?_) ..).trans h2
  split
  · exact upsetFrame_pending ..
  · exact SameQueue.ite rfl ((reportPoison_pending ..).trans (markUncorrectable_pending ..))

/-! ### Machine/RegView.lean -/

@[simp] theorem latchHi_pending (s : State) (port isl : Nat) (r : Reg) (i : Nat) : (latchHi s port isl r i).pending = s.pending := by
  unfold latchHi
  split <;> simp

end Sys2Proof.Machine
end

section
/-!
PROOFS. Scope: O3, the queue of waiting commands: what the functions of Machine/Groups.lean to Machine/Boot.lean leave of it.
-/
namespace Sys2Proof.Machine

/-! ### Machine/Groups.lean -/

@[simp] theorem commitGroup_pending (s : State) (g : Group) (isl i : Nat) : (commitGroup s g isl i).1.pending = s.pending := by
  unfold commitGroup
  split <;> simp

@[simp] theorem adoptSet_pending (s : State) (g : Group) (isl i : Nat) : (adoptSet s g isl i).pending = s.pending := by
  simp [adoptSet]

@[simp] theorem openSluice_pending (s : State) (isl p : Nat) : (openSluice s isl p).pending = s.pending := by
  simp [openSluice]

@[simp] theorem adoptSluice_pending (s : State) (g : Group) (isl p : Nat) : (adoptSluice s g isl p).pending = s.pending := by
  simp [adoptSluice]

@[simp] theorem adoptRot_pending (s : State) (g : Group) (r i : Nat) : (adoptRot s g r i).pending = s.pending := by
  simp [adoptRot]

@[simp] theorem adoptFmt_pending (s : State) (g : Group) (r t : Nat) : (adoptFmt s g r t).pending = s.pending := by
  simp [adoptFmt]

@[simp] theorem adoptGroup_pending (s : State) (g : Group) (isl i : Nat) : (adoptGroup s g isl i).pending = s.pending := by
  simp [adoptGroup]

/-! ### Machine/KImage.lean -/

@[simp] theorem initReg_pending (s : State) (e : Nat × Nat × Nat) : (initReg s e).pending = s.pending := by
  unfold initReg
  split <;> simp

@[simp] theorem imgUnits_pending (d : List Byte) (s : State) (n : Nat) : (imgUnits d s n).pending = s.pending := by
  unfold imgUnits
  refine SameQueue.ite rfl ?_
  unfold SameQueue
  split
  · refine foldl_pending (fun s t => ?_) _ _
    simp only [setF_pending, foldl_pending fun s f => setF_pending ..]
  · refine foldl_pending (fun s j => ?_) _ _
    simp only [setF_pending]
  · exact (setST_pending ..).trans (foldl_pending (fun s u => setF_pending ..) ..)
  · exact foldl_pending (fun s u => setF_pending ..) ..
  · rfl

@[simp] theorem grantFloor_pending (s : State) (n : Nat) : (grantFloor s n).pending = s.pending := by
  simp [grantFloor]

@[simp] theorem imgShares_pending (d : List Byte) (s : State) : (imgShares d s).pending = s.pending := by
  unfold imgShares
  extract_lets -underBinder s1 turns s2 s3 p
  have h1 : s1.pending = s.pending := foldl_pending (fun s q => by simp only [setST_pending]) ..
  have h3 : s3.pending = s.pending := by
    refine (foldl_pending (fun s n => ?_) ..).trans ((setST_pending ..).trans h1)
    simp only [setST_pending]
  clear_value s3
  simp only [setST_pending, setF_pending, h3]

@[simp] theorem putDigest_pending (s : State) (f : Field) (b : List Byte) : (putDigest s f b).pending = s.pending := by
  unfold putDigest
  refine foldl_pending ?_ _ _
  simp

@[simp] theorem applyImage_pending (s : State) (d : List Byte) (anchor : Nat) : (applyImage s d anchor).pending = s.pending := by
  simp [applyImage]

/-! ### Machine/Stop.lean -/

@[simp] theorem setMstate_pending (s : State) (v : Nat) : (setMstate s v).pending = s.pending := by
  simp [setMstate]

@[simp] theorem stopDies_pending (s : State) : (stopDies s).pending = s.pending := by
  simp [stopDies]

theorem flushStripe_pending {s : State} {g kib : Nat} {out : State × Nat} (h : flushStripe s g kib = some out) :
    out.1.pending = s.pending := by
  unfold flushStripe at h
  split at h
  · exact Option.some.inj h ▸ rfl
  · obtain ⟨r, hr, rfl⟩ := Option.map_eq_some_iff.mp h
    exact (updFlash_pending ..).trans (openWith_pending hr)

@[simp] theorem flushSlot_pending (s : State) (key : Nat) : (flushSlot s key).pending = s.pending := by
  grind [flushSlot, fillSlot_pending, → flushStripe_pending, appendBlock_pending, loseUnit_pending]

@[simp] theorem undoLate_pending (s : State) (l : Late) : (undoLate s l).pending = s.pending := by
  unfold undoLate
  split <;> simp

@[simp] theorem flushBuffers_pending (s : State) : (flushBuffers s).pending = s.pending := by
  unfold flushBuffers
  dsimp only
  rw [stopDies_pending, updFlash_pending, foldl_pending flushSlot_pending, updFlash_pending,
    foldl_pending fun s x => journalRec_pending ..,
    foldl_pending undoLate_pending]
  split <;> rfl

@[simp] theorem loadFlushed_pending (s : State) : (loadFlushed s).pending = s.pending := by
  unfold loadFlushed
  extract_lets -underBinder unit t
  have hu (id : Nat) (s : State) (p : Packed) : (unit id s p).pending = s.pending := by
    dsimp only [unit]
    split <;> simp
  clear_value unit
  refine (updFlash_pending ..).trans (foldl_pending (fun s id => ?_) ..)
  split
  · exact foldl_pending (hu id) ..
  · rfl

@[simp] theorem coldStart_pending (s : State) : (coldStart s).pending = s.pending := by
  simp [coldStart]

@[simp] theorem haltedState_pending (s : State) : (haltedState s).pending = s.pending := by
  simp [haltedState]

@[simp] theorem warmStart_pending (s : State) : (warmStart s).pending = s.pending := by
  unfold warmStart
  dsimp only
  rw [noteAlert_pending, setF_pending, setF_pending, setF_pending, setMstate_pending, foldl_pending fun s f => setF_pending ..,
    foldl_pending fun s k => setF_pending ..]

@[simp] theorem completeAll_pending (s : State) (sel : Cmd → Bool) (status : Nat) : (completeAll s sel status).pending = s.pending := by
  simp [completeAll]

@[simp] theorem destroyAll_pending (s : State) : (destroyAll s).pending = s.pending := by
  simp [destroyAll]

@[simp] theorem haltEnds_pending (s : State) (status : Nat) : (haltEnds s status).pending = s.pending := by
  simp [haltEnds]

@[simp] theorem haltBegins_pending (s : State) (cause : Nat) (reset : Bool) (status : Nat) (force : Bool) :
    (haltBegins s cause reset status force).pending = s.pending := by
  simp [haltBegins]

@[simp] theorem forcedHalt_pending (s : State) (cause : Nat) (reset : Bool) (status : Nat) :
    (forcedHalt s cause reset status).pending = s.pending := by
  unfold forcedHalt
  split <;> simp

@[simp] theorem fatalHalt_pending (s : State) : (fatalHalt s).pending = s.pending := by
  simp [fatalHalt]

@[simp] theorem haltOver_pending (s : State) : (haltOver s).pending = s.pending := by
  simp [haltOver]

@[simp] theorem mgmtQuoteEnds_pending (s : State) (status : Nat) (data : List Byte) :
    (mgmtQuoteEnds s status data).pending = s.pending := by
  simp [mgmtQuoteEnds]

@[simp] theorem powerFail_pending (s : State) : (powerFail s).pending = s.pending := by
  simp [powerFail]

@[simp] theorem powerOff_pending (s : State) : (powerOff s).pending = s.pending := by
  simp [powerOff]

/-! ### Machine/Boot.lean -/

@[simp] theorem loadIdentity_pending (s : State) (k : List Byte × List Byte) (source : Nat) :
    (loadIdentity s k source).pending = s.pending := by
  simp [loadIdentity]

/-- `deriveOver` for any check of a record and any way to derive a key; the kernel can unfold it. -/
def deriveOverBy (ok : List Byte → Bool) (derive : List Byte → List Byte → Option (List Byte × List Byte)) (s : State) (puf : List Byte) :
    List (Nat × List Byte) → List (List Byte) → State
  | [], _ => setF s 58 F.ID_STATUS_STATE 2
  | (n, r) :: l, tried =>
    if !ok r || tried.contains r then deriveOverBy ok derive s puf l tried
    else match derive puf r with
      | some k => let s := loadIdentity s k n; { s with ident := { s.ident with source := r } }
      | none => deriveOverBy ok derive s puf l (r :: tried)

theorem deriveOver_eq (s : State) (puf : List Byte) : deriveOver s puf = deriveOverBy helperOk deriveFrom s puf := by
  delta deriveOver deriveOverBy
  delta deriveOver._f deriveOverBy._f
  generalize deriveFrom = derive, helperOk = ok
  exact rfl

theorem deriveOverBy_pending (ok : List Byte → Bool) (derive : List Byte → List Byte → Option (List Byte × List Byte)) (s : State)
    (puf : List Byte)
    (l : List (Nat × List Byte)) (tried : List (List Byte)) : (deriveOverBy ok derive s puf l tried).pending = s.pending := by
  induction l generalizing tried with
  | nil =>
    unfold deriveOverBy
    exact setF_pending ..
  | cons c l ih =>
    obtain ⟨n, r⟩ := c
    unfold deriveOverBy
    refine SameQueue.ite (ih tried) ?_
    unfold SameQueue
    split
    · dsimp only
      rw [loadIdentity_pending]
    · exact ih _

@[simp] theorem deriveOver_pending (s : State) (puf : List Byte) (l : List (Nat × List Byte)) (tried : List (List Byte)) :
    (deriveOver s puf l tried).pending = s.pending :=
  deriveOver_eq s puf ▸ deriveOverBy_pending ..

@[simp] theorem enrol_pending (s : State) (puf entropy : List Byte) : (enrol s puf entropy).pending = s.pending := by
  simp [enrol]

@[simp] theorem deriveIdentity_pending (s : State) (env : StepEnv) : (deriveIdentity s env).pending = s.pending := by
  simp [deriveIdentity]

@[simp] theorem chooseImage_pending (s : State) (d : List Byte) (source : Nat) : (chooseImage s d source).pending = s.pending := by
  unfold chooseImage
  dsimp only
  rw [setF_pending, putDigest_pending, setF_pending]

@[simp] theorem nextStep_pending (s : State) (n k : Nat) : (nextStep s n k).pending = s.pending := by
  simp [nextStep]

@[simp] theorem chooseSlot_pending (s : State) : (chooseSlot s).pending = s.pending := by
  simp [chooseSlot]

@[simp] theorem raiseFloor_pending (s : State) : (raiseFloor s).pending = s.pending := by
  simp [raiseFloor]

@[simp] theorem readMarkers_pending (s : State) (c dn : Nat) (marked : List (Nat × Nat × Nat)) :
    (readMarkers s c dn marked).pending = s.pending := by
  simp [readMarkers]

@[simp] theorem scanDie_pending (c : Nat) (sensed : List Sensed) (marked : List (Nat × Nat × Nat)) (s : State) (dn : Nat) :
    (scanDie c sensed marked s dn).pending = s.pending := by
  simp [scanDie]

@[simp] theorem scanChannel_pending (sensed : List Sensed) (marked : List (Nat × Nat × Nat)) (s : State) (c : Nat) :
    (scanChannel sensed marked s c).pending = s.pending := by
  simp [scanChannel]

@[simp] theorem startChannel_pending (env : StepEnv) (s : State) (c : Nat) : (startChannel env s c).pending = s.pending := by
  simp [startChannel]

@[simp] theorem firstU0_pending (s : State) : (firstU0 s).pending = s.pending := by
  simp [firstU0]

@[simp] theorem goRunning_pending (s : State) (energy : Nat) : (goRunning s energy).pending = s.pending := by
  unfold goRunning
  dsimp only
  split <;> simp

@[simp] theorem execStartUpStepEnd_pending (env : StepEnv) (s : State) : KeepsQueue s (execStartUpStepEnd env s) := by
  unfold execStartUpStepEnd
  rw [keepsQueue_next]
  refine SameQueue.ite rfl ?_
  unfold SameQueue
  split
  · simp only [nextStep_pending, setF_pending, updLink_pending]
  · exact SameQueue.ite rfl (nextStep_pending ..)
  · extract_lets -underBinder s1 s2
    have h2 : s2.pending = s.pending :=
      (SameQueue.ite (chooseSlot_pending ..) rfl : SameQueue s1 s2).trans (deriveIdentity_pending ..)
    exact SameQueue.ite h2 ((nextStep_pending ..).trans ((raiseFloor_pending ..).trans h2))
  · extract_lets -underBinder s1 s2
    have h1 : s1.pending = s.pending := SameQueue.ite (deriveOver_pending ..) rfl
    exact (nextStep_pending ..).trans ((updLink_pending ..).trans ((applyImage_pending ..).trans h1))
  · exact (nextStep_pending ..).trans (foldl_pending (fun s n => setF_pending ..) ..)
  · exact (nextStep_pending ..).trans ((writeCopies_pending ..).trans (foldl_pending (startChannel_pending env) ..))
  · exact SameQueue.ite rfl ((nextStep_pending ..).trans ((firstU0_pending ..).trans (loadFlushed_pending ..)))
  · exact (goRunning_pending ..).trans (nextStep_pending ..)
  · rfl

@[simp] theorem execInputQualified_pending (slotId : Nat) (pins : MgmtPins) (s : State) :
    KeepsQueue s (execInputQualified slotId pins s) := by
  simp [execInputQualified]

@[simp] theorem execHoldupCharged_pending (_energy : Nat) (s : State) : KeepsQueue s (execHoldupCharged _energy s) := by
  simp [execHoldupCharged]

@[simp] theorem execFlushComplete_pending (s : State) : KeepsQueue s (execFlushComplete s) := by
  simp [execFlushComplete]

@[simp] theorem submitSideband_pending (s : State) : (submitSideband s).pending = s.pending := by
  unfold submitSideband
  extract_lets -underBinder d code s1 s2
  have h1 : s1.pending = s.pending := setF_pending ..
  have h2 : s2.pending = s.pending := SameQueue.ite ((countEv_pending ..).trans h1) h1
  clear_value s2
  refine SameQueue.ite ?_ ((updDqp_pending ..).trans h2)
  exact (nextStep_pending ..).trans ((setF_pending ..).trans ((chooseImage_pending ..).trans h2))

@[simp] theorem putImage_pending (s : State) (d : List Byte) : (putImage s d).pending = s.pending := by
  simp [putImage]

@[simp] theorem endImageWrite_pending (s : State) (c : Cmd) (good : Bool) : (endImageWrite s c good).pending = s.pending := by
  simp [endImageWrite]

end Sys2Proof.Machine
end

section
/-!
PROOFS. Scope: O3, the queue of waiting commands: what the functions of Machine/Boot.lean to Machine/Weir.lean leave of it.
-/
namespace Sys2Proof.Machine

/-! ### Machine/Boot.lean -/

@[simp] theorem execImageWrite_pending (c : CmdId) (readBackOk : Nat) (s : State) : KeepsQueue s (execImageWrite c readBackOk s) := by
  unfold execImageWrite
  split <;> simp

/-! ### Machine/Ident.lean -/

@[simp] theorem headQuote_pending (s : State) : (headQuote s).pending = s.pending := by
  unfold headQuote
  split <;> simp

@[simp] theorem queueQuote_pending (s : State) (q : Quote) : (queueQuote s q).pending = s.pending := by
  simp [queueQuote]

@[simp] theorem execAttestQuote_pending (c : CmdId) (s : State) : KeepsQueue s (execAttestQuote c s) := by
  simp [execAttestQuote]

@[simp] theorem mgmtQuoteGo_pending (s : State) : (mgmtQuoteGo s).pending = s.pending := by
  simp [mgmtQuoteGo]

@[simp] theorem drawRandom_pending (s : State) : (drawRandom s).2.pending = s.pending := by
  have h (l : List Nat) (x : List Byte × State) :
      (l.foldl (fun r _ => let f := takeFree r.2; (r.1 ++ toBytes 8 f.1.toNat, f.2)) x).2.pending = x.2.pending := by
    induction l generalizing x with
    | nil => rfl
    | cons a l ih => exact (ih _).trans (takeFree_pending ..)
  exact h ..

@[simp] theorem execQuoteSigned_pending (s : State) : KeepsQueue s (execQuoteSigned s) := by
  unfold execQuoteSigned
  dsimp only
  (repeat' split) <;> simp

/-! ### Machine/Counters.lean -/

@[simp] theorem writeCntCtrl_pending (s : State) (isl v : Nat) : (writeCntCtrl s isl v).1.pending = s.pending := by
  unfold writeCntCtrl
  extract_lets en was
  refine SameQueueOf.ite rfl ?_
  refine (setF_pending ..).trans (foldl_pending (fun s n => ?_) ..)
  rw [setF_pending]

@[simp] theorem writeSmpTail_pending (s : State) (isl v : Nat) : (writeSmpTail s isl v).1.pending = s.pending := by
  unfold writeSmpTail
  split <;> simp

@[simp] theorem execSampleCapture_pending (island counter : Nat) (s : State) : KeepsQueue s (execSampleCapture island counter s) := by
  unfold execSampleCapture
  dsimp only
  (repeat' split) <;> simp

@[simp] theorem execBwWindowEnd_pending (island : Nat) (s : State) : KeepsQueue s (execBwWindowEnd island s) := by
  simp [execBwWindowEnd]

@[simp] theorem execFreqMark_pending (s : State) : KeepsQueue s (execFreqMark s) := by
  unfold execFreqMark
  rw [keepsQueue_next]
  refine foldl_sameQueue (fun s i => ?_) ..
  refine SameQueue.ite rfl ?_
  dsimp only [SameQueue]
  split
  · rw [setF_pending]
  · split
    · rw [setF_pending]
    · rfl

/-! ### Machine/Arb.lean -/

@[simp] theorem logLoss_pending (s : State) (mgmt : Bool) : (logLoss s mgmt).pending = s.pending := by
  simp [logLoss]

@[simp] theorem arbitrate_pending (s : State) (mgmt : Bool) (kind key value : Nat) :
    (arbitrate s mgmt kind key value).1.pending = s.pending := by
  unfold arbitrate
  dsimp only
  split <;> simp

/-! ### Machine/Prot.lean -/

@[simp] theorem testPut_pending (s : State) (isl arr unit a : Nat) (l : List Byte) : (testPut s isl arr unit a l).pending = s.pending := by
  unfold testPut
  split <;> simp

@[simp] theorem armLoop_pending (s : State) (isl unit a : Nat) : (armLoop s isl unit a).pending = s.pending := by
  simp [armLoop]

@[simp] theorem armFlips_pending (s : State) (isl arr unit a : Nat) : (armFlips s isl arr unit a).pending = s.pending := by
  simp [armFlips]

@[simp] theorem putWindow_pending (s : State) (isl : Nat) (l : List Byte) : (putWindow s isl l).pending = s.pending := by
  unfold putWindow
  refine foldl_pending ?_ _ _
  simp

@[simp] theorem testStatus_pending (s : State) (isl result pos : Nat) : (testStatus s isl result pos).pending = s.pending := by
  simp [testStatus]

@[simp] theorem readWord_pending (s : State) (isl k : Nat) (d : List Byte) : (readWord s isl k d).1.pending = s.pending := by
  unfold readWord
  (repeat' split) <;> simp

@[simp] theorem testDecode_pending (s : State) (isl arr unit a : Nat) : (testDecode s isl arr unit a).pending = s.pending := by
  unfold testDecode
  extract_lets -underBinder n raw go
  have hgo : go.1.pending = s.pending := by
    refine foldl_fst_pending (fun x i => ?_) ..
    dsimp only
    split <;> exact readWord_pending ..
  clear_value go
  rw [testStatus_pending, putWindow_pending, hgo]

@[simp] theorem testCodec_pending (s : State) (isl unit : Nat) : (testCodec s isl unit).pending = s.pending := by
  simp [testCodec]

@[simp] theorem writeTctrl_pending (s : State) (isl v : Nat) : (writeTctrl s isl v).1.pending = s.pending := by
  unfold writeTctrl
  dsimp only
  (repeat' split) <;> simp

@[simp] theorem writeFlipCtrl_pending (s : State) (isl v : Nat) : (writeFlipCtrl s isl v).1.pending = s.pending := by
  unfold writeFlipCtrl
  dsimp only
  (repeat' split) <;> simp

/-! ### Machine/Regs.lean -/

@[simp] theorem restart_pending (s : State) : (restart s).pending = s.pending := by
  simp [restart]

@[simp] theorem writeOrder_pending (s : State) (mgmt : Bool) (v : Nat) : (writeOrder s mgmt v).1.pending = s.pending := by
  unfold writeOrder
  dsimp only
  (repeat' split) <;> simp

@[simp] theorem writeSbCtrl_pending (s : State) (v : Nat) : (writeSbCtrl s v).1.pending = s.pending := by
  unfold writeSbCtrl
  dsimp only
  (repeat' split) <;> simp

@[simp] theorem writeSbData_pending (s : State) (v : Nat) : (writeSbData s v).1.pending = s.pending := by
  unfold writeSbData
  dsimp only
  split <;> simp

@[simp] theorem writeTmMode_pending (s : State) (v : Nat) : (writeTmMode s v).pending = s.pending := by
  unfold writeTmMode
  extract_lets was t
  have ht : t.pending = s.pending := setF_pending ..
  clear_value t
  refine SameQueue.ite ((foldl_pending (fun s w => ?_) ..).trans ht) ht
  split
  · exact SameQueue.ite rfl (placeHinted_pending ..)
  · rfl

@[simp] theorem writeCommit_pending (s : State) (mgmt : Bool) (g : Group) (isl i : Nat) :
    (writeCommit s mgmt g isl i).1.pending = s.pending := by
  unfold writeCommit
  dsimp only
  (repeat' split) <;> simp

@[simp] theorem plainWrite_pending (s : State) (isl : Nat) (r : Reg) (i j v : Nat) : (plainWrite s isl r i j v).pending = s.pending := by
  unfold plainWrite
  refine foldl_pending (fun s x => ?_) _ _
  split <;> simp

@[simp] theorem writeEffect_pending (s : State) (mgmt : Bool) (isl : Nat) (r : Reg) (i j v : Nat) :
    (writeEffect s mgmt isl r i j v).1.pending = s.pending := by
  unfold writeEffect
  refine SameQueueOf.ite (SameQueue.ite (dqpStart_pending ..) (dqpStop_pending ..)) <| SameQueueOf.ite (writeSbCtrl_pending ..) <|
    SameQueueOf.ite (writeSbData_pending ..) <| SameQueueOf.ite (SameQueueOf.ite rfl (plainWrite_pending ..)) <|
    SameQueueOf.ite (writeTmMode_pending ..) <| SameQueueOf.ite ((renewLeads_pending ..).trans (plainWrite_pending ..)) <|
    SameQueueOf.ite (writeTctrl_pending ..) <| SameQueueOf.ite (writeFlipCtrl_pending ..) <|
    SameQueueOf.ite ((noteAlert_pending ..).trans (plainWrite_pending ..)) <| SameQueueOf.ite (writeCntCtrl_pending ..) <|
    SameQueueOf.ite (writeSmpTail_pending ..) <| SameQueueOf.ite (SameQueue.ite (mgmtQuoteGo_pending ..) rfl) <|
    SameQueueOf.ite (writeOrder_pending ..) <| SameQueueOf.ite ?_ ?_
  · exact SameQueueOf.ite ((plainWrite_pending ..).trans (arbitrate_pending ..)) (arbitrate_pending ..)
  · unfold SameQueueOf
    split
    · exact SameQueueOf.ite (writeCommit_pending ..) rfl
    · exact plainWrite_pending ..

@[simp] theorem writeReg_pending (s : State) (mgmt : Bool) (isl off v : Nat) : (writeReg s mgmt isl off v).1.pending = s.pending := by
  unfold writeReg
  (repeat' split) <;> simp

@[simp] theorem readReg_pending (s : State) (mgmt : Bool) (isl off : Nat) : (readReg s mgmt isl off).1.pending = s.pending := by
  unfold readReg
  (repeat' split) <;> simp

@[simp] theorem regAccess_pending (s : State) (mgmt write : Bool) (a v width : Nat) :
    (regAccess s mgmt write a v width).1.pending = s.pending := by
  unfold regAccess
  (repeat' split) <;> simp

@[simp] theorem portAccess_pending (s : State) (port : Nat) (write : Bool) (a v width : Nat) :
    (portAccess s port write a v width).pending = s.pending := by
  simp [portAccess]

@[simp] theorem execRegWrite_pending (port : Nat) (access : RegAt) (value : Nat) (s : State) :
    KeepsQueue s (execRegWrite port access value s) := by
  simp [execRegWrite]

@[simp] theorem execLoReadLatch_pending (port addr : Nat) (s : State) : KeepsQueue s (execLoReadLatch port addr s) := by
  simp [execLoReadLatch]

@[simp] theorem execGroupCommit_pending (port addr value : Nat) (s : State) : KeepsQueue s (execGroupCommit port addr value s) := by
  simp [execGroupCommit]

@[simp] theorem execGroupAdopt_pending (addr : Nat) (s : State) : KeepsQueue s (execGroupAdopt addr s) := by
  unfold execGroupAdopt
  (repeat' split) <;> simp

@[simp] theorem execSidebandRegAccess_pending (write : Bool) (access : RegAt) (value : Nat) (s : State) :
    KeepsQueue s (execSidebandRegAccess write access value s) := by
  simp [execSidebandRegAccess]

@[simp] theorem execSbImgOpen_pending (s : State) : KeepsQueue s (execSbImgOpen s) := by
  simp [execSbImgOpen]

@[simp] theorem execSbImgData_pending (value : Nat) (s : State) : KeepsQueue s (execSbImgData value s) := by
  simp [execSbImgData]

@[simp] theorem execSbImgSubmit_pending (s : State) : KeepsQueue s (execSbImgSubmit s) := by
  simp [execSbImgSubmit]

@[simp] theorem execDqpEnable_pending (s : State) : KeepsQueue s (execDqpEnable s) := by
  simp [execDqpEnable]

@[simp] theorem execDqpDisable_pending (s : State) : KeepsQueue s (execDqpDisable s) := by
  simp [execDqpDisable]

@[simp] theorem execTmModeWrite_pending (port value : Nat) (s : State) : KeepsQueue s (execTmModeWrite port value s) := by
  simp [execTmModeWrite]

@[simp] theorem execProtTestWrite_pending (port island value : Nat) (s : State) :
    KeepsQueue s (execProtTestWrite port island value s) := by
  simp [execProtTestWrite]

@[simp] theorem execProtTestRead_pending (port island value : Nat) (s : State) : KeepsQueue s (execProtTestRead port island value s) := by
  simp [execProtTestRead]

@[simp] theorem execProtTestCodec_pending (port island value : Nat) (s : State) :
    KeepsQueue s (execProtTestCodec port island value s) := by
  simp [execProtTestCodec]

@[simp] theorem execProtFlipArm_pending (port island value : Nat) (s : State) : KeepsQueue s (execProtFlipArm port island value s) := by
  simp [execProtFlipArm]

@[simp] theorem execWeirOrderHalt_pending (port : Nat) (s : State) : KeepsQueue s (execWeirOrderHalt port s) := by
  simp [execWeirOrderHalt]

@[simp] theorem execWeirOrderReset_pending (port : Nat) (s : State) : KeepsQueue s (execWeirOrderReset port s) := by
  simp [execWeirOrderReset]

@[simp] theorem execWeirOrderRestart_pending (port : Nat) (s : State) : KeepsQueue s (execWeirOrderRestart port s) := by
  simp [execWeirOrderRestart]

@[simp] theorem execCounterEnable_pending (port island value : Nat) (s : State) :
    KeepsQueue s (execCounterEnable port island value s) := by
  simp [execCounterEnable]

@[simp] theorem execCounterClear_pending (port island value : Nat) (s : State) : KeepsQueue s (execCounterClear port island value s) := by
  simp [execCounterClear]

@[simp] theorem execCntSmpTailWrite_pending (port island value : Nat) (s : State) :
    KeepsQueue s (execCntSmpTailWrite port island value s) := by
  simp [execCntSmpTailWrite]

@[simp] theorem execMgmtQuoteRequest_pending (port value : Nat) (s : State) : KeepsQueue s (execMgmtQuoteRequest port value s) := by
  simp [execMgmtQuoteRequest]

/-! ### Machine/Media.lean -/

@[simp] theorem execSearchContent_pending (c : CmdId) (s : State) : KeepsQueue s (execSearchContent c s) := by
  unfold execSearchContent
  rw [keepsQueue_next]
  refine runCmd_pending (fun s c => ?_) ..
  split <;> simp

@[simp] theorem execMediaDecode_pending (c : CmdId) (s : State) : KeepsQueue s (execMediaDecode c s) := by
  unfold execMediaDecode
  rw [keepsQueue_next]
  refine runCmd_pending (fun s c => ?_) ..
  split <;> simp

@[simp] theorem execDecodeStart_pending (k : DecodeAt) (s : State) : KeepsQueue s (execDecodeStart k s) := by
  unfold execDecodeStart
  dsimp only
  (repeat' split) <;> simp

@[simp] theorem execDecodeComplete_pending (n : Nat) (fault : FrameUpset) (s : State) : KeepsQueue s (execDecodeComplete n fault s) := by
  unfold execDecodeComplete
  (repeat' split) <;> simp

@[simp] theorem execMediaSelfTestDone_pending (island unit : Nat) (failed : Bool) (s : State) :
    KeepsQueue s (execMediaSelfTestDone island unit failed s) := by
  simp [execMediaSelfTestDone]

@[simp] theorem execMediaDrainComplete_pending (island unit : Nat) (s : State) : KeepsQueue s (execMediaDrainComplete island unit s) := by
  simp [execMediaDrainComplete]

@[simp] theorem execMediaJoinCountReached_pending (island unit : Nat) (s : State) :
    KeepsQueue s (execMediaJoinCountReached island unit s) := by
  simp [execMediaJoinCountReached]

/-! ### Machine/Units.lean -/

@[simp] theorem endUnitOps_pending (s : State) (ctx status : Nat) : (endUnitOps s ctx status).pending = s.pending := by
  simp [endUnitOps]

@[simp] theorem loseContext_pending (s : State) (c : Ctx) (reach status : Nat) : (loseContext s c reach status).pending = s.pending := by
  simp [loseContext]

@[simp] theorem reachFault_pending (s : State) (r cause : Nat) : (reachFault s r cause).pending = s.pending := by
  simp [reachFault]

@[simp] theorem setUnit_pending (s : State) (u : Nat × Nat × Nat) (v : Nat) : (setUnit s u v).pending = s.pending := by
  unfold setUnit
  split <;> simp

@[simp] theorem orderUnit_pending (s : State) (u : Nat × Nat × Nat) (v : Nat) : (orderUnit s u v).pending = s.pending := by
  simp [orderUnit]

@[simp] theorem runOrder_pending {body : State → Cmd → State} (h : ∀ s c, (body s c).pending = s.pending) (s : State) (c : CmdId)
    (order : Nat)
    (conds : Cmd → List Nat) : (runOrder s c order conds body).pending = s.pending :=
  SameQueue.ite rfl (runCmd_pending h ..)

@[simp] theorem execUnitDrain_pending (c : CmdId) (s : State) : KeepsQueue s (execUnitDrain c s) := by
  unfold execUnitDrain
  rw [keepsQueue_next]
  refine runOrder_pending (fun s c => ?_) ..
  extract_lets -underBinder u
  split
  · exact SameQueue.ite (by simp [SameQueue]) (by simp [SameQueue])
  all_goals simp [sealStripe_pending]

@[simp] theorem clearTest_pending (s : State) (u : Nat × Nat × Nat) : (clearTest s u).pending = s.pending := by
  unfold clearTest
  split
  case h_2 | h_3 => exact foldl_pending (fun s q => by rw [setFBit_pending, setFBit_pending]) ..
  all_goals simp

@[simp] theorem execUnitTest_pending (c : CmdId) (s : State) : KeepsQueue s (execUnitTest c s) := by
  unfold execUnitTest
  rw [keepsQueue_next]
  exact runOrder_pending (fun s c => by simp) ..

@[simp] theorem joinUnit_pending (s : State) (u : Nat × Nat × Nat) (fault : LineFault) (sensed : List Sensed)
    (marked : List (Nat × Nat × Nat)) : (joinUnit s u fault sensed marked).pending = s.pending := by
  unfold joinUnit
  split <;> simp

@[simp] theorem execUnitJoin_pending (c : CmdId) (fault : LineFault) (sensed : List Sensed) (marked : List (Nat × Nat × Nat)) (s : State) :
    KeepsQueue s (execUnitJoin c fault sensed marked s) := by
  unfold execUnitJoin
  rw [keepsQueue_next]
  exact runOrder_pending (fun s c => by simp) ..

@[simp] theorem execUnitOffline_pending (c : CmdId) (s : State) : KeepsQueue s (execUnitOffline c s) := by
  unfold execUnitOffline
  rw [keepsQueue_next]
  refine runOrder_pending (fun s c => ?_) ..
  dsimp only
  rw [complete_pending]
  split <;> simp

@[simp] theorem execReachSelfTestDone_pending (reach : Nat) (failed : Bool) (s : State) :
    KeepsQueue s (execReachSelfTestDone reach failed s) := by
  simp [execReachSelfTestDone]

@[simp] theorem execReachDrainComplete_pending (reach : Nat) (s : State) : KeepsQueue s (execReachDrainComplete reach s) := by
  simp [execReachDrainComplete]

@[simp] theorem execReachJoinQuantum_pending (reach : Nat) (s : State) : KeepsQueue s (execReachJoinQuantum reach s) := by
  simp [execReachJoinQuantum]

/-! ### Machine/Weir.lean -/

@[simp] theorem setPeak_pending (s : State) (isl v : Nat) : (setPeak s isl v).pending = s.pending := by
  simp [setPeak]

@[simp] theorem throttlePeak_pending (s : State) (isl : Nat) : (throttlePeak s isl).pending = s.pending := by
  simp [throttlePeak]

@[simp] theorem renewPeak_pending (s : State) (isl : Nat) : (renewPeak s isl).pending = s.pending := by
  simp [renewPeak]

@[simp] theorem readSensor_pending (s : State) (i t : Nat) : (readSensor s i t).pending = s.pending := by
  simp [readSensor]

@[simp] theorem execThermalThrottle_pending (sensor temp : Nat) (s : State) : KeepsQueue s (execThermalThrottle sensor temp s) := by
  unfold execThermalThrottle
  (repeat' split) <;> simp

@[simp] theorem execReachCritical_pending (reach temp : Nat) (s : State) : KeepsQueue s (execReachCritical reach temp s) := by
  simp [execReachCritical]

@[simp] theorem execThermalAbort_pending (sensor temp : Nat) (s : State) : KeepsQueue s (execThermalAbort sensor temp s) := by
  simp [execThermalAbort]

@[simp] theorem setLevel_pending (s : State) (isl v : Nat) : (setLevel s isl v).pending = s.pending := by
  simp [setLevel]

@[simp] theorem takeGrant_pending (requests : List Nat) (s : State) (g : Nat × Nat) : (takeGrant requests s g).pending = s.pending := by
  simp [takeGrant]

@[simp] theorem addEnergy_pending (s : State) (volt current : Nat) : (addEnergy s volt current).pending = s.pending := by
  simp [addEnergy]

@[simp] theorem measureInput_pending (s : State) (volt current host : Nat) : (measureInput s volt current host).pending = s.pending := by
  simp [measureInput]

@[simp] theorem execWeirRenegotiate_pending (requests draws : List Nat) (volt current host : Nat) (s : State) :
    KeepsQueue s (execWeirRenegotiate requests draws volt current host s) := by
  unfold execWeirRenegotiate
  (repeat' split) <;> simp

@[simp] theorem execCurrentOverGrant_pending (island draw : Nat) (s : State) : KeepsQueue s (execCurrentOverGrant island draw s) := by
  simp [execCurrentOverGrant]

@[simp] theorem tripRail_pending (s : State) (rail index : Nat) : (tripRail s rail index).pending = s.pending := by
  simp [tripRail]

@[simp] theorem execConverterTrip_pending (rail index : Nat) (s : State) : KeepsQueue s (execConverterTrip rail index s) := by
  unfold execConverterTrip
  (repeat' split) <;> simp

end Sys2Proof.Machine
end

section
/-!
PROOFS. Scope: O3, the queue of waiting commands: what the functions of Machine/Weir.lean to Machine/RillCtl.lean leave of it.
-/
namespace Sys2Proof.Machine

/-! ### Machine/Weir.lean -/

@[simp] theorem execPowerFailDetect_pending (s : State) : KeepsQueue s (execPowerFailDetect s) := by
  simp [execPowerFailDetect]

@[simp] theorem execOverVoltage_pending (s : State) : KeepsQueue s (execOverVoltage s) := by
  simp [execOverVoltage]

@[simp] theorem execOverCurrent_pending (s : State) : KeepsQueue s (execOverCurrent s) := by
  simp [execOverCurrent]

@[simp] theorem execHoldupMeasure_pending (energy : Nat) (s : State) : KeepsQueue s (execHoldupMeasure energy s) := by
  simp [execHoldupMeasure]

@[simp] theorem execFatalError_pending (s : State) : KeepsQueue s (execFatalError s) := by
  simp [execFatalError]

@[simp] theorem execModResetAssert_pending (s : State) : KeepsQueue s (execModResetAssert s) := by
  simp [execModResetAssert]

@[simp] theorem execModResetRelease_pending (s : State) : KeepsQueue s (execModResetRelease s) := by
  simp [execModResetRelease]

/-! ### Machine/Power.lean -/

@[simp] theorem setPwr_pending (s : State) (m : PwrMove) : (setPwr s m).pending = s.pending := by
  simp [setPwr]

/-- `saveResidents` for any way to begin a leave; the kernel can unfold it. -/
def saveResidentsBy (leave : State → Ctx → Bool → State × Except Nat Unit) : List Ctx → State → State × Option Nat
  | [], s => (s, none)
  | c :: l, s =>
    if c.st = .resident then
      match leave s c true with
      | (s, .error e) => (s, some e)
      | (s, .ok _) => saveResidentsBy leave l s
    else saveResidentsBy leave l s

theorem saveResidents_eq : saveResidents = saveResidentsBy beginLeave := by
  delta saveResidents saveResidentsBy
  delta saveResidents._f saveResidentsBy._f
  rfl

theorem saveResidentsBy_pending {leave : State → Ctx → Bool → State × Except Nat Unit}
    (h : ∀ s c b, (leave s c b).1.pending = s.pending) (l : List Ctx) (s : State) : (saveResidentsBy leave l s).1.pending = s.pending := by
  induction l generalizing s with
  | nil => rfl
  | cons c l ih =>
    unfold saveResidentsBy
    refine SameQueueOf.ite ?_ (ih s)
    specialize h s c true
    generalize leave s c true = r at h ⊢
    unfold SameQueueOf
    split
    · exact h
    · exact (ih _).trans h

@[simp] theorem saveResidents_pending (l : List Ctx) (s : State) : (saveResidents l s).1.pending = s.pending :=
  saveResidents_eq ▸ saveResidentsBy_pending beginLeave_pending l s

@[simp] theorem execContextRestoreComplete_pending (ctx : Finding Nat) (s : State) : KeepsQueue s (execContextRestoreComplete ctx s) := by
  unfold execContextRestoreComplete
  rw [keepsQueue_next]
  split
  · rfl
  · rename_i c _
    refine SameQueue.ite rfl ?_
    extract_lets -underBinder t
    have ht : t.pending = s.pending := restored_pending ..
    have h (l : List Ctx) := saveResidents_pending l t
    clear_value t
    obtain ⟨save, hsave⟩ : ∃ f, f = saveResidents := ⟨_, rfl⟩
    rw [← hsave] at h ⊢
    clear hsave
    unfold SameQueue
    split
    · split
      case h_1 u e hu => simpa [ht] using pending_of_pair hu (h _)
      case h_2 u hu => exact (pending_of_pair hu (h _)).trans ht
    · exact ht

@[simp] theorem execSetPower_pending (c : CmdId) (s : State) : KeepsQueue s (execSetPower c s) := by
  unfold execSetPower
  rw [keepsQueue_next]
  split
  · rfl
  · refine runCmd_pending (fun s c => ?_) ..
    dsimp only
    (repeat' split) <;> grind [runCmd_pending, complete_pending, setPwr_pending, saveResidents_pending, suspendErases_pending]

@[simp] theorem enterDp3_pending (s : State) (no : Nat) (late : Bool) : (enterDp3 s no late).pending = s.pending := by
  simp [enterDp3]

@[simp] theorem execPowerStateEntered_pending (pastPoint : Bool) (s : State) : KeepsQueue s (execPowerStateEntered pastPoint s) := by
  unfold execPowerStateEntered
  (repeat' split) <;> simp

@[simp] theorem execPowerStateExited_pending (s : State) : KeepsQueue s (execPowerStateExited s) := by
  unfold execPowerStateExited
  (repeat' split) <;> simp

@[simp] theorem shutdown_pending (s : State) (id : CmdId) (action : Nat) : (shutdown s id action).pending = s.pending := by
  unfold shutdown
  split <;> simp

@[simp] theorem execShutdownHalt_pending (c : CmdId) (s : State) : KeepsQueue s (execShutdownHalt c s) := by
  simp [execShutdownHalt]

@[simp] theorem execShutdownReset_pending (c : CmdId) (s : State) : KeepsQueue s (execShutdownReset c s) := by
  simp [execShutdownReset]

@[simp] theorem execShutdownWaitExpire_pending (s : State) : KeepsQueue s (execShutdownWaitExpire s) := by
  simp [execShutdownWaitExpire]

@[simp] theorem execHaltFlushComplete_pending (s : State) : KeepsQueue s (execHaltFlushComplete s) := by
  simp [execHaltFlushComplete]

/-! ### Machine/LinkX.lean -/

@[simp] theorem replay_pending (s : State) (l : List Flit) : (replay s l).pending = s.pending := by
  simp [replay]

@[simp] theorem takeBack_pending (s : State) (ack credit : Nat) : (takeBack s ack credit).pending = s.pending := by
  simp [takeBack]

@[simp] theorem badType_pending (s : State) : (badType s).pending = s.pending := by
  simp [badType]

@[simp] theorem sendNak_pending (s : State) : (sendNak s).pending = s.pending := by
  simp [sendNak]

@[simp] theorem badDoorbell_pending (s : State) (qid kind : Nat) (bad : Bool) : (badDoorbell s qid kind bad).pending = s.pending := by
  simp [badDoorbell]

@[simp] theorem ringEntry_pending (s : State) (e : DbEntry) : (ringEntry s e).pending = s.pending := by
  unfold ringEntry
  (repeat' split) <;> simp

@[simp] theorem regEntry_pending (s : State) (e : RegEntry) : (regEntry s e).1.pending = s.pending := by
  unfold regEntry
  split <;> simp

@[simp] theorem regBatch_pending (l : List RegEntry) (s : State) (l1 : List Byte) : (regBatch l s l1).1.pending = s.pending := by
  fun_induction regBatch l s l1 <;> grind [regEntry_pending]

@[simp] theorem doHostFlit_pending (s : State) (f : HostFlit) : (doHostFlit s f).pending = s.pending := by
  unfold doHostFlit
  split <;> simp

@[simp] theorem drainRx_pending (n : Nat) (s : State) : (drainRx n s).pending = s.pending := by
  fun_induction drainRx n s <;> simp_all

@[simp] theorem settleLink_pending (s : State) : (settleLink s).pending = s.pending := by
  simp [settleLink]

@[simp] theorem receive_pending (s : State) (h : FlitHdr) (formOk : Bool) (f : HostFlit) : (receive s h formOk f).pending = s.pending := by
  unfold receive
  dsimp only
  (repeat' split) <;> simp

@[simp] theorem execLinkTrained_pending (sideband : Bool) (s : State) : KeepsQueue s (execLinkTrained sideband s) := by
  simp [execLinkTrained]

@[simp] theorem execFlitRejected_pending (raw : List Byte) (s : State) : KeepsQueue s (execFlitRejected raw s) := by
  simp [execFlitRejected]

@[simp] theorem execIdle_pending (ack freed : Nat) (s : State) : KeepsQueue s (execIdle ack freed s) := by
  unfold execIdle
  rw [keepsQueue_next]
  refine SameQueue.ite rfl ?_
  unfold SameQueue
  rw [settleLink_pending, updLink_pending]

@[simp] theorem execInit_pending (ack credit buffers : Nat) (s : State) : KeepsQueue s (execInit ack credit buffers s) := by
  simp [execInit]

@[simp] theorem execNak_pending (ack credit number : Nat) (s : State) : KeepsQueue s (execNak ack credit number s) := by
  simp [execNak]

@[simp] theorem execDoorbell_pending (hdr : FlitHdr) (entries : List DbEntry) (s : State) : KeepsQueue s (execDoorbell hdr entries s) := by
  simp [execDoorbell]

@[simp] theorem execRegReq_pending (hdr : FlitHdr) (entries : List RegEntry) (s : State) : KeepsQueue s (execRegReq hdr entries s) := by
  simp [execRegReq]

@[simp] theorem execPullData_pending (hdr : FlitHdr) (offset reqId : Nat) (data : List Byte) (s : State) :
    KeepsQueue s (execPullData hdr offset reqId data s) := by
  simp [execPullData]

@[simp] theorem execReplayTimeout_pending (s : State) : KeepsQueue s (execReplayTimeout s) := by
  simp [execReplayTimeout]

@[simp] theorem execIdleDue_pending (s : State) : KeepsQueue s (execIdleDue s) := by
  simp [execIdleDue]

@[simp] theorem execLaneRepair_pending (mdl : Nat) (repaired : Bool) (s : State) : KeepsQueue s (execLaneRepair mdl repaired s) := by
  simp [execLaneRepair]

/-! ### Machine/Mgmt.lean -/

@[simp] theorem mgmtRequest_pending (s : State) (frame : List Byte) : (mgmtRequest s frame).pending = s.pending := by
  unfold mgmtRequest
  dsimp only
  (repeat' split) <;> simp

@[simp] theorem execMgmtRead_pending (frame : List Byte) (s : State) : KeepsQueue s (execMgmtRead frame s) := by
  simp [execMgmtRead]

@[simp] theorem execMgmtWrite_pending (frame : List Byte) (s : State) : KeepsQueue s (execMgmtWrite frame s) := by
  simp [execMgmtWrite]

@[simp] theorem execMgmtResponse_pending (n : Nat) (s : State) : KeepsQueue s (execMgmtResponse n s) := by
  simp [execMgmtResponse]

@[simp] theorem setDyn_pending (s : State) (d : Option Nat) : (setDyn s d).pending = s.pending := by
  simp [setDyn]

@[simp] theorem execSetdasa_pending (static dyn : Nat) (s : State) : KeepsQueue s (execSetdasa static dyn s) := by
  simp [execSetdasa]

@[simp] theorem execEntdaa_pending (dyn : Nat) (s : State) : KeepsQueue s (execEntdaa dyn s) := by
  simp [execEntdaa]

@[simp] theorem execRstdaa_pending (s : State) : KeepsQueue s (execRstdaa s) := by
  simp [execRstdaa]

@[simp] theorem loadIr_pending (s : State) (tap code : Nat) : (loadIr s tap code).pending = s.pending := by
  simp [loadIr]

@[simp] theorem execJtagIdcode_pending (tap : Nat) (s : State) : KeepsQueue s (execJtagIdcode tap s) := by
  simp [execJtagIdcode]

@[simp] theorem execJtagBypass_pending (tap code : Nat) (s : State) : KeepsQueue s (execJtagBypass tap code s) := by
  simp [execJtagBypass]

@[simp] theorem execJtagSamplePreload_pending (tap : Nat) (shifted : List Bool) (s : State) :
    KeepsQueue s (execJtagSamplePreload tap shifted s) := by
  simp [execJtagSamplePreload]

@[simp] theorem execJtagExtest_pending (tap : Nat) (shifted : List Bool) (s : State) : KeepsQueue s (execJtagExtest tap shifted s) := by
  simp [execJtagExtest]

@[simp] theorem execTrstNAssert_pending (s : State) : KeepsQueue s (execTrstNAssert s) := by
  simp [execTrstNAssert]

/-! ### Machine/Object.lean -/

@[simp] theorem execObjRegister_pending (c : CmdId) (s : State) : KeepsQueue s (execObjRegister c s) := by
  simp [execObjRegister]

@[simp] theorem execObjSetAttr_pending (c : CmdId) (s : State) : KeepsQueue s (execObjSetAttr c s) := by
  simp [execObjSetAttr]

@[simp] theorem execObjDelete_pending (c : CmdId) (s : State) : KeepsQueue s (execObjDelete c s) := by
  unfold execObjDelete
  rw [keepsQueue_next]
  refine runCmd_pending (fun s c => ?_) ..
  split <;> simp

@[simp] theorem execObjLookup_pending (c : CmdId) (s : State) : KeepsQueue s (execObjLookup c s) := by
  unfold execObjLookup
  rw [keepsQueue_next]
  refine runCmd_pending (fun s c => ?_) ..
  split <;> simp

/-! ### Machine/RillCtl.lean -/

@[simp] theorem execRillBra_pending (r : RillAt) (s : State) : KeepsQueue s (execRillBra r s) := by
  unfold execRillBra
  rw [keepsQueue_next]
  refine issue_pending (fun s i => guardFmt_pending (guardUpset_pending (fun s => ?_) ..) ..) ..
  exact RStep.ite_pending rfl (RStep.ite_pending rfl (RStep.ite_pending rfl rfl))

@[simp] theorem reapRill_pending (s : State) (k : Nat) : (reapRill s k).pending = s.pending := by
  unfold reapRill
  split <;> simp

@[simp] theorem execRillExit_pending (r : RillAt) (s : State) : KeepsQueue s (execRillExit r s) := by
  unfold execRillExit
  rw [keepsQueue_next, reapRill_pending]
  refine issue_pending (fun s i => guardFmt_pending (guardUpset_pending (fun s => ?_) ..) ..) ..
  refine RStep.ite_pending rfl ?_
  split <;> rfl

@[simp] theorem arriveAll_pending (s : State) (i : Issue) (l : List (Nat × Nat × Nat)) : (arriveAll s i l).1.pending = s.pending := by
  refine foldl_fst_pending (fun x g => ?_) ..
  exact arrive_pending ..

@[simp] theorem barrierOp_pending (s : State) (at' : RillAt) (op : Nat) (wait : Bool) : (barrierOp s at' op wait).pending = s.pending := by
  unfold barrierOp
  refine issue_pending (fun s i => guardFmt_pending (guardUpset_pending (fun s => guardPoison_pending ?_ ..) ..) ..) ..
  refine RStep.ite_pending rfl ?_
  split
  · rfl
  · exact RStep.ite_pending rfl (RStep.ite_pending (arriveAll_pending ..) (arriveAll_pending ..))

@[simp] theorem execRillBarsync_pending (r : RillAt) (s : State) : KeepsQueue s (execRillBarsync r s) := by
  simp [execRillBarsync]

@[simp] theorem execRillBararrive_pending (r : RillAt) (s : State) : KeepsQueue s (execRillBararrive r s) := by
  simp [execRillBararrive]

@[simp] theorem signalOp_pending (s : State) (at' : RillAt) (op : Nat) (f : Nat → Nat → Nat) :
    (signalOp s at' op f).pending = s.pending := by
  unfold signalOp
  refine issue_pending (fun s i => guardFmt_pending (guardUpset_pending (fun s => guardPoison_pending ?_ ..) ..) ..) ..
  exact foldl_pending (fun s th => putSig_pending ..) ..

@[simp] theorem execRillSigadd_pending (r : RillAt) (s : State) : KeepsQueue s (execRillSigadd r s) := by
  simp [execRillSigadd]

@[simp] theorem execRillSigset_pending (r : RillAt) (s : State) : KeepsQueue s (execRillSigset r s) := by
  simp [execRillSigset]

@[simp] theorem execRillSigwait_pending (r : RillAt) (s : State) : KeepsQueue s (execRillSigwait r s) := by
  unfold execRillSigwait
  rw [keepsQueue_next]
  refine issue_pending (fun s i => guardFmt_pending (guardUpset_pending (fun s => guardPoison_pending ?_ ..) ..) ..) ..
  exact RStep.ite_pending rfl rfl

end Sys2Proof.Machine
end

section
/-!
PROOFS. Scope: O3, the queue of waiting commands: what the functions of Machine/RillCtl.lean to Machine/Dispatch.lean leave of it.
-/
namespace Sys2Proof.Machine

/-! ### Machine/RillCtl.lean -/

@[simp] theorem execRillNap_pending (r : RillAt) (s : State) : KeepsQueue s (execRillNap r s) := by
  unfold execRillNap
  rw [keepsQueue_next]
  exact issue_pending (fun s i => guardFmt_pending (guardUpset_pending (fun s => guardPoison_pending rfl ..) ..) ..) ..

@[simp] theorem execRillNapExpire_pending (r : RillAt) (s : State) : KeepsQueue s (execRillNapExpire r s) := by
  unfold execRillNapExpire
  dsimp only
  (repeat' split) <;> simp

/-! ### Machine/RillFp.lean -/

@[simp] theorem execRillFadd_pending (r : RillAt) (s : State) : KeepsQueue s (execRillFadd r s) := by
  simp [execRillFadd]

@[simp] theorem execRillFsub_pending (r : RillAt) (s : State) : KeepsQueue s (execRillFsub r s) := by
  simp [execRillFsub]

@[simp] theorem execRillFmul_pending (r : RillAt) (s : State) : KeepsQueue s (execRillFmul r s) := by
  simp [execRillFmul]

@[simp] theorem execRillFfma_pending (r : RillAt) (s : State) : KeepsQueue s (execRillFfma r s) := by
  simp [execRillFfma]

@[simp] theorem execRillFmin_pending (r : RillAt) (s : State) : KeepsQueue s (execRillFmin r s) := by
  simp [execRillFmin]

@[simp] theorem execRillFmax_pending (r : RillAt) (s : State) : KeepsQueue s (execRillFmax r s) := by
  simp [execRillFmax]

@[simp] theorem execRillFabs_pending (r : RillAt) (s : State) : KeepsQueue s (execRillFabs r s) := by
  simp [execRillFabs]

@[simp] theorem execRillFneg_pending (r : RillAt) (s : State) : KeepsQueue s (execRillFneg r s) := by
  simp [execRillFneg]

@[simp] theorem execRillFdiv_pending (r : RillAt) (s : State) : KeepsQueue s (execRillFdiv r s) := by
  simp [execRillFdiv]

@[simp] theorem execRillFsqrt_pending (r : RillAt) (s : State) : KeepsQueue s (execRillFsqrt r s) := by
  simp [execRillFsqrt]

@[simp] theorem execRillRcp_pending (r : RillAt) (s : State) : KeepsQueue s (execRillRcp r s) := by
  simp [execRillRcp]

@[simp] theorem execRillRsq_pending (r : RillAt) (s : State) : KeepsQueue s (execRillRsq r s) := by
  simp [execRillRsq]

@[simp] theorem execRillExp2_pending (r : RillAt) (s : State) : KeepsQueue s (execRillExp2 r s) := by
  simp [execRillExp2]

@[simp] theorem execRillLog2_pending (r : RillAt) (s : State) : KeepsQueue s (execRillLog2 r s) := by
  simp [execRillLog2]

@[simp] theorem execRillSinp_pending (r : RillAt) (s : State) : KeepsQueue s (execRillSinp r s) := by
  simp [execRillSinp]

@[simp] theorem execRillCosp_pending (r : RillAt) (s : State) : KeepsQueue s (execRillCosp r s) := by
  simp [execRillCosp]

@[simp] theorem execRillCvtn_pending (r : RillAt) (s : State) : KeepsQueue s (execRillCvtn r s) := by
  simp [execRillCvtn]

@[simp] theorem execRillCvtw_pending (r : RillAt) (s : State) : KeepsQueue s (execRillCvtw r s) := by
  simp [execRillCvtw]

@[simp] theorem execRillI2f_pending (r : RillAt) (s : State) : KeepsQueue s (execRillI2f r s) := by
  simp [execRillI2f]

@[simp] theorem execRillF2i_pending (r : RillAt) (s : State) : KeepsQueue s (execRillF2i r s) := by
  simp [execRillF2i]

@[simp] theorem packOp_pending (s : State) (at' : RillAt) (op : Nat) (f : Issue → Nat → Rill → Nat → Rill) :
    (packOp s at' op f).pending = s.pending :=
  issue_pending (fun _ _ => guardFmt_pending (guardUpset_pending (fun _ => RStep.ite_pending rfl rfl) ..) ..) ..

@[simp] theorem execRillPack_pending (r : RillAt) (s : State) : KeepsQueue s (execRillPack r s) := by
  simp [execRillPack]

@[simp] theorem execRillUnpack_pending (r : RillAt) (s : State) : KeepsQueue s (execRillUnpack r s) := by
  simp [execRillUnpack]

/-! ### Machine/RillInt.lean -/

@[simp] theorem execRillReservedOpcode_pending (r : RillAt) (s : State) : KeepsQueue s (execRillReservedOpcode r s) := by
  unfold execRillReservedOpcode
  rw [keepsQueue_next]
  exact issue_pending (fun s i => rfl) ..

@[simp] theorem execRillIadd_pending (r : RillAt) (s : State) : KeepsQueue s (execRillIadd r s) := by
  simp [execRillIadd]

@[simp] theorem execRillIsub_pending (r : RillAt) (s : State) : KeepsQueue s (execRillIsub r s) := by
  simp [execRillIsub]

@[simp] theorem execRillImul_pending (r : RillAt) (s : State) : KeepsQueue s (execRillImul r s) := by
  simp [execRillImul]

@[simp] theorem execRillImulhi_pending (r : RillAt) (s : State) : KeepsQueue s (execRillImulhi r s) := by
  simp [execRillImulhi]

@[simp] theorem execRillUmulhi_pending (r : RillAt) (s : State) : KeepsQueue s (execRillUmulhi r s) := by
  simp [execRillUmulhi]

@[simp] theorem execRillIdiv_pending (r : RillAt) (s : State) : KeepsQueue s (execRillIdiv r s) := by
  simp [execRillIdiv]

@[simp] theorem execRillUdiv_pending (r : RillAt) (s : State) : KeepsQueue s (execRillUdiv r s) := by
  simp [execRillUdiv]

@[simp] theorem execRillIrem_pending (r : RillAt) (s : State) : KeepsQueue s (execRillIrem r s) := by
  simp [execRillIrem]

@[simp] theorem execRillUrem_pending (r : RillAt) (s : State) : KeepsQueue s (execRillUrem r s) := by
  simp [execRillUrem]

@[simp] theorem execRillIadd64_pending (r : RillAt) (s : State) : KeepsQueue s (execRillIadd64 r s) := by
  simp [execRillIadd64]

@[simp] theorem execRillIsub64_pending (r : RillAt) (s : State) : KeepsQueue s (execRillIsub64 r s) := by
  simp [execRillIsub64]

@[simp] theorem execRillImul64_pending (r : RillAt) (s : State) : KeepsQueue s (execRillImul64 r s) := by
  simp [execRillImul64]

@[simp] theorem execRillAnd_pending (r : RillAt) (s : State) : KeepsQueue s (execRillAnd r s) := by
  simp [execRillAnd]

@[simp] theorem execRillOr_pending (r : RillAt) (s : State) : KeepsQueue s (execRillOr r s) := by
  simp [execRillOr]

@[simp] theorem execRillXor_pending (r : RillAt) (s : State) : KeepsQueue s (execRillXor r s) := by
  simp [execRillXor]

@[simp] theorem execRillNot_pending (r : RillAt) (s : State) : KeepsQueue s (execRillNot r s) := by
  simp [execRillNot]

@[simp] theorem execRillShl_pending (r : RillAt) (s : State) : KeepsQueue s (execRillShl r s) := by
  simp [execRillShl]

@[simp] theorem execRillShr_pending (r : RillAt) (s : State) : KeepsQueue s (execRillShr r s) := by
  simp [execRillShr]

@[simp] theorem execRillSar_pending (r : RillAt) (s : State) : KeepsQueue s (execRillSar r s) := by
  simp [execRillSar]

@[simp] theorem execRillRotl_pending (r : RillAt) (s : State) : KeepsQueue s (execRillRotl r s) := by
  simp [execRillRotl]

@[simp] theorem execRillPopc_pending (r : RillAt) (s : State) : KeepsQueue s (execRillPopc r s) := by
  simp [execRillPopc]

@[simp] theorem execRillClz_pending (r : RillAt) (s : State) : KeepsQueue s (execRillClz r s) := by
  simp [execRillClz]

@[simp] theorem execRillImin_pending (r : RillAt) (s : State) : KeepsQueue s (execRillImin r s) := by
  simp [execRillImin]

@[simp] theorem execRillImax_pending (r : RillAt) (s : State) : KeepsQueue s (execRillImax r s) := by
  simp [execRillImax]

@[simp] theorem execRillUmin_pending (r : RillAt) (s : State) : KeepsQueue s (execRillUmin r s) := by
  simp [execRillUmin]

@[simp] theorem execRillUmax_pending (r : RillAt) (s : State) : KeepsQueue s (execRillUmax r s) := by
  simp [execRillUmax]

@[simp] theorem execRillSel_pending (r : RillAt) (s : State) : KeepsQueue s (execRillSel r s) := by
  unfold execRillSel
  rw [keepsQueue_next]
  exact issue_pending (fun s i => guardFmt_pending (guardUpset_pending (fun s => rfl) ..) ..) ..

@[simp] theorem execRillMov_pending (r : RillAt) (s : State) : KeepsQueue s (execRillMov r s) := by
  simp [execRillMov]

@[simp] theorem aluI_pending (s : State) (at' : RillAt) (op : Nat) (checked reads : Bool) (f : Nat → Nat → Nat) :
    (aluI s at' op checked reads f).pending = s.pending :=
  issue_pending (fun _ _ => guardFmt_pending (guardUpset_pending (fun _ => rfl) ..) ..) ..

@[simp] theorem execRillMovi_pending (r : RillAt) (s : State) : KeepsQueue s (execRillMovi r s) := by
  simp [execRillMovi]

@[simp] theorem execRillIaddi_pending (r : RillAt) (s : State) : KeepsQueue s (execRillIaddi r s) := by
  simp [execRillIaddi]

/-! ### Machine/RillLane.lean -/

@[simp] theorem cmpOp_pending (s : State) (at' : RillAt) (op modMax : Nat) (f : Nat → Nat → Nat → Bool) :
    (cmpOp s at' op modMax f).pending = s.pending :=
  issue_pending (fun _ _ => guardFmt_pending (guardUpset_pending (fun _ => guardPoison_pending rfl ..) ..) ..) ..

@[simp] theorem execRillSetp_pending (r : RillAt) (s : State) : KeepsQueue s (execRillSetp r s) := by
  simp [execRillSetp]

@[simp] theorem execRillFsetp_pending (r : RillAt) (s : State) : KeepsQueue s (execRillFsetp r s) := by
  simp [execRillFsetp]

@[simp] theorem execRillPlop_pending (r : RillAt) (s : State) : KeepsQueue s (execRillPlop r s) := by
  unfold execRillPlop
  rw [keepsQueue_next]
  exact issue_pending (fun s i => guardFmt_pending (guardUpset_pending (fun s => rfl) ..) ..) ..

@[simp] theorem execRillShfl_pending (r : RillAt) (s : State) : KeepsQueue s (execRillShfl r s) := by
  unfold execRillShfl
  rw [keepsQueue_next]
  exact issue_pending (fun s i => guardFmt_pending (guardUpset_pending (fun s => guardPoison_pending rfl ..) ..) ..) ..

@[simp] theorem voteOp_pending (s : State) (at' : RillAt) (op : Nat) (f : List Bool → Bool) : (voteOp s at' op f).pending = s.pending :=
  issue_pending (fun _ _ => guardFmt_pending (guardUpset_pending (fun _ => rfl) ..) ..) ..

@[simp] theorem execRillVoteany_pending (r : RillAt) (s : State) : KeepsQueue s (execRillVoteany r s) := by
  simp [execRillVoteany]

@[simp] theorem execRillVoteall_pending (r : RillAt) (s : State) : KeepsQueue s (execRillVoteall r s) := by
  simp [execRillVoteall]

@[simp] theorem execRillBallot_pending (r : RillAt) (s : State) : KeepsQueue s (execRillBallot r s) := by
  unfold execRillBallot
  rw [keepsQueue_next]
  exact issue_pending (fun s i => guardFmt_pending (guardUpset_pending (fun s => rfl) ..) ..) ..

@[simp] theorem execRillSreg_pending (r : RillAt) (s : State) : KeepsQueue s (execRillSreg r s) := by
  unfold execRillSreg
  rw [keepsQueue_next]
  exact issue_pending (fun s i => guardFmt_pending (guardUpset_pending (fun s => rfl) ..) ..) ..

/-! ### Machine/RillMem.lean -/

@[simp] theorem checkAll_pending (s : State) (i : Issue) (n : Nat) (k : AccKind) : (checkAll s i n k).1.pending = s.pending := by
  refine foldl_fst_pending (fun acc th => ?_) ..
  split
  case h_1 t ht => exact pending_of_pair ht (checkAccess_pending ..)
  case h_2 t ht => exact pending_of_pair ht (checkAccess_pending ..)
  case h_3 t f ht => split <;> exact pending_of_pair ht (checkAccess_pending ..)

/-- A memory access of an instruction leaves the queue where its effect does. -/
theorem access_pending {k : State → RStep} (hk : ∀ s, (k s).state.pending = s.pending) (s : State) (at' : RillAt) (i : Issue) (n : Nat)
    (kind : AccKind) : (access s at' i n kind k).state.pending = s.pending := by
  have hgo : (access.go s at' i n kind k).state.pending = s.pending := by
    unfold access.go
    refine guardPoison_pending ?_ ..
    have hc := checkAll_pending s i n kind
    generalize checkAll s i n kind = c at hc ⊢
    split
    case h_1 => exact hc
    case h_2 => exact hc
    case h_3 t m a =>
      extract_lets -underBinder th a0 there
      have hp (q : Nat) (w : Bool) (l : List (Nat × Nat)) := stackPorts_pending t (i.reach / 8) q w l
      refine RStep.ite_pending ?_ ?_
      · split
        · exact (upsetFrame_pending ..).trans hc
        · exact (markUncorrectable_pending ..).trans hc
      · specialize hp (2 ^ 20 + i.key) (kind == .store) (i.ts.map (fun th => (accAddr i th, n)))
        generalize stackPorts .. = r at hp ⊢
        split
        case h_1 u =>
          extract_lets l u1 u2 u3
          have h1 : u1.pending = u.pending := by
            dsimp only [u1]
            (repeat' split) <;> simp
          have h2 : u2.pending = u.pending := by
            dsimp only [u2]
            split <;> simp [h1]
          have h3 : u3.pending = u.pending := by
            dsimp only [u3]
            split <;> simp [h2]
          exact (hk _).trans ((touchBank_pending ..).trans (h3.trans (hp.trans hc)))
        case h_2 u => exact hp.trans hc
  unfold access
  split
  · refine RStep.ite_pending ?_ hgo
    rw [RStep.stop_state, eventIn_pending]
  · exact hgo

@[simp] theorem execRillLd_pending (r : RillAt) (s : State) : KeepsQueue s (execRillLd r s) := by
  unfold execRillLd
  rw [keepsQueue_next]
  exact issue_pending (fun s i => guardFmt_pending (access_pending (fun s => rfl) ..) ..) ..

@[simp] theorem execRillSt_pending (r : RillAt) (s : State) : KeepsQueue s (execRillSt r s) := by
  unfold execRillSt
  rw [keepsQueue_next]
  refine issue_pending (fun s i => guardFmt_pending (access_pending (fun s => ?_) ..) ..) ..
  dsimp only [RStep.done_state]
  refine (foldl_pending (fun s th => wrPBytes_pending ..) ..).trans ?_
  exact SameQueue.ite rfl (underWrite_pending ..)

@[simp] theorem atomic_pending (s : State) (at' : RillAt) (op : Nat) (sz8 cas : Bool) (f : Nat → Nat → Nat → Nat → Nat) :
    (atomic s at' op sz8 cas f).pending = s.pending := by
  refine issue_pending (fun s i => guardFmt_pending (guardPoison_pending (access_pending (fun s => ?_) ..) ..) ..) ..
  refine RStep.ite_pending rfl ?_
  extract_lets val res
  refine foldl_fst_pending (fun x th => ?_) ..
  exact wrBytes_pending ..

@[simp] theorem execRillAadd_pending (r : RillAt) (s : State) : KeepsQueue s (execRillAadd r s) := by
  simp [execRillAadd]

@[simp] theorem execRillAsmin_pending (r : RillAt) (s : State) : KeepsQueue s (execRillAsmin r s) := by
  simp [execRillAsmin]

@[simp] theorem execRillAsmax_pending (r : RillAt) (s : State) : KeepsQueue s (execRillAsmax r s) := by
  simp [execRillAsmax]

@[simp] theorem execRillAumin_pending (r : RillAt) (s : State) : KeepsQueue s (execRillAumin r s) := by
  simp [execRillAumin]

@[simp] theorem execRillAumax_pending (r : RillAt) (s : State) : KeepsQueue s (execRillAumax r s) := by
  simp [execRillAumax]

@[simp] theorem execRillAand_pending (r : RillAt) (s : State) : KeepsQueue s (execRillAand r s) := by
  simp [execRillAand]

@[simp] theorem execRillAor_pending (r : RillAt) (s : State) : KeepsQueue s (execRillAor r s) := by
  simp [execRillAor]

@[simp] theorem execRillAxor_pending (r : RillAt) (s : State) : KeepsQueue s (execRillAxor r s) := by
  simp [execRillAxor]

@[simp] theorem execRillAxchg_pending (r : RillAt) (s : State) : KeepsQueue s (execRillAxchg r s) := by
  simp [execRillAxchg]

@[simp] theorem execRillAcas_pending (r : RillAt) (s : State) : KeepsQueue s (execRillAcas r s) := by
  simp [execRillAcas]

@[simp] theorem execRillAfadd_pending (r : RillAt) (s : State) : KeepsQueue s (execRillAfadd r s) := by
  simp [execRillAfadd]

@[simp] theorem execRillFence_pending (r : RillAt) (s : State) : KeepsQueue s (execRillFence r s) := by
  unfold execRillFence
  rw [keepsQueue_next]
  exact issue_pending (fun s i => guardFmt_pending (guardUpset_pending (fun s => rfl) ..) ..) ..

/-! ### Machine/RillUnit.lean -/

@[simp] theorem enqueue_pending (s : State) (reach tile : Nat) (p : TPass) : (enqueue s reach tile p).pending = s.pending := by
  simp [enqueue]

/-- What a unit accepts leaves the queue. -/
def UnitRes.KeepsQueue : UnitRes → Prop
  | .accept f => ∀ s op, (f s op).pending = s.pending
  | _ => True

theorem UnitRes.KeepsQueue.ite {c : Prop} [Decidable c] {x y : UnitRes} (hx : x.KeepsQueue) (hy : y.KeepsQueue) :
    (if c then x else y).KeepsQueue := by
  split
  · exact hx
  · exact hy

theorem passRes_keepsQueue (s : State) (reach : Nat) (r : Rill) (w th : Nat) : (passRes s reach r w th).KeepsQueue :=
  .ite trivial (.ite trivial (.ite trivial fun _ _ => enqueue_pending ..))

theorem tscaleRes_keepsQueue (s : State) (reach : Nat) (r : Rill) (w th : Nat) : (tscaleRes s reach r w th).KeepsQueue :=
  .ite trivial (.ite trivial (.ite trivial fun _ _ => enqueue_pending ..))

theorem flaunchRes_keepsQueue (s : State) (reach : Nat) (r : Rill) (w th : Nat) : (flaunchRes s reach r w th).KeepsQueue :=
  .ite trivial (.ite trivial (.ite trivial fun _ _ => putProgs_pending ..))

theorem fetchRes_keepsQueue (s : State) (r : Rill) (w th : Nat) : (fetchRes s r w th).KeepsQueue := by
  unfold fetchRes
  extract_lets -underBinder a b nsid rs d die off len obj st
  refine .ite trivial (.ite (fun _ _ => writeRecord_pending ..) ?_)
  clear_value st obj
  split
  · exact fun _ _ => (acceptFetch_pending ..).trans (stackRead_pending ..)
  · trivial

theorem unitRes_keepsQueue (s : State) (reach : Nat) (r : Rill) (w th : Nat) : (unitRes s reach r w th).KeepsQueue := by
  unfold unitRes
  split
  · exact passRes_keepsQueue ..
  · exact tscaleRes_keepsQueue ..
  · exact flaunchRes_keepsQueue ..
  · exact fetchRes_keepsQueue ..

@[simp] theorem acceptUnits_pending (k w : Nat) (l : List Nat) (s : State) : (acceptUnits k w l s).1.pending = s.pending := by
  induction l generalizing s with
  | nil => rfl
  | cons th l ih =>
    unfold acceptUnits
    split
    · rfl
    · rename_i r _
      have hr := unitRes_keepsQueue s (k / 128) r w th
      generalize unitRes s (k / 128) r w th = res at hr ⊢
      split
      · simp [ih]
      · rfl
      · split
        · rfl
        · simp [ih, hr _ _]

@[simp] theorem unitOp_pending (s : State) (at' : RillAt) (op : Nat) (fmt : Nat → Bool) (bad : Rill → Nat → Nat → Bool) :
    (unitOp s at' op fmt bad).pending = s.pending := by
  refine issue_pending (fun s i => guardFmt_pending (guardUpset_pending (fun s => guardPoison_pending ?_ ..) ..) ..) ..
  refine RStep.ite_pending rfl ?_
  extract_lets -underBinder x
  have hx : x.1.pending = s.pending := (acceptUnits_pending ..).trans (putRill_pending ..)
  clear_value x
  split
  · exact hx
  · exact RStep.ite_pending hx hx

@[simp] theorem execRillPass_pending (r : RillAt) (s : State) : KeepsQueue s (execRillPass r s) := by
  simp [execRillPass]

@[simp] theorem execRillTscale_pending (r : RillAt) (s : State) : KeepsQueue s (execRillTscale r s) := by
  simp [execRillTscale]

@[simp] theorem execRillFlaunch_pending (r : RillAt) (s : State) : KeepsQueue s (execRillFlaunch r s) := by
  simp [execRillFlaunch]

@[simp] theorem execRillFetch_pending (r : RillAt) (s : State) : KeepsQueue s (execRillFetch r s) := by
  simp [execRillFetch]

@[simp] theorem execUnitOpAcceptance_pending (r : RillAt) (s : State) : KeepsQueue s (execUnitOpAcceptance r s) := by
  unfold execUnitOpAcceptance
  dsimp only
  (repeat' split) <;> simp

@[simp] theorem execRillUwait_pending (r : RillAt) (s : State) : KeepsQueue s (execRillUwait r s) := by
  unfold execRillUwait
  rw [keepsQueue_next]
  refine issue_pending (fun s i => guardFmt_pending (guardUpset_pending (fun s => guardPoison_pending ?_ ..) ..) ..) ..
  exact RStep.ite_pending rfl rfl

@[simp] theorem execRillUpoll_pending (r : RillAt) (s : State) : KeepsQueue s (execRillUpoll r s) := by
  unfold execRillUpoll
  rw [keepsQueue_next]
  exact issue_pending (fun s i => guardFmt_pending (guardUpset_pending (fun s => guardPoison_pending rfl ..) ..) ..) ..

/-! ### Machine/Dispatch.lean -/

/-- No command touches the commands that wait behind it. -/
@[simp] theorem exec_pending (i : Instr) (s : State) : KeepsQueue s (exec i s) := by
  cases i <;> simp [exec]

end Sys2Proof.Machine
end

section
/-!
PROOFS. Scope: O3, a step takes the front of the queue and leaves the rest in order.
-/
namespace Sys2Proof.Machine

/-- Settles O3: each function a step can reach keeps the queue it is given, so a command leaves the rest it runs on, and a tick the
empty queue. -/
theorem commandsRunFirstInFirstOut : Obligations.CommandsRunFirstInFirstOut := by
  unfold Obligations.CommandsRunFirstInFirstOut
  intro s t h
  unfold step at h
  split at h
  case h_1 hs =>
    obtain rfl := Host.Outcome.next.inj h
    rw [tick_pending, hs, List.tail_nil]
  case h_2 c rest hs =>
    rw [exec_pending c _ t h, hs, List.tail_cons]

end Sys2Proof.Machine
end

section
/-!
PROOFS. Scope: fields that counting, sending and completing leave alone (R72, R426, R476-R482, R519).
-/
namespace Sys2Proof.Machine

/-- A field of a register that no event counter and no sample writes, within the layout's bounds. -/
def Field.still (f : Field) : Bool :=
  f.reg != F.CNT_HI_SAT.reg && f.reg != F.CNT_SMP_LOST_COUNT.reg && f.reg != F.CNT_SMP_DATA_DATA.reg && f.reg != F.CNT_SMP_HEAD_HEAD.reg
    && decide (f.reg < 512) && decide (f.lo < 32)

/-- An operation leaves one field as it is, and the register store in its form. -/
structure KeepsField (isl : Nat) (f : Field) (s t : State) : Prop where
  sorted : mSorted none s.regs = true → mSorted none t.regs = true
  same : mSorted none s.regs = true → getF t isl f = getF s isl f

namespace KeepsField
variable {isl : Nat} {f : Field} {s t u : State}

theorem refl (s : State) : KeepsField isl f s s := ⟨id, fun _ => rfl⟩

theorem trans (h : KeepsField isl f s t) (h' : KeepsField isl f t u) : KeepsField isl f s u :=
  ⟨fun hs => h'.sorted (h.sorted hs), fun hs => (h'.same (h.sorted hs)).trans (h.same hs)⟩

theorem foldl {α : Type} {g : State → α → State} {l : List α} (h : ∀ s, ∀ a ∈ l, KeepsField isl f s (g s a)) (s : State) :
    KeepsField isl f s (l.foldl g s) := by
  induction l generalizing s with
  | nil => exact refl s
  | cons a l ih => exact (h s a List.mem_cons_self).trans (ih (fun s b hb => h s b (List.mem_cons_of_mem a hb)) _)

/-- An operation on other parts of the state. -/
theorem of_regs (hr : t.regs = s.regs) : KeepsField isl f s t := ⟨fun hs => hr ▸ hs, fun _ => getF_congr hr ..⟩

/-- A write at another key. -/
theorem setF_otherKey {isl' i j : Nat} {g : Field} (hk : fieldKey isl f 0 0 ≠ fieldKey isl' g i j) (s : State) (v : Nat) :
    KeepsField isl f s (setF s isl' g v i j) :=
  ⟨fun hs => setF_regs_sorted hs .., fun hs => getF_setF_ne hs _ _ _ _ _ _ _ _ _ hk⟩

theorem updLink (s : State) (g : Link → Link) : KeepsField isl f s (updLink s g) := of_regs rfl

theorem portBytes (s : State) (isl' p n : Nat) : KeepsField isl f s (portBytes s isl' p n) := of_regs rfl

theorem updCq (s : State) (q : Nat) (g : Cq → Cq) : KeepsField isl f s (updCq s q g) := of_regs rfl

theorem updDqp (s : State) (g : Dqp → Dqp) : KeepsField isl f s (updDqp s g) := of_regs rfl

section Still
variable (hf : f.still = true)
include hf

theorem bounds : f.reg < 512 ∧ f.lo < 32 := by
  simp only [Field.still, Bool.and_eq_true, decide_eq_true_eq] at hf
  exact ⟨hf.1.2, hf.2⟩

/-- A write of a field of another register, or of other bits of the same. -/
theorem setF_other {g : Field} (hg : g.reg < 512 ∧ g.lo < 32) (hne : f.reg ≠ g.reg ∨ f.lo ≠ g.lo) (s : State) (isl' v : Nat) {i : Nat} (hi : i < 2048) :
    KeepsField isl f s (setF s isl' g v i) := by
  obtain ⟨hreg, hlo⟩ := bounds hf
  refine setF_otherKey (fun hkey => ?_) s v
  obtain ⟨_, hr, _, _, hl⟩ := fieldKey_inj hreg hg.1 (by decide) hi (by decide) (by decide) hlo hg.2 hkey
  exact hne.elim (· hr) (· hl)

/-- A write of a field of a higher island, at whatever index. -/
theorem setF_above {isl' : Nat} (h : isl < isl') (s : State) (g : Field) (v i j : Nat) : KeepsField isl f s (setF s isl' g v i j) := by
  obtain ⟨hreg, hlo⟩ := bounds hf
  refine setF_otherKey (fun hkey => ?_) s v
  simp only [fieldKey] at hkey
  omega

/-- A write of a counter's own field. -/
theorem setF_counter {g : Field} (hg : g ∈ [F.CNT_HI_SAT, F.CNT_SMP_LOST_COUNT, F.CNT_SMP_DATA_DATA, F.CNT_SMP_HEAD_HEAD]) (s : State) (isl' v : Nat)
    {i : Nat} (hi : i < 2048) : KeepsField isl f s (setF s isl' g v i) := by
  have hbounds : g.reg < 512 ∧ g.lo < 32 := by
    revert g
    decide
  refine setF_other hf hbounds (.inl ?_) s isl' v hi
  simp only [Field.still, Bool.and_eq_true, bne_iff_ne] at hf
  obtain ⟨⟨⟨⟨⟨hsat, hlost⟩, hdata⟩, hhead⟩, -⟩, -⟩ := hf
  simp only [List.mem_cons, List.not_mem_nil, or_false] at hg
  obtain rfl | rfl | rfl | rfl := hg
  · exact hsat
  · exact hlost
  · exact hdata
  · exact hhead

theorem addF_lost (s : State) (isl' n : Nat) : KeepsField isl f s (addF s isl' F.CNT_SMP_LOST_COUNT n) :=
  setF_counter hf (by simp) s isl' _ (by decide)

/-! ### Event counters and samples (R476-R481) -/

theorem putWords (isl' i : Nat) (l : List Byte) (s : State) (h : i + l.length ≤ 2048) : KeepsField isl f s (putWords isl' i l s) := by
  fun_induction Machine.putWords isl' i l s with
  | case1 => exact refl _
  | case2 i b0 b1 b2 b3 l s ih =>
    simp only [List.length_cons] at h
    exact (setF_counter hf (by simp) s isl' _ (by omega)).trans (ih (by omega))
  | case3 => exact refl _

theorem writeSample (s : State) (isl' : Nat) {r : List Byte} (h : r.length = 32) : KeepsField isl f s (writeSample s isl' r) := by
  unfold Machine.writeSample
  split
  · exact addF_lost hf s isl' 1
  · extract_lets below _ armed head filled moved flit
    have harmed : KeepsField isl f s armed := by
      unfold armed
      split <;> exact of_regs rfl
    have hfilled : KeepsField isl f armed filled := putWords hf isl' _ r armed (by omega)
    have hmoved : KeepsField isl f filled moved := setF_counter hf (by simp) filled isl' _ (by decide)
    have hdone := (harmed.trans hfilled).trans hmoved
    split
    · exact hdone.trans (of_regs rfl)
    · exact hdone

theorem cycleSamples (s : State) (isl' k sh v m n : Nat) : KeepsField isl f s (cycleSamples s isl' k sh v m n) := by
  unfold Machine.cycleSamples
  extract_lets room taken
  have htaken : KeepsField isl f s taken := foldl (fun t j _ => writeSample hf t isl' (sampleRecord_length ..)) s
  split
  · exact htaken.trans (addF_lost hf ..)
  · exact htaken

theorem countOne (isl' code unit slot n : Nat) (x : Source) (s : State) {k : Nat} (hk : k < 8) :
    KeepsField isl f s (countOne isl' code unit slot n x s k) := by
  unfold Machine.countOne
  split
  case isFalse => exact refl s
  extract_lets v w _ counted saturated sh m missed
  have hsaturated : KeepsField isl f counted saturated := by
    unfold saturated
    split
    · exact setF_counter hf (by simp) counted isl' 1 (by omega)
    · exact refl counted
  have hmissed : KeepsField isl f saturated missed := by
    unfold missed
    split
    · exact refl saturated
    · exact addF_lost hf ..
  refine (of_regs rfl : KeepsField isl f s counted).trans (hsaturated.trans ?_)
  split
  · split
    · exact cycleSamples hf ..
    · refine hmissed.trans ?_
      split
      · exact addF_lost hf ..
      · exact of_regs rfl
  · exact refl saturated

theorem countEv (s : State) (isl' code unit n slot : Nat) : KeepsField isl f s (countEv s isl' code unit n slot) := by
  unfold Machine.countEv countSrc
  split
  · exact refl s
  · exact foldl (fun t k hk => countOne hf isl' code unit slot n _ t (List.mem_range.mp hk)) s

/-! ### Flits and completions (R72, R519, R522) -/

theorem pumpLink (n : Nat) (s : State) : KeepsField isl f s (pumpLink n s) := by
  induction n generalizing s with
  | zero => exact refl s
  | succ n ih =>
    unfold Machine.pumpLink
    dsimp only
    split
    · exact refl s
    · split
      · refine (KeepsField.trans ?_ (countEv hf _ 56 0x61 0 1 _)).trans ((portBytes _ 56 1 _).trans (ih _))
        exact of_regs rfl
      · exact refl s

theorem sendFlit (s : State) (ty len : Nat) (hdr body : List Byte) : KeepsField isl f s (sendFlit s ty len hdr body) :=
  (updLink s _).trans (pumpLink hf _ _)

theorem interrupt (s : State) (vec : Nat) : KeepsField isl f s (interrupt s vec) := sendFlit hf ..

theorem pushChunks (n : Nat) (s : State) (a : Nat) (l : List Byte) : KeepsField isl f s (pushChunks n s a l) := by
  induction n generalizing s a l with
  | zero => exact refl s
  | succ n ih =>
    unfold Machine.pushChunks
    dsimp only
    split
    · exact refl s
    · exact (sendFlit hf ..).trans (ih ..)

theorem push (s : State) (a : Nat) (l : List Byte) : KeepsField isl f s (push s a l) := pushChunks hf ..

theorem signalCq (s : State) (q : Nat) : KeepsField isl f s (signalCq s q) := by
  unfold Machine.signalCq
  split
  · exact refl s
  · split
    · exact refl s
    · split
      · exact (updCq s q _).trans (interrupt hf ..)
      · exact refl s

theorem putEntry (s : State) (q : Nat) (e : Comp) : KeepsField isl f s (putEntry s q e) := by
  unfold Machine.putEntry
  split
  · exact refl s
  · exact ((countEv hf ..).trans (push hf ..)).trans ((updCq ..).trans (signalCq hf ..))

theorem postNow (s : State) (q : Nat) (e : Comp) : KeepsField isl f s (postNow s q e) := by
  unfold Machine.postNow
  split
  · exact refl s
  · dsimp only
    split
    · exact ((updDqp s _).trans (foldl (fun s d _ => putEntry hf s q _) _)).trans (putEntry hf ..)
    · exact putEntry hf ..

theorem drainCq (q n : Nat) (s : State) : KeepsField isl f s (drainCq q n s) := by
  induction n generalizing s with
  | zero => exact refl s
  | succ n ih =>
    unfold Machine.drainCq
    split
    · exact refl s
    · split
      · exact refl s
      · split
        · exact ((updCq ..).trans (postNow hf ..)).trans (ih _)
        · exact refl s

theorem drainAll (s : State) : KeepsField isl f s (drainAll s) := foldl (fun s (c : Cq) _ => drainCq hf c.qid c.waiting.length s) s

theorem postComp (s : State) (q : Nat) (e : Comp) : KeepsField isl f s (postComp s q e) := (updCq ..).trans (drainAll hf _)

theorem finishDeletes (s : State) : KeepsField isl f s (finishDeletes s) := by
  unfold Machine.finishDeletes
  split
  · exact refl s
  · exact (updDqp s _).trans (postComp hf ..)

theorem complete (s : State) (no st r0 r1 detail : Nat) : KeepsField isl f s (complete s no st r0 r1 detail) := by
  unfold Machine.complete
  split
  · exact refl s
  · exact ((updDqp s _).trans (postComp hf ..)).trans (finishDeletes hf _)

end Still
end KeepsField

end Sys2Proof.Machine
end

section
/-!
PROOFS. Scope: frames and pages taken and released (R111, R118, R120, R139, R518).
-/
namespace Sys2Proof.Machine

/-- At most registers of island 57 on, the record of held extents, frames, the backing of extents, pages and the reference clock change. -/
structure Repages (s t : State) : Prop where
  frame : t = { s with
    regs := t.regs, prot := t.prot
    mem := { s.mem with exts := t.mem.exts, frames := t.mem.frames, pages := t.mem.pages, clock := t.mem.clock } }
  field : ∀ {isl : Nat} {f : Field}, f.still = true → isl < 57 → KeepsField isl f s t

/-- Starts bringing in one page of an object, where it is in no frame or lost one. -/
def bringPage (s : State) (o : Obj) (i die : Nat) : State × Except Nat Unit :=
  match findPage s o.nsid o.id i with
  | some p => if p.asleep then restartPage s o p else (s, .ok ())
  | none => startPage s o i die

/-- Pages are started one after the other, up to the first that is refused. -/
theorem startPages_cons (o : Obj) (die i : Nat) (l : List Nat) (s : State) : startPages o die (i :: l) s =
    match bringPage s o i die with
    | (t, .ok _) => startPages o die l t
    | (t, .error e) => (t, .error e) := rfl

namespace Repages
variable {s t u : State}

theorem refl (s : State) : Repages s s := ⟨rfl, fun _ _ => .refl s⟩

theorem trans (h : Repages s t) (h' : Repages t u) : Repages s u :=
  ⟨Eq.trans h'.frame (congrArg (fun x : State => { x with
      regs := u.regs, prot := u.prot
      mem := { x.mem with exts := u.mem.exts, frames := u.mem.frames, pages := u.mem.pages, clock := u.mem.clock } }) h.frame),
    fun hf hisl => (h.field hf hisl).trans (h'.field hf hisl)⟩

theorem foldl {α : Type} {f : State → α → State} (h : ∀ s a, Repages s (f s a)) (l : List α) (s : State) : Repages s (l.foldl f s) := by
  induction l generalizing s with
  | nil => exact refl s
  | cons a l ih => exact (h s a).trans (ih (f s a))

/-- An operation on memory and the record of held extents. -/
theorem of_regs (h : t = { s with
    regs := t.regs, prot := t.prot
    mem := { s.mem with exts := t.mem.exts, frames := t.mem.frames, pages := t.mem.pages, clock := t.mem.clock } })
    (hr : t.regs = s.regs) : Repages s t :=
  ⟨h, fun _ _ => .of_regs hr⟩

/-- A write to a register of island 57, of whatever domain. -/
theorem setF (s : State) (f : Field) (v i j : Nat) : Repages s (setF s 57 f v i j) :=
  ⟨rfl, fun hf hisl => KeepsField.setF_above hf hisl s f v i j⟩

theorem chargeStack (s : State) (d mib : Nat) : Repages s (chargeStack s d mib) := setF ..

theorem unchargeStack (s : State) (d mib : Nat) : Repages s (unchargeStack s d mib) := setF ..

theorem freeFrame (small : Bool) (s : State) (fr : Nat × Nat) : Repages s (freeFrame small s fr) := by
  unfold Machine.freeFrame
  dsimp only
  split
  · exact refl s
  · split
    · exact of_regs rfl rfl
    · refine Repages.trans ?_ (unchargeStack ..)
      exact of_regs rfl rfl

theorem updPage (s : State) (nsid obj idx : Nat) (f : Page → Page) : Repages s (updPage s nsid obj idx f) := of_regs rfl rfl

theorem reback (s : State) : Repages s (reback s) := by
  refine foldl (fun s p => ?_) _ s
  split
  · exact refl s
  · exact of_regs rfl rfl

theorem dropPage (s : State) (p : Page) : Repages s (dropPage s p) := by
  unfold Machine.dropPage
  extract_lets small freed
  have hfreed : Repages s freed := foldl (freeFrame small) p.frame s
  refine hfreed.trans (Repages.trans ?_ (reback _))
  exact of_regs rfl rfl

theorem loseFrames (k : Nat) (s : State) (p : Page) : Repages s (loseFrames k s p) := by
  unfold Machine.loseFrames
  extract_lets freed fr sleeps
  have hfreed : Repages s freed := foldl (freeFrame _) _ s
  split
  · exact hfreed.trans (dropPage ..)
  · exact hfreed.trans (updPage ..)

theorem evictOne {ok : Page → Bool} (h : evictOne s ok = some t) : Repages s t := by
  obtain ⟨p, -, rfl⟩ := Option.map_eq_some_iff.mp h
  exact (dropPage s p).trans (setF ..)

theorem allocLoop {α : Type} (d die : Nat) (within : State → Bool) {attempt : State → Option (State × α)}
    (h : ∀ s r, attempt s = some r → Repages s r.1) (n : Nat) (s : State) : Repages s (allocLoop d die within attempt n s).1 := by
  induction n generalizing s with
  | zero => exact setF ..
  | succ n ih =>
    unfold Machine.allocLoop
    split
    · split
      case h_1 r hr => exact h s _ hr
      case h_2 =>
        split
        case h_1 hev => exact (evictOne hev).trans (ih _)
        case h_2 => exact setF ..
    · split
      case h_1 hev => exact (evictOne hev).trans (ih _)
      case h_2 => exact setF ..

theorem takeExtents (d die used n : Nat) (s : State) : ∀ r, takeExtents d die used n s = some r → Repages s r.1 := by
  induction n generalizing s with
  | zero =>
    rintro _ ⟨⟩
    exact refl s
  | succ n ih =>
    intro r h
    unfold Machine.takeExtents at h
    split at h
    · cases h
    · obtain ⟨q, hq, rfl⟩ := Option.map_eq_some_iff.mp h
      refine (Repages.trans ?_ (chargeStack ..)).trans (ih _ q hq)
      exact of_regs rfl rfl

theorem framesFor (s : State) (o : Obj) (die n : Nat) : Repages s (framesFor s o die n).1 := by
  unfold Machine.framesFor
  dsimp only
  split
  · refine allocLoop _ _ _ (fun s r h => ?_) _ s
    split at h
    · obtain rfl := Option.some.inj h
      exact of_regs rfl rfl
    · exact takeExtents _ _ _ _ s r h
  · exact allocLoop _ _ _ (takeExtents _ _ _ _) _ s

theorem startPage (s : State) (o : Obj) (idx die : Nat) : Repages s (startPage s o idx die).1 := by
  have h := framesFor s o die (ceilDiv (pageBytes o) MiB2)
  unfold Machine.startPage
  generalize Machine.framesFor s o die _ = r at h ⊢
  match r with
  | (_, .error _) => exact h
  | (_, .ok _) => exact h.trans (of_regs rfl rfl)

theorem restartPage (s : State) (o : Obj) (p : Page) : Repages s (restartPage s o p).1 := by
  have h := framesFor s o (((p.frame.find? (fun f => decide (16 ≤ f.1))).map (fun f => (f.1 - 16) / 4)).getD 0) p.lost
  unfold Machine.restartPage
  generalize Machine.framesFor s o _ _ = r at h ⊢
  match r with
  | (_, .error _) => exact h
  | (_, .ok _) => exact h.trans (updPage ..)

theorem bringPage (s : State) (o : Obj) (i die : Nat) : Repages s (bringPage s o i die).1 := by
  unfold Machine.bringPage
  split
  · split
    · exact restartPage ..
    · exact refl s
  · exact startPage ..

theorem startPages (o : Obj) (die : Nat) (l : List Nat) (s : State) : Repages s (startPages o die l s).1 := by
  induction l generalizing s with
  | nil => exact refl s
  | cons i l ih =>
    have hone := bringPage s o i die
    rw [startPages_cons]
    generalize Machine.bringPage s o i die = r at hone ⊢
    match r with
    | (_, .ok _) => exact hone.trans (ih _)
    | (_, .error _) => exact hone

/-! What stays, field by field. -/

theorem mem (h : Repages s t) : t.mem = { s.mem with exts := t.mem.exts, frames := t.mem.frames, pages := t.mem.pages, clock := t.mem.clock } :=
  (congrArg State.mem h.frame :)

theorem bytes (h : Repages s t) : t.mem.bytes = s.mem.bytes := (congrArg Mem.bytes h.mem :)

theorem fetches (h : Repages s t) : t.mem.fetches = s.mem.fetches := (congrArg Mem.fetches h.mem :)

theorem search (h : Repages s t) : t.search = s.search := (congrArg State.search h.frame :)

theorem flash (h : Repages s t) : t.flash = s.flash := (congrArg State.flash h.frame :)

end Repages

/-! ### The pages and the backing after a release -/

theorem freeFrame_keeps (small : Bool) (s : State) (fr : Nat × Nat) :
    (freeFrame small s fr).mem.pages = s.mem.pages ∧ (freeFrame small s fr).mem.exts = s.mem.exts := by
  unfold freeFrame
  dsimp only
  split
  · exact ⟨rfl, rfl⟩
  · split <;> exact ⟨rfl, rfl⟩

theorem foldl_freeFrame_keeps (small : Bool) (l : List (Nat × Nat)) (s : State) :
    (l.foldl (freeFrame small) s).mem.pages = s.mem.pages ∧ (l.foldl (freeFrame small) s).mem.exts = s.mem.exts := by
  induction l generalizing s with
  | nil => exact ⟨rfl, rfl⟩
  | cons f l ih =>
    obtain ⟨hpages, hexts⟩ := ih (freeFrame small s f)
    obtain ⟨hpages', hexts'⟩ := freeFrame_keeps small s f
    exact ⟨hpages.trans hpages', hexts.trans hexts'⟩

/-- Backing lost extents changes the backing and the record of held extents alone. -/
theorem reback_frame (s : State) : reback s = { s with prot := (reback s).prot, mem := { s.mem with exts := (reback s).mem.exts } } := by
  refine List.foldlRecOn (motive := fun (t : State) => t = { s with prot := t.prot, mem := { s.mem with exts := t.mem.exts } }) _ _ rfl
    fun t ht p _ => ?_
  dsimp only
  split
  · exact ht
  · rw [ht]
    rfl

theorem reback_pages (s : State) : (reback s).mem.pages = s.mem.pages := (congrArg (fun x : State => x.mem.pages) (reback_frame s) :)

/-- Two pages are the same page of the same object. -/
def samePage (p q : Page) : Bool := q.nsid == p.nsid && q.obj == p.obj && q.idx == p.idx

/-- A dropped page is gone, and no other. -/
theorem dropPage_pages (s : State) (p : Page) : (dropPage s p).mem.pages = s.mem.pages.filter (fun q => !samePage p q) := by
  unfold dropPage
  dsimp only
  rw [reback_pages, (foldl_freeFrame_keeps ..).1]
  rfl

end Sys2Proof.Machine
end

section
/-!
PROOFS. Scope: the steps of a stack that drains or joins, and the extents that wait for room (R134-R139).
-/
namespace Sys2Proof.Machine

/-! ### The draining and the joining stack (R134, R136, R138) -/

section Moves
variable {s : State} {k : Nat}

/-- A copy that met no bad codeword moves what was on the extent, and changes nothing else. -/
theorem exec_extentCopyComplete (hk : k < 16) (hst : stkState s k = 1) {m : Nat} (hm : roomiest s (otherStacks s k) = some m) (ext : Nat) :
    exec (.extentCopyComplete k ⟨ext, [], []⟩) s = .next (
      let u := holdExt s m (lowestPhys s m)
      match (heldExts s k).find? (fun p => p.2 == ext) with
      | some (key, _) => updMem u fun x => { x with
          exts := x.exts.map (fun p => if p.1 = key then (key, { p.2 with phys := some (m, lowestPhys s m), copied := true }) else p) }
      | none =>
        match mfind s.mem.frames (k * 65536 + ext) with
        | none => u
        | some fr => updMem u fun x => { x with
            frames := mins (mdel x.frames (k * 65536 + ext)) (m * 65536 + lowestPhys s m) { fr with copied := true }
            pages := x.pages.map (fun p => { p with frame := p.frame.map (fun f => if f = (k, ext) then (m, lowestPhys s m) else f) }) }) := by
  have hgo : ¬ (16 ≤ k ∨ stkState s k ≠ 1) := by omega
  simp only [exec, execExtentCopyComplete, if_neg hgo, hm]
  rfl

theorem drainedStack_offline (hst : stkState s k = 1) (hexts : heldExts s k = []) (hframes : heldFrames s k = []) :
    drainedStack s k = noteBlocks (unitMoved (setF s (32 + k) F.STK_STATE_STATE 2)) := by
  simp [drainedStack, hst, hexts, hframes]

theorem drainedStack_waits (h : heldExts s k ≠ [] ∨ heldFrames s k ≠ []) : drainedStack s k = s := by
  refine if_neg fun hempty => ?_
  obtain ⟨-, hexts, hframes⟩ := hempty
  simp only [List.isEmpty_iff] at hexts hframes
  exact h.elim (· hexts) (· hframes)

/-- A unit that moves owes a decision; it changes no register and nothing of memory. -/
theorem unitMoved_frame (s : State) : unitMoved s = { s with sched := (unitMoved s).sched } := by
  unfold unitMoved
  split <;> rfl

/-- What a stack's new state brings with it leaves the registers and memory. -/
theorem noteBlocks_unitMoved (s : State) : noteBlocks (unitMoved s) = { s with sched := (noteBlocks (unitMoved s)).sched } :=
  (noteBlocks_frame _).trans (congrArg (fun x : State => { x with sched := (noteBlocks (unitMoved s)).sched }) (unitMoved_frame s))

theorem stkState_setF_state {s : State} (hs : mSorted none s.regs = true) (k v : Nat) : stkState (setF s (32 + k) F.STK_STATE_STATE v) k = v % 8 :=
  getF_setF_same hs ..

/-- A write to other bits of STK_STATE. -/
theorem stkState_setF_joinStep {s : State} (hs : mSorted none s.regs = true) (k v : Nat) :
    stkState (setF s (32 + k) F.STK_STATE_JOIN_STEP v) k = stkState s k :=
  (KeepsField.setF_other (by decide) (by decide) (.inr (by decide)) s _ v (by decide)).same hs

theorem joinStep_setF_state {s : State} (hs : mSorted none s.regs = true) (k v : Nat) :
    getF (setF s (32 + k) F.STK_STATE_STATE v) (32 + k) F.STK_STATE_JOIN_STEP = getF s (32 + k) F.STK_STATE_JOIN_STEP :=
  (KeepsField.setF_other (by decide) (by decide) (.inr (by decide)) s _ v (by decide)).same hs

theorem joinStep_setF_joinStep {s : State} (hs : mSorted none s.regs = true) (k v : Nat) :
    getF (setF s (32 + k) F.STK_STATE_JOIN_STEP v) (32 + k) F.STK_STATE_JOIN_STEP = v % 8 :=
  getF_setF_same hs ..

theorem exec_stackValidClearDone (hk : k < 16) (hst : stkState s k = 4) (hn : getF s (32 + k) F.STK_STATE_JOIN_STEP = 0) :
    exec (.stackValidClearDone k) s = .next (setF s (32 + k) F.STK_STATE_JOIN_STEP 1) := by
  have hgo : ¬ (16 ≤ k ∨ stkState s k ≠ 4 ∨ getF s (32 + k) F.STK_STATE_JOIN_STEP ≠ 0) := by omega
  simp only [exec, execStackValidClearDone, if_neg hgo]

/-- Between the first capacity step and the last, a step counts. -/
theorem exec_stackJoinStep_counts (hk : k < 16) (hst : stkState s k = 4) {n : Nat} (hn : getF s (32 + k) F.STK_STATE_JOIN_STEP = n) (hpos : 1 ≤ n)
    (hlt : n < 7) : exec (.stackJoinStep k) s = .next (setF s (32 + k) F.STK_STATE_JOIN_STEP (n + 1)) := by
  have hgo : ¬ (16 ≤ k ∨ stkState s k ≠ 4 ∨ n = 0) := by omega
  simp only [exec, execStackJoinStep, hn, if_neg hgo, if_neg (Nat.not_le.mpr hlt)]

/-- The state of a stack that has released its last extents: ONLINE. -/
def joinedStack (s : State) (k : Nat) : State := setF (setF s (32 + k) F.STK_STATE_JOIN_STEP 0) (32 + k) F.STK_STATE_STATE 0

theorem exec_stackJoinStep_joins (hk : k < 16) (hst : stkState s k = 4) {n : Nat} (hn : getF s (32 + k) F.STK_STATE_JOIN_STEP = n) (hge : 7 ≤ n) :
    exec (.stackJoinStep k) s = .next (noteBlocks (reback (unitMoved (joinedStack s k)))) := by
  have hgo : ¬ (16 ≤ k ∨ stkState s k ≠ 4 ∨ n = 0) := by omega
  simp only [exec, execStackJoinStep, hn, if_neg hgo, if_pos hge]
  rfl

end Moves

/-! ### Extents that wait for room (R136, R139) -/

theorem mfind_of_mem {α : Type} {lo : Option Nat} {m : NMap α} (hm : mSorted lo m = true) {k : Nat} {v : α} (h : (k, v) ∈ m) : mfind m k = some v := by
  induction m generalizing lo with
  | nil => cases h
  | cons p m ih =>
    obtain ⟨a, w⟩ := p
    have htail := ((mSorted_cons lo a w m).mp hm).2
    rw [mfind_cons hm]
    obtain heq | h := List.mem_cons.mp h
    · obtain ⟨rfl, rfl⟩ := Prod.mk.inj heq
      exact if_pos rfl
    · have hfind := ih htail h
      split
      case isTrue hk =>
        rw [hk, mfind_below htail le_rfl] at hfind
        cases hfind
      case isFalse => exact hfind

/-- The roomiest stack of a list is one of them. -/
theorem roomiest_mem {s : State} {l : List Nat} {m : Nat} (h : roomiest s l = some m) : m ∈ l := by
  have hall : ∀ m, roomiest s l = some m → m ∈ l := by
    refine List.foldlRecOn (motive := fun b => ∀ m, b = some m → m ∈ l) _ _ (fun m hm => by cases hm) fun b hb n hn m hm => ?_
    split at hm
    · split at hm
      · exact Option.some.inj hm ▸ hn
      · cases hm
    · split at hm
      · exact Option.some.inj hm ▸ hn
      · exact hb _ hm
  exact hall m h

theorem online_of_mem {s : State} {die m : Nat} (h : m ∈ onlineStacks s die) : stkState s m = 0 := by
  simpa using (List.mem_filter.mp h).2

/-- With every extent backed there is none to back. -/
theorem reback_backed {s : State} (h : ∀ p ∈ s.mem.exts, p.2.phys ≠ none) : reback s = s := by
  have hnone : s.mem.exts.filter (fun p => p.2.phys.isNone) = [] :=
    List.filter_eq_nil_iff.mpr fun p hp => by simpa [Option.isNone_iff_eq_none] using h p hp
  unfold reback
  rw [hnone]
  rfl

/-- An extent without backing has got one, on another stack than `k`. -/
abbrev NewlyBacked (k : Nat) (s t : State) (key : Nat) : Prop :=
  ∃ x m e, mfind s.mem.exts key = some x ∧ x.phys = none ∧ m ≠ k ∧ mfind t.mem.exts key = some { x with phys := some (m, e) }

/-- Extents keep their backing, but that an extent without one may have got one on another stack than `k`. -/
structure Rebacked (k : Nat) (s t : State) : Prop where
  sorted : mSorted none s.mem.exts = true → mSorted none t.mem.exts = true
  find : mSorted none s.mem.exts = true → ∀ key, mfind t.mem.exts key = mfind s.mem.exts key ∨ NewlyBacked k s t key
  whole : (∀ p ∈ s.mem.exts, p.2.phys ≠ none) → t.mem.exts = s.mem.exts

namespace Rebacked
variable {k : Nat} {s t u : State}

theorem of_exts (h : t.mem.exts = s.mem.exts) : Rebacked k s t := ⟨fun hs => h ▸ hs, fun _ _ => .inl (by rw [h]), fun _ => h⟩

theorem trans (h : Rebacked k s t) (h' : Rebacked k t u) : Rebacked k s u where
  sorted hs := h'.sorted (h.sorted hs)
  find hs key := by
    obtain hsame | ⟨x, m, e, hx, hnone, hm, ht⟩ := h.find hs key
    · obtain hsame' | ⟨x, m, e, hx, hnone, hm, hu⟩ := h'.find (h.sorted hs) key
      · exact .inl (hsame'.trans hsame)
      · exact .inr ⟨x, m, e, hsame ▸ hx, hnone, hm, hu⟩
    · obtain hsame' | ⟨y, _, _, hy, hnone', _, _⟩ := h'.find (h.sorted hs) key
      · exact .inr ⟨x, m, e, hx, hnone, hm, hsame'.trans ht⟩
      · obtain rfl := Option.some.inj (ht.symm.trans hy)
        cases hnone'
  whole hall := by
    have ht := h.whole hall
    exact (h'.whole (ht ▸ hall)).trans ht

/-- What is backed anew goes to an ONLINE stack, and so not to one in another state. -/
theorem reback (hk : stkState s k ≠ 0) : Rebacked k s (reback s) := by
  have hgo (hs : mSorted none s.mem.exts = true) : (Machine.reback s).regs = s.regs ∧ mSorted none (Machine.reback s).mem.exts = true
      ∧ ∀ key, mfind (Machine.reback s).mem.exts key = mfind s.mem.exts key ∨ NewlyBacked k s (Machine.reback s) key := by
    refine List.foldlRecOn (motive := fun (t : State) => t.regs = s.regs ∧ mSorted none t.mem.exts = true
      ∧ ∀ key, mfind t.mem.exts key = mfind s.mem.exts key ∨ NewlyBacked k s t key)
      _ _ ⟨rfl, hs, fun _ => .inl rfl⟩ fun t ht p hp => ?_
    obtain ⟨hregs, hsorted, hfind⟩ := ht
    obtain ⟨hmem, hnone⟩ := List.mem_filter.mp hp
    split
    · exact ⟨hregs, hsorted, hfind⟩
    · rename_i m hm
      have hne : m ≠ k := by
        rintro rfl
        exact hk ((getF_congr hregs ..).symm.trans (online_of_mem (roomiest_mem hm)))
      refine ⟨hregs, mSorted_mins _ hsorted (by simp), fun key => ?_⟩
      by_cases hkey : key = p.1
      · subst hkey
        exact .inr ⟨p.2, m, _, mfind_of_mem hs hmem, Option.isNone_iff_eq_none.mp hnone, hne, mfind_mins_same ..⟩
      · show mfind (mins t.mem.exts p.1 _) key = _ ∨ ∃ x n e, _ ∧ _ ∧ _ ∧ mfind (mins t.mem.exts p.1 _) key = _
        rw [mfind_mins_ne hkey _ hsorted]
        exact hfind key
  exact ⟨fun hs => (hgo hs).2.1, fun hs => (hgo hs).2.2, fun hall => by rw [reback_backed hall]⟩

theorem dropPage (hs : mSorted none s.regs = true) (hk : stkState s k ≠ 0) (hlt : k < 16) (p : Page) : Rebacked k s (dropPage s p) := by
  unfold Machine.dropPage
  extract_lets small freed
  have hfreed : Repages s freed := .foldl (Repages.freeFrame small) p.frame s
  have hkept : stkState freed k = stkState s k := (hfreed.field (by decide) (by omega)).same hs
  have hexts : Rebacked k s freed := of_exts (foldl_freeFrame_keeps ..).2
  refine hexts.trans (Rebacked.trans ?_ (reback (hkept ▸ hk : stkState freed k ≠ 0)))
  exact of_exts rfl

theorem loseFrames (hs : mSorted none s.regs = true) (hk : stkState s k ≠ 0) (hlt : k < 16) (p : Page) : Rebacked k s (loseFrames k s p) := by
  unfold Machine.loseFrames
  extract_lets freed fr sleeps
  have hfreed : Repages s freed := .foldl (Repages.freeFrame _) _ s
  have hkeeps : KeepsField (32 + k) F.STK_STATE_STATE s freed := hfreed.field (by decide) (by omega)
  have hkept : stkState freed k = stkState s k := hkeeps.same hs
  have hexts : Rebacked k s freed := of_exts (foldl_freeFrame_keeps ..).2
  split
  · exact hexts.trans (dropPage (hkeeps.sorted hs) (hkept ▸ hk) hlt _)
  · exact hexts.trans (of_exts rfl)

end Rebacked

end Sys2Proof.Machine
end

section
/-!
PROOFS. Scope: pages that lose their frames and extents lost with a stack (R139, R419, R518).
-/
namespace Sys2Proof.Machine

/-! ### Frames lost with a stack (R139, R518) -/

/-- A page has no part on a stack. -/
def OffStack (k : Nat) (q : Page) : Prop := ∀ f ∈ q.frame, f.1 ≠ k

/-- A page that has lost its frames on a stack has none there, and the other pages are as they were. -/
theorem loseFrames_pages {k : Nat} {s : State} {p q : Page} (hq : q ∈ (loseFrames k s p).mem.pages) :
    OffStack k q ∨ (q ∈ s.mem.pages ∧ samePage p q = false) := by
  unfold loseFrames at hq
  extract_lets freed fr sleeps at hq
  have hpages : freed.mem.pages = s.mem.pages := (foldl_freeFrame_keeps ..).1
  split at hq
  · rw [dropPage_pages, hpages] at hq
    obtain ⟨hmem, hother⟩ := List.mem_filter.mp hq
    exact .inr ⟨hmem, (Bool.not_eq_true' _).mp hother⟩
  · obtain ⟨p', hp', rfl⟩ := List.mem_map.mp hq
    split
    · refine .inl fun f hf => ?_
      obtain ⟨g, -, rfl⟩ := List.mem_map.mp hf
      split
      · exact Nat.ne_of_gt (by omega)
      · assumption
    · rename_i hother
      exact .inr ⟨hpages ▸ hp', by simpa [samePage, and_assoc] using hother⟩

/-- Once every page with a part on the stack has lost its frames there, no page has one. -/
theorem foldl_loseFrames_pages {k : Nat} {l : List Page} {s : State} (h : ∀ q ∈ s.mem.pages, OffStack k q ∨ ∃ p ∈ l, samePage p q = true) :
    ∀ q ∈ (l.foldl (loseFrames k) s).mem.pages, OffStack k q := by
  induction l generalizing s with
  | nil => exact fun q hq => (h q hq).resolve_right (by simp)
  | cons p l ih =>
    refine ih fun q hq => ?_
    obtain hoff | ⟨hmem, hother⟩ := loseFrames_pages hq
    · exact .inl hoff
    · refine (h q hmem).imp_right fun ⟨p', hp', hsame⟩ => ?_
      obtain rfl | hp' := List.mem_cons.mp hp'
      · rw [hother] at hsame
        cases hsame
      · exact ⟨p', hp', hsame⟩

/-! ### Poison that is reported (R419) -/

/-- Neither pages, nor the backing of extents, nor a register other than the event counters' own change. -/
structure Tells (s t : State) : Prop where
  pages : t.mem.pages = s.mem.pages
  exts : t.mem.exts = s.mem.exts
  field : ∀ {isl : Nat} {f : Field}, f.still = true → KeepsField isl f s t

namespace Tells
variable {s t u : State}

theorem refl (s : State) : Tells s s := ⟨rfl, rfl, fun _ => .refl s⟩

theorem trans (h : Tells s t) (h' : Tells t u) : Tells s u :=
  ⟨h'.pages.trans h.pages, h'.exts.trans h.exts, fun hf => (h.field hf).trans (h'.field hf)⟩

theorem foldl {α : Type} {f : State → α → State} (h : ∀ s a, Tells s (f s a)) (l : List α) (s : State) : Tells s (l.foldl f s) := by
  induction l generalizing s with
  | nil => exact refl s
  | cons a l ih => exact (h s a).trans (ih (f s a))

/-- An operation that touches neither memory nor registers. -/
theorem of_mem (hm : t.mem = s.mem) (hr : t.regs = s.regs) : Tells s t :=
  ⟨congrArg Mem.pages hm, congrArg Mem.exts hm, fun _ => .of_regs hr⟩

theorem countEv (s : State) (isl code unit n slot : Nat) : Tells s (countEv s isl code unit n slot) :=
  have hmem : (Machine.countEv s isl code unit n slot).mem = s.mem := (congrArg State.mem (Sends.countEv ..).eq :)
  ⟨congrArg Mem.pages hmem, congrArg Mem.exts hmem, fun hf => .countEv hf ..⟩

theorem meter (s : State) (isl p n : Nat) : Tells s (meter s isl p n) :=
  of_mem (congrArg State.mem (Metered.meter s isl p n).eq :) (congrArg State.regs (Metered.meter s isl p n).eq :)

theorem stackWrite (s : State) (port a n : Nat) : Tells s (stackWrite s port a n) := by
  unfold Machine.stackWrite countWrites
  refine Tells.trans ?_ (foldl (fun s x => meter ..) _ _)
  refine (foldl (fun s x => countEv ..) _ _).trans (foldl (fun s b => ?_) _ _)
  split
  · exact countEv ..
  · exact refl s

theorem wrBytes (s : State) (a : Nat) (l : List Byte) : Tells s (wrBytes s a l) := ⟨rfl, rfl, fun _ => .of_regs rfl⟩

theorem updCtx (s : State) (slot : Nat) (f : Ctx → Ctx) : Tells s (updCtx s slot f) := of_mem rfl rfl

theorem writeFault (s : State) (port ctx : Nat) (l : Launch) (rec' : Nat → List Byte) : Tells s (writeFault s port ctx l rec') := by
  unfold Machine.writeFault
  extract_lets a ok written told
  have hwritten : Tells s written := by
    unfold written
    split
    · exact (stackWrite ..).trans (wrBytes ..)
    · exact refl s
  exact (hwritten.trans (updCtx ..)).trans (updCtx ..)

theorem reportPoison (s : State) (a : Nat) : Tells s (reportPoison s a) := by
  unfold Machine.reportPoison
  split
  · exact refl s
  · split
    · exact refl s
    · split
      · exact writeFault ..
      · exact updCtx ..

end Tells

/-! ### Extents lost with a stack (R139) -/

/-- What is left of a logical extent whose stack has failed. -/
def lostExt : LExt := ⟨none, true, false⟩

/-- The backing with the extents of a list of keys lost. -/
def loseExts (keys : List Nat) (m : NMap LExt) : NMap LExt := m.map (fun p => (p.1, if p.1 ∈ keys then lostExt else p.2))

theorem mfind_loseExts (keys : List Nat) (m : NMap LExt) (key : Nat) :
    mfind (loseExts keys m) key = (mfind m key).map (fun x => if key ∈ keys then lostExt else x) := by
  induction m with
  | nil => rfl
  | cons p m ih =>
    simp only [loseExts, List.map_cons, mfind]
    split
    · simp_all
    · split
      · rfl
      · exact ih

theorem mSorted_loseExts (keys : List Nat) {lo : Option Nat} {m : NMap LExt} (h : mSorted lo m = true) : mSorted lo (loseExts keys m) = true := by
  induction m generalizing lo with
  | nil => rfl
  | cons p m ih =>
    obtain ⟨hlo, htail⟩ := (mSorted_cons lo p.1 p.2 m).mp h
    exact (mSorted_cons ..).mpr ⟨hlo, ih htail⟩

theorem poisonExt_tells (s : State) (key : Nat) :
    Tells (updMem s fun m => { m with exts := loseExts [key] m.exts }) (poisonExt s key) := by
  have hloses : (updMem s fun m => { m with exts := loseExts [key] m.exts })
      = updMem s fun m => { m with exts := m.exts.map (fun p => if p.1 = key then (key, ⟨none, true, false⟩) else p) } := by
    refine congrArg (fun l : NMap LExt => updMem s fun m => { m with exts := l }) (List.map_congr_left fun p _ => ?_)
    by_cases h : p.1 = key <;> simp [h, lostExt]
  unfold poisonExt
  rw [← hloses]
  refine List.foldlRecOn (motive := fun acc : State × List Tag => Tells _ acc.1) _ _ (Tells.refl _) fun acc h x _ => ?_
  split
  · exact h
  · exact h.trans (Tells.reportPoison ..)

theorem foldl_poisonExt (keys : List Nat) (s : State) : Tells (updMem s fun m => { m with exts := loseExts keys m.exts }) (keys.foldl poisonExt s) := by
  induction keys generalizing s with
  | nil =>
    have hsame : loseExts [] s.mem.exts = s.mem.exts := by simp [loseExts]
    exact ⟨rfl, hsame.symm, fun _ => .of_regs rfl⟩
  | cons key keys ih =>
    have hone := poisonExt_tells s key
    have hrest := ih (poisonExt s key)
    refine ⟨hrest.pages.trans hone.pages, hrest.exts.trans ?_, fun hf => ?_⟩
    · show loseExts keys (poisonExt s key).mem.exts = loseExts (key :: keys) s.mem.exts
      rw [hone.exts]
      show loseExts keys (loseExts [key] s.mem.exts) = _
      simp only [loseExts, List.map_map]
      refine List.map_congr_left fun p _ => ?_
      by_cases h : p.1 = key <;> by_cases h' : p.1 ∈ keys <;> simp [h, h']
    · refine KeepsField.trans (KeepsField.trans ?_ (hone.field hf)) (KeepsField.trans ?_ (hrest.field hf)) <;> exact .of_regs rfl

theorem exists_of_mem_heldExts {s : State} {k : Nat} {p : Nat × Nat} (h : p ∈ heldExts s k) : ∃ x e, (p.1, x) ∈ s.mem.exts ∧ x.phys = some (k, e) := by
  obtain ⟨⟨key, x⟩, hmem, rfl⟩ := List.mem_map.mp h
  obtain ⟨hexts, hon⟩ := List.mem_filter.mp hmem
  obtain ⟨⟨n, e⟩, hphys, rfl⟩ := Option.map_eq_some_iff.mp (beq_iff_eq.mp hon)
  exact ⟨x, e, hexts, hphys⟩

theorem mem_heldExts_keys {s : State} {k key e : Nat} {x : LExt} (h : (key, x) ∈ s.mem.exts) (hphys : x.phys = some (k, e)) :
    key ∈ (heldExts s k).map (·.1) :=
  List.mem_map.mpr ⟨_, List.mem_map.mpr ⟨_, List.mem_filter.mpr ⟨h, by simp [hphys]⟩, rfl⟩, rfl⟩

end Sys2Proof.Machine
end

section
/-!
PROOFS. Scope: what O27 says of stacks that fail, of the scrub, and of stacks that drain and join (R134-R139, R414).
-/
namespace Sys2Proof.Machine

/-! ### The fault of a stack -/

/-- The stack out of service, with everything still on it. -/
def offlineStack (s : State) (k : Nat) : State := unitMoved (setF (setF s (32 + k) F.STK_STATE_STATE 2) (32 + k) F.STK_STATE_JOIN_STEP 0)

/-- Its frames lost. -/
def framesLost (s : State) (k : Nat) : State :=
  ((offlineStack s k).mem.pages.filter (fun p => p.frame.any (fun f => f.1 == k))).foldl (loseFrames k) (offlineStack s k)

/-- Its extents lost too. -/
def extentsLost (s : State) (k : Nat) : State := ((heldExts (framesLost s k) k).map (·.1)).foldl poisonExt (framesLost s k)

section Fault
variable {s : State} {k : Nat}

theorem exec_stackFault (hk : k < 16) (hen : enabled s (32 + k) = true) (hoff : stkState s k ≠ 2) (htest : stkState s k ≠ 3) :
    exec (.stackFault k) s = .next (noteBlocks (reback (extentsLost s k))) := by
  have hgo : ¬ (16 ≤ k ∨ enabled s (32 + k) = false ∨ stkState s k = 2 ∨ stkState s k = 3) := by
    simp only [hen, hoff, htest, Bool.true_eq_false, or_false]
    omega
  simp only [exec, execStackFault, stackFault, if_neg hgo]
  rfl

theorem offlineStack_mem (s : State) (k : Nat) : (offlineStack s k).mem = s.mem := (congrArg State.mem (unitMoved_frame _) :)

theorem offlineStack_regs : (offlineStack s k).regs = (setF (setF s (32 + k) F.STK_STATE_STATE 2) (32 + k) F.STK_STATE_JOIN_STEP 0).regs :=
  (congrArg State.regs (unitMoved_frame _) :)

theorem offlineStack_state (hs : mSorted none s.regs = true) : mSorted none (offlineStack s k).regs = true ∧ stkState (offlineStack s k) k = 2
    ∧ getF (offlineStack s k) (32 + k) F.STK_STATE_JOIN_STEP = 0 := by
  have hfirst := setF_regs_sorted hs (32 + k) F.STK_STATE_STATE 2 0 0
  have hstate : stkState (offlineStack s k) k = 2 :=
    (getF_congr offlineStack_regs ..).trans ((stkState_setF_joinStep hfirst k 0).trans (stkState_setF_state hs k 2))
  have hstep : getF (offlineStack s k) (32 + k) F.STK_STATE_JOIN_STEP = 0 :=
    (getF_congr offlineStack_regs ..).trans (joinStep_setF_joinStep hfirst k 0)
  exact ⟨offlineStack_regs ▸ setF_regs_sorted hfirst .., hstate, hstep⟩

theorem framesLost_repages : Repages (offlineStack s k) (framesLost s k) := .foldl (Repages.loseFrames k) _ _

theorem framesLost_pages : ∀ q ∈ (framesLost s k).mem.pages, OffStack k q := by
  refine foldl_loseFrames_pages fun q hq => ?_
  by_cases h : q.frame.any (fun f => f.1 == k) = true
  · exact .inr ⟨q, List.mem_filter.mpr ⟨hq, h⟩, by simp [samePage]⟩
  · exact .inl fun f hf hk => h (List.any_eq_true.mpr ⟨f, hf, by simp [hk]⟩)

theorem framesLost_rebacked (hk : k < 16) (hs : mSorted none s.regs = true) : Rebacked k (offlineStack s k) (framesLost s k) := by
  obtain ⟨hsorted, hstate, -⟩ := offlineStack_state (k := k) hs
  have hboth : KeepsField (32 + k) F.STK_STATE_STATE (offlineStack s k) (framesLost s k) ∧ Rebacked k (offlineStack s k) (framesLost s k) := by
    refine List.foldlRecOn (motive := fun t => KeepsField (32 + k) F.STK_STATE_STATE (offlineStack s k) t ∧ Rebacked k (offlineStack s k) t)
      _ _ ⟨.refl _, .of_exts rfl⟩ fun t ⟨hfield, hexts⟩ p _ => ?_
    have ht : stkState t k ≠ 0 := fun h => by cases hstate.symm.trans ((hfield.same hsorted).symm.trans h)
    exact ⟨hfield.trans ((Repages.loseFrames k t p).field (by decide) (by omega)), hexts.trans (.loseFrames (hfield.sorted hsorted) ht hk p)⟩
  exact hboth.2

theorem extentsLost_pages : (extentsLost s k).mem.pages = (framesLost s k).mem.pages := (foldl_poisonExt ..).pages

theorem extentsLost_exts : (extentsLost s k).mem.exts = loseExts ((heldExts (framesLost s k) k).map (·.1)) (framesLost s k).mem.exts :=
  (foldl_poisonExt ..).exts

/-- The stack's own fields stand as the fault has put them. -/
theorem extentsLost_field {f : Field} (hf : f.still = true) (hk : k < 16) : KeepsField (32 + k) f (offlineStack s k) (extentsLost s k) := by
  have hframes : KeepsField (32 + k) f (offlineStack s k) (framesLost s k) := framesLost_repages.field hf (by omega)
  refine hframes.trans (KeepsField.trans ?_ ((foldl_poisonExt ..).field hf))
  exact .of_regs rfl

/-- What the fault leaves: the blocks are noted in the scheduler alone. -/
theorem faulted_mem (u : State) : (noteBlocks (reback u)).mem = (reback u).mem := (congrArg State.mem (noteBlocks_frame _) :)

theorem faulted_regs (u : State) : (noteBlocks (reback u)).regs = u.regs :=
  ((congrArg State.regs (noteBlocks_frame _) :)).trans (congrArg State.regs (reback_frame u) :)

theorem extentsLost_stkState (hk : k < 16) (hs : mSorted none s.regs = true) : stkState (extentsLost s k) k = 2 := by
  obtain ⟨hsorted, hstate, -⟩ := offlineStack_state (k := k) hs
  exact ((extentsLost_field (by decide) hk).same hsorted).trans hstate

/-- An extent that was on the stack is poisoned and is on it no more. -/
theorem faulted_ext (hk : k < 16) (hs : mSorted none s.regs = true) (hexts : mSorted none s.mem.exts = true) {p : Nat × Nat}
    (hp : p ∈ heldExts s k) : ∃ x, mfind (reback (extentsLost s k)).mem.exts p.1 = some x ∧ x.poisoned = true ∧ ∀ e, x.phys ≠ some (k, e) := by
  obtain ⟨x, e, hx, hphys⟩ := exists_of_mem_heldExts hp
  have hoff : mSorted none (offlineStack s k).mem.exts = true := by
    rw [offlineStack_mem]
    exact hexts
  have hfind : mfind (offlineStack s k).mem.exts p.1 = some x := by
    rw [offlineStack_mem]
    exact mfind_of_mem hexts hx
  have hback := framesLost_rebacked hk hs
  have hframes : mfind (framesLost s k).mem.exts p.1 = some x := by
    obtain hsame | ⟨y, _, _, hy, hnone, _⟩ := hback.find hoff p.1
    · exact hsame.trans hfind
    · obtain rfl := Option.some.inj (hfind.symm.trans hy)
      cases hphys.symm.trans hnone
  have hlost : mfind (extentsLost s k).mem.exts p.1 = some lostExt := by
    rw [extentsLost_exts, mfind_loseExts, hframes, Option.map_some, if_pos (mem_heldExts_keys (mem_of_mfind hframes) hphys)]
  have hsorted : mSorted none (extentsLost s k).mem.exts = true := extentsLost_exts ▸ mSorted_loseExts _ (hback.sorted hoff)
  have hstate : stkState (extentsLost s k) k ≠ 0 := by rw [extentsLost_stkState hk hs]; decide
  obtain hsame | ⟨y, m, n, hy, -, hne, hnew⟩ := (Rebacked.reback hstate).find hsorted p.1
  · exact ⟨lostExt, hsame.trans hlost, rfl, fun _ h => by cases h⟩
  · obtain rfl := Option.some.inj (hlost.symm.trans hy)
    exact ⟨_, hnew, rfl, fun _ h => hne (congrArg Prod.fst (Option.some.inj h))⟩

/-- With no extent on the stack none is lost. -/
theorem extentsLost_none (hk : k < 16) (hs : mSorted none s.regs = true) (hexts : mSorted none s.mem.exts = true) (hnone : heldExts s k = []) :
    extentsLost s k = framesLost s k := by
  have hoff : mSorted none (offlineStack s k).mem.exts = true := by
    rw [offlineStack_mem]
    exact hexts
  have hback := framesLost_rebacked hk hs
  have hempty : heldExts (framesLost s k) k = [] := by
    refine List.eq_nil_iff_forall_not_mem.mpr fun p hp => ?_
    obtain ⟨x, e, hx, hphys⟩ := exists_of_mem_heldExts hp
    have hfind := mfind_of_mem (hback.sorted hoff) hx
    obtain hsame | ⟨y, m, n, -, -, hne, hnew⟩ := hback.find hoff p.1
    · have hmem : (p.1, x) ∈ s.mem.exts := by
        rw [offlineStack_mem] at hsame
        exact mem_of_mfind (hsame.symm.trans hfind)
      have := mem_heldExts_keys hmem hphys
      rw [hnone] at this
      cases this
    · obtain rfl := Option.some.inj (hfind.symm.trans hnew)
      exact hne (congrArg Prod.fst (Option.some.inj hphys))
  unfold extentsLost
  rw [hempty]
  rfl

/-- A fault takes a stack out of service, and nothing stays on it (R134, R139). -/
theorem stackFault_gives (hk : k < 16) (hs : mSorted none s.regs = true) (hen : enabled s (32 + k) = true) (hstate : stkState s k ≠ 2)
    (htest : stkState s k ≠ 3) (hexts : mSorted none s.mem.exts = true) :
    Gives (.stackFault k) s fun t => stkState t k = 2 ∧ getF t (32 + k) F.STK_STATE_JOIN_STEP = 0
      ∧ (∀ p ∈ t.mem.pages, ∀ f ∈ p.frame, f.1 ≠ k)
      ∧ (∀ p ∈ heldExts s k, ∃ x, mfind t.mem.exts p.1 = some x ∧ x.poisoned = true ∧ ∀ e, x.phys ≠ some (k, e))
      ∧ (heldExts s k = [] → t.mem.bytes = s.mem.bytes ∧ ((∀ p ∈ s.mem.exts, p.2.phys ≠ none) → t.mem.exts = s.mem.exts)) := by
  obtain ⟨hsorted, -, hstep⟩ := offlineStack_state (k := k) hs
  refine ⟨_, exec_stackFault hk hen hstate htest, ?_, ?_, ?_, ?_, ?_⟩
  · exact (getF_congr (faulted_regs _) ..).trans (extentsLost_stkState hk hs)
  · exact (getF_congr (faulted_regs _) ..).trans (((extentsLost_field (by decide) hk).same hsorted).trans hstep)
  · intro q hq
    rw [faulted_mem, reback_pages, extentsLost_pages] at hq
    exact framesLost_pages q hq
  · intro p hp
    rw [faulted_mem]
    exact faulted_ext hk hs hexts hp
  · intro hnone
    rw [faulted_mem, extentsLost_none hk hs hexts hnone]
    have hrep : Repages (offlineStack s k) (reback (framesLost s k)) := framesLost_repages.trans (.reback _)
    refine ⟨hrep.bytes.trans (congrArg Mem.bytes (offlineStack_mem s k)), fun hall => ?_⟩
    have hall' : ∀ p ∈ (offlineStack s k).mem.exts, p.2.phys ≠ none := by
      rw [offlineStack_mem]
      exact hall
    have hwhole : (framesLost s k).mem.exts = s.mem.exts :=
      ((framesLost_rebacked hk hs).whole hall').trans (congrArg Mem.exts (offlineStack_mem s k))
    rw [reback_backed (hwhole ▸ hall), hwhole]

end Fault

/-! ### The scrub (R414, R426) -/

section Scrub
variable {s : State}

/-- The fields of the record of an island's last event (R429). -/
def protLastFields : List Field :=
  [F.PROT_LAST_ARRAY, F.PROT_LAST_UE, F.PROT_LAST_VALID, F.PROT_LAST_UNIT, F.PROT_LAST_ADDR_LO_ADDR, F.PROT_LAST_ADDR_HI_ADDR]

/-- That record leaves a field of other registers. -/
theorem KeepsField.protLast {isl : Nat} {f : Field} (hf : f.still = true) (hne : ∀ g ∈ protLastFields, f.reg ≠ g.reg) (s : State) (isl' arr : Nat)
    (ue : Bool) (unit addr : Nat) : KeepsField isl f s (protLast s isl' arr ue unit addr) := by
  have hwrite {g : Field} (hg : g ∈ protLastFields) (t : State) (v : Nat) : KeepsField isl f t (setF t isl' g v) := by
    refine setF_other hf ?_ (.inl (hne g hg)) t isl' v (by decide)
    revert g
    decide
  unfold Machine.protLast
  exact (hwrite (by decide) ..).trans <| (hwrite (by decide) ..).trans <| (hwrite (by decide) ..).trans <| (hwrite (by decide) ..).trans <|
    (hwrite (by decide) ..).trans <| hwrite (by decide) ..

/-- What a corrected codeword does beside counting: its record, its events and its signals. -/
theorem correctedEvent_keeps (s : State) (isl unit addr : Nat) :
    KeepsField isl F.PROT_CE_COUNT_COUNT (addF s isl F.PROT_CE_COUNT_COUNT 1) (correctedEvent s isl 0 unit addr)
      ∧ (correctedEvent s isl 0 unit addr).mem = s.mem := by
  have hstill : F.PROT_CE_COUNT_COUNT.still = true := by decide
  unfold correctedEvent
  extract_lets counted level signalled
  have hcounted : KeepsField isl F.PROT_CE_COUNT_COUNT (addF s isl F.PROT_CE_COUNT_COUNT 1) counted ∧ counted.mem = s.mem :=
    ⟨(KeepsField.protLast hstill (by decide) ..).trans (.countEv hstill ..), (congrArg State.mem (Sends.countEv ..).eq :)⟩
  have hlevel : KeepsField isl F.PROT_CE_COUNT_COUNT (addF s isl F.PROT_CE_COUNT_COUNT 1) level ∧ level.mem = s.mem :=
    ⟨hcounted.1.trans (.setF_other hstill (by decide) (.inl (by decide)) _ _ _ (by decide)), hcounted.2⟩
  have hsignalled : KeepsField isl F.PROT_CE_COUNT_COUNT (addF s isl F.PROT_CE_COUNT_COUNT 1) signalled ∧ signalled.mem = s.mem :=
    have hset : KeepsField isl F.PROT_CE_COUNT_COUNT level (setFBit level isl F.PROT_STATUS_OVF 0 true) :=
      .setF_other hstill (by decide) (.inl (by decide)) _ _ _ (by decide)
    ⟨(hlevel.1.trans hset).trans (.of_regs rfl), hlevel.2⟩
  split
  · split
    · exact ⟨hsignalled.1.trans (.interrupt hstill ..), (congrArg State.mem (Sends.interrupt ..).eq :).trans hsignalled.2⟩
    · exact hsignalled
  · exact hlevel

/-- A corrected codeword is counted once. -/
theorem correctedEvent_counts (hs : mSorted none s.regs = true) (isl unit addr : Nat)
    (hlt : getF s isl F.PROT_CE_COUNT_COUNT < 2 ^ F.PROT_CE_COUNT_COUNT.w - 1) :
    getF (correctedEvent s isl 0 unit addr) isl F.PROT_CE_COUNT_COUNT = getF s isl F.PROT_CE_COUNT_COUNT + 1 := by
  refine ((correctedEvent_keeps s isl unit addr).1.same (setF_regs_sorted hs ..)).trans ?_
  rw [getF_addF_same hs]
  omega

theorem exec_stackScrub {k : Nat} (hk : k < 16) (hen : enabled s (32 + k) = true) (hcnt : getF s (32 + k) F.CNT_CTRL_EN = 0) (l : List Nat) :
    exec (.stackScrub k l []) s = .next ((l.filter (fun a => stackOfAddr s a == some k && storedAt s a)).foldl correctedAt s) := by
  have hgo : ¬ (16 ≤ k ∨ enabled s (32 + k) = false) := by
    simp only [hen, Bool.true_eq_false, or_false]
    omega
  simp only [exec, execStackScrub, if_neg hgo, List.filter_nil, List.foldl_nil, countEv_off hcnt]

/-- A corrected codeword of a stack is an event of that stack's array. -/
theorem correctedAt_stack {a k : Nat} (h : stackOfAddr s a = some k) : ∃ off, correctedAt s a = correctedEvent s (32 + k) 0 0 off := by
  obtain ⟨⟨st, off⟩, hplace, rfl⟩ := Option.map_eq_some_iff.mp h
  exact ⟨off, by simp only [correctedAt, hplace]⟩

end Scrub

/-! ### The steps of a stack that drains or joins -/

section Steps
variable {s : State} {k : Nat}

theorem stackDrainComplete_gives (hk : k < 16) (hs : mSorted none s.regs = true) (hst : stkState s k = 1) (hexts : heldExts s k = [])
    (hframes : heldFrames s k = []) : Gives (.stackDrainComplete k) s fun t => stkState t k = 2 ∧ t.mem = s.mem := by
  have hlast := noteBlocks_unitMoved (setF s (32 + k) F.STK_STATE_STATE 2)
  refine ⟨_, ?_, (getF_congr (congrArg State.regs hlast :) ..).trans (stkState_setF_state hs k 2), (congrArg State.mem hlast :)⟩
  simp only [exec, execStackDrainComplete, if_neg (Nat.not_le.mpr hk), drainedStack_offline hst hexts hframes]

theorem stackValidClearDone_gives (hk : k < 16) (hs : mSorted none s.regs = true) (hst : stkState s k = 4)
    (hn : getF s (32 + k) F.STK_STATE_JOIN_STEP = 0) :
    Gives (.stackValidClearDone k) s fun t => getF t (32 + k) F.STK_STATE_JOIN_STEP = 1 ∧ stkState t k = 4 ∧ t = { s with regs := t.regs } :=
  ⟨_, exec_stackValidClearDone hk hst hn, joinStep_setF_joinStep hs k 1, (stkState_setF_joinStep hs k 1).trans hst, rfl⟩

theorem joinedStack_state (hs : mSorted none s.regs = true) :
    getF (joinedStack s k) (32 + k) F.STK_STATE_JOIN_STEP = 0 ∧ stkState (joinedStack s k) k = 0 := by
  have hstep := setF_regs_sorted hs (32 + k) F.STK_STATE_JOIN_STEP 0 0 0
  exact ⟨(joinStep_setF_state hstep k 0).trans (joinStep_setF_joinStep hs k 0), stkState_setF_state hstep k 0⟩

/-- What a stack that has joined leaves: its own state, and the backing of extents that waited. -/
theorem joined_mem (u : State) : (noteBlocks (reback (unitMoved u))).mem = { u.mem with exts := (noteBlocks (reback (unitMoved u))).mem.exts }
    ∧ ((∀ p ∈ u.mem.exts, p.2.phys ≠ none) → (noteBlocks (reback (unitMoved u))).mem = u.mem) := by
  have hnote : (noteBlocks (reback (unitMoved u))).mem = (reback (unitMoved u)).mem := (congrArg State.mem (noteBlocks_frame _) :)
  have hmoved : (unitMoved u).mem = u.mem := (congrArg State.mem (unitMoved_frame u) :)
  have hback : (reback (unitMoved u)).mem = { (unitMoved u).mem with exts := (reback (unitMoved u)).mem.exts } := (congrArg State.mem (reback_frame _) :)
  rw [hnote]
  refine ⟨by rw [← hmoved]; exact hback, fun hall => ?_⟩
  rw [reback_backed (hmoved.symm ▸ hall), hmoved]

theorem joined_regs (u : State) : (noteBlocks (reback (unitMoved u))).regs = u.regs :=
  (congrArg State.regs (noteBlocks_frame _) :).trans ((congrArg State.regs (reback_frame _) :).trans (congrArg State.regs (unitMoved_frame u) :))

theorem stackJoinStep_gives (hk : k < 16) (hs : mSorted none s.regs = true) {n : Nat} (hst : stkState s k = 4)
    (hn : getF s (32 + k) F.STK_STATE_JOIN_STEP = n) (hpos : 1 ≤ n) :
    Gives (.stackJoinStep k) s fun t =>
      (n < 7 → getF t (32 + k) F.STK_STATE_JOIN_STEP = n + 1 ∧ stkState t k = 4)
        ∧ (7 ≤ n → getF t (32 + k) F.STK_STATE_JOIN_STEP = 0 ∧ stkState t k = 0)
        ∧ t.mem = { s.mem with exts := t.mem.exts } ∧ ((n < 7 ∨ ∀ p ∈ s.mem.exts, p.2.phys ≠ none) → t.mem = s.mem) := by
  by_cases hlt : n < 7
  · have hstep := joinStep_setF_joinStep hs k (n + 1)
    rw [Nat.mod_eq_of_lt (by omega)] at hstep
    exact ⟨_, exec_stackJoinStep_counts hk hst hn hpos hlt, fun _ => ⟨hstep, (stkState_setF_joinStep hs k _).trans hst⟩,
      fun hge => absurd hlt (Nat.not_lt.mpr hge), rfl, fun _ => rfl⟩
  · obtain ⟨hstep, hstate⟩ := joinedStack_state (k := k) hs
    obtain ⟨hmem, hwhole⟩ := joined_mem (joinedStack s k)
    have hregs := joined_regs (joinedStack s k)
    exact ⟨_, exec_stackJoinStep_joins hk hst hn (Nat.not_lt.mp hlt), fun h => absurd h hlt,
      fun _ => ⟨(getF_congr hregs ..).trans hstep, (getF_congr hregs ..).trans hstate⟩, hmem, fun h => hwhole (h.resolve_left hlt)⟩

theorem extentCopyComplete_gives (hk : k < 16) {m key ext : Nat} (hst : stkState s k = 1) (hm : roomiest s (otherStacks s k) = some m)
    (hheld : (heldExts s k).find? (fun p => p.2 == ext) = some (key, ext)) :
    Gives (.extentCopyComplete k ⟨ext, [], []⟩) s fun t =>
      t.mem.exts = s.mem.exts.map (fun p => if p.1 = key then (key, { p.2 with phys := some (m, lowestPhys s m), copied := true }) else p)
        ∧ t = { holdExt s m (lowestPhys s m) with mem := { s.mem with exts := t.mem.exts } } := by
  refine ⟨_, exec_extentCopyComplete hk hst hm ext, ?_⟩
  simp only [hheld]
  exact ⟨rfl, rfl⟩

end Steps

/-- Settles O27: a stack drains, joins, fails and is scrubbed. -/
theorem stacksDrainJoinAndFault : Obligations.StacksDrainJoinAndFault := by
  unfold Obligations.StacksDrainJoinAndFault
  intro s k hwf hk
  obtain ⟨-, hs, -⟩ := (State.wf_iff s).mp hwf
  refine ⟨fun m key ext hst hm hheld => extentCopyComplete_gives hk hst hm hheld, fun m ext fr hst hm hheld hfr => ?_,
    fun hst hexts hframes => stackDrainComplete_gives hk hs hst hexts hframes, fun _ hleft => ?_,
    fun hst hn => stackValidClearDone_gives hk hs hst hn, fun n hst hn hpos => stackJoinStep_gives hk hs hst hn hpos,
    fun hen hst htest hexts => stackFault_gives hk hs hen hst htest hexts, fun hen hcnt => ⟨s, exec_stackScrub hk hen hcnt [], rfl⟩,
    fun a hen hcnt hstack hstored hlt => ?_⟩
  · rw [exec_extentCopyComplete hk hst hm]
    simp only [hheld, hfr]
  · simp only [exec, execStackDrainComplete, if_neg (Nat.not_le.mpr hk), drainedStack_waits hleft]
  · obtain ⟨off, hcorr⟩ := correctedAt_stack hstack
    have hscrub := exec_stackScrub hk hen hcnt [a]
    simp only [List.filter_cons, List.filter_nil, hstack, hstored, beq_self_eq_true, Bool.and_self, if_true, List.foldl_cons, List.foldl_nil, hcorr] at hscrub
    exact ⟨_, hscrub, correctedEvent_counts hs _ 0 off hlt, (correctedEvent_keeps s _ 0 off).2⟩

end Sys2Proof.Machine
end

section
/-!
PROOFS. Scope: a rill's registers and tickets, its fetch, and an instruction that issues (R210, R216-R218, R223, R228, R237, R271).
-/
namespace Sys2Proof.Machine

/-! ### Registers and tickets of a rill (R210, R226) -/

section Registers
variable {r : Rill}

/-- A thread's register after a write to one. -/
theorem Rill.get_put (hr : mSorted none r.regs = true) (th d v : Nat) (p : Bool) (th' : Nat) {n : Nat} (hd : d < 64) (hn : n < 64) :
    (r.put th d v p).get th' n = if th' = th ∧ n = d then v % 2 ^ 32 else r.get th' n := by
  unfold Rill.get Rill.put
  split
  case isTrue h =>
    obtain ⟨rfl, rfl⟩ := h
    exact mget_mset_same _ _ _ hr
  case isFalse h => exact mget_mset_ne _ _ _ (fun heq => h (by omega)) hr

theorem Rill.put_sorted (hr : mSorted none r.regs = true) (th d v : Nat) (p : Bool) : mSorted none (r.put th d v p).regs = true :=
  mSorted_mset _ _ _ hr

theorem fD_lt (w : Nat) : fD w < 64 := Nat.mod_lt _ (by decide)

/-- One register of each of several threads is written. -/
def putEach (d : Nat) (f : Nat → Nat) (l : List Nat) (r : Rill) : Rill := l.foldl (fun q th => q.put th d (f th) false) r

theorem putEach_frame (d : Nat) (f : Nat → Nat) (l : List Nat) (r : Rill) :
    putEach d f l r = { r with regs := (putEach d f l r).regs, poison := (putEach d f l r).poison } := by
  induction l generalizing r with
  | nil => rfl
  | cons th l ih => exact (ih (r.put th d (f th) false)).trans rfl

theorem putEach_get {d : Nat} (hd : d < 64) (f : Nat → Nat) (l : List Nat) {r : Rill} (hr : mSorted none r.regs = true) (th : Nat) {n : Nat} (hn : n < 64) :
    (putEach d f l r).get th n = if th ∈ l ∧ n = d then f th % 2 ^ 32 else r.get th n := by
  induction l generalizing r with
  | nil => simp [putEach]
  | cons x l ih =>
    refine (ih (Rill.put_sorted hr x d (f x) false)).trans ?_
    rw [Rill.get_put hr x d _ _ th hd hn]
    by_cases hx : th = x <;> by_cases hl : th ∈ l <;> by_cases hnd : n = d <;> simp [hx, hl, hnd]

/-- Tickets taken off a rill, one after the other. -/
theorem mfind_foldl_mdel {α : Type} (l : List Nat) {m : NMap α} (hm : mSorted none m = true) (k : Nat) :
    mfind (l.foldl mdel m) k = if k ∈ l then none else mfind m k := by
  induction l generalizing m with
  | nil => simp
  | cons x l ih =>
    rw [List.foldl_cons, ih (mSorted_mdel x hm)]
    by_cases hx : k = x
    · subst hx
      simp [mfind_mdel_same hm]
    · simp [hx, mfind_mdel_ne hx hm]

/-- A free ticket names none that is outstanding, and is one of 64. -/
theorem freeTicket_spec {r : Rill} {k : Nat} (h : freeTicket r = some k) : k < 64 ∧ mfind r.tickets k = none :=
  ⟨List.mem_range.mp (List.mem_of_find?_eq_some h), by simpa using List.find?_some h⟩

end Registers

/-- Merging paths changes the pc, the masks and the stack alone. -/
theorem mergePaths_frame (n : Nat) (r : Rill) :
    mergePaths n r = { r with
      pc := (mergePaths n r).pc, active := (mergePaths n r).active, rcv := (mergePaths n r).rcv, stack := (mergePaths n r).stack } := by
  fun_induction mergePaths n r with
  | case1 => rfl
  | case2 => rfl
  | case3 n r pc m rc st hst hpc ih => exact ih.trans rfl
  | case4 => rfl

/-! ### The fetch of a word (R223) -/

/-- A read of the object window that finds its page leaves all but memory. -/
theorem windowRead_data {s t : State} {dom reach off n : Nat} {l : List Byte} (h : windowRead s dom reach off n = (t, .data l)) :
    t = { s with mem := t.mem } := by
  unfold windowRead at h
  split at h
  · cases h
  · split at h
    · cases h
    · split at h
      · cases h
      · dsimp only at h
        split at h
        · cases h
        · split at h
          · cases h
          · split at h
            · split at h
              · obtain ⟨rfl, -⟩ := Prod.mk.inj h
                rfl
              · split at h
                · split at h <;> cases h
                · cases h
            · split at h <;> cases h

/-- A fetch that ends well leaves all but memory. -/
theorem fetchWord_frame {s s1 : State} {ctx reach pc w : Nat} (h : fetchWord s ctx reach pc = (s1, .ok w)) : s1 = { s with mem := s1.mem } := by
  unfold fetchWord at h
  split at h
  · split at h
    · split at h
      · cases h
      · split at h
        · cases h
        · obtain ⟨rfl, -⟩ := Prod.mk.inj h
          rfl
    · cases h
  · split at h
    case h_1 hr =>
      obtain ⟨rfl, -⟩ := Prod.mk.inj h
      exact windowRead_data hr
    case h_2 => cases h
    case h_3 => cases h
  · cases h

/-! ### Launches -/

theorem findCtx_updCtx_same {s : State} {slot : Nat} {f : Ctx → Ctx} (hf : ∀ c, (f c).slot = c.slot) :
    findCtx (updCtx s slot f) slot = (findCtx s slot).map f := by
  have hpred : (fun c : Ctx => c.slot == slot) ∘ (fun c => if c.slot = slot then f c else c) = fun c => c.slot == slot := by
    funext c
    by_cases h : c.slot = slot <;> simp [h, hf]
  simp only [findCtx, updCtx, List.find?_map, hpred]
  cases hc : s.sched.ctxs.find? (fun c => c.slot == slot) with
  | none => rfl
  | some c =>
    have hslot : c.slot = slot := by simpa using List.find?_some hc
    simp [hslot]

theorem findCtx_updCtx_ne {s : State} {slot n : Nat} {f : Ctx → Ctx} (hf : ∀ c, (f c).slot = c.slot) (hne : n ≠ slot) :
    findCtx (updCtx s slot f) n = findCtx s n := by
  have hpred : (fun c : Ctx => c.slot == n) ∘ (fun c => if c.slot = slot then f c else c) = fun c => c.slot == n := by
    funext c
    by_cases h : c.slot = slot <;> simp [h, hf]
  simp only [findCtx, updCtx, List.find?_map, hpred]
  cases hc : s.sched.ctxs.find? (fun c => c.slot == n) with
  | none => rfl
  | some c =>
    have hslot : c.slot = n := by simpa using List.find?_some hc
    simp [hslot, hne]

/-- A change of a context that leaves its launches. -/
theorem findLaunch_updCtx_kept {s : State} {slot : Nat} {f : Ctx → Ctx} (hslot : ∀ c, (f c).slot = c.slot) (hl : ∀ c, (f c).launches = c.launches)
    (ctx lid : Nat) : findLaunch (updCtx s slot f) ctx lid = findLaunch s ctx lid := by
  unfold findLaunch
  by_cases hctx : ctx = slot
  · subst hctx
    rw [findCtx_updCtx_same hslot]
    cases findCtx s ctx with
    | none => rfl
    | some c => exact congrArg (List.find? fun l => l.id == lid) (hl c)
  · rw [findCtx_updCtx_ne hslot hctx]

/-- A context's block reason is apart from its launches. -/
theorem findLaunch_noteBlock (s : State) (slot ctx lid : Nat) : findLaunch (noteBlock s slot) ctx lid = findLaunch s ctx lid := by
  unfold noteBlock
  split
  case h_1 => rfl
  case h_2 c _ =>
    dsimp only
    split
    case isTrue => rfl
    case isFalse =>
      have hkept : findLaunch (updCtx s slot fun c' => { c' with block := blockNow s c, blockedSince := if c'.block = 0 then cyc s 57 else c'.blockedSince })
          ctx lid = findLaunch s ctx lid := by
        refine findLaunch_updCtx_kept ?_ ?_ ctx lid <;> exact fun _ => rfl
      exact hkept

/-- A launch that is changed. -/
theorem findLaunch_updLaunch {s : State} {ctx lid : Nat} {f : Launch → Launch} (hf : ∀ l, (f l).id = l.id) :
    findLaunch (updLaunch s ctx lid f) ctx lid = (findLaunch s ctx lid).map f := by
  have hpred : (fun l : Launch => l.id == lid) ∘ (fun l => if l.id = lid then f l else l) = fun l => l.id == lid := by
    funext l
    by_cases h : l.id = lid <;> simp [h, hf]
  simp only [findLaunch, updLaunch]
  rw [findCtx_updCtx_same]
  · cases findCtx s ctx with
    | none => rfl
    | some c =>
      simp only [Option.map_some, Option.bind_some, List.find?_map, hpred]
      cases hl : c.launches.find? (fun l => l.id == lid) with
      | none => rfl
      | some l =>
        have hid : l.id = lid := by simpa using List.find?_some hl
        simp [hid]
  · exact fun _ => rfl

/-! ### An instruction that issues (R216, R237, R271) -/

section Issue
variable {s s1 t : State} {a : RillAt} {op w : Nat} {m r : Rill}

/-- The instruction a command names, at its issue. -/
def issueOf (a : RillAt) (m : Rill) (w : Nat) : Issue := ⟨keyOf a, a.reach, m, w, threads m w⟩

namespace Issues
variable (h : Issues s s1 a op m w)
include h

theorem wf : State.wf s = true := by
  obtain ⟨hwf, -⟩ := h
  exact hwf

theorem fetched : s1 = { s with mem := s1.mem } := by
  obtain ⟨-, -, -, -, -, hfetch, -⟩ := h
  exact fetchWord_frame hfetch

theorem regs : s1.regs = s.regs := (congrArg State.regs h.fetched :)

theorem opcode : fOp w = op := by
  obtain ⟨-, -, -, -, -, -, hop, -⟩ := h
  exact hop

theorem upset : a.upset = .none := by
  obtain ⟨-, -, -, hup, -⟩ := h
  exact hup

theorem unarmed : getF s1 a.reach F.RUN_INJECT_ARM = 0 := by
  obtain ⟨-, -, -, -, -, -, -, harm, -⟩ := id h
  exact (getF_congr h.regs ..).trans harm

theorem uncounted : getF s1 a.reach F.CNT_CTRL_EN = 0 := by
  obtain ⟨-, -, -, -, -, -, -, -, ⟨hen, -⟩, -⟩ := id h
  exact (getF_congr h.regs ..).trans hen

theorem regs_sorted : mSorted none m.regs = true := by
  obtain ⟨-, -, -, -, -, -, -, -, -, hregs, -⟩ := h
  exact hregs

theorem tickets_sorted : mSorted none m.tickets = true := by
  obtain ⟨-, -, -, -, -, -, -, -, -, -, -, -, htick, -⟩ := h
  exact htick

/-- The rill waits for nothing. -/
theorem idle : m.wait = .none := by
  obtain ⟨-, -, -, -, ⟨r, -, hwait, -, rfl⟩, -⟩ := h
  rw [mergePaths_frame]
  exact hwait

/-- Its context and reach let it issue. -/
theorem may : mayIssue s a.reach m = true := by
  obtain ⟨-, -, -, -, ⟨r, -, -, hmay, rfl⟩, -⟩ := h
  rw [mergePaths_frame]
  exact hmay

theorem slot_lt : a.runnel < 4 ∧ a.slot < 32 := by
  obtain ⟨-, hrunnel, hslot, -⟩ := h
  exact ⟨hrunnel, hslot⟩

theorem key_div : keyOf a / 128 = a.reach := by
  obtain ⟨hrunnel, hslot⟩ := h.slot_lt
  unfold keyOf rillKey
  omega

theorem reach_lt : a.reach < 32 := by
  have hmay := h.may
  unfold mayIssue at hmay
  split at hmay
  · cases hmay
  · simp only [reachLive, Bool.and_eq_true, decide_eq_true_eq] at hmay
    exact hmay.1.1.1.1.1.1

end Issues

/-- No sample waits for a source of this island. -/
theorem capturePoint_off {was : List Capture} {isl : Nat} (h : ∀ c ∈ was, c.island ≠ isl) (t : State) (x : Source) : capturePoint was t isl x = t := by
  have hkept (l : List Capture) : l.map (fun c => if (was.contains c && c.island == isl && c.source == x.kind && c.unit == x.unit && c.op == x.op
      && c.got.isNone) = true then { c with got := some (x.src, cyc t isl, !c.early) } else c) = l := by
    refine (List.map_congr_left fun c _ => ?_).trans (List.map_id l)
    refine if_neg fun hmine => ?_
    simp only [Bool.and_eq_true, List.contains_iff_mem, beq_iff_eq] at hmine
    exact h c hmine.1.1.1.1.1 hmine.1.1.1.1.2
  unfold capturePoint
  split
  · rfl
  · dsimp only
    rw [hkept]

/-- Nothing is counted in the reach of a rill. -/
theorem rillEv_off {k : Nat} (h : getF t (k / 128) F.CNT_CTRL_EN = 0) (r : Rill) (code unit n : Nat) : rillEv t k r code unit n = t := by
  simp only [rillEv, countSrc, h, if_true]

theorem countFaults_off {s0 : State} {k : Nat} (h : getF t (k / 128) F.CNT_CTRL_EN = 0) (r : Rill) (early : Bool) : countFaults s0 t k r early = t := by
  simp only [countFaults, countSrc, h, if_true, ite_self]

/-- The command runs its instruction on what the fetch left. -/
theorem issue_of_issues (h : Issues s s1 a op m w) {ops : Nat → Bool} (hops : ops op = true) (body : State → Issue → RStep) :
    issue s a ops body =
      let issued (s' : State) : State := rillEv (countFaults s (capturePoint s.counters.captures s' a.reach (rillSrc (keyOf a) m)) (keyOf a) m false)
        (keyOf a) m 0x10 a.runnel 1
      match body s1 (issueOf a m w) with
      | .done s' r' => noteBlock (putRill (issued s') (keyOf a) { r' with pc := r'.pc + 8 }) m.ctx
      | .stay s' r' =>
        let s' := match r'.wait with | .page _ | .sluice => countFaults s s' (keyOf a) m true | _ => issued s'
        noteBlock (putRill s' (keyOf a) r') m.ctx
      | .stop s' st ths ad => stopRill (issued s') (keyOf a) m st ths ad := by
  obtain ⟨-, hrunnel, hslot, hup, ⟨r, hget, hwait, hmay, rfl⟩, hfetch, hop, -⟩ := h
  have hgo : r.wait = .none ∧ mayIssue s a.reach r = true ∧ a.runnel < 4 ∧ a.slot < 32 := ⟨hwait, hmay, hrunnel, hslot⟩
  have hknown : ¬ ops (fOp w) = false := by
    rw [hop, hops]
    decide
  have hmerged : (mergePaths r.stack.length r).ctx = r.ctx := (congrArg Rill.ctx (mergePaths_frame r.stack.length r) :)
  have hfetch' : fetchWord s (mergePaths r.stack.length r).ctx a.reach (mergePaths r.stack.length r).pc = (s1, .ok w) := hfetch
  unfold issue
  simp only [hget, if_pos hgo, hfetch', if_neg hknown, hup, reduceCtorEq, if_false]
  rfl

/-- The state after an issue, where nothing is counted. -/
theorem issued_off (h : Issues s s1 a op m w) (hen : getF t a.reach F.CNT_CTRL_EN = 0) :
    rillEv (countFaults s (capturePoint s.counters.captures t a.reach (rillSrc (keyOf a) m)) (keyOf a) m false) (keyOf a) m 0x10 a.runnel 1 = t := by
  have hkey : getF t (keyOf a / 128) F.CNT_CTRL_EN = 0 := by
    rw [h.key_div]
    exact hen
  obtain ⟨-, -, -, -, -, -, -, -, ⟨-, hcapt⟩, -⟩ := h
  rw [capturePoint_off hcapt, countFaults_off hkey, rillEv_off hkey]

/-- An instruction that completes moves its rill on. -/
theorem issue_done (h : Issues s s1 a op m w) {body : State → Issue → RStep}
    (hbody : body s1 (issueOf a m w) = .done t r) (hen : getF t a.reach F.CNT_CTRL_EN = 0) :
    issue s a (· == op) body = noteBlock (putRill t (keyOf a) { r with pc := r.pc + 8 }) m.ctx := by
  rw [issue_of_issues h (ops := (· == op)) (beq_self_eq_true op), hbody]
  dsimp only
  rw [issued_off h hen]

/-- An instruction that leaves its rill elsewhere than at a page or a sluice. -/
theorem issue_stay (h : Issues s s1 a op m w) {body : State → Issue → RStep}
    (hbody : body s1 (issueOf a m w) = .stay t r) (hpage : ∀ ps, r.wait ≠ .page ps) (hsluice : r.wait ≠ .sluice)
    (hen : getF t a.reach F.CNT_CTRL_EN = 0) : issue s a (· == op) body = noteBlock (putRill t (keyOf a) r) m.ctx := by
  rw [issue_of_issues h (ops := (· == op)) (beq_self_eq_true op), hbody]
  dsimp only
  rw [issued_off h hen]
  split
  case h_1 ps hw => exact absurd hw (hpage ps)
  case h_2 hw => exact absurd hw hsluice
  case h_3 => rfl

theorem guardFmt_ok {i : Issue} {ok : Bool} (h : ok = true) (k : RStep) : guardFmt t i ok k = k := if_pos h

/-- Without an upset and without an armed error a checked operation goes on. -/
theorem guardUpset_none {i : Issue} (h : getF t i.reach F.RUN_INJECT_ARM = 0) (checked : Bool) (k : State → RStep) :
    guardUpset t i .none checked k = k t := by
  simp [guardUpset, h]

/-- No thread that executes consumes poison. -/
theorem guardPoison_clean {i : Issue} {bad : Nat → Bool} (h : ∀ th ∈ i.ts, bad th = false) (k : RStep) : guardPoison t i bad k = k := by
  have hnone : i.ts.filter bad = [] := List.filter_eq_nil_iff.mpr fun th hth => by simp [h th hth]
  simp [guardPoison, hnone]

end Issue

end Sys2Proof.Machine
end

section
/-!
PROOFS. Scope: unit operations of one thread, accepted, rejected or held, and waits on tickets (R143, R144, R226-R228, R243).
-/
namespace Sys2Proof.Machine

section Units
variable {s s1 t : State} {a : RillAt} {op w th k : Nat} {m r : Rill} {f : State → OpRef → State} {fmt : Nat → Bool} {bad : Rill → Nat → Nat → Bool}

/-! ### One thread's operation (R226) -/

/-- A rill with one more ticket outstanding, named in a thread's D. -/
def ticketRill (r : Rill) (w th k : Nat) : Rill := Rill.put { r with tickets := mins r.tickets k none } th (fD w) (k * 65536) false

/-- The operation of one thread is counted, and its ticket is outstanding. -/
def ticketGiven (s : State) (key : Nat) (r : Rill) (w th k : Nat) : State :=
  updLaunch (putRill s key (ticketRill r w th k)) r.ctx r.launch (fun l => { l with ops := l.ops + 1 })

theorem getRill_putRill (s : State) (key : Nat) (r : Rill) : getRill (putRill s key r) key = some r := mfind_mins_same ..

theorem mins_mins {α : Type} (x : NMap α) (i : Nat) (u v : α) : mins (mins x i u) i v = mins x i v := by
  induction x with
  | nil => simp [mins]
  | cons p x ih =>
    obtain ⟨j, y⟩ := p
    simp only [mins]
    split
    case isTrue h => simp only [mins, h, if_true]
    case isFalse hne =>
      split
      case isTrue h => simp only [mins, if_true]
      case isFalse hlt => simp only [mins, if_neg hne, if_neg hlt, ih]

theorem putRill_putRill (s : State) (key : Nat) (q r : Rill) : putRill (putRill s key q) key r = putRill s key r := by
  simp only [putRill, mins_mins]

theorem acceptUnits_rejects {key st : Nat} (hget : getRill s key = some r) (hres : unitRes s (key / 128) r w th = .reject st) :
    acceptUnits key w [th] s = (putRill s key (r.put th (fD w) st false), []) := by
  simp only [acceptUnits, hget, hres]

theorem acceptUnits_full {key : Nat} (hget : getRill s key = some r) (hres : unitRes s (key / 128) r w th = .full) :
    acceptUnits key w [th] s = (s, [th]) := by
  simp only [acceptUnits, hget, hres]

theorem acceptUnits_accepts {key : Nat} (hget : getRill s key = some r) (hres : unitRes s (key / 128) r w th = .accept f)
    (hfree : freeTicket r = some k) (hen : getF s (key / 128) F.CNT_CTRL_EN = 0) :
    acceptUnits key w [th] s = (f (ticketGiven s key r w th k) ⟨r.ctx, r.launch, r.uid, k⟩, []) := by
  have hcount (q : Rill) : rillEv (ticketGiven s key r w th k) key q 0x12 (key % 128 / 32) 1 = ticketGiven s key r w th k :=
    rillEv_off ((getF_congr (rfl : (ticketGiven s key r w th k).regs = s.regs) ..).trans hen) ..
  simp only [acceptUnits, hget, hres, hfree]
  exact congrArg (fun x : State => (f x ⟨r.ctx, r.launch, r.uid, k⟩, ([] : List Nat))) (hcount _)

/-- A unit's effect leaves the rills, the contexts and what the reach counts. -/
structure Spares (reach : Nat) (s t : State) : Prop where
  runnels : t.runnels = s.runnels
  sched : t.sched = s.sched
  uncounted : getF s reach F.CNT_CTRL_EN = 0 → getF t reach F.CNT_CTRL_EN = 0

theorem findLaunch_congr {u : State} (h : t.sched = u.sched) (ctx lid : Nat) : findLaunch t ctx lid = findLaunch u ctx lid := by
  simp only [findLaunch, findCtx, h]

/-- The rill of an accepted operation, at its next instruction. -/
theorem accepted_of (h : Issues s s1 a op m w) (hfree : freeTicket m = some k) {u : State}
    (hsched : u.sched = (updLaunch s m.ctx m.launch (fun l => { l with ops := l.ops + 1 })).sched) :
    Accepted s (noteBlock (putRill u (keyOf a) { ticketRill m w th k with wait := .none, pc := m.pc + 8 }) m.ctx) a m w th k := by
  obtain ⟨hlt, -⟩ := freeTicket_spec hfree
  have hrill : getRill (noteBlock (putRill u (keyOf a) { ticketRill m w th k with wait := .none, pc := m.pc + 8 }) m.ctx) (keyOf a)
      = some { ticketRill m w th k with wait := .none, pc := m.pc + 8 } := by
    rw [noteBlock_frame]
    exact getRill_putRill ..
  have hget (th' : Nat) {n : Nat} (hn : n < 64) :
      (ticketRill m w th k).get th' n = if th' = th ∧ n = fD w then k * 65536 % 2 ^ 32 else m.get th' n :=
    Rill.get_put (r := { m with tickets := mins m.tickets k none }) h.regs_sorted th (fD w) _ _ th' (fD_lt w) hn
  refine ⟨⟨_, hrill, rfl, rfl, ?_, mfind_mins_same .., fun j hj => mfind_mins_ne hj _ h.tickets_sorted, fun th' n hn hne => ?_⟩, fun l hl => ?_⟩
  · refine (hget th (fD_lt w)).trans ?_
    rw [if_pos ⟨rfl, rfl⟩, Nat.mod_eq_of_lt (by omega)]
  · refine (hget th' hn).trans (if_neg fun heq => ?_)
    exact hne.elim (· heq.1) (· heq.2)
  · refine (findLaunch_noteBlock ..).trans ((findLaunch_congr hsched ..).trans ?_)
    rw [findLaunch_updLaunch, hl]
    · rfl
    · exact fun _ => rfl

/-! ### The instruction (R216, R226) -/

/-- What a unit operation does once its threads have tried. -/
def unitTried (w key : Nat) (m : Rill) (x : State × List Nat) : RStep :=
  match getRill x.1 key with
  | none => .done x.1 m
  | some r => if x.2.isEmpty then .done x.1 r else .stay x.1 { r with wait := .unit w (thMask x.2) }

/-- A unit operation at its issue. -/
def unitBody (a : RillAt) (fmt : Nat → Bool) (bad : Rill → Nat → Nat → Bool) (s : State) (i : Issue) : RStep :=
  guardFmt s i (bits i.w 36 28 == 0 && fmt i.w) <|
  guardUpset s i a.upset false fun s =>
  guardPoison s i (bad i.r i.w) <|
  if unitsHeld s i.r.ctx then .stay s { i.r with wait := .unit i.w (thMask i.ts) }
  else unitTried i.w i.key i.r (acceptUnits i.key i.w i.ts (putRill s i.key i.r))

theorem unitOp_eq (s : State) (a : RillAt) (op : Nat) (fmt : Nat → Bool) (bad : Rill → Nat → Nat → Bool) :
    unitOp s a op fmt bad = issue s a (· == op) (unitBody a fmt bad) := rfl

/-- The checks of a unit operation are met, by its one thread. -/
def UnitChecked (s : State) (m : Rill) (w th : Nat) (fmt : Nat → Bool) (bad : Rill → Nat → Nat → Bool) : Prop :=
  bits w 36 28 = 0 ∧ fmt w = true ∧ threads m w = [th] ∧ bad m w th = false ∧ unitsHeld s m.ctx = false

/-- What a unit operation of one thread does after its checks. -/
theorem unitBody_checked (h : Issues s s1 a op m w) (hchk : UnitChecked s m w th fmt bad) :
    unitBody a fmt bad s1 (issueOf a m w) = unitTried w (keyOf a) m (acceptUnits (keyOf a) w [th] (putRill s1 (keyOf a) m)) := by
  obtain ⟨hzero, hfmt, hts, hbad, hheld⟩ := hchk
  have hheld1 : unitsHeld s1 m.ctx = false := by
    rw [h.fetched]
    exact hheld
  have hclean : ∀ th' ∈ (issueOf a m w).ts, bad m w th' = false := by
    intro th' hth'
    obtain rfl : th' = th := by simpa [issueOf, hts] using hth'
    exact hbad
  have hok : (bits w 36 28 == 0 && fmt w) = true := by simp [hzero, hfmt]
  refine (guardFmt_ok hok _).trans ?_
  rw [h.upset, guardUpset_none (i := issueOf a m w) h.unarmed]
  refine (guardPoison_clean hclean _).trans ?_
  simp only [issueOf, hheld1, hts, Bool.false_eq_true, if_false]

/-- The queue of the unit takes the operation. -/
theorem unitOp_accepts (h : Issues s s1 a op m w) (hchk : UnitChecked s m w th fmt bad) (hfree : freeTicket m = some k)
    (hres : unitRes (putRill s1 (keyOf a) m) a.reach m w th = .accept f)
    (ht : f (ticketGiven s1 (keyOf a) m w th k) ⟨m.ctx, m.launch, m.uid, k⟩ = t) (hspare : Spares a.reach (ticketGiven s1 (keyOf a) m w th k) t) :
    Accepted s (unitOp s a op fmt bad) a m w th k
      ∧ (unitOp s a op fmt bad).tiles = t.tiles ∧ (unitOp s a op fmt bad).flume = t.flume ∧ (unitOp s a op fmt bad).mem = t.mem := by
  have hgiven : ticketGiven (putRill s1 (keyOf a) m) (keyOf a) m w th k = ticketGiven s1 (keyOf a) m w th k := by
    unfold ticketGiven
    rw [putRill_putRill]
  have hunits : acceptUnits (keyOf a) w [th] (putRill s1 (keyOf a) m) = (t, []) := by
    rw [← ht, ← hgiven]
    refine acceptUnits_accepts (getRill_putRill ..) ?_ hfree ?_
    · rw [h.key_div]
      exact hres
    · rw [h.key_div]
      exact h.uncounted
  have hrill : getRill t (keyOf a) = some (ticketRill m w th k) := by
    unfold getRill
    rw [hspare.runnels]
    exact getRill_putRill ..
  have hbody : unitBody a fmt bad s1 (issueOf a m w) = .done t (ticketRill m w th k) := by
    rw [unitBody_checked h hchk, hunits]
    simp only [unitTried, hrill, List.isEmpty_nil, if_true]
  have hmoved : ({ ticketRill m w th k with pc := (ticketRill m w th k).pc + 8 } : Rill)
      = { ticketRill m w th k with wait := .none, pc := m.pc + 8 } :=
    congrArg (fun x => ({ ticketRill m w th k with wait := x, pc := m.pc + 8 } : Rill)) h.idle
  have hlaunch : t.sched = (updLaunch s m.ctx m.launch (fun l => { l with ops := l.ops + 1 })).sched := by
    rw [hspare.sched, h.fetched]
    rfl
  have hen : getF t a.reach F.CNT_CTRL_EN = 0 := hspare.uncounted h.uncounted
  rw [unitOp_eq, issue_done h hbody hen, hmoved]
  refine ⟨accepted_of h hfree hlaunch, ?_⟩
  rw [noteBlock_frame]
  exact ⟨rfl, rfl, rfl⟩

theorem thMask_single (th : Nat) : thMask [th] = 2 ^ th := by
  refine Nat.eq_of_testBit_eq fun j => ?_
  rw [thMask, testBit_maskOf, Nat.testBit_two_pow]
  simp [eq_comm]

/-- The unit's queue is full: the rill is held. -/
theorem unitOp_full (h : Issues s s1 a op m w) (hchk : UnitChecked s m w th fmt bad)
    (hres : unitRes (putRill s1 (keyOf a) m) a.reach m w th = .full) :
    unitOp s a op fmt bad = noteBlock (putRill s1 (keyOf a) { m with wait := .unit w (2 ^ th) }) m.ctx := by
  have hunits : acceptUnits (keyOf a) w [th] (putRill s1 (keyOf a) m) = (putRill s1 (keyOf a) m, [th]) := by
    refine acceptUnits_full (getRill_putRill ..) ?_
    rw [h.key_div]
    exact hres
  have hbody : unitBody a fmt bad s1 (issueOf a m w) = .stay (putRill s1 (keyOf a) m) { m with wait := .unit w (2 ^ th) } := by
    rw [unitBody_checked h hchk, hunits, ← thMask_single]
    simp only [unitTried, getRill_putRill, List.isEmpty_cons, Bool.false_eq_true, if_false]
  have hen : getF (putRill s1 (keyOf a) m) a.reach F.CNT_CTRL_EN = 0 := h.uncounted
  rw [unitOp_eq, issue_stay h hbody (fun _ => RWait.noConfusion) RWait.noConfusion hen, putRill_putRill]

/-- The unit rejects the operation. -/
theorem unitOp_rejects (h : Issues s s1 a op m w) (hchk : UnitChecked s m w th fmt bad) {st : Nat}
    (hres : unitRes (putRill s1 (keyOf a) m) a.reach m w th = .reject st) : Rejected s1 (unitOp s a op fmt bad) a m w th st := by
  have hunits : acceptUnits (keyOf a) w [th] (putRill s1 (keyOf a) m) = (putRill s1 (keyOf a) (m.put th (fD w) st false), []) := by
    rw [← putRill_putRill s1 (keyOf a) m (m.put th (fD w) st false)]
    refine acceptUnits_rejects (getRill_putRill ..) ?_
    rw [h.key_div]
    exact hres
  have hbody : unitBody a fmt bad s1 (issueOf a m w) = .done (putRill s1 (keyOf a) (m.put th (fD w) st false)) (m.put th (fD w) st false) := by
    rw [unitBody_checked h hchk, hunits]
    simp only [unitTried, getRill_putRill, List.isEmpty_nil, if_true]
  have hen : getF (putRill s1 (keyOf a) (m.put th (fD w) st false)) a.reach F.CNT_CTRL_EN = 0 := h.uncounted
  unfold Rejected
  rw [unitOp_eq, issue_done h hbody hen, putRill_putRill]
  rfl

end Units

end Sys2Proof.Machine
end

section
/-!
PROOFS. Scope: passes, scale writes and programs that join their queues, the operations a rill is held for, and waits on tickets (R143, R144,
R226-R228, R243).
-/
namespace Sys2Proof.Machine

section Queues
variable {s s1 t : State} {a : RillAt} {op w th k reach : Nat} {m r : Rill} {f : State → OpRef → State}

/-! ### What a unit says (R143, R227, R243) -/

theorem unitRes_pass (hop : fOp w = 0xC0) : unitRes s reach r w th = passRes s reach r w th := by
  simp only [unitRes, hop]

theorem unitRes_tscale (hop : fOp w = 0xC1) : unitRes s reach r w th = tscaleRes s reach r w th := by
  simp only [unitRes, hop]

theorem unitRes_flaunch (hop : fOp w = 0xC2) : unitRes s reach r w th = flaunchRes s reach r w th := by
  simp only [unitRes, hop]

theorem unitRes_fetch (hop : fOp w = 0xC3) : unitRes s reach r w th = fetchRes s r w th := by
  simp only [unitRes, hop]

/-- A pass that is accepted joins the queue of its tile. -/
theorem passRes_accept (h : passRes s reach r w th = .accept f) :
    f = fun s op => enqueue s reach (bits (passDesc r w th) 0 6) { no := 0, slot := r.rslot, op := op, desc := passDesc r w th } := by
  unfold passRes at h
  dsimp only at h
  split at h
  · cases h
  · split at h
    · cases h
    · split at h
      · cases h
      · exact (UnitRes.accept.inj h).symm

theorem tscaleRes_accept (h : tscaleRes s reach r w th = .accept f) :
    f = fun s op => enqueue s reach (r.get th (fA w)) { no := 0, slot := r.rslot, op := op, scaleWrite := some (r.get th (fB w), r.get th (fC w)) } := by
  unfold tscaleRes at h
  dsimp only at h
  split at h
  · cases h
  · split at h
    · cases h
    · split at h
      · cases h
      · exact (UnitRes.accept.inj h).symm

/-- A program that is accepted joins those of its engine, as they are now. -/
theorem flaunchRes_accept (h : flaunchRes s reach r w th = .accept f) :
    f = fun s op => putProgs s (progKey reach (r.get th (fB w) % 8) r.rslot)
      (getProgs s (progKey reach (r.get th (fB w) % 8) r.rslot) ++ [{ op := op, addr := r.get64 th (fA w), arg := r.get th (fC w) }]) := by
  unfold flaunchRes at h
  dsimp only at h
  split at h
  · cases h
  · split at h
    · cases h
    · split at h
      · cases h
      · exact (UnitRes.accept.inj h).symm

/-- A tile's queue with an entry more. -/
theorem getTile_enqueue (ht : mSorted none s.tiles = true) (reach tile : Nat) (p : TPass) :
    (getTile (enqueue s reach tile p) reach tile).queue
      = (getTile s reach tile).queue ++ [{ p with no := (getTile s reach tile).nextNo, accepted := cyc s reach }] := by
  refine congrArg Tile.queue (?_ : getTile (enqueue s reach tile p) reach tile
    = { getTile s reach tile with
        queue := (getTile s reach tile).queue ++ [{ p with no := (getTile s reach tile).nextNo, accepted := cyc s reach }]
        nextNo := (getTile s reach tile).nextNo + 1 })
  exact mget_mset_same _ _ _ ht

theorem Spares.enqueue (s : State) (tile : Nat) (p : TPass) : Spares reach s (enqueue s reach tile p) := ⟨rfl, rfl, id⟩

theorem Issues.tiles (h : Issues s s1 a op m w) : s1.tiles = s.tiles := (congrArg State.tiles h.fetched :)

theorem Issues.tiles_sorted (h : Issues s s1 a op m w) : mSorted none s1.tiles = true := by
  obtain ⟨-, -, -, -, -, -, htiles⟩ := (State.wf_iff s).mp h.wf
  rw [h.tiles]
  exact htiles

theorem getTile_congr (h : t.tiles = s.tiles) (reach tile : Nat) : getTile t reach tile = getTile s reach tile := by
  rw [getTile, getTile, h]

/-- What joins a tile's queue from an instruction at its issue. -/
theorem queue_joined (h : Issues s s1 a op m w) {tile : Nat} {p : TPass} (ht : t.tiles = (enqueue (ticketGiven s1 (keyOf a) m w th k) a.reach tile p).tiles) :
    (getTile t a.reach tile).queue = (getTile s a.reach tile).queue ++ [{ p with no := (getTile s a.reach tile).nextNo, accepted := cyc s1 a.reach }] := by
  rw [getTile_congr ht, getTile_enqueue (s := ticketGiven s1 (keyOf a) m w th k) h.tiles_sorted, getTile_congr (t := ticketGiven s1 (keyOf a) m w th k) h.tiles]
  rfl

/-- The programs of an engine's slot with one more. -/
theorem getProgs_append (s : State) (key : Nat) (p : Prog) : getProgs (putProgs s key (getProgs s key ++ [p])) key = getProgs s key ++ [p] := by
  have hne : getProgs s key ++ [p] ≠ [] := by simp
  show ((mfind (mset [] s.flume.progs key (getProgs s key ++ [p])) key).getD []) = _
  rw [mset, if_neg hne, mfind_mins_same]
  rfl

theorem getProgs_congr (h : t.flume = s.flume) (key : Nat) : getProgs t key = getProgs s key := by
  rw [getProgs, getProgs, h]

theorem bitList_two_pow {n : Nat} (h : th < n) : bitList (2 ^ th) n = [th] := by
  have htest : (fun i => (2 ^ th).testBit i) = fun i => i == th := by
    funext i
    simp [Nat.testBit_two_pow, Bool.beq_eq_decide_eq, eq_comm]
  show (List.range n).filter (fun i => (2 ^ th).testBit i) = [th]
  rw [htest, List.filter_beq, List.count_range]
  simp [h]

/-! ### PASS, TSCALE and FLAUNCH (R143, R227, R243) -/

/-- No register of a group is poisoned. -/
theorem badRegs_clean {n c : Nat} (h : ∀ j, j < n → r.bad th (c + j) = false) : badRegs r th c n = false := by
  refine Bool.eq_false_iff.mpr fun hany => ?_
  obtain ⟨j, hj, hbad⟩ := List.any_eq_true.mp hany
  rw [h j (List.mem_range.mp hj)] at hbad
  cases hbad

/-- What one thread of a resident context with a free ticket issues. -/
structure OneThread (s : State) (m : Rill) (w th k : Nat) : Prop where
  thread : threads m w = [th]
  plain : bits w 36 28 = 0
  resident : unitsHeld s m.ctx = false
  ticket : freeTicket m = some k

section Instructions
variable (h1 : OneThread s m w th k)
include h1

theorem OneThread.checked {fmt : Nat → Bool} {bad : Rill → Nat → Nat → Bool} (hfmt : fmt w = true) (hbad : bad m w th = false) :
    UnitChecked s m w th fmt bad :=
  ⟨h1.plain, hfmt, h1.thread, hbad, h1.resident⟩

/-- The checks of PASS. -/
theorem OneThread.pass (hgroup : fA w % 4 = 0) (hclean : ∀ j, j < 4 → m.bad th (fA w + j) = false) :
    UnitChecked s m w th (fun w => fA w % 4 == 0) (fun q w th => badRegs q th (fA w) 4) :=
  h1.checked (beq_iff_eq.mpr hgroup) (badRegs_clean hclean)

theorem rillPass_accepts (h : Issues s s1 a 0xC0 m w) (hgroup : fA w % 4 = 0) (hclean : ∀ j, j < 4 → m.bad th (fA w + j) = false)
    (hres : passRes s1 a.reach m w th = .accept f) :
    Gives (.rillPass a) s fun t => Accepted s t a m w th k
      ∧ ∃ p : TPass, (getTile t a.reach (bits (passDesc m w th) 0 6)).queue = (getTile s a.reach (bits (passDesc m w th) 0 6)).queue ++ [p]
        ∧ p.desc = passDesc m w th ∧ p.slot = m.rslot ∧ p.op = ⟨m.ctx, m.launch, m.uid, k⟩ ∧ p.scaleWrite = none := by
  have hf := passRes_accept hres
  obtain ⟨hacc, htiles, -, -⟩ := unitOp_accepts h (h1.pass hgroup hclean) h1.ticket ((unitRes_pass h.opcode).trans hres) rfl (hf ▸ .enqueue ..)
  rw [hf] at htiles
  exact ⟨_, rfl, hacc, _, queue_joined h htiles, rfl, rfl, rfl, rfl⟩

theorem rillPass_full (h : Issues s s1 a 0xC0 m w) (hgroup : fA w % 4 = 0) (hclean : ∀ j, j < 4 → m.bad th (fA w + j) = false)
    (hres : passRes s1 a.reach m w th = .full) :
    exec (.rillPass a) s = .next (noteBlock (putRill s1 (keyOf a) { m with wait := .unit w (2 ^ th) }) m.ctx) :=
  congrArg Host.Outcome.next (unitOp_full h (h1.pass hgroup hclean) ((unitRes_pass h.opcode).trans hres))

theorem rillPass_rejects (h : Issues s s1 a 0xC0 m w) (hgroup : fA w % 4 = 0) (hclean : ∀ j, j < 4 → m.bad th (fA w + j) = false) {st : Nat}
    (hres : passRes s1 a.reach m w th = .reject st) : Gives (.rillPass a) s fun t => Rejected s1 t a m w th st :=
  ⟨_, rfl, unitOp_rejects h (h1.pass hgroup hclean) ((unitRes_pass h.opcode).trans hres)⟩

theorem rillTscale_accepts (h : Issues s s1 a 0xC1 m w) (hA : m.bad th (fA w) = false) (hB : m.bad th (fB w) = false) (hC : m.bad th (fC w) = false)
    (hres : tscaleRes s1 a.reach m w th = .accept f) :
    Gives (.rillTscale a) s fun t => Accepted s t a m w th k
      ∧ ∃ p : TPass, (getTile t a.reach (m.get th (fA w))).queue = (getTile s a.reach (m.get th (fA w))).queue ++ [p]
        ∧ p.scaleWrite = some (m.get th (fB w), m.get th (fC w)) := by
  have hchk : UnitChecked s m w th (fun _ => true) (fun q w th => q.bad th (fA w) || q.bad th (fB w) || q.bad th (fC w)) :=
    h1.checked rfl (by simp only [hA, hB, hC, Bool.or_self])
  have hf := tscaleRes_accept hres
  obtain ⟨hacc, htiles, -, -⟩ := unitOp_accepts h hchk h1.ticket ((unitRes_tscale h.opcode).trans hres) rfl (hf ▸ .enqueue ..)
  rw [hf] at htiles
  exact ⟨_, rfl, hacc, _, queue_joined h htiles, rfl⟩

theorem rillFlaunch_accepts (h : Issues s s1 a 0xC2 m w) (hpair : fA w % 2 = 0) (hA : ∀ j, j < 2 → m.bad th (fA w + j) = false)
    (hB : m.bad th (fB w) = false) (hC : m.bad th (fC w) = false) (hres : flaunchRes s1 a.reach m w th = .accept f) :
    Gives (.rillFlaunch a) s fun t => Accepted s t a m w th k
      ∧ ∃ p : Prog, getProgs t (progKey a.reach (m.get th (fB w) % 8) m.rslot) = getProgs s (progKey a.reach (m.get th (fB w) % 8) m.rslot) ++ [p]
        ∧ p.addr = m.get64 th (fA w) ∧ p.arg = m.get th (fC w) ∧ p.op = ⟨m.ctx, m.launch, m.uid, k⟩ := by
  have hchk : UnitChecked s m w th (fun w => fA w % 2 == 0) (fun q w th => badRegs q th (fA w) 2 || q.bad th (fB w) || q.bad th (fC w)) :=
    h1.checked (beq_iff_eq.mpr hpair) (by simp only [badRegs_clean hA, hB, hC, Bool.or_self])
  have hf := flaunchRes_accept hres
  obtain ⟨hacc, -, hflume, -⟩ := unitOp_accepts h hchk h1.ticket ((unitRes_flaunch h.opcode).trans hres) rfl (hf ▸ ⟨rfl, rfl, id⟩)
  rw [hf] at hflume
  refine ⟨_, rfl, hacc, { op := ⟨m.ctx, m.launch, m.uid, k⟩, addr := m.get64 th (fA w), arg := m.get th (fC w) }, ?_, rfl, rfl, rfl⟩
  have hsame : s1.flume = s.flume := (congrArg State.flume h.fetched :)
  refine (getProgs_congr hflume _).trans ((getProgs_append (ticketGiven s1 (keyOf a) m w th k) _ _).trans ?_)
  exact congrArg (· ++ _) (getProgs_congr hsame _)

/-- The operation a rill is held for is tried again and accepted. -/
theorem unitOpAcceptance_accepts (h : Issues s s1 a 0xC0 m w) (hlt : th < 32)
    (hres : unitRes s a.reach { m with wait := .unit w (2 ^ th) } w th = .accept f) :
    Gives (.unitOpAcceptance a) (putRill s (keyOf a) { m with wait := .unit w (2 ^ th) }) fun t => Accepted s t a m w th k := by
  have hpass : passRes s a.reach { m with wait := .unit w (2 ^ th) } w th = .accept f := (unitRes_pass h.opcode).symm.trans hres
  have hen : getF s a.reach F.CNT_CTRL_EN = 0 := (getF_congr h.regs ..).symm.trans h.uncounted
  have hgo : ¬ (unitsHeld s m.ctx ∨ mayIssue s a.reach m = false ∨ 4 ≤ a.runnel ∨ 32 ≤ a.slot) := by
    obtain ⟨hrunnel, hslot⟩ := h.slot_lt
    simp only [h1.resident, h.may, Bool.false_eq_true, Bool.true_eq_false, false_or]
    omega
  have hbits := bitList_two_pow hlt
  have hunits := acceptUnits_accepts (s := putRill s (keyOf a) { m with wait := .unit w (2 ^ th) }) (w := w) (th := th) (f := f) (k := k)
    (getRill_putRill ..) (by rw [h.key_div, unitRes_pass h.opcode]; exact hpass) h1.ticket (by rw [h.key_div]; exact hen)
  have hf := passRes_accept hpass
  have hrun : exec (.unitOpAcceptance a) (putRill s (keyOf a) { m with wait := .unit w (2 ^ th) })
      = .next (noteBlock (putRill (f (ticketGiven (putRill s (keyOf a) { m with wait := .unit w (2 ^ th) }) (keyOf a) { m with wait := .unit w (2 ^ th) } w th k)
          ⟨m.ctx, m.launch, m.uid, k⟩) (keyOf a) { ticketRill m w th k with wait := .none, pc := m.pc + 8 }) m.ctx) := by
    have hrill : getRill (f (ticketGiven (putRill s (keyOf a) { m with wait := .unit w (2 ^ th) }) (keyOf a) { m with wait := .unit w (2 ^ th) } w th k)
        ⟨m.ctx, m.launch, m.uid, k⟩) (keyOf a) = some (ticketRill { m with wait := .unit w (2 ^ th) } w th k) := by
      rw [hf]
      exact getRill_putRill ..
    refine congrArg Host.Outcome.next ?_
    simp only [show rillKey a.reach a.runnel a.slot = keyOf a from rfl, getRill_putRill]
    refine (if_neg hgo).trans ?_
    rw [hbits, hunits]
    simp only [hrill, List.isEmpty_nil, if_true]
    rfl
  refine ⟨_, hrun, accepted_of h h1.ticket ?_⟩
  rw [hf]
  rfl

end Instructions

end Queues

/-! ### UWAIT and UPOLL (R228) -/

section Waits
variable {s s1 : State} {a : RillAt} {w : Nat} {m : Rill}

/-- The ticket a thread names. -/
def namedTicket (m : Rill) (w th : Nat) : Nat := m.get th (fA w) % 64

/-- The pairs of thread and ticket a UWAIT waits for. -/
def waitedFor (m : Rill) (w : Nat) : List (Nat × Nat) := (threads m w).map (fun th => (th, namedTicket m w th))

theorem exec_rillUwait (h : Issues s s1 a 0xC4 m w) (hzero : bits w 36 28 = 0) (hne : threads m w ≠ []) (hclean : ∀ th ∈ threads m w, m.bad th (fA w) = false)
    {q : Rill} (hq : finishWait { m with wait := .ticket (fD w) (waitedFor m w) } = q) (hpage : ∀ ps, q.wait ≠ .page ps) (hsluice : q.wait ≠ .sluice) :
    exec (.rillUwait a) s = .next (noteBlock (putRill s1 (keyOf a) q) m.ctx) := by
  subst hq
  refine congrArg Host.Outcome.next (issue_stay h ?_ hpage hsluice h.uncounted)
  refine (guardFmt_ok (beq_iff_eq.mpr hzero) _).trans ?_
  rw [h.upset, guardUpset_none (i := issueOf a m w) h.unarmed]
  refine (guardPoison_clean (i := issueOf a m w) hclean _).trans (if_neg ?_)
  simpa [issueOf] using hne

/-- The rill of a UWAIT whose tickets have all completed. -/
def waitedRill (m : Rill) (w : Nat) : Rill :=
  { putEach (fD w) (fun th => (ticketStatus m (namedTicket m w th)).getD 0) (threads m w) { m with wait := .ticket (fD w) (waitedFor m w) } with
    tickets := ((threads m w).map (namedTicket m w)).foldl mdel m.tickets, wait := .none, pc := m.pc + 8 }

theorem finishWait_completed (hall : ∀ th ∈ threads m w, (ticketStatus m (namedTicket m w th)).isSome = true) :
    finishWait { m with wait := .ticket (fD w) (waitedFor m w) } = waitedRill m w := by
  have hdone : (waitedFor m w).all (fun x => (ticketStatus { m with wait := .ticket (fD w) (waitedFor m w) } x.2).isSome) = true := by
    refine List.all_eq_true.mpr fun x hx => ?_
    obtain ⟨th, hth, rfl⟩ := List.mem_map.mp hx
    exact hall th hth
  simp only [finishWait, hdone, if_true]
  simp only [waitedFor, waitedRill, putEach, List.foldl_map]
  rfl

theorem finishWait_waits (hone : ∃ th ∈ threads m w, ticketStatus m (namedTicket m w th) = none) :
    finishWait { m with wait := .ticket (fD w) (waitedFor m w) } = { m with wait := .ticket (fD w) (waitedFor m w) } := by
  refine if_neg fun hall => ?_
  obtain ⟨th, hth, hnone⟩ := hone
  have hsome := List.all_eq_true.mp hall _ (List.mem_map_of_mem (f := fun th => (th, namedTicket m w th)) hth)
  have hstatus : (ticketStatus m (namedTicket m w th)).isSome = true := hsome
  rw [hnone] at hstatus
  cases hstatus

/-- UWAIT goes on with the statuses in D, and the tickets are free. -/
theorem rillUwait_completes (h : Issues s s1 a 0xC4 m w) (hzero : bits w 36 28 = 0) (hne : threads m w ≠ [])
    (hclean : ∀ th ∈ threads m w, m.bad th (fA w) = false) (hall : ∀ th ∈ threads m w, (ticketStatus m (namedTicket m w th)).isSome = true) :
    Completes (.rillUwait a) s s1 a m fun q => (∀ th, th ∉ threads m w → ∀ n, n < 64 → q.get th n = m.get th n)
      ∧ (∀ th ∈ threads m w, q.get th (fD w) = (ticketStatus m (namedTicket m w th)).getD 0 % 2 ^ 32 ∧ mfind q.tickets (namedTicket m w th) = none)
      ∧ (∀ k, (∀ th ∈ threads m w, namedTicket m w th ≠ k) → mfind q.tickets k = mfind m.tickets k) ∧ q.wait = .none := by
  have hget (th : Nat) {n : Nat} (hn : n < 64) : (waitedRill m w).get th n
      = if th ∈ threads m w ∧ n = fD w then (ticketStatus m (namedTicket m w th)).getD 0 % 2 ^ 32 else m.get th n :=
    putEach_get (fD_lt w) _ (threads m w) (r := { m with wait := .ticket (fD w) (waitedFor m w) }) h.regs_sorted th hn
  have hticket (k : Nat) : mfind (waitedRill m w).tickets k = if k ∈ (threads m w).map (namedTicket m w) then none else mfind m.tickets k :=
    mfind_foldl_mdel _ h.tickets_sorted k
  refine ⟨waitedRill m w, exec_rillUwait h hzero hne hclean (finishWait_completed hall) (fun _ => RWait.noConfusion) RWait.noConfusion,
    fun th hth n hn => (hget th hn).trans (if_neg fun hin => hth hin.1), fun th hth => ⟨(hget th (fD_lt w)).trans (if_pos ⟨hth, rfl⟩),
      (hticket _).trans (if_pos (List.mem_map_of_mem hth))⟩, fun k hk => (hticket k).trans (if_neg fun hin => ?_), rfl⟩
  obtain ⟨th, hth, heq⟩ := List.mem_map.mp hin
  exact hk th hth heq

theorem rillUwait_waits (h : Issues s s1 a 0xC4 m w) (hzero : bits w 36 28 = 0) (hne : threads m w ≠ [])
    (hclean : ∀ th ∈ threads m w, m.bad th (fA w) = false) (hone : ∃ th ∈ threads m w, ticketStatus m (namedTicket m w th) = none) :
    exec (.rillUwait a) s = .next (noteBlock (putRill s1 (keyOf a) { m with wait := .ticket (fD w) (waitedFor m w) }) m.ctx) :=
  exec_rillUwait h hzero hne hclean (finishWait_waits hone) (fun _ => RWait.noConfusion) RWait.noConfusion

/-- The rill of a UPOLL: the tickets that have completed are free. -/
def polledRill (m : Rill) (w : Nat) : Rill :=
  { putEach (fD w) (fun th => (ticketStatus m (namedTicket m w th)).getD 0xFFFF) (threads m w) m with
    tickets := (((threads m w).filter fun th => (ticketStatus m (namedTicket m w th)).isSome).map (namedTicket m w)).foldl mdel m.tickets }

theorem exec_rillUpoll (h : Issues s s1 a 0xC5 m w) (hzero : bits w 36 28 = 0) (hclean : ∀ th ∈ threads m w, m.bad th (fA w) = false) :
    exec (.rillUpoll a) s = .next (noteBlock (putRill s1 (keyOf a) { polledRill m w with pc := m.pc + 8 }) m.ctx) := by
  have htickets : (putEach (fD w) (fun th => (ticketStatus m (namedTicket m w th)).getD 0xFFFF) (threads m w) m).tickets = m.tickets :=
    (congrArg Rill.tickets (putEach_frame ..) :)
  have hpc : (polledRill m w).pc = m.pc := (congrArg Rill.pc (putEach_frame (fD w) (fun th => (ticketStatus m (namedTicket m w th)).getD 0xFFFF) (threads m w) m) :)
  rw [← hpc]
  refine congrArg Host.Outcome.next (issue_done h ?_ h.uncounted)
  refine (guardFmt_ok (beq_iff_eq.mpr hzero) _).trans ?_
  rw [h.upset, guardUpset_none (i := issueOf a m w) h.unarmed]
  refine (guardPoison_clean (i := issueOf a m w) hclean _).trans ?_
  simp only [polledRill, List.foldl_map, List.foldl_filter]
  rw [← htickets]
  rfl

/-- UPOLL answers each thread at once. -/
theorem rillUpoll_completes (h : Issues s s1 a 0xC5 m w) (hzero : bits w 36 28 = 0) (hclean : ∀ th ∈ threads m w, m.bad th (fA w) = false) :
    Completes (.rillUpoll a) s s1 a m fun q =>
      (∀ th ∈ threads m w, q.get th (fD w) = (ticketStatus m (namedTicket m w th)).getD 0xFFFF % 2 ^ 32)
        ∧ (∀ th ∈ threads m w, (ticketStatus m (namedTicket m w th)).isSome = true → mfind q.tickets (namedTicket m w th) = none)
        ∧ (∀ th ∈ threads m w, ticketStatus m (namedTicket m w th) = none → mfind q.tickets (namedTicket m w th) = mfind m.tickets (namedTicket m w th)) := by
  have hget (th : Nat) (hth : th ∈ threads m w) : (polledRill m w).get th (fD w) = (ticketStatus m (namedTicket m w th)).getD 0xFFFF % 2 ^ 32 :=
    (putEach_get (fD_lt w) _ (threads m w) h.regs_sorted th (fD_lt w)).trans (if_pos ⟨hth, rfl⟩)
  have hticket (k : Nat) := mfind_foldl_mdel (((threads m w).filter fun th => (ticketStatus m (namedTicket m w th)).isSome).map (namedTicket m w))
    h.tickets_sorted k
  refine ⟨polledRill m w, exec_rillUpoll h hzero hclean, hget, fun th hth hsome => (hticket _).trans (if_pos ?_),
    fun th _ hnone => (hticket _).trans (if_neg fun hin => ?_)⟩
  · exact List.mem_map_of_mem (List.mem_filter.mpr ⟨hth, hsome⟩)
  · obtain ⟨th', hth', heq⟩ := List.mem_map.mp hin
    have hsome := (List.mem_filter.mp hth').2
    rw [heq, hnone] at hsome
    cases hsome

end Waits

end Sys2Proof.Machine
end

section
/-!
PROOFS. Scope: bringing pages in does not see rills and contexts (R118, R126, R518).
-/
namespace Sys2Proof.Machine

/-- The same state with other rills and contexts. -/
def withRills (x : Runnels) (y : Sched) (s : State) : State := { s with runnels := x, sched := y }

section Unseen
variable {x : Runnels} {y : Sched} {s : State}

/-- Both branches of a decision that does not see them. -/
theorem ite_withRills {c : Prop} [Decidable c] {t u t' u' : State} (ht : t = withRills x y t') (hu : u = withRills x y u') :
    (if c then t else u) = withRills x y (if c then t' else u') := by
  split
  · exact ht
  · exact hu

theorem foldl_withRills {α : Type} {f : State → α → State} (hf : ∀ s a, f (withRills x y s) a = withRills x y (f s a)) (l : List α) (s : State) :
    l.foldl f (withRills x y s) = withRills x y (l.foldl f s) := by
  induction l generalizing s with
  | nil => rfl
  | cons a l ih => rw [List.foldl_cons, List.foldl_cons, hf, ih]

/-! ### Counting and metering -/

theorem putWords_withRills (isl i : Nat) (l : List Byte) (s : State) : putWords isl i l (withRills x y s) = withRills x y (putWords isl i l s) := by
  fun_induction putWords isl i l s with
  | case1 => rfl
  | case2 i b0 b1 b2 b3 l s ih => exact ih
  | case3 i l s hnil hcons =>
    rw [putWords]
    · exact hnil
    · exact hcons

theorem writeSample_withRills (isl : Nat) (r : List Byte) (s : State) : writeSample (withRills x y s) isl r = withRills x y (writeSample s isl r) := by
  unfold writeSample
  refine ite_withRills rfl ?_
  extract_lets _ _ armed head filled moved flit link counters _ _ armed' head' filled' moved' flit'
  have harmed : armed = withRills x y armed' := ite_withRills rfl rfl
  have hhead : head = head' := (congrArg (fun t : State => getF t isl F.CNT_SMP_HEAD_HEAD) harmed).trans rfl
  have hfilled : filled = withRills x y filled' := by
    unfold filled
    rw [hhead, harmed]
    exact putWords_withRills ..
  have hmoved : moved = withRills x y moved' := by
    unfold moved
    rw [hhead, hfilled]
    rfl
  unfold flit link counters
  rw [hmoved]
  exact ite_withRills rfl rfl

theorem cycleSamples_withRills (isl k sh v m n : Nat) (s : State) :
    cycleSamples (withRills x y s) isl k sh v m n = withRills x y (cycleSamples s isl k sh v m n) := by
  have hfold := foldl_withRills (x := x) (y := y) (f := fun t j => writeSample t isl (sampleRecord
    (if n = 0 then cyc s isl else min (cyc s isl) (cyc s isl + ((v / 2 ^ sh + 1 + j) * 2 ^ sh - v) - n)) k false false { unit := selectedUnit s isl k }))
    (fun s j => writeSample_withRills ..) (List.range (min m (64 - smpLevel s isl))) s
  refine ite_withRills ?_ hfold
  exact congrArg (fun t => addF t isl F.CNT_SMP_LOST_COUNT (m - min m (64 - smpLevel s isl))) hfold

theorem countOne_withRills (isl code unit slot n : Nat) (src : Source) (s : State) (k : Nat) :
    countOne isl code unit slot n src (withRills x y s) k = withRills x y (countOne isl code unit slot n src s k) := by
  unfold countOne
  refine ite_withRills ?_ rfl
  extract_lets v w _ counted saturated sh m missed counters v' w' _ counted' saturated' sh' m' missed' _
  have hcounted : counted = withRills x y counted' := rfl
  have hsaturated : saturated = withRills x y saturated' := ite_withRills rfl rfl
  have hsh : sh = sh' := (congrArg (fun t : State => getF t isl F.CNT_SEL_SHIFT k) hsaturated).trans rfl
  have hm : m = m' := congrArg (fun j => w / 2 ^ j - v / 2 ^ j) hsh
  have hmissed : missed = withRills x y missed' := by
    unfold missed
    rw [hm, hsaturated]
    exact ite_withRills rfl rfl
  unfold counters
  rw [hsh, hm, hmissed, hsaturated]
  exact ite_withRills (ite_withRills (cycleSamples_withRills ..) (ite_withRills rfl rfl)) rfl

theorem countEv_withRills (isl code unit n slot : Nat) (s : State) : countEv (withRills x y s) isl code unit n slot = withRills x y (countEv s isl code unit n slot) :=
  ite_withRills rfl (foldl_withRills (fun s k => countOne_withRills isl code unit slot n {} s k) _ s)

theorem meter_withRills (isl p n : Nat) (s : State) : meter (withRills x y s) isl p n = withRills x y (meter s isl p n) := by
  refine ite_withRills rfl (ite_withRills rfl ?_)
  have hsame : (getSluice (settleSluice (withRills x y s) isl p) isl p).waiting.getLast? = (getSluice (settleSluice s isl p) isl p).waiting.getLast? := rfl
  dsimp only
  rw [hsame]
  split <;> rfl

theorem stackRead_withRills (port a n : Nat) (s : State) : stackRead (withRills x y s) port a n = withRills x y (stackRead s port a n) := by
  have hcount : countReads (withRills x y s) port (granuleCuts a n) = withRills x y (countReads s port (granuleCuts a n)) :=
    foldl_withRills (fun s b => countEv_withRills b.1 0x30 b.2.1 b.2.2 0xFF s) _ s
  have hmeter := foldl_withRills (x := x) (y := y) (f := fun s b => meter s b.1 b.2.1 b.2.2) (fun s b => meter_withRills b.1 b.2.1 b.2.2 s)
    (portReqs s port (granuleCuts a n)) (countReads s port (granuleCuts a n))
  rw [← hcount] at hmeter
  exact hmeter

/-! ### Frames and pages -/

theorem freeFrame_withRills (small : Bool) (s : State) (f : Nat × Nat) : freeFrame small (withRills x y s) f = withRills x y (freeFrame small s f) := by
  unfold freeFrame
  dsimp only
  rw [show (withRills x y s).mem = s.mem from rfl]
  split
  · rfl
  · exact ite_withRills rfl rfl

theorem reback_withRills (s : State) : reback (withRills x y s) = withRills x y (reback s) := by
  refine foldl_withRills (fun s p => ?_) _ s
  dsimp only
  rw [show roomiest (withRills x y s) (onlineStacks (withRills x y s) (p.1 / 65536 / 4)) = roomiest s (onlineStacks s (p.1 / 65536 / 4)) from rfl]
  split <;> rfl

theorem dropPage_withRills (s : State) (p : Page) : dropPage (withRills x y s) p = withRills x y (dropPage s p) := by
  have hfreed := foldl_withRills (x := x) (y := y) (freeFrame_withRills (smallPage s p)) p.frame s
  refine Eq.trans ?_ (reback_withRills _)
  exact congrArg (fun t : State => reback (updMem t fun m => { m with pages := m.pages.filter fun q => !samePage p q })) hfreed

theorem evictOne_withRills (s : State) (ok : Page → Bool) : evictOne (withRills x y s) ok = (evictOne s ok).map (withRills x y) := by
  simp only [evictOne, Option.map_map]
  refine congrArg (fun g => Option.map g (oldestPage (s.mem.pages.filter fun p => (p.resident || p.asleep) && p.pins == 0 && ok p))) (funext fun p => ?_)
  exact congrArg (fun t : State => addF t 57 F.TM_EVICT_COUNT (p.frame.length - p.lost)) (dropPage_withRills s p)

/-- An answer with its state, the other rills and contexts put in. -/
def withRillsOf {α : Type} (x : Runnels) (y : Sched) (r : State × α) : State × α := (withRills x y r.1, r.2)

theorem allocLoop_withRills {α : Type} (d die : Nat) {within : State → Bool} {attempt : State → Option (State × α)}
    (hin : ∀ s, within (withRills x y s) = within s) (htry : ∀ s, attempt (withRills x y s) = (attempt s).map (withRillsOf x y)) (n : Nat) (s : State) :
    allocLoop d die within attempt n (withRills x y s) = withRillsOf x y (allocLoop d die within attempt n s) := by
  induction n generalizing s with
  | zero => rfl
  | succ n ih =>
    simp only [allocLoop, hin, htry, evictOne_withRills]
    split
    · cases attempt s with
      | some r => rfl
      | none =>
        cases evictOne s (fun p => p.frame.any (fun f => f.1 / 4 == die)) with
        | some t => exact ih t
        | none => rfl
    · cases evictOne s (fun p => domOf p.nsid == d) with
      | some t => exact ih t
      | none => rfl

theorem takeExtents_withRills (d die used n : Nat) (s : State) :
    takeExtents d die used n (withRills x y s) = (takeExtents d die used n s).map (withRillsOf x y) := by
  induction n generalizing s with
  | zero => rfl
  | succ n ih =>
    simp only [takeExtents]
    rw [show roomiest (withRills x y s) (onlineStacks (withRills x y s) die) = roomiest s (onlineStacks s die) from rfl]
    split
    · rfl
    · rename_i k _
      have hnext := ih (chargeStack (holdExt { s with mem := { s.mem with frames := mins s.mem.frames (k * 65536 + lowestPhys s k) ⟨d, used, false⟩ } }
        k (lowestPhys s k)) d 2)
      rw [Option.map_map]
      refine (congrArg (Option.map fun r : State × List (Nat × Nat) => (r.1, (k, lowestPhys s k) :: r.2)) hnext).trans ?_
      rw [Option.map_map]
      rfl

theorem framesFor_withRills (s : State) (o : Obj) (die n : Nat) : framesFor (withRills x y s) o die n = withRillsOf x y (framesFor s o die n) := by
  unfold framesFor
  dsimp only
  split
  · refine allocLoop_withRills (s := s) _ _ (fun _ => rfl) (fun s => ?_) _
    rw [show partFrame (withRills x y s) die = partFrame s die from rfl]
    split
    · rfl
    · exact takeExtents_withRills ..
  · exact allocLoop_withRills (s := s) _ _ (fun _ => rfl) (takeExtents_withRills _ _ _ _) _

theorem startPage_withRills (s : State) (o : Obj) (idx die : Nat) : startPage (withRills x y s) o idx die = withRillsOf x y (startPage s o idx die) := by
  unfold startPage
  rw [framesFor_withRills]
  cases framesFor s o die (ceilDiv (pageBytes o) MiB2) with
  | mk t r => cases r <;> rfl

theorem restartPage_withRills (s : State) (o : Obj) (p : Page) : restartPage (withRills x y s) o p = withRillsOf x y (restartPage s o p) := by
  unfold restartPage
  rw [framesFor_withRills]
  cases framesFor s o (((p.frame.find? (fun f => decide (16 ≤ f.1))).map (fun f => (f.1 - 16) / 4)).getD 0) p.lost with
  | mk t r => cases r <;> rfl

theorem bringPage_withRills (s : State) (o : Obj) (i die : Nat) : bringPage (withRills x y s) o i die = withRillsOf x y (bringPage s o i die) := by
  unfold bringPage
  rw [show findPage (withRills x y s) o.nsid o.id i = findPage s o.nsid o.id i from rfl]
  split
  · split
    · exact restartPage_withRills ..
    · rfl
  · exact startPage_withRills ..

/-- Bringing pages in does not see the rills and the contexts, and leaves them. -/
theorem startPages_withRills (o : Obj) (die : Nat) (l : List Nat) (s : State) :
    startPages o die l (withRills x y s) = withRillsOf x y (startPages o die l s) := by
  induction l generalizing s with
  | nil => rfl
  | cons i l ih =>
    rw [startPages_cons, startPages_cons, bringPage_withRills]
    cases bringPage s o i die with
    | mk t r =>
      cases r with
      | error e => rfl
      | ok u => exact ih t

end Unseen

end Sys2Proof.Machine
end

section
/-!
PROOFS. Scope: fetches that are accepted, FETCH, and what O36 says of unit operations (R126, R227).
-/
namespace Sys2Proof.Machine

/-! ### A fetch that is accepted (R116, R117, R126) -/

section Accept
variable {s u : State} {o : Obj} {pages : List Nat} {off n die deadline : Nat} {who : FetchFor} {pin : Bool}

/-- The fetch a request becomes. -/
def newFetch (s : State) (o : Obj) (pages : List Nat) (off n die deadline : Nat) (who : FetchFor) (pin : Bool) : Fetch :=
  { pin := pin, id := s.mem.nextFetch, nsid := o.nsid, obj := o.id, pages := pages, die := die, accepted := cyc s 57, deadline := deadline
    issuer := who, expired := false, spilled := false, newKib := 0, offset := off, bytes := n }

/-- The state with its next fetch numbered. -/
def fetchNumbered (s : State) : State := updMem s fun m => { m with nextFetch := m.nextFetch + 1 }

/-- Its pages started, the request stays outstanding as a fetch. -/
theorem acceptFetch_accepts (hq : o.quarantined = false) (hu : startPages o die pages (fetchNumbered s) = (u, .ok ())) :
    acceptFetch s o pages off n die deadline who pin
      = updMem u fun m => { m with fetches := m.fetches ++ [newFetch s o pages off n die deadline who pin] } := by
  have hu' : startPages o die pages (updMem s fun m => { m with nextFetch := m.nextFetch + 1 }) = (u, .ok ()) := hu
  simp only [acceptFetch, hq, hu', Bool.false_eq_true, if_false]
  rfl

/-- A page the headgate refuses a frame ends it. -/
theorem acceptFetch_refused (hq : o.quarantined = false) {e : Nat} (hu : startPages o die pages (fetchNumbered s) = (u, .error e)) :
    acceptFetch s o pages off n die deadline who pin = answerFetch u (newFetch s o pages off n die deadline who pin) 0x2001 0 e := by
  have hu' : startPages o die pages (updMem s fun m => { m with nextFetch := m.nextFetch + 1 }) = (u, .error e) := hu
  simp only [acceptFetch, hq, hu', Bool.false_eq_true, if_false]
  rfl

/-- A page that is there already needs no start. -/
theorem startPages_present {p : Page} {i : Nat} (hp : findPage s o.nsid o.id i = some p) (hawake : p.asleep = false) :
    startPages o die [i] s = (s, .ok ()) := by
  have hbring : bringPage s o i die = (s, .ok ()) := by simp [bringPage, hp, hawake]
  rw [startPages_cons, hbring]
  rfl

end Accept

/-! ### What a read of stack memory leaves -/

/-- Its events and its bytes change counters, sluices and registers of the event counters. -/
theorem stackRead_mem (s : State) (port a n : Nat) : (stackRead s port a n).mem = s.mem := by
  have hcount : (countReads s port (granuleCuts a n)).mem = s.mem :=
    List.foldlRecOn (motive := fun t : State => t.mem = s.mem) _ _ rfl fun t ht b _ => (congrArg State.mem (Sends.countEv ..).eq :).trans ht
  have hmeter : Metered (countReads s port (granuleCuts a n)) (stackRead s port a n) := .foldl (fun _ _ => .meter ..) _ _
  exact (congrArg State.mem hmeter.eq :).trans hcount

theorem KeepsField.stackRead {isl : Nat} {f : Field} (hf : f.still = true) (s : State) (port a n : Nat) : KeepsField isl f s (stackRead s port a n) := by
  have hmeter : Metered (countReads s port (granuleCuts a n)) (Machine.stackRead s port a n) := .foldl (fun _ _ => .meter ..) _ _
  exact (KeepsField.foldl (fun t b _ => .countEv hf t ..) s).trans (.of_regs (congrArg State.regs hmeter.eq :))

/-! ### FETCH (R126, R227) -/

section Fetches
variable {s s1 u : State} {a : RillAt} {w th k : Nat} {m : Rill} {o : Obj}

/-- The addresses a FETCH names are ones its context may reach, and its descriptor can be read and is legal. -/
structure FetchReady (s1 : State) (m : Rill) (w th x y : Nat) (d : List Byte) (o : Obj) : Prop where
  desc : m.get64 th (fA w) = x
  record : m.get64 th (fB w) = y
  descAligned : x % 32 = 0
  recordAligned : y % 32 = 0
  descAddr : unitAddr s1 m.ctx x 32 = true
  recordAddr : unitAddr s1 m.ctx y 32 = true
  sound : if regionOf s1 x = .stack then readStatus s1 x 32 = 0 else poisonedIn s1 x 32 = false
  data : rdBytes s1 x 32 = d
  obj : findObj s1 (ctxDom s1 m.ctx + 1) (le d 0 8) = some o
  zero : le d 30 2 = 0
  pin : le d 29 1 ≤ 1
  conds : ∀ e ∈ dieConds s1 (le d 28 1) ++ tierRangeConds (some o) (le d 8 8) (le d 16 8), e = 0

/-- What a FETCH orders of the object its descriptor names. -/
def fetchOrder (d : List Byte) (o : Obj) (x y : Nat) (s : State) (op : OpRef) : State :=
  let g := tierRange o (le d 8 8) (le d 16 8)
  acceptFetch (stackRead s 6 x 32) o g.1 g.2.1 g.2.2 (pickDie s (le d 28 1)) (le d 24 4) (.record y op) (le d 29 1 == 1)

namespace FetchReady
variable {x y : Nat} {d : List Byte} (hready : FetchReady s1 m w th x y d o)
include hready

/-- The rill as it is put back changes none of it. -/
theorem putRill (key : Nat) (r : Rill) : FetchReady (putRill s1 key r) m w th x y d o :=
  ⟨hready.desc, hready.record, hready.descAligned, hready.recordAligned, hready.descAddr, hready.recordAddr, hready.sound, hready.data, hready.obj,
    hready.zero, hready.pin, hready.conds⟩

theorem status : firstOf ([cond (le d 30 2 != 0 || decide (1 < le d 29 1)) 0x1002] ++ dieConds s1 (le d 28 1)
    ++ tierRangeConds (some o) (le d 8 8) (le d 16 8)) = 0 := by
  refine firstOf_zeros fun e he => ?_
  rw [List.append_assoc] at he
  obtain he | he := List.mem_append.mp he
  · obtain rfl := List.mem_singleton.mp he
    exact cond_false (by simp [hready.zero, Nat.not_lt.mpr hready.pin]) _
  · exact hready.conds e he

/-- The tier manager accepts it. -/
theorem accepted : fetchRes s1 m w th = .accept (fetchOrder d o x y) := by
  have hstatus := hready.status
  obtain ⟨rfl, rfl, hx, hy, hax, hay, hsound, rfl, hobj, -, -, -⟩ := hready
  have hgo : ¬ (m.get64 th (fA w) % 32 ≠ 0 ∨ m.get64 th (fB w) % 32 ≠ 0 ∨ unitAddr s1 m.ctx (m.get64 th (fA w)) 32 = false
      ∨ unitAddr s1 m.ctx (m.get64 th (fB w)) 32 = false) := by
    rintro (h | h | h | h)
    · exact h hx
    · exact h hy
    · rw [hax] at h
      cases h
    · rw [hay] at h
      cases h
  unfold fetchRes
  extract_lets xa ya nsid rs bytes die off len obj st
  have hread : rs = 0 := by
    unfold rs
    split at hsound
    case isTrue h => exact (if_pos h).trans hsound
    case isFalse h => exact (if_neg h).trans (if_neg (ne_true_of_eq_false hsound))
  have hobj' : obj = some o := hobj
  have hst : st = 0 := by
    unfold st
    rw [hobj']
    exact hstatus
  rw [if_neg hgo, if_neg (not_not_intro hread), hst, hobj']
  rfl

end FetchReady

/-- The registers a FETCH consumes are clean, and its groups aligned. -/
theorem OneThread.fetch (h1 : OneThread s m w th k) (hA : fA w % 2 = 0) (hB : fB w % 2 = 0)
    (hclean : ∀ j, j < 2 → m.bad th (fA w + j) = false ∧ m.bad th (fB w + j) = false) :
    UnitChecked s m w th (fun w => fA w % 2 == 0 && fB w % 2 == 0) (fun q w th => badRegs q th (fA w) 2 || badRegs q th (fB w) 2) := by
  refine h1.checked (by simp [hA, hB]) ?_
  rw [badRegs_clean fun j hj => (hclean j hj).1, badRegs_clean fun j hj => (hclean j hj).2]
  rfl

/-- What a FETCH has ordered, once its pages have started. -/
theorem fetchOrder_started {x y : Nat} {d : List Byte} {op : OpRef} (hq : o.quarantined = false) (r : Runnels) (c : Sched)
    (hu : startPages o (pickDie s1 (le d 28 1)) (tierRange o (le d 8 8) (le d 16 8)).1 (fetchNumbered (stackRead s1 6 x 32)) = (u, .ok ())) :
    ∃ f : Fetch, fetchOrder d o x y (withRills r c s1) op = updMem (withRills r c u) (fun z => { z with fetches := z.fetches ++ [f] })
      ∧ f.obj = o.id ∧ f.pages = (tierRange o (le d 8 8) (le d 16 8)).1 ∧ f.pin = (le d 29 1 == 1) ∧ f.deadline = le d 24 4 ∧ f.issuer = .record y op := by
  have hstart : startPages o (pickDie (withRills r c s1) (le d 28 1)) (tierRange o (le d 8 8) (le d 16 8)).1
      (fetchNumbered (stackRead (withRills r c s1) 6 x 32)) = (withRills r c u, .ok ()) := by
    rw [stackRead_withRills]
    refine (startPages_withRills (x := r) (y := c) _ _ _ (fetchNumbered (stackRead s1 6 x 32))).trans ?_
    rw [show pickDie (withRills r c s1) (le d 28 1) = pickDie s1 (le d 28 1) from rfl, hu]
    rfl
  exact ⟨_, acceptFetch_accepts hq hstart, rfl, rfl, rfl, rfl, rfl⟩

/-- What the fetch has started leaves what its reach counts. -/
theorem started_keeps {die x reach : Nat} {pages : List Nat} (hu : startPages o die pages (fetchNumbered (stackRead s1 6 x 32)) = (u, .ok ()))
    (hreach : reach < 32) : KeepsField reach F.CNT_CTRL_EN s1 u := by
  have hstill : F.CNT_CTRL_EN.still = true := by decide
  have hnumbered : KeepsField reach F.CNT_CTRL_EN (stackRead s1 6 x 32) (fetchNumbered (stackRead s1 6 x 32)) := .of_regs rfl
  have hstarted := Repages.startPages o die pages (fetchNumbered (stackRead s1 6 x 32))
  rw [hu] at hstarted
  exact (KeepsField.stackRead hstill s1 6 x 32).trans (hnumbered.trans (hstarted.field hstill (by omega)))

theorem rillFetch_accepts (h1 : OneThread s m w th k) (h : Issues s s1 a 0xC3 m w) (hA : fA w % 2 = 0) (hB : fB w % 2 = 0)
    (hclean : ∀ j, j < 2 → m.bad th (fA w + j) = false ∧ m.bad th (fB w + j) = false) {x y : Nat} {d : List Byte} (hready : FetchReady s1 m w th x y d o)
    (hq : o.quarantined = false)
    (hu : startPages o (pickDie s1 (le d 28 1)) (tierRange o (le d 8 8) (le d 16 8)).1 (fetchNumbered (stackRead s1 6 x 32)) = (u, .ok ())) :
    Gives (.rillFetch a) s fun t => Accepted s t a m w th k ∧ ∃ f : Fetch, t.mem.fetches = u.mem.fetches ++ [f] ∧ f.obj = o.id
      ∧ f.pages = (tierRange o (le d 8 8) (le d 16 8)).1 ∧ f.pin = (le d 29 1 == 1) ∧ f.deadline = le d 24 4
      ∧ f.issuer = .record y ⟨m.ctx, m.launch, m.uid, k⟩ := by
  have hres : unitRes (putRill s1 (keyOf a) m) a.reach m w th = .accept (fetchOrder d o x y) :=
    (unitRes_fetch h.opcode).trans (hready.putRill (keyOf a) m).accepted
  obtain ⟨f, hordered, hfields⟩ := fetchOrder_started (y := y) (op := ⟨m.ctx, m.launch, m.uid, k⟩) hq
    (ticketGiven s1 (keyOf a) m w th k).runnels (ticketGiven s1 (keyOf a) m w th k).sched hu
  have hsorted : mSorted none s1.regs = true := by
    obtain ⟨-, hregs, -⟩ := (State.wf_iff s).mp h.wf
    rw [h.regs]
    exact hregs
  have hspare : Spares a.reach (ticketGiven s1 (keyOf a) m w th k) (updMem (withRills (ticketGiven s1 (keyOf a) m w th k).runnels
      (ticketGiven s1 (keyOf a) m w th k).sched u) fun z => { z with fetches := z.fetches ++ [f] }) :=
    ⟨rfl, rfl, fun hen => ((started_keeps hu h.reach_lt).same hsorted).trans hen⟩
  obtain ⟨hacc, -, -, hmem⟩ := unitOp_accepts h (h1.fetch hA hB hclean) h1.ticket hres hordered hspare
  exact ⟨_, rfl, hacc, f, congrArg Mem.fetches hmem, hfields⟩

/-- The orders of a fetch of a whole tensor are legal. -/
theorem tensorConds (hgrain : o.grain = 0) {d : Nat} (hdie : d = 255 ∨ (d ≤ 3 ∧ dieExts s1 d ≠ 0)) :
    ∀ e ∈ dieConds s1 d ++ tierRangeConds (some o) 0 0, e = 0 := by
  intro e he
  obtain he | he := List.mem_append.mp he
  · simp only [dieConds, List.mem_cons, List.not_mem_nil, or_false] at he
    obtain rfl | ⟨hle, hexts⟩ := hdie
    · obtain rfl | rfl := he <;> exact cond_false rfl _
    · obtain rfl | rfl := he
      · exact cond_false (by simp [Nat.not_lt.mpr hle]) _
      · exact cond_false (by simp [hexts]) _
  · simp only [tierRangeConds, hgrain, if_true, List.mem_singleton] at he
    exact he

end Fetches

/-- Settles O36: unit operations of one thread, UWAIT and UPOLL. -/
theorem unitOperationsAndTickets : Obligations.UnitOperationsAndTickets := by
  unfold Obligations.UnitOperationsAndTickets
  refine ⟨fun s s1 a m w th k hth hzero hheld hfree => ?_, fun s s1 a m w hzero hne hclean => ?_⟩
  · have h1 : OneThread s m w th k := ⟨hth, hzero, hheld, hfree⟩
    refine ⟨fun h hgroup hclean => ⟨fun f hres => rillPass_accepts h1 h hgroup hclean hres, fun hres => rillPass_full h1 h hgroup hclean hres,
        fun st hres => rillPass_rejects h1 h hgroup hclean hres⟩,
      fun f h hA hB hC hres => rillTscale_accepts h1 h hA hB hC hres, fun f h hpair hA hB hC hres => rillFlaunch_accepts h1 h hpair hA hB hC hres, ?_, ?_,
      fun f h hres hlt => unitOpAcceptance_accepts h1 h hlt hres⟩
    · intro o h hA hB hclean x y hx hy hax hay hsound d hobj hgrain hzero' hpin hdie hoff hlen hq hpage
      obtain ⟨g, hg, hawake⟩ := hpage
      have hrange : (tierRange o (le d 8 8) (le d 16 8)).1 = [0] := by simp [tierRange, hgrain]
      have hconds : ∀ e ∈ dieConds s1 (le d 28 1) ++ tierRangeConds (some o) (le d 8 8) (le d 16 8), e = 0 := by
        rw [hoff, hlen]
        exact tensorConds hgrain hdie
      have hready : FetchReady s1 m w th x y d o := ⟨rfl, rfl, hx, hy, hax, hay, hsound, rfl, hobj, hzero', hpin, hconds⟩
      have hfind : findPage (fetchNumbered (stackRead s1 6 x 32)) o.nsid o.id 0 = some g := by
        unfold findPage fetchNumbered updMem
        rw [stackRead_mem]
        exact hg
      have hu : startPages o (pickDie s1 (le d 28 1)) (tierRange o (le d 8 8) (le d 16 8)).1 (fetchNumbered (stackRead s1 6 x 32))
          = (fetchNumbered (stackRead s1 6 x 32), .ok ()) := by
        rw [hrange]
        exact startPages_present hfind hawake
      obtain ⟨t, hrun, hacc, f, hfetches, hid, hpages, -, hdl, hiss⟩ := rillFetch_accepts h1 h hA hB hclean hready hq hu
      have hsame : (fetchNumbered (stackRead s1 6 x 32)).mem.fetches = s1.mem.fetches := (congrArg Mem.fetches (stackRead_mem s1 6 x 32) :)
      exact ⟨t, hrun, hacc, f, hsame ▸ hfetches, hid, hpages.trans hrange, hdl, hiss⟩
    · intro o u h hA hB hclean x y hx hy hax hay hsound d r hobj hzero' hpin hconds hq hu
      exact rillFetch_accepts h1 h hA hB hclean ⟨rfl, rfl, hx, hy, hax, hay, hsound, rfl, hobj, hzero', hpin, hconds⟩ hq hu
  · exact ⟨fun h hall => rillUwait_completes h hzero hne hclean hall, fun h hone => rillUwait_waits h hzero hne hclean hone,
      fun h => rillUpoll_completes h hzero hclean⟩

end Sys2Proof.Machine
end

section
/-!
PROOFS. Scope: pages of an object looked up, dropped and pinned, and the tier commands that answer at once (R115-R119, R125, R127).
-/
namespace Sys2Proof.Machine

/-! ### Pages by their object and number -/

section Pages
variable {s t : State} {n b i : Nat} {p : Page}

/-- A page of an object, by number. -/
def onPage (n b i : Nat) (p : Page) : Bool := p.nsid == n && p.obj == b && p.idx == i

theorem onPage_iff : onPage n b i p = true ↔ p.nsid = n ∧ p.obj = b ∧ p.idx = i := by
  simp [onPage, and_assoc]

theorem findPage_eq (s : State) (n b i : Nat) : findPage s n b i = s.mem.pages.find? (onPage n b i) := rfl

theorem findPage_spec (h : findPage s n b i = some p) : p ∈ s.mem.pages ∧ p.nsid = n ∧ p.obj = b ∧ p.idx = i :=
  ⟨List.mem_of_find?_eq_some h, onPage_iff.mp (List.find?_some h)⟩

theorem findPage_congr (h : t.mem.pages = s.mem.pages) (n b i : Nat) : findPage t n b i = findPage s n b i := by
  rw [findPage_eq, findPage_eq, h]

/-- Pages dropped one after the other. -/
theorem foldl_dropPage_pages (l : List Page) (s : State) :
    (l.foldl dropPage s).mem.pages = s.mem.pages.filter (fun q => !l.any (fun p => samePage p q)) := by
  induction l generalizing s with
  | nil => simp
  | cons p l ih =>
    rw [List.foldl_cons, ih, dropPage_pages, List.filter_filter]
    refine congrArg (List.filter · s.mem.pages) (funext fun q => ?_)
    rw [List.any_cons, Bool.not_or, Bool.and_comm]

/-- Dropped pages are found no more, the others as before. -/
theorem findPage_dropped (l : List Page) (s : State) (n b i : Nat) :
    findPage (l.foldl dropPage s) n b i = if l.any (onPage n b i) then none else findPage s n b i := by
  have hsame {p q : Page} (hq : onPage n b i q = true) : samePage p q = onPage n b i p := by
    obtain ⟨rfl, rfl, rfl⟩ := onPage_iff.mp hq
    simp only [samePage, onPage, Bool.beq_eq_decide_eq, eq_comm]
  rw [findPage_eq, foldl_dropPage_pages, List.find?_filter]
  split
  case isTrue hany =>
    refine List.find?_eq_none.mpr fun q _ hq => ?_
    obtain ⟨hkept, hon⟩ := of_decide_eq_true hq
    simp [hsame hon, show (l.any fun p => onPage n b i p) = true from hany] at hkept
  case isFalse hany =>
    refine (congrArg (List.find? · s.mem.pages) (funext fun q => ?_)).trans (findPage_eq s n b i).symm
    have hnone : (l.any fun p => onPage n b i p) = false := Bool.eq_false_iff.mpr hany
    cases hon : onPage n b i q with
    | false => simp
    | true => simp [hsame hon, hnone]

/-- A page that is changed and keeps its number. -/
theorem findPage_updPage_same {f : Page → Page} (hf : ∀ q, onPage n b i q = true → onPage n b i (f q) = true) :
    findPage (updPage s n b i f) n b i = (findPage s n b i).map f := by
  have hpred : (onPage n b i) ∘ (fun q : Page => if q.nsid = n ∧ q.obj = b ∧ q.idx = i then f q else q) = onPage n b i := by
    funext q
    simp only [Function.comp]
    split
    case isTrue h => rw [hf q (onPage_iff.mpr h), onPage_iff.mpr h]
    case isFalse => rfl
  simp only [findPage_eq, updPage, List.find?_map, hpred]
  cases hq : s.mem.pages.find? (onPage n b i) with
  | none => rfl
  | some q => rw [Option.map_some, if_pos (onPage_iff.mp (List.find?_some hq)), Option.map_some]

theorem findPage_updPage_ne {f : Page → Page} {n' b' i' : Nat} (hf : ∀ q, onPage n b i q = true → onPage n b i (f q) = true)
    (hne : ¬ (n' = n ∧ b' = b ∧ i' = i)) : findPage (updPage s n b i f) n' b' i' = findPage s n' b' i' := by
  have hother {q : Page} (hq : onPage n b i q = true) : onPage n' b' i' q = false := by
    obtain ⟨rfl, rfl, rfl⟩ := onPage_iff.mp hq
    exact Bool.eq_false_iff.mpr fun h => by
      obtain ⟨rfl, rfl, rfl⟩ := onPage_iff.mp h
      exact hne ⟨rfl, rfl, rfl⟩
  have hpred : (onPage n' b' i') ∘ (fun q : Page => if q.nsid = n ∧ q.obj = b ∧ q.idx = i then f q else q) = onPage n' b' i' := by
    funext q
    simp only [Function.comp]
    split
    case isTrue h => rw [hother (hf q (onPage_iff.mpr h)), hother (onPage_iff.mpr h)]
    case isFalse => rfl
  simp only [findPage_eq, updPage, List.find?_map, hpred]
  cases hq : s.mem.pages.find? (onPage n' b' i') with
  | none => rfl
  | some q =>
    rw [Option.map_some, if_neg fun h => ?_]
    have hon := List.find?_some hq
    rw [hother (onPage_iff.mpr h)] at hon
    cases hon

/-- Several pages of an object are changed alike. -/
theorem findPage_foldl_updPage {f : Page → Page} (hf : ∀ i q, onPage n b i q = true → onPage n b i (f q) = true) {l : List Nat} (hl : l.Nodup)
    (s : State) (n' b' i' : Nat) : findPage (l.foldl (fun s i => updPage s n b i f) s) n' b' i'
      = if n' = n ∧ b' = b ∧ i' ∈ l then (findPage s n' b' i').map f else findPage s n' b' i' := by
  induction l generalizing s with
  | nil => simp
  | cons i l ih =>
    obtain ⟨hi, hl⟩ := List.nodup_cons.mp hl
    rw [List.foldl_cons, ih hl]
    by_cases hkey : n' = n ∧ b' = b ∧ i' = i
    · obtain ⟨rfl, rfl, rfl⟩ := hkey
      rw [if_neg fun h => hi h.2.2, if_pos ⟨rfl, rfl, List.mem_cons_self⟩, findPage_updPage_same (hf i')]
    · rw [findPage_updPage_ne (hf i) hkey]
      have hiff : (n' = n ∧ b' = b ∧ i' ∈ i :: l) ↔ (n' = n ∧ b' = b ∧ i' ∈ l) := by
        rw [List.mem_cons]
        tauto
      simp only [hiff]

theorem foldl_updPage_frame (n b : Nat) (f : Page → Page) (l : List Nat) (s : State) :
    l.foldl (fun s i => updPage s n b i f) s = { s with mem := { s.mem with pages := (l.foldl (fun s i => updPage s n b i f) s).mem.pages } } :=
  List.foldlRecOn (motive := fun t : State => t = { s with mem := { s.mem with pages := t.mem.pages } }) l _ rfl fun _ ht i _ =>
    congrArg (fun u : State => updPage u n b i f) ht

/-- Bare pages go, the others stay. -/
theorem dropBare_pages (s : State) : (dropBare s).mem.pages = s.mem.pages.filter (fun p => !bare p) := rfl

theorem findPage_dropBare (h : findPage s n b i = some p) (hp : bare p = false) : findPage (dropBare s) n b i = some p := by
  obtain ⟨hon, l, l', hsplit, hbefore⟩ := List.find?_eq_some_iff_append.mp h
  rw [findPage_eq, dropBare_pages, hsplit, List.filter_append, List.filter_cons_of_pos (by simp [hp])]
  exact List.find?_eq_some_iff_append.mpr ⟨hon, _, _, rfl, fun a ha => hbefore a (List.mem_of_mem_filter ha)⟩

end Pages

/-- The pages of a range are distinct. -/
theorem tierRange_nodup (o : Obj) (off len : Nat) : (tierRange o off len).1.Nodup := by
  unfold tierRange
  dsimp only
  split
  · exact List.nodup_singleton 0
  · exact List.nodup_range.map fun _ _ h => Nat.add_left_cancel h

/-! ### TIER_MOVE to tier 2, and TIER_UNPIN (R116, R117, R119) -/

section Commands
variable {s : State} {id : CmdId} {c : Cmd} {o : Obj}

theorem findObj_spec (h : findObj s n b = some o) : o.nsid = n ∧ o.id = b := by
  simpa using List.find?_some h

/-- Pages in use of a range. -/
def heldPages (s : State) (o : Obj) (r : List Nat) : List Page := (r.filterMap (findPage s o.nsid o.id)).filter (fun p => p.resident || p.asleep)

theorem heldPages_any {r : List Nat} {n b i : Nat} : (heldPages s o r).any (onPage n b i) = true
    ↔ n = o.nsid ∧ b = o.id ∧ i ∈ r ∧ ∃ p, findPage s o.nsid o.id i = some p ∧ (p.resident || p.asleep) = true := by
  simp only [heldPages, List.any_eq_true, List.mem_filter, List.mem_filterMap]
  constructor
  · rintro ⟨p, ⟨⟨j, hj, hfind⟩, hheld⟩, hon⟩
    obtain ⟨-, hnsid, hobj, hidx⟩ := findPage_spec hfind
    obtain ⟨hn, hb, hi⟩ := onPage_iff.mp hon
    obtain rfl : j = i := hidx.symm.trans hi
    exact ⟨hn.symm.trans hnsid, hb.symm.trans hobj, hj, p, hfind, hheld⟩
  · rintro ⟨rfl, rfl, hi, p, hfind, hheld⟩
    obtain ⟨-, hkey⟩ := findPage_spec hfind
    exact ⟨p, ⟨⟨i, hi, hfind⟩, hheld⟩, onPage_iff.mpr hkey⟩

/-- What a TIER_MOVE to tier 2 drops. -/
theorem heldPages_dropped {r : List Nat} {t : State} (ht : t = (heldPages s o r).foldl dropPage (markStarted s c.no)) :
    (∀ i ∈ r, ∀ p, findPage t o.nsid o.id i = some p → p.resident = false)
      ∧ (∀ n b i, ¬ (n = o.nsid ∧ b = o.id ∧ i ∈ r) → findPage t n b i = findPage s n b i)
      ∧ t.mem.bytes = s.mem.bytes ∧ t.search = s.search ∧ t.flash = s.flash := by
  have hfind (n b i : Nat) : findPage t n b i = if (heldPages s o r).any (onPage n b i) then none else findPage s n b i := by
    rw [ht]
    exact findPage_dropped _ (markStarted s c.no) n b i
  have hrep : Repages (markStarted s c.no) t := ht ▸ .foldl Repages.dropPage _ _
  refine ⟨fun i hi p hp => ?_, fun n b i hother => ?_, hrep.bytes, hrep.search, hrep.flash⟩
  · rw [hfind] at hp
    split at hp
    case isTrue => cases hp
    case isFalse hany =>
      refine Bool.eq_false_iff.mpr fun hres => hany (heldPages_any.mpr ⟨rfl, rfl, hi, p, hp, ?_⟩)
      rw [hres, Bool.true_or]
  · rw [hfind, if_neg fun hany => ?_]
    obtain ⟨hn, hb, hi, -⟩ := heldPages_any.mp hany
    exact hother ⟨hn, hb, hi⟩

/-- The object a command names. -/
theorem cmdObj_eq (h : findObj s c.nsid (c.b 32 8) = some o) : cmdObj s c = some o := h

/-- TIER_MOVE to tier 2 (R116, R119). -/
theorem tierMoveRelease_gives (h : Runs s id c 0xA0 [(32, 27)]) (hobj : findObj s c.nsid (c.b 32 8) = some o) (hfree : tierFree s c = true)
    (hconds : ∀ x ∈ tierConds s c ++ dieConds s (c.b 57 1), x = 0) (hdest : c.b 56 1 = 2) (hpin : c.b 58 1 = 0)
    (hpins : ∀ i ∈ (tierRange o (c.b 40 8) (c.b 48 8)).1, ∀ p, findPage s o.nsid o.id i = some p → p.pins = 0) :
    Gives (.tierMoveRelease id) s fun t => EndsIn t c 0 o.id 0 fun x =>
      (∀ i ∈ (tierRange o (c.b 40 8) (c.b 48 8)).1, ∀ p, findPage x o.nsid o.id i = some p → p.resident = false)
        ∧ (∀ n b i, ¬ (n = o.nsid ∧ b = o.id ∧ i ∈ (tierRange o (c.b 40 8) (c.b 48 8)).1) → findPage x n b i = findPage s n b i)
        ∧ x.mem.bytes = s.mem.bytes ∧ x.search = s.search ∧ x.flash = s.flash := by
  have hnone : (((tierRange o (c.b 40 8) (c.b 48 8)).1).filterMap (findPage s o.nsid o.id)).any (fun p => decide (0 < p.pins)) = false := by
    refine Bool.eq_false_iff.mpr fun hany => ?_
    obtain ⟨p, hp, hpos⟩ := List.any_eq_true.mp hany
    obtain ⟨i, hi, hfind⟩ := List.mem_filterMap.mp hp
    simp [hpins i hi p hfind] at hpos
  refine Runs.gives h rfl (by simp [h.opcode, hdest, hfree]) (fun x hx => ?_) ?_
  · simp only [cmdObj_eq hobj, List.mem_append, List.mem_singleton] at hx
    obtain (hx | rfl) | rfl := hx
    · exact hconds x (List.mem_append.mpr hx)
    · exact cond_false (by simp [hpin]) _
    · exact cond_false hnone _
  · have hobj' : cmdObj (markStarted s c.no) c = some o := hobj
    simp only [hobj']
    exact ⟨_, heldPages_dropped rfl, rfl⟩

/-- One pin off each page of a range. -/
def unpin (p : Page) : Page := { p with pins := p.pins - 1 }

/-- TIER_UNPIN (R117). -/
theorem tierUnpin_gives (h : Runs s id c 0xA2 [(32, 24)]) (hobj : findObj s c.nsid (c.b 32 8) = some o) (hfree : tierFree s c = true)
    (hconds : ∀ x ∈ tierConds s c, x = 0)
    (hpins : ∀ i ∈ (tierRange o (c.b 40 8) (c.b 48 8)).1, ∃ p, findPage s o.nsid o.id i = some p ∧ 1 ≤ p.pins ∧ (isShadow s o = true → p.pins ≠ 1)) :
    Gives (.tierUnpin id) s fun t => EndsIn t c 0 0 0 fun x =>
      (∀ i ∈ (tierRange o (c.b 40 8) (c.b 48 8)).1, ∀ p, findPage s o.nsid o.id i = some p → bare { p with pins := p.pins - 1 } = false →
          findPage x o.nsid o.id i = some { p with pins := p.pins - 1 })
        ∧ (∀ n b i, ¬ (n = o.nsid ∧ b = o.id ∧ i ∈ (tierRange o (c.b 40 8) (c.b 48 8)).1) → ∀ p, findPage s n b i = some p → bare p = false →
          findPage x n b i = some p)
        ∧ (∀ p ∈ x.mem.pages, bare p = false)
        ∧ x = { markStarted s c.no with mem := { s.mem with pages := x.mem.pages } } := by
  have hcond : ((((tierRange o (c.b 40 8) (c.b 48 8)).1).map fun i => ((findPage s o.nsid o.id i).map (·.pins)).getD 0).any (· == 0)
      || (isShadow s o && (((tierRange o (c.b 40 8) (c.b 48 8)).1).map fun i => ((findPage s o.nsid o.id i).map (·.pins)).getD 0).any (· == 1))) = false := by
    have hall : ∀ x ∈ ((tierRange o (c.b 40 8) (c.b 48 8)).1).map (fun i => ((findPage s o.nsid o.id i).map (·.pins)).getD 0),
        1 ≤ x ∧ (isShadow s o = true → x ≠ 1) := by
      intro x hx
      obtain ⟨i, hi, rfl⟩ := List.mem_map.mp hx
      obtain ⟨p, hfind, hpin⟩ := hpins i hi
      rw [hfind]
      exact hpin
    rw [Bool.or_eq_false_iff, Bool.and_eq_false_imp, List.any_eq_false]
    refine ⟨fun x hx h0 => ?_, fun hshadow => List.any_eq_false.mpr fun x hx h1 => (hall x hx).2 hshadow (beq_iff_eq.mp h1)⟩
    have hzero : x = 0 := beq_iff_eq.mp h0
    have hpos := (hall x hx).1
    omega
  refine Runs.gives h rfl (by simp [h.opcode, hfree]) (fun x hx => ?_) ?_
  · simp only [cmdObj_eq hobj, List.mem_append, List.mem_singleton] at hx
    obtain hx | rfl := hx
    · exact hconds x hx
    · exact cond_false hcond _
  · have hobj' : cmdObj (markStarted s c.no) c = some o := hobj
    have hfind := findPage_foldl_updPage (n := o.nsid) (b := o.id) (f := unpin) (fun _ _ hq => hq) (tierRange_nodup o (c.b 40 8) (c.b 48 8)) (markStarted s c.no)
    simp only [hobj']
    refine ⟨_, ⟨fun i hi p hp hbare => findPage_dropBare ?_ hbare, fun n b i hother p hp hbare => findPage_dropBare ?_ hbare, fun p hp => ?_, ?_⟩, rfl⟩
    · exact (hfind ..).trans ((if_pos ⟨rfl, rfl, hi⟩).trans (congrArg (Option.map unpin) hp))
    · exact (hfind ..).trans ((if_neg hother).trans hp)
    · rw [dropBare_pages] at hp
      simpa using (List.mem_filter.mp hp).2
    · exact congrArg dropBare (foldl_updPage_frame ..)

/-! ### TIER_HINT (R115) -/

/-- What a hint leaves of its object. -/
def hintObj (c : Cmd) (o : Obj) : Obj :=
  { o with grain := c.b 41 1, hintTier := c.b 40 1, hintDie := c.b 42 1, hintPin := c.b 43 1 == 1, hinted := true }

theorem wakePages_frame (s : State) : wakePages s = { s with runnels := (wakePages s).runnels, sched := (wakePages s).sched } := by
  unfold wakePages
  extract_lets go
  have h := noteBlocks_frame ({ s with runnels := { s.runnels with rills := s.runnels.rills.map go, saved := s.runnels.saved.map go } } : State)
  generalize noteBlocks _ = t at h ⊢
  rw [h]

/-- The checks of TIER_HINT. -/
theorem tierHint_conds (hobj : findObj s c.nsid (c.b 32 8) = some o) (hdie : ∀ x ∈ dieConds s (c.b 42 1), x = 0) (htier : c.b 40 1 = 1 ∨ c.b 40 1 = 2)
    (hgrain : c.b 41 1 ≤ 2) (hpin : c.b 43 1 ≤ 1)
    (hheld : o.grain ≠ c.b 41 1 → ∀ p ∈ s.mem.pages, p.nsid = o.nsid → p.obj = o.id → p.resident = false ∧ p.pins = 0) :
    ∀ x ∈ dieConds s (c.b 42 1) ++ [cond (c.b 40 1 != 1 && c.b 40 1 != 2) 0x1002, cond (decide (2 < c.b 41 1) || decide (1 < c.b 43 1)) 0x1002] ++
      (match cmdObj s c with
        | none => [0x1003]
        | some o => [cond (o.grain != c.b 41 1 && s.mem.pages.any (fun p => p.nsid == o.nsid && p.obj == o.id && (p.resident || decide (0 < p.pins)))) 0x1003]),
      x = 0 := by
  intro x hx
  simp only [cmdObj_eq hobj, List.mem_append, List.mem_cons, List.not_mem_nil, or_false] at hx
  obtain (hx | rfl | rfl) | rfl := hx
  · exact hdie x hx
  · refine cond_false ?_ _
    obtain h | h := htier <;> simp [h]
  · exact cond_false (by simp [hgrain, hpin]) _
  · refine cond_false (Bool.eq_false_iff.mpr fun hany => ?_) _
    obtain ⟨hne, hany⟩ := Bool.and_eq_true_iff.mp hany
    obtain ⟨p, hp, hon⟩ := List.any_eq_true.mp hany
    simp only [Bool.and_eq_true, beq_iff_eq] at hon
    obtain ⟨⟨hnsid, hob⟩, hres⟩ := hon
    obtain ⟨hfalse, hzero⟩ := hheld (bne_iff_ne.mp hne) p hp hnsid hob
    simp [hfalse, hzero] at hres

/-- A hint that keeps the grain. -/
theorem tierHint_gives (h : Runs s id c 0xA3 [(32, 12)]) (hobj : findObj s c.nsid (c.b 32 8) = some o) (hfree : tierFree s c = true)
    (hdie : ∀ x ∈ dieConds s (c.b 42 1), x = 0) (htier : c.b 40 1 = 1 ∨ c.b 40 1 = 2) (hgrain : c.b 41 1 ≤ 2) (hpin : c.b 43 1 ≤ 1)
    (hsame : o.grain = c.b 41 1) :
    Gives (.tierHint id) s fun t => EndsIn t c 0 0 0 fun x => x = updObj (markStarted s c.no) c.nsid (c.b 32 8) (hintObj c) := by
  refine Runs.gives h rfl (by simp [h.opcode, hfree]) (tierHint_conds hobj hdie htier hgrain hpin fun hne => absurd hsame hne) ?_
  have hobj' : cmdObj (markStarted s c.no) c = some o := hobj
  simp only [hobj', if_pos hsame]
  exact ⟨_, rfl, rfl⟩

/-- All pages of an object. -/
def objPages (s : State) (o : Obj) : List Page := s.mem.pages.filter (fun p => p.nsid == o.nsid && p.obj == o.id)

theorem objPages_any {n b i : Nat} : (objPages s o).any (onPage n b i) = true ↔ n = o.nsid ∧ b = o.id ∧ (findPage s n b i).isSome = true := by
  rw [findPage_eq, List.find?_isSome]
  simp only [objPages, List.any_eq_true, List.mem_filter, Bool.and_eq_true, beq_iff_eq]
  constructor
  · rintro ⟨p, ⟨hp, hnsid, hob⟩, hon⟩
    obtain ⟨rfl, rfl, -⟩ := onPage_iff.mp hon
    exact ⟨hnsid, hob, p, hp, hon⟩
  · rintro ⟨rfl, rfl, p, hp, hon⟩
    obtain ⟨hnsid, hob, -⟩ := onPage_iff.mp hon
    exact ⟨p, ⟨hp, hnsid, hob⟩, hon⟩

/-- An object that loses all its pages. -/
theorem objPages_dropped {t : State} (ht : t = (objPages s o).foldl dropPage s) :
    (∀ p ∈ t.mem.pages, ¬ (p.nsid = o.nsid ∧ p.obj = o.id)) ∧ ∀ n b i, ¬ (n = o.nsid ∧ b = o.id) → findPage t n b i = findPage s n b i := by
  subst ht
  refine ⟨fun p hp hon => ?_, fun n b i hother => ?_⟩
  · rw [foldl_dropPage_pages] at hp
    obtain ⟨hmem, hkept⟩ := List.mem_filter.mp hp
    have hany : (objPages s o).any (fun q => samePage q p) = true :=
      List.any_eq_true.mpr ⟨p, List.mem_filter.mpr ⟨hmem, by simp [hon.1, hon.2]⟩, by simp [samePage]⟩
    rw [hany] at hkept
    cases hkept
  · rw [findPage_dropped, if_neg fun hany => ?_]
    obtain ⟨hn, hb, -⟩ := objPages_any.mp hany
    exact hother ⟨hn, hb⟩

/-- What a change of grain does before the fetches are divided anew. -/
theorem regrain_keeps (s : State) (o : Obj) (g : Nat) :
    (regrain s o g).mem.pages = ((objPages s o).foldl dropPage s).mem.pages ∧ (regrain s o g).mem.bytes = s.mem.bytes
      ∧ (regrain s o g).flash = s.flash ∧ (regrain s o g).search = (updObj s o.nsid o.id fun o => { o with grain := g }).search := by
  have hrep : Repages s ((objPages s o).foldl dropPage s) := .foldl Repages.dropPage _ _
  unfold regrain
  extract_lets p dropped fetched
  rw [wakePages_frame]
  refine ⟨rfl, hrep.bytes, hrep.flash, ?_⟩
  show (updObj fetched o.nsid o.id fun o => { o with grain := g }).search = _
  have hsearch : fetched.search = s.search := hrep.search
  simp only [updObj, hsearch]

/-- A hint after a change of grain says what the hint alone says. -/
theorem updObj_updObj (s : State) (n b : Nat) {f g k : Obj → Obj} (hkey : ∀ o, (f o).nsid = o.nsid ∧ (f o).id = o.id) (hk : ∀ o, g (f o) = k o) :
    (updObj (updObj s n b f) n b g).search = (updObj s n b k).search := by
  have hmap (l : List Obj) : (l.map fun o => if o.nsid = n ∧ o.id = b then f o else o).map (fun o => if o.nsid = n ∧ o.id = b then g o else o)
      = l.map fun o => if o.nsid = n ∧ o.id = b then k o else o := by
    rw [List.map_map]
    refine List.map_congr_left fun o _ => ?_
    by_cases h : o.nsid = n ∧ o.id = b
    · simp [Function.comp, h, hkey, hk]
    · simp [Function.comp, h]
  simp only [updObj, hmap]

/-- A hint that changes the grain. -/
theorem tierHint_regrains (h : Runs s id c 0xA3 [(32, 12)]) (hobj : findObj s c.nsid (c.b 32 8) = some o) (hfree : tierFree s c = true)
    (hdie : ∀ x ∈ dieConds s (c.b 42 1), x = 0) (htier : c.b 40 1 = 1 ∨ c.b 40 1 = 2) (hgrain : c.b 41 1 ≤ 2) (hpin : c.b 43 1 ≤ 1)
    (hne : o.grain ≠ c.b 41 1) (hheld : ∀ p ∈ s.mem.pages, p.nsid = o.nsid → p.obj = o.id → p.resident = false ∧ p.pins = 0) :
    Gives (.tierHint id) s fun t => EndsIn t c 0 0 0 fun x =>
      x.search = (updObj (markStarted s c.no) c.nsid (c.b 32 8) (hintObj c)).search ∧ (∀ p ∈ x.mem.pages, ¬ (p.nsid = o.nsid ∧ p.obj = o.id))
        ∧ (∀ n b i, ¬ (n = o.nsid ∧ b = o.id) → findPage x n b i = findPage s n b i) ∧ x.mem.bytes = s.mem.bytes ∧ x.flash = s.flash := by
  refine Runs.gives h rfl (by simp [h.opcode, hfree]) (tierHint_conds hobj hdie htier hgrain hpin fun _ => hheld) ?_
  have hobj' : cmdObj (markStarted s c.no) c = some o := hobj
  obtain ⟨hnsid, hid⟩ := findObj_spec hobj
  obtain ⟨hpages, hbytes, hflash, hsearch⟩ := regrain_keeps (markStarted s c.no) o (c.b 41 1)
  obtain ⟨hnone, hothers⟩ := objPages_dropped (s := markStarted s c.no) (o := o) rfl
  simp only [hobj', if_neg hne]
  refine ⟨updObj (regrain (markStarted s c.no) o (c.b 41 1)) c.nsid (c.b 32 8) (hintObj c), ⟨?_, fun p hp => hnone p (hpages ▸ hp),
    fun n b i hother => (findPage_congr hpages n b i).trans (hothers n b i hother), hbytes, hflash⟩, rfl⟩
  rw [← hnsid, ← hid]
  refine Eq.trans ?_ (updObj_updObj (markStarted s c.no) o.nsid o.id (f := fun o => { o with grain := c.b 41 1 }) (g := hintObj c) (k := hintObj c)
    (fun _ => ⟨rfl, rfl⟩) fun _ => rfl)
  show ({ (regrain (markStarted s c.no) o (c.b 41 1)).search with objs := _ } : Search) = _
  rw [hsearch]
  rfl

/-! ### SHADOW_SET and QUOTA_QUERY (R125, R127) -/

theorem shadowSet_gives (h : Runs s id c 0xA4 [(32, 9), (48, 8)]) (hobj : findObj s c.nsid (c.b 32 8) = some o) (hkind : c.b 40 1 ≤ 3)
    (hshadow : c.b 40 1 = 1 → o.mtype = 6 ∧ ∃ x, findObj s c.nsid (c.b 48 8) = some x ∧ heldWhole s x = true ∧ x.pathKind = 0)
    (htwo : c.b 40 1 = 2 → o.mtype = 8) (hthree : c.b 40 1 = 3 → o.mtype = 7) :
    Gives (.shadowSet id) s fun t => EndsIn t c 0 0 0 fun x =>
      x = updObj (markStarted s c.no) c.nsid (c.b 32 8) fun o => { o with pathKind := c.b 40 1, shadow := c.b 48 8 } := by
  refine Runs.gives h rfl h.isOp (fun x hx => ?_) ⟨_, rfl, rfl⟩
  simp only [cmdObj_eq hobj, List.mem_append, List.mem_cons, List.not_mem_nil, or_false] at hx
  obtain rfl | rfl | rfl := hx
  · exact cond_false (by simp [hkind]) _
  · refine cond_false ?_ _
    simp only [Bool.or_eq_false_iff, Bool.and_eq_false_imp, beq_iff_eq, bne_eq_false_iff_eq]
    exact ⟨⟨fun h1 => (hshadow h1).1, htwo⟩, hthree⟩
  · refine cond_false (Bool.and_eq_false_imp.mpr fun h1 => ?_) _
    obtain ⟨-, y, hfind, hheld, hpath⟩ := hshadow (beq_iff_eq.mp h1)
    simp [hfind, hheld, hpath]

theorem quotaQuery_gives (h : Runs s id c 0xA5 []) (hlist : c.isList = false) (hlen : c.bufBytes = 32) :
    Gives (.quotaQuery id) s fun t => EndsIn t c 0 0 0 fun x => x = toHost (markStarted s c.no) c (quotaRecord s c.dom) := by
  refine Runs.gives h rfl h.isOp (fun x hx => ?_) ⟨_, rfl, rfl⟩
  obtain rfl := List.mem_singleton.mp hx
  exact cond_false (by simp [hlist, hlen]) _

/-! ### TIER_MOVE to tier 1, and TIER_PIN (R116, R117, R120, R126) -/

/-- A fetch a command orders stays outstanding, or ends with what the headgate said. -/
def FetchOrdered (s : State) (c : Cmd) (o : Obj) (die : Nat) (pin : Bool) (t : State) : Prop :=
  (∀ u, startPages o die (tierRange o (c.b 40 8) (c.b 48 8)).1 (fetchNumbered (markStarted s c.no)) = (u, .ok ()) →
    ∃ f : Fetch, t = updMem u (fun m => { m with fetches := m.fetches ++ [f] }) ∧ f.id = s.mem.nextFetch ∧ f.nsid = o.nsid ∧ f.obj = o.id
      ∧ f.pages = (tierRange o (c.b 40 8) (c.b 48 8)).1 ∧ f.deadline = c.b 12 4 ∧ f.accepted = cyc s 57 ∧ f.pin = pin ∧ f.issuer = .cmd c.no
      ∧ f.expired = false)
  ∧ (∀ u e, startPages o die (tierRange o (c.b 40 8) (c.b 48 8)).1 (fetchNumbered (markStarted s c.no)) = (u, .error e) →
    t = complete u c.no 0x2001 0 0 e)

theorem acceptFetch_ordered (hq : o.quarantined = false) (off n die : Nat) (pin : Bool) :
    FetchOrdered s c o die pin (acceptFetch (markStarted s c.no) o (tierRange o (c.b 40 8) (c.b 48 8)).1 off n die (c.b 12 4) (.cmd c.no) pin) := by
  refine ⟨fun u hu => ⟨_, acceptFetch_accepts hq hu, rfl, rfl, rfl, rfl, rfl, rfl, rfl, rfl, rfl⟩, fun u e hu => ?_⟩
  rw [acceptFetch_refused hq hu]
  rfl

theorem tierMoveResident_gives (h : Runs s id c 0xA0 [(32, 27)]) (hobj : findObj s c.nsid (c.b 32 8) = some o) (hfree : tierFree s c = true)
    (hq : o.quarantined = false) (hconds : ∀ x ∈ tierConds s c ++ dieConds s (c.b 57 1), x = 0) (hdest : c.b 56 1 = 1) (hpin : c.b 58 1 ≤ 1) :
    Gives (.tierMoveResident id) s (FetchOrdered s c o (pickDie s (c.b 57 1)) (c.b 58 1 == 1)) := by
  refine Runs.gives h rfl (by simp [h.opcode, hdest, hfree]) (fun x hx => ?_) ?_
  · obtain hx | hx := List.mem_append.mp hx
    · exact hconds x hx
    · obtain rfl := List.mem_singleton.mp hx
      exact cond_false (by simp [hdest, hpin]) _
  · have hobj' : cmdObj (markStarted s c.no) c = some o := hobj
    simp only [hobj']
    exact acceptFetch_ordered hq ..

theorem tierPin_gives (h : Runs s id c 0xA1 [(32, 24)]) (hobj : findObj s c.nsid (c.b 32 8) = some o) (hfree : tierFree s c = true)
    (hq : o.quarantined = false) (hconds : ∀ x ∈ tierConds s c, x = 0) :
    Gives (.tierPin id) s (FetchOrdered s c o (hintedDie s o (pickDie s 255)) true) := by
  refine Runs.gives h rfl (by simp [h.opcode, hfree]) hconds ?_
  have hobj' : cmdObj (markStarted s c.no) c = some o := hobj
  simp only [hobj']
  exact acceptFetch_ordered hq ..

end Commands

end Sys2Proof.Machine
end

section
/-!
PROOFS. Scope: the reads of a page's units, and pages whose reads have ended (R111, R131, R132, R388).
-/
namespace Sys2Proof.Machine

/-! ### What the reads of units leave (R356, R388, R401) -/

/-- Neither memory nor the objects change. -/
structure Reads (s t : State) : Prop where
  mem : t.mem = s.mem
  search : t.search = s.search

namespace Reads
variable {s t u : State}

theorem refl (s : State) : Reads s s := ⟨rfl, rfl⟩

theorem trans (h : Reads s t) (h' : Reads t u) : Reads s u := ⟨h'.mem.trans h.mem, h'.search.trans h.search⟩

theorem foldl {α : Type} {f : State → α → State} (h : ∀ s a, Reads s (f s a)) (l : List α) (s : State) : Reads s (l.foldl f s) := by
  induction l generalizing s with
  | nil => exact refl s
  | cons a l ih => exact (h s a).trans (ih (f s a))

/-- An operation after one that touches other parts of the state. -/
theorem after (h : Reads t u) (hm : t.mem = s.mem) (hs : t.search = s.search) : Reads s u := ⟨h.mem.trans hm, h.search.trans hs⟩

theorem of_sends (h : Sends s t) : Reads s t := ⟨(congrArg State.mem h.eq :), (congrArg State.search h.eq :)⟩

theorem of_metered (h : Metered s t) : Reads s t := ⟨(congrArg State.mem h.eq :), (congrArg State.search h.eq :)⟩

theorem updFlash (s : State) (f : Flash → Flash) : Reads s (updFlash s f) := ⟨rfl, rfl⟩

theorem countEv (s : State) (isl code unit n slot : Nat) : Reads s (countEv s isl code unit n slot) := of_sends (Sends.countEv ..)

theorem checkRefresh (s : State) (p : PageAddr) (weak : Bool) : Reads s (checkRefresh s p weak) := by
  unfold Machine.checkRefresh
  split
  · exact refl s
  · split
    · exact updFlash ..
    · exact refl s

theorem pageCounted (s : State) (p : PageAddr) (n : Nat) (raw : Bool) : Reads s (pageCounted s p n raw) := by
  unfold Machine.pageCounted
  extract_lets counted
  have hcounted : Reads s counted := (updFlash s _).trans (countEv ..)
  split
  · exact hcounted
  · exact hcounted.trans (checkRefresh ..)

theorem uncorrectableEvent (s : State) (isl arr unit addr : Nat) : Reads s (uncorrectableEvent s isl arr unit addr) := ⟨rfl, rfl⟩

theorem correctedEvent (s : State) (isl arr unit addr : Nat) : Reads s (correctedEvent s isl arr unit addr) := by
  unfold Machine.correctedEvent
  extract_lets counted level signalled
  have hcounted : Reads s counted := (countEv (protLast (addF s isl F.PROT_CE_COUNT_COUNT 1 arr) isl arr false unit addr) ..).after rfl rfl
  have hlevel : Reads s level := hcounted.trans ⟨rfl, rfl⟩
  split
  · have hsignalled : Reads s signalled := hlevel.trans ⟨rfl, rfl⟩
    split
    · exact hsignalled.trans (of_sends (Sends.interrupt ..))
    · exact hsignalled
  · exact hlevel

theorem loseUnit (s : State) (lua : Nat) : Reads s (loseUnit s lua) := ⟨rfl, rfl⟩

theorem rewriteUnit (s : State) (lua : Nat) : Reads s (rewriteUnit s lua) := by
  unfold Machine.rewriteUnit
  dsimp only
  split
  · exact updFlash ..
  · exact ⟨rfl, rfl⟩

theorem rebuildReads (s : State) (x : Stripe) (pg : Nat × Nat × Nat) : Reads s (rebuildReads s x pg) := by
  refine foldl (fun s j => ?_) _ s
  split
  · exact refl s
  · split
    · exact pageCounted ..
    · exact refl s

theorem loseMerges (s : State) (x : Stripe) (pg : Nat × Nat × Nat) : Reads s (loseMerges s x pg) := foldl (fun _ _ => updFlash ..) _ s

theorem rebuildPage (s : State) (id : Nat) (pg : Nat × Nat × Nat) (bad : Nat) (pair : Bool) (only : Option Nat) :
    Reads s (rebuildPage s id pg bad pair only) := by
  unfold Machine.rebuildPage
  split
  · exact refl s
  · extract_lets ok us noted read
    have hnoted : Reads s noted := by
      unfold noted
      split
      · exact refl s
      · exact updFlash ..
    have hread : Reads s read := by
      refine hnoted.trans (Reads.trans ?_ (rebuildReads ..))
      split
      · exact updFlash ..
      · exact refl noted
    split
    · exact hread.trans ((foldl rewriteUnit us _).after rfl rfl)
    · exact hread.trans ((foldl loseUnit _ _).trans (loseMerges ..))

theorem pageBad (s : State) (p : PageAddr) (bad : Nat) (pair : Bool) (only : Option Nat) : Reads s (pageBad s p bad pair only) := by
  unfold Machine.pageBad
  extract_lets isl noted events unc
  have hevents : Reads s events := (foldl (fun _ _ => uncorrectableEvent ..) _ noted).after rfl rfl
  have hunc : Reads s unc := hevents.trans ⟨rfl, rfl⟩
  split
  · exact hunc.trans (rebuildPage ..)
  · exact hunc

theorem pageCorrected (s : State) (p : PageAddr) (level : Nat) (bits : List Nat) : Reads s (pageCorrected s p level bits) :=
  (foldl (fun _ _ => correctedEvent ..) _ (health (addF s _ _ _) 0 _)).after rfl rfl

theorem pageGood (s : State) (p : PageAddr) (level : Nat) (o : ReadOutcome) : Reads s (pageGood s p level o) := by
  unfold Machine.pageGood
  extract_lets lim checked
  have hchecked : Reads s checked := checkRefresh ..
  split
  · exact hchecked.trans ((pageBad (addF checked _ _ 1) ..).after rfl rfl)
  · exact hchecked

theorem pageRead (s : State) (a : PageAddr) (level : Nat) (o : ReadOutcome) : Reads s (pageRead s a level o) := by
  unfold Machine.pageRead
  extract_lets n counted retried
  have hretried : Reads s retried := by
    refine (pageCounted s a (n + 1) false).trans ?_
    unfold retried
    split
    · exact refl counted
    · exact (countEv (addF counted _ _ n) ..).after rfl rfl
  split
  · exact hretried.trans (pageBad ..)
  · exact hretried.trans (pageBad ..)
  · exact hretried.trans ((pageCorrected ..).trans (pageGood ..))

theorem unitReads (s : State) (luas : List Nat) (outs : List PageRead) : Reads s (unitReads s luas outs) := by
  refine foldl (fun s u => ?_) _ s
  split
  · split
    · exact refl s
    · split
      · exact refl s
      · refine foldl (fun s pg => ?_) _ s
        split
        · exact refl s
        · split
          · exact rebuildPage ..
          · split <;> exact pageRead ..
  · exact refl s

theorem noteRo (s : State) : Reads s (noteRo s) := by
  unfold Machine.noteRo
  extract_lets cs new noted
  split
  · exact refl s
  · refine (foldl (fun s k => ?_) _ noted).after rfl rfl
    split
    · exact ⟨rfl, rfl⟩
    · exact refl s

theorem pageMoved (s : State) (p : Page) (o : Obj) (n : Nat) : Reads s (pageMoved s p o n) := by
  refine (of_metered (Metered.flashMoved ..)).trans (foldl (fun s f => ?_) _ _)
  dsimp only
  split
  · exact of_metered (Metered.meter ..)
  · exact (countEv ..).trans (of_metered (Metered.meter ..))

theorem stackWrite (s : State) (port a n : Nat) : Reads s (stackWrite s port a n) := by
  unfold Machine.stackWrite countWrites
  refine ((foldl (fun _ _ => countEv ..) _ _).trans (foldl (fun s b => ?_) _ _)).trans (foldl (fun _ _ => of_metered (Metered.meter ..)) _ _)
  split
  · exact countEv ..
  · exact refl s

end Reads

/-! ### Answers to fetches that fail (R128, R131) -/

/-- The objects and the fetches stay. -/
structure Answers (s t : State) : Prop where
  objs : t.search.objs = s.search.objs
  fetches : t.mem.fetches = s.mem.fetches

namespace Answers
variable {s t u : State}

theorem refl (s : State) : Answers s s := ⟨rfl, rfl⟩

theorem trans (h : Answers s t) (h' : Answers t u) : Answers s u := ⟨h'.objs.trans h.objs, h'.fetches.trans h.fetches⟩

theorem foldl {α : Type} {f : State → α → State} {l : List α} (h : ∀ s, ∀ a ∈ l, Answers s (f s a)) (s : State) : Answers s (l.foldl f s) := by
  induction l generalizing s with
  | nil => exact refl s
  | cons a l ih => exact (h s a List.mem_cons_self).trans (ih (fun s b hb => h s b (List.mem_cons_of_mem a hb)) _)

theorem of_reads (h : Reads s t) : Answers s t := ⟨congrArg Search.objs h.search, congrArg Mem.fetches h.mem⟩

theorem complete (s : State) (no st r0 r1 detail : Nat) : Answers s (complete s no st r0 r1 detail) :=
  ⟨(congrArg (fun x : State => x.search.objs) (Finishes.complete ..).eq :), (congrArg (fun x : State => x.mem.fetches) (Finishes.complete ..).eq :)⟩

theorem completeOp (s : State) (op : OpRef) (st : Nat) : Answers s (completeOp s op st) := by
  unfold Machine.completeOp
  dsimp only
  rw [noteBlock_frame]
  exact ⟨rfl, rfl⟩

theorem writeRecord (s : State) (addr : Nat) (op : OpRef) (r : List Byte) (st : Nat) : Answers s (writeRecord s addr op r st) := by
  unfold Machine.writeRecord
  refine Answers.trans ?_ (completeOp ..)
  split
  · split
    · exact (of_reads (Reads.stackWrite ..)).trans ⟨rfl, rfl⟩
    · exact refl s
  · split
    · exact ⟨rfl, rfl⟩
    · exact refl s
  · exact refl s

theorem endQuery (s : State) (q : Query) (st r0 r1 detail : Nat) : Answers s (endQuery s q st r0 r1 detail) := by
  unfold Machine.endQuery
  extract_lets ended counted short
  have hshort : Answers s short := by
    unfold short
    split <;> exact ⟨rfl, rfl⟩
  exact hshort.trans (complete ..)

theorem finishQuery (s : State) (q : Query) (rows : List (Cand × List Nat × Nat)) (reranked : Bool) (spill : Nat) (excess : Option (Nat × Nat)) :
    Answers s (finishQuery s q rows reranked spill excess) := by
  unfold Machine.finishQuery
  split
  · exact ⟨rfl, rfl⟩
  · exact (of_reads (.of_sends (Sends.toHost ..))).trans (endQuery ..)

/-- An answer that is no success starts nothing. -/
theorem answerFetch (s : State) (f : Fetch) {st : Nat} (hst : st ≠ 0) (path cause : Nat) : Answers s (answerFetch s f st path cause) := by
  unfold Machine.answerFetch
  extract_lets
  split
  · exact complete ..
  · exact writeRecord ..
  · split
    · exact refl s
    · rw [if_neg hst]
      split
      · exact finishQuery ..
      · exact endQuery ..
  · exact refl s

theorem loseFetch (s : State) (f : Fetch) (cause : Nat) : Answers s (loseFetch s f cause) := by
  unfold Machine.loseFetch
  split
  · exact refl s
  · split
    · exact answerFetch s f (by decide) ..
    · split
      · exact answerFetch s f (by decide) ..
      · exact (answerFetch s f (by decide) ..).trans ⟨rfl, rfl⟩

end Answers

/-! ### Pages whose reads have ended (R111, R131, R132) -/

section Arrivals
variable {s u : State} {o : Obj} {p : Page} {idx : Nat} {outs : List PageRead}

theorem wakePages_mem (s : State) : (wakePages s).mem = s.mem := (congrArg State.mem (wakePages_frame s) :)

theorem wakePages_search (s : State) : (wakePages s).search = s.search := (congrArg State.search (wakePages_frame s) :)

/-- A page that has come with its data. -/
def pageHere (clock : Nat) (p : Page) : Page := { p with resident := true, stamp := clock }

theorem pageArrives_mem (u : State) (o : Obj) (p : Page) (n : Nat) :
    (pageArrives u o p n).mem.pages = (updPage u o.nsid o.id p.idx (pageHere u.mem.clock)).mem.pages
      ∧ (pageArrives u o p n).mem.bytes = u.mem.bytes ∧ (pageArrives u o p n).mem.clock = u.mem.clock + 1 := by
  unfold pageArrives
  extract_lets arrived told
  have hmoved : Reads told (countEv (pageMoved told p o n) 57 0x75 0 n) := (Reads.pageMoved ..).trans (Reads.countEv ..)
  rw [wakePages_mem, hmoved.mem]
  exact ⟨rfl, rfl, rfl⟩

/-- The reads of a page that no loss and no invalidation has met end: it arrives, or its object is quarantined. -/
theorem exec_pageFetchComplete (hp : findPage s o.nsid o.id idx = some p) (ho : findObj s o.nsid o.id = some o) (hres : p.resident = false)
    (hasleep : p.asleep = false) (hagain : p.again = false) (hlost : p.lost = 0) (hrefresh : selfRefresh s = false) :
    exec (.pageFetchComplete o.nsid o.id idx outs) s = .next (
      let n := min (pageBytes o) (o.size - idx * pageBytes o)
      let u := noteRo (unitReads s (unitsIn o (idx * pageBytes o) n) outs)
      if (lostIn u o (idx * pageBytes o) n).isEmpty then pageArrives u o p n else quarantine u o (lostIn u o (idx * pageBytes o) n)) := by
  simp [exec, execPageFetchComplete, hp, ho, hres, hasleep, hagain, hlost, hrefresh]

/-- A page whose blocks all are read is resident. -/
theorem pageArrives_gives (hp : findPage s o.nsid o.id idx = some p) (hu : Reads s u) (n : Nat) :
    findPage (pageArrives u o p n) o.nsid o.id idx = some { p with resident := true, stamp := s.mem.clock }
      ∧ (∀ n' b i, ¬ (n' = o.nsid ∧ b = o.id ∧ i = idx) → findPage (pageArrives u o p n) n' b i = findPage s n' b i)
      ∧ (pageArrives u o p n).mem.bytes = s.mem.bytes ∧ (pageArrives u o p n).mem.clock = s.mem.clock + 1 := by
  obtain ⟨hpages, hbytes, hclock⟩ := pageArrives_mem u o p n
  obtain ⟨-, -, -, hidx⟩ := findPage_spec hp
  rw [hidx] at hpages
  have hfind (n' b i : Nat) : findPage u n' b i = findPage s n' b i := findPage_congr (congrArg Mem.pages hu.mem) ..
  refine ⟨?_, fun n' b i hne => ?_, hbytes.trans (congrArg Mem.bytes hu.mem), hclock.trans (congrArg (fun m : Mem => m.clock + 1) hu.mem)⟩
  · rw [findPage_congr hpages, findPage_updPage_same (f := pageHere u.mem.clock) fun _ hq => hq, hfind, hp, hu.mem]
    rfl
  · rw [findPage_congr hpages, findPage_updPage_ne (f := pageHere u.mem.clock) (fun _ hq => hq) hne, hfind]

/-- An object that is changed is found as changed. -/
theorem findObj_updObj {n b : Nat} {f : Obj → Obj} (hf : ∀ o, (f o).nsid = o.nsid ∧ (f o).id = o.id) :
    findObj (updObj s n b f) n b = (findObj s n b).map f := by
  have hpred : (fun o : Obj => o.nsid == n && o.id == b) ∘ (fun o => if o.nsid = n ∧ o.id = b then f o else o) = fun o => o.nsid == n && o.id == b := by
    funext o
    simp only [Function.comp]
    split
    case isTrue => rw [(hf o).1, (hf o).2]
    case isFalse => rfl
  simp only [findObj, updObj, List.find?_map, hpred]
  cases ho : s.search.objs.find? (fun o => o.nsid == n && o.id == b) with
  | none => rfl
  | some o =>
    have hkey : o.nsid = n ∧ o.id = b := by simpa using List.find?_some ho
    rw [Option.map_some, if_pos hkey, Option.map_some]

/-- An object marked for its failed blocks. -/
def markBad (bad : List Nat) (o : Obj) : Obj := { o with quarantined := true, failed := bad }

/-- The object marked, and its pages dropped. -/
def quarantined (s : State) (o : Obj) (bad : List Nat) : State :=
  let marked := updObj s o.nsid o.id (markBad bad)
  (objPages marked o).foldl dropPage marked

/-- The fetches of an object. -/
def objFetches (s : State) (o : Obj) : List Fetch := s.mem.fetches.filter (fun f => f.nsid == o.nsid && f.obj == o.id)

/-- A quarantine entered in the health log, with the fetches of its object taken out and then answered. -/
theorem quarantine_eq (hq : o.quarantined = false) (bad : List Nat) : ∃ a c, quarantine s o bad =
    let t := healthEvent (quarantined s o bad) 2 o.nsid a o.id c
    wakePages ((objFetches s o).foldl (fun s f => loseFetch s f 2) ((objFetches s o).foldl (fun s f => dropFetch s f.id) t)) := by
  have hfetches : (quarantined s o bad).mem.fetches = s.mem.fetches :=
    (Repages.foldl Repages.dropPage _ (updObj s o.nsid o.id (markBad bad))).fetches
  have hmine (a c : Nat) : objFetches (healthEvent (quarantined s o bad) 2 o.nsid a o.id c) o = objFetches s o :=
    congrArg (List.filter fun f : Fetch => f.nsid == o.nsid && f.obj == o.id) hfetches
  refine ⟨mappers (quarantined s o bad) o, bad.headD 0 % 2 ^ 59 * 2 ^ 32 + bad.length, ?_⟩
  dsimp only
  rw [← hmine]
  unfold quarantine
  rw [if_neg (by simp [hq])]
  rfl

theorem quarantined_facts (ho : findObj s o.nsid o.id = some o) (bad : List Nat) :
    findObj (quarantined s o bad) o.nsid o.id = some (markBad bad o)
      ∧ (∀ q ∈ (quarantined s o bad).mem.pages, ¬ (q.nsid = o.nsid ∧ q.obj = o.id)) ∧ (quarantined s o bad).mem.bytes = s.mem.bytes
      ∧ (quarantined s o bad).mem.fetches = s.mem.fetches := by
  have hrep : Repages (updObj s o.nsid o.id (markBad bad)) (quarantined s o bad) := .foldl Repages.dropPage _ _
  have hobj : findObj (updObj s o.nsid o.id (markBad bad)) o.nsid o.id
      = some (markBad bad o) := by
    rw [findObj_updObj (f := markBad bad) fun _ => ⟨rfl, rfl⟩, ho]
    rfl
  refine ⟨?_, (objPages_dropped rfl).1, hrep.bytes, hrep.fetches⟩
  unfold findObj at hobj ⊢
  rw [hrep.search]
  exact hobj

/-- Fetches taken out by their numbers. -/
theorem foldl_dropFetch (l : List Fetch) (s : State) :
    Reads s (updMem (l.foldl (fun s f => dropFetch s f.id) s) fun m => { m with fetches := s.mem.fetches })
      ∧ ∀ f ∈ (l.foldl (fun s f => dropFetch s f.id) s).mem.fetches, f ∈ s.mem.fetches ∧ ∀ g ∈ l, f.id ≠ g.id := by
  induction l generalizing s with
  | nil => exact ⟨.refl s, fun f hf => ⟨hf, fun g hg => by cases hg⟩⟩
  | cons a l ih =>
    obtain ⟨hreads, hleft⟩ := ih (dropFetch s a.id)
    refine ⟨⟨?_, hreads.search⟩, fun f hf => ?_⟩
    · exact congrArg (fun m : Mem => { m with fetches := s.mem.fetches }) hreads.mem
    · obtain ⟨hmem, hne⟩ := hleft f hf
      obtain ⟨hs, hkept⟩ := List.mem_filter.mp hmem
      refine ⟨hs, fun g hg => ?_⟩
      obtain rfl | hg := List.mem_cons.mp hg
      · exact bne_iff_ne.mp hkept
      · exact hne g hg

/-- An object no fetch is outstanding on is quarantined, and keeps no page. -/
theorem quarantine_gives (hq : o.quarantined = false) (ho : findObj s o.nsid o.id = some o) (hnone : ∀ f ∈ s.mem.fetches, ¬ (f.nsid = o.nsid ∧ f.obj = o.id))
    (bad : List Nat) : findObj (quarantine s o bad) o.nsid o.id = some (markBad bad o)
      ∧ (∀ q ∈ (quarantine s o bad).mem.pages, ¬ (q.nsid = o.nsid ∧ q.obj = o.id)) ∧ (quarantine s o bad).mem.bytes = s.mem.bytes := by
  obtain ⟨a, c, heq⟩ := quarantine_eq hq (s := s) bad
  have hmine : objFetches s o = [] := List.filter_eq_nil_iff.mpr fun f hf => by simpa using hnone f hf
  obtain ⟨hobj, hpages, hbytes, -⟩ := quarantined_facts ho bad
  rw [heq, hmine]
  dsimp only [List.foldl_nil]
  rw [wakePages_mem]
  refine ⟨?_, hpages, hbytes⟩
  unfold findObj
  rw [wakePages_search]
  exact hobj

/-- Whatever was outstanding on it, a quarantined object keeps no fetch. -/
theorem quarantine_answers (hq : o.quarantined = false) (ho : findObj s o.nsid o.id = some o) (bad : List Nat) :
    (∃ q, findObj (quarantine s o bad) o.nsid o.id = some q ∧ q.quarantined = true ∧ q.failed = bad)
      ∧ ∀ f ∈ (quarantine s o bad).mem.fetches, ¬ (f.nsid = o.nsid ∧ f.obj = o.id) := by
  obtain ⟨a, c, heq⟩ := quarantine_eq hq (s := s) bad
  obtain ⟨hobj, -, -, hfetches⟩ := quarantined_facts ho bad
  obtain ⟨hreads, hleft⟩ := foldl_dropFetch (objFetches s o) (healthEvent (quarantined s o bad) 2 o.nsid a o.id c)
  have hanswers := Answers.foldl (f := fun s f => loseFetch s f 2) (fun t f (_ : f ∈ objFetches s o) => Answers.loseFetch t f 2)
    ((objFetches s o).foldl (fun s f => dropFetch s f.id) (healthEvent (quarantined s o bad) 2 o.nsid a o.id c))
  rw [heq]
  dsimp only
  refine ⟨⟨markBad bad o, ?_, rfl, rfl⟩, fun f hf hon => ?_⟩
  · unfold findObj
    rw [wakePages_search, hanswers.objs]
    exact (congrArg (fun x : Search => x.objs.find? fun y : Obj => y.nsid == o.nsid && y.id == o.id) hreads.search).trans hobj
  · rw [wakePages_mem, hanswers.fetches] at hf
    obtain ⟨hmem, hne⟩ := hleft f hf
    refine hne f (List.mem_filter.mpr ⟨hfetches ▸ hmem, ?_⟩) rfl
    simp [hon.1, hon.2]

end Arrivals

end Sys2Proof.Machine
end

section
/-!
PROOFS. Scope: fetches that complete, deadlines that expire, and what O26 says of the tiers (R116, R117, R126-R131).
-/
namespace Sys2Proof.Machine

section Ends
variable {s t u : State} {c : Cmd} {o : Obj} {p : Page} {f : Fetch} {idx : Nat} {outs : List PageRead}

/-- A page that was invalidated while it was being fetched is fetched again (R111). -/
theorem pageFetchComplete_again (hp : findPage s o.nsid o.id idx = some p) (ho : findObj s o.nsid o.id = some o) (hres : p.resident = false)
    (hasleep : p.asleep = false) (hagain : p.again = true) (hlost : p.lost = 0) (hrefresh : selfRefresh s = false) :
    Gives (.pageFetchComplete o.nsid o.id idx outs) s fun t => findPage t o.nsid o.id idx = some { p with again := false } ∧ t.mem.bytes = s.mem.bytes := by
  have hrun : exec (.pageFetchComplete o.nsid o.id idx outs) s = .next (updPage s o.nsid o.id idx fun p => { p with again := false }) := by
    simp [exec, execPageFetchComplete, hp, ho, hres, hasleep, hagain, hlost, hrefresh]
  refine ⟨_, hrun, ?_, rfl⟩
  refine (findPage_updPage_same ?_).trans ?_
  · exact fun _ hq => hq
  · rw [hp]
    rfl

/-! ### A fetch whose pages all are resident (R116, R117) -/

theorem pinPages_search (s : State) (n b : Nat) (l : List Nat) : (pinPages s n b l).search = s.search :=
  (congrArg State.search (foldl_updPage_frame n b _ l s) :)

theorem findObj_congr (h : t.search = s.search) (n b : Nat) : findObj t n b = findObj s n b := by
  rw [findObj, findObj, h]

theorem tierFetchComplete_gives (hf : findFetch s f.id = some f) (ho : findObj s f.nsid f.obj = some o)
    (hall : ∀ i ∈ f.pages, pageResident s f.nsid f.obj i = true) (hcmd : f.issuer = .cmd c.no) (hspilled : f.spilled = false) :
    Gives (.tierFetchComplete f.id) s fun t => EndsIn t c 0 o.id (f.newKib / 1024) fun x =>
      x = if f.pin then pinPages (dropFetch s f.id) f.nsid f.obj f.pages else dropFetch s f.id := by
  have hrun : exec (.tierFetchComplete f.id) s = .next (endFetch s f) := by
    simp only [exec, execTierFetchComplete, hf, if_pos (List.all_eq_true.mpr hall), hcmd]
  refine ⟨_, hrun, _, rfl, ?_⟩
  unfold endFetch
  extract_lets dropped pinned
  have hobj : findObj pinned f.nsid f.obj = some o := by
    refine (findObj_congr ?_ _ _).trans ho
    unfold pinned
    split
    · exact pinPages_search ..
    · rfl
  have hanswer : answerFetch pinned f 0 0 0 = complete pinned c.no 0 o.id (f.newKib / 1024) 0 := by
    simp [answerFetch, hcmd, hobj]
  rw [if_neg (by simp [hspilled]), hanswer]

/-! ### A deadline that expires (R126-R130) -/

/-- What cycles of the scheduler island change: not the misses counted, and nothing but what counting changes. -/
structure Passes (s t : State) : Prop where
  sends : Sends s t
  misses : KeepsField 57 F.TM_DEADLINE_MISS_COUNT s t

namespace Passes

theorem refl (s : State) : Passes s s := ⟨.refl s, .refl s⟩

theorem trans (h : Passes s t) (h' : Passes t u) : Passes s u := ⟨h.sends.trans h'.sends, h.misses.trans h'.misses⟩

theorem foldl {α : Type} {g : State → α → State} (h : ∀ s a, Passes s (g s a)) (l : List α) (s : State) : Passes s (l.foldl g s) := by
  induction l generalizing s with
  | nil => exact refl s
  | cons a l ih => exact (h s a).trans (ih (g s a))

theorem countEv (s : State) (isl code unit n slot : Nat) : Passes s (countEv s isl code unit n slot) := ⟨.countEv .., .countEv (by decide) ..⟩

theorem countCycles (s : State) (i n : Nat) : Passes s (countCycles s i n) := by
  unfold Machine.countCycles
  extract_lets counted floored
  have hcounted : Passes s counted := countEv ..
  have hfloored : Passes s floored := by
    refine hcounted.trans ?_
    unfold floored
    split
    · exact countEv ..
    · exact refl counted
  split
  · exact hfloored.trans (countEv ..)
  · exact hfloored

theorem countStalls (s : State) (c n : Nat) : Passes s (countStalls s 57 c n) := by
  unfold Machine.countStalls
  refine foldl (fun s x => ?_) _ s
  exact ⟨rfl, .setF_other (by decide) (by decide) (.inl (by decide)) s 57 _ (by omega)⟩

theorem passTo (s : State) (n : Nat) : Passes s (passTo s 57 n) := by
  unfold Machine.passTo
  extract_lets m
  split
  · exact refl s
  · have hadvanced : Passes s (advanceTo s 57 n) := ⟨rfl, .of_regs rfl⟩
    exact hadvanced.trans ((countStalls ..).trans (countCycles ..))

end Passes

theorem findFetch_updFetch {id : Nat} {g : Fetch → Fetch} (hg : ∀ f, (g f).id = f.id) : findFetch (updFetch s id g) id = (findFetch s id).map g := by
  have hpred : (fun f : Fetch => f.id == id) ∘ (fun f => if f.id = id then g f else f) = fun f => f.id == id := by
    funext f
    by_cases h : f.id = id <;> simp [h, hg]
  simp only [findFetch, updFetch, updMem, List.find?_map, hpred]
  cases hf : s.mem.fetches.find? (fun f => f.id == id) with
  | none => rfl
  | some f =>
    have hid : f.id = id := by simpa using List.find?_some hf
    simp [hid]

theorem findFetch_congr (h : t.mem.fetches = s.mem.fetches) (id : Nat) : findFetch t id = findFetch s id := by
  rw [findFetch, findFetch, h]

/-- A fetch whose deadline is past. -/
def expire (f : Fetch) : Fetch := { f with expired := true }

/-- A fetch that has taken its path. -/
def spill (f : Fetch) : Fetch := { f with spilled := true }

/-- The deadline of a fetch is counted as missed. -/
def missed (s : State) (f : Fetch) : State :=
  addF (updFetch (passTo s 57 (f.accepted + f.deadline)) f.id expire) 57 F.TM_DEADLINE_MISS_COUNT 1

/-- The cycles up to a deadline change what counting changes. -/
theorem deadlineCycles_send (s : State) (f : Fetch) : Sends s (passTo s 57 (f.accepted + f.deadline)) := (Passes.passTo ..).sends

theorem findFetch_missed (hf : findFetch s f.id = some f) : findFetch (missed s f) f.id = some (expire f) := by
  have hpassed : (passTo s 57 (f.accepted + f.deadline)).mem = s.mem := (congrArg State.mem (deadlineCycles_send s f).eq :)
  refine (findFetch_updFetch (s := passTo s 57 (f.accepted + f.deadline)) (g := expire) fun _ => rfl).trans ?_
  rw [findFetch_congr (congrArg Mem.fetches hpassed), hf]
  rfl

theorem missed_count (hs : mSorted none s.regs = true) (hlt : getF s 57 F.TM_DEADLINE_MISS_COUNT < 2 ^ F.TM_DEADLINE_MISS_COUNT.w - 1) :
    mSorted none (missed s f).regs = true ∧ getF (missed s f) 57 F.TM_DEADLINE_MISS_COUNT = getF s 57 F.TM_DEADLINE_MISS_COUNT + 1 := by
  have hkeeps : KeepsField 57 F.TM_DEADLINE_MISS_COUNT s (updFetch (passTo s 57 (f.accepted + f.deadline)) f.id expire) :=
    (Passes.passTo s _).misses.trans (.of_regs rfl)
  refine ⟨setF_regs_sorted (hkeeps.sorted hs) .., ?_⟩
  unfold missed
  rw [getF_addF_same (hkeeps.sorted hs), hkeeps.same hs]
  omega

/-- The path of a fetch does not depend on the fetches. -/
theorem pathOf_missed (s : State) (f : Fetch) (o : Obj) : pathOf (missed s f) o = pathOf s o := by
  have heq := (deadlineCycles_send s f).eq
  unfold missed
  generalize passTo s 57 (f.accepted + f.deadline) = t at heq ⊢
  rw [heq]
  rfl

/-- What a deadline that expires leaves. -/
theorem exec_deadlineExpire {i : Nat} (hf : findFetch s f.id = some f) (ho : findObj s f.nsid f.obj = some o) (hi : i ∈ f.pages)
    (hmissing : pageResident s f.nsid f.obj i = false) (hcmd : f.issuer = .cmd c.no) (hdl : f.deadline ≠ 0) (hexp : f.expired = false) :
    exec (.deadlineExpire f.id) s = .next (if pathOf s o = 0 then missed s f
      else addF (answerFetch (updFetch (missed s f) f.id spill) f 2 (pathOf s o) 1) 57 F.TM_SPILL_COUNT 1) := by
  have hmiss : (!f.pages.all (pageResident s f.nsid f.obj)) = true := by
    simp only [Bool.not_eq_true', List.all_eq_false]
    exact ⟨i, hi, by simp [hmissing]⟩
  have hgo : ¬ (f.deadline = 0 ∨ f.expired = true ∨ (!f.pages.all (pageResident s f.nsid f.obj)) = false) := by
    rw [hmiss, hexp]
    simpa using hdl
  have hobj : findObj (missed s f) f.nsid f.obj = some o :=
    (findObj_congr (congrArg State.search (deadlineCycles_send s f).eq :) _ _).trans ho
  have hpath : fetchPath (missed s f) f o = pathOf s o := by
    unfold fetchPath
    rw [hcmd]
    exact pathOf_missed s f o
  refine congrArg Host.Outcome.next ?_
  simp only [hf, hcmd]
  refine (if_neg hgo).trans ?_
  show (match findObj (missed s f) f.nsid f.obj with
    | none => missed s f
    | some o => if fetchPath (missed s f) f o = 0 then missed s f else spillFetch (updFetch (missed s f) f.id spill) f (fetchPath (missed s f) f o) 1) = _
  rw [hobj]
  dsimp only
  rw [hpath]
  rfl

/-- A deadline that expires counts once; the fetch goes on, or takes its path (R126-R130). -/
theorem deadlineExpire_gives {i : Nat} (hf : findFetch s f.id = some f) (ho : findObj s f.nsid f.obj = some o) (hi : i ∈ f.pages)
    (hmissing : pageResident s f.nsid f.obj i = false) (hcmd : f.issuer = .cmd c.no) (hdl : f.deadline ≠ 0) (hexp : f.expired = false)
    (hs : mSorted none s.regs = true) (hlt : getF s 57 F.TM_DEADLINE_MISS_COUNT < 2 ^ F.TM_DEADLINE_MISS_COUNT.w - 1) :
    Gives (.deadlineExpire f.id) s fun t =>
      getF t 57 F.TM_DEADLINE_MISS_COUNT = getF s 57 F.TM_DEADLINE_MISS_COUNT + 1
        ∧ (pathOf s o = 0 → findFetch t f.id = some { f with expired := true } ∧ t.dqp = s.dqp)
        ∧ (pathOf s o ≠ 0 → findFetch t f.id = some { f with expired := true, spilled := true } ∧ findCmd t c.no = none
          ∧ ∃ x r0 r1, t = addF (complete x c.no 2 r0 r1 (pathOf s o + 65536)) 57 F.TM_SPILL_COUNT 1) := by
  obtain ⟨hsorted, hcount⟩ := missed_count (f := f) hs hlt
  have hrun := exec_deadlineExpire hf ho hi hmissing hcmd hdl hexp
  by_cases hpath : pathOf s o = 0
  · rw [if_pos hpath] at hrun
    exact ⟨_, hrun, hcount, fun _ => ⟨findFetch_missed hf, (congrArg State.dqp (deadlineCycles_send s f).eq :)⟩, fun h => absurd hpath h⟩
  · rw [if_neg hpath] at hrun
    have hanswer : ∃ r0 r1, answerFetch (updFetch (missed s f) f.id spill) f 2 (pathOf s o) 1
        = complete (updFetch (missed s f) f.id spill) c.no 2 r0 r1 (pathOf s o + 65536) := by
      unfold answerFetch
      rw [hcmd]
      exact ⟨_, _, rfl⟩
    obtain ⟨r0, r1, hanswer⟩ := hanswer
    rw [hanswer] at hrun
    have hkept : KeepsField 57 F.TM_DEADLINE_MISS_COUNT (missed s f)
        (addF (complete (updFetch (missed s f) f.id spill) c.no 2 r0 r1 (pathOf s o + 65536)) 57 F.TM_SPILL_COUNT 1) := by
      have hstill : F.TM_DEADLINE_MISS_COUNT.still = true := by decide
      have hmarked : KeepsField 57 F.TM_DEADLINE_MISS_COUNT (missed s f) (updFetch (missed s f) f.id spill) := .of_regs rfl
      exact hmarked.trans ((KeepsField.complete hstill ..).trans (.setF_other hstill (by decide) (.inl (by decide)) _ 57 _ (by decide)))
    refine ⟨_, hrun, (hkept.same hsorted).trans hcount, fun h => absurd h hpath, fun _ => ⟨?_, findCmd_complete .., _, _, _, rfl⟩⟩
    refine (findFetch_congr (Answers.complete (updFetch (missed s f) f.id spill) c.no 2 r0 r1 (pathOf s o + 65536)).fetches f.id).trans ?_
    rw [findFetch_updFetch (g := spill) fun _ => rfl, findFetch_missed hf]
    rfl

end Ends

/-- Settles O26: the tier commands and the fetches they order. -/
theorem tierCommandsAndFetches : Obligations.TierCommandsAndFetches := by
  unfold Obligations.TierCommandsAndFetches
  refine ⟨⟨fun s id c o hobj hfree => ⟨fun h hconds hdest hpin hpins => tierMoveRelease_gives h hobj hfree hconds hdest hpin hpins,
      fun h hconds hpins => tierUnpin_gives h hobj hfree hconds hpins,
      fun h hdie htier hgrain hpin => ⟨fun hsame => tierHint_gives h hobj hfree hdie htier hgrain hpin hsame,
        fun hne hheld => tierHint_regrains h hobj hfree hdie htier hgrain hpin hne hheld⟩,
      fun h hkind hshadow htwo hthree => shadowSet_gives h hobj hkind hshadow htwo hthree⟩,
    fun s id c h hlist hlen => quotaQuery_gives h hlist hlen⟩, fun s id c o => ⟨fun hobj hfree hq => ?_, ?_, ?_, ?_, ?_⟩⟩
  · exact ⟨fun h hconds hdest hpin => tierMoveResident_gives h hobj hfree hq hconds hdest hpin, fun h hconds => tierPin_gives h hobj hfree hq hconds⟩
  · intro p idx outs hp ho hres hasleep hagain hlost hrefresh n bad
    have hu : Reads s (noteRo (unitReads s (unitsIn o (idx * pageBytes o) n) outs)) := (Reads.unitReads ..).trans (Reads.noteRo _)
    have hrun := exec_pageFetchComplete (outs := outs) hp ho hres hasleep hagain hlost hrefresh
    have hobj : findObj (noteRo (unitReads s (unitsIn o (idx * pageBytes o) n) outs)) o.nsid o.id = some o := (findObj_congr hu.search ..).trans ho
    refine ⟨fun hbad => ?_, fun hbad hq hnone => ?_, fun hbad hq => ?_⟩
    · exact ⟨_, hrun.trans (congrArg Host.Outcome.next (if_pos (List.isEmpty_iff.mpr hbad))), pageArrives_gives hp hu n⟩
    · have hlost := hrun.trans (congrArg Host.Outcome.next (if_neg fun hempty => hbad (List.isEmpty_iff.mp hempty)))
      obtain ⟨hfound, hpages, hbytes⟩ := quarantine_gives hq hobj (fun f hf => hnone f (hu.mem ▸ hf)) bad
      exact ⟨_, hlost, hfound, hpages, hbytes.trans (congrArg Mem.bytes hu.mem)⟩
    · have hlost := hrun.trans (congrArg Host.Outcome.next (if_neg fun hempty => hbad (List.isEmpty_iff.mp hempty)))
      exact ⟨_, hlost, quarantine_answers hq hobj bad⟩
  · intro p idx outs hp ho hres hasleep hagain hlost hrefresh
    exact pageFetchComplete_again hp ho hres hasleep hagain hlost hrefresh
  · exact fun f hf ho hall hcmd hspilled => tierFetchComplete_gives hf ho hall hcmd hspilled
  · intro f i hf ho hi hmissing hcmd hdl hexp _ hwf hlt
    obtain ⟨-, hs, -⟩ := (State.wf_iff s).mp hwf
    exact deadlineExpire_gives hf ho hi hmissing hcmd hdl hexp hs hlt

end Sys2Proof.Machine
end

section
/-!
PROOFS. Scope: tiles: their state and registers read after a write, what a tile does where nothing is counted, and the end of an operation
at the rill that issued it (R148, R228, R229, R476).
-/
namespace Sys2Proof.Machine

/-! ### Fields of several instances -/

/-- Two fields lie at different bits, within the bounds of the layout. -/
def fieldsApart (f g : Field) : Bool :=
  decide (f.reg < 512) && decide (f.lo < 32) && decide (g.reg < 512) && decide (g.lo < 32) && (f.reg != g.reg || f.lo != g.lo)

theorem fieldKey_apart {f g : Field} (h : fieldsApart f g = true) {i j i' j' : Nat} (hi : i < 2048) (hj : j < 64) (hi' : i' < 2048) (hj' : j' < 64)
    (isl isl' : Nat) : fieldKey isl f i j ≠ fieldKey isl' g i' j' := by
  simp only [fieldsApart, Bool.and_eq_true, Bool.or_eq_true, bne_iff_ne, decide_eq_true_eq] at h
  obtain ⟨⟨⟨⟨hfr, hfl⟩, hgr⟩, hgl⟩, hne⟩ := h
  intro hkey
  obtain ⟨-, hreg, -, -, hlo⟩ := fieldKey_inj hfr hgr hi hi' hj hj' hfl hgl hkey
  exact hne.elim (· hreg) (· hlo)

/-- A field reads as before at one index, and the register store keeps its form. -/
structure KeepsAt (isl : Nat) (g : Field) (i : Nat) (s t : State) : Prop where
  sorted : mSorted none s.regs = true → mSorted none t.regs = true
  same : mSorted none s.regs = true → getF t isl g i = getF s isl g i

namespace KeepsAt
variable {isl i : Nat} {g : Field} {s t u : State}

theorem refl (s : State) : KeepsAt isl g i s s := ⟨id, fun _ => rfl⟩

theorem trans (h : KeepsAt isl g i s t) (h' : KeepsAt isl g i t u) : KeepsAt isl g i s u :=
  ⟨fun hs => h'.sorted (h.sorted hs), fun hs => (h'.same (h.sorted hs)).trans (h.same hs)⟩

theorem foldl {α : Type} {f : State → α → State} {l : List α} (h : ∀ s, ∀ a ∈ l, KeepsAt isl g i s (f s a)) (s : State) :
    KeepsAt isl g i s (l.foldl f s) := by
  induction l generalizing s with
  | nil => exact refl s
  | cons a l ih => exact (h s a List.mem_cons_self).trans (ih (fun s b hb => h s b (List.mem_cons_of_mem a hb)) _)

theorem of_regs (hr : t.regs = s.regs) : KeepsAt isl g i s t := ⟨fun hs => hr ▸ hs, fun _ => getF_congr hr ..⟩

/-- A write of a field that lies apart. -/
theorem setF {f : Field} (h : fieldsApart g f = true) (hi : i < 2048) {i' j' : Nat} (hi' : i' < 2048) (hj' : j' < 64) (s : State) (isl' v : Nat) :
    KeepsAt isl g i s (setF s isl' f v i' j') :=
  ⟨fun hs => setF_regs_sorted hs .., fun hs => getF_setF_ne hs _ _ _ _ _ _ _ _ _ (fieldKey_apart h hi (by decide : 0 < 64) hi' hj' isl isl')⟩

/-- A count in a field that lies apart. -/
theorem addF {f : Field} (h : fieldsApart g f = true) (hi : i < 2048) {i' : Nat} (hi' : i' < 2048) (s : State) (isl' n : Nat) :
    KeepsAt isl g i s (addF s isl' f n i') := setF h hi hi' (by decide) s isl' _

/-- A bit written in a field that lies apart. -/
theorem setFBit {f : Field} (h : fieldsApart g f = true) (hi : i < 2048) {i' : Nat} (hi' : i' < 2048) (s : State) (isl' b : Nat) (v : Bool) :
    KeepsAt isl g i s (setFBit s isl' f b v i') := setF h hi hi' (by decide) s isl' _

end KeepsAt

/-- A count that does not saturate. -/
theorem getF_addF_lt {s : State} (hs : mSorted none s.regs = true) {isl i n : Nat} {f : Field} (h : getF s isl f i + n < 2 ^ f.w) :
    getF (addF s isl f n i) isl f i = getF s isl f i + n := by
  have hmin : min (getF s isl f i + n) (2 ^ f.w - 1) = getF s isl f i + n := by omega
  rw [addF, getF_setF_same hs, hmin, Nat.mod_eq_of_lt h]

/-! ### Tiles -/

section Tiles
variable {s : State} {reach tile : Nat}

theorem getTile_putTile (hs : mSorted none s.tiles = true) (x : Tile) : getTile (putTile s reach tile x) reach tile = x := mget_mset_same _ _ _ hs

theorem getTile_updTile (hs : mSorted none s.tiles = true) (f : Tile → Tile) : getTile (updTile s reach tile f) reach tile = f (getTile s reach tile) :=
  getTile_putTile hs _

theorem putTile_sorted (hs : mSorted none s.tiles = true) (x : Tile) : mSorted none (putTile s reach tile x).tiles = true := mSorted_mset _ _ _ hs

theorem updTile_sorted (hs : mSorted none s.tiles = true) (f : Tile → Tile) : mSorted none (updTile s reach tile f).tiles = true := putTile_sorted hs _

theorem getTile_updPass (hs : mSorted none s.tiles = true) (no : Nat) (f : TPass → TPass) :
    getTile (updPass s reach tile no f) reach tile
      = { getTile s reach tile with flight := (getTile s reach tile).flight.map fun x => if x.no = no then f x else x } :=
  getTile_updTile hs _

/-- A pass in flight that is changed is there as changed. -/
theorem mem_flight_updPass (hs : mSorted none s.tiles = true) {p : TPass} (hp : p ∈ (getTile s reach tile).flight) (f : TPass → TPass) :
    f p ∈ (getTile (updPass s reach tile p.no f) reach tile).flight := by
  rw [getTile_updPass hs]
  exact List.mem_map.mpr ⟨p, hp, if_pos rfl⟩

end Tiles

/-! ### A tile at work, nothing counted (R476) -/

/-- A pass's event in a reach whose counters do not run. -/
theorem tileEv_off {s : State} {reach : Nat} (h : getF s reach F.CNT_CTRL_EN = 0) (tile : Nat) (p : TPass) (code n : Nat) :
    tileEv s reach tile p code n = s := by
  unfold tileEv
  split
  · rfl
  · simp only [countSrc, h, if_true]

/-- A pass's event after its count in a tile's field. -/
theorem tileEv_addF_off {s : State} {reach tile : Nat} (hs : mSorted none s.regs = true) (h : getF s reach F.CNT_CTRL_EN = 0) (ht : tile < 48) {f : Field}
    (hf : fieldsApart F.CNT_CTRL_EN f = true) (k : Nat) (p : TPass) (code n : Nat) :
    tileEv (addF s reach f k tile) reach tile p code n = addF s reach f k tile := by
  have hkept : KeepsAt reach F.CNT_CTRL_EN 0 s (addF s reach f k tile) := .addF hf (by decide) (by omega) ..
  exact tileEv_off ((hkept.same hs).trans h) ..

namespace TileAtWork
variable {s : State} {reach tile : Nat} (h : TileAtWork s reach tile)
include h

theorem wf : State.wf s = true := by
  obtain ⟨hwf, -⟩ := h
  exact hwf

theorem tile_lt : tile < 48 := by
  obtain ⟨-, -, htile, -⟩ := h
  exact htile

theorem live : reachLive s reach = true := by
  obtain ⟨-, -, -, hlive, -⟩ := h
  exact hlive

theorem enabled : tileEnabled s reach tile = true := by
  obtain ⟨-, -, -, -, hen, -⟩ := h
  exact hen

theorem uncounted : getF s reach F.CNT_CTRL_EN = 0 := by
  obtain ⟨-, -, -, -, -, ⟨hcnt, -⟩, -⟩ := h
  exact hcnt

theorem uncaught : ∀ c ∈ s.counters.captures, c.island ≠ reach := by
  obtain ⟨-, -, -, -, -, ⟨-, hcap⟩, -⟩ := h
  exact hcap

theorem unarmed : getF s reach F.TILE_INJECT_ARM tile = 0 := by
  obtain ⟨-, -, -, -, -, -, harm⟩ := h
  exact harm

theorem mem_wf : Memory.wf s.mem.bytes = true := by
  obtain ⟨hm, -⟩ := (State.wf_iff s).mp h.wf
  exact hm

theorem regs_sorted : mSorted none s.regs = true := by
  obtain ⟨-, hr, -⟩ := (State.wf_iff s).mp h.wf
  exact hr

theorem tiles_sorted : mSorted none s.tiles = true := by
  obtain ⟨-, -, -, -, -, -, ht⟩ := (State.wf_iff s).mp h.wf
  exact ht

end TileAtWork

/-! ### The end of an operation (R148, R228, R229) -/

/-- A completed operation shows at its launch, its context and the rills. -/
theorem completeOp_frame (s : State) (op : OpRef) (status : Nat) :
    completeOp s op status = { s with sched := (completeOp s op status).sched, runnels := (completeOp s op status).runnels } := by
  unfold completeOp
  dsimp only
  rw [noteBlock_frame]
  rfl

theorem mfind_map {α β : Type} (f : α → β) (m : NMap α) (k : Nat) : mfind (m.map fun p => (p.1, f p.2)) k = (mfind m k).map f := by
  induction m with
  | nil => rfl
  | cons p m ih =>
    obtain ⟨j, v⟩ := p
    simp only [List.map_cons, mfind, ih]
    split
    · rfl
    · split <;> rfl

/-- What the end of an operation does to a rill (R228). -/
def markTicket (op : OpRef) (status : Nat) (r : Rill) : Rill :=
  if r.uid = op.uid then finishWait { r with tickets := mins r.tickets op.ticket (some status) } else r

theorem completeOp_rills (s : State) (op : OpRef) (status : Nat) :
    (completeOp s op status).runnels.rills = s.runnels.rills.map fun p => (p.1, markTicket op status p.2) := by
  unfold completeOp
  dsimp only
  rw [noteBlock_frame]
  rfl

/-- A rill that waits for no ticket has the ticket of its operation completed. -/
theorem ticketDone_completeOp {s t : State} (h : t.runnels = s.runnels) (op : OpRef) (status : Nat) : TicketDone s (completeOp t op status) op status := by
  intro k r hget huid hwait
  have hfound : mfind s.runnels.rills k = some r := hget
  rw [getRill, completeOp_rills, h, mfind_map, hfound, Option.map_some, markTicket, if_pos huid, finishWait]
  simp only [hwait]

/-- A pass ends: one more in the count of its tile, and nothing else but its operation's end. -/
theorem finishPass_frame (s : State) (reach tile : Nat) (p : TPass) (status : Nat) :
    finishPass s reach tile p status = { s with
      regs := (addF s reach F.TILE_PASSES_COUNT 1 tile).regs
      sched := (finishPass s reach tile p status).sched
      runnels := (finishPass s reach tile p status).runnels } := by
  conv_lhs => rw [finishPass, completeOp_frame]
  rfl

theorem ticketDone_finishPass {s t : State} (h : t.runnels = s.runnels) (reach tile : Nat) (p : TPass) (status : Nat) :
    TicketDone s (finishPass t reach tile p status) p.op status := ticketDone_completeOp (t := addF t reach F.TILE_PASSES_COUNT 1 tile) h p.op status

/-- A field apart from the count of passes. -/
theorem KeepsAt.finishPass {isl i : Nat} {g : Field} (h : fieldsApart g F.TILE_PASSES_COUNT = true) (hi : i < 2048) {tile : Nat} (ht : tile < 48)
    (s : State) (reach : Nat) (p : TPass) (status : Nat) : KeepsAt isl g i s (finishPass s reach tile p status) :=
  (KeepsAt.addF h hi (by omega) s reach 1).trans (.of_regs (congrArg State.regs (finishPass_frame s reach tile p status) :))

end Sys2Proof.Machine
end

section
/-!
PROOFS. Scope: the start of passes: scale writes, the pass a lane starts next, what it is in flight, and escalation passes (R145-R149, R151,
R155, R158, R200, R255).
-/
namespace Sys2Proof.Machine

/-! ### Scale writes (R147) -/

/-- Without a scale write in the queue none takes effect. -/
theorem drainScales_none {s : State} {reach tile : Nat} (h : ∀ x ∈ (getTile s reach tile).queue, x.scaleWrite = none) (n : Nat) :
    drainScales reach tile n s = s := by
  cases n with
  | zero => rfl
  | succ n =>
    have hnone : ([(getTile s reach tile).queue.find? (fun p => p.slot == 0), (getTile s reach tile).queue.find? (fun p => p.slot == 1)].filterMap id).find?
        (fun p => p.scaleWrite.isSome && !uncaptured (getTile s reach tile) p.slot) = none := by
      refine List.find?_eq_none.mpr fun x hx => ?_
      obtain ⟨o, ho, rfl : o = some x⟩ := List.mem_filterMap.mp hx
      have hmem : x ∈ (getTile s reach tile).queue := by
        simp only [List.mem_cons, List.not_mem_nil, or_false] at ho
        exact ho.elim (fun h => List.mem_of_find?_eq_some h.symm) fun h => List.mem_of_find?_eq_some h.symm
      simp [h x hmem]
    simp only [drainScales, hnone]

/-- The scale write that is all of a tile's queue takes effect. -/
theorem drainScales_one {s : State} {reach tile : Nat} {p : TPass} {i v : Nat} (hq : (getTile s reach tile).queue = [p])
    (hw : p.scaleWrite = some (i, v)) (hf : (getTile s reach tile).flight = []) (hslot : p.slot < 2) :
    drainScales reach tile 1 s
      = completeOp (setF (putTile s reach tile { getTile s reach tile with queue := [] }) reach F.TILE_SCALE_SCALE v tile i) p.op 0 := by
  have hhead : ([(getTile s reach tile).queue.find? (fun p => p.slot == 0), (getTile s reach tile).queue.find? (fun p => p.slot == 1)].filterMap id).find?
      (fun p => p.scaleWrite.isSome && !uncaptured (getTile s reach tile) p.slot) = some p := by
    have hcase : p.slot = 0 ∨ p.slot = 1 := by omega
    obtain h | h := hcase <;> simp [hq, hw, hf, h, uncaptured]
  simp only [drainScales, hhead]
  simp [hq, hw]

/-! ### The pass a lane starts next (R146) -/

/-- The first entry of a residency slot in a tile's queue. -/
def slotFirst (t : Tile) (sl : Nat) : Option TPass := (t.queue.filter (fun x => x.slot == sl)).head?

/-- A queued pass of a full-mode tile may start: no turn holds its slot, and the checks reject it or the port holds its first weights. -/
def Startable (s : State) (reach tile : Nat) (x : TPass) : Prop :=
  slotHeld s reach x.slot = false ∧ (startCheck s reach tile x (activeFmt s reach tile) ≠ 0
    ∨ weightRow (activeFmt s reach tile) ≤ (ownBytes ((getTile s reach tile).wport.getD 0 []) x.no).length)

section NextPass
variable {s : State} {reach tile : Nat} (hsw : ∀ x ∈ (getTile s reach tile).queue, x.scaleWrite = none)
  (hmode : fmtMode (activeFmt s reach tile) = 0)

theorem slotFirst_slot {t : Tile} {sl : Nat} {x : TPass} (h : slotFirst t sl = some x) : x.slot = sl := by
  have hmem := (List.mem_filter.mp (List.mem_of_mem_head? (Option.mem_def.mpr h))).2
  simpa using hmem

include hsw hmode in
/-- The first pass of a slot in full mode. -/
theorem slotHead_full (sl : Nat) : slotHead s reach tile 0 sl = if slotHeld s reach sl then none else slotFirst (getTile s reach tile) sl := by
  have hall : ((getTile s reach tile).queue.filter (fun p => p.slot == sl)).takeWhile (fun p => p.scaleWrite.isNone)
      = (getTile s reach tile).queue.filter (fun p => p.slot == sl) :=
    List.takeWhile_eq_self_iff.mpr fun x hx => by simp [hsw x (List.mem_filter.mp hx).1]
  have hne : ¬ fmtMode (activeFmt s reach tile) = 1 := by omega
  simp only [slotHead, hall, if_neg hne, slotFirst]

include hmode in
theorem passReady_full (x : TPass) : passReady s reach tile 0 x = true ↔ startCheck s reach tile x (activeFmt s reach tile) ≠ 0
    ∨ weightRow (activeFmt s reach tile) ≤ (ownBytes ((getTile s reach tile).wport.getD 0 []) x.no).length := by
  have hne : ¬ fmtMode (activeFmt s reach tile) = 2 := by omega
  simp only [passReady, if_neg hne, Bool.or_eq_true, bne_iff_ne, decide_eq_true_eq]

include hsw hmode in
/-- A slot offers its first pass where that may start. -/
theorem slotHead_ready_iff (sl : Nat) (x : TPass) : (slotHead s reach tile 0 sl).filter (passReady s reach tile 0) = some x
    ↔ slotFirst (getTile s reach tile) sl = some x ∧ Startable s reach tile x := by
  rw [Option.filter_eq_some_iff, passReady_full hmode, slotHead_full hsw hmode, Startable]
  cases hheld : slotHeld s reach sl
  · constructor
    · rintro ⟨hfirst, hready⟩
      have hfirst' : slotFirst (getTile s reach tile) sl = some x := by simpa using hfirst
      exact ⟨hfirst', slotFirst_slot hfirst' ▸ hheld, hready⟩
    · rintro ⟨hfirst, -, hready⟩
      exact ⟨by simpa using hfirst, hready⟩
  · constructor
    · rintro ⟨hfirst, -⟩
      cases hfirst
    · rintro ⟨hfirst, hfree, -⟩
      rw [slotFirst_slot hfirst, hheld] at hfree
      cases hfree

include hsw hmode in
/-- The earlier of the two slots' first passes starts, slot 0's on a tie. -/
theorem nextPass_earlier {p : TPass} (hp : slotFirst (getTile s reach tile) p.slot = some p) (hslot : p.slot < 2) (hready : Startable s reach tile p)
    (hother : ∀ x, slotFirst (getTile s reach tile) (1 - p.slot) = some x → Startable s reach tile x →
      p.accepted < x.accepted ∨ (p.accepted = x.accepted ∧ p.slot = 0)) : nextPass s reach tile 0 = some p := by
  have hmine := (slotHead_ready_iff hsw hmode p.slot p).mpr ⟨hp, hready⟩
  have hcase : p.slot = 0 ∨ p.slot = 1 := by omega
  obtain h | h := hcase
  · rw [h] at hmine
    unfold nextPass
    rw [hmine]
    cases hoff : (slotHead s reach tile 0 1).filter (passReady s reach tile 0) with
    | none => rfl
    | some x =>
      obtain ⟨hx, hxready⟩ := (slotHead_ready_iff hsw hmode 1 x).mp hoff
      have hlater := hother x (by rw [h]; exact hx) hxready
      have hxslot := slotFirst_slot hx
      have hnot : x.before p = false := by
        simp only [TPass.before, Bool.or_eq_false_iff, Bool.and_eq_false_iff, decide_eq_false_iff_not, beq_eq_false_iff_ne]
        omega
      simp [hnot]
  · rw [h] at hmine
    unfold nextPass
    rw [hmine]
    cases hoff : (slotHead s reach tile 0 0).filter (passReady s reach tile 0) with
    | none => rfl
    | some x =>
      obtain ⟨hx, hxready⟩ := (slotHead_ready_iff hsw hmode 0 x).mp hoff
      have hlater := hother x (by rw [h]; exact hx) hxready
      have hbefore : p.before x = true := by
        simp only [TPass.before, Bool.or_eq_true, decide_eq_true_eq]
        omega
      simp [hbefore]

include hsw hmode in
/-- With no first pass that may start, none does. -/
theorem nextPass_none (h : ∀ sl x, sl < 2 → slotFirst (getTile s reach tile) sl = some x → ¬ Startable s reach tile x) :
    nextPass s reach tile 0 = none := by
  have hoff (sl : Nat) (hsl : sl < 2) : (slotHead s reach tile 0 sl).filter (passReady s reach tile 0) = none :=
    Option.eq_none_iff_forall_ne_some.mpr fun x hx =>
      let ⟨hfirst, hready⟩ := (slotHead_ready_iff hsw hmode sl x).mp hx
      h sl x hsl hfirst hready
  simp only [nextPass, hoff 0 (by decide), hoff 1 (by decide)]

end NextPass

/-! ### Bytes taken up as a pass starts (R151, R156) -/

/-- Two stages of one pass in flight. -/
structure SamePass (x y : TPass) : Prop where
  no : x.no = y.no
  fmt : x.fmt = y.fmt
  started : x.started = y.started
  scales : x.scales = y.scales

/-- A tile takes up bytes: its queue is as it was, and its passes in flight are the same ones. -/
structure TakesUp (t t' : Tile) : Prop where
  queue : t'.queue = t.queue
  nos : t'.flight.map (·.no) = t.flight.map (·.no)
  passes : ∀ x ∈ t'.flight, ∃ y ∈ t.flight, SamePass x y

namespace TakesUp

theorem refl (t : Tile) : TakesUp t t := ⟨rfl, rfl, fun x hx => ⟨x, hx, rfl, rfl, rfl, rfl⟩⟩

theorem trans {t u v : Tile} (h : TakesUp t u) (h' : TakesUp u v) : TakesUp t v := by
  refine ⟨h'.queue.trans h.queue, h'.nos.trans h.nos, fun x hx => ?_⟩
  obtain ⟨y, hy, hxy⟩ := h'.passes x hx
  obtain ⟨z, hz, hyz⟩ := h.passes y hy
  exact ⟨z, hz, hxy.no.trans hyz.no, hxy.fmt.trans hyz.fmt, hxy.started.trans hyz.started, hxy.scales.trans hyz.scales⟩

/-- One pass goes on by a stage. -/
theorem of_stage {t t' : Tile} {p p' : TPass} (hp : p ∈ t.flight) (hsame : SamePass p' p) (hq : t'.queue = t.queue)
    (hf : t'.flight = t.flight.map fun x => if x.no = p.no then p' else x) : TakesUp t t' := by
  refine ⟨hq, ?_, fun x hx => ?_⟩
  · rw [hf, List.map_map]
    refine List.map_congr_left fun x _ => ?_
    by_cases h : x.no = p.no
    · simp [h, hsame.no]
    · simp [h]
  · rw [hf] at hx
    obtain ⟨y, hy, rfl⟩ := List.mem_map.mp hx
    by_cases h : y.no = p.no
    · rw [if_pos h]
      exact ⟨p, hp, hsame⟩
    · rw [if_neg h]
      exact ⟨y, hy, rfl, rfl, rfl, rfl⟩

end TakesUp

theorem absorb_takesUp (t : Tile) (q : Nat) : TakesUp t (absorb t q) := by
  unfold absorb
  extract_lets wl loaded
  have hloaded : TakesUp t loaded := by
    unfold loaded wl
    split
    · exact .refl t
    case h_2 p hp =>
      dsimp only
      split
      · exact .refl t
      · refine .of_stage (List.mem_of_find?_eq_some hp) ?_ rfl rfl
        exact ⟨rfl, rfl, rfl, rfl⟩
  refine hloaded.trans ?_
  split
  · exact .refl loaded
  case h_2 p hp =>
    refine .of_stage (List.mem_of_find?_eq_some hp) ?_ rfl rfl
    exact ⟨rfl, rfl, rfl, rfl⟩

/-! ### PASS_START -/

/-- A queued pass as it goes in flight on a tile that injects no error (R145, R147, R150). -/
def takenPass (s : State) (reach tile : Nat) (p : TPass) : TPass :=
  let t := getTile s reach tile
  let f := activeFmt s reach tile
  { p with
    started := t.starts, fmt := f, sent := activeSent s reach tile
    scales := if fmtMode f = 2 then [] else scalesNow s reach tile p f
    acts := if p.reuse then ((t.keep).map (·.data)).getD [] else []
    inject := none
    due := if fmtMode f = 0 then some (cyc s reach) else none }

/-- The state with a queued pass gone in flight. -/
def passTaken (s : State) (reach tile q : Nat) (p : TPass) : State :=
  updTile s reach tile fun t => absorb { t with
    queue := t.queue.filter (fun x => x.no != p.no), flight := t.flight ++ [takenPass s reach tile p], starts := t.starts + 1 } q

/-- The state with the next escalation pass of a pass in flight. -/
def escStarted (s : State) (reach tile : Nat) (p : TPass) : State :=
  updPass (updTile s reach tile fun t => { t with starts := t.starts + 1 }) reach tile p.no fun x =>
    { x with owns := true, esc := updAt x.esc 0 fun b => { b with flying := true, started := (getTile s reach tile).starts } }

/-- The next escalation pass of a pass has not started. -/
def escWaits (p : TPass) : Bool := match p.esc.head? with | some b => !b.flying | none => false

theorem escWaits_batch {p : TPass} (h : escWaits p = true) : ∃ b l, p.esc = b :: l := by
  cases hl : p.esc with
  | nil => simp [escWaits, hl] at h
  | cons b l => exact ⟨b, l, rfl⟩

/-- A pass whose escalation pass waits is in flight and has a batch. -/
theorem waitingEsc_spec {t : Tile} {p : TPass} (h : waitingEsc t = some p) : p ∈ t.flight ∧ ∃ b l, p.esc = b :: l := by
  change (match t.flight.find? (·.owns) with | some p => if escWaits p = true then some p else none | none => t.flight.find? escWaits) = some p at h
  split at h
  case h_1 x hx =>
    split at h
    case isTrue hwaits =>
      obtain rfl := Option.some.inj h
      exact ⟨List.mem_of_find?_eq_some hx, escWaits_batch hwaits⟩
    case isFalse => cases h
  case h_2 => exact ⟨List.mem_of_find?_eq_some h, escWaits_batch (List.find?_some h)⟩

section Start
variable {s : State} {reach tile : Nat} (h : TileAtWork s reach tile)
include h

/-- The state in which a pass is taken off the queue of a reach where nothing is counted. -/
theorem tileEv_capturePoint_off (p p' : TPass) : tileEv (capturePoint s.counters.captures s reach (p.source tile)) reach tile p' 0x14 1 = s := by
  rw [capturePoint_off h.uncaught, tileEv_off h.uncounted]

section Queued
variable {quad : Nat} {p : TPass} (hsw : ∀ x ∈ (getTile s reach tile).queue, x.scaleWrite = none)
  (hroom : inflight (getTile s reach tile) (if fmtMode (activeFmt s reach tile) = 1 then quad % 4 else 0) < 2)
  (hload : loading (getTile s reach tile) (if fmtMode (activeFmt s reach tile) = 1 then quad % 4 else 0) = false)
include hsw hroom hload

/-- What PASS_START does in a lane with room, no scale write queued. -/
theorem exec_passStart_room : exec (.passStart reach tile quad) s = .next (
    match (if fmtMode (activeFmt s reach tile) = 0 then waitingEsc (getTile s reach tile) else none) with
    | some p => escStarted s reach tile p
    | none =>
      if escQueued (getTile s reach tile) = true ∨ getF s reach F.TILE_GROUP_FMT_EPOCH_PENDING tile = 1 then s
      else
        match nextPass s reach tile (if fmtMode (activeFmt s reach tile) = 1 then quad % 4 else 0) with
        | none => s
        | some p =>
          if startCheck s reach tile p (activeFmt s reach tile) ≠ 0 then
            finishPass (updTile s reach tile (·.forget [p.no])) reach tile p (startCheck s reach tile p (activeFmt s reach tile))
          else passTaken s reach tile (if fmtMode (activeFmt s reach tile) = 1 then quad % 4 else 0) p) := by
  have hgo : ¬ ((!tileEnabled s reach tile || !reachLive s reach) = true) := by simp [h.enabled, h.live]
  have hfree : ¬ (2 ≤ inflight (getTile s reach tile) (if fmtMode (activeFmt s reach tile) = 1 then quad % 4 else 0)
      ∨ loading (getTile s reach tile) (if fmtMode (activeFmt s reach tile) = 1 then quad % 4 else 0) = true) := by
    rw [hload]
    exact fun hbusy => hbusy.elim (by omega) (by decide)
  have harm : (getF s reach F.TILE_INJECT_ARM tile == 1) = false := by rw [h.unarmed]; rfl
  show execPassStart reach tile quad s = _
  unfold execPassStart
  rw [if_neg hgo]
  simp only [drainScales_none hsw, if_neg hfree, harm, tileEv_capturePoint_off h, Bool.false_eq_true, if_false]
  rfl

/-- Nothing starts where no queued pass may. -/
theorem passStart_none (hmode : fmtMode (activeFmt s reach tile) = 0) (hesc : waitingEsc (getTile s reach tile) = none)
    (hnone : ∀ sl x, sl < 2 → slotFirst (getTile s reach tile) sl = some x → ¬ Startable s reach tile x) :
    exec (.passStart reach tile quad) s = .next s := by
  have hne : ¬ fmtMode (activeFmt s reach tile) = 1 := by omega
  rw [exec_passStart_room h hsw hroom hload]
  simp only [if_pos hmode, hesc, if_neg hne, nextPass_none hsw hmode hnone, ite_self]

/-- The pass that is next ends with its status or goes in flight (R145, R148). -/
theorem passStart_next (hesc : (if fmtMode (activeFmt s reach tile) = 0 then waitingEsc (getTile s reach tile) else none) = none)
    (hqueued : escQueued (getTile s reach tile) = false) (hpend : getF s reach F.TILE_GROUP_FMT_EPOCH_PENDING tile ≠ 1)
    (hnext : nextPass s reach tile (if fmtMode (activeFmt s reach tile) = 1 then quad % 4 else 0) = some p) :
    exec (.passStart reach tile quad) s = .next (if startCheck s reach tile p (activeFmt s reach tile) ≠ 0 then
        finishPass (updTile s reach tile (·.forget [p.no])) reach tile p (startCheck s reach tile p (activeFmt s reach tile))
      else passTaken s reach tile (if fmtMode (activeFmt s reach tile) = 1 then quad % 4 else 0) p) := by
  have hgo : ¬ (escQueued (getTile s reach tile) = true ∨ getF s reach F.TILE_GROUP_FMT_EPOCH_PENDING tile = 1) := by simp [hqueued, hpend]
  rw [exec_passStart_room h hsw hroom hload, hesc]
  simp only [if_neg hgo, hnext]

/-- An escalation pass that waits starts ahead of every queued one (R200). -/
theorem passStart_escalation (hmode : fmtMode (activeFmt s reach tile) = 0) (hesc : waitingEsc (getTile s reach tile) = some p) :
    exec (.passStart reach tile quad) s = .next (escStarted s reach tile p) := by
  rw [exec_passStart_room h hsw hroom hload]
  simp only [if_pos hmode, hesc]

end Queued

/-! ### What a start leaves -/

section Taken
variable {q : Nat} {p : TPass}

theorem passTaken_takesUp : TakesUp { getTile s reach tile with
    queue := (getTile s reach tile).queue.filter (fun x => x.no != p.no), flight := (getTile s reach tile).flight ++ [takenPass s reach tile p]
    starts := (getTile s reach tile).starts + 1 } (getTile (passTaken s reach tile q p) reach tile) := by
  rw [passTaken, getTile_updTile h.tiles_sorted]
  exact absorb_takesUp _ q

theorem passTaken_queue : (getTile (passTaken s reach tile q p) reach tile).queue = (getTile s reach tile).queue.filter (fun x => x.no != p.no) :=
  (passTaken_takesUp h).queue

theorem passTaken_nos : (getTile (passTaken s reach tile q p) reach tile).flight.map (·.no) = (getTile s reach tile).flight.map (·.no) ++ [p.no] :=
  (passTaken_takesUp h).nos.trans (by simp [takenPass])

/-- A pass whose number no pass in flight has is in flight as it was taken. -/
theorem passTaken_pass (hnew : ∀ x ∈ (getTile s reach tile).flight, x.no ≠ p.no) :
    ∃ x ∈ (getTile (passTaken s reach tile q p) reach tile).flight, SamePass x (takenPass s reach tile p) := by
  have hno : p.no ∈ (getTile (passTaken s reach tile q p) reach tile).flight.map (·.no) := by
    rw [passTaken_nos h]
    simp
  obtain ⟨x, hx, hxno⟩ := List.mem_map.mp hno
  obtain ⟨y, hy, hxy⟩ := (passTaken_takesUp h).passes x hx
  obtain hold | hmine := List.mem_append.mp hy
  · exact absurd (hxy.no.symm.trans hxno) (hnew y hold)
  · obtain rfl := List.mem_singleton.mp hmine
    exact ⟨x, hx, hxy⟩

end Taken

/-- The pass that waited has its escalation pass in flight and owns the escalation buffer. -/
theorem escStarted_pass {p : TPass} (hesc : waitingEsc (getTile s reach tile) = some p) :
    ∃ x ∈ (getTile (escStarted s reach tile p) reach tile).flight, x.no = p.no ∧ x.owns = true
      ∧ ∃ b ∈ x.esc.head?, b.flying = true ∧ b.started = (getTile s reach tile).starts := by
  obtain ⟨hp, b, l, hb⟩ := waitingEsc_spec hesc
  have hp' : p ∈ (getTile (updTile s reach tile fun t => { t with starts := t.starts + 1 }) reach tile).flight := by
    rw [getTile_updTile h.tiles_sorted]
    exact hp
  refine ⟨_, mem_flight_updPass (updTile_sorted h.tiles_sorted _) hp' _, rfl, rfl, { b with flying := true, started := (getTile s reach tile).starts }, ?_, rfl, rfl⟩
  simp [hb, updAt]

theorem escStarted_queue (p : TPass) : (getTile (escStarted s reach tile p) reach tile).queue = (getTile s reach tile).queue := by
  rw [escStarted, getTile_updPass (updTile_sorted h.tiles_sorted _), getTile_updTile h.tiles_sorted]

/-- The scale write that is all of a tile's queue takes effect, and nothing starts. -/
theorem passStart_scaleWrite {p : TPass} {i v : Nat} (hq : (getTile s reach tile).queue = [p]) (hw : p.scaleWrite = some (i, v))
    (hf : (getTile s reach tile).flight = []) (hslot : p.slot < 2) : exec (.passStart reach tile 0) s
      = .next (completeOp (setF (putTile s reach tile { getTile s reach tile with queue := [] }) reach F.TILE_SCALE_SCALE v tile i) p.op 0) := by
  have hgo : ¬ ((!tileEnabled s reach tile || !reachLive s reach) = true) := by simp [h.enabled, h.live]
  have hlen : (getTile s reach tile).queue.length = 1 := by rw [hq]; rfl
  show execPassStart reach tile 0 s = _
  unfold execPassStart
  rw [if_neg hgo]
  dsimp only
  rw [hlen, drainScales_one hq hw hf hslot]
  generalize hu : completeOp (setF (putTile s reach tile { getTile s reach tile with queue := [] }) reach F.TILE_SCALE_SCALE v tile i) p.op 0 = u
  have htile : getTile u reach tile = { getTile s reach tile with queue := [] } := by
    rw [← hu, completeOp_frame]
    exact getTile_putTile h.tiles_sorted _
  have hidle : waitingEsc (getTile u reach tile) = none := by simp [htile, waitingEsc, hf]
  have hnext (q : Nat) : nextPass u reach tile q = none := by simp [nextPass, slotHead, htile]
  simp only [hidle, hnext, ite_self]

end Start

end Sys2Proof.Machine
end

section
/-!
PROOFS. Scope: row slots: words written to the accumulator banks, bytes taken out of a feeder, a row of a full or quad pass and a beat of a
millrace pass (R152, R153, R156, R157, R161, R176-R182).
-/
namespace Sys2Proof.Machine

/-! ### Words of memory (R161, R416) -/

theorem ofBytes_toBytes (n v : Nat) : ofBytes (toBytes n v) = v % 256 ^ n := by
  induction n generalizing v with
  | zero => simp [toBytes, ofBytes, Nat.mod_one]
  | succ n ih =>
    have hpow : 256 ^ (n + 1) = 256 * 256 ^ n := Nat.pow_succ'
    rw [toBytes, ofBytes, ih, BitVec.toNat_ofNat, hpow, Nat.mod_mul]

theorem rdByte_congr {s t : State} (h : t.mem = s.mem) (a : Nat) : rdByte t a = rdByte s a := by
  rw [rdByte, rdByte, h]

theorem rdBytes_congr {s t : State} {a n : Nat} (h : ∀ x, a ≤ x → x < a + n → rdByte t x = rdByte s x) : rdBytes t a n = rdBytes s a n :=
  List.map_congr_left fun i hi => h (a + i) (by omega) (by have := List.mem_range.mp hi; omega)

theorem word32_congr {s t : State} (h : t.mem = s.mem) (a : Nat) : word32 t a = word32 s a :=
  congrArg ofBytes (rdBytes_congr fun x _ _ => rdByte_congr h x)

/-- A poisoned write changes memory alone. -/
theorem wrPBytes_frame (s : State) (a : Nat) (l : List PByte) : ∃ m, wrPBytes s a l = { s with mem := { wrBytes s a (l.map (·.b)) |>.mem with poison := m } } := by
  unfold wrPBytes
  dsimp only
  split
  · refine List.foldlRecOn _ _ (motive := fun u : State => ∃ m, u = { s with mem := { (wrBytes s a (l.map (·.b))).mem with poison := m } }) ⟨_, rfl⟩ ?_
    rintro u ⟨m, rfl⟩ x -
    exact ⟨_, rfl⟩
  · exact ⟨_, rfl⟩

/-- A byte after a write of bytes that carry poison. -/
theorem rdByte_wrPBytes {s : State} (a x : Nat) (l : List PByte) (h : Memory.wf s.mem.bytes = true) :
    rdByte (wrPBytes s a l) x = if a ≤ x ∧ x < a + l.length then (l.map (·.b)).getD (x - a) 0 else rdByte s x := by
  obtain ⟨m, hm⟩ := wrPBytes_frame s a l
  rw [hm]
  exact (rdByte_wrBytes a x (l.map (·.b)) h).trans (by rw [List.length_map])

/-- One word of `wrWords`, the `i`-th from its address. -/
def wrWord (a : Nat) (s : State) (x : (Nat × Bool) × Nat) : State :=
  wrPBytes s (a + 4 * x.2) ((toBytes 4 x.1.1).map (fun b => PByte.mk b x.1.2))

theorem wrWords_eq (s : State) (a : Nat) (l : List (Nat × Bool)) : wrWords s a l = l.zipIdx.foldl (wrWord a) s := rfl

theorem wrWord_frame (a : Nat) (s : State) (x : (Nat × Bool) × Nat) : wrWord a s x = { s with mem := (wrWord a s x).mem } := by
  obtain ⟨m, hm⟩ := wrPBytes_frame s (a + 4 * x.2) ((toBytes 4 x.1.1).map (fun b => PByte.mk b x.1.2))
  rw [wrWord, hm]

theorem wrWord_wf (a : Nat) {s : State} (h : Memory.wf s.mem.bytes = true) (x : (Nat × Bool) × Nat) : Memory.wf (wrWord a s x).mem.bytes = true :=
  wrPBytes_wf _ _ h

theorem rdByte_wrWord {s : State} (h : Memory.wf s.mem.bytes = true) (a : Nat) (x : (Nat × Bool) × Nat) (y : Nat) :
    rdByte (wrWord a s x) y = if a + 4 * x.2 ≤ y ∧ y < a + 4 * x.2 + 4 then (toBytes 4 x.1.1).getD (y - (a + 4 * x.2)) 0 else rdByte s y := by
  rw [wrWord, rdByte_wrPBytes _ _ _ h, List.map_map]
  have hself : (toBytes 4 x.1.1).map ((fun q : PByte => q.b) ∘ fun b => PByte.mk b x.1.2) = toBytes 4 x.1.1 := List.map_id _
  rw [hself, List.length_map, toBytes_length]

theorem word32_wrWord {s : State} (h : Memory.wf s.mem.bytes = true) (a v k : Nat) (b : Bool) :
    word32 (wrWord a s ((v, b), k)) (a + 4 * k) = v % 2 ^ 32 := by
  have hbytes : rdBytes (wrWord a s ((v, b), k)) (a + 4 * k) 4 = toBytes 4 v := by
    refine List.ext_getElem (by simp [rdBytes, toBytes_length]) fun i hi _ => ?_
    have hlt : i < 4 := by simpa [rdBytes] using hi
    simp only [rdBytes, List.getElem_map, List.getElem_range, rdByte_wrWord h]
    rw [if_pos (by omega), Nat.add_sub_cancel_left, List.getD_eq_getElem]
  rw [word32, hbytes, ofBytes_toBytes]
  norm_num

section Words
variable {s : State} {a k : Nat}

theorem foldl_wrWord_frame (l : List ((Nat × Bool) × Nat)) (s : State) : l.foldl (wrWord a) s = { s with mem := (l.foldl (wrWord a) s).mem } := by
  induction l generalizing s with
  | nil => rfl
  | cons x l ih =>
    rw [List.foldl_cons, ih, wrWord_frame]

/-- A byte outside the words written. -/
theorem rdByte_foldl_wrWord {l : List (Nat × Bool)} (h : Memory.wf s.mem.bytes = true) {y : Nat} (hy : y < a + 4 * k ∨ a + 4 * k + 4 * l.length ≤ y) :
    rdByte ((l.zipIdx k).foldl (wrWord a) s) y = rdByte s y := by
  induction l generalizing s k with
  | nil => rfl
  | cons v l ih =>
    rw [List.length_cons] at hy
    rw [List.zipIdx_cons, List.foldl_cons, ih (wrWord_wf a h _) (by omega), rdByte_wrWord h, if_neg (by dsimp only; omega)]

/-- One of the words written. -/
theorem word32_foldl_wrWord {l : List (Nat × Bool)} (h : Memory.wf s.mem.bytes = true) {j : Nat} (hj : j < l.length) :
    word32 ((l.zipIdx k).foldl (wrWord a) s) (a + 4 * (k + j)) = (l[j]).1 % 2 ^ 32 := by
  induction l generalizing s k j with
  | nil => exact absurd hj (Nat.not_lt_zero j)
  | cons v l ih =>
    rw [List.zipIdx_cons, List.foldl_cons]
    cases j with
    | zero =>
      refine (congrArg ofBytes (rdBytes_congr fun y hlo hhi => rdByte_foldl_wrWord (wrWord_wf a h _) (by omega))).trans ?_
      exact word32_wrWord h a v.1 k v.2
    | succ j =>
      have hnext := ih (s := wrWord a s (v, k)) (k := k + 1) (wrWord_wf a h _) (Nat.lt_of_succ_lt_succ hj)
      rw [show k + 1 + j = k + (j + 1) by omega] at hnext
      exact hnext

end Words

section Deposit
variable {s : State} (acc : Bool) (a : Nat) (l : List (Nat × Bool))

/-- What is written at an address: the results, or their sums with the words there. -/
def deposited (s : State) (acc : Bool) (a : Nat) (l : List (Nat × Bool)) : List (Nat × Bool) :=
  if acc then l.zipIdx.map (fun x => (fadd (word32 s (a + 4 * x.2)) x.1.1, x.1.2 || poisoned s (a + 4 * x.2))) else l

theorem depositAt_fst (s : State) : (depositAt s acc a l).1 = wrWords s a (deposited s acc a l) := by
  unfold depositAt deposited
  split <;> rfl

theorem deposited_length : (deposited s acc a l).length = l.length := by
  unfold deposited
  split <;> simp

theorem wrWords_frame (s : State) : wrWords s a l = { s with mem := (wrWords s a l).mem } := foldl_wrWord_frame l.zipIdx s

theorem depositAt_frame (s : State) : (depositAt s acc a l).1 = { s with mem := (depositAt s acc a l).1.mem } := by
  rw [depositAt_fst]
  exact wrWords_frame ..

/-- A byte outside the words of a deposit. -/
theorem rdByte_depositAt (h : Memory.wf s.mem.bytes = true) {y : Nat} (hy : y < a ∨ a + 4 * l.length ≤ y) :
    rdByte (depositAt s acc a l).1 y = rdByte s y := by
  rw [depositAt_fst, wrWords_eq]
  exact rdByte_foldl_wrWord h (by rw [deposited_length]; omega)

/-- A word of a deposit (R161, R177). -/
theorem word32_depositAt (h : Memory.wf s.mem.bytes = true) {j : Nat} (hj : j < l.length) :
    word32 (depositAt s acc a l).1 (a + 4 * j) = (if acc then fadd (word32 s (a + 4 * j)) (l[j]).1 else (l[j]).1) % 2 ^ 32 := by
  have hword := word32_foldl_wrWord (s := s) (a := a) (k := 0) (l := deposited s acc a l) h (j := j) (by rwa [deposited_length])
  rw [Nat.zero_add] at hword
  rw [depositAt_fst, wrWords_eq, hword]
  cases acc <;> simp [deposited]

end Deposit

/-- The rescale stage changes memory alone. -/
theorem rescaleRow_frame (s : State) (reach tile : Nat) (p : TPass) (m : Nat) (xa : Int) (cells : List (Fp × Bool)) :
    (rescaleRow s reach tile p m xa cells).1 = { s with mem := (rescaleRow s reach tile p m xa cells).1.mem } := by
  unfold rescaleRow
  dsimp only
  split
  · exact depositAt_frame ..
  · exact wrWords_frame ..
  · split
    · exact wrWords_frame ..
    · dsimp only
      rw [depositAt_frame, wrWords_frame]

/-! ### Bytes taken out of an input (R254) -/

theorem ownBytes_cons (c : Chunk) (l : List Chunk) (no : Nat) :
    ownBytes (c :: l) no = if c.no = no then c.data ++ ownBytes l no else ownBytes l no := by
  by_cases h : c.no = no <;> simp [ownBytes, chunkBytes, h]

/-- What a pass leaves of its bytes in an input when it takes some. -/
theorem ownBytes_takeOwn (no : Nat) (l : List Chunk) (n : Nat) : ownBytes (takeOwn no l n) no = (ownBytes l no).drop n := by
  fun_induction takeOwn no l n with
  | case1 => simp [ownBytes, chunkBytes]
  | case2 => rfl
  | case3 c l n hn hno ih => rw [ownBytes_cons, ownBytes_cons, if_neg hno, if_neg hno, ih]
  | case4 c l n hn hno hle ih =>
    have hown : c.no = no := not_not.mp hno
    rw [ih, ownBytes_cons, if_pos hown, List.drop_append, List.drop_eq_nil_of_le hle, List.nil_append]
  | case5 c l n hn hno hle =>
    have hown : c.no = no := not_not.mp hno
    rw [ownBytes_cons, ownBytes_cons, if_pos hown]
    simp only [hown, if_true]
    rw [List.drop_append, Nat.sub_eq_zero_of_le (by omega), List.drop_zero]

theorem getD_updAt {α : Type} {l : List α} {i : Nat} (h : i < l.length) (f : α → α) (d : α) : (updAt l i f).getD i d = f (l.getD i d) := by
  induction l generalizing i with
  | nil => exact absurd h (Nat.not_lt_zero i)
  | cons x l ih =>
    cases i with
    | zero => rfl
    | succ i => simpa [updAt] using ih (Nat.lt_of_succ_lt_succ h)

/-! ### A row of a full or quad pass (R152, R176-R182) -/

/-- Bytes of a row's side entry. -/
def sideLen (p : TPass) : Nat := if afmtHasSide (fmtA p.fmt) then 4 else 0

/-- The bytes of a row's operands trip the sentinel of its pass (R198). -/
def rowTrips (p : TPass) (raw : List PByte) : Bool := decide (sideLen p ≠ 0) && trips p (raw.take (sideLen p))

/-- The column sums of a row, and which hold poison. -/
def rowCells (p : TPass) (raw : List PByte) : List (Fp × Bool) :=
  (List.range (if fmtMode p.fmt = 1 then 16 else 32)).map fun j =>
    (columnSum p raw j, raw.any (·.p) || ((List.range (depthOf (fmtW p.fmt))).map fun k => p.weightAt k j).any (·.2))

/-- The exponent of a row's side entry. -/
def rowExp (p : TPass) (raw : List PByte) : Int := if sideLen p = 0 then 0 else (sideX (raw.take (sideLen p)) : Int) - 127

/-- A pass goes on to its next row. -/
def Advances (f : TPass → TPass) : Prop := ∀ x, (f x).no = x.no ∧ (f x).row = x.row + 1

section Row
variable (s : State) (reach tile q : Nat) (p : TPass)

/-- The bytes of the next row at hand. -/
def rowRaw : List PByte := (ownBytes ((getTile s reach tile).feeders.getD q []) p.no).take (actRow p.fmt)

/-- The state with the row's bytes taken out of the feeders, and what its side entry shows counted (R182, R198). -/
def rowEntered : State :=
  let raw := rowRaw s reach tile q p
  let s := putTile s reach tile { getTile s reach tile with feeders := updAt (getTile s reach tile).feeders q (takeOwn p.no · (actRow p.fmt)) }
  let s := if sideOdd (raw.take (sideLen p)) then addF s reach F.ROT_SAT_COUNT 1 else s
  if rowTrips p raw then addF s reach F.QNT_TRIPS_COUNT 1 else s

/-- A row enters: the feeders move on, and at most registers change beside. -/
theorem rowEntered_frame : rowEntered s reach tile q p
    = { putTile s reach tile { getTile s reach tile with feeders := updAt (getTile s reach tile).feeders q (takeOwn p.no · (actRow p.fmt)) } with
        regs := (rowEntered s reach tile q p).regs } := by
  unfold rowEntered
  dsimp only
  split <;> split <;> rfl

/-- The state of a row that goes to the rescale stage: a sentinel tripped without an escalation is noted (R199). -/
def rowPacked : State :=
  if rowTrips p (rowRaw s reach tile q p) then unescalated (rowEntered s reach tile q p) reach tile p.slot else rowEntered s reach tile q p

theorem rowPacked_frame : rowPacked s reach tile q p = { rowEntered s reach tile q p with regs := (rowPacked s reach tile q p).regs } := by
  unfold rowPacked
  split <;> rfl

variable {s} in
/-- A row escalates, where its sentinel trips, or is rescaled and written (R177, R198-R200). -/
theorem runRow_cases (hs : mSorted none s.regs = true) (hen : getF s reach F.CNT_CTRL_EN = 0) :
    ∃ f, Advances f ∧ ((rowTrips p (rowRaw s reach tile q p) = true ∧ runRow s reach tile q p = updPass (rowEntered s reach tile q p) reach tile p.no f)
      ∨ runRow s reach tile q p = updPass (rescaleRow (rowPacked s reach tile q p) reach tile p p.row (rowExp p (rowRaw s reach tile q p))
          (rowCells p (rowRaw s reach tile q p))).1 reach tile p.no f) := by
  unfold runRow
  extract_lets t f sl fd raw side row src taken odd trip tripped entered d rowBad bad counted wa acts cells xa r
  have hodd : KeepsAt reach F.CNT_CTRL_EN 0 s odd := by
    unfold odd
    split
    · exact (KeepsAt.of_regs rfl : KeepsAt reach F.CNT_CTRL_EN 0 s taken).trans (.addF (by decide) (by decide) (by decide) ..)
    · exact .of_regs rfl
  have htripped : tripped = rowEntered s reach tile q p := by
    show (if trip = true then tileEv (addF odd reach F.QNT_TRIPS_COUNT 1) reach tile p 0x19 1 else odd) = if trip = true then addF odd reach F.QNT_TRIPS_COUNT 1 else odd
    have hkept : KeepsAt reach F.CNT_CTRL_EN 0 odd (addF odd reach F.QNT_TRIPS_COUNT 1) := .addF (by decide) (by decide) (by decide) ..
    rw [tileEv_off (((hodd.trans hkept).same hs).trans hen)]
  have hentered : entered = rowEntered s reach tile q p := by
    have hkept : KeepsAt reach F.CNT_CTRL_EN 0 odd tripped := by
      rw [htripped]
      show KeepsAt reach F.CNT_CTRL_EN 0 odd (if trip = true then addF odd reach F.QNT_TRIPS_COUNT 1 else odd)
      split
      · exact .addF (by decide) (by decide) (by decide) ..
      · exact .refl odd
    exact (tileEv_off (((hodd.trans hkept).same hs).trans hen) ..).trans htripped
  have hcells : cells = rowCells p raw := by
    refine List.map_congr_left fun j _ => ?_
    simp only [columnSum, List.map_map]
    rfl
  split
  case h_1 x hx =>
    have htrip : trip = true := by
      by_contra hno
      simp [hno] at hx
    refine ⟨_, ?_, .inl ⟨htrip, congrArg (updPass · reach tile p.no _) hentered⟩⟩
    exact fun _ => ⟨rfl, rfl⟩
  case h_2 =>
    have hr : r = rescaleRow (rowPacked s reach tile q p) reach tile p p.row xa (rowCells p raw) := by
      rw [← hcells, rowPacked, ← hentered]
      rfl
    refine ⟨_, ?_, .inr (congrArg (fun r : State × Bool => updPass r.1 reach tile p.no _) hr)⟩
    exact fun _ => ⟨rfl, rfl⟩

variable {s reach tile q p}

/-- A row's start: its pass advances in a state in which at most memory, registers and the feeders have changed. -/
theorem runRow_step (hs : mSorted none s.regs = true) (hen : getF s reach F.CNT_CTRL_EN = 0) :
    ∃ u f, Advances f ∧ runRow s reach tile q p = updPass u reach tile p.no f ∧ u.runnels = s.runnels ∧ u.sched = s.sched
      ∧ u.tiles = (rowEntered s reach tile q p).tiles := by
  have hrun : (rowEntered s reach tile q p).runnels = s.runnels := by rw [rowEntered_frame]; rfl
  have hsched : (rowEntered s reach tile q p).sched = s.sched := by rw [rowEntered_frame]; rfl
  have hrescaled := rescaleRow_frame (rowPacked s reach tile q p) reach tile p p.row (rowExp p (rowRaw s reach tile q p))
    (rowCells p (rowRaw s reach tile q p))
  rw [rowPacked_frame] at hrescaled
  obtain ⟨f, hf, ⟨-, h⟩ | h⟩ := runRow_cases reach tile q p hs hen
  · exact ⟨_, f, hf, h, hrun, hsched, rfl⟩
  · rw [rowPacked_frame, hrescaled] at h
    exact ⟨_, f, hf, h, hrun, hsched, rfl⟩

/-- The tile after a row's bytes have been taken. -/
theorem getTile_rowEntered (ht : mSorted none s.tiles = true) : getTile (rowEntered s reach tile q p) reach tile
    = { getTile s reach tile with feeders := updAt (getTile s reach tile).feeders q (takeOwn p.no · (actRow p.fmt)) } := by
  rw [rowEntered_frame]
  exact getTile_putTile ht _

section Streams
variable (hs : mSorted none s.regs = true) (hen : getF s reach F.CNT_CTRL_EN = 0) (ht : mSorted none s.tiles = true)
include hs hen ht

/-- The pass of a row advances. -/
theorem runRow_pass (hp : p ∈ (getTile s reach tile).flight) :
    ∃ x ∈ (getTile (runRow s reach tile q p) reach tile).flight, x.no = p.no ∧ x.row = p.row + 1 := by
  obtain ⟨u, f, hf, h, -, -, htiles⟩ := runRow_step (tile := tile) (q := q) (p := p) hs hen
  have hu : mSorted none u.tiles = true := by
    rw [htiles, rowEntered_frame]
    exact putTile_sorted ht _
  have hpu : p ∈ (getTile u reach tile).flight := by
    rw [getTile_congr htiles, getTile_rowEntered ht]
    exact hp
  rw [h]
  exact ⟨_, mem_flight_updPass hu hpu f, hf p⟩

/-- The feeders move on by a row. -/
theorem runRow_feeders (hq : q < (getTile s reach tile).feeders.length) :
    ownBytes ((getTile (runRow s reach tile q p) reach tile).feeders.getD q []) p.no
      = (ownBytes ((getTile s reach tile).feeders.getD q []) p.no).drop (actRow p.fmt) := by
  obtain ⟨u, f, hf, h, -, -, htiles⟩ := runRow_step (tile := tile) (q := q) (p := p) hs hen
  have hu : mSorted none u.tiles = true := by
    rw [htiles, rowEntered_frame]
    exact putTile_sorted ht _
  rw [h, getTile_updPass hu, getTile_congr htiles, getTile_rowEntered ht, getD_updAt hq, ownBytes_takeOwn]

omit ht in
theorem runRow_runnels : (runRow s reach tile q p).runnels = s.runnels := by
  obtain ⟨u, f, hf, h, hrun, -, -⟩ := runRow_step (tile := tile) (q := q) (p := p) hs hen
  rw [h]
  exact hrun

omit ht in
theorem runRow_sched : (runRow s reach tile q p).sched = s.sched := by
  obtain ⟨u, f, hf, h, -, hsched, -⟩ := runRow_step (tile := tile) (q := q) (p := p) hs hen
  rw [h]
  exact hsched

end Streams

/-! ### The results of a row of a full pass (R161, R176-R179) -/

/-- The results of a row's columns, with their poison. -/
def rowResults (p : TPass) (raw : List PByte) : List (Nat × Bool) :=
  (rowCells p raw).zipIdx.map fun x =>
    (rescale x.1.1 (rowExp p raw - (sideNibble p.side x.2).1) (p.scales.getD x.2 0), x.1.2 || (sideNibble p.side x.2).2)

theorem rowResults_length (hmode : fmtMode p.fmt = 0) (raw : List PByte) : (rowResults p raw).length = 32 := by
  simp [rowResults, rowCells, hmode]

theorem rowResults_getElem (raw : List PByte) {j : Nat} (hj : j < (rowResults p raw).length) : ((rowResults p raw)[j]).1 = columnResult p raw j := by
  have hexp : rowExp p raw = if afmtHasSide (fmtA p.fmt) then (sideX (raw.take 4) : Int) - 127 else 0 := by
    unfold rowExp sideLen
    cases afmtHasSide (fmtA p.fmt) <;> rfl
  simp [rowResults, rowCells, columnResult, hexp]

/-- A row of a full pass whose sentinel is not tripped leaves in memory its results, written or added at its row. -/
theorem runRow_mem (hs : mSorted none s.regs = true) (hen : getF s reach F.CNT_CTRL_EN = 0) (hmode : fmtMode p.fmt = 0) (hg : p.gpart = 0)
    (hsent : p.sent.testBit 16 = false) : ∃ u, u.mem = s.mem ∧ (runRow s reach tile q p).mem
      = (depositAt u p.acc (wordAddr reach tile p.bank (p.row0 + p.row) 0) (rowResults p (rowRaw s reach tile q p))).1.mem := by
  have htrip : rowTrips p (rowRaw s reach tile q p) = false := by simp [rowTrips, trips, bit, hsent]
  have hplace : p.place p.row = (p.row0 + p.row, 0) := if_neg (by omega)
  refine ⟨rowEntered s reach tile q p, by rw [rowEntered_frame]; rfl, ?_⟩
  obtain ⟨f, -, ⟨hno, -⟩ | h⟩ := runRow_cases reach tile q p hs hen
  · rw [htrip] at hno
    cases hno
  · rw [h]
    simp only [rescaleRow, rowPacked, htrip, hg, hplace]
    rfl

end Row

end Sys2Proof.Machine
end

section
/-!
PROOFS. Scope: beats of a millrace pass and SLOT_GATE; the statement on the start and the rows of passes (R152, R153, R156, R157).
-/
namespace Sys2Proof.Machine

/-! ### What a beat counts (R182, R198, R199) -/

/-- In a reach where nothing is counted, at most registers change, and nothing is counted after. -/
def QuietRegs (reach : Nat) (s t : State) : Prop :=
  mSorted none s.regs = true → getF s reach F.CNT_CTRL_EN = 0 → KeepsAt reach F.CNT_CTRL_EN 0 s t ∧ t = { s with regs := t.regs }

namespace QuietRegs
variable {reach : Nat} {s t u : State}

theorem refl (s : State) : QuietRegs reach s s := fun _ _ => ⟨.refl s, rfl⟩

theorem trans (h : QuietRegs reach s t) (h' : QuietRegs reach t u) : QuietRegs reach s u := fun hs hen => by
  obtain ⟨hkept, hframe⟩ := h hs hen
  obtain ⟨hkept', hframe'⟩ := h' (hkept.sorted hs) ((hkept.same hs).trans hen)
  refine ⟨hkept.trans hkept', ?_⟩
  rw [hframe', hframe]

theorem foldl {α : Type} {f : State → α → State} (h : ∀ s a, QuietRegs reach s (f s a)) (l : List α) (s : State) : QuietRegs reach s (l.foldl f s) := by
  induction l generalizing s with
  | nil => exact refl s
  | cons a l ih => exact (h s a).trans (ih (f s a))

theorem addF {f : Field} (hf : fieldsApart F.CNT_CTRL_EN f = true) {i : Nat} (hi : i < 2048) (s : State) (n : Nat) :
    QuietRegs reach s (addF s reach f n i) := fun _ _ => ⟨.addF hf (by decide) hi .., rfl⟩

theorem tileEv (s : State) (tile : Nat) (p : TPass) (code n : Nat) : QuietRegs reach s (tileEv s reach tile p code n) := fun hs hen => by
  rw [tileEv_off hen]
  exact refl s hs hen

theorem unescalated (s : State) (tile slot : Nat) : QuietRegs reach s (unescalated s reach tile slot) := by
  have hcount : QuietRegs reach s (Machine.addF s reach F.QNT_UNESC_COUNT 1) := addF (by decide) (by decide) s 1
  refine hcount.trans fun _ _ => ⟨?_, rfl⟩
  unfold Machine.unescalated
  dsimp only
  split <;> split <;> exact .setFBit (by decide) (by decide) (by decide) ..

theorem millraceSides (s : State) (tile : Nat) (p : TPass) : QuietRegs reach s (millraceSides s reach tile p) := by
  unfold Machine.millraceSides
  split
  · exact refl s
  · refine foldl (fun s i => ?_) _ s
    extract_lets side odd
    have hodd : QuietRegs reach s odd := by
      unfold odd
      split
      · exact addF (by decide) (by decide) s 1
      · exact refl s
    split
    · have htripped : QuietRegs reach odd (Machine.addF odd reach F.QNT_TRIPS_COUNT 1) := addF (by decide) (by decide) odd 1
      exact ((hodd.trans htripped).trans (tileEv _ tile p _ _)).trans (unescalated _ tile p.slot)
    · exact hodd

end QuietRegs

/-! ### What a beat leaves (R156, R157) -/

theorem millraceGroup_no (p : TPass) (ob g : Nat) (beats side : List PByte) : (millraceGroup p ob g beats side).no = p.no := by
  unfold millraceGroup
  refine List.foldlRecOn _ _ (motive := fun x : TPass => x.no = p.no) rfl fun x hx t _ => ?_
  exact List.foldlRecOn _ _ (motive := fun y : TPass => y.no = p.no) hx fun y hy _ _ => hy

/-- What the results of a block leave: at most memory and a pass's poison change. -/
structure BlockWrites (reach tile : Nat) (s t : State) : Prop where
  runnels : t.runnels = s.runnels
  sched : t.sched = s.sched
  sorted : mSorted none s.tiles = true → mSorted none t.tiles = true
  wport : mSorted none s.tiles = true → (getTile t reach tile).wport = (getTile s reach tile).wport
  row : mSorted none s.tiles = true → ∀ x ∈ (getTile s reach tile).flight, ∃ y ∈ (getTile t reach tile).flight, y.no = x.no ∧ y.row = x.row

namespace BlockWrites
variable {reach tile : Nat} {s t u : State}

theorem of_tiles (hrun : t.runnels = s.runnels) (hsched : t.sched = s.sched) (ht : t.tiles = s.tiles) : BlockWrites reach tile s t :=
  ⟨hrun, hsched, fun h => ht ▸ h, fun _ => by rw [getTile_congr ht], fun _ x hx => ⟨x, by rw [getTile_congr ht]; exact hx, rfl, rfl⟩⟩

theorem trans (h : BlockWrites reach tile s t) (h' : BlockWrites reach tile t u) : BlockWrites reach tile s u := by
  refine ⟨h'.runnels.trans h.runnels, h'.sched.trans h.sched, fun hs => h'.sorted (h.sorted hs),
    fun hs => (h'.wport (h.sorted hs)).trans (h.wport hs), fun hs x hx => ?_⟩
  obtain ⟨y, hy, hno, hrow⟩ := h.row hs x hx
  obtain ⟨z, hz, hno', hrow'⟩ := h'.row (h.sorted hs) y hy
  exact ⟨z, hz, hno'.trans hno, hrow'.trans hrow⟩

theorem foldl {α : Type} {f : State → α → State} (h : ∀ s a, BlockWrites reach tile s (f s a)) (l : List α) (s : State) :
    BlockWrites reach tile s (l.foldl f s) := by
  induction l generalizing s with
  | nil => exact of_tiles rfl rfl rfl
  | cons a l ih => exact (h s a).trans (ih (f s a))

/-- A pass takes note of poison. -/
theorem updPass (s : State) (no : Nat) {f : TPass → TPass} (hf : ∀ x, (f x).no = x.no ∧ (f x).row = x.row) :
    BlockWrites reach tile s (updPass s reach tile no f) := by
  refine ⟨rfl, rfl, fun hs => updTile_sorted hs _, fun hs => by rw [getTile_updPass hs], fun hs x hx => ?_⟩
  rw [getTile_updPass hs]
  refine ⟨_, List.mem_map.mpr ⟨x, hx, rfl⟩, ?_⟩
  split
  · exact hf x
  · exact ⟨rfl, rfl⟩

theorem millraceBlock (s : State) (p : TPass) (ob : Nat) : BlockWrites reach tile s (millraceBlock s reach tile p ob) := by
  refine foldl (fun s m => ?_) _ s
  extract_lets a l r
  have hwrite : BlockWrites reach tile s r.1 := by
    unfold r
    rw [depositAt_frame]
    exact of_tiles rfl rfl rfl
  split
  · exact hwrite.trans (updPass _ _ fun _ => ⟨rfl, rfl⟩)
  · exact hwrite

end BlockWrites

/-- The sidecar entry of a group is taken from the sidecar lane alone (R255). -/
theorem takeSide_some {t : Tile} {no q n : Nat} (h : n ≤ (ownBytes (t.sidecar.getD q []) no).length) :
    takeSide t no q n = some ((ownBytes (t.sidecar.getD q []) no).take n, { t with sidecar := updAt t.sidecar q (takeOwn no · n) }) :=
  if_neg (Nat.not_lt.mpr h)

section Beat
variable {s : State} {reach tile : Nat} {p : TPass}

/-- The tile a beat's bytes are taken from: at the end of a group without the sidecar entry of it. -/
def beatTile (s : State) (reach tile : Nat) (p : TPass) : Tile :=
  let t := getTile s reach tile
  if (p.row % (4 * p.k / depthOf (fmtW p.fmt)) + 1) % (4 * fmtGsize p.fmt / depthOf (fmtW p.fmt)) = 0 then
    { t with sidecar := updAt t.sidecar 0 (takeOwn p.no · 8) }
  else t

theorem beatTile_flight : (beatTile s reach tile p).flight = (getTile s reach tile).flight := by
  unfold beatTile
  dsimp only
  split <;> rfl

theorem beatTile_wport : (beatTile s reach tile p).wport = (getTile s reach tile).wport := by
  unfold beatTile
  dsimp only
  split <;> rfl

/-- The state with a beat's weights taken out of the port. -/
def beatTaken (s : State) (reach tile : Nat) (p : TPass) : State :=
  putTile s reach tile { beatTile s reach tile p with wport := updAt (beatTile s reach tile p).wport 0 (takeOwn p.no · 128) }

/-- A beat at hand: the pass goes on to its next beat with the port's bytes taken, and then at most a block of results is written. -/
theorem runBeat_step (hs : mSorted none s.regs = true) (hen : getF s reach F.CNT_CTRL_EN = 0)
    (hacts : p.count * (p.k / fmtGsize p.fmt) * actGroup p.fmt ≤ p.acts.length) (hbeat : 128 ≤ (ownBytes ((getTile s reach tile).wport.getD 0 []) p.no).length)
    (hside : 8 ≤ (ownBytes ((getTile s reach tile).sidecar.getD 0 []) p.no).length) :
    ∃ (u : State) (x : TPass), u.tiles = (beatTaken s reach tile p).tiles ∧ u.runnels = s.runnels ∧ u.sched = s.sched ∧ x.no = p.no ∧ x.row = p.row + 1
      ∧ BlockWrites reach tile (updPass u reach tile p.no fun _ => x) (runBeat s reach tile p) := by
  unfold runBeat
  extract_lets t port per perG bi ob ends
  rw [if_neg (Nat.not_lt.mpr hacts), if_neg (Nat.not_lt.mpr hbeat)]
  have hfetch : (if ends = true then takeSide t p.no 0 8 else some ([], t)) = some
      (if ends = true then (ownBytes (t.sidecar.getD 0 []) p.no).take 8 else [], beatTile s reach tile p) := by
    by_cases hends : (bi + 1) % perG = 0
    · have htile : beatTile s reach tile p = { t with sidecar := updAt t.sidecar 0 (takeOwn p.no · 8) } := if_pos hends
      have hdec : ends = true := decide_eq_true hends
      rw [if_pos hdec, if_pos hdec, takeSide_some hside, htile]
    · have htile : beatTile s reach tile p = t := if_neg hends
      have hdec : ends = false := decide_eq_false hends
      simp [hdec, htile]
  split
  case h_1 hnone =>
    rw [hfetch] at hnone
    cases hnone
  case h_2 side t' hsome =>
    rw [hfetch] at hsome
    obtain ⟨-, rfl⟩ := Prod.mk.inj (Option.some.inj hsome)
    extract_lets taken p1 sided beats p2 advanced counted
    have hno : p1.no = p.no := by
      unfold p1
      split <;> rfl
    have hrow : p1.row = p.row := by
      unfold p1
      split <;> rfl
    have hadvanced : advanced.no = p.no := by
      unfold advanced p2
      split
      · exact (millraceGroup_no ..).trans hno
      · exact hno
    have hquiet : QuietRegs reach taken sided := by
      unfold sided
      split
      · exact .millraceSides taken tile p1
      · exact .refl taken
    obtain ⟨hkept, hframe⟩ := hquiet hs hen
    have hcounted : counted = updPass sided reach tile p.no fun _ => { advanced with row := p1.row + 1 } := by
      have hoff : getF (updPass sided reach tile p1.no fun _ => { advanced with row := p1.row + 1 }) reach F.CNT_CTRL_EN = 0 := (hkept.same hs).trans hen
      rw [← hno]
      exact tileEv_off hoff ..
    refine ⟨sided, { advanced with row := p1.row + 1 }, ?_, ?_, ?_, hadvanced, congrArg (· + 1) hrow, ?_⟩
    · rw [hframe]
      rfl
    · rw [hframe]
      rfl
    · rw [hframe]
      rfl
    · rw [hcounted]
      split
      · exact .millraceBlock ..
      · exact .of_tiles rfl rfl rfl

section Streams
variable (hs : mSorted none s.regs = true) (hen : getF s reach F.CNT_CTRL_EN = 0) (ht : mSorted none s.tiles = true)
  (hacts : p.count * (p.k / fmtGsize p.fmt) * actGroup p.fmt ≤ p.acts.length) (hbeat : 128 ≤ (ownBytes ((getTile s reach tile).wport.getD 0 []) p.no).length)
  (hside : 8 ≤ (ownBytes ((getTile s reach tile).sidecar.getD 0 []) p.no).length)
include hs hen ht hacts hbeat hside

/-- The pass of a beat goes on to its next beat, and rills and contexts stay. -/
theorem runBeat_streams (hp : p ∈ (getTile s reach tile).flight) :
    (∃ x ∈ (getTile (runBeat s reach tile p) reach tile).flight, x.no = p.no ∧ x.row = p.row + 1)
      ∧ (runBeat s reach tile p).runnels = s.runnels ∧ (runBeat s reach tile p).sched = s.sched := by
  obtain ⟨u, x, htiles, hrun, hsched, hno, hrow, hwrites⟩ := runBeat_step hs hen hacts hbeat hside
  have hu : mSorted none u.tiles = true := htiles ▸ putTile_sorted ht _
  have hpu : p ∈ (getTile u reach tile).flight := by
    rw [getTile_congr htiles, beatTaken, getTile_putTile ht]
    exact beatTile_flight (p := p) ▸ hp
  obtain ⟨y, hy, hyno, hyrow⟩ := hwrites.row (updTile_sorted hu _) x (mem_flight_updPass hu hpu fun _ => x)
  exact ⟨⟨y, hy, hyno.trans hno, hyrow.trans hrow⟩, hwrites.runnels.trans hrun, hwrites.sched.trans hsched⟩

/-- The weight port moves on by a beat. -/
theorem runBeat_wport (hw : (getTile s reach tile).wport ≠ []) :
    ownBytes ((getTile (runBeat s reach tile p) reach tile).wport.getD 0 []) p.no = (ownBytes ((getTile s reach tile).wport.getD 0 []) p.no).drop 128 := by
  obtain ⟨u, x, htiles, -, -, -, -, hwrites⟩ := runBeat_step hs hen hacts hbeat hside
  have hu : mSorted none u.tiles = true := htiles ▸ putTile_sorted ht _
  rw [hwrites.wport (updTile_sorted hu _), getTile_updPass hu, getTile_congr htiles, beatTaken, getTile_putTile ht]
  dsimp only
  rw [beatTile_wport, getD_updAt (List.length_pos_iff.mpr hw), ownBytes_takeOwn]

end Streams
end Beat

/-! ### SLOT_GATE -/

section Gate
variable {s : State} {reach tile quad : Nat} {p : TPass} (h : TileAtWork s reach tile)
  (hp : (getTile s reach tile).flight.find? (fun x => x.lane x.fmt == (if fmtMode x.fmt = 1 then quad % 4 else 0) && decide (x.row < x.total)) = some p)
include hp

/-- The pass that streams is of the lane named. -/
theorem streaming_lane : p.lane p.fmt = if fmtMode p.fmt = 1 then quad % 4 else 0 := by
  have hlane := List.find?_some hp
  simp only [Bool.and_eq_true, beq_iff_eq] at hlane
  exact hlane.1

include h

/-- A row slot of a full or quad pass whose operands are in (R152, R153). -/
theorem exec_slotGate_row (hmode : fmtMode p.fmt ≠ 2) (hw : p.weightNeed p.fmt ≤ p.weights.length) (hside : p.sideNeed p.fmt ≤ p.side.length)
    (hesc : escAhead (getTile s reach tile) p.started = false) :
    let dry := dryFeeders p.fmt (ownBytes ((getTile s reach tile).feeders.getD (p.lane p.fmt) []) p.no).length
    exec (.slotGate reach tile quad) s = .next (if 4 < dry then addF s reach F.TILE_FREEZES_COUNT 1 tile
      else if 0 < dry then addF s reach F.TILE_BUBBLES_COUNT 1 tile else runRow s reach tile (p.lane p.fmt) p) := by
  have hlive : ¬ ((!reachLive s reach) = true) := by simp [h.live]
  have hgo : ¬ (p.weights.length < p.weightNeed p.fmt ∨ escAhead (getTile s reach tile) p.started = true) := by
    rw [hesc]
    exact fun hno => hno.elim (by omega) (by decide)
  show execSlotGate reach tile quad s = _
  unfold execSlotGate
  dsimp only
  rw [if_neg hlive, hp]
  dsimp only
  rw [if_neg hmode, if_neg hgo, if_neg (Nat.not_lt.mpr hside), tileEv_addF_off h.regs_sorted h.uncounted h.tile_lt (by decide),
    tileEv_addF_off h.regs_sorted h.uncounted h.tile_lt (by decide)]

/-- A slot of a millrace pass is a beat (R157). -/
theorem exec_slotGate_beat (hmode : fmtMode p.fmt = 2) : exec (.slotGate reach tile quad) s = .next (runBeat s reach tile p) := by
  have hlive : ¬ ((!reachLive s reach) = true) := by simp [h.live]
  show execSlotGate reach tile quad s = _
  unfold execSlotGate
  dsimp only
  rw [if_neg hlive, hp]
  dsimp only
  rw [if_pos hmode]

end Gate

/-! ### The parts of the statement -/

section Parts
variable {s : State} {reach tile quad : Nat} {p : TPass} (h : TileAtWork s reach tile)
include h

/-- A queued pass that the checks pass is in flight with the active format. -/
theorem passTaken_gives {q : Nat} (hrun : exec (.passStart reach tile quad) s = .next (passTaken s reach tile q p))
    (hnew : ∀ x ∈ (getTile s reach tile).flight, x.no ≠ p.no) : Gives (.passStart reach tile quad) s fun t =>
      (getTile t reach tile).queue = (getTile s reach tile).queue.filter (fun x => x.no != p.no)
        ∧ (getTile t reach tile).flight.map (·.no) = (getTile s reach tile).flight.map (·.no) ++ [p.no]
        ∧ (∃ x ∈ (getTile t reach tile).flight, x.no = p.no ∧ x.fmt = activeFmt s reach tile ∧ x.started = (getTile s reach tile).starts
            ∧ x.scales = if fmtMode (activeFmt s reach tile) = 2 then [] else scalesNow s reach tile p (activeFmt s reach tile))
        ∧ t.mem = s.mem ∧ t.runnels = s.runnels := by
  obtain ⟨x, hx, hsame⟩ := passTaken_pass (q := q) h hnew
  exact ⟨_, hrun, passTaken_queue h, passTaken_nos h, ⟨x, hx, hsame.no, hsame.fmt, hsame.started, hsame.scales⟩, rfl, rfl⟩

/-- A scale write at the head of a queue takes effect and completes (R147). -/
theorem scaleWrite_gives {i v : Nat} (hq : (getTile s reach tile).queue = [p]) (hw : p.scaleWrite = some (i, v))
    (hf : (getTile s reach tile).flight = []) (hslot : p.slot < 2) : Gives (.passStart reach tile 0) s fun t =>
      getF t reach F.TILE_SCALE_SCALE tile i = v % 2 ^ 32 ∧ (getTile t reach tile).queue = [] ∧ TicketDone s t p.op 0 ∧ t.mem = s.mem := by
  refine ⟨_, passStart_scaleWrite h hq hw hf hslot, ?_, ?_, ticketDone_completeOp (by rfl) p.op 0, ?_⟩
  · rw [completeOp_frame]
    exact getF_setF_same (s := putTile s reach tile _) h.regs_sorted ..
  · rw [completeOp_frame]
    exact congrArg Tile.queue (getTile_putTile h.tiles_sorted _)
  · rw [completeOp_frame]
    rfl

/-- An escalation pass that waits is in flight, and the queue stays. -/
theorem escStarted_gives (hrun : exec (.passStart reach tile quad) s = .next (escStarted s reach tile p)) (hesc : waitingEsc (getTile s reach tile) = some p) :
    Gives (.passStart reach tile quad) s fun t =>
      (∃ x ∈ (getTile t reach tile).flight, x.no = p.no ∧ x.owns = true
          ∧ (∃ b ∈ x.esc.head?, b.flying = true ∧ b.started = (getTile s reach tile).starts))
        ∧ (getTile t reach tile).queue = (getTile s reach tile).queue ∧ t.mem = s.mem ∧ t.runnels = s.runnels :=
  ⟨_, hrun, escStarted_pass h hesc, escStarted_queue h p, rfl, rfl⟩

section Row
variable {q : Nat} (hrun : exec (.slotGate reach tile quad) s = .next (runRow s reach tile q p)) (hp : p ∈ (getTile s reach tile).flight)
  (hq : q < (getTile s reach tile).feeders.length)
include hrun hp hq

/-- A row slot: the pass advances and the feeders move on. -/
theorem row_gives : Gives (.slotGate reach tile quad) s fun t =>
    ((∃ x ∈ (getTile t reach tile).flight, x.no = p.no ∧ x.row = p.row + 1) ∧ t.runnels = s.runnels ∧ t.sched = s.sched)
      ∧ ownBytes ((getTile t reach tile).feeders.getD q []) p.no
        = (ownBytes ((getTile s reach tile).feeders.getD q []) p.no).drop (actRow p.fmt) :=
  ⟨_, hrun, ⟨runRow_pass h.regs_sorted h.uncounted h.tiles_sorted hp, runRow_runnels h.regs_sorted h.uncounted, runRow_sched h.regs_sorted h.uncounted⟩,
    runRow_feeders h.regs_sorted h.uncounted h.tiles_sorted hq⟩

/-- A row of a full pass: its 32 results are written, or added, at its row, and no other byte changes (R161, R176-R182). -/
theorem fullRow_gives (hmode : fmtMode p.fmt = 0) (hg : p.gpart = 0) (hsent : p.sent.testBit 16 = false) :
    let data := ownBytes ((getTile s reach tile).feeders.getD q []) p.no
    let raw := data.take (actRow p.fmt)
    let a0 := wordAddr reach tile p.bank (p.row0 + p.row) 0
    Gives (.slotGate reach tile quad) s fun t =>
      (∀ j, j < 32 → word32 t (a0 + 4 * j) = (if p.acc then fadd (word32 s (a0 + 4 * j)) (columnResult p raw j) else columnResult p raw j) % 2 ^ 32)
        ∧ (∀ x, (x < a0 ∨ a0 + 128 ≤ x) → rdByte t x = rdByte s x)
        ∧ ownBytes ((getTile t reach tile).feeders.getD q []) p.no = data.drop (actRow p.fmt)
        ∧ (∃ x ∈ (getTile t reach tile).flight, x.no = p.no ∧ x.row = p.row + 1) ∧ t.runnels = s.runnels ∧ t.sched = s.sched := by
  intro data raw a0
  obtain ⟨t, ht, ⟨hpass, hrunnels, hsched⟩, hfeeders⟩ := row_gives h hrun hp hq
  obtain rfl := Host.Outcome.next.inj (hrun.symm.trans ht)
  obtain ⟨u, hu, hmem⟩ := runRow_mem (tile := tile) (q := q) h.regs_sorted h.uncounted hmode hg hsent
  have hwf : Memory.wf u.mem.bytes = true := by
    rw [hu]
    exact h.mem_wf
  have hlen : (rowResults p raw).length = 32 := rowResults_length hmode raw
  refine ⟨_, ht, fun j hj => ?_, fun x hx => ?_, hfeeders, hpass, hrunnels, hsched⟩
  · rw [word32_congr hmem]
    refine (word32_depositAt p.acc a0 (rowResults p raw) hwf (by omega)).trans ?_
    rw [rowResults_getElem, word32_congr hu]
  · rw [rdByte_congr hmem]
    refine (rdByte_depositAt p.acc a0 (rowResults p raw) hwf (by omega)).trans (rdByte_congr hu x)

end Row
end Parts

/-- Settles O38: with no scale write to drain, PASS_START comes down to the next pass of the lane; a row slot comes down to the row's bytes,
its rescaled sums and their words, and a beat to the weights of the port. -/
theorem passesStartAndComputeRows : Obligations.PassesStartAndComputeRows := by
  unfold Obligations.PassesStartAndComputeRows
  refine ⟨fun s reach tile p h => ⟨fun hsw hmode hroom hload hesc hqueued hpend => ?_, fun i v hq hw _ hf hslot _ => scaleWrite_gives h hq hw hf hslot,
    fun quad hsw hroom hload => ?_⟩, fun s reach tile p h hp hmode hg hw hside hsent _ hesc => ?_, fun s reach tile quad p h hp => ?_⟩
  · have hlane : (if fmtMode (activeFmt s reach tile) = 1 then 0 % 4 else 0) = 0 := ite_self 0
    have hroom' := hlane.symm ▸ hroom
    have hload' := hlane.symm ▸ hload
    refine ⟨fun hfirst hslot hready hother hnew => ?_, fun hnone => passStart_none h hsw hroom' hload' hmode hesc hnone⟩
    have hrun := passStart_next h hsw hroom' hload' (p := p) (by rw [if_pos hmode, hesc]) hqueued hpend
      (by rw [hlane]; exact nextPass_earlier hsw hmode hfirst hslot hready hother)
    refine ⟨fun hbad => hrun.trans (congrArg Host.Outcome.next (if_pos hbad)), fun hgood => ?_⟩
    have hscales : (if fmtMode (activeFmt s reach tile) = 2 then [] else scalesNow s reach tile p (activeFmt s reach tile))
        = (List.range 32).map (fun i => getF s reach F.TILE_SCALE_SCALE tile (p.scaleBase + i)) := by
      simp [scalesNow, hmode]
    obtain ⟨t, ht, hq, hnos, hpass, hkept⟩ := passTaken_gives h (hrun.trans (congrArg Host.Outcome.next (if_neg (not_not.mpr hgood)))) hnew
    exact ⟨t, ht, hq, hnos, hscales ▸ hpass, hkept⟩
  · refine ⟨fun hmode hqueued hpend hnext hnew hgood => ?_, fun hmode hesc => escStarted_gives h (passStart_escalation h hsw hroom hload hmode hesc) hesc⟩
    have hrun := passStart_next h hsw hroom hload (by rw [if_neg hmode]) hqueued hpend hnext
    obtain ⟨t, ht, hq, -, ⟨x, hx, hno, hfmt, hstarted, -⟩, hkept⟩ :=
      passTaken_gives h (hrun.trans (congrArg Host.Outcome.next (if_neg (not_not.mpr hgood)))) hnew
    exact ⟨t, ht, hq, ⟨x, hx, hno, hfmt, hstarted⟩, hkept⟩
  · have hlane : p.lane p.fmt = 0 := if_neg (by omega)
    have hp' : (getTile s reach tile).flight.find? (fun x => x.lane x.fmt == (if fmtMode x.fmt = 1 then 0 % 4 else 0) && decide (x.row < x.total)) = some p := by
      simpa only [Nat.zero_mod, ite_self] using hp
    have hrun := exec_slotGate_row h hp' (by omega) hw hside hesc
    rw [hlane] at hrun
    refine ⟨fun hdry hfeeders => ?_, fun hsome hfew => ?_, fun hmany => hrun.trans (congrArg Host.Outcome.next (if_pos hmany))⟩
    · refine fullRow_gives h (hrun.trans (congrArg Host.Outcome.next ?_)) (List.mem_of_find?_eq_some hp) (List.length_pos_iff.mpr hfeeders) hmode hg hsent
      rw [if_neg (by omega), if_neg (by omega)]
    · refine hrun.trans (congrArg Host.Outcome.next ?_)
      rw [if_neg (by omega), if_pos hsome]
  · have hmem := List.mem_of_find?_eq_some hp
    refine ⟨fun hmode hw hside hesc hq hdry => ?_, fun hmode hacts hport hbeat hside => ?_⟩
    · have hrun := exec_slotGate_row h hp hmode hw hside hesc
      rw [streaming_lane hp] at hrun
      refine row_gives h (hrun.trans (congrArg Host.Outcome.next ?_)) hmem hq
      rw [if_neg (by omega), if_neg (by omega)]
    · exact ⟨_, exec_slotGate_beat h hp hmode, runBeat_streams h.regs_sorted h.uncounted h.tiles_sorted hacts hbeat hside hmem,
        runBeat_wport h.regs_sorted h.uncounted h.tiles_sorted hacts hbeat hside hport⟩

end Sys2Proof.Machine
end

section
/-!
PROOFS. Scope: the end of a pass: words that are poisoned, a fault that sends quadrants to TESTING, and the completion of a pass (R148,
R161, R168-R170).
-/
namespace Sys2Proof.Machine

/-! ### Poisoned words (R168, R416) -/

/-- The granule of an address is marked. -/
def poisonWord (s : State) (a : Nat) : State := { s with mem := { s.mem with poison := mins s.mem.poison (granule a) () } }

/-- At most poison is added. -/
structure Poisons (s t : State) : Prop where
  frame : t = { s with mem := { s.mem with poison := t.mem.poison } }
  sorted : mSorted none s.mem.poison = true → mSorted none t.mem.poison = true
  kept : mSorted none s.mem.poison = true → ∀ a, poisoned s a = true → poisoned t a = true

namespace Poisons
variable {s t u : State}

theorem refl (s : State) : Poisons s s := ⟨rfl, id, fun _ _ => id⟩

theorem regs (h : Poisons s t) : t.regs = s.regs := by rw [h.frame]

theorem tiles (h : Poisons s t) : t.tiles = s.tiles := by rw [h.frame]

theorem runnels (h : Poisons s t) : t.runnels = s.runnels := by rw [h.frame]

theorem bytes (h : Poisons s t) : t.mem.bytes = s.mem.bytes := by rw [h.frame]

theorem trans (h : Poisons s t) (h' : Poisons t u) : Poisons s u := by
  refine ⟨?_, fun hs => h'.sorted (h.sorted hs), fun hs a ha => h'.kept (h.sorted hs) a (h.kept hs a ha)⟩
  rw [h'.frame, h.frame]

theorem foldl {α : Type} {f : State → α → State} (h : ∀ s a, Poisons s (f s a)) (l : List α) (s : State) : Poisons s (l.foldl f s) := by
  induction l generalizing s with
  | nil => exact refl s
  | cons a l ih => exact (h s a).trans (ih (f s a))

/-- What one step poisons stays poisoned. -/
theorem foldl_mem {α : Type} {f : State → α → State} (h : ∀ s a, Poisons s (f s a)) {l : List α} {x : α} (hx : x ∈ l) {a : Nat}
    (ha : ∀ s, poisoned (f s x) a = true) {s : State} (hs : mSorted none s.mem.poison = true) : poisoned (l.foldl f s) a = true := by
  induction l generalizing s with
  | nil => cases hx
  | cons y l ih =>
    have hy := (h s y).sorted hs
    obtain rfl | hmem := List.mem_cons.mp hx
    · exact (foldl h l (f s x)).kept hy a (ha s)
    · exact ih hmem hy

theorem poisonWord (s : State) (a : Nat) : Poisons s (poisonWord s a) := by
  refine ⟨rfl, fun hs => mSorted_mins _ hs (by simp), fun hs x hx => ?_⟩
  unfold poisoned at hx ⊢
  by_cases hg : granule x = granule a
  · rw [hg, Machine.poisonWord, mfind_mins_same]
    rfl
  · rw [Machine.poisonWord, mfind_mins_ne hg _ hs]
    exact hx

theorem poisonColumn (s : State) (reach tile : Nat) (p : TPass) (col : Nat) : Poisons s (poisonColumn s reach tile p col) := by
  unfold Machine.poisonColumn
  dsimp only
  split
  · refine foldl (fun s ob => ?_) _ s
    split
    · exact poisonWord ..
    · exact refl s
  · refine foldl (fun s m => ?_) _ s
    by_cases hg : p.gpart = 0
    · simp only [hg, true_or, if_true]
      exact poisonWord ..
    · simp only [hg, false_or, if_false]
      split
      · exact (poisonWord s _).trans (poisonWord _ _)
      · exact poisonWord ..

end Poisons

theorem poisoned_poisonWord (s : State) (a : Nat) : poisoned (poisonWord s a) a = true := by
  rw [poisoned, poisonWord, mfind_mins_same]
  rfl

/-- The words of the column that a full pass wrote are poisoned. -/
theorem poisoned_poisonColumn {s : State} {reach tile : Nat} {p : TPass} (hs : mSorted none s.mem.poison = true) (hmode : fmtMode p.fmt = 0)
    (hg : p.gpart = 0) {m : Nat} (hm : m < p.count) (col : Nat) :
    poisoned (poisonColumn s reach tile p col) (wordAddr reach tile p.bank (p.row0 + m) (col % 32)) = true := by
  have hplace (i : Nat) : p.place i = (p.row0 + i, 0) := if_neg (by omega)
  have hcol : poisonColumn s reach tile p col
      = (List.range p.count).foldl (fun s m => poisonWord s (wordAddr reach tile p.bank (p.row0 + m) (col % 32))) s := by
    simp [poisonColumn, hmode, hg, hplace, poisonWord]
  rw [hcol]
  exact Poisons.foldl_mem (f := fun s m => poisonWord s (wordAddr reach tile p.bank (p.row0 + m) (col % 32))) (fun s m => .poisonWord s _)
    (List.mem_range.mpr hm) (fun s => poisoned_poisonWord s _) hs

/-- An uncorrectable event at a free place: neither memory nor rills nor tiles change. -/
theorem eventIn_spares (s : State) (isl arr unit : Nat) :
    (eventIn s isl arr unit true).mem = s.mem ∧ (eventIn s isl arr unit true).runnels = s.runnels ∧ (eventIn s isl arr unit true).tiles = s.tiles := by
  simp [eventIn, uncorrectableEvent, noteAlert, protLast, takeFree]

theorem protLast_regs_sorted {s : State} (hs : mSorted none s.regs = true) (isl arr : Nat) (ue : Bool) (unit addr : Nat) :
    mSorted none (protLast s isl arr ue unit addr).regs = true := by
  unfold protLast
  iterate 6 apply setF_regs_sorted
  exact hs

theorem uncorrectableEvent_regs_sorted {s : State} (hs : mSorted none s.regs = true) (isl arr unit addr : Nat) :
    mSorted none (uncorrectableEvent s isl arr unit addr).regs = true := by
  have hcount : mSorted none (addF s isl F.PROT_UE_COUNT_COUNT 1 arr).regs = true := setF_regs_sorted hs ..
  have hlast := protLast_regs_sorted hcount isl arr true unit addr
  have hflag : mSorted none (setFBit (protLast (addF s isl F.PROT_UE_COUNT_COUNT 1 arr) isl arr true unit addr) isl F.PROT_STATUS_UE arr true).regs = true :=
    setF_regs_sorted hlast ..
  exact hflag

theorem eventIn_regs_sorted {s : State} (hs : mSorted none s.regs = true) (isl arr unit : Nat) :
    mSorted none (eventIn s isl arr unit true).regs = true :=
  uncorrectableEvent_regs_sorted (s := (takeFree s).2) hs ..

/-! ### Units (R169, R170) -/

theorem quadField_apart : ∀ k < 4, ∀ q < 4, k ≠ q → fieldsApart (quadField k) (quadField q) = true := by decide

/-- A field apart from those of the quadrants' states and self-tests. -/
def apartFromQuads (g : Field) : Bool :=
  [F.TILE_QSTATE_Q0, F.TILE_QSTATE_Q1, F.TILE_QSTATE_Q2, F.TILE_QSTATE_Q3, F.TILE_QSTATE_BIST_DONE, F.TILE_QSTATE_BIST_FAIL].all (fieldsApart g)

theorem fieldsApart_quadField {g : Field} (h : apartFromQuads g = true) (q : Nat) : fieldsApart g (quadField q) = true := by
  simp only [apartFromQuads, List.all_eq_true] at h
  refine h _ ?_
  unfold quadField
  split <;> simp

theorem fieldsApart_bist {g : Field} (h : apartFromQuads g = true) :
    fieldsApart g F.TILE_QSTATE_BIST_DONE = true ∧ fieldsApart g F.TILE_QSTATE_BIST_FAIL = true := by
  simp only [apartFromQuads, List.all_eq_true] at h
  exact ⟨h _ (by simp), h _ (by simp)⟩

/-- Units of a tile change state or count: at most registers, decisions owed and the tile's counts of joins change. -/
structure UnitWork (reach tile : Nat) (s t : State) : Prop where
  frame : t = { s with regs := t.regs, sched := t.sched, tiles := t.tiles }
  sorted : mSorted none s.tiles = true → mSorted none t.tiles = true
  tile : mSorted none s.tiles = true → ∃ l, getTile t reach tile = { getTile s reach tile with joins := l }

namespace UnitWork
variable {reach tile : Nat} {s t u : State}

theorem of_tiles (hf : t = { s with regs := t.regs, sched := t.sched }) : UnitWork reach tile s t := by
  have ht : t.tiles = s.tiles := by rw [hf]
  exact ⟨hf.trans (by rw [ht]), fun hs => ht ▸ hs, fun _ => ⟨_, getTile_congr ht ..⟩⟩

theorem refl (s : State) : UnitWork reach tile s s := of_tiles rfl

theorem trans (h : UnitWork reach tile s t) (h' : UnitWork reach tile t u) : UnitWork reach tile s u := by
  refine ⟨?_, fun hs => h'.sorted (h.sorted hs), fun hs => ?_⟩
  · rw [h'.frame, h.frame]
  · obtain ⟨l, hl⟩ := h.tile hs
    obtain ⟨m, hm⟩ := h'.tile (h.sorted hs)
    exact ⟨m, by rw [hm, hl]⟩

theorem foldl {α : Type} {f : State → α → State} (h : ∀ s a, UnitWork reach tile s (f s a)) (l : List α) (s : State) : UnitWork reach tile s (l.foldl f s) := by
  induction l generalizing s with
  | nil => exact refl s
  | cons a l ih => exact (h s a).trans (ih (f s a))

theorem runnels (h : UnitWork reach tile s t) : t.runnels = s.runnels := by rw [h.frame]

theorem mem (h : UnitWork reach tile s t) : t.mem = s.mem := by rw [h.frame]

theorem setF (s : State) (isl : Nat) (f : Field) (v i j : Nat) : UnitWork reach tile s (setF s isl f v i j) := of_tiles rfl

theorem unitMoved (s : State) : UnitWork reach tile s (unitMoved s) := by
  unfold Machine.unitMoved
  split
  · exact of_tiles rfl
  · exact refl s

theorem joins (s : State) (f : Tile → List Nat) : UnitWork reach tile s (updTile s reach tile fun t => { t with joins := f t }) :=
  ⟨rfl, fun hs => updTile_sorted hs _, fun hs => ⟨_, getTile_updTile hs _⟩⟩

theorem countJoin (s : State) (p : TPass) : UnitWork reach tile s (countJoin s reach tile p) := by
  refine foldl (fun s q => ?_) _ s
  split
  · exact joins s fun t => updAt t.joins q (· + 1)
  · exact refl s

end UnitWork

theorem countJoin_regs (s : State) (reach tile : Nat) (p : TPass) : (countJoin s reach tile p).regs = s.regs := by
  refine List.foldlRecOn _ _ (motive := fun t : State => t.regs = s.regs) rfl fun t ht q _ => ?_
  split
  · exact ht
  · exact ht

/-! ### A fault of a whole tile (R168-R170) -/

section Fault
variable {s : State} {reach tile : Nat}

/-- The self-test of a quadrant has not been done. -/
def bistCleared (s : State) (reach tile q : Nat) : State :=
  setFBit (setFBit s reach F.TILE_QSTATE_BIST_DONE q false tile) reach F.TILE_QSTATE_BIST_FAIL q false tile

/-- A quadrant that serves goes to TESTING, its self-test to be done and its count of joins to begin again. -/
def quadTested (s : State) (reach tile q : Nat) : State :=
  if quadState s reach tile q = 0 ∨ quadState s reach tile q = 1 ∨ quadState s reach tile q = 4 then
    updTile (bistCleared (unitMoved (setQuad s reach tile q 3)) reach tile q) reach tile (fun t => { t with joins := t.joins.set q 0 })
  else s

/-- Fields of a tile written one after the other. -/
def setFields (s : State) (reach tile : Nat) (l : List (Field × Nat)) : State := l.foldl (fun s x => setF s reach x.1 x.2 tile) s

/-- The fields of TILE_FAULT. -/
def faultFields : List Field :=
  [F.TILE_FAULT_CODE, F.TILE_FAULT_QUAD, F.TILE_FAULT_WHOLE, F.TILE_FAULT_COL, F.TILE_FAULT_SLOT, F.TILE_FAULT_VALID]

/-- What TILE_FAULT records of a whole tile's pass (R168). -/
def faultWrites (p : TPass) (code col : Nat) : List (Field × Nat) := faultFields.zip [code, 0, 1, col % 32, p.slot, 1]

theorem faultWrites_fields (p : TPass) (code col : Nat) : (faultWrites p code col).map (·.1) = faultFields := rfl

theorem faultWrites_field {p : TPass} {code col : Nat} {x : Field × Nat} (h : x ∈ faultWrites p code col) : x.1 ∈ faultFields := (List.of_mem_zip h).1

/-- The state with the fault recorded. -/
def faultNoted (s : State) (reach tile : Nat) (p : TPass) (code col : Nat) : State :=
  setFields s reach tile (faultWrites p code col)

section Fields
variable {l : List (Field × Nat)} (ht : tile < 48)
include ht

theorem KeepsAt.setFields {g : Field} {i : Nat} (hi : i < 2048) (hg : ∀ x ∈ l, fieldsApart g x.1 = true) (s : State) :
    KeepsAt reach g i s (setFields s reach tile l) :=
  .foldl (fun s x hx => .setF (hg x hx) hi (Nat.lt_trans ht (by decide)) (by decide) s reach x.2) s

/-- Of fields that lie apart, each shows what was written to it. -/
theorem getF_setFields (hl : l.Pairwise fun x y => fieldsApart x.1 y.1 = true) {x : Field × Nat} (hx : x ∈ l) (hs : mSorted none s.regs = true) :
    getF (setFields s reach tile l) reach x.1 tile = x.2 % 2 ^ x.1.w := by
  induction l generalizing s with
  | nil => cases hx
  | cons y l ih =>
    obtain ⟨happart, hl'⟩ := List.pairwise_cons.mp hl
    have hy : mSorted none (setF s reach y.1 y.2 tile).regs = true := setF_regs_sorted hs ..
    obtain rfl | hmem := List.mem_cons.mp hx
    · exact ((KeepsAt.setFields ht (Nat.lt_trans ht (by decide)) happart _).same hy).trans (getF_setF_same hs ..)
    · exact ih hl' hmem hy

end Fields

theorem KeepsAt.unitMoved {isl i : Nat} {g : Field} (s : State) : KeepsAt isl g i s (unitMoved s) :=
  .of_regs (congrArg State.regs (unitMoved_frame s) :)

theorem KeepsAt.updTile {isl i : Nat} {g : Field} (s : State) (f : Tile → Tile) : KeepsAt isl g i s (updTile s reach tile f) := ⟨id, fun _ => rfl⟩

theorem quadTested_unitWork (s : State) (q : Nat) : UnitWork reach tile s (quadTested s reach tile q) := by
  unfold quadTested
  split
  · exact (((UnitWork.setF s ..).trans (.unitMoved _)).trans ((UnitWork.setF ..).trans (.setF ..))).trans (.joins _ fun t => t.joins.set q 0)
  · exact .refl s

section Keeps
variable {g : Field} {i : Nat} (hi : i < 2048) (ht : tile < 48)
include hi ht

theorem KeepsAt.bistCleared (hdone : fieldsApart g F.TILE_QSTATE_BIST_DONE = true) (hfail : fieldsApart g F.TILE_QSTATE_BIST_FAIL = true) (s : State) (q : Nat) :
    KeepsAt reach g i s (bistCleared s reach tile q) := by
  have htile : tile < 2048 := by omega
  have h1 : KeepsAt reach g i s (Machine.setFBit s reach F.TILE_QSTATE_BIST_DONE q false tile) := .setFBit hdone hi htile s reach q false
  have h2 : KeepsAt reach g i (Machine.setFBit s reach F.TILE_QSTATE_BIST_DONE q false tile) (Machine.bistCleared s reach tile q) :=
    .setFBit hfail hi htile _ reach q false
  exact h1.trans h2

/-- What follows a quadrant's change of state to TESTING. -/
theorem KeepsAt.stopped (hdone : fieldsApart g F.TILE_QSTATE_BIST_DONE = true) (hfail : fieldsApart g F.TILE_QSTATE_BIST_FAIL = true) (s : State) (q : Nat)
    (f : Tile → Tile) : KeepsAt reach g i s (Machine.updTile (Machine.bistCleared (Machine.unitMoved s) reach tile q) reach tile f) :=
  ((KeepsAt.unitMoved s).trans (.bistCleared hi ht hdone hfail _ q)).trans (.updTile _ f)

theorem KeepsAt.quadTested {q : Nat} (hq : fieldsApart g (quadField q) = true) (hdone : fieldsApart g F.TILE_QSTATE_BIST_DONE = true)
    (hfail : fieldsApart g F.TILE_QSTATE_BIST_FAIL = true) (s : State) : KeepsAt reach g i s (quadTested s reach tile q) := by
  have hstate : KeepsAt reach g i s (setQuad s reach tile q 3) := .setF hq hi (by omega) (by decide) s reach 3
  unfold Machine.quadTested
  split
  · exact hstate.trans (.stopped hi ht hdone hfail _ q _)
  · exact .refl s

/-- A field apart from the quadrants' stays while they go to TESTING. -/
theorem KeepsAt.quadsTested (hg : apartFromQuads g = true) (l : List Nat) (s : State) :
    KeepsAt reach g i s (l.foldl (Machine.quadTested · reach tile ·) s) :=
  .foldl (fun s q _ => .quadTested hi ht (fieldsApart_quadField hg q) (fieldsApart_bist hg).1 (fieldsApart_bist hg).2 s) s

end Keeps

theorem quadField_bist : ∀ q < 4, fieldsApart (quadField q) F.TILE_QSTATE_BIST_DONE = true ∧ fieldsApart (quadField q) F.TILE_QSTATE_BIST_FAIL = true := by
  decide

theorem quadField_width (q : Nat) : (quadField q).w = 3 := by
  unfold quadField
  split <;> rfl

theorem quadState_setQuad (hs : mSorted none s.regs = true) (q v : Nat) : quadState (setQuad s reach tile q v) reach tile q = v % 8 := by
  refine (getF_setF_same hs ..).trans ?_
  rw [quadField_width]
  rfl

/-- Another quadrant's step leaves a quadrant's state. -/
theorem KeepsAt.quadTested_ne (ht : tile < 48) {k q : Nat} (hk : k < 4) (hq : q < 4) (hne : k ≠ q) (s : State) :
    KeepsAt reach (quadField k) tile s (Machine.quadTested s reach tile q) :=
  .quadTested (Nat.lt_trans ht (by decide)) ht (quadField_apart k hk q hq hne) (quadField_bist k hk).1 (quadField_bist k hk).2 s

/-- A quadrant that serves is in TESTING after its step. -/
theorem quadState_quadTested (ht : tile < 48) (hs : mSorted none s.regs = true) {q : Nat} (hzero : quadState s reach tile q = 0) (hq : q < 4) :
    quadState (quadTested s reach tile q) reach tile q = 3 := by
  have hkept : KeepsAt reach (quadField q) tile (setQuad s reach tile q 3) (quadTested s reach tile q) := by
    rw [quadTested, if_pos (.inl hzero)]
    exact .stopped (by omega) ht (quadField_bist q hq).1 (quadField_bist q hq).2 _ q _
  exact (hkept.same (setF_regs_sorted hs ..)).trans (quadState_setQuad hs q 3)

/-- Quadrants that serve are in TESTING after the fault. -/
theorem quadState_quadsTested (ht : tile < 48) {l : List Nat} (hl : l.Nodup) (hlt : ∀ q ∈ l, q < 4) {k : Nat} (hk : k ∈ l)
    (hs : mSorted none s.regs = true) (hzero : quadState s reach tile k = 0) :
    quadState (l.foldl (quadTested · reach tile ·) s) reach tile k = 3 := by
  induction l generalizing s with
  | nil => cases hk
  | cons q l ih =>
    obtain ⟨hnot, hl'⟩ := List.nodup_cons.mp hl
    have hk4 := hlt k hk
    have hq4 := hlt q List.mem_cons_self
    have hrest (j : Nat) (hj : j ∈ l) : j < 4 := hlt j (List.mem_cons_of_mem q hj)
    by_cases hkq : k = q
    · subst hkq
      have hkept : KeepsAt reach (quadField k) tile (quadTested s reach tile k) (l.foldl (quadTested · reach tile ·) (quadTested s reach tile k)) :=
        .foldl (fun u j hj => .quadTested_ne ht hk4 (hrest j hj) (fun heq => hnot (heq ▸ hj)) u) _
      have hstep : KeepsAt reach F.CNT_CTRL_EN 0 s (quadTested s reach tile k) :=
        .quadTested (by decide) ht (fieldsApart_quadField (by decide) k) (by decide) (by decide) s
      exact (hkept.same (hstep.sorted hs)).trans (quadState_quadTested ht hs hzero hk4)
    · have hstep := KeepsAt.quadTested_ne (reach := reach) ht hk4 hq4 hkq s
      exact ih hl' hrest ((List.mem_cons.mp hk).resolve_left hkq) (hstep.sorted hs) ((hstep.same hs).trans hzero)

section Whole
variable {p : TPass} {code col : Nat}

/-- The quadrants of a faulty whole tile in TESTING, the fault recorded. -/
def tileTested (s : State) (reach tile : Nat) (p : TPass) (code col : Nat) : State :=
  [0, 1, 2, 3].foldl (quadTested · reach tile ·) (faultNoted s reach tile p code col)

theorem faultNoted_unitWork : UnitWork reach tile s (faultNoted s reach tile p code col) := .foldl (fun s _ => .setF s ..) _ s

theorem tileTested_unitWork : UnitWork reach tile s (tileTested s reach tile p code col) :=
  faultNoted_unitWork.trans (.foldl (fun s q => quadTested_unitWork s q) _ _)

/-- A fault of a pass of the whole tile, no pass queued: the fault is recorded and the quadrants go to TESTING (R168, R170). -/
theorem tileFault_whole (hmode : fmtMode p.fmt = 0) (ht : mSorted none s.tiles = true) (hq : (getTile s reach tile).queue = []) :
    tileFault s reach tile p code col
      = putTile (tileTested s reach tile p code col) reach tile ((getTile (tileTested s reach tile p code col) reach tile).forget []) := by
  have hqueue : (getTile (tileTested s reach tile p code col) reach tile).queue = [] := by
    obtain ⟨l, hl⟩ := (tileTested_unitWork (p := p) (code := code) (col := col)).tile ht
    rw [hl]
    exact hq
  unfold tileFault
  simp only [hmode, Nat.zero_ne_one, decide_false, Bool.not_false, if_false]
  change (let t := getTile (tileTested s reach tile p code col) reach tile
    let dead := t.queue.filter (fun x => x.scaleWrite.isNone && (true || x.quad == p.quad))
    dead.foldl (fun s x => finishPass s reach tile x 0x1007) (putTile (tileTested s reach tile p code col) reach tile (t.forget (dead.map (·.no))))) = _
  simp [hqueue]

section Registers
variable (ht : tile < 48) (hs : mSorted none s.regs = true)
include ht hs

theorem tileTested_sorted : mSorted none (tileTested s reach tile p code col).regs = true := by
  have hcnt : ∀ f ∈ faultFields, fieldsApart F.CNT_CTRL_EN f = true := by decide
  have hnoted : KeepsAt reach F.CNT_CTRL_EN 0 s (faultNoted s reach tile p code col) := .setFields ht (by decide) (fun x hx => hcnt x.1 (faultWrites_field hx)) s
  have htested : KeepsAt reach F.CNT_CTRL_EN 0 (faultNoted s reach tile p code col) (tileTested s reach tile p code col) :=
    .quadsTested (by decide) ht (by decide) _ _
  exact (hnoted.trans htested).sorted hs

/-- TILE_FAULT shows what was recorded (R168). -/
theorem getF_tileTested {f : Field} {v : Nat} (hf : (f, v) ∈ faultWrites p code col) :
    getF (tileTested s reach tile p code col) reach f tile = v % 2 ^ f.w := by
  have happart : ∀ f ∈ faultFields, apartFromQuads f = true := by decide
  have hpair : (faultWrites p code col).Pairwise fun x y => fieldsApart x.1 y.1 = true := by
    have hfields : faultFields.Pairwise fun x y => fieldsApart x y = true := by decide
    rw [← faultWrites_fields p code col] at hfields
    exact List.pairwise_map.mp hfields
  have htested : KeepsAt reach f tile (faultNoted s reach tile p code col) (tileTested s reach tile p code col) :=
    .quadsTested (Nat.lt_trans ht (by decide)) ht (happart f (faultWrites_field hf)) _ _
  have hcnt : ∀ f ∈ faultFields, fieldsApart F.CNT_CTRL_EN f = true := by decide
  have hnoted : KeepsAt reach F.CNT_CTRL_EN 0 s (faultNoted s reach tile p code col) := .setFields ht (by decide) (fun x hx => hcnt x.1 (faultWrites_field hx)) s
  have hread := getF_setFields (reach := reach) ht hpair hf hs
  exact (htested.same (hnoted.sorted hs)).trans hread

/-- The quadrants that served are in TESTING. -/
theorem quadState_tileTested {k : Nat} (hk : k < 4) (hzero : quadState s reach tile k = 0) :
    quadState (tileTested s reach tile p code col) reach tile k = 3 := by
  have happart : ∀ k < 4, ∀ f ∈ faultFields, fieldsApart (quadField k) f = true := by decide
  have hnoted : KeepsAt reach (quadField k) tile s (faultNoted s reach tile p code col) :=
    .setFields ht (Nat.lt_trans ht (by decide)) (fun x hx => happart k hk x.1 (faultWrites_field hx)) s
  refine quadState_quadsTested ht (by decide) (by decide) ?_ (hnoted.sorted hs) ((hnoted.same hs).trans hzero)
  interval_cases k <;> decide

end Registers

end Whole
end Fault

end Sys2Proof.Machine
end

section
/-!
PROOFS. Scope: PASS_COMPLETE: passes that end clean or with a fault, and escalation passes that end; the statement on the completion of
passes and the states of units (R148, R168-R170, R200).
-/
namespace Sys2Proof.Machine

/-! ### The end of a pass (R148, R168) -/

section Ends
variable {s : State} {reach tile : Nat} {p : TPass} (h : TileAtWork s reach tile)

/-- A tile that a pass has left. -/
def tileWithout (no : Nat) (t : Tile) : Tile := { t with flight := t.flight.filter (fun x => x.no != no) }

/-- A pass has left its tile, its escalated rows counted. -/
def passLeft (s : State) (reach tile : Nat) (p : TPass) : State :=
  addF (updTile s reach tile (tileWithout p.no)) reach F.TILE_ESCALATIONS_COUNT p.escRows tile

include h

theorem getTile_passLeft : getTile (passLeft s reach tile p) reach tile = tileWithout p.no (getTile s reach tile) :=
  getTile_updTile h.tiles_sorted (tileWithout p.no)

theorem passLeft_tiles_sorted : mSorted none (passLeft s reach tile p).tiles = true := updTile_sorted h.tiles_sorted (tileWithout p.no)

/-- A field of the tile apart from the count of escalations. -/
theorem passLeft_keeps {g : Field} (hg : fieldsApart g F.TILE_ESCALATIONS_COUNT = true) : KeepsAt reach g tile s (passLeft s reach tile p) := by
  have htile : tile < 2048 := Nat.lt_trans h.tile_lt (by decide)
  exact (KeepsAt.updTile s _).trans (.addF hg htile htile _ reach p.escRows)

section Plain
variable (hinj : p.inject = none) (hups : p.upset = []) (hbad : p.badOuts = [])
include hinj hups hbad

/-- The end of a pass that met nothing before it. -/
theorem endPass_plain (ups : List TileUpset) : endPass s reach tile p ups =
    match (match (upsetAll (passLeft s reach tile p) reach tile p ups).2.find? (fun x => x.1 == 0x4002) with
      | some x => some x | none => (upsetAll (passLeft s reach tile p) reach tile p ups).2.head?) with
    | some (st, col) => finishPass (tileFault (upsetAll (passLeft s reach tile p) reach tile p ups).1 reach tile p st col) reach tile p st
    | none => if p.pois then finishPass (upsetAll (passLeft s reach tile p) reach tile p ups).1 reach tile p 0x4003
      else finishPass (countJoin (upsetAll (passLeft s reach tile p) reach tile p ups).1 reach tile p) reach tile p 0 := by
  have hev : tileEv (passLeft s reach tile p) reach tile p 0x18 p.escRows = passLeft s reach tile p :=
    tileEv_addF_off (s := updTile s reach tile (tileWithout p.no)) h.regs_sorted h.uncounted h.tile_lt (by decide) ..
  unfold endPass
  simp only [hinj, hups, hbad, List.foldl_nil, List.nil_append]
  change (let u := tileEv (passLeft s reach tile p) reach tile p 0x18 p.escRows
    let r := upsetAll u reach tile p ups
    match (match r.2.find? (fun x => x.1 == 0x4002) with | some x => some x | none => r.2.head?) with
    | some (st, col) => finishPass (tileFault r.1 reach tile p st col) reach tile p st
    | none => if p.pois then finishPass r.1 reach tile p 0x4003 else finishPass (countJoin r.1 reach tile p) reach tile p 0) = _
  rw [hev]

/-- A pass that meets nothing ends with 0, or with 0x4003 where it used poisoned data. -/
theorem endPass_clean : ∃ u, UnitWork reach tile (passLeft s reach tile p) u ∧ u.regs = (passLeft s reach tile p).regs
    ∧ endPass s reach tile p [] = finishPass u reach tile p (if p.pois then 0x4003 else 0) := by
  have hend := endPass_plain h hinj hups hbad []
  cases hpois : p.pois with
  | true => exact ⟨passLeft s reach tile p, .refl _, rfl, by rw [hend]; simp [upsetAll, hpois]⟩
  | false => exact ⟨countJoin (passLeft s reach tile p) reach tile p, .countJoin .., countJoin_regs .., by rw [hend]; simp [upsetAll, hpois]⟩

/-- A residue mismatch stands before every other condition. -/
theorem endPass_residue {ups : List TileUpset} {u : State} {l : List (Nat × Nat)} {c : Nat}
    (hall : upsetAll (passLeft s reach tile p) reach tile p ups = (u, l)) (hfind : l.find? (fun x => x.1 == 0x4002) = some (0x4002, c)) :
    endPass s reach tile p ups = finishPass (tileFault u reach tile p 0x4002 c) reach tile p 0x4002 := by
  rw [endPass_plain h hinj hups hbad, hall]
  simp only [hfind]

end Plain

/-- A field of the tile after its passes' end, apart from the counts that a pass's end writes. -/
theorem finishPass_same {u : State} (hu : mSorted none u.regs = true) {g : Field} (hg : fieldsApart g F.TILE_PASSES_COUNT = true) (status : Nat) :
    getF (finishPass u reach tile p status) reach g tile = getF u reach g tile :=
  (KeepsAt.finishPass hg (Nat.lt_trans h.tile_lt (by decide)) h.tile_lt u reach p status).same hu

/-- A clean pass leaves the tile, is counted, and completes (R148, R170). -/
theorem endsClean_gives {quad : Nat} (hrun : exec (.passComplete reach tile quad []) s = .next (endPass s reach tile p [])) (hinj : p.inject = none)
    (hups : p.upset = []) (hbad : p.badOuts = []) (hlt : getF s reach F.TILE_PASSES_COUNT tile < 2 ^ F.TILE_PASSES_COUNT.w - 1) :
    Gives (.passComplete reach tile quad []) s fun t =>
      (getTile t reach tile).flight = (getTile s reach tile).flight.filter (fun x => x.no != p.no)
        ∧ getF t reach F.TILE_PASSES_COUNT tile = getF s reach F.TILE_PASSES_COUNT tile + 1
        ∧ TicketDone s t p.op (if p.pois then 0x4003 else 0) ∧ t.mem = s.mem := by
  obtain ⟨u, hwork, hregs, hend⟩ := endPass_clean h hinj hups hbad
  have hleft := passLeft_keeps (p := p) h (g := F.TILE_PASSES_COUNT) (by decide)
  have hcount : getF u reach F.TILE_PASSES_COUNT tile = getF s reach F.TILE_PASSES_COUNT tile := (getF_congr hregs ..).trans (hleft.same h.regs_sorted)
  have hsorted : mSorted none u.regs = true := hregs ▸ hleft.sorted h.regs_sorted
  have hrunnels : u.runnels = s.runnels := hwork.runnels
  have hmem : u.mem = s.mem := hwork.mem
  obtain ⟨l, hl⟩ := hwork.tile (passLeft_tiles_sorted h)
  refine ⟨_, hrun, ?_, ?_, ?_, ?_⟩
  · rw [hend, finishPass_frame]
    refine (congrArg Tile.flight hl).trans ?_
    rw [getTile_passLeft h]
    rfl
  · rw [hend, finishPass_frame, ← hcount]
    exact getF_addF_lt hsorted (by rw [hcount]; omega)
  · rw [hend]
    exact ticketDone_finishPass hrunnels reach tile p _
  · rw [hend, finishPass_frame]
    exact hmem

/-- A fault of a pass of the whole tile, no pass queued (R168-R170). -/
theorem faultEnds {u : State} {code col : Nat} (hmode : fmtMode p.fmt = 0) (hregs : mSorted none u.regs = true) (htiles : mSorted none u.tiles = true)
    (hq : (getTile u reach tile).queue = []) (hrun : u.runnels = s.runnels) :
    let t := finishPass (tileFault u reach tile p code col) reach tile p code
    (∀ k, k < 4 → quadState u reach tile k = 0 → quadState t reach tile k = 3) ∧ getF t reach F.TILE_FAULT_CODE tile = code % 2 ^ 16
      ∧ getF t reach F.TILE_FAULT_VALID tile = 1 ∧ getF t reach F.TILE_FAULT_COL tile = col % 32 ∧ TicketDone s t p.op code ∧ t.mem = u.mem := by
  intro t
  have hfault := tileFault_whole (p := p) (code := code) (col := col) hmode htiles hq
  have hwork : UnitWork reach tile u (tileTested u reach tile p code col) := tileTested_unitWork
  have hsorted : mSorted none (tileFault u reach tile p code col).regs = true := by
    rw [hfault, putTile_regs]
    exact tileTested_sorted h.tile_lt hregs
  have hread (f : Field) (hf : fieldsApart f F.TILE_PASSES_COUNT = true) : getF t reach f tile = getF (tileTested u reach tile p code col) reach f tile := by
    refine (finishPass_same (u := tileFault u reach tile p code col) (p := p) h hsorted hf code).trans ?_
    have hregs : (tileFault u reach tile p code col).regs = (tileTested u reach tile p code col).regs := by rw [hfault, putTile_regs]
    exact getF_congr hregs reach f tile 0
  have happart : ∀ k < 4, fieldsApart (quadField k) F.TILE_PASSES_COUNT = true := by decide
  refine ⟨fun k hk hzero => (hread _ (happart k hk)).trans (quadState_tileTested h.tile_lt hregs hk hzero), ?_, ?_, ?_, ?_, ?_⟩
  · exact (hread _ (by decide)).trans (getF_tileTested (v := code) h.tile_lt hregs (by simp [faultWrites, faultFields]))
  · exact (hread _ (by decide)).trans (getF_tileTested (v := 1) h.tile_lt hregs (by simp [faultWrites, faultFields]))
  · refine (hread _ (by decide)).trans ((getF_tileTested (v := col % 32) h.tile_lt hregs (by simp [faultWrites, faultFields])).trans ?_)
    exact Nat.mod_mod col 32
  · refine ticketDone_finishPass ?_ reach tile p code
    rw [hfault, putTile_runnels, hwork.runnels]
    exact hrun
  · show (finishPass (tileFault u reach tile p code col) reach tile p code).mem = u.mem
    rw [finishPass_frame, hfault, putTile_mem, hwork.mem]

section Residue
variable (hmode : fmtMode p.fmt = 0) (hinj : p.inject = none) (hups : p.upset = []) (hbad : p.badOuts = []) (hq : (getTile s reach tile).queue = [])
  (hg : p.gpart = 0) (hpois : mSorted none s.mem.poison = true)
include hmode hinj hups hbad hq hg

/-- The end of a pass whose residue mismatch is met in a state in which at most registers, poison and what events note have changed. -/
theorem residueEnds {v : State} {quad c : Nat} {ups : List TileUpset} {l : List (Nat × Nat)}
    (hrun : exec (.passComplete reach tile quad ups) s = .next (endPass s reach tile p ups))
    (hall : upsetAll (passLeft s reach tile p) reach tile p ups = (poisonColumn v reach tile p c, l)) (hfind : l.find? (fun x => x.1 == 0x4002) = some (0x4002, c))
    (hregs : mSorted none v.regs = true) (htiles : v.tiles = (passLeft s reach tile p).tiles) (hrunnels : v.runnels = s.runnels)
    (hpois : mSorted none v.mem.poison = true) : Gives (.passComplete reach tile quad ups) s fun t =>
      (∀ k, k < 4 → quadState v reach tile k = 0 → quadState t reach tile k = 3) ∧ getF t reach F.TILE_FAULT_CODE tile = 0x4002
        ∧ getF t reach F.TILE_FAULT_VALID tile = 1 ∧ getF t reach F.TILE_FAULT_COL tile = c % 32 ∧ TicketDone s t p.op 0x4002 ∧ t.mem.bytes = v.mem.bytes
        ∧ (∀ m, m < p.count → poisoned t (wordAddr reach tile p.bank (p.row0 + m) (c % 32)) = true) ∧ (∀ a, poisoned v a = true → poisoned t a = true) := by
  have hmarks : Poisons v (poisonColumn v reach tile p c) := .poisonColumn ..
  have hregs' : (poisonColumn v reach tile p c).regs = v.regs := hmarks.regs
  have htiles' : (poisonColumn v reach tile p c).tiles = (passLeft s reach tile p).tiles := hmarks.tiles.trans htiles
  have hrunnels' : (poisonColumn v reach tile p c).runnels = s.runnels := hmarks.runnels.trans hrunnels
  have hqueue : (getTile (poisonColumn v reach tile p c) reach tile).queue = [] := by
    rw [getTile_congr htiles', getTile_passLeft h]
    exact hq
  obtain ⟨hquads, hcode, hvalid, hcol, hticket, hmem⟩ := faultEnds (s := s) (p := p) h (code := 0x4002) (col := c) hmode (hregs' ▸ hregs)
    (htiles' ▸ passLeft_tiles_sorted h) hqueue hrunnels'
  refine ⟨_, hrun.trans (congrArg Host.Outcome.next (endPass_residue h hinj hups hbad hall hfind)), fun k hk hzero => hquads k hk ?_, hcode, hvalid, hcol,
    hticket, (congrArg Mem.bytes hmem).trans hmarks.bytes, fun m hm => ?_, fun a ha => ?_⟩
  · exact (getF_congr hregs' ..).trans hzero
  · rw [poisoned, hmem]
    exact poisoned_poisonColumn hpois hmode hg hm c
  · rw [poisoned, hmem]
    exact hmarks.kept hpois a ha

include hpois

/-- A residue mismatch poisons its column and ends its pass and the service of its tile (R168-R170). -/
theorem endsResidue_gives {quad c : Nat} (hrun : exec (.passComplete reach tile quad [.residue c]) s = .next (endPass s reach tile p [.residue c]))
    (hzero : ∀ k, k < 4 → quadState s reach tile k = 0) : Gives (.passComplete reach tile quad [.residue c]) s fun t =>
      (∀ k, k < 4 → quadState t reach tile k = 3) ∧ getF t reach F.TILE_FAULT_CODE tile = 0x4002 ∧ getF t reach F.TILE_FAULT_VALID tile = 1
        ∧ getF t reach F.TILE_FAULT_COL tile = c % 32 ∧ TicketDone s t p.op 0x4002 ∧ t.mem.bytes = s.mem.bytes
        ∧ (∀ m, m < p.count → poisoned t (wordAddr reach tile p.bank (p.row0 + m) (c % 32)) = true) := by
  have happart : ∀ k < 4, fieldsApart (quadField k) F.TILE_ESCALATIONS_COUNT = true := by decide
  have hkeeps (k : Nat) (hk : k < 4) := passLeft_keeps (p := p) h (happart k hk)
  obtain ⟨t, ht, hquads, hcode, hvalid, hcol, hticket, hbytes, hpoisoned, -⟩ := residueEnds h hmode hinj hups hbad hq hg
    (v := passLeft s reach tile p) (l := [(0x4002, c)]) hrun rfl rfl ((hkeeps 0 (by decide)).sorted h.regs_sorted) rfl rfl hpois
  exact ⟨t, ht, fun k hk => hquads k hk (((hkeeps k hk).same h.regs_sorted).trans (hzero k hk)), hcode, hvalid, hcol, hticket, hbytes, hpoisoned⟩

omit h hmode hinj hups hbad hq hg hpois in
theorem upsetAll_latch_residue (u : State) (b c : Nat) : upsetAll u reach tile p [.latch b, .residue c]
    = (poisonColumn (poisonColumn (eventIn u reach 2 0 true) reach tile p b) reach tile p c, [(0x4001, b), (0x4002, c)]) := rfl

/-- A residue mismatch met with an uncorrectable latch ends the pass, and both columns are poisoned (R168). -/
theorem endsLatchResidue_gives {quad b c : Nat}
    (hrun : exec (.passComplete reach tile quad [.latch b, .residue c]) s = .next (endPass s reach tile p [.latch b, .residue c])) :
    Gives (.passComplete reach tile quad [.latch b, .residue c]) s fun t =>
      getF t reach F.TILE_FAULT_CODE tile = 0x4002 ∧ getF t reach F.TILE_FAULT_COL tile = c % 32 ∧ TicketDone s t p.op 0x4002
        ∧ (∀ m, m < p.count → poisoned t (wordAddr reach tile p.bank (p.row0 + m) (b % 32)) = true
            ∧ poisoned t (wordAddr reach tile p.bank (p.row0 + m) (c % 32)) = true) := by
  obtain ⟨hmem, hrunnels, htiles⟩ := eventIn_spares (passLeft s reach tile p) reach 2 0
  have hsorted : mSorted none (passLeft s reach tile p).regs = true :=
    (passLeft_keeps (p := p) h (g := F.TILE_PASSES_COUNT) (by decide)).sorted h.regs_sorted
  have hmarks : Poisons (eventIn (passLeft s reach tile p) reach 2 0 true) (poisonColumn (eventIn (passLeft s reach tile p) reach 2 0 true) reach tile p b) :=
    .poisonColumn ..
  have hpois' : mSorted none (eventIn (passLeft s reach tile p) reach 2 0 true).mem.poison = true := by
    rw [hmem]
    exact hpois
  obtain ⟨t, ht, -, hcode, -, hcol, hticket, -, hpoisoned, hkept⟩ := residueEnds h hmode hinj hups hbad hq hg
    (v := poisonColumn (eventIn (passLeft s reach tile p) reach 2 0 true) reach tile p b) (l := [(0x4001, b), (0x4002, c)]) hrun
    (upsetAll_latch_residue ..) rfl (hmarks.regs ▸ eventIn_regs_sorted hsorted reach 2 0) (hmarks.tiles.trans htiles) (hmarks.runnels.trans hrunnels) (hmarks.sorted hpois')
  exact ⟨t, ht, hcode, hcol, hticket, fun m hm => ⟨hkept _ (poisoned_poisonColumn hpois' hmode hg hm b), hpoisoned m hm⟩⟩

end Residue

end Ends

end Sys2Proof.Machine
end

section
/-!
PROOFS. Scope: PASS_COMPLETE: which pass it ends, and the end of an escalation pass in flight (R148, R178, R200).
-/
namespace Sys2Proof.Machine

/-! ### The pass that ends (R148, R200) -/

/-- A pass of the lane a completion names. -/
def ofLane (quad : Nat) (x : TPass) : Bool := x.lane x.fmt == (if fmtMode x.fmt = 1 then quad % 4 else 0)

/-- The escalation pass of a lane that is in flight. -/
def flyingPass (t : Tile) (quad : Nat) : Option TPass := t.flight.find? fun x => ofLane quad x && (x.esc.head?.map (·.flying)) == some true

/-- The oldest pass of a lane whose rows are all written and whose escalations have ended. -/
def endingPass (t : Tile) (quad : Nat) : Option TPass := t.flight.find? fun x => ofLane quad x && x.esc.isEmpty && decide (x.total ≤ x.row)

theorem flyingPass_none {t : Tile} (h : ∀ x ∈ t.flight, x.esc = []) (quad : Nat) : flyingPass t quad = none := by
  refine List.find?_eq_none.mpr fun x hx => ?_
  simp [h x hx]

/-- Only quad passes have lanes of their own. -/
theorem endingPass_zero (t : Tile) : endingPass t 0 = t.flight.find? (fun x => x.lane x.fmt == 0 && x.esc.isEmpty && decide (x.total ≤ x.row)) := by
  simp only [endingPass, ofLane, Nat.zero_mod, ite_self]

section Pass
variable {s : State} {reach tile quad : Nat} {p : TPass} (h : TileAtWork s reach tile)
include h

theorem exec_passComplete_ends (hfly : flyingPass (getTile s reach tile) quad = none) (hend : endingPass (getTile s reach tile) quad = some p)
    (faults : List TileUpset) : exec (.passComplete reach tile quad faults) s = .next (endPass s reach tile p faults) := by
  unfold flyingPass ofLane at hfly
  unfold endingPass ofLane at hend
  show execPassComplete reach tile quad faults s = _
  simp only [execPassComplete, h.live, Bool.not_true, Bool.false_eq_true, if_false, hfly, Option.bind_none, hend]

theorem exec_passComplete_flying (hfly : flyingPass (getTile s reach tile) quad = some p) {b : EscBatch} {rest : List EscBatch} (hesc : p.esc = b :: rest)
    (faults : List TileUpset) : exec (.passComplete reach tile quad faults) s = .next (
      if escReady s reach p b && !passAhead (getTile s reach tile) b.started then
        runEscalation (updPass s reach tile p.no (fun p => { p with upset := p.upset ++ faults })) reach tile p b
      else s) := by
  unfold flyingPass ofLane at hfly
  show execPassComplete reach tile quad faults s = _
  simp only [execPassComplete, h.live, Bool.not_true, Bool.false_eq_true, if_false, hfly, Option.bind_some, hesc, List.head?_cons, Option.map_some]

end Pass

/-! ### The end of an escalation pass (R178, R200) -/

/-- A batch after the pass of its block: the next block waits for its shadows. -/
def nextBlock (b : EscBatch) (sums : NMap Nat) : EscBatch := { b with u := b.u + 1, flying := false, sums := sums, wgot := [], agot := [] }

/-- A pass after an escalation pass of its head batch. -/
def escalated (b : EscBatch) (final pois : Bool) (sums : NMap Nat) (p : TPass) : TPass :=
  { p with pois := p.pois || pois, esc := if final then p.esc.drop 1 else updAt p.esc 0 (fun _ => nextBlock b sums) }

/-- An escalation pass writes memory alone, and only with its last block. -/
theorem runEscalation_cases (s : State) (reach tile : Nat) (p : TPass) (b : EscBatch) : ∃ u pois sums, u = { s with mem := u.mem }
    ∧ (32 * (b.u + 1) < fmtGsize p.fmt → u.mem = s.mem)
    ∧ runEscalation s reach tile p b = updPass u reach tile p.no (escalated b (decide (fmtGsize p.fmt ≤ 32 * (b.u + 1))) pois sums) := by
  unfold runEscalation
  extract_lets gs final wb side size ab step r
  refine ⟨r.1, r.2.2, r.2.1, ?_, ?_, rfl⟩
  · refine List.foldlRecOn b.rows.zipIdx step (b := ((s, b.sums, false), ab)) (motive := fun a => a.1.1 = { s with mem := a.1.1.mem }) rfl fun a ha x _ => ?_
    unfold step
    extract_lets
    split
    · dsimp only
      rw [rescaleRow_frame, ha]
    · exact ha
  · intro hlt
    refine List.foldlRecOn b.rows.zipIdx step (b := ((s, b.sums, false), ab)) (motive := fun a => a.1.1.mem = s.mem) rfl fun a ha x _ => ?_
    have hfinal : final = false := decide_eq_false (by omega)
    unfold step
    simp only [hfinal, Bool.false_eq_true, if_false]
    exact ha

section Escalation
variable {s : State} {reach tile quad : Nat} {p : TPass} (h : TileAtWork s reach tile)
  (hfly : flyingPass (getTile s reach tile) quad = some p) {b : EscBatch} {rest : List EscBatch} (hesc : p.esc = b :: rest)
include h hfly hesc

/-- The escalation pass in flight ends: its batch is done or goes on to the next block (R200). -/
theorem escalationEnds_gives (hready : escReady s reach p b = true) (hahead : passAhead (getTile s reach tile) b.started = false) :
    Gives (.passComplete reach tile quad []) s fun t =>
      (∃ x ∈ (getTile t reach tile).flight, x.no = p.no ∧ (fmtGsize p.fmt ≤ 32 * (b.u + 1) → x.esc = rest)
        ∧ (32 * (b.u + 1) < fmtGsize p.fmt → ∃ y, x.esc = y :: rest ∧ y.u = b.u + 1 ∧ y.rows = b.rows ∧ y.flying = false))
        ∧ (32 * (b.u + 1) < fmtGsize p.fmt → t.mem = s.mem) ∧ t.sched = s.sched ∧ t.runnels = s.runnels := by
  have hrun := exec_passComplete_flying h hfly hesc []
  rw [hready, hahead, Bool.not_false, Bool.and_true, if_pos rfl] at hrun
  obtain ⟨u, pois, sums, hframe, hmem, hcases⟩ := runEscalation_cases (updPass s reach tile p.no (fun p => { p with upset := p.upset ++ [] })) reach tile p b
  have htiles : u.tiles = (updPass s reach tile p.no (fun p => { p with upset := p.upset ++ [] })).tiles := by rw [hframe]
  have hp : p ∈ (getTile s reach tile).flight := List.mem_of_find?_eq_some hfly
  have hnoted : { p with upset := p.upset ++ [] } ∈ (getTile u reach tile).flight := by
    rw [getTile_congr htiles]
    exact mem_flight_updPass h.tiles_sorted hp _
  have husorted : mSorted none u.tiles = true := htiles ▸ updTile_sorted h.tiles_sorted _
  refine ⟨_, hrun, ?_⟩
  rw [hcases]
  refine ⟨⟨_, mem_flight_updPass husorted hnoted _, rfl, fun hle => ?_, fun hlt => ?_⟩, fun hlt => ?_, ?_, ?_⟩
  · simp [escalated, hle, hesc]
  · exact ⟨nextBlock b sums, by simp [escalated, Nat.not_le.mpr hlt, hesc, updAt], rfl, rfl, rfl⟩
  · exact hmem hlt
  · show u.sched = s.sched
    rw [hframe]
    rfl
  · show u.runnels = s.runnels
    rw [hframe]
    rfl

/-- It waits for its shadows and for the rows before it (R200). -/
theorem escalationWaits (hwait : escReady s reach p b = false ∨ passAhead (getTile s reach tile) b.started = true) :
    exec (.passComplete reach tile quad []) s = .next s := by
  rw [exec_passComplete_flying h hfly hesc, if_neg]
  obtain hnot | hahead := hwait
  · simp [hnot]
  · simp [hahead]

end Escalation

end Sys2Proof.Machine
end

section
/-!
PROOFS. Scope: self-tests, drains and joins of quadrants; the statement on the completion of passes and the states of units (R148, R168-R170,
R200).
-/
namespace Sys2Proof.Machine

/-! ### Bits of a field -/

theorem testBit_setBit_same (m i : Nat) (b : Bool) : (setBit m i b).testBit i = b := by
  cases b with
  | true => simp [testBit_setBit]
  | false =>
    unfold setBit
    split
    case isTrue hset =>
      have hodd : m / 2 ^ i % 2 = 1 := by simpa [Nat.testBit_eq_decide_div_mod_eq] using hset
      have hsub : (m - 2 ^ i) / 2 ^ i = m / 2 ^ i - 1 := by simpa using Nat.sub_mul_div m (2 ^ i) 1
      rw [if_neg Bool.false_ne_true, Nat.testBit_eq_decide_div_mod_eq, hsub]
      exact decide_eq_false (by omega)
    case isFalse hclear => simpa using hclear

theorem testBit_setBit_ne {i j : Nat} (h : i ≠ j) (m : Nat) (b : Bool) : (setBit m i b).testBit j = m.testBit j := by
  cases b with
  | true => simp [testBit_setBit, h]
  | false =>
    by_cases hset : m.testBit i = true
    · have hclear : (setBit m i false).testBit i = false := testBit_setBit_same m i false
      have hle : 2 ^ i ≤ m := Nat.ge_two_pow_of_testBit hset
      have hback : setBit (setBit m i false) i true = m := by
        rw [setBit, hclear]
        simp [setBit, hset, Nat.sub_add_cancel hle]
      calc (setBit m i false).testBit j = (setBit (setBit m i false) i true).testBit j := by simp [testBit_setBit, h]
        _ = m.testBit j := by rw [hback]
    · simp [setBit, hset]

section Bits
variable {s : State} (hs : mSorted none s.regs = true) {f : Field} {k : Nat} (hk : k < f.w)
include hs hk

theorem testBit_setFBit_same (isl i : Nat) (b : Bool) : (getF (setFBit s isl f k b i) isl f i).testBit k = b := by
  rw [setFBit, getF_setF_same hs, Nat.testBit_mod_two_pow, testBit_setBit_same]
  simp [hk]

theorem testBit_setFBit_ne {q : Nat} (hne : q ≠ k) (isl i : Nat) (b : Bool) :
    (getF (setFBit s isl f q b i) isl f i).testBit k = (getF s isl f i).testBit k := by
  rw [setFBit, getF_setF_same hs, Nat.testBit_mod_two_pow, testBit_setBit_ne hne]
  simp [hk]

end Bits

/-! ### Self-tests (R169) -/

section SelfTest
variable {s t u : State} {reach tile quads failed q : Nat}

/-- The self-test of a quadrant has ended. -/
def bistEnded (s : State) (reach tile failed q : Nat) : State :=
  setFBit (setFBit s reach F.TILE_QSTATE_BIST_DONE q true tile) reach F.TILE_QSTATE_BIST_FAIL q (bit failed q) tile

/-- A self-test that ends where one goes on. -/
def bistStep (reach tile quads failed : Nat) (s : State) (q : Nat) : State :=
  if bit quads q && quadState s reach tile q == 3 && !bit (getF s reach F.TILE_QSTATE_BIST_DONE tile) q then bistEnded s reach tile failed q else s

/-- What is read of a quadrant and its self-test is as before. -/
structure TestKept (reach tile q : Nat) (s t : State) : Prop where
  sorted : mSorted none s.regs = true → mSorted none t.regs = true
  state : mSorted none s.regs = true → quadState t reach tile q = quadState s reach tile q
  done : mSorted none s.regs = true →
    (getF t reach F.TILE_QSTATE_BIST_DONE tile).testBit q = (getF s reach F.TILE_QSTATE_BIST_DONE tile).testBit q
  fail : mSorted none s.regs = true →
    (getF t reach F.TILE_QSTATE_BIST_FAIL tile).testBit q = (getF s reach F.TILE_QSTATE_BIST_FAIL tile).testBit q

namespace TestKept

theorem refl (s : State) : TestKept reach tile q s s := ⟨id, fun _ => rfl, fun _ => rfl, fun _ => rfl⟩

theorem trans (h : TestKept reach tile q s t) (h' : TestKept reach tile q t u) : TestKept reach tile q s u :=
  ⟨fun hs => h'.sorted (h.sorted hs), fun hs => (h'.state (h.sorted hs)).trans (h.state hs), fun hs => (h'.done (h.sorted hs)).trans (h.done hs),
    fun hs => (h'.fail (h.sorted hs)).trans (h.fail hs)⟩

theorem foldl {f : State → Nat → State} {l : List Nat} (h : ∀ s, ∀ k ∈ l, TestKept reach tile q s (f s k)) (s : State) :
    TestKept reach tile q s (l.foldl f s) := by
  induction l generalizing s with
  | nil => exact refl s
  | cons k l ih => exact (h s k List.mem_cons_self).trans (ih (fun s j hj => h s j (List.mem_cons_of_mem k hj)) _)

end TestKept

section Done
variable (hs : mSorted none s.regs = true) (ht : tile < 48)
include hs

theorem bistDone_sorted (k : Nat) (b : Bool) : mSorted none (setFBit s reach F.TILE_QSTATE_BIST_DONE k b tile).regs = true := setF_regs_sorted hs ..

include ht

/-- The write of a self-test's result leaves which self-tests are done. -/
theorem getF_done_bistFail (k : Nat) (b : Bool) :
    getF (setFBit s reach F.TILE_QSTATE_BIST_FAIL k b tile) reach F.TILE_QSTATE_BIST_DONE tile = getF s reach F.TILE_QSTATE_BIST_DONE tile :=
  (KeepsAt.setFBit (g := F.TILE_QSTATE_BIST_DONE) (f := F.TILE_QSTATE_BIST_FAIL) (by decide) (Nat.lt_trans ht (by decide))
    (Nat.lt_trans ht (by decide)) s reach k b).same hs

/-- That a self-test is done leaves the results. -/
theorem getF_fail_bistDone (k : Nat) (b : Bool) :
    getF (setFBit s reach F.TILE_QSTATE_BIST_DONE k b tile) reach F.TILE_QSTATE_BIST_FAIL tile = getF s reach F.TILE_QSTATE_BIST_FAIL tile :=
  (KeepsAt.setFBit (g := F.TILE_QSTATE_BIST_FAIL) (f := F.TILE_QSTATE_BIST_DONE) (by decide) (Nat.lt_trans ht (by decide))
    (Nat.lt_trans ht (by decide)) s reach k b).same hs

theorem bistEnded_done {k : Nat} (hk : k < 4) : (getF (bistEnded s reach tile failed k) reach F.TILE_QSTATE_BIST_DONE tile).testBit k = true := by
  rw [bistEnded, getF_done_bistFail (bistDone_sorted hs ..) ht]
  exact testBit_setFBit_same hs hk ..

omit ht in
theorem bistEnded_fail {k : Nat} (hk : k < 4) :
    (getF (bistEnded s reach tile failed k) reach F.TILE_QSTATE_BIST_FAIL tile).testBit k = failed.testBit k :=
  testBit_setFBit_same (bistDone_sorted hs ..) hk ..

end Done

section Steps
variable (ht : tile < 48) (hq : q < 4)
include ht hq

/-- The end of another quadrant's self-test. -/
theorem testKept_bistEnded {k : Nat} (hne : k ≠ q) (s : State) : TestKept reach tile q s (bistEnded s reach tile failed k) := by
  have htile : tile < 2048 := Nat.lt_trans ht (by decide)
  obtain ⟨hdone, hfail⟩ := quadField_bist q hq
  have hstate : KeepsAt reach (quadField q) tile s (bistEnded s reach tile failed k) :=
    (KeepsAt.setFBit hdone htile htile s reach k true).trans (.setFBit hfail htile htile _ reach k (bit failed k))
  refine ⟨hstate.sorted, hstate.same, fun hs => ?_, fun hs => ?_⟩
  · rw [bistEnded, getF_done_bistFail (bistDone_sorted hs ..) ht]
    exact testBit_setFBit_ne hs hq hne ..
  · rw [bistEnded, testBit_setFBit_ne (bistDone_sorted hs ..) hq hne, getF_fail_bistDone hs ht]

/-- A step of another quadrant, or of none. -/
theorem testKept_bistStep {k : Nat} (h : k ≠ q ∨ quads.testBit k = false) (s : State) : TestKept reach tile q s (bistStep reach tile quads failed s k) := by
  unfold bistStep
  split
  case isTrue hends =>
    simp only [bit, Bool.and_eq_true] at hends
    obtain ⟨⟨hquad, -⟩, -⟩ := hends
    exact testKept_bistEnded ht hq (h.resolve_right (by simp [hquad])) s
  case isFalse => exact .refl s

/-- A quadrant whose self-test does not end. -/
theorem testKept_selfTests (hquad : quads.testBit q = false) (l : List Nat) (s : State) :
    TestKept reach tile q s (l.foldl (bistStep reach tile quads failed) s) :=
  .foldl (fun s k _ => testKept_bistStep ht hq (by by_cases hkq : k = q; exacts [.inr (hkq ▸ hquad), .inl hkq]) s) s

/-- A quadrant in TESTING whose self-test ends is done, with its result. -/
theorem selfTests_end (hs : mSorted none s.regs = true) {l : List Nat} (hl : l.Nodup) (hmem : q ∈ l) (hquad : quads.testBit q = true)
    (htesting : quadState s reach tile q = 3) (hopen : (getF s reach F.TILE_QSTATE_BIST_DONE tile).testBit q = false) :
    (getF (l.foldl (bistStep reach tile quads failed) s) reach F.TILE_QSTATE_BIST_DONE tile).testBit q = true
      ∧ (getF (l.foldl (bistStep reach tile quads failed) s) reach F.TILE_QSTATE_BIST_FAIL tile).testBit q = failed.testBit q := by
  induction l generalizing s with
  | nil => cases hmem
  | cons k l ih =>
    obtain ⟨hnot, hl'⟩ := List.nodup_cons.mp hl
    by_cases hkq : k = q
    · subst hkq
      have hstep : bistStep reach tile quads failed s k = bistEnded s reach tile failed k := if_pos (by simp [bit, hquad, htesting, hopen])
      have hends : mSorted none (bistEnded s reach tile failed k).regs = true := setF_regs_sorted (bistDone_sorted hs ..) ..
      have hrest : TestKept reach tile k (bistEnded s reach tile failed k) (l.foldl (bistStep reach tile quads failed) (bistEnded s reach tile failed k)) :=
        .foldl (fun u j hj => testKept_bistStep ht hq (.inl fun heq => hnot (heq ▸ hj)) u) _
      rw [List.foldl_cons, hstep]
      exact ⟨(hrest.done hends).trans (bistEnded_done hs ht hq), (hrest.fail hends).trans (bistEnded_fail hs hq)⟩
    · have hkept : TestKept reach tile q s (bistStep reach tile quads failed s k) := testKept_bistStep ht hq (.inl hkq) s
      exact ih (hkept.sorted hs) hl' ((List.mem_cons.mp hmem).resolve_left (Ne.symm hkq)) ((hkept.state hs).trans htesting)
        ((hkept.done hs).trans hopen)

end Steps

/-- The fields of a tile's self-tests. -/
def bistKeys (reach tile : Nat) : List Nat := [fieldKey reach F.TILE_QSTATE_BIST_DONE tile 0, fieldKey reach F.TILE_QSTATE_BIST_FAIL tile 0]

/-- No more than listed fields changes. -/
structure WritesOnly (l : List Nat) (s t : State) : Prop where
  sorted : mSorted none s.regs = true → mSorted none t.regs = true
  regs : mSorted none s.regs = true → RegsBut s t l
  frame : t = { s with regs := t.regs }

namespace WritesOnly
variable {l : List Nat}

theorem refl (s : State) : WritesOnly l s s := ⟨id, fun _ _ _ => rfl, rfl⟩

theorem trans (h : WritesOnly l s t) (h' : WritesOnly l t u) : WritesOnly l s u := by
  refine ⟨fun hs => h'.sorted (h.sorted hs), fun hs k hk => (h'.regs (h.sorted hs) k hk).trans (h.regs hs k hk), ?_⟩
  rw [h'.frame, h.frame]

theorem foldl {f : State → Nat → State} (h : ∀ s k, WritesOnly l s (f s k)) (ks : List Nat) (s : State) : WritesOnly l s (ks.foldl f s) := by
  induction ks generalizing s with
  | nil => exact refl s
  | cons k ks ih => exact (h s k).trans (ih (f s k))

theorem setFBit {isl i : Nat} {f : Field} (hf : fieldKey isl f i 0 ∈ l) (s : State) (b : Nat) (v : Bool) : WritesOnly l s (setFBit s isl f b v i) :=
  ⟨fun hs => setF_regs_sorted hs .., fun hs k hk => regsBut_setF hs isl f _ i 0 k (by simpa using fun heq : k = _ => hk (heq ▸ hf)), rfl⟩

/-- Self-tests that end change no more than the fields of the tile's self-tests. -/
theorem selfTests (l : List Nat) (s : State) : WritesOnly (bistKeys reach tile) s (l.foldl (bistStep reach tile quads failed) s) := by
  refine foldl (fun s k => ?_) l s
  unfold bistStep
  split
  · have hdone : WritesOnly (bistKeys reach tile) s (Machine.setFBit s reach F.TILE_QSTATE_BIST_DONE k true tile) := .setFBit (by simp [bistKeys]) s k true
    exact hdone.trans (.setFBit (by simp [bistKeys]) _ k (bit failed k))
  · exact refl s

end WritesOnly

end SelfTest

/-! ### Drains and joins (R170) -/

section Units
variable {s : State} {reach tile q : Nat}

/-- A quadrant's state is not the module's. -/
theorem working_setQuad (hs : mSorted none s.regs = true) (ht : tile < 48) (v : Nat) : working (setQuad s reach tile q v) = working s := by
  have hkept : KeepsAt 59 F.WEIR_STATUS_MSTATE 0 s (setQuad s reach tile q v) :=
    .setF (fieldsApart_quadField (by decide) q) (by decide) (Nat.lt_trans ht (by decide)) (by decide) s reach v
  simp only [working, running, hkept.same hs]
  rfl

theorem unitMoved_regs (s : State) : (unitMoved s).regs = s.regs := (congrArg State.regs (unitMoved_frame s) :)

theorem unitMoves_setQuad (hs : mSorted none s.regs = true) (ht : tile < 48) (v : Nat) : UnitMoves s (unitMoved (setQuad s reach tile q v)) := by
  refine ⟨_, ?_, rfl⟩
  rw [unitMoved, working_setQuad hs ht]
  split
  · rfl
  · simp only [List.append_nil]
    rfl

section Steps
variable (hq : q < 4)
include hq

/-- A quadrant that drains is OFFLINE once nothing of it is left. -/
theorem drainEnds_gives (h : TileAtWork s reach tile) (hstate : quadState s reach tile q = 1) (hidle : quadBusy s reach tile q = false) :
    Gives (.tileDrainComplete reach tile q) s fun t =>
      quadState t reach tile q = 2 ∧ RegsBut s t [fieldKey reach (quadField q) tile 0] ∧ UnitMoves s t := by
  have hrun : exec (.tileDrainComplete reach tile q) s = .next (unitMoved (setQuad s reach tile q 2)) := by
    show execTileDrainComplete reach tile q s = _
    rw [execTileDrainComplete, Nat.mod_eq_of_lt hq, if_pos ⟨hstate, hidle⟩]
  refine ⟨_, hrun, ?_, RegsBut.of_regs (regsBut_setF h.regs_sorted reach (quadField q) 2 tile 0) (unitMoved_regs _), unitMoves_setQuad h.regs_sorted h.tile_lt 2⟩
  exact (getF_congr (unitMoved_regs _) ..).trans (quadState_setQuad h.regs_sorted q 2)

theorem drainWaits (hbusy : quadBusy s reach tile q = true) : exec (.tileDrainComplete reach tile q) s = .next s := by
  show execTileDrainComplete reach tile q s = _
  rw [execTileDrainComplete, Nat.mod_eq_of_lt hq, if_neg (by simp [hbusy])]

/-- A quadrant that joins is ONLINE after 64 clean passes. -/
theorem joinEnds_gives (h : TileAtWork s reach tile) (hstate : quadState s reach tile q = 4) (hpasses : 64 ≤ (getTile s reach tile).joins.getD q 0) :
    Gives (.tileJoinCountReached reach tile q) s fun t =>
      quadState t reach tile q = 0 ∧ (getTile t reach tile).joins = (getTile s reach tile).joins.set q 0 ∧ t.mem = s.mem := by
  have hrun : exec (.tileJoinCountReached reach tile q) s
      = .next (updTile (unitMoved (setQuad s reach tile q 0)) reach tile (fun t => { t with joins := t.joins.set q 0 })) := by
    show execTileJoinCountReached reach tile q s = _
    simp only [execTileJoinCountReached, Nat.mod_eq_of_lt hq, hstate, hpasses, and_self, if_true]
  have htiles : (unitMoved (setQuad s reach tile q 0)).tiles = s.tiles := (congrArg State.tiles (unitMoved_frame _) :)
  refine ⟨_, hrun, ?_, ?_, (congrArg State.mem (unitMoved_frame _) :)⟩
  · exact (getF_congr (unitMoved_regs _) ..).trans (quadState_setQuad h.regs_sorted q 0)
  · rw [getTile_updTile (htiles ▸ h.tiles_sorted), getTile_congr htiles]

theorem joinWaits (hpasses : (getTile s reach tile).joins.getD q 0 < 64) : exec (.tileJoinCountReached reach tile q) s = .next s := by
  show execTileJoinCountReached reach tile q s = _
  simp only [execTileJoinCountReached, Nat.mod_eq_of_lt hq, Nat.not_le.mpr hpasses, and_false, if_false]

end Steps
end Units

/-! ### The statement -/

/-- Settles O39: the end of a pass finds its status among the conditions it met, and every step of a unit writes fields that lie apart. -/
theorem passesCompleteAndUnitsMove : Obligations.PassesCompleteAndUnitsMove := by
  unfold Obligations.PassesCompleteAndUnitsMove
  intro s reach tile q h hq
  refine ⟨fun p hesc hend hmode hinj hups hbad hlt => ?_, fun quad p => ⟨fun hfly hend hinj hups hbad hlt => ?_, fun b rest hfly hesc => ⟨?_, ?_⟩⟩,
    fun quads failed => ?_, fun hstate hidle => drainEnds_gives hq h hstate hidle, fun _ hbusy => drainWaits hq hbusy,
    fun hstate hpasses => joinEnds_gives hq h hstate hpasses, fun _ hpasses => joinWaits hq hpasses⟩
  · have hends (faults : List TileUpset) : exec (.passComplete reach tile 0 faults) s = .next (endPass s reach tile p faults) :=
      exec_passComplete_ends h (flyingPass_none hesc 0) ((endingPass_zero _).trans hend) faults
    exact ⟨endsClean_gives h (hends []) hinj hups hbad hlt,
      fun c hqueue hg hpois hzero => endsResidue_gives h hmode hinj hups hbad hqueue hg hpois (hends _) hzero,
      fun b c hqueue hg hpois _ => endsLatchResidue_gives h hmode hinj hups hbad hqueue hg hpois (hends _)⟩
  · exact endsClean_gives h (exec_passComplete_ends h hfly hend []) hinj hups hbad hlt
  · exact escalationEnds_gives h hfly hesc
  · exact escalationWaits h hfly hesc
  · have honly : WritesOnly (bistKeys reach tile) s ([0, 1, 2, 3].foldl (bistStep reach tile quads failed) s) := .selfTests [0, 1, 2, 3] s
    refine ⟨[0, 1, 2, 3].foldl (bistStep reach tile quads failed) s, rfl, fun hquad htesting hopen => ?_, fun hquad => ?_, honly.regs h.regs_sorted, honly.frame⟩
    · exact selfTests_end h.tile_lt hq h.regs_sorted (by decide) (by simp; omega) hquad htesting hopen
    · have hkept : TestKept reach tile q s ([0, 1, 2, 3].foldl (bistStep reach tile quads failed) s) := testKept_selfTests h.tile_lt hq hquad _ s
      exact ⟨hkept.done h.regs_sorted, hkept.fail h.regs_sorted⟩

end Sys2Proof.Machine
end
